-- ==== Sys2Proof/Word.lean ====
section
/-! DEFINITION. The plain word types of the model: bytes, byte strings and the numbers of the device's units (R450). -/

set_option Elab.async false

namespace Sys2Proof

/-- One byte on a wire or in a table. -/
abbrev Byte := BitVec 8

/-- A byte string, first byte first. -/
abbrev Bytes := List Byte

/-- A colour bar, 0 to 7. -/
abbrev Bar := Fin 8

/-- A head lane, 0 to 31. -/
abbrev Lane := Fin 32

/-- A slice engine, 0 to 16; engine 16 is the spare. -/
abbrev Engine := Fin 17

/-- A memory channel, 0 to 3. -/
abbrev Chan := Fin 4

/-- A position channel, 0 to 11. -/
abbrev PosCh := Fin 12

/-- A compare unit, 0 to 15. -/
abbrev CmpUnit := Fin 16

/-- A camera port, 0 to 3. -/
abbrev CamPort := Fin 4

end Sys2Proof
end

