-- ==== Sys2Proof/CommandTypes.lean ====
section
/-! DEFINITION. The types of what commands carry: datagram headers, frames, blocks and messages as they arrive. -/

set_option Elab.async false

namespace Sys2Proof

/-- An IP address: version 6 or 4, and the address as a number. -/
structure Ip where
  v6 : Bool
  addr : Nat
  deriving DecidableEq, Repr

/-- A UDP endpoint of a host. -/
structure Endpoint where
  ip : Ip
  port : BitVec 16
  deriving DecidableEq, Repr

/-- The header of an arriving Wilwa datagram (R57) but for its MsgType, which the command names, with the
endpoint it came from, the IP address it was sent to and the tag that follows its payload (R59). -/
structure Hdr where
  src : Endpoint
  dst : Ip
  version : BitVec 8
  sid : BitVec 16
  seq : BitVec 32
  payloadLength : BitVec 16
  flags : BitVec 8
  reserved : BitVec 8
  status : BitVec 32
  tag : Bytes
  deriving DecidableEq, Repr

/-- A firmware image slot of the quad-SPI NOR as boot finds it (R36): whether the NOR and the header read, its public key, its
security version, what its signature covers, the signature (r, s), its firmware version (assumption 64). -/
structure Image where
  readOk : Bool
  headerOk : Bool
  publicKey : Bytes
  security : BitVec 16
  signed : Bytes
  sigR : BitVec 384
  sigS : BitVec 384
  firmware : BitVec 32
  deriving DecidableEq, Repr

/-- The PTP messages that the switch tells apart (R88, R94). -/
inductive PtpKind where
  | sync | delayReq | pdelayReq | pdelayResp | followUp | delayResp | pdelayRespFollowUp | announce | management | signaling
  deriving DecidableEq, Repr

/-- What a frame asks of an IP address that the device may hold (R90): address resolution, neighbour discovery, an echo. -/
inductive IpAsk where
  | arp (target : BitVec 32)
  | neighbour (target : BitVec 128)
  | echo (dst : Ip) (body : Bytes)
  deriving DecidableEq, Repr

/-- An Ethernet frame at a switch port: addresses, VLAN tag, length with tag and FCS, whether the FCS is good, the PTP
message it carries with its correctionField in 2^-16 ns. -/
structure Frame where
  dst : BitVec 48
  src : BitVec 48
  pcp : Option (BitVec 3)
  vid : BitVec 12
  length : Nat
  fcsOk : Bool
  ptp : Option PtpKind
  correction : Int
  deriving DecidableEq, Repr

/-- An 80-bit PTP port identity and the rest of the announced data set of IEEE 1588 (R93). -/
structure Announce where
  domain : BitVec 8
  mapping : BitVec 2
  priority1 : BitVec 8
  clockClass : BitVec 8
  accuracy : BitVec 8
  variance : BitVec 16
  priority2 : BitVec 8
  grandmaster : BitVec 64
  steps : BitVec 16
  sender : BitVec 80
  logInterval : Int
  deriving DecidableEq, Repr

/-- What a Sync, Follow_Up or Delay_Resp carries: its domain, sender, sequence, timestamp in ns of the PTP timescale
and correctionField in 2^-16 ns, the switch port and transport mapping it came by, its logMessageInterval. -/
structure PtpMsg where
  port : BitVec 2
  mapping : BitVec 2
  domain : BitVec 8
  sender : BitVec 80
  seq : BitVec 16
  twoStep : Bool
  time : Nat
  correction : Int
  logInterval : Int
  deriving DecidableEq, Repr

/-- A raster block as its words arrive (R116): header fields, payload before padding and trailer fields, with the words
that the writer skipped while it searched for this header. -/
structure RasterBlock where
  skipped : Nat
  magic : BitVec 16
  headerVersion : BitVec 8
  codec : BitVec 8
  jobId : BitVec 32
  barMask : BitVec 8
  kind : BitVec 8
  generation : BitVec 16
  firstLine : BitVec 32
  lineCount : BitVec 16
  payloadLength : BitVec 32
  sequence : BitVec 32
  headerCrc : BitVec 32
  payload : Bytes
  blockCrc : BitVec 32
  trailerSequence : BitVec 32
  endMagic : BitVec 16
  /-- Its header was taken before what now keeps the intake closed. -/
  begun : Bool
  /-- Invalid sync headers that lanes 32 to 35 saw since the block before it. -/
  laneErrors : Vector Nat 4
  deriving DecidableEq, Repr

/-- How a training or restore of a memory channel ended (R159, R161): every step succeeded; a step failed, with the
failing device; or the present step completed and a queued change takes over. -/
inductive TrainOutcome where
  | done
  | failed (step : BitVec 4) (device : BitVec 8)
  | stepDone
  deriving DecidableEq, Repr

/-- A HELLO (R350). -/
structure Hello where
  versions : BitVec 8
  chosen : BitVec 8
  role : BitVec 8
  devState : BitVec 8
  serial : BitVec 64
  keyGen : BitVec 32
  stepping : BitVec 8
  echoTag : BitVec 16
  echoReturn : BitVec 16
  turnaround : BitVec 32
  deriving DecidableEq, Repr

/-- One channel of the state block (R353). -/
structure BlkChan where
  position : BitVec 32
  speed : BitVec 32
  interval : BitVec 32
  status : BitVec 32
  deriving DecidableEq, Repr

/-- One bar of the state block: line clock, run state, high-water mark, line-event count, next line position, print line,
design line, repeat index, stream and duty counts, colour-hold mode, window and gain stamp. -/
structure BlkBar where
  clock : BitVec 8
  run : BitVec 8
  high : BitVec 32
  count : BitVec 32
  next : BitVec 48
  p : BitVec 32
  design : BitVec 32
  repeatIdx : BitVec 32
  expected : BitVec 32
  windowLines : BitVec 32
  dutyIdx : BitVec 32
  nextPrep : BitVec 32
  holdMode : BitVec 8
  window : BitVec 32
  gainStamp : BitVec 48
  /-- AdvisedGain, live ZoneGain and integrator per zone; the integrator's 64 bits are given by the number they stand for. -/
  zones : List (BitVec 16 × BitVec 16 × Rat)
  deriving DecidableEq, Repr

/-- The state block of a STATE frame (R353). -/
structure StateBlock where
  keyGen : BitVec 32
  keyRemaining : BitVec 32
  devState : BitVec 8
  holdResume : BitVec 8
  chans : Vector BlkChan 12
  bars : Vector BlkBar 8
  current : BitVec 8
  queued : BitVec 8
  changeAt : BitVec 32
  slotStates : Vector (BitVec 8) 2
  slotSums : Vector (BitVec 32) 2
  fwdOldest : BitVec 32
  fwdOut : BitVec 8
  generations : List (BitVec 32)
  outputs : BitVec 16
  compareEnable : BitVec 16
  deriving DecidableEq, Repr

/-- What an HDM tells of itself in its CAP frame (R261, R264). -/
structure CapUp where
  versions : Nat
  chosen : Nat
  input : Nat
  model : Nat
  firmware : Nat
  serial : Nat
  headCount : Nat
  kind : Nat
  elements : Nat
  maxRate : Nat
  fireOffset : Nat
  asymmetry : Int
  maxTurnaround : Nat
  deriving DecidableEq, Repr, Inhabited

/-- A Status STAT (R264). -/
structure HdmStatus where
  ownerState : BitVec 4
  flags : BitVec 8
  genMax : BitVec 32
  fired : BitVec 32
  rejects : BitVec 16
  crcErrors : BitVec 16
  mismatches : BitVec 16
  faultMask : BitVec 16
  temps : List (BitVec 8)
  deriving DecidableEq, Repr

/-- A MeasResult STAT (R264). -/
structure MeasResult where
  tag : BitVec 8
  result : BitVec 8
  first : BitVec 16
  count : BitVec 8
  kind : BitVec 8
  head : BitVec 8
  values : List (BitVec 16)
  deriving DecidableEq, Repr

/-- A LINE frame (R261, R262). -/
structure HdmLine where
  head : Nat
  number : Nat
  elements : Nat
  zeroLine : Bool
  bar : Nat
  levels : List Nat
  deriving DecidableEq, Repr

/-- The bar of a TOKEN's extension with the rest of what the token and its extension carry beside the tags (R263): Delay, Late, Lane. -/
structure TokenHead where
  bar : BitVec 3
  delay : BitVec 3
  late : Bool
  lane : BitVec 8
  deriving DecidableEq, Repr

/-- What the ECC of a CSI-2 packet header finds (R298, R300). -/
inductive Ecc where
  | clean | corrected | bad
  deriving DecidableEq, Repr

/-- The header of a CSI-2 packet: its ECC and its virtual channel (R298). -/
structure CsiHead where
  ecc : Ecc
  vc : BitVec 4
  deriving DecidableEq, Repr

/-- A camera line as a port receives it (R298 to R300): its header and data type, its samples in the order received (the bytes of
RGB888, the pixels of RAW), whether its payload CRC checks, the native ns from its header's arrival to its end. -/
structure CsiLine where
  head : CsiHead
  dataType : BitVec 8
  samples : List Nat
  crcOk : Bool
  age : Nat
  deriving DecidableEq, Repr

/-- How the camera answered a CCI batch: the transactions it acknowledged only when repeated, and the one whose repeat failed too
(R302). -/
structure CciAnswer where
  repeated : List Nat
  failed : Option Nat
  deriving DecidableEq, Repr

/-- A SLOT frame (R358). -/
structure SlotFrame where
  slot : BitVec 8
  state : BitVec 8
  job : BitVec 32
  gen : BitVec 16
  sum : BitVec 32
  deriving DecidableEq, Repr

/-- A report that a unit outside this model's own steps sends to FLT (R375): source, code, island and data. -/
structure FaultMsg where
  source : BitVec 16
  code : BitVec 16
  island : BitVec 8
  data : Bytes
  deriving DecidableEq, Repr

end Sys2Proof
end

