-- ==== Sys2Proof/Syntax.lean ====
section
/-! DEFINITION. The commands of the block: one constructor per row of the table of operations and events. -/

set_option Elab.async false

namespace Sys2Proof

/-- A command: an operation of a host, a partner or a machine, or an event on a pin, a link or a timer. -/
inductive Instr where
  /-- SUPPLIES_IN_RANGE (R25): All supplies reach their recommended range with PORST_N low, and the device moves from OFF to RESET. -/
  | suppliesInRange
  /-- SUPPLY_OUT_OF_RANGE (R429): A supply falls below its range at the ball, and the device goes to OFF with every ball at its OFF level. -/
  | supplyOutOfRange (supply : Fin 8)
  /-- PORST_LOW (R39): PORST_N held low for at least 10 µs causes a power-on reset and puts the device in RESET. -/
  | porstLow
  /-- PORST_RISE (R25): PORST_N rises with the trip latch clear, the device enters BOOT and the boot sequence starts at t0. -/
  | porstRise
  /-- BOOT_COMPLETE (R36): Firmware authentication and self-test finish: STANDBY on success, or BOOT with the quad-SPI balls released when both slots fail. -/
  | bootComplete (a b : Image)
  /-- VDD_AON_REMOVED (R420): Removal of VDD_AON clears the trip latch and loses the ring, so the next start is a power-on start. -/
  | vddAonRemoved
  /-- REQUEST_STANDBY (R25): StateRequest = 3 moves the device from CONFIGURED or FROZEN to STANDBY. -/
  | requestStandby (h : Hdr)
  /-- REQUEST_CONFIGURED (R26): StateRequest = 4 checks the preconditions, then starts memory, Raster port and lane training, or stops the bars at their line boundaries. -/
  | requestConfigured (h : Hdr)
  /-- CONFIGURED_TRAINING_DONE (R26): Training for a CONFIGURED request completes: the device enters CONFIGURED on success, or stays in STANDBY with F1003h on failure. -/
  | configuredTrainingDone
  /-- REQUEST_ARMED (R27): StateRequest = 5 checks duty limits, maps, lanes and FIRE_EN, makes the queued slot current and enters ARMED. -/
  | requestArmed (h : Hdr)
  /-- REQUEST_PRINTING (R29): StateRequest = 6 from HELD starts the training burst on the active lanes before resuming. -/
  | requestPrinting (h : Hdr)
  /-- RESUME_BURST_END (R29): The resume training burst ends: the lanes send OWNER first, and the device enters PRINTING or ARMED according to HoldResumeMode. -/
  | resumeBurstEnd (failed : BitVec 32)
  /-- REQUEST_HELD (R28): StateRequest = 7 stops each printing bar at its next line boundary and enters HELD. -/
  | requestHeld (h : Hdr)
  /-- REQUEST_FROZEN (R31): StateRequest = 8 enters FROZEN and stops tokens, OWNER frames, FIRE_OK, intake and Key renewal. -/
  | requestFrozen (h : Hdr)
  /-- RESET_REQUEST_CHIP (R41): ResetRequest = 1 schedules a chip reset 1 ms after the response is sent. -/
  | resetRequestChip (h : Hdr)
  /-- CHIP_RESET (R39): A scheduled chip reset, requested by the host or by a CHIPRESET reaction, takes effect: all logic outside AON is reset and boot runs. -/
  | chipReset
  /-- RESET_REQUEST_BLOCK (R386): ResetRequest = 2 with BlockSelect starts a block reset of one subsystem or unit. -/
  | resetRequestBlock (h : Hdr)
  /-- BLOCK_RESET_COMPLETE (R386): A block reset completes, and the block-specific restarts are applied. -/
  | blockResetComplete
  /-- ENGINE_SELF_TEST_DONE (R220): An engine's self-test after a block reset ends: the engine returns to service and takes a slice, or fails again. -/
  | engineSelfTestDone (n : Engine) (pass : Bool)
  /-- DOMAIN_REQUEST (R45): A DomainRequest write is checked and starts the domain switching sequence. -/
  | domainRequest (h : Hdr) (value : BitVec 32)
  /-- DOMAIN_SEQUENCE_DONE (R45): The domain switching completes, and Busy clears; the device enters or leaves DEEP as the result requires. -/
  | domainSequenceDone (failed : Option (Fin 12 × BitVec 32))
  /-- MGT_NET_OFF_DELAY_EXPIRY (R47): 1 ms after the response, the switch-off of MGT and NET begins and the dictionary goes silent. -/
  | mgtNetOffDelayExpiry
  /-- WAKE_N_ASSERT (R49): WAKE_N low for 10 µs either wakes MGT and NET from DEEP or only increments WakeIgnored. -/
  | wakeNAssert (a b : Image)
  /-- OPEN_REQUEST (R60): An OpenRequest negotiates a version and opens a session at observer level, or resends the stored response for a retransmission. -/
  | openRequest (h : Hdr) (versions : Bytes) (emergency : BitVec 8)
  /-- UNLOCK_REQUEST (R66): An UnlockRequest is answered with a Challenge carrying a fresh DeviceNonce, or is refused. -/
  | unlockRequest (h : Hdr) (level : BitVec 8) (nonce : Bytes)
  /-- PROOF (R66): A Proof is checked against the credential; the level is granted or the proof is rejected and counted. -/
  | proof (h : Hdr) (proof : Bytes)
  /-- UNLOCK_EXCHANGE_TIMEOUT (R66): No Proof arrives within 1 s of the Challenge, and the unlock exchange is abandoned. -/
  | unlockExchangeTimeout (sid : BitVec 16)
  /-- UNLOCK_LOCKOUT_END (R68): The 60 s unlock lockout after three rejected proofs ends. -/
  | unlockLockoutEnd
  /-- CLOSE (R63): A Close ends the session's transfers and cyclic streams and frees its level. -/
  | close (h : Hdr)
  /-- KEEP_ALIVE (R62): A KeepAlive is answered and keeps the session open. -/
  | keepAlive (h : Hdr)
  /-- SESSION_TIMEOUT (R63): No datagram arrives from a session for SessionTimeout, and the session closes. -/
  | sessionTimeout (sid : BitVec 16)
  /-- READ (R72): A Read request is checked and returns the live value or the shadow value. -/
  | read (h : Hdr) (idx : BitVec 16) (sub opts : BitVec 8)
  /-- WRITE (R72): A Write request is checked in order and is then executed or refused. -/
  | write (h : Hdr) (idx : BitVec 16) (sub opts : BitVec 8) (value : Bytes)
  /-- DESCRIBE (R71): A Describe request returns the object's type, access, level, class and limits. -/
  | describe (h : Hdr) (idx : BitVec 16) (sub opts : BitVec 8)
  /-- MALFORMED_DATAGRAM (R57): A datagram shorter than the header is discarded and counted in MalformedCount. -/
  | malformedDatagram (length : Nat)
  /-- OVERSIZE_DATAGRAM (R56): A datagram longer than the UDP limit is discarded and counted in OversizeCount. -/
  | oversizeDatagram (length : Nat) (v6 : Bool)
  /-- TRANSFER_INIT (R77): A TransferInit is checked and opens a download or upload with its SegmentSize and Window. -/
  | transferInit (h : Hdr) (idx : BitVec 16) (sub dir : BitVec 8) (total : BitVec 32)
  /-- SEGMENT (R77): A Segment is accepted into the window or dropped, and is acknowledged. -/
  | segment (h : Hdr) (tid : BitVec 16) (off : BitVec 32) (data : Bytes)
  /-- SEGMENT_ACK (R77): A SegmentAck advances AckedOffset for the sender. -/
  | segmentAck (h : Hdr) (tid : BitVec 16) (acked : BitVec 32)
  /-- TRANSFER_END (R78): A TransferEnd from the host checks completeness, CRC and content, then applies the download or refuses it. -/
  | transferEnd (h : Hdr) (tid : BitVec 16) (crc : BitVec 32)
  /-- TRANSFER_ABORT (R77): A TransferAbort ends a transfer and leaves content and shadow unchanged. -/
  | transferAbort (h : Hdr) (tid : BitVec 16) (code : BitVec 32)
  /-- TRANSFER_RESEND_TIMEOUT (R77): AckedOffset has not advanced for 50 ms, and the sender resends from it. -/
  | transferResendTimeout (tid : BitVec 16)
  /-- TRANSFER_TIMEOUT (R77): 500 ms pass without a valid segment or acknowledgement, and the transfer is aborted with 1009_0600h. -/
  | transferTimeout (tid : BitVec 16)
  /-- COMMIT_REQUEST (R75): A CommitRequest write checks the generation and the rules between objects, then stages the shadow values for take-up. -/
  | commitRequest (h : Hdr) (area : BitVec 8) (value : BitVec 32)
  /-- EMERGENCY_ACK (R82): An EmergencyAck stops the retransmission of a record to that session. -/
  | emergencyAck (h : Hdr) (seq : BitVec 32)
  /-- EMERGENCY_RETRANSMIT_TIMEOUT (R82): An unacknowledged Emergency is resent after 100 ms; after 3 retransmissions EmergencyLost is set and F1012h is raised. -/
  | emergencyRetransmitTimeout (sid : BitVec 16) (seq : BitVec 32)
  /-- IRQ_CAUSE_CLEAR (R82): Writing 1 to IrqCause bits clears them and updates HOST_IRQ_N. -/
  | irqCauseClear (h : Hdr) (mask : BitVec 32)
  /-- CYCLIC_TX_RUN_WRITE (R79): Setting or clearing TxRun binds or stops the transmit stream. -/
  | cyclicTxRunWrite (h : Hdr) (run : Bool)
  /-- CYCLIC_RX_RUN_WRITE (R79): Setting or clearing RxRun binds or stops the receive stream. -/
  | cyclicRxRunWrite (h : Hdr) (run : Bool)
  /-- CYCLE_BOUNDARY (R80): At a cycle boundary the device samples every TxMap object. -/
  | cycleBoundary
  /-- CYCLIC_TRANSMIT (R80): At t_c + TxOffset the device sends the Cyclic datagram. -/
  | cyclicTransmit
  /-- CYCLIC_RECEIVE (R80): A receive Cyclic datagram is held for its cycle, or is discarded as late or for the wrong cycle. -/
  | cyclicReceive (h : Hdr) (payload : Bytes)
  /-- CYCLIC_RX_APPLY (R80): At t_c + RxApplyOffset the held datagram is applied in map order, or the cycle counts as missed. -/
  | cyclicRxApply
  /-- CYCLIC_RX_WATCHDOG_EXPIRY (R80): RxWatchdog consecutive cycles pass without an applied datagram, and F1010h is raised. -/
  | cyclicRxWatchdogExpiry
  /-- OPERATOR_CREDENTIAL_WRITE (R69): A write of OperatorCredential stores it in non-volatile memory. -/
  | operatorCredentialWrite (h : Hdr) (credential : Bytes)
  /-- SERVICE_CREDENTIAL_WRITE (R69): A write of ServiceCredential stores it in non-volatile memory. -/
  | serviceCredentialWrite (h : Hdr) (credential : Bytes)
  /-- FRAME_FORWARD (R87): A frame arriving at a switch port is learned, queued and forwarded, flooded or discarded. -/
  | frameForward (port : Fin 3) (frame : Frame) (asks : Option IpAsk)
  /-- ANNOUNCE_RECEIVED (R93): An Announce feeds the best master clock algorithm, which may change the master. -/
  | announceReceived (ann : Announce)
  /-- SYNC_RECEIVED (R98): A Sync from the selected master runs the servo, which steps the clock or updates Increment. -/
  | syncReceived (m : PtpMsg)
  /-- DELAY_RESP_RECEIVED (R98): A Delay_Resp gives a path-delay sample for the mean path delay. -/
  | delayRespReceived (m : PtpMsg)
  /-- PDELAY_REQ_RECEIVED (R96): A Pdelay_Req is answered with a one-step Pdelay_Resp that carries the turnaround time. -/
  | pdelayReqReceived (m : PtpMsg)
  /-- PDELAY_RESP_RECEIVED (R94): A Pdelay_Resp updates the mean link delay of the external port. -/
  | pdelayRespReceived (m : PtpMsg) (t2 t3 : Nat)
  /-- DELAY_REQ_INTERVAL_EXPIRY (R96): The randomised Delay_Req interval expires, and a Delay_Req is sent. -/
  | delayReqIntervalExpiry (domain : BitVec 8)
  /-- PDELAY_REQ_INTERVAL_EXPIRY (R96): The one-second Pdelay_Req interval expires, and a Pdelay_Req is sent. -/
  | pdelayReqIntervalExpiry (port : Fin 2)
  /-- MASTER_LOST_TIMEOUT (R93): No Announce or Sync arrives within the timeout, the master counts as lost and the clock enters HOLDOVER. -/
  | masterLostTimeout (domain : BitVec 8)
  /-- ERA_WRAP (R105): E wraps modulo 2^32, and an era marker record F2180h is written within 100 µs. -/
  | eraWrap
  /-- TIME_SET (R101): A TimeSet write sets native time while the servo is disabled, subject to StepMode. -/
  | timeSet (h : Hdr) (value : Bytes)
  /-- SERVO_ENABLE_WRITE (R99): Setting ServoEnable to 0 sends the native clock to FREERUN with Increment held. -/
  | servoEnableWrite (h : Hdr) (enable : Bool)
  /-- LEGACY_LATCH (R104): Writing LegacyLatch captures native time and all four legacy times on one tick. -/
  | legacyLatch (h : Hdr)
  /-- ADDRESS_CHANGE_EFFECT (R90): 1 ms after the CommitRequest response, a changed address or port mode of area 20h takes effect. -/
  | addressChangeEffect
  /-- MDIO_C22_WRITE (R108): MdioCommand op 000b starts a clause 22 write transaction. -/
  | mdioC22Write (h : Hdr) (phy reg : BitVec 5) (data : BitVec 16)
  /-- MDIO_C22_READ (R108): MdioCommand op 001b starts a clause 22 read transaction. -/
  | mdioC22Read (h : Hdr) (phy reg : BitVec 5) (data : BitVec 16)
  /-- MDIO_C45_ADDRESS (R108): MdioCommand op 100b starts a clause 45 address transaction. -/
  | mdioC45Address (h : Hdr) (phy dev : BitVec 5) (data : BitVec 16)
  /-- MDIO_C45_WRITE (R108): MdioCommand op 101b starts a clause 45 write transaction. -/
  | mdioC45Write (h : Hdr) (phy dev : BitVec 5) (data : BitVec 16)
  /-- MDIO_C45_READ (R108): MdioCommand op 111b starts a clause 45 read transaction. -/
  | mdioC45Read (h : Hdr) (phy dev : BitVec 5) (data : BitVec 16)
  /-- MDIO_TRANSACTION_DONE (R108): An MDIO transaction completes, Busy clears and the read data is in MdioResult. -/
  | mdioTransactionDone (answer : Option (BitVec 16))
  /-- NETWORK_LINK_UP (R37): An external port's link comes up, and the dictionary is served. -/
  | networkLinkUp (port : Fin 2) (speed : BitVec 2) (fullDuplex autoneg : Bool)
  /-- NETWORK_LINK_LOST (R112): The link on P1 or P2 is lost, and F2001h or F2002h is raised. -/
  | networkLinkLost (port : Fin 2)
  /-- RASTER_LINK_UP (R115): The Raster port lanes lock and deskew, and the link is up. -/
  | rasterLinkUp
  /-- RASTER_TRAINING_TIMEOUT (R115): The Raster port link is not up within 50 ms, and the request ends with Result 2. -/
  | rasterTrainingTimeout
  /-- RASTER_LINK_LOST (R115): Lock or deskew is lost for more than 1 µs, F2203h is raised and the link retrains. -/
  | rasterLinkLost
  /-- INTAKE_ENABLE_WRITE (R121): A write of IntakeEnable gates the intake; clearing it drives RP_XON low and aborts the block in progress. -/
  | intakeEnableWrite (h : Hdr) (enable : Bool)
  /-- RASTER_BLOCK_RECEIVED (R120): The writer receives a raster block, checks it against the slots, stores it and makes it visible, or drops it with its status. -/
  | rasterBlockReceived (b : RasterBlock)
  /-- JOB_WRITER_BLOCK (R123): The job writer reads a visible block, decodes it and writes its lines to the slot, waiting on a frozen channel if needed. -/
  | jobWriterBlock
  /-- STREAM_DECODE_BLOCK (R129): A stream block is decoded into a free window block of its bar once one is free. -/
  | streamDecodeBlock
  /-- FORWARD_BLOCK (R124): The forwarder sends a visible block to the partner in FWD segments. -/
  | forwardBlock
  /-- FORWARD_ACK_TIMEOUT (R124): No acknowledgement arrives within 1 ms; the forwarder rewinds and resends, and stops with F2205h after three failures. -/
  | forwardAckTimeout
  /-- FORWARD_RESTART (R124): Writing ForwardRestart resumes forwarding after F2205h. -/
  | forwardRestart (h : Hdr)
  /-- BLOCK_RELEASE (R125): A block taken locally, and acknowledged by the partner where that is needed, is released, L advances and Accepted is sent. -/
  | blockRelease
  /-- SLOT_OPEN (R127): SlotCommand = 1 checks the descriptor and opens the slot as LOADING or READY. -/
  | slotOpen (h : Hdr) (slot : Fin 2)
  /-- SLOT_SEAL (R127): SlotCommand = 2 with no lines missing starts the checksum pass, and the slot enters SEALING. -/
  | slotSeal (h : Hdr) (slot : Fin 2)
  /-- SLOT_CLEAR (R127): SlotCommand = 3 returns the slot to EMPTY. -/
  | slotClear (h : Hdr) (slot : Fin 2)
  /-- SEAL_PASS_DONE (R128): The checksum pass completes, SlotChecksum is written and the slot is READY. -/
  | sealPassDone (slot : Fin 2)
  /-- QUEUED_SLOT_WRITE (R130): A write of QueuedSlot is checked against the slot states and the job's bar mask. -/
  | queuedSlotWrite (h : Hdr) (value : BitVec 8)
  /-- CHANGE_AT_REPEAT_WRITE (R132): A write of ChangeAtRepeat is checked against the highest issued repeat index and sets the change repeat N. -/
  | changeAtRepeatWrite (h : Hdr) (value : BitVec 32)
  /-- FET_ISSUE_LINE (R14): FET issues a design line into a free pre-fire entry, sending one slice to each engine. -/
  | fetIssueLine (b : Bar)
  /-- MEMORY_REQUEST (R144): A master's request reaches a channel, is queued and scheduled, or waits on a full queue, self-refresh exit or freeze. -/
  | memoryRequest (master : BitVec 8) (addr : BitVec 48) (data : Option Bytes)
  /-- MEMORY_READ_COMPLETE (R151): A DRAM read returns and is decoded as clean, corrected, address or uncorrectable. -/
  | memoryReadComplete (c : Chan) (errors : List (Fin 82 × BitVec 16))
  /-- ALERT_N_ASSERT (R153): The channel's ALERT_N reports a parity error, and the channel freezes with cause 2. -/
  | alertNAssert (c : Chan)
  /-- RT_BURST_LIMIT (R145): A real-time burst reaches 2.0 µs, ends, and the burst guard starts. -/
  | rtBurstLimit (c : Chan)
  /-- BURST_GUARD_END (R145): The 0.5 µs burst guard ends. -/
  | burstGuardEnd (c : Chan)
  /-- REFRESH_INTERVAL_BOUNDARY (R149): A tREFI boundary raises the owed count, and a refresh preempts when the count reaches 4 during a burst. -/
  | refreshIntervalBoundary (c : Chan)
  /-- CHANNEL_RELEASE_ISSUE (R156): ChannelRelease = 1 issues the held writes and resumes service. -/
  | channelReleaseIssue (h : Hdr) (c : Chan)
  /-- CHANNEL_RELEASE_DISCARD (R156): ChannelRelease = 2 discards the held writes and resumes service. -/
  | channelReleaseDiscard (h : Hdr) (c : Chan)
  /-- CHANNEL_RELEASE_RETRAIN (R156): ChannelRelease = 3 discards the held writes and runs full training before resuming. -/
  | channelReleaseRetrain (h : Hdr) (c : Chan)
  /-- TRAIN_PRESENT_POINT (R159): TrainRequest = 1 starts full training of the present operating point. -/
  | trainPresentPoint (h : Hdr) (c : Chan)
  /-- CLEAR_STORED_RESULTS (R158): TrainRequest = 3 clears the channel's stored training results. -/
  | clearStoredResults (h : Hdr) (c : Chan)
  /-- CHANNEL_TRAINING_DONE (R159): Training or restore of a channel ends: READY with a stored result, UNTRAINED after a failed step, or a queued frequency change. -/
  | channelTrainingDone (c : Chan) (outcome : TrainOutcome)
  /-- OP_POINT_SELECT_WRITE (R160): A write of OpPointSelect starts or queues a frequency change, or only records the point. -/
  | opPointSelectWrite (h : Hdr) (c : Chan) (value : BitVec 8)
  /-- FREQ_CHANGE_DONE (R160): The frequency change completes by restore, or moves on to training. -/
  | freqChangeDone (c : Chan)
  /-- CHANNEL_ENABLE_WRITE (R164): Setting ChannelEnable moves a DISABLED channel to UNTRAINED. -/
  | channelEnableWrite (h : Hdr) (c : Chan) (enable : Bool)
  /-- DIMM_SETTING_WRITE (R158): A write of a rate, DimmRanks or DimmDensity clears the stored training results. -/
  | dimmSettingWrite (h : Hdr) (idx : BitVec 16) (sub : BitVec 8) (value : Bytes)
  /-- LFSR_SEED_WRITE (R150): A write of LfsrSeed reseeds the neighbour-refresh LFSR. -/
  | lfsrSeedWrite (h : Hdr) (c : Chan) (value : BitVec 32)
  /-- IDLE_TIME_EXPIRY (R162): A READY channel has had no request for IdleTime and enters self-refresh. -/
  | idleTimeExpiry (c : Chan)
  /-- DQS_DRIFT_CORRECTION (R159): Every 8 ms a READY channel corrects DQS drift from the interval oscillator. -/
  | dqsDriftCorrection (c : Chan)
  /-- CHANNEL_MODE_WRITE (R169): A write of ChannelMode sets the channel's mode and resets its counter to 0. -/
  | channelModeWrite (h : Hdr) (n : PosCh) (value : BitVec 8)
  /-- COUNT_CHANGE (R170): A filtered quadrature edge changes the counter, updates speed, line clock state and line events, or is judged illegal. -/
  | countChange (n : PosCh) (a b : Bool)
  /-- HALL_STATE_CHANGE (R174): A filtered Hall state change counts ±1 or is handled as invalid. -/
  | hallStateChange (n : PosCh) (uvw : BitVec 3)
  /-- Z_INDEX_EDGE (R173): A rising Z latches the counter into ZLatch and checks the Z period. -/
  | zIndexEdge (n : PosCh)
  /-- SSI_PERIOD_EXPIRY (R175): SsiPeriod expires, and the device starts an SSI frame. -/
  | ssiPeriodExpiry (n : PosCh)
  /-- SSI_FRAME_COMPLETE (R175): An SSI frame is complete, and the sample is added to the counter or refused. -/
  | ssiFrameComplete (n : PosCh) (raw : BitVec 32) (errorBit dataLow : Bool)
  /-- STOP_TIMEOUT (R178): No change is accepted for StopTimeout, and the channel is stopped with its speed window cleared. -/
  | stopTimeout (n : PosCh)
  /-- MARK_ACCEPTED (R187): A filtered MARK_b edge is accepted and starts a WAITING bar's line clock, or is ignored. -/
  | markAccepted (b : Bar)
  /-- COMPARE_ACTION (R188): At the firing time plus CompareDelay, the compare action is applied to its target. -/
  | compareAction (u : CmpUnit)
  /-- COMPARE_PULSE_END (R191): PulseWidth elapses and the pulse output returns to inactive. -/
  | comparePulseEnd (u : CmpUnit)
  /-- ENGINE_SLICE_LINE (R199): An engine starts a slice line once it holds the edge records and writes its levels with the slice-complete flag. -/
  | engineSliceLine (n : Engine) (failure : BitVec 8) (parity : List (BitVec 16 × BitVec 32))
  /-- ENGINE_SLICE_TIMEOUT (R215): A slice line is not completed within 8 µs, and the engine raises F2700h + n with cause 3. -/
  | engineSliceTimeout (n : Engine)
  /-- ZONE_WIDTH_WRITE (R223): A write of ZoneWidth resets the bar's ToneCurve and ZoneGain to their defaults. -/
  | zoneWidthWrite (h : Hdr) (b : Bar) (value : BitVec 32)
  /-- LINE_PREPARATION (R228): FSQ prepares the next line: blank check, incomplete slices, duty checks and LINE frames to the lanes. -/
  | linePreparation (b : Bar)
  /-- TOKEN_EMISSION (R232): A placed or late TOKEN leaves on a lane at its block, passing the FIRE_EN gate. -/
  | tokenEmission (l : Lane)
  /-- OVERSPEED_EPISODE_END (R236): 64 line events pass without a drop; F2908h + b is recorded and OverspeedBars clears. -/
  | overspeedEpisodeEnd (b : Bar)
  /-- LATE_EPISODE_END (R233): 64 lines pass without a late token, and the late-token episode ends. -/
  | lateEpisodeEnd (b : Bar)
  /-- FIRE_EN_FALL (R243): FIRE_EN falls; tokens are gated in hardware and F2930h is recorded if a bar prints. -/
  | fireEnFall
  /-- FIRE_EN_RISE (R243): FIRE_EN rises; tokens pass again and F2931h is recorded. -/
  | fireEnRise
  /-- SPEED_ADVICE_UPDATE (R244): Every 100 µs FSQ computes the head, pipeline and data terms and SpeedAdvice. -/
  | speedAdviceUpdate
  /-- SPD_ADV_PERIOD_START (R245): At each 100 µs period start SpeedAdvice is latched and SPD_ADV goes high for its duty. -/
  | spdAdvPeriodStart
  /-- INPUT_EDGE (R249): A filtered enabled edge on INn is counted, stamped, latched with a position and recorded. -/
  | inputEdge (n : Fin 16) (level : Bool)
  /-- OUTPUT_LEVEL_WRITE (R250): A write of OutputLevel sets the host-set levels of OUT0–15. -/
  | outputLevelWrite (h : Hdr) (value : BitVec 16)
  /-- OUTPUT_CHECK_EXPIRY (R251): An OUT ball differs from OutputDriven for longer than OutputCheckTime, and F2E10h + n is raised. -/
  | outputCheckExpiry (n : Fin 16)
  /-- OWNER_INTERVAL (R267): The 125 µs OWNER interval in SOLO or LONE expires, and an OWNER frame falls due. -/
  | ownerInterval (l : Lane)
  /-- RELEASE_REPEAT_INTERVAL (R267): Every 125 µs in no-owner idle a RELEASE block is repeated. -/
  | releaseRepeatInterval (l : Lane)
  /-- SYNC_INTERVAL (R278): Every 125 µs a SYNC frame carrying the band falls due on every trained lane. -/
  | syncInterval (l : Lane)
  /-- LATENCY_PROBE_INTERVAL (R274): Every 1 ms a latency probe is sent on an HL3 lane in TRAINED. -/
  | latencyProbeInterval (l : Lane)
  /-- LANE_PLL_LOCKED (R270): The lane's PLL and CDR lock, and the lane enters ALIGNING. -/
  | lanePllLocked (l : Lane)
  /-- LANE_WAKE_TIMEOUT (R270): The PLL does not lock within 2 ms, and the lane is DOWN with FailCause 1. -/
  | laneWakeTimeout (l : Lane)
  /-- FIRMWARE_SLIP_WAIT (R271): In AlignMode 0, 128 blocks after a slip, firmware reads SyncHeaderRun and slips again. -/
  | firmwareSlipWait (l : Lane)
  /-- SYNC_HEADER_RUN_REACHED (R271): SyncHeaderRun reaches 64, and the lane moves on to CAPABILITY or TRAINED. -/
  | syncHeaderRunReached (l : Lane)
  /-- LANE_ALIGN_TIMEOUT (R270): Alignment does not finish within 10 ms in AlignMode 0, and the lane is DOWN with FailCause 2. -/
  | laneAlignTimeout (l : Lane)
  /-- BIT_SLIP (R271): A BitSlip write slips the lane's receive word boundary by one bit. -/
  | bitSlip (h : Hdr) (l : Lane)
  /-- CAP_RESEND_INTERVAL (R272): The device sends a CAP frame every 10 µs until the HDM answers. -/
  | capResendInterval (l : Lane)
  /-- CAP_RECEIVED (R272): An upstream CAP is received; the version is chosen and the capability checks run. -/
  | capReceived (l : Lane) (cap : CapUp)
  /-- LANE_CAP_TIMEOUT (R270): No CAP arrives within 10 ms, and the lane is DOWN with FailCause 3. -/
  | laneCapTimeout (l : Lane)
  /-- STAT_ECHO_RECEIVED (R274): An Echo STAT gives an rtt sample for the lane latency. -/
  | statEchoReceived (l : Lane) (tag : BitVec 16) (turnaround : BitVec 32) (rtt : Nat)
  /-- STAT_TABLE_ACK_RECEIVED (R241): A TableAck STAT acknowledges a TABLE frame. -/
  | statTableAckReceived (l : Lane) (seq : BitVec 8) (result : BitVec 8)
  /-- LANE_TABLE_ACK_TIMEOUT (R241): The tables are not acknowledged within 10 ms, and the lane is marked untrained. -/
  | laneTableAckTimeout (l : Lane)
  /-- STAT_STATUS_RECEIVED (R264): A Status STAT updates HdmStatus and raises ownership or head-fault sources. -/
  | statStatusReceived (l : Lane) (st : HdmStatus)
  /-- STAT_MEAS_RESULT_RECEIVED (R289): A MeasResult STAT is matched and stored, and the next MEAS is sent or the bar's measurement completes. -/
  | statMeasResultReceived (l : Lane) (r : MeasResult)
  /-- STAT_SILENCE_TIMEOUT (R273): No Status STAT arrives for 1 ms on a trained lane, and F2AA0h + l is raised. -/
  | statSilenceTimeout (l : Lane)
  /-- LANE_LOCK_LOST (R273): Receive lock is lost on a lane; it sends RELEASE, goes DOWN and retrains if AutoRetrain is 1. -/
  | laneLockLost (l : Lane)
  /-- LANE_RETRAIN (R270): LaneCommand = 1 retrains a DOWN lane from ALIGNING. -/
  | laneRetrain (h : Hdr) (l : Lane)
  /-- LANE_ENTER_TEST (R270): LaneCommand = 2 wakes a DEEP lane into TEST. -/
  | laneEnterTest (h : Hdr) (l : Lane)
  /-- LANE_LEAVE_TEST (R270): LaneCommand = 3 stops the pattern and leaves TEST. -/
  | laneLeaveTest (h : Hdr) (l : Lane)
  /-- TEST_INJECT_BIT (R280): TestInject = 1 inverts one transmitted bit. -/
  | testInjectBit (h : Hdr) (l : Lane)
  /-- TEST_INJECT_BURST (R280): TestInject = 2 inverts BurstLength consecutive bits. -/
  | testInjectBurst (h : Hdr) (l : Lane)
  /-- HDM_LINE_FRAME (R262): An HDM receives a LINE frame and holds the line for its head. -/
  | hdmLineFrame (m : Lane) (fromB : Bool) (f : HdmLine) (crcOk : Bool)
  /-- HDM_TOKEN (R269): An HDM receives a TOKEN, checks it, fires the matching held lines and clears all held lines. -/
  | hdmToken (m : Lane) (fromB : Bool) (head : TokenHead) (number : BitVec 32) (tag gen : BitVec 16) (crc : Option (BitVec 16))
  /-- HDM_OWNER_FRAME (R268): An HDM receives an OWNER frame, which updates GenMax and the input's claim. -/
  | hdmOwnerFrame (m : Lane) (fromB : Bool) (active : Bool) (gen : BitVec 32) (validFor : BitVec 16)
  /-- HDM_RELEASE (R268): An HDM receives RELEASE, and ownership of that input ends. -/
  | hdmRelease (m : Lane) (fromB : Bool)
  /-- HDM_VALIDFOR_EXPIRY (R268): ValidFor elapses since the latest OWNER frame, and the input stops claiming. -/
  | hdmValidforExpiry (m : Lane) (fromB : Bool)
  /-- HDM_SYNC_FRAME (R278): An HDM receives a SYNC, applies the band at HL3 and answers an echo request. -/
  | hdmSyncFrame (m : Lane) (fromB : Bool) (band : BitVec 8) (echo : BitVec 16)
  /-- HDM_TABLE_FRAME (R264): An HDM receives a TABLE frame and answers with a TableAck. -/
  | hdmTableFrame (m : Lane) (fromB : Bool) (level seq : BitVec 8) (table : Bytes) (crcOk : Bool)
  /-- HDM_MEAS_FRAME (R286): An HDM receives a MEAS frame, and measures or refuses it. -/
  | hdmMeasFrame (m : Lane) (fromB : Bool) (head first count : BitVec 16) (kind tag : BitVec 8)
  /-- HDM_CAP_FRAME (R272): An HDM receives a CAP frame and answers with its capabilities. -/
  | hdmCapFrame (m : Lane) (fromB : Bool) (chosen : BitVec 8)
  /-- HDM_STATUS_INTERVAL (R264): Every 125 µs an HDM sends a Status STAT on each locked input. -/
  | hdmStatusInterval (m : Lane)
  /-- MEAS_START (R284): MeasCommand = 1 starts measurement of the bars in MeasBarMask. -/
  | measStart (h : Hdr)
  /-- MEAS_ABANDON (R287): MeasCommand = 2 abandons the running measurement. -/
  | measAbandon (h : Hdr)
  /-- MEAS_CAPTURE_BASELINE (R294): MeasCommand = 3 copies the measured values into the Baseline shadow. -/
  | measCaptureBaseline (h : Hdr)
  /-- MEAS_TIMEOUT (R289): No MeasResult arrives within MeasTimeout; the MEAS is resent once, then the group is skipped. -/
  | measTimeout (l : Lane)
  /-- PENDING_APPLY (R292): PendingApply copies PendingMap into the NozzleMap shadow. -/
  | pendingApply (h : Hdr) (b : Bar)
  /-- TRIGGER_RECORD (R305): A trigger record reaches VIS, is queued for pairing, and starts frames and CCI batches at frame-start triggers. -/
  | triggerRecord
  /-- TRIGGER_RECORD_EXPIRY (R305): A pending record expires unpaired, and the port's part of the line takes FillValue. -/
  | triggerRecordExpiry (p : CamPort)
  /-- PORT_SILENT (R305): 64 consecutive records expire; the port enters the silent state and F2C10h + p is raised. -/
  | portSilent (p : CamPort)
  /-- CSI_LINE (R305): A CSI-2 line long packet ends, is checked and paired with a trigger record, or is stray. -/
  | csiLine (p : CamPort) (line : CsiLine)
  /-- CSI_FRAME_START (R306): A Frame Start packet opens a port frame or closes the open one. -/
  | csiFrameStart (p : CamPort) (head : CsiHead)
  /-- CSI_FRAME_END (R306): A Frame End packet closes the port frame, publishes the histogram and runs auto-exposure. -/
  | csiFrameEnd (p : CamPort) (head : CsiHead)
  /-- STITCHED_LINE_COMPLETE (R311): Every enabled port has ended or expired its part, and zone sums, comparator and pairing proceed. -/
  | stitchedLineComplete
  /-- WEB_FRAME_CLOSE (R314): A web frame closes: zone averages, close notice and image products. -/
  | webFrameClose
  /-- PRODUCT_RECORD_SEND (R316): A product piece is sent over the Raster port as a Product record. -/
  | productRecordSend (stream : Fin 3)
  /-- CCI_BATCH_COMPLETE (R307): A CCI batch completes or fails, and SettingsGeneration rises. -/
  | cciBatchComplete (p : CamPort) (answer : CciAnswer)
  /-- CCI_COMMAND_WRITE (R303): CciCommand op 0 starts a host CCI write transaction. -/
  | cciCommandWrite (h : Hdr) (p : CamPort) (value : Bytes)
  /-- CCI_COMMAND_READ (R303): CciCommand op 1 starts a host CCI read transaction. -/
  | cciCommandRead (h : Hdr) (p : CamPort) (value : Bytes)
  /-- CCI_HOST_TRANSACTION_DONE (R303): A host CCI transaction ends, and CciResult reads Acked and the data. -/
  | cciHostTransactionDone (p : CamPort) (acked : Bool) (data : Bytes)
  /-- PORT_ENABLE_WRITE (R310): A PortEnable write is checked, and the port is enabled with its first batch or disabled. -/
  | portEnableWrite (h : Hdr) (p : CamPort) (value : Bool)
  /-- CHE_PAIR_LINE (R328): CHE pairs a stitched line with each bar's coverage record and accumulates its observations, or counts it unpaired. -/
  | chePairLine
  /-- CHE_FRAME_CLOSE (R331): A close notice adds the frame accumulator to the window or leaves it out, and may close the window. -/
  | cheFrameClose
  /-- TUMBLER_SOLVE_DONE (R335): The Tumbler finishes all zones and publishes Estimates; references, ratios and the servo step follow. -/
  | tumblerSolveDone
  /-- HOLD_RUN_WRITE (R326): Setting HoldRun clears the track and starts pairing and solving. -/
  | holdRunWrite (h : Hdr) (run : Bool)
  /-- HOLD_MODE_WRITE (R339): A HoldMode write enters or leaves ADVISE or AUTO, initialising AdvisedGain and the integrators on entry. -/
  | holdModeWrite (h : Hdr) (b : Bar) (value : BitVec 8)
  /-- REF_COMMAND (R336): RefCommand clears the Reference of each named bar. -/
  | refCommand (h : Hdr) (value : BitVec 8)
  /-- ROLE_REQUEST_SOLO (R346): RoleRequest = 0 sets the role SOLO. -/
  | roleRequestSolo (h : Hdr)
  /-- ROLE_REQUEST_ACTIVE (R346): RoleRequest = 1 sets the role ACTIVE, or is refused. -/
  | roleRequestActive (h : Hdr)
  /-- ROLE_REQUEST_STANDBY (R346): RoleRequest = 2 sets the role STANDBY, or is refused. -/
  | roleRequestStandby (h : Hdr)
  /-- MIRROR_PAIR_AGAIN (R347): MirrorCommand 1 in LONE pairs again, and the mirror cycle starts. -/
  | mirrorPairAgain (h : Hdr)
  /-- MIRROR_PLANNED_SWAP (R367): MirrorCommand 2 on the ACTIVE stops tokens at the next cycle and sends RELEASE. -/
  | mirrorPlannedSwap (h : Hdr)
  /-- HANDOVER_STATE_SEND (R367): After the largest LinkLatency, the ACTIVE sends STATE with Handover, and its Key ends. -/
  | handoverStateSend
  /-- MIRROR_TAKE_OVER (R362): MirrorCommand 3 takes the heads, and the device becomes ACTIVE in LONE. -/
  | mirrorTakeOver (h : Hdr)
  /-- MIRROR_DISSOLVE (R347): MirrorCommand 4 sends STATE with Dissolve to end the pair. -/
  | mirrorDissolve (h : Hdr)
  /-- ICSEL_LINK_UP (R348): The Icsel link trains up, and the devices start the HELLO exchange. -/
  | icselLinkUp
  /-- ICSEL_LINK_LOST (R348): Icsel lock or deskew is lost for more than 1 µs; F3200h is raised and the link retrains. -/
  | icselLinkLost
  /-- HELLO_INTERVAL (R351): A HELLO is sent every 10 µs, or every 1 ms in COLD and CONFLICT. -/
  | helloInterval
  /-- HELLO_RECEIVED (R351): A HELLO negotiates the format, probes the latency, and moves the mirror state to WARM, COLD or CONFLICT. -/
  | helloReceived (f : Hello) (rtt : Nat)
  /-- MIRROR_CYCLE_BOUNDARY (R352): Every 125 µs the ACTIVE latches its state and sends a STATE frame. -/
  | mirrorCycleBoundary
  /-- STATE_FRAME_RECEIVED (R354): The standby latches, compares and adopts repeated differences, mirrors colour hold and sends a SACK. -/
  | stateFrameReceived (cycle : BitVec 32) (flags : BitVec 8) (check : Fin 4) (block : StateBlock)
  /-- SACK_RECEIVED (R360): A SACK with Result 0 renews the Key to D_k + 500 µs. -/
  | sackReceived (cycle : BitVec 32) (result : BitVec 8) (ready : BitVec 8)
  /-- COMMIT_FRAME_RECEIVED (R357): The standby stages and commits its shadow values and compares the digest. -/
  | commitFrameReceived (area : BitVec 8) (gen digest count : BitVec 32)
  /-- FWD_RECEIVED (R359): The standby reassembles FWD segments into its intake writer. -/
  | fwdReceived (sequence off total : BitVec 32) (data : Bytes)
  /-- FACK_RECEIVED (R124): The forwarder receives an ACK or NAK for a forwarded block. -/
  | fackReceived (sequence : BitVec 32) (status : BitVec 8) (ok : Bool)
  /-- SLOT_FRAME_RECEIVED (R358): A SLOT frame is compared with the local slot, and SlotsMatch is updated. -/
  | slotFrameReceived (f : SlotFrame)
  /-- REF_FRAME_RECEIVED (R355): The standby takes a Reference from a REF frame. -/
  | refFrameReceived (b : Bar) (entries : Bytes)
  /-- KEY_EXPIRY (R360): The ACTIVE's Key expires; it sends RELEASE, stops tokens, drops FIRE_OK and enters ORPHAN as STANDBY. -/
  | keyExpiry
  /-- TAKEOVER_AT_REACHED (R361): The standby's TakeoverAt is reached, and it takes over or goes to ORPHAN. -/
  | takeoverAtReached
  /-- RECLAIM_CHECK (R363): At expiry + 50 µs + ReclaimWait, the orphaned device checks the Status STATs and reclaims the Key or stays in ORPHAN. -/
  | reclaimCheck
  /-- FAULT_REPORT (R375): A unit's report arrives at FLT's intake queue, or is lost when the queue is full. -/
  | faultReport (r : FaultMsg)
  /-- FAULT_REPORT_TAKEN (R382): FLT takes a report, records it and applies BOLT, ERRPIN, LOG, IRQ, TRAP and the resets in order. -/
  | faultReportTaken
  /-- RAIL_BROKEN_WIRE (R376): A rail pair shows 00b or 11b in 4 consecutive cycles, and F2F40h + n is raised. -/
  | railBrokenWire (block : Fin 49) (unit : BitVec 8) (level : Bool)
  /-- RAIL_ERROR_TIMEOUT (R376): A rail pair shows error for 1 µs with no report taken, and F2F80h + n is raised. -/
  | railErrorTimeout (block : Fin 49) (unit : BitVec 8)
  /-- COLLECTOR_MODE_LATCH (R378): CollectorMode = 0 puts the collector in latch mode. -/
  | collectorModeLatch (h : Hdr)
  /-- COLLECTOR_MODE_NORMAL (R378): CollectorMode = 1 puts the collector in normal mode if LatchWord is 0. -/
  | collectorModeNormal (h : Hdr)
  /-- LATCH_WORD_CLEAR (R377): Writing 1 to LatchWord bits clears them. -/
  | latchWordClear (h : Hdr) (mask : BitVec 64)
  /-- ERR_PIN_CLEAR (R388): ErrPinClear releases ERR_N unless the trip is latched. -/
  | errPinClear (h : Hdr)
  /-- SNAPSHOT_COMMAND (R393): SnapshotCommand = 1 triggers a snapshot, or defers it. -/
  | snapshotCommand (h : Hdr)
  /-- PFAIL_ASSERT (R395): PFAIL_N low for 1 µs stops any snapshot at a safe point and starts a new one with F3003h. -/
  | pfailAssert
  /-- SNAPSHOT_MIN_INTERVAL_EXPIRY (R393): SnapshotMinInterval ends, and one snapshot is written for the deferred triggers. -/
  | snapshotMinIntervalExpiry
  /-- SNAPSHOT_WRITE_DONE (R394): A snapshot's trailer is read back; F3000h is recorded, or the slot is retired and the snapshot rewritten. -/
  | snapshotWriteDone (ok : Bool)
  /-- THERMAL_MODEL_UPDATE (R406): Every 100 µs the thermal model updates and checks trip, trip pending, band and throttle ladder. -/
  | thermalModelUpdate (counts : List (List Nat))
  /-- TRIP_PENDING_END (R416): Every reading stays below 115 °C for 100 ms, trip pending ends and F3102h is recorded. -/
  | tripPendingEnd
  /-- AON_DIODE_CONVERSION (R417): The AON comparator converts each diode at least every 50 µs and latches the trip at 125 °C. -/
  | aonDiodeConversion (d : Fin 8) (value : Option Int)
  /-- TRIP_SHUTDOWN (R418): After the snapshot safe point or 50 µs, AON switches off every other domain and the state is RESET. -/
  | tripShutdown
  /-- HOUSEKEEPING_READ (R407): Every 125 µs one housekeeping channel is read. -/
  | housekeepingRead (value : Option Int)
  /-- HOUSEKEEPING_ROUND_END (R408): At the end of a round PWR calibrates the model and checks diodes and supplies. -/
  | housekeepingRoundEnd
  /-- ENGINE_SELECTION_INTERVAL (R414): Every 1 ms the engine islands to throttle are selected again. -/
  | engineSelectionInterval
  /-- FOLLOW_UP_RECEIVED (R98): A Follow_Up from a two-step master supplies t1, and the servo runs for its Sync. -/
  | followUpReceived (m : PtpMsg)
  /-- ADDRESS_TABLE_AGEING (R87): A learned source address reaches its 300 s ageing time and leaves the table, so later frames to it are flooded. -/
  | addressTableAgeing (mac : BitVec 48)
  /-- UNKNOWN_MSGTYPE (R84): A datagram with an unknown MsgType is answered with 1001_0200h. -/
  | unknownMsgtype (h : Hdr) (ty : BitVec 8) (payload : Bytes)
  /-- PFAIL_N_RISE (R395): PFAIL_N goes high, and after 10 ms high a new assertion counts again. -/
  | pfailNRise
  /-- CHECKER_LOCK (R280): The lane's pattern checker sees 64 error-free bits, locks, and starts counting checked and errored bits. -/
  | checkerLock (l : Lane)
  /-- CHECKER_LOCK_LOST (R280): More than 128 of 1024 bits are in error and the pattern checker loses lock until it relocks by itself. -/
  | checkerLockLost (l : Lane)
  /-- HDM_BLOCK_ALIGNED (R277): An HDM input achieves block alignment on a valid downstream stream and starts sending Status STATs on it. -/
  | hdmBlockAligned (m : Lane) (fromB : Bool)
  /-- HDM_BLOCK_LOCK_LOST (R268): An HDM input loses block lock, stops claiming ownership and stops sending Status STATs on it. -/
  | hdmBlockLockLost (m : Lane) (fromB : Bool)
  deriving DecidableEq, Repr

end Sys2Proof
end

