-- ==== Sys2Proof/WellFormed.lean ====
section
/-! DEFINITION. Which operands a command may have beyond their types: what makes it that row's command and no other (R56 to R59, R74,
R84, R158, R303). A meaning is defined on every operand; an ill-formed command is one that no sender can form as that row. -/

set_option Elab.async false

namespace Sys2Proof

/-- The tag that follows a payload has its 16 bytes, or there is none (R59). -/
def Hdr.wf (h : Hdr) : Bool := h.tag.isEmpty || h.tag.length == 16

/-- The message types that R58 gives a host. -/
def knownTypes : List Nat := [0x01, 0x03, 0x05, 0x07, 0x09, 0x10, 0x12, 0x14, 0x16, 0x17, 0x18, 0x1A, 0x1C, 0x21, 0x30]

/-- A message of the PTP port comes by one of the three switch ports and one of the three mappings (R87, R93). -/
def PtpMsg.wf (m : PtpMsg) : Bool := m.port.toNat < 3 && m.mapping.toNat < 3

/-- The header a command carries, if it carries one. -/
def Instr.hdr? : Instr → Option Hdr
  | .requestStandby h | .requestConfigured h | .requestArmed h | .requestPrinting h | .requestHeld h
  | .requestFrozen h | .resetRequestChip h | .resetRequestBlock h | .domainRequest h _ | .openRequest h _ _
  | .unlockRequest h _ _ | .proof h _ | .close h | .keepAlive h | .read h _ _ _ | .write h _ _ _ _ | .describe h _ _ _
  | .transferInit h _ _ _ _ | .segment h _ _ _ | .segmentAck h _ _ | .transferEnd h _ _ | .transferAbort h _ _
  | .commitRequest h _ _ | .emergencyAck h _ | .irqCauseClear h _ | .cyclicTxRunWrite h _ | .cyclicRxRunWrite h _
  | .cyclicReceive h _ | .operatorCredentialWrite h _ | .serviceCredentialWrite h _ | .timeSet h _ | .servoEnableWrite h _
  | .legacyLatch h | .mdioC22Write h _ _ _ | .mdioC22Read h _ _ _ | .mdioC45Address h _ _ _ | .mdioC45Write h _ _ _
  | .mdioC45Read h _ _ _ | .intakeEnableWrite h _ | .forwardRestart h | .slotOpen h _ | .slotSeal h _
  | .slotClear h _ | .queuedSlotWrite h _ | .changeAtRepeatWrite h _ | .channelReleaseIssue h _ | .channelReleaseDiscard h _
  | .channelReleaseRetrain h _ | .trainPresentPoint h _ | .clearStoredResults h _ | .opPointSelectWrite h _ _
  | .channelEnableWrite h _ _ | .dimmSettingWrite h _ _ _ | .lfsrSeedWrite h _ _ | .channelModeWrite h _ _
  | .zoneWidthWrite h _ _ | .outputLevelWrite h _ | .bitSlip h _ | .laneRetrain h _ | .laneEnterTest h _
  | .laneLeaveTest h _ | .testInjectBit h _ | .testInjectBurst h _ | .measStart h | .measAbandon h | .measCaptureBaseline h
  | .pendingApply h _ | .cciCommandWrite h _ _ | .cciCommandRead h _ _ | .portEnableWrite h _ _ | .holdRunWrite h _
  | .holdModeWrite h _ _ | .refCommand h _ | .roleRequestSolo h | .roleRequestActive h | .roleRequestStandby h
  | .mirrorPairAgain h | .mirrorPlannedSwap h | .mirrorTakeOver h | .mirrorDissolve h | .collectorModeLatch h
  | .collectorModeNormal h | .latchWordClear h _ | .errPinClear h | .snapshotCommand h | .unknownMsgtype h _ _ => some h
  | _ => none

/-- The command is well formed. -/
def Instr.wf (i : Instr) : Bool :=
  (match i.hdr? with
    | some h => h.wf
    | none => true) &&
  match i with
  | .malformedDatagram n => n < 16
  | .oversizeDatagram n v6 => (if v6 then 1452 else 1472) < n
  | .unknownMsgtype _ ty _ => !knownTypes.contains ty.toNat
  | .dimmSettingWrite _ idx sub _ => 0x2311 ≤ idx.toNat && idx.toNat ≤ 0x2314 && 1 ≤ sub.toNat && sub.toNat ≤ 4
  | .commitRequest _ area _ => area.toNat == 0x10 || (0x20 ≤ area.toNat && area.toNat ≤ 0x32)
  | .cciCommandWrite _ _ v => v.head? == some 0
  | .cciCommandRead _ _ v => v.head? == some 1
  | .syncReceived m | .followUpReceived m | .delayRespReceived m | .pdelayReqReceived m | .pdelayRespReceived m _ _ => m.wf
  | _ => true

end Sys2Proof
end

