-- ==== Sys2Proof/Decode.lean ====
section
/-! DEFINITION. The command that a word of the opcode table spells. spec/opcode_table.json gives no row any bits: the device takes
datagrams, frames and events, not words. -/

set_option Elab.async false

namespace Sys2Proof

/-- No word spells a command: the table gives its rows no bits. -/
def decodeTableWord (_nbits _w : Nat) : Option Instr := none

end Sys2Proof
end

