-- ==== Sys2Proof/Config.lean ====
section
/-! DEFINITION. What one implementation fixes and what the manual leaves open: constants with no body, so that nothing can
be proved of their values. -/

set_option Elab.async false

namespace Sys2Proof

/-- A fresh unstated value for every count of `fresh` (assumption 3). -/
opaque Config.freeNat : Nat → Nat

/-- What the HDM on a lane tells of itself, as far as it is fixed when the HDM is made (R264). -/
opaque Config.hdmCap : Nat → CapUp

/-- What a field of 32 bits or fewer holds of a number too large for it, by the object's index and the number (assumption 65). -/
opaque Config.wide : Nat → Nat → BitVec 32

/-- An element's measured value on an HDM: lane, head, element, kind (R286). -/
opaque Config.element : Nat → Nat → Nat → Nat → Nat

/-- The phase of a lane's block boundaries, in 125 ps units (R232). -/
opaque Config.blockPhase : Nat → Nat

/-- The order of the entries of the built-in blue-noise threshold array, by row * 256 + column; the entries differ in it, the lower
entry first where two keys are the same (R223). -/
opaque Config.blueNoiseKey : Nat → Nat

/-- The built-in blue-noise threshold array: an entry's rank in their order over 256, so that each value occurs 256 times (R209, R223). -/
def Config.blueNoise (row col : Nat) : Nat :=
  let me := row * 256 + col
  let before := fun (i : Nat) => Config.blueNoiseKey i < Config.blueNoiseKey me || (Config.blueNoiseKey i == Config.blueNoiseKey me && i < me)
  (List.range 65536).countP before / 256

/-- DRAM that other subsystems reserve beside the coverage rings, in bytes (R128; assumption 30). -/
opaque Config.reservedDram : Nat

/-- How far behind the slot areas the coverage ring of a bar lies, in bytes (R247; assumption 30). -/
opaque Config.coverageOffset : Nat → Nat

/-- AreaVersion of an area (R74). -/
opaque Config.areaVersion : Nat → BitVec 32

/-- The energy of an activity event: island and counter, in J (R406). -/
opaque Config.energy : Nat → Nat → Rat

/-- The heat capacity of a node (R406). -/
opaque Config.capacity : Nat → Rat

/-- The conductance between two nodes (R406). -/
opaque Config.conductance : Nat → Nat → Rat

/-- The leakage power of a node at a temperature (R406). -/
opaque Config.leak : Nat → Rat → Rat

/-- The supply that feeds an island, by its housekeeping position (R406). -/
opaque Config.islandSupply : Nat → Nat

/-- What an archive tile's coder sees outside the tile: the nearest sample of the plane, and the place (R315). -/
opaque Config.jpegEdge : Nat → Nat → Nat → BitVec 8

/-- A chroma sample of 4:2:0 made of the four it stands for (R315). -/
opaque Config.jpegChroma : List Nat → BitVec 8

/-- A coefficient of a block after the forward transform and quantisation: the 64 level-shifted samples, its quantiser and its place
row by row (R315). -/
opaque Config.jpegCoefficient : List Int → Nat → Nat → Int

end Sys2Proof
end

