-- ==== Sys2Proof/Machine/Bytes.lean ====
section
/-! DEFINITION. Byte-order, bit-field and sign helpers, the checksums the manual names, and fixed-length tables by index. -/

set_option Elab.async false

namespace Sys2Proof.Machine

/-- The low `n` bytes of `v`, least significant first (R57). -/
def leBytes : Nat → Nat → Bytes
  | 0, _ => []
  | n + 1, v => BitVec.ofNat 8 v :: leBytes n (v / 256)

/-- The number a little-endian byte string spells (R57). -/
def leNat : Bytes → Nat
  | [] => 0
  | b :: bs => b.toNat + 256 * leNat bs

/-- The low `n` bytes of `v`, most significant first. -/
def beBytes (n v : Nat) : Bytes := (leBytes n v).reverse

/-- The number a big-endian byte string spells. -/
def beNat (b : Bytes) : Nat := leNat b.reverse

/-- Bytes `off` to `off + n - 1` of a string, short where the string ends. -/
def slice (b : Bytes) (off n : Nat) : Bytes := (b.drop off).take n

/-- The little-endian number in bytes `off` to `off + n - 1`. -/
def leAt (b : Bytes) (off n : Nat) : Nat := leNat (slice b off n)

/-- The string cut or padded with zeros to exactly `n` bytes. -/
def padTo (n : Nat) (b : Bytes) : Bytes := b.take n ++ List.replicate (n - b.length) 0

/-- Bits `hi` down to `lo` of a number. -/
def bits (v hi lo : Nat) : Nat := v / 2 ^ lo % 2 ^ (hi + 1 - lo)

/-- Bit `i` of a number. -/
def bit (v i : Nat) : Bool := v / 2 ^ i % 2 == 1

/-- A Bool as a number. -/
def b2n (b : Bool) : Nat := if b then 1 else 0

/-- A two's-complement word of `w` bits read as an integer. -/
def toSigned (w n : Nat) : Int :=
  let m := n % 2 ^ w
  if m < 2 ^ (w - 1) then (m : Int) else (m : Int) - (2 ^ w : Nat)

/-- An integer as a two's-complement word of `w` bits. -/
def ofSigned (w : Nat) (i : Int) : Nat := (i % ((2 ^ w : Nat) : Int)).toNat

/-- Ceiling of a quotient. -/
def ceilDiv (a b : Nat) : Nat := (a + b - 1) / b

/-- Rounding of a quotient to the nearest whole number, a half rounding up. -/
def roundHalfUp (a b : Nat) : Nat := (2 * a + b) / (2 * b)

/-- Rounding of a quotient of an integer by a positive number to the nearest, a half rounding up. -/
def roundHalfUpInt (a : Int) (b : Nat) : Int := Int.fdiv (2 * a + b) (2 * b)

/-- An integer held between two limits. -/
def clampInt (lo hi x : Int) : Int := if x < lo then lo else if hi < x then hi else x

/-- A number held between two limits. -/
def clampNat (lo hi x : Nat) : Nat := if x < lo then lo else if hi < x then hi else x

/-- The mask with exactly the listed bits set. -/
def maskOf (p : Nat → Bool) : Nat → Nat
  | 0 => 0
  | n + 1 => maskOf p n + (if p n then 2 ^ n else 0)

/-- Entry `i` of a vector, or a stated value past its end. -/
def vget {α : Type} {n : Nat} (v : Vector α n) (i : Nat) (d : α) : α := v.toList.getD i d

/-- The vector with entry `i` changed by `f`; unchanged where there is no entry `i`. -/
def vmod {α : Type} {n : Nat} (v : Vector α n) (i : Nat) (f : α → α) : Vector α n :=
  Vector.ofFn fun j => if j.val = i then f v[j] else v[j]

/-- One step of a reflected 32-bit cyclic redundancy check over one bit. -/
def crcBit32 (poly c : Nat) : Nat := if c % 2 = 1 then (c / 2) ^^^ poly else c / 2

/-- `n` bit steps of a reflected 32-bit check. -/
def crcBits32 (poly : Nat) : Nat → Nat → Nat
  | 0, c => c
  | n + 1, c => crcBits32 poly n (crcBit32 poly c)

/-- CRC-32C, the Castagnoli polynomial, over a byte string (R78). -/
def crc32c (b : Bytes) : Nat :=
  (b.foldl (fun c x => crcBits32 0x82F63B78 8 (c ^^^ x.toNat)) 0xFFFFFFFF) ^^^ 0xFFFFFFFF

/-- One bit of the CCITT check, most significant bit first (R263). -/
def crcBit16 (c : Nat) (b : Bool) : Nat :=
  let y := 2 * c % 65536
  if xor (bit c 15) b then y ^^^ 0x1021 else y

/-- The CRC-16 of the CCITT polynomial with initial value FFFFh and no final inversion (R263). -/
def crc16 (b : Bytes) : Nat :=
  b.foldl (fun c x => (List.range 8).foldl (fun c i => crcBit16 c (bit x.toNat (7 - i))) c) 0xFFFF

end Sys2Proof.Machine
end

