-- ==== Sys2Proof/Machine/SourceTable.lean ====
section
/-! DEFINITION. The fault sources of the manual (R8, R371) and what their ids say: record source, unit, area, island, and
which block a reaction on them acts on (R383, R384, R386, R450). -/

set_option Elab.async false

namespace Sys2Proof.Machine

/-- A run of source ids: first, last, whether they are record sources, the number of the first one's unit. -/
structure SourceRow where
  lo : Nat
  hi : Nat
  isRecord : Bool
  base : Nat
  deriving DecidableEq, Repr

/-- The sources of the chapters' fault tables, part 1. -/
def sourceRows1 : List SourceRow := [
  ⟨0x1001, 0x1001, false, 0⟩,
  ⟨0x1002, 0x1002, false, 0⟩,
  ⟨0x1003, 0x1003, false, 0⟩,
  ⟨0x1004, 0x1004, false, 0⟩,
  ⟨0x1005, 0x1005, false, 0⟩,
  ⟨0x1010, 0x1010, false, 0⟩,
  ⟨0x1011, 0x1011, false, 0⟩,
  ⟨0x1012, 0x1012, false, 0⟩,
  ⟨0x1013, 0x1013, false, 0⟩,
  ⟨0x2001, 0x2001, false, 0⟩,
  ⟨0x2002, 0x2002, false, 0⟩,
  ⟨0x2003, 0x2003, false, 0⟩,
  ⟨0x2101, 0x2101, false, 0⟩,
  ⟨0x2102, 0x2102, false, 0⟩,
  ⟨0x2103, 0x2103, false, 0⟩,
  ⟨0x2104, 0x2104, false, 0⟩,
  ⟨0x2105, 0x2105, false, 0⟩,
  ⟨0x2106, 0x2106, false, 0⟩,
  ⟨0x2180, 0x2180, true, 0⟩,
  ⟨0x2181, 0x2181, true, 0⟩,
  ⟨0x2201, 0x2201, false, 0⟩,
  ⟨0x2202, 0x2202, false, 0⟩,
  ⟨0x2203, 0x2203, false, 0⟩,
  ⟨0x2204, 0x2204, false, 0⟩,
  ⟨0x2205, 0x2205, false, 0⟩,
  ⟨0x2206, 0x2206, false, 0⟩,
  ⟨0x2310, 0x2313, false, 0⟩,
  ⟨0x2320, 0x2323, false, 0⟩,
  ⟨0x2330, 0x2333, false, 0⟩,
  ⟨0x2340, 0x2343, false, 0⟩,
  ⟨0x2350, 0x2353, false, 0⟩,
  ⟨0x2360, 0x2363, false, 0⟩,
  ⟨0x2401, 0x2401, false, 0⟩,
  ⟨0x2402, 0x2402, false, 0⟩,
  ⟨0x2500, 0x250B, false, 0⟩,
  ⟨0x2510, 0x251B, false, 0⟩,
  ⟨0x2520, 0x252B, false, 0⟩,
  ⟨0x2530, 0x253B, false, 0⟩,
  ⟨0x2600, 0x2607, false, 0⟩,
  ⟨0x2610, 0x2617, true, 0⟩,
  ⟨0x2620, 0x262F, false, 16⟩,
  ⟨0x2630, 0x263F, false, 16⟩,
  ⟨0x2700, 0x2710, false, 0⟩,
  ⟨0x2720, 0x2720, true, 0⟩,
  ⟨0x2721, 0x2721, false, 0⟩,
  ⟨0x2728, 0x272F, true, 0⟩,
  ⟨0x2740, 0x2740, false, 0⟩,
  ⟨0x2800, 0x2800, true, 0⟩]

/-- The sources of the chapters' fault tables, part 2. -/
def sourceRows2 : List SourceRow := [
  ⟨0x2808, 0x280F, false, 0⟩,
  ⟨0x2810, 0x2817, true, 0⟩,
  ⟨0x2818, 0x281F, false, 0⟩,
  ⟨0x2820, 0x2820, true, 0⟩,
  ⟨0x2900, 0x2907, false, 0⟩,
  ⟨0x2908, 0x290F, true, 0⟩,
  ⟨0x2910, 0x2917, false, 0⟩,
  ⟨0x2918, 0x291F, true, 0⟩,
  ⟨0x2920, 0x2927, false, 0⟩,
  ⟨0x2928, 0x292F, false, 0⟩,
  ⟨0x2930, 0x2930, true, 0⟩,
  ⟨0x2931, 0x2931, true, 0⟩,
  ⟨0x2938, 0x293F, false, 0⟩,
  ⟨0x2A00, 0x2A1F, false, 0⟩,
  ⟨0x2A20, 0x2A3F, false, 0⟩,
  ⟨0x2A40, 0x2A5F, false, 0⟩,
  ⟨0x2A60, 0x2A7F, false, 0⟩,
  ⟨0x2A80, 0x2A9F, false, 0⟩,
  ⟨0x2AA0, 0x2ABF, false, 0⟩,
  ⟨0x2AC0, 0x2ADF, false, 0⟩,
  ⟨0x2AE0, 0x2AFF, false, 0⟩,
  ⟨0x2B00, 0x2B07, true, 0⟩,
  ⟨0x2B08, 0x2B0F, false, 0⟩,
  ⟨0x2B10, 0x2B17, true, 0⟩,
  ⟨0x2B18, 0x2B1F, false, 0⟩,
  ⟨0x2B20, 0x2B3F, false, 0⟩,
  ⟨0x2C00, 0x2C03, false, 0⟩,
  ⟨0x2C10, 0x2C13, false, 0⟩,
  ⟨0x2C20, 0x2C23, false, 0⟩,
  ⟨0x2C28, 0x2C2B, true, 0⟩,
  ⟨0x2D00, 0x2D00, false, 0⟩,
  ⟨0x2D10, 0x2D12, false, 0⟩,
  ⟨0x2D20, 0x2D20, false, 0⟩,
  ⟨0x2E00, 0x2E0F, true, 0⟩,
  ⟨0x2E10, 0x2E1F, false, 0⟩,
  ⟨0x2F01, 0x2F01, false, 0⟩,
  ⟨0x2F40, 0x2F70, false, 0⟩,
  ⟨0x2F80, 0x2FB0, false, 0⟩,
  ⟨0x3000, 0x3000, true, 0⟩,
  ⟨0x3001, 0x3001, true, 0⟩,
  ⟨0x3002, 0x3002, true, 0⟩,
  ⟨0x3003, 0x3003, false, 0⟩,
  ⟨0x3004, 0x3004, true, 0⟩,
  ⟨0x3005, 0x3005, false, 0⟩,
  ⟨0x3006, 0x3006, false, 0⟩,
  ⟨0x3100, 0x3100, true, 0⟩,
  ⟨0x3101, 0x3101, false, 0⟩,
  ⟨0x3102, 0x3102, true, 0⟩,
  ⟨0x3103, 0x3103, true, 0⟩,
  ⟨0x3104, 0x3104, true, 0⟩,
  ⟨0x3105, 0x3105, true, 0⟩,
  ⟨0x3108, 0x310F, false, 0⟩,
  ⟨0x3110, 0x3117, false, 0⟩,
  ⟨0x3118, 0x311F, false, 0⟩,
  ⟨0x3120, 0x3120, false, 0⟩,
  ⟨0x3200, 0x3200, false, 0⟩,
  ⟨0x3201, 0x3201, false, 0⟩,
  ⟨0x3202, 0x3202, false, 0⟩,
  ⟨0x3203, 0x3203, false, 0⟩,
  ⟨0x3204, 0x3204, false, 0⟩,
  ⟨0x3205, 0x3205, true, 0⟩,
  ⟨0x3206, 0x3206, true, 0⟩,
  ⟨0x3207, 0x3207, true, 0⟩,
  ⟨0x3208, 0x320F, true, 0⟩,
  ⟨0x3210, 0x3210, false, 0⟩,
  ⟨0x3211, 0x3211, false, 0⟩,
  ⟨0x3212, 0x3212, false, 0⟩,
  ⟨0x3213, 0x3213, false, 0⟩,
  ⟨0x3214, 0x3214, true, 0⟩]

/-- All fault sources, in ascending id. -/
def sourceRows : List SourceRow := sourceRows1 ++ sourceRows2

/-- The row of a source. -/
def sourceRow (src : Nat) : Option SourceRow := sourceRows.find? fun r => r.lo ≤ src && src ≤ r.hi

/-- The source is one of the manual's. -/
def sourceExists (src : Nat) : Bool := (sourceRow src).isSome

/-- The source is a record source (R371). -/
def sourceIsRecord (src : Nat) : Bool := (sourceRow src).any (·.isRecord)

/-- Code[7:0]: the index that the source id names, FFh for none (R372). -/
def sourceUnit (src : Nat) : Nat :=
  match sourceRow src with
  | some r => if r.lo = r.hi then 255 else r.base + (src - r.lo)
  | none => 255

/-- The area byte of the subsystem that a source belongs to; the sources F10xxh are DIC's (R8). -/
def sourceArea (src : Nat) : Nat := src / 256

/-- The island in which a source is detected (R7, R9). -/
def sourceIsland (src : Nat) : Nat :=
  match src / 256 with
  | 0x10 => if src < 0x1010 then 0 else 1
  | 0x20 | 0x21 => 2
  | 0x22 | 0x24 => 5
  | 0x23 => if src % 16 < 2 then 6 else 7
  | 0x25 | 0x26 | 0x29 | 0x2E => 3
  | 0x27 => if src ≤ 0x2710 then 8 + (src - 0x2700) else if src < 0x2728 then 1 else if src = 0x2740 then 5 else 3
  | 0x28 => 4
  | 0x2A | 0x2B => 25
  | 0x2C | 0x2D => 26
  | 0x30 => 0
  | 0x32 => 27
  | _ => 1

/-- A block that a reaction acts on: area byte and unit number, FFh for a whole subsystem (R450). -/
structure Block where
  area : Nat
  unit : Nat
  deriving DecidableEq, Repr

/-- The unit number is one that the subsystem has (R450). -/
def unitExists (area unit : Nat) : Bool :=
  match area with
  | 0x23 | 0x2C => unit < 4
  | 0x25 => unit < 12
  | 0x26 => unit < 8 || (16 ≤ unit && unit < 32)
  | 0x27 => unit < 17
  | 0x2A => unit < 32
  | _ => false

/-- The block that raises a source (R380, R450). -/
def sourceBlock (src : Nat) : Block :=
  let area := sourceArea src
  let unit := sourceUnit src
  ⟨area, if unitExists area unit then unit else 255⟩

/-- The block can be fenced (R383). -/
def Block.fenceable (b : Block) : Bool :=
  match b.area with
  | 0x27 | 0x2A | 0x2C => b.unit != 255
  | 0x26 => b.unit != 255 && 16 ≤ b.unit
  | 0x28 | 0x2D | 0x2B => true
  | _ => false

/-- The bit of BoltedUnits that shows a bolt of a block: subindex and bit (R401). -/
def boltBit (b : Block) : Option (Nat × Nat) :=
  match b.area with
  | 0x27 => if b.unit < 17 then some (1, b.unit) else none
  | 0x2A => if b.unit < 32 then some (2, b.unit) else none
  | 0x2C => if b.unit < 4 then some (3, b.unit) else none
  | 0x26 => if 16 ≤ b.unit ∧ b.unit < 32 then some (4, b.unit - 16) else none
  | 0x28 => some (5, 0)
  | 0x2D => some (5, 1)
  | 0x2B => some (5, 2)
  | _ => none

/-- The number of a block in the latch word, engines to ports by unit and then the subsystems in the order of R377. -/
def latchNumber (b : Block) : Option Nat :=
  let unit := fun (base n per : Nat) => if b.unit < n then some (base + b.unit / per) else none
  match b.area with
  | 0x27 => unit 0 17 1
  | 0x23 => unit 17 4 1
  | 0x2A => unit 21 32 4
  | 0x2C => unit 29 4 1
  | a => ([0x20, 0x21, 0x10, 0x22, 0x24, 0x25, 0x26, 0x28, 0x29, 0x2B, 0x2D, 0x2E, 0x2F, 0x30, 0x31, 0x32].idxOf? a).map (33 + ·)

/-- The block whose rails show an error of a source; the lost slices of F272xh are found by FLT and FSQ, and the table store is no
unit and has no rails (R216, R218, R222). -/
def railBlock (src : Nat) : Block :=
  if 0x2720 ≤ src ∧ src ≤ 0x2721 then ⟨0x2F, 255⟩
  else if 0x2728 ≤ src ∧ src ≤ 0x272F then ⟨0x29, 255⟩
  else sourceBlock src

/-- A block reset may be asked for the area (R380, R386). -/
def areaResettable (area : Nat) : Bool :=
  (0x22 ≤ area && area ≤ 0x2E) || area == 0x32

/-- A BLOCKRESET reaction is allowed for the source (R380). -/
def sourceResettable (src : Nat) : Bool := !sourceIsRecord src && areaResettable (sourceArea src)

/-- The attribute bits of SelectedAttributes (R401). -/
def sourceAttributes (src : Nat) : Nat :=
  if sourceExists src then
    1 + (if (sourceBlock src).fenceable then 2 else 0) + (if sourceIsRecord src then 4 else 0)
      + (if sourceResettable src then 8 else 0)
  else 0

end Sys2Proof.Machine
end

