-- ==== Sys2Proof/Machine/Dict.lean ====
section
/-! DEFINITION. The shape of a dictionary object (R70, R71, R73, R74, R453): types, access, classes, ranges and domains. -/

set_option Elab.async false

namespace Sys2Proof.Machine

/-- The object types of R70. -/
inductive Ty where
  | bool | u8 | u16 | u32 | u64 | i8 | i16 | i32 | i64 | f32 | octets | string | stamp48 | domain
  deriving DecidableEq, Repr

/-- The access of an object: read only, read and write, write only. -/
inductive Acc where
  | ro | rw | wo
  deriving DecidableEq, Repr

/-- The change classes of R73. -/
inductive Cls where
  | free | commit | stopped
  deriving DecidableEq, Repr

/-- How the default of an object is given by its table. -/
inductive Dflt where
  | num (n : Nat)          -- one number for every subindex
  | subs (l : List Nat)    -- one number per subindex, from 1
  | byIndex                -- the low digit of the index
  | bytes (b : Bytes)      -- a byte string
  | zeros (n : Nat)        -- `n` zero bytes
  | empty                  -- no bytes
  | builtin                -- a built-in table, held as no bytes until it is written
  | computed               -- read from the fuses or from another part of the state
  deriving DecidableEq, Repr

/-- One row of an object table. -/
structure Desc where
  idx : Nat
  idxHi : Nat
  subLo : Nat
  subHi : Nat
  name : String
  ty : Ty
  acc : Acc
  cls : Cls
  level : Nat
  maxSize : Nat
  dflt : Dflt
  ranges : List (Nat × Nat × Nat)
  deriving DecidableEq, Repr

/-- The value of an object: a number in its wire width, or a byte string. -/
inductive Val where
  | num (n : Nat)
  | bytes (b : Bytes)
  deriving DecidableEq, Repr

/-- The number a value holds; 0 for a byte string. -/
def Val.toNum : Val → Nat
  | .num n => n
  | .bytes _ => 0

/-- The bytes a value holds; none for a number. -/
def Val.toBytes : Val → Bytes
  | .num _ => []
  | .bytes b => b

/-- The key of an object in the sparse tables: index and subindex. -/
def key (idx sub : Nat) : Nat := idx * 256 + sub

/-- The wire size of a fixed-size type (R70); none for the types of varying size. -/
def Ty.size : Ty → Option Nat
  | .bool | .u8 | .i8 => some 1
  | .u16 | .i16 => some 2
  | .u32 | .i32 | .f32 => some 4
  | .u64 | .i64 => some 8
  | .stamp48 => some 6
  | .octets | .string | .domain => none

/-- The type code of R70. -/
def Ty.code : Ty → Nat
  | .bool => 1 | .u8 => 2 | .u16 => 3 | .u32 => 4 | .u64 => 5
  | .i8 => 6 | .i16 => 7 | .i32 => 8 | .i64 => 9 | .f32 => 10
  | .octets => 11 | .string => 12 | .stamp48 => 13 | .domain => 14

/-- The access code of R71. -/
def Acc.code : Acc → Nat
  | .ro => 1 | .rw => 2 | .wo => 3

/-- The class code of R71. -/
def Cls.code : Cls → Nat
  | .free => 0 | .commit => 1 | .stopped => 2

/-- The object covers this index and subindex. -/
def Desc.covers (d : Desc) (idx sub : Nat) : Bool :=
  d.idx ≤ idx && idx ≤ d.idxHi && d.subLo ≤ sub && sub ≤ d.subHi

/-- The areas that carry the administration objects of R74. -/
def isAdminArea (area : Nat) : Bool := area == 0x10 || (0x20 ≤ area && area ≤ 0x32)

/-- The administration objects of an area (R74). -/
def adminTable (area : Nat) : List Desc :=
  if isAdminArea area then
    let n := if area = 0x2C then 4 else 8
    let b := area * 256
    [ Desc.mk b b 1 1 "CommitRequest" .u32 .rw .free 1 4 (.num 0) [],
      Desc.mk b b 2 2 "CommitStatus" .u32 .ro .free 0 4 (.num 0) [],
      Desc.mk b b 3 3 "AreaVersion" .u32 .ro .free 0 4 (.num 0) [],
      Desc.mk b b 4 4 "CommitStamp" .stamp48 .ro .free 0 6 (.num 0) [],
      Desc.mk (b + 1) (b + 1) 1 n "TakeUpLine" .u32 .ro .free 0 4 (.num 0xFFFFFFFF) [],
      Desc.mk (b + 2) (b + 2) 1 n "TakeUpStamp" .stamp48 .ro .free 0 6 (.num 0) [] ]
  else []

/-- The sub 00 object of an index whose table gives none of its own (R70). -/
def subZero (idx top : Nat) : Desc :=
  Desc.mk idx idx 0 0 "HighestSub" .u8 .ro .free 0 1 (.num top) []

/-- The power domain codes of R21. -/
def domAON : Nat := 0
def domMGT : Nat := 1
def domNET : Nat := 2
def domMEMA : Nat := 3
def domMEMB : Nat := 4
def domRFE : Nat := 5
def domSN0 : Nat := 6
def domSN1 : Nat := 7
def domCTL : Nat := 8
def domHLK : Nat := 9
def domVIS : Nat := 10
def domMIR : Nat := 11

/-- The power domain of a subsystem area (R7). -/
def areaDomain (area : Nat) : Nat :=
  match area with
  | 0x20 | 0x21 => domNET
  | 0x22 | 0x24 => domRFE
  | 0x25 | 0x26 | 0x28 | 0x29 | 0x2E => domCTL
  | 0x2A | 0x2B => domHLK
  | 0x2C | 0x2D => domVIS
  | 0x30 => domAON
  | _ => domMGT

/-- The power domain that holds an object (R453). Sub 00 of TrainRequest and of ChannelRelease, which name no channel, is held in MEMA: the
model's choice (assumption 68). -/
def objDomain (idx sub : Nat) : Nat :=
  let area := idx / 256
  let low := idx % 256
  if 0x50 ≤ area && area ≤ 0x50 then domNET
  else if isAdminArea area && low ≤ 2 then domMGT
  else if area = 0x23 then
    if low = 0x16 || low = 0x36 then (if sub ≤ 2 then domMEMA else domMEMB) else domMGT
  else if area = 0x27 then
    if low = 0x10 || low = 0x12 || (0x14 ≤ low && low ≤ 0x1C) then domRFE else domMGT
  else areaDomain area

/-- The index lies in the map of R83. -/
def indexInMap (idx : Nat) : Bool :=
  (0x1000 ≤ idx && idx ≤ 0x12FF) || (0x2000 ≤ idx && idx ≤ 0x32FF)
    || (0x5000 ≤ idx && idx ≤ 0x50FF) || (0x6000 ≤ idx && idx ≤ 0x60FF)

/-- A number lies in one of the object's ranges, on its step. -/
def Desc.inRange (d : Desc) (n : Nat) : Bool :=
  d.ranges.isEmpty || d.ranges.any fun r => r.1 ≤ n && n ≤ r.2.1 && (n - r.1) % r.2.2 == 0

/-- The default of one subindex of an object. -/
def Desc.default (d : Desc) (idx sub : Nat) : Val :=
  match d.dflt with
  | .num n => .num n
  | .subs l => .num (l.getD (sub - d.subLo) 0)
  | .byIndex => .num (idx % 16)
  | .bytes b => .bytes b
  | .zeros n => .bytes (List.replicate n 0)
  | .empty | .builtin => .bytes []
  | .computed => match d.ty.size with
    | some _ => .num 0
    | none => .bytes []

end Sys2Proof.Machine
end

