-- ==== Sys2Proof/Machine/DictTable.lean ====
section
/-! DEFINITION. The object tables of the manual as data: one row per object (or per run of like objects),
generated from the tables of 02 to 16 of spec/ (index, subindices, name, type, access, class, level, size,
default, range). The administration objects of R74 are not rows here: Dict.lean derives them. -/

set_option Elab.async false

namespace Sys2Proof.Machine

/-- Objects of index area 10h. -/
def tbl10 : List Desc := [
  Desc.mk 0x1010 0x1010 1 1 "DeviceName" .string .ro .free 0 7 (.bytes [0x56,0x58,0x2D,0x38,0x38,0x33,0x32]) [],
  Desc.mk 0x1010 0x1010 2 2 "ProductCode" .u32 .ro .free 0 4 (.num 0x00008832) [],
  Desc.mk 0x1010 0x1010 3 3 "Stepping" .u8 .ro .free 0 1 (.num 0x21) [],
  Desc.mk 0x1010 0x1010 4 4 "MirrorOption" .u8 .ro .free 0 1 (.num 0) [],
  Desc.mk 0x1010 0x1010 5 5 "SerialNumber" .u64 .ro .free 0 8 (.num 0) [],
  Desc.mk 0x1020 0x1020 1 1 "SessionTimeout" .u16 .rw .free 2 2 (.num 2000) [(100, 60000, 1)],
  Desc.mk 0x1020 0x1020 2 2 "SessionCount" .u8 .ro .free 0 1 (.num 0) [],
  Desc.mk 0x1020 0x1020 3 3 "MalformedCount" .u32 .ro .free 0 4 (.num 0) [],
  Desc.mk 0x1020 0x1020 4 4 "OversizeCount" .u32 .ro .free 0 4 (.num 0) [],
  Desc.mk 0x1021 0x1021 1 4 "SessionInfo" .u32 .ro .free 0 4 (.num 0) [],
  Desc.mk 0x1030 0x1030 1 1 "OperatorCredential" .octets .wo .free 2 32 (.empty) [],
  Desc.mk 0x1030 0x1030 2 2 "ServiceCredential" .octets .wo .free 2 32 (.empty) [],
  Desc.mk 0x1030 0x1030 3 3 "CredentialState" .u8 .ro .free 0 1 (.num 0) [],
  Desc.mk 0x1030 0x1030 4 4 "AuthFailures" .u32 .ro .free 0 4 (.num 0) [],
  Desc.mk 0x1040 0x1040 1 1 "ProtocolVersions" .octets .ro .free 0 3 (.bytes [1,2,3]) [],
  Desc.mk 0x1050 0x1050 1 1 "IrqCause" .u32 .rw .free 1 4 (.num 0) [],
  Desc.mk 0x1050 0x1050 2 2 "IrqEnable" .u32 .rw .free 1 4 (.num 0) []]

/-- Objects of index area 11h. -/
def tbl11 : List Desc := [
  Desc.mk 0x1100 0x1100 1 1 "DeviceState" .u8 .ro .free 0 1 (.num 3) [],
  Desc.mk 0x1100 0x1100 2 2 "StateRequest" .u8 .wo .free 1 1 (.num 0) [(3, 8, 1)],
  Desc.mk 0x1100 0x1100 3 3 "StateStatus" .u32 .ro .free 0 4 (.num 0) [],
  Desc.mk 0x1100 0x1100 4 4 "StateEntryStamp" .stamp48 .ro .free 0 6 (.num 0) [],
  Desc.mk 0x1100 0x1100 5 5 "HoldResumeMode" .u8 .rw .free 1 1 (.num 0) [(0, 1, 1)],
  Desc.mk 0x1101 0x1101 1 8 "BarRunState" .u8 .ro .free 0 1 (.num 0) [],
  Desc.mk 0x1120 0x1120 1 1 "ResetRequest" .u8 .wo .free 2 1 (.num 0) [(1, 2, 1)],
  Desc.mk 0x1120 0x1120 2 2 "BlockSelect" .u16 .rw .free 1 2 (.num 0) [],
  Desc.mk 0x1120 0x1120 3 3 "ResetCause" .u8 .ro .free 0 1 (.num 0) [],
  Desc.mk 0x1120 0x1120 4 4 "ResetCount" .u32 .ro .free 0 4 (.num 0) [],
  Desc.mk 0x1130 0x1130 1 1 "BootResult" .u16 .ro .free 0 2 (.num 0) [],
  Desc.mk 0x1130 0x1130 2 2 "BootDuration" .u32 .ro .free 0 4 (.num 0) [],
  Desc.mk 0x1130 0x1130 3 3 "FirmwareVersion" .u32 .ro .free 0 4 (.num 0) [],
  Desc.mk 0x1130 0x1130 4 4 "SecurityVersion" .u16 .ro .free 0 2 (.num 0) [],
  Desc.mk 0x1110 0x1110 1 1 "DomainRequest" .u32 .rw .free 1 4 (.num 0x00000015) [],
  Desc.mk 0x1110 0x1110 2 2 "DomainStatus" .u32 .ro .free 0 4 (.num 0x00000015) [],
  Desc.mk 0x1110 0x1110 3 3 "WakeEnable" .bool .rw .free 2 1 (.num 0) [],
  Desc.mk 0x1110 0x1110 4 4 "WakeCount" .u32 .ro .free 0 4 (.num 0) [],
  Desc.mk 0x1110 0x1110 5 5 "WakeIgnored" .u32 .ro .free 0 4 (.num 0) []]

/-- Objects of index area 12h. -/
def tbl12 : List Desc := [
  Desc.mk 0x1200 0x1200 1 1 "SubsystemCount" .u8 .ro .free 0 1 (.num 20) [],
  Desc.mk 0x1200 0x1200 2 2 "IslandCount" .u8 .ro .free 0 1 (.num 28) [],
  Desc.mk 0x1200 0x1200 3 3 "EngineCount" .u8 .ro .free 0 1 (.num 17) [],
  Desc.mk 0x1200 0x1200 4 4 "HeadLaneCount" .u8 .ro .free 0 1 (.num 32) [],
  Desc.mk 0x1200 0x1200 5 5 "PositionChannelCount" .u8 .ro .free 0 1 (.num 12) [],
  Desc.mk 0x1200 0x1200 6 6 "CameraPortCount" .u8 .ro .free 0 1 (.num 4) [],
  Desc.mk 0x1200 0x1200 7 7 "MemoryChannelCount" .u8 .ro .free 0 1 (.num 4) [],
  Desc.mk 0x1200 0x1200 8 8 "SramSize" .u32 .ro .free 0 4 (.num 98304) [],
  Desc.mk 0x1200 0x1200 9 9 "PreFireDepth" .u8 .ro .free 0 1 (.num 64) [],
  Desc.mk 0x1210 0x1210 1 28 "IslandStatus" .u32 .ro .free 0 4 (.num 0) [],
  Desc.mk 0x1220 0x1220 1 8 "EdgeToTokenLatency" .u32 .ro .free 0 4 (.num 89) [],
  Desc.mk 0x1221 0x1221 1 8 "MinFireDelay" .u32 .ro .free 0 4 (.num 0) []]

/-- Objects of index area 20h. -/
def tbl20 : List Desc := [
  Desc.mk 0x2010 0x2010 1 2 "PortMode" .u8 .rw .commit 2 1 (.num 1) [(0, 2, 1)],
  Desc.mk 0x2011 0x2011 1 2 "PhyAddress" .u8 .rw .commit 2 1 (.subs [0,1]) [(0, 31, 1)],
  Desc.mk 0x2012 0x2012 1 2 "LinkStatus" .u16 .ro .free 0 2 (.num 0) [],
  Desc.mk 0x2013 0x2013 1 2 "IngressLatency" .u16 .rw .commit 2 2 (.num 0) [(0, 2000, 1)],
  Desc.mk 0x2014 0x2014 1 2 "EgressLatency" .u16 .rw .commit 2 2 (.num 0) [(0, 2000, 1)],
  Desc.mk 0x2015 0x2015 1 2 "RxFrames" .u32 .ro .free 0 4 (.num 0) [],
  Desc.mk 0x2016 0x2016 1 2 "FcsErrors" .u32 .ro .free 0 4 (.num 0) [],
  Desc.mk 0x2017 0x2017 1 4 "QueueDrops" .u32 .ro .free 0 4 (.num 0) [],
  Desc.mk 0x2020 0x2020 1 1 "MacAddress" .octets .ro .free 0 6 (.computed) [],
  Desc.mk 0x2020 0x2020 2 2 "IPv4Address" .u32 .rw .commit 2 4 (.num 0) [],
  Desc.mk 0x2020 0x2020 3 3 "IPv4Mask" .u32 .rw .commit 2 4 (.num 0xFFFF0000) [],
  Desc.mk 0x2020 0x2020 4 4 "IPv4Gateway" .u32 .rw .commit 2 4 (.num 0) [],
  Desc.mk 0x2020 0x2020 5 5 "IPv6Address" .octets .rw .commit 2 16 (.zeros 16) [],
  Desc.mk 0x2020 0x2020 6 6 "IPv6PrefixLength" .u8 .rw .commit 2 1 (.num 64) [(1, 128, 1)],
  Desc.mk 0x2030 0x2030 1 1 "PcpToQueue" .u16 .rw .commit 2 2 (.num 0xFA50) [],
  Desc.mk 0x2030 0x2030 2 2 "UntaggedPcp" .u8 .rw .commit 2 1 (.num 0) [(0, 7, 1)],
  Desc.mk 0x2030 0x2030 3 3 "CyclicPcp" .u8 .rw .commit 2 1 (.num 6) [(0, 7, 1)],
  Desc.mk 0x2030 0x2030 4 4 "AcyclicPcp" .u8 .rw .commit 2 1 (.num 4) [(0, 7, 1)],
  Desc.mk 0x2030 0x2030 5 5 "DeviceVid" .u16 .rw .commit 2 2 (.num 0) [(0, 4094, 1)],
  Desc.mk 0x2030 0x2030 6 6 "TagOwnTraffic" .bool .rw .commit 2 1 (.num 1) [],
  Desc.mk 0x2040 0x2040 1 1 "TcEnable" .bool .rw .commit 1 1 (.num 1) [],
  Desc.mk 0x2040 0x2040 2 2 "TcCorrected" .u32 .ro .free 0 4 (.num 0) [],
  Desc.mk 0x2040 0x2040 3 3 "TcMaxResidence" .u32 .ro .free 0 4 (.num 0) [],
  Desc.mk 0x2050 0x2050 1 1 "MdioCommand" .u32 .wo .free 2 4 (.num 0) [],
  Desc.mk 0x2050 0x2050 2 2 "MdioResult" .u32 .ro .free 0 4 (.num 0) []]

/-- Objects of index area 21h. -/
def tbl21 : List Desc := [
  Desc.mk 0x2110 0x2110 1 1 "DeviceTime" .stamp48 .ro .free 0 6 (.num 0) [],
  Desc.mk 0x2110 0x2110 2 2 "TimeStatus" .u32 .ro .free 0 4 (.num 0) [],
  Desc.mk 0x2110 0x2110 3 3 "Increment" .u64 .ro .free 0 8 (.num 0x0280000000) [],
  Desc.mk 0x2110 0x2110 4 4 "Offset" .i32 .ro .free 0 4 (.num 0) [],
  Desc.mk 0x2110 0x2110 5 5 "MeanPathDelay" .u32 .ro .free 0 4 (.num 0) [],
  Desc.mk 0x2110 0x2110 6 6 "ServoOffsetMax" .u32 .ro .free 0 4 (.num 0) [],
  Desc.mk 0x2110 0x2110 7 7 "GrandmasterId" .octets .ro .free 0 8 (.zeros 8) [],
  Desc.mk 0x2110 0x2110 8 8 "HoldoverStamp" .stamp48 .ro .free 0 6 (.num 0) [],
  Desc.mk 0x2120 0x2120 1 1 "PtpDomain" .u8 .rw .commit 1 1 (.num 0) [(0, 127, 1)],
  Desc.mk 0x2120 0x2120 2 2 "DelayMechanism" .u8 .rw .commit 1 1 (.num 1) [(1, 2, 1)],
  Desc.mk 0x2120 0x2120 3 3 "Transports" .u8 .rw .commit 1 1 (.num 0x07) [(0, 7, 1)],
  Desc.mk 0x2120 0x2120 4 4 "Kp" .u32 .rw .commit 1 4 (.num 0x00040000) [],
  Desc.mk 0x2120 0x2120 5 5 "Ki" .u32 .rw .commit 1 4 (.num 0x00004000) [],
  Desc.mk 0x2120 0x2120 6 6 "FreqLimit" .u32 .rw .commit 1 4 (.num 100000) [(1, 500000, 1)],
  Desc.mk 0x2120 0x2120 7 7 "StepThreshold" .u32 .rw .commit 1 4 (.num 1000) [(1, 1000000000, 1)],
  Desc.mk 0x2120 0x2120 8 8 "StepMode" .u8 .rw .commit 1 1 (.num 1) [(0, 2, 1)],
  Desc.mk 0x2120 0x2120 9 9 "LockThreshold" .u32 .rw .commit 1 4 (.num 100) [(1, 1000000, 1)],
  Desc.mk 0x2120 0x2120 10 10 "DelayFilterShift" .u8 .rw .commit 1 1 (.num 4) [(0, 8, 1)],
  Desc.mk 0x2120 0x2120 11 11 "AnnounceTimeout" .u8 .rw .commit 1 1 (.num 3) [(2, 10, 1)],
  Desc.mk 0x2120 0x2120 12 12 "ServoEnable" .bool .rw .free 1 1 (.num 1) [],
  Desc.mk 0x2130 0x2130 1 1 "TimeSet" .u64 .wo .free 1 8 (.num 0) []]

/-- Objects of index area 22h. -/
def tbl22 : List Desc := [
  Desc.mk 0x2210 0x2210 1 2 "SlotJobId" .u32 .rw .stopped 1 4 (.num 0) [],
  Desc.mk 0x2211 0x2211 1 2 "SlotMode" .u8 .rw .stopped 1 1 (.num 0) [(0, 1, 1)],
  Desc.mk 0x2212 0x2212 1 2 "SlotBarMask" .u8 .rw .stopped 1 1 (.num 0xFF) [(1, 255, 1)],
  Desc.mk 0x2213 0x2213 1 2 "SlotWidth" .u32 .rw .stopped 1 4 (.num 47244) [(1, 131072, 1)],
  Desc.mk 0x2214 0x2214 1 2 "SlotXdpi" .u16 .rw .stopped 1 2 (.num 600) [(600, 600, 1), (1200, 1200, 1)],
  Desc.mk 0x2215 0x2215 1 2 "SlotYdpi" .u16 .rw .stopped 1 2 (.num 600) [(300, 300, 1), (600, 600, 1), (1200, 1200, 1)],
  Desc.mk 0x2216 0x2216 1 2 "SlotRepeatLines" .u32 .rw .stopped 1 4 (.num 1) [(1, 472440, 1)],
  Desc.mk 0x2217 0x2217 1 2 "SlotRepeatCount" .u32 .rw .stopped 1 4 (.num 0) [],
  Desc.mk 0x2218 0x2218 1 2 "SlotGeneration" .u16 .rw .stopped 1 2 (.num 0) [],
  Desc.mk 0x2219 0x2219 1 1 "SlotCapacity" .u64 .ro .free 0 8 (.num 0) [],
  Desc.mk 0x221A 0x221A 1 2 "SlotCommand" .u8 .wo .free 1 1 (.num 0) [(1, 3, 1)],
  Desc.mk 0x221B 0x221B 1 2 "SlotState" .u8 .ro .free 0 1 (.num 0) [],
  Desc.mk 0x221C 0x221C 1 2 "SlotLinesMissing" .u32 .ro .free 0 4 (.num 0) [],
  Desc.mk 0x221D 0x221D 1 2 "SlotChecksum" .u32 .ro .free 0 4 (.num 0) [],
  Desc.mk 0x2220 0x2220 1 1 "IntakeEnable" .bool .rw .free 1 1 (.num 0) [],
  Desc.mk 0x2220 0x2220 2 2 "HighMark" .u32 .rw .commit 1 4 (.num 7168) [(64, 8160, 32)],
  Desc.mk 0x2220 0x2220 3 3 "LowMark" .u32 .rw .commit 1 4 (.num 5120) [(32, 8128, 32)],
  Desc.mk 0x2220 0x2220 4 4 "Fill" .u32 .ro .free 0 4 (.num 0) [],
  Desc.mk 0x2220 0x2220 5 5 "IntakeStatus" .u32 .ro .free 0 4 (.num 0) [],
  Desc.mk 0x2220 0x2220 6 6 "OverrunWords" .u32 .ro .free 0 4 (.num 0) [],
  Desc.mk 0x2220 0x2220 7 7 "BlocksAccepted" .u32 .ro .free 0 4 (.num 0) [],
  Desc.mk 0x2220 0x2220 8 8 "BlocksRejected" .u32 .ro .free 0 4 (.num 0) [],
  Desc.mk 0x2220 0x2220 9 9 "HeaderSearchWords" .u32 .ro .free 0 4 (.num 0) [],
  Desc.mk 0x2220 0x2220 10 10 "ForwardRestart" .bool .wo .free 1 1 (.num 0) [],
  Desc.mk 0x2221 0x2221 1 4 "LaneErrors" .u32 .ro .free 0 4 (.num 0) []]

/-- Objects of index area 23h, part 1. -/
def tbl23a : List Desc := [
  Desc.mk 0x2310 0x2310 1 4 "ChannelEnable" .bool .rw .stopped 1 1 (.num 0) [],
  Desc.mk 0x2311 0x2311 1 4 "DimmRanks" .u8 .rw .stopped 1 1 (.num 1) [(1, 2, 1)],
  Desc.mk 0x2312 0x2312 1 4 "DimmDensity" .u8 .rw .stopped 1 1 (.num 16) [(16, 16, 1), (24, 24, 1), (32, 32, 1)],
  Desc.mk 0x2313 0x2313 1 4 "OpPointRate0" .u16 .rw .stopped 1 2 (.num 5600) [(3200, 3200, 1), (3600, 3600, 1), (4000, 4000, 1), (4400, 4400, 1), (4800, 4800, 1), (5200, 5200, 1), (5600, 5600, 1)],
  Desc.mk 0x2314 0x2314 1 4 "OpPointRate1" .u16 .rw .stopped 1 2 (.num 4800) [(3200, 3200, 1), (3600, 3600, 1), (4000, 4000, 1), (4400, 4400, 1), (4800, 4800, 1), (5200, 5200, 1), (5600, 5600, 1)],
  Desc.mk 0x2315 0x2315 1 4 "OpPointSelect" .u8 .rw .stopped 1 1 (.num 0) [(0, 1, 1)],
  Desc.mk 0x2316 0x2316 1 4 "TrainRequest" .u8 .wo .free 1 1 (.num 0) [(1, 1, 1), (3, 3, 1)],
  Desc.mk 0x2317 0x2317 1 4 "TrainStatus" .u32 .ro .free 0 4 (.num 0) [],
  Desc.mk 0x2318 0x2318 1 4 "ChannelStatus" .u32 .ro .free 0 4 (.num 0) [],
  Desc.mk 0x2319 0x2319 1 4 "ChannelCapacity" .u64 .ro .free 0 8 (.num 0) [],
  Desc.mk 0x231A 0x231A 1 4 "IdleTime" .u32 .rw .free 1 4 (.num 200) [(0, 100000, 1)],
  Desc.mk 0x231B 0x231B 1 4 "NeighbourShift" .u8 .rw .free 1 1 (.num 10) [(4, 16, 1)],
  Desc.mk 0x231C 0x231C 1 4 "LfsrSeed" .u32 .rw .free 1 4 (.num 0x00000001) [(1, 4294967295, 1)],
  Desc.mk 0x2320 0x2320 1 4 "CorrectedCount" .u32 .ro .free 0 4 (.num 0) [],
  Desc.mk 0x2321 0x2321 1 4 "CorrectedStamp" .stamp48 .ro .free 0 6 (.num 0) [],
  Desc.mk 0x2322 0x2322 1 4 "CorrectedLocation" .u32 .ro .free 0 4 (.num 0) [],
  Desc.mk 0x2323 0x2323 1 4 "CorrectedDevice" .u8 .ro .free 0 1 (.num 0) [],
  Desc.mk 0x2324 0x2324 1 4 "CorrectedThreshold" .u32 .rw .free 1 4 (.num 1024) [],
  Desc.mk 0x2325 0x2325 1 4 "CorrectedPerDevice" .octets .ro .free 0 160 (.zeros 160) [],
  Desc.mk 0x2330 0x2330 1 4 "FreezeAddress" .u64 .ro .free 0 8 (.num 0) [],
  Desc.mk 0x2331 0x2331 1 4 "FreezeLocation" .u32 .ro .free 0 4 (.num 0) [],
  Desc.mk 0x2332 0x2332 1 4 "FreezeSyndrome" .octets .ro .free 0 32 (.zeros 32) [],
  Desc.mk 0x2333 0x2333 1 4 "FreezeErrorMap" .u32 .ro .free 0 4 (.num 0) [],
  Desc.mk 0x2334 0x2334 1 4 "FreezeStamp" .stamp48 .ro .free 0 6 (.num 0) [],
  Desc.mk 0x2335 0x2335 1 4 "FreezeCommandLog" .domain .ro .free 0 512 (.empty) [],
  Desc.mk 0x2336 0x2336 1 4 "ChannelRelease" .u8 .wo .free 2 1 (.num 0) [(1, 3, 1)],
  Desc.mk 0x2337 0x2337 1 4 "DiscardedWrites" .u32 .ro .free 0 4 (.num 0) [],
  Desc.mk 0x2340 0x2340 1 4 "RefreshOwedMax" .u8 .ro .free 0 1 (.num 0) [],
  Desc.mk 0x2341 0x2341 1 4 "RefreshPreempts" .u32 .ro .free 0 4 (.num 0) [],
  Desc.mk 0x2342 0x2342 1 4 "NeighbourRefreshes" .u32 .ro .free 0 4 (.num 0) []]

/-- Objects of index area 23h, part 2. -/
def tbl23b : List Desc := [
  Desc.mk 0x2343 0x2343 1 4 "RtBurstLimits" .u32 .ro .free 0 4 (.num 0) [],
  Desc.mk 0x2344 0x2344 1 4 "SelfRefreshEntries" .u32 .ro .free 0 4 (.num 0) []]

/-- Objects of index area 23h. -/
def tbl23 : List Desc := tbl23a ++ tbl23b

/-- Objects of index area 24h. -/
def tbl24 : List Desc := [
  Desc.mk 0x2410 0x2410 1 1 "QueuedSlot" .u8 .rw .free 1 1 (.num 0xFF) [(0, 1, 1), (255, 255, 1)],
  Desc.mk 0x2410 0x2410 2 2 "CurrentSlot" .u8 .ro .free 0 1 (.num 0xFF) [],
  Desc.mk 0x2410 0x2410 3 3 "ChangeAtRepeat" .u32 .rw .free 1 4 (.num 0) [],
  Desc.mk 0x2411 0x2411 1 8 "RepeatIndex" .u32 .ro .free 0 4 (.num 0) [],
  Desc.mk 0x2412 0x2412 1 8 "DesignLine" .u32 .ro .free 0 4 (.num 0) [],
  Desc.mk 0x2413 0x2413 1 8 "TimeToEmpty" .u32 .ro .free 0 4 (.num 0xFFFFFFFF) [],
  Desc.mk 0x2414 0x2414 1 8 "StreamWindowLines" .u32 .ro .free 0 4 (.num 0) []]

/-- Objects of index area 25h. -/
def tbl25 : List Desc := [
  Desc.mk 0x2510 0x2510 1 12 "ChannelMode" .u8 .rw .stopped 1 1 (.num 0) [(0, 3, 1)],
  Desc.mk 0x2511 0x2511 1 12 "FilterDivider" .u16 .rw .commit 1 2 (.num 1) [(1, 1000, 1)],
  Desc.mk 0x2512 0x2512 1 12 "FilterDepth" .u8 .rw .commit 1 1 (.num 4) [(1, 16, 1)],
  Desc.mk 0x2513 0x2513 1 12 "CountInvert" .bool .rw .stopped 1 1 (.num 0) [],
  Desc.mk 0x2514 0x2514 1 12 "ZCheckPeriod" .u32 .rw .free 1 4 (.num 0) [],
  Desc.mk 0x2515 0x2515 1 12 "ZTolerance" .u8 .rw .free 1 1 (.num 2) [],
  Desc.mk 0x2516 0x2516 1 12 "SsiConfig" .u32 .rw .stopped 1 4 (.num 0x04001418) [],
  Desc.mk 0x2517 0x2517 1 12 "SsiPeriod" .u32 .rw .stopped 1 4 (.num 20000) [(5000, 1000000, 5)],
  Desc.mk 0x2518 0x2518 1 12 "SpeedWindowShift" .u8 .rw .free 1 1 (.num 2) [(0, 8, 1)],
  Desc.mk 0x2519 0x2519 1 12 "MaxCountRate" .u32 .ro .free 0 4 (.num 20000000) [],
  Desc.mk 0x251A 0x251A 1 12 "StopTimeout" .u32 .rw .free 1 4 (.num 20000) [(100, 1000000, 1)],
  Desc.mk 0x251B 0x251B 1 12 "CountsPerMm" .u32 .rw .free 1 4 (.num 0x02580000) [],
  Desc.mk 0x2520 0x2520 1 12 "Position" .i32 .ro .free 0 4 (.num 0) [],
  Desc.mk 0x2521 0x2521 1 12 "Speed" .i32 .ro .free 0 4 (.num 0) [],
  Desc.mk 0x2522 0x2522 1 12 "WebSpeed" .i32 .ro .free 0 4 (.num 0) [],
  Desc.mk 0x2523 0x2523 1 12 "CountInterval" .u32 .ro .free 0 4 (.num 0) [],
  Desc.mk 0x2524 0x2524 1 12 "IllegalTransitions" .u32 .ro .free 0 4 (.num 0) [],
  Desc.mk 0x2525 0x2525 1 12 "HallInvalidStates" .u32 .ro .free 0 4 (.num 0) [],
  Desc.mk 0x2526 0x2526 1 12 "SsiErrors" .u32 .ro .free 0 4 (.num 0) [],
  Desc.mk 0x2527 0x2527 1 12 "ZErrors" .u32 .ro .free 0 4 (.num 0) [],
  Desc.mk 0x2528 0x2528 1 12 "ZLatch" .i32 .ro .free 0 4 (.num 0) [],
  Desc.mk 0x2529 0x2529 1 12 "DirectionChanges" .u32 .ro .free 0 4 (.num 0) [],
  Desc.mk 0x252A 0x252A 1 12 "PositionStatus" .u32 .ro .free 0 4 (.num 0) []]

/-- Objects of index area 26h. -/
def tbl26 : List Desc := [
  Desc.mk 0x2610 0x2610 1 8 "LinePitch" .u32 .rw .commit 1 4 (.num 0x000CB333) [(65536, 4294967295, 1)],
  Desc.mk 0x2611 0x2611 1 8 "MarkOffset" .u64 .rw .commit 1 8 (.num 0x0000001E0000) [(65536, 70368744177664, 1)],
  Desc.mk 0x2612 0x2612 1 8 "BarOffset" .u64 .rw .commit 1 8 (.num 0) [(0, 70368744177664, 1)],
  Desc.mk 0x2613 0x2613 1 8 "BacklashWindow" .u16 .rw .commit 1 2 (.num 2) [],
  Desc.mk 0x2614 0x2614 1 8 "MarkFilter" .u16 .rw .free 1 2 (.num 10) [(1, 10000, 1)],
  Desc.mk 0x2620 0x2620 1 1 "RegistrationMode" .u8 .rw .stopped 1 1 (.num 0) [(0, 1, 1)],
  Desc.mk 0x2620 0x2620 2 2 "SharedChannel" .u8 .rw .stopped 1 1 (.num 0) [(0, 11, 1)],
  Desc.mk 0x2630 0x2630 1 8 "LineClockStatus" .u32 .ro .free 0 4 (.num 0) [],
  Desc.mk 0x2631 0x2631 1 8 "LineEventCount" .u32 .ro .free 0 4 (.num 0) [],
  Desc.mk 0x2632 0x2632 1 8 "HighWater" .i32 .ro .free 0 4 (.num 0) [],
  Desc.mk 0x2633 0x2633 1 8 "NextLinePosition" .u64 .ro .free 0 8 (.num 0) [],
  Desc.mk 0x2634 0x2634 1 8 "LinePeriod" .u32 .ro .free 0 4 (.num 0xFFFFFFFF) [],
  Desc.mk 0x2635 0x2635 1 8 "MarkPosition" .i32 .ro .free 0 4 (.num 0) [],
  Desc.mk 0x2636 0x2636 1 8 "MarkStamp" .stamp48 .ro .free 0 6 (.num 0) [],
  Desc.mk 0x2637 0x2637 1 8 "MarksIgnored" .u32 .ro .free 0 4 (.num 0) [],
  Desc.mk 0x2638 0x2638 1 8 "ReverseEvents" .u32 .ro .free 0 4 (.num 0) [],
  Desc.mk 0x2639 0x2639 1 8 "UninterpolatedLines" .u32 .ro .free 0 4 (.num 0) [],
  Desc.mk 0x2640 0x2640 1 16 "CompareEnable" .bool .rw .commit 1 1 (.num 0) [],
  Desc.mk 0x2641 0x2641 1 16 "CompareChannel" .u8 .rw .commit 1 1 (.num 0) [(0, 11, 1)],
  Desc.mk 0x2642 0x2642 1 16 "CompareValue" .u64 .rw .commit 1 8 (.num 0) [(0, 281474976710655, 1)],
  Desc.mk 0x2643 0x2643 1 16 "ComparePeriod" .u32 .rw .commit 1 4 (.num 0) [(0, 0, 1), (65536, 4294967295, 1)],
  Desc.mk 0x2644 0x2644 1 16 "CompareTarget" .u8 .rw .commit 1 1 (.num 0) [(0, 20, 1)],
  Desc.mk 0x2645 0x2645 1 16 "CompareAction" .u8 .rw .commit 1 1 (.num 0) [(0, 3, 1)],
  Desc.mk 0x2646 0x2646 1 16 "PulseWidth" .u32 .rw .commit 1 4 (.num 1000) [(10, 10000000, 5)],
  Desc.mk 0x2647 0x2647 1 16 "CompareDelay" .u32 .rw .commit 1 4 (.num 0) [(0, 10000000, 5)],
  Desc.mk 0x2648 0x2648 1 16 "CompareStatus" .u32 .ro .free 0 4 (.num 0) [],
  Desc.mk 0x2649 0x2649 1 16 "CompareCount" .u32 .ro .free 0 4 (.num 0) [],
  Desc.mk 0x264A 0x264A 1 16 "LateCount" .u32 .ro .free 0 4 (.num 0) [],
  Desc.mk 0x264B 0x264B 1 16 "CompareOverruns" .u32 .ro .free 0 4 (.num 0) []]

/-- Objects of index area 27h. -/
def tbl27 : List Desc := [
  Desc.mk 0x2710 0x2710 1 8 "NozzleMap" .domain .rw .commit 1 1048576 (.empty) [],
  Desc.mk 0x2711 0x2711 1 8 "AddressCount" .u32 .ro .free 0 4 (.num 0) [],
  Desc.mk 0x2712 0x2712 1 8 "ZoneWidth" .u32 .rw .stopped 1 4 (.num 256) [(32, 131072, 32)],
  Desc.mk 0x2713 0x2713 1 8 "ZoneCount" .u16 .ro .free 0 2 (.num 0) [],
  Desc.mk 0x2714 0x2714 1 8 "ToneCurve" .domain .rw .commit 1 262144 (.builtin) [],
  Desc.mk 0x2715 0x2715 1 8 "ZoneGain" .domain .rw .commit 1 1024 (.empty) [],
  Desc.mk 0x2716 0x2716 1 8 "RedistWeights" .u32 .rw .commit 1 4 (.num 0x20606020) [],
  Desc.mk 0x2717 0x2717 1 8 "HalftoneMode" .u8 .rw .commit 1 1 (.num 1) [(0, 1, 1)],
  Desc.mk 0x2718 0x2718 1 8 "DiffusionWeights" .u16 .rw .commit 1 2 (.num 0x7351) [],
  Desc.mk 0x2719 0x2719 1 8 "ModulationDepth" .u8 .rw .commit 1 1 (.num 0x40) [],
  Desc.mk 0x271A 0x271A 1 8 "LevelValues" .octets .rw .commit 1 16 (.bytes [0,0,73,2,146,4,219,6,36,9,109,11,182,13,255,15]) [],
  Desc.mk 0x271B 0x271B 1 8 "ThresholdArray" .domain .rw .commit 1 65536 (.builtin) [],
  Desc.mk 0x271C 0x271C 1 8 "StitchDither" .domain .rw .commit 1 4096 (.builtin) [],
  Desc.mk 0x2720 0x2720 1 8 "SliceBoundaries" .octets .ro .free 0 68 (.zeros 68) [],
  Desc.mk 0x2721 0x2721 1 8 "LostSliceLines" .u32 .ro .free 0 4 (.num 0) [],
  Desc.mk 0x2722 0x2722 1 8 "ClampedSamples" .u32 .ro .free 0 4 (.num 0) [],
  Desc.mk 0x2723 0x2723 1 8 "DiffusionSaturations" .u32 .ro .free 0 4 (.num 0) [],
  Desc.mk 0x2724 0x2724 1 8 "LostFirstLine" .u32 .ro .free 0 4 (.num 0xFFFFFFFF) [],
  Desc.mk 0x2725 0x2725 1 8 "LostLastLine" .u32 .ro .free 0 4 (.num 0xFFFFFFFF) [],
  Desc.mk 0x2726 0x2726 1 8 "LostFirstStamp" .stamp48 .ro .free 0 6 (.num 0) [],
  Desc.mk 0x2727 0x2727 1 8 "LostLastStamp" .stamp48 .ro .free 0 6 (.num 0) [],
  Desc.mk 0x2730 0x2730 1 16 "SliceEngine" .u8 .ro .free 0 1 (.subs [0,1,2,3,4,5,6,7,8,9,10,11,12,13,14,15]) [],
  Desc.mk 0x2731 0x2731 1 17 "EngineStatus" .u32 .ro .free 0 4 (.num 0) [],
  Desc.mk 0x2732 0x2732 1 1 "TableParityErrors" .u32 .ro .free 0 4 (.num 0) []]

/-- Objects of index area 28h, part 1. -/
def tbl28a : List Desc := [
  Desc.mk 0x2810 0x2810 1 8 "HoldMode" .u8 .rw .free 2 1 (.num 0) [(0, 2, 1)],
  Desc.mk 0x2811 0x2811 1 8 "CameraDistance" .u32 .rw .stopped 1 4 (.num 0) [(0, 2147483647, 1)],
  Desc.mk 0x2812 0x2812 1 8 "HoldKp" .u16 .rw .free 1 2 (.num 0x8000) [],
  Desc.mk 0x2813 0x2813 1 8 "HoldKi" .u16 .rw .free 1 2 (.num 0x2000) [],
  Desc.mk 0x2814 0x2814 1 8 "Deadband" .u16 .rw .free 1 2 (.num 0x0052) [],
  Desc.mk 0x2815 0x2815 1 8 "StepLimit" .u16 .rw .free 1 2 (.num 0x0148) [(1, 65535, 1)],
  Desc.mk 0x2816 0x2816 1 8 "IntegralLimit" .u16 .rw .free 1 2 (.num 0x1000) [],
  Desc.mk 0x2817 0x2817 1 8 "GainMin" .u16 .rw .free 1 2 (.num 0x6000) [],
  Desc.mk 0x2818 0x2818 1 8 "GainMax" .u16 .rw .free 1 2 (.num 0xA000) [],
  Desc.mk 0x2819 0x2819 1 8 "Reference" .domain .rw .stopped 1 8192 (.empty) [],
  Desc.mk 0x281A 0x281A 1 8 "StrengthRatio" .domain .ro .free 0 1024 (.empty) [],
  Desc.mk 0x281B 0x281B 1 8 "AdvisedGain" .domain .ro .free 0 1024 (.empty) [],
  Desc.mk 0x281C 0x281C 1 8 "HoldStatus" .u32 .ro .free 0 4 (.num 0) [],
  Desc.mk 0x281D 0x281D 1 8 "GainTakeUpLine" .u32 .ro .free 0 4 (.num 0xFFFFFFFF) [],
  Desc.mk 0x281E 0x281E 1 8 "GainUpdateStamp" .stamp48 .ro .free 0 6 (.num 0) [],
  Desc.mk 0x2820 0x2820 1 1 "HoldRun" .bool .rw .free 1 1 (.num 0) [],
  Desc.mk 0x2820 0x2820 2 2 "WindowLength" .u32 .rw .stopped 1 4 (.num 500) [(50, 100000, 1)],
  Desc.mk 0x2820 0x2820 3 3 "MinObservations" .u32 .rw .stopped 1 4 (.num 256) [(16, 1000000, 1)],
  Desc.mk 0x2820 0x2820 4 4 "MinZonePixels" .u16 .rw .stopped 1 2 (.num 32) [(1, 16384, 1)],
  Desc.mk 0x2820 0x2820 5 5 "VarianceFloor" .u32 .rw .stopped 1 4 (.num 0x00068DB8) [],
  Desc.mk 0x2820 0x2820 6 6 "PivotFloor" .u16 .rw .stopped 1 2 (.num 0x0148) [],
  Desc.mk 0x2820 0x2820 7 7 "RefFloor" .u16 .rw .stopped 1 2 (.num 64) [],
  Desc.mk 0x2820 0x2820 8 8 "ResidualLimit" .u16 .rw .free 1 2 (.num 0x0400) [],
  Desc.mk 0x2820 0x2820 9 9 "RecordFlagMask" .u8 .rw .stopped 1 1 (.num 0x00) [],
  Desc.mk 0x2820 0x2820 10 10 "RefMode" .u8 .rw .stopped 1 1 (.num 0) [(0, 1, 1)],
  Desc.mk 0x2820 0x2820 11 11 "RefCommand" .u8 .wo .free 2 1 (.num 0) [],
  Desc.mk 0x2820 0x2820 12 12 "CheStatus" .u32 .ro .free 0 4 (.num 0) [],
  Desc.mk 0x2820 0x2820 13 13 "WindowNumber" .u32 .ro .free 0 4 (.num 0) [],
  Desc.mk 0x2820 0x2820 14 14 "WindowStamp" .stamp48 .ro .free 0 6 (.num 0) [],
  Desc.mk 0x2830 0x2830 1 1 "Estimates" .domain .ro .free 0 65552 (.empty) []]

/-- Objects of index area 28h, part 2. -/
def tbl28b : List Desc := [
  Desc.mk 0x2831 0x2831 1 1 "HoldLog" .domain .ro .free 0 32768 (.empty) [],
  Desc.mk 0x2832 0x2832 1 1 "PairedLines" .u32 .ro .free 0 4 (.num 0) [],
  Desc.mk 0x2832 0x2832 2 2 "UnpairedLines" .u32 .ro .free 0 4 (.num 0) [],
  Desc.mk 0x2832 0x2832 3 3 "FramesLeftOut" .u32 .ro .free 0 4 (.num 0) [],
  Desc.mk 0x2832 0x2832 4 4 "WindowsSolved" .u32 .ro .free 0 4 (.num 0) [],
  Desc.mk 0x2832 0x2832 5 5 "WindowsDiscarded" .u32 .ro .free 0 4 (.num 0) [],
  Desc.mk 0x2832 0x2832 6 6 "TrackMisses" .u32 .ro .free 0 4 (.num 0) [],
  Desc.mk 0x2832 0x2832 7 7 "CoverageOverruns" .u32 .ro .free 0 4 (.num 0) []]

/-- Objects of index area 28h. -/
def tbl28 : List Desc := tbl28a ++ tbl28b

/-- Objects of index area 29h, part 1. -/
def tbl29a : List Desc := [
  Desc.mk 0x2910 0x2910 1 8 "FireDelay" .u32 .rw .commit 1 4 (.num 1600) [(0, 160000, 1)],
  Desc.mk 0x2911 0x2911 1 8 "MinFirePeriod" .u32 .rw .commit 1 4 (.num 6250) [(6250, 10000000, 1)],
  Desc.mk 0x2912 0x2912 1 8 "BarHeadClass" .u8 .rw .stopped 1 1 (.num 0) [(0, 3, 1)],
  Desc.mk 0x2913 0x2913 1 8 "ElementDutyLimit" .u32 .rw .commit 1 4 (.num 65536) [(1, 65536, 1)],
  Desc.mk 0x2914 0x2914 1 8 "ElementDutyWindow" .u32 .rw .stopped 1 4 (.num 1024) [(64, 65536, 4)],
  Desc.mk 0x2915 0x2915 1 8 "HeadDutyLimit" .u32 .rw .commit 1 4 (.num 0xFFFFFFFF) [(1, 4294967295, 1)],
  Desc.mk 0x2916 0x2916 1 8 "HeadDutyWindow" .u32 .rw .stopped 1 4 (.num 1024) [(64, 65536, 4)],
  Desc.mk 0x2917 0x2917 1 8 "LevelWeights" .octets .rw .commit 1 8 (.bytes [0,1,2,3,4,5,6,7]) [],
  Desc.mk 0x2920 0x2920 1 7 "Waveform0" .domain .rw .stopped 1 528 (.empty) [],
  Desc.mk 0x2921 0x2921 1 7 "Waveform1" .domain .rw .stopped 1 528 (.empty) [],
  Desc.mk 0x2922 0x2922 1 7 "Waveform2" .domain .rw .stopped 1 528 (.empty) [],
  Desc.mk 0x2923 0x2923 1 7 "Waveform3" .domain .rw .stopped 1 528 (.empty) [],
  Desc.mk 0x2930 0x2930 1 1 "SpeedAdvice" .u16 .ro .free 0 2 (.num 0) [],
  Desc.mk 0x2930 0x2930 2 2 "AdviceHead" .u16 .ro .free 0 2 (.num 0) [],
  Desc.mk 0x2930 0x2930 3 3 "AdvicePipeline" .u16 .ro .free 0 2 (.num 0) [],
  Desc.mk 0x2930 0x2930 4 4 "AdviceData" .u16 .ro .free 0 2 (.num 0xFFFF) [],
  Desc.mk 0x2930 0x2930 5 5 "AdviceStatus" .u32 .ro .free 0 4 (.num 0) [],
  Desc.mk 0x2931 0x2931 1 1 "AdviceOutputEnable" .bool .rw .free 2 1 (.num 0) [],
  Desc.mk 0x2931 0x2931 2 2 "AdviceDataArm" .bool .rw .free 2 1 (.num 0) [],
  Desc.mk 0x2931 0x2931 3 3 "AdviceLead" .u32 .rw .free 1 4 (.num 50000) [(1000, 10000000, 1)],
  Desc.mk 0x2931 0x2931 4 4 "AdviceFullScale" .u16 .rw .free 1 2 (.num 20000) [(1000, 65535, 1)],
  Desc.mk 0x2931 0x2931 5 5 "SpeedMargin" .u16 .rw .free 1 2 (.num 200) [(0, 5000, 1)],
  Desc.mk 0x2940 0x2940 1 8 "FiredLines" .u32 .ro .free 0 4 (.num 0) [],
  Desc.mk 0x2941 0x2941 1 8 "BlankLines" .u32 .ro .free 0 4 (.num 0) [],
  Desc.mk 0x2942 0x2942 1 8 "OverspeedDrops" .u32 .ro .free 0 4 (.num 0) [],
  Desc.mk 0x2943 0x2943 1 8 "LateTokens" .u32 .ro .free 0 4 (.num 0) [],
  Desc.mk 0x2944 0x2944 1 8 "GatedLines" .u32 .ro .free 0 4 (.num 0) [],
  Desc.mk 0x2945 0x2945 1 8 "SuppressedElementFires" .u32 .ro .free 0 4 (.num 0) [],
  Desc.mk 0x2946 0x2946 1 8 "SuppressedHeadFires" .u32 .ro .free 0 4 (.num 0) [],
  Desc.mk 0x2947 0x2947 1 8 "IncompleteSliceLines" .u32 .ro .free 0 4 (.num 0) []]

/-- Objects of index area 29h, part 2. -/
def tbl29b : List Desc := [
  Desc.mk 0x2948 0x2948 1 8 "OverspeedLastLine" .u32 .ro .free 0 4 (.num 0xFFFFFFFF) [],
  Desc.mk 0x2949 0x2949 1 8 "OverspeedLastPosition" .u64 .ro .free 0 8 (.num 0) [],
  Desc.mk 0x294A 0x294A 1 8 "OverspeedLastStamp" .stamp48 .ro .free 0 6 (.num 0) [],
  Desc.mk 0x294B 0x294B 1 8 "BlankLastLine" .u32 .ro .free 0 4 (.num 0xFFFFFFFF) [],
  Desc.mk 0x294C 0x294C 1 8 "BlankLastStamp" .stamp48 .ro .free 0 6 (.num 0) [],
  Desc.mk 0x294D 0x294D 1 8 "LateLastStamp" .stamp48 .ro .free 0 6 (.num 0) [],
  Desc.mk 0x2950 0x2950 1 8 "FireStatus" .u32 .ro .free 0 4 (.num 0) [],
  Desc.mk 0x2951 0x2951 1 8 "DutyLineIndex" .u32 .ro .free 0 4 (.num 0) [],
  Desc.mk 0x2960 0x2960 1 1 "CoverageRecords" .u32 .rw .stopped 1 4 (.num 131072) [(1024, 1048576, 1)],
  Desc.mk 0x2961 0x2961 1 8 "CoverageWriteIndex" .u32 .ro .free 0 4 (.num 0) [],
  Desc.mk 0x2962 0x2962 1 8 "CoverageDropped" .u32 .ro .free 0 4 (.num 0) [],
  Desc.mk 0x2963 0x2963 1 8 "CoverageBase" .u64 .ro .free 0 8 (.num 0) []]

/-- Objects of index area 29h. -/
def tbl29 : List Desc := tbl29a ++ tbl29b

/-- Objects of index area 2Ah. -/
def tbl2A : List Desc := [
  Desc.mk 0x2A10 0x2A10 1 32 "LaneBar" .u8 .rw .commit 1 1 (.subs [0,0,0,0,1,1,1,1,2,2,2,2,3,3,3,3,4,4,4,4,5,5,5,5,6,6,6,6,7,7,7,7]) [(0, 7, 1), (255, 255, 1)],
  Desc.mk 0x2A11 0x2A11 1 32 "LaneFirstHead" .u8 .rw .commit 1 1 (.subs [0,16,32,48,0,16,32,48,0,16,32,48,0,16,32,48,0,16,32,48,0,16,32,48,0,16,32,48,0,16,32,48]) [(0, 63, 1)],
  Desc.mk 0x2A12 0x2A12 1 32 "LaneHeadCount" .u8 .rw .commit 1 1 (.num 16) [(1, 16, 1)],
  Desc.mk 0x2A13 0x2A13 1 32 "LaneState" .u32 .ro .free 0 4 (.num 0) [],
  Desc.mk 0x2A14 0x2A14 1 32 "LinkLatency" .u32 .ro .free 0 4 (.num 0) [],
  Desc.mk 0x2A15 0x2A15 1 32 "LatencyNow" .u32 .ro .free 0 4 (.num 0) [],
  Desc.mk 0x2A16 0x2A16 1 32 "HdmCapability" .octets .ro .free 0 32 (.zeros 32) [],
  Desc.mk 0x2A17 0x2A17 1 32 "HdmStatus" .octets .ro .free 0 34 (.zeros 34) [],
  Desc.mk 0x2A18 0x2A18 1 32 "BitSlip" .u8 .wo .free 2 1 (.num 0) [(1, 1, 1)],
  Desc.mk 0x2A19 0x2A19 1 32 "SyncHeaderRun" .u16 .ro .free 0 2 (.num 0) [],
  Desc.mk 0x2A1A 0x2A1A 1 32 "RxSkipInserted" .u32 .ro .free 0 4 (.num 0) [],
  Desc.mk 0x2A1B 0x2A1B 1 32 "RxSkipDeleted" .u32 .ro .free 0 4 (.num 0) [],
  Desc.mk 0x2A1C 0x2A1C 1 32 "BlockErrors" .u32 .ro .free 0 4 (.num 0) [],
  Desc.mk 0x2A1D 0x2A1D 1 32 "CrcErrors" .u32 .ro .free 0 4 (.num 0) [],
  Desc.mk 0x2A1E 0x2A1E 1 32 "LaneLostLines" .u32 .ro .free 0 4 (.num 0) [],
  Desc.mk 0x2A1F 0x2A1F 1 32 "LaneCommand" .u8 .wo .free 1 1 (.num 0) [(1, 3, 1)],
  Desc.mk 0x2A20 0x2A20 1 1 "LaneTrainMask" .u8 .rw .stopped 1 1 (.num 0xFF) [],
  Desc.mk 0x2A20 0x2A20 2 2 "AlignMode" .u8 .rw .free 2 1 (.num 0) [(0, 1, 1)],
  Desc.mk 0x2A20 0x2A20 3 3 "AutoRetrain" .bool .rw .free 1 1 (.num 1) [],
  Desc.mk 0x2A20 0x2A20 4 4 "LatencyTolerance" .u32 .rw .free 1 4 (.num 5000) [(625, 1000000, 1)],
  Desc.mk 0x2A20 0x2A20 5 5 "VersionMask" .u8 .rw .stopped 2 1 (.num 0x07) [(1, 7, 1)],
  Desc.mk 0x2A20 0x2A20 6 6 "OwnerGeneration" .u32 .ro .free 0 4 (.num 0) [],
  Desc.mk 0x2A30 0x2A30 1 32 "TestConfig" .u16 .rw .stopped 2 2 (.num 0x0100) [],
  Desc.mk 0x2A31 0x2A31 1 32 "TestInject" .u8 .wo .free 2 1 (.num 0) [(1, 2, 1)],
  Desc.mk 0x2A32 0x2A32 1 32 "TestErrorBits" .u32 .ro .free 0 4 (.num 0) [],
  Desc.mk 0x2A33 0x2A33 1 32 "TestBitsChecked" .u64 .ro .free 0 8 (.num 0) []]

/-- Objects of index area 2Bh. -/
def tbl2B : List Desc := [
  Desc.mk 0x2B10 0x2B10 1 1 "MeasBarMask" .u8 .rw .free 1 1 (.num 0) [],
  Desc.mk 0x2B10 0x2B10 2 2 "MeasCommand" .u8 .wo .free 1 1 (.num 0) [(1, 3, 1)],
  Desc.mk 0x2B10 0x2B10 3 3 "MeasStatus" .u32 .ro .free 0 4 (.num 0) [],
  Desc.mk 0x2B10 0x2B10 4 4 "MeasTimeout" .u32 .rw .free 1 4 (.num 2000) [(100, 100000, 1)],
  Desc.mk 0x2B10 0x2B10 5 5 "MeasDuration" .u32 .ro .free 0 4 (.num 0) [],
  Desc.mk 0x2B11 0x2B11 1 8 "MeasResults" .domain .ro .free 0 1048576 (.empty) [],
  Desc.mk 0x2B12 0x2B12 1 8 "Baseline" .domain .rw .commit 1 524288 (.empty) [],
  Desc.mk 0x2B13 0x2B13 1 8 "WeakDeviation" .u16 .rw .commit 1 2 (.num 100) [(1, 1000, 1)],
  Desc.mk 0x2B14 0x2B14 1 8 "MissingDeviation" .u16 .rw .commit 1 2 (.num 300) [(1, 1000, 1)],
  Desc.mk 0x2B15 0x2B15 1 8 "LeakageWeak" .u16 .rw .commit 1 2 (.num 500) [],
  Desc.mk 0x2B16 0x2B16 1 8 "LeakageMissing" .u16 .rw .commit 1 2 (.num 50) [],
  Desc.mk 0x2B17 0x2B17 1 8 "MergeMode" .u8 .rw .commit 1 1 (.num 1) [(0, 1, 1)],
  Desc.mk 0x2B18 0x2B18 1 8 "PendingMap" .domain .ro .free 0 1048576 (.empty) [],
  Desc.mk 0x2B19 0x2B19 1 8 "PendingApply" .bool .wo .free 1 1 (.num 0) [],
  Desc.mk 0x2B1A 0x2B1A 1 8 "AutoHide" .bool .rw .free 2 1 (.num 0) [],
  Desc.mk 0x2B1B 0x2B1B 1 8 "ElementsWeak" .u32 .ro .free 0 4 (.num 0) [],
  Desc.mk 0x2B1C 0x2B1C 1 8 "ElementsMissing" .u32 .ro .free 0 4 (.num 0) [],
  Desc.mk 0x2B1D 0x2B1D 1 8 "NewlyMissing" .u32 .ro .free 0 4 (.num 0) [],
  Desc.mk 0x2B1E 0x2B1E 1 8 "HiddenCount" .u32 .ro .free 0 4 (.num 0) []]

/-- Objects of index area 2Ch, part 1. -/
def tbl2Ca : List Desc := [
  Desc.mk 0x2C10 0x2C10 1 4 "PortEnable" .bool .rw .free 1 1 (.num 0) [],
  Desc.mk 0x2C11 0x2C11 1 4 "PortLanes" .u8 .rw .stopped 1 1 (.num 4) [(1, 1, 1), (2, 2, 1), (4, 4, 1)],
  Desc.mk 0x2C12 0x2C12 1 4 "PortLaneRate" .u16 .rw .stopped 1 2 (.num 2500) [(160, 2500, 1)],
  Desc.mk 0x2C13 0x2C13 1 4 "PortVirtualChannel" .u8 .rw .stopped 1 1 (.num 0) [(0, 3, 1)],
  Desc.mk 0x2C14 0x2C14 1 4 "PortDataType" .u8 .rw .stopped 1 1 (.num 0x24) [(36, 36, 1), (42, 42, 1), (43, 43, 1), (44, 44, 1)],
  Desc.mk 0x2C15 0x2C15 1 4 "PortLayout" .u8 .rw .stopped 1 1 (.num 0) [(0, 1, 1)],
  Desc.mk 0x2C16 0x2C16 1 4 "PortPixels" .u16 .rw .stopped 1 2 (.num 8192) [(64, 16384, 1)],
  Desc.mk 0x2C17 0x2C17 1 4 "PortReverse" .bool .rw .stopped 1 1 (.num 0) [],
  Desc.mk 0x2C18 0x2C18 1 4 "CropStart" .u16 .rw .stopped 1 2 (.num 0) [],
  Desc.mk 0x2C19 0x2C19 1 4 "CropCount" .u16 .rw .stopped 1 2 (.num 8192) [(1, 16384, 1)],
  Desc.mk 0x2C1A 0x2C1A 1 4 "WebStart" .u16 .rw .stopped 1 2 (.num 0) [],
  Desc.mk 0x2C1B 0x2C1B 1 4 "FillValue" .u16 .rw .stopped 1 2 (.num 0) [(0, 4095, 1)],
  Desc.mk 0x2C1C 0x2C1C 1 4 "LineDelay" .u32 .rw .stopped 1 4 (.num 20000) [(0, 1000000, 1)],
  Desc.mk 0x2C1D 0x2C1D 1 4 "LineTolerance" .u32 .rw .stopped 1 4 (.num 10000) [(100, 500000, 1)],
  Desc.mk 0x2C20 0x2C20 1 4 "ExposureValue" .u32 .rw .commit 1 4 (.num 0) [],
  Desc.mk 0x2C21 0x2C21 1 4 "GainValue" .u16 .rw .commit 1 2 (.num 0) [],
  Desc.mk 0x2C22 0x2C22 1 4 "WbRedValue" .u16 .rw .commit 1 2 (.num 0) [],
  Desc.mk 0x2C23 0x2C23 1 4 "WbGreenValue" .u16 .rw .commit 1 2 (.num 0) [],
  Desc.mk 0x2C24 0x2C24 1 4 "WbBlueValue" .u16 .rw .commit 1 2 (.num 0) [],
  Desc.mk 0x2C25 0x2C25 1 4 "CciMap" .domain .rw .stopped 1 64 (.empty) [],
  Desc.mk 0x2C26 0x2C26 1 4 "CciAddress" .u8 .rw .stopped 1 1 (.num 0x10) [(8, 119, 1)],
  Desc.mk 0x2C27 0x2C27 1 4 "CciRate" .u8 .rw .stopped 1 1 (.num 2) [(0, 2, 1)],
  Desc.mk 0x2C28 0x2C28 1 4 "CciCommand" .octets .wo .free 2 8 (.empty) [],
  Desc.mk 0x2C29 0x2C29 1 4 "CciResult" .octets .ro .free 0 8 (.zeros 8) [],
  Desc.mk 0x2C2A 0x2C2A 1 4 "AeArm" .bool .rw .free 2 1 (.num 0) [],
  Desc.mk 0x2C2B 0x2C2B 1 4 "AeTarget" .u16 .rw .free 1 2 (.num 0x8000) [],
  Desc.mk 0x2C2C 0x2C2C 1 4 "AeChannel" .u8 .rw .free 1 1 (.num 1) [(0, 2, 1)],
  Desc.mk 0x2C2D 0x2C2D 1 4 "AeStep" .u16 .rw .free 1 2 (.num 0x1000) [(1, 65535, 1)],
  Desc.mk 0x2C2E 0x2C2E 1 4 "AeDeadband" .u16 .rw .free 1 2 (.num 0x051F) [],
  Desc.mk 0x2C2F 0x2C2F 1 4 "AeMin" .u32 .rw .free 1 4 (.num 1) []]

/-- Objects of index area 2Ch, part 2. -/
def tbl2Cb : List Desc := [
  Desc.mk 0x2C30 0x2C30 1 4 "AeMax" .u32 .rw .free 1 4 (.num 0xFFFFFFFF) [],
  Desc.mk 0x2C31 0x2C31 1 4 "PortStatus" .u32 .ro .free 0 4 (.num 0) [],
  Desc.mk 0x2C32 0x2C32 1 4 "Histogram" .octets .ro .free 0 776 (.zeros 776) [],
  Desc.mk 0x2C38 0x2C38 1 4 "EccCorrected" .u32 .ro .free 0 4 (.num 0) [],
  Desc.mk 0x2C39 0x2C39 1 4 "EccUncorrectable" .u32 .ro .free 0 4 (.num 0) [],
  Desc.mk 0x2C3A 0x2C3A 1 4 "CrcErrors" .u32 .ro .free 0 4 (.num 0) [],
  Desc.mk 0x2C3B 0x2C3B 1 4 "PaddedLines" .u32 .ro .free 0 4 (.num 0) [],
  Desc.mk 0x2C3C 0x2C3C 1 4 "TruncatedLines" .u32 .ro .free 0 4 (.num 0) [],
  Desc.mk 0x2C3D 0x2C3D 1 4 "MissedLines" .u32 .ro .free 0 4 (.num 0) [],
  Desc.mk 0x2C3E 0x2C3E 1 4 "StrayLines" .u32 .ro .free 0 4 (.num 0) [],
  Desc.mk 0x2C3F 0x2C3F 1 4 "DiscardedPackets" .u32 .ro .free 0 4 (.num 0) []]

/-- Objects of index area 2Ch. -/
def tbl2C : List Desc := tbl2Ca ++ tbl2Cb

/-- Objects of index area 2Dh. -/
def tbl2D : List Desc := [
  Desc.mk 0x2D10 0x2D10 1 1 "WebTrigger" .u8 .rw .stopped 1 1 (.num 0) [(0, 3, 1)],
  Desc.mk 0x2D10 0x2D10 2 2 "FrameLines" .u32 .rw .stopped 1 4 (.num 1024) [(64, 65536, 1)],
  Desc.mk 0x2D10 0x2D10 3 3 "WebWidth" .u16 .rw .stopped 1 2 (.num 23622) [(64, 32768, 1)],
  Desc.mk 0x2D10 0x2D10 4 4 "WebOriginColumn" .u64 .rw .stopped 1 8 (.num 0) [(0, 281474976710655, 1)],
  Desc.mk 0x2D10 0x2D10 5 5 "WebPixelPitch" .u32 .rw .stopped 1 4 (.num 0x00040000) [(65536, 4294967295, 1)],
  Desc.mk 0x2D10 0x2D10 6 6 "StatZoneWidth" .u32 .rw .stopped 1 4 (.num 256) [(32, 131072, 32)],
  Desc.mk 0x2D10 0x2D10 7 7 "StatZoneCount" .u16 .ro .free 0 2 (.num 0) [],
  Desc.mk 0x2D10 0x2D10 8 8 "HoldMarkMask" .u16 .rw .commit 1 2 (.num 0xFFFF) [],
  Desc.mk 0x2D10 0x2D10 9 9 "WebFrameNumber" .u32 .ro .free 0 4 (.num 0) [],
  Desc.mk 0x2D10 0x2D10 10 10 "WebMarks" .u16 .ro .free 0 2 (.num 0) [],
  Desc.mk 0x2D11 0x2D11 1 1 "ZoneAverages" .domain .ro .free 0 3086 (.empty) [],
  Desc.mk 0x2D20 0x2D20 1 3 "OutputRoute" .u8 .rw .stopped 1 1 (.num 0) [(0, 3, 1)],
  Desc.mk 0x2D21 0x2D21 1 3 "RingSize" .u32 .rw .stopped 1 4 (.num 256) [(16, 16384, 1)],
  Desc.mk 0x2D22 0x2D22 1 1 "ViewDecimate" .u8 .rw .commit 1 1 (.num 4) [(1, 1, 1), (2, 2, 1), (4, 4, 1), (8, 8, 1), (16, 16, 1)],
  Desc.mk 0x2D23 0x2D23 1 1 "ArchiveDecimate" .u8 .rw .commit 1 1 (.num 2) [(1, 1, 1), (2, 2, 1), (4, 4, 1), (8, 8, 1), (16, 16, 1)],
  Desc.mk 0x2D23 0x2D23 2 2 "ArchiveQuality" .u8 .rw .commit 1 1 (.num 75) [(1, 100, 1)],
  Desc.mk 0x2D23 0x2D23 3 3 "ArchiveTile" .u16 .rw .commit 1 2 (.num 512) [(64, 4096, 16)],
  Desc.mk 0x2D24 0x2D24 1 3 "RingOldest" .u32 .ro .free 0 4 (.num 0xFFFFFFFF) [],
  Desc.mk 0x2D25 0x2D25 1 3 "RingNewest" .u32 .ro .free 0 4 (.num 0xFFFFFFFF) [],
  Desc.mk 0x2D26 0x2D26 1 3 "ProductsAbandoned" .u32 .ro .free 0 4 (.num 0) [],
  Desc.mk 0x2D30 0x2D30 1 1 "ProductSelect" .u64 .rw .free 1 8 (.num 0) [(0, 1099511627775, 1)],
  Desc.mk 0x2D30 0x2D30 2 2 "ProductData" .domain .ro .free 0 17179869184 (.empty) [],
  Desc.mk 0x2D40 0x2D40 1 1 "CompareEnable" .bool .rw .commit 2 1 (.num 0) [],
  Desc.mk 0x2D40 0x2D40 2 2 "DefectThreshold" .u64 .rw .commit 1 8 (.num 0x040004000400) [(0, 281474976710655, 1)],
  Desc.mk 0x2D40 0x2D40 3 3 "MergeGap" .u8 .rw .commit 1 1 (.num 4) [],
  Desc.mk 0x2D40 0x2D40 4 4 "MinDefectPixels" .u16 .rw .commit 1 2 (.num 4) [(1, 65535, 1)],
  Desc.mk 0x2D41 0x2D41 1 1 "DefectLog" .domain .ro .free 0 32768 (.empty) [],
  Desc.mk 0x2D41 0x2D41 2 2 "DefectCount" .u32 .ro .free 0 4 (.num 0) [],
  Desc.mk 0x2D41 0x2D41 3 3 "DefectOverflow" .u32 .ro .free 0 4 (.num 0) [],
  Desc.mk 0x2D41 0x2D41 4 4 "UncomparedLines" .u32 .ro .free 0 4 (.num 0) []]

/-- Objects of index area 2Eh. -/
def tbl2E : List Desc := [
  Desc.mk 0x2E10 0x2E10 1 1 "InputLevels" .u16 .ro .free 0 2 (.num 0) [],
  Desc.mk 0x2E10 0x2E10 2 2 "InputEdgeEnable" .u32 .rw .free 1 4 (.num 0) [],
  Desc.mk 0x2E10 0x2E10 3 3 "InputLatchChannel" .u8 .rw .free 1 1 (.num 0xFF) [(0, 11, 1), (255, 255, 1)],
  Desc.mk 0x2E11 0x2E11 1 16 "InputEdgeCount" .u32 .ro .free 0 4 (.num 0) [],
  Desc.mk 0x2E12 0x2E12 1 16 "InputLastStamp" .stamp48 .ro .free 0 6 (.num 0) [],
  Desc.mk 0x2E13 0x2E13 1 16 "InputLastPosition" .i32 .ro .free 0 4 (.num 0) [],
  Desc.mk 0x2E20 0x2E20 1 1 "OutputLevel" .u16 .rw .free 1 2 (.num 0) [],
  Desc.mk 0x2E20 0x2E20 2 2 "OutputDriven" .u16 .ro .free 0 2 (.num 0) [],
  Desc.mk 0x2E20 0x2E20 3 3 "OutputReadback" .u16 .ro .free 0 2 (.num 0) [],
  Desc.mk 0x2E20 0x2E20 4 4 "OutputCheckTime" .u32 .rw .free 1 4 (.num 1000) [(0, 0, 1), (200, 1000000, 1)],
  Desc.mk 0x2E30 0x2E30 1 1 "MachineSignals" .u32 .ro .free 0 4 (.num 0) []]

/-- Objects of index area 2Fh. -/
def tbl2F : List Desc := [
  Desc.mk 0x2F10 0x2F10 1 1 "CollectorMode" .u8 .rw .free 2 1 (.num 0) [(0, 1, 1)],
  Desc.mk 0x2F10 0x2F10 2 2 "LatchWord" .u64 .rw .free 2 8 (.num 0) [],
  Desc.mk 0x2F10 0x2F10 3 3 "RailStatus" .u64 .ro .free 0 8 (.num 0) [],
  Desc.mk 0x2F10 0x2F10 4 4 "EventsLost" .u32 .ro .free 0 4 (.num 0) [],
  Desc.mk 0x2F10 0x2F10 5 5 "ErrPinClear" .bool .wo .free 1 1 (.num 0) [],
  Desc.mk 0x2F10 0x2F10 6 6 "ErrPinStatus" .u32 .ro .free 0 4 (.num 0) [],
  Desc.mk 0x2F11 0x2F11 1 1 "ReactionTable" .domain .rw .free 2 8192 (.builtin) [],
  Desc.mk 0x2F12 0x2F12 1 1 "FaultSelect" .u16 .rw .free 2 2 (.num 0) [],
  Desc.mk 0x2F12 0x2F12 2 2 "SelectedReaction" .u8 .rw .free 2 1 (.num 0x01) [],
  Desc.mk 0x2F12 0x2F12 3 3 "SelectedFallback" .u8 .rw .free 2 1 (.num 0) [(0, 255, 1)],
  Desc.mk 0x2F12 0x2F12 4 4 "SelectedAttributes" .u8 .ro .free 0 1 (.num 0) [],
  Desc.mk 0x2F12 0x2F12 5 5 "SelectedCount" .u32 .ro .free 0 4 (.num 0) [],
  Desc.mk 0x2F12 0x2F12 6 6 "SelectedLastStamp" .stamp48 .ro .free 0 6 (.num 0) [],
  Desc.mk 0x2F13 0x2F13 1 1 "FaultHistory" .octets .ro .free 0 1024 (.zeros 1024) [],
  Desc.mk 0x2F14 0x2F14 1 1 "BoltedEngines" .u32 .ro .free 0 4 (.num 0) [],
  Desc.mk 0x2F14 0x2F14 2 2 "BoltedLanes" .u32 .ro .free 0 4 (.num 0) [],
  Desc.mk 0x2F14 0x2F14 3 3 "BoltedPorts" .u8 .ro .free 0 1 (.num 0) [],
  Desc.mk 0x2F14 0x2F14 4 4 "BoltedCompareUnits" .u16 .ro .free 0 2 (.num 0) [],
  Desc.mk 0x2F14 0x2F14 5 5 "BoltedSubsystems" .u8 .ro .free 0 1 (.num 0) []]

/-- Objects of index area 30h. -/
def tbl30 : List Desc := [
  Desc.mk 0x3010 0x3010 1 1 "RingData" .domain .ro .free 0 131072 (.empty) [],
  Desc.mk 0x3010 0x3010 2 2 "RingNewestSequence" .u32 .ro .free 0 4 (.num 0) [],
  Desc.mk 0x3010 0x3010 3 3 "RingCount" .u16 .ro .free 0 2 (.num 0) [],
  Desc.mk 0x3011 0x3011 1 1 "SnapshotCommand" .u8 .wo .free 1 1 (.num 0) [(1, 1, 1)],
  Desc.mk 0x3011 0x3011 2 2 "SnapshotMinInterval" .u32 .rw .free 1 4 (.num 1000) [(200, 60000, 1)],
  Desc.mk 0x3011 0x3011 3 3 "SnapshotStatus" .u32 .ro .free 0 4 (.num 0) [],
  Desc.mk 0x3011 0x3011 4 4 "SnapshotDirectory" .octets .ro .free 0 1024 (.zeros 1024) [],
  Desc.mk 0x3011 0x3011 5 5 "SnapshotSelect" .u8 .rw .free 1 1 (.num 0) [(0, 63, 1)],
  Desc.mk 0x3011 0x3011 6 6 "SnapshotData" .domain .ro .free 0 131072 (.empty) [],
  Desc.mk 0x3011 0x3011 7 7 "SnapshotWrites" .u32 .ro .free 0 4 (.num 0) [],
  Desc.mk 0x3011 0x3011 8 8 "SlotsRetired" .u8 .ro .free 0 1 (.num 0) [],
  Desc.mk 0x3011 0x3011 9 9 "PfailCount" .u32 .ro .free 0 4 (.num 0) []]

/-- Objects of index area 31h. -/
def tbl31 : List Desc := [
  Desc.mk 0x3110 0x3110 1 1 "DieTemperature" .i16 .ro .free 0 2 (.num 0) [],
  Desc.mk 0x3110 0x3110 2 2 "Band" .u8 .ro .free 0 1 (.num 0) [],
  Desc.mk 0x3110 0x3110 3 3 "ThermalStatus" .u32 .ro .free 0 4 (.num 0) [],
  Desc.mk 0x3111 0x3111 1 24 "NodeTemperature" .i16 .ro .free 0 2 (.num 0) [],
  Desc.mk 0x3112 0x3112 1 24 "NodePower" .u16 .ro .free 0 2 (.num 0) [],
  Desc.mk 0x3113 0x3113 1 8 "DiodeTemperature" .i16 .ro .free 0 2 (.num 0) [],
  Desc.mk 0x3114 0x3114 1 8 "DiodeResidual" .i16 .ro .free 0 2 (.num 0) [],
  Desc.mk 0x3115 0x3115 1 1 "ResidualMax" .u16 .ro .free 0 2 (.num 0) [],
  Desc.mk 0x3116 0x3116 1 64 "HousekeepingValue" .i32 .ro .free 0 4 (.num 0) [],
  Desc.mk 0x3120 0x3120 1 1 "ThrottleArm" .u8 .rw .free 2 1 (.num 0) [(0, 15, 1)],
  Desc.mk 0x3120 0x3120 2 2 "ThrottleStart" .i16 .rw .free 1 2 (.num 0x6900) [(21760, 29952, 1)],
  Desc.mk 0x3120 0x3120 3 3 "ThrottleHysteresis" .u16 .rw .free 1 2 (.num 0x0500) [(256, 5120, 1)],
  Desc.mk 0x3120 0x3120 4 4 "ThrottleLevel" .u8 .ro .free 0 1 (.num 0) [],
  Desc.mk 0x3120 0x3120 5 5 "ThrottleFloor" .u16 .rw .free 1 2 (.num 500) [(500, 900, 100)],
  Desc.mk 0x3120 0x3120 6 6 "ThrottleRises" .u32 .ro .free 0 4 (.num 0) [],
  Desc.mk 0x3120 0x3120 7 7 "ArchiveFramesSkipped" .u32 .ro .free 0 4 (.num 0) [],
  Desc.mk 0x3120 0x3120 8 8 "ViewFramesSkipped" .u32 .ro .free 0 4 (.num 0) [],
  Desc.mk 0x3121 0x3121 1 28 "IslandClockCap" .u16 .rw .free 2 2 (.subs [400,400,400,400,1000,1000,400,400,1000,1000,1000,1000,1000,1000,1000,1000,1000,1000,1000,1000,1000,1000,1000,1000,1000,400,400,400]) [(500, 1000, 100)],
  Desc.mk 0x3130 0x3130 1 1 "TripPendingCount" .u32 .ro .free 0 4 (.num 0) []]

/-- Objects of index area 32h. -/
def tbl32 : List Desc := [
  Desc.mk 0x3210 0x3210 1 1 "RoleRequest" .u8 .rw .free 2 1 (.num 0) [(0, 2, 1)],
  Desc.mk 0x3210 0x3210 2 2 "Role" .u8 .ro .free 0 1 (.num 0) [],
  Desc.mk 0x3210 0x3210 3 3 "MirrorCommand" .u8 .wo .free 2 1 (.num 0) [(1, 4, 1)],
  Desc.mk 0x3210 0x3210 4 4 "MirrorStatus" .u32 .ro .free 0 4 (.num 0) [],
  Desc.mk 0x3210 0x3210 5 5 "FormatVersions" .u8 .rw .stopped 2 1 (.num 0x03) [(1, 3, 1)],
  Desc.mk 0x3210 0x3210 6 6 "ReclaimWait" .u32 .rw .free 1 4 (.num 300) [(0, 0, 1), (300, 100000, 1)],
  Desc.mk 0x3210 0x3210 7 7 "PositionTolerance" .u16 .rw .free 1 2 (.num 2) [],
  Desc.mk 0x3211 0x3211 1 1 "KeyLease" .u32 .ro .free 0 4 (.num 500) [],
  Desc.mk 0x3211 0x3211 2 2 "KeyGuard" .u32 .ro .free 0 4 (.num 50) [],
  Desc.mk 0x3211 0x3211 3 3 "MirrorCycle" .u32 .ro .free 0 4 (.num 125) [],
  Desc.mk 0x3211 0x3211 4 4 "KeyGeneration" .u32 .ro .free 0 4 (.num 0) [],
  Desc.mk 0x3211 0x3211 5 5 "KeyRemaining" .u32 .ro .free 0 4 (.num 0) [],
  Desc.mk 0x3211 0x3211 6 6 "IcselLatency" .u32 .ro .free 0 4 (.num 0) [],
  Desc.mk 0x3211 0x3211 7 7 "PartnerSerial" .u64 .ro .free 0 8 (.num 0) [],
  Desc.mk 0x3211 0x3211 8 8 "PartnerRole" .u8 .ro .free 0 1 (.num 0xFF) [],
  Desc.mk 0x3212 0x3212 1 1 "CyclesSent" .u32 .ro .free 0 4 (.num 0) [],
  Desc.mk 0x3212 0x3212 2 2 "CyclesAcked" .u32 .ro .free 0 4 (.num 0) [],
  Desc.mk 0x3212 0x3212 3 3 "CyclesMissed" .u32 .ro .free 0 4 (.num 0) [],
  Desc.mk 0x3212 0x3212 4 4 "MirrorCorrections" .u32 .ro .free 0 4 (.num 0) [],
  Desc.mk 0x3212 0x3212 5 5 "CommitSkewMax" .u32 .ro .free 0 4 (.num 0) [],
  Desc.mk 0x3212 0x3212 6 6 "Takeovers" .u32 .ro .free 0 4 (.num 0) [],
  Desc.mk 0x3212 0x3212 7 7 "PlannedSwaps" .u32 .ro .free 0 4 (.num 0) [],
  Desc.mk 0x3213 0x3213 1 8 "HingeReport" .octets .ro .free 0 32 (.zeros 32) []]

/-- Objects of index area 50h. -/
def tbl50 : List Desc := [
  Desc.mk 0x5000 0x5000 1 1 "LegacyLatch" .bool .wo .free 1 1 (.num 0) [],
  Desc.mk 0x5001 0x5001 1 1 "LatchedNative" .stamp48 .ro .free 0 6 (.num 0) [],
  Desc.mk 0x5001 0x5001 2 5 "LatchedLegacy" .u64 .ro .free 0 8 (.num 0) [],
  Desc.mk 0x5010 0x5013 1 1 "LegacyEnable" .bool .rw .free 1 1 (.num 0) [],
  Desc.mk 0x5010 0x5013 2 2 "LegacyDomain" .u8 .rw .stopped 1 1 (.byIndex) [(0, 127, 1)],
  Desc.mk 0x5010 0x5013 3 3 "LegacyKp" .u32 .rw .free 1 4 (.num 0x00040000) [],
  Desc.mk 0x5010 0x5013 4 4 "LegacyKi" .u32 .rw .free 1 4 (.num 0x00004000) [],
  Desc.mk 0x5010 0x5013 5 5 "LegacyFreqLimit" .u32 .rw .free 1 4 (.num 100000) [(1, 500000, 1)],
  Desc.mk 0x5010 0x5013 6 6 "LegacyStepThreshold" .u32 .rw .free 1 4 (.num 1000) [],
  Desc.mk 0x5010 0x5013 7 7 "LegacyState" .u8 .ro .free 0 1 (.num 0) [],
  Desc.mk 0x5010 0x5013 8 8 "LegacyOffset" .i32 .ro .free 0 4 (.num 0) [],
  Desc.mk 0x5010 0x5013 9 9 "LegacyIncrement" .u64 .ro .free 0 8 (.num 0x0280000000) [],
  Desc.mk 0x5010 0x5013 10 10 "LegacyTime" .u64 .ro .free 0 8 (.num 0) []]

/-- Objects of index area 60h. -/
def tbl60 : List Desc := [
  Desc.mk 0x6000 0x6000 0 0 "TxMapCount" .u8 .rw .stopped 1 1 (.num 0) [(0, 32, 1)],
  Desc.mk 0x6000 0x6000 1 32 "TxMap" .u32 .rw .stopped 1 4 (.num 0) [],
  Desc.mk 0x6001 0x6001 0 0 "RxMapCount" .u8 .rw .stopped 1 1 (.num 0) [(0, 32, 1)],
  Desc.mk 0x6001 0x6001 1 32 "RxMap" .u32 .rw .stopped 1 4 (.num 0) [],
  Desc.mk 0x6010 0x6010 1 1 "CyclicControl" .u8 .rw .free 1 1 (.num 0) [(0, 3, 1)],
  Desc.mk 0x6010 0x6010 2 2 "CyclePeriod" .u32 .rw .stopped 1 4 (.num 1000000) [(125000, 100000000, 125000)],
  Desc.mk 0x6010 0x6010 3 3 "TxOffset" .u32 .rw .stopped 1 4 (.num 0) [],
  Desc.mk 0x6010 0x6010 4 4 "RxApplyOffset" .u32 .rw .stopped 1 4 (.num 500000) [],
  Desc.mk 0x6010 0x6010 5 5 "RxWatchdog" .u8 .rw .free 1 1 (.num 0) [],
  Desc.mk 0x6010 0x6010 6 6 "RxLateCount" .u32 .ro .free 0 4 (.num 0) [],
  Desc.mk 0x6010 0x6010 7 7 "RxMissCount" .u32 .ro .free 0 4 (.num 0) [],
  Desc.mk 0x6010 0x6010 8 8 "TxCycleCount" .u32 .ro .free 0 4 (.num 0) [],
  Desc.mk 0x6010 0x6010 9 9 "CyclicSession" .u16 .ro .free 0 2 (.num 0) []]

/-- The object table of an index area (R83). -/
def areaTable (area : Nat) : List Desc :=
  match area with
  | 0x10 => tbl10
  | 0x11 => tbl11
  | 0x12 => tbl12
  | 0x20 => tbl20
  | 0x21 => tbl21
  | 0x22 => tbl22
  | 0x23 => tbl23
  | 0x24 => tbl24
  | 0x25 => tbl25
  | 0x26 => tbl26
  | 0x27 => tbl27
  | 0x28 => tbl28
  | 0x29 => tbl29
  | 0x2A => tbl2A
  | 0x2B => tbl2B
  | 0x2C => tbl2C
  | 0x2D => tbl2D
  | 0x2E => tbl2E
  | 0x2F => tbl2F
  | 0x30 => tbl30
  | 0x31 => tbl31
  | 0x32 => tbl32
  | 0x50 => tbl50
  | 0x60 => tbl60
  | _ => []

end Sys2Proof.Machine
end

