-- ==== Sys2Proof/Machine/WilwaState.lean ====
section
/-! DEFINITION. The state of the Wilwa dictionary engine: sessions, transfers, cyclic streams and commits (R56 to R82). -/

set_option Elab.async false

namespace Sys2Proof.Machine

/-- A Wilwa datagram as the device sends it (R57). -/
structure Dgram where
  dst : Endpoint
  /-- Sent to UDP port 41851 (R79). -/
  cyclic : Bool
  version : Nat
  msgType : Nat
  sid : Nat
  seq : Nat
  flags : Nat
  status : Nat
  payload : Bytes
  tag : Bytes
  /-- VID and PCP of the frame's IEEE 802.1Q tag, where it has one (R89). -/
  vlan : Option (Nat × Nat)
  deriving DecidableEq, Repr

/-- The 16 bytes of a datagram's header (R57). -/
def Dgram.header (d : Dgram) : Bytes :=
  leBytes 1 d.version ++ leBytes 1 d.msgType ++ leBytes 2 d.sid ++ leBytes 4 d.seq
    ++ leBytes 2 d.payload.length ++ leBytes 1 d.flags ++ [0] ++ leBytes 4 d.status

/-- The bytes of a datagram on the wire. -/
def Dgram.toBytes (d : Dgram) : Bytes := d.header ++ d.payload ++ d.tag

/-- An unlock exchange that waits for its Proof (R66). -/
structure Exchange where
  level : Nat
  hostNonce : Bytes
  deviceNonce : Bytes
  deriving DecidableEq, Repr

/-- An Emergency record a session has not acknowledged (R82). -/
structure Unacked where
  seq : Nat
  record : Bytes
  resent : Nat
  deriving DecidableEq, Repr

/-- An open session (R60 to R69). -/
structure Session where
  sid : Nat
  src : Endpoint
  version : Nat
  level : Nat
  emergency : Bool
  /-- The Sequence of the previous request. -/
  seq : Nat
  openSeq : Nat
  /-- The stored response of the previous request (R62), and of the OpenRequest (R60). -/
  stored : Option Dgram
  openResp : Option Dgram
  /-- The session has received a datagram since its OpenRequest. -/
  heard : Bool
  exchange : Option Exchange
  /-- The session key of R67, once version 3 has unlocked. -/
  sessKey : Option Bytes
  unacked : List Unacked
  deriving DecidableEq, Repr

/-- An open transfer (R77, R78). -/
structure Transfer where
  tid : Nat
  sid : Nat
  idx : Nat
  sub : Nat
  /-- True for a download, host to device. -/
  download : Bool
  total : Nat
  segSize : Nat
  /-- Download: segments received, by segment number. -/
  segs : List (Nat × Bytes)
  /-- Download: contiguous bytes received; upload: bytes the host acknowledged. -/
  acked : Nat
  /-- Download: segments taken since the last count of four, and the AckedOffset of the last SegmentAck. -/
  sinceAck : Nat
  lastAck : Option Nat
  /-- Upload: the content at TransferInit, and how far it has been sent. -/
  data : Bytes
  sent : Nat
  deriving DecidableEq, Repr

/-- The commit administration of an area (R74 to R76) beside its plain objects. -/
structure AreaAdm where
  generation : Nat
  result : Nat
  pending : Nat
  failIdx : Nat
  failSub : Nat
  deriving DecidableEq, Repr

/-- An area with no commit yet. -/
def AreaAdm.initial : AreaAdm := { generation := 0, result := 0, pending := 0, failIdx := 0, failSub := 0 }

/-- A receive datagram that waits for its cycle (R80). -/
structure CyclicData where
  ns : Nat
  era : Nat
  data : Bytes
  deriving DecidableEq, Repr

/-- DIC, in MGT. -/
structure Wilwa where
  sessions : Vector (Option Session) 4
  transfers : List Transfer
  /-- Ticks of the rejected proofs of the last 60 s, newest first (R68). -/
  rejected : List Nat
  lockout : Bool
  areas : List (Nat × AreaAdm)
  /-- Shadow values written since the last commit (R75), and staged values a bar or port has not yet taken up. -/
  shadow : List (Nat × Val)
  staged : List (Nat × Val)
  /-- The session both cyclic streams are bound to, 0 for none (R79). -/
  cycSid : Nat
  /-- The boundary t_c at which the transmit objects were last sampled, and the sample, until it is sent. -/
  txSample : Option CyclicData
  rxWaiting : Option CyclicData
  /-- The cycle boundary last passed, as era * 2^32 + ns. -/
  boundary : Option Nat
  /-- The cycle boundaries that have been passed, with the tick of each; none comes again while it is kept (R80, R106). -/
  cycles : List (Nat × Nat)
  /-- The apply instant of the present cycle has passed; consecutive cycles with no applied datagram. -/
  rxApplied : Bool
  rxMissRun : Nat
  deriving DecidableEq, Repr

/-- What the non-volatile memory of credentials and addresses holds (R69, R90); it survives every reset. -/
structure NonVol where
  operator : Option Bytes
  service : Option Bytes
  deriving DecidableEq, Repr

end Sys2Proof.Machine
end

