-- ==== Sys2Proof/Machine/Emission.lean ====
section
/-! DEFINITION. What leaves the device, frame by frame, and what its head driver modules send back. -/

set_option Elab.async false

namespace Sys2Proof.Machine

/-- What a head lane sends (R260 to R264). -/
inductive LaneTx where
  | line (f : HdmLine)
  | token (bar number delay : Nat) (late : Bool) (gen : Nat)
  | owner (role validFor gen : Nat)
  | release (gen : Nat)
  | sync (band echo : Nat)
  | table (level seq : Nat) (table : Bytes)
  | meas (head first count kind tag : Nat)
  | cap (versions chosen : Nat)
  | quiet
  deriving DecidableEq, Repr

/-- A 64b/66b block before the scrambler: whether its sync header is that of a control block, and its bytes in sending order (R259). -/
structure LinkBlock where
  control : Bool
  bytes : Bytes
  deriving DecidableEq, Repr

/-- A segment of drive: its duration in 10 ns units, its level, its shape (R240). -/
structure Drive where
  duration : Nat
  level : Int
  shape : Nat
  deriving DecidableEq, Repr

/-- What an HDM sends on one of its inputs (R264). -/
inductive HdmTx where
  | status (s : HdmStatus)
  | echo (tag : Nat) (turnaround : Nat)
  | tableAck (seq result : Nat)
  | measResult (r : MeasResult)
  | cap (c : CapUp)
  /-- A head fires: its elements' levels, how long after the arrival of the TOKEN block, in 625 ps units, and the drive of each level
  (R240, R269). -/
  | fire (head bar number : Nat) (levels : List Nat) (after : Nat) (drive : List (Nat × List Drive))
  deriving DecidableEq, Repr

/-- An own PTP message (R96): its port, transport mapping, domain and sequence, its correctionField in 2^-16 ns, the originTimestamp
of a Delay_Req or the requestReceiptTimestamp of a Pdelay_Resp in ns, its frame's tag. -/
structure PtpOut where
  kind : PtpKind
  port : Nat
  mapping : Nat
  domain : Nat
  seq : Nat
  correction : Int
  time : Option Nat
  vlan : Option (Nat × Nat)
  deriving DecidableEq, Repr

/-- One thing that leaves the device. -/
inductive Emission where
  | dgram (d : Dgram)
  | frame (port : Nat) (f : Frame)
  | ptp (m : PtpOut)
  /-- The answer of the device's own address to what a frame asked (R90), to the frame's sender. -/
  | answer (dest : BitVec 48) (a : IpAsk) (vlan : Option (Nat × Nat))
  /-- Management firmware writes the registers of a PHY that set its mode (R91). -/
  | phySetup (phy mode : Nat)
  /-- A frame or block that a head lane is given to send. -/
  | lane (l : Nat) (f : LaneTx)
  /-- A block as it leaves on a head lane, and its 66 bits behind the scrambler, the first sent lowest (R259, R260, R266). -/
  | block (l : Nat) (b : LinkBlock) (wire : Nat)
  /-- The pattern that leaves on a head lane in the time of a block, 66 bits, the first sent lowest (R280). -/
  | pattern (l wire : Nat)
  | hdm (m : Nat) (onB : Bool) (f : HdmTx)
  /-- The blocks of a frame of an HDM on an input (R261, R264). -/
  | hdmFrame (m : Nat) (onB : Bool) (bs : List LinkBlock)
  /-- A frame of the Icsel link: header, padded payload, trailer (R349). -/
  | link (frame : Bytes)
  | raster (record : Bytes)
  | mdio (op phy reg data : Nat)
  /-- A read returned to a memory master; no data where it is poisoned (R154). -/
  | memRead (master addr : Nat) (data : Option Bytes)
  /-- A CCI transaction to a 7-bit address at a rate: the register index goes most significant byte first, then the data (R301). -/
  | cci (port address rate : Nat) (read : Bool) (index : Nat) (data : Bytes)
  deriving DecidableEq, Repr

end Sys2Proof.Machine
end

