-- ==== Sys2Proof/Machine/KV.lean ====
section
/-! DEFINITION. Sparse tables: a list of key and value pairs with keys strictly rising, and no entry that equals what
an unlisted key reads as. Equal tables are equal lists. -/

set_option Elab.async false

namespace Sys2Proof.Machine

/-- The value listed under a key. -/
def kvGet {α : Type} : List (Nat × α) → Nat → Option α
  | [], _ => none
  | (k, v) :: t, q => if k = q then some v else kvGet t q

/-- The table with `v` listed under `q`, in key order. -/
def kvPut {α : Type} : List (Nat × α) → Nat → α → List (Nat × α)
  | [], q, v => [(q, v)]
  | (k, x) :: t, q, v =>
    if q < k then (q, v) :: (k, x) :: t
    else if q = k then (q, v) :: t
    else (k, x) :: kvPut t q v

/-- The table with nothing listed under `q`. -/
def kvDel {α : Type} : List (Nat × α) → Nat → List (Nat × α)
  | [], _ => []
  | (k, x) :: t, q => if k = q then kvDel t q else (k, x) :: kvDel t q

/-- The table in which `q` reads `v`, where an unlisted `q` reads `d`. -/
def kvSet {α : Type} [DecidableEq α] (l : List (Nat × α)) (d : α) (q : Nat) (v : α) : List (Nat × α) :=
  if v = d then kvDel l q else kvPut l q v

/-- Every key of the table lies above `q`. -/
def kvAbove {α : Type} (q : Nat) : List (Nat × α) → Bool
  | [] => true
  | (k, _) :: t => decide (q < k) && kvAbove q t

/-- The keys rise strictly. -/
def kvSorted {α : Type} : List (Nat × α) → Bool
  | [] => true
  | (k, _) :: t => kvAbove k t && kvSorted t

end Sys2Proof.Machine
end

