-- ==== Sys2Proof/Machine/FaultState.lean ====
section
/-! DEFINITION. The state of FLT and BBX: reports, records, reactions, the ring and the snapshot store (R371 to R404). -/

set_option Elab.async false

namespace Sys2Proof.Machine

/-- A report on its way to FLT (R375): what a unit sends when it detects an event. -/
structure Report where
  source : Nat
  /-- Code[15:8]: the cause, 0 where there is none. -/
  cause : Nat
  /-- Code[7:0]: the unit number, or the bar, input, slot and so on; FFh for none. -/
  unit : Nat
  island : Nat
  /-- The 32-bit stamp of the event. -/
  stamp : Nat
  /-- The tick at which the report was made. -/
  tick : Nat
  data : Bytes
  deriving DecidableEq, Repr

/-- A Strongbox record (R372). -/
structure Record where
  stamp : Nat
  era : Nat
  source : Nat
  cause : Nat
  unit : Nat
  island : Nat
  reactions : Nat
  seq : Nat
  data : Bytes
  deriving DecidableEq, Repr

/-- The 32 bytes of a record (R372, R373). -/
def Record.toBytes (r : Record) : Bytes :=
  leBytes 4 r.stamp ++ leBytes 2 r.era ++ leBytes 2 r.source ++ leBytes 2 (r.cause * 256 + r.unit)
    ++ leBytes 1 r.island ++ leBytes 1 r.reactions ++ leBytes 4 r.seq ++ padTo 16 r.data

/-- The reaction the host has set for a source (R380). -/
structure Reaction where
  byte : Nat
  fallback : Nat
  deriving DecidableEq, Repr

/-- The count and the last stamp of a source (R401). -/
structure SourceCount where
  count : Nat
  ns : Nat
  era : Nat
  deriving DecidableEq, Repr

/-- The states of a snapshot slot (R402). -/
inductive SnapState where
  | empty | valid | invalid | retired
  deriving DecidableEq, Repr

/-- The directory code of a snapshot slot. -/
def SnapState.code : SnapState → Nat
  | .empty => 0 | .valid => 1 | .invalid => 2 | .retired => 3

/-- One slot of the non-volatile snapshot store (R392). -/
structure SnapSlot where
  state : SnapState
  records : List Record
  seq : Nat
  newest : Nat
  causes : Nat
  ns : Nat
  era : Nat
  writes : Nat
  deriving DecidableEq, Repr

/-- A slot as manufactured. -/
def SnapSlot.blank : SnapSlot :=
  { state := .empty, records := [], seq := 0, newest := 0, causes := 0, ns := 0, era := 0, writes := 0 }

/-- A snapshot being written (R394). -/
structure SnapWrite where
  slot : Nat
  records : List Record
  seq : Nat
  newest : Nat
  causes : Nat
  ns : Nat
  era : Nat
  deriving DecidableEq, Repr

/-- FLT, in MGT. -/
structure Flt where
  queue : List Report
  /-- Reports lost since the last F2F01h (R379). -/
  lost : Nat
  history : List Record
  reactions : List (Nat × Reaction)
  counts : List (Nat × SourceCount)
  /-- ERR_N is held low by an ERRPIN reaction, and the source that asserted it first (R388). -/
  errPin : Bool
  errFirst : Nat
  /-- Wire pairs seen broken: block number and unit (R376, R401 RailStatus). -/
  broken : List (Nat × Nat)
  /-- A snapshot that an applied reaction asks for is on its way to AON (R382). -/
  snapWanted : Bool
  deriving DecidableEq, Repr

/-- BBX, in AON and in the non-volatile store. -/
structure Bbx where
  /-- The Sequence of the next record (R374). -/
  nextSeq : Nat
  /-- The ring, oldest first, at most 4096 records (R391). -/
  ring : List Record
  /-- Slots of the snapshot store that are not as manufactured. -/
  slots : List (Nat × SnapSlot)
  writing : Option SnapWrite
  /-- Causes of a deferred snapshot, 0 for none (R393). -/
  deferred : Nat
  /-- The tick at which the previous snapshot started. -/
  lastStart : Option Nat
  /-- PFAIL_N is low; and an assertion counts again after 10 ms high (R395). -/
  pfailLow : Bool
  pfailRose : Option Nat
  stopped : Bool
  /-- Reports made while FLT does not run; the next boot logs them at its step 7 (R451). -/
  waiting : List Report
  deriving DecidableEq, Repr

end Sys2Proof.Machine
end

