-- ==== Sys2Proof/Machine/FireState.lean ====
section
/-! DEFINITION. The state of SNE, FSQ and MIO: engines, pre-fire buffers, duty counts, coverage, machine I/O (R198 to R257). -/

set_option Elab.async false

namespace Sys2Proof.Machine

/-- The screening settings of a bar that a line is issued with (R199): area 27h values live at its issue. -/
structure SneCfg where
  map : Bytes
  zoneWidth : Nat
  tone : Bytes
  gain : Bytes
  redist : Nat
  mode : Nat
  diffusion : Nat
  depth : Nat
  levels : Bytes
  threshold : Bytes
  dither : Bytes
  xdpi : Nat
  width : Nat
  deriving DecidableEq, Repr

/-- What became of one slice of an issued line (R215, R217, R221). -/
inductive SliceSt where
  | waiting                       -- issued, not complete
  | complete (levels : List Nat)  -- the slice-complete flag is set
  | failed                        -- its engine found it bad
  | lost                          -- no engine will complete it
  deriving DecidableEq, Repr

/-- A pre-fire buffer entry that FET has issued into (R226). -/
structure Entry where
  cfg : SneCfg
  /-- The print line in its job (R131). -/
  p : Nat
  /-- The slot and design line, and its pixels; none for a design line that is marked empty (R129). -/
  slot : Nat
  design : Nat
  pixels : Option Bytes
  slices : Vector SliceSt 16
  /-- The running line with pixels before it since the mark, whose edge records it adds (R212). -/
  prev : Option Nat
  /-- It starts from zeroed diffusion state: its HalftoneMode was taken up with it (R213). -/
  fresh : Bool
  deriving DecidableEq, Repr

/-- A slice line in an engine's queue: bar, running line and slice. -/
structure SliceJob where
  bar : Nat
  idx : Nat
  slice : Nat
  deriving DecidableEq, Repr

/-- The engine states of R223. -/
inductive EngSt where
  | off | idle | serving | bolted | selfTest
  deriving DecidableEq, Repr

/-- The engine state code of R223. -/
def EngSt.code : EngSt → Nat
  | .off => 0 | .idle => 1 | .serving => 2 | .bolted => 3 | .selfTest => 4

/-- A slice engine. -/
structure Eng where
  st : EngSt
  lastCause : Nat
  queue : List SliceJob
  deriving DecidableEq, Repr

/-- The edge record of a slice and line for a neighbouring slice: shares to add before that slice starts the next line (R212). -/
structure Edge where
  bar : Nat
  idx : Nat
  fromSlice : Nat
  toSlice : Nat
  adds : List (Nat × Int)
  deriving DecidableEq, Repr

/-- Lines of a bar that a bolt lost (R217, R218), by running number; the first one's line event once it has come. -/
structure Lost where
  firstIdx : Nat
  lastIdx : Nat
  first : Option (Nat × Nat)
  deriving DecidableEq, Repr

/-- SNE. -/
structure Sne where
  engines : Vector Eng 17
  /-- The engine that serves each slice, 255 for none (R199, R219). -/
  slices : Vector Nat 16
  /-- The engine that served each slice last (R219). -/
  served : Vector Nat 16
  /-- The next line issued of a bar starts from zeroed diffusion state (R213). -/
  zeroNext : Vector Bool 8
  /-- The diffusion state of each bar, in 1/16, by address; 0 where not listed (R211). -/
  diff : Vector (List (Nat × Int)) 8
  edges : List Edge
  lost : Vector (Option Lost) 8
  deriving DecidableEq, Repr

/-- The bar run states of R34. -/
inductive BarRun where
  | notInJob | waiting | printing | held | reversed | dry | ended
  deriving DecidableEq, Repr

/-- The code of a bar run state. -/
def BarRun.code : BarRun → Nat
  | .notInJob => 0 | .waiting => 1 | .printing => 2 | .held => 3 | .reversed => 4 | .dry => 5 | .ended => 6

/-- A line event on its way to fire placement (R182). -/
structure LineEv where
  n : Nat
  /-- The crossing time in 625 ps units, u42; and whether it is uninterpolated (R183). -/
  cross : Nat
  raw : Bool
  /-- The line's position, s32.16 counts. -/
  pos : Nat
  stamp : Nat
  era : Nat
  deriving DecidableEq, Repr

/-- A line that FSQ has prepared (R228): its running number, the settings it was screened with, its levels by address, what
its preparation found, the lanes that were sent its LINE frames. -/
structure Prepared where
  idx : Nat
  cfg : Option SneCfg
  blank : Bool
  levels : List Nat
  suppressed : Bool
  incomplete : Bool
  lanes : List Nat
  deriving DecidableEq, Repr

/-- A line whose tokens are on their way: the event, the line, lanes still to emit, lanes whose token left, whether one was
late. -/
structure Firing where
  ev : LineEv
  line : Prepared
  fire : Nat
  lanes : List Nat
  fired : List Nat
  late : Bool
  deriving DecidableEq, Repr

/-- A coverage record being filled (R246). -/
structure Cov where
  first : Nat
  pos : Nat
  ns : Nat
  era : Nat
  flags : Nat
  lines : Nat
  /-- Sum of level values per zone. -/
  sums : List Nat
  deriving DecidableEq, Repr

/-- FSQ's state of one bar. -/
structure BarFsq where
  run : BarRun
  /-- The running number of the next line event that the bar prints, its print line in its job, the job's slot (R231). -/
  idx : Nat
  p : Nat
  slot : Option Nat
  /-- Issued entries by running number. -/
  buf : List (Nat × Entry)
  /-- The next line may be prepared (R227). -/
  ready : Bool
  prepared : Option Prepared
  firing : Option Firing
  waiting : List LineEv
  /-- The bar stops at its next line event (R28). -/
  stopping : Bool
  /-- The bar was printing when the device entered HELD (R29). -/
  wasPrinting : Bool
  /-- The duty line index j (R237). -/
  dutyIdx : Nat
  /-- Admitted fires per quarter, newest quarter first: (quarter, counts by address or head). -/
  elem : List (Nat × List (Nat × Nat))
  head : List (Nat × List (Nat × Nat))
  /-- Which duty settings have been taken up, as FireStatus[25:21] (R239). -/
  written : Nat
  sinceSuppress : Nat
  suppressing : Bool
  lastHead : Nat
  /-- The fire time, in 625 ps units, of the last line not dropped (R235). -/
  lastFire : Option Nat
  overspeed : Bool
  osDrops : Nat
  osFirst : Nat
  osLast : Nat
  sinceDrop : Nat
  dry : Bool
  dryFirst : Nat
  dryLast : Nat
  dryCount : Nat
  dryStamp : Nat
  lateEp : Bool
  sinceLate : Nat
  cov : Option Cov
  staging : List Bytes
  sinceCovDrop : Nat
  deriving DecidableEq, Repr

/-- A bar outside the job. -/
def BarFsq.start : BarFsq :=
  { run := .notInJob, idx := 0, p := 0, slot := none, buf := [], ready := false, prepared := none, firing := none, waiting := [], stopping := false,
    wasPrinting := false, dutyIdx := 0, elem := [], head := [], written := 0, sinceSuppress := 64, suppressing := false,
    lastHead := 255, lastFire := none, overspeed := false, osDrops := 0, osFirst := 0, osLast := 0, sinceDrop := 0, dry := false,
    dryFirst := 0, dryLast := 0, dryCount := 0, dryStamp := 0, lateEp := false, sinceLate := 0, cov := none, staging := [],
    sinceCovDrop := 64 }

/-- FSQ and MIO, in CTL. -/
structure Fsq where
  bars : Vector BarFsq 8
  /-- The job's bar mask (R130). -/
  jobMask : Nat
  /-- The tick of the last FIRE_EN edge (R243), and a recorded fall whose rise is still to be recorded. -/
  fireEdge : Option Nat
  fallRecorded : Bool
  /-- The MARK_b inputs that have had a rising edge since CTL was switched on, as a mask (R252). -/
  marked : Nat
  /-- The latched duty of SPD_ADV, in ticks of 40,000 (R245). -/
  spdHigh : Nat
  deriving DecidableEq, Repr

/-- FSQ and MIO as the switch-on of CTL leaves them. -/
def Fsq.start : Fsq :=
  { bars := Vector.replicate 8 BarFsq.start, jobMask := 0, fireEdge := none, fallRecorded := false, marked := 0, spdHigh := 0 }

/-- SNE with every engine off. -/
def Sne.start : Sne :=
  { engines := Vector.replicate 17 { st := .off, lastCause := 0, queue := [] }, slices := Vector.ofFn fun s => s.val,
    served := Vector.ofFn fun s => s.val, zeroNext := Vector.replicate 8 false,
    diff := Vector.replicate 8 [], edges := [], lost := Vector.replicate 8 none }

end Sys2Proof.Machine
end

