-- ==== Sys2Proof/Machine/HeadState.lean ====
section
/-! DEFINITION. The state of HLK, of the head driver modules and of HDG (R258 to R297). -/

set_option Elab.async false

namespace Sys2Proof.Machine

/-- The head-lane states of R270. -/
inductive LaneSt where
  | deep | waking | aligning | capability | latency | tables | trained | eidle | resuming | down | test
  deriving DecidableEq, Repr

/-- The lane state code of R270. -/
def LaneSt.code : LaneSt → Nat
  | .deep => 0 | .waking => 1 | .aligning => 2 | .capability => 3 | .latency => 4 | .tables => 5
  | .trained => 6 | .eidle => 7 | .resuming => 8 | .down => 9 | .test => 10

/-- A fire token placed on a lane (R232, R233): the block boundary in 125 ps units, its delay, its line. -/
structure Token where
  bar : Nat
  n : Nat
  boundary : Nat
  delay : Nat
  late : Bool
  /-- The fire time and the shortfall of a late token, in 625 ps units. -/
  fire : Nat
  deriving DecidableEq, Repr

/-- A MEAS on its way on a lane (R288): head, first element, count, kind, tag, and whether it was sent again. -/
structure MeasOut where
  head : Nat
  first : Nat
  count : Nat
  kind : Nat
  tag : Nat
  retried : Bool
  deriving DecidableEq, Repr

/-- What a lane's transmitter sent in its previous slot (R266). -/
inductive SlotKind where
  | token | start | other
  deriving DecidableEq, Repr

/-- A lane's transmitter. -/
structure Tx where
  /-- Frames and blocks given to it and not begun, oldest first. -/
  queue : List LaneTx
  /-- The FrameType of the frame in progress and its blocks still to leave. -/
  busy : Nat
  rest : List LinkBlock
  /-- The extension of a TOKEN that left in the previous slot (R266). -/
  ext : Option LinkBlock
  prev : SlotKind
  /-- Slots since the last SKIP (R266). -/
  sinceSkip : Nat
  /-- Blocks of a training burst still to leave, and the one of its last 128 that is a SKIP (R276). -/
  burst : Nat
  burstSkip : Nat
  /-- The equaliser preset, by band (R279). -/
  preset : Nat
  /-- The scrambler's last 58 bits, the latest lowest; nothing before its first block (R259). -/
  scrambler : Option Nat
  /-- The pattern generator's register, the latest bit lowest, nothing before its first bit; bits still to invert (R280). -/
  prbs : Option Nat
  inject : Nat
  deriving DecidableEq, Repr

/-- A transmitter with nothing to send. -/
def Tx.start : Tx :=
  { queue := [], busy := 0, rest := [], ext := none, prev := .other, sinceSkip := 0, burst := 0, burstSkip := 0, preset := 0,
    scrambler := none, prbs := none, inject := 0 }

/-- Frames that end with ownership: OWNER, LINE and TOKEN (R267, R273). -/
def LaneTx.owns : LaneTx → Bool
  | .owner .. | .line _ | .token .. => true
  | _ => false

/-- RELEASE and QUIET, which are single blocks (R260). -/
def LaneTx.isControl : LaneTx → Bool
  | .release _ | .quiet => true
  | _ => false

/-- A frame or block given to a transmitter; RELEASE takes what ends with ownership from the queue (R267). -/
def Tx.ask (t : Tx) (f : LaneTx) : Tx :=
  match f with
  | .release _ => { t with queue := t.queue.filter (fun q => !q.owns) ++ [f] }
  | _ => { t with queue := t.queue ++ [f] }

/-- A transmitter that sends no further LINE, TOKEN or OWNER block (R273). -/
def Tx.cut (t : Tx) : Tx :=
  { t with queue := t.queue.filter fun q => !q.owns, ext := none, rest := if t.busy = 1 ∨ t.busy = 5 then [] else t.rest }

/-- A head lane. -/
structure Hln where
  st : LaneSt
  /-- The lane goes to TEST when its PLL has locked. -/
  toTest : Bool
  /-- The agreed version, 0 for none. -/
  version : Nat
  chosen : Nat
  cap : Option CapUp
  lock : Bool
  bandStale : Bool
  failCause : Nat
  /-- one_way samples of the present round, in half units of 625 ps, and rounds that were too wide (R274). -/
  probes : List Int
  rounds : Nat
  probeOut : Option Nat
  excursion : Bool
  tableSeq : Nat
  /-- TABLE frames not yet acknowledged, by TableSeq. -/
  tablesOut : List Nat
  tokens : List Token
  frameSeq : Nat
  measTag : Nat
  meas : Option MeasOut
  /-- The lane's measurement list has ended; and the lane was woken from EIDLE for it (R285). -/
  measDone : Bool
  woken : Bool
  checker : Bool
  /-- The tick at which the checker locked (R280). -/
  checkFrom : Nat
  /-- The receive word boundary, 0 to 65 (R271). -/
  slip : Nat
  tx : Tx
  deriving DecidableEq, Repr

/-- A lane in the deep state. -/
def Hln.start : Hln :=
  { st := .deep, toTest := false, version := 0, chosen := 0, cap := none, lock := false, bandStale := false, failCause := 0,
    probes := [], rounds := 0, probeOut := none, excursion := false, tableSeq := 0, tablesOut := [], tokens := [],
    frameSeq := 0, measTag := 0, meas := none, measDone := false, woken := false, checker := false,
    checkFrom := 0, slip := 0, tx := Tx.start }

/-- An input of an HDM (R268). -/
structure HdmIn where
  lock : Bool
  claims : Bool
  gen : Nat
  crcErrors : Nat
  /-- The FrameSeq of the input's next frame upstream (R261). -/
  frameSeq : Nat
  deriving DecidableEq, Repr

/-- A held line of a head (R262). -/
structure HeldLine where
  tag : Nat
  number : Nat
  bar : Nat
  levels : List Nat
  deriving DecidableEq, Repr

/-- A head driver module: two inputs, ownership, held lines by head, counters, the band and the waveform tables it took. -/
structure Hdm where
  a : HdmIn
  b : HdmIn
  genMax : Nat
  held : List (Nat × HeldLine)
  fired : Nat
  rejects : Nat
  mismatches : Nat
  band : Nat
  nextBand : Option Nat
  tables : List (Nat × Bytes)
  version : Nat
  deriving DecidableEq, Repr

/-- An HDM at power-up. -/
def Hdm.start : Hdm :=
  let i : HdmIn := { lock := false, claims := false, gen := 0, crcErrors := 0, frameSeq := 0 }
  { a := i, b := i, genMax := 0, held := [], fired := 0, rejects := 0, mismatches := 0, band := 0,
    nextBand := none, tables := [], version := 0 }

/-- HLK as a whole, beside its lanes: the KeyGeneration of OWNER frames in SOLO (R267), the band last sent. -/
structure Hlk where
  lanes : Vector Hln 32
  soloGen : Nat
  /-- The highest GenMax each lane's HDM has reported. -/
  genMax : Vector Nat 32
  deriving DecidableEq, Repr

/-- HLK as its switch-on leaves it. -/
def Hlk.start : Hlk := { lanes := Vector.replicate 32 Hln.start, soloGen := 0, genMax := Vector.replicate 32 0 }

/-- A MeasResults record of an address (R295). -/
structure MeasRec where
  primary : Nat
  leak : Nat
  status : Nat
  cls : Nat
  dev : Nat
  /-- Primary is a capacitance (R288). -/
  capacitive : Bool
  deriving DecidableEq, Repr

/-- An address nothing has measured. -/
def MeasRec.none : MeasRec := { primary := 0, leak := 0, status := 1, cls := 255, dev := 0xFFFF, capacitive := false }

/-- HDG. -/
structure Hdg where
  /-- 0 idle, 1 running, 2 complete, 3 abandoned (R295). -/
  phase : Nat
  pending : Nat
  complete : Nat
  /-- The bars whose last measurement completed, as a mask (R294). -/
  done : Nat
  pendingValid : Nat
  startTick : Nat
  results : Vector (List (Nat × MeasRec)) 8
  pendingMap : Vector Bytes 8
  deriving DecidableEq, Repr

/-- HDG as HLK's switch-on leaves it. -/
def Hdg.start : Hdg :=
  { phase := 0, pending := 0, complete := 0, done := 0, pendingValid := 0, startTick := 0, results := Vector.replicate 8 [],
    pendingMap := Vector.replicate 8 [] }

end Sys2Proof.Machine
end

