-- ==== Sys2Proof/Machine/MemState.lean ====
section
/-! DEFINITION. The state of a memory channel: its queues, refresh, training results and freeze (R138 to R167). -/

set_option Elab.async false

namespace Sys2Proof.Machine

/-- The channel states of R164. -/
inductive ChSt where
  | disabled | untrained | training | ready | selfRefresh | freqChange | frozen | retained
  deriving DecidableEq, Repr

/-- The state code of R164. -/
def ChSt.code : ChSt → Nat
  | .disabled => 0 | .untrained => 1 | .training => 2 | .ready => 3
  | .selfRefresh => 4 | .freqChange => 5 | .frozen => 6 | .retained => 7

/-- A read a master waits for. -/
structure MemRead where
  master : Nat
  /-- The system address of its 128-byte access. -/
  addr : Nat
  deriving DecidableEq, Repr

/-- A queued write. -/
structure MemWrite where
  master : Nat
  addr : Nat
  data : Bytes
  deriving DecidableEq, Repr

/-- A request that waits because the write queue is full or the channel takes none. -/
inductive MemWait where
  | read (r : MemRead)
  | write (w : MemWrite)
  deriving DecidableEq, Repr

/-- A command of the command log (R165). -/
structure MemCmd where
  stamp : Nat
  cmd : Nat
  target : Nat
  master : Nat
  flags : Nat
  row : Nat
  burst : Nat
  deriving DecidableEq, Repr

/-- What a channel that takes no more requests empties its queues for: another operating point, or RETAIN (R160, R163). -/
inductive Leaving where
  | freq (point : Nat)
  | retain
  deriving DecidableEq, Repr

/-- A memory channel. -/
structure Mch where
  st : ChSt
  point : Nat
  pendingPoint : Option Nat
  /-- Which operating points have a stored result (R158). -/
  stored0 : Bool
  stored1 : Bool
  step : Nat
  result : Nat
  failing : Nat
  reads : List MemRead
  /-- How many of the reads, from the front, were held by a freeze: they are served first, in their order (R156). -/
  heldReads : Nat
  writes : List MemWrite
  waiting : List MemWait
  burst : Bool
  guard : Bool
  drain : Bool
  owed : Vector Nat 2
  lfsr : Nat
  /-- Neighbour refreshes that are due, oldest first: target (rank, bank group, bank) and row (R150). -/
  due : List (Nat × Nat)
  leaving : Option Leaving
  /-- The last good reading of each DIMM sensor since the channel was enabled, m°C; and whether its last read failed (R148). -/
  sensors : Vector (Option Int) 3
  sensorBad : Vector Bool 3
  hot : Bool
  sensorFault : Bool
  temp : Int
  freezeCause : Nat
  log : List MemCmd
  /-- The channel entered RETAIN from UNTRAINED, or frozen (R163, R157). -/
  retUntrained : Bool
  retFrozen : Bool
  deriving DecidableEq, Repr

/-- A channel that is not enabled and holds nothing. -/
def Mch.start : Mch :=
  { st := .disabled, point := 0, pendingPoint := none, stored0 := false, stored1 := false, step := 0, result := 0,
    failing := 0, reads := [], heldReads := 0, writes := [], waiting := [], burst := false, guard := false, drain := false,
    owed := Vector.replicate 2 0, lfsr := 1, due := [], leaving := none, sensors := Vector.replicate 3 none,
    sensorBad := Vector.replicate 3 false, hot := false, sensorFault := false, temp := 0, freezeCause := 0, log := [],
    retUntrained := false, retFrozen := false }

end Sys2Proof.Machine
end

