-- ==== Sys2Proof/Machine/NetState.lean ====
section
/-! DEFINITION. The state of NET and TIM: the switch, the MDIO master, the clocks and their masters (R86 to R112). -/

set_option Elab.async false

namespace Sys2Proof.Machine

/-- The clock states of R99. -/
inductive ClockSt where
  | freerun | acquiring | locked | holdover
  deriving DecidableEq, Repr

/-- The state code of R99. -/
def ClockSt.code : ClockSt → Nat
  | .freerun => 0 | .acquiring => 1 | .locked => 2 | .holdover => 3

/-- A point of a clock: at tick `tick` its time was `e` (in 2^-32 ns on the PTP timescale) and it
advances by `inc` (u8.32 ns) per tick (R12). -/
structure Anchor where
  tick : Nat
  e : Nat
  inc : Nat
  deriving DecidableEq, Repr

/-- The nominal increment 02_8000_0000h (R97). -/
def nominalInc : Nat := 0x280000000

/-- A Sync that waits for its Follow_Up. -/
structure TwoStep where
  sender : BitVec 80
  seq : BitVec 16
  /-- Its receive time on the native clock and on the four legacy clocks, in 2^-32 ns. -/
  t2 : Nat
  legacy : List Nat
  correction : Int
  deriving DecidableEq, Repr

/-- A clock's servo (R98 to R101): the native one or a legacy one. `i`, `f` in 2^-16 ppb, `offset` in 2^-16 ns. -/
structure Servo where
  st : ClockSt
  i : Int
  f : Int
  offset : Int
  /-- Consecutive Syncs below LockThreshold, at or above four times it, and with f at its limit. -/
  lockRun : Nat
  unlockRun : Nat
  limitRun : Nat
  stepBlocked : Bool
  atLimit : Bool
  stepCount : Nat
  /-- The tick of the last entry to HOLDOVER. -/
  holdTick : Nat
  deriving DecidableEq, Repr

/-- A servo as NET starts it (R103). -/
def Servo.start : Servo :=
  { st := .freerun, i := 0, f := 0, offset := 0, lockRun := 0, unlockRun := 0, limitRun := 0, stepBlocked := false,
    atLimit := false, stepCount := 0, holdTick := 0 }

/-- A foreign master: its last Announce and the ticks at which its last two came. -/
structure Foreign where
  ann : Announce
  last : Nat
  before : Option Nat
  deriving DecidableEq, Repr

/-- The last Sync of a domain's master, kept for the path delay: receive and origin time, correction, port, mapping. -/
structure LastSync where
  t1 : Nat
  t2 : Int
  correction : Int
  port : Nat
  mapping : Nat
  deriving DecidableEq, Repr

/-- A Delay_Req on its way: its sequence and transmit stamp. -/
structure DelayReq where
  seq : Nat
  t3 : Int
  deriving DecidableEq, Repr

/-- What the PTP port knows of one domain (R93, R98, R104). -/
structure PtpDom where
  foreign : List Foreign
  master : Option Announce
  /-- grandmasterIdentity and parentPortIdentity of the master selected last. -/
  ident : Option (Nat × Nat)
  /-- The mean path delay in 2^-16 ns, once a sample exists. -/
  mpd : Option Int
  lastSync : Option LastSync
  twoStep : Option TwoStep
  req : Option DelayReq
  reqSeq : Nat
  logSync : Int
  logDelay : Int
  deriving DecidableEq, Repr

/-- A domain nothing was heard in. -/
def PtpDom.initial : PtpDom :=
  { foreign := [], master := none, ident := none, mpd := none, lastSync := none, twoStep := none, req := none, reqSeq := 0, logSync := 0, logDelay := 0 }

/-- TIM, in NET. -/
structure Tim where
  /-- The anchor set of the time start and those announced since, the latest first (R12). -/
  anchor : Anchor
  announced : List Anchor
  native : Servo
  legacy : Vector Servo 4
  legacyClk : Vector Anchor 4
  doms : List (Nat × PtpDom)
  /-- Wraps of E modulo 2^32 since the time start, and the era last marked (R105). -/
  wraps : Nat
  markedEra : Nat
  /-- Steps whose era marker is not yet written: anchor tick and new era, the oldest first (R105). -/
  steps : List (Nat × Nat)
  deriving DecidableEq, Repr

/-- A learned source address (R87). -/
structure Learned where
  port : Nat
  tick : Nat
  deriving DecidableEq, Repr

/-- An MDIO transaction in progress (R108). -/
structure Mdio where
  op : Nat
  phy : Nat
  reg : Nat
  data : Nat
  deriving DecidableEq, Repr

/-- A frame in an egress queue: the port and the tick it arrived at, what it asks of an IP address. -/
structure Queued where
  frame : Frame
  port : Nat
  tick : Nat
  asks : Option IpAsk
  deriving DecidableEq, Repr

/-- An egress port of the switch (R88): its four queues, each oldest first, and the tick at which it may start its next frame. -/
structure Egress where
  queues : Vector (List Queued) 4
  busy : Nat
  deriving DecidableEq, Repr

/-- An egress port with nothing to send. -/
def Egress.start : Egress := { queues := Vector.replicate 4 [], busy := 0 }

/-- NET. -/
structure Net where
  table : List (Nat × Learned)
  egress : Vector Egress 3
  mdio : Option Mdio
  /-- The mean link delay of P1 and P2 in 2^-16 ns, and the transmit stamp of the Pdelay_Req on its way. -/
  linkDelay : Vector Int 2
  pdelayReq : Vector (Option DelayReq) 2
  pdelaySeq : Nat
  deriving DecidableEq, Repr

/-- TIM as the switch-on of NET leaves it at tick `t` (R103). -/
def Tim.start (t : Nat) : Tim :=
  { anchor := { tick := t, e := 0, inc := nominalInc }, announced := [], native := Servo.start,
    legacy := Vector.replicate 4 Servo.start,
    legacyClk := Vector.replicate 4 { tick := t, e := 0, inc := nominalInc },
    doms := [], wraps := 0, markedEra := 0, steps := [] }

/-- NET as its switch-on leaves it. -/
def Net.start : Net :=
  { table := [], egress := Vector.replicate 3 Egress.start, mdio := none, linkDelay := Vector.replicate 2 0,
    pdelayReq := Vector.replicate 2 none, pdelaySeq := 0 }

end Sys2Proof.Machine
end

