-- ==== Sys2Proof/Machine/VisState.lean ====
section
/-! DEFINITION. The state of CAM and IPL: camera ports, stitching, statistics, products and the comparator (R298 to R323). -/

set_option Elab.async false

namespace Sys2Proof.Machine

/-- A trigger record (R192), with the tick of its pulse. -/
structure Trig where
  tick : Nat
  ns : Nat
  era : Nat
  /-- V at the firing, s32.16 counts modulo 2^48. -/
  pos : Nat
  channel : Nat
  unit : Nat
  count : Nat
  deriving DecidableEq, Repr

/-- A trigger record that waits on a port for its line (R305), with its stitched line number. -/
structure PendTrig where
  i : Nat
  trig : Trig
  /-- The generation of its frame on the port (R307). -/
  gen : Nat
  deriving DecidableEq, Repr

/-- The five camera settings of R301. -/
structure CamSet where
  exposure : Nat
  gain : Nat
  red : Nat
  green : Nat
  blue : Nat
  deriving DecidableEq, Repr

/-- An open port frame (R306). -/
structure PortFrame where
  /-- The web frame it belongs to, once a line has paired. -/
  j : Option Nat
  marks : Nat
  gen : Nat
  /-- The histogram, 64 bins per channel, channel-major. -/
  hist : List Nat
  /-- The line of the frame's last trigger has come, or will not come. -/
  lastSeen : Bool
  /-- Lines are discarded until Frame End (R306). -/
  discard : Bool
  deriving DecidableEq, Repr

/-- A CCI batch: its transactions (setting, register index, data) in order, and the settings it stands for (R301, R302). -/
structure CciBatch where
  writes : List (Nat × Nat × Bytes)
  settings : CamSet
  deriving DecidableEq, Repr

/-- A host CCI transaction (R303). -/
structure CciHost where
  read : Bool
  count : Nat
  index : Nat
  data : Bytes
  deriving DecidableEq, Repr

/-- A camera port. -/
structure Cam where
  enabled : Bool
  started : Bool
  silent : Bool
  pending : List PendTrig
  /-- Consecutive expired records. -/
  expiredRun : Nat
  expiredStamp : Nat
  frame : Option PortFrame
  /-- Frames up to this one are closed on the port. -/
  closedTo : Nat
  /-- The settings last written to the camera, the batch that runs, a batch that waits, the generation. -/
  written : Option CamSet
  batch : Option CciBatch
  batchDue : Bool
  gen : Nat
  /-- The generation of the frame that the last frame-start trigger began (R307). -/
  frameGen : Nat
  /-- Generations whose batch failed, newest first (R302). -/
  failedGens : List Nat
  /-- Marks of frames that are not closed yet, by frame. -/
  marks : List (Nat × Nat)
  /-- A commit of area 2Ch: 0 none, 1 its batch is due or runs, 2 its generation has completed (R308). -/
  commit : Nat
  cciFailed : Bool
  host : Option CciHost
  aeAtLimit : Bool
  deriving DecidableEq, Repr

/-- A port that is not enabled. -/
def Cam.start : Cam :=
  { enabled := false, started := false, silent := false, pending := [], expiredRun := 0, expiredStamp := 0, frame := none, closedTo := 0,
    written := none, batch := none, batchDue := false, gen := 0, frameGen := 0, failedGens := [], marks := [],
    commit := 0, cciFailed := false, host := none, aeAtLimit := false }

/-- A port's part of a stitched line: not there yet, its pixels (value and whether it is valid) by pixel and channel, or all fill. -/
inductive Part where
  | awaited
  | line (pixels : List (List (Nat × Bool)))
  | fill
  deriving DecidableEq, Repr

/-- A stitched line in the making (R311). -/
structure Stitch where
  i : Nat
  trig : Trig
  parts : Vector Part 4
  marks : Nat
  gens : Vector Nat 4
  deriving DecidableEq, Repr

/-- A completed stitched line as later steps use it: web pixels by column and channel, zone sums by zone and channel (S, N). -/
structure WebLine where
  i : Nat
  trig : Trig
  pixels : List (List (Nat × Bool))
  sums : List (List (Nat × Nat))
  marks : Nat
  /-- Every used port contributes valid pixels (R330). -/
  whole : Bool
  deriving DecidableEq, Repr

/-- A web frame being made (R314, R315): the marks it has of its own, the ports' generations at its first line, its lines. -/
structure WebFrame where
  j : Nat
  marks : Nat
  firstGens : Vector Nat 4
  lines : List WebLine
  deriving DecidableEq, Repr

/-- A product in a stream's ring (R315, R316): frame, bytes, and how much has left over the Raster port; none when it is not routed there. -/
structure Product where
  frame : Nat
  data : Bytes
  sent : Option Nat
  ports : Nat
  ns : Nat
  era : Nat
  deriving DecidableEq, Repr

/-- An open box of defect pixels (R319). -/
structure Box where
  first : Nat
  last : Nat
  left : Nat
  right : Nat
  count : Nat
  worst : Nat
  worstDev : Nat
  trig : Trig
  deriving DecidableEq, Repr

/-- A close notice for colour hold (R313). -/
structure CloseNotice where
  j : Nat
  marks : Nat
  hold : Bool
  deriving DecidableEq, Repr

/-- What colour hold still has to take from IPL, in order. -/
inductive CheIn where
  | line (w : WebLine)
  | close (c : CloseNotice)
  deriving DecidableEq, Repr

/-- CAM and IPL, in VIS. -/
structure Vis where
  ports : Vector Cam 4
  /-- Trigger records on their way from LCG (R192). -/
  trigs : List Trig
  stitch : List Stitch
  /-- The number of the last trigger record of the web trigger (R304). -/
  lastI : Option Nat
  /-- Web frames that are not closed, oldest first, and the marks of port frames closed for them (R314). -/
  frames : List WebFrame
  marks : List (Nat × Nat)
  rings : Vector (List Product) 3
  boxes : List Box
  defects : List Bytes
  frameDefects : Nat
  toChe : List CheIn
  deriving DecidableEq, Repr

/-- VIS as its switch-on leaves it. -/
def Vis.start : Vis :=
  { ports := Vector.replicate 4 Cam.start, trigs := [], stitch := [], lastI := none, frames := [],
    marks := [], rings := Vector.replicate 3 [], boxes := [],
    defects := [], frameDefects := 0, toChe := [] }

end Sys2Proof.Machine
end

