-- ==== Sys2Proof/Machine/PairState.lean ====
section
/-! DEFINITION. The state of CHE and MIR: colour hold (R324 to R344), the mirror link and the Key (R345 to R370). -/

set_option Elab.async false

namespace Sys2Proof.Machine

/-- A track entry (R326): stamp in ns and era, and position. -/
structure TrackPt where
  ns : Nat
  pos : Nat
  deriving DecidableEq, Repr

/-- The accumulator of a zone (R330): sums by channel and colour, exact. -/
structure ZoneAcc where
  n : Nat
  su : List Nat
  suu : List (List Nat)
  sm : List Nat
  smu : List (List Nat)
  smm : List Nat
  deriving DecidableEq, Repr

/-- An accumulator with no observation. -/
def ZoneAcc.zero : ZoneAcc := { n := 0, su := [], suu := [], sm := [], smu := [], smm := [] }

/-- What a zone's last solve found (R333, R335): flags, observations, residuals, b and a by channel, binary64 values exactly. -/
structure ZoneEst where
  observable : List Nat
  solved : Bool
  residualHigh : Bool
  /-- Colours with a reference, as a mask, when it was published. -/
  refs : Nat
  n : Nat
  rms : List Rat
  b : List Rat
  a : List (List Rat)
  deriving DecidableEq, Repr

/-- An Estimates record nothing has been solved into. -/
def ZoneEst.none : ZoneEst := { observable := [], solved := false, residualHigh := false, refs := 0, n := 0, rms := [], b := [], a := [] }

/-- A gain load or advice as HoldLog tells of it (R340): its window, zones changed, largest step, zones observable and at a limit. -/
structure GainLoad where
  window : Nat
  changed : Nat
  step : Nat
  observable : Nat
  atLimit : Nat
  deriving DecidableEq, Repr

/-- A job that a bar left: its slot, its first line, and the print line p that the line n was or would have been (R131, R318). -/
structure OldJob where
  slot : Nat
  start : Nat
  n : Nat
  p : Nat
  deriving DecidableEq, Repr

/-- Colour hold's state of a bar, beside its objects. -/
structure CheBar where
  /-- Integrators by zone, 0 where not listed (R338). -/
  integ : List (Nat × Rat)
  /-- A zone stands at GainMin or GainMax; zones with an observable ratio in the last window. -/
  atLimit : Bool
  zonesObs : Nat
  /-- A gain load that waits for its first line (R340). -/
  load : Option GainLoad
  /-- A job start still to be reached by the camera: the bar's first line of the new job (R332). -/
  jobStart : Option Nat
  /-- The first line of the bar's present job. -/
  startN : Nat
  /-- The job that the bar left in the change in progress, whose lines the camera still sees (R318). -/
  old : Option OldJob
  /-- The FirstLine expected next; an overrun episode, and records read in time since (R329). -/
  expect : Nat
  overrun : Bool
  inTime : Nat
  deriving DecidableEq, Repr

/-- A bar that colour hold has nothing on. -/
def CheBar.start : CheBar :=
  { integ := [], atLimit := false, zonesObs := 0, load := none, jobStart := none, startN := 0, old := none, expect := 0, overrun := false, inTime := 64 }

/-- CHE, in CTL. -/
structure Che where
  bars : Vector CheBar 8
  track : List TrackPt
  frameAcc : List (Nat × ZoneAcc)
  winAcc : List (Nat × ZoneAcc)
  p0 : Option Nat
  lastPos : Nat
  /-- The web frame of the last line. -/
  frameJ : Option Nat
  /-- The camera's position channel. -/
  chan : Nat
  framesIn : Nat
  dirAtFrame : Nat
  solving : Option (List (Nat × ZoneAcc))
  solveNs : Nat
  solveEra : Nat
  solveZones : Nat
  channels : Nat
  held : List (Nat × Rat)
  est : List (Nat × ZoneEst)
  estWindow : Nat
  estNs : Nat
  estEra : Nat
  estZones : Nat
  log : List Bytes
  deriving DecidableEq, Repr

/-- CHE as CTL's switch-on leaves it. -/
def Che.start : Che :=
  { bars := Vector.replicate 8 CheBar.start, track := [], frameAcc := [], winAcc := [], p0 := none, lastPos := 0, frameJ := none, chan := 0, framesIn := 0,
    dirAtFrame := 0, solving := none, solveNs := 0, solveEra := 0, solveZones := 0, channels := 0, held := [], est := [],
    estWindow := 0, estNs := 0, estEra := 0, estZones := 0, log := [] }

/-- The roles of R346. -/
inductive Role where
  | solo | active | standby
  deriving DecidableEq, Repr

/-- The code of a role. -/
def Role.code : Role → Nat
  | .solo => 0 | .active => 1 | .standby => 2

/-- The mirror states of R347. -/
inductive MirSt where
  | off | linking | hello | warm | cold | lone | orphan | conflict
  deriving DecidableEq, Repr

/-- The mirror state code of R347. -/
def MirSt.code : MirSt → Nat
  | .off => 0 | .linking => 1 | .hello => 2 | .warm => 3 | .cold => 4 | .lone => 5 | .orphan => 6 | .conflict => 7

/-- A hinge to report (R365): kind, last confirmed line, its next position and stamp; the first fired line is still to come. -/
structure Hinge where
  kind : Nat
  lastLine : Nat
  missedPos : Nat
  lastStamp : Nat
  deriving DecidableEq, Repr

/-- MIR, with the lease timers of AON. -/
structure Mir where
  role : Role
  st : MirSt
  link : Bool
  locked : Nat
  cause : Nat
  format : Nat
  partner : Option Hello
  /-- Latency samples in half units of 625 ps; the tag of the probe on its way. -/
  probes : List Int
  probeOut : Option Nat
  latency : Nat
  keyGen : Nat
  /-- The tick at which the Key expires; held while it lies ahead (R360, R347). -/
  keyExpiry : Option Nat
  takeoverAt : Option Nat
  lastExpiry : Nat
  /-- Cycle number, departure ticks of STATE frames by cycle, cycles with no SACK yet. -/
  cycle : Nat
  departures : List (Nat × Nat)
  acked : Bool
  lastSack : Nat
  seq : Nat
  partnerReady : Bool
  slotsMatch : Bool
  /-- The standby's READY slots that differ from the ACTIVE's (R358). -/
  badSlots : List Nat
  streamComplete : Bool
  diverged : Bool
  swap : Bool
  handover : Bool
  dissolve : Bool
  /-- The last accepted state block, and the differences of the cycle before (R354). -/
  block : Option StateBlock
  /-- The 32-bit fire times of the bars' last lines as the accepted block confirmed them (R365). -/
  confirm : Vector Nat 8
  /-- The block in the STATE frame sent last, with its fire times, and the cycle whose frame carried a flag (R367). -/
  sentBlock : Option StateBlock
  sentConfirm : Vector Nat 8
  flagCycle : Option Nat
  diffs : List (Nat × Int)
  corrections : Nat
  /-- While a lost Key may be reclaimed: 0, or 1 + the last OwnerState that showed the partner on the heads (R363). -/
  seenPartner : Option Nat
  hinge : Vector (Option Hinge) 8
  /-- Missed ranges of bars: first and last missed line (R366). -/
  missed : List (Nat × Nat × Nat)
  /-- Bytes of the forwarded block being reassembled: sequence, length, bytes. -/
  fwd : Option (Nat × Nat × Bytes)
  /-- The first design line of each bar forwarded since the pairing (R359). -/
  fwdFirst : Vector (Option Nat) 8
  /-- The last SLOT frame of the partner for each slot (R358). -/
  partnerSlots : Vector (Option SlotFrame) 2
  deriving DecidableEq, Repr

/-- MIR as its switch-on leaves it in a role. -/
def Mir.start (r : Role) : Mir :=
  { role := r, st := .off, link := false, locked := 0, cause := 0, format := 0, partner := none, probes := [], probeOut := none,
    latency := 0, keyGen := 0, keyExpiry := none, takeoverAt := none, lastExpiry := 0, cycle := 0, departures := [], acked := true,
    lastSack := 0, seq := 0, partnerReady := false, slotsMatch := false, badSlots := [], streamComplete := false, diverged := false, swap := false,
    handover := false, dissolve := false, block := none, confirm := Vector.replicate 8 0, sentBlock := none, sentConfirm := Vector.replicate 8 0, flagCycle := none, diffs := [], corrections := 0, seenPartner := none,
    hinge := Vector.replicate 8 none, missed := [], fwd := none,
    fwdFirst := Vector.replicate 8 none, partnerSlots := Vector.replicate 2 none }

end Sys2Proof.Machine
end

