-- ==== Sys2Proof/Machine/PosState.lean ====
section
/-! DEFINITION. The state of POS and LCG: position channels, line clocks and compare units (R168 to R197). -/

set_option Elab.async false

namespace Sys2Proof.Machine

/-- An SSI sample: the tick of its first clock edge and the count after it. -/
structure SsiSample where
  tick : Nat
  count : Nat
  deriving DecidableEq, Repr

/-- A position channel. -/
structure Pch where
  /-- The counter, modulo 2^32 (R169). -/
  count : Nat
  /-- The filtered inputs: A and B in mode 1, U, V and W in mode 3. -/
  a : Bool
  b : Bool
  uvw : Nat
  /-- The last valid Hall state. -/
  hallRef : Option Nat
  tLast : Nat
  /-- The last accepted direction is backward; none before the first change. -/
  back : Option Bool
  stopped : Bool
  cleared : Bool
  window : List Rat
  zPrev : Option Nat
  ssiStart : Option Nat
  ssiRaw : Option Nat
  ssiLast : Option SsiSample
  deriving DecidableEq, Repr

/-- A channel as CTL's switch-on or a ChannelMode write leaves it (R169). -/
def Pch.start : Pch :=
  { count := 0, a := false, b := false, uvw := 0, hallRef := none, tLast := 0, back := none, stopped := true, cleared := false,
    window := [], zPrev := none, ssiStart := none, ssiRaw := none, ssiLast := none }

/-- The line clock states of R179. -/
inductive ClkSt where
  | out | waiting | running | backlash | reversed
  deriving DecidableEq, Repr

/-- The line clock state code of R179. -/
def ClkSt.code : ClkSt → Nat
  | .out => 0 | .waiting => 1 | .running => 2 | .backlash => 3 | .reversed => 4

/-- A bar's line clock. -/
structure Lcg where
  st : ClkSt
  high : Nat
  /-- The next line's position, s32.16 counts modulo 2^48 (R182). -/
  next : Nat
  n : Nat
  lastUninterp : Bool
  revTick : Nat
  deriving DecidableEq, Repr

/-- A line clock that is out of the job. -/
def Lcg.start : Lcg := { st := .out, high := 0, next := 0, n := 0, lastUninterp := false, revTick := 0 }

/-- A compare unit (R188 to R192). -/
structure Cmp where
  /-- Enabled at its last take-up. -/
  enabled : Bool
  armed : Bool
  behind : Bool
  fired : Bool
  /-- V, s32.16 counts modulo 2^48. -/
  v : Nat
  /-- Ticks at which actions fall due. -/
  due : List Nat
  pulse : Bool
  /-- The level the unit drives on its target: true is active. -/
  level : Bool
  deriving DecidableEq, Repr

/-- A compare unit that is not enabled. -/
def Cmp.start : Cmp :=
  { enabled := false, armed := false, behind := false, fired := false, v := 0, due := [], pulse := false, level := false }

end Sys2Proof.Machine
end

