-- ==== Sys2Proof/Machine/PowerState.lean ====
section
/-! DEFINITION. The state of PWR's sequencer: device state, state and domain requests, resets and boot (R22 to R50). -/

set_option Elab.async false

namespace Sys2Proof.Machine

/-- The device states of R22. -/
inductive DevState where
  | off | reset | boot | standby | configured | armed | printing | held | frozen | deep
  deriving DecidableEq, Repr

/-- The state code of R22. -/
def DevState.code : DevState → Nat
  | .off => 0 | .reset => 1 | .boot => 2 | .standby => 3 | .configured => 4
  | .armed => 5 | .printing => 6 | .held => 7 | .frozen => 8 | .deep => 9

/-- The states of a power domain (R42). -/
inductive DomSt where
  | off | on | retain
  deriving DecidableEq, Repr

/-- The two-bit code of a domain state in DomainStatus (R44). -/
def DomSt.code : DomSt → Nat
  | .off => 0 | .on => 1 | .retain => 2

/-- A state request that is accepted and still in progress (R24 to R29). -/
inductive Transition where
  | training                                                       -- CONFIGURED from STANDBY
  | stopHeld                                                       -- HELD, bars stopping at line boundaries
  | stopConfigured                                                 -- CONFIGURED, bars stopping at line boundaries
  | resume                                                         -- PRINTING from HELD, the training burst
  deriving DecidableEq, Repr

/-- The fields of StateStatus that a request sets (R34). -/
structure Progress where
  target : Nat
  step : Nat
  unit : Nat
  result : Nat
  busy : Bool
  deriving DecidableEq, Repr

/-- A domain request being applied (R45): the changes left, in order. -/
structure DomWork where
  changes : List (Nat × DomSt)
  /-- MGT and NET are switched off 1 ms after the response (R47). -/
  waitReply : Bool
  deriving DecidableEq, Repr

/-- What AON keeps of a boot that never reached step 7 (R38, R451): the slot status values and the stamps. -/
structure BootKeep where
  slotA : Nat
  slotB : Nat
  stampA : Nat
  stampB : Nat
  deriving DecidableEq, Repr

/-- PWR's sequencer in AON. -/
structure Pwr where
  dev : DevState
  /-- Every supply but VDD_AON is in its recommended range (R427, R429). -/
  supplies : Bool
  /-- VDD_AON is in range. -/
  aon : Bool
  /-- VDD_AON has stayed in range since the last boot (R397). -/
  aonKept : Bool
  /-- The level of PORST_N. -/
  porst : Bool
  /-- The thermal trip latch (R40). -/
  trip : Bool
  /-- AON has shut every other domain down after the trip (R418). -/
  tripDown : Bool
  /-- Neither image authenticated; the quad-SPI balls are released (R36). -/
  bootHeld : Bool
  /-- Boots kept in AON that failed in both slots, oldest first (R451). -/
  bootKept : List BootKeep
  /-- The outcome of the boot before this one, the PreviousOutcome code of BootResult. -/
  prevBoot : Nat
  /-- The tick at which PORST_N last rose, or a chip reset ended. -/
  bootTick : Nat
  progress : Progress
  trans : Option Transition
  /-- Time of the last state entry: ns and era (R33). -/
  entryNs : Nat
  entryEra : Nat
  doms : Vector DomSt 12
  /-- The tick at which each domain last came ON (R376). -/
  domOn : Vector Nat 12
  domWork : Option DomWork
  /-- A chip reset due 1 ms from its request; the ResetCause it will read. -/
  chipPending : Option Nat
  /-- The boot that follows the present BOOT state reads this ResetCause. -/
  cause : Nat
  /-- Block resets that run: area byte and unit number (R386). -/
  resets : List (Nat × Nat)
  deriving DecidableEq, Repr

/-- The domains as R35 leaves them: AON, MGT and NET on. -/
def resetDoms : Vector DomSt 12 := Vector.ofFn fun d => if d.val ≤ 2 then .on else .off

/-- All domains but AON off. -/
def aonOnlyDoms : Vector DomSt 12 := Vector.ofFn fun d => if d.val = 0 then .on else .off

end Sys2Proof.Machine
end

