-- ==== Sys2Proof/Machine/RasterState.lean ====
section
/-! DEFINITION. The state of RIN and FET: the intake FIFO, the job slots, the stream windows and the forwarder (R113 to R137). -/

set_option Elab.async false

namespace Sys2Proof.Machine

/-- The slot states of R127. -/
inductive SlotSt where
  | empty | loading | sealing | ready | printing | draining
  deriving DecidableEq, Repr

/-- The slot state code of R127. -/
def SlotSt.code : SlotSt → Nat
  | .empty => 0 | .loading => 1 | .sealing => 2 | .ready => 3 | .printing => 4 | .draining => 5

/-- What the local consumer made of a visible block (R123, R125). -/
inductive Taken where
  | waiting | stored | codecError | unknownJob
  deriving DecidableEq, Repr

/-- A visible block in the intake FIFO. -/
structure FifoBlock where
  codec : Nat
  jobId : Nat
  barMask : Nat
  kind : Nat
  generation : Nat
  firstLine : Nat
  lineCount : Nat
  sequence : Nat
  payload : Bytes
  /-- Header, payload and trailer, in 32-byte words. -/
  words : Nat
  /-- The slot whose JobId and Generation the block matched. -/
  slot : Nat
  taken : Taken
  /-- Sent to the partner, and not yet acknowledged; times its sending failed; acknowledged (R124). -/
  sent : Bool
  fails : Nat
  acked : Bool
  /-- The status the partner acknowledged it with (R359). -/
  partner : Option Nat
  /-- It came from the partner, not over the Raster port (R359). -/
  fwd : Bool
  deriving DecidableEq, Repr

/-- A stream window block of a bar (R129): its slot, its first design line, the lines it holds (none for an empty line),
how many FET has fetched. -/
structure WindowBlock where
  slot : Nat
  first : Nat
  lines : List (Option Bytes)
  fetched : Nat
  deriving DecidableEq, Repr

/-- A bar's stream in a slot (R127, R129): the next FirstLine expected, whether its Kind 2 block was accepted, the end of
its job once that block is decoded. -/
structure Stream where
  expected : Nat
  ended : Bool
  endLine : Option Nat
  deriving DecidableEq, Repr

/-- A stream before its first block. -/
def Stream.start : Stream := { expected := 0, ended := false, endLine := none }

/-- A job slot (R127): its state, the valid plane lines (key: bar * 2^24 + design line), the last decoded line of each bar
with its number (R118), the streams of its bars. -/
structure Slot where
  st : SlotSt
  valid : List (Nat × Unit)
  prev : Vector (Option (Nat × Bytes)) 8
  streams : Vector Stream 8
  deriving DecidableEq, Repr

/-- An empty slot. -/
def Slot.start : Slot :=
  { st := .empty, valid := [], prev := Vector.replicate 8 none, streams := Vector.replicate 8 Stream.start }

/-- RIN, in RFE. -/
structure Rin where
  linkUp : Bool
  /-- The port trains again by itself after a loss of its link (R115). -/
  retrain : Bool
  /-- Lanes 32 to 35 with block lock. -/
  locked : Nat
  /-- RP_XON by the watermarks alone (R121). -/
  xon : Bool
  overrun : Bool
  fifo : List FifoBlock
  slots : Vector Slot 2
  /-- The stream window of each bar, at most two blocks (R129). -/
  windows : Vector (List WindowBlock) 8
  /-- The job writer waits on a frozen channel; a bar whose window blocks decoding. -/
  writerWaiting : Bool
  blockedBar : Option Nat
  fwdStopped : Bool
  deriving DecidableEq, Repr

/-- RIN as the switch-on of RFE leaves it. -/
def Rin.start : Rin :=
  { linkUp := false, retrain := false, locked := 0, xon := true, overrun := false, fifo := [], slots := Vector.replicate 2 Slot.start,
    windows := Vector.replicate 8 [], writerWaiting := false, blockedBar := none, fwdStopped := false }

/-- Where FET issues next for a bar (R131, R132, R231). -/
structure BarJob where
  /-- The slot the next line comes from. -/
  slot : Option Nat
  /-- The running number of that line since the bar's mark, and its print line p in its job. -/
  idx : Nat
  p : Nat
  /-- The highest repeat index of the lines issued from the current job. -/
  topRepeat : Option Nat
  /-- No further line is issued: the job ends for the bar after those issued. -/
  ended : Bool
  /-- The job that follows the bar's repeat N, once it is fixed; none in it when the job ends. -/
  follow : Option (Option Nat)
  /-- The next line comes from the job that follows in the change in progress (R132). -/
  moved : Bool
  /-- The bar has taken the change or end of the job change in progress (R132). -/
  changed : Bool
  /-- The design line fetched last: slot, number, pixels (none for an empty line). -/
  held : Option (Nat × Nat × Option Bytes)
  /-- The running number of the line issued last with pixels. -/
  last : Option Nat
  deriving DecidableEq, Repr

/-- A bar that prints no job. -/
def BarJob.start : BarJob :=
  { slot := none, idx := 0, p := 0, topRepeat := none, ended := false, follow := none, moved := false, changed := false, held := none,
    last := none }

/-- FET, in RFE. -/
structure Fet where
  bars : Vector BarJob 8
  /-- A job change is in progress: a bar has issued or reached its repeat N (R132). -/
  change : Bool
  deriving DecidableEq, Repr

/-- FET as the switch-on of RFE leaves it. -/
def Fet.start : Fet := { bars := Vector.replicate 8 BarJob.start, change := false }

end Sys2Proof.Machine
end

