-- ==== Sys2Proof/Machine/ThermState.lean ====
section
/-! DEFINITION. The state of PWR's thermal model, housekeeping round, band and throttle ladder (R405 to R424).
Temperatures, powers and scales are binary32 numbers, held exactly. -/

set_option Elab.async false

namespace Sys2Proof.Machine

/-- PWR's thermal part, in MGT. -/
structure Therm where
  t : Vector Rat 24
  off : Vector Rat 24
  /-- scale of the eight supplies, in the order of housekeeping channels 8 to 15. -/
  scale : Vector Rat 8
  reading : Vector Rat 24
  /-- p[i] of the last update, in W. -/
  power : Vector Rat 24
  /-- Estimated power by supply summed over the updates of the round, and their number. -/
  sums : Vector Rat 8
  updates : Nat
  /-- The last housekeeping conversion of each diode, in m°C; none where it failed. -/
  diodes : Vector (Option Int) 8
  valid : Vector Bool 8
  residual : Vector Rat 8
  residualHigh : Vector Bool 8
  supplyOut : Vector Bool 8
  /-- The next housekeeping channel. -/
  channel : Nat
  /-- The round's last channel has been read, and its end is still to come (R408). -/
  roundRead : Bool
  /-- The first round has ended. -/
  modelValid : Bool
  tHot : Rat
  hottest : Nat
  fromDiodes : Bool
  band : Nat
  bandTick : Nat
  level : Nat
  lastRise : Option Nat
  lastChange : Option Nat
  atTop : Bool
  tripPending : Bool
  tripTick : Nat
  /-- The tick of the last value at or above 115 °C during trip pending. -/
  lastHot : Nat
  /-- SNE islands that run at the ladder's frequency. -/
  selected : Vector Bool 17
  deriving DecidableEq, Repr

/-- The thermal part as the switch-on of MGT leaves it at tick `now`. -/
def Therm.start (now : Nat) : Therm :=
  { t := Vector.replicate 24 0, off := Vector.replicate 24 0, scale := Vector.replicate 8 1, reading := Vector.replicate 24 0,
    power := Vector.replicate 24 0, sums := Vector.replicate 8 0, updates := 0, diodes := Vector.replicate 8 none,
    valid := Vector.replicate 8 false, residual := Vector.replicate 8 0, residualHigh := Vector.replicate 8 false,
    supplyOut := Vector.replicate 8 false, channel := 0, roundRead := false, modelValid := false, tHot := 0, hottest := 255, fromDiodes := true,
    band := 0, bandTick := now, level := 0, lastRise := none, lastChange := none, atTop := false, tripPending := false,
    tripTick := 0, lastHot := 0, selected := Vector.replicate 17 false }

end Sys2Proof.Machine
end

