-- ==== Sys2Proof/Machine/State.lean ====
section
/-! DEFINITION. The whole state of the device as plain data, its state after a power-on reset, and why a step stops. -/

set_option Elab.async false

namespace Sys2Proof.Machine

/-- What is fused into a part: the MirrorOption fuse (R4), the serial number, the MAC address (R90), the root key digest and
the least security version of boot (R36). -/
structure Fuses where
  mirror : Bool
  serial : Nat
  mac : Nat
  keyHash : BitVec 384
  security : Nat
  deriving DecidableEq, Repr

/-- DIC as the switch-on of MGT leaves it. -/
def Wilwa.start : Wilwa :=
  { sessions := Vector.replicate 4 none, transfers := [], rejected := [], lockout := false, areas := [], shadow := [],
    staged := [], cycSid := 0, txSample := none, rxWaiting := none, boundary := none, cycles := [], rxApplied := false, rxMissRun := 0 }

/-- FLT as the switch-on of MGT leaves it. -/
def Flt.start : Flt :=
  { queue := [], lost := 0, history := [], reactions := [], counts := [], errPin := false, errFirst := 0, broken := [],
    snapWanted := false }

/-- BBX of a part whose VDD_AON has just come up, nothing in its ring or its store. -/
def Bbx.start : Bbx :=
  { nextSeq := 1, ring := [], slots := [], writing := none, deferred := 0, lastStart := none, pfailLow := false,
    pfailRose := none, stopped := false, waiting := [] }

/-- PWR after a power-on reset, PORST_N low (R35). -/
def Pwr.start : Pwr :=
  { dev := .reset, supplies := true, aon := true, aonKept := false, porst := false, trip := false, tripDown := false,
    bootHeld := false, bootKept := [], prevBoot := 3, bootTick := 0,
    progress := { target := 0, step := 0, unit := 0, result := 0, busy := false }, trans := none, entryNs := 0, entryEra := 0,
    doms := resetDoms, domOn := Vector.replicate 12 0, domWork := none, chipPending := none, cause := 0, resets := [] }

/-- The state of the device. -/
structure State where
  /-- Commands that wait, first in, first out. -/
  pending : List Instr
  /-- The SYSREF tick count (R12). -/
  tick : Nat
  /-- Free values taken so far. -/
  fresh : Nat
  /-- What has left the device and its head driver modules, oldest first. -/
  sent : List Emission
  fuses : Fuses
  /-- Dictionary objects that do not read their default (R70). -/
  objs : List (Nat × Val)
  pwr : Pwr
  flt : Flt
  bbx : Bbx
  wilwa : Wilwa
  nonVol : NonVol
  net : Net
  tim : Tim
  rin : Rin
  fet : Fet
  mem : Vector Mch 4
  /-- DRAM cells, by channel * 2^40 + channel-local address; an unlisted cell reads 0 (assumption 4). -/
  dram : List Host.Cell
  pos : Vector Pch 12
  lcg : Vector Lcg 8
  cmp : Vector Cmp 16
  sne : Sne
  fsq : Fsq
  hlk : Hlk
  hdms : Vector Hdm 32
  hdg : Hdg
  vis : Vis
  che : Che
  mir : Mir
  therm : Therm
  /-- What the AON comparator last converted of each diode, in m°C (R417). -/
  aonDiodes : Vector (Option Int) 8
  /-- The level of FIRE_EN (R243). -/
  fireEn : Bool
  deriving DecidableEq, Repr

/-- The device right after a power-on reset: the state RESET with PORST_N low, AON, MGT and NET on (R23, R35). -/
def State.reset : State :=
  { pending := [], tick := 0, fresh := 0, sent := [],
    fuses := { mirror := false, serial := 0, mac := 0, keyHash := 0, security := 0 },
    objs := [], pwr := Pwr.start, flt := Flt.start, bbx := Bbx.start, wilwa := Wilwa.start,
    nonVol := { operator := none, service := none }, net := Net.start, tim := Tim.start 0, rin := Rin.start, fet := Fet.start,
    mem := Vector.replicate 4 Mch.start, dram := [], pos := Vector.replicate 12 Pch.start, lcg := Vector.replicate 8 Lcg.start,
    cmp := Vector.replicate 16 Cmp.start, sne := Sne.start, fsq := Fsq.start, hlk := Hlk.start,
    hdms := Vector.replicate 32 Hdm.start, hdg := Hdg.start, vis := Vis.start, che := Che.start, mir := Mir.start .solo,
    therm := Therm.start 0, aonDiodes := Vector.replicate 8 none, fireEn := false }

/-- Why a command stops the machine. -/
inductive Fault where
  /-- Raised by MEMORY_REQUEST at a system address beyond the fitted DRAM (R141). Safe: nothing stands at that address. -/
  | noSuchAddress (addr : Nat)
  deriving DecidableEq, Repr

/-- Why a command has no meaning. -/
inductive Refusal where
  /-- Raised by the dispatch for a row that has no meaning in this model. Safe: no claim is made of it. -/
  | notModelled (mnemonic : String)
  deriving DecidableEq, Repr

end Sys2Proof.Machine
end

