-- ==== Sys2Proof/Machine/Ops.lean ====
section
/-! DEFINITION. The named operations over the state: objects, counters, time, free values, reports, power domains. -/

set_option Elab.async false

namespace Sys2Proof.Machine

/-- A U8 field of a record or payload. -/
def u8 (n : Nat) : Bytes := leBytes 1 n
/-- A U16 field. -/
def u16 (n : Nat) : Bytes := leBytes 2 n
/-- A U32 field. -/
def u32 (n : Nat) : Bytes := leBytes 4 n
/-- A U48 field. -/
def u48 (n : Nat) : Bytes := leBytes 6 n
/-- A U64 field. -/
def u64 (n : Nat) : Bytes := leBytes 8 n

/-- The table row that covers an object: its area's administration objects, its area's table (R70, R74). -/
def findRow (idx sub : Nat) : Option Desc :=
  ((adminTable (idx / 256)).find? (·.covers idx sub)).orElse fun _ => (areaTable (idx / 256)).find? (·.covers idx sub)

/-- The highest subindex of an index; none where no row has the index. -/
def topSub (idx : Nat) : Option Nat :=
  ((adminTable (idx / 256) ++ areaTable (idx / 256)).filter fun d => d.idx ≤ idx && idx ≤ d.idxHi).foldl
    (fun a d => some (max (a.getD 0) d.subHi)) none

/-- The description of an object: its table row, or sub 00 of an index of the tables (R70). -/
def findDesc (idx sub : Nat) : Option Desc :=
  match findRow idx sub with
  | some d => some d
  | none => if sub = 0 then (topSub idx).map (subZero idx) else none

/-- What an object reads as while nothing is listed for it. -/
def defaultVal (idx sub : Nat) : Val :=
  match findDesc idx sub with
  | some d => d.default idx sub
  | none => .num 0

/-- The value of an object. -/
def State.obj (s : State) (idx sub : Nat) : Val := (kvGet s.objs (key idx sub)).getD (defaultVal idx sub)

/-- The number an object holds. -/
def State.num (s : State) (idx sub : Nat) : Nat := (s.obj idx sub).toNum

/-- The bytes an object holds. -/
def State.bytes (s : State) (idx sub : Nat) : Bytes := (s.obj idx sub).toBytes

/-- The object set to a value. -/
def State.setObj (s : State) (idx sub : Nat) (v : Val) : State :=
  { s with objs := kvSet s.objs (defaultVal idx sub) (key idx sub) v }

/-- The object set to a number. -/
def State.setNum (s : State) (idx sub n : Nat) : State := s.setObj idx sub (.num n)

/-- The width of an object's number in bits (R70). -/
def objWidth (idx sub : Nat) : Nat := 8 * ((findDesc idx sub).bind (·.ty.size)).getD 4

/-- A counter raised by `n`, wrapping at its width (assumption 5). -/
def State.addNum (s : State) (idx sub n : Nat) : State := s.setNum idx sub ((s.num idx sub + n) % 2 ^ objWidth idx sub)

/-- A counter raised by 1. -/
def State.bump (s : State) (idx sub : Nat) : State := s.addNum idx sub 1

/-- A maximum since its last read, raised where `n` is larger. -/
def State.raiseMax (s : State) (idx sub n : Nat) : State := if s.num idx sub < n then s.setNum idx sub n else s

/-- Every object for which `p` holds back at its default. -/
def State.clearObjs (s : State) (p : Nat → Nat → Bool) : State :=
  { s with objs := s.objs.filter fun e => !p (e.1 / 256) (e.1 % 256) }

/-- One more thing that leaves the device. -/
def State.emit (s : State) (e : Emission) : State := { s with sent := s.sent ++ [e] }

/-- The next free value, and the state in which it is used up (assumption 3). -/
def State.free (s : State) : Nat × State := (Config.freeNat s.fresh, { s with fresh := s.fresh + 1 })

/-- A free value below `n`. -/
def State.freeBelow (s : State) (n : Nat) : Nat × State :=
  (if n = 0 then 0 else Config.freeNat s.fresh % n, { s with fresh := s.fresh + 1 })

/-- What the field of object `idx` of `w` bits holds of a computed number: the number, or a free value where it does not fit
(assumption 65). -/
def fitted (idx w n : Nat) : Nat := if n < 2 ^ w then n else (Config.wide idx n).toNat % 2 ^ w

/-- A number read in a field of `w` bits; a number that the field cannot hold is free (assumption 65). -/
def State.fit (s : State) (w n : Nat) : Nat × State := if n < 2 ^ w then (n, s) else s.freeBelow (2 ^ w)

/-- An integer in an I32; one that an I32 cannot hold is free (assumption 65). -/
def State.fitInt (s : State) (x : Int) : Int × State :=
  if -(2 ^ 31) ≤ x ∧ x < 2 ^ 31 then (x, s)
  else let (v, s) := s.freeBelow (2 ^ 32)
       (toSigned 32 v, s)

/-- `k` free bytes. -/
def State.freeBytes (s : State) (k : Nat) : Bytes × State :=
  ((List.range k).map fun i => BitVec.ofNat 8 (Config.freeNat (s.fresh + i)), { s with fresh := s.fresh + k })

/-- A quotient the manual does not say how to round: rounded down, or up where it is not whole, as a free value says. -/
def State.freeQuot (s : State) (a : Int) (b : Nat) : Int × State :=
  if b = 0 ∨ a % (b : Int) = 0 then (Int.fdiv a b, s)
  else (Int.fdiv a b + ((Config.freeNat s.fresh % 2 : Nat) : Int), { s with fresh := s.fresh + 1 })

/-- A power domain is ON (R42). -/
def State.on (s : State) (d : Nat) : Bool := vget s.pwr.doms d .off == .on

/-- The anchor set in force at a tick: the latest announced one whose AnchorTick is reached (R12). -/
def State.anchorAt (s : State) (t : Nat) : Anchor := (s.tim.announced.find? fun a => a.tick ≤ t).getD s.tim.anchor

/-- The anchor set in force (R12). -/
def State.anchor (s : State) : Anchor := s.anchorAt s.tick

/-- A clock's time in 2^-32 ns at a tick, before or after the anchor's. -/
def Anchor.at (a : Anchor) (t : Nat) : Nat := ((a.e : Int) + ((t : Int) - (a.tick : Int)) * (a.inc : Int)).toNat

/-- Native time E, 48 bits of whole ns (R97). -/
def State.eNow (s : State) : Nat := s.anchor.at s.tick / 2 ^ 32 % 2 ^ 48

/-- The conversion of a tick count to a 32-bit stamp by an anchor set (R12). -/
def Anchor.stamp (a : Anchor) (t : Nat) : Nat :=
  let delta := ((t : Int) - (a.tick : Int)) % 2 ^ 40
  let ns := ((a.e : Int) + delta * (a.inc : Int)) % 2 ^ 64
  ((ns.toNat + 2 ^ 31) / 2 ^ 32) % 2 ^ 32

/-- The stamp of a tick, by the set in force then; of a tick before the time start, by that start's set run backwards
(assumption 67). -/
def State.stampAt (s : State) (t : Nat) : Nat :=
  let a := s.anchorAt t
  if a.tick ≤ t then a.stamp t else (a.at t + 2 ^ 31) / 2 ^ 32 % 2 ^ 32

/-- The 32-bit stamp of the present tick. -/
def State.stamp (s : State) : Nat := s.stampAt s.tick

/-- A 32-bit stamp extended against a reference time (R106). -/
def extend (ref stamp : Nat) : Nat :=
  let d : Nat := (stamp + 2 ^ 32 - ref % 2 ^ 32) % 2 ^ 32
  let di : Int := if d < 2 ^ 31 then (d : Int) else (d : Int) - 2 ^ 32
  (((ref : Int) + di) % ((2 ^ 48 : Nat) : Int)).toNat

/-- The present stamp with its era. -/
def State.stamp48 (s : State) : Nat := extend s.eNow s.stamp

/-- FLT runs and takes reports: MGT is ON and the boot has passed its step 7 (R451). -/
def State.fltRuns (s : State) : Bool :=
  s.on domMGT && s.pwr.dev != .reset && s.pwr.dev != .boot && s.pwr.dev != .off

/-- The report comes before another of the same tick: lower island, or the same and lower source (R379). -/
def Report.before (a b : Report) : Bool :=
  a.tick < b.tick || (a.tick == b.tick && (a.island < b.island || (a.island == b.island && a.source ≤ b.source)))

/-- A report put into the queue behind every report that comes before it. -/
def queueReport (r : Report) (l : List Report) : List Report :=
  l.takeWhile (·.before r) ++ r :: l.dropWhile (·.before r)

/-- The power domain of a block (R7). -/
def blockDomain (b : Block) : Nat :=
  match b.area with
  | 0x27 => if b.unit ≤ 8 then domSN0 else domSN1
  | 0x23 => if b.unit ≤ 1 then domMEMA else domMEMB
  | 0x31 => domAON
  | 0x32 => domMIR
  | a => areaDomain a

/-- The block is bolted (R401). -/
def State.bolted (s : State) (b : Block) : Bool := (boltBit b).any fun x => bit (s.num 0x2F14 x.1) x.2

/-- The block's rails are ignored: its domain is not ON or has just come ON, it is in block reset, or it is bolted (R376). -/
def State.railIgnored (s : State) (b : Block) : Bool :=
  !s.on (blockDomain b) || s.tick < vget s.pwr.domOn (blockDomain b) 0 + 16 || s.bolted b
    || s.pwr.resets.any fun r => r.1 == b.area && (r.2 == b.unit || r.2 == 255)

/-- In latch mode an error present at a block sets its bit of LatchWord (R377). -/
def State.latchRail (s : State) (b : Block) : State :=
  match latchNumber b with
  | some n => if s.num 0x2F10 1 = 0 && !s.railIgnored b then s.setNum 0x2F10 2 (s.num 0x2F10 2 ||| 2 ^ n) else s
  | none => s

/-- A unit holds its rails at error until FLT has taken its report; a record reports no error (R371, R375). -/
def State.noteRail (s : State) (r : Report) : State := if sourceIsRecord r.source then s else s.latchRail (railBlock r.source)

/-- A report sent to FLT: queued, or lost at a full queue, or kept in AON while FLT does not run (R375, R379, R451). -/
def State.send (s : State) (r : Report) : State :=
  if s.fltRuns then
    let s := s.noteRail r
    if s.flt.queue.length < 64 then { s with flt := { s.flt with queue := queueReport r s.flt.queue } }
    else ({ s with flt := { s.flt with lost := s.flt.lost + 1 } } : State).bump 0x2F10 4
  else { s with bbx := { s.bbx with waiting := s.bbx.waiting ++ [r] } }

/-- The report that a unit makes of a source now. -/
def State.mkReport (s : State) (src cause : Nat) (data : Bytes) : Report :=
  { source := src, cause := cause, unit := sourceUnit src, island := sourceIsland src, stamp := s.stamp, tick := s.tick,
    data := data }

/-- A source raised now, with its cause byte and its data (R373, R375). -/
def State.raise (s : State) (src cause : Nat) (data : Bytes) : State := s.send (s.mkReport src cause data)

/-- The reaction that is set for a source (R380). -/
def State.reaction (s : State) (src : Nat) : Reaction := (kvGet s.flt.reactions src).getD { byte := 1, fallback := 0 }

/-- A report of the source will be applied with BOLT: normal mode, and its reaction holds BOLT (R380, R381). -/
def State.willBolt (s : State) (src : Nat) : Bool := s.num 0x2F10 1 == 1 && bit (s.reaction src).byte 1

/-- The unit is bolted (R401). -/
def State.boltedEngine (s : State) (n : Nat) : Bool := bit (s.num 0x2F14 1) n
/-- The lane is bolted. -/
def State.boltedLane (s : State) (l : Nat) : Bool := bit (s.num 0x2F14 2) l
/-- The camera port is bolted. -/
def State.boltedPort (s : State) (p : Nat) : Bool := bit (s.num 0x2F14 3) p
/-- The compare unit is bolted. -/
def State.boltedCmp (s : State) (u : Nat) : Bool := bit (s.num 0x2F14 4) u
/-- CHE is bolted. -/
def State.boltedChe (s : State) : Bool := bit (s.num 0x2F14 5) 0
/-- IPL is bolted. -/
def State.boltedIpl (s : State) : Bool := bit (s.num 0x2F14 5) 1
/-- HDG is bolted. -/
def State.boltedHdg (s : State) : Bool := bit (s.num 0x2F14 5) 2

/-- The actions of R31 hold: FROZEN, a latched trip (R418), or a chip reset that a reaction asked for (R387). -/
def State.halted (s : State) : Bool := s.pwr.dev == .frozen || s.pwr.trip || s.pwr.chipPending == some 3

/-- The device state is one of those listed. -/
def State.inStates (s : State) (l : List DevState) : Bool := l.contains s.pwr.dev

/-- A bar's FSQ state. -/
def State.bar (s : State) (b : Nat) : BarFsq := vget s.fsq.bars b BarFsq.start

/-- A bar's FSQ state changed. -/
def State.modBar (s : State) (b : Nat) (f : BarFsq → BarFsq) : State :=
  { s with fsq := { s.fsq with bars := vmod s.fsq.bars b f } }

/-- A bar's line clock changed. -/
def State.modLcg (s : State) (b : Nat) (f : Lcg → Lcg) : State := { s with lcg := vmod s.lcg b f }

/-- A bar's FET state changed. -/
def State.modJob (s : State) (b : Nat) (f : BarJob → BarJob) : State :=
  { s with fet := { s.fet with bars := vmod s.fet.bars b f } }

/-- A head lane. -/
def State.lane (s : State) (l : Nat) : Hln := vget s.hlk.lanes l Hln.start

/-- A head lane changed. -/
def State.modLane (s : State) (l : Nat) (f : Hln → Hln) : State :=
  { s with hlk := { s.hlk with lanes := vmod s.hlk.lanes l f } }

/-- A head lane is given a block or frame to send. -/
def State.laneSend (s : State) (l : Nat) (f : LaneTx) : State := (s.emit (.lane l f)).modLane l fun x => { x with tx := x.tx.ask f }

/-- The partner link passes frames: MIR reports it up and paired (R124). -/
def State.linkWarm (s : State) : Bool := s.on domMIR && s.mir.link && s.mir.st == .warm

/-- A frame of the Icsel link (R349). -/
def linkFrame (ty format seq cycle stamp flags : Nat) (payload : Bytes) : Bytes :=
  let h := u16 0x4943 ++ u8 ty ++ u8 format ++ u32 seq ++ u32 payload.length ++ u32 cycle ++ u48 stamp ++ u16 flags ++ u32 0
  let h := h ++ u32 (crc32c h)
  h ++ padTo (ceilDiv payload.length 32 * 32) payload ++ padTo 32 (u32 (crc32c (h ++ payload)) ++ u32 seq ++ u16 0x4945)

/-- A frame sent to the partner while the link is up (R349). -/
def State.linkSend (s : State) (ty flags : Nat) (payload : Bytes) : State :=
  if s.on domMIR && s.mir.link then
    let s := s.emit (.link (linkFrame ty (if ty = 1 then 0 else s.mir.format) s.mir.seq s.mir.cycle s.stamp48 flags payload))
    { s with mir := { s.mir with seq := (s.mir.seq + 1) % 2 ^ 32 } }
  else s

/-- The ACTIVE tells its partner of a bar's Reference: captured, downloaded or cleared (R350, R355). -/
def State.sendRef (s : State) (b : Nat) : State :=
  if s.linkWarm && s.mir.role == .active && s.mir.format == 2 then
    let r := s.bytes 0x2819 (b + 1)
    s.linkSend 8 0 (u8 b ++ u8 (b2n (!r.isEmpty)) ++ u16 (r.length / 16) ++ u32 0 ++ r)
  else s

/-- A memory channel. -/
def State.chan (s : State) (c : Nat) : Mch := vget s.mem c Mch.start

/-- A memory channel changed. -/
def State.modChan (s : State) (c : Nat) (f : Mch → Mch) : State := { s with mem := vmod s.mem c f }

/-- A job slot. -/
def State.slot (s : State) (k : Nat) : Slot := vget s.rin.slots k Slot.start

/-- A job slot changed. -/
def State.modSlot (s : State) (k : Nat) (f : Slot → Slot) : State :=
  { s with rin := { s.rin with slots := vmod s.rin.slots k f } }

/-- A step done for every number below `n`, in order. -/
def forRange (n : Nat) (f : Nat → State → State) (s : State) : State := (List.range n).foldl (fun s i => f i s) s

/-- A step done for every member of a list, in order. -/
def forEach {α : Type} (l : List α) (f : α → State → State) (s : State) : State := l.foldl (fun s i => f i s) s

/-- Some bar's run state is the one given. -/
def State.anyBar (s : State) (p : BarFsq → Bool) : Bool := s.fsq.bars.toList.any p

/-- Some bar prints (BarRunState 2). -/
def State.anyPrinting (s : State) : Bool := s.anyBar fun b => b.run == .printing

end Sys2Proof.Machine
end

