-- ==== Sys2Proof/Machine/NozzleMap.lean ====
section
/-! DEFINITION. Nozzle maps and what follows from them: addresses, zones, slices, D_pf, head lanes and waveform tables
(R14, R198, R201, R202, R223, R240, R258). -/

set_option Elab.async false

namespace Sys2Proof.Machine

/-- A nozzle map entry (R201). -/
structure Addr where
  gain : Nat
  column : Nat
  state : Nat
  stitch : Nat
  ramp : Nat
  head : Nat
  element : Nat
  deriving DecidableEq, Repr, Inhabited

/-- The fields of an entry's 64 bits (R201). -/
def Addr.ofNat (v : Nat) : Addr :=
  { gain := bits v 63 48, column := bits v 47 31, state := bits v 30 29, stitch := bits v 28 27, ramp := bits v 26 19,
    head := bits v 18 13, element := bits v 12 0 }

/-- The map of a byte string: one entry for every 8 bytes, in address order (R201). -/
def mapOf (b : Bytes) : List Addr := (List.range (b.length / 8)).map fun i => Addr.ofNat (leAt b (8 * i) 8)

/-- The committed nozzle map of a bar. -/
def State.map (s : State) (b : Nat) : List Addr := mapOf (s.bytes 0x2710 (b + 1))

/-- The highest column of a map; the last address has it (R202). -/
def highColumn (m : List Addr) : Nat := (m.getLast?.map (·.column)).getD 0

/-- ZoneCount of a map (R223). -/
def zonesOf (m : List Addr) (zw : Nat) : Nat := if m.isEmpty then 0 else ceilDiv (highColumn m + 1) zw

/-- The slice boundaries of a map, bnd[0] to bnd[16] (R198). -/
def boundsOf (m : List Addr) : List Nat :=
  (List.range 17).map fun k =>
    let x := k * m.length / 16
    if 0 < k ∧ k < 16 ∧ 0 < x ∧ (m.getD (x - 1) default).column = (m.getD x default).column then x + 1 else x

/-- The slice of an address. -/
def sliceOf (bnd : List Nat) (a : Nat) : Nat := ((List.range 16).filter fun k => bnd.getD k 0 ≤ a).length - 1

/-- D_pf over the committed maps (R14); at its reset value while no bar has one. -/
def State.depth (s : State) : Nat :=
  let bytes := (List.range 8).foldl (fun n b => n + ceilDiv ((s.map b).length * 3) 512 * 64) 0
  if bytes = 0 then 64 else min 64 (18874368 / bytes)

/-- The states in which D_pf and the slice boundaries stay as they are (R203). -/
def runStates : List DevState := [.armed, .printing, .held, .frozen]

/-- What follows from a newly committed map or zone width of a bar: AddressCount, ZoneCount, SliceBoundaries and PreFireDepth
(R14, R198, R203, R223). -/
def State.mapCommitted (s : State) (b : Nat) : State :=
  let m := s.map b
  let s := (s.setNum 0x2711 (b + 1) m.length).setNum 0x2713 (b + 1) (zonesOf m (s.num 0x2712 (b + 1)))
  if s.inStates runStates then s
  else
    let s := s.setObj 0x2720 (b + 1) (.bytes ((boundsOf m).flatMap u32))
    s.setNum 0x1200 9 s.depth

/-- Two neighbouring addresses of a map keep the column rules: no fall, and a shared column holds a leading and a trailing
member of two heads (R202). -/
def pairOk (a c : Addr) : Bool :=
  a.column ≤ c.column && (a.column != c.column || (a.stitch == 1 && c.stitch == 2 && a.head != c.head))

/-- Neighbours in the map keep the rules, and no column holds three addresses. -/
def neighboursOk : List Addr → Bool
  | a :: c :: r => pairOk a c && (match r with
      | d :: _ => c.column != d.column || a.column != c.column
      | [] => true) && neighboursOk (c :: r)
  | _ => true

/-- Every address with a pair code stands in a pair. -/
def pairsStand (m : List Addr) : Bool :=
  (List.range m.length).all fun i =>
    let a := m.getD i default
    (a.stitch != 1 || (m[i + 1]?).any (fun c => c.column == a.column && c.stitch == 2))
      && (a.stitch != 2 || (i != 0 && (m[i - 1]?).any (fun c => c.column == a.column && c.stitch == 1)))

/-- The longest run of consecutive columns that hold pairs; `run` columns end at column `at`. -/
def longestRun : List Nat → Nat → Nat → Nat → Nat
  | [], _, run, best => max run best
  | c :: cs, last, run, best => if c = last + 1 ∧ 0 < run then longestRun cs c (run + 1) best else longestRun cs c 1 (max run best)

/-- The rules of R202 on a map by itself. -/
def mapOk (b : Bytes) (zw : Nat) : Bool :=
  let m := mapOf b
  b.length % 8 == 0 && 256 ≤ m.length && m.length ≤ 131072 && neighboursOk m && pairsStand m
    && longestRun ((m.filter (·.stitch == 1)).map (·.column)) 0 0 0 ≤ 128
    && m.all (fun a => a.state != 3 && a.stitch != 3) && zonesOf m zw ≤ 512

/-- Lengths that ToneCurve and ZoneGain may have for a zone count (R223); a built-in curve is held as no bytes. -/
def curveOk (b : Bytes) (zones : Nat) : Bool := b.isEmpty || b.length == 512 || b.length == zones * 512
/-- Lengths of ZoneGain. -/
def gainOk (b : Bytes) (zones : Nat) : Bool := b.isEmpty || b.length == zones * 2

/-- The bar a lane serves, FFh for a spare lane (R258). -/
def State.laneBar (s : State) (l : Nat) : Nat := s.num 0x2A10 (l + 1)

/-- A lane carries a head of a bar, by the assignment that `get` reads (R258). -/
def laneCarries (get : Nat → Nat → Val) (l b h : Nat) : Bool :=
  let first := (get 0x2A11 (l + 1)).toNum
  (get 0x2A10 (l + 1)).toNum == b && first ≤ h && h < first + (get 0x2A12 (l + 1)).toNum

/-- The lanes of a bar. -/
def State.lanesOf (s : State) (b : Nat) : List Nat := (List.range 32).filter fun l => s.laneBar l == b

/-- The heads that a lane carries, by lane-local index (R258). -/
def State.laneHeads (s : State) (l : Nat) : List Nat :=
  (List.range (s.num 0x2A12 (l + 1))).map fun i => s.num 0x2A11 (l + 1) + i

/-- A lane of the job: its bar lies in LaneTrainMask (R270). -/
def State.jobLane (s : State) (l : Nat) : Bool := s.laneBar l < 8 && bit (s.num 0x2A20 1) (s.laneBar l)

/-- A waveform table is well formed: kind, segments, last segment at level 0, no negative level for a resistive head (R240). -/
def waveOk (b : Bytes) : Bool :=
  let n := leAt b 1 1
  let level := fun (i : Nat) => toSigned 16 (leAt b (18 + 8 * i) 2)
  b.isEmpty || ((leAt b 0 1 == 1 || leAt b 0 1 == 2) && 1 ≤ n && n ≤ 64 && b.length == 16 + 8 * n
    && leAt b 2 2 == 0 && leAt b 12 4 == 0 && level (n - 1) == 0
    && (List.range n).all fun i => 1 ≤ leAt b (16 + 8 * i) 2 && leAt b (20 + 8 * i) 1 ≤ 1 && leAt b (21 + 8 * i) 3 == 0
      && (if leAt b 0 1 = 2 then 0 ≤ level i else -4000 ≤ level i && level i ≤ 4000))

/-- The total duration of a waveform table in 10 ns units (R242). -/
def waveLength (b : Bytes) : Nat := (List.range (leAt b 1 1)).foldl (fun n i => n + leAt b (16 + 8 * i) 2) 0

/-- The tables of a class, by level from 1. -/
def State.waves (s : State) (k : Nat) : List Bytes := (List.range 7).map fun i => s.bytes (0x2920 + k) (i + 1)

/-- The Kind of the non-empty tables of a class, where there is one. -/
def State.classKind (s : State) (k : Nat) : Option Nat := (s.waves k).findSome? fun b => if b.isEmpty then none else some (leAt b 0 1)

/-- Every table of a class fits a minimum fire period in ns (R242). -/
def wavesFit (waves : List Bytes) (period : Nat) : Bool := waves.all fun b => waveLength b * 10 ≤ period

/-- The frame time of an SSI channel in ns, by its SsiConfig (R175). -/
def ssiFrame (cfg : Nat) : Nat := (bits cfg 5 0 + bits cfg 7 7 + 1) * 20 * (bits cfg 31 20 + 1)

/-- The position channel that a bar runs on (R186). -/
def barChannel (get : Nat → Nat → Val) (b : Nat) : Nat := if (get 0x2620 1).toNum = 1 then (get 0x2620 2).toNum else b

/-- EdgeToTokenLatency of a bar in ns, by the channel settings that `get` reads (R16, R176). -/
def edgeLatency (get : Nat → Nat → Val) (b : Nat) : Nat :=
  let n := fun i => (get i (barChannel get b + 1)).toNum
  49 + (if n 0x2510 = 2 then n 0x2517 + ssiFrame (n 0x2516) else n 0x2512 * n 0x2511 * 10)

/-- MinFireDelay of a bar in 625 ps units, a multiple of 2.5 ns; 0 until its lanes are trained (R17, R20). -/
def State.minDelay (s : State) (get : Nat → Nat → Val) (b : Nat) : Nat :=
  let ls := (s.lanesOf b).map fun l => s.num 0x2A14 (l + 1) / 625
  let top := ls.foldl max 0
  if top = 0 then 0 else ceilDiv (edgeLatency get b * 8 + top * 5) 20 * 4

/-- EdgeToTokenLatency and MinFireDelay of every bar as they read (R20); a half ns of MinFireDelay reads by a free value. -/
def State.delaysChanged (s : State) : State :=
  forRange 8 (fun b s =>
    let (d, s) := s.freeQuot ((s.minDelay s.obj b * 5 : Nat) : Int) 8
    (s.setNum 0x1220 (b + 1) (edgeLatency s.obj b)).setNum 0x1221 (b + 1) d.toNat) s

end Sys2Proof.Machine
end

