-- ==== Sys2Proof/Machine/Crypto.lean ====
section
/-! DEFINITION. The cryptography that the manual names: SHA-256 and SHA-384 (FIPS 180-4), HMAC-SHA-256 (FIPS 198-1; R59, R66, R67) and the
verification of ECDSA signatures over P-384 (FIPS 186-5; R36). The manual names the standards and does not copy them (assumption 66). -/

set_option Elab.async false

namespace Sys2Proof.Machine

/-- The largest `r` with `r ^ k ≤ x`, found bit by bit from bit `n - 1` down. -/
def rootFloor (k x : Nat) : Nat → Nat → Nat
  | 0, r => r
  | n + 1, r => rootFloor k x n (if (r + 2 ^ n) ^ k ≤ x then r + 2 ^ n else r)

/-- The first `w` bits of the fraction of the `k`-th root of a number below 2^(5 k). -/
def rootBits (k w p : Nat) : BitVec w := BitVec.ofNat w (rootFloor k (p * 2 ^ (k * w)) (w + 5) 0)

/-- The primes below 410: eighty of them. -/
def shaPrimes : List Nat := (List.range 410).filter fun n => 2 ≤ n && (List.range 21).all fun d => d < 2 || n ≤ d || n % d != 0

/-- What tells the functions of the SHA-2 family apart: the word's bits, the rounds, the three turns of each mixing function (the third
of the schedule's is a shift), and the roots from which the initial words come. -/
structure Sha2 where
  w : Nat
  rounds : Nat
  low : Nat × Nat × Nat
  high : Nat × Nat × Nat
  sumA : Nat × Nat × Nat
  sumE : Nat × Nat × Nat
  init : List Nat

/-- SHA-256. -/
def shaShort : Sha2 :=
  { w := 32, rounds := 64, low := (7, 18, 3), high := (17, 19, 10), sumA := (2, 13, 22), sumE := (6, 11, 25), init := shaPrimes.take 8 }

/-- SHA-384. -/
def shaLong : Sha2 :=
  { w := 64, rounds := 80, low := (1, 8, 7), high := (19, 61, 6), sumA := (28, 34, 39), sumE := (14, 18, 41),
    init := (shaPrimes.drop 8).take 8 }

/-- The eight working words. -/
structure ShaRegs (w : Nat) where
  a : BitVec w
  b : BitVec w
  c : BitVec w
  d : BitVec w
  e : BitVec w
  f : BitVec w
  g : BitVec w
  h : BitVec w

/-- The working words from a list. -/
def ShaRegs.of {w : Nat} (l : List (BitVec w)) : ShaRegs w :=
  let at_ := fun i => l.getD i 0
  ⟨at_ 0, at_ 1, at_ 2, at_ 3, at_ 4, at_ 5, at_ 6, at_ 7⟩

/-- The working words as a list. -/
def ShaRegs.list {w : Nat} (r : ShaRegs w) : List (BitVec w) := [r.a, r.b, r.c, r.d, r.e, r.f, r.g, r.h]

/-- A word turned right by three distances, the results added bit by bit. -/
def turns {w : Nat} (t : Nat × Nat × Nat) (x : BitVec w) : BitVec w :=
  [t.1, t.2.1, t.2.2].foldl (fun y n => y ^^^ x.rotateRight n) 0

/-- The same with the third a shift. -/
def turnsShift {w : Nat} (t : Nat × Nat × Nat) (x : BitVec w) : BitVec w :=
  [t.1, t.2.1].foldl (fun y n => y ^^^ x.rotateRight n) (x >>> t.2.2)

/-- One round: the working words and the next sixteen words of the schedule, of which the first is used up. -/
def Sha2.round (f : Sha2) (p : ShaRegs f.w × List (BitVec f.w)) (k : BitVec f.w) : ShaRegs f.w × List (BitVec f.w) :=
  let (r, q) := p
  let at_ := fun i => q.getD i 0
  let pick := r.g ^^^ (r.e &&& (r.f ^^^ r.g))
  let vote := (r.a ||| r.b) &&& r.c ||| r.a &&& r.b
  let into := [at_ 0, k, pick, turns f.sumE r.e].foldl (· + ·) r.h
  (⟨vote + turns f.sumA r.a + into, r.a, r.b, r.c, into + r.d, r.e, r.f, r.g⟩,
   q.drop 1 ++ [[at_ 9, turnsShift f.low (at_ 1), turnsShift f.high (at_ 14)].foldl (· + ·) (at_ 0)])

/-- The round constants. -/
def Sha2.constants (f : Sha2) : List (BitVec f.w) := (shaPrimes.take f.rounds).map (rootBits 3 f.w)

/-- The sixteen words of a block, big-endian. -/
def Sha2.words (f : Sha2) (b : Bytes) : List (BitVec f.w) :=
  (List.range 16).map fun i => BitVec.ofNat f.w (beNat (slice b (i * (f.w / 8)) (f.w / 8)))

/-- The chained value after a block. -/
def Sha2.absorb (f : Sha2) (v : List (BitVec f.w)) (b : Bytes) : List (BitVec f.w) :=
  let last := (f.constants.foldl f.round (ShaRegs.of v, f.words b)).1
  List.zipWith (· + ·) v last.list

/-- A message cut into `n` blocks, each absorbed in turn. -/
def Sha2.absorbAll (f : Sha2) : Nat → List (BitVec f.w) → Bytes → List (BitVec f.w)
  | 0, v, _ => v
  | n + 1, v, b => Sha2.absorbAll f n (f.absorb v (b.take (2 * f.w))) (b.drop (2 * f.w))

/-- The first `n` words of the hash of a message. -/
def Sha2.hash (f : Sha2) (n : Nat) (m : Bytes) : Bytes :=
  let block := 2 * f.w
  let blocks := (m.length + 1 + f.w / 4 + block - 1) / block
  let padded := padTo (blocks * block - 8) (m ++ [0x80]) ++ beBytes 8 (m.length * 8)
  ((f.absorbAll blocks (f.init.map (rootBits 2 f.w)) padded).take n).flatMap fun x => beBytes (f.w / 8) x.toNat

/-- SHA-256 of a byte string, 32 bytes. -/
def sha256 (m : Bytes) : Bytes := shaShort.hash 8 m

/-- SHA-384 of a byte string, 48 bytes (R36). -/
def sha384 (m : Bytes) : Bytes := shaLong.hash 6 m

/-- HMAC-SHA-256 of a message under a key, 32 bytes (R59, R66, R67). -/
def hmacSha256 (key m : Bytes) : Bytes :=
  let k := padTo 64 (if key.length > 64 then sha256 key else key)
  sha256 (k.map (· ^^^ 0x5C) ++ sha256 (k.map (· ^^^ 0x36) ++ m))

/-- The field prime of P-384. -/
def p384P : Nat := 2 ^ 384 - 2 ^ 128 - 2 ^ 96 + 2 ^ 32 - 1

/-- The order of the group of P-384. -/
def p384N : Nat := 0xffffffffffffffffffffffffffffffffffffffffffffffffc7634d81f4372ddf581a0db248b0a77aecec196accc52973

/-- The coefficient b of P-384; the coefficient a is -3. -/
def p384B : Nat := 0xb3312fa7e23ee7e4988e056be3f82d19181d9c6efe8141120314088f5013875ac656398d8a2ed19d2a85c8edd3ec2aef

/-- A point of P-384 in Jacobian coordinates; z = 0 is the point at infinity. -/
structure P384 where
  x : Nat
  y : Nat
  z : Nat
  deriving DecidableEq, Repr

/-- The base point of P-384. -/
def p384G : P384 :=
  ⟨0xaa87ca22be8b05378eb1c71ef320ad746e1d3b628ba79b9859f741e082542a385502f25dbf55296c3a545e3872760ab7,
   0x3617de4a96262c6f5d9e98bf9292dc29f8f41dbd289a147ce9da3113b5f0b8c00a60b1ce1d7e819d7a431d7c90ea0e5f, 1⟩

/-- A difference in the field. -/
def p384Sub (a b : Nat) : Nat := (a + (p384P - b % p384P)) % p384P

/-- A point doubled. -/
def P384.double (q : P384) : P384 :=
  let yy := q.y * q.y % p384P
  let zz := q.z * q.z % p384P
  let s := 4 * q.x * yy % p384P
  let m := 3 * (q.x + zz) * p384Sub q.x zz % p384P
  let x := p384Sub (m * m) (2 * s)
  ⟨x, p384Sub (m * p384Sub s x) (8 * (yy * yy)), 2 * q.y * q.z % p384P⟩

/-- The sum of two points. -/
def P384.add (q r : P384) : P384 :=
  if q.z = 0 then r
  else if r.z = 0 then q
  else
    let u := q.x * (r.z * r.z % p384P) % p384P
    let v := q.y * (r.z * r.z % p384P * r.z % p384P) % p384P
    let h := p384Sub (r.x * (q.z * q.z % p384P)) u
    let d := p384Sub (r.y * (q.z * q.z % p384P * q.z % p384P)) v
    if h = 0 then if d = 0 then q.double else ⟨1, 1, 0⟩
    else
      let hh := h * h % p384P
      let hhh := hh * h % p384P
      let x := p384Sub (d * d) (hhh + 2 * (u * hh))
      ⟨x, p384Sub (d * p384Sub (u * hh) x) (v * hhh), q.z * r.z % p384P * h % p384P⟩

/-- The sum of `a` times one point and `b` times another, over their lowest `n` bits. -/
def P384.mulAdd (q r qr : P384) (a b : Nat) : Nat → P384
  | 0 => ⟨1, 1, 0⟩
  | n + 1 =>
    -- the bits come from the highest down: what the shifted scalars give, doubled, and the lowest bit's points
    let t := (P384.mulAdd q r qr (a / 2) (b / 2) n).double
    match a % 2, b % 2 with
    | 0, 0 => t
    | 0, _ => t.add r
    | _, 0 => t.add q
    | _, _ => t.add qr

/-- A power modulo a prime, by the lowest `n` bits of the exponent. -/
def powMod (m b e : Nat) : Nat → Nat
  | 0 => 1 % m
  | n + 1 =>
    let h := powMod m b (e / 2) n
    if e % 2 = 1 then h * h % m * b % m else h * h % m

/-- The inverse modulo a prime below 2^384. -/
def invMod (m b : Nat) : Nat := powMod m (b % m) (m - 2) 384

/-- The point lies on P-384. -/
def P384.valid (q : P384) : Bool :=
  q.x < p384P && q.y < p384P && q.y * q.y % p384P == (p384Sub (q.x * q.x % p384P * q.x) (3 * q.x) + p384B) % p384P

/-- The ECDSA signature (r, s) over a message with this hash verifies under a public key of P-384 (FIPS 186-5, 6.4.2). -/
def ecdsaVerify (q : P384) (hash r s : Nat) : Bool :=
  if !q.valid || r == 0 || p384N ≤ r || s == 0 || p384N ≤ s then false
  else
    let w := invMod p384N s
    let t := P384.mulAdd p384G q (p384G.add q) (hash * w % p384N) (r * w % p384N) 384
    t.z != 0 && t.x * powMod p384P (invMod p384P t.z) 2 384 % p384P % p384N == r

end Sys2Proof.Machine
end

