-- ==== Sys2Proof/Machine/Operands.lean ====
section
/-! DEFINITION. How a datagram is admitted: its header, its session, its tag and its Sequence, and how it is answered
(R56 to R62, R65, R452). -/

set_option Elab.async false

namespace Sys2Proof.Machine

/-- LinkStatus of an external port, 1 or 2 (R108). -/
def State.linkUp (s : State) (port : Nat) : Bool := bit (s.num 0x2012 port) 15

/-- The dictionary answers: MGT and NET are ON with a link up, the boot has ended, and no trip is latched (R37, R38, R40, R46). -/
def State.serves (s : State) : Bool :=
  s.on domMGT && s.on domNET && (s.linkUp 1 || s.linkUp 2) && !s.pwr.trip
    && (match s.pwr.dev with
      | .off | .reset | .boot => false
      | _ => true)

/-- The 16 header bytes of an arriving datagram of message type `ty` (R57). -/
def hdrBytes (h : Hdr) (ty : Nat) : Bytes :=
  u8 h.version.toNat ++ u8 ty ++ u16 h.sid.toNat ++ u32 h.seq.toNat ++ u16 h.payloadLength.toNat ++ u8 h.flags.toNat
    ++ u8 h.reserved.toNat ++ u32 h.status.toNat

/-- The header and the length of the datagram are well formed: a request, reserved bits zero, PayloadLength and tag as the
flags say (R57; assumption 20). -/
def headerOk (h : Hdr) (payload : Bytes) : Bool :=
  h.payloadLength.toNat == payload.length && h.reserved == 0 && h.status == 0 && !bit h.flags.toNat 0
    && h.flags.toNat < 8 && (if bit h.flags.toNat 1 then h.tag.length == 16 else h.tag.isEmpty)

/-- The longest UDP payload over the session's IP version (R56). -/
def udpLimit (v6 : Bool) : Nat := if v6 then 1452 else 1472

/-- The slot of the session with an id. -/
def State.sessionSlot (s : State) (sid : Nat) : Option Nat :=
  (List.range 4).find? fun i => (vget s.wilwa.sessions i none).any (·.sid == sid)

/-- The session with an id. -/
def State.session (s : State) (sid : Nat) : Option Session :=
  (s.sessionSlot sid).bind fun i => vget s.wilwa.sessions i none

/-- A session changed. -/
def State.modSession (s : State) (sid : Nat) (f : Session → Session) : State :=
  let v : Vector (Option Session) 4 := Vector.ofFn fun (i : Fin 4) =>
    (s.wilwa.sessions[i]).map fun x => if x.sid = sid then f x else x
  { s with wilwa := { s.wilwa with sessions := v } }

/-- Bits of IrqCause set (R82). -/
def State.irq (s : State) (i : Nat) : State := s.setNum 0x1050 1 (s.num 0x1050 1 ||| 2 ^ i)

/-- The tag of a datagram in a session that carries one (R59). -/
def tagOf (key : Option Bytes) (header payload : Bytes) : Bytes :=
  match key with
  | some k => (hmacSha256 k (header ++ payload)).take 16
  | none => []

/-- A datagram to the endpoint of a session, tagged where the session has a key (R59). -/
def sessionDgram (x : Session) (ty seq flags status : Nat) (payload : Bytes) (cyclic : Bool) : Dgram :=
  let d : Dgram :=
    { dst := if cyclic then { x.src with port := 41851 } else x.src, cyclic := cyclic, version := x.version, msgType := ty, sid := x.sid, seq := seq,
      flags := flags + (if x.sessKey.isSome then 2 else 0), status := status, payload := payload, tag := [], vlan := none }
  { d with tag := tagOf x.sessKey d.header payload }

/-- A response outside every session (R57, R452; assumption 21). -/
def strayDgram (h : Hdr) (ty status : Nat) (payload : Bytes) : Dgram :=
  { dst := h.src, cyclic := false, version := h.version.toNat, msgType := ty, sid := h.sid.toNat, seq := h.seq.toNat,
    flags := 1, status := status, payload := payload, tag := [], vlan := none }

/-- What a refusal echoes of its request's payload, by the request's message type (R452). -/
def abortEcho (ty : Nat) (payload : Bytes) : Bytes :=
  match ty with
  | 0x10 | 0x12 | 0x1C => payload.take 4
  | 0x18 => payload.take 8
  | _ => []

/-- The IEEE 802.1Q tag of an own frame with a PCP, where own traffic is tagged (R89). -/
def State.ownTag (s : State) (pcp : Nat) : Option (Nat × Nat) := if s.num 0x2030 6 = 1 then some (s.num 0x2030 5, pcp) else none

/-- A datagram leaves in a frame with the tag of its port's traffic (R89). -/
def State.sendDgram (s : State) (d : Dgram) : State :=
  s.emit (.dgram { d with vlan := s.ownTag (s.num 0x2030 (if d.cyclic then 3 else 4)) })

/-- The IPv6 link-local address, its interface identifier the modified EUI-64 of the MAC address (R90). -/
def linkLocal (mac : Nat) : Nat :=
  0xFE80 * 2 ^ 112 + (mac / 2 ^ 24 ^^^ 0x020000) % 2 ^ 24 * 2 ^ 40 + 0xFFFE * 2 ^ 24 + mac % 2 ^ 24

/-- An address that the device answers on (R90): an IPv6 address as its bytes stand in IPv6Address, IPv4Address as a number whose
top byte comes first (assumption 68). -/
def State.ownAddress (s : State) (ip : Ip) : Bool :=
  if ip.v6 then ip.addr == linkLocal s.fuses.mac
    || ((s.bytes 0x2020 5).any (· != 0) && s.bytes 0x2020 5 == beBytes 16 ip.addr)
  else s.num 0x2020 2 != 0 && s.num 0x2020 2 == ip.addr
/-- The last 8 bytes of an endpoint's IP address, padded at their end for IP version 4 (R85). -/
def addrTail (e : Endpoint) : Bytes := if e.ip.v6 then (beBytes 16 e.ip.addr).drop 8 else padTo 8 (beBytes 4 e.ip.addr)

/-- A rejected proof or tag: counted and raised (R59, R66). -/
def State.authFailure (s : State) (sid : Nat) (e : Endpoint) : State :=
  (s.bump 0x1030 4).raise 0x1011 0 (u16 sid ++ addrTail e)

/-- What becomes of an arriving datagram before its message type's own meaning. -/
inductive Admission where
  | dropped (s : State)              -- no response, or the response that admission gives has been sent
  | session (x : Session) (s : State)
  deriving DecidableEq, Repr

/-- Admission of a datagram to its session: served at all, at an own address; tag where the session needs one; header; session. A
datagram of a session is taken from whatever endpoint it comes, and answered to the one that opened the session (R57, R59, R60, R84,
R90, R452; assumption 68). -/
def State.admission (s : State) (h : Hdr) (ty : Nat) (payload : Bytes) (answered : Bool) : Admission :=
  if !s.serves || !s.ownAddress h.dst then .dropped s
  else match s.session h.sid.toNat with
  | some x =>
    if x.sessKey.isSome && (!bit h.flags.toNat 1 || h.tag != tagOf x.sessKey (hdrBytes h ty) payload) then
      .dropped (s.authFailure x.sid h.src)
    else
      let s := s.modSession x.sid fun x => { x with heard := true }
      if !headerOk h payload || h.version.toNat != x.version then
        .dropped (if answered then
          s.sendDgram (sessionDgram x (ty + 1) h.seq.toNat 1 0x10010100 (abortEcho ty payload) false) else s)
      else .session { x with heard := true } s
  | none =>
    if !answered then .dropped s
    else if !headerOk h payload then .dropped (s.sendDgram (strayDgram h (ty + 1) 0x10010100 (abortEcho ty payload)))
    else .dropped (s.sendDgram (strayDgram h (ty + 1) 0x10020700 (abortEcho ty payload)))

/-- The answer a request comes to: the response's type, status and payload, and the state it leaves. -/
structure Answer where
  type : Nat
  status : Nat
  payload : Bytes
  state : State
  deriving DecidableEq, Repr

/-- The response of an answer sent in its session, if the session is still open as it was, and stored (R62). -/
def Answer.finish (a : Answer) (x : Session) (seq : Nat) : State :=
  let y := (a.state.session x.sid).getD x
  let d := sessionDgram y a.type seq 1 a.status a.payload false
  (a.state.modSession x.sid fun y => { y with seq := seq, stored := some d }).sendDgram d

/-- A request that takes part in the Sequence check: executed, answered again from store, or refused (R62). -/
def State.request (s : State) (h : Hdr) (ty : Nat) (payload : Bytes) (run : Session → State → Answer) : State :=
  match s.admission h ty payload true with
  | .dropped s => s
  | .session x s =>
    let q := h.seq.toNat
    if q = (x.seq + 1) % 2 ^ 32 then (run x s).finish x q
    else if q = x.seq then
      match x.stored with
      | some d => s.sendDgram d
      | none => s
    else s.sendDgram (sessionDgram x (ty + 1) q 1 0x10010400 (abortEcho ty payload) false)

/-- The session's version has the message (R61): version 1 knows Open, Unlock, Close, KeepAlive, Read and Write. -/
def messageInVersion (version ty : Nat) : Bool := version != 1 || ty ≤ 0x09 || (0x10 ≤ ty && ty ≤ 0x13)

/-- The session's version has the index (R61). -/
def indexInVersion (version idx : Nat) : Bool :=
  version != 1 || (0x1000 ≤ idx && idx ≤ 0x10FF) || (0x5000 ≤ idx && idx ≤ 0x50FF)

/-- A message of R62's kind in a session whose version has it, else 1002_0800h (R61). -/
def State.requestV (s : State) (h : Hdr) (ty : Nat) (payload : Bytes) (run : Session → State → Answer) : State :=
  s.request h ty payload fun x s =>
    if messageInVersion x.version ty then run x s
    else { type := ty + 1, status := 0x10020800, payload := abortEcho ty payload, state := s }

/-- A message that is never answered, in a session whose version has it (R58). -/
def State.notice (s : State) (h : Hdr) (ty : Nat) (payload : Bytes) (run : Session → State → State) : State :=
  match s.admission h ty payload false with
  | .dropped s => s
  | .session x s => if messageInVersion x.version ty then run x s else s

/-- The transfer with an id. -/
def State.transfer (s : State) (tid : Nat) : Option Transfer := s.wilwa.transfers.find? fun t => t.tid == tid

/-- A transfer ends: it is taken away, and IrqCause TransferDone is set (R82). -/
def State.dropTransfer (s : State) (tid : Nat) : State :=
  ({ s with wilwa := { s.wilwa with transfers := s.wilwa.transfers.filter fun t => t.tid != tid } } : State).irq 3

/-- The device aborts a transfer (R58, R77). -/
def State.abortTransfer (s : State) (t : Transfer) (code : Nat) : State :=
  let s := s.dropTransfer t.tid
  match s.session t.sid with
  | some x => s.sendDgram (sessionDgram x 0x1A 0 0 0 (u16 t.tid ++ u16 0 ++ u32 code) false)
  | none => s

/-- An abort code whose area byte is the high byte of the index concerned (R84). -/
def abort (idx low : Nat) : Nat := idx / 256 * 2 ^ 24 + low

end Sys2Proof.Machine
end

