-- ==== Sys2Proof/Machine/Commit.lean ====
section
/-! DEFINITION. Area commits: administration, staged values and their take-up by a bar (R15, R73 to R76). -/

set_option Elab.async false

namespace Sys2Proof.Machine

/-- The commit administration of an area. -/
def State.adm (s : State) (area : Nat) : AreaAdm := (kvGet s.wilwa.areas area).getD AreaAdm.initial

/-- The commit administration of an area changed. -/
def State.modAdm (s : State) (area : Nat) (f : AreaAdm → AreaAdm) : State :=
  { s with wilwa := { s.wilwa with areas := kvSet s.wilwa.areas AreaAdm.initial area (f (s.adm area)) } }

/-- The shadow value of an object: as written since the last commit, else as staged, else live (R73). -/
def State.shadowObj (s : State) (idx sub : Nat) : Val :=
  ((kvGet s.wilwa.shadow (key idx sub)).orElse fun _ => kvGet s.wilwa.staged (key idx sub)).getD (s.obj idx sub)

/-- A per-bar object: taken up by a bar at its line boundary (R75). -/
def perBar (idx sub : Nat) : Bool :=
  1 ≤ sub && sub ≤ 8 && (idx / 256 == 0x27 || idx / 256 == 0x29 || idx / 256 == 0x2B || (0x2610 ≤ idx && idx ≤ 0x2613))

/-- DutyWritten's bit of an object (R239). -/
def dutyBit (idx : Nat) : Nat :=
  match idx with
  | 0x2913 => 16
  | 0x2914 => 8
  | 0x2915 => 4
  | 0x2916 => 2
  | 0x2917 => 1
  | _ => 0

/-- What a newly live value brings with it: the map's figures, zeroed diffusion state, DutyWritten, MinFireDelay
(R17, R203, R213, R239, R292). -/
def State.nowLive (s : State) (idx sub : Nat) (old : Val) : State :=
  let b := sub - 1
  match idx with
  | 0x2710 =>
    let s := if old = s.obj idx sub then s else { s with hdg := { s.hdg with pendingValid := s.hdg.pendingValid &&& (255 - 2 ^ b) } }
    s.mapCommitted b
  | 0x2712 => s.mapCommitted b
  | 0x2717 => { s with sne := { s.sne with zeroNext := vmod s.sne.zeroNext b fun _ => true } }
  | 0x2913 | 0x2914 | 0x2915 | 0x2916 | 0x2917 => s.modBar b fun x => { x with written := x.written ||| dutyBit idx }
  | 0x2511 | 0x2512 | 0x2A10 | 0x2516 | 0x2517 | 0x2510 | 0x2620 => s.delaysChanged
  | _ => s

/-- An object's value made live. -/
def State.makeLive (s : State) (idx sub : Nat) (v : Val) : State := (s.setObj idx sub v).nowLive idx sub (s.obj idx sub)

/-- The staged values for which `p` holds made live, in key order. -/
def State.liveWhere (s : State) (p : Nat → Nat → Bool) : State :=
  let now := s.wilwa.staged.filter fun e => p (e.1 / 256) (e.1 % 256)
  let s := { s with wilwa := { s.wilwa with staged := s.wilwa.staged.filter fun e => !p (e.1 / 256) (e.1 % 256) } }
  forEach now (fun e s => s.makeLive (e.1 / 256) (e.1 % 256) e.2) s

/-- A commit fully taken up: Result 0, CommitStamp, CommitDone (R75). -/
def State.commitDone (s : State) (area : Nat) : State :=
  let s := s.modAdm area fun a => { a with result := 0, pending := 0 }
  (s.setNum (area * 256) 4 s.stamp48).irq 2

/-- A bar or port takes an area's staged values up, with the line or frame and the time (R75). -/
def State.takenUp (s : State) (area b line time : Nat) : State :=
  let s := (s.setNum (area * 256 + 1) (b + 1) line).setNum (area * 256 + 2) (b + 1) time
  let s := s.modAdm area fun a => { a with pending := a.pending &&& (255 - 2 ^ b) }
  if (s.adm area).pending = 0 ∧ (s.adm area).result = 1 then s.commitDone area else s

/-- A bar takes up an area's staged values for it, where it has not yet (R15, R75). -/
def State.takeUpBar (s : State) (area b line : Nat) : State :=
  if bit (s.adm area).pending b then
    (s.liveWhere fun idx sub => idx / 256 == area && perBar idx sub && sub == b + 1).takenUp area b line s.stamp48
  else s

/-- The TakeUpLine of a bar that takes values up at once: the number of the next line it will print (R75). -/
def State.atOnceLine (s : State) (b : Nat) : Nat :=
  match (s.bar b).run with
  | .notInJob => 0xFFFFFFFF
  | .waiting => 0
  | _ => (vget s.lcg b Lcg.start).n % 2 ^ 32

/-- A bar that does not print takes up at once what it has not yet taken up (R75). -/
def State.barAtOnce (s : State) (b : Nat) : State :=
  if (s.bar b).run = .printing then s
  else forEach [0x26, 0x27, 0x29, 0x2B] (fun a s => s.takeUpBar a b (s.atOnceLine b)) s

/-- TakeUpLine and TakeUpStamp of every bar for values that are taken up at once (R74, R75). -/
def State.barsTakeUp (s : State) (area : Nat) : State :=
  forRange 8 (fun b s => (s.setNum (area * 256 + 1) (b + 1) (s.atOnceLine b)).setNum (area * 256 + 2) (b + 1) s.stamp48) s

end Sys2Proof.Machine
end

