-- ==== Sys2Proof/Machine/LinkBlocks.lean ====
section
/-! DEFINITION. The blocks of head-link frames and tokens, the scrambler and the test patterns (R259 to R264, R280). -/

set_option Elab.async false

namespace Sys2Proof.Machine

/-- A control block of a type (R260). -/
def controlBlock (type : Nat) (b : Bytes) : LinkBlock := { control := true, bytes := u8 type ++ padTo 7 b }

/-- Fill (R260). -/
def idleBlock : LinkBlock := controlBlock 0x1E []

/-- Rate matching (R260, R265). -/
def skipBlock : LinkBlock := controlBlock 0x4B [0, 0, 0, 0x50]

/-- The data blocks of a byte string, the last filled with zeros. -/
def dataBlocks (b : Bytes) : List LinkBlock :=
  (List.range (ceilDiv b.length 8)).map fun i => { control := false, bytes := padTo 8 (slice b (8 * i) 8) }

/-- A frame: START, its data blocks, TERM with the CRC-32C of START bytes 1 to 7 and the data (R261). -/
def frameBlocks (type seq : Nat) (spec data : Bytes) : List LinkBlock :=
  let d := dataBlocks data
  let head := u8 type ++ u8 seq ++ u16 d.length ++ padTo 3 spec
  controlBlock 0x78 head :: d ++ [controlBlock 0xFF (u32 (crc32c (head ++ d.flatMap (·.bytes))))]

/-- The payload blocks of a LINE frame: 21 levels to a block (R262). -/
def levelBytes (levels : List Nat) : Bytes :=
  (List.range (ceilDiv levels.length 21)).flatMap fun k =>
    u64 ((List.range 21).foldl (fun v i => v + levels.getD (21 * k + i) 0 * 8 ^ i) 0)

/-- Bytes 1 to 7 of a TOKEN block, and bytes 0 to 5 of its extension (R263). -/
def tokenBytes (h : TokenHead) (tag gen number : Nat) : Bytes × Bytes :=
  (u8 (h.delay.toNat + b2n h.late * 8) ++ u16 tag ++ u16 gen ++ u16 0, u32 number ++ u8 h.bar.toNat ++ u8 h.lane.toNat)

/-- The Crc16 of a token (R263). -/
def tokenCrc (h : TokenHead) (tag gen number : Nat) : Nat :=
  let (a, b) := tokenBytes h tag gen number
  crc16 (a ++ b)

/-- A TOKEN block and its extension (R263). -/
def tokenBlocks (h : TokenHead) (tag gen number : Nat) : LinkBlock × LinkBlock :=
  let (a, b) := tokenBytes h tag gen number
  (controlBlock 0x2D a, { control := false, bytes := b ++ u16 (tokenCrc h tag gen number) })

/-- The type, START bytes 5 to 7 and data of a frame that a lane sends now; none of a block that is no frame (R261, R262, R264). -/
def State.frameParts (s : State) (l validFor : Nat) : LaneTx → Option (Nat × Bytes × Bytes)
  | .line f => some (1, u8 f.head ++ u16 f.number,
      u32 f.number ++ u16 f.elements ++ u8 (b2n f.zeroLine) ++ u8 f.bar ++ (if f.zeroLine then [] else levelBytes f.levels))
  | .table level seq t => some (3, u8 level ++ u8 seq, t)
  | .meas head first count kind tag => some (4, u8 head ++ u8 kind ++ u8 tag, u16 first ++ u8 count)
  | .owner role _ gen => some (5, u8 role ++ u16 validFor, u32 gen ++ u32 s.fuses.serial)
  | .sync band echo => some (6, u8 band ++ u16 echo, u48 s.stamp48)
  | .cap versions chosen => some (7, u8 versions ++ u8 chosen ++ u8 l, u64 s.fuses.serial)
  | _ => none

/-- The blocks of a frame that an HDM sends on an input; nothing of a fire (R261, R264). -/
def hdmBlocks (seq : Nat) : HdmTx → List LinkBlock
  | .status t => frameBlocks 0x81 seq (u8 1 ++ u8 t.ownerState.toNat ++ u8 t.flags.toNat)
      (u32 t.genMax.toNat ++ u32 t.fired.toNat ++ u16 t.rejects.toNat ++ u16 t.crcErrors.toNat ++ u16 t.mismatches.toNat
        ++ u16 t.faultMask.toNat ++ padTo 16 t.temps)
  | .echo tag turnaround => frameBlocks 0x81 seq (u8 2 ++ u16 tag) (u32 turnaround)
  | .tableAck q result => frameBlocks 0x81 seq (u8 3 ++ u8 q ++ u8 result) []
  | .measResult r => frameBlocks 0x81 seq (u8 4 ++ u8 r.tag.toNat ++ u8 r.result.toNat)
      (padTo 8 (u16 r.first.toNat ++ u8 r.count.toNat ++ u8 r.kind.toNat ++ u8 r.head.toNat) ++ r.values.flatMap fun v => u16 v.toNat)
  | .cap c => frameBlocks 0x82 seq (u8 c.versions ++ u8 c.chosen ++ u8 c.input)
      (u32 c.model ++ u32 c.firmware ++ u64 c.serial ++ u8 c.headCount ++ u8 c.kind ++ u16 c.elements ++ u16 c.maxRate ++ u16 c.fireOffset
        ++ padTo 8 (u16 (ofSigned 16 c.asymmetry) ++ u16 c.maxTurnaround))
  | .fire .. => []

/-- `n` bits of a number through the scrambler 1 + x^39 + x^58, the lowest first; the bits so far and the register (R259). -/
def scramble : Nat → Nat → Nat → Nat × Nat
  | 0, _, r => (0, r)
  | n + 1, v, r =>
    let b := (v + r / 2 ^ 38 + r / 2 ^ 57) % 2
    let (rest, r) := scramble n (v / 2) ((2 * r + b) % 2 ^ 58)
    (b + 2 * rest, r)

/-- The 66 bits of a block: sync header 01b for data and 10b for control, then the payload scrambled (R259). -/
def LinkBlock.wire (b : LinkBlock) (r : Nat) : Nat × Nat :=
  let (p, r) := scramble 64 (leNat b.bytes) r
  ((if b.control then 1 else 2) + 4 * p, r)

/-- The stages of a test pattern's register: the length and the other tap (R280). -/
def patternTaps : Nat → Nat × Nat
  | 0 => (7, 6)
  | 1 => (15, 14)
  | 2 => (23, 18)
  | _ => (31, 28)

/-- `n` bits of a test pattern from its register, the first sent lowest, and the register after them (R280). -/
def patternBits (a b : Nat) : Nat → Nat → Nat × Nat
  | 0, r => (0, r)
  | n + 1, r =>
    let x := (r / 2 ^ (a - 1) + r / 2 ^ (b - 1)) % 2
    let (rest, r) := patternBits a b n ((2 * r + x) % 2 ^ a)
    (x + 2 * rest, r)

end Sys2Proof.Machine
end

