-- ==== Sys2Proof/Machine/Meas.lean ====
section
/-! DEFINITION. The order in which a lane is measured and what its readings leave in MeasResults (R286, R288, R289). -/

set_option Elab.async false

namespace Sys2Proof.Machine

/-- The MeasResults record of an address. -/
def State.measRec (s : State) (b a : Nat) : MeasRec := (kvGet (vget s.hdg.results b []) a).getD MeasRec.none

/-- The MeasResults record of an address changed. -/
def State.modMeas (s : State) (b a : Nat) (f : MeasRec → MeasRec) : State :=
  { s with hdg := { s.hdg with results := vmod s.hdg.results b fun t => kvSet t MeasRec.none a (f (s.measRec b a)) } }

/-- The addresses of a bar whose head and element satisfy a test. -/
def State.addressesWhere (s : State) (b : Nat) (p : Nat → Nat → Bool) : List Nat :=
  let m := s.map b
  (List.range m.length).filter fun a => p (m.getD a default).head (m.getD a default).element

/-- The Kind of a lane's first measurement of a group: capacitance for a capacitive head, else resistance (R288). -/
def firstKind (c : CapUp) : Nat := if c.kind = 1 then 2 else 1

/-- The measurement after one of a lane's list: head, first element and kind (R288). -/
def measAfter (c : CapUp) (heads : Nat) (o : Nat × Nat × Nat) : Option (Nat × Nat × Nat) :=
  let (h, f, k) := o
  if k = 2 then some (h, f, 3)
  else if f + 64 < c.elements then some (h, f + 64, firstKind c)
  else if h + 1 < heads then some (h + 1, 0, firstKind c)
  else none

/-- A MEAS leaves on a lane with the next MeasTag, which skips 0 (R288). -/
def State.measSend (s : State) (l : Nat) (o : Nat × Nat × Nat) (retried : Bool) : State :=
  let (h, f, k) := o
  let n := ((s.lane l).cap.map fun c => min 64 (c.elements - f)).getD 64
  let t := (s.lane l).measTag + 1
  let t := if t % 256 = 0 then 1 else t % 256
  let s := s.modLane l fun x =>
    { x with measTag := t, meas := some { head := h, first := f, count := n, kind := k, tag := t, retried := retried } }
  s.laneSend l (.meas h f n k t)

/-- A lane that is TRAINED starts its list. -/
def State.measBegin (s : State) (l : Nat) : State :=
  match (s.lane l).cap with
  | some c => if (s.lane l).measDone ∨ (s.lane l).meas.isSome then s else s.measSend l (0, 0, firstKind c) false
  | none => s

end Sys2Proof.Machine
end

