-- ==== Sys2Proof/Machine/Heads.lean ====
section
/-! DEFINITION. HLK: bringing lanes up, ownership, tables and the band, and what an HDM does with what it receives
(R258 to R283). -/

set_option Elab.async false

namespace Sys2Proof.Machine

/-- The Key is held: by lease in WARM, by self-renewal in LONE and COLD on the ACTIVE (R347; assumption 32). -/
def State.keyHeld (s : State) : Bool :=
  s.mir.role == .active
    && (match s.mir.st with
      | .warm => s.mir.keyExpiry.any fun t => decide (s.tick < t)
      | .lone | .cold => !s.halted || s.mir.keyExpiry.any fun t => decide (s.tick < t)
      | _ => false)

/-- The role lets the device own the heads: SOLO, or ACTIVE with the Key (R52, R53); tokens stop at the start of a planned swap
(R367). -/
def State.mayOwn (s : State) : Bool := (s.mir.role == .solo || (s.keyHeld && !s.mir.handover)) && !s.halted

/-- The device states in which OWNER frames are sent (R52). -/
def ownStates : List DevState := [.configured, .armed, .printing, .held]

/-- OWNER frames are sent on a lane; not on one woken in HELD to measure (R52, R285). -/
def State.owning (s : State) (l : Nat) : Bool :=
  s.on domHLK && (s.lane l).st == .trained && s.mayOwn && s.inStates ownStates
    && !(s.pwr.dev == .held && (s.lane l).woken)

/-- FIRE_OK as it is driven (R53). -/
def State.fireOk (s : State) : Bool := s.inStates [.armed, .printing] && (s.mir.role == .solo || s.keyHeld) && !s.halted

/-- The KeyGeneration of OWNER frames (R267). -/
def State.ownGen (s : State) : Nat := if s.mir.role = .solo then s.hlk.soloGen else s.mir.keyGen

/-- ValidFor of an OWNER frame sent now, in µs (R267). -/
def State.validFor (s : State) : Nat :=
  if s.mir.role = .solo then 500
  else match s.mir.keyExpiry with
    | some t => (t - s.tick - 400) / 400
    | none => 0

/-- An OWNER frame on a lane; in LONE and COLD it renews the Key by itself (R267, R347). -/
def State.sendOwner (s : State) (l : Nat) : State :=
  let s := if s.mir.role = .active ∧ (s.mir.st = .lone ∨ s.mir.st = .cold) then
      { s with mir := { s.mir with keyExpiry := some (s.tick + 200000) } }
    else s
  let s := s.setNum 0x2A20 6 s.ownGen
  s.laneSend l (.owner (if s.mir.role = .solo then 0 else 1) s.validFor s.ownGen)

/-- An OWNER frame on every lane that may carry one. -/
def State.sendOwners (s : State) : State := forRange 32 (fun l s => if s.owning l then s.sendOwner l else s) s

/-- A RELEASE block on a lane, with the generation released (R260). -/
def State.sendRelease (s : State) (l : Nat) : State := s.laneSend l (.release (s.num 0x2A20 6))

/-- RELEASE on every trained lane: the device stops sending OWNER frames (R267). -/
def State.releaseAll (s : State) : State :=
  forRange 32 (fun l s => if s.on domHLK ∧ (s.lane l).st = .trained then s.sendRelease l else s) s

/-- A lane that knows nothing of its HDM: its counts of frames, tables and measurements go on, and so does its word boundary
(R261, R271, R288). -/
def Hln.anew (x : Hln) : Hln :=
  { Hln.start with tableSeq := x.tableSeq, frameSeq := x.frameSeq, measTag := x.measTag, slip := x.slip }

/-- A lane goes to DEEP: everything it knew of its HDM but LinkLatency is gone (R275, R281). -/
def State.laneDeep (s : State) (l : Nat) : State :=
  let s := if (s.lane l).st = .trained then s.sendRelease l else s
  (s.modLane l Hln.anew).setNum 0x2A19 (l + 1) 0

/-- A lane enters ALIGNING; what its transmitter had to send is gone, but for RELEASE (R270, R271). -/
def State.laneAlign (s : State) (l : Nat) : State :=
  (s.modLane l fun x =>
    { x with st := .aligning, lock := false, version := 0, chosen := 0, cap := none, probes := [], rounds := 0, probeOut := none,
             tablesOut := [], tokens := []
             tx := { x.tx.cut with queue := x.tx.queue.filter fun q => match q with
               | .release _ => true
               | _ => false } }).setNum 0x2A19 (l + 1) 0

/-- A lane enters WAKING (R270). -/
def State.laneWake (s : State) (l : Nat) (test : Bool) : State :=
  s.modLane l fun x => { x.anew with st := .waking, toTest := test }

/-- SyncHeaderRun of a lane: below 64 while it aligns, 64 or more with block lock; how many headers have come is not known to the model
(R271). -/
def State.headerRun (s : State) (l : Nat) : Nat × State :=
  if (s.lane l).lock then let (n, s) := s.freeBelow 65472; (n + 64, s)
  else if (s.lane l).st = .aligning then s.freeBelow 64
  else (s.num 0x2A19 (l + 1), s)

/-- A receive error count of a lane as it stands now: errors come with no command, so it has grown by a free amount since it was last
looked at, but not in DEEP, where the receiver is off (R260, R261, R265, R275; assumption 63). -/
def State.rxCount (s : State) (idx l : Nat) : Nat × State :=
  let (n, s) := s.free
  let s := if !s.on domHLK || (s.lane l).st == .deep then s else s.addNum idx (l + 1) n
  (s.num idx (l + 1), s)

/-- A lane leaves the states in which it has block lock; its last run of valid headers stays readable (R271). -/
def State.laneUnlock (s : State) (l : Nat) : State :=
  let (n, s) := s.headerRun l
  (s.setNum 0x2A19 (l + 1) n).modLane l fun x => { x with lock := false }

/-- Training of a lane fails: DOWN with FailCause, F2A20h + l (R270, R283). -/
def State.laneFail (s : State) (l cause : Nat) : State :=
  let v := ((s.lane l).cap.map (·.versions)).getD 0
  let (n, s) := s.headerRun l
  let s := (s.modLane l fun x => { x with st := .down, failCause := cause, tablesOut := [], tokens := [] }).setNum 0x2A19 (l + 1) n
  s.raise (0x2A20 + l) cause (u8 cause ++ u16 n ++ u8 v)

/-- A CONFIGURED request's lanes start to train: from DEEP, DOWN or TEST (R270); a bolted lane stays DOWN. -/
def State.trainLane (s : State) (l : Nat) : State :=
  if s.boltedLane l then s
  else match (s.lane l).st with
    | .deep | .test => s.laneWake l false
    | .down => s.laneAlign l
    | _ => s

/-- LANE_PLL_LOCKED: WAKING ends in ALIGNING, or in TEST where LaneCommand 2 asked for it (R270). -/
def execLanePllLocked (l : Lane) (s : State) : Host.Outcome State Fault Refusal :=
  let x := s.lane l
  .next (if x.st = .waking then
      (if x.toTest then s.modLane l fun x => { x with st := .test, toTest := false } else s.laneAlign l)
    else s)

/-- LANE_WAKE_TIMEOUT: no lock in 2 ms; FailCause 1 (R270). -/
def execLaneWakeTimeout (l : Lane) (s : State) : Host.Outcome State Fault Refusal :=
  .next (if (s.lane l).st = .waking then s.laneFail l 1 else s)

/-- The receive word boundary moved by one bit; the run of headers starts anew (R271). -/
def State.bitSlip (s : State) (l : Nat) : State :=
  (s.modLane l fun x => { x with slip := (x.slip + 1) % 66 }).setNum 0x2A19 (l + 1) 0

/-- FIRMWARE_SLIP_WAIT: 128 blocks after a slip, firmware reads a run below 64 and slips again (R271). -/
def execFirmwareSlipWait (l : Lane) (s : State) : Host.Outcome State Fault Refusal :=
  .next (if (s.lane l).st = .aligning ∧ s.num 0x2A20 2 = 0 then s.bitSlip l else s)

/-- LANE_ALIGN_TIMEOUT: 10 ms in AlignMode 0; FailCause 2 (R270, R271). -/
def execLaneAlignTimeout (l : Lane) (s : State) : Host.Outcome State Fault Refusal :=
  .next (if (s.lane l).st = .aligning ∧ s.num 0x2A20 2 = 0 then s.laneFail l 2 else s)

/-- The device's CAP frame (R272). -/
def State.sendCap (s : State) (l : Nat) : State := s.laneSend l (.cap (s.num 0x2A20 5) (s.lane l).chosen)

/-- A lane becomes TRAINED; its first frame is an OWNER frame where R52 allows one (R267, R270). -/
def State.laneTrained (s : State) (l : Nat) : State :=
  let s := s.modLane l fun x => { x with st := .trained, failCause := 0, excursion := false, probeOut := none }
  let s := if s.owning l then s.sendOwner l else s
  if (s.lane l).woken ∧ s.pwr.dev = .held then s.measBegin l else s

/-- SYNC_HEADER_RUN_REACHED: 64 valid headers; on to CAPABILITY, or back to TRAINED where a resume burst has been sent (R270, R271,
R276). -/
def execSyncHeaderRunReached (l : Lane) (s : State) : Host.Outcome State Fault Refusal :=
  let run := fun (s : State) => (s.setNum 0x2A19 (l.val + 1) 64).modLane l fun x => { x with lock := true }
  match (s.lane l).st with
  | .aligning => .next (((run s).modLane l fun x => { x with st := .capability }).sendCap l)
  | .resuming => .next (if (s.lane l).tx.burst = 0 then (run s).laneTrained l else run s)
  | _ => .next s

/-- CAP_RESEND_INTERVAL: CAP every 10 µs until the HDM answers (R272). -/
def execCapResendInterval (l : Lane) (s : State) : Host.Outcome State Fault Refusal :=
  let x := s.lane l
  .next (if x.st = .capability ∧ x.chosen = 0 then s.sendCap l else s)

/-- LANE_CAP_TIMEOUT: no CAP within 10 ms; FailCause 3 (R270). -/
def execLaneCapTimeout (l : Lane) (s : State) : Host.Outcome State Fault Refusal :=
  .next (if (s.lane l).st = .capability then s.laneFail l 3 else s)

/-- The capability checks of R272. -/
def State.capOk (s : State) (l : Nat) (c : CapUp) : Bool :=
  let b := s.laneBar l
  let heads := s.laneHeads l
  heads.length ≤ c.headCount
    && (s.map b).all (fun a => !heads.contains a.head || a.element < c.elements)
    && 1000000000 ≤ c.maxRate * 1000 * s.num 0x2911 (b + 1)
    && (s.classKind (s.num 0x2912 (b + 1))).all (· == c.kind)

/-- The 32 bytes of HdmCapability (R264, R281). -/
def capBytes (c : CapUp) : Bytes :=
  u32 c.model ++ u32 c.firmware ++ u64 c.serial ++ u8 c.headCount ++ u8 c.kind ++ u16 c.elements ++ u16 c.maxRate
    ++ u16 c.fireOffset ++ u16 (ofSigned 16 c.asymmetry) ++ u16 c.maxTurnaround ++ u32 0

/-- The SYNC of a latency probe (R274, R278). -/
def State.sendProbe (s : State) (l tag : Nat) : State :=
  (s.modLane l fun x => { x with probeOut := some tag }).laneSend l (.sync s.therm.band tag)

/-- A mask of common versions agrees on one where it reaches this: any in SOLO, HL2 or higher in a pair (R272). -/
def State.leastVersions (s : State) : Nat := if s.mir.role = .solo then 1 else 2

/-- CAP_RECEIVED: the version is chosen, then agreed; the checks run and LATENCY starts (R272, R274). -/
def execCapReceived (l : Lane) (cap : CapUp) (s : State) : Host.Outcome State Fault Refusal :=
  let x := s.lane l
  if x.st ≠ .capability then .next s
  else
    let s := s.modLane l fun x => { x with cap := some cap }
    let s := s.setObj 0x2A16 (l.val + 1) (.bytes (capBytes cap))
    let common := cap.versions &&& s.num 0x2A20 5 &&& 7
    if x.chosen = 0 then
      if common < s.leastVersions then .next (s.laneFail l 4)
      else
        let v := if bit common 2 then 3 else if bit common 1 then 2 else 1
        .next ((s.modLane l fun x => { x with chosen := v }).sendCap l)
    else if cap.chosen ≠ x.chosen then .next s
    else
      let s := s.modLane l fun x => { x with version := x.chosen }
      if !s.capOk l cap then .next (s.laneFail l 5)
      else .next ((s.modLane l fun x => { x with st := .latency, probes := [], rounds := 0 }).sendProbe l 1)

/-- A segment level with a band offset added, within the Kind's range (R278). -/
def bandLevel (kind : Nat) (level offset : Int) : Int :=
  if kind = 1 then clampInt (-4000) 4000 (level + offset) else clampInt 0 32767 (level + offset)

/-- The bytes of a table as they go to a lane: one idle segment for an empty one; for HL1 and HL2 the band's offset is added to
every level and the offsets are sent as 0 (R240, R278; assumption 33). -/
def tableFor (version kind band : Nat) (b : Bytes) : Bytes :=
  if b.isEmpty then u8 kind ++ u8 1 ++ List.replicate 14 0 ++ u16 1 ++ List.replicate 6 0
  else if version = 3 then b
  else
    let k := leAt b 0 1
    let off := toSigned 16 (leAt b (4 + 2 * band) 2)
    slice b 0 4 ++ List.replicate 8 0 ++ slice b 12 4
      ++ (List.range (leAt b 1 1)).flatMap fun i =>
        slice b (16 + 8 * i) 2 ++ u16 (ofSigned 16 (bandLevel k (toSigned 16 (leAt b (18 + 8 * i) 2)) off)) ++ slice b (20 + 8 * i) 4

/-- TABLE frames of the bar's class to a lane, one for each level (R241, R264). -/
def State.sendTables (s : State) (l : Nat) : State :=
  let x := s.lane l
  let kind := (x.cap.map (·.kind)).getD 1
  let tables := s.waves (s.num 0x2912 (s.laneBar l + 1))
  forRange 7 (fun i s =>
    let q := (s.lane l).tableSeq
    let s := s.modLane l fun x => { x with tableSeq := (q + 1) % 256, tablesOut := x.tablesOut ++ [q] }
    s.laneSend l (.table (i + 1) q (tableFor x.version kind s.therm.band (tables.getD i [])))) (s.modLane l fun x => { x with tablesOut := [] })

/-- One one-way time of a probe in half units of 625 ps (R274). -/
def oneWay (c : CapUp) (rtt turnaround : Nat) : Int := (rtt : Int) - turnaround + 2 * (c.asymmetry + c.fireOffset)

/-- The largest and the smallest of a list of integers, as their difference. -/
def spreadOf : List Int → Int
  | [] => 0
  | x :: xs => xs.foldl max x - xs.foldl min x

/-- Sixteen probes are in: LinkLatency and the tables, or another round, or FailCause 6 (R274). -/
def State.latencyDone (s : State) (l : Nat) : State :=
  let x := s.lane l
  if 5 * spreadOf x.probes ≤ 132 then
    let total := x.probes.foldl (· + ·) 0
    let lat := (-(Int.fdiv (-total) 32)).toNat
    let s := s.setNum 0x2A14 (l + 1) (lat * 625)
    let s := (s.modLane l fun x => { x with st := .tables, probes := [], probeOut := none }).delaysChanged
    s.sendTables l
  else if 3 ≤ x.rounds + 1 then s.laneFail l 6
  else (s.modLane l fun x => { x with rounds := x.rounds + 1, probes := [] }).sendProbe l 1

/-- STAT_ECHO_RECEIVED: a training probe's sample, or the running probe of an HL3 lane (R274). -/
def execStatEchoReceived (l : Lane) (tag : BitVec 16) (turnaround : BitVec 32) (rtt : Nat) (s : State) :
    Host.Outcome State Fault Refusal :=
  let x := s.lane l
  match x.cap with
  | some c =>
    if x.probeOut ≠ some tag.toNat then .next s
    else
      let w := oneWay c rtt turnaround.toNat
      match x.st with
      | .latency =>
        let s := s.modLane l fun x => { x with probes := x.probes ++ [w], probeOut := none }
        .next (if 16 ≤ x.probes.length + 1 then s.latencyDone l else s.sendProbe l (x.probes.length + 2))
      | .trained =>
        let (ps, s) := s.freeQuot (w * 625) 2
        let now := ps.toNat
        let s := (s.modLane l fun x => { x with probeOut := none }).setNum 0x2A15 (l.val + 1) now
        let lat := s.num 0x2A14 (l.val + 1)
        let off := (if now < lat then lat - now else now - lat) > s.num 0x2A20 4
        let s := s.modLane l fun x => { x with excursion := off }
        .next (if off && !x.excursion then s.raise (0x2A80 + l.val) 0 (u32 lat ++ u32 now) else s)
      | _ => .next s
  | none => .next s

/-- LATENCY_PROBE_INTERVAL: an HL3 lane in TRAINED repeats one probe every 1 ms (R274). -/
def execLatencyProbeInterval (l : Lane) (s : State) : Host.Outcome State Fault Refusal :=
  .next (if (s.lane l).st = .trained ∧ (s.lane l).version = 3 then s.sendProbe l 1 else s)

/-- STAT_TABLE_ACK_RECEIVED: a table accepted; with the last one the lane is TRAINED, or its tables are fresh (R241, R278). -/
def execStatTableAckReceived (l : Lane) (seq : BitVec 8) (result : BitVec 8) (s : State) : Host.Outcome State Fault Refusal :=
  let x := s.lane l
  if result = 0 ∧ x.tablesOut.contains seq.toNat then
    let s := s.modLane l fun x => { x with tablesOut := x.tablesOut.filter (· != seq.toNat) }
    if (s.lane l).tablesOut.isEmpty then
      match x.st with
      | .tables => .next ((s.modLane l fun x => { x with bandStale := false }).laneTrained l)
      | .trained => .next (s.modLane l fun x => { x with bandStale := false })
      | _ => .next s
    else .next s
  else .next s

/-- The 34 bytes of HdmStatus (R264, R281). -/
def statusBytes (t : HdmStatus) : Bytes :=
  u8 t.ownerState.toNat ++ u8 t.flags.toNat ++ u32 t.genMax.toNat ++ u32 t.fired.toNat ++ u16 t.rejects.toNat
    ++ u16 t.crcErrors.toNat ++ u16 t.mismatches.toNat ++ u16 t.faultMask.toNat ++ padTo 16 t.temps

/-- The hottest HeadTemp reported, 7Fh where none is. -/
def hottestTemp (temps : List (BitVec 8)) : Nat :=
  match (temps.filter (· != 0x7F)).map (·.toInt) with
  | [] => 0x7F
  | x :: xs => ofSigned 8 (xs.foldl max x)

/-- STAT_STATUS_RECEIVED: HdmStatus, ownership and head faults; a reclaim check counts HDMs that see the partner (R264, R268,
R363). -/
def execStatStatusReceived (l : Lane) (st : HdmStatus) (s : State) : Host.Outcome State Fault Refusal :=
  let x := s.lane l
  if !s.on domHLK ∨ !x.lock then .next s
  else
    let s := s.setObj 0x2A17 (l.val + 1) (.bytes (statusBytes st))
    let s := { s with hlk := { s.hlk with genMax := vmod s.hlk.genMax l.val fun g => max g st.genMax.toNat } }
    let a := bits st.ownerState.toNat 1 0
    let b := bits st.ownerState.toNat 3 2
    let onB := x.cap.any (·.input == 1)
    let own := if onB then b else a
    let gen := u8 st.ownerState.toNat ++ u32 st.genMax.toNat
    let s := if a = 3 ∨ b = 3 then s.raise (0x2A40 + l.val) 0 gen else s
    let s := if own = 2 then s.raise (0x2A60 + l.val) 0 (gen ++ u32 (s.num 0x2A20 6)) else s
    let s := if st.flags ≠ 0 then
        s.raise (0x2AE0 + l.val) 0 (u8 st.flags.toNat ++ u16 st.faultMask.toNat ++ u8 (hottestTemp st.temps)) else s
    let partner := if onB then a else b
    .next (match s.mir.seenPartner with
      | some _ =>
        if s.mir.lastExpiry + 20000 ≤ s.tick ∧ s.jobLane l ∧ (b ≠ 0 ∨ partner ≠ 0) then
          { s with mir := { s.mir with seenPartner := some (st.ownerState.toNat + 1) } }
        else s
      | none => s)

/-- STAT_SILENCE_TIMEOUT: no Status STAT for 1 ms on a trained lane (R273). -/
def execStatSilenceTimeout (l : Lane) (s : State) : Host.Outcome State Fault Refusal :=
  .next (if (s.lane l).st = .trained then s.raise (0x2AA0 + l.val) 0 (slice (padTo 34 (s.bytes 0x2A17 (l.val + 1))) 6 4) else s)

/-- Receive lock lost on a trained lane (R270, R273): RELEASE, DOWN, F2A00h + l, and retraining where AutoRetrain says so. -/
def State.laneLost (s : State) (l : Nat) : State :=
  let s := (s.modLane l fun x => { x with tx := x.tx.cut }).sendRelease l
  let s := (s.laneUnlock l).modLane l fun x => { x with st := .down, failCause := 8, tokens := [], tablesOut := [] }
  let (n, s) := s.rxCount 0x2A1C l
  let s := s.raise (0x2A00 + l) 0 (u8 (s.laneBar l) ++ u32 n ++ u8 LaneSt.trained.code)
  if s.num 0x2A20 3 = 1 ∧ !s.boltedLane l then s.laneAlign l else s

/-- OWNER_INTERVAL: the 125 µs OWNER frame of SOLO and LONE (R267, R347). -/
def execOwnerInterval (l : Lane) (s : State) : Host.Outcome State Fault Refusal :=
  .next (if s.owning l ∧ (s.mir.role = .solo ∨ s.mir.st = .lone ∨ s.mir.st = .cold) then s.sendOwner l else s)

/-- RELEASE_REPEAT_INTERVAL: RELEASE every 125 µs in no-owner idle (R267). -/
def execReleaseRepeatInterval (l : Lane) (s : State) : Host.Outcome State Fault Refusal :=
  .next (if s.on domHLK ∧ (s.lane l).st = .trained ∧ !s.owning l then s.sendRelease l else s)

/-- SYNC_INTERVAL: a SYNC with the band on every trained lane (R278). -/
def execSyncInterval (l : Lane) (s : State) : Host.Outcome State Fault Refusal :=
  .next (if s.on domHLK ∧ (s.lane l).st = .trained then s.laneSend l (.sync s.therm.band 0) else s)

/-- A band change: HL1 and HL2 lanes in TRAINED become stale (R278). -/
def State.bandMoved (s : State) (old new : Nat) : State :=
  forRange 32 (fun l s =>
    let x := s.lane l
    if x.st = .trained ∧ x.version ≠ 3 ∧ !x.bandStale then
      (s.modLane l fun x => { x with bandStale := true }).raise (0x2AC0 + l) 0 (u8 old ++ u8 new)
    else s) s

/-- A trained lane enters electrical idle (R276). -/
def State.laneIdle (s : State) (l : Nat) : State :=
  if (s.lane l).st = .trained then
    ((List.replicate 4 LaneTx.quiet).foldl (fun s f => s.laneSend l f) (s.sendRelease l)).modLane l fun x =>
      { x with st := .eidle, tokens := [], tx := { x.tx with queue := x.tx.queue.filter LaneTx.isControl } }
  else s

/-- A lane starts its training burst: 256 blocks, one of the last 128 a SKIP (R276). -/
def State.laneBurst (s : State) (l : Nat) : State :=
  let (k, s) := s.freeBelow 128
  s.modLane l fun x => { x with st := .resuming, tx := { x.tx with queue := [], rest := [], ext := none, burst := 256, burstSkip := k } }

/-- Every EIDLE lane starts its training burst (R276). -/
def State.lanesResume (s : State) : State := forRange 32 (fun l s => if (s.lane l).st = .eidle then s.laneBurst l else s) s

/-- The burst ends on every lane that resumes: TRAINED, or full alignment where it failed (R270, R276). -/
def State.burstEnds (s : State) (failed : Nat) : State :=
  forRange 32 (fun l s =>
    if (s.lane l).st = .resuming then
      let s := s.modLane l fun x => { x with tx := { x.tx with burst := 0 } }
      if bit failed l then s.laneAlign l else s.laneTrained l
    else s) s

/-- A lane is in TEST or on its way there (R270). -/
def State.laneTests (s : State) (l : Nat) : Bool := (s.lane l).st == .test || ((s.lane l).st == .waking && (s.lane l).toTest)

/-- Every lane's state as entry to STANDBY leaves it: DEEP but for lanes in TEST (R270, R275). -/
def State.lanesStandby (s : State) : State := forRange 32 (fun l s => if s.laneTests l then s else s.laneDeep l) s

/-- In STANDBY lanes that are spare or whose bar lies outside LaneTrainMask are in DEEP (R275). -/
def State.lanesSpare (s : State) : State :=
  if s.pwr.dev ≠ .standby then s
  else forRange 32 (fun l s => if s.jobLane l ∨ s.laneTests l ∨ (s.lane l).st = .deep then s else s.laneDeep l) s

/-- KeyGeneration for SOLO, fixed at entry to CONFIGURED from STANDBY (R267). -/
def State.fixSoloGen (s : State) : State :=
  let g := (List.range 32).foldl (fun m l => if (s.lane l).st = .trained then max m (vget s.hlk.genMax l 0) else m) 0
  { s with hlk := { s.hlk with soloGen := g + 1 } }

/-- An injection: the generator's next `n` bits leave inverted, and over the loopback the lane's own checker counts them (R280). -/
def State.injectBits (s : State) (l n : Nat) : State :=
  let cfg := s.num 0x2A30 (l + 1)
  let s := s.modLane l fun x => { x with tx := { x.tx with inject := n } }
  if bit cfg 13 && bit cfg 12 && bit cfg 11 && (s.lane l).checker then s.addNum 0x2A32 (l + 1) n else s

/-- The generator's pattern comes back to the lane's own checker (R280). -/
def State.loops (s : State) (l : Nat) : Bool := let cfg := s.num 0x2A30 (l + 1)
                                                bit cfg 13 && bit cfg 11

/-- The bits that a locked checker has checked since it locked: 40 in a tick (R259, R280). -/
def State.checkedBits (s : State) (l : Nat) : Nat := if (s.lane l).checker then 40 * (s.tick - (s.lane l).checkFrom) else 0

/-- TestErrorBits as it stands: on a line that is no loopback a locked checker has counted a free number of errors more (R280). -/
def State.testErrors (s : State) (l : Nat) : Nat × State :=
  let (n, s) := s.free
  let s := if (s.lane l).checker && !s.loops l then s.addNum 0x2A32 (l + 1) n else s
  (s.num 0x2A32 (l + 1), s)

/-- The pattern checker stops counting (R280). -/
def State.checkerStops (s : State) (l : Nat) : State :=
  if !(s.lane l).checker then s
  else
    let (_, s) := s.testErrors l
    (s.addNum 0x2A33 (l + 1) (s.checkedBits l)).modLane l fun x => { x with checker := false }

/-- LaneCommand (R270, R282). -/
def State.laneCommand (s : State) (l v : Nat) : Except Nat State :=
  let st := (s.lane l).st
  let no : Except Nat State := .error (0x2A030200 + l)
  if s.boltedLane l then .error (0x2A04F200 + l)
  else if v = 1 then
    if st = .down ∧ s.inStates [.configured, .armed, .printing, .held] then .ok (s.laneAlign l) else no
  else if v = 2 then
    if st = .deep ∧ s.inStates [.standby, .configured] then .ok (s.laneWake l true) else no
  else if st = .test then
    let s := (s.checkerStops l).modLane l fun x => { x with tx := { x.tx with prbs := none, inject := 0 } }
    .ok (if s.pwr.dev = .standby then s.laneDeep l else s.modLane l fun x => { x with st := .down })
  else no

/-- CHECKER_LOCK: the pattern checker locks (R280). -/
def execCheckerLock (l : Lane) (s : State) : Host.Outcome State Fault Refusal :=
  .next (if (s.lane l).st = .test ∧ bit (s.num 0x2A30 (l.val + 1)) 12 then s.modLane l fun x => { x with checker := true, checkFrom := s.tick } else s)

/-- CHECKER_LOCK_LOST: the pattern checker loses lock (R280). -/
def execCheckerLockLost (l : Lane) (s : State) : Host.Outcome State Fault Refusal :=
  .next (s.checkerStops l)

/-- The tables of a class go to every trained lane of every bar that uses it (R241). -/
def State.classTables (s : State) (k : Nat) : State :=
  forRange 32 (fun l s =>
    if (s.lane l).st = .trained ∧ s.laneBar l < 8 ∧ s.num 0x2912 (s.laneBar l + 1) = k then s.sendTables l else s) s

/-- A waveform download at its end: its form, its Kind, its length, then to the lanes in CONFIGURED (R240 to R242). -/
def State.waveWrite (s : State) (k level : Nat) (b : Bytes) : Except Nat State :=
  let others := (List.range 7).filterMap fun i => if i + 1 = level then none else some (s.bytes (0x2920 + k) (i + 1))
  if !waveOk b then .error 0x29060600
  else if !b.isEmpty && others.any (fun o => !o.isEmpty && leAt o 0 1 != leAt b 0 1) then .error (0x29040300 + k)
  else if (List.range 8).any fun j => s.num 0x2912 (j + 1) == k && !wavesFit [b] (s.num 0x2911 (j + 1)) then .error (0x29040200 + k)
  else
    let s := s.setObj (0x2920 + k) level (.bytes b)
    .ok (if s.pwr.dev = .configured then s.classTables k else s)

/-- Writes of HLK objects with an effect of their own. -/
def hookHeads (idx sub : Nat) (v : Val) (s : State) : Option (Except Nat State) :=
  let l := sub - 1
  let n := v.toNum
  match idx with
  | 0x2A18 =>
    some (if s.num 0x2A20 2 = 1 ∧ (s.lane l).st = .aligning then .ok (s.bitSlip l) else .error (0x2A030100 + l))
  | 0x2A1F => some (s.laneCommand l n)
  | 0x2A31 =>
    some (if (s.lane l).st ≠ .test then .error (0x2A030300 + l)
      else .ok (s.injectBits l (if n = 1 then 1 else max 1 (bits (s.num 0x2A30 sub) 7 0))))
  | 0x2A20 => if sub = 1 then some (.ok (s.setObj idx sub v).lanesSpare) else none
  | 0x2912 =>
    some (if wavesFit (s.waves n) (s.num 0x2911 sub) then .ok (s.setObj idx sub v) else .error (0x29040200 + n))
  | _ => none

/-- LaneTrainMask and VersionMask run outside STANDBY and during a CONFIGURED request; TestConfig while its lane is in TEST (R281). -/
def headsRuns (s : State) (idx sub : Nat) : Bool :=
  if idx = 0x2A20 then s.pwr.dev != .standby || s.pwr.trans.isSome
  else (s.lane (sub - 1)).st == .test

/-- The head assignment as `get` reads it: one lane for a head, and a lane for every head of every committed map (R258). -/
def checkLanes (get : Nat → Nat → Val) (maps : Nat → List Addr) : Option (Nat × Nat) :=
  let lanes := List.range 32
  let twice := lanes.find? fun l => (get 0x2A10 (l + 1)).toNum < 8 && (List.range (get 0x2A12 (l + 1)).toNum).any fun i =>
    (List.range l).any fun m => laneCarries get m (get 0x2A10 (l + 1)).toNum ((get 0x2A11 (l + 1)).toNum + i)
  let wide := lanes.find? fun l => 64 < (get 0x2A11 (l + 1)).toNum + (get 0x2A12 (l + 1)).toNum
  let bare := (List.range 8).any fun b => (maps b).any fun a => !lanes.any fun l => laneCarries get l b a.head
  match wide with
  | some l => some (0x2A12, l + 1)
  | none => match twice with
    | some l => some (0x2A11, l + 1)
    | none => if bare then some (0x2A10, 1) else none

/-- A commit of area 2Ah changes the lane assignment (R258). -/
def assignmentChanges (s : State) (get : Nat → Nat → Val) : Bool :=
  (List.range 32).any fun l => [0x2A10, 0x2A11, 0x2A12].any fun i => get i (l + 1) != s.obj i (l + 1)

/-- A nozzle map against the lanes: every head has one, no element twice in a head, none beyond a trained HDM (R258). -/
def State.mapHeadsOk (s : State) (b : Nat) (m : List Addr) : Bool :=
  let heads := (m.map (·.head)).eraseDups
  heads.all fun h =>
    let es := (m.filter (·.head == h)).map (·.element)
    match (List.range 32).find? fun l => laneCarries s.obj l b h with
    | none => false
    | some l =>
      es.eraseDups.length == es.length
        && ((s.lane l).st != .trained || (s.lane l).cap.all fun c => es.all (· < c.elements))

/-- The state of an HDM. -/
def State.hdm (s : State) (m : Nat) : Hdm := vget s.hdms m Hdm.start

/-- An HDM changed. -/
def State.modHdm (s : State) (m : Nat) (f : Hdm → Hdm) : State := { s with hdms := vmod s.hdms m f }

/-- An input of an HDM. -/
def Hdm.input (h : Hdm) (fromB : Bool) : HdmIn := if fromB then h.b else h.a

/-- An input of an HDM changed. -/
def Hdm.modInput (h : Hdm) (fromB : Bool) (f : HdmIn → HdmIn) : Hdm :=
  if fromB then { h with b := f h.b } else { h with a := f h.a }

/-- The HDM on a lane knows HL1 alone: input A only, no GenMax (R268, R273). -/
def hdmIsHl1 (m : Nat) : Bool := (Config.hdmCap m).versions < 2

/-- An input claims ownership: it has block lock, and an OWNER frame whose ValidFor runs and that no RELEASE followed (R268). -/
def HdmIn.owns (i : HdmIn) : Bool := i.lock && i.claims

/-- OwnerState of an input: 0 none, 1 owner, 2 stale, 3 conflict (R264, R268). -/
def Hdm.owner (h : Hdm) (hl1 fromB : Bool) : Nat :=
  if hl1 then (if fromB then 0 else if h.a.owns then 1 else 0)
  else if !(h.input fromB).owns then 0
  else if (h.input !fromB).owns then 3
  else if (h.input fromB).gen = h.genMax then 1 else 2

/-- A frame or token that an HDM input with block lock receives. -/
def State.onHdm (s : State) (m : Lane) (fromB : Bool) (f : State → State) : Host.Outcome State Fault Refusal :=
  .next (if ((s.hdm m).input fromB).lock then f s else s)

/-- A frame that an HDM sends on an input, with its blocks (R261, R264). -/
def State.hdmSend (s : State) (m : Nat) (fromB : Bool) (f : HdmTx) : State :=
  let q := ((s.hdm m).input fromB).frameSeq
  ((s.emit (.hdm m fromB f)).emit (.hdmFrame m fromB (hdmBlocks q f))).modHdm m fun h =>
    h.modInput fromB fun i => { i with frameSeq := (q + 1) % 256 }

/-- The drive of a waveform table as an HDM fires it: at HL3 the offset of its band is added to every level (R240, R269, R278). -/
def Hdm.drive (h : Hdm) (t : Bytes) : List Drive :=
  let k := leAt t 0 1
  let off := toSigned 16 (leAt t (4 + 2 * h.band) 2)
  (List.range (leAt t 1 1)).map fun i =>
    let v := toSigned 16 (leAt t (18 + 8 * i) 2)
    { duration := leAt t (16 + 8 * i) 2, level := if h.version = 3 then bandLevel k v off else v, shape := leAt t (20 + 8 * i) 1 }

/-- HDM_LINE_FRAME: the line is held for its head; a discarded frame clears that head's held line (R261, R262, R269). -/
def execHdmLineFrame (m : Lane) (fromB : Bool) (f : HdmLine) (crcOk : Bool) (s : State) : Host.Outcome State Fault Refusal :=
  s.onHdm m fromB fun s => s.modHdm m fun h =>
    if crcOk ∧ (if f.zeroLine then f.levels.isEmpty else f.levels.length = f.elements) then
      let levels := if f.zeroLine then List.replicate f.elements 0 else f.levels
      { h with held := kvPut h.held f.head { tag := f.number % 2 ^ 16, number := f.number % 2 ^ 32, bar := f.bar, levels := levels } }
    else { h.modInput fromB (fun i => { i with crcErrors := i.crcErrors + 1 }) with held := kvDel h.held f.head }

/-- HDM_TOKEN: the checks, the fires of matching held lines, and all held lines cleared (R263, R268, R269, R278). `crc` is the Crc16 of
the extension, none where the two blocks did not come consecutively. -/
def execHdmToken (m : Lane) (fromB : Bool) (head : TokenHead) (number : BitVec 32) (tag gen : BitVec 16) (crc : Option (BitVec 16))
    (s : State) : Host.Outcome State Fault Refusal :=
  s.onHdm m fromB fun s =>
    let h := s.hdm m
    let h := { h with band := h.nextBand.getD h.band, nextBand := none }
    let ok := crc.any fun c => c.toNat == tokenCrc head tag.toNat gen.toNat number.toNat
    let good := ok && h.owner (hdmIsHl1 m) fromB == 1 && (h.version != 3 || (h.input fromB).gen % 2 ^ 16 == gen.toNat)
    let clear := fun (h : Hdm) => s.modHdm m fun _ => { h with held := [] }
    if !good then clear { h with rejects := (h.rejects + 1) % 2 ^ 16 }
    else
      let miss := (h.held.filter fun e => e.2.tag != tag.toNat).length
      let hits := h.held.filter fun e => e.2.tag == tag.toNat && e.2.number == number.toNat
      let s := clear { h with fired := (h.fired + 1) % 2 ^ 32, mismatches := (h.mismatches + miss) % 2 ^ 16 }
      let after := head.delay.toNat + (Config.hdmCap m).fireOffset
      let drive := h.tables.map fun t => (t.1, h.drive t.2)
      forEach hits (fun e s => s.emit (.hdm m fromB (.fire e.1 head.bar.toNat number.toNat e.2.levels after drive))) s

/-- HDM_OWNER_FRAME: GenMax and the input's claim (R268). -/
def execHdmOwnerFrame (m : Lane) (fromB : Bool) (_active : Bool) (gen : BitVec 32) (validFor : BitVec 16) (s : State) :
    Host.Outcome State Fault Refusal :=
  s.onHdm m fromB fun s => s.modHdm m fun h =>
    { h.modInput fromB (fun i => { i with claims := validFor != 0, gen := gen.toNat }) with
      genMax := max h.genMax gen.toNat }

/-- HDM_RELEASE: the input's claim ends (R268). -/
def execHdmRelease (m : Lane) (fromB : Bool) (s : State) : Host.Outcome State Fault Refusal :=
  s.onHdm m fromB fun s => s.modHdm m fun h => h.modInput fromB fun i => { i with claims := false }

/-- HDM_VALIDFOR_EXPIRY: the claim runs out (R268). -/
def execHdmValidforExpiry (m : Lane) (fromB : Bool) (s : State) : Host.Outcome State Fault Refusal :=
  .next (s.modHdm m fun h => h.modInput fromB fun i => { i with claims := false })

/-- HDM_SYNC_FRAME: the band for HL3, and the Echo STAT (R264, R274, R278); the turnaround is the HDM's own. -/
def execHdmSyncFrame (m : Lane) (fromB : Bool) (band : BitVec 8) (echo : BitVec 16) (s : State) : Host.Outcome State Fault Refusal :=
  s.onHdm m fromB fun s =>
    let s := s.modHdm m fun h => if h.version = 3 ∧ band.toNat ≤ 3 then { h with nextBand := some band.toNat } else h
    if echo = 0 then s
    else
      let (t, s) := s.freeBelow ((Config.hdmCap m).maxTurnaround * 8 / 5 + 1)
      s.hdmSend m fromB (.echo echo.toNat t)

/-- HDM_TABLE_FRAME: the table taken or refused, and a TableAck (R264). -/
def execHdmTableFrame (m : Lane) (fromB : Bool) (level seq : BitVec 8) (table : Bytes) (crcOk : Bool) (s : State) :
    Host.Outcome State Fault Refusal :=
  s.onHdm m fromB fun s =>
    let r := if !crcOk then 1 else if table.isEmpty ∨ !waveOk table ∨ level = 0 ∨ 7 < level.toNat then 2
      else if leAt table 0 1 ≠ (Config.hdmCap m).kind then 3 else 0
    let s := if r = 0 then s.modHdm m fun h => { h with tables := kvPut h.tables level.toNat table }
      else if r = 1 then s.modHdm m fun h => h.modInput fromB fun i => { i with crcErrors := i.crcErrors + 1 } else s
    s.hdmSend m fromB (.tableAck seq.toNat r)

/-- The CAP frame of an HDM on an input (R264, R272). -/
def State.hdmCap (s : State) (m : Nat) (fromB : Bool) (chosen : Nat) : State :=
  s.hdmSend m fromB (.cap { Config.hdmCap m with chosen := chosen, input := b2n fromB })

/-- HDM_CAP_FRAME: the HDM answers with its capabilities and the version chosen (R272). -/
def execHdmCapFrame (m : Lane) (fromB : Bool) (chosen : BitVec 8) (s : State) : Host.Outcome State Fault Refusal :=
  s.onHdm m fromB fun s =>
    (s.modHdm m fun h => if chosen = 0 then h else { h with version := chosen.toNat }).hdmCap m fromB chosen.toNat

/-- A Status STAT of an HDM on an input (R264); the head faults and temperatures are the HDM's own. -/
def State.hdmStatus (s : State) (m : Nat) (fromB : Bool) : State :=
  let h := s.hdm m
  let hl1 := hdmIsHl1 m
  let (flags, s) := s.freeBelow 8
  let (mask, s) := s.freeBelow 65536
  let (temps, s) := s.freeBytes 16
  let temps := if h.version = 1 then List.replicate 16 0x7F else temps
  s.hdmSend m fromB (.status
    { ownerState := BitVec.ofNat 4 (h.owner hl1 false + 4 * h.owner hl1 true), flags := BitVec.ofNat 8 flags,
      genMax := BitVec.ofNat 32 (if hl1 then 0 else h.genMax), fired := BitVec.ofNat 32 h.fired, rejects := BitVec.ofNat 16 h.rejects,
      crcErrors := BitVec.ofNat 16 (h.input fromB).crcErrors, mismatches := BitVec.ofNat 16 h.mismatches,
      faultMask := BitVec.ofNat 16 mask, temps := temps })

/-- HDM_STATUS_INTERVAL: a Status STAT on every locked input (R264). -/
def execHdmStatusInterval (m : Lane) (s : State) : Host.Outcome State Fault Refusal :=
  let go := fun (fromB : Bool) (s : State) => if ((s.hdm m).input fromB).lock then s.hdmStatus m fromB else s
  .next (go true (go false s))

/-- HDM_BLOCK_ALIGNED: an input gains block lock, sends its first CAP and its Status STATs (R264, R277); HL1 has no input B. -/
def execHdmBlockAligned (m : Lane) (fromB : Bool) (s : State) : Host.Outcome State Fault Refusal :=
  if fromB && hdmIsHl1 m then .next s
  else
    let s := s.modHdm m fun h => h.modInput fromB fun i => { i with lock := true }
    .next ((s.hdmCap m fromB 0).hdmStatus m fromB)

/-- HDM_BLOCK_LOCK_LOST: the input stops claiming and reporting; it claims again where its lock returns in time (R264, R268). -/
def execHdmBlockLockLost (m : Lane) (fromB : Bool) (s : State) : Host.Outcome State Fault Refusal :=
  .next (s.modHdm m fun h => h.modInput fromB fun i => { i with lock := false })

end Sys2Proof.Machine
end

