-- ==== Sys2Proof/Machine/Measure.lean ====
section
/-! DEFINITION. HDG: what readings mean, the pending map and auto-hide, how a lane's and a bar's measurement end (R285, R288 to R295). -/

set_option Elab.async false

namespace Sys2Proof.Machine

/-- The head of the bar that a lane-local head is. -/
def State.barHead (s : State) (l h : Nat) : Nat := s.num 0x2A11 (l + 1) + h

/-- Status set at the addresses of a lane-local head's elements for which `p` holds (R289). -/
def State.measStatus (s : State) (l h st : Nat) (p : Nat → Bool) : State :=
  let b := s.laneBar l
  forEach (s.addressesWhere b fun hd el => hd == s.barHead l h && p el) (fun a s => s.modMeas b a fun r => { r with status := st }) s

/-- A reading of an element stored; a capacitive head's address counts as measured once its leakage is in too (R288). -/
def State.measStore (s : State) (l h el kind v : Nat) : State :=
  let b := s.laneBar l
  forEach (s.addressesWhere b fun hd e => hd == s.barHead l h && e == el) (fun a s => s.modMeas b a fun r =>
    if kind = 3 then { r with leak := v, status := if r.status = 1 then 0 else r.status }
    else { r with primary := v, capacitive := kind == 2, status := if kind = 1 then 0 else r.status }) s

/-- The Baseline fields of an address: Primary and Leakage (R290). -/
def State.baseline (s : State) (b a : Nat) : Nat :=
  let t := s.bytes 0x2B12 (b + 1)
  if t.length = 4 * s.num 0x2711 (b + 1) then leAt t (4 * a) 2 else 0

/-- Class and deviation of a reading: 0 good, 1 weak, 2 missing, FFh none (R290). -/
def classify (r : MeasRec) (base weak missing leakWeak leakMissing : Nat) : Nat × Nat :=
  if r.status ≠ 0 then (255, 0xFFFF)
  else if r.primary = 0 ∨ r.primary = 0xFFFF then (2, 0xFFFF)
  else
    let diff := if r.primary < base then base - r.primary else r.primary - base
    let dev := if base = 0 then 0xFFFF else min 0xFFFE (diff * 1000 / base)
    let c := if dev ≠ 0xFFFF ∧ missing < dev then 2 else if dev ≠ 0xFFFF ∧ weak < dev then 1 else 0
    let c := if r.capacitive then
        (if r.leak = 0 ∨ r.leak < leakMissing then 2 else if r.leak < leakWeak ∧ c = 0 then 1 else c) else c
    (c, dev)

/-- An entry's 8 bytes with its State field set (R201). -/
def withState (entry : Bytes) (st : Nat) : Bytes :=
  let v := leNat entry
  u64 (v / 2 ^ 31 * 2 ^ 31 + st * 2 ^ 29 + v % 2 ^ 29)

/-- A map's bytes with State set where `f` gives one. -/
def setStates (b : Bytes) (f : Nat → Option Nat) : Bytes :=
  (List.range (b.length / 8)).flatMap fun a =>
    let e := slice b (8 * a) 8
    match f a with
    | some st => withState e st
    | none => e

/-- Auto-hide: newly missing addresses made missing in the live map, in a written shadow and in the lines of the bar that are issued and
not yet printed (R293; assumption 57). -/
def State.autoHide (s : State) (b : Nat) (newly : List Nat) : State :=
  let hide := fun (t : Bytes) => setStates t fun a => if newly.contains a then some 2 else none
  let k := key 0x2710 (b + 1)
  let s := s.setObj 0x2710 (b + 1) (.bytes (hide (s.bytes 0x2710 (b + 1))))
  let s := match kvGet s.wilwa.shadow k with
    | some v => { s with wilwa := { s.wilwa with shadow := kvPut s.wilwa.shadow k (.bytes (hide v.toBytes)) } }
    | none => s
  let s := s.modBar b fun x => { x with buf := x.buf.map fun e => (e.1, { e.2 with cfg := { e.2.cfg with map := hide e.2.cfg.map } }) }
  let s := s.addNum 0x2B1E (b + 1) newly.length
  s.raise (0x2B10 + b) 0 (u32 newly.length ++ u32 (s.num 0x2B1E (b + 1)))

/-- A bar is complete: classed, its pending map written, counted, recorded, and hidden where AutoHide is armed (R290 to R293). -/
def State.measClassify (s : State) (b : Nat) : State :=
  let i := b + 1
  let m := s.map b
  let addrs := List.range m.length
  let s := forEach addrs (fun a s =>
    let (c, d) := classify (s.measRec b a) (s.baseline b a) (s.num 0x2B13 i) (s.num 0x2B14 i) (s.num 0x2B15 i) (s.num 0x2B16 i)
    s.modMeas b a fun r => { r with cls := c, dev := d }) s
  let live := fun (a : Nat) => (m.getD a default).state
  let pending := fun (a : Nat) =>
    let c := (s.measRec b a).cls
    if c = 255 then live a else if s.num 0x2B17 i = 1 then max c (live a) else c
  let newly := addrs.filter fun a => pending a == 2 && live a != 2
  let map := setStates (s.bytes 0x2710 i) fun a => some (pending a)
  let s := { s with hdg := { s.hdg with pendingMap := vmod s.hdg.pendingMap b fun _ => map, pendingValid := s.hdg.pendingValid ||| 2 ^ b } }
  let weak := (addrs.filter fun a => pending a == 1).length
  let missing := (addrs.filter fun a => pending a == 2).length
  let s := ((s.setNum 0x2B1B i weak).setNum 0x2B1C i missing).setNum 0x2B1D i newly.length
  let s := s.raise (0x2B00 + b) 0 (u32 weak ++ u32 missing ++ u32 newly.length)
  let s := match newly with
    | [] => s
    | f :: _ => s.raise (0x2B08 + b) 0 (u32 newly.length ++ u32 f)
  if s.num 0x2B1A i = 1 then s.autoHide b newly else s

/-- A bar whose lanes have all finished is complete; the run ends with the last one (R289, R295). -/
def State.measBarDone (s : State) (b : Nat) : State :=
  if !bit s.hdg.pending b || !(s.lanesOf b).all (fun l => (s.lane l).measDone) then s
  else
    let s := s.measClassify b
    let s := { s with hdg := { s.hdg with pending := s.hdg.pending - 2 ^ b, complete := s.hdg.complete ||| 2 ^ b, done := s.hdg.done ||| 2 ^ b } }
    if s.hdg.pending ≠ 0 then s
    else ({ s with hdg := { s.hdg with phase := 2 } } : State).setNum 0x2B10 5 (ceilDiv (s.tick - s.hdg.startTick) 400000)

/-- A lane's list ends; a lane woken for it returns to electrical idle (R285, R289). -/
def State.measLaneDone (s : State) (l : Nat) : State :=
  let woken := (s.lane l).woken
  let s := s.modLane l fun x => { x with meas := none, measDone := true, woken := false }
  let s := if woken then s.laneIdle l else s
  s.measBarDone (s.laneBar l)

/-- The lane's groups from a measurement on take a status: those of its head from `first` on, and later heads where `later`. -/
def State.measRest (s : State) (l : Nat) (o : MeasOut) (st : Nat) (later : Bool) : State :=
  let s := s.measStatus l o.head st fun e => o.first ≤ e
  if later then
    forRange (s.laneHeads l).length (fun h s => if o.head < h then s.measStatus l h st fun _ => true else s) s
  else s

/-- The lane leaves TRAINED while it is measured: its remaining groups are skipped (R289). -/
def State.measLaneLost (s : State) (l : Nat) : State :=
  if s.hdg.phase ≠ 1 ∨ !bit s.hdg.pending (s.laneBar l) ∨ (s.lane l).measDone then s
  else
    let o := (s.lane l).meas.getD { head := 0, first := 0, count := 0, kind := 0, tag := 0, retried := false }
    (s.measRest l o 4 true).measLaneDone l

/-- The trained job lanes of a bar enter electrical idle; a measurement on one of them ends there (R276, R289). -/
def State.barIdle (s : State) (b : Nat) : State :=
  forEach (s.lanesOf b) (fun l s => if s.jobLane l then (s.measLaneLost l).laneIdle l else s) s

/-- LANE_TABLE_ACK_TIMEOUT: tables not acknowledged in 10 ms; FailCause 7, the lane is untrained (R241, R270; assumption 34). -/
def execLaneTableAckTimeout (l : Lane) (s : State) : Host.Outcome State Fault Refusal :=
  let x := s.lane l
  if x.tablesOut.isEmpty then .next s
  else match x.st with
    | .tables => .next (s.laneFail l 7)
    | .trained => .next (((s.sendRelease l).laneFail l 7).measLaneLost l)
    | _ => .next s

end Sys2Proof.Machine
end

