-- ==== Sys2Proof/Machine/Gf.lean ====
section
/-! DEFINITION. The field GF(2^16) of the memory's check code and its bounded-distance decoder (R151). -/

set_option Elab.async false

namespace Sys2Proof.Machine

/-- A field element times x, modulo x^16 + x^12 + x^3 + x + 1. -/
def gfDouble (a : Nat) : Nat := if 2 ^ 15 ≤ a then (2 * a) ^^^ 0x1100B else 2 * a

/-- The product of `a` and the low `n` bits of `b`. -/
def gfMulN : Nat → Nat → Nat → Nat
  | 0, _, _ => 0
  | n + 1, a, b => (if b % 2 = 1 then a else 0) ^^^ gfMulN n (gfDouble a) (b / 2)

/-- The product of two field elements. -/
def gfMul (a b : Nat) : Nat := gfMulN 16 a b

/-- α^n, α = x. -/
def gfAlpha : Nat → Nat
  | 0 => 1
  | n + 1 => gfDouble (gfAlpha n)

/-- a^(2^k - 1) for `k` up to 16 gives the inverse by a^(2^16 - 2). -/
def gfPowOnes : Nat → Nat → Nat
  | 0, _ => 1
  | k + 1, a => let q := gfPowOnes k a
    gfMul a (gfMul q q)

/-- The inverse of a non-zero element: the square of a^(2^15 - 1). -/
def gfInv (a : Nat) : Nat := let q := gfPowOnes 15 a
  gfMul q q

/-- The 16 syndromes of an error pattern: the sum of symbol * α^(i * position) (R151). -/
def syndromes (errors : List (Nat × Nat)) : List Nat :=
  (List.range 16).map fun i => errors.foldl (fun a e => a ^^^ gfMul e.2 (gfAlpha (i * e.1))) 0

/-- Coefficient `i` of a polynomial. -/
def coef (p : List Nat) (i : Nat) : Nat := p.getD i 0

/-- The sum of two polynomials, the second scaled and shifted up. -/
def polyAdd (p q : List Nat) (c shift : Nat) : List Nat :=
  (List.range (max p.length (q.length + shift))).map fun i =>
    coef p i ^^^ (if shift ≤ i then gfMul c (coef q (i - shift)) else 0)

/-- One step of the Berlekamp-Massey recurrence over the syndromes: locator, last locator, its discrepancy, length, shift. -/
structure Bm where
  l : List Nat
  b : List Nat
  d : Nat
  len : Nat
  m : Nat
  deriving DecidableEq, Repr

/-- The step for syndrome `n`. -/
def bmStep (s : List Nat) (n : Nat) (k : Bm) : Bm :=
  let delta := (List.range (k.len + 1)).foldl (fun a i => a ^^^ gfMul (coef k.l i) (coef s (n - i))) 0
  if delta = 0 then { k with m := k.m + 1 }
  else
    let l := polyAdd k.l k.b (gfMul delta (gfInv k.d)) k.m
    if 2 * k.len ≤ n then { l := l, b := k.l, d := delta, len := n + 1 - k.len, m := 1 }
    else { k with l := l, m := k.m + 1 }

/-- The value of a polynomial. -/
def polyEval (p : List Nat) (x : Nat) : Nat := p.foldr (fun c a => c ^^^ gfMul a x) 0

/-- The positions that the bounded-distance decoder locates for up to 8 symbols; none where it finds no solution (R151). -/
def locate (s : List Nat) : Option (List Nat) :=
  let k := (List.range 16).foldl (fun k n => bmStep s n k) { l := [1], b := [1], d := 1, len := 0, m := 1 }
  let roots := (List.range 82).filter fun p => polyEval k.l (gfInv (gfAlpha p)) == 0
  if k.len ≤ 8 ∧ roots.length = k.len then some roots else none

/-- The classes of a read (R151). -/
inductive ReadClass where
  | clean
  | corrected (device : Nat)
  | address
  | uncorrectable
  deriving DecidableEq, Repr

/-- The class that the decoder gives the located positions (R151). -/
def classOf (s : List Nat) : ReadClass :=
  if s.all (· == 0) then .clean
  else match locate s with
    | none => .uncorrectable
    | some ps =>
      if ps.all (80 ≤ ·) then .address
      else
        let j := ps.headD 0 / 4
        if ps.all fun p => p / 4 == j && p < 80 then .corrected j else .uncorrectable

/-- FreezeErrorMap: devices located, virtual positions, bit 31 for no solution (R165). -/
def errorMap (s : List Nat) : Nat :=
  match locate s with
  | none => 2 ^ 31
  | some ps => maskOf (fun b => ps.any fun p => if p = 80 then b == 20 else if p = 81 then b == 21 else p / 4 == b) 22

end Sys2Proof.Machine
end

