-- ==== Sys2Proof/Machine/Progress.lean ====
section
/-! DEFINITION. How a state request of PWR's sequencer begins, how far it has come and how it ends (R24, R32, R34). -/

set_option Elab.async false

namespace Sys2Proof.Machine

/-- PWR's sequencer changed. -/
def State.modPwr (s : State) (f : Pwr → Pwr) : State := { s with pwr := f s.pwr }

/-- An accepted request starts: its target and first step (R34). -/
def State.beginRequest (s : State) (target step : Nat) (t : Option Transition) : State :=
  s.modPwr fun p => { p with progress := { target := target, step := step, unit := 0, result := 0, busy := true }, trans := t }

/-- A request ends with a result; a failed step and its unit stay readable; StateDone (R34, R82). -/
def State.endRequest (s : State) (result : Nat) : State :=
  let s := s.modPwr fun p =>
    { p with trans := none
             progress := { p.progress with busy := false, result := result, step := if result = 0 then 0 else p.progress.step,
                                           unit := if result = 0 then 0 else p.progress.unit } }
  s.irq 1

/-- A request still in progress is abandoned (R32). -/
def State.abandonRequest (s : State) : State := if s.pwr.trans.isSome then s.endRequest 5 else s

/-- The enabled channels, ascending (R141). -/
def State.enabled (s : State) : List Nat := (List.range 4).filter fun c => s.num 0x2310 (c + 1) == 1

/-- The lanes that a CONFIGURED request trains (R26, R270). -/
def State.jobLanes (s : State) : List Nat := (List.range 32).filter fun l => s.jobLane l

/-- The channel serves requests, or wakes from self-refresh to serve them, and empties its queues for nothing (R162 to R164). -/
def Mch.serves (m : Mch) : Bool := (m.st == .ready || m.st == .selfRefresh) && m.leaving.isNone

/-- Step and Unit of a CONFIGURED request in training: the lowest channel that is not trained, then the Raster port, then the lowest job
lane that is not trained (R34; assumption 16). -/
def State.trainingAt (s : State) : Nat × Nat :=
  match s.enabled.find? fun c => !(s.chan c).serves with
  | some c => (1, c)
  | none =>
    if !s.rin.linkUp then (2, 0)
    else (3, ((s.jobLanes.find? fun l => (s.lane l).st != .trained).orElse fun _ => s.jobLanes.getLast?).getD 0)

end Sys2Proof.Machine
end

