-- ==== Sys2Proof/Machine/Memory.lean ====
section
/-! DEFINITION. MEM: address map, queues and their service, refresh, check code, freeze, training and operating points
(R138 to R167). DRAM cells are kept by channel * 2^40 + channel-local address. -/

set_option Elab.async false

namespace Sys2Proof.Machine

/-- The DRAM cells are in canonical form: addresses rising, no cell equal to what an unlisted one reads. -/
def Memory.wf (m : List Host.Cell) : Bool := kvSorted m && m.all fun c => c.2 != 0

/-- What a cell reads. -/
def readCell (m : List Host.Cell) (a : Nat) : Byte := (kvGet m a).getD 0

/-- The cells with one byte written. -/
def writeCell (m : List Host.Cell) (a : Nat) (v : Byte) : List Host.Cell := kvSet m 0 a v

/-- The cells with a byte string written from an address up. -/
def writeCells : List Host.Cell → Nat → Bytes → List Host.Cell
  | m, _, [] => m
  | m, a, b :: bs => writeCells (writeCell m a b) (a + 1) bs

/-- `n` bytes read from an address up. -/
def readCells (m : List Host.Cell) (a n : Nat) : Bytes := (List.range n).map fun i => readCell m (a + i)

/-- The power domain of a memory channel (R7). -/
def chanDomain (c : Nat) : Nat := if c < 2 then domMEMA else domMEMB

/-- Ranks of a channel's DIMM. -/
def State.ranks (s : State) (c : Nat) : Nat := s.num 0x2311 (c + 1)

/-- ChannelCapacity: the data capacity of R138 less 2 MiB (R141). -/
def State.capacity (s : State) (c : Nat) : Nat :=
  s.ranks c * (s.num 0x2312 (c + 1) * 2 * 2 ^ 30) - 2 ^ 21

/-- cap of R141: the smallest capacity among the enabled channels, rounded down to 4096. -/
def State.memCap (s : State) : Nat :=
  match s.enabled with
  | [] => 0
  | c :: cs => (cs.foldl (fun m c => min m (s.capacity c)) (s.capacity c)) / 4096 * 4096

/-- The channel and the channel-local address of a system address (R141). -/
def State.locate (s : State) (a : Nat) : Option (Nat × Nat) :=
  let n := s.enabled.length
  if a < n * s.memCap then
    let u := a / 4096
    some (s.enabled.getD (u % n) 0, u / n * 4096 + a % 4096)
  else none

/-- The key of a cell. -/
def cellKey (l : Nat × Nat) : Nat := l.1 * 2 ^ 40 + l.2

/-- The DRAM location of a channel-local address, as FreezeLocation gives it (R141, R165). -/
def State.location (s : State) (c a : Nat) : Nat :=
  let v := a / 128
  let two := s.ranks c = 2
  let rank := if two then v / 4096 % 2 else 0
  let row := if two then v / 8192 else v / 4096
  rank * 2 ^ 31 + v % 8 * 2 ^ 28 + v / 8 % 4 * 2 ^ 26 + row * 256 + v / 32 % 128

/-- Target byte of a command log record: rank, bank group, bank (R165). -/
def targetOf (loc : Nat) : Nat := bits loc 31 31 * 128 + bits loc 30 28 * 16 + bits loc 27 26

/-- Rows of a bank (R138, R141). -/
def State.rowsOf (s : State) (c : Nat) : Nat := s.num 0x2312 (c + 1) * 2 * 2 ^ 30 / 2 ^ 19

/-- A command in the channel's log of the last 32 (R154, R165). -/
def State.logCmd (s : State) (c cmd target master row burst : Nat) : State :=
  let e : MemCmd := { stamp := s.stamp, cmd := cmd, target := target, master := master, flags := 0, row := row, burst := burst }
  s.modChan c fun m => { m with log := (m.log ++ [e]).drop (m.log.length - 31) }

/-- The last command of the log marked with a flag bit. -/
def State.flagCmd (s : State) (c flag : Nat) : State :=
  s.modChan c fun m => { m with log := match m.log.getLast? with
    | some e => m.log.dropLast ++ [{ e with flags := e.flags ||| flag }]
    | none => [] }

/-- One step of the 32-bit Galois LFSR with polynomial x^32 + x^22 + x^2 + x + 1 (R150). -/
def lfsrStep (x : Nat) : Nat :=
  let y := 2 * x % 2 ^ 32
  if 2 ^ 31 ≤ x then y ^^^ 0x00400007 else y

/-- The rows beside a row, within the bank (R150). -/
def State.rowsBeside (s : State) (c row : Nat) : List Nat :=
  (if 0 < row then [row - 1] else []) ++ (if row + 1 < s.rowsOf c then [row + 1] else [])

/-- An ACTIVATE: logged, the LFSR advanced, and the neighbour refreshes that it makes due noted (R150). -/
def State.activate (s : State) (c t row master : Nat) : State :=
  let s := s.logCmd c 1 t master row 0
  let x := lfsrStep (s.chan c).lfsr
  let near := if x % 2 ^ s.num 0x231B (c + 1) = 0 then (s.rowsBeside c row).map fun r => (t, r) else []
  s.modChan c fun m => { m with lfsr := x, due := m.due ++ near }

/-- The due neighbour refreshes whose target meets `p` issued, oldest first, each an ACTIVATE and a PREpb (R150). -/
def State.issueDue : Nat → Nat → (Nat → Bool) → State → State
  | 0, _, _, s => s
  | n + 1, c, p, s =>
    match (s.chan c).due.find? fun d => p d.1 with
    | none => s
    | some d =>
      let s := (s.modChan c fun m => { m with due := m.due.erase d }).activate c d.1 d.2 8
      State.issueDue n c p ((s.logCmd c 5 d.1 8 d.2 0).bump 0x2342 (c + 1))

/-- The neighbour refreshes due in one bank issued, as they are before any other command to it (R150). -/
def State.clearBank (s : State) (c t : Nat) : State := State.issueDue 1024 c (· == t) s

/-- One access on the bus: an ACTIVATE and a read or write with auto-precharge (R143, R150). -/
def State.access (s : State) (c a master : Nat) (write : Bool) : State :=
  let loc := s.location c a
  let t := targetOf loc
  let row := bits loc 24 8
  ((s.clearBank c t).activate c t row master).logCmd c (if write then 3 else 2) t master row (bits loc 7 0)

/-- A queued write issued to DRAM. -/
def State.issueWrite (s : State) (c : Nat) (w : MemWrite) : State :=
  let s := s.access c w.addr w.master true
  { s with dram := writeCells s.dram (cellKey (c, w.addr)) w.data }

/-- Every held write of a channel issued, oldest first (R156). -/
def State.issueAll (s : State) (c : Nat) : State :=
  let ws := (s.chan c).writes
  let s := s.modChan c fun m => { m with writes := [], drain := false }
  forEach ws (fun w s => s.issueWrite c w) s

/-- A command of the controller itself to every rank of a channel: self-refresh, mode registers, ZQ calibration (R142, R165). -/
def State.rankCmd (s : State) (c cmd : Nat) : State := forRange (s.ranks c) (fun r s => s.logCmd c cmd (r * 128) 8 0 0) s

/-- A stored result loaded: an unstated number of mode register writes, then ZQ calibration (R159; assumption 69). -/
def State.restoreCmds (s : State) (c : Nat) : State :=
  let (n, s) := s.freeBelow 33
  (forRange n (fun _ s => s.rankCmd c 8) s).rankCmd c 0x0A

/-- The commands of a training step: ZQ calibration is one of R165's, the others are not stated and up to 32 free commands of the
controller stand for them (R159; assumption 69). -/
def State.stepCmds (s : State) (c step : Nat) : State :=
  if step = 1 then s.rankCmd c 0x0A
  else
    let (n, s) := s.freeBelow 33
    forRange n (fun _ s =>
      let (cmd, s) := s.freeBelow 10
      let (r, s) := s.freeBelow (s.ranks c)
      let (g, s) := s.freeBelow 8
      let (b, s) := s.freeBelow 4
      let (row, s) := s.freeBelow (s.rowsOf c)
      let (burst, s) := s.freeBelow 128
      s.logCmd c (cmd + 1) (r * 128 + g * 16 + b) 8 row burst) s

/-- The four REFsb of a refresh interval of one rank, each behind the neighbour refreshes due in its banks unless the channel is frozen
(R147, R150, R154). -/
def State.refreshRank (s : State) (c rank : Nat) : State :=
  let s := forRange 4 (fun b s =>
    let s := if (s.chan c).st = .frozen then s else State.issueDue 1024 c (fun t => t / 128 == rank && t % 4 == b) s
    s.logCmd c 4 (rank * 128 + b) 8 0 0) s
  s.modChan c fun m => { m with owed := vmod m.owed rank (· - 1) }

/-- The owed refreshes of a channel issued. -/
def State.refreshOwed (s : State) (c : Nat) : State :=
  forRange 2 (fun r s => forRange (vget (s.chan c).owed r 0) (fun _ s => s.refreshRank c r) s) s

/-- Owed refreshes issued and self-refresh entered (R160, R162, R163). -/
def State.selfRefresh (s : State) (c : Nat) : State := (s.refreshOwed c).rankCmd c 6

/-- A real-time read waits (R142, R145). -/
def Mch.rtWaits (m : Mch) : Bool := m.reads.any (·.master == 0)

/-- The burst as the reads that wait give it (R145). -/
def Mch.setBurst (m : Mch) : Mch := { m with burst := m.rtWaits && !m.guard }

/-- The system address of a channel-local one (R141). -/
def State.systemAddr (s : State) (c a : Nat) : Nat :=
  let n := s.enabled.length
  (a / 4096 * n + s.enabled.idxOf c) * 4096 + a % 4096

/-- The master and the address of a waiting request. -/
def MemWait.master : MemWait → Nat
  | .read r => r.master
  | .write w => w.master

def MemWait.addr : MemWait → Nat
  | .read r => r.addr
  | .write w => w.addr

/-- Waiting requests taken in their order. A write that finds the queue full waits, and with it what its master or its address asks for
later; every other request passes it. A read of a queued address takes its data from the queue (R144, R146, R155). -/
def State.admitWaiting (c : Nat) : List MemWait → List MemWait → State → State
  | held, [], s => s.modChan c fun m => { m with waiting := held }
  | held, q :: t, s =>
    if held.any fun h => h.master == q.master || h.addr == q.addr then State.admitWaiting c (held ++ [q]) t s
    else
      let ws := (s.chan c).writes
      match q with
      | .read r =>
        match ws.find? (·.addr == r.addr) with
        | some w => State.admitWaiting c held t (s.emit (.memRead r.master (s.systemAddr c r.addr) (some w.data)))
        | none => State.admitWaiting c held t (s.modChan c fun m => { m with reads := m.reads ++ [r] })
      | .write w =>
        if ws.any (·.addr == w.addr) then
          State.admitWaiting c held t (s.modChan c fun m =>
            { m with writes := m.writes.map fun (x : MemWrite) => if x.addr = w.addr then w else x })
        else if ws.length < 64 then State.admitWaiting c held t (s.modChan c fun m => { m with writes := m.writes ++ [w] })
        else State.admitWaiting c (held ++ [q]) t s

/-- The channel works off its queues: READY, or about to leave READY for another operating point (R160, R164). -/
def Mch.works (m : Mch) : Bool := m.st == .ready || (m.st == .freqChange && m.leaving.isSome)

/-- Waiting requests enter the queues of a channel that takes requests. -/
def State.takeIn (s : State) (c : Nat) : State :=
  if (s.chan c).leaving.isSome then s else State.admitWaiting c [] (s.chan c).waiting s

/-- A channel with empty queues: owed and neighbour refreshes are issued, and a channel that leaves for another point enters self-refresh
(R144, R160). -/
def State.atRest (s : State) (c : Nat) : State :=
  let s := State.issueDue 1024 c (fun _ => true) (s.refreshOwed c)
  match (s.chan c).leaving with
  | some (.freq p) => (s.selfRefresh c).modChan c fun m => { m with leaving := none, point := p }
  | _ => s

/-- The channel serves its queues until the next item is a read; no write passes an older read of its address (R144). -/
def settleN : Nat → Nat → State → State
  | 0, _, s => s
  | n + 1, c, s =>
    let s := s.takeIn c
    let s := s.modChan c fun m =>
      { m.setBurst with drain := if 48 ≤ m.writes.length then true else if m.writes.length ≤ 16 then false else m.drain }
    let m := s.chan c
    if m.burst then s
    else if m.writes.isEmpty then (if m.reads.isEmpty then s.atRest c else s)
    else if m.drain || m.reads.isEmpty then
      match m.writes.find? (fun w => !m.reads.any (·.addr == w.addr)) with
      | some w => settleN n c ((s.modChan c fun m => { m with writes := m.writes.erase w }).issueWrite c w)
      | none => s
    else s

/-- The queues of a channel that serves requests brought to rest (R144). -/
def State.settle (s : State) (c : Nat) : State :=
  let m := s.chan c
  if m.works then settleN (m.waiting.length + m.writes.length + 1) c s else s

/-- A channel woken from self-refresh by a request (R162). -/
def State.wakeChan (s : State) (c : Nat) : State :=
  if (s.chan c).st = .selfRefresh ∧ (s.chan c).leaving = none then (s.modChan c fun m => { m with st := .ready }).rankCmd c 7 else s

/-- A request of a master at a channel-local address enters its channel's queues, or waits (R144 to R146, R155). -/
def State.memRequest (s : State) (c a master : Nat) (data : Option Bytes) : State :=
  let s := s.wakeChan c
  let q : MemWait := match data with
    | some d => .write { master := master, addr := a, data := padTo 128 d }
    | none => .read { master := master, addr := a }
  (s.modChan c fun m => { m with waiting := m.waiting ++ [q] }).settle c

/-- MEMORY_REQUEST: a read or a 128-byte write of a master at a system address (R144 to R146, R155). -/
def execMemoryRequest (master : BitVec 8) (addr : BitVec 48) (data : Option Bytes) (s : State) :
    Host.Outcome State Fault Refusal :=
  match s.locate (addr.toNat / 128 * 128) with
  | none => .fault (.noSuchAddress addr.toNat)
  | some (c, a) => .next (s.memRequest c a master.toNat data)

/-- Training of a CONFIGURED request abandoned: Step and Unit stay readable, unfinished channels are untrained, unfinished lanes fall back
to DEEP (R25, R32, R34). -/
def State.abandonTraining (s : State) : State :=
  if s.pwr.trans ≠ some .training then s
  else
    let (step, unit) := s.trainingAt
    let s := s.modPwr fun p => { p with progress := { p.progress with step := step, unit := unit } }
    let s := forEach s.enabled (fun c s => if (s.chan c).st = .training then
      s.modChan c fun m => { m with st := .untrained, step := 0, result := 3 } else s) s
    forEach s.jobLanes (fun l s => match (s.lane l).st with
      | .waking | .aligning | .capability | .latency | .tables => s.laneDeep l
      | _ => s) s

/-- A freezing channel: its state, its captures, its source; a CONFIGURED request in training that needs it is abandoned (R32, R153,
R154). -/
def State.freezeChan (s : State) (c cause address loc : Nat) (synd : Bytes) (map : Nat) : State :=
  let k := c + 1
  let s := s.modChan c fun m =>
    { m with st := .frozen, freezeCause := cause, burst := false, drain := false, leaving := none
             pendingPoint := match m.leaving with
               | some (.freq p) => some p
               | _ => m.pendingPoint }
  let log := (s.chan c).log.foldl (fun b e => b ++ u32 e.stamp ++ u8 e.cmd ++ u8 e.target ++ u8 e.master ++ u8 e.flags
    ++ u32 e.row ++ u16 e.burst ++ [0, 0]) []
  let s := s.setNum 0x2330 k address
  let s := s.setNum 0x2331 k loc
  let s := s.setObj 0x2332 k (.bytes synd)
  let s := s.setNum 0x2333 k map
  let s := s.setNum 0x2334 k s.stamp48
  let s := s.setObj 0x2335 k (.bytes (List.replicate (512 - log.length) 0 ++ log))
  let s := s.raise (0x2310 + c) cause (u8 cause ++ u32 map ++ u32 loc)
  if s.pwr.trans = some .training ∧ s.enabled.contains c then s.abandonTraining.abandonRequest else s

/-- The read that a channel issues next: one that a freeze held, else the oldest real-time read, else the oldest (R144, R156). -/
def Mch.nextRead (m : Mch) : Option MemRead :=
  if 0 < m.heldReads then m.reads.head? else (m.reads.find? (·.master == 0)).orElse fun _ => m.reads.head?

/-- MEMORY_READ_COMPLETE: the channel's read comes back with an error pattern over its codeword (R151 to R154). -/
def execMemoryReadComplete (c : Chan) (errors : List (Fin 82 × BitVec 16)) (s : State) : Host.Outcome State Fault Refusal :=
  let k := c.val + 1
  let m := s.chan c
  match m.nextRead with
  | none => .next s
  | some r =>
    if !m.works then .next s
    else
      let s := s.access c r.addr r.master false
      let s := s.modChan c fun m => { m with reads := m.reads.erase r, heldReads := m.heldReads - 1 }
      let sy := syndromes (errors.map fun e => (e.1.val, e.2.toNat))
      let data := readCells s.dram (cellKey (c, r.addr)) 128
      let sys := s.systemAddr c r.addr
      let loc := s.location c r.addr
      match classOf sy with
      | .clean =>
        if errors.all (·.2 == 0) then .next ((s.emit (.memRead r.master sys (some data))).settle c)
        else
          let (b, s) := s.freeBytes 128
          .next ((s.emit (.memRead r.master sys (some b))).settle c)
      | .corrected j =>
        let s := s.flagCmd c 4
        let s := s.bump 0x2320 k
        let per := s.bytes 0x2325 k
        let at4 := (bits loc 31 31 * 20 + j) * 4
        let s := s.setObj 0x2325 k
          (.bytes (per.take at4 ++ u32 (leAt per at4 4 + 1) ++ per.drop (at4 + 4)))
        let s := s.setNum 0x2321 k s.stamp48
        let s := s.setNum 0x2322 k loc
        let s := s.setNum 0x2323 k (bits loc 31 31 * 128 + j)
        let n := s.num 0x2320 k
        let th := s.num 0x2324 k
        let s := if th ≠ 0 ∧ n ≠ 0 ∧ n % th = 0 then s.raise (0x2320 + c) 0 (u32 n ++ u8 (s.num 0x2323 k)) else s
        let (d, s) := if (errors.filter (·.2 != 0)).length ≤ 8 then (data, s) else s.freeBytes 128
        .next ((s.emit (.memRead r.master sys (some d))).settle c)
      | .address =>
        let s := (s.flagCmd c 8).emit (.memRead r.master sys none)
        .next (s.freezeChan c 3 sys loc (sy.foldl (fun b x => b ++ u16 x) []) (errorMap sy))
      | .uncorrectable =>
        let s := (s.flagCmd c 2).emit (.memRead r.master sys none)
        .next (s.freezeChan c 1 sys loc (sy.foldl (fun b x => b ++ u16 x) []) (errorMap sy))

/-- ALERT_N_ASSERT: the DIMM's register reports a parity error; a READY channel freezes, with captures of free values within their field
maps (R153, R165). -/
def execAlertNAssert (c : Chan) (s : State) : Host.Outcome State Fault Refusal :=
  if (s.chan c).works ∧ s.on (chanDomain c) then
    let s := s.flagCmd c 1
    let (a, s) := s.freeBelow (2 ^ 48)
    let (bank, s) := s.freeBelow 64
    let (row, s) := s.freeBelow (2 ^ 17)
    let (burst, s) := s.freeBelow 128
    let (sy, s) := s.freeBytes 32
    let (devices, s) := s.freeBelow (2 ^ 22)
    let (unsolved, s) := s.freeBelow 2
    .next (s.freezeChan c 2 a (bank * 2 ^ 26 + row * 256 + burst) sy (unsolved * 2 ^ 31 + devices))
  else .next s

/-- RT_BURST_LIMIT: a burst ends at 2.0 µs and the burst guard begins (R145). -/
def execRtBurstLimit (c : Chan) (s : State) : Host.Outcome State Fault Refusal :=
  if (s.chan c).burst then
    .next (((s.bump 0x2343 (c.val + 1)).modChan c fun m => { m with burst := false, guard := true }).settle c)
  else .next s

/-- BURST_GUARD_END: the guard ends; a waiting real-time read begins a burst (R145). -/
def execBurstGuardEnd (c : Chan) (s : State) : Host.Outcome State Fault Refusal :=
  .next ((s.modChan c fun m => { m with guard := false }).settle c)

/-- The controller refreshes the channel's DIMM: in every state with the interface up and the DIMM out of self-refresh (R147, R154,
R159). -/
def Mch.refreshes (m : Mch) : Bool := m.works || m.st == .frozen || (m.st == .training && m.step != 0)

/-- A rank whose owed count reaches 4: refresh comes first until it is 3, and preempts a burst that runs (R149; assumption 69). -/
def State.preempt (s : State) (c rank : Nat) : State :=
  let owed := vget (s.chan c).owed rank 0
  if owed < 4 then s
  else
    let burst := (s.chan c).burst
    let s := forRange (owed - 3) (fun _ s => s.refreshRank c rank) s
    if burst then (s.bump 0x2341 (c + 1)).raise (0x2360 + c) 0 (u8 rank ++ u8 owed) else s

/-- REFRESH_INTERVAL_BOUNDARY: each rank owes one more refresh; they are issued, postponed in a burst, or preempt it (R149). -/
def execRefreshIntervalBoundary (c : Chan) (s : State) : Host.Outcome State Fault Refusal :=
  if (s.chan c).refreshes && s.on (chanDomain c) then
    let s := forRange (s.ranks c) (fun r s =>
      let s := s.modChan c fun m => { m with owed := vmod m.owed r (· + 1) }
      s.raiseMax 0x2340 (c.val + 1) (vget (s.chan c).owed r 0)) s
    .next (if (s.chan c).works then forRange (s.ranks c) (fun r s => s.preempt c r) (s.settle c) else s.refreshOwed c)
  else .next s

/-- The channel starts full training or a restore at its first step (R159): 9 restore, 1 ZQ calibration. -/
def State.startTraining (s : State) (c : Nat) (restore : Bool) : State :=
  let s := s.modChan c fun m => { m with st := .training, step := if restore then 9 else 1, result := 0, failing := 0, freezeCause := 0,
                                         burst := false, guard := false, leaving := none }
  if restore then s.restoreCmds c else s.stepCmds c 1

/-- A result is stored for a point. -/
def Mch.storedAt (m : Mch) (p : Nat) : Bool := if p = 0 then m.stored0 else m.stored1

/-- The stored result of a point set or cleared. -/
def Mch.setStored (m : Mch) (p : Nat) (v : Bool) : Mch := if p = 0 then { m with stored0 := v } else { m with stored1 := v }

/-- The training that a CONFIGURED request starts (R26, R159): a restore where the point has a stored result. -/
def State.trainForConfigured (s : State) (c : Nat) : State :=
  let m := s.chan c
  if m.st = .untrained then s.startTraining c (m.storedAt m.point) else s

/-- The channel leaves for another point: its queues are emptied, then it enters self-refresh (R160). -/
def State.startFreq (s : State) (c p : Nat) : State :=
  let s := s.wakeChan c
  (s.modChan c fun m => { m with st := .freqChange, leaving := some (.freq p), step := 8, result := 0, pendingPoint := none }).settle c

/-- A frozen channel resumes: its held reads come first, and a point change that its freeze interrupted goes on (R156, R160). -/
def State.resumeChan (s : State) (c : Nat) : State :=
  let s := s.modChan c fun m => { m with st := .ready, freezeCause := 0, heldReads := m.reads.length }
  match (s.chan c).pendingPoint with
  | some p => s.startFreq c p
  | none => s.settle c

/-- ChannelRelease of a frozen channel (R156). -/
def State.release (s : State) (c v : Nat) : Except Nat State :=
  let m := s.chan c
  if m.st ≠ .frozen then .error (0x23030100 + c)
  else if v = 1 then .ok ((s.issueAll c).resumeChan c)
  else
    let s := s.addNum 0x2337 (c + 1) m.writes.length
    let s := s.modChan c fun m => { m with writes := [] }
    if v = 2 then .ok (s.resumeChan c)
    else .ok ((s.modChan c fun m => { m.setStored m.point false with heldReads := m.reads.length }).startTraining c false)

/-- TrainRequest; a channel in self-refresh exits it first, and requests wait with what is queued (R158, R159, R164, R166). -/
def State.trainRequest (s : State) (c v : Nat) : Except Nat State :=
  let m := s.chan c
  if !s.inStates [.standby, .configured] ∨ m.st = .frozen ∨ m.st = .disabled ∨ m.st = .retained then .error (0x23030200 + c)
  else if m.st = .training ∨ m.st = .freqChange then .error (0x23050100 + c)
  else if v = 3 then .ok (s.modChan c fun m => { m with stored0 := false, stored1 := false })
  else .ok ((s.wakeChan c).startTraining c false)

/-- OpPointSelect (R160, R161, R164, R166). -/
def State.selectPoint (s : State) (c v : Nat) : Except Nat State :=
  let m := s.chan c
  if m.st = .frozen ∨ m.st = .disabled ∨ m.st = .retained then .error (0x23030200 + c)
  else
    let s := s.setNum 0x2315 (c + 1) v
    let goal := match m.leaving with
      | some (.freq p) => p
      | _ => m.point
    match m.st with
    | .training | .freqChange => .ok (s.modChan c fun m => { m with pendingPoint := if v = goal then none else some v })
    | .untrained => .ok (s.modChan c fun m => { m with point := v })
    | _ => .ok (if v = m.point then s else s.startFreq c v)

/-- A domain request that moves the channel's domain to RETAIN is being applied (R163). -/
def State.retainPending (s : State) (c : Nat) : Bool :=
  match s.pwr.domWork with
  | some w => w.changes.any fun x => x.1 == chanDomain c && x.2 == .retain
  | none => false

/-- The step in progress of a channel whose domain goes to RETAIN is complete: the rest is abandoned with Result 3 (R163). -/
def State.stepForRetain (s : State) (c : Nat) : State :=
  s.modChan c fun m => { m with step := 0, result := 3, pendingPoint := none }

/-- FREQ_CHANGE_DONE: the clock is relocked and self-refresh left; the new point is restored, or its training starts (R160, R163, R164). -/
def execFreqChangeDone (c : Chan) (s : State) : Host.Outcome State Fault Refusal :=
  let m := s.chan c
  if m.st = .freqChange ∧ m.leaving = none ∧ m.step ≠ 0 ∧ s.on (chanDomain c) then
    if s.retainPending c then .next ((s.rankCmd c 7).stepForRetain c)
    else match m.pendingPoint with
      | some p => .next (s.modChan c fun m => { m with point := p, pendingPoint := none })
      | none =>
        let s := s.rankCmd c 7
        if m.storedAt m.point then
          .next (((s.restoreCmds c).modChan c fun m => { m with st := .ready, step := 0 }).settle c)
        else .next (s.startTraining c false)
  else .next s

/-- A training step ends with another point queued: what is left is abandoned with Result 2 and the frequency change runs (R160, R161). -/
def State.stepForFreq (s : State) (c p : Nat) : State :=
  (s.selfRefresh c).modChan c fun m => { m with st := .freqChange, point := p, step := 8, result := 2, pendingPoint := none }

/-- CHANNEL_TRAINING_DONE: training succeeds, fails, or completes a step with a change queued (R159, R161, R163, R164). -/
def execChannelTrainingDone (c : Chan) (outcome : TrainOutcome) (s : State) : Host.Outcome State Fault Refusal :=
  let m := s.chan c
  if m.st ≠ .training ∨ m.step = 0 ∨ !s.on (chanDomain c) then .next s
  else match outcome with
    | .done =>
      match m.pendingPoint with
      | some p => .next (s.stepForFreq c p)
      | none =>
        let leave := if s.retainPending c then some Leaving.retain else none
        .next ((s.modChan c fun m =>
          { (m.setStored m.point true) with st := .ready, step := 0, result := 0, leaving := leave }).settle c)
    | .failed step device =>
      let s := s.modChan c fun m =>
        { m with st := .untrained, step := step.toNat, result := 1, failing := device.toNat
                 point := m.pendingPoint.getD m.point, pendingPoint := none }
      .next (s.raise (0x2330 + c) 0 (u8 step.toNat ++ u8 device.toNat ++ u8 m.point))
    | .stepDone =>
      if s.retainPending c then .next (s.stepForRetain c)
      else match m.pendingPoint with
        | some p => .next (s.stepForFreq c p)
        | none =>
          if 7 ≤ m.step then .next s
          else .next ((s.modChan c fun m => { m with step := m.step + 1 }).stepCmds c (m.step + 1))

/-- IDLE_TIME_EXPIRY: a READY channel with nothing to do enters self-refresh (R162). -/
def execIdleTimeExpiry (c : Chan) (s : State) : Host.Outcome State Fault Refusal :=
  let m := s.chan c
  if m.st = .ready ∧ m.leaving = none ∧ s.num 0x231A (c.val + 1) ≠ 0 ∧ m.reads = [] ∧ m.writes = [] ∧ m.waiting = [] then
    .next (((s.selfRefresh c).bump 0x2344 (c.val + 1)).modChan c fun m => { m with st := .selfRefresh })
  else .next s

/-- DQS_DRIFT_CORRECTION: a READY channel reads the DRAM's DQS interval oscillator; data are undisturbed (R159). -/
def execDqsDriftCorrection (c : Chan) (s : State) : Host.Outcome State Fault Refusal :=
  .next (if (s.chan c).st = .ready then s.rankCmd c 9 else s)

/-- The ranks and density leave a channel within R138. -/
def dimmOk (ranks density : Nat) : Bool := ranks == 1 || (ranks == 2 && density == 16)

/-- Writes of MEM objects with an effect of their own (R156, R158, R160, R164 to R166). -/
def hookMemory (idx sub : Nat) (v : Val) (s : State) : Option (Except Nat State) :=
  let c := sub - 1
  let n := v.toNum
  match idx with
  | 0x2310 =>
    let s := s.setObj idx sub v
    -- a channel leaves its state for DISABLED only with its domain (R156, R164)
    some (.ok (s.modChan c fun m => if n ≠ 0 ∧ m.st = .disabled then { m with st := .untrained } else m))
  | 0x2311 =>
    if dimmOk n (s.num 0x2312 sub) then
      some (.ok ((s.setObj idx sub v).modChan c fun m => { m with stored0 := false, stored1 := false }))
    else some (.error (0x23040100 + c))
  | 0x2312 =>
    if dimmOk (s.num 0x2311 sub) n then
      some (.ok ((s.setObj idx sub v).modChan c fun m => { m with stored0 := false, stored1 := false }))
    else some (.error (0x23040100 + c))
  | 0x2313 => some (.ok ((s.setObj idx sub v).modChan c fun m => { m with stored0 := false }))
  | 0x2314 => some (.ok ((s.setObj idx sub v).modChan c fun m => { m with stored1 := false }))
  | 0x2315 => some (s.selectPoint c n)
  | 0x2316 => some (s.trainRequest c n)
  | 0x231C => some (.ok ((s.setObj idx sub v).modChan c fun m => { m with lfsr := n }))
  | 0x2336 => some (s.release c n)
  | _ => none

/-- A Stopped MEM object counts as running now (R165 and the text before it). -/
def memoryRuns (s : State) (idx : Nat) : Bool :=
  if idx = 0x2315 then s.inStates [.armed, .printing, .held]
  else !s.inStates [.standby] || s.pwr.trans.isSome

/-- A sensor of the channel's DIMM read in the housekeeping round, in m°C; none where the read failed (R148). -/
def State.dimmSensor (s : State) (c sensor : Nat) (value : Option Int) : State :=
  match value with
  | none =>
    (s.modChan c fun m => { m with hot := true, sensorFault := true, sensorBad := vmod m.sensorBad sensor fun _ => true }).raise
      (0x2340 + c) 0 (u8 sensor)
  | some v =>
    let s := s.modChan c fun m => { m with sensors := vmod m.sensors sensor fun _ => some v
                                           sensorBad := vmod m.sensorBad sensor fun _ => false }
    let hottest := ((s.chan c).sensors.toList.filterMap id).foldl (fun a x => if a < x then x else a) v
    let bad := (s.chan c).sensorBad.toList.any id
    let s := s.modChan c fun m =>
      { m with hot := if bad then true else if 85000 < hottest then true else if hottest ≤ 83000 then false else m.hot,
               sensorFault := bad, temp := hottest }
    if 95000 < v then s.raise (0x2350 + c) 0 (u8 (ofSigned 8 (Int.fdiv hottest 1000))) else s

/-- The sensors of a channel that is not enabled are not read (R148). -/
def State.dimmUnread (s : State) (c : Nat) : State :=
  s.modChan c fun m => { m with sensors := Vector.replicate 3 none, sensorBad := Vector.replicate 3 false }

/-- Every cell of a channel lost: its contents are undefined (R164; assumption 4). -/
def State.loseDram (s : State) (c : Nat) : State :=
  { s with dram := s.dram.filter fun e => e.1 / 2 ^ 40 != c }

/-- The channel's domain is OFF (R157, R164). -/
def State.chanOff (s : State) (c : Nat) : State :=
  (s.loseDram c).modChan c fun m =>
    { Mch.start with st := if s.num 0x2310 (c + 1) = 1 then .untrained else .disabled, point := m.point, stored0 := m.stored0,
                     stored1 := m.stored1, lfsr := s.num 0x231C (c + 1) }

/-- A domain request takes the channel to RETAIN: one that serves requests takes no more and empties its queues (R163). -/
def State.beginRetain (s : State) (c : Nat) : State :=
  let m := s.chan c
  if m.st = .ready ∨ m.st = .selfRefresh then (s.modChan c fun m => { m with leaving := some .retain }).settle c else s

/-- What the channel still finishes before RETAIN is done: its queues, or the step in progress (R163). -/
def Mch.readyToRetain (m : Mch) : Bool :=
  match m.st with
  | .ready => m.reads.isEmpty && m.writes.isEmpty
  | .training | .freqChange => m.step == 0
  | _ => true

/-- The channel's domain goes to RETAIN (R157, R163). -/
def State.chanRetain (s : State) (c : Nat) : State :=
  let m := s.chan c
  let retain := fun (s : State) (untrained frozen : Bool) => s.modChan c fun m =>
    { m with st := .retained, step := 0, leaving := none, pendingPoint := none, retUntrained := untrained, retFrozen := frozen }
  match m.st with
  | .disabled | .retained => s
  | .untrained => retain (s.loseDram c) true false
  | .frozen =>
    let s := s.addNum 0x2337 (c + 1) m.writes.length
    retain ((s.modChan c fun m => { m with writes := [] }).rankCmd c 6) false true
  | .selfRefresh => retain s false false
  | _ => retain (s.selfRefresh c) false false

/-- Mc_RESET_N is low: the channel entered RETAIN untrained and holds its DIMM in reset (R163). -/
def Mch.resetLow (m : Mch) : Bool := m.st == .retained && m.retUntrained

/-- The channel's domain comes back ON (R157, R163). -/
def State.chanOn (s : State) (c : Nat) : State :=
  let m := s.chan c
  if m.st ≠ .retained then s
  else if m.retFrozen then (s.modChan c fun m => { m with st := .frozen, retFrozen := false }).rankCmd c 7
  else if !m.retUntrained && m.storedAt m.point then
    (((s.rankCmd c 7).restoreCmds c).modChan c fun m => { m with st := .ready }).settle c
  else s.modChan c fun m => { m with st := .untrained, retUntrained := false }

/-- A block reset of the channel (R386). -/
def State.chanBlockReset (s : State) (c : Nat) : State :=
  let m := s.chan c
  let s := s.addNum 0x2337 (c + 1) m.writes.length
  let s := s.clearObjs fun idx sub => sub == c + 1 && ((0x2320 ≤ idx && idx ≤ 0x2323) || idx == 0x2325 || (0x2340 ≤ idx && idx ≤ 0x2344))
  s.modChan c fun m =>
    { Mch.start with
      st := if m.st = .ready ∨ m.st = .selfRefresh ∨ m.st = .training ∨ m.st = .freqChange then
          (if m.storedAt m.point then .ready else .untrained) else m.st
      point := m.point, stored0 := m.stored0, stored1 := m.stored1, freezeCause := m.freezeCause, lfsr := s.num 0x231C (c + 1)
      owed := m.owed, retUntrained := m.retUntrained, retFrozen := m.retFrozen }

/-- The channels that a run of system addresses touches. -/
def State.touched (s : State) (a n : Nat) : List Nat :=
  let units := (List.range ((a + n - 1) / 4096 + 1 - a / 4096)).map fun i => a / 4096 + i
  (units.map fun u => s.enabled.getD (u % s.enabled.length) 0).eraseDups

/-- Every channel that the addresses touch serves requests, and the addresses exist (R155). -/
def State.memServes (s : State) (a n : Nat) : Bool :=
  a + n ≤ s.enabled.length * s.memCap && (s.touched a n).all fun c => (s.chan c).serves && s.on (chanDomain c)

/-- The channels that the addresses touch serve requests, and none of them lets this master wait with a write (R146, R155). -/
def State.memTakes (s : State) (a n master : Nat) : Bool :=
  s.memServes a n && (s.touched a n).all fun c => (s.chan c).waiting.all fun q => q.master != master

/-- The data of a write that waits for the queue. -/
def MemWait.data : MemWait → Bytes
  | .read _ => []
  | .write w => w.data

/-- A waiting request is a write of an address. -/
def MemWait.writes (q : MemWait) (a : Nat) : Bool :=
  match q with
  | .read _ => false
  | .write w => w.addr == a

/-- A byte of DRAM by its system address, behind the latest write of it that waits or is queued (R144, R146). -/
def State.memByte (s : State) (a : Nat) : Byte :=
  match s.locate a with
  | none => 0
  | some (c, l) =>
    let blk := l / 128 * 128
    match (s.chan c).waiting.reverse.find? (·.writes blk) with
    | some q => q.data.getD (l % 128) 0
    | none => match (s.chan c).writes.find? (·.addr == blk) with
      | some w => w.data.getD (l % 128) 0
      | none => readCell s.dram (cellKey (c, l))

/-- `n` bytes of DRAM from a system address up. -/
def State.memBytes (s : State) (a n : Nat) : Bytes := (List.range n).map fun i => s.memByte (a + i)

/-- The accesses that a run of system addresses takes, by their number from `a / 128`. -/
def accesses (a n : Nat) : Nat := (a + n - 1) / 128 + 1 - a / 128

/-- A master's own reads over a run of system addresses, on the channels' buses; one of a queued address needs no bus (R142, R146). -/
def State.memAccess (s : State) (a n master : Nat) : State :=
  forRange (accesses a n) (fun i s =>
    match s.locate ((a / 128 + i) * 128) with
    | some (c, l) =>
      if (s.chan c).writes.any (·.addr == l) then s else ((s.wakeChan c).access c l master false).settle c
    | none => s) s

/-- A byte string written from a system address up by a master: one queued write of 128 bytes for each access that it touches, the bytes
of it outside the string as they are (R140, R142, R146). -/
def State.memWrite (s : State) (a : Nat) (b : Bytes) (master : Nat) : State :=
  if b.isEmpty then s
  else forRange (accesses a b.length) (fun i s =>
    let base := (a / 128 + i) * 128
    let d := (List.range 128).map fun j =>
      if a ≤ base + j ∧ base + j < a + b.length then b.getD (base + j - a) 0 else s.memByte (base + j)
    match s.locate base with
    | some (c, l) => s.memRequest c l master (some d)
    | none => s) s

end Sys2Proof.Machine
end

