-- ==== Sys2Proof/Machine/Raster.lean ====
section
/-! DEFINITION. RIN: the Raster port link, the intake FIFO, the job writer, the stream decoder, the forwarder and the job
slots (R113 to R130, R134 to R137). -/

set_option Elab.async false

namespace Sys2Proof.Machine

/-- Words of the intake FIFO (R119). -/
def fifoWords : Nat := 262144

/-- Fill in words (R119). -/
def State.fill (s : State) : Nat := s.rin.fifo.foldl (fun n b => n + b.words) 0

/-- The bits set in a bar mask, ascending. -/
def barsOf (mask : Nat) : List Nat := (List.range 8).filter fun b => bit mask b

/-- The first mask lies within the second. -/
def within (a b : Nat) : Bool := a &&& b == a

/-- Slot descriptor fields (R135). -/
def State.slotWidth (s : State) (k : Nat) : Nat := s.num 0x2213 (k + 1)
/-- SlotBarMask. -/
def State.slotMask (s : State) (k : Nat) : Nat := s.num 0x2212 (k + 1)
/-- SlotRepeatLines. -/
def State.slotLines (s : State) (k : Nat) : Nat := s.num 0x2216 (k + 1)
/-- SlotYdpi. -/
def State.slotYdpi (s : State) (k : Nat) : Nat := s.num 0x2215 (k + 1)
/-- The slot is in stream mode. -/
def State.slotStream (s : State) (k : Nat) : Bool := s.num 0x2211 (k + 1) == 1

/-- DRAM bytes that are not reserved, halved between the slots (R128; assumption 30). -/
def State.slotCapacity (s : State) : Nat :=
  let all := s.enabled.length * s.memCap
  (all - min (8 * s.num 0x2960 1 * 1088 + Config.reservedDram) (all / 2)) / 2

/-- Bytes per stored line (R128). -/
def State.pitch (s : State) (k : Nat) : Nat := ceilDiv (s.slotWidth k) 64 * 64

/-- Bytes per bar (R128). -/
def State.plane (s : State) (k : Nat) : Nat := s.pitch k * s.slotLines k

/-- The address of a colour line: slot, bar, design line (R128). -/
def State.lineAddr (s : State) (k b d : Nat) : Nat :=
  k * s.slotCapacity + (barsOf (s.slotMask k % 2 ^ b)).length * s.plane k + d * s.pitch k

/-- The key of a line-valid bit. -/
def lineKey (b d : Nat) : Nat := b * 2 ^ 24 + d

/-- SlotLinesMissing: plane lines without a valid bit (R135). -/
def State.linesMissing (s : State) (k : Nat) : Nat :=
  if (s.slot k).st = .empty ∨ s.slotStream k then 0
  else (barsOf (s.slotMask k)).length * s.slotLines k - (s.slot k).valid.length

/-- The slot whose JobId and Generation a block carries; an EMPTY slot matches nothing (R127). -/
def State.matchSlot (s : State) (job gen : Nat) : Option Nat :=
  [0, 1].find? fun k => (s.slot k).st != .empty && s.num 0x2210 (k + 1) == job && s.num 0x2218 (k + 1) == gen

/-- Bars with a free stream window block (R129, R134). -/
def State.windowFree (s : State) : Nat :=
  let masks := ([0, 1].filter fun k => s.slotStream k && (s.slot k).st != .empty).map s.slotMask
  maskOf (fun b => masks.any (fun m => bit m b) && (vget s.rin.windows b []).length < 2) 8

/-- A standby whose current or queued slot is in stream mode takes its partner's blocks (R359). -/
def State.takesForwarded (s : State) : Bool :=
  s.mir.role == .standby && s.linkWarm && [0, 1].any fun k => s.slotStream k && (s.num 0x2410 1 == k || s.num 0x2410 2 == k)

/-- The writer accepts words of the Raster port (R31, R115, R121, R359). -/
def State.intakeOpen (s : State) : Bool :=
  s.on domRFE && s.rin.linkUp && s.num 0x2220 1 == 1 && !s.halted && !s.takesForwarded

/-- RP_XON as it is driven (R121, R359). -/
def State.rpXon (s : State) : Bool := s.rin.xon && s.intakeOpen

/-- The watermarks applied to a fill (R121). -/
def State.markXon (s : State) (fill : Nat) : State :=
  let high := s.num 0x2220 2 * 32
  let low := s.num 0x2220 3 * 32
  { s with rin := { s.rin with xon := if high ≤ fill then false else if fill ≤ low then true else s.rin.xon } }

/-- The watermarks applied to the present fill; an overrun episode ends when RP_XON is high again (R121, R122). -/
def State.fillMoved (s : State) : State :=
  let s := s.markXon s.fill
  if s.rpXon then { s with rin := { s.rin with overrun := false } } else s

/-- A block counted by its status, and raised where it is refused (R135, R137). -/
def State.countBlock (s : State) (status seq job : Nat) : State :=
  let s := if status = 0 then s.bump 0x2220 7 else s.bump 0x2220 8
  if status = 3 ∨ status = 4 ∨ status = 5 then s.raise 0x2206 0 (u8 status ++ u32 seq ++ u32 job) else s

/-- An Ack record (R126, R134). -/
def State.ack (s : State) (status stream seq job first : Nat) : State :=
  let h := u8 0x81 ++ u8 status ++ u8 s.windowFree ++ u8 stream ++ u32 seq ++ u32 job ++ u32 first ++ u48 s.stamp48 ++ u16 0 ++ u32 0
  (s.emit (.raster (h ++ u32 (crc32c h)))).countBlock status seq job

/-- The header bytes 0 to 27 of a raster block (R116). -/
def rasterHeader (magic version codec job mask kind gen first count length seq : Nat) : Bytes :=
  u16 magic ++ u8 version ++ u8 codec ++ u32 job ++ u8 mask ++ u8 kind ++ u16 gen ++ u32 first ++ u16 count ++ u16 0
    ++ u32 length ++ u32 seq

/-- The header bytes of an arriving block. -/
def headerOf (b : RasterBlock) : Bytes :=
  rasterHeader b.magic.toNat b.headerVersion.toNat b.codec.toNat b.jobId.toNat b.barMask.toNat b.kind.toNat b.generation.toNat
    b.firstLine.toNat b.lineCount.toNat b.payloadLength.toNat b.sequence.toNat

/-- The header is valid (R120 step 1). -/
def headerValid (b : RasterBlock) : Bool :=
  b.magic == 0x5652 && b.headerVersion == 1 && b.headerCrc.toNat == crc32c (headerOf b) && b.codec.toNat ≤ 1
    && 1 ≤ b.lineCount.toNat && b.lineCount.toNat ≤ 4096 && b.barMask != 0 && b.payloadLength.toNat ≤ 1048512

/-- The trailer checks (R120 step 3). -/
def trailerValid (b : RasterBlock) : Bool :=
  b.blockCrc.toNat == crc32c (headerOf b ++ u32 b.headerCrc.toNat ++ b.payload)
    && b.trailerSequence == b.sequence && b.endMagic == 0x5645

/-- Words of a block: header, padded payload, trailer (R116). -/
def blockWords (b : RasterBlock) : Nat := 2 + ceilDiv b.payloadLength.toNat 32

/-- The status that the check against the slots gives a header, with the slot matched: 0 stores the block (R120, R127). -/
def State.slotCheck (s : State) (b : RasterBlock) : Nat × Nat :=
  match s.matchSlot b.jobId.toNat b.generation.toNat with
  | none => (3, 255)
  | some k =>
    let st := (s.slot k).st
    let mask := b.barMask.toNat
    if s.slotStream k then
      if st ≠ .ready ∧ st ≠ .printing ∧ st ≠ .draining then (3, 255)
      else if (b.kind.toNat ≠ 1 ∧ b.kind.toNat ≠ 2) ∨ (barsOf mask).length ≠ 1 ∨ !within mask (s.slotMask k) then (4, k)
      else
        let x := vget (s.slot k).streams ((barsOf mask).headD 0) Stream.start
        if b.firstLine.toNat + b.lineCount.toNat ≤ x.expected then (6, k)
        else if b.firstLine.toNat ≠ x.expected ∨ x.ended then (5, k)
        else (0, k)
    else if st ≠ .loading then (3, 255)
    else if b.kind.toNat ≠ 0 ∨ !within mask (s.slotMask k) ∨ s.slotLines k < b.firstLine.toNat + b.lineCount.toNat then (4, k)
    else (0, k)

/-- TimeToEmpty of a stream job's bar: design lines in hand (R133). -/
def State.streamLines (s : State) (b : Nat) : Nat :=
  let w := (vget s.rin.windows b []).foldl (fun n x => n + (x.lines.length - x.fetched)) 0
  let f := s.rin.fifo.foldl (fun n x => n + if x.taken = .waiting ∧ x.kind ≠ 0 ∧ x.barMask = 2 ^ b then x.lineCount else 0) 0
  w + f

/-- interval_avg of a position channel, u24.8 ticks per count; none while its window is empty (R177). -/
def Pch.interval (c : Pch) : Option Nat :=
  if c.window.isEmpty then none
  else
    let avg := ((c.window.foldl (fun (a x : Rat) => a + x) 0) * 256 / (c.window.length : Rat) + 1 / 2).floor.toNat
    some (fitted 0x2523 32 avg)

/-- The position channel of a bar. -/
def State.barPch (s : State) (b : Nat) : Pch := vget s.pos (barChannel s.obj b) Pch.start

/-- LinePeriod of a bar in ns; FFFF_FFFFh while its channel is stopped or its speed is not valid (R184). -/
def State.linePeriod (s : State) (b : Nat) : Nat :=
  match (s.barPch b).stopped, (s.barPch b).interval with
  | false, some i => roundHalfUp (s.num 0x2610 (b + 1) * i * 5) (2 * 2 ^ 24)
  | _, _ => 0xFFFFFFFF

/-- Lines of a bar in its pre-fire buffer, issued and not consumed (R133). -/
def State.prefireLines (s : State) (b : Nat) : Nat := ((s.bar b).buf.filter fun e => (s.bar b).idx ≤ e.1).length

/-- TimeToEmpty of a bar computed anew (R133). -/
def State.timeToEmpty (s : State) (b : Nat) : State :=
  let period := s.linePeriod b
  let pre := s.prefireLines b
  let us := fun (n : Nat) => fitted 0x2413 32 (n * period / 1000)
  let v := match (s.bar b).slot with
    | none => 0xFFFFFFFF
    | some k =>
      if period = 0xFFFFFFFF then 0xFFFFFFFF
      else if s.slotStream k then us (s.streamLines b * (1200 / max 1 (s.slotYdpi k)) + pre)
      else if s.enabled.any fun c => (s.chan c).st == .frozen then us pre
      else 0xFFFFFFFF
  s.setNum 0x2413 (b + 1) v

/-- TimeToEmpty as it reads: FFFF_FFFFh while the bar is stopped, its run held or its channel without motion (R133). -/
def State.tteNow (s : State) (b : Nat) : Nat :=
  if (s.bar b).run = .held ∨ (s.barPch b).stopped then 0xFFFFFFFF else s.num 0x2413 (b + 1)

/-- A block answered: by an Ack record, or by a FACK to the partner it came from (R126, R359). -/
def State.answer (s : State) (fwd : Bool) (status stream seq job first : Nat) : State :=
  if fwd then
    (s.linkSend 6 0 (padTo 32 (u32 seq ++ u8 status ++ u8 (b2n (status == 1 || status == 2 || status == 8))))).countBlock status seq job
  else s.ack status stream seq job first

/-- A checked block stored and made visible; a stream block moves its bar's expected FirstLine (R120, R129). -/
def State.storeBlock (s : State) (fwd : Bool) (b : RasterBlock) (k : Nat) : State :=
  let x : FifoBlock :=
    { codec := b.codec.toNat, jobId := b.jobId.toNat, barMask := b.barMask.toNat, kind := b.kind.toNat,
      generation := b.generation.toNat, firstLine := b.firstLine.toNat, lineCount := b.lineCount.toNat,
      sequence := b.sequence.toNat, payload := b.payload, words := blockWords b, slot := k, taken := .waiting, sent := false,
      fails := 0, acked := false, partner := none, fwd := fwd }
  let s := { s with rin := { s.rin with fifo := s.rin.fifo ++ [x] } }
  let s := if s.slotStream k then
      s.modSlot k fun y => { y with streams := vmod y.streams ((barsOf b.barMask.toNat).headD 0) fun z =>
        { z with expected := b.firstLine.toNat + b.lineCount.toNat, ended := b.kind == 2 } }
    else s
  (forEach (barsOf b.barMask.toNat) (fun j s => s.timeToEmpty j) s).fillMoved

/-- An overrun episode begins: words discarded, F2201h with the sequence of the block that is dropped (R122). -/
def State.overrunBegins (s : State) (words seq : Nat) : State :=
  let s := (s.addNum 0x2220 6 words).raise 0x2201 0 (u32 (fifoWords * 32) ++ u32 seq)
  { s with rin := { s.rin with overrun := true } }

/-- The intake writer receives a block (R120, R122). Words that find the FIFO full begin an overrun episode, whatever they are; where no
block is in progress the sequence that F2201h gives is free (assumption 57). -/
def State.intake (s : State) (fwd : Bool) (b : RasterBlock) : State :=
  let n := blockWords b
  let s := s.fillMoved
  if s.rin.overrun then s.addNum 0x2220 6 (b.skipped + n)
  else if s.fill = fifoWords ∧ (0 < b.skipped ∨ !headerValid b ∨ (s.slotCheck b).1 ≠ 0) then
    let (seq, s) := s.freeBelow (2 ^ 32)
    s.overrunBegins (b.skipped + n) seq
  else
    let s := s.addNum 0x2220 9 b.skipped
    if !headerValid b then s.addNum 0x2220 9 n
    else
      let (st, k) := s.slotCheck b
      let ackWith := fun (s : State) (st : Nat) => s.answer fwd st k b.sequence.toNat b.jobId.toNat b.firstLine.toNat
      if st ≠ 0 then ackWith s st
      else if fifoWords < s.fill + n then
        let s := ackWith (s.overrunBegins (s.fill + n - fifoWords) b.sequence.toNat) 2
        (s.markXon fifoWords).fillMoved
      else if !trailerValid b then
        let s := (s.markXon (s.fill + n)).raise 0x2202 0 (u32 b.sequence.toNat ++ u32 b.jobId.toNat)
        (ackWith s 1).fillMoved
      else s.storeBlock fwd b k

/-- What a line of the codec comes to: pixels and the rest of the payload, or an error (R118). -/
def decodeRuns : Nat → Nat → Option Bytes → Bytes → Bytes → Option (Bytes × Bytes)
  | 0, _, _, _, _ => none
  | fuel + 1, width, prev, acc, bs =>
    if acc.length = width then some (acc, bs)
    else match bs with
      | [] => none
      | op :: rest =>
        let kind := op.toNat / 64
        let code := op.toNat % 64
        let left := width - acc.length
        let copy := fun (n : Nat) => prev.map fun p => slice p acc.length n
        if kind = 3 then
          if code = 0 then match rest with
            | v :: rest => some (acc ++ List.replicate left v, rest)
            | [] => none
          else if code = 1 then (copy left).map fun c => (acc ++ c, rest)
          else none
        else
          let (n, rest) : Option Nat × Bytes :=
            if code ≤ 61 then (some (code + 1), rest)
            else if code = 62 then match rest with
              | v :: r => (some (63 + v.toNat), r)
              | [] => (none, [])
            else match rest with
              | a :: b :: r => (some (319 + leNat [a, b]), r)
              | _ => (none, [])
          match n with
          | none => none
          | some n =>
            if left < n then none
            else match kind with
              | 0 => if rest.length < n then none else decodeRuns fuel width prev (acc ++ rest.take n) (rest.drop n)
              | 1 => match rest with
                | v :: rest => decodeRuns fuel width prev (acc ++ List.replicate n v) rest
                | [] => none
              | _ => match copy n with
                | some c => decodeRuns fuel width prev (acc ++ c) rest
                | none => none

/-- One colour line: as it is with codec 0, by its runs with codec 1 (R117, R118). -/
def decodeLine (codec width : Nat) (prev : Option Bytes) (bs : Bytes) : Option (Bytes × Bytes) :=
  if codec = 0 then (if bs.length < width then none else some (bs.take width, bs.drop width))
  else decodeRuns (bs.length + 1) width prev [] bs

/-- The lines of a block in order, each with its bar and number; or where decoding fails (R117, R118). -/
def decodeLines (codec width : Nat) : List (Nat × Nat) → List (Nat × Option Bytes) → Bytes →
    List (Nat × Nat × Bytes) → Except (Nat × Nat) (List (Nat × Nat × Bytes))
  | [], _, bs, acc => if bs.isEmpty then .ok acc.reverse else .error (match acc with
      | (b, d, _) :: _ => (b, d)
      | [] => (0, 0))
  | (b, d) :: more, prev, bs, acc =>
    match decodeLine codec width ((prev.find? (·.1 == b)).bind (·.2)) bs with
    | none => .error (b, d)
    | some (px, rest) => decodeLines codec width more ((b, some px) :: prev.filter (·.1 != b)) rest ((b, d, px) :: acc)

/-- A block decoded against its slot: its lines, or the bar and line of the codec error (R117, R118). -/
def State.decodeBlock (s : State) (x : FifoBlock) : Except (Nat × Nat) (List (Nat × Nat × Bytes)) :=
  let width := s.slotWidth x.slot
  let bars := barsOf x.barMask
  if x.codec = 0 ∧ x.payload.length ≠ x.lineCount * bars.length * width then .error (bars.headD 0, x.firstLine)
  else
    let order := (List.range x.lineCount).flatMap fun i => bars.map fun b => (b, x.firstLine + i)
    let prev := bars.map fun b => (b, match vget (s.slot x.slot).prev b none with
      | some (d, px) => if d + 1 = x.firstLine then some px else none
      | none => none)
    decodeLines x.codec width order prev x.payload []

/-- The first block that the local consumer has not taken, with its place in the FIFO (R119). -/
def State.nextBlock (s : State) : Option (Nat × FifoBlock) :=
  ((List.range s.rin.fifo.length).zip s.rin.fifo).find? fun e => e.2.taken == .waiting

/-- A visible block changed. -/
def State.modBlock (s : State) (i : Nat) (f : FifoBlock → FifoBlock) : State :=
  { s with rin := { s.rin with fifo := s.rin.fifo.modify i f } }

/-- A block found to match no slot any more (R125, R127). -/
def State.blockUnknown (s : State) (i : Nat) (x : FifoBlock) : State :=
  let s := s.modBlock i fun x => { x with taken := .unknownJob }
  ({ s with rin := { s.rin with writerWaiting := false, blockedBar := none } } : State).answer x.fwd 3 255 x.sequence x.jobId x.firstLine

/-- A block that ends in a codec error (R118): acknowledged, raised, and its bars left without a previous line. -/
def State.blockCodecError (s : State) (i : Nat) (x : FifoBlock) (b d : Nat) : State :=
  let s := s.modBlock i fun x => { x with taken := .codecError }
  let s := s.modSlot x.slot fun y => { y with prev := Vector.ofFn fun (j : Fin 8) => if bit x.barMask j.val then none else y.prev[j] }
  let s := s.raise 0x2204 0 (u32 x.sequence ++ u8 b ++ u32 d)
  s.answer x.fwd 7 x.slot x.sequence x.jobId x.firstLine

/-- A block taken locally; one that came from the partner is acknowledged to it now (R123, R359). -/
def State.blockStored (s : State) (i : Nat) (x : FifoBlock) : State :=
  let s := s.modBlock i fun x => { x with taken := .stored }
  if x.fwd then s.answer true 0 x.slot x.sequence x.jobId x.firstLine else s

/-- The last decoded line of each bar kept for the next block (R118). -/
def State.keepPrev (s : State) (k : Nat) (lines : List (Nat × Nat × Bytes)) : State :=
  forEach lines (fun e s => s.modSlot k fun y => { y with prev := vmod y.prev e.1 fun _ => some (e.2.1, e.2.2) }) s

/-- JOB_WRITER_BLOCK: the job writer takes the next block of a store slot, or waits on a channel (R123, R127, R128). -/
def execJobWriterBlock (s : State) : Host.Outcome State Fault Refusal :=
  match s.nextBlock with
  | none => .next s
  | some (i, x) =>
    match s.matchSlot x.jobId x.generation with
    | none => .next (if x.kind = 0 ∧ s.on domRFE then s.blockUnknown i x else s)
    | some k =>
      if !s.on domRFE ∨ s.slotStream k then .next s
      else if (s.slot k).st ≠ .loading then .next (s.blockUnknown i x)
      else
        let x := { x with slot := k }
        let rows := (barsOf x.barMask).flatMap fun b => (List.range x.lineCount).map fun j => (b, x.firstLine + j)
        let ready := rows.all fun r => s.memTakes (s.lineAddr k r.1 r.2) (s.pitch k) 1
        if !ready then .next { s with rin := { s.rin with writerWaiting := true } }
        else
          let s := { s with rin := { s.rin with writerWaiting := false } }
          match s.decodeBlock x with
          | .error (b, d) =>
            let s := forEach rows (fun r s =>
              let (u, s) := s.freeBytes (s.slotWidth k)
              let s := s.memWrite (s.lineAddr k r.1 r.2) u 1
              s.modSlot k fun y => { y with valid := kvDel y.valid (lineKey r.1 r.2) }) s
            .next (s.blockCodecError i x b d)
          | .ok lines =>
            let s := forEach lines (fun e s =>
              let s := s.memWrite (s.lineAddr k e.1 e.2.1) (padTo (s.pitch k) e.2.2) 1
              s.modSlot k fun y => { y with valid := kvPut y.valid (lineKey e.1 e.2.1) () }) s
            .next ((s.keepPrev k lines).blockStored i x)

/-- Every enabled channel serves requests: the stream windows are spread over all of them (R129; assumption 31). -/
def State.allServe (s : State) : Bool :=
  !s.enabled.isEmpty && s.enabled.all fun c => (s.chan c).serves && s.on (chanDomain c)

/-- STREAM_DECODE_BLOCK: the next stream block is decoded into a free window block of its bar, or waits for one (R129). -/
def execStreamDecodeBlock (s : State) : Host.Outcome State Fault Refusal :=
  match s.nextBlock with
  | none => .next s
  | some (i, x) =>
    match s.matchSlot x.jobId x.generation with
    | none => .next (if x.kind ≠ 0 ∧ s.on domRFE then s.blockUnknown i x else s)
    | some k =>
      let st := (s.slot k).st
      let b := (barsOf x.barMask).headD 0
      if !s.on domRFE ∨ !s.slotStream k then .next s
      else if st ≠ .ready ∧ st ≠ .printing ∧ st ≠ .draining then .next (s.blockUnknown i x)
      else if 2 ≤ (vget s.rin.windows b []).length then .next { s with rin := { s.rin with blockedBar := some b } }
      else if !s.allServe then .next { s with rin := { s.rin with writerWaiting := true } }
      else
        let x := { x with slot := k }
        let s := { s with rin := { s.rin with blockedBar := none, writerWaiting := false } }
        let put := fun (s : State) (l : List (Option Bytes)) =>
          let w : WindowBlock := { slot := k, first := x.firstLine, lines := l, fetched := 0 }
          let s := { s with rin := { s.rin with windows := vmod s.rin.windows b (· ++ [w]) } }
          if x.kind = 2 then
            s.modSlot k fun y => { y with streams := vmod y.streams b fun z => { z with endLine := some (x.firstLine + x.lineCount) } }
          else s
        match s.decodeBlock x with
        | .error (eb, d) => .next ((put s (List.replicate x.lineCount none)).blockCodecError i x eb d)
        | .ok lines =>
          .next (((put s (lines.map fun e => some e.2.2)).keepPrev k lines).blockStored i x)

/-- The forwarder is active: the role is ACTIVE, the link is up, the slot fed is in stream mode, and it has not stopped (R124). -/
def State.forwarding (s : State) (k : Nat) : Bool :=
  s.on domMIR && s.mir.link && s.mir.role == .active && s.slotStream k && !s.rin.fwdStopped

/-- Blocks sent to the partner and not yet acknowledged. -/
def State.outstanding (s : State) : Nat := (s.rin.fifo.filter fun x => x.sent && !x.acked).length

/-- The bytes of a visible block as it was stored: header, padded payload and trailer (R116). -/
def FifoBlock.toBytes (x : FifoBlock) : Bytes :=
  let h := rasterHeader 0x5652 1 x.codec x.jobId x.barMask x.kind x.generation x.firstLine x.lineCount x.payload.length x.sequence
  let h := h ++ u32 (crc32c h)
  h ++ padTo (ceilDiv x.payload.length 32 * 32) x.payload
    ++ padTo 32 (u32 (crc32c (h ++ x.payload)) ++ u32 x.sequence ++ u16 0x5645)

/-- FORWARD_BLOCK: the next visible block not yet sent goes to the partner, at most four unacknowledged (R124). -/
def execForwardBlock (s : State) : Host.Outcome State Fault Refusal :=
  match ((List.range s.rin.fifo.length).zip s.rin.fifo).find? (fun e => !e.2.sent) with
  | none => .next s
  | some (i, x) =>
    if s.on domRFE && s.forwarding x.slot && s.outstanding < 4 then
      let b := x.toBytes
      let s := s.modBlock i fun x => { x with sent := true }
      let n := ceilDiv b.length 65504
      .next (forRange n (fun j s =>
        s.linkSend 5 (if j + 1 = n then 4 else 0)
          (padTo 32 (u32 x.sequence ++ u32 (j * 65504) ++ u32 b.length) ++ slice b (j * 65504) 65504)) s)
    else .next s

/-- The first block sent and not acknowledged for which `p` holds, with its place in the FIFO. -/
def State.unacknowledged (s : State) (p : FifoBlock → Bool) : Option (Nat × FifoBlock) :=
  ((List.range s.rin.fifo.length).zip s.rin.fifo).find? fun e => e.2.sent && !e.2.acked && p e.2

/-- A failed send of a block: the forwarder rewinds to the oldest unacknowledged block; the block's third failure stops it (R124). -/
def State.forwardFailed (s : State) (i : Nat) : State :=
  match s.rin.fifo[i]? with
  | none => s
  | some x =>
    let s := { s with rin := { s.rin with fifo := s.rin.fifo.map fun (y : FifoBlock) => if y.sent ∧ !y.acked then { y with sent := false } else y } }
    let s := s.modBlock i fun y => { y with fails := y.fails + 1 }
    if 3 ≤ x.fails + 1 then
      ({ s with rin := { s.rin with fwdStopped := true } } : State).raise 0x2205 0 (u32 x.sequence)
    else s

/-- FORWARD_ACK_TIMEOUT: no acknowledgement of the oldest block within 1 ms counts as its failed send, while the forwarder is active
(R124). -/
def execForwardAckTimeout (s : State) : Host.Outcome State Fault Refusal :=
  match s.unacknowledged fun _ => true with
  | some (i, x) => .next (if s.on domRFE && s.forwarding x.slot then s.forwardFailed i else s)
  | none => .next s

/-- FACK_RECEIVED: the partner's acknowledgement of a block; a NAK counts as a failed send (R124, R359). -/
def execFackReceived (sequence : BitVec 32) (status : BitVec 8) (ok : Bool) (s : State) : Host.Outcome State Fault Refusal :=
  match s.unacknowledged fun x => x.sequence == sequence.toNat with
  | none => .next s
  | some (i, x) =>
    if !s.on domRFE ∨ !s.on domMIR then .next s
    else if ok then .next (s.modBlock i fun x => { x with acked := true, partner := some status.toNat })
    else .next (if s.forwarding x.slot then s.forwardFailed i else s)

/-- The Ack status that the local consumer's finding stands for (R126). -/
def Taken.status : Taken → Nat
  | .waiting | .stored => 0
  | .codecError => 7
  | .unknownJob => 3

/-- BLOCK_RELEASE: the oldest block, taken locally and acknowledged by the partner where that is needed, is released; a partner's status that differs is
raised (R125, R359). -/
def execBlockRelease (s : State) : Host.Outcome State Fault Refusal :=
  match s.rin.fifo with
  | [] => .next s
  | x :: rest =>
    if !s.on domRFE ∨ x.taken = .waiting ∨ (s.forwarding x.slot && !x.acked) then .next s
    else
      let s := { s with rin := { s.rin with fifo := rest } }
      let s := if x.taken = .stored ∧ !x.fwd then s.ack 0 x.slot x.sequence x.jobId x.firstLine else s
      let own := x.taken.status
      let s := match x.partner with
        | some p => if p = own then s else s.raise 0x3213 0 (u32 x.sequence ++ u8 own ++ u8 p)
        | none => s
      .next s.fillMoved

/-- Invalid sync headers counted for lanes 32 to 35 (R135). -/
def State.laneErrors (s : State) (n : Nat → Nat) : State := forRange 4 (fun l s => s.addNum 0x2221 (l + 1) (n l)) s

/-- RASTER_LINK_UP: lanes 32 to 35 lock and deskew, in the training of a CONFIGURED request or again after a loss (R114, R115). -/
def execRasterLinkUp (s : State) : Host.Outcome State Fault Refusal :=
  if s.on domRFE && (s.pwr.trans == some .training || s.rin.retrain) then
    .next ({ s with rin := { s.rin with linkUp := true, retrain := false, locked := 15 } } : State).fillMoved
  else .next s

/-- RASTER_LINK_LOST: lock or deskew lost for more than 1 µs; F2203h, and the port retrains by itself. Which lanes keep their lock, and how
many invalid sync headers cost it, is free (R115, R137; assumption 11). -/
def execRasterLinkLost (s : State) : Host.Outcome State Fault Refusal :=
  if s.on domRFE && s.rin.linkUp then
    let (locked, s) := s.freeBelow 16
    let f := s.fresh
    let s := ({ s with fresh := f + 4 } : State).laneErrors fun l => Config.freeNat (f + l)
    let s := { s with rin := { s.rin with linkUp := false, retrain := true, locked := locked } }
    .next (s.raise 0x2203 0 (u8 locked ++ (List.range 4).flatMap fun l => u32 (s.num 0x2221 (l + 1))))
  else .next s

/-- RASTER_BLOCK_RECEIVED: the writer receives a block over the Raster port. A block that the intake's closing caught half way is dropped
and acknowledged Aborted, or with the status that its header had got; how many of its words had come is free (R31, R115, R120, R122,
R126, R359). -/
def execRasterBlockReceived (b : RasterBlock) (s : State) : Host.Outcome State Fault Refusal :=
  if s.intakeOpen then .next ((s.laneErrors fun l => vget b.laneErrors l 0).intake false b)
  else if s.on domRFE && b.begun then
    let s := s.laneErrors fun l => vget b.laneErrors l 0
    let (came, s) := s.freeBelow (blockWords b)
    if s.rin.overrun then .next (s.addNum 0x2220 6 (b.skipped + 1 + came))
    else if !headerValid b then .next (s.addNum 0x2220 9 (b.skipped + 1 + came))
    else
      let (st, k) := s.slotCheck b
      .next ((s.addNum 0x2220 9 b.skipped).ack (if st = 0 then 8 else st) k b.sequence.toNat b.jobId.toNat b.firstLine.toNat)
  else .next s

/-- A SLOT frame to the partner at a change of a slot's state and after a seal (R358). -/
def State.tellSlot (s : State) (k : Nat) : State :=
  if s.linkWarm then
    s.linkSend 7 0 (padTo 32 (u8 k ++ u8 (s.slot k).st.code ++ u16 (s.num 0x2218 (k + 1)) ++ u32 (s.num 0x2210 (k + 1))
      ++ u32 (s.num 0x221D (k + 1))))
  else s

/-- A slot put into a state, with its SLOT frame (R127, R358). -/
def State.setSlot (s : State) (k : Nat) (st : SlotSt) : State := (s.modSlot k fun y => { y with st := st }).tellSlot k

/-- A slot released: EMPTY, its stream windows gone (R127). -/
def State.emptySlot (s : State) (k : Nat) : State :=
  let s := s.modSlot k fun _ => Slot.start
  let s := { s with rin := { s.rin with windows := Vector.ofFn fun (b : Fin 8) => (s.rin.windows[b]).filter (·.slot != k) } }
  s.tellSlot k

/-- The descriptor keeps the store limits of R128. -/
def State.storeLimits (s : State) (k : Nat) : Bool :=
  s.slotWidth k * 1200 ≤ 131072 * s.num 0x2214 (k + 1)
    && (s.slotStream k || s.slotLines k ≤ s.slotYdpi k * 7874 / 20)

/-- SlotCommand (R127, R128, R137). Where several refusals of an open apply, the order 2204_03, 04, 05 is the model's choice
(assumption 57). -/
def State.slotCommand (s : State) (k v : Nat) : Except Nat State :=
  let st := (s.slot k).st
  let other := 1 - k
  if v = 1 then
    if st ≠ .empty then .error (0x22030100 + k)
    else if !s.slotStream k && s.slotCapacity < (barsOf (s.slotMask k)).length * s.plane k then .error (0x22040300 + k)
    else if (s.slot other).st ≠ .empty ∧ s.num 0x2210 (k + 1) = s.num 0x2210 (other + 1)
        ∧ s.num 0x2218 (k + 1) = s.num 0x2218 (other + 1) then .error (0x22040400 + k)
    else if !s.storeLimits k then .error (0x22040500 + k)
    else
      let s := s.modSlot k fun _ => Slot.start
      .ok (s.setSlot k (if s.slotStream k then .ready else .loading))
  else if v = 2 then
    if st ≠ .loading then .error (0x22030100 + k)
    else if s.linesMissing k ≠ 0 then .error (0x22040200 + k)
    else .ok (s.setSlot k .sealing)
  else
    if (st ≠ .loading ∧ st ≠ .sealing ∧ st ≠ .ready) ∨ s.num 0x2410 1 = k then .error (0x22030100 + k)
    else .ok (s.emptySlot k)

/-- The bytes of a slot's planes in the seal pass's order (R128). -/
def State.sealBytes (s : State) (k : Nat) : Bytes :=
  (barsOf (s.slotMask k)).flatMap fun b =>
    (List.range (s.slotLines k)).flatMap fun d => s.memBytes (s.lineAddr k b d) (s.slotWidth k)

/-- SEAL_PASS_DONE: every line read, SlotChecksum is written and the slot is READY; the pass waits on a frozen channel (R127, R128). -/
def execSealPassDone (slot : Fin 2) (s : State) : Host.Outcome State Fault Refusal :=
  let k := slot.val
  let size := (barsOf (s.slotMask k)).length * s.plane k
  if s.on domRFE ∧ (s.slot k).st = .sealing ∧ s.memServes (k * s.slotCapacity) size then
    let s := s.memAccess (k * s.slotCapacity) size 1
    let s := s.setNum 0x221D (k + 1) (crc32c (s.sealBytes k))
    .next ((s.setSlot k .ready).irq 1)
  else .next s

/-- QueuedSlot (R130, R132, R137). -/
def State.queueSlot (s : State) (v : Nat) : Except Nat State :=
  if s.fet.change then .error 0x24030300
  else if v = 255 then .ok (s.setNum 0x2410 1 v)
  else if (s.slot v).st ≠ .ready then .error (0x24040100 + v)
  else if s.num 0x2410 2 < 2 ∧ !within (s.slotMask v) (s.slotMask (s.num 0x2410 2)) then .error (0x24040100 + v)
  else .ok (s.setNum 0x2410 1 v)

/-- ChangeAtRepeat (R132, R137). -/
def State.changeAt (s : State) (v : Nat) : Except Nat State :=
  if s.fet.change then .error 0x24030300
  else
    let cur := s.num 0x2410 2
    let n := if v = 0 then (if cur < 2 then s.num 0x2217 (cur + 1) else 0) else v
    let printing := (barsOf s.fsq.jobMask).filter fun b => (s.bar b).run != .ended && (s.bar b).run != .notInJob
    let top := printing.filterMap fun b => (vget s.fet.bars b BarJob.start).topRepeat
    if (v = 0 ∧ n = 0) ∨ top.all (· < n) then .ok (s.setNum 0x2410 3 v)
    else .error (0x24040200 + v % 256)

/-- Writes of RIN and FET objects with an effect of their own. -/
def hookRaster (idx sub : Nat) (v : Val) (s : State) : Option (Except Nat State) :=
  let n := v.toNum
  match idx, sub with
  | 0x221A, _ => some (s.slotCommand (sub - 1) n)
  | 0x2220, 1 => some (.ok (s.setObj idx sub v).fillMoved)
  | 0x2220, 10 => some (.ok (if n = 1 then { s with rin := { s.rin with fwdStopped := false,
                                                                        fifo := s.rin.fifo.map fun x => { x with fails := 0 } } } else s))
  | 0x2410, 1 => some (s.queueSlot n)
  | 0x2410, 3 => some (s.changeAt n)
  | _, _ => none

/-- A Stopped RIN object counts as running while its slot is not EMPTY (R135). -/
def rasterRuns (s : State) (sub : Nat) : Bool := (s.slot (sub - 1)).st != .empty

/-- The check between the objects of area 22h at a commit (R135). -/
def checkRaster (get : Nat → Nat → Val) : Option (Nat × Nat) :=
  if (get 0x2220 3).toNum + 1024 ≤ (get 0x2220 2).toNum then none else some (0x2220, 3)

/-- IntakeStatus (R135). -/
def State.intakeStatus (s : State) : Nat :=
  let cur := [0, 1].any fun k => (s.slot k).st != .empty && s.forwarding k
  b2n s.rin.linkUp * 2 ^ 31 + b2n s.rpXon * 2 ^ 30 + b2n (s.rin.overrun && !s.rpXon) * 2 ^ 29 + b2n cur * 2 ^ 28 + b2n s.rin.fwdStopped * 2 ^ 27
    + b2n s.rin.writerWaiting * 2 ^ 26 + b2n s.rin.blockedBar.isSome * 2 ^ 25 + s.rin.locked * 2 ^ 16
    + s.rin.blockedBar.getD 255 * 256 + s.outstanding

/-- A block reset of RIN: the FIFO emptied, each block not yet taken acknowledged Aborted; slots and windows kept (R386). -/
def State.rinBlockReset (s : State) : State :=
  let open' := s.rin.fifo.filter (·.taken == .waiting)
  let s := forEach open' (fun x s => s.answer x.fwd 8 x.slot x.sequence x.jobId x.firstLine) s
  let r := { Rin.start with linkUp := s.rin.linkUp, retrain := s.rin.retrain, locked := s.rin.locked, slots := s.rin.slots, windows := s.rin.windows }
  let s := s.clearObjs fun idx sub => idx == 0x2221 || (idx == 0x2220 && 6 ≤ sub && sub ≤ 9)
  { s with rin := r }

end Sys2Proof.Machine
end

