-- ==== Sys2Proof/Machine/Track.lean ====
section
/-! DEFINITION. Colour hold's track and HoldLog, and what the rest of CTL tells it: job starts and gain take-up (R326, R332, R340,
R341). -/

set_option Elab.async false

namespace Sys2Proof.Machine

/-- Colour hold's state of a bar. -/
def State.cheBar (s : State) (b : Nat) : CheBar := vget s.che.bars b CheBar.start

/-- Colour hold's state of a bar changed. -/
def State.modChe (s : State) (b : Nat) (f : CheBar → CheBar) : State :=
  { s with che := { s.che with bars := vmod s.che.bars b f } }

/-- A HoldLog record now: bar, kind, what changed, take-up line (R341). -/
def State.holdLog (s : State) (bar kind : Nat) (g : GainLoad) (takeUp : Nat) : State :=
  let st := s.stamp48
  let r := padTo 32 (u32 (st % 2 ^ 32) ++ u16 (st / 2 ^ 32) ++ u8 bar ++ u8 kind ++ u32 g.window ++ u16 g.changed ++ u16 g.step
    ++ u32 takeUp ++ u16 g.observable ++ u16 g.atLimit)
  let l := s.che.log ++ [r]
  { s with che := { s.che with log := l.drop (l.length - 1024) } }

/-- A record that changes nothing of the present window. -/
def State.noLoad (s : State) (changed : Nat) : GainLoad :=
  { window := s.num 0x2820 13, changed := changed, step := 0, observable := 0, atLimit := 0 }

/-- The window in progress and its frame accumulator are discarded, with the cause of F2820h (R332). -/
def State.discardWindow (s : State) (cause : Nat) : State :=
  if s.che.p0.isSome then
    let s := s.bump 0x2832 5
    let s := s.raise 0x2820 cause (u8 cause ++ u32 (s.num 0x2820 13))
    let s := s.holdLog 255 5 (s.noLoad 0) 0xFFFFFFFF
    { s with che := { s.che with winAcc := [], frameAcc := [], p0 := none, framesIn := 0 } }
  else s

/-- The track is cleared with the cause of F2800h, and the window in progress goes with it (R326, R332). -/
def State.clearTrack (s : State) (cause : Nat) : State :=
  if s.on domCTL && s.num 0x2820 1 == 1 && !s.boltedChe then
    let s := s.raise 0x2800 cause (u8 cause)
    let s := { s with che := { s.che with track := [] } }
    s.discardWindow 2
  else s

/-- A trigger record of the web trigger enters the track (R326). -/
def State.trackPoint (s : State) (t : Trig) : State :=
  if !s.on domCTL ∨ s.num 0x2820 1 = 0 ∨ s.boltedChe then s
  else
    let back := s.che.track.getLast?.any fun p => decide (toSigned 48 (t.pos + 2 ^ 48 - p.pos) ≤ 0)
    let s := if back then s.clearTrack 2 else s
    let l := s.che.track ++ [{ ns := t.ns, pos := t.pos }]
    { s with che := { s.che with track := l.drop (l.length - 131072) } }

/-- A job starts for a bar with a line (R332). -/
def State.cheJobStart (s : State) (b n : Nat) : State := s.modChe b fun x => { x with jobStart := some n, startN := n }

/-- A bar leaves a slot's job with its line `n`, which would have been print line `p` there (R132, R318). -/
def State.cheLeft (s : State) (b k n p : Nat) : State :=
  s.modChe b fun x => { x with old := some { slot := k, start := x.startN, n := n, p := p } }

/-- A job change is complete: the old job's slot is no longer held (R132, R318). -/
def State.cheOldGone (s : State) : State := forRange 8 (fun b s => s.modChe b fun x => { x with old := none }) s

/-- A gain load that waits takes effect with the line that FET issues now (R340). -/
def State.gainTaken (s : State) (b n : Nat) : State :=
  match (s.cheBar b).load with
  | none => s
  | some g => ((s.modChe b fun x => { x with load := none }).setNum 0x281D (b + 1) n).holdLog b 1 g n

end Sys2Proof.Machine
end

