-- ==== Sys2Proof/Machine/Jobs.lean ====
section
/-! DEFINITION. Job sequencing: design lines, repeat boundaries, job end and job change, and FET's issue of lines
(R14, R15, R130 to R132, R199). -/

set_option Elab.async false

namespace Sys2Proof.Machine

/-- A device state entered, with its time (R22, R33). -/
def State.enter (s : State) (d : DevState) : State :=
  let s := { s with pwr := { s.pwr with dev := d, entryNs := s.stamp48 % 2 ^ 32, entryEra := s.stamp48 / 2 ^ 32 } }
  s.setNum 0x1100 4 s.stamp48

/-- A bar's FET state. -/
def State.job (s : State) (b : Nat) : BarJob := vget s.fet.bars b BarJob.start

/-- The design line of a print line of a slot (R131). -/
def State.designLine (s : State) (k p : Nat) : Nat := p * s.slotYdpi k / 1200

/-- The repeat index of a print line of a slot (R131). -/
def State.repeatOf (s : State) (k p : Nat) : Nat :=
  if s.slotStream k then 0 else s.designLine k p / max 1 (s.slotLines k)

/-- The first print line of a repeat of a slot. -/
def State.repeatStart (s : State) (k r : Nat) : Nat := ceilDiv (r * s.slotLines k * 1200) (max 1 (s.slotYdpi k))

/-- The repeat N at which a store job ends or changes; 0 for an endless one (R132). -/
def State.boundaryN (s : State) (k : Nat) : Nat := if s.num 0x2410 3 ≠ 0 ∧ s.num 0x2410 2 = k then s.num 0x2410 3 else s.num 0x2217 (k + 1)

/-- A print line stands at the boundary of its job for a bar (R129, R132). -/
def State.atBoundary (s : State) (b k p : Nat) : Bool :=
  if s.slotStream k then (vget (s.slot k).streams b Stream.start).endLine.any fun e => e ≤ s.designLine k p
  else s.boundaryN k != 0 && s.boundaryN k ≤ s.repeatOf k p

/-- The job that QueuedSlot, as it reads, has for a bar: none where it names no slot or one that leaves the bar out (R132). -/
def State.queuedFor (s : State) (b : Nat) : Option Nat :=
  let q := s.num 0x2410 1
  if q < 2 ∧ bit (s.slotMask q) b then some q else none

/-- The job that follows for a bar: as it is fixed, else as it would be fixed now (R132). -/
def State.followOf (s : State) (b : Nat) : Option Nat := (s.job b).follow.getD (s.queuedFor b)

/-- The job that follows is fixed for a bar; a job change is in progress from then on (R132). -/
def State.fixFollow (s : State) (b : Nat) (f : Option Nat) : State :=
  let s := s.modJob b fun j => { j with follow := some f }
  { s with fet := { s.fet with change := true } }

/-- FET's next line of a bar comes from the job that follows: a running number and a print line of that job. -/
def State.cursorTo (s : State) (b q idx p : Nat) : State :=
  s.modJob b fun j => { j with slot := some q, idx := idx, p := p, topRepeat := none, held := none, moved := true }

/-- The first print line at the boundary of a slot's job for a bar (R129, R131, R132). -/
def State.boundaryLine (s : State) (b k : Nat) : Nat :=
  if s.slotStream k then ceilDiv ((vget (s.slot k).streams b Stream.start).endLine.getD 0 * 1200) (max 1 (s.slotYdpi k))
  else s.repeatStart k (s.boundaryN k)

/-- Window lines of a bar up to a design line counted as fetched; a window block whose last line is fetched is free (R129, R231). -/
def State.fetchedTo (s : State) (b k d : Nat) : State :=
  let w := (vget s.rin.windows b []).map fun (x : WindowBlock) =>
    if x.slot = k then { x with fetched := max x.fetched (min x.lines.length (d + 1 - x.first)) } else x
  { s with rin := { s.rin with windows := vmod s.rin.windows b fun _ => w.filter fun x => x.slot != k || x.fetched < x.lines.length } }

/-- The running number of the bar's earliest line whose preparation has not started (R231). -/
def State.nextPrep (s : State) (b : Nat) : Nat :=
  let x := s.bar b
  x.idx - x.waiting.length + (if x.prepared.isSome then 1 else 0)

/-- FET passes over `n` lines whose preparation time has passed (R231). -/
def State.fetSkip : Nat → Nat → State → State
  | 0, _, s => s
  | n + 1, b, s =>
    let j := s.job b
    let s := match j.slot with
      | some k => if j.ended ∨ s.atBoundary b k j.p then s else s.fetchedTo b k (s.designLine k j.p)
      | none => s
    State.fetSkip n b (s.modJob b fun j => { j with idx := j.idx + 1, p := j.p + 1 })

/-- FET brought up to the earliest line that it may still issue for a bar (R231). -/
def State.fetCatchUp (s : State) (b : Nat) : State := State.fetSkip (s.nextPrep b - (s.job b).idx) b s

/-- FET's next line of a bar stands at or past the boundary of its job (R132). -/
def State.fetEnds (s : State) (b : Nat) : Bool := (s.job b).slot.any fun k => s.atBoundary b k (s.job b).p

/-- The line that FET issues next for a bar, slot and print line: of its job, or past its boundary of the job that follows (R131, R132). -/
def State.nextLine (s : State) (b : Nat) : Option (Nat × Nat) :=
  let j := s.job b
  match j.slot with
  | none => none
  | some k =>
    if !s.fetEnds b then some (k, j.p)
    else if j.moved then none
    else (s.followOf b).map fun q => (q, j.p - s.boundaryLine b k)

/-- A design line of a bar read from the stream window or the job store; nothing while it cannot be read (R128, R129, R155). -/
def State.fetchNew (s : State) (b k d : Nat) : Option (Option Bytes) :=
  if s.slotStream k then
    if !s.allServe then none
    else ((vget s.rin.windows b []).find? fun x => x.slot == k && x.first ≤ d && d < x.first + x.lines.length).map
      fun x => x.lines.getD (d - x.first) none
  else
    let line := d % max 1 (s.slotLines k)
    if s.memServes (s.lineAddr k b line) (s.slotWidth k) then some (some (s.memBytes (s.lineAddr k b line) (s.slotWidth k)))
    else none

/-- A design line of a bar as FET has it: fetched once for all the print lines that use it (R131). -/
def State.fetchLine (s : State) (b k d : Nat) : Option (Option Bytes) :=
  match (s.job b).held with
  | some (hk, hd, px) => if hk = k ∧ hd = d then some px else s.fetchNew b k d
  | none => s.fetchNew b k d

/-- The screening settings of a bar as they are live (R199). -/
def State.sneCfg (s : State) (b k : Nat) : SneCfg :=
  let i := b + 1
  { map := s.bytes 0x2710 i, zoneWidth := s.num 0x2712 i, tone := s.bytes 0x2714 i, gain := s.bytes 0x2715 i,
    redist := s.num 0x2716 i, mode := s.num 0x2717 i, diffusion := s.num 0x2718 i, depth := s.num 0x2719 i,
    levels := s.bytes 0x271A i, threshold := s.bytes 0x271B i, dither := s.bytes 0x271C i, xdpi := s.num 0x2214 (k + 1),
    width := s.slotWidth k }

/-- Lines of a bar in flight: issued and not complete in the buffer (R14). -/
def State.inFlight (s : State) (b : Nat) : Nat :=
  ((s.bar b).buf.filter fun e => e.2.slices.toList.any (· == .waiting)).length

/-- The line event that a bar has had for a line not yet prepared, by running number. -/
def BarFsq.eventOf (x : BarFsq) (idx : Nat) : Option LineEv :=
  if x.idx ≤ idx ∨ idx + x.waiting.length < x.idx then none else x.waiting[idx + x.waiting.length - x.idx]?

/-- The number of the line event that a running line of a bar has taken, or will take (R179, R182). -/
def State.lineNumber (s : State) (b idx : Nat) : Nat :=
  let x := s.bar b
  match (x.eventOf idx).orElse fun _ => (x.firing.filter fun f => f.line.idx == idx).map (·.ev) with
  | some ev => ev.n
  | none => ((vget s.lcg b Lcg.start).n + idx - x.idx) % 2 ^ 32

/-- An engine's state changed. -/
def State.modEngine (s : State) (n : Nat) (f : Eng → Eng) : State :=
  { s with sne := { s.sne with engines := vmod s.sne.engines n f } }

/-- FET_ISSUE_LINE: the earliest line whose preparation has not started is issued into a free pre-fire entry, one slice to each
serving engine, with the bar's area 27h values taken up at it (R14, R15, R130 to R132, R199, R219, R231). -/
def execFetIssueLine (b : Bar) (s : State) : Host.Outcome State Fault Refusal :=
  if !s.on domRFE ∨ !s.on domCTL ∨ !s.inStates runStates ∨ !bit s.fsq.jobMask b then .next s
  else
    let s := s.fetCatchUp b
    let j := s.job b
    if j.slot.isNone ∨ j.ended ∨ s.num 0x1200 9 ≤ j.idx - (s.bar b).idx ∨ 24 ≤ s.inFlight b ∨ (s.bar b).run = .ended then .next s
    else match s.nextLine b with
      | none => .next (if j.moved then s else (s.fixFollow b none).modJob b fun j => { j with ended := true })
      | some (k, p) =>
        let d := s.designLine k p
        match s.fetchLine b k d with
        | none => .next s
        | some px =>
          let s := if s.fetEnds b then (s.fixFollow b (some k)).cursorTo b k j.idx p else s
          let j := s.job b
          let s := (s.takeUpBar 0x27 b (s.lineNumber b j.idx)).gainTaken b (s.lineNumber b j.idx)
          let s := if j.held.any (fun h => h.1 == k && h.2.1 == d) then s
            else
              let s := if s.slotStream k then s.fetchedTo b k d
                else s.memAccess (s.lineAddr k b (d % max 1 (s.slotLines k))) (s.slotWidth k) 0
              s.modJob b fun j => { j with held := some (k, d, px) }
          let serving := fun (i : Nat) => vget s.sne.slices i 255
          let slices : Vector SliceSt 16 := Vector.ofFn fun i =>
            if px.isNone then .complete [] else if serving i < 17 then .waiting else .lost
          let e : Entry := { cfg := s.sneCfg b k, p := j.p, slot := k, design := d, pixels := px, slices := slices, prev := j.last, fresh := vget s.sne.zeroNext b false }
          let s := s.modBar b fun x => { x with buf := kvPut x.buf j.idx e }
          let s := if px.isSome then
              { s with sne := { s.sne with zeroNext := vmod s.sne.zeroNext b fun _ => false } } else s
          let s := forRange 16 (fun i s =>
            if px.isNone then s
            else if serving i < 17 then
              s.modEngine (serving i) fun g => { g with queue := g.queue ++ [{ bar := b, idx := j.idx, slice := i }] }
            else s.addNum 0x2721 (b + 1) 1) s
          .next (s.modJob b fun j =>
            { j with idx := j.idx + 1, p := j.p + 1, topRepeat := some (max (j.topRepeat.getD 0) (s.repeatOf k j.p)),
                     last := if px.isSome then some (j.idx) else j.last })

/-- A bar's issued lines from a running number on, with their engine work and edge records and what a bolt left to tell of them, thrown
away. -/
def State.dropFrom (s : State) (b idx : Nat) : State :=
  let s := s.modBar b fun x => { x with buf := x.buf.filter (·.1 < idx), prepared := none }
  { s with sne := { s.sne with
      engines := s.sne.engines.map fun (g : Eng) => { g with queue := g.queue.filter fun j => j.bar != b || j.idx < idx }
      edges := s.sne.edges.filter fun e => e.bar != b || e.idx < idx
      lost := vmod s.sne.lost b fun _ => none } }

/-- All of a bar's lines thrown away. -/
def State.dropLines (s : State) (b : Nat) : State := (s.dropFrom b 0).modBar b fun x => { x with waiting := [], ready := false }

/-- A bar starts a slot at a print line, with nothing issued (R130, R131). -/
def State.startBar (s : State) (b : Nat) (slot : Option Nat) (p : Nat) : State :=
  let s := (s.dropLines b).modBar b fun x => { x with idx := 0, p := p, slot := slot }
  s.modJob b fun _ => { BarJob.start with slot := slot, p := p }

/-- ARMED entered: the coverage records written are counted anew (R22, R247). -/
def State.toArmed (s : State) : State := forRange 8 (fun b s => s.setNum 0x2961 (b + 1) 0) (s.enter .armed)

/-- A slot becomes current: PRINTING, and its mask is the job's (R127, R130). -/
def State.makeCurrent (s : State) (k : Nat) : State :=
  let s := (s.setNum 0x2410 2 k).setSlot k .printing
  { s with fsq := { s.fsq with jobMask := s.slotMask k } }

/-- CurrentSlot names a slot. -/
def State.current (s : State) : Option Nat := if s.num 0x2410 2 < 2 then some (s.num 0x2410 2) else none

/-- A bar leaves the job: line clock OUT, BarRunState 6; lines whose events have come still go out (R132, R179, R234). -/
def State.barEnds (s : State) (b : Nat) : State :=
  let s := (s.dropFrom b (s.bar b).idx).modBar b fun x => { x with run := .ended, slot := none, stopping := false }
  ((s.modLcg b fun c => { c with st := .out }).setNum 0x2413 (b + 1) 0xFFFFFFFF).barAtOnce b

/-- The bars of the present job that have started and not left it. -/
def State.startedBars (s : State) : List Nat :=
  (barsOf s.fsq.jobMask).filter fun b => (s.bar b).run != .waiting && (s.bar b).run != .ended && (s.bar b).run != .notInJob

/-- A job change completes: the old slot EMPTY, the queued slot current or none, the change over (R127, R132). -/
def State.changeDone (s : State) (follow : Option Nat) : State :=
  let s := match s.current with
    | some k => s.emptySlot k
    | none => s
  let s := ((s.setNum 0x2410 1 0xFF).setNum 0x2410 3 0).cheOldGone
  let s := { s with fet := { s.fet with change := false
                                        bars := s.fet.bars.map fun (j : BarJob) =>
                                          { j with changed := false, moved := false, follow := none } } }
  match follow with
  | some q => s.makeCurrent q
  | none => { s.setNum 0x2410 2 0xFF with fsq := { s.fsq with jobMask := 0 } }

/-- The repeat N that F2402h gives for a slot; a stream job has none (R132, R137). -/
def State.changeN (s : State) (k : Nat) : Nat := if s.slotStream k then 0 else s.boundaryN k

/-- The change's last started bar has changed: waiting bars follow at that moment, each with its F2402h, and the change completes; with no
job left the device returns to ARMED (R25, R132, R137). -/
def State.lastChanged (s : State) : State :=
  let q := s.num 0x2410 1
  let follow := if q < 2 ∧ (s.slot q).st = .ready then some q else none
  let waiting := (barsOf s.fsq.jobMask).filter fun b => (s.bar b).run == .waiting
  let s := forEach waiting (fun b s =>
    let s := match s.current with
      | some k => s.raise 0x2402 0 (u8 b ++ u32 (s.changeN k) ++ u8 k ++ u8 ((follow.filter fun q => bit (s.slotMask q) b).getD 255))
      | none => s
    match follow with
    | some q => if bit (s.slotMask q) b then s.startBar b (some q) 0 else s.barEnds b
    | none => s.barEnds b) s
  let s := s.changeDone follow
  if follow.isNone ∧ s.pwr.dev = .printing then s.toArmed else s

/-- A bar reaches the boundary of its job at a line event: it takes the queued job or ends (R127, R132). -/
def State.barBoundary (s : State) (b : Nat) : State :=
  let x := s.bar b
  match x.slot with
  | none => s
  | some k =>
    if !s.atBoundary b k x.p then s
    else if (s.job b).changed then (s.barEnds b).modJob b fun j => { j with ended := true }
    else
      let f := s.followOf b
      let s := (s.fixFollow b f).raise 0x2402 0 (u8 b ++ u32 (s.changeN k) ++ u8 k ++ u8 (f.getD 255))
      let s := if (s.slot k).st = .printing then s.setSlot k .draining else s
      let s := match f with
        | some q =>
          let s := if (s.job b).moved then s else s.cursorTo b q x.idx 0
          s.modBar b fun x => { x with slot := some q, p := 0 }
        | none => s.barEnds b
      let s := s.modJob b fun j => { j with changed := true }
      if s.startedBars.all fun a => (s.job a).changed then s.lastChanged else s

end Sys2Proof.Machine
end

