-- ==== Sys2Proof/Machine/Fsq.lean ====
section
/-! DEFINITION. FSQ: line preparation, duty limits, fire placement, overspeed, tokens and the fired-coverage record; FIRE_EN
(R226 to R247). Crossing and fire times are in 625 ps units, block boundaries in 125 ps units. -/

set_option Elab.async false

namespace Sys2Proof.Machine

/-- The time in 625 ps units that a crossing time of 42 bits names: the one nearest the present tick (R183). -/
def State.fineAt (s : State) (c : Nat) : Nat :=
  (((s.tick * 4 : Nat) : Int) + toSigned 42 (c + 2 ^ 42 - s.tick * 4 % 2 ^ 42)).toNat

/-- The STAMP48 of a time in 625 ps units: its tick's stamp with the part of a tick added (R12, R183). -/
def State.stampFine (s : State) (t : Nat) : Nat × State :=
  let (ns, s) := s.freeQuot ((t % 4 * 5 : Nat) : Int) 8
  ((extend s.eNow (s.stampAt (t / 4)) + ns.toNat) % 2 ^ 48, s)

/-- The level values of a line's settings, u12 (R208). -/
def SneCfg.lv (c : SneCfg) (l : Nat) : Nat := leAt c.levels (2 * l) 2

/-- The counts of a quarter table over five quarters up to `q` (R237). -/
def fiveQuarters (t : List (Nat × List (Nat × Nat))) (q k : Nat) : Nat :=
  (t.filter fun e => e.1 ≤ q && q ≤ e.1 + 4).foldl (fun n e => n + (kvGet e.2 k).getD 0) 0

/-- A count added to a quarter; quarters that no window reaches any more go (R237). -/
def addQuarter (t : List (Nat × List (Nat × Nat))) (q k n : Nat) : List (Nat × List (Nat × Nat)) :=
  let t := t.filter fun e => q ≤ e.1 + 4
  let cur := ((t.find? fun e => e.1 == q).map (·.2)).getD []
  (q, kvSet cur 0 k ((kvGet cur k).getD 0 + n)) :: t.filter fun e => e.1 != q

/-- The duty tables of a bar and what the line's check has found so far. -/
structure DutyRun where
  elem : List (Nat × List (Nat × Nat))
  head : List (Nat × List (Nat × Nat))
  levels : List Nat
  elemHits : Nat
  headHits : Nat
  /-- Head, element and rule of the first fire suppressed; the head of the last. -/
  first : Option (Nat × Nat × Nat)
  last : Nat
  deriving DecidableEq, Repr

/-- The duty limits of a bar: element limit and window, head limit and window, level weights (R237, R238). -/
structure DutyLimits where
  elemLimit : Nat
  elemWindow : Nat
  headLimit : Nat
  headWindow : Nat
  weights : Bytes
  deriving DecidableEq, Repr

/-- One address against the element check and then the head check (R228, R237, R238). -/
def dutyAddress (lim : DutyLimits) (j : Nat) (r : DutyRun) (i : Nat) (a : Addr) (level : Nat) : DutyRun :=
  let r := { r with levels := r.levels ++ [level] }
  let drop := fun (rule : Nat) =>
    { r with levels := r.levels.dropLast ++ [0], last := a.head,
             first := r.first.orElse fun _ => some (a.head, a.element, rule) }
  if level = 0 then r
  else
    let qe := j / (lim.elemWindow / 4)
    let qh := j / (lim.headWindow / 4)
    let w := leAt lim.weights level 1
    if lim.elemLimit ≤ fiveQuarters r.elem qe i then { drop 1 with elemHits := r.elemHits + 1 }
    else if lim.headLimit < fiveQuarters r.head qh a.head + w then { drop 2 with headHits := r.headHits + 1 }
    else { r with elem := addQuarter r.elem qe i 1, head := addQuarter r.head qh a.head w }

/-- All addresses of a line in address order (R228). -/
def dutyLine (lim : DutyLimits) (j : Nat) : Nat → List (Addr × Nat) → DutyRun → DutyRun
  | _, [], r => r
  | i, (a, l) :: rest, r => dutyLine lim j (i + 1) rest (dutyAddress lim j r i a l)

/-- The duty limits of a bar as they are live. -/
def State.dutyLimits (s : State) (b : Nat) : DutyLimits :=
  { elemLimit := s.num 0x2913 (b + 1), elemWindow := s.num 0x2914 (b + 1), headLimit := s.num 0x2915 (b + 1),
    headWindow := s.num 0x2916 (b + 1), weights := s.bytes 0x2917 (b + 1) }

/-- The LINE frame of a head: the levels of its elements, or ZeroLine (R262). -/
def lineFrame (b n h elements : Nat) (line : List (Addr × Nat)) : HdmLine :=
  let mine := line.filter fun e => e.2 != 0 && e.1.element < elements
  { head := h, number := n, elements := elements, zeroLine := mine.isEmpty, bar := b,
    levels := if mine.isEmpty then [] else (List.range elements).map fun i =>
      ((mine.find? fun e => e.1.element == i).map (·.2)).getD 0 }

/-- The lanes of a bar that carry its lines and tokens now. -/
def State.ownLanes (s : State) (b : Nat) : List Nat := (s.lanesOf b).filter fun l => s.owning l

/-- LINE frames of a prepared line to the lanes that carry the bar (R228, R262, R266). -/
def State.sendLines (s : State) (b n : Nat) (line : List (Addr × Nat)) : State :=
  forEach (s.ownLanes b) (fun l s =>
    let elements := ((s.lane l).cap.map (·.elements)).getD 0
    forRange (s.laneHeads l).length (fun i s =>
      let h := (s.laneHeads l).getD i 0
      s.laneSend l (.line (lineFrame b n i elements (line.filter fun e => e.1.head == h)))) s) s

/-- Every lane of a bar that is not TRAINED loses a line that the bar prepares (R273). -/
def State.lanesLose (s : State) (b : Nat) : State :=
  forEach (s.lanesOf b) (fun l s => if (s.lane l).st = .trained then s else s.bump 0x2A1E (l + 1)) s

/-- The blank-line episode of a bar ends (R230). -/
def State.dryEnds (s : State) (b : Nat) : State :=
  let x := s.bar b
  if x.dry then
    let s := s.raise (0x2918 + b) 0 (u32 x.dryFirst ++ u32 x.dryLast ++ u32 x.dryCount ++ u32 x.dryStamp)
    s.modBar b fun x => { x with dry := false, run := if x.run = .dry then .printing else x.run }
  else s

/-- A line of a bar prepared: levels of its complete slices, the duty checks, the LINE frames (R228, R239, R273). -/
def State.prepareLine (s : State) (b idx n j : Nat) : State :=
  let s := s.lanesLose b
  let x := s.bar b
  match (kvGet x.buf idx).filter fun e => e.pixels.isSome with
  | none => s.modBar b fun x =>
      { x with prepared := some { idx := idx, cfg := none, blank := true, levels := [], suppressed := false, incomplete := false, lanes := [] }
               sinceSuppress := x.sinceSuppress + 1, suppressing := false }
  | some e =>
    let s := s.dryEnds b
    let m := mapOf e.cfg.map
    let bnd := boundsOf m
    let missing := (List.range 16).filter fun i => match vget e.slices i .lost with
      | .complete _ => false
      | _ => true
    let s := s.addNum 0x2947 (b + 1) missing.length
    -- an address that was hidden after its slice was complete prints nothing (R293)
    let hidden := fun (l : List Nat) => (m.zip l).map fun e => if e.1.state = 2 then 0 else e.2
    let levels := hidden <| (List.range 16).flatMap fun i =>
      let n := bnd.getD (i + 1) 0 - bnd.getD i 0
      match vget e.slices i .lost with
      | .complete l => (l.take n) ++ List.replicate (n - l.length) 0
      | _ => List.replicate n 0
    let r := dutyLine (s.dutyLimits b) j 0 (m.zip levels)
      { elem := x.elem, head := x.head, levels := [], elemHits := 0, headHits := 0, first := none, last := x.lastHead }
    let s := (s.addNum 0x2945 (b + 1) r.elemHits).addNum 0x2946 (b + 1) r.headHits
    let s := match r.first with
      | some (h, el, rule) => if 64 ≤ x.sinceSuppress then s.raise (0x2920 + b) 0 (u8 h ++ u16 el ++ u8 rule) else s
      | none => s
    let s := s.modBar b fun x =>
      { x with elem := r.elem, head := r.head, lastHead := r.last, suppressing := r.first.isSome,
               sinceSuppress := if r.first.isSome then 0 else x.sinceSuppress + 1,
               prepared := some { idx := idx, cfg := some e.cfg, blank := false, levels := r.levels, suppressed := r.first.isSome,
                                  incomplete := !missing.isEmpty, lanes := s.ownLanes b } }
    s.sendLines b n (m.zip r.levels)

/-- The bytes of a coverage record (R246). -/
def Cov.toBytes (c : Cov) (b flags lines zones : Nat) (cols : Nat → Nat) : Bytes :=
  let cover := fun (z : Nat) =>
    let d := 4095 * lines * cols z
    if d = 0 then 0 else min 65535 (roundHalfUp (c.sums.getD z 0 * 65536) d)
  padTo 1088 (u32 c.first ++ u48 c.pos ++ u16 zones ++ u8 b ++ u8 flags ++ u8 lines ++ [0] ++ u48 (c.era * 2 ^ 32 + c.ns)
    ++ List.replicate 10 0 ++ (List.range zones).flatMap fun z => u16 (cover z))

/-- Columns of a zone of a map (R246). -/
def zoneColumns (m : List Addr) (zw z : Nat) : Nat := min ((z + 1) * zw) (highColumn m + 1) - z * zw

/-- The coverage ring slot of the next record of a bar (R247). -/
def State.covSlot (s : State) (b : Nat) : Nat :=
  s.num 0x2963 (b + 1) + s.num 0x2961 (b + 1) % s.num 0x2960 1 * 1088

/-- Staged coverage records written while the memory serves, oldest first (R247). -/
def State.covDrain : Nat → Nat → State → State
  | 0, _, s => s
  | n + 1, b, s =>
    match (s.bar b).staging with
    | [] => s
    | r :: rest =>
      if s.memTakes (s.covSlot b) 1088 5 then
        let s := s.memWrite (s.covSlot b) r 5
        State.covDrain n b ((s.modBar b fun x => { x with staging := rest }).bump 0x2961 (b + 1))
      else s

/-- Every bar's staged records written as far as the memory serves (R247). -/
def State.covDrainAll (s : State) : State := forRange 8 (fun b s => State.covDrain 16 b s) s

/-- A coverage record closed: staged and written, or dropped at full staging (R246, R247). -/
def State.covClose (s : State) (b : Nat) (early : Bool) : State :=
  match (s.bar b).cov with
  | none => s
  | some c =>
    let m := s.map b
    let zw := s.num 0x2712 (b + 1)
    let rec_ := c.toBytes b (c.flags ||| (if early then 64 else 0)) c.lines (zonesOf m zw) (zoneColumns m zw)
    let s := State.covDrain 16 b (s.modBar b fun x => { x with cov := none })
    if 16 ≤ (s.bar b).staging.length then
      let s := s.bump 0x2962 (b + 1)
      let s := if 64 ≤ (s.bar b).sinceCovDrop then s.raise (0x2938 + b) 0 (u32 c.first ++ u32 (s.num 0x2962 (b + 1))) else s
      s.modBar b fun x => { x with sinceCovDrop := 0 }
    else
      State.covDrain 16 b (s.modBar b fun x => { x with staging := x.staging ++ [rec_], sinceCovDrop := x.sinceCovDrop + 1 })

/-- A bar that has stopped in HELD or left its job, with nothing more on its way: its record closes early, and in HELD its lanes fall
idle (R28, R246, R276). -/
def State.settleStop (s : State) (b : Nat) : State :=
  let x := s.bar b
  if x.firing.isSome ∨ !x.waiting.isEmpty then s
  else if s.pwr.dev = .held ∧ x.run = .held then (s.covClose b true).barIdle b
  else if x.run = .ended then s.covClose b true
  else s

/-- How a line ended at FSQ: blank, dropped, gated, fired on some of its lanes, or cut off before its tokens were placed. -/
inductive LineEnd where
  | blank | dropped | gated (late : Bool) | fired (late : Bool) | cut
  deriving DecidableEq, Repr

/-- A line enters its bar's coverage record, which closes after four lines (R246). `lanes` are those whose token left; with no
lanes at all the line counts for every head, as a standby counts it (assumption 36). -/
def State.covLine (s : State) (b : Nat) (ev : LineEv) (pr : Prepared) (fin : LineEnd) (fire : Nat) (lanes : Option (List Nat)) : State :=
  let m := s.map b
  let zw := s.num 0x2712 (b + 1)
  let zones := zonesOf m zw
  let heads := lanes.map fun (ls : List Nat) => ls.flatMap fun l => s.laneHeads l
  let reach : Nat → Bool → Bool := fun h gone => match heads with
    | some (hs : List Nat) => hs.contains h
    | none => !gone
  let drops := fun (c : SneCfg) (gone : Bool) => ((mapOf c.map).zip pr.levels).filterMap fun (e : Addr × Nat) =>
    if e.2 != 0 && reach e.1.head gone then some (e.1.column / zw, c.lv e.2) else none
  let fires : List (Nat × Nat) := match fin, pr.cfg with
    | .fired _, some c => drops c false
    | .gated _, some c => drops c true
    | _, _ => []
  let flags := match fin with
    | .blank => 1
    | .dropped => 2
    | .gated l => 4 + (if l then 32 else 0)
    | .fired l => if l then 32 else 0
    | .cut => 0
  let flags := flags + (if pr.suppressed then 8 else 0) + (if pr.incomplete then 16 else 0)
  let (st, s) := match fin with
    | .fired _ => s.stampFine fire
    | _ => (ev.era * 2 ^ 32 + ev.stamp, s)
  let c := (s.bar b).cov.getD
    { first := ev.n, pos := ev.pos, ns := st % 2 ^ 32, era := st / 2 ^ 32, flags := 0, lines := 0, sums := List.replicate zones 0 }
  let sums := fires.foldl (fun l f => l.modify f.1 (· + f.2)) c.sums
  let s := s.modBar b fun x => { x with cov := some { c with flags := c.flags ||| flags, lines := c.lines + 1, sums := sums } }
  if 4 ≤ c.lines + 1 then s.covClose b false else s

/-- A line whose tokens are all out or withheld: its counts, its coverage, and the next line may be prepared (R227, R234, R243). -/
def State.lineFinished (s : State) (b : Nat) (ev : LineEv) (pr : Prepared) (fin : LineEnd) (fire : Nat) (lanes : Option (List Nat)) :
    State :=
  let s := match fin with
    | .fired _ => s.bump 0x2940 (b + 1)
    | .gated _ => s.bump 0x2944 (b + 1)
    | _ => s
  let late := match fin with
    | .fired l | .gated l => l
    | _ => false
  let s := s.covLine b ev pr fin fire lanes
  let s := s.modBar b fun x => { x with firing := none, ready := true, sinceLate := if late then 0 else x.sinceLate + 1 }
  s.settleStop b

/-- A bar's lines on their way cut off: its tokens are withdrawn, a line that fires ends as far as it came, lines whose events have come
count unfired, and its record closes early (R246). -/
def State.cutBar (s : State) (b : Nat) : State :=
  let s := forRange 32 (fun l s => s.modLane l fun y => { y with tokens := y.tokens.filter (·.bar != b) }) s
  let s := match (s.bar b).firing with
    | some f => s.lineFinished b f.ev f.line (.fired f.late) f.fire (some f.fired)
    | none => s
  let none_ : Prepared := { idx := 0, cfg := none, blank := true, levels := [], suppressed := false, incomplete := false, lanes := [] }
  let s := forEach (s.bar b).waiting (fun ev s => s.covLine b ev none_ .cut 0 none) s
  (s.modBar b fun x => { x with waiting := [] }).covClose b true

/-- The first block boundary of a lane not before a time in 125 ps units (R232, R233). -/
def nextBoundary (l t : Nat) : Nat := Config.blockPhase l + ceilDiv (t - Config.blockPhase l) 33 * 33

/-- The token of a line on a lane: at its boundary with its delay, or late in the first block that can still take it, with
delay 0 (R232, R233, R18). -/
def State.placeToken (s : State) (b l n fire : Nat) : Token :=
  let target := fire - s.num 0x2A14 (l + 1) / 625
  let at125 := target * 5
  let boundary := Config.blockPhase l + (at125 - Config.blockPhase l) / 33 * 33
  if boundary < (s.tick + 1) * 20 then
    { bar := b, n := n, boundary := nextBoundary l ((s.tick + 1) * 20), delay := 0, late := true, fire := fire }
  else { bar := b, n := n, boundary := boundary, delay := (at125 - boundary) / 5, late := false, fire := fire }

/-- The hinge of a bar recorded as its first line after a takeover fires (R365). -/
def State.hingeFires (s : State) (b : Nat) (ev : LineEv) (fire : Nat) : State :=
  match vget s.mir.hinge b none with
  | none => s
  | some h =>
    let (st, s) := s.stampFine fire
    let s := { s with mir := { s.mir with hinge := vmod s.mir.hinge b fun _ => none
                                          missed := s.mir.missed ++ [(b, (h.lastLine + 1) % 2 ^ 32, ev.n - 1)] } }
    let s := s.setObj 0x3213 (b + 1) (.bytes (u8 h.kind ++ u8 b ++ u16 0 ++ u32 h.lastLine ++ u32 ev.n ++ u48 h.missedPos
      ++ u48 ev.pos ++ u32 h.lastStamp ++ u32 st))
    s.raise (0x3208 + b) 0 (u32 h.lastLine ++ u32 ev.n ++ u32 h.lastStamp ++ u32 (st % 2 ^ 32))

/-- Tokens of a line placed on the lanes that were sent it, where the line fires (R232, R234, R273). -/
def State.fireLine (s : State) (b : Nat) (ev : LineEv) (pr : Prepared) (fire : Nat) : State :=
  let lanes := pr.lanes.filter fun l => s.owning l
  if !s.mayOwn then s.lineFinished b ev pr (.fired false) fire none
  else if lanes.isEmpty then s.lineFinished b ev pr (.fired false) fire (some [])
  else
    let s := s.hingeFires b ev fire
    let s := forEach lanes (fun l s =>
      let t := s.placeToken b l ev.n fire
      s.modLane l fun x => { x with tokens := x.tokens ++ [t] }) s
    s.modBar b fun x => { x with firing := some { ev := ev, line := pr, fire := fire, lanes := lanes, fired := [], late := false } }

/-- A blank line's event (R230). -/
def State.blankLine (s : State) (b : Nat) (ev : LineEv) : State :=
  let x := s.bar b
  let st := ev.era * 2 ^ 32 + ev.stamp
  let s := ((s.bump 0x2941 (b + 1)).setNum 0x294B (b + 1) ev.n).setNum 0x294C (b + 1) st
  if x.dry then
    (s.modBar b fun x => { x with dryLast := ev.n, dryCount := x.dryCount + 1, run := if x.run = .printing then .dry else x.run }).barAtOnce b
  else
    let s := s.raise (0x2910 + b) 0 (u32 ev.n ++ u8 x.run.code)
    (s.modBar b fun x =>
      { x with dry := true, dryFirst := ev.n, dryLast := ev.n, dryCount := 1, dryStamp := ev.stamp,
               run := if x.run = .printing then .dry else x.run }).barAtOnce b

/-- A dropped line of a bar counted, with its event's number, position and stamp (R235). -/
def State.dropMark (s : State) (b : Nat) (ev : LineEv) (st : Nat) : State :=
  (((s.bump 0x2942 (b + 1)).setNum 0x2948 (b + 1) ev.n).setNum 0x2949 (b + 1) ev.pos).setNum 0x294A (b + 1) st

/-- A line dropped for overspeed (R235, R236). -/
def State.dropLine (s : State) (b : Nat) (ev : LineEv) : State :=
  let x := s.bar b
  let st := (s.stampFine (s.fineAt ev.cross)).1
  let s := (s.stampFine (s.fineAt ev.cross)).2.dropMark b ev st
  if x.overspeed then s.modBar b fun x => { x with osDrops := x.osDrops + 1, osLast := ev.n, sinceDrop := 0 }
  else
    let s := s.raise (0x2900 + b) 0 (u32 ev.n ++ u32 (ev.pos / 65536) ++ u48 st)
    s.modBar b fun x => { x with overspeed := true, osDrops := 1, osFirst := ev.n, osLast := ev.n, sinceDrop := 0 }

/-- The lost lines of a bar that a bolt left, as their events come; the last one makes F2728h + b (R218). -/
def State.lostEvent (s : State) (b idx : Nat) (ev : LineEv) : State :=
  match vget s.sne.lost b none with
  | none => s
  | some l =>
    let put := fun (s : State) (x : Option Lost) => { s with sne := { s.sne with lost := vmod s.sne.lost b fun _ => x } }
    let here := ev.era * 2 ^ 32 + ev.stamp
    let first := if idx = l.firstIdx then some (ev.n, here) else l.first
    if idx < l.lastIdx then put s (some { l with first := first })
    else
      let (fn, fs) := first.getD (ev.n, here)
      let s := put s none
      let s := s.raise (0x2728 + b) 0 (u32 fn ++ u32 ev.n ++ u32 (fs % 2 ^ 32) ++ u32 ev.stamp)
      let s := (s.setNum 0x2724 (b + 1) fn).setNum 0x2725 (b + 1) ev.n
      (s.setNum 0x2726 (b + 1) fs).setNum 0x2727 (b + 1) here

/-- A prepared line meets its event: blank, dropped or placed (R234, R235). -/
def State.placeLine (s : State) (b : Nat) (ev : LineEv) (pr : Prepared) : State :=
  let fire := s.fineAt ev.cross + s.num 0x2910 (b + 1)
  let s := s.modBar b fun x => { x with prepared := none, ready := false, buf := x.buf.filter fun e => e.1 != pr.idx || e.2.slices.toList.any (· == .waiting), sinceDrop := x.sinceDrop + 1 }
  if pr.blank then
    let s := (s.blankLine b ev).modBar b fun x => { x with lastFire := some fire }
    s.lineFinished b ev pr .blank fire none
  else
    let soon := match (s.bar b).lastFire with
      | some t => decide (5 * ((fire : Int) - t) < ((8 * s.num 0x2911 (b + 1) : Nat) : Int))
      | none => false
    if soon then (s.dropLine b ev).lineFinished b ev pr .dropped fire none
    else (s.modBar b fun x => { x with lastFire := some fire }).fireLine b ev pr fire

/-- LINE_PREPARATION: the next line of a bar is prepared, with area 29h values taken up; a line whose event has come already is
placed at once (R15, R227 to R230, R233). -/
def execLinePreparation (b : Bar) (s : State) : Host.Outcome State Fault Refusal :=
  let x := s.bar b
  if !s.on domCTL ∨ !x.ready ∨ x.prepared.isSome ∨ x.firing.isSome ∨ s.halted
      ∨ !([BarRun.printing, .dry, .reversed].contains x.run || ((x.run == .held || x.run == .ended) && !x.waiting.isEmpty)) then
    .next s
  else
    let idx := s.nextPrep b
    let n := s.lineNumber b idx
    let s := s.takeUpBar 0x29 b n
    let s := s.prepareLine b idx n (x.dutyIdx - x.waiting.length)
    match (s.bar b).waiting, (s.bar b).prepared with
    | ev :: rest, some pr => .next ((s.modBar b fun x => { x with waiting := rest }).placeLine b ev pr)
    | _, _ => .next s

/-- A bar stopped: run state Held, nothing prepared; lines whose events came before still go out (R28). -/
def State.stopBar (s : State) (b : Nat) : State :=
  let s := s.modBar b fun x => { x with run := .held, stopping := false, prepared := none }
  ((s.setNum 0x2413 (b + 1) 0xFFFFFFFF).settleStop b).barAtOnce b

/-- FSQ takes a line event of a bar (R226, R231, R234, R237): the present line is consumed, and placed if it is prepared. -/
def State.lineEvent (s : State) (b : Nat) (ev : LineEv) : State :=
  let x := s.bar b
  if s.halted ∨ (x.run ≠ .printing ∧ x.run ≠ .dry) then s
  else if x.stopping then s.stopBar b
  else
    let s := s.barBoundary b
    let s := if (s.bar b).slot ≠ x.slot ∧ s.fet.change then s.cheLeft b (x.slot.getD 0) ev.n x.p else s
    let s := if (s.bar b).slot ≠ x.slot ∧ (s.bar b).slot.isSome then s.cheJobStart b ev.n else s
    let x := s.bar b
    match x.slot with
    | none => s.settleStop b
    | some k =>
      let d := s.designLine k x.p
      let s := (s.setNum 0x2411 (b + 1) (s.repeatOf k x.p)).setNum 0x2412 (b + 1) d
      let s := s.lostEvent b x.idx ev
      let s := if s.slotStream k ∧ (kvGet x.buf x.idx).isNone ∧ (vget s.rin.windows b []).isEmpty then
          s.raise 0x2401 0 (u8 b ++ u32 d) else s
      let s := s.modBar b fun x => { x with idx := x.idx + 1, p := x.p + 1, dutyIdx := (x.dutyIdx + 1) % 2 ^ 32 }
      let s := match x.prepared with
        | some pr => s.placeLine b ev pr
        | none => s.modBar b fun x => { x with waiting := x.waiting ++ [ev] }
      s.timeToEmpty b

/-- The FIRE_EN gate for a token that starts now: it passes, or within 25 ns of an edge as a free value says (R243). -/
def State.gatePasses (s : State) : Bool × State :=
  match s.fsq.fireEdge with
  | some t => if s.tick < t + 10 then let (v, s) := s.freeBelow 2; (v == 1, s) else (s.fireEn, s)
  | none => (s.fireEn, s)

/-- The first late token of a line: counted, stamped and raised (R233). The shortfall is the whole lateness, from the target to the block
used (R18; DESIGN CHOICE: assumption 56). -/
def State.lateToken (s : State) (b l : Nat) (t : Token) : State :=
  let (st, s) := s.stampFine t.fire
  let s := (s.bump 0x2943 (b + 1)).setNum 0x294D (b + 1) st
  if (s.bar b).lateEp then s
  else
    let short := t.boundary / 5 - (t.fire - s.num 0x2A14 (l + 1) / 625)
    (s.modBar b fun x => { x with lateEp := true, sinceLate := 0 }).raise (0x2928 + b) 0 (u32 t.n ++ u8 l ++ u32 short)

/-- A lane is done with a bar's line, its token out or withheld; after the last lane the line is finished (R227, R243). -/
def State.laneDone (s : State) (b l : Nat) (passed late : Bool) : State :=
  match (s.bar b).firing with
  | none => s
  | some f =>
    let f := { f with lanes := f.lanes.filter (· != l), fired := if passed then f.fired ++ [l] else f.fired, late := f.late || late }
    let s := s.modBar b fun x => { x with firing := some f }
    if !f.lanes.isEmpty then s
    else
      let all := f.line.lanes.filter fun l => s.owning l
      s.lineFinished b f.ev f.line (if all.all (f.fired.contains ·) then .fired f.late else .gated f.late) f.fire (some f.fired)

/-- The lane's next token leaves, or the FIRE_EN gate withholds it (R232, R233, R243, R263). -/
def State.emitToken (s : State) (l : Nat) (t : Token) : State :=
  let s := s.modLane l fun x => { x with tokens := x.tokens.drop 1 }
  let first := (s.bar t.bar).firing.any fun f => !f.late
  let s := if t.late ∧ first then s.lateToken t.bar l t else s
  let (open_, s) := s.gatePasses
  -- no TOKEN is sent while a measurement runs (R285)
  let pass := open_ && s.hdg.phase != 1
  let s := if pass then s.laneSend l (.token t.bar t.n t.delay t.late (s.ownGen % 2 ^ 16)) else s
  s.laneDone t.bar l pass t.late

/-- TOKEN_EMISSION: the lane's next token leaves in its block, or the FIRE_EN gate withholds it (R232, R233, R243, R263). -/
def execTokenEmission (l : Lane) (s : State) : Host.Outcome State Fault Refusal :=
  match (s.lane l).tokens with
  | [] => .next s
  | t :: _ => .next (if s.owning l then s.emitToken l t else s)

/-- OVERSPEED_EPISODE_END: after 64 line events without a drop (R236). -/
def execOverspeedEpisodeEnd (b : Bar) (s : State) : Host.Outcome State Fault Refusal :=
  let x := s.bar b
  .next (if x.overspeed ∧ 64 ≤ x.sinceDrop then
      (s.raise (0x2908 + b.val) 0 (u32 x.osDrops ++ u32 x.osFirst ++ u32 x.osLast)).modBar b fun x => { x with overspeed := false }
    else s)

/-- LATE_EPISODE_END: after 64 lines without a late token (R233). -/
def execLateEpisodeEnd (b : Bar) (s : State) : Host.Outcome State Fault Refusal :=
  .next (if (s.bar b).lateEp ∧ 64 ≤ (s.bar b).sinceLate then s.modBar b fun x => { x with lateEp := false } else s)

/-- The bars that print, as a mask (BarRunState 2). -/
def State.printingMask (s : State) : Nat := maskOf (fun b => (s.bar b).run == .printing) 8

/-- FIRE_EN_FALL: the gate closes; F2930h while a bar prints (R243). -/
def execFireEnFall (s : State) : Host.Outcome State Fault Refusal :=
  if !s.fireEn then .next s
  else
    let s := { s with fireEn := false, fsq := { s.fsq with fireEdge := some s.tick } }
    .next (if s.on domCTL ∧ s.anyPrinting then
        { s.raise 0x2930 0 (u8 s.printingMask) with fsq := { s.fsq with fallRecorded := true } }
      else s)

/-- FIRE_EN_RISE: the gate opens; F2931h after a recorded fall (R243). -/
def execFireEnRise (s : State) : Host.Outcome State Fault Refusal :=
  if s.fireEn then .next s
  else
    let s := { s with fireEn := true, fsq := { s.fsq with fireEdge := some s.tick } }
    let n := (barsOf s.printingMask).foldl (fun n b => n + s.num 0x2944 (b + 1)) 0
    .next (if s.on domCTL ∧ s.fsq.fallRecorded then
        { s.raise 0x2931 0 (u32 n) with fsq := { s.fsq with fallRecorded := false } }
      else s)

/-- Every bar's tokens and lines on their way stopped at once, as entry to FROZEN does (R31). -/
def State.stopFiring (s : State) : State := forRange 8 (fun b s => s.cutBar b) s

end Sys2Proof.Machine
end

