-- ==== Sys2Proof/Machine/Sne.lean ====
section
/-! DEFINITION. SNE: the arithmetic of a slice line, engine failures, the spare and the return to service (R198 to R225). -/

set_option Elab.async false

namespace Sys2Proof.Machine

/-- An entry of the identity tone curve (R223). -/
def identityTone (v : Nat) : Nat := roundHalfUp (v * 65520) 255

/-- ToneCurve of a zone at a contone value, u12.4 (R205, R223). -/
def SneCfg.curve (c : SneCfg) (z v : Nat) : Nat :=
  if c.tone.isEmpty then identityTone v
  else if c.tone.length = 512 then leAt c.tone (2 * v) 2
  else leAt c.tone (512 * z + 2 * v) 2

/-- ZoneGain of a zone, u1.15 (R205). -/
def SneCfg.zoneGain (c : SneCfg) (z : Nat) : Nat := if c.gain.isEmpty then 0x8000 else leAt c.gain (2 * z) 2

/-- The zones and the weight of the second that interpolation takes at a column: z0, z1, wn (R205). -/
def zonesAt (x zw zones : Nat) : Nat × Nat × Nat :=
  let z0 := if 2 * x + 1 < zw then 0 else (2 * x + 1 - zw) / (2 * zw)
  let wn := if 2 * x + 1 < zw then 0 else (2 * x + 1 - zw) % (2 * zw)
  (z0, min (z0 + 1) (zones - 1), wn)

/-- A value interpolated between the centres of two zones (R205). -/
def interpolate (zw wn v0 v1 : Nat) : Nat := roundHalfUp ((2 * zw - wn) * v0 + wn * v1) (2 * zw)

/-- The contone value at a column (R204). -/
def SneCfg.contone (c : SneCfg) (pixels : Bytes) (x : Nat) : Nat :=
  let i := x * c.xdpi / 1200
  if c.width ≤ i then 0 else ((pixels[i]?).map (·.toNat)).getD 0

/-- Steps 1 and 2: tone curve and colour-hold gain, u12.4 (R205). -/
def SneCfg.toned (c : SneCfg) (zones : Nat) (pixels : Bytes) (x : Nat) : Nat :=
  let (z0, z1, wn) := zonesAt x c.zoneWidth zones
  let v := c.contone pixels x
  let t := interpolate c.zoneWidth wn (c.curve z0 v) (c.curve z1 v)
  let g := interpolate c.zoneWidth wn (c.zoneGain z0) (c.zoneGain z1)
  min 65535 (roundHalfUp (t * g) 32768)

/-- Step 3: what an address prints and what it donates (R206). -/
def nozzleGain (m : List Addr) (i a : Nat) : Nat × Nat :=
  let n := m.getD i default
  let gn := if n.gain = 0xFFFF then 65536 else n.gain
  let p := roundHalfUp (a * gn) 65536
  if n.state = 0 then (p, 0)
  else if n.state = 1 then (p, a - p)
  else if n.stitch = 2 ∨ (n.stitch = 1 ∧ (m.getD (i + 1) default).state ≠ 2) then (0, 0)
  else (0, a)

/-- The field of RedistWeights for a share of a donor at column `x` in column `y` (R207). -/
def redistWeight (w x y : Nat) : Nat :=
  if y + 2 = x then bits w 31 24 else if y + 1 = x then bits w 23 16
  else if y = x + 1 then bits w 15 8 else if y = x + 2 then bits w 7 0 else 0

/-- The addresses at most `r` places from `i`. -/
def around (m : List Addr) (i r : Nat) : List Nat :=
  (List.range (2 * r + 1)).filterMap fun k => if r ≤ i + k ∧ i + k - r < m.length then some (i + k - r) else none

/-- Step 4: the value carried on before its limit (R207). -/
def redistributed (m : List Addr) (w i : Nat) (pd : Nat → Nat × Nat) : Nat :=
  let n := m.getD i default
  let shares := if n.state = 2 then 0
    else (around m i 5).foldl (fun t j =>
      let x := (m.getD j default).column
      t + (if x = n.column then 0 else roundHalfUp ((pd j).2 * redistWeight w x n.column) 256)) 0
  (pd i).1 + shares

/-- The threshold array of a line's settings at a print line and column (R209, R223). -/
def SneCfg.thresh (c : SneCfg) (p x : Nat) : Nat :=
  if c.threshold.isEmpty then Config.blueNoise (p % 256) (x % 256) else leAt c.threshold (p % 256 * 256 + x % 256) 1

/-- The built-in ordered dither (R223). -/
def orderedDither (row col : Nat) : Nat :=
  (List.range 6).foldl (fun v i => v * 4 + 2 * ((col / 2 ^ i + row / 2 ^ i) % 2) + row / 2 ^ i % 2) 0 / 16

/-- The stitch dither of a line's settings (R214). -/
def SneCfg.stitchDither (c : SneCfg) (p x : Nat) : Nat :=
  if c.dither.isEmpty then orderedDither (p % 64) (x % 64) else leAt c.dither (p % 64 * 64 + x % 64) 1

/-- The largest level whose value is at most `u`, for `u` below the top level (R209, R210). -/
def SneCfg.levelBelow (c : SneCfg) (u : Int) : Nat :=
  (List.range 7).foldl (fun best l => if (16 * c.lv l : Nat) ≤ u then l else best) 0

/-- Step 5 in threshold mode (R209). -/
def SneCfg.halftone (c : SneCfg) (p x v : Nat) : Nat :=
  if 16 * c.lv 7 ≤ v then 7
  else
    let l := c.levelBelow v
    let frac := (v - 16 * c.lv l) * 256 / (16 * (c.lv (l + 1) - c.lv l))
    if c.thresh p x < frac then l + 1 else l

/-- Step 5 in error-diffusion mode: the drop level (R210). -/
def SneCfg.diffuse (c : SneCfg) (p x : Nat) (missing : Bool) (u : Int) : Nat :=
  if missing ∨ u < 0 then 0
  else if (16 * c.lv 7 : Nat) ≤ u then 7
  else
    let l := c.levelBelow u
    let step : Int := (c.lv (l + 1) : Int) - c.lv l
    let mid : Int := 8 * ((c.lv l : Int) + c.lv (l + 1))
    let m := Int.fdiv (((c.thresh p x : Int) - 128) * c.depth * step) 4096
    if mid + m < u then l + 1 else l

/-- The address in column `x` that a share of address `i` goes to: the one with its head, else the leading or only one (R211). -/
def shareTarget (m : List Addr) (i x : Nat) : Option Nat :=
  let head := (m.getD i default).head
  let near := (around m i 3).filter fun j => (m.getD j default).column == x
  (near.find? fun j => (m.getD j default).head == head).orElse fun _ => near.head?

/-- An s12.4 value held at its limits. -/
def sat16 (x : Int) : Int := clampInt (-32768) 32767 x

/-- What a slice line gives while it is computed: levels by address, values held for its own line, next-line additions in its slice,
shares for other slices, how often a value was limited. -/
structure SliceRun where
  out : List Nat
  held : List (Nat × Int)
  next : List (Nat × Int)
  away : List (Nat × Int)
  clamped : Nat
  saturated : Nat
  deriving DecidableEq, Repr

/-- A share added at its target: held on the same line, into the slice's next line, or away to another slice (R211, R212). -/
def addShare (lo hi : Nat) (r : SliceRun) (same : Bool) (target : Option Nat) (e : Int) : SliceRun :=
  match target with
  | none => r
  | some t =>
    if t < lo ∨ hi ≤ t then { r with away := r.away ++ [(t, e)] }
    else if same then { r with held := kvSet r.held 0 t ((kvGet r.held t).getD 0 + e) }
    else { r with next := kvSet r.next 0 t (sat16 ((kvGet r.next t).getD 0 + e)) }

/-- Steps 4 and 5 of one address, in address order (R207 to R212). -/
def sliceAddress (c : SneCfg) (m : List Addr) (lo hi p : Nat) (pd : Nat → Nat × Nat) (line : List (Nat × Int)) (r : SliceRun) (i : Nat) :
    SliceRun :=
  let a := m.getD i default
  let v0 := redistributed m c.redist i pd
  let v := min 65535 v0
  let r := if 65535 < v0 then { r with clamped := r.clamped + 1 } else r
  if c.mode = 0 then { r with out := r.out ++ [c.halftone p a.column v] }
  else
    let u : Int := (v : Int) + (kvGet line i).getD 0 + (kvGet r.held i).getD 0
    let o := c.diffuse p a.column (a.state == 2) u
    let e0 : Int := u - (16 * c.lv o : Nat)
    let e := sat16 e0
    let r := { r with out := r.out ++ [o], saturated := r.saturated + (if e = e0 then 0 else 1) }
    let share := fun (hi lo : Nat) => Int.fdiv (e * (bits c.diffusion hi lo : Nat)) 16
    let right := share 15 12
    let dl := share 11 8
    let dr := share 3 0
    let down := e - right - dl - dr
    let r := addShare lo hi r true (shareTarget m i (a.column + 1)) right
    let r := if a.column = 0 then r else addShare lo hi r false (shareTarget m i (a.column - 1)) dl
    let r := addShare lo hi r false (shareTarget m i a.column) down
    addShare lo hi r false (shareTarget m i (a.column + 1)) dr

/-- Step 6: the level of an address after the stitch (R214). -/
def stitched (c : SneCfg) (m : List Addr) (p i out : Nat) : Nat :=
  let a := m.getD i default
  if a.stitch = 1 then
    if a.state = 2 then 0
    else if (m.getD (i + 1) default).state = 2 then out
    else if a.ramp = 255 ∨ c.stitchDither p a.column < a.ramp then out else 0
  else if a.stitch = 2 then
    let lead := m.getD (i - 1) default
    if a.state = 2 then 0
    else if lead.state = 2 then out
    else if lead.ramp = 255 ∨ c.stitchDither p a.column < lead.ramp then 0 else out
  else out

/-- An address's levels read a word of a table: the map entry, the curve entry, gain, threshold or dither that its steps use (R222). -/
def readsWord (c : SneCfg) (m : List Addr) (zones p : Nat) (pixels : Bytes) (i idx off : Nat) : Bool :=
  let a := m.getD i default
  let (z0, z1, _) := zonesAt a.column c.zoneWidth zones
  let v := c.contone pixels a.column
  match idx with
  | 0x2710 => off / 8 == i || (off / 8 == i + 1 && a.stitch == 1) || (off / 8 + 1 == i && a.stitch == 2)
  | 0x2714 => if c.tone.length ≤ 512 then off / 2 == v else off / 2 == 256 * z0 + v || off / 2 == 256 * z1 + v
  | 0x2715 => off / 2 == z0 || off / 2 == z1
  | 0x271B => off == p % 256 * 256 + a.column % 256
  | 0x271C => a.stitch != 0 && off == p % 64 * 64 + a.column % 64
  | 0x271A => true
  | _ => false

/-- A whole slice line: levels after the stitch, and what is left for diffusion (R204 to R214). -/
def sliceLine (c : SneCfg) (m : List Addr) (lo hi p : Nat) (pixels : Bytes) (line : List (Nat × Int)) : SliceRun :=
  let zones := zonesOf m c.zoneWidth
  let first := lo - 4
  let table := (List.range (hi + 4 - first)).map fun k => nozzleGain m (first + k) (c.toned zones pixels (m.getD (first + k) default).column)
  let pd := fun (i : Nat) => table.getD (i - first) (0, 0)
  let r := ((List.range (hi - lo)).map (lo + ·)).foldl (sliceAddress c m lo hi p pd line)
    { out := [], held := [], next := [], away := [], clamped := 0, saturated := 0 }
  { r with out := (List.range (hi - lo)).map fun k => stitched c m p (lo + k) (r.out.getD k 0) }

/-- An engine. -/
def State.engine (s : State) (n : Nat) : Eng := vget s.sne.engines n { st := .off, lastCause := 0, queue := [] }

/-- The diffusion state of a bar at the addresses of a slice replaced. -/
def setSlice (d : List (Nat × Int)) (lo hi : Nat) (new : List (Nat × Int)) : List (Nat × Int) :=
  new.foldl (fun d e => kvSet d 0 e.1 e.2) (d.filter fun e => e.1 < lo || hi ≤ e.1)

/-- The bar's slice boundaries that its lines run with. -/
def State.slicesOf (s : State) (b k : Nat) : Nat × Nat :=
  let bnd := boundsOf (s.map b)
  (bnd.getD k 0, bnd.getD (k + 1) 0)

/-- One slice of every bar starts from zeroed diffusion state, with no share from before on its way to it (R213, R216). -/
def State.zeroSlice (s : State) (k : Nat) : State :=
  let diff : Vector (List (Nat × Int)) 8 := Vector.ofFn fun (b : Fin 8) =>
    let (lo, hi) := s.slicesOf b k
    setSlice s.sne.diff[b] lo hi []
  { s with sne := { s.sne with diff := diff, edges := s.sne.edges.filter fun e => e.toSlice != k } }

/-- A slice of an entry marked. -/
def State.markSlice (s : State) (j : SliceJob) (v : SliceSt) : State :=
  let mark := fun (x : BarFsq) (e : Nat × Entry) =>
    if e.1 ≠ j.idx then some e
    else
      let y := { e.2 with slices := vmod e.2.slices j.slice fun _ => v }
      if e.1 < x.idx - x.waiting.length ∧ !(y.slices.toList.any (· == .waiting)) then none else some (e.1, y)
  s.modBar j.bar fun x => { x with buf := x.buf.filterMap (mark x) }

/-- An engine's first slice line may start: both neighbours' slices of earlier lines of the bar are done (R212). -/
def State.mayStart (s : State) (j : SliceJob) : Bool :=
  (s.bar j.bar).buf.all fun e => j.idx ≤ e.1
    || ((j.slice = 0 || vget e.2.slices (j.slice - 1) .lost != .waiting) && vget e.2.slices (j.slice + 1) .lost != .waiting)

/-- The slice line at the front of an engine's queue, where the engine serves and may start it. -/
def State.front (s : State) (n : Nat) : Option (SliceJob × Entry) :=
  match (s.engine n).queue with
  | [] => none
  | j :: _ =>
    if (s.engine n).st = .serving ∧ s.mayStart j then (kvGet (s.bar j.bar).buf j.idx).map fun e => (j, e) else none

/-- Edge records to a slice of a bar from lines before a given one go, used or not. -/
def State.dropEdges (s : State) (j : SliceJob) : State :=
  { s with sne := { s.sne with edges := s.sne.edges.filter fun e => e.bar != j.bar || e.toSlice != j.slice || j.idx ≤ e.idx } }

/-- A slice line fails a check: F2700h + n, level 0, its diffusion state left open (R215, R221; assumption 40). -/
def State.failSlice (s : State) (n cause : Nat) (j : SliceJob) : State :=
  let s := s.modEngine n fun g => { g with queue := g.queue.drop 1, lastCause := cause }
  let s := ((s.dropEdges j).markSlice j .failed).addNum 0x2721 (j.bar + 1) 1
  let (lo, hi) := s.slicesOf j.bar j.slice
  let free := (List.range (hi - lo)).map fun k => (lo + k, toSigned 16 (Config.freeNat (s.fresh + k)))
  let s := { s with fresh := s.fresh + (hi - lo),
                    sne := { s.sne with diff := vmod s.sne.diff j.bar fun d => setSlice d lo hi free } }
  s.raise (0x2700 + n) cause (u8 cause ++ u8 j.bar ++ u32 (s.lineNumber j.bar j.idx) ++ u8 j.slice)

/-- Edge records of a finished slice line: shares for the neighbours that an engine serves; none cross an edge to a slice that has
lost the line (R212). -/
def State.edgesOf (s : State) (j : SliceJob) (away : List (Nat × Int)) : List Edge :=
  [j.slice - 1, j.slice + 1].filterMap fun k =>
    let (lo, hi) := s.slicesOf j.bar k
    let mine := away.filter fun a => lo ≤ a.1 && a.1 < hi
    let gone := ((kvGet (s.bar j.bar).buf j.idx).map fun e => vget e.slices k .lost == .lost).getD false
    if k = j.slice ∨ 16 ≤ k ∨ mine.isEmpty ∨ gone ∨ 17 ≤ vget s.sne.slices k 255 then none
    else some { bar := j.bar, idx := j.idx, fromSlice := j.slice, toSlice := k, adds := mine }

/-- ENGINE_SLICE_LINE: the engine computes the slice line at the front of its queue, or fails a check on it (R199, R204 to R215,
R221, R222). `parity` lists the table-store words it found bad. -/
def execEngineSliceLine (n : Engine) (failure : BitVec 8) (parity : List (BitVec 16 × BitVec 32)) (s : State) :
    Host.Outcome State Fault Refusal :=
  match s.front n with
  | none => .next s
  | some (j, e) =>
    if failure ≠ 0 then .next (s.failSlice n failure.toNat j)
    else
      let s := s.modEngine n fun g => { g with queue := g.queue.drop 1 }
      let m := mapOf e.cfg.map
      let bnd := boundsOf m
      let lo := bnd.getD j.slice 0
      let hi := bnd.getD (j.slice + 1) 0
      let was := if e.fresh then [] else (vget s.sne.diff j.bar []).filter fun a => lo ≤ a.1 && a.1 < hi
      let adds := if e.fresh then [] else
        (s.sne.edges.filter fun g => g.bar == j.bar && g.toSlice == j.slice && e.prev == some g.idx).flatMap (·.adds)
      let line := adds.foldl (fun d a => kvSet d 0 a.1 (sat16 ((kvGet d a.1).getD 0 + a.2))) was
      let pixels := e.pixels.getD []
      let r := sliceLine e.cfg m lo hi e.p pixels line
      let bad := fun (i : Nat) => parity.any fun w => readsWord e.cfg m (zonesOf m e.cfg.zoneWidth) e.p pixels i w.1.toNat w.2.toNat
      let levels := (List.range (hi - lo)).map fun k => if bad (lo + k) then 0 else r.out.getD k 0
      let s := s.dropEdges j
      let diff := if e.cfg.mode = 0 then s.sne.diff else vmod s.sne.diff j.bar fun d => setSlice d lo hi r.next
      let s := { s with sne := { s.sne with diff := diff, edges := s.sne.edges ++ s.edgesOf j r.away } }
      let s := (s.addNum 0x2722 (j.bar + 1) r.clamped).addNum 0x2723 (j.bar + 1) r.saturated
      let s := forEach parity (fun w s => (s.bump 0x2732 1).raise 0x2740 0 (u16 w.1.toNat ++ u32 w.2.toNat)) s
      .next (s.markSlice j (.complete levels))

/-- ENGINE_SLICE_TIMEOUT: a started slice line has taken 8 µs; cause 3 (R215). -/
def execEngineSliceTimeout (n : Engine) (s : State) : Host.Outcome State Fault Refusal :=
  match s.front n with
  | none => .next s
  | some (j, _) => .next (s.failSlice n 3 j)

/-- The slice that an engine serves. -/
def State.sliceServed (s : State) (n : Nat) : Option Nat := (List.range 16).find? fun k => vget s.sne.slices k 255 == n

/-- Engines that can serve read serving or idle by the slices they have (R223). -/
def State.settleEngines (s : State) : State :=
  forRange 17 (fun n s =>
    if (s.engine n).st = .idle ∨ (s.engine n).st = .serving then
      s.modEngine n fun g => { g with st := if (s.sliceServed n).isSome then .serving else .idle }
    else s) s

/-- A slice given to an engine, with zeroed diffusion state; the spare's takeover is recorded (R216). -/
def State.giveSlice (s : State) (k n failed cause : Nat) : State :=
  let s := { s with sne := { s.sne with slices := vmod s.sne.slices k fun _ => n, served := vmod s.sne.served k fun _ => n } }
  let s := (s.zeroSlice k).settleEngines
  if n = 16 then s.raise 0x2720 cause (u8 failed ++ u8 k ++ u8 cause) else s

/-- A slice is left without an engine (R219). -/
def State.leaveSlice (s : State) (k : Nat) : State :=
  let s := { s with sne := { s.sne with slices := vmod s.sne.slices k fun _ => 255 } }
  s.settleEngines.raise 0x2721 0 (u8 k ++ u8 (vget s.sne.served k 255))

/-- A slice line that an engine was given and has not completed (R217). -/
def SliceSt.undone (v : SliceSt) : Bool := v == .waiting || v == .failed

/-- Lines of a bar that the loss of a slice leaves unfinished; each counts in LostSliceLines, unless its failure has (R217, R218, R221). -/
def State.linesLost (s : State) (b k : Nat) : State :=
  let x := s.bar b
  let gone := x.buf.filter fun e => (vget e.2.slices k .lost).undone && (x.idx ≤ e.1 || (x.eventOf e.1).isSome)
  let s := s.addNum 0x2721 (b + 1) (x.buf.filter fun e => vget e.2.slices k .lost == .waiting).length
  let lose := fun (e : Nat × Entry) =>
    let y := { e.2 with slices := vmod e.2.slices k fun v => if v.undone then .lost else v }
    if e.1 < x.idx - x.waiting.length ∧ !(y.slices.toList.any (· == .waiting)) then none else some (e.1, y)
  let s := s.modBar b fun x => { x with buf := x.buf.filterMap lose }
  match gone.head?, gone.getLast? with
  | some f, some l =>
    let old := vget s.sne.lost b none
    let seen := (x.eventOf f.1).map fun e => (e.n, e.era * 2 ^ 32 + e.stamp)
    let rec_ : Lost := match old with
      | some o => { firstIdx := min o.firstIdx f.1, lastIdx := max o.lastIdx l.1, first := o.first.orElse fun _ => seen }
      | none => { firstIdx := f.1, lastIdx := l.1, first := seen }
    let s := { s with sne := { s.sne with lost := vmod s.sne.lost b fun _ => some rec_ } }
    match x.eventOf l.1 with
    | some ev => s.lostEvent b l.1 ev
    | none => s
  | _, _ => s

/-- An engine stops serving, bolted or for its self-test: its unfinished slice lines are lost, edge records of its slice read as
zero, the spare takes its slice or no engine does (R212, R216 to R219). -/
def State.engineOut (s : State) (n cause : Nat) (st : EngSt) : State :=
  let served := s.sliceServed n
  let spare := n != 16 && (s.engine 16).st == .idle
  let s := s.modEngine n fun g => { g with st := st, lastCause := cause, queue := [] }
  match served with
  | none => s
  | some k =>
    let s := forRange 8 (fun b s => s.linesLost b k) s
    let s := { s with sne := { s.sne with edges := s.sne.edges.filter fun e => e.fromSlice != k && e.toSlice != k } }
    if spare then s.giveSlice k 16 n cause else s.leaveSlice k

/-- An engine returns to service and takes the slice that R220 gives it. -/
def State.engineReturns (s : State) (n : Nat) : State :=
  let s := s.modEngine n fun g => { g with st := .idle }
  let bare := fun (k : Nat) => vget s.sne.slices k 255 == 255
  if n < 16 then (if bare n then s.giveSlice n n n 0 else s)
  else match (List.range 16).find? bare with
    | some k => s.giveSlice k 16 k (s.engine k).lastCause
    | none => s

/-- ENGINE_SELF_TEST_DONE: back into service, or F2700h + n with cause 1, bolted again where the reaction says so (R220, R221). -/
def execEngineSelfTestDone (n : Engine) (pass : Bool) (s : State) : Host.Outcome State Fault Refusal :=
  if (s.engine n).st ≠ .selfTest then .next s
  else if pass then .next (s.engineReturns n)
  else
    let s := s.modEngine n fun g => { g with lastCause := 1 }
    let (data, s) := s.freeBytes 6
    let s := s.raise (0x2700 + n.val) 1 (u8 1 ++ data)
    .next (if s.willBolt (0x2700 + n.val) then s else s.engineReturns n)

/-- Entry to CONFIGURED: every slice back to its own engine unless that is bolted, the spare for the lowest such slice (R199, R220).
A slice whose own engine is in its self-test waits for it without an engine (DEDUCED: assumption 42). -/
def State.enginesConfigured (s : State) : State :=
  let out := (List.range 16).filter fun k => (s.engine k).st == .bolted
  let can := (s.engine 16).st == .idle || (s.engine 16).st == .serving
  let s := forRange 16 (fun k s =>
    if ((s.engine k).st = .idle ∨ (s.engine k).st = .serving) ∧ vget s.sne.slices k 255 ≠ k then s.giveSlice k k k 0
    else if (s.engine k).st = .selfTest then s.leaveSlice k else s) s
  match out with
  | [] => s
  | f :: more =>
    let s := if vget s.sne.slices f 255 = 16 then s
      else if can then s.giveSlice f 16 f (s.engine f).lastCause else s.leaveSlice f
    forEach more (fun k s => s.leaveSlice k) s

/-- Engines of a domain switched on: idle, then serving their slices (R199). -/
def State.enginesOn (s : State) (p : Nat → Bool) : State :=
  (forRange 17 (fun n s => if p n then s.modEngine n fun _ => { st := .idle, lastCause := 0, queue := [] } else s) s).settleEngines

/-- Engines of a domain switched off. -/
def State.enginesOff (s : State) (p : Nat → Bool) : State :=
  forRange 17 (fun n s => if p n then s.modEngine n fun _ => { st := .off, lastCause := 0, queue := [] } else s) s

/-- ZoneWidth runs in the states of R203. -/
def sneRuns (s : State) : Bool := s.inStates runStates

/-- Writes of SNE objects with an effect of their own (R223, R224). -/
def hookSne (idx sub : Nat) (v : Val) (s : State) : Option (Except Nat State) :=
  let b := sub - 1
  match idx with
  | 0x2712 =>
    if 512 < zonesOf (s.map b) v.toNum then some (.error 0x27060600)
    else
      let plain := fun (s : State) => { s with wilwa := { s.wilwa with
        shadow := kvDel (kvDel s.wilwa.shadow (key 0x2714 sub)) (key 0x2715 sub)
        staged := kvDel (kvDel s.wilwa.staged (key 0x2714 sub)) (key 0x2715 sub) } }
      some (.ok ((((plain (s.setObj idx sub v)).setObj 0x2714 sub (defaultVal 0x2714 sub)).setObj 0x2715 sub
        (defaultVal 0x2715 sub)).mapCommitted b))
  | 0x2715 => if s.num 0x2810 sub = 2 then some (.error (0x27030200 + b)) else none
  | _ => none

/-- ZONE_WIDTH_WRITE's and area 27h's rules between objects; the code's low word, the object (R202, R203, R208, R210, R258). -/
def checkSne (s : State) (get : Nat → Nat → Val) : Option (Nat × Nat × Nat) :=
  (List.range 8).findSome? fun b =>
    let i := b + 1
    let map := (get 0x2710 i).toBytes
    let m := mapOf map
    let zones := zonesOf m (s.num 0x2712 i)
    let lv := (List.range 8).map fun l => leAt (get 0x271A i).toBytes (2 * l) 2
    let d := (get 0x2718 i).toNum
    let fixed := (s.map b).map fun a => (a.column, a.stitch, a.head)
    let written := fun (idx : Nat) => (kvGet s.wilwa.shadow (key idx i)).isSome
    if (written 0x2710 || !map.isEmpty) && !mapOk map (s.num 0x2712 i) then some (0x0200, 0x2710, i)
    else if s.inStates runStates && (m.map fun a => (a.column, a.stitch, a.head)) != fixed then some (0x0200, 0x2710, i)
    else if !map.isEmpty && !s.mapHeadsOk b m then some (0x0200, 0x2710, i)
    else if (written 0x2714 && (get 0x2714 i).toBytes.isEmpty) || (!m.isEmpty && !curveOk (get 0x2714 i).toBytes zones) then some (0x0200, 0x2714, i)
    else if !m.isEmpty && !gainOk (get 0x2715 i).toBytes zones then some (0x0200, 0x2715, i)
    else if bits d 15 12 + bits d 11 8 + bits d 7 4 + bits d 3 0 ≠ 16 then some (0x0200, 0x2718, i)
    else if lv.getD 0 0 ≠ 0 ∨ lv.getD 7 0 ≠ 4095 ∨ !((List.range 7).all fun l => lv.getD l 0 < lv.getD (l + 1) 0) then
      some (0x0200, 0x271A, i)
    else none

end Sys2Proof.Machine
end

