-- ==== Sys2Proof/Machine/Hdg.lean ====
section
/-! DEFINITION. HDG: when measurement runs, its outcomes, classification, auto-hide and baselines (R284 to R297); a lane's lock
lost (R273). -/

set_option Elab.async false

namespace Sys2Proof.Machine

/-- A lane goes on with a measurement of its list, or ends. -/
def State.measGo (s : State) (l : Nat) (o : Option (Nat × Nat × Nat)) : State :=
  match o with
  | some o => s.measSend l o false
  | none => s.measLaneDone l

/-- The measurement of a lane's list after its present one. -/
def State.measNext (s : State) (l : Nat) (o : MeasOut) : Option (Nat × Nat × Nat) :=
  (s.lane l).cap.bind fun c => measAfter c (s.laneHeads l).length (o.head, o.first, o.kind)

/-- STAT_MEAS_RESULT_RECEIVED: a matching result stored and judged, and the next MEAS (R288, R289). -/
def execStatMeasResultReceived (l : Lane) (r : MeasResult) (s : State) : Host.Outcome State Fault Refusal :=
  match (s.lane l).meas with
  | none => .next s
  | some o =>
    if r.tag.toNat ≠ o.tag ∨ r.first.toNat ≠ o.first ∨ r.count.toNat ≠ o.count ∨ r.kind.toNat ≠ o.kind ∨ r.head.toNat ≠ o.head then
      .next s
    else
      let s := s.modLane l fun x => { x with meas := none }
      let mine := fun (e : Nat) => decide (o.first ≤ e) && decide (e < o.first + o.count)
      if r.result = 0 then
        let s := forRange o.count (fun i s => s.measStore l o.head (o.first + i) o.kind ((r.values.map (·.toNat)).getD i 0)) s
        .next (s.measGo l (s.measNext l o))
      else if r.result = 2 then
        let s := s.measRest l o 2 false
        .next (s.measGo l (if o.head + 1 < (s.laneHeads l).length then
          (s.lane l).cap.map fun c => (o.head + 1, 0, firstKind c) else none))
      else
        let s := s.measStatus l o.head 3 mine
        .next (s.measGo l (s.measNext l { o with kind := 3 }))

/-- MEAS_TIMEOUT: the MEAS sent again once; then the next group and F2B20h + l (R289). -/
def execMeasTimeout (l : Lane) (s : State) : Host.Outcome State Fault Refusal :=
  match (s.lane l).meas with
  | none => .next s
  | some o =>
    if !o.retried then .next (s.measSend l (o.head, o.first, o.kind) true)
    else
      let s := s.measStatus l o.head 4 fun e => decide (o.first ≤ e) && decide (e < o.first + o.count)
      let s := s.raise (0x2B20 + l.val) 0 (u8 o.head ++ u16 o.first ++ u8 o.kind)
      .next (s.measGo l (s.measNext l { o with kind := 3 }))

/-- What a lane that was woken to be measured does when the measurement is abandoned: it carries the bar again, falls idle, or stays
TRAINED as FROZEN leaves it (R270, R287). -/
inductive WokenLane where
  | own | idle | stay
  deriving DecidableEq, Repr

/-- The reports of a running measurement's end for the bars that are not complete (R287, R297). -/
def State.abandonReports (s : State) (cause : Nat) : List Report :=
  if s.hdg.phase ≠ 1 then []
  else (barsOf s.hdg.pending).map fun b =>
    let n := ((List.range (s.map b).length).filter fun a => (s.measRec b a).status == 0).length
    s.mkReport (0x2B18 + b) cause (u32 n ++ u8 cause)

/-- A running measurement is abandoned for every bar; what lanes that were woken do then (R287). -/
def State.measAbandon (s : State) (cause : Nat) (then_ : WokenLane) : State :=
  if s.hdg.phase ≠ 1 then s
  else
    let bars := barsOf s.hdg.pending
    let s := forEach (s.abandonReports cause) (fun r s => s.send r) s
    let s := forEach bars (fun b s =>
      forEach (s.lanesOf b) (fun l s =>
        if (s.lane l).measDone then s
        else forEach (s.addressesWhere b fun hd _ => (s.laneHeads l).contains hd)
          (fun a s => s.modMeas b a fun r => if r.status = 1 then { r with status := 5 } else r) s) s) s
    let s := { s with hdg := { s.hdg with phase := 3, pending := 0 } }
    forRange 32 (fun l s =>
      let woken := (s.lane l).woken
      let s := s.modLane l fun x => { x with meas := none, measDone := true, woken := false }
      if !woken then s
      else match (s.lane l).st with
        | .trained => match then_ with
          | .own => if s.mayOwn then s.sendOwner l else s
          | .idle => s.laneIdle l
          | .stay => s
        | .resuming => if then_ = .idle then s.modLane l fun x => { x with st := .eidle, tx := { x.tx with burst := 0 } } else s
        | _ => s) s

/-- A measurement starts (R284, R285, R288, R296). -/
def State.measStart (s : State) : Except Nat State :=
  let mask := s.num 0x2B10 1
  let bars := barsOf mask
  let ok := fun (l : Nat) => (s.lane l).st == .trained || (s.pwr.dev == .held && (s.lane l).st == .eidle)
  if s.boltedHdg then .error 0x2B04F200
  else if !s.inStates [.configured, .held] || s.mir.role == .standby then .error 0x2B030100
  else if s.hdg.phase = 1 then .error 0x2B030300
  else match bars.find? fun b => (s.map b).isEmpty with
  | some b => .error (0x2B030400 + b)
  | none => match bars.find? fun b => (s.lanesOf b).any fun l => !ok l with
    | some b => .error (0x2B030200 + b)
    | none =>
      let s := { s with hdg := { s.hdg with phase := 1, pending := mask, complete := 0, done := s.hdg.done &&& (255 - mask), startTick := s.tick } }
      let s := forEach bars (fun b s => { s with hdg := { s.hdg with results := vmod s.hdg.results b fun _ => [] } }) s
      let lanes := bars.flatMap s.lanesOf
      let s := forEach lanes (fun l s => s.modLane l fun x => { x with meas := none, measDone := false }) s
      let s := forEach lanes (fun l s =>
        if (s.lane l).version < 2 ∨ (s.laneHeads l).isEmpty then s.modLane l fun x => { x with measDone := true }
        else if (s.lane l).st = .eidle then (s.laneBurst l).modLane l fun x => { x with woken := true }
        else s.measBegin l) s
      let s := forEach bars (fun b s => s.measBarDone b) s
      .ok (if bars.isEmpty then ({ s with hdg := { s.hdg with phase := 2 } } : State).setNum 0x2B10 5 0 else s)

/-- MeasCommand 3: the measured values become the Baseline shadow (R294). -/
def State.measBaseline (s : State) : Except Nat State :=
  let bars := barsOf (s.num 0x2B10 1)
  if s.hdg.phase = 1 then .error 0x2B030300
  else match bars.find? fun b => !bit s.hdg.done b with
  | some b => .error (0x2B030700 + b)
  | none => .ok (forEach bars (fun b s =>
      let t := (List.range (s.map b).length).flatMap fun a =>
        let r := s.measRec b a
        if r.status = 0 then u16 r.primary ++ u16 r.leak else u32 0
      { s with wilwa := { s.wilwa with shadow := kvPut s.wilwa.shadow (key 0x2B12 (b + 1)) (.bytes t) } }) s)

/-- PendingApply (R292). -/
def State.pendingApply (s : State) (b : Nat) : Except Nat State :=
  if !bit s.hdg.pendingValid b then .error (0x2B030600 + b)
  else
    let s := { s with wilwa := { s.wilwa with
      shadow := kvPut s.wilwa.shadow (key 0x2710 (b + 1)) (.bytes (vget s.hdg.pendingMap b [])) } }
    .ok { s with hdg := { s.hdg with pendingValid := s.hdg.pendingValid - 2 ^ b } }

/-- Writes of HDG objects with an effect of their own. -/
def hookHdg (idx sub : Nat) (v : Val) (s : State) : Option (Except Nat State) :=
  match idx with
  | 0x2B10 =>
    if sub = 2 then
      match v.toNum with
      | 1 => some s.measStart
      | 2 => some (.ok (s.measAbandon 2 .idle))
      | 3 => some s.measBaseline
      | _ => none
    else none
  | 0x2B19 => some (if v.toNum = 1 then s.pendingApply (sub - 1) else .ok s)
  | _ => none

/-- Area 2Bh's rules between objects (R295). -/
def checkHdg (s : State) (get : Nat → Nat → Val) : Option (Nat × Nat × Nat) :=
  (List.range 8).findSome? fun b =>
    let n := fun idx => (get idx (b + 1)).toNum
    let base := (get 0x2B12 (b + 1)).toBytes
    if n 0x2B14 < n 0x2B13 then some (0x0200, 0x2B14, b + 1)
    else if n 0x2B15 < n 0x2B16 then some (0x0200, 0x2B16, b + 1)
    else if !base.isEmpty && base.length != 4 * s.num 0x2711 (b + 1) then some (0x0200, 0x2B12, b + 1)
    else none

/-- The 8 bytes of a MeasResults record (R295). -/
def MeasRec.toBytes (r : MeasRec) : Bytes := u16 r.primary ++ u16 r.leak ++ u8 r.status ++ u8 r.cls ++ u16 r.dev

/-- LANE_LOCK_LOST: RELEASE, DOWN, F2A00h + l; its tokens and its measurements end; AutoRetrain (R270, R273, R289). -/
def execLaneLockLost (l : Lane) (s : State) : Host.Outcome State Fault Refusal :=
  if (s.lane l).st ≠ .trained then .next s
  else
    let bars := (List.range 8).filter fun b => (s.bar b).firing.any fun f => f.lanes.contains l.val
    let s := (s.laneLost l).measLaneLost l
    .next (forEach bars (fun b s => s.laneDone b l false false) s)

/-- HDM_MEAS_FRAME: the HDM measures, or refuses while an input that is not this one owns the heads (R264, R286). -/
def execHdmMeasFrame (m : Lane) (fromB : Bool) (head first count : BitVec 16) (kind tag : BitVec 8) (s : State) :
    Host.Outcome State Fault Refusal :=
  s.onHdm m fromB fun s =>
    let h := s.hdm m
    let c := Config.hdmCap m
    let hl1 := hdmIsHl1 m
    let owned := h.owner hl1 false == 1 || h.owner hl1 true == 1
    let kinds := if c.kind = 1 then [2, 3] else [1]
    let ok := h.owner hl1 fromB == 1 || (!owned && !hl1)
    let inRange := decide (head.toNat < c.headCount) && decide (first.toNat + count.toNat ≤ c.elements) && decide (1 ≤ count.toNat)
      && decide (count.toNat ≤ 64) && kinds.contains kind.toNat
    let answer := fun (result : Nat) (vs : List (BitVec 16)) (s : State) => s.hdmSend m fromB (.measResult
      { tag := tag, result := BitVec.ofNat 8 result, first := first, count := BitVec.ofNat 8 count.toNat, kind := kind,
        head := BitVec.ofNat 8 head.toNat, values := vs })
    if !ok || hl1 then answer 1 [] s
    else if !inRange then answer 3 [] s
    else
      let (bad, s) := s.freeBelow 2
      if bad = 1 then answer 2 [] s
      else answer 0 ((List.range count.toNat).map fun i =>
        BitVec.ofNat 16 (Config.element m head.toNat (first.toNat + i) kind.toNat)) s

end Sys2Proof.Machine
end

