-- ==== Sys2Proof/Machine/Stops.lean ====
section
/-! DEFINITION. How a state request runs and ends, and the entries to CONFIGURED and ARMED (R24, R25, R28, R34, R130, R132). -/

set_option Elab.async false

namespace Sys2Proof.Machine

/-- Every bar out of the job: its lines thrown away, its clock OUT, BarRunState 0 (R25, R130, R179). -/
def State.clearBars (s : State) : State :=
  forRange 8 (fun b s =>
    let s := (s.cutBar b).dropLines b
    let s := s.modBar b fun x => { x with run := .notInJob, stopping := false, wasPrinting := false }
    let s := s.modLcg b fun k => { k with st := .out }
    ((s.modJob b fun _ => BarJob.start).setNum 0x2413 (b + 1) 0xFFFFFFFF).barAtOnce b) s

/-- A job change in progress completes at once (R127, R132). -/
def State.settleChange (s : State) : State :=
  let draining := match s.current with
    | some k => (s.slot k).st == .draining
    | none => false
  if s.fet.change || draining then
    let q := s.num 0x2410 1
    s.changeDone (if q < 2 ∧ (s.slot q).st = .ready then some q else none)
  else s

/-- The coverage rings reserved behind the slot areas (R247; assumption 30). -/
def State.reserveRings (s : State) : State :=
  forRange 8 (fun b s => s.setNum 0x2963 (b + 1) ((2 * s.slotCapacity + Config.coverageOffset b) % 2 ^ 64)) s

/-- CONFIGURED entered (R25, R132, R220, R276): no job runs, tokens stop, engines are back on their slices, idle lanes resume. -/
def State.enterConfigured (s : State) : State :=
  let s := (s.settleChange.clearBars).enginesConfigured
  let s := { s with vis := { s.vis with rings := Vector.replicate 3 [] } }
  s.reserveRings.lanesResume.enter .configured

/-- A request that waits for bars to stop ends once the last one has; Unit names the lowest that still has to (R28, R34). -/
def State.stopsDone (s : State) : State :=
  let left := (List.range 8).filter fun b => (s.bar b).stopping
  match s.pwr.trans, left with
  | some .stopHeld, [] => s.endRequest 0
  | some .stopConfigured, [] => s.enterConfigured.endRequest 0
  | some .stopHeld, b :: _ | some .stopConfigured, b :: _ =>
    s.modPwr fun p => { p with progress := { p.progress with unit := b } }
  | _, _ => s

/-- A bar that has to stop: at its next line event if it has started, else at once (R28). -/
def State.stopBegin (s : State) (b : Nat) : State :=
  match (s.bar b).run with
  | .printing | .dry | .reversed => s.modBar b fun x => { x with stopping := true, wasPrinting := true }
  | .waiting => s.modBar b fun x => { x with run := .held, wasPrinting := false }
  | _ => s

/-- A bar of the job waits for its mark, at a print line of its job (R29, R130). -/
def State.waitForMark (s : State) (b : Nat) (slot : Option Nat) (p : Nat) : State :=
  let s := ((s.cutBar b).startBar b slot p).modBar b fun x => { x with run := .waiting, stopping := false, wasPrinting := false }
  s.modLcg b fun _ => { Lcg.start with st := .waiting }

/-- A bar's duty counts as ARMED finds them from CONFIGURED (R237). -/
def State.zeroCounts (s : State) (b : Nat) : State := s.modBar b fun x => { x with dutyIdx := 0, elem := [], head := [] }

/-- ARMED entered from CONFIGURED: the queued slot becomes current where none is, every bar of the job waits for its mark
(R25, R130). -/
def State.enterArmed (s : State) : State :=
  let q := s.num 0x2410 1
  let s := match s.current with
    | some k => { s with fsq := { s.fsq with jobMask := s.slotMask k } }
    | none => if q < 2 ∧ (s.slot q).st = .ready then (s.makeCurrent q).setNum 0x2410 1 0xFF
      else { s with fsq := { s.fsq with jobMask := 0 } }
  let s := forRange 8 (fun b s =>
    let s := s.zeroCounts b
    if bit s.fsq.jobMask b then
      ((s.waitForMark b s.current 0).setNum 0x2411 (b + 1) 0).setNum 0x2412 (b + 1) 0
    else s) s
  s.toArmed

end Sys2Proof.Machine
end

