-- ==== Sys2Proof/Machine/Pos.lean ====
section
/-! DEFINITION. POS and LCG: position channels, speed, line clocks, marks and compare units (R168 to R197). -/

set_option Elab.async false

namespace Sys2Proof.Machine

/-- A position channel. -/
def State.pch (s : State) (n : Nat) : Pch := vget s.pos n Pch.start

/-- A position channel changed. -/
def State.modPch (s : State) (n : Nat) (f : Pch → Pch) : State := { s with pos := vmod s.pos n f }

/-- A bar's line clock. -/
def State.clk (s : State) (b : Nat) : Lcg := vget s.lcg b Lcg.start

/-- A compare unit. -/
def State.unit (s : State) (u : Nat) : Cmp := vget s.cmp u Cmp.start

/-- A compare unit changed. -/
def State.modUnit (s : State) (u : Nat) (f : Cmp → Cmp) : State := { s with cmp := vmod s.cmp u f }

/-- The mode of a channel. -/
def State.chMode (s : State) (n : Nat) : Nat := s.num 0x2510 (n + 1)

/-- The signed difference of two counters (R169). -/
def diff32 (a b : Nat) : Int := toSigned 32 (a + 2 ^ 32 - b % 2 ^ 32)

/-- The signed difference of two s32.16 positions modulo 2^48. -/
def diff48 (a b : Nat) : Int := toSigned 48 (a + 2 ^ 48 - b % 2 ^ 48)

/-- The edge time of a change accepted now, in ticks (R170). -/
def State.edgeTime (s : State) (n : Nat) : Nat := s.tick - (s.num 0x2512 (n + 1) * s.num 0x2511 (n + 1) * 4 + 2)

/-- An accepted change of `steps` counts enters the speed window (R177). -/
def State.speedChange (s : State) (n : Nat) (back : Bool) (te steps : Nat) : State :=
  let c := s.pch n
  let turned := c.back.any (· != back)
  let s := if turned then s.bump 0x2529 (n + 1) else s
  if c.back ≠ some back ∨ c.stopped ∨ c.cleared then
    s.modPch n fun c => { c with tLast := te, back := some back, stopped := false, cleared := false, window := [] }
  else
    let ticks : Nat := (te + 2 ^ 40 - c.tLast % 2 ^ 40) % 2 ^ 40
    let dt : Rat := (ticks : Rat) / ((max 1 steps : Nat) : Rat)
    let room := 2 ^ s.num 0x2518 (n + 1)
    s.modPch n fun c => { c with tLast := te, window := (c.window ++ [dt]).drop (c.window.length + 1 - room) }

/-- When a change of a channel crosses a position: by the edge, or between two SSI samples (R183, R188). -/
inductive CrossBy where
  | edge (te : Nat)
  | sample (tp cp tk ck : Nat)
  deriving DecidableEq, Repr

/-- The crossing time of an s32.16 position in 625 ps units, and whether it is uninterpolated (R183). -/
def State.crossTime (s : State) (n : Nat) (how : CrossBy) (pos : Nat) : Nat × Bool :=
  match how with
  | .edge te =>
    match (s.pch n).interval with
    | none => (te * 4, true)
    | some avg =>
      let frac := diff48 pos ((s.pch n).count * 2 ^ 16)
      ((((te * 4 : Nat) : Int) + roundHalfUpInt (frac * avg * 4) (2 ^ 24)).toNat, false)
  | .sample tp cp tk ck =>
    let d := (diff32 ck cp).toNat
    let x := diff48 pos (cp * 2 ^ 16)
    ((((tp * 4 : Nat) : Int) + roundHalfUpInt (x * ((tk - tp : Nat) : Int) * 4) (max 1 d * 2 ^ 16)).toNat, false)

/-- Line events of a bar for every line whose position the count has reached, at most `fuel` of them; each is counted before FSQ takes it,
so that what FSQ then takes up names the next line (R75, R182, R183). -/
def State.lineEvents : Nat → Nat → Nat → CrossBy → State → State
  | 0, _, _, _, s => s
  | fuel + 1, b, n, how, s =>
    let k := s.clk b
    if k.st ≠ .running ∨ 0 < diff32 (k.next / 2 ^ 16) (s.pch n).count then s
    else
      let (t, raw) := s.crossTime n how k.next
      let s := if raw then s.bump 0x2639 (b + 1) else s
      let ev : LineEv := { n := k.n, cross := t % 2 ^ 42, raw := raw, pos := k.next, stamp := s.stamp, era := s.stamp48 / 2 ^ 32 }
      let s := s.modLcg b fun k =>
        { k with n := (k.n + 1) % 2 ^ 32, next := (k.next + s.num 0x2610 (b + 1)) % 2 ^ 48, lastUninterp := raw }
      State.lineEvents fuel b n how (s.lineEvent b ev)

/-- A bar that has passed its high-water mark: H moves, its lines come, per-bar values of areas 26h and 2Bh are taken up
(R179, R182, R185, R193). -/
def State.advance (s : State) (b n : Nat) (how : CrossBy) : State :=
  let c := (s.pch n).count
  let s := s.modLcg b fun k => { k with st := .running, high := c }
  let before := (s.clk b).n
  let s := (State.lineEvents ((diff32 c ((s.clk b).next / 2 ^ 16)).toNat + 1) b n how s).stopsDone
  let after := (s.clk b).n
  if before = after then s
  else (s.takeUpBar 0x26 b ((after + 1) % 2 ^ 32)).takeUpBar 0x2B b after

/-- The line clock of a bar after a change of its channel's count (R179, R180). -/
def State.clockChange (s : State) (b n : Nat) (how : CrossBy) : State :=
  let k := s.clk b
  let c := (s.pch n).count
  let ahead := diff32 c k.high
  match k.st with
  | .out | .waiting => s
  | .running | .backlash =>
    if 0 < ahead then s.advance b n how
    else if -ahead ≤ s.num 0x2613 (b + 1) then s.modLcg b fun k => { k with st := .backlash }
    else
      let s := (s.modLcg b fun k => { k with st := .reversed, revTick := s.tick }).bump 0x2638 (b + 1)
      let s := s.raise (0x2600 + b) 0 (u32 k.high ++ u32 c ++ u32 k.n)
      (s.modBar b fun x => { x with run := if x.run = .printing ∨ x.run = .dry then .reversed else x.run }).barAtOnce b
  | .reversed =>
    if 0 < ahead then
      let s := s.modBar b fun x => { x with run := if x.run = .reversed then (if x.dry then .dry else .printing) else x.run }
      let s := s.raise (0x2610 + b) 0 (u32 c ++ u32 ((s.tick - k.revTick) / 400))
      s.advance b n how
    else s

/-- An action of a compare unit on its target (R191). -/
def State.unitAction (s : State) (u : Nat) : State :=
  s.modUnit u fun x => match s.num 0x2645 (u + 1) with
    | 0 => { x with pulse := true, level := true }
    | 1 => { x with level := true }
    | 2 => { x with level := false }
    | _ => { x with level := !x.level }

/-- One firing of a compare unit at its value (R188, R189, R192). -/
def State.unitFires (s : State) (u n : Nat) (how : CrossBy) : State :=
  let x := s.unit u
  let period := s.num 0x2643 (u + 1)
  let (t, _) := s.crossTime n how x.v
  let target := s.num 0x2644 (u + 1)
  let s := s.bump 0x2649 (u + 1)
  let s := s.modUnit u fun x =>
    if period = 0 then { x with armed := false, fired := true, behind := false }
    else { x with v := (x.v + period) % 2 ^ 48, behind := false }
  if x.pulse then
    let s := s.bump 0x264B (u + 1)
    s.raise (0x2630 + u) 0 (u64 x.v ++ u32 (s.num 0x264B (u + 1)))
  else if target = 0 then s
  else
    let due := ceilDiv t 4 + s.num 0x2647 (u + 1) * 2 / 5
    let late := decide (due < s.tick)
    let start := if late then s.tick else due
    let s := if late then (s.bump 0x264A (u + 1)).unitAction u else s.modUnit u fun x => { x with due := x.due ++ [due] }
    if 17 ≤ target ∧ s.on domVIS then
      let st := extend s.eNow (s.stampAt start)
      let r : Trig := { tick := start, ns := st % 2 ^ 32, era := st / 2 ^ 32, pos := x.v, channel := n, unit := u,
                        count := s.num 0x2649 (u + 1) }
      { s with vis := { s.vis with trigs := s.vis.trigs ++ [r] } }
    else s

/-- Every crossing of a unit's value in turn, at most `fuel` of them (R188, R189). -/
def State.unitCross : Nat → Nat → Nat → Nat → CrossBy → State → State
  | 0, _, _, _, _, s => s
  | fuel + 1, u, n, old, how, s =>
    let x := s.unit u
    let c := (s.pch n).count * 2 ^ 16
    if x.enabled && x.armed && decide (diff48 (old * 2 ^ 16) x.v < 0) && decide (0 ≤ diff48 c x.v) then
      State.unitCross fuel u n old how (s.unitFires u n how)
    else s

/-- What follows a change of a channel's count from `old`: line clocks of its bars, then compare units (R193). -/
def State.countMoved (s : State) (n old : Nat) (how : CrossBy) : State :=
  let s := forRange 8 (fun b s => if barChannel s.obj b = n then s.clockChange b n how else s) s
  let steps := (diff32 (s.pch n).count old).toNat
  forRange 16 (fun u s =>
    if s.num 0x2641 (u + 1) = n ∧ !s.boltedCmp u then State.unitCross (steps + 1) u n old how s else s) s

/-- The counter of a channel moved by one, with the sign that CountInvert gives it (R169, R170). -/
def State.countStep (s : State) (n : Nat) (forward : Bool) : State :=
  let te := s.edgeTime n
  let back := if s.num 0x2513 (n + 1) = 1 then forward else !forward
  let old := (s.pch n).count
  let s := s.modPch n fun c => { c with count := (if back then old + 2 ^ 32 - 1 else old + 1) % 2 ^ 32 }
  (s.speedChange n back te 1).countMoved n old (.edge te)

/-- The speed window of a channel cleared after an illegal transition (R171, R177). -/
def State.speedClear (s : State) (n : Nat) : State := s.modPch n fun c => { c with window := [], cleared := true }

/-- COUNT_CHANGE: filtered levels of A and B of a quadrature channel (R170, R171); A ahead of B is forward (assumption 38). -/
def execCountChange (n : PosCh) (a b : Bool) (s : State) : Host.Outcome State Fault Refusal :=
  let c := s.pch n
  if !s.on domCTL ∨ s.chMode n ≠ 1 ∨ (c.a = a ∧ c.b = b) then .next s
  else
    let s := s.modPch n fun c => { c with a := a, b := b }
    if c.a ≠ a ∧ c.b ≠ b then
      let s := (s.bump 0x2524 (n.val + 1)).speedClear n
      .next (s.raise (0x2500 + n.val) 0 (u32 c.count ++ u32 (s.num 0x2524 (n.val + 1))))
    else .next (s.countStep n (if c.a ≠ a then a != c.b else b == c.a))

/-- The place of a Hall state in the forward order (R174). -/
def hallPlace (uvw : Nat) : Nat := ([1, 3, 2, 6, 4, 5] : List Nat).idxOf uvw

/-- HALL_STATE_CHANGE: a filtered Hall state counts, or is impossible, or is no neighbour of the last one (R174). -/
def execHallStateChange (n : PosCh) (uvw : BitVec 3) (s : State) : Host.Outcome State Fault Refusal :=
  let c := s.pch n
  let x := uvw.toNat
  if !s.on domCTL ∨ s.chMode n ≠ 3 ∨ c.uvw = x then .next s
  else
    let bad := fun (s : State) => (s.bump 0x2525 (n.val + 1)).raise (0x2510 + n.val) 0 (u8 x ++ u32 c.count)
    let s := s.modPch n fun c => { c with uvw := x }
    if x = 0 ∨ x = 7 then .next (bad s)
    else
      let s := s.modPch n fun c => { c with hallRef := some x }
      match c.hallRef with
      | none => .next s
      | some r =>
        if r = x then .next s
        else if hallPlace x = (hallPlace r + 1) % 6 then .next (s.countStep n true)
        else if hallPlace r = (hallPlace x + 1) % 6 then .next (s.countStep n false)
        else .next (bad (s.speedClear n))

/-- Z_INDEX_EDGE: the counter latched, the Z period checked (R173). -/
def execZIndexEdge (n : PosCh) (s : State) : Host.Outcome State Fault Refusal :=
  let c := s.pch n
  if !s.on domCTL ∨ s.chMode n ≠ 1 then .next s
  else
    let s := (s.setNum 0x2528 (n.val + 1) c.count).modPch n fun c => { c with zPrev := some c.count }
    let p := s.num 0x2514 (n.val + 1)
    match c.zPrev with
    | none => .next s
    | some z =>
      let d := diff32 c.count z
      let off := min (d - p).natAbs (d + p).natAbs
      .next (if p ≠ 0 ∧ s.num 0x2515 (n.val + 1) < off then
          (s.bump 0x2527 (n.val + 1)).raise (0x2530 + n.val) 0 (u32 c.count ++ u32 (ofSigned 32 d))
        else s)

/-- SSI_PERIOD_EXPIRY: a frame starts, its sample time is now (R175). -/
def execSsiPeriodExpiry (n : PosCh) (s : State) : Host.Outcome State Fault Refusal :=
  .next (if s.on domCTL ∧ s.chMode n = 2 then s.modPch n fun c => { c with ssiStart := some s.tick } else s)

/-- Gray code to binary (R175). -/
def grayToBin : Nat → Nat → Nat
  | 0, g => g
  | n + 1, g => let r := grayToBin n (g / 2); r * 2 + (r + g) % 2

/-- SSI_FRAME_COMPLETE: the sample is added to the counter, taken as a new start, or refused (R175, R177). -/
def execSsiFrameComplete (n : PosCh) (raw : BitVec 32) (errorBit dataLow : Bool) (s : State) : Host.Outcome State Fault Refusal :=
  let c := s.pch n
  match c.ssiStart with
  | none => .next s
  | some tk =>
    if !s.on domCTL ∨ s.chMode n ≠ 2 then .next s
    else
      let cfg := s.num 0x2516 (n.val + 1)
      let w := bits cfg 5 0
      let r := raw.toNat % 2 ^ w
      let r := if bit cfg 6 then grayToBin w r else r
      let s := s.modPch n fun c => { c with ssiStart := none }
      let refuse := fun (cause : Nat) =>
        let s := s.modPch n fun c => { c with ssiRaw := none, ssiLast := none, cleared := true }
        (s.bump 0x2526 (n.val + 1)).raise (0x2520 + n.val) cause (u32 r ++ u8 cause)
      if bit cfg 7 && errorBit then .next (refuse 1)
      else if dataLow then .next (refuse 2)
      else
        let d : Int := match c.ssiRaw with
          | some p => toSigned w (r + 2 ^ w - p)
          | none => 0
        if 2 ^ (w - 2) < d.natAbs then .next (refuse 3)
        else
          let d := if s.num 0x2513 (n.val + 1) = 1 then -d else d
          let old := c.count
          let now := ofSigned 32 ((old : Int) + d)
          let s := s.modPch n fun c =>
            { c with count := now, ssiRaw := some r, ssiLast := some { tick := tk, count := now } }
          match c.ssiLast with
          | some p =>
            if d = 0 then .next s
            else .next ((s.speedChange n (d < 0) tk d.natAbs).countMoved n old (.sample p.tick p.count tk now))
          -- a new start: the interval before it is discarded, the next one counts
          | none => .next (s.modPch n fun c => { c with tLast := tk, cleared := false, window := [] })

/-- STOP_TIMEOUT: no change for StopTimeout; the channel is stopped (R178). -/
def execStopTimeout (n : PosCh) (s : State) : Host.Outcome State Fault Refusal :=
  .next (if s.on domCTL then s.modPch n fun c => { c with stopped := true, window := [] } else s)

/-- The mark of a bar latched from a channel: its line clock runs, its diffusion state is zero, its line 0 may be prepared
(R179, R186, R187, R213, R227). -/
def State.startAtMark (s : State) (b n offset : Nat) : State :=
  let c := (s.pch n).count
  let s := s.setNum 0x2635 (b + 1) c
  let s := s.setNum 0x2636 (b + 1) (extend s.eNow (s.stampAt (s.tick - s.num 0x2614 (b + 1) * 40)))
  let s := s.modLcg b fun k =>
    { k with st := .running, high := c, n := 0, next := (c * 2 ^ 16 + offset + s.num 0x2611 (b + 1)) % 2 ^ 48 }
  let s := ({ s with sne := { s.sne with diff := vmod s.sne.diff b fun _ => [], edges := s.sne.edges.filter (·.bar != b) },
                     mir := { s.mir with missed := s.mir.missed.filter (·.1 != b) } } : State).cheJobStart b 0
  s.modBar b fun x => { x with run := .printing, ready := true }

/-- MARK_ACCEPTED: the mark starts a WAITING bar, or in shared mode MARK_0 every WAITING bar; the device prints (R25, R28, R186,
R187). -/
def execMarkAccepted (b : Bar) (s : State) : Host.Outcome State Fault Refusal :=
  if !s.on domCTL then .next s
  else
    let s := { s with fsq := { s.fsq with marked := s.fsq.marked ||| 2 ^ b.val } }
    let open_ := s.inStates [.armed, .printing]
    let waits := fun (i : Nat) => (s.clk i).st == .waiting && (s.bar i).run == .waiting
    let shared := s.num 0x2620 1 == 1
    let starts := if !open_ then [] else if shared then (if b.val = 0 then (List.range 8).filter waits else [])
      else [b.val].filter waits
    if starts.isEmpty then .next (if shared ∧ b.val ≠ 0 then s else s.bump 0x2637 (b.val + 1))
    else
      let s := forEach starts (fun i s => s.startAtMark i (barChannel s.obj i) (if shared then s.num 0x2612 (i + 1) else 0)) s
      .next (if s.pwr.dev = .armed then s.enter .printing else s)

/-- COMPARE_ACTION: the unit's next action falls due (R188, R191). -/
def execCompareAction (u : CmpUnit) (s : State) : Host.Outcome State Fault Refusal :=
  match (s.unit u).due with
  | [] => .next s
  | _ :: rest => .next ((s.modUnit u fun x => { x with due := rest }).unitAction u)

/-- COMPARE_PULSE_END: the pulse output returns to inactive (R191). -/
def execComparePulseEnd (u : CmpUnit) (s : State) : Host.Outcome State Fault Refusal :=
  .next (if (s.unit u).pulse then s.modUnit u fun x => { x with pulse := false, level := false } else s)

/-- A compare unit takes its committed values up, with the behind check (R189, R190). -/
def State.unitTakeUp (s : State) (u : Nat) : State :=
  let on := s.num 0x2640 (u + 1) == 1
  let v := s.num 0x2642 (u + 1)
  let was := (s.unit u).enabled
  let s := if on && !was then s.setNum 0x2649 (u + 1) 0 else s
  if !on || s.boltedCmp u then s.modUnit u fun _ => Cmp.start
  else
    let c := (s.pch (s.num 0x2641 (u + 1))).count
    let behind := decide (0 ≤ diff48 (c * 2 ^ 16) v)
    let s := s.modUnit u fun x =>
      { x with enabled := true, armed := true, behind := behind, fired := false, v := v }
    if behind then s.raise (0x2620 + u) 0 (u64 v ++ u32 c) else s

/-- A position setting keeps a bar's MinFireDelay within its fire delay (R17). -/
def State.delayFits (s : State) (get : Nat → Nat → Val) (b : Nat) : Bool :=
  s.minDelay get b ≤ s.num 0x2910 (b + 1) || s.minDelay get b ≤ s.minDelay s.obj b

/-- A position setting keeps every bar's MinFireDelay within its fire delay (R17). -/
def State.delaysFit (s : State) (get : Nat → Nat → Val) : Bool := (List.range 8).all fun b => s.delayFits get b

/-- The values read by `get` with one of them changed. -/
def withVal (get : Nat → Nat → Val) (idx sub : Nat) (v : Val) : Nat → Nat → Val :=
  fun i j => if i = idx ∧ j = sub then v else get i j

/-- The fields of SsiConfig are in their ranges (R194). -/
def ssiConfigOk (cfg : Nat) : Bool :=
  4 ≤ bits cfg 31 20 && bits cfg 31 20 ≤ 499 && bits cfg 19 16 == 0 && 1 ≤ bits cfg 15 8 && 8 ≤ bits cfg 5 0 && bits cfg 5 0 ≤ 32

/-- An SSI frame with its monoflop time fits its period (R175). -/
def ssiFits (cfg period : Nat) : Bool := ssiFrame cfg + bits cfg 15 8 * 1000 ≤ period

/-- SharedChannel stays in mode 1 or 2 while registration is shared (R186). -/
def sharedOk (get : Nat → Nat → Val) : Bool :=
  (get 0x2620 1).toNum != 1
    || ((get 0x2510 ((get 0x2620 2).toNum + 1)).toNum == 1 || (get 0x2510 ((get 0x2620 2).toNum + 1)).toNum == 2)

/-- Writes of POS and LCG objects with an effect of their own (R169, R175, R176, R186). -/
def hookPos (idx sub : Nat) (v : Val) (s : State) : Option (Except Nat State) :=
  let n := sub - 1
  let x := v.toNum
  let get := withVal s.obj idx sub v
  let done : Except Nat State := .ok ((s.setObj idx sub v).delaysChanged)
  match idx with
  | 0x2510 => some (
      if x = 3 ∧ n < 8 then .error (0x25040100 + n)
      else if x = 2 ∧ !ssiFits (s.num 0x2516 sub) (s.num 0x2517 sub) then .error (0x25040200 + n)
      else if !sharedOk get then .error (0x26040100 + n)
      else .ok (((s.setObj idx sub v).modPch n fun _ => Pch.start).delaysChanged))
  | 0x2516 | 0x2517 => some (
      if !ssiConfigOk (get 0x2516 sub).toNum then .error 0x25060600
      else if !ssiFits (get 0x2516 sub).toNum (get 0x2517 sub).toNum then .error (0x25040200 + n)
      else if !s.delaysFit get then .error (0x25040300 + n)
      else done)
  | 0x2620 => some (if sharedOk get then done else .error (0x26040100 + (get 0x2620 2).toNum))
  | _ => none

/-- A channel counts as running: its mode is not 0 and it serves a bar of the job or an enabled compare unit (R194). -/
def State.channelRuns (s : State) (n : Nat) : Bool :=
  s.chMode n != 0
    && ((s.inStates [.armed, .printing, .held] && (barsOf s.fsq.jobMask).any fun b => barChannel s.obj b == n)
      || (List.range 16).any fun u => (s.unit u).enabled && s.num 0x2641 (u + 1) == n)

/-- The Stopped objects of areas 25h and 26h are held by a running block (R194). -/
def posRuns (s : State) (idx sub : Nat) : Bool :=
  if idx = 0x2620 then s.inStates [.armed, .printing, .held] else s.channelRuns (sub - 1)

/-- The checks at a commit of area 25h: code, index, subindex of what fails, the changed filter setting of the channel of the lowest bar
that no longer fits (R17, R176). -/
def checkPos (s : State) (get : Nat → Nat → Val) : Option (Nat × Nat × Nat) :=
  ((List.range 8).find? fun b => !s.delayFits get b).map fun b =>
    let sub := barChannel get b + 1
    (0x25080200, if get 0x2511 sub != s.obj 0x2511 sub then 0x2511 else 0x2512, sub)

/-- The checks at a commit of area 26h (R191, R196). -/
def checkLcg (get : Nat → Nat → Val) : Option (Nat × Nat × Nat) :=
  let on := fun (u : Nat) => (get 0x2640 (u + 1)).toNum == 1
  let target := fun (u : Nat) => (get 0x2644 (u + 1)).toNum
  let twice := (List.range 16).find? fun u => on u && target u != 0 && (List.range u).any fun w => on w && target w == target u
  let cam := (List.range 16).find? fun u => 17 ≤ target u && (get 0x2645 (u + 1)).toNum != 0
  match cam with
  | some u => some (0x26040200 + u, 0x2645, u + 1)
  | none => twice.map fun u => (0x26080200, 0x2644, u + 1)

end Sys2Proof.Machine
end

