-- ==== Sys2Proof/Machine/Mio.lean ====
section
/-! DEFINITION. What POS and LCG read as, and MIO: the machine's inputs and outputs (R172, R178, R184, R194, R195,
R248 to R254). -/

set_option Elab.async false

namespace Sys2Proof.Machine

/-- Speed of a channel in counts/s, signed by direction (R178); while the speed is not valid and the channel is not stopped the
manual states no value. -/
def State.speed (s : State) (n : Nat) : Int × State :=
  let c := s.pch n
  if c.stopped then (0, s)
  else match c.interval with
    | none => let (v, s) := s.freeBelow (2 ^ 32)
              (toSigned 32 v, s)
    | some avg =>
      let period := max avg ((s.tick - c.tLast) * 256)
      if period = 0 then let (v, s) := s.freeBelow (2 ^ 32)
                         (toSigned 32 v, s)
      else
        let (v, s) := s.freeQuot ((400000000 * 256 : Nat) : Int) period
        s.fitInt (if c.back = some true then -v else v)

/-- WebSpeed of a channel in µm/s: Speed / CountsPerMm (R194). -/
def State.webSpeed (s : State) (n : Nat) : Int × State :=
  let (v, s) := s.speed n
  let cpm := s.num 0x251B (n + 1)
  if cpm = 0 then let (v, s) := s.freeBelow (2 ^ 32)
                  (toSigned 32 v, s)
  else let (w, s) := s.freeQuot (v * 65536000) cpm
       s.fitInt w

/-- CountInterval of a channel in ps (R194). -/
def State.countInterval (s : State) (n : Nat) : Nat × State :=
  match (s.pch n).interval with
  | none => (0, s)
  | some avg => let (v, s) := s.freeQuot ((avg * 2500 : Nat) : Int) 256
                s.fit 32 v.toNat

/-- MaxCountRate of a channel in counts/s (R172). -/
def State.maxCountRate (s : State) (n : Nat) : Nat × State :=
  let (v, s) := s.freeQuot 100000000 ((s.num 0x2512 (n + 1) + 1) * s.num 0x2511 (n + 1))
  (v.toNat, s)

/-- PositionStatus of a channel; the manual does not say what the 8-bit WindowFill reads with 256 intervals (R194). -/
def State.positionStatus (s : State) (n : Nat) : Nat × State :=
  let c := s.pch n
  let (fill, s) := if c.window.length < 256 then (c.window.length, s) else s.freeBelow 256
  (s.chMode n * 2 ^ 28 + b2n (c.back == some true) * 2 ^ 27 + b2n c.interval.isSome * 2 ^ 26 + b2n c.stopped * 2 ^ 25
    + b2n c.zPrev.isSome * 2 ^ 24 + b2n (s.channelRuns n) * 2 ^ 23 + (if s.chMode n = 3 then c.uvw * 2 ^ 16 else 0)
    + fill * 2 ^ 8, s)

/-- Line events of a bar are generated and not fired: its clock has started, and it is held or the device is FROZEN (R181). -/
def State.eventsHeld (s : State) (b : Nat) : Bool :=
  (s.clk b).st != .out && (s.clk b).st != .waiting && ((s.bar b).run == .held || s.pwr.dev == .frozen)

/-- LineClockStatus of a bar (R195). -/
def State.lineClockStatus (s : State) (b : Nat) : Nat :=
  let k := s.clk b
  let n := barChannel s.obj b
  let depth := diff32 k.high (s.pch n).count
  k.st.code * 2 ^ 28 + b2n (s.eventsHeld b) * 2 ^ 27 + b2n (s.pch n).interval.isSome * 2 ^ 26
    + b2n k.lastUninterp * 2 ^ 25 + b2n (s.num 0x2620 1 == 1) * 2 ^ 24 + n * 2 ^ 16
    + (clampInt 0 65535 depth).toNat

/-- CompareStatus of a compare unit (R195). -/
def State.compareStatus (s : State) (u : Nat) : Nat :=
  let x := s.unit u
  b2n x.armed * 2 ^ 31 + b2n x.behind * 2 ^ 30 + b2n x.fired * 2 ^ 29 + b2n x.pulse * 2 ^ 28
    + s.num 0x2641 (u + 1) * 2 ^ 16 + s.num 0x2644 (u + 1) * 2 ^ 8

/-- The host-set output levels that MIO drives: in role STANDBY those of the last accepted state block, none before one (R250). -/
def State.outLevels (s : State) : Nat :=
  if s.mir.role = .standby then (s.mir.block.map (·.outputs.toNat)).getD 0 else s.num 0x2E20 1

/-- OutputDriven: the host-set levels, an enabled compare unit replacing the bit of its target (R191, R250). -/
def State.outputDriven (s : State) : Nat :=
  if !s.on domCTL then 0
  else maskOf (fun n =>
    match (List.range 16).find? fun u => (s.unit u).enabled && s.num 0x2644 (u + 1) == n + 1 with
    | some u => (s.unit u).level
    | none => bit s.outLevels n) 16

/-- INPUT_EDGE: a filtered edge at its first sample of the new level (R248, R249). -/
def execInputEdge (n : Fin 16) (level : Bool) (s : State) : Host.Outcome State Fault Refusal :=
  if !s.on domCTL ∨ bit (s.num 0x2E10 1) n = level then .next s
  else
    let s := s.setNum 0x2E10 1 (s.num 0x2E10 1 ^^^ 2 ^ n.val)
    if !bit (s.num 0x2E10 2) (2 * n + (if level then 0 else 1)) then .next s
    else
      let s := (s.bump 0x2E11 (n + 1)).setNum 0x2E12 (n + 1) (extend s.eNow (s.stampAt (s.tick - 400)))
      let ch := s.num 0x2E10 3
      let s := if ch < 12 then s.setNum 0x2E13 (n + 1) (s.pch ch).count else s
      .next (s.raise (0x2E00 + n) 0 (u8 (b2n level) ++ u32 (s.num 0x2E13 (n + 1))))

/-- OUTPUT_CHECK_EXPIRY: the ball of OUTn has differed from OutputDriven for longer than OutputCheckTime; the levels at the other
balls are not known (R251). -/
def execOutputCheckExpiry (n : Fin 16) (s : State) : Host.Outcome State Fault Refusal :=
  if !s.on domCTL ∨ s.num 0x2E20 4 = 0 then .next s
  else
    let d := s.outputDriven
    let (x, s) := s.freeBelow (2 ^ 16)
    let back := if bit x n = bit d n then x ^^^ 2 ^ n.val else x
    .next (s.raise (0x2E10 + n) 0 (u16 d ++ u16 back))

end Sys2Proof.Machine
end

