-- ==== Sys2Proof/Machine/Binary.lean ====
section
/-! DEFINITION. IEEE 754 arithmetic on exact values: rounding to nearest with ties to even, and the square root (R333, R406). -/

set_option Elab.async false

namespace Sys2Proof.Machine

/-- A non-negative rational rounded to the nearest whole number, ties to even. -/
def roundEven (x : Rat) : Nat :=
  let f := x.floor.toNat
  let r : Rat := x - (f : Rat)
  if r < 1 / 2 then f else if 1 / 2 < r then f + 1 else if f % 2 = 0 then f else f + 1

/-- A power of two. -/
def pow2 (e : Int) : Rat := if e < 0 then 1 / ((2 ^ e.natAbs : Nat) : Rat) else ((2 ^ e.natAbs : Nat) : Rat)

/-- The exponent of the leading bit of a positive rational. -/
def leadBit (x : Rat) : Int :=
  let e : Int := (x.num.natAbs.log2 : Int) - x.den.log2
  if x < pow2 e then e - 1 else e

/-- A rational rounded to a binary format of `p` bits whose least exponent is `emin`. -/
def roundBin (p : Nat) (emin : Int) (x : Rat) : Rat :=
  if x = 0 then 0
  else
    let a : Rat := if x < 0 then -x else x
    let e := max (leadBit a) emin
    let u := pow2 (e - (p : Int) + 1)
    let r : Rat := (roundEven (a / u) : Rat) * u
    if x < 0 then -r else r

/-- Rounding to binary64. -/
def r64 (x : Rat) : Rat := roundBin 53 (-1022) x

/-- Rounding to binary32. -/
def r32 (x : Rat) : Rat := roundBin 24 (-126) x

/-- The whole square root, found bit by bit from bit `n - 1` down. -/
def isqrt : Nat → Nat → Nat → Nat
  | 0, _, acc => acc
  | n + 1, x, acc => if (acc + 2 ^ n) * (acc + 2 ^ n) ≤ x then isqrt n x (acc + 2 ^ n) else isqrt n x acc

/-- The square root of a non-negative rational in binary64, correctly rounded: two bits below the last place and a sticky bit. -/
def sqrt64 (x : Rat) : Rat :=
  if x ≤ 0 then 0
  else
    let h := Int.fdiv (leadBit x) 2 - 56
    let q := x / (pow2 h * pow2 h)
    let n := q.floor.toNat
    let s := isqrt 60 n 0
    let exact := decide (((s * s : Nat) : Rat) = q)
    r64 (((s : Rat) + (if exact then 0 else 1 / 2)) * pow2 h)

/-- The 64 bits of a binary64 value. -/
def bits64 (x : Rat) : Nat :=
  if x = 0 then 0
  else
    let a : Rat := if x < 0 then -x else x
    let e := max (leadBit a) (-1022)
    let m := (a / pow2 (e - 52)).floor.toNat
    (if x < 0 then 2 ^ 63 else 0) + (if m < 2 ^ 52 then m else (e + 1023).toNat * 2 ^ 52 + (m - 2 ^ 52))

end Sys2Proof.Machine
end

