-- ==== Sys2Proof/Machine/Network.lean ====
section
/-! DEFINITION. NET: the switch, its transparent clock, the MDIO master, the links (R86 to R96, R108, R111, R112). -/

set_option Elab.async false

namespace Sys2Proof.Machine

/-- The port passes frames: P0 while NET is ON, an external port with its link up and its mode not off. -/
def State.portOpen (s : State) (port : Nat) : Bool := port == 0 || (s.linkUp port && s.num 0x2010 port != 0)

/-- Between P1 and P2 the switch cuts through: both links run at the same rate (R87). -/
def State.cutThrough (s : State) : Bool :=
  s.linkUp 1 && s.linkUp 2 && bits (s.num 0x2012 1) 14 12 == bits (s.num 0x2012 2) 14 12

/-- PTP event messages (R88). -/
def ptpIsEvent : PtpKind → Bool
  | .sync | .delayReq | .pdelayReq | .pdelayResp => true
  | _ => false

/-- The queue a frame takes at its egress port (R88). -/
def State.queueOf (s : State) (f : Frame) : Nat :=
  if f.ptp.any ptpIsEvent then 3
  else
    let pcp := match f.pcp with
      | some p => p.toNat
      | none => s.num 0x2030 2
    bits (s.num 0x2030 1) (2 * pcp + 1) (2 * pcp)

/-- The address belongs to a group: broadcast or multicast. -/
def isGroup (mac : BitVec 48) : Bool := bit mac.toNat 40

/-- The source address is learned, while the table has room or knows it (R87); what happens to a new address at a full table is the
model's choice (assumption 60). -/
def State.learn (s : State) (mac : BitVec 48) (port : Nat) : State :=
  if isGroup mac then s
  else if (kvGet s.net.table mac.toNat).isSome ∨ s.net.table.length < 1024 then
    { s with net := { s.net with table := kvPut s.net.table mac.toNat { port := port, tick := s.tick } } }
  else s

/-- The egress ports of a frame: the device's own address and a learned port, else every other port (R87). -/
def State.egress (s : State) (f : Frame) (port : Nat) : List Nat :=
  let all := [0, 1, 2].filter fun p => p != port
  if isGroup f.dst then all
  else if f.dst.toNat = s.fuses.mac then all.filter (· == 0)
  else match kvGet s.net.table f.dst.toNat with
    | some l => all.filter (· == l.port)
    | none => all

/-- The transparent clock corrects the frame (R94); that a Delay_Req is not corrected in the peer-to-peer mode is the model's choice
(assumption 60). -/
def State.corrects (s : State) (f : Frame) : Bool :=
  s.num 0x2040 1 == 1
    && (match f.ptp with
      | some .sync => true
      | some k => ptpIsEvent k && s.num 0x2120 2 == 1
      | none => false)

/-- The latency of a port's PHY, ingress (2013h) or egress (2014h), in 2^-32 ns; P0 has none (R91). -/
def State.portLatency (s : State) (idx port : Nat) : Nat := if port = 1 ∨ port = 2 then s.num idx port * 2 ^ 32 else 0

/-- A frame's residence in 2^-32 ns: the egress stamp, `wait` ticks on, minus the ingress stamp, each at the media interface of its port
(R91, R94). -/
def State.residence (s : State) (q : Queued) (out wait : Nat) : Int :=
  let egress := (s.anchor.at (s.tick + wait) : Int) + s.portLatency 0x2014 out
  egress - ((s.anchorAt q.tick).at q.tick - s.portLatency 0x2013 q.port)

/-- The frame with its correctionField raised by its residence to an egress port and, in the peer-to-peer mode, by the link delay of its
ingress port (R94). The ticks between its turn and its egress stamp are left free. -/
def State.correct (s : State) (q : Queued) (out : Nat) : Frame × State :=
  let f := q.frame
  if s.corrects f then
    let (wait, s) := s.free
    let r := s.residence q out wait
    let (add, s) := s.freeQuot r (2 ^ 16)
    let link : Int :=
      if s.num 0x2120 2 = 2 ∧ f.ptp = some .sync ∧ q.port ≠ 0 then vget s.net.linkDelay (q.port - 1) 0 else 0
    let s := s.bump 0x2040 2
    let (ns, s) := s.freeQuot r (2 ^ 32)
    let (ns, s) := s.fit 32 ns.toNat
    ({ f with correction := f.correction + add + link }, s.raiseMax 0x2040 3 ns)
  else (f, s)

/-- An egress port. -/
def State.egressPort (s : State) (o : Nat) : Egress := vget s.net.egress o Egress.start

/-- An egress port changed. -/
def State.modEgress (s : State) (o : Nat) (f : Egress → Egress) : State :=
  { s with net := { s.net with egress := vmod s.net.egress o f } }

/-- The bits a port sends per 1000 ticks: P0 at 2.5 Gbit/s, an external port at the rate of its link (R86, R108). -/
def State.portRate (s : State) (o : Nat) : Nat :=
  if o = 0 then 6250
  else match bits (s.num 0x2012 o) 14 12 with
    | 0 => 25
    | 1 => 250
    | 2 => 2500
    | _ => 6250

/-- What the device answers to a frame that reaches it, if the frame asks for one of its addresses (R90). The PCP of the answer is
left open. -/
def State.answerFrame (s : State) (q : Queued) : State :=
  match q.asks with
  | none => s
  | some a =>
    let mine := match a with
      | .arp t => s.ownAddress { v6 := false, addr := t.toNat }
      | .neighbour t => s.ownAddress { v6 := true, addr := t.toNat }
      | .echo d _ => s.ownAddress d
    if mine then
      let (pcp, s) := s.freeBelow 8
      s.emit (.answer q.frame.src a (s.ownTag pcp))
    else s

/-- An egress port that sends nothing takes the first frame of its highest queue that has one (R88); it sends for the frame's bits and
a free time on top (assumption 60). -/
def State.transmit (s : State) (o : Nat) : State :=
  let p := s.egressPort o
  if s.tick < p.busy ∨ !s.portOpen o then s
  else match [3, 2, 1, 0].find? fun q => !(vget p.queues q []).isEmpty with
    | none => s
    | some q => match vget p.queues q [] with
      | [] => s
      | x :: rest =>
        let (gap, s) := s.free
        let busy := s.tick + ceilDiv (x.frame.length * 8000) (s.portRate o) + gap
        let s := s.modEgress o fun p => { queues := vmod p.queues q fun _ => rest, busy := busy }
        let (f, s) := s.correct x o
        let s := s.emit (.frame o f)
        if o = 0 then s.answerFrame x else s

/-- The frame is put into its queue at an egress port, or is discarded there (R87, R88). -/
def State.forwardTo (s : State) (f : Frame) (port : Nat) (asks : Option IpAsk) (out : Nat) : State :=
  let cut := port ≠ 0 ∧ out ≠ 0 ∧ s.cutThrough
  let q := s.queueOf f
  if !s.portOpen out then s
  else if f.length > (if port ≠ 0 ∧ out ≠ 0 then 2048 else 1522) then s
  else if !f.fcsOk ∧ ¬cut then s
  else
    let fill := ((vget (s.egressPort out).queues q []).map (·.frame.length)).sum
    if fill + f.length > 32768 then (s.bump 0x2017 (q + 1)).raise 0x2003 0 (u8 out ++ u8 q)
    else
      (s.modEgress out fun p =>
        { p with queues := vmod p.queues q (· ++ [{ frame := f, port := port, tick := s.tick, asks := asks }]) }).transmit out

/-- Every egress port that sends nothing takes its next frame (R88). -/
def State.serveEgress (s : State) : State := if s.on domNET then forRange 3 (fun o s => s.transmit o) s else s

/-- Pdelay messages are not forwarded while the peer delay mechanism runs (R94). -/
def State.pdelayKept (s : State) (f : Frame) : Bool :=
  s.num 0x2040 1 == 1 && s.num 0x2120 2 == 2
    && (f.ptp == some .pdelayReq || f.ptp == some .pdelayResp || f.ptp == some .pdelayRespFollowUp)

/-- FRAME_FORWARD: a frame that arrives at a port is learned from and forwarded (R87 to R90, R94). -/
def execFrameForward (port : Fin 3) (frame : Frame) (asks : Option IpAsk) (s : State) : Host.Outcome State Fault Refusal :=
  let p := port.val
  if !s.on domNET ∨ !s.portOpen p then .next s
  else
    let s := s.serveEgress
    let s := if p = 0 then s else s.bump 0x2015 p
    let s := if p ≠ 0 ∧ !frame.fcsOk then s.bump 0x2016 p else s
    let s := if frame.fcsOk then s.learn frame.src p else s
    if s.pdelayKept frame then .next s
    else .next (forEach (s.egress frame p) (fun o s => s.forwardTo frame p asks o) s)

/-- ADDRESS_TABLE_AGEING: an address not seen for 300 s leaves the table (R87). -/
def execAddressTableAgeing (mac : BitVec 48) (s : State) : Host.Outcome State Fault Refusal :=
  match kvGet s.net.table mac.toNat with
  | some l =>
    if l.tick + 120000000000 ≤ s.tick then .next { s with net := { s.net with table := kvDel s.net.table mac.toNat } }
    else .next s
  | none => .next s

/-- ADDRESS_CHANGE_EFFECT: committed addresses and port modes take effect (R90). -/
def execAddressChangeEffect (s : State) : Host.Outcome State Fault Refusal :=
  if (s.adm 0x20).result = 1 then .next (((s.liveWhere fun idx _ => idx / 256 == 0x20).barsTakeUp 0x20).commitDone 0x20)
  else .next s

/-- The LinkStatus objects with CutThrough as both links give it (R108). -/
def State.setLink (s : State) (port v : Nat) : State :=
  let s := s.setNum 0x2012 port (v &&& 0xFDFF)
  let c := s.cutThrough
  forEach [1, 2] (fun p s => s.setNum 0x2012 p ((s.num 0x2012 p &&& 0xFDFF) ||| (if c ∧ s.linkUp p then 0x200 else 0))) s

/-- NETWORK_LINK_UP: the link of an external port comes up (R37, R108). -/
def execNetworkLinkUp (port : Fin 2) (speed : BitVec 2) (fullDuplex autoneg : Bool) (s : State) :
    Host.Outcome State Fault Refusal :=
  if s.on domNET && s.num 0x2010 (port.val + 1) != 0 then
    .next (s.setLink (port.val + 1) (0x8000 + speed.toNat * 0x1000 + b2n fullDuplex * 0x800 + b2n autoneg * 0x400))
  else .next s

/-- NETWORK_LINK_LOST: the link goes down; F2001h or F2002h (R112). -/
def execNetworkLinkLost (port : Fin 2) (s : State) : Host.Outcome State Fault Refusal :=
  let p := port.val + 1
  if s.on domNET && s.linkUp p then
    let before := s.num 0x2012 p
    .next ((s.setLink p 0).raise (0x2000 + p) 0 (u16 before))
  else .next s

/-- A write of MdioCommand starts a transaction (R91, R108). -/
def hookNetwork (idx sub : Nat) (v : Val) (s : State) : Option (Except Nat State) :=
  if idx = 0x2050 ∧ sub = 1 then
    let n := v.toNum
    let op := bits n 31 29
    if s.net.mdio.isSome then some (.error 0x20050000)
    else if op = 2 ∨ op = 3 ∨ op = 6 then some (.error 0x20060600)
    else
      let m : Mdio := { op := op, phy := bits n 28 24, reg := bits n 20 16, data := bits n 15 0 }
      some (.ok (({ s with net := { s.net with mdio := some m } } : State).emit (.mdio op m.phy m.reg m.data)))
  else none

/-- MDIO_TRANSACTION_DONE: the transaction ends; a read's data, FFFFh where no PHY drove the line (R108). -/
def execMdioTransactionDone (answer : Option (BitVec 16)) (s : State) : Host.Outcome State Fault Refusal :=
  match s.net.mdio with
  | some m =>
    let s := { s with net := { s.net with mdio := none } }
    if s.on domNET && (m.op == 1 || m.op == 7) then
      .next (s.setNum 0x2050 2 (match answer with
        | some d => d.toNat
        | none => 0xFFFF))
    else .next s
  | none => .next s

/-- The bits of a mask are ones from the top down. -/
def contiguousMask (m : Nat) : Bool := (List.range 33).any fun k => m == 2 ^ 32 - 2 ^ k

/-- The check between the objects of area 20h at a commit (R108). -/
def checkNetwork (get : Nat → Nat → Val) : Option (Nat × Nat) :=
  if (get 0x2010 1).toNum = 0 ∧ (get 0x2010 2).toNum = 0 then some (0x2010, 1)
  else if !contiguousMask (get 0x2020 3).toNum then some (0x2020, 3)
  else none

/-- An object whose committed value waits 1 ms: an address or a port mode (R90). -/
def addressObject (idx : Nat) : Bool := idx == 0x2010 || idx == 0x2020

/-- Management firmware sets up the PHY of each external port over MDIO, for the mode of PortMode at the address of PhyAddress
(R37, R91). -/
def State.phySetup (s : State) : State := forEach [1, 2] (fun p s => s.emit (.phySetup (s.num 0x2011 p) (s.num 0x2010 p))) s

end Sys2Proof.Machine
end

