-- ==== Sys2Proof/Machine/Jpeg.lean ====
section
/-! DEFINITION. The archive tile's code: a baseline interchange image with the Annex K tables (R315; assumption 70). -/

set_option Elab.async false

namespace Sys2Proof.Machine

/-- The Annex K quantisation tables, luminance and chrominance, row by row (R315). -/
def jpegLuma : List Nat :=
  [16, 11, 10, 16, 24, 40, 51, 61, 12, 12, 14, 19, 26, 58, 60, 55, 14, 13, 16, 24, 40, 57, 69, 56, 14, 17, 22, 29, 51, 87, 80, 62]
  ++ [18, 22, 37, 56, 68, 109, 103, 77, 24, 35, 55, 64, 81, 104, 113, 92, 49, 64, 78, 87, 103, 121, 120, 101, 72, 92, 95, 98, 112, 100, 103, 99]
def jpegChroma : List Nat :=
  [17, 18, 24, 47, 99, 99, 99, 99, 18, 21, 26, 66, 99, 99, 99, 99, 24, 26, 56, 99, 99, 99, 99, 99, 47, 66, 99, 99, 99, 99, 99, 99]
  ++ List.replicate 32 99

/-- The Annex K Huffman tables: the number of codes of each length from 1 to 16, and the values in code order. -/
structure Huff where
  counts : List Nat
  values : List Nat
  deriving DecidableEq, Repr

def huffDcLuma : Huff := { counts := [0, 1, 5, 1, 1, 1, 1, 1, 1, 0, 0, 0, 0, 0, 0, 0], values := List.range 12 }
def huffDcChroma : Huff := { counts := [0, 3, 1, 1, 1, 1, 1, 1, 1, 1, 1, 0, 0, 0, 0, 0], values := List.range 12 }

/-- AC values of run `r`, sizes `lo` to 10. -/
def huffRow (r lo : Nat) : List Nat := (List.range (11 - lo)).map fun i => r * 16 + lo + i

def huffAcLuma : Huff :=
  { counts := [0, 2, 1, 3, 3, 2, 4, 3, 5, 5, 4, 4, 0, 0, 1, 125],
    values :=
      [0x01, 0x02, 0x03, 0x00, 0x04, 0x11, 0x05, 0x12, 0x21, 0x31, 0x41, 0x06, 0x13, 0x51, 0x61, 0x07, 0x22, 0x71, 0x14, 0x32]
      ++ [0x81, 0x91, 0xA1, 0x08, 0x23, 0x42, 0xB1, 0xC1, 0x15, 0x52, 0xD1, 0xF0, 0x24, 0x33, 0x62, 0x72, 0x82]
      ++ huffRow 0 9 ++ huffRow 1 6 ++ huffRow 2 5 ++ huffRow 3 4 ++ huffRow 4 3 ++ huffRow 5 3 ++ huffRow 6 3 ++ huffRow 7 3
      ++ huffRow 8 3 ++ huffRow 9 2 ++ huffRow 10 2 ++ huffRow 11 2 ++ huffRow 12 2 ++ huffRow 13 2 ++ huffRow 14 1 ++ huffRow 15 1 }

def huffAcChroma : Huff :=
  { counts := [0, 2, 1, 2, 4, 4, 3, 4, 7, 5, 4, 4, 0, 1, 2, 119],
    values :=
      [0x00, 0x01, 0x02, 0x03, 0x11, 0x04, 0x05, 0x21, 0x31, 0x06, 0x12, 0x41, 0x51, 0x07, 0x61, 0x71, 0x13, 0x22, 0x32, 0x81]
      ++ [0x08, 0x14, 0x42, 0x91, 0xA1, 0xB1, 0xC1, 0x09, 0x23, 0x33, 0x52, 0xF0, 0x15, 0x62, 0x72, 0xD1, 0x0A, 0x16, 0x24, 0x34]
      ++ [0xE1, 0x25, 0xF1] ++ huffRow 1 7 ++ huffRow 2 6 ++ huffRow 3 5 ++ huffRow 4 3 ++ huffRow 5 3 ++ huffRow 6 3 ++ huffRow 7 3
      ++ huffRow 8 2 ++ huffRow 9 2 ++ huffRow 10 2 ++ huffRow 11 2 ++ huffRow 12 2 ++ huffRow 13 2 ++ huffRow 14 2 ++ huffRow 15 2 }

/-- The zigzag order of a block's places. -/
def zigzag : List Nat :=
  (List.range 15).flatMap fun d =>
    let up := ((List.range 8).filter fun r => r ≤ d && d - r < 8).map fun r => r * 8 + (d - r)
    if d % 2 = 0 then up.reverse else up

/-- A table entry scaled for a quality Q: floor((K s + 50) / 100) with s = 5000 / Q below 50, else 200 - 2Q, from 1 to 255 (R315). -/
def jpegScale (q k : Nat) : Nat :=
  clampNat 1 255 (if q < 50 then (k * 5000 + 50 * q) / (100 * q) else (k * (200 - 2 * q) + 50) / 100)

/-- The low `n` bits of a number, most significant first. -/
def bitsMsb (n v : Nat) : List Bool := (List.range n).map fun i => v.testBit (n - 1 - i)

/-- The codes of a table in order: length and code, counted up within a length and doubled to the next. -/
def Huff.codes (h : Huff) : List (Nat × Nat) :=
  ((((List.range 16).zip h.counts).foldl (fun (a : Nat × List (Nat × Nat)) e =>
    (2 * (a.1 + e.2), a.2 ++ (List.range e.2).map fun i => (e.1 + 1, a.1 + i))) (0, []))).2

/-- The code of a value. -/
def Huff.code (h : Huff) (v : Nat) : List Bool :=
  match (h.values.zip h.codes).find? fun e => e.1 == v with
  | some (_, n, c) => bitsMsb n c
  | none => []

/-- The size category of a coefficient, and its bits. -/
def jpegSize (v : Int) : Nat := if v = 0 then 0 else Nat.log2 v.natAbs + 1
def jpegBits (v : Int) : List Bool := bitsMsb (jpegSize v) (if 0 ≤ v then v.toNat else (v + 2 ^ jpegSize v - 1).toNat)

/-- The run-length codes of a block's coefficients after the first, `run` zeros before them. -/
def acCodes (h : Huff) (run : Nat) : List Int → List Bool
  | [] => if run = 0 then [] else h.code 0x00
  | v :: r =>
    if v = 0 then acCodes h (run + 1) r
    else (List.replicate (run / 16) (h.code 0xF0)).flatten ++ h.code (run % 16 * 16 + jpegSize v) ++ jpegBits v ++ acCodes h 0 r

/-- The quantised coefficients of the block of a plane at (x, y), in zigzag order. -/
def jpegBlock (table : List Nat) (q : Nat) (plane : Nat → Nat → Nat) (x y : Nat) : List Int :=
  let samples := (List.range 64).map fun i => (plane (x + i % 8) (y + i / 8) : Int) - 128
  zigzag.map fun k =>
    let c := Config.jpegCoefficient samples (jpegScale q (table.getD k 1)) k
    if k = 0 then clampInt (-1024) 1023 c else clampInt (-1023) 1023 c

/-- A block coded after its component's last DC value: the bits, and the new DC value. -/
def codeBlock (dc ac : Huff) (last : Int) (b : List Int) : List Bool × Int :=
  let v := b.headD 0
  (dc.code (jpegSize (v - last)) ++ jpegBits (v - last) ++ acCodes ac 0 (b.drop 1), v)

/-- Blocks of components coded in turn, with each component's last DC value. -/
def codeBlocks : List (Nat × List Int) → List Int → List Bool
  | [], _ => []
  | (k, b) :: r, last =>
    let (bits, v) := if k = 0 then codeBlock huffDcLuma huffAcLuma (last.getD 0 0) b
      else codeBlock huffDcChroma huffAcChroma (last.getD k 0) b
    bits ++ codeBlocks r (last.set k v)

/-- Bits as bytes, filled up with ones. -/
def packBits (l : List Bool) : Bytes :=
  (List.range (ceilDiv l.length 8)).map fun i =>
    BitVec.ofNat 8 ((List.range 8).foldl (fun a k => 2 * a + b2n (l.getD (8 * i + k) true)) 0)

/-- A marker segment with its length. -/
def segment (marker : Nat) (body : Bytes) : Bytes := u8 0xFF ++ u8 marker ++ beBytes 2 (body.length + 2) ++ body

/-- A Huffman table as its segment carries it. -/
def Huff.bytes (h : Huff) (k : Nat) : Bytes := u8 k ++ h.counts.flatMap u8 ++ h.values.flatMap u8

/-- Y, Cb and Cr of a pixel by ITU-T T.871 (R315). -/
def ycc (px : List Nat) (k : Nat) : Nat :=
  let v := fun i => (px.getD i 0 : Int)
  let near := fun (num : Int) (den : Nat) => Int.fdiv (2 * num + den) (2 * den)
  let x := match k with
    | 0 => near (299 * v 0 + 587 * v 1 + 114 * v 2) 1000
    | 1 => near (886 * v 2 - 299 * v 0 - 587 * v 1) 1772 + 128
    | _ => near (701 * v 0 - 587 * v 1 - 114 * v 2) 1402 + 128
  (clampInt 0 255 x).toNat

/-- A tile's image, from SOI to EOI: its pixels of 8-bit codes by line and column (R315). -/
def jpegTile (q ch : Nat) (px : List (List (List Nat))) : Bytes :=
  let h := px.length
  let w := (px.headD []).length
  let pixel := fun (x y : Nat) => (px.getD y []).getD x []
  let inside := fun (f : Nat → Nat → Nat) (x y : Nat) =>
    if x < w ∧ y < h then f x y else (Config.jpegEdge (f (min x (w - 1)) (min y (h - 1))) x y).toNat
  let colour := ch != 1
  let luma := inside fun x y => if colour then ycc (pixel x y) 0 else (pixel x y).getD 0 0
  let chroma := fun (k x y : Nat) =>
    let f := inside fun x y => ycc (pixel x y) k
    (Config.jpegChroma [f (2 * x) (2 * y), f (2 * x + 1) (2 * y), f (2 * x) (2 * y + 1), f (2 * x + 1) (2 * y + 1)]).toNat
  let n := if colour then 16 else 8
  let units := (List.range (ceilDiv h n)).flatMap fun r => (List.range (ceilDiv w n)).map fun c => (c, r)
  let blocks := units.flatMap fun (u : Nat × Nat) =>
    let y := fun (dx dy : Nat) => (0, jpegBlock jpegLuma q luma (n * u.1 + dx) (n * u.2 + dy))
    if colour then
      [y 0 0, y 8 0, y 0 8, y 8 8, (1, jpegBlock jpegChroma q (chroma 1) (8 * u.1) (8 * u.2)),
       (2, jpegBlock jpegChroma q (chroma 2) (8 * u.1) (8 * u.2))]
    else [y 0 0]
  let scan := (packBits (codeBlocks blocks [0, 0, 0])).flatMap fun b => if b = 0xFF then [b, 0] else [b]
  let table := fun (t : List Nat) => zigzag.flatMap fun k => u8 (jpegScale q (t.getD k 1))
  let dqt := segment 0xDB (u8 0 ++ table jpegLuma) ++ if colour then segment 0xDB (u8 1 ++ table jpegChroma) else []
  let frame := if colour then [3, 1, 0x22, 0, 2, 0x11, 1, 3, 0x11, 1] else [1, 1, 0x11, 0]
  let sof := segment 0xC0 (u8 8 ++ beBytes 2 h ++ beBytes 2 w ++ frame.flatMap u8)
  let dht := segment 0xC4 (huffDcLuma.bytes 0x00) ++ segment 0xC4 (huffAcLuma.bytes 0x10)
    ++ if colour then segment 0xC4 (huffDcChroma.bytes 0x01) ++ segment 0xC4 (huffAcChroma.bytes 0x11) else []
  let sos := segment 0xDA ((if colour then [3, 1, 0x00, 2, 0x11, 3, 0x11, 0, 63, 0] else [1, 1, 0x00, 0, 63, 0]).flatMap u8)
  u8 0xFF ++ u8 0xD8 ++ dqt ++ sof ++ dht ++ sos ++ scan ++ u8 0xFF ++ u8 0xD9

end Sys2Proof.Machine
end

