-- ==== Sys2Proof/Machine/Vis.lean ====
section
/-! DEFINITION. CAM and IPL: ports, triggers, frames, CCI, stitching, statistics and image products (R298 to R317). -/

set_option Elab.async false

namespace Sys2Proof.Machine

/-- The bits of FrameMarks (R320). -/
def markRestarted : Nat := 2 ^ 4
def markCheck : Nat := 2 ^ 5
def markPadded : Nat := 2 ^ 6
def markTruncated : Nat := 2 ^ 7
def markMissed : Nat := 2 ^ 8
def markStray : Nat := 2 ^ 9
def markShort : Nat := 2 ^ 10
def markLong : Nat := 2 ^ 11
def markNoStart : Nat := 2 ^ 12
def markNoEnd : Nat := 2 ^ 13
def markCci : Nat := 2 ^ 14
def markMixed : Nat := 2 ^ 15

/-- A camera port. -/
def State.cam (s : State) (p : Nat) : Cam := vget s.vis.ports p Cam.start

/-- A camera port changed. -/
def State.modCam (s : State) (p : Nat) (f : Cam → Cam) : State := { s with vis := { s.vis with ports := vmod s.vis.ports p f } }

/-- FrameLines. -/
def State.frameLines (s : State) : Nat := max 1 (s.num 0x2D10 2)

/-- A port that stitching uses: enabled and not bolted (R383). -/
def State.portUsed (s : State) (p : Nat) : Bool := (s.cam p).enabled && !s.boltedPort p

/-- The ports that stitching uses. -/
def State.usedPorts (s : State) : List Nat := (List.range 4).filter s.portUsed

/-- Channels of a port, by the settings that `get` reads (R299). -/
def portChannels (get : Nat → Nat → Nat) (p : Nat) : Nat := if get 0x2C14 (p + 1) = 0x24 ∨ get 0x2C15 (p + 1) = 1 then 3 else 1

/-- A sample as u12 (R299). -/
def sample12 (dataType v : Nat) : Nat :=
  if dataType = 0x2B then v * 4 + v / 256 else if dataType = 0x2C then v else v * 16 + v / 16

/-- The list cut into pieces of `n`, a last short piece left out. -/
def chunks {α : Type} (n : Nat) (l : List α) : List (List α) := (List.range (l.length / max 1 n)).map fun i => (l.drop (i * n)).take n

/-- Whole pixels of a received line, each with its channels: red first, mono alone (R299; assumption 41). -/
def pixelsOf (dataType channels : Nat) (samples : List Nat) : List (List Nat) :=
  let px := chunks channels (samples.map (sample12 dataType))
  if dataType = 0x24 then px.map List.reverse else px

/-- A mark of a port's frame that is not closed yet, which takes it when it closes (R306). -/
def State.markFrame (s : State) (p j m : Nat) : State :=
  s.modCam p fun c => if j < c.closedTo then c else { c with marks := kvSet c.marks 0 j ((kvGet c.marks j).getD 0 ||| m) }

/-- A mark on the open frame, if there is one. -/
def State.markOpen (s : State) (p m : Nat) : State :=
  s.modCam p fun c => { c with frame := c.frame.map fun f => { f with marks := f.marks ||| m } }

/-- A port's part of a stitched line decided (R311). -/
def State.setPart (s : State) (p i : Nat) (part : Part) (m : Nat) : State :=
  { s with vis := { s.vis with stitch := s.vis.stitch.map fun t =>
    if t.i = i then { t with parts := vmod t.parts p fun _ => part, marks := t.marks ||| m } else t } }

/-- The oldest pending record of a port expires (R305). -/
def State.expireOldest (s : State) (p : Nat) : State :=
  match (s.cam p).pending with
  | [] => s
  | r :: rest =>
    let j := r.i / s.frameLines
    let last := r.i % s.frameLines + 1 == s.frameLines
    let s := s.modCam p fun c => { c with pending := rest, expiredRun := c.expiredRun + 1, expiredStamp := r.trig.ns }
    let s := (s.bump 0x2C3D (p + 1)).markFrame p j markMissed
    let s := s.modCam p fun c => { c with frame := c.frame.map fun f => if f.j = some j ∧ last then { f with lastSeen := true } else f }
    s.setPart p r.i .fill markMissed

/-- The settings of a port as they are live (R301). -/
def State.camSet (s : State) (p : Nat) : CamSet :=
  { exposure := s.num 0x2C20 (p + 1), gain := s.num 0x2C21 (p + 1), red := s.num 0x2C22 (p + 1), green := s.num 0x2C23 (p + 1),
    blue := s.num 0x2C24 (p + 1) }

/-- The settings in batch order (R302). -/
def CamSet.list (c : CamSet) : List Nat := [c.exposure, c.gain, c.red, c.green, c.blue]

/-- The settings that differ from what was written last: number from 1, and value. -/
def changedSettings (now : CamSet) (was : Option CamSet) : List (Nat × Nat) :=
  (List.range 5).filterMap fun k =>
    let v := now.list.getD k 0
    if was.any fun w => w.list.getD k 0 == v then none else some (k + 1, v)

/-- The transactions of settings by a port's CciMap: setting, register index, data (R301, R302). -/
def cciWrites (map : Bytes) (changed : List (Nat × Nat)) : List (Nat × Nat × Bytes) :=
  changed.flatMap fun (c : Nat × Nat) => (List.range (map.length / 8)).filterMap fun e =>
    if leAt map (8 * e) 1 = c.1 then some (c.1, leAt map (8 * e + 2) 2, beBytes (leAt map (8 * e + 1) 1) (c.2 / 2 ^ leAt map (8 * e + 4) 1))
    else none

/-- CciMap is well formed (R301). -/
def cciMapOk (map : Bytes) : Bool :=
  map.length % 8 == 0 && map.length ≤ 64 && (List.range (map.length / 8)).all fun e =>
    let f := fun i n => leAt map (8 * e + i) n
    1 ≤ f 0 1 && f 0 1 ≤ 5 && 1 ≤ f 1 1 && f 1 1 ≤ 4 && f 4 1 ≤ 31 && f 5 3 == 0

/-- A batch starts with the settings that have changed, or waits for a host transaction (R302, R303). -/
def State.startBatch (s : State) (p : Nat) : State :=
  let c := s.cam p
  let now := s.camSet p
  if c.host.isSome then s.modCam p fun c => { c with batchDue := true }
  else
    let b : CciBatch := { writes := cciWrites (s.bytes 0x2C25 (p + 1)) (changedSettings now c.written), settings := now }
    s.modCam p fun c => { c with batch := some b, batchDue := false, written := some now }

/-- A CCI transaction of a port leaves (R301); in role STANDBY the CCI balls are released (R356). -/
def State.sendCci (s : State) (p : Nat) (read : Bool) (index : Nat) (data : Bytes) : State :=
  if s.mir.role = .standby then s else s.emit (.cci p (s.num 0x2C26 (p + 1)) (s.num 0x2C27 (p + 1)) read index data)

/-- CCI_BATCH_COMPLETE: the batch's transactions, up to a failed one and its repeat; SettingsGeneration rises (R302, R307). -/
def execCciBatchComplete (p : CamPort) (answer : CciAnswer) (s : State) : Host.Outcome State Fault Refusal :=
  match (s.cam p).batch with
  | none => .next s
  | some b =>
    let bad := answer.failed.bind fun k => (b.writes[k]?).map fun w => (k, w)
    let reached := match bad with
      | some (k, _) => k + 1
      | none => b.writes.length
    let twice := fun (k : Nat) => answer.repeated.contains k || answer.failed == some k
    let sent := ((List.range reached).zip b.writes).flatMap fun (e : Nat × Nat × Nat × Bytes) => if twice e.1 then [e.2, e.2] else [e.2]
    let s := forEach sent (fun w s => s.sendCci p false w.2.1 w.2.2) s
    let s := match bad with
      | some (_, w) => s.raise (0x2C20 + p.val) 0 (u16 w.2.1 ++ u8 w.1)
      | none => s
    let s := s.modCam p fun c =>
      let g := (c.gen + 1) % 2 ^ 16
      { c with batch := none, gen := g, cciFailed := bad.isSome, commit := if c.commit = 1 then 2 else c.commit,
               failedGens := if bad.isSome then (g :: c.failedGens).take 4 else c.failedGens }
    .next s

/-- CCI_HOST_TRANSACTION_DONE: the host transaction ends, and a batch that waited starts (R303). -/
def execCciHostTransactionDone (p : CamPort) (acked : Bool) (data : Bytes) (s : State) : Host.Outcome State Fault Refusal :=
  match (s.cam p).host with
  | none => .next s
  | some h =>
    if (s.cam p).batch.isSome then .next s
    else
      let s := s.sendCci p h.read h.index (if h.read then [] else h.data.take h.count)
      let got := if h.read && acked then data.take h.count else []
      let s := s.setObj 0x2C29 (p.val + 1) (.bytes (u8 0 ++ u8 (b2n acked) ++ u16 0 ++ padTo 4 got))
      let s := s.modCam p fun c => { c with host := none }
      .next (if (s.cam p).batchDue then s.startBatch p else s)

/-- A CciCommand (R303). -/
def State.cciCommand (s : State) (p : Nat) (v : Bytes) : Except Nat State :=
  if s.boltedPort p then .error (0x2C04F200 + p)
  else if (s.cam p).host.isSome then .error (0x2C050100 + p)
  else if v.length ≠ 8 ∨ 1 < leAt v 0 1 ∨ leAt v 1 1 = 0 ∨ 4 < leAt v 1 1 then .error 0x2C060600
  else
    let h : CciHost := { read := leAt v 0 1 == 1, count := leAt v 1 1, index := leAt v 2 2, data := slice v 4 4 }
    .ok ((s.modCam p fun c => { c with host := some h }).setObj 0x2C29 (p + 1) (.bytes (u8 1 ++ List.replicate 7 0)))

/-- A port that was enabled has written its settings as a first batch, and may open a frame (R308). -/
def State.firstBatchDone (s : State) (p : Nat) : Bool := (s.cam p).started || ((s.cam p).batch.isNone && !(s.cam p).batchDue)

/-- A port's commit of area 2Ch and its settings at a frame-start trigger (R307, R308). -/
def State.portFrameStart (s : State) (p j time : Nat) : State :=
  let ready := s.firstBatchDone p
  let s := if (s.cam p).commit = 2 then (s.takenUp 0x2C p (j % 2 ^ 32) time).modCam p fun c => { c with commit := 0 } else s
  let due := bit (s.adm 0x2C).pending p && (s.cam p).commit == 0
  let s := if due ∧ (s.cam p).batch.isNone then
      (s.liveWhere fun idx sub => idx / 256 == 0x2C && sub == p + 1).modCam p fun c => { c with commit := 1 } else s
  let changed := !(changedSettings (s.camSet p) (s.cam p).written).isEmpty
  let s := if (s.cam p).batch.isNone ∧ (changed ∨ ((s.cam p).commit = 1 ∧ due)) then s.startBatch p else s
  s.modCam p fun c => { c with frameGen := c.gen, started := ready }

/-- Objects of area 2Dh taken up at a frame-start trigger (R75, R307). -/
def State.takeUpWeb (s : State) : State :=
  if (s.adm 0x2D).result = 1 then ((s.liveWhere fun idx _ => idx / 256 == 0x2D).barsTakeUp 0x2D).commitDone 0x2D else s

/-- A port that is not enabled, or that a commit changes nothing of, takes the commit up at once; the frame number it then reports is
left open (R308). -/
def State.portAtOnce (s : State) (p : Nat) : State :=
  if bit (s.adm 0x2C).pending p then
    let s := s.liveWhere fun idx sub => idx / 256 == 0x2C && sub == p + 1
    let (f, s) := s.freeBelow (2 ^ 32)
    (s.takenUp 0x2C p f s.stamp48).modCam p fun c => { c with commit := 0 }
  else s

/-- Once no port is enabled no frame will start: what waits for one is taken up at once (R75, R308). -/
def State.visAtOnce (s : State) : State :=
  let s := forRange 4 (fun p s => if (s.cam p).enabled then s else s.portAtOnce p) s
  if (List.range 4).any fun p => (s.cam p).enabled then s else s.takeUpWeb

/-- The settings in force when auto-exposure computes: mean of a histogram's channel (R309). -/
def histMean (hist : List Nat) (k : Nat) : Option Nat :=
  let h := (hist.drop (64 * k)).take 64
  let total := h.foldl (· + ·) 0
  if total = 0 then none
  else some (roundHalfUp ((List.range 64).foldl (fun a n => a + (64 * n + 32) * h.getD n 0 * 16) 0) total)

/-- Auto-exposure at the close of an unmarked port frame (R309). -/
def State.autoExpose (s : State) (p : Nat) (hist : List Nat) : State :=
  let i := p + 1
  if s.num 0x2C2A i = 0 then s
  else match histMean hist (s.num 0x2C2C i) with
  | none | some 0 => s
  | some mean =>
    let e := s.num 0x2C20 i
    let step := s.num 0x2C2D i
    let lo := s.num 0x2C2F i
    let hi := s.num 0x2C30 i
    let e1 := clampNat (e * (65536 - step) / 65536) (ceilDiv (e * (65536 + step)) 65536) (roundHalfUp (e * s.num 0x2C2B i) mean)
    let e2 := clampNat lo hi e1
    let limit := e2 != e1
    let diff := if e2 < e then e - e2 else e2 - e
    let s := if limit && !(s.cam p).aeAtLimit then s.raise (0x2C28 + p) 0 (u32 e2 ++ u16 mean) else s
    let s := s.modCam p fun c => { c with aeAtLimit := limit }
    if diff * 65536 ≤ e * s.num 0x2C2E i then s else s.setNum 0x2C20 i e2

/-- The marks of a port's frames before `j`, which never opened, go to their web frames (R314). -/
def skippedMarks (web own : List (Nat × Nat)) (j : Nat) : List (Nat × Nat) :=
  (own.filter fun e => e.1 < j).foldl (fun l e => kvSet l 0 e.1 ((kvGet l e.1).getD 0 ||| e.2)) web

/-- An open port frame closes: its marks, and from IPL its histogram and auto-exposure (R306, R309, R314, R383). -/
def State.closePortFrame (s : State) (p extra : Nat) : State :=
  let c := s.cam p
  match c.frame with
  | none => s
  | some f =>
    let j := f.j.getD c.closedTo
    let gen := if f.j.isSome then f.gen else c.frameGen
    let marks := f.marks ||| extra ||| (kvGet c.marks j).getD 0 ||| (if c.failedGens.contains gen then markCci else 0)
    let s := { s with vis := { s.vis with marks := skippedMarks s.vis.marks c.marks j } }
    let s := s.modCam p fun c => { c with frame := none, closedTo := j + 1, marks := c.marks.filter fun e => j < e.1 }
    let s := if s.boltedIpl then s else s.setObj 0x2C32 (p + 1) (.bytes (u32 j ++ u16 gen ++ u16 marks ++ (List.range 192).flatMap fun n => u32 (f.hist.getD n 0)))
    let s := { s with vis := { s.vis with marks := kvSet s.vis.marks 0 j ((kvGet s.vis.marks j).getD 0 ||| marks) } }
    if marks = 0 then (if s.boltedIpl then s else s.autoExpose p f.hist) else s.raise (0x2C00 + p) 0 (u32 j ++ u16 marks)

/-- A port frame opens. -/
def State.openPortFrame (s : State) (p : Nat) (j : Option Nat) (gen marks : Nat) : State :=
  s.modCam p fun c => { c with frame := some { j := j, marks := marks, gen := gen, hist := List.replicate 192 0, lastSeen := false, discard := false } }

/-- A packet header is used: ECC, virtual channel (R298, R300). -/
def State.csiHeader (s : State) (p : Nat) (h : CsiHead) (wanted : Bool) : Bool × State :=
  match h.ecc with
  | .bad => (false, (s.bump 0x2C39 (p + 1)).markOpen p markCheck)
  | e =>
    let s := if e = .corrected then s.bump 0x2C38 (p + 1) else s
    if h.vc.toNat = s.num 0x2C13 (p + 1) ∧ wanted then (true, s) else (false, s.bump 0x2C3F (p + 1))

/-- CSI_FRAME_START: a port frame opens, once the first batch is written; one that is open closes first (R306, R308). -/
def execCsiFrameStart (p : CamPort) (head : CsiHead) (s : State) : Host.Outcome State Fault Refusal :=
  if !s.on domVIS ∨ !s.portUsed p then .next s
  else
    let (ok, s) := s.csiHeader p head true
    if !ok then .next s
    else
      let s := match (s.cam p).frame with
        | some f => s.closePortFrame p (markNoEnd ||| (if f.lastSeen then 0 else markShort))
        | none => s
      .next (if s.firstBatchDone p then s.openPortFrame p none 0 0 else s)

/-- CSI_FRAME_END: the open port frame closes (R306). -/
def execCsiFrameEnd (p : CamPort) (head : CsiHead) (s : State) : Host.Outcome State Fault Refusal :=
  if !s.on domVIS ∨ !s.portUsed p then .next s
  else
    let (ok, s) := s.csiHeader p head true
    if !ok then .next s
    else match (s.cam p).frame with
      | some f => .next (s.closePortFrame p (if f.lastSeen then 0 else markShort))
      | none => .next s

/-- How far a line's arrival lies from a record's time plus LineDelay, in ns (R305). -/
def pairDistance (ta delay : Nat) (r : PendTrig) : Int := toSigned 32 (ta + 2 ^ 32 - r.trig.ns % 2 ^ 32) - delay

/-- The record that a line takes: the nearest within LineTolerance, the older of two (R305). -/
def nearestRecord (ta delay tol : Nat) (l : List PendTrig) : Option PendTrig :=
  (l.filter fun r => (pairDistance ta delay r).natAbs ≤ tol).foldl (fun best r =>
    match best with
    | some b => if (pairDistance ta delay r).natAbs < (pairDistance ta delay b).natAbs then some r else some b
    | none => some r) none

/-- The pixels of a line on its port with padding, truncation and reversal, each with its validity (R299, R306). -/
def State.portPixels (s : State) (p : Nat) (line : CsiLine) : List (List (Nat × Bool)) × Nat :=
  let ch := portChannels s.num p
  let n := s.num 0x2C16 (p + 1)
  let got := pixelsOf line.dataType.toNat ch line.samples
  let padded := got.length < n || line.samples.length % ch != 0
  let marks := (if n < got.length then markTruncated else 0) ||| (if padded then markPadded else 0)
  let px := (got.take n).map (fun x => x.map fun v => (v, true))
    ++ List.replicate (n - got.length) (List.replicate ch (s.num 0x2C1B (p + 1), false))
  (if s.num 0x2C17 (p + 1) = 1 then px.reverse else px, marks)

/-- Pixels counted into a histogram of 64 bins per channel (R314). -/
def addHist (hist : List Nat) (px : List (List (Nat × Bool))) : List Nat :=
  px.foldl (fun h x => ((List.range x.length).zip x).foldl (fun h e =>
    if e.2.2 then h.modify (64 * e.1 + e.2.1 / 64) (· + 1) else h) h) hist

/-- A paired line of the frame it belongs to: its pixels, marks and histogram (R306, R311, R314). -/
def State.takeLine (s : State) (p j : Nat) (r : PendTrig) (line : CsiLine) : State :=
  let (px, m) := s.portPixels p line
  let s := if m &&& markTruncated ≠ 0 then s.bump 0x2C3C (p + 1) else s
  let s := if m &&& markPadded ≠ 0 then s.bump 0x2C3B (p + 1) else s
  let m := m ||| (if line.crcOk then 0 else markCheck)
  let last := r.i % s.frameLines + 1 == s.frameLines
  let s := s.modCam p fun c => { c with frame := c.frame.map fun f =>
    { f with j := some j, gen := r.gen, marks := f.marks ||| m, hist := addHist f.hist px, lastSeen := f.lastSeen || last } }
  s.setPart p r.i (.line px) m

/-- CSI_LINE: the line is checked and paired, or stray (R298 to R300, R305, R306). -/
def execCsiLine (p : CamPort) (line : CsiLine) (s : State) : Host.Outcome State Fault Refusal :=
  if !s.on domVIS ∨ !s.portUsed p then .next s
  else
    let (ok, s) := s.csiHeader p line.head (line.dataType.toNat == s.num 0x2C14 (p.val + 1))
    if !ok then .next s
    else
      let s := if line.crcOk then s else (s.bump 0x2C3A (p.val + 1)).markOpen p markCheck
      let ta := (s.stamp + 2 ^ 32 - line.age % 2 ^ 32) % 2 ^ 32
      match nearestRecord ta (s.num 0x2C1C (p.val + 1)) (s.num 0x2C1D (p.val + 1)) (s.cam p).pending with
      | none => .next ((s.bump 0x2C3E (p.val + 1)).markOpen p markStray)
      | some r =>
        let j := r.i / s.frameLines
        let s := s.modCam p fun c => { c with pending := c.pending.filter (·.i != r.i), expiredRun := 0, silent := false }
        let c := s.cam p
        let drop := fun (s : State) (m : Nat) => s.setPart p r.i .fill (m ||| if line.crcOk then 0 else markCheck)
        match c.frame with
        | some f =>
          if f.discard then .next (drop s markLong)
          else if f.j.any (· < j) then
            let s := s.modCam p fun c => { c with frame := c.frame.map fun f => { f with marks := f.marks ||| markLong, discard := true } }
            .next (drop s markLong)
          else if j < c.closedTo ∨ f.j.any (j < ·) then .next (drop s markShort)
          else .next (s.takeLine p j r line)
        | none =>
          if j < c.closedTo then .next (drop s markShort)
          else .next ((s.openPortFrame p (some j) r.gen markNoStart).takeLine p j r line)

/-- TRIGGER_RECORD_EXPIRY: the port's oldest record expires unpaired (R305). -/
def execTriggerRecordExpiry (p : CamPort) (s : State) : Host.Outcome State Fault Refusal := .next (s.expireOldest p)

/-- PORT_SILENT: after 64 consecutive expired records (R305). -/
def execPortSilent (p : CamPort) (s : State) : Host.Outcome State Fault Refusal :=
  let c := s.cam p
  .next (if c.enabled ∧ !c.silent ∧ 64 ≤ c.expiredRun then
      (s.modCam p fun c => { c with silent := true }).raise (0x2C10 + p.val) 0 (u32 c.expiredRun ++ u32 c.expiredStamp)
    else s)

/-- The print column and the zone of a web pixel, if it has one (R312). -/
def webZone (get : Nat → Nat → Nat) (c : Nat) : Option (Nat × Nat) :=
  let origin := toSigned 48 (get 0x2D10 4)
  let xc := Int.fdiv (2 * origin + ((2 * c + 1) * get 0x2D10 5 : Nat)) (2 * 65536)
  if xc < 0 then none else some (xc.toNat, xc.toNat / get 0x2D10 6)

/-- StatZoneCount of the web (R312). -/
def statZones (get : Nat → Nat → Nat) : Nat :=
  match webZone get (get 0x2D10 3 - 1) with
  | some (_, z) => z + 1
  | none => 0

/-- The web pixels of a stitched line, by column and channel (R310, R311). -/
def State.webPixels (s : State) (t : Stitch) : List (List (Nat × Bool)) :=
  let ports := (List.range 4).filter fun p => (s.cam p).enabled
  let ch := portChannels s.num (ports.headD 0)
  let fill := fun (p : Nat) => List.replicate ch (s.num 0x2C1B (p + 1), false)
  (List.range (s.num 0x2D10 3)).map fun c =>
    match ports.find? fun p => s.num 0x2C1A (p + 1) ≤ c && c < s.num 0x2C1A (p + 1) + s.num 0x2C19 (p + 1) with
    | none => fill 0
    | some p => match vget t.parts p .fill with
      | .line px => px.getD (s.num 0x2C18 (p + 1) + (c - s.num 0x2C1A (p + 1))) (fill p)
      | _ => fill p

/-- Zone sums of a line: S and N by zone and channel (R313). -/
def State.zoneSums (s : State) (px : List (List (Nat × Bool))) : List (List (Nat × Nat)) :=
  let ch := (px.headD []).length
  let zones := s.num 0x2D10 7
  let empty := List.replicate zones (List.replicate ch (0, 0))
  ((List.range px.length).zip px).foldl (fun acc e =>
    match webZone s.num e.1 with
    | some (_, z) => acc.modify z fun row => (row.zip e.2).map fun x => if x.2.2 then (x.1.1 + x.2.1, x.1.2 + 1) else x.1
    | none => acc) empty

/-- Every used port contributes valid pixels to the web line (R330). -/
def State.wholeLine (s : State) (t : Stitch) (px : List (List (Nat × Bool))) : Bool :=
  s.usedPorts.all fun p => vget t.parts p .fill != .fill
    && ((px.drop (s.num 0x2C1A (p + 1))).take (s.num 0x2C19 (p + 1))).any fun x => x.all (·.2)

/-- A stitched line completes: its pixels and sums go to colour hold and into its web frame (R311, R313). -/
def State.completeLine (s : State) (t : Stitch) : State :=
  let s := { s with vis := { s.vis with stitch := s.vis.stitch.filter (·.i != t.i) } }
  if s.boltedIpl ∨ s.usedPorts.isEmpty then s
  else
    let px := s.webPixels t
    let w : WebLine := { i := t.i, trig := t.trig, pixels := px, sums := s.zoneSums px, marks := t.marks, whole := s.wholeLine t px }
    let j := t.i / s.frameLines
    let fresh : WebFrame := { j := j, marks := 0, firstGens := t.gens, lines := [] }
    let frames := if s.vis.frames.any (·.j == j) then s.vis.frames else s.vis.frames ++ [fresh]
    let mixed := fun (f : WebFrame) => if t.gens = f.firstGens then 0 else markMixed
    let frames := frames.map fun f => if f.j = j then { f with lines := f.lines.takeWhile (·.i < w.i) ++ w :: f.lines.dropWhile (·.i < w.i), marks := f.marks ||| mixed f } else f
    { s with vis := { s.vis with frames := frames, toChe := s.vis.toChe ++ [.line w] } }

/-- Every used port has its part of the line. -/
def State.lineReady (s : State) (t : Stitch) : Bool := s.usedPorts.all fun p => vget t.parts p .fill != .awaited

/-- STITCHED_LINE_COMPLETE: the oldest stitched line of which every port has ended or expired its part (R311). -/
def execStitchedLineComplete (s : State) : Host.Outcome State Fault Refusal :=
  match s.vis.stitch.find? s.lineReady with
  | none => .next s
  | some t => .next (if s.on domVIS then s.completeLine t else s)

/-- The sRGB code of a linear u12 value: the transfer of IEC 61966-2-1, to the nearest of 256 (R315). -/
def srgb8 (v : Nat) : Nat :=
  let x : Rat := (v : Rat) / 4095
  if x ≤ 31308 / 10000000 then (255 * (1292 / 100) * x + 1 / 2).floor.toNat
  else
    ((List.range 256).filter fun n =>
      let y : Rat := ((2 * n : Nat) : Rat) / 510 - 1 / 510
      let r : Rat := (y + 55 / 1000) / (1055 / 1000)
      n == 0 || decide (r ≤ 0) || decide (r ^ 12 ≤ x ^ 5)).length - 1

/-- Pixel values by line and column, box-averaged by `d` (R315). -/
def boxAverage (d : Nat) (lines : List (List (List Nat))) : List (List (List Nat)) :=
  let cols := (lines.headD []).length
  let ch := ((lines.headD []).headD []).length
  (List.range (ceilDiv lines.length d)).map fun r =>
    let block := (lines.drop (r * d)).take d
    (List.range (ceilDiv cols d)).map fun q =>
      let px := block.flatMap fun l => (l.drop (q * d)).take d
      (List.range ch).map fun k => roundHalfUp (px.foldl (fun a x => a + x.getD k 0) 0) px.length

/-- Two 12-bit samples in three bytes (R315). -/
def pack12 : List Nat → Bytes
  | a :: b :: r => leBytes 3 (a + b * 4096) ++ pack12 r
  | [a] => leBytes 3 a
  | [] => []

/-- A product's header (R315). -/
def productHeader (stream format ch dec : Nat) (f : WebFrame) (marks width lines tiles tile : Nat) : Bytes :=
  match f.lines with
  | [] => []
  | w :: _ =>
      padTo 64 (u8 stream ++ u8 format ++ u8 ch ++ u8 dec ++ u32 f.j ++ u32 width ++ u32 lines ++ u48 (w.trig.era * 2 ^ 32 + w.trig.ns)
      ++ u16 marks ++ u48 w.trig.pos ++ u8 w.trig.channel ++ u8 0 ++ (List.range 4).flatMap (fun p => u16 (vget f.firstGens p 0))
      ++ u32 tiles ++ u16 tile)

/-- Archive tiles: index and bytes, left to right and then top to bottom (R315). -/
def tiles (quality tile ch : Nat) (img : List (List (List Nat))) : Nat × Bytes :=
  let cols := (img.headD []).length
  let codes := (List.range (ceilDiv img.length tile)).flatMap fun r => (List.range (ceilDiv cols tile)).map fun q =>
    let block := ((img.drop (r * tile)).take tile).map fun l => (l.drop (q * tile)).take tile
    jpegTile quality ch block
  let index := codes.foldl (fun (a : Nat × Bytes) c => (a.1 + c.length, a.2 ++ u32 a.1 ++ u32 c.length)) (8 * codes.length, [])
  (codes.length, index.2 ++ codes.flatMap id)

/-- The bytes of a frame's product in a stream (R315). -/
def State.product (s : State) (stream : Nat) (f : WebFrame) (marks : Nat) : Bytes :=
  let img := f.lines.map fun w => w.pixels.map fun x => x.map (·.1)
  let ch := ((img.headD []).headD []).length
  let code := fun (im : List (List (List Nat))) => im.map fun l => l.map fun x => x.map srgb8
  if stream = 2 then
    productHeader 2 3 ch 1 f marks (s.num 0x2D10 3) img.length 0 0 ++ img.flatMap fun l => pack12 (l.flatMap id)
  else
    let d := if stream = 0 then s.num 0x2D22 1 else s.num 0x2D23 1
    let im := code (boxAverage d img)
    let w := (im.headD []).length
    if stream = 0 then
      productHeader 0 (if ch = 1 then 0 else 1) ch d f marks w im.length 0 0
        ++ im.flatMap fun l => l.flatMap fun x => x.flatMap fun v => u8 v
    else
      let (n, body) := tiles (s.num 0x2D23 2) (s.num 0x2D23 3) ch im
      productHeader 1 2 ch d f marks w im.length n (s.num 0x2D23 3) ++ body

/-- A product leaves its ring: a sending of it is abandoned, an upload of it aborted (R316, R317). -/
def State.productLost (s : State) (stream : Nat) (p : Product) : State :=
  let s := match p.sent with
    | some n => if n < p.data.length then
        (s.bump 0x2D26 (stream + 1)).raise (0x2D10 + stream) 0 (u32 p.frame ++ u32 n) else s
    | none => s
  forEach (s.wilwa.transfers.filter fun t => t.idx == 0x2D30 && t.sub == 2 && !t.download && t.data == p.data)
    (fun t s => s.abortTransfer t (0x2D040200 + stream)) s

/-- RingOldest and RingNewest of a stream (R321). -/
def State.ringEnds (s : State) (stream : Nat) : State :=
  let r := vget s.vis.rings stream []
  let f := fun (x : Option Product) => (x.map (·.frame)).getD 0xFFFFFFFF
  (s.setNum 0x2D24 (stream + 1) (f r.head?)).setNum 0x2D25 (stream + 1) (f r.getLast?)

/-- The oldest products give way until a new one fits its ring (R316). -/
def State.ringRoom : Nat → Nat → Nat → State → State
  | 0, _, _, s => s
  | n + 1, stream, size, s =>
    match vget s.vis.rings stream [] with
    | [] => s
    | p :: rest =>
      let used := (p :: rest).foldl (fun a (x : Product) => a + x.data.length) 0
      if used + size ≤ s.num 0x2D21 (stream + 1) * 2 ^ 20 then s
      else
        let s := { s with vis := { s.vis with rings := vmod s.vis.rings stream fun _ => rest } }
        State.ringRoom n stream size (s.productLost stream p)

/-- The view scaler (stream 0) or the archive coder (stream 1) skips cycles by an armed step of the throttle ladder (R412). -/
def State.coderThrottled (s : State) (stream : Nat) : Bool :=
  let step := if stream = 0 then 2 else 1
  stream < 2 && step ≤ s.therm.level && bit (s.num 0x3120 1) (step - 1)

/-- A throttled coder may not have started a frame when the next one closes: a free value (R413; assumption 61). -/
def State.coderLate (s : State) (stream : Nat) : Bool × State :=
  if s.coderThrottled stream then
    let (v, s) := s.freeBelow 2
    (v == 1, s)
  else (false, s)

/-- A frame's product goes into its stream's ring, where the oldest give way; one larger than the whole ring overwrites itself
(R315, R316). -/
def State.keepProduct (s : State) (k : Nat) (f : WebFrame) (marks : Nat) : State :=
  let data := s.product k f marks
  let s := State.ringRoom ((vget s.vis.rings k []).length + 1) k data.length s
  let t := (f.lines.head?.map (·.trig))
  let p : Product :=
    { frame := f.j, data := data, sent := if bit (s.num 0x2D20 (k + 1)) 1 then some 0 else none,
      ports := maskOf (fun i => (s.cam i).enabled) 4, ns := (t.map (·.ns)).getD 0, era := (t.map (·.era)).getD 0 }
  if s.num 0x2D21 (k + 1) * 2 ^ 20 < data.length then (s.productLost k p).ringEnds k
  else ({ s with vis := { s.vis with rings := vmod s.vis.rings k fun r => r ++ [p] } } : State).ringEnds k

/-- The products of a closed web frame go into the rings that OutputRoute opens; what a throttled coder does not reach is not made
and counts in ArchiveFramesSkipped or ViewFramesSkipped (R315, R316, R413). -/
def State.makeProducts (s : State) (f : WebFrame) (marks : Nat) : State :=
  if s.inStates [.standby] ∨ f.lines.isEmpty then s
  else forRange 3 (fun k s =>
    if s.num 0x2D20 (k + 1) = 0 then s
    else
      let (late, s) := s.coderLate k
      if late then s.bump 0x3120 (if k = 1 then 7 else 8) else s.keepProduct k f marks) s

/-- ZoneAverages of a web frame (R314). -/
def zoneAverages (f : WebFrame) (marks zones ch : Nat) : Bytes :=
  let at_ := fun (w : WebLine) (z k : Nat) => (w.sums.getD z []).getD k (0, 0)
  u32 f.j ++ ((List.range 4).flatMap fun p => u16 (vget f.firstGens p 0)) ++ u16 marks
    ++ (List.range zones).flatMap fun z => (List.range ch).flatMap fun k =>
      let sn := f.lines.foldl (fun (a : Nat × Nat) w => (a.1 + (at_ w z k).1, a.2 + (at_ w z k).2)) (0, 0)
      u16 (if sn.2 = 0 then 0xFFFF else roundHalfUp (sn.1 * 16) sn.2)

/-- A web frame closes: marks, averages, the close notice, defects and products (R313 to R316, R319). -/
def State.webClose (s : State) (f : WebFrame) (extra : Nat) : State :=
  let left := s.usedPorts.foldl (fun m p => m ||| (kvGet (s.cam p).marks f.j).getD 0) 0
  let bolted := if (List.range 4).any fun p => (s.cam p).enabled && s.boltedPort p then markMissed else 0
  let marks := f.marks ||| (kvGet s.vis.marks f.j).getD 0 ||| left ||| bolted ||| extra
  let s := forEach s.usedPorts (fun p s => s.modCam p fun c =>
    { c with closedTo := max c.closedTo (f.j + 1), marks := c.marks.filter fun e => f.j < e.1 }) s
  let s := { s with vis := { s.vis with frames := s.vis.frames.filter (·.j != f.j), marks := kvDel s.vis.marks f.j } }
  let s := (s.setNum 0x2D10 9 f.j).setNum 0x2D10 10 marks
  let ch := (((f.lines.head?.map (·.pixels)).getD []).headD []).length
  let s := s.setObj 0x2D11 1 (.bytes (zoneAverages f marks (s.num 0x2D10 7) ch))
  let hold := (marks &&& s.num 0x2D10 8) != 0
  let s := if hold then s.raise 0x2D00 0 (u32 f.j ++ u16 marks) else s
  let notice : CheIn := .close { j := f.j, marks := marks, hold := hold }
  let s : State := { s with vis := { s.vis with toChe := s.vis.toChe ++ [notice] } }
  let found := s.vis.frameDefects
  let s := if found ≠ 0 then s.raise 0x2D20 0 (u32 f.j ++ u32 found) else s
  let s := { s with vis := { s.vis with frameDefects := 0 } }
  s.makeProducts f marks

/-- The oldest web frame is done: its last line is stitched or passed by, and no port has a frame open for it. -/
def State.frameDone (s : State) (f : WebFrame) : Bool :=
  let mine := fun (i : Nat) => i / s.frameLines == f.j
  !(s.vis.stitch.any fun t => mine t.i)
    && ((f.lines.any fun w => w.i % s.frameLines + 1 == s.frameLines) || s.vis.lastI.any fun i => f.j < i / s.frameLines)
    && s.usedPorts.all fun p => !((s.cam p).frame.any fun o => o.j.getD (s.cam p).closedTo == f.j)

/-- WEB_FRAME_CLOSE: the oldest web frame, once it is done (R313, R314). -/
def execWebFrameClose (s : State) : Host.Outcome State Fault Refusal :=
  match s.vis.frames with
  | [] => .next s
  | f :: _ => .next (if s.on domVIS ∧ !s.boltedIpl ∧ s.frameDone f then s.webClose f 0 else s)

/-- The trigger numbering starts again: every frame open closes as at an early end, with Restarted (R304). -/
def State.restartTriggers (s : State) : State :=
  let s := forRange 4 (fun p s =>
    let s := match (s.cam p).frame with
      | some f => s.closePortFrame p (markRestarted ||| (if f.lastSeen then 0 else markShort))
      | none => s
    let s := forEach (s.cam p).pending (fun r s => s.setPart p r.i .fill markShort) s
    s.modCam p fun c => { c with pending := [], closedTo := 0, marks := [] }) s
  let s := forEach s.vis.stitch (fun t s => if s.lineReady t then s.completeLine t else s) s
  let s := if s.boltedIpl then s else forEach s.vis.frames (fun f s => s.webClose f markRestarted) s
  let s := forRange 4 (fun p s => s.modCam p fun c => { c with closedTo := 0 }) s
  { s with vis := { s.vis with stitch := [], frames := [], marks := [], trigs := [], lastI := none } }

/-- A compare unit is enabled again: with the web trigger's unit the numbering of triggers and frames starts again (R304). -/
def State.unitRestarts (s : State) (u : Nat) : State :=
  if s.on domVIS ∧ s.num 0x2644 (u + 1) = 17 + s.num 0x2D10 1 then s.restartTriggers else s

/-- TRIGGER_RECORD: a record of the web trigger is numbered, begins a stitched line on every port that runs, and a frame and its
settings at a frame-start trigger (R304, R305, R307). -/
def execTriggerRecord (s : State) : Host.Outcome State Fault Refusal :=
  match s.vis.trigs with
  | [] => .next s
  | t :: rest =>
    let s := { s with vis := { s.vis with trigs := rest } }
    if !s.on domVIS ∨ s.num 0x2644 (t.unit + 1) ≠ 17 + s.num 0x2D10 1 then .next s
    else
      let s := s.trackPoint t
      if s.usedPorts.isEmpty then .next s else
      let i := t.count - 1
      let s := if s.vis.lastI.any fun l => i ≤ l then { s.restartTriggers with vis := { s.restartTriggers.vis with trigs := rest } } else s
      let s := { s with vis := { s.vis with lastI := some i } }
      let j := i / s.frameLines
      let s := if i % s.frameLines = 0 then
          forEach s.usedPorts (fun p s => s.portFrameStart p j (t.era * 2 ^ 32 + t.ns)) s.takeUpWeb
        else s
      let running := s.usedPorts.filter fun p => (s.cam p).started
      let parts : Vector Part 4 := Vector.ofFn fun p => if running.contains p.val then .awaited else .fill
      let gens : Vector Nat 4 := Vector.ofFn fun p => (s.cam p.val).frameGen
      let line : Stitch := { i := i, trig := t, parts := parts, marks := 0, gens := gens }
      let s : State := if running.isEmpty then s else { s with vis := { s.vis with stitch := s.vis.stitch ++ [line] } }
      .next (forEach running (fun p s =>
        let s := if 32 ≤ (s.cam p).pending.length then s.expireOldest p else s
        s.modCam p fun c => { c with pending := c.pending ++ [{ i := i, trig := t, gen := c.frameGen }] }) s)

/-- PRODUCT_RECORD_SEND: the next piece of the oldest product of a stream that is being sent (R134, R316). -/
def execProductRecordSend (stream : Fin 3) (s : State) : Host.Outcome State Fault Refusal :=
  if !s.rin.linkUp then .next s
  else match (vget s.vis.rings stream []).find? fun p => p.sent.any (· < p.data.length) with
  | none => .next s
  | some p =>
    let off := p.sent.getD 0
    let piece := slice p.data off 65536
    let body := piece ++ u32 (crc32c piece)
    let h := u8 0x82 ++ u8 0 ++ u8 0 ++ u8 stream.val ++ u32 p.frame ++ u32 off ++ u32 body.length ++ u48 (p.era * 2 ^ 32 + p.ns)
      ++ u16 p.ports ++ u32 p.data.length
    let s := s.emit (.raster (padTo (32 + ceilDiv body.length 32 * 32) (h ++ u32 (crc32c h) ++ body)))
    let mark := fun (q : Product) => if q.frame = p.frame then { q with sent := some (off + piece.length) } else q
    .next { s with vis := { s.vis with rings := vmod s.vis.rings stream fun r => r.map mark } }

/-- The product that ProductSelect names (R317). -/
def State.selectedProduct (s : State) : Except Nat Bytes :=
  let v := s.num 0x2D30 1
  let stream := bits v 39 32
  match (vget s.vis.rings stream []).find? fun p => p.frame == v % 2 ^ 32 with
  | some p => .ok p.data
  | none => .error (0x2D040100 + stream)

/-- PortEnable (R310, R312). -/
def State.portEnable (s : State) (p : Nat) (on : Bool) : Except Nat State :=
  let i := p + 1
  let c := s.cam p
  if !on then
    let s := s.setNum 0x2C10 i 0
    let s := s.modCam p fun c => { Cam.start with gen := c.gen, host := c.host, cciFailed := c.cciFailed }
    let s : State := { s with vis := { s.vis with stitch := s.vis.stitch.map fun t => { t with parts := vmod t.parts p fun _ => .fill } } }
    .ok s.visAtOnce
  else if s.boltedPort p then .error (0x2C04F200 + p)
  else if c.enabled then .ok s
  else
    let n := fun (idx : Nat) => s.num idx i
    let others := (List.range 4).filter fun q => q != p && (s.cam q).enabled
    let overlap := others.any fun q => n 0x2C1A < s.num 0x2C1A (q + 1) + s.num 0x2C19 (q + 1) && s.num 0x2C1A (q + 1) < n 0x2C1A + n 0x2C19
    let channels := others.any fun q => portChannels s.num q != portChannels s.num p
    if n 0x2C16 < n 0x2C18 + n 0x2C19 || overlap || s.num 0x2D10 3 < n 0x2C1A + n 0x2C19 || channels || n 0x2C1C ≤ n 0x2C1D
        || !cciMapOk (s.bytes 0x2C25 i) then .error (0x2C040200 + p)
    else if 512 < statZones s.num then .error (0x2C040300 + p)
    else
      let s := (s.setNum 0x2C10 i 1).setNum 0x2D10 7 (statZones s.num)
      let next := match s.vis.lastI with
        | some l => if others.isEmpty then 0 else l / s.frameLines + 1
        | none => 0
      let s := s.modCam p fun c => { Cam.start with enabled := true, gen := c.gen, frameGen := c.gen, closedTo := next, host := c.host, cciFailed := c.cciFailed }
      .ok (s.startBatch p)

/-- A block reset of a port: its records expire, its open frame's marks stay with its web frame, its settings go to the camera again, and
it reopens at the next frame-start trigger (R305, R314, R386). -/
def State.camReset (s : State) (p : Nat) : State :=
  let s := (s.cam p).pending.foldl (fun (s : State) _ => s.expireOldest p) s
  let s := match (s.cam p).frame with
    | some f => s.markFrame p (f.j.getD (s.cam p).closedTo) f.marks
    | none => s
  let next := ((s.vis.lastI.map fun l => l / s.frameLines + 1)).getD 0
  let s : State := { s with vis := { s.vis with marks := skippedMarks s.vis.marks (s.cam p).marks (2 ^ 32) } }
  let s := s.modCam p fun c => { Cam.start with enabled := c.enabled, closedTo := next }
  if (s.cam p).enabled then s.startBatch p else s

/-- Stopped objects of area 2Ch run while their port is enabled; those of area 2Dh while any is, RingSize outside STANDBY (R320). -/
def visRuns (s : State) (idx sub : Nat) : Bool :=
  if idx / 256 = 0x2C then (s.cam (sub - 1)).enabled
  else if idx = 0x2D21 then s.pwr.dev != .standby
  else (List.range 4).any fun p => (s.cam p).enabled

/-- Writes of CAM objects with an effect of their own (R303, R309, R310). -/
def hookVis (idx sub : Nat) (v : Val) (s : State) : Option (Except Nat State) :=
  let p := sub - 1
  match idx with
  | 0x2C10 => some (s.portEnable p (v.toNum == 1))
  | 0x2C20 => if s.num 0x2C2A sub = 1 then some (.error (0x2C030100 + p)) else none
  | 0x2C28 => some (s.cciCommand p v.toBytes)
  | 0x2C2A => some (.ok ((s.setObj idx sub v).modCam p fun c => if v.toNum = 1 then c else { c with aeAtLimit := false }))
  | 0x2C2F => some (if v.toNum ≤ s.num 0x2C30 sub then .ok (s.setObj idx sub v) else .error 0x2C060600)
  | 0x2C30 => some (if s.num 0x2C2F sub ≤ v.toNum then .ok (s.setObj idx sub v) else .error 0x2C060600)
  | _ => none

/-- PortStatus as it reads (R320). -/
def State.portStatus (s : State) (p : Nat) : Nat :=
  let c := s.cam p
  let st := if !c.enabled then 0 else if c.silent then 3 else if c.started then 2 else 1
  st * 2 ^ 28 + b2n c.frame.isSome * 2 ^ 27 + b2n (c.batch.isSome || c.host.isSome) * 2 ^ 26 + b2n c.cciFailed * 2 ^ 25
    + b2n c.aeAtLimit * 2 ^ 24 + c.pending.length * 2 ^ 16 + c.gen

end Sys2Proof.Machine
end

