-- ==== Sys2Proof/Machine/Che.lean ====
section
/-! DEFINITION. CHE: pairing, windows, the Tumbler solve, references and the servo; the vision comparator (R318, R319, R324 to
R344). -/

set_option Elab.async false

namespace Sys2Proof.Machine

/-- HoldRun is set and CHE can work (R326, R383). -/
def State.holdRuns (s : State) : Bool := s.on domCTL && s.num 0x2820 1 == 1 && !s.boltedChe

/-- The bars of the current job. -/
def State.jobBars (s : State) : List Nat := barsOf s.fsq.jobMask

/-- Colours that take part in a zone (R324). -/
def State.coloursIn (s : State) (z : Nat) : List Nat := s.jobBars.filter fun b => decide (z < s.num 0x2713 (b + 1))

/-- StatZoneWidth differs from a job bar's ZoneWidth; a job bar has no CameraDistance (R325). -/
def State.zoneMismatch (s : State) : Bool := s.jobBars.any fun b => s.num 0x2D10 6 != s.num 0x2712 (b + 1)
/-- A job bar's CameraDistance is 0. -/
def State.distanceMissing (s : State) : Bool := s.jobBars.any fun b => s.num 0x2811 (b + 1) == 0

/-- A coverage record as CHE reads it (R246). -/
structure CovRec where
  first : Nat
  lines : Nat
  flags : Nat
  ns : Nat
  bytes : Bytes
  deriving DecidableEq, Repr

/-- Coverage record `k` of a bar read from its ring (R246, R247). -/
def State.covRec (s : State) (b k : Nat) : CovRec :=
  let a := s.num 0x2963 (b + 1) + k % max 1 (s.num 0x2960 1) * 1088
  let r := s.memBytes a 1088
  { first := leAt r 0 4, lines := leAt r 14 1, flags := leAt r 13 1, ns := leAt r 16 4, bytes := r }

/-- u_c of a zone in a record (R328). -/
def CovRec.cover (r : CovRec) (z : Nat) : Nat := leAt r.bytes (32 + 2 * z) 2

/-- The track entries around a stamp, and where the stamp lies: before the track, on it, after it (R327). -/
def trackAround (ns : Nat) : List TrackPt → Ordering × Option (TrackPt × TrackPt)
  | a :: b :: r =>
    if toSigned 32 (ns + 2 ^ 32 - a.ns) < 0 then (.lt, none)
    else if toSigned 32 (ns + 2 ^ 32 - b.ns) < 0 then (.eq, some (a, b))
    else match trackAround ns (b :: r) with
      | (.lt, _) => (.gt, none)
      | x => x
  | _ => (.gt, none)

/-- How far one s32.16 position lies beyond another, modulo 2^48. -/
def posDiff (a c : Int) : Int := toSigned 48 ((a - c) % 2 ^ 48).toNat

/-- The web position of a record in s32.16 camera counts, or on which side of the track it lies (R327). -/
def State.place (s : State) (b : Nat) (r : CovRec) : Ordering × Int :=
  match trackAround r.ns s.che.track with
  | (_, some (p, q)) =>
    let span := (toSigned 32 (q.ns + 2 ^ 32 - p.ns)).toNat
    let step := (toSigned 48 (q.pos + 2 ^ 48 - p.pos))
    let f := toSigned 32 (r.ns + 2 ^ 32 - p.ns)
    (.eq, (p.pos : Int) + roundHalfUpInt (step * f) span + (s.num 0x2811 (b + 1) * 65536 : Nat))
  | (o, none) => (o, 0)

/-- What the pairing of a stitched line with a bar comes to (R328, R329). -/
inductive Paired where
  | yes (r : CovRec) (line : Nat)
  | no (missed overrun : Bool)
  deriving DecidableEq, Repr

/-- The coverage ring of a bar lies in channels that serve: CHE's reads of it do not wait (R142, R155). -/
def State.covServes (s : State) (b : Nat) : Bool :=
  let n := min (s.num 0x2961 (b + 1)) (s.num 0x2960 1)
  n == 0 || s.memServes (s.num 0x2963 (b + 1)) (n * 1088)

/-- CHE reads a record and the next one of a bar from DRAM as master 6 (R142, R328). -/
def State.readCov (s : State) (b : Nat) (r : CovRec) : State :=
  let n := min (s.num 0x2961 (b + 1)) (s.num 0x2960 1)
  match ((List.range n).map fun i => s.num 0x2961 (b + 1) - n + i).find? fun k => (s.covRec b k).first == r.first with
  | some k => forRange 2 (fun i s => s.memAccess (s.num 0x2963 (b + 1) + (k + i) % max 1 (s.num 0x2960 1) * 1088) 1088 6) s
  | none => s

/-- A stitched line at position `p` paired with a bar (R327 to R329). -/
def State.pairBar (s : State) (b : Nat) (p : Int) : Paired :=
  let w := s.num 0x2961 (b + 1)
  let n := min w (s.num 0x2960 1)
  if n = 0 then .no false false
  else
    let recs := (List.range n).map fun i => s.covRec b (w - n + i)
    let at_ := recs.map fun r => (r, s.place b r)
    let pairs := at_.zip (at_.drop 1)
    match pairs.find? fun e => e.1.2.1 == .eq && e.2.2.1 == .eq && decide (0 ≤ posDiff p e.1.2.2) && decide (0 < posDiff e.2.2.2 p) with
    | some ((r, _, a), (q, _, c)) =>
      if q.first = r.first + r.lines then .yes r (r.first + (Int.fdiv (posDiff p a * r.lines) (posDiff c a)).toNat) else .no false false
    | none =>
      let placed := at_.filter fun e => e.2.1 == .eq
      match placed.head? with
      | none => .no (!at_.isEmpty) false
      | some h =>
        if posDiff p h.2.2 < 0 then
          (if at_.any fun e => e.2.1 == .lt then .no true false else .no false (decide (n < w)))
        else .no (at_.any fun e => e.2.1 == .gt) false

/-- An overwritten record counted, with its episode (R329). -/
def State.covOverrun (s : State) (b : Nat) : State :=
  let s := s.bump 0x2832 7
  let s := if (s.cheBar b).overrun then s
    else s.raise (0x2808 + b) 0 (u32 (s.cheBar b).expect ++ u32 (s.num 0x2961 (b + 1)))
  s.modChe b fun x => { x with overrun := true, inTime := 0 }

/-- The upper triangle of an 8 by 8 matrix, row by row. -/
def triangle : List (Nat × Nat) := (List.range 8).flatMap fun c => ((List.range 8).filter fun d => c ≤ d).map fun d => (c, d)

/-- An observation of a zone added: u by colour, m by channel (R330). -/
def ZoneAcc.observe (a : ZoneAcc) (u m : List Nat) : ZoneAcc :=
  let add := fun (x y : List Nat) => (List.range y.length).map fun i => x.getD i 0 + y.getD i 0
  let addm := fun (x y : List (List Nat)) => (List.range y.length).map fun i => add (x.getD i []) (y.getD i [])
  { n := a.n + 1, su := add a.su u, suu := addm a.suu (u.map fun x => u.map fun y => x * y), sm := add a.sm m,
    smu := addm a.smu (m.map fun x => u.map fun y => x * y), smm := add a.smm (m.map fun x => x * x) }

/-- Two accumulators together (R331). -/
def ZoneAcc.join (a b : ZoneAcc) : ZoneAcc :=
  let add := fun (x y : List Nat) => (List.range (max x.length y.length)).map fun i => x.getD i 0 + y.getD i 0
  let addm := fun (x y : List (List Nat)) => (List.range (max x.length y.length)).map fun i => add (x.getD i []) (y.getD i [])
  { n := a.n + b.n, su := add a.su b.su, suu := addm a.suu b.suu, sm := add a.sm b.sm, smu := addm a.smu b.smu, smm := add a.smm b.smm }

/-- Two tables of accumulators together. -/
def joinAcc (a b : List (Nat × ZoneAcc)) : List (Nat × ZoneAcc) :=
  b.foldl (fun t e => kvPut t e.1 (((kvGet t e.1).getD ZoneAcc.zero).join e.2)) a

/-- The observations of a paired line, in the window that is open (R330, R331). -/
def State.observeLine (s : State) (w : WebLine) (recs : List (Nat × CovRec)) : State :=
  if !w.whole ∨ s.che.p0.isNone then s
  else
    let least := s.num 0x2820 4
    let acc := ((List.range w.sums.length).zip w.sums).foldl (fun t e =>
      let z := e.1
      if e.2.isEmpty || e.2.any (fun sn => sn.2 < least || sn.2 == 0) then t
      else
        let m := e.2.map fun sn => roundHalfUp (sn.1 * 16) sn.2
        let u := (List.range 8).map fun c => ((recs.find? fun r => r.1 == c).map fun r => r.2.cover z).getD 0
        kvPut t z (((kvGet t z).getD ZoneAcc.zero).observe u m)) s.che.frameAcc
    { s with che := { s.che with frameAcc := acc } }

/-- The Reference of a bar cleared (R332, R336, R355). -/
def State.clearRef (s : State) (b : Nat) : State :=
  if (s.bytes 0x2819 (b + 1)).isEmpty then s else ((s.setObj 0x2819 (b + 1) (.bytes [])).holdLog b 4 (s.noLoad 0) 0xFFFFFFFF).sendRef b

/-- A job start as the camera reaches it (R332). -/
def State.jobStartSeen (s : State) (pos : Nat) : State :=
  let s := s.discardWindow 1
  let s := { s with che := { s.che with p0 := some pos, framesIn := 0, frameAcc := [], winAcc := [], held := [] } }
  let s := forRange 8 (fun b s => s.modChe b fun x => { x with integ := [], jobStart := none }) s
  if s.num 0x2820 10 = 0 ∧ s.mir.role ≠ .standby then forRange 8 (fun b s => s.clearRef b) s else s

/-- A run of defect pixels of a line: columns, pixels, the worst channel and its deviation (R319). -/
structure Run where
  left : Nat
  right : Nat
  count : Nat
  worst : Nat
  dev : Nat
  deriving DecidableEq, Repr

/-- Defect pixels of a line, by column, joined into runs (R319). -/
def runsOf (gap : Nat) : List (Nat × Nat × Nat) → List Run → List Run
  | [], rs => rs
  | (c, k, d) :: t, rs =>
    match rs.getLast? with
    | some r =>
      if c ≤ r.right + gap + 1 then
        runsOf gap t (rs.dropLast ++ [{ r with right := c, count := r.count + 1, worst := if r.dev < d then k else r.worst, dev := max r.dev d }])
      else runsOf gap t (rs ++ [{ left := c, right := c, count := 1, worst := k, dev := d }])
    | none => runsOf gap t [{ left := c, right := c, count := 1, worst := k, dev := d }]

/-- A box grown by a run. -/
def Box.grow (x : Box) (r : Run) (i : Nat) : Box :=
  { x with last := i, left := min x.left r.left, right := max x.right r.right, count := x.count + r.count,
           worst := if x.worstDev < r.dev then r.worst else x.worst, worstDev := max x.worstDev r.dev }

/-- Two boxes as one. -/
def Box.merge (x y : Box) : Box :=
  { first := min x.first y.first, last := max x.last y.last, left := min x.left y.left, right := max x.right y.right,
    count := x.count + y.count, worst := if x.worstDev < y.worstDev then y.worst else x.worst, worstDev := max x.worstDev y.worstDev,
    trig := if y.first < x.first then y.trig else x.trig }

/-- How far a run lies from a box in columns. -/
def Box.gap (x : Box) (r : Run) : Nat := if r.right < x.left then x.left - r.right else if x.right < r.left then r.left - x.right else 0

/-- A run of line `i` put into the boxes: `old` gained a run on the line before, `new` began on this line; a run past the 64th box
goes to the nearest (R319). -/
def placeRun (gap i : Nat) (t : Trig) (st : List Box × List Box × Nat) (r : Run) : List Box × List Box × Nat :=
  let (old, new, spill) := st
  let hit := old.filter fun x => x.left ≤ r.right + gap && r.left ≤ x.right + gap
  let rest := old.filter fun x => !(x.left ≤ r.right + gap && r.left ≤ x.right + gap)
  match hit with
  | h :: more => (rest ++ [(more.foldl Box.merge h).grow r i], new, spill)
  | [] =>
    if old.length + new.length < 64 then
      (old, new ++ [{ first := i, last := i, left := r.left, right := r.right, count := r.count, worst := r.worst, worstDev := r.dev, trig := t }], spill)
    else
      let near := (old ++ new).foldl (fun m x => min m (x.gap r)) (2 ^ 20)
      match old.findIdx? (fun x => x.gap r == near), new.findIdx? (fun x => x.gap r == near) with
      | some k, _ => (old.modify k (·.grow r i), new, spill + 1)
      | none, some k => (old, new.modify k (·.grow r i), spill + 1)
      | none, none => (old, new, spill + 1)

/-- The bytes of a defect record (R319). -/
def Box.toBytes (x : Box) (frameLines : Nat) : Bytes :=
  u32 (x.first / frameLines) ++ u32 x.first ++ u16 (min 0xFFFF (x.last + 1 - x.first)) ++ u16 x.left ++ u16 x.right ++ u16 0
    ++ u32 x.count ++ u48 x.trig.pos ++ u8 x.trig.channel ++ u8 x.worst ++ u32 x.trig.ns

/-- The boxes of a line: its runs placed, boxes that gained none closed (R319). -/
def State.boxLine (s : State) (i : Nat) (t : Trig) (runs : List Run) : State :=
  let (old, new, spill) := runs.foldl (placeRun (s.num 0x2D40 3) i t) (s.vis.boxes, [], 0)
  let done := old.filter fun (x : Box) => x.last != i && s.num 0x2D40 4 ≤ x.count
  let s := s.addNum 0x2D41 3 spill
  let log := s.vis.defects ++ done.map fun x => x.toBytes s.frameLines
  let s := { s with vis := { s.vis with boxes := (old.filter fun (x : Box) => x.last == i) ++ new, defects := log.drop (log.length - 1024),
                                        frameDefects := s.vis.frameDefects + done.length } }
  s.addNum 0x2D41 2 done.length

/-- The slot and the print line of it that line `n` of a bar printed: of the present job, or of the one that the bar left in a change in
progress; none where no slot holds it (R131, R318). -/
def State.printedFrom (s : State) (b n : Nat) : Option (Nat × Nat) :=
  let x := s.bar b
  let next := (vget s.lcg b Lcg.start).n
  if (s.cheBar b).startN ≤ n ∧ x.slot.isSome then
    (if x.p + n < next then none else x.slot.map fun k => (k, x.p + n - next))
  else match (s.cheBar b).old with
    | some o => if o.start ≤ n ∧ o.n ≤ o.p + n ∧ n < o.n ∧ (s.slot o.slot).st ≠ .empty then some (o.slot, o.p + n - o.n) else none
    | none => none

/-- The contone values of the bars' design lines under a stitched line, by the pairing: bar, slot, pixels (R318). -/
def State.designUnder (s : State) (lines : List (Nat × Nat)) : Option (List (Nat × Nat × Bytes)) :=
  lines.mapM fun e =>
    match s.printedFrom e.1 e.2 with
    | some (k, p) =>
      if s.slotStream k then none
      else
        let a := s.lineAddr k e.1 (s.designLine k p % max 1 (s.slotLines k))
        some (e.1, k, s.memBytes a (s.slotWidth k))
    | none => none

/-- The design lines under a stitched line lie in channels that serve (R155). -/
def State.designServes (s : State) (lines : List (Nat × Nat)) : Bool :=
  lines.all fun e => match s.printedFrom e.1 e.2 with
    | some (k, p) => s.slotStream k || s.memServes (s.lineAddr k e.1 (s.designLine k p % max 1 (s.slotLines k))) (s.slotWidth k)
    | none => true

/-- A coefficient as it is published, s15.16 (R335). -/
def publish (x : Rat) : Int := clampInt (-2147483648) 2147483647 (x * 65536 + 1 / 2).floor

/-- The comparator on one line, by the print lines that the pairing assigns (R318, R319). -/
def State.compareLine (s : State) (w : WebLine) (lines : Option (List (Nat × Nat))) : State :=
  if s.num 0x2D40 1 = 0 ∨ s.boltedIpl then s
  else
    let cols := (List.range w.pixels.length).zip w.pixels
    let zoned := cols.filterMap fun e => match webZone s.num e.1 with
      | some (xc, z) => if e.2.all (·.2) && decide (z < s.num 0x2D10 7) then some (e.1, xc, z, e.2.map (·.1)) else none
      | none => none
    let known := zoned.all fun e => (kvGet s.che.est e.2.2.1).any fun x => !x.b.isEmpty
    match lines.bind s.designUnder with
    | none => (s.bump 0x2D41 4).boxLine w.i w.trig []
    | some design =>
      if (w.marks &&& s.num 0x2D10 8) ≠ 0 ∨ !known then (s.bump 0x2D41 4).boxLine w.i w.trig []
      else
        let defects := zoned.filterMap fun e =>
          let (c, xc, z, vs) := e
          let est := (kvGet s.che.est z).getD ZoneEst.none
          let us := design.map fun d =>
            let cfg := s.sneCfg d.1 d.2.1
            (d.1, if z < s.num 0x2713 (d.1 + 1) then min 65535 (roundHalfUp (cfg.curve z (cfg.contone d.2.2 xc) * 65536) 65520) else 0)
          let devs := ((List.range vs.length).zip vs).map fun kv =>
            let sum : Rat := us.foldl (fun (t : Rat) u =>
              t + (publish ((est.a.getD kv.1 []).getD u.1 0) : Rat) / 65536 * ((u.2 : Rat) / 65536)) ((publish (est.b.getD kv.1 0) : Rat) / 65536)
            let pred := clampInt 0 65520 (sum * 16 + 1 / 2).floor
            (kv.1, ((kv.2 * 16 : Nat) - pred).natAbs)
          if devs.any fun d => s.num 0x2D40 2 / 2 ^ (16 * d.1) % 65536 < d.2 then
            let worst := devs.foldl (fun (b : Nat × Nat) d => if b.2 < d.2 then d else b) (0, 0)
            some (c, worst.1, worst.2)
          else none
        s.boxLine w.i w.trig (runsOf (s.num 0x2D40 3) defects [])

/-- A line opens its web frame for colour hold, and the first line of a frame a window where none is open (R331). -/
def State.lineInFrame (s : State) (w : WebLine) : State :=
  let j := w.i / s.frameLines
  let s := if s.che.frameJ != some j then
      { s with che := { s.che with frameJ := some j, chan := w.trig.channel, dirAtFrame := s.num 0x2529 (w.trig.channel + 1) } }
    else s
  let s := if w.i % s.frameLines = 0 ∧ s.che.p0.isNone then { s with che := { s.che with p0 := some w.trig.pos } } else s
  { s with che := { s.che with lastPos := w.trig.pos } }

/-- A stitched line against every bar's records: paired, or counted with what went wrong (R325 to R332). -/
def State.pairLine (s : State) (w : WebLine) : Option (List (Nat × Nat)) × State :=
  let s := s.lineInFrame w
  let unpaired := fun (s : State) => (none, s.bump 0x2832 2)
  if s.zoneMismatch || s.distanceMissing || s.usedPorts.isEmpty then unpaired s
  else
    let found := s.jobBars.map fun b => (b, s.pairBar b w.trig.pos)
    let s := forEach found (fun e s => match e.2 with
      | .no true _ => s.bump 0x2832 6
      | .no _ true => s.covOverrun e.1
      | .yes r _ =>
          if (s.cheBar e.1).expect = r.first + r.lines then s
          else (s.readCov e.1 r).modChe e.1 fun x =>
            { x with expect := r.first + r.lines, inTime := x.inTime + 1, overrun := x.overrun && x.inTime + 1 < 64 }
      | _ => s) s
    let recs := found.filterMap fun e => match e.2 with
      | .yes r l => some (e.1, r, l)
      | _ => none
    let flagged := recs.any fun e => (e.2.1.flags &&& s.num 0x2820 9) != 0
      || s.mir.missed.any fun m => m.1 == e.1 && m.2.1 < e.2.1.first + e.2.1.lines && e.2.1.first ≤ m.2.2
    let starts := recs.filterMap fun e => (s.cheBar e.1).jobStart.map fun n => decide (n ≤ e.2.2)
    let allNew := !starts.isEmpty && starts.all id
    let straddle := starts.any id && !starts.all id
    if recs.length < found.length || flagged || straddle then unpaired s
    else
      let s := if allNew then s.jobStartSeen w.trig.pos else s
      let s := (s.bump 0x2832 1).observeLine w (recs.map fun e => (e.1, e.2.1))
      (some (recs.map fun e => (e.1, e.2.2)), s)

/-- CHE_PAIR_LINE: the next stitched line from IPL is paired and observed, and the comparator takes the pairing (R318, R328 to
R330); it waits while a frozen channel holds a coverage ring or a design line that it needs (R155). -/
def execChePairLine (s0 : State) : Host.Outcome State Fault Refusal :=
  match s0.vis.toChe with
  | .line w :: rest =>
    let s : State := { s0 with vis := { s0.vis with toChe := rest } }
    let (lines, t) := if s.holdRuns then s.pairLine w else (none, s)
    .next (if s.holdRuns ∧ !(s.jobBars.all s.covServes && ((lines.map s.designServes).getD true || s.num 0x2D40 1 == 0)) then s0
      else t.compareLine w lines)
  | _ => .next s0

/-- The window closes: it goes to the Tumbler (R331). -/
def State.windowClose (s : State) : State :=
  let st := s.stamp48
  let s := (s.bump 0x2820 13).setObj 0x2820 14 (.num st)
  { s with che := { s.che with solving := some s.che.winAcc, solveNs := st % 2 ^ 32, solveEra := st / 2 ^ 32, solveZones := s.num 0x2D10 7,
                               channels := (s.usedPorts.head?.map (portChannels s.num)).getD 0, winAcc := [], p0 := none, framesIn := 0 } }

/-- CHE_FRAME_CLOSE: the frame joins the window or is left out; the window may close (R331, R341, R383). -/
def execCheFrameClose (s : State) : Host.Outcome State Fault Refusal :=
  match s.vis.toChe with
  | .close c :: rest =>
    let s : State := { s with vis := { s.vis with toChe := rest } }
    if !s.holdRuns then .next s
    else
      let ch := s.che.chan
      let turned := s.num 0x2529 (ch + 1) != s.che.dirAtFrame
      let out := c.hold || turned
      let s := if out then s.bump 0x2832 3 else s
      let win := if out then s.che.winAcc else joinAcc s.che.winAcc s.che.frameAcc
      let s : State := { s with che := { s.che with winAcc := win, frameAcc := [], frameJ := none, dirAtFrame := s.num 0x2529 (ch + 1),
                                                    framesIn := if s.che.p0.isSome then s.che.framesIn + 1 else s.che.framesIn } }
      let full := s.che.p0.any fun p => decide (((s.num 0x2820 2 * s.num 0x251B (ch + 1) : Nat) : Int) ≤ toSigned 48 (s.che.lastPos + 2 ^ 48 - p))
      .next (if full then s.windowClose else s)
  | _ => .next s

/-- A sum of rationals in binary64, in order. -/
def sum64 (l : List Rat) : Rat := match l with
  | [] => 0
  | x :: xs => xs.foldl (fun (t x : Rat) => r64 (t + x)) x

/-- What the solve of a zone works on: means and moments in binary64 (R333). -/
structure Moments where
  mu : List Rat
  mm : List Rat
  cv : List (List Rat)
  dv : List (List Rat)
  vm : List Rat
  deriving DecidableEq, Repr

/-- An entry of a matrix. -/
def mat (m : List (List Rat)) (i j : Nat) : Rat := (m.getD i []).getD j 0

/-- The moments of an accumulator (R333). -/
def ZoneAcc.moments (a : ZoneAcc) (channels : Nat) : Moments :=
  let n := r64 a.n
  let scaled := fun (v : Nat) (d : Rat) => r64 (r64 (r64 (v : Rat) / d) / n)
  let mu := (List.range 8).map fun c => scaled (a.su.getD c 0) 65536
  let mm := (List.range channels).map fun k => scaled (a.sm.getD k 0) 16
  let m := fun (l : List Rat) i => l.getD i 0
  { mu := mu, mm := mm,
    cv := (List.range 8).map fun c => (List.range 8).map fun d =>
      let (i, j) := (min c d, max c d)
      r64 (scaled ((a.suu.getD i []).getD j 0) (2 ^ 32) - r64 (m mu i * m mu j)),
    dv := (List.range channels).map fun k => (List.range 8).map fun c =>
      r64 (scaled ((a.smu.getD k []).getD c 0) (2 ^ 20) - r64 (m mm k * m mu c)),
    vm := (List.range channels).map fun k => r64 (scaled (a.smm.getD k 0) 256 - r64 (m mm k * m mm k)) }

/-- One row of the Cholesky factor after those of `rows`, or none where the pivot is too small (R333). -/
def cholRow (cv : List (List Rat)) (floor_ : Rat) (o : List Nat) (rows : List (List Rat)) (c : Nat) : Option (List Rat) :=
  let r := rows.length
  let row := (List.range r).foldl (fun (acc : List Rat) j =>
    let t := sum64 ((List.range j).map fun i => r64 (acc.getD i 0 * mat rows j i))
    acc ++ [r64 (r64 (mat cv c (o.getD j 0) - t) / mat rows j j)]) []
  let piv := r64 (mat cv c c - sum64 (row.map fun x => r64 (x * x)))
  if piv < r64 (floor_ * mat cv c c) then none else some (row ++ [sqrt64 piv])

/-- The Cholesky factor of `cv` over the colours `o`, or the colour whose pivot fails. -/
def cholesky (cv : List (List Rat)) (floor_ : Rat) (o : List Nat) : List Nat → List (List Rat) → Except Nat (List (List Rat))
  | [], rows => .ok rows
  | c :: rest, rows =>
    match cholRow cv floor_ o rows c with
    | none => .error c
    | some row => cholesky cv floor_ o rest (rows ++ [row])

/-- Restarts of the factorisation without the colours whose pivots fail (R333). -/
def factor (cv : List (List Rat)) (floor_ : Rat) : Nat → List Nat → List Nat × List (List Rat)
  | 0, o => (o, [])
  | n + 1, o =>
    match cholesky cv floor_ o o [] with
    | .ok l => (o, l)
    | .error c => factor cv floor_ n (o.filter (· != c))

/-- Forward and back substitution (R333). -/
def solveChol (l : List (List Rat)) (rhs : List Rat) : List Rat :=
  let n := l.length
  let y := (List.range n).foldl (fun (y : List Rat) i =>
    y ++ [r64 (r64 (rhs.getD i 0 - sum64 ((List.range i).map fun j => r64 (mat l i j * y.getD j 0))) / mat l i i)]) []
  (List.range n).reverse.foldl (fun (x : List Rat) i =>
    r64 (r64 (y.getD i 0 - sum64 ((List.range (n - 1 - i)).map fun d => r64 (mat l (i + 1 + d) i * x.getD d 0))) / mat l i i) :: x) []

/-- The held coefficient of a zone, channel and colour (R334). -/
def State.heldCoef (s : State) (z k c : Nat) : Rat :=
  match kvGet s.che.held (z * 24 + k * 8 + c) with
  | some x => x
  | none =>
    let r := s.bytes 0x2819 (c + 1)
    if leAt r (16 * z) 2 = 0 then 0 else r64 ((toSigned 32 (leAt r (16 * z + 4 + 4 * k) 4) : Rat) / 65536)

/-- The solve of one zone (R333). -/
def State.solveZone (s : State) (z : Nat) (acc : ZoneAcc) : ZoneEst :=
  let ch := s.che.channels
  let q := acc.moments ch
  let vf := r64 ((s.num 0x2820 5 : Rat) / 2 ^ 32)
  let pf := r64 ((s.num 0x2820 6 : Rat) / 65536)
  let o := (s.coloursIn z).filter fun c => decide (vf ≤ mat q.cv c c)
  let (o, l) := factor q.cv pf 9 o
  let rest := (List.range 8).filter fun c => !o.contains c
  let a := (List.range ch).map fun k =>
    let rhs := o.map fun c => r64 (mat q.dv k c - sum64 (rest.map fun d => r64 (s.heldCoef z k d * mat q.cv c d)))
    let x := solveChol l rhs
    (List.range 8).map fun c => match o.findIdx? (· == c) with
      | some i => x.getD i 0
      | none => s.heldCoef z k c
  let b := (List.range ch).map fun k => r64 (q.mm.getD k 0 - sum64 ((List.range 8).map fun c => r64 (mat a k c * q.mu.getD c 0)))
  let rms := (List.range ch).map fun k =>
    let s1 := sum64 ((List.range 8).map fun c => r64 (mat a k c * mat q.dv k c))
    let s2 := sum64 ((List.range 8).map fun c => sum64 ((List.range 8).map fun d => r64 (r64 (mat a k c * mat a k d) * mat q.cv c d)))
    let res := r64 (r64 (q.vm.getD k 0 - r64 (2 * s1)) + s2)
    sqrt64 res
  let refs := maskOf (fun c => leAt (s.bytes 0x2819 (c + 1)) (16 * z) 2 != 0) 8
  { observable := o, solved := true, residualHigh := rms.any fun r => decide ((s.num 0x2820 8 : Rat) < r * 16), refs := refs, n := acc.n,
    rms := rms, b := b, a := a }

/-- Every zone solved, in ascending order; held coefficients renewed (R333 to R335). -/
def State.solveAll (s : State) (acc : List (Nat × ZoneAcc)) : State :=
  let s := forRange s.che.solveZones (fun z s =>
    let old := (kvGet s.che.est z).getD ZoneEst.none
    let a := (kvGet acc z).getD ZoneAcc.zero
    if a.n = 0 ∨ a.n < s.num 0x2820 3 then { s with che := { s.che with est := kvPut s.che.est z { old with solved := false } } }
    else
      let e := s.solveZone z a
      let held := if e.residualHigh then s.che.held
        else e.observable.foldl (fun h c => (List.range s.che.channels).foldl (fun h k => kvPut h (z * 24 + k * 8 + c) (mat e.a k c)) h) s.che.held
      { s with che := { s.che with est := kvPut s.che.est z e, held := held } }) s
  { s with che := { s.che with estWindow := s.num 0x2820 13, estNs := s.che.solveNs, estEra := s.che.solveEra, estZones := s.che.solveZones } }

/-- ZoneCount of a bar. -/
def State.zoneCount (s : State) (c : Nat) : Nat := s.num 0x2713 (c + 1)

/-- The live ZoneGain of a zone, 8000h where it is empty (R336, R339). -/
def State.liveGain (s : State) (c z : Nat) : Nat :=
  let g := s.bytes 0x2715 (c + 1)
  if g.isEmpty then 0x8000 else leAt g (2 * z) 2

/-- The solved coefficients of a colour in a zone, by channel. -/
def ZoneEst.colour (e : ZoneEst) (c : Nat) : List Rat := e.a.map fun r => r.getD c 0

/-- References captured for a bar in this window (R336). -/
def State.captureRefs (s : State) (c : Nat) : State :=
  let zones := s.zoneCount c
  let floor2 : Rat := ((s.num 0x2820 7 * s.num 0x2820 7 : Nat) : Rat)
  let old := s.bytes 0x2819 (c + 1)
  let takes := (List.range zones).filter fun z =>
    let e := (kvGet s.che.est z).getD ZoneEst.none
    leAt old (16 * z) 2 == 0 && e.solved && !e.residualHigh && e.observable.contains c
      && decide (floor2 ≤ sum64 ((e.colour c).map fun x => r64 (x * x)))
  match takes with
  | [] => s
  | _ =>
    let entry := fun (z : Nat) =>
      let e := (kvGet s.che.est z).getD ZoneEst.none
      u16 (s.liveGain c z) ++ u16 0 ++ (List.range 3).flatMap fun k => u32 (ofSigned 32 (publish ((e.colour c).getD k 0)))
    let new := (List.range zones).flatMap fun z => if takes.contains z then entry z else padTo 16 (slice old (16 * z) 16)
    let s := s.setObj 0x2819 (c + 1) (.bytes new)
    let s := s.raise (0x2810 + c) 0 (u32 (s.num 0x2820 13) ++ u16 takes.length)
    (s.holdLog c 3 (s.noLoad takes.length) 0xFFFFFFFF).sendRef c

/-- The strength ratio of a colour in a zone, where it is observable (R337). -/
def State.ratio (s : State) (c z : Nat) : Option Rat :=
  let e := (kvGet s.che.est z).getD ZoneEst.none
  let r := s.bytes 0x2819 (c + 1)
  if leAt r (16 * z) 2 = 0 ∨ !e.solved then none
  else
    let aref := (List.range s.che.channels).map fun k => r64 ((toSigned 32 (leAt r (16 * z + 4 + 4 * k) 4) : Rat) / 65536)
    let den := sum64 (aref.map fun x => r64 (x * x))
    if den < ((s.num 0x2820 7 * s.num 0x2820 7 : Nat) : Rat) || !e.observable.contains c || e.residualHigh || den == 0 then none
    else
      let q := r64 (sum64 ((aref.zip (e.colour c)).map fun x => r64 (x.2 * x.1)) / den)
      if q ≤ 1 / 4 then none else some q

/-- A number between a lower and an upper limit. -/
def clampRat (lo hi x : Rat) : Rat := if x < lo then lo else if hi < x then hi else x

/-- What a servo step gives: gain, integrator, whether the gain was limited; nothing where it changes nothing (R338). -/
def servoStep (kp ki deadband stepLimit integLimit gmin gmax base last i r : Rat) : Option (Nat × Rat × Bool) :=
  let d := r64 (base / r)
  let e := r64 (d - last)
  if (if e < 0 then -e else e) ≤ deadband then none
  else
    let iTry := clampRat (-integLimit) integLimit (r64 (i + r64 (ki * e)))
    let step := r64 (r64 (kp * e) + iTry)
    let held := clampRat (-stepLimit) stepLimit step
    let g := r64 (last + held)
    let new := clampRat gmin gmax g
    some ((r64 (r64 (new * 32768) + 1 / 2)).floor.toNat, if held = step ∧ g = new then iTry else i, g != new)

/-- The servo of a bar after a window close: AdvisedGain, the integrators, the load in AUTO (R338 to R340). -/
def State.servo (s : State) (c : Nat) : State :=
  let i := c + 1
  let zones := s.zoneCount c
  let ratios := (List.range zones).map fun z => s.ratio c z
  let obs := (ratios.filter (·.isSome)).length
  let code := fun (r : Option Rat) => match r with
    | some q => min 0xFFFE (q * 16384 + 1 / 2).floor.toNat
    | none => 0xFFFF
  let s := s.setObj 0x281A i (.bytes (ratios.flatMap fun r => u16 (code r)))
  let s := s.modChe c fun x => { x with zonesObs := obs }
  let mode := s.num 0x2810 i
  if mode = 0 ∨ s.mir.role = .standby then s
  else
    let adv := s.bytes 0x281B i
    let n := fun (idx : Nat) (d : Rat) => (s.num idx i : Rat) / d
    let steps := ((List.range zones).zip ratios).map fun zr =>
      let last := leAt adv (2 * zr.1) 2
      let integ := (kvGet (s.cheBar c).integ zr.1).getD 0
      match zr.2 with
      | none => (last, integ, false, last)
      | some r =>
        let base : Rat := (leAt (s.bytes 0x2819 i) (16 * zr.1) 2 : Rat) / 32768
        match servoStep (n 0x2812 65536) (n 0x2813 65536) (n 0x2814 32768) (n 0x2815 32768) (n 0x2816 32768) (n 0x2817 32768) (n 0x2818 32768)
            base ((last : Rat) / 32768) integ r with
        | none => (last, integ, false, last)
        | some (g, j, lim) => (g, j, lim, last)
    let changed := steps.filter fun x => x.1 != x.2.2.2
    let big := changed.foldl (fun (m : Int) x => let d : Int := (x.1 : Int) - x.2.2.2; if m.natAbs < d.natAbs then d else m) 0
    let atEdge := fun (g : Nat) => g == s.num 0x2817 i || g == s.num 0x2818 i
    let limited := (List.range zones).zip steps |>.filter fun x => x.2.2.2.1
    let edge := steps.filter fun x => x.2.2.1 || atEdge x.1
    let s := match limited with
      | f :: _ => if (s.cheBar c).atLimit then s else s.raise (0x2818 + c) 0 (u16 f.1 ++ u16 f.2.1)
      | [] => s
    let s := s.setObj 0x281B i (.bytes (steps.flatMap fun x => u16 x.1))
    let integ := ((List.range zones).zip steps).foldl (fun t x => kvSet t 0 x.1 x.2.2.1) []
    let s := s.modChe c fun x => { x with integ := integ, atLimit := !edge.isEmpty }
    if changed.isEmpty then s
    else
      let g : GainLoad := { window := s.num 0x2820 13, changed := changed.length, step := ofSigned 16 big, observable := obs, atLimit := edge.length }
      if mode = 1 then s.holdLog c 2 g 0xFFFFFFFF
      else
        let s := match (s.cheBar c).load with
          | some old => s.holdLog c 1 old 0xFFFFFFFF
          | none => s
        let s := (s.setObj 0x2715 i (.bytes (steps.flatMap fun x => u16 x.1))).setNum 0x281E i s.stamp48
        s.modChe c fun x => { x with load := some g }

/-- TUMBLER_SOLVE_DONE: every zone solved and published, references captured, ratios and the servo step, but in role STANDBY
(R333 to R341, R355). -/
def execTumblerSolveDone (s : State) : Host.Outcome State Fault Refusal :=
  match s.che.solving with
  | none => .next s
  | some acc =>
    if !s.on domCTL ∨ s.boltedChe then .next s
    else
      let s := s.solveAll acc
      let s := (({ s with che := { s.che with solving := none } } : State)).bump 0x2832 4
      let s := if s.num 0x2820 10 = 0 ∧ s.mir.role ≠ .standby then forEach s.jobBars (fun c s => s.captureRefs c) s else s
      .next (forRange 8 (fun c s => s.servo c) s)

/-- The bytes of Estimates (R335). -/
def State.estimates (s : State) : Bytes :=
  if s.che.est.isEmpty then []
  else
    u32 s.che.estWindow ++ u48 (s.che.estEra * 2 ^ 32 + s.che.estNs) ++ u16 s.che.estZones ++ u8 s.che.channels ++ List.replicate 3 0
      ++ (List.range s.che.estZones).flatMap fun z =>
        let e := (kvGet s.che.est z).getD ZoneEst.none
        let rms := (List.range 3).map fun k => fitted 0x2830 16 ((e.rms.getD k 0) * 16 + 1 / 2).floor.toNat
        padTo 128 (u32 (maskOf (fun c => e.observable.contains c) 8 + e.refs * 256 + b2n e.solved * 65536 + b2n e.residualHigh * 131072)
          ++ u32 e.n ++ rms.flatMap u16 ++ u16 0
          ++ (List.range 3).flatMap fun k => u32 (ofSigned 32 (publish (e.b.getD k 0)))
            ++ (List.range 8).flatMap fun c => u32 (ofSigned 32 (publish (mat e.a k c))))

/-- CheStatus as it reads (R342). -/
def State.cheStatus (s : State) : Nat :=
  s.num 0x2820 1 * 2 ^ 31 + b2n s.zoneMismatch * 2 ^ 30 + b2n s.distanceMissing * 2 ^ 29 + b2n (2 ≤ s.che.track.length) * 2 ^ 28
    + b2n s.che.solving.isSome * 2 ^ 27 + s.fsq.jobMask * 2 ^ 16 + min 255 s.che.framesIn * 256

/-- HoldStatus as it reads (R342). -/
def State.holdStatus (s : State) (c : Nat) : Nat :=
  let r := s.bytes 0x2819 (c + 1)
  let refs := ((List.range (r.length / 16)).filter fun z => leAt r (16 * z) 2 != 0).length
  s.num 0x2810 (c + 1) * 2 ^ 30 + b2n (bit s.fsq.jobMask c) * 2 ^ 29 + b2n (s.cheBar c).atLimit * 2 ^ 28
    + (s.cheBar c).zonesObs * 2 ^ 16 + refs * 64

/-- HoldMode (R339, R342). -/
def State.holdMode (s : State) (c v : Nat) : Except Nat State :=
  let i := c + 1
  if s.boltedChe then .error 0x2804F200
  else if v ≠ 0 ∧ (s.map c).isEmpty then .error (0x28040100 + c)
  else
    let enters := s.num 0x2810 i = 0 ∧ v ≠ 0
    let s := s.setNum 0x2810 i v
    .ok (if enters then
      let adv := (List.range (s.zoneCount c)).flatMap fun z => u16 (s.liveGain c z)
      (s.setObj 0x281B i (.bytes adv)).modChe c fun x => { x with integ := [], atLimit := false }
    else s)

/-- HoldRun (R326, R342). -/
def State.holdRun (s : State) (on : Bool) : Except Nat State :=
  if s.boltedChe then .error 0x2804F200
  else if on then
    if s.num 0x2820 1 = 1 then .ok s
    else .ok (((s.setNum 0x2820 1 1).setNum 0x2820 13 0).clearTrack 3)
  else .ok (s.setNum 0x2820 1 0)

/-- Objects of class Stopped of area 28h run while HoldRun is 1 (R342). -/
def cheRuns (s : State) : Bool := s.num 0x2820 1 == 1

/-- Writes of CHE objects with an effect of their own (R342, R343). -/
def hookChe (idx sub : Nat) (v : Val) (s : State) : Option (Except Nat State) :=
  let c := sub - 1
  let n := v.toNum
  match idx with
  | 0x2810 => some (s.holdMode c n)
  | 0x2817 => some (if n ≤ s.num 0x2818 sub then .ok (s.setObj idx sub v) else .error 0x28060600)
  | 0x2818 => some (if s.num 0x2817 sub ≤ n then .ok (s.setObj idx sub v) else .error 0x28060600)
  | 0x2819 =>
    some (if v.toBytes.isEmpty || v.toBytes.length == 16 * s.zoneCount c then .ok ((s.setObj idx sub v).sendRef c) else .error (0x28040200 + c))
  | 0x2820 =>
    if sub = 1 then some (s.holdRun (n == 1))
    else if sub = 11 then
      some (if s.boltedChe then .error 0x2804F200 else .ok (forEach (barsOf n) (fun b s => s.clearRef b) s))
    else none
  | _ => none

end Sys2Proof.Machine
end

