-- ==== Sys2Proof/Machine/Mir.lean ====
section
/-! DEFINITION. MIR: roles, mirror states, the Icsel link, the mirror cycle, the Key and switch-overs (R345 to R370). Lease times
are in ticks of 2.5 ns: the Key's lease 200,000, the takeover timer 220,000, the guard 20,000. -/

set_option Elab.async false

namespace Sys2Proof.Machine

/-- MIR changed. -/
def State.modMir (s : State) (f : Mir → Mir) : State := { s with mir := f s.mir }

/-- A change after which the device may own fewer lanes: each lane that it stops sending OWNER frames on sends RELEASE first
(R267). -/
def State.withRelease (s : State) (f : State → State) : State :=
  forRange 32 (fun l t => if s.owning l ∧ !t.owning l then t.sendRelease l else t) (f s)

/-- A HELLO (R350): the tag of a probe, or the tag it answers with the turnaround. -/
def State.sendHello (s : State) (echo answer turnaround : Nat) : State :=
  s.linkSend 1 0 (padTo 64 (u8 (s.num 0x3210 5) ++ u8 s.mir.format ++ u8 s.mir.role.code ++ u8 s.pwr.dev.code ++ u64 s.fuses.serial
    ++ u32 s.mir.keyGen ++ u8 (s.num 0x1010 3) ++ u16 echo ++ u16 answer ++ u32 turnaround))

/-- The highest format that both masks hold, 0 for none (R351). -/
def commonFormat (a b : Nat) : Nat := if bit (a &&& b) 1 then 2 else if bit (a &&& b) 0 then 1 else 0

/-- WARM entered: nothing acknowledged, no takeover timer, no differences (R347, R352, R361). -/
def State.enterWarm (s : State) : State :=
  let stream := (List.range 8).any fun b => (s.bar b).slot.any s.slotStream
  s.modMir fun m =>
    { m with st := .warm, cause := 0, takeoverAt := none, departures := [], acked := true, partnerReady := false, slotsMatch := false, badSlots := [],
             streamComplete := !stream, swap := false, handover := false, dissolve := false, flagCycle := none, diffs := [],
             seenPartner := none, fwd := none, fwdFirst := Vector.replicate 8 none, partnerSlots := Vector.replicate 2 none }

/-- MIR goes OFF: role SOLO or MIR OFF, the Key dropped, the link no longer trained (R347, R348). -/
def State.mirOff (s : State) : State :=
  s.modMir fun m => { Mir.start m.role with keyGen := m.keyGen, seq := m.seq, corrections := m.corrections }

/-- A pair role with MIR ON leaves OFF for LINKING (R347). -/
def State.mirLink (s : State) : State :=
  if s.on domMIR ∧ s.mir.role ≠ .solo ∧ s.mir.st = .off then s.modMir fun m => { m with st := if m.link then .hello else .linking }
  else s

/-- RoleRequest (R4, R346, R347, R369). -/
def State.roleRequest (s : State) (v : Nat) : Except Nat State :=
  if !s.fuses.mirror then (if v = 0 then .ok s else .error 0x32040100)
  else if !s.inStates [.standby, .configured] then .error 0x32030100
  else if s.mir.st = .warm then .error 0x32030300
  else
    let r : Role := match v with
      | 0 => .solo
      | 1 => .active
      | _ => .standby
    let s := s.withRelease fun s =>
      let s := s.modMir fun m => { m with role := r }
      if r = .solo then s.mirOff
      else if s.mir.st = .conflict then (s.modMir fun m => { m with st := .hello, format := 0, probes := [], probeOut := none })
      else s.mirLink
    .ok (s.setNum 0x3210 1 v)

/-- The pair runs cold (R347, R351). -/
def State.runCold (s : State) (cause versions : Nat) : State :=
  (s.modMir fun m => { m with st := .cold, cause := cause, probeOut := none }).raise 0x3201 cause (u8 cause ++ u8 versions)

/-- The next latency probe, or after the sixteenth the latency and the state it leads to (R351). -/
def State.probeNext (s : State) (versions : Nat) : State :=
  let n := s.mir.probes.length
  if n < 16 then (s.modMir fun m => { m with probeOut := some (n + 1) }).sendHello (n + 1) 0 0
  else
    let sum := s.mir.probes.foldl (fun (a : Int) x => a + x) 0
    let lat := (-Int.fdiv (-sum) 32).toNat
    let s := s.modMir fun m => { m with latency := lat, probeOut := none }
    if 1600 < lat then s.runCold 3 versions else s.enterWarm

/-- HELLO_RECEIVED: the partner, the format, the latency probes; on to WARM, COLD or CONFLICT (R347, R351). `rtt` is the time
from the probe to its answer in 625 ps units. -/
def execHelloReceived (f : Hello) (rtt : Nat) (s : State) : Host.Outcome State Fault Refusal :=
  if !s.on domMIR ∨ !s.mir.link then .next s
  else
    let s := s.modMir fun m => { m with partner := some f }
    let r := f.role.toNat
    let s := if s.mir.st = .conflict ∧ r ≠ s.mir.role.code then
        s.modMir fun m => { m with st := .hello, format := 0, probes := [], probeOut := none } else s
    let (late, t) := s.freeBelow (2 ^ 32)
    let s := if f.echoTag ≠ 0 then t.sendHello 0 f.echoTag.toNat late else s
    if s.mir.st ≠ .hello then .next s
    else if r = s.mir.role.code then
      .next ((s.modMir fun m => { m with st := .conflict, cause := 4 }).raise 0x3202 0 (u64 f.serial.toNat))
    else
      let common := commonFormat (s.num 0x3210 5) f.versions.toNat
      if common = 0 then .next (s.runCold 2 f.versions.toNat)
      else if s.mir.role = .standby then
        if s.mir.format = 0 ∧ f.chosen ≠ 0 then .next ((s.modMir fun m => { m with format := f.chosen.toNat }).sendHello 0 0 0)
        else .next s
      else if s.mir.format = 0 then
        .next ((s.modMir fun m => { m with format := common, probes := [], probeOut := none }).sendHello 0 0 0)
      else match s.mir.probeOut with
        | none => .next (if f.chosen.toNat = s.mir.format then s.probeNext f.versions.toNat else s)
        | some tag =>
          if f.echoReturn.toNat = tag then
            .next ((s.modMir fun m => { m with probes := m.probes ++ [(rtt : Int) - f.turnaround.toNat] }).probeNext f.versions.toNat)
          else .next s

/-- HELLO_INTERVAL: a HELLO every 10 µs in HELLO, every 1 ms in COLD and CONFLICT (R351). -/
def execHelloInterval (s : State) : Host.Outcome State Fault Refusal :=
  .next (match s.mir.st with
    | .hello | .cold | .conflict => s.sendHello 0 0 0
    | _ => s)

/-- ICSEL_LINK_UP: lanes 36 to 39 lock and deskew; LINKING goes on to HELLO (R347, R348). -/
def execIcselLinkUp (s : State) : Host.Outcome State Fault Refusal :=
  if !s.on domMIR ∨ s.mir.role = .solo then .next s
  else
    let s := s.modMir fun m => { m with link := true, locked := 15 }
    .next (if s.mir.st = .linking then
        (s.modMir fun m => { m with st := .hello, format := 0, probes := [], probeOut := none }).sendHello 0 0 0
      else s)

/-- ICSEL_LINK_LOST: lock or deskew lost for more than 1 µs; COLD ends, WARM stays (R347, R348). -/
def execIcselLinkLost (s : State) : Host.Outcome State Fault Refusal :=
  if !s.on domMIR ∨ !s.mir.link then .next s
  else
    let (locked, s) := s.freeBelow 16
    let s := s.raise 0x3200 0 (u8 locked ++ u8 s.mir.st.code)
    let s := s.modMir fun m => { m with link := false, locked := locked, cause := 1 }
    .next (if s.mir.st = .cold then
        s.modMir fun m => { m with st := if m.role = .active then .lone else .orphan }
      else s)

/-- The areas of CommitRequest in area order (R353). -/
def commitAreas : List Nat := 0x10 :: (List.range 19).map (· + 0x20)

/-- A position channel as the state block carries it (R353). -/
def State.blkChan (s : State) (n : Nat) : BlkChan × State :=
  let (v, s) := s.speed n
  let (i, s) := s.countInterval n
  let (st, s) := s.positionStatus n
  ({ position := BitVec.ofNat 32 (s.pch n).count, speed := BitVec.ofInt 32 v, interval := BitVec.ofNat 32 i, status := BitVec.ofNat 32 st }, s)

/-- Every position channel as the state block carries it. -/
def State.blkChans (s : State) : List BlkChan × State :=
  (List.range 12).foldl (fun (a : List BlkChan × State) n => let (c, s) := a.2.blkChan n
                                                             (a.1 ++ [c], s)) ([], s)

/-- A bar as the state block carries it (R353). -/
def State.blkBar (s : State) (b : Nat) : BlkBar :=
  let x := s.bar b
  let k := s.clk b
  let c := s.cheBar b
  let adv := s.bytes 0x281B (b + 1)
  let i := b + 1
  { clock := BitVec.ofNat 8 k.st.code, run := BitVec.ofNat 8 x.run.code, high := BitVec.ofNat 32 k.high, count := BitVec.ofNat 32 k.n,
    next := BitVec.ofNat 48 k.next, p := BitVec.ofNat 32 x.p, design := BitVec.ofNat 32 (s.num 0x2412 i),
    repeatIdx := BitVec.ofNat 32 (s.num 0x2411 i),
    expected := BitVec.ofNat 32 ((x.slot.map fun q => (vget (s.slot q).streams b Stream.start).expected).getD 0),
    windowLines := BitVec.ofNat 32 ((vget s.rin.windows b []).foldl (fun n w => n + (w.lines.length - w.fetched)) 0),
    dutyIdx := BitVec.ofNat 32 x.dutyIdx, nextPrep := BitVec.ofNat 32 (s.lineNumber b (s.nextPrep b)),
    holdMode := BitVec.ofNat 8 (s.num 0x2810 i), window := BitVec.ofNat 32 (s.num 0x2820 13), gainStamp := BitVec.ofNat 48 (s.num 0x281E i),
    zones := (List.range (s.zoneCount b)).map fun z =>
      (BitVec.ofNat 16 (leAt adv (2 * z) 2), BitVec.ofNat 16 (s.liveGain b z), (kvGet c.integ z).getD 0) }

/-- µs until the Key expires. -/
def State.keyRemaining (s : State) : Nat := if s.keyHeld then ((s.mir.keyExpiry.getD s.tick) - s.tick) / 400 else 0

/-- The values that the state block carries, captured now (R352, R353). -/
def State.captureBlock (s : State) : StateBlock × State :=
  let (chans, s) := s.blkChans
  let oldest := s.rin.fifo.find? fun x => x.sent && !x.acked
  ({ keyGen := BitVec.ofNat 32 s.mir.keyGen, keyRemaining := BitVec.ofNat 32 s.keyRemaining, devState := BitVec.ofNat 8 s.pwr.dev.code,
     holdResume := BitVec.ofNat 8 (s.num 0x1100 5),
     chans := Vector.ofFn fun (i : Fin 12) => chans.getD i.val { position := 0, speed := 0, interval := 0, status := 0 },
     bars := Vector.ofFn fun (b : Fin 8) => s.blkBar b.val,
     current := BitVec.ofNat 8 (s.num 0x2410 2), queued := BitVec.ofNat 8 (s.num 0x2410 1), changeAt := BitVec.ofNat 32 (s.num 0x2410 3),
     slotStates := Vector.ofFn fun (k : Fin 2) => BitVec.ofNat 8 (s.slot k.val).st.code,
     slotSums := Vector.ofFn fun (k : Fin 2) => BitVec.ofNat 32 (s.num 0x221D (k.val + 1)),
     fwdOldest := BitVec.ofNat 32 ((oldest.map (·.sequence)).getD 0), fwdOut := BitVec.ofNat 8 s.outstanding,
     generations := commitAreas.map fun a => BitVec.ofNat 32 (s.adm a).generation,
     outputs := BitVec.ofNat 16 (s.num 0x2E20 1), compareEnable := BitVec.ofNat 16 (maskOf (fun u => (s.unit u).enabled) 16) }, s)

/-- The bytes of a state block; format 1 carries no integrators (R350, R353). -/
def stateBlockBytes (b : StateBlock) (format : Nat) : Bytes :=
  let chan := fun (c : BlkChan) => u32 c.position.toNat ++ u32 c.speed.toNat ++ u32 c.interval.toNat ++ u32 c.status.toNat
  let bar := fun (x : BlkBar) => u8 x.clock.toNat ++ u8 x.run.toNat ++ u16 0 ++ u32 x.high.toNat ++ u32 x.count.toNat ++ u48 x.next.toNat
    ++ u16 0 ++ u32 x.p.toNat ++ u32 x.design.toNat ++ u32 x.repeatIdx.toNat
  let zone := fun (z : BitVec 16 × BitVec 16 × Rat) => u16 z.1.toNat ++ u16 z.2.1.toNat ++ u64 (if format = 1 then 0 else bits64 z.2.2)
  padTo 64 (u32 b.keyGen.toNat ++ u32 b.keyRemaining.toNat ++ u8 b.devState.toNat ++ u8 b.holdResume.toNat)
    ++ b.chans.toList.flatMap chan ++ b.bars.toList.flatMap bar
    ++ padTo 64 (u8 b.current.toNat ++ u8 b.queued.toNat ++ u16 0 ++ u32 b.changeAt.toNat ++ b.slotStates.toList.flatMap (fun x => u8 x.toNat)
      ++ u16 0 ++ b.slotSums.toList.flatMap fun x => u32 x.toNat)
    ++ b.bars.toList.flatMap (fun x => u32 x.expected.toNat ++ u32 x.windowLines.toNat ++ u32 x.dutyIdx.toNat ++ u32 x.nextPrep.toNat)
    ++ padTo 64 (u32 b.fwdOldest.toNat ++ u8 b.fwdOut.toNat) ++ padTo 128 (b.generations.flatMap fun g => u32 g.toNat)
    ++ padTo 64 (u16 b.outputs.toNat ++ u16 b.compareEnable.toNat) ++ List.replicate 64 0
    ++ b.bars.toList.flatMap (fun x => u8 x.holdMode.toNat ++ u8 0 ++ u16 0 ++ u32 x.window.toNat ++ u48 x.gainStamp.toNat ++ u16 0)
    ++ b.bars.toList.flatMap fun x => padTo 6144 (x.zones.flatMap zone)

/-- The fire times of the bars' last lines, as 32-bit stamps (R365). -/
def State.fireStamps (s : State) : Vector Nat 8 × State :=
  let (l, s) := (List.range 8).foldl (fun (a : List Nat × State) b =>
    let (t, s) := match (a.2.bar b).lastFire with
      | some f => a.2.stampFine f
      | none => (0, a.2)
    (a.1 ++ [t % 2 ^ 32], s)) (([], s) : List Nat × State)
  (Vector.ofFn fun (b : Fin 8) => l.getD b.val 0, s)

/-- The STATE frame of the next cycle departs now (R352, R360). -/
def State.sendState (s : State) (flags : Nat) : State :=
  let s := s.modMir fun m => { m with cycle := (m.cycle + 1) % 2 ^ 32, acked := false }
  let (blk, s) := s.captureBlock
  let (fires, s) := s.fireStamps
  let s := s.modMir fun m =>
    { m with departures := ((m.cycle, s.tick) :: m.departures).take 16, sentBlock := some blk, sentConfirm := fires,
             flagCycle := if flags = 0 then m.flagCycle else some m.cycle }
  (s.bump 0x3212 1).linkSend 2 flags (stateBlockBytes blk s.mir.format)

/-- Tokens on their way are withdrawn; lines whose tokens have not all left end as they stand (R360, R367). -/
def State.withdrawTokens (s : State) : State :=
  let s := forRange 32 (fun l s => s.modLane l fun x => { x with tokens := [] }) s
  forRange 8 (fun b s => match (s.bar b).firing with
    | some f => s.lineFinished b f.ev f.line (.fired f.late) f.fire (some f.fired)
    | none => s) s

/-- MIRROR_CYCLE_BOUNDARY: the ACTIVE in WARM sends its STATE; a planned swap starts here with RELEASE on every lane
(R352, R367). -/
def execMirrorCycleBoundary (s : State) : Host.Outcome State Fault Refusal :=
  if !s.on domMIR ∨ s.mir.st ≠ .warm ∨ s.mir.role ≠ .active then .next s
  else
    let s := if s.mir.acked then s else s.bump 0x3212 3
    if s.mir.handover then .next s
    else if s.mir.swap then
      .next (s.withRelease fun s => (s.modMir fun m => { m with swap := false, handover := true, flagCycle := none, acked := true }).withdrawTokens)
    else .next (s.sendState (if s.mir.dissolve then 2 else 0))

/-- HANDOVER_STATE_SEND: the largest LinkLatency after the RELEASE, STATE leaves with Handover and the Key ends (R367). -/
def execHandoverStateSend (s : State) : Host.Outcome State Fault Refusal :=
  if s.on domMIR && s.mir.st == .warm && s.mir.role == .active && s.mir.handover && s.mir.flagCycle.isNone then
    .next ((s.sendState 1).modMir fun m => { m with keyExpiry := none })
  else .next s

/-- A printing bar, also one that runs dry or has reversed (R179). -/
def State.printingBar (s : State) (b : Nat) : Bool :=
  (s.bar b).run == .printing || (s.bar b).run == .dry || (s.bar b).run == .reversed

/-- Every printing bar prepares anew, from its pre-fire buffer, the line whose event has not yet come (R227, R362). -/
def State.prepareAnew (s : State) : State :=
  forRange 8 (fun b s => if s.printingBar b then
      s.modBar b fun x => if x.firing.isSome then x else { x with prepared := none, ready := true } else s) s

/-- The hinge of every printing bar set up, from the last accepted state block where there is one (R365). -/
def State.startHinges (s : State) (kind : Nat) : State :=
  forRange 8 (fun b s =>
    if !s.printingBar b then s
    else match s.mir.block with
      | some blk =>
        let x := vget blk.bars b (s.blkBar b)
        s.modMir fun m => { m with hinge := vmod m.hinge b fun _ => some
                                     { kind := kind, lastLine := (x.count.toNat + 2 ^ 32 - 1) % 2 ^ 32, missedPos := x.next.toNat, lastStamp := vget m.confirm b 0 } }
      | none =>
        let (l, s) := s.freeBelow (2 ^ 32)
        let (p, s) := s.freeBelow (2 ^ 48)
        let (t, s) := s.freeBelow (2 ^ 32)
        s.modMir fun m => { m with hinge := vmod m.hinge b fun _ => some { kind := kind, lastLine := l, missedPos := p, lastStamp := t } }) s

/-- The device takes the heads (R362): the Key with a new generation, the burst of idle lanes, OWNER frames, the hinges. -/
def State.takeHeads (s : State) (st : MirSt) (gen kind : Nat) : State :=
  let s := s.modMir fun m =>
    { m with role := .active, st := st, keyGen := gen % 2 ^ 32, takeoverAt := none, keyExpiry := some (s.tick + 200000), cause := 0,
             handover := false, swap := false, dissolve := false, flagCycle := none, seenPartner := none, acked := true, departures := [] }
  let s := (s.startHinges kind).lanesResume
  let s := s.sendOwners
  if (List.range 32).any fun l => (s.lane l).st == .resuming then s else s.prepareAnew

/-- The KeyGeneration known of the partner: in COLD of its last HELLO, else of the last accepted block (R362). -/
def State.partnerGen (s : State) : Nat :=
  match s.mir.block, s.mir.partner with
  | some b, h => if s.mir.st = .cold then (h.map (·.keyGen.toNat)).getD b.keyGen.toNat else b.keyGen.toNat
  | none, some h => h.keyGen.toNat
  | none, none => s.mir.keyGen

/-- A takeover (R362): `cause` 1 by the timer, 2 by command. -/
def State.takeover (s : State) (st : MirSt) (cause kind : Nat) : State :=
  let s := s.takeHeads st (s.partnerGen + 1) kind
  (s.bump 0x3212 6).raise 0x3205 cause (u32 s.mir.keyGen ++ u8 cause)

/-- SACK_RECEIVED: an accepted cycle renews the Key to D_k + 500 µs, and ends a swap or the pair where its STATE said so
(R347, R360, R367). `ready` is the SACK's Ready byte. -/
def execSackReceived (cycle : BitVec 32) (result : BitVec 8) (ready : BitVec 8) (s : State) : Host.Outcome State Fault Refusal :=
  if !s.linkWarm ∨ s.mir.role ≠ .active then .next s
  else
    let k := cycle.toNat
    let s := s.modMir fun m =>
      { m with acked := m.acked || m.cycle == k, partnerReady := bit ready.toNat 0, slotsMatch := bit ready.toNat 1,
               streamComplete := bit ready.toNat 2 }
    match (s.mir.departures.find? fun e => e.1 == k).map (·.2) with
    | none => .next s
    | some d =>
      if result ≠ 0 then .next s
      else
        let s := (s.bump 0x3212 2).modMir fun m =>
          { m with lastSack := k, departures := m.departures.filter fun e => k < e.1,
                   block := if m.cycle = k then m.sentBlock else m.block, confirm := if m.cycle = k then m.sentConfirm else m.confirm }
        if s.mir.flagCycle = some k ∧ s.mir.handover then
          let s := s.modMir fun m => { m with role := .standby, handover := false, flagCycle := none, takeoverAt := none, diffs := [] }
          .next ((s.bump 0x3212 7).raise 0x3207 0 (u32 s.mir.keyGen))
        else
          let s := s.modMir fun m => { m with keyExpiry := if m.handover || s.halted then m.keyExpiry else some (max (m.keyExpiry.getD 0) (d + 200000)) }
          if s.mir.flagCycle = some k ∧ s.mir.dissolve then
            .next ((s.modMir fun m => { m with st := .lone, dissolve := false, flagCycle := none }).sendOwners)
          else .next s.sendOwners

/-- KEY_EXPIRY: in WARM the ACTIVE's Key expires: RELEASE, no tokens, ORPHAN as STANDBY (R347, R360). -/
def execKeyExpiry (s : State) : Host.Outcome State Fault Refusal :=
  match s.mir.keyExpiry with
  | none => .next s
  | some t =>
    if s.mir.st ≠ .warm ∨ s.mir.role ≠ .active ∨ s.tick < t then .next s
    else
      let s := forRange 32 (fun l s => if s.on domHLK ∧ (s.lane l).st = .trained then s.sendRelease l else s) s
      let s := s.withdrawTokens
      let s := s.modMir fun m =>
        { m with role := .standby, st := .orphan, cause := 5, keyExpiry := none, lastExpiry := t, seenPartner := some 0, takeoverAt := none,
                 swap := false, handover := false, dissolve := false, flagCycle := none }
      .next (s.raise 0x3204 0 (u32 s.mir.lastSack ++ u32 s.mir.keyGen))

/-- TAKEOVER_AT_REACHED: the standby's timer ends; it takes over, or outside CONFIGURED to HELD goes to ORPHAN (R347, R361). -/
def execTakeoverAtReached (s : State) : Host.Outcome State Fault Refusal :=
  match s.mir.takeoverAt with
  | none => .next s
  | some t =>
    if s.mir.st ≠ .warm ∨ s.mir.role ≠ .standby ∨ s.tick < t then .next s
    else if s.inStates ownStates then .next (s.takeover .lone 1 1)
    else
      .next ((s.modMir fun m => { m with st := .orphan, takeoverAt := none }).raise 0x3203 0 (u8 s.pwr.dev.code))

/-- RECLAIM_CHECK: expiry + 50 µs + ReclaimWait after a lost Key; reclaimed where no HDM shows the partner (R363). -/
def execReclaimCheck (s : State) : Host.Outcome State Fault Refusal :=
  match s.mir.seenPartner with
  | none => .next s
  | some n =>
    let wait := s.num 0x3210 6
    if s.mir.st ≠ .orphan ∨ wait = 0 ∨ s.tick < s.mir.lastExpiry + 20000 + wait * 400 then .next s
    else if n = 0 then
      let s := s.takeHeads .lone (s.mir.keyGen + 2) 2
      .next (s.raise 0x3206 0 (u32 s.mir.keyGen))
    else
      .next ((s.modMir fun m => { m with seenPartner := none, cause := 6 }).raise 0x3214 0 (u8 (n - 1)))

/-- MirrorCommand (R347, R362, R367, R369). -/
def State.mirrorCommand (s : State) (v : Nat) : Except Nat State :=
  let m := s.mir
  let no : Except Nat State := .error (0x32030200 + v)
  if v = 1 then
    let common := (m.partner.map fun h => commonFormat (s.num 0x3210 5) h.versions.toNat).getD 0
    if m.st = .lone ∧ m.link ∧ common ≠ 0 then .ok ((s.modMir fun m => { m with format := common }).enterWarm) else no
  else if v = 2 then (if m.st = .warm ∧ m.role = .active then .ok (s.modMir fun m => { m with swap := true }) else no)
  else if v = 3 then
    if (m.st = .cold ∧ m.role = .standby) ∨ m.st = .orphan then .ok (s.takeover .lone 2 1) else no
  else (if m.st = .warm ∧ m.role = .active then .ok (s.modMir fun m => { m with dissolve := true }) else no)

/-- A position difference adopted: the channel's counter moves by it (R354). -/
def State.adoptChan (s : State) (n : Nat) (d : Int) : State :=
  s.modPch n fun c => { c with count := ofSigned 32 ((c.count : Int) + d) }

/-- A bar's difference adopted (R354): 0 HighWater, 1 NextLinePosition, 2 LineEventCount, 3 print line, 4 DutyLineIndex. A
line-number difference discards the bar's buffered lines, which FET issues again. -/
def State.adoptBar (s : State) (b i : Nat) (d : Int) : State :=
  let up := fun (w x : Nat) => ofSigned w ((x : Int) + d)
  let again := fun (s : State) =>
    let ready := (s.bar b).ready || (s.bar b).prepared.isSome
    let s := (s.dropFrom b (s.bar b).idx).modBar b fun x => { x with ready := ready }
    let x := s.bar b
    s.modJob b fun j => { j with idx := x.idx, p := x.p, slot := x.slot, held := none, last := none, ended := j.ended && x.slot.isNone }
  match i with
  | 0 => s.modLcg b fun k => { k with high := up 32 k.high }
  | 1 => s.modLcg b fun k => { k with next := up 48 k.next }
  | 2 => again (s.modLcg b fun k => { k with n := up 32 k.n })
  | 3 => again (s.modBar b fun x => { x with p := ((x.p : Int) + d).toNat })
  | _ => again (s.modBar b fun x => { x with dutyIdx := up 32 x.dutyIdx })

/-- The differences of the standby's own values from a block, by key: channels 0 to 11, then 16 + 8 * bar + item (R354). -/
def State.blockDiffs (s : State) (own blk : StateBlock) : List (Nat × Int) :=
  let chans := ((List.range 12).zip (own.chans.toList.zip blk.chans.toList)).map fun e =>
    (e.1, diff32 e.2.2.position.toNat e.2.1.position.toNat)
  let bars := ((List.range 8).zip (own.bars.toList.zip blk.bars.toList)).flatMap fun (e : Nat × BlkBar × BlkBar) =>
    let o := e.2.1
    let a := e.2.2
    [(16 + 8 * e.1, diff32 a.high.toNat o.high.toNat), (17 + 8 * e.1, diff48 a.next.toNat o.next.toNat),
     (18 + 8 * e.1, diff32 a.count.toNat o.count.toNat), (19 + 8 * e.1, diff32 a.p.toNat o.p.toNat),
     (20 + 8 * e.1, diff32 a.dutyIdx.toNat o.dutyIdx.toNat)]
  (chans ++ bars).filter fun e => e.2 != 0

/-- Differences that stand as in the cycle before are adopted; F3212h for a wide position difference or a line number adopted
(R354). -/
def State.adopt (s : State) (own blk : StateBlock) : State :=
  let now := s.blockDiffs own blk
  let s := forEach now (fun e s =>
    let same := kvGet s.mir.diffs e.1 == some e.2
    let wide := e.1 < 12 && decide (s.num 0x3210 7 < e.2.natAbs)
    let line := 16 ≤ e.1 && 2 ≤ e.1 % 8 && same
    let s := if wide then s.raise 0x3212 0 (u8 e.1 ++ u32 (ofSigned 32 e.2)) else s
    let s := if line then s.raise 0x3212 0 (u8 ((e.1 - 16) / 8) ++ u32 (ofSigned 32 e.2)) else s
    if !same then s
    else
      let s := if e.1 < 12 then s.adoptChan e.1 e.2 else s.adoptBar ((e.1 - 16) / 8) (e.1 % 8) e.2
      (s.modMir fun m => { m with corrections := (m.corrections + 1) % 2 ^ 32 }).bump 0x3212 4) s
  s.modMir fun m => { m with diffs := now }

/-- Colour hold of the standby from a block: AdvisedGain and integrators replaced, a differing live ZoneGain loaded (R355); a
format 1 block carries no integrators (R350). -/
def State.mirrorHold (s : State) (blk : StateBlock) : State :=
  forEach ((List.range 8).zip blk.bars.toList) (fun e s =>
    let c := e.1
    let zs := e.2.zones
    let s := s.setObj 0x281B (c + 1) (.bytes (zs.flatMap fun z => u16 z.1.toNat))
    let integ := if s.mir.format = 1 then []
      else ((List.range zs.length).zip zs).foldl (fun (t : List (Nat × Rat)) x => kvSet t 0 x.1 x.2.2.2) []
    let s := s.modChe c fun x => { x with integ := integ }
    let own := (List.range zs.length).map fun z => BitVec.ofNat 16 (s.liveGain c z)
    if own = zs.map (·.2.1) then s
    else
      let changed := ((own.zip zs).filter fun x => x.1 != x.2.2.1).length
      let s := match (s.cheBar c).load with
        | some old => s.holdLog c 1 old 0xFFFFFFFF
        | none => s
      let s := (s.setObj 0x2715 (c + 1) (.bytes (zs.flatMap fun z => u16 z.2.1.toNat))).setNum 0x281E (c + 1) s.stamp48
      s.modChe c fun x => { x with load := some (s.noLoad changed) }) s

/-- Whether the standby's READY slot `k` agrees with what the ACTIVE told of its own (R358). -/
def State.slotAgrees (s : State) (k : Nat) : Bool :=
  if (s.slot k).st ≠ .ready then true
  else match vget s.mir.partnerSlots k none with
    | some f => f.job.toNat == s.num 0x2210 (k + 1) && f.gen.toNat == s.num 0x2218 (k + 1) && f.sum.toNat == s.num 0x221D (k + 1)
    | none => match s.mir.block with
      | some b => b.slotSums.toList.getD k 0 == BitVec.ofNat 32 (s.num 0x221D (k + 1))
      | none => false

/-- SlotsMatch anew, with F3211h for each slot that has come to differ (R358). -/
def State.matchSlots (s : State) : State :=
  let bad := [0, 1].filter fun k => !s.slotAgrees k
  let sum := fun (k : Nat) => match vget s.mir.partnerSlots k none with
    | some f => f.sum.toNat
    | none => ((s.mir.block.map fun b => (b.slotSums.toList.getD k 0).toNat)).getD 0
  let s := forEach (bad.filter fun k => !s.mir.badSlots.contains k)
    (fun k s => s.raise 0x3211 0 (u8 k ++ u32 (s.num 0x221D (k + 1)) ++ u32 (sum k))) s
  s.modMir fun m => { m with slotsMatch := bad.isEmpty, badSlots := bad }

/-- StreamComplete: every bar has started a design line of a forwarded block (R359). -/
def State.streamStarted (s : State) : Bool :=
  s.mir.streamComplete
    || s.jobBars.all fun b => match vget s.mir.fwdFirst b none with
      | some f => decide (f ≤ s.num 0x2412 (b + 1))
      | none => false

/-- A SACK (R350). -/
def State.sendSack (s : State) (cycle result : Nat) : State :=
  s.linkSend 3 0 (padTo 32 (u32 cycle ++ u8 result ++ u8 s.pwr.dev.code
    ++ u8 (b2n s.mir.takeoverAt.isSome + 2 * b2n s.mir.slotsMatch + 4 * b2n s.mir.streamComplete) ++ u8 0 ++ u32 s.mir.corrections))

/-- STATE_FRAME_RECEIVED: the standby compares and adopts, mirrors colour hold and acknowledges; Handover makes it take over,
Dissolve ends the pair (R347, R352, R354, R355, R361, R367). `check` is 0, or the SACK Result of a frame that failed a check. A
standby that is not in WARM comes there by its partner's first STATE frame. -/
def execStateFrameReceived (cycle : BitVec 32) (flags : BitVec 8) (check : Fin 4) (block : StateBlock) (s : State) :
    Host.Outcome State Fault Refusal :=
  let s := if s.on domMIR ∧ s.mir.link ∧ s.mir.role = .standby ∧ check = 0 ∧ (s.mir.st = .hello ∨ s.mir.st = .cold ∨ s.mir.st = .orphan) then
      let (lat, t) := s.freeBelow 1601
      (t.modMir fun m => { m with latency := lat }).enterWarm
    else s
  if !s.linkWarm ∨ s.mir.role ≠ .standby then .next s
  else if check ≠ 0 then .next (s.sendSack cycle.toNat check.val)
  else
    let (own, s) := s.captureBlock
    let (fires, s) := s.fireStamps
    let s := s.modMir fun m => { m with cycle := cycle.toNat, block := some block, confirm := fires, keyGen := block.keyGen.toNat }
    let s := ((s.adopt own block).mirrorHold block).matchSlots
    let s := s.modMir fun m => { m with streamComplete := s.streamStarted, takeoverAt := some (s.tick + 220000) }
    let s := s.sendSack cycle.toNat 0
    if bit flags.toNat 0 then
      let s := s.takeover .warm 2 3
      .next ((s.bump 0x3212 7).raise 0x3207 0 (u32 s.mir.keyGen))
    else if bit flags.toNat 1 then .next (s.modMir fun m => { m with st := .orphan, takeoverAt := none })
    else .next s

/-- A raster block read from its bytes (R116). -/
def parseBlock (b : Bytes) : RasterBlock :=
  let at_ := fun (o n : Nat) => leAt b o n
  let len := at_ 20 4
  let tail := 32 + ceilDiv len 32 * 32
  { skipped := 0, magic := BitVec.ofNat 16 (at_ 0 2), headerVersion := BitVec.ofNat 8 (at_ 2 1), codec := BitVec.ofNat 8 (at_ 3 1),
    jobId := BitVec.ofNat 32 (at_ 4 4), barMask := BitVec.ofNat 8 (at_ 8 1), kind := BitVec.ofNat 8 (at_ 9 1),
    generation := BitVec.ofNat 16 (at_ 10 2), firstLine := BitVec.ofNat 32 (at_ 12 4), lineCount := BitVec.ofNat 16 (at_ 16 2),
    payloadLength := BitVec.ofNat 32 len, sequence := BitVec.ofNat 32 (at_ 24 4), headerCrc := BitVec.ofNat 32 (at_ 28 4),
    payload := slice b 32 len, blockCrc := BitVec.ofNat 32 (at_ tail 4), trailerSequence := BitVec.ofNat 32 (at_ (tail + 4) 4),
    endMagic := BitVec.ofNat 16 (at_ (tail + 8) 2), begun := true, laneErrors := Vector.replicate 4 0 }

/-- FWD_RECEIVED: segments reassembled in offset order; a whole block goes through the intake writer (R359). -/
def execFwdReceived (sequence off total : BitVec 32) (data : Bytes) (s : State) : Host.Outcome State Fault Refusal :=
  if !s.linkWarm ∨ !s.takesForwarded ∨ !s.on domRFE ∨ s.halted then .next s
  else
    let q := sequence.toNat
    let got : Option Bytes :=
      if off = 0 then some data
      else match s.mir.fwd with
        | some (p, t, b) => if p = q ∧ t = total.toNat ∧ b.length = off.toNat then some (b ++ data) else none
        | none => none
    match got with
    | none => .next s
    | some b =>
      if b.length < total.toNat then .next (s.modMir fun m => { m with fwd := some (q, total.toNat, b) })
      else
        let blk := parseBlock b
        let s := s.modMir fun m => { m with fwd := none }
        let n := s.rin.fifo.length
        let s := s.intake true blk
        .next (if n < s.rin.fifo.length then
            forEach (barsOf blk.barMask.toNat) (fun j s => s.modMir fun m =>
              { m with fwdFirst := vmod m.fwdFirst j fun x => some (min (x.getD blk.firstLine.toNat) blk.firstLine.toNat) }) s
          else s)

/-- SLOT_FRAME_RECEIVED: the partner's slot; the standby compares it with its own (R358). -/
def execSlotFrameReceived (f : SlotFrame) (s : State) : Host.Outcome State Fault Refusal :=
  if !s.linkWarm then .next s
  else
    let s := s.modMir fun m => { m with partnerSlots := vmod m.partnerSlots f.slot.toNat fun _ => some f }
    .next (if s.mir.role = .standby then s.matchSlots else s)

/-- REF_FRAME_RECEIVED: the standby takes the ACTIVE's Reference of a bar; no entries clear it (R350, R355). -/
def execRefFrameReceived (b : Bar) (entries : Bytes) (s : State) : Host.Outcome State Fault Refusal :=
  .next (if s.linkWarm ∧ s.mir.role = .standby ∧ s.on domCTL then s.setObj 0x2819 (b.val + 1) (.bytes entries) else s)

/-- MirrorStatus (R368). -/
def State.mirrorStatus (s : State) : Nat :=
  let m := s.mir
  m.st.code * 2 ^ 28 + m.role.code * 2 ^ 26 + b2n s.keyHeld * 2 ^ 25 + b2n m.takeoverAt.isSome * 2 ^ 24 + b2n m.link * 2 ^ 23
    + b2n m.partnerReady * 2 ^ 22 + b2n m.slotsMatch * 2 ^ 21 + b2n m.streamComplete * 2 ^ 20 + b2n m.diverged * 2 ^ 19
    + b2n (m.swap || m.handover) * 2 ^ 18 + m.format * 2 ^ 16 + m.locked * 2 ^ 8 + m.cause

/-- A block reset of MIR: the role stays, the link trains anew (R23, R386). -/
def State.mirBlockReset (s : State) : State :=
  ({ s with mir := { Mir.start s.mir.role with keyGen := s.mir.keyGen } } : State).mirLink

/-- Writes of MIR objects with an effect of their own. -/
def hookMir (idx sub : Nat) (v : Val) (s : State) : Option (Except Nat State) :=
  match idx, sub with
  | 0x3210, 1 => some (s.roleRequest v.toNum)
  | 0x3210, 3 => some (s.mirrorCommand v.toNum)
  | _, _ => none

/-- FormatVersions counts as running while the role is ACTIVE or STANDBY (R368). -/
def mirRuns (s : State) : Bool := s.mir.role != .solo

end Sys2Proof.Machine
end

