-- ==== Sys2Proof/Machine/Blocks.lean ====
section
/-! DEFINITION. Bolts, and the reset of one block (R383, R386, R450). -/

set_option Elab.async false

namespace Sys2Proof.Machine

/-- The bolt of a block shown or no longer shown. -/
def State.showBolt (s : State) (b : Block) (on : Bool) : State :=
  match boltBit b with
  | some (sub, i) =>
    let v := s.num 0x2F14 sub
    s.setNum 0x2F14 sub (if on then v ||| 2 ^ i else if bit v i then v - 2 ^ i else v)
  | none => s

/-- A lane stops sending in the middle of lines: each of its tokens on their way is withheld, its measurement ends (R243, R273, R289). -/
def State.laneSilent (s : State) (l : Nat) : State :=
  let bars := (List.range 8).filter fun b => (s.bar b).firing.any fun f => f.lanes.contains l
  let s := (s.laneUnlock l).modLane l fun x => { x with st := .down, tokens := [], tablesOut := [], tx := x.tx.cut }
  let s := s.measLaneLost l
  forEach bars (fun b s => s.laneDone b l false false) s

/-- A block is fenced (R216, R383). -/
def State.bolt (s : State) (b : Block) (cause : Nat) : State :=
  let s := s.showBolt b true
  match b.area with
  | 0x27 => s.engineOut b.unit cause .bolted
  | 0x2A =>
    let s := if (s.lane b.unit).st = .deep then s else s.sendRelease b.unit
    if (s.lane b.unit).st = .deep then s else s.laneSilent b.unit
  | 0x2C =>
    let s := forEach (s.cam b.unit).pending (fun r s => s.setPart b.unit r.i .fill markMissed) s
    (s.markOpen b.unit markMissed).modCam b.unit fun c => { c with batch := none, batchDue := false }
  | 0x26 => s.modUnit (b.unit - 16) fun _ => Cmp.start
  | 0x2B => s.measAbandon 3 .idle
  | _ => s

/-- A printing bar stops where a block reset begins, and waits for its next mark with the present repeat of its job
(R29, R386). -/
def State.barRestart (s : State) (b : Nat) : State :=
  let x := s.bar b
  if x.run = .printing ∨ x.run = .dry ∨ x.run = .reversed then
    let p := match x.slot with
      | some k => s.repeatStart k (s.repeatOf k x.p)
      | none => 0
    s.waitForMark b x.slot p
  else s

/-- Status and counters that a block reset sets to their reset values (R386). -/
def blockObject (b : Block) (idx sub : Nat) : Bool :=
  let here := b.unit == 255 || sub == b.unit + 1
  match b.area with
  | 0x24 => 0x2411 ≤ idx && idx ≤ 0x2414
  | 0x25 => here && 0x2524 ≤ idx && idx ≤ 0x2529
  | 0x26 => (here && b.unit != 16 && 0x2635 ≤ idx && idx ≤ 0x2639)
      || ((b.unit == 255 || sub + 15 == b.unit) && 0x2648 ≤ idx && idx ≤ 0x264B)
  | 0x27 => b.unit == 255 && ((0x2721 ≤ idx && idx ≤ 0x2727) || idx == 0x2732)
  | 0x28 => (0x281A ≤ idx && idx ≤ 0x281E) || (idx == 0x2820 && 12 ≤ sub) || (0x2830 ≤ idx && idx ≤ 0x2832)
  | 0x29 => idx == 0x2930 || (0x2940 ≤ idx && idx ≤ 0x294D) || idx == 0x2951 || idx == 0x2961 || idx == 0x2962
  | 0x2A => (here && 0x2A13 ≤ idx && idx ≤ 0x2A1E && idx != 0x2A18) || (here && (idx == 0x2A32 || idx == 0x2A33))
      || (b.unit == 255 && idx == 0x2A20 && sub == 6)
  | 0x2B => (idx == 0x2B10 && (sub == 3 || sub == 5)) || idx == 0x2B11 || idx == 0x2B18 || (0x2B1B ≤ idx && idx ≤ 0x2B1E)
  | 0x2C => here && (idx == 0x2C29 || idx == 0x2C31 || idx == 0x2C32 || (0x2C38 ≤ idx && idx ≤ 0x2C3F))
  | 0x2D => (idx == 0x2D10 && (sub == 9 || sub == 10)) || idx == 0x2D11 || (0x2D24 ≤ idx && idx ≤ 0x2D26) || idx == 0x2D41
  | 0x2E => (0x2E11 ≤ idx && idx ≤ 0x2E13) || (idx == 0x2E10 && sub == 1)
  | 0x32 => idx == 0x3212 || idx == 0x3213
  | _ => false

/-- The numbers of the units of a block: itself, or all below `n`. -/
def Block.units (b : Block) (n : Nat) : List Nat := if b.unit = 255 then List.range n else if b.unit < n then [b.unit] else []

/-- An engine's block reset: its slice is handed on and its self-test runs; on the host's request cause 5 (R215, R216, R220). -/
def State.engineReset (s : State) (n : Nat) (byHost : Bool) (cause : Nat) : State :=
  if (s.engine n).st = .off then s
  else
    let slice := (s.sliceServed n).getD 255
    let s := s.engineOut n (if byHost then 5 else cause) .selfTest
    if byHost then
      let (at_, s) := s.freeBytes 5
      s.raise (0x2700 + n) 5 (u8 5 ++ at_ ++ u8 slice)
    else s

/-- A block reset begins (R386): reset values, and what its table says; `cause` is that of the report that asked for it. -/
def State.blockReset (s : State) (b : Block) (byHost : Bool) (cause : Nat) : State :=
  let s := forEach (if b.unit = 255 ∧ b.area ≠ 0x28 ∧ b.area ≠ 0x2B ∧ b.area ≠ 0x2D then (List.range 48).map (Block.mk b.area) else [b])
    (fun x s => s.showBolt x false) s
  let s := s.modPwr fun p => { p with resets := p.resets ++ [(b.area, b.unit)] }
  let served := fun (n : Nat) => (List.range 8).filter fun i => barChannel s.obj i == n
  let s := match b.area with
    | 0x22 => s.rinBlockReset
    | 0x23 => forEach (b.units 4) (fun c s => s.chanBlockReset c) s
    | 0x24 => forRange 8 (fun i s => s.barRestart i) s
    | 0x25 => forEach (b.units 12) (fun n s => (forEach (served n) (fun i s => s.barRestart i) s).modPch n fun _ => Pch.start) s
    | 0x26 =>
      let s := forEach (b.units 8) (fun i (s : State) =>
        (s.barRestart i).modLcg i fun (k : Lcg) => ({ Lcg.start with st := if k.st = ClkSt.out then ClkSt.out else ClkSt.waiting } : Lcg)) s
      let us := if b.unit = 255 then List.range 16 else if 16 ≤ b.unit then [b.unit - 16] else []
      forEach us (fun u s => s.modUnit u fun x => { Cmp.start with enabled := x.enabled }) s
    | 0x27 => forEach (b.units 17) (fun n s => s.engineReset n byHost cause) s
    | 0x28 => { s with che := Che.start }
    | 0x29 =>
      let s := forRange 8 (fun i s => s.barRestart i) s
      forRange 8 (fun i s => s.modBar i fun x =>
        { BarFsq.start with run := x.run, idx := x.idx, p := x.p, slot := x.slot, buf := x.buf, ready := x.ready, written := x.written,
                            stopping := x.stopping, wasPrinting := x.wasPrinting }) s
    | 0x2A => forEach (b.units 32) (fun l (s : State) =>
        if (s.lane l).st = LaneSt.deep then s
        else (s.laneSilent l).modLane l fun x => { x.anew with st := .down }) s
    | 0x2B => { s.measAbandon 3 .idle with hdg := Hdg.start }
    | 0x2C => forEach (b.units 4) (fun p (s : State) =>
        s.camReset p) s
    | 0x2D => { s with vis := { Vis.start with ports := s.vis.ports, trigs := s.vis.trigs, lastI := s.vis.lastI } }
    | 0x2E => { s with fsq := { s.fsq with spdHigh := 0 } }
    | 0x32 => s.withRelease fun s => s.mirBlockReset
    | _ => s
  (s.clearObjs (blockObject b)).delaysChanged

/-- BLOCK_RESET_COMPLETE: the block reset that began first ends; head lanes retrain while AutoRetrain is 1 (R273, R386). -/
def execBlockResetComplete (s : State) : Host.Outcome State Fault Refusal :=
  match s.pwr.resets with
  | [] => .next s
  | (area, unit) :: rest =>
    let s := s.modPwr fun p => { p with resets := rest }
    .next (if area = 0x2A ∧ s.num 0x2A20 3 = 1 then
        forEach ((Block.mk area unit).units 32) (fun l s => if (s.lane l).st = .down ∧ !s.boltedLane l then s.laneAlign l else s) s
      else s)

end Sys2Proof.Machine
end

