-- ==== Sys2Proof/Machine/Strongbox.lean ====
section
/-! DEFINITION. BBX: the snapshot store and its writer, PFAIL_N (R392 to R398). -/

set_option Elab.async false

namespace Sys2Proof.Machine

/-- BBX changed. -/
def State.modBbx (s : State) (f : Bbx → Bbx) : State := { s with bbx := f s.bbx }

/-- A slot of the snapshot store. -/
def State.snap (s : State) (k : Nat) : SnapSlot := (kvGet s.bbx.slots k).getD SnapSlot.blank

/-- A slot of the snapshot store changed. -/
def State.modSnap (s : State) (k : Nat) (f : SnapSlot → SnapSlot) : State :=
  s.modBbx fun b => { b with slots := kvSet b.slots SnapSlot.blank k (f (s.snap k)) }

/-- Sequence `a` is later than `b`, modulo 2^32 (R397). -/
def seqLater (a b : Nat) : Bool := a != b && (a + 2 ^ 32 - b % 2 ^ 32) % 2 ^ 32 < 2 ^ 31

/-- The slot of the latest valid snapshot (R397). -/
def State.latestSnap (s : State) : Option Nat :=
  (List.range 64).foldl (fun (best : Option Nat) k =>
    if (s.snap k).state != .valid then best
    else match best with
      | some j => if seqLater (s.snap k).seq (s.snap j).seq then some k else some j
      | none => some k) none

/-- The slots that are not retired. -/
def State.usableSnaps (s : State) : List Nat := (List.range 64).filter fun k => (s.snap k).state != .retired

/-- The usable slot that follows a slot, or the lowest (R394). -/
def State.snapAfter (s : State) (after : Option Nat) : Option Nat :=
  match after with
  | some k => ((List.range 64).map fun i => (k + 1 + i) % 64).find? fun j => (s.snap j).state != .retired
  | none => s.usableSnaps.head?

/-- The writer starts to write a snapshot's content into a slot (R392, R394). -/
def State.writeSnap (s : State) (w : SnapWrite) : State :=
  let s := s.modSnap w.slot fun x => { SnapSlot.blank with state := .invalid, writes := (x.writes + 1) % 2 ^ 32 }
  s.modBbx fun b => { b with writing := some w }

/-- A snapshot starts now into the slot after `after`, carrying every cause that waits (R393, R394); its sequence follows the latest's. -/
def State.startSnapAfter (s : State) (after : Option Nat) (causes : Nat) : State :=
  match s.bbx.stopped || !s.pwr.aon || s.pwr.trip, s.snapAfter after with
  | false, some k =>
    let (seq, s) := match s.latestSnap with
      | some j => (((s.snap j).seq + 1) % 2 ^ 32, s)
      | none => s.freeBelow (2 ^ 32)
    let st := s.stamp48
    let recs := s.bbx.ring.drop (s.bbx.ring.length - 4092)
    let s := s.writeSnap
      { slot := k, records := recs, seq := seq, newest := (recs.getLast?.map (·.seq)).getD 0, causes := causes ||| s.bbx.deferred,
        ns := st % 2 ^ 32, era := st / 2 ^ 32 }
    s.modBbx fun b => { b with deferred := 0, lastStart := some s.tick }
  | _, _ => s

/-- A snapshot starts now (R393, R394). -/
def State.startSnap (s : State) (causes : Nat) : State := s.startSnapAfter s.latestSnap causes

/-- A trigger by a fault (cause bit 0) or the host (bit 2): at once, or deferred to the end of the minimum interval (R393). -/
def State.requestSnap (s : State) (causes : Nat) : State :=
  let soon := s.bbx.lastStart.any fun t => decide (s.tick < t + s.num 0x3011 2 * 400000)
  if s.bbx.stopped then s
  else if soon || s.bbx.writing.isSome then s.modBbx fun b => { b with deferred := b.deferred ||| causes }
  else s.startSnap causes

/-- A trigger that is never deferred (R393): PFAIL_N stops a snapshot in progress, a pending trip follows it (R395). -/
def State.forceSnap (s : State) (causes : Nat) : State :=
  match s.bbx.writing with
  | none => s.startSnap causes
  | some w =>
    if bit causes 1 then
      let s := (s.modBbx fun b => { b with writing := none }).raise 0x3001 0 (u8 w.slot)
      s.startSnapAfter (some w.slot) causes
    else s.modBbx fun b => { b with deferred := b.deferred ||| causes }

/-- SNAPSHOT_WRITE_DONE: the read-back ends; valid with F3000h, or the slot is retired and the snapshot written again (R394, R398). -/
def execSnapshotWriteDone (ok : Bool) (s : State) : Host.Outcome State Fault Refusal :=
  match s.bbx.writing with
  | none => .next s
  | some w =>
    let s := s.modBbx fun b => { b with writing := none }
    if ok then
      let s := s.modSnap w.slot fun x =>
        { x with state := .valid, records := w.records, seq := w.seq, newest := w.newest, causes := w.causes, ns := w.ns, era := w.era }
      let s := (s.bump 0x3011 7).raise 0x3000 0 (u8 w.slot ++ u32 w.seq ++ u8 w.causes)
      .next (if bit s.bbx.deferred 3 || bit s.bbx.deferred 1 then s.startSnap 0 else s)
    else
      let s := s.modSnap w.slot fun x => { x with state := .retired }
      let n := s.usableSnaps.length
      let s := s.raise 0x3005 0 (u8 w.slot ++ u8 (64 - n))
      if n < 2 then .next ((s.modBbx fun b => { b with stopped := true, deferred := 0 }).raise 0x3006 0 (u8 n))
      else match s.snapAfter (some w.slot) with
        | some k => .next (s.writeSnap { w with slot := k })
        | none => .next s

/-- SNAPSHOT_MIN_INTERVAL_EXPIRY: deferred triggers give one snapshot (R393). -/
def execSnapshotMinIntervalExpiry (s : State) : Host.Outcome State Fault Refusal :=
  .next (if s.bbx.deferred ≠ 0 ∧ s.bbx.writing.isNone then s.startSnap 0 else s)

/-- PFAIL_ASSERT: PFAIL_N low for 1 µs, counted where it was high for 10 ms; F3003h, whose record the snapshot holds: it starts when FLT
has logged that, or at once where FLT does not take it (R393, R395). -/
def execPfailAssert (s : State) : Host.Outcome State Fault Refusal :=
  let counts := !s.bbx.pfailLow && s.bbx.pfailRose.all fun t => decide (t + 4000000 ≤ s.tick)
  let s := s.modBbx fun b => { b with pfailLow := true }
  if !counts || !s.pwr.aon || s.pwr.dev == .off || s.pwr.trip then .next s
  else
    let waits := s.fltRuns && s.flt.queue.length < 64
    let s := s.bump 0x3011 9
    let s := s.raise 0x3003 0 (u32 (s.num 0x3011 9))
    .next (if waits then s else s.forceSnap 2)

/-- PFAIL_N_RISE: the 10 ms of R395 start. -/
def execPfailNRise (s : State) : Host.Outcome State Fault Refusal :=
  .next (if s.bbx.pfailLow then s.modBbx fun b => { b with pfailLow := false, pfailRose := some s.tick } else s)

/-- The Sequence of the next record after VDD_AON was lost (R374). -/
def State.seqAfterLoss (s : State) : Nat :=
  match s.latestSnap with
  | some k => ((s.snap k).newest + 1) % 2 ^ 32
  | none => 1

/-- BBX as a power-on reset leaves it: a snapshot in progress is lost; ring and counter are kept while VDD_AON stays in range (R39,
R391). -/
def State.bbxReset (s : State) (keep : Bool) : Bbx :=
  let b := Bbx.start
  let b := { b with slots := s.bbx.slots, stopped := s.bbx.stopped, pfailLow := s.bbx.pfailLow, pfailRose := s.bbx.pfailRose }
  if keep then { b with nextSeq := s.bbx.nextSeq, ring := s.bbx.ring } else { b with nextSeq := s.seqAfterLoss }

/-- SnapshotStatus (R402). -/
def State.snapStatus (s : State) : Nat :=
  let b := s.bbx
  (if b.writing.isSome then 2 else if b.deferred ≠ 0 then 1 else 0) * 2 ^ 28 + (s.latestSnap.getD 255) * 2 ^ 16
    + s.usableSnaps.length * 2 ^ 8 + b.deferred * 16 + b2n b.stopped

/-- SnapshotDirectory (R402). -/
def State.snapDirectory (s : State) : Bytes :=
  (List.range 64).flatMap fun k =>
    let x := s.snap k
    if x.state = .valid then u8 1 ++ u8 x.causes ++ u16 x.records.length ++ u32 x.seq ++ u48 (x.era * 2 ^ 32 + x.ns) ++ u16 0
    else padTo 16 (u8 x.state.code)

/-- A valid snapshot as it lies in its slot: records, zeros, trailer with its checksum (R392). -/
def State.snapBytes (s : State) (k : Nat) : Bytes :=
  let x := s.snap k
  let body := padTo 130944 (x.records.flatMap Record.toBytes)
    ++ padTo 124 ([0x53, 0x42, 0x4F, 0x58] ++ u32 x.seq ++ u32 x.newest ++ u16 x.records.length ++ u8 x.causes ++ u8 k
      ++ u48 (x.era * 2 ^ 32 + x.ns) ++ u16 0 ++ u64 s.fuses.serial ++ u32 x.writes)
  body ++ u32 (crc32c body)

end Sys2Proof.Machine
end

