-- ==== Sys2Proof/Machine/Power.lean ====
section
/-! DEFINITION. PWR's sequencer: state requests, FROZEN, resets, boot, power domains, DEEP and the pin wake (R22 to R55). -/

set_option Elab.async false

namespace Sys2Proof.Machine

/-- An abort code of states and domains (R54). -/
def pwrAbort (low : Nat) : Nat := 0x11000000 + low

/-- The transition or domain work that refuses further requests (R24, R47). -/
def State.pwrBusy (s : State) : Bool := s.pwr.trans.isSome || s.pwr.domWork.isSome

/-- The domains R26 requires for CONFIGURED, but for MIR. -/
def State.requiredDomains (s : State) : List Nat :=
  [domMGT, domNET] ++ (if s.num 0x2310 1 = 1 ∨ s.num 0x2310 2 = 1 then [domMEMA] else [])
    ++ (if s.num 0x2310 3 = 1 ∨ s.num 0x2310 4 = 1 then [domMEMB] else []) ++ [domRFE, domSN0, domSN1, domCTL, domHLK]

/-- What a CONFIGURED request from STANDBY lacks (R26, R54). -/
def State.configuredLacks (s : State) : Option Nat :=
  let need := s.requiredDomains ++ (if s.mir.role = .solo then [] else [domMIR])
  match need.find? (!s.on ·) with
  | some d => some (pwrAbort (0x40500 + d))
  | none => (s.enabled.find? fun c => (s.chan c).st == .frozen).map fun c => pwrAbort (0x40600 + c)

/-- What an ARMED request lacks (R27, R54). -/
def State.armedLacks (s : State) : Option Nat :=
  let q := s.num 0x2410 1
  let mask := match s.current with
    | some k => s.slotMask k
    | none => if q < 2 then s.slotMask q else 0
  let bars := barsOf mask
  match bars.find? fun b => (s.bar b).written != 31 with
  | some b => some (pwrAbort (0x40100 + b))
  | none => match bars.find? fun b => (s.map b).isEmpty with
    | some b => some (pwrAbort (0x40200 + b))
    | none =>
      match (bars.flatMap s.lanesOf).find? fun l => (s.lane l).st != .trained || (s.lane l).version < s.leastVersions with
      | some l => some (pwrAbort (0x40300 + l))
      | none => if s.fireEn then none else some (pwrAbort 0x40400)

/-- FROZEN entered (R31): what R31 lists happens at once. -/
def State.enterFrozen (s : State) : State :=
  let s := s.abandonTraining.abandonRequest.measAbandon 3 .stay
  let s := s.withRelease fun s => s.enter .frozen
  s.stopFiring

/-- STANDBY entered from CONFIGURED or FROZEN (R25, R132, R270). -/
def State.enterStandby (s : State) : State := (s.settleChange.clearBars.lanesStandby).enter .standby

/-- A CONFIGURED request starts its training (R26, R115, R159, R270). -/
def State.startConfigured (s : State) : State :=
  let s := s.beginRequest 4 1 (some .training)
  let s := forEach s.enabled (fun c s => s.trainForConfigured c) s
  forEach s.jobLanes (fun l s => s.trainLane l) s

/-- HELD entered; its bars stop at their line boundaries (R25, R28, R276). -/
def State.startHeld (s : State) : State :=
  let s := (s.beginRequest 7 4 (some .stopHeld)).enter .held
  let s := forRange 8 (fun b s => let s := s.stopBegin b
                                  if (s.bar b).stopping ∨ (s.bar b).firing.isSome then s else s.barIdle b) s
  s.stopsDone

/-- CONFIGURED requested in ARMED, PRINTING or HELD (R25, R28). -/
def State.stopForConfigured (s : State) : State :=
  let s := s.beginRequest 4 4 (some .stopConfigured)
  if s.pwr.dev = .held then s.enterConfigured.endRequest 0
  else (forRange 8 (fun b s => s.stopBegin b) s).stopsDone

/-- StateRequest (R24 to R31). -/
def State.stateRequest (s : State) (v : Nat) : Except Nat State :=
  if s.pwrBusy then .error (pwrAbort 0x50000)
  else
    let stop := fun (w : WokenLane) => s.measAbandon 1 w
    let no : Except Nat State := .error (pwrAbort 0x30000)
    match v, s.pwr.dev with
    | 3, .configured | 3, .frozen => .ok (((stop .idle).beginRequest 3 0 none).enterStandby.endRequest 0)
    | 4, .standby => match s.configuredLacks with
      | some e => .error e
      | none => .ok (stop .idle).startConfigured
    | 4, .armed | 4, .printing | 4, .held => .ok (stop .idle).stopForConfigured
    | 5, .configured => match s.armedLacks with
      | some e => .error e
      | none => .ok (((stop .idle).beginRequest 5 0 none).enterArmed.endRequest 0)
    | 6, .held => .ok ((stop .own).lanesResume.beginRequest 6 5 (some .resume))
    | 7, .armed | 7, .printing => .ok (stop .idle).startHeld
    | 8, .configured | 8, .armed | 8, .printing | 8, .held =>
      .ok ((((stop .idle).beginRequest 8 0 none).enterFrozen).endRequest 0)
    | _, _ => no

/-- A CONFIGURED request fails in training: F1003h (R25, R34, R55). -/
def State.trainingFails (s : State) (step unit result : Nat) : State :=
  let s := s.raise 0x1003 0 (u8 step ++ u8 unit ++ u8 result)
  (s.modPwr fun p => { p with progress := { p.progress with step := step, unit := unit } }).endRequest result

/-- CONFIGURED_TRAINING_DONE: CONFIGURED once every channel, the Raster port and every job lane is trained; a failure ends the request
(R25, R26, R34, R270). -/
def execConfiguredTrainingDone (s : State) : Host.Outcome State Fault Refusal :=
  if s.pwr.trans ≠ some .training then .next s
  else
    let ready := fun (c : Nat) => (s.chan c).serves
    let bad := fun (c : Nat) => !(ready c) && (s.chan c).st != .training && (s.chan c).st != .freqChange
    match s.enabled.find? bad, s.jobLanes.find? fun l => (s.lane l).st == .down with
    | some c, _ => .next (s.trainingFails 1 c 1)
    | none, some l =>
      .next (if s.boltedLane l then s.abandonTraining.abandonRequest else s.trainingFails 3 l (if (s.lane l).failCause = 4 then 4 else 3))
    | none, none =>
      if s.enabled.all ready && s.rin.linkUp && s.jobLanes.all fun l => (s.lane l).st == .trained then
        .next (s.fixSoloGen.enterConfigured.sendOwners.endRequest 0)
      else .next s

/-- RASTER_TRAINING_TIMEOUT: the Raster port is not up within 50 ms; Result 2 (R115). -/
def execRasterTrainingTimeout (s : State) : Host.Outcome State Fault Refusal :=
  .next (if s.pwr.trans = some .training ∧ !s.rin.linkUp then s.trainingFails 2 0 2 else s)

/-- A bar of HELD resumes: with its next line, or to wait for its mark (R29). -/
def State.resumeBar (s : State) (b : Nat) : State :=
  let x := s.bar b
  if x.run ≠ .held then s
  else if !x.wasPrinting then
    (s.modBar b fun x => { x with run := .waiting }).modLcg b fun k => { k with st := .waiting }
  else if s.num 0x1100 5 = 0 then
    let back := (vget s.lcg b Lcg.start).st == .reversed
    s.modBar b fun x => { x with run := if back then .reversed else if x.dry then .dry else .printing, wasPrinting := false, ready := true }
  else match x.slot with
    | some k => s.waitForMark b x.slot (s.repeatStart k (s.repeatOf k x.p))
    | none => s.waitForMark b none 0

/-- Some lane sends its training burst. -/
def State.anyLaneResumes (s : State) : Bool := (List.range 32).any fun l => (s.lane l).st == .resuming

/-- RESUME_BURST_END: the training burst ends, OWNER frames first, and the bars resume; after a takeover the printing bars prepare
anew (R29, R52, R276, R362). -/
def execResumeBurstEnd (failed : BitVec 32) (s : State) : Host.Outcome State Fault Refusal :=
  match s.pwr.trans with
  | some .resume =>
    let goes := s.num 0x1100 5 == 0 && s.anyBar fun x => x.run == .held && x.wasPrinting
    let s := s.burstEnds failed.toNat
    let s := forRange 8 (fun b s => s.resumeBar b) s
    let s := if goes then s.enter .printing else s.toArmed
    .next (s.endRequest 0)
  | _ =>
    if s.anyLaneResumes then .next ((s.burstEnds failed.toNat).prepareAnew) else .next s

end Sys2Proof.Machine
end

