-- ==== Sys2Proof/Machine/PowerUp.lean ====
section
/-! DEFINITION. Supplies, resets and boot; power domains, DEEP and the pin wake (R25, R35 to R50, R451). -/

set_option Elab.async false

namespace Sys2Proof.Machine

/-- Objects that outlive their domain: freeze captures, what AON holds of PWR, the addresses (R39, R49, R90, R154). -/
def keptObject (idx sub : Nat) : Bool :=
  (0x2330 ≤ idx && idx ≤ 0x2335) || (idx == 0x1110 && 3 ≤ sub) || (idx == 0x1120 && sub == 4) || (idx == 0x2020 && 2 ≤ sub)
    || idx == 0x3130

/-- The addresses, in non-volatile memory (R90). -/
def nonVolObject (idx sub : Nat) : Bool := idx == 0x2020 && 2 ≤ sub

/-- The state after a power-on reset: what R39 lets survive, the pins, the modules outside; a running measurement's records wait in AON
(R287, R451). The device state is to be set. -/
def State.powerOnReset (s : State) : State :=
  let keep := s.pwr.aon
  let p := { Pwr.start with supplies := s.pwr.supplies, aon := s.pwr.aon, aonKept := s.pwr.aonKept && keep, porst := s.pwr.porst,
                            trip := s.pwr.trip, tripDown := s.pwr.tripDown, bootKept := if keep then s.pwr.bootKept else [],
                            prevBoot := if keep then s.pwr.prevBoot else 3, cause := 1, dev := s.pwr.dev, bootTick := s.tick
                            doms := if s.pwr.trip then aonOnlyDoms else resetDoms, domOn := Vector.replicate 12 s.tick }
  { State.reset with
    pending := s.pending, tick := s.tick, fresh := s.fresh, sent := s.sent, fuses := s.fuses, nonVol := s.nonVol, hdms := s.hdms
    fireEn := s.fireEn, pwr := p, bbx := { s.bbxReset keep with waiting := if keep then s.abandonReports 3 else [] }, tim := Tim.start s.tick, therm := Therm.start s.tick
    objs := s.objs.filter fun e => nonVolObject (e.1 / 256) (e.1 % 256) }

/-- The state after a chip reset: AON carries on; freeze captures and training results too; a running measurement's records wait in AON
(R39, R154, R158, R287, R451). -/
def State.chipReset (s : State) (cause : Nat) : State :=
  let p := { s.pwr with dev := .boot, bootHeld := false, bootTick := s.tick, trans := none, domWork := none, chipPending := none,
                        resets := [], cause := cause, doms := resetDoms, domOn := Vector.replicate 12 s.tick,
                        progress := Pwr.start.progress }
  let t : State :=
    { State.reset with
      pending := s.pending, tick := s.tick, fresh := s.fresh, sent := s.sent, fuses := s.fuses, nonVol := s.nonVol, hdms := s.hdms
      fireEn := s.fireEn, pwr := p, bbx := { s.bbx with waiting := s.bbx.waiting ++ s.abandonReports 3 }, tim := Tim.start s.tick, therm := Therm.start s.tick, aonDiodes := s.aonDiodes
      flt := { Flt.start with counts := s.flt.counts }
      mem := s.mem.map fun (m : Mch) => { Mch.start with stored0 := m.stored0, stored1 := m.stored1 }
      objs := s.objs.filter fun e => keptObject (e.1 / 256) (e.1 % 256) || e.1 / 65536 == 0x30 }
  t.bump 0x1120 4

/-- SUPPLIES_IN_RANGE: with PORST_N low, OFF leads to RESET (R25). -/
def execSuppliesInRange (s : State) : Host.Outcome State Fault Refusal :=
  let s := s.modPwr fun p => { p with supplies := true, aon := true }
  .next (if s.pwr.dev = .off ∧ !s.pwr.porst then s.powerOnReset.modPwr fun p => { p with dev := .reset } else s)

/-- SUPPLY_OUT_OF_RANGE: OFF; VDD_AON (supply 2) takes the ring with it (R22, R391, R429). -/
def execSupplyOutOfRange (supply : Fin 8) (s : State) : Host.Outcome State Fault Refusal :=
  let s := s.modPwr fun p => { p with supplies := false, aon := p.aon && supply.val != 2 }
  .next (s.powerOnReset.modPwr fun p => { p with dev := .off, doms := if p.aon then aonOnlyDoms else Vector.replicate 12 .off })

/-- PORST_LOW: a power-on reset, unless the trip is latched (R25, R39, R40). -/
def execPorstLow (s : State) : Host.Outcome State Fault Refusal :=
  let s := s.modPwr fun p => { p with porst := false }
  if s.pwr.trip then .next s
  else if s.pwr.dev = .off ∧ !(s.pwr.supplies && s.pwr.aon) then .next s
  else .next (s.powerOnReset.modPwr fun p => { p with dev := .reset })

/-- PORST_RISE: RESET leads to BOOT with the trip latch clear (R25). -/
def execPorstRise (s : State) : Host.Outcome State Fault Refusal :=
  let s := s.modPwr fun p => { p with porst := true }
  .next (if s.pwr.dev = .reset ∧ !s.pwr.trip then s.modPwr fun p => { p with dev := .boot, bootTick := s.tick, bootHeld := false } else s)

/-- VDD_AON_REMOVED: the latch clears and the ring is lost (R391, R420). -/
def execVddAonRemoved (s : State) : Host.Outcome State Fault Refusal :=
  let s := s.modPwr fun p => { p with supplies := false, aon := false, trip := false, tripDown := false }
  .next (s.powerOnReset.modPwr fun p => { p with dev := .off, doms := Vector.replicate 12 .off })

/-- The point that a public key of 96 bytes names, its coordinates most significant byte first; a key of another length names none
(assumption 66). -/
def keyPoint (k : Bytes) : P384 := if k.length = 96 then { x := beNat (k.take 48), y := beNat (k.drop 48), z := 1 } else { x := 0, y := 0, z := 1 }

/-- The status of an image slot: the digest of its key against the fuses, its security version, its signature (R36, R41). -/
def State.imageStatus (s : State) (i : Image) : Nat :=
  if !i.readOk then 5
  else if !i.headerOk then 1
  else if sha384 i.publicKey ≠ beBytes 48 s.fuses.keyHash.toNat then 2
  else if i.security.toNat < s.fuses.security then 3
  else if !ecdsaVerify (keyPoint i.publicKey) (beNat (sha384 i.signed)) i.sigR.toNat i.sigS.toNat then 4
  else 0

/-- A report that a boot logs, with its stamp. -/
def State.bootReport (s : State) (src cause stamp : Nat) (data : Bytes) : Report :=
  { s.mkReport src cause data with stamp := stamp }

/-- What a boot logs from its step 7, in the order of R451; `a` and `b` are the statuses of the slots that failed. -/
def State.bootRecords (s : State) (fresh : Bool) (a b : Nat) : State :=
  let (sa, s) := s.freeBelow (2 ^ 32)
  let (sb, s) := s.freeBelow (2 ^ 32)
  let (s0, s) := s.freeBelow (2 ^ 32)
  let (why, s) := s.freeBelow 256
  let slotA := fun (st stamp : Nat) => if st = 0 then [] else [s.bootReport 0x1001 0 stamp (u8 st)]
  let slotB := fun (st stamp : Nat) => if st = 0 then [] else [s.bootReport 0x1002 0 stamp (u8 st)]
  let latest := s.latestSnap
  let seq := (latest.map fun k => (s.snap k).seq).getD 0
  let bad := (List.range 64).filter fun k => (s.snap k).state == .invalid && s.bbx.writing.all fun w => w.slot != k
  let start := if fresh then [s.bootReport 0x3004 0 s0 (u32 s.bbx.nextSeq)] else []
  let kept := s.pwr.bootKept.flatMap fun k => slotA k.slotA k.stampA ++ slotB k.slotB k.stampB
  let trip := match latest with
    | some k => if bit (s.snap k).causes 3 then [s.bootReport 0x3105 0 s.stamp (u32 (s.snap k).seq ++ u32 (s.snap k).newest)] else []
    | none => []
  let l := start ++ [s.bootReport 0x2181 why 0 (u8 why)] ++ kept ++ slotA a sa ++ slotB b sb
    ++ bad.map (fun k => s.bootReport 0x3002 0 s.stamp (u8 k ++ u32 seq)) ++ trip ++ s.bbx.waiting
  let s := forEach l (fun r s => s.noteRail r) { s with flt := { s.flt with queue := s.flt.queue ++ l } }
  (s.modBbx fun x => { x with waiting := [] }).modPwr fun p => { p with bootKept := [] }

/-- Firmware starts from slot A, or B where A failed: BootResult and the images' versions (R36, R41). -/
def State.firmware (s : State) (a b : Image) : Option State :=
  let sa := s.imageStatus a
  let sb := if sa = 0 then 0 else s.imageStatus b
  if sa ≠ 0 ∧ sb ≠ 0 then none
  else
    let img := if sa = 0 then a else b
    let s := s.setNum 0x1130 1 ((if sa = 0 then 1 else 2) * 2 ^ 10 + s.pwr.prevBoot * 2 ^ 8 + sb * 16 + sa)
    let s := (s.setNum 0x1130 3 img.firmware.toNat).setNum 0x1130 4 img.security.toNat
    some ((s.setNum 0x1120 3 s.pwr.cause).modPwr fun p => { p with prevBoot := 0 })

/-- A boot in which both slots fail: its records stay in AON (R36, R38, R451). -/
def State.bootFails (s : State) (a b : Image) : State :=
  let (sa, s) := s.freeBelow (2 ^ 32)
  let (sb, s) := s.freeBelow (2 ^ 32)
  s.modPwr fun p =>
    { p with prevBoot := 1, bootKept := p.bootKept ++ [{ slotA := s.imageStatus a, slotB := s.imageStatus b, stampA := sa, stampB := sb }] }

/-- BOOT_COMPLETE: STANDBY with firmware from a slot that authenticates, else BOOT is held until the next reset (R25, R36, R37, R451). -/
def execBootComplete (a b : Image) (s : State) : Host.Outcome State Fault Refusal :=
  if s.pwr.dev ≠ .boot ∨ s.pwr.bootHeld then .next s
  else match s.firmware a b with
    | none => .next ((s.bootFails a b).modPwr fun p => { p with bootHeld := true })
    | some s =>
      let fresh := !s.pwr.aonKept
      let (ms, s) := s.freeQuot ((s.tick - s.pwr.bootTick : Nat) : Int) 400000
      let (ms, s) := s.fit 32 ms.toNat
      let s := s.setNum 0x1130 2 ms
      let s := ((s.modPwr fun p => { p with aonKept := true }).enter .standby).phySetup
      .next (s.bootRecords fresh (s.imageStatus a) (if s.imageStatus a = 0 then 0 else s.imageStatus b))

/-- Shadow and staged values of the objects for which `p` holds thrown away. -/
def State.dropShadow (s : State) (p : Nat → Nat → Bool) : State :=
  let keep := fun (e : Nat × Val) => !p (e.1 / 256) (e.1 % 256)
  { s with wilwa := { s.wilwa with shadow := s.wilwa.shadow.filter keep, staged := s.wilwa.staged.filter keep } }

/-- A power domain's state as DomainStatus shows it. -/
def State.dom (s : State) (d : Nat) : DomSt := vget s.pwr.doms d .off

/-- What is lost with a domain that goes OFF: its objects and its blocks' state (R39, R45). -/
def State.domainLost (s : State) (d : Nat) : State :=
  let mine := fun (idx sub : Nat) => objDomain idx sub == d && !keptObject idx sub
  let s := (s.clearObjs mine).dropShadow mine
  if d = domMGT then { s with wilwa := Wilwa.start, flt := { Flt.start with counts := s.flt.counts }, therm := Therm.start s.tick }
  else if d = domNET then { s with net := Net.start, tim := Tim.start s.tick }
  else if d = domRFE then { s with rin := Rin.start, fet := Fet.start, fsq := { s.fsq with jobMask := 0 } }
  else if d = domCTL then
    let s := { s with pos := Vector.replicate 12 Pch.start, lcg := Vector.replicate 8 Lcg.start, cmp := Vector.replicate 16 Cmp.start
                      che := Che.start, fsq := { Fsq.start with fireEdge := s.fsq.fireEdge } }
    forRange 8 (fun b s => s.barAtOnce b) s
  else if d = domSN0 then s.enginesOff (· ≤ 8)
  else if d = domSN1 then s.enginesOff (9 ≤ ·)
  else if d = domHLK then { s with hlk := Hlk.start, hdg := Hdg.start }
  else if d = domVIS then ({ s with vis := Vis.start } : State).visAtOnce
  else if d = domMIR then { s with mir := Mir.start s.mir.role }
  else s

/-- Bolts of the units that a domain holds are lifted by its switch-off (R383). -/
def State.boltsLifted (s : State) (d : Nat) : State :=
  let down := fun (s : State) (area lo n : Nat) => (List.range n).foldl (fun s i => s.showBolt ⟨area, lo + i⟩ false) s
  if d = domSN0 then down s 0x27 0 9
  else if d = domSN1 then down s 0x27 9 8
  else if d = domHLK then (down s 0x2A 0 32).showBolt ⟨0x2B, 255⟩ false
  else if d = domVIS then (down s 0x2C 0 4).showBolt ⟨0x2D, 255⟩ false
  else if d = domCTL then (down s 0x26 16 16).showBolt ⟨0x28, 255⟩ false
  else s

/-- A memory domain switched OFF with a channel enabled empties the job slots (R127). -/
def State.slotsLost (s : State) (d : Nat) : State :=
  let chans := if d = domMEMA then [0, 1] else [2, 3]
  if chans.any fun c => s.num 0x2310 (c + 1) == 1 then
    let s := forRange 2 (fun k s =>
      if (s.slot k).st = .empty then s
      else
        let s := (s.emptySlot k).setNum 0x221D (k + 1) 0
        let s := if s.num 0x2410 1 = k then s.setNum 0x2410 1 0xFF else s
        if s.num 0x2410 2 = k then s.setNum 0x2410 2 0xFF else s) s
    if s.current.isNone then { s with fsq := { s.fsq with jobMask := 0 } } else s
  else s

/-- One domain changes its state (R42, R45, R49, R163). -/
def State.setDomain (s : State) (d : Nat) (st : DomSt) : State :=
  let old := s.dom d
  let enter := fun (s : State) => s.modPwr fun p =>
    { p with doms := vmod p.doms d fun _ => st, domOn := if st = .on then vmod p.domOn d fun _ => s.tick else p.domOn }
  let chans := if d = domMEMA then [0, 1] else [2, 3]
  if old = st then s
  else if d = domMEMA ∨ d = domMEMB then
    match st with
    | .off => forEach chans (fun c s => s.chanOff c) (enter (s.slotsLost d))
    | .retain => enter (forEach chans (fun c s => s.chanRetain c) s)
    | .on => forEach chans (fun c s => s.chanOn c) (enter s)
  else if st = .off then
    let s := if d = domHLK then s.measAbandon 3 .idle else s
    (enter ((s.boltsLifted d).domainLost d)).delaysChanged
  else
    let s := enter s
    if d = domMGT then { s with therm := Therm.start s.tick }
    else if d = domNET then { s with tim := Tim.start s.tick }
    else if d = domSN0 then s.enginesOn (· ≤ 8)
    else if d = domSN1 then s.enginesOn (9 ≤ ·)
    else if d = domMIR then s.mirLink
    else s

/-- The domains in the table order of R45. -/
def domainOrder : List Nat := [domMGT, domNET, domMEMA, domMEMB, domRFE, domCTL, domSN0, domSN1, domHLK, domVIS, domMIR]

/-- The condition of DEEP (R48). -/
def deepDoms (dom : Nat → DomSt) : Bool :=
  [domRFE, domSN0, domSN1, domCTL, domHLK, domVIS, domMIR].all (dom · == .off)
    && (dom domMEMA == .retain || dom domMEMB == .retain) && dom domMEMA != .on && dom domMEMB != .on

/-- A parent relation that a set of domain states breaks, by the domain (R45). -/
def parentBroken (dom : Nat → DomSt) : Option Nat :=
  let on := fun (d : Nat) => dom d == .on
  domainOrder.find? fun d => on d && !(match d with
    | 5 | 8 | 11 | 3 | 4 => on domMGT
    | 6 | 7 => on domRFE && on domCTL
    | 9 => on domCTL
    | 10 => on domCTL && (on domMEMA || on domMEMB)
    | _ => true)

/-- The state that a DomainRequest asks of a domain (R44). -/
def State.domWanted (s : State) (v d : Nat) : DomSt :=
  match bits v (2 * d + 1) (2 * d) with
  | 0 => .off
  | 1 => .on
  | 2 => .retain
  | _ => s.dom d

/-- DomainRequest (R44 to R47). -/
def State.domainRequest (s : State) (v : Nat) : Except Nat State :=
  let want := fun (d : Nat) => if d = 0 then .on else s.domWanted v d
  let off := fun (d : Nat) => bits v (2 * d + 1) (2 * d) == 0
  let lost := fun (d : Nat) => s.dom d == .on && want d != .on
  let busyState := s.inStates [.configured, .armed, .printing, .held, .frozen]
  if bits v 30 24 ≠ 0 ∨ (bits v 1 0 ≠ 1 ∧ bits v 1 0 ≠ 3) then .error (pwrAbort 0x60600)
  else if s.pwrBusy then .error (pwrAbort 0x50000)
  else match parentBroken want with
    | some d => .error (pwrAbort (0x40700 + d))
    | none =>
      match (if busyState then s.requiredDomains else []).find? lost with
      | some d => .error (pwrAbort (0x30100 + d))
      | none =>
        if s.mir.role ≠ .solo ∧ lost domMIR then .error (pwrAbort (0x30100 + domMIR))
        else match domainOrder.find? fun d => bits v (2 * d + 1) (2 * d) == 2 && d != domMEMA && d != domMEMB with
          | some d => .error (pwrAbort (0x40900 + d))
          | none =>
            if (off domMGT || off domNET)
                && !(off domMGT && off domNET && s.num 0x1110 3 == 1 && s.pwr.dev == .deep && deepDoms want) then
              .error (pwrAbort 0x40800)
            else
              let ch := domainOrder.filter fun d => want d != s.dom d
              let downs := (ch.reverse.filter fun d => want d != .on).map fun d => (d, want d)
              let ups := (ch.filter fun d => want d == .on).map fun d => (d, want d)
              let s := (s.setNum 0x1110 1 (v % 2 ^ 31 / 4 * 4 + 1)).modPwr fun p =>
                { p with domWork := some { changes := downs ++ ups, waitReply := off domMGT }
                         progress := { p.progress with step := 6 } }
              .ok (forRange 4 (fun c s => if s.retainPending c then s.beginRetain c else s) s)

/-- The changes of a domain request applied one by one; one whose SRAM fails its self-test stays OFF, and the rest is abandoned
(R45, R55). -/
def State.applyDomains (failed : Option (Nat × Nat)) : List (Nat × DomSt) → State → State
  | [], s => s
  | (d, st) :: rest, s =>
    match failed with
    | some (f, addr) =>
      if f = d ∧ st = .on then s.raise 0x1005 0 (u8 d ++ u32 addr) else State.applyDomains failed rest (s.setDomain d st)
    | none => State.applyDomains failed rest (s.setDomain d st)

/-- A domain request ends: DEEP is entered or left as the result says, StateDone (R48, R82). -/
def State.domainsDone (s : State) (w : DomWork) (failed : Option (Nat × Nat)) : State :=
  let s := State.applyDomains failed w.changes s
  let s := { s with mem := s.mem.map fun (m : Mch) => if m.leaving = some Leaving.retain then { m with leaving := none } else m }
  let s := s.modPwr fun p => { p with domWork := none, progress := { p.progress with step := if p.progress.step = 6 then 0 else p.progress.step } }
  let deep := deepDoms s.dom
  let s := if s.pwr.dev = .standby ∧ deep then s.enter .deep else if s.pwr.dev = .deep ∧ !deep then s.enter .standby else s
  if s.on domMGT then s.irq 1 else s

/-- A channel that goes to RETAIN has not finished its queues or its step: the request is still busy (R163). -/
def State.channelsBusy (s : State) : Bool := (List.range 4).any fun c => s.retainPending c && !(s.chan c).readyToRetain

/-- DOMAIN_SEQUENCE_DONE; nothing while a channel keeps the request busy (R45, R48, R55, R163). -/
def execDomainSequenceDone (failed : Option (Fin 12 × BitVec 32)) (s : State) : Host.Outcome State Fault Refusal :=
  match s.pwr.domWork with
  | some w => .next (if w.waitReply ∨ s.channelsBusy then s else s.domainsDone w (failed.map fun f => (f.1.val, f.2.toNat)))
  | none => .next s

/-- MGT_NET_OFF_DELAY_EXPIRY: 1 ms after the response MGT and NET go OFF; the dictionary falls silent (R47, R49). -/
def execMgtNetOffDelayExpiry (s : State) : Host.Outcome State Fault Refusal :=
  match s.pwr.domWork with
  | some w => .next (if w.waitReply then s.domainsDone w none else s)
  | none => .next s

/-- WAKE_N_ASSERT: WAKE_N low for 10 µs wakes MGT and NET from DEEP, or is counted as ignored (R49, R50). -/
def execWakeNAssert (a b : Image) (s : State) : Host.Outcome State Fault Refusal :=
  if s.pwr.trip || s.pwr.dev == .off || s.pwr.dev == .reset then .next s
  else if s.on domMGT || s.num 0x1110 3 == 0 then
    let s := s.bump 0x1110 5
    .next (s.raise 0x1004 0 (u8 (s.dom domMGT).code ++ u8 (s.num 0x1110 3)))
  else
    let s := s.bump 0x1110 4
    match s.firmware a b with
    | none => .next (s.bootFails a b)
    | some s =>
      let s := (s.setDomain domMGT .on).setDomain domNET .on
      let (ms, s) := s.freeBelow (2 ^ 32)
      let s := (s.setNum 0x1130 2 ms).phySetup
      .next (s.bootRecords false (s.imageStatus a) (if s.imageStatus a = 0 then 0 else s.imageStatus b))

/-- ResetRequest (R41, R386). -/
def State.resetRequest (s : State) (v : Nat) : Except Nat State :=
  if v = 1 then .ok (s.modPwr fun p => { p with chipPending := some 2 })
  else
    let sel := s.num 0x1120 2
    if areaResettable (sel / 256) then .ok (s.blockReset ⟨sel / 256, sel % 256⟩ true 0)
    else .error (pwrAbort (0x40A00 + sel / 256))

/-- CHIP_RESET: a chip reset that was asked for takes effect; boot starts from its first step (R39, R41, R387). -/
def execChipReset (s : State) : Host.Outcome State Fault Refusal :=
  match s.pwr.chipPending with
  | some cause => .next (if s.pwr.trip then s else s.chipReset cause)
  | none => .next s

/-- Writes of PWR's objects with an effect of their own; a BlockSelect may only name a unit its subsystem has (R450). -/
def hookPower (idx sub : Nat) (v : Val) (s : State) : Option (Except Nat State) :=
  let n := v.toNum
  match idx, sub with
  | 0x1100, 2 => some (s.stateRequest n)
  | 0x1110, 1 => some (s.domainRequest n)
  | 0x1120, 1 => some (s.resetRequest n)
  | 0x1120, 2 => some (if n % 256 = 255 || unitExists (n / 256) (n % 256) then .ok (s.setNum 0x1120 2 n) else .error (pwrAbort 0x60600))
  | _, _ => none

/-- StateStatus; while a CONFIGURED request trains, its step and unit are those that training is at (R34). -/
def State.stateStatus (s : State) : Nat :=
  let p := s.pwr.progress
  let (step, unit) := if s.pwr.trans = some .training then s.trainingAt else (p.step, p.unit)
  p.target * 2 ^ 28 + step * 2 ^ 24 + unit * 2 ^ 16 + p.result * 2 ^ 8 + b2n p.busy * 2 ^ 7 + b2n s.fireEn * 2 ^ 6
    + b2n s.fireOk * 2 ^ 5 + b2n ((List.range 4).any fun c => (s.chan c).st == .frozen) * 2 ^ 4

/-- DomainStatus (R44). -/
def State.domainStatus (s : State) : Nat :=
  b2n s.pwr.domWork.isSome * 2 ^ 31 + (List.range 12).foldl (fun n d => n + (s.dom d).code * 2 ^ (2 * d)) 0

end Sys2Proof.Machine
end

