-- ==== Sys2Proof/Machine/Thermal.lean ====
section
/-! DEFINITION. PWR's thermal model, housekeeping round, die band, throttle ladder and the trip (R405 to R424). Temperatures are
binary32 numbers, held exactly. -/

set_option Elab.async false

namespace Sys2Proof.Machine

/-- The thermal part changed. -/
def State.modTherm (s : State) (f : Therm → Therm) : State := { s with therm := f s.therm }

/-- A temperature or power in s8.8 or u8.8 as it is published: 16 bits (R406). -/
def s88 (x : Rat) : Nat := ofSigned 16 (x * 256 + 1 / 2).floor

/-- The islands of a node (R405, R9). -/
def nodeIslands (i : Nat) : List Nat :=
  if i < 8 then [8 + 2 * i, 9 + 2 * i]
  else match i with
    | 8 => [4, 24]
    | 9 => [5]
    | 10 => [6]
    | 11 => [7]
    | 19 => [3, 25]
    | 20 => [26]
    | 21 => [0, 1, 2, 27]
    | _ => []

/-- The node of a diode (R405). -/
def diodeNode (d : Nat) : Nat := ([0, 2, 5, 7, 9, 12, 16, 20] : List Nat).getD d 0

/-- The node of an engine (R405). -/
def engineNode (e : Nat) : Nat := e / 2

/-- A sum in binary32, from the left. -/
def sum32 (l : List Rat) : Rat := l.foldl (fun a x => r32 (a + x)) 0

/-- The 100 µs of an update in binary32. -/
def modelDt : Rat := r32 (1 / 10000)

/-- The estimated power of an island in an update, before its supply's scale (R406). -/
def islandPower (counts : List (List Nat)) (n : Nat) : Rat :=
  let c := counts.getD n []
  r32 (sum32 ((List.range c.length).map fun k => r32 (r32 (c.getD k 0) * Config.energy n k)) / modelDt)

/-- p[i] (R406). -/
def State.nodePower (s : State) (counts : List (List Nat)) (i : Nat) : Rat :=
  let islands := (nodeIslands i).map fun n => r32 (islandPower counts n * vget s.therm.scale (Config.islandSupply n) 1)
  r32 (sum32 islands + Config.leak i (vget s.therm.t i 0))

/-- t_new[i] from the temperatures at the start of the update (R406). -/
def State.nodeNext (s : State) (power : Rat) (i : Nat) : Rat :=
  let t := fun (j : Nat) => vget s.therm.t j 0
  let flow := sum32 (((List.range 24).filter (· != i)).map fun j => r32 (Config.conductance i j * r32 (t i - t j)))
  r32 (t i + r32 (r32 (modelDt / Config.capacity i) * r32 (power - flow)))

/-- The valid diodes with their readings in °C, by number (R408). -/
def State.validDiodes (s : State) : List (Nat × Rat) :=
  (List.range 8).filterMap fun d =>
    match vget s.therm.valid d false, vget s.therm.diodes d none with
    | true, some v => some (d, r32 ((v : Rat) / 1000))
    | _, _ => none

/-- The mask of valid diodes. -/
def State.diodeMask (s : State) : Nat := maskOf (fun d => vget s.therm.valid d false) 8

/-- The first of the largest of a list of numbered values. -/
def hottestOf (l : List (Nat × Rat)) : Option (Nat × Rat) :=
  l.foldl (fun (m : Option (Nat × Rat)) x => match m with
    | some y => if y.2 < x.2 then some x else some y
    | none => some x) none

/-- t_hot and where it comes from (R406, R409); free where no diode is valid. -/
def State.takeHot (s : State) : State :=
  let th := s.therm
  let diodes := s.validDiodes
  if th.modelValid ∧ 4 ≤ diodes.length then
    match hottestOf ((List.range 24).map fun i => (i, vget th.reading i 0)) with
    | some (i, v) => s.modTherm fun x => { x with tHot := v, hottest := i, fromDiodes := false }
    | none => s
  else match hottestOf diodes with
    | some (d, v) => s.modTherm fun x => { x with tHot := v, hottest := d, fromDiodes := true }
    | none =>
      let (v, s) := s.freeBelow (2 ^ 16)
      s.modTherm fun x => { x with tHot := (toSigned 16 v : Rat) / 256, hottest := 255, fromDiodes := true }

/-- DieTemperature (R422). -/
def State.dieTemp (s : State) : Nat := s88 s.therm.tHot

/-- The trip latches: the actions of R31, RELEASE on every trained lane (R417, R418). -/
def State.latchTrip (s : State) : State :=
  if s.pwr.trip then s else ((s.modPwr fun p => { p with trip := true }).releaseAll).stopFiring

/-- A conversion of a diode is valid: it succeeds and reads within −55 to 150 °C (R408). -/
def validReading (v : Option Int) : Bool := v.any fun v => decide (-55000 ≤ v ∧ v ≤ 150000)

/-- A reading of a node, or a valid diode of the housekeeping round or of the AON comparator, is at a temperature or above (R416). -/
def State.anyAt (s : State) (t : Rat) : Bool :=
  (List.range 24).any (fun i => decide (t ≤ vget s.therm.reading i 0)) || s.validDiodes.any (fun d => decide (t ≤ d.2))
    || s.aonDiodes.toList.any fun v => validReading v && v.any fun v => decide (t ≤ (v : Rat) / 1000)

/-- ThrottleStart and ThrottleStart − ThrottleHysteresis in °C (R413). -/
def State.ladderMarks (s : State) : Rat × Rat :=
  let start := (toSigned 16 (s.num 0x3120 2) : Rat) / 256
  (start, start - (s.num 0x3120 3 : Rat) / 256)

/-- A ladder step may be used: its group is armed, and an engine step runs at ThrottleFloor or above (R412). -/
def State.stepArmed (s : State) (l : Nat) : Bool :=
  let arm := s.num 0x3120 1
  if l ≤ 3 then 1 ≤ l && bit arm (l - 1) else bit arm 3 && s.num 0x3120 5 + 100 * l ≤ 1300

/-- The armed steps, lowest first. -/
def State.armedSteps (s : State) : List Nat := ((List.range 8).map (· + 1)).filter s.stepArmed

/-- The engine step in force: the last armed one that the ladder's level has reached (R412). -/
def State.engineStep (s : State) : Option Nat := (s.armedSteps.filter fun l => 4 ≤ l && l ≤ s.therm.level).getLast?

/-- The engines that run at the ladder's frequency are selected (R414). -/
def State.selectEngines (s : State) : State :=
  let low := s.ladderMarks.2
  s.modTherm fun x =>
    { x with selected := Vector.ofFn fun (e : Fin 17) =>
        s.engineStep.isSome && decide (low ≤ vget x.reading (engineNode e.val) 0) }

/-- The ladder at another level, recorded (R413). -/
def State.setLevel (s : State) (l : Nat) : State :=
  let up := decide (s.therm.level < l)
  let s := s.modTherm fun x =>
    { x with level := l, atTop := false, lastChange := some s.tick, lastRise := if up then some s.tick else x.lastRise }
  let s := if up then s.bump 0x3120 6 else s
  (s.raise (if up then 0x3103 else 0x3104) 0 (u8 l ++ u16 s.dieTemp)).selectEngines

/-- Trip pending in an update (R416, R421). -/
def State.checkPending (s : State) : State :=
  if s.therm.tripPending then (if s.anyAt 115 then s.modTherm fun x => { x with lastHot := s.tick } else s)
  else if !s.anyAt 120 then s
  else
    let s := (s.modTherm fun x => { x with tripPending := true, tripTick := s.tick, lastHot := s.tick }).bump 0x3130 1
    let s := s.raise 0x3101 0 (u16 s.dieTemp ++ u8 s.therm.hottest ++ u8 s.diodeMask)
    let s := if s.pwr.trip then s else s.forceSnap 8
    match s.armedSteps.getLast? with
    | some l => if s.therm.level < l then s.setLevel l else s
    | none => s

/-- The die band in an update: one band up, or one down after 8 ms (R410). -/
def State.checkBand (s : State) : State :=
  let b := s.therm.band
  let entry := fun (k : Nat) => ([0, 45, 85, 105] : List Rat).getD k 0
  let exit := fun (k : Nat) => ([0, 43, 83, 103] : List Rat).getD k 0
  let move := fun (n : Nat) =>
    let s := s.modTherm fun x => { x with band := n, bandTick := s.tick }
    (s.raise 0x3100 0 (u8 b ++ u8 n ++ u16 s.dieTemp)).bandMoved b n
  if b < 3 ∧ entry (b + 1) ≤ s.therm.tHot then move (b + 1)
  else if 0 < b ∧ s.therm.tHot < exit b ∧ s.therm.bandTick + 3200000 ≤ s.tick then move (b - 1)
  else s

/-- The ladder in an update (R413). -/
def State.checkLadder (s : State) : State :=
  let (start, low) := s.ladderMarks
  let t := s.therm.tHot
  if start ≤ t then
    if s.therm.lastRise.any fun r => decide (s.tick < r + 400000) then s
    else match s.armedSteps.find? fun l => s.therm.level < l with
      | some l => s.setLevel l
      | none =>
        if s.therm.atTop then s
        else (s.modTherm fun x => { x with atTop := true }).raise 0x3120 0 (u8 s.therm.level ++ u16 s.dieTemp)
  else if t ≤ low then
    let s := s.modTherm fun x => { x with atTop := false }
    if s.therm.level = 0 ∨ s.therm.lastChange.any (fun c => decide (s.tick < c + 4000000)) then s
    else s.setLevel (((s.armedSteps.filter fun l => l < s.therm.level).getLast?).getD 0)
  else s

/-- THERMAL_MODEL_UPDATE: the model every 100 µs, then trip, trip pending, band, ladder (R406, R409, R421). -/
def execThermalModelUpdate (counts : List (List Nat)) (s : State) : Host.Outcome State Fault Refusal :=
  if !s.on domMGT then .next s
  else
    let th := s.therm
    let p : Vector Rat 24 := Vector.ofFn fun (i : Fin 24) => if th.modelValid ∧ i.val < 23 then s.nodePower counts i.val else 0
    let next : Vector Rat 24 := Vector.ofFn fun (i : Fin 24) =>
      if th.modelValid ∧ i.val < 23 then s.nodeNext (vget p i.val 0) i.val else th.t[i]
    let sums : Vector Rat 8 := Vector.ofFn fun (k : Fin 8) =>
      r32 (th.sums[k] + sum32 (((List.range 28).filter fun n => Config.islandSupply n == k.val).map (islandPower counts)))
    let s := s.modTherm fun x =>
      { x with power := p, t := next, sums := sums, updates := x.updates + 1,
               reading := if x.modelValid then Vector.ofFn fun (i : Fin 24) => if i.val < 23 then r32 (next[i] + x.off[i]) else next[i]
                 else x.reading }
    let s := s.takeHot
    let s := if (List.range 24).any fun i => decide ((125 : Rat) ≤ vget s.therm.reading i 0) then s.latchTrip else s
    .next s.checkPending.checkBand.checkLadder

/-- TRIP_PENDING_END: every reading below 115 °C for 100 ms; F3102h (R416). -/
def execTripPendingEnd (s : State) : Host.Outcome State Fault Refusal :=
  .next (if s.on domMGT ∧ s.therm.tripPending ∧ !s.anyAt 115 ∧ s.therm.lastHot + 40000000 ≤ s.tick then
      (s.modTherm fun x => { x with tripPending := false }).raise 0x3102 0 (u32 ((s.tick - s.therm.tripTick) / 400000))
    else s)

/-- AON_DIODE_CONVERSION: a valid diode at 125 °C latches the trip, whatever MGT does; with MGT on one at 120 °C begins trip pending
(R416, R417). -/
def execAonDiodeConversion (d : Fin 8) (value : Option Int) (s : State) : Host.Outcome State Fault Refusal :=
  if s.pwr.dev = .off then .next s
  else
    let s := { s with aonDiodes := vmod s.aonDiodes d fun _ => value }
    let s := if validReading value && value.any fun v => decide (125000 ≤ v) then s.latchTrip else s
    .next (if s.on domMGT then s.checkPending else s)

/-- TRIP_SHUTDOWN: a snapshot in progress is lost, every domain but AON goes OFF, the state is RESET (R39, R40, R396, R418). -/
def execTripShutdown (s : State) : Host.Outcome State Fault Refusal :=
  .next (if s.pwr.trip ∧ !s.pwr.tripDown ∧ s.pwr.dev ≠ .off then
      (s.modPwr fun p => { p with tripDown := true }).powerOnReset.modPwr fun p => { p with dev := .reset, doms := aonOnlyDoms }
    else s)

/-- The supply of a current channel 16 to 20 (R407). -/
def currentSupply : List Nat := [0, 1, 4, 5, 3]

/-- The recommended range of a supply in 0.1 mV (R425), by its place in channels 8 to 15. -/
def supplyRange (k : Nat) : Int × Int :=
  ([(7275, 7725), (7760, 8240), (7760, 8240), (10670, 11330), (8730, 9270), (11640, 12360), (17100, 18900), (31350, 34650)] :
    List (Int × Int)).getD k (0, 0)

/-- HOUSEKEEPING_READ: the next channel of the round (R148, R407, R408). -/
def execHousekeepingRead (value : Option Int) (s : State) : Host.Outcome State Fault Refusal :=
  if !s.on domMGT then .next s
  else
    let n := s.therm.channel
    let s := s.modTherm fun x => { x with channel := (x.channel + 1) % 64, roundRead := n == 63 }
    let put := fun (s : State) (v : Nat) => s.setNum 0x3116 (n + 1) v
    if n < 8 then
      let (raw, s) := match value with
        | some v => (ofSigned 32 v, s)
        | none => s.freeBelow (2 ^ 32)
      .next ((put s raw).modTherm fun x =>
        { x with diodes := vmod x.diodes n fun _ => value, valid := vmod x.valid n fun _ => validReading value })
    else if n < 21 then
      match value with
      | some v => .next (put s (ofSigned 32 v))
      | none => let (raw, s) := s.freeBelow (2 ^ 32)
                .next (put s raw)
    else if n < 33 then
      let c := (n - 21) / 3
      if s.num 0x2310 (c + 1) = 0 then .next ((put s 0x80000000).dimmUnread c)
      else
        let s := put s (match value with
          | some v => ofSigned 32 v
          | none => 0x80000000)
        .next (s.dimmSensor c ((n - 21) % 3) value)
    else .next (put s 0)

/-- scale of the supplies with a current channel, at the end of a round; free where the model estimated no power (R408). -/
def State.calibrateScale (s : State) : State :=
  forRange 5 (fun k s =>
    let sup := currentSupply.getD k 0
    let v := r32 ((toSigned 32 (s.num 0x3116 (9 + sup)) : Rat) / 1000)
    let i := r32 ((toSigned 32 (s.num 0x3116 (17 + k)) : Rat) / 1000)
    let th := s.therm
    let mean := if th.updates = 0 then 0 else r32 (vget th.sums sup 0 / r32 th.updates)
    let (x, s) := if mean = 0 then let (f, s) := s.freeBelow (2 ^ 20)
                                   ((1 / 2 + (3 * f : Nat) / (2 ^ 21 : Nat) : Rat), s)
      else (r32 (r32 (v * i) / mean), s)
    s.modTherm fun t => { t with scale := vmod t.scale sup fun _ => if x < 1 / 2 then 1 / 2 else if 2 < x then 2 else x }) s

/-- Offsets, boundary temperature and residuals of the valid diodes, at the end of a round (R408). -/
def State.calibrateNodes (s : State) : State :=
  let r := s.validDiodes.map fun d => (d.1, r32 (d.2 - vget s.therm.reading (diodeNode d.1) 0))
  let s := s.modTherm fun x => { x with residualHigh := Vector.ofFn fun (d : Fin 8) => x.residualHigh[d] && x.valid[d] }
  if r.isEmpty then s
  else
    let m := r32 (sum32 (r.map (·.2)) / r32 r.length)
    let s := s.modTherm fun x => { x with t := vmod x.t 23 fun t => r32 (t + r32 (m / 2)) }
    forEach r (fun d s =>
      let node := diodeNode d.1
      let s := s.modTherm fun x =>
        { x with residual := vmod x.residual d.1 fun _ => d.2
                 off := vmod x.off node fun o =>
                   let y := r32 (o + r32 (r32 (d.2 - m) / 4))
                   if y < -8 then -8 else if 8 < y then 8 else y }
      let mag := if d.2 < 0 then -d.2 else d.2
      let s := s.raiseMax 0x3115 1 (mag * 256 + 1 / 2).floor.toNat
      let high := decide (6 < mag)
      let s := if high && !vget s.therm.residualHigh d.1 false then
          s.raise (0x3110 + d.1) 0 (u16 (s88 d.2) ++ u16 (s88 (vget s.therm.reading node 0))) else s
      s.modTherm fun x => { x with residualHigh := vmod x.residualHigh d.1 fun _ => high }) s

/-- Invalid diodes and supplies out of range raised, at the end of a round (R408). -/
def State.roundFaults (s : State) : State :=
  let s := forRange 8 (fun d s =>
    if vget s.therm.valid d false then s else s.raise (0x3108 + d) 0 (u32 (s.num 0x3116 (d + 1)))) s
  forRange 8 (fun k s =>
    let v := toSigned 32 (s.num 0x3116 (9 + k)) * 10
    let out := decide (v < (supplyRange k).1 ∨ (supplyRange k).2 < v)
    let s := s.modTherm fun x => { x with supplyOut := vmod x.supplyOut k fun _ => out }
    if out then s.raise (0x3118 + k) 0 (u32 (s.num 0x3116 (9 + k))) else s) s

/-- HOUSEKEEPING_ROUND_END, once the last channel is read: the first round sets the model's temperatures, later ones calibrate it (R408, R409). -/
def execHousekeepingRoundEnd (s : State) : Host.Outcome State Fault Refusal :=
  if !s.on domMGT ∨ !s.therm.roundRead then .next s
  else
    let s := (s.modTherm fun x => { x with roundRead := false }).roundFaults
    let s := if s.therm.modelValid then s.calibrateScale.calibrateNodes
      else
        let l := s.validDiodes.map (·.2)
        let (m, s) := if l.isEmpty then let (f, s) := s.freeBelow (2 ^ 16)
                                        ((toSigned 16 f : Rat) / 256, s)
          else (r32 (sum32 l / r32 l.length), s)
        s.modTherm fun x =>
          { x with t := Vector.replicate 24 m, reading := Vector.replicate 24 m, off := Vector.replicate 24 0,
                   scale := Vector.replicate 8 1, modelValid := true }
    .next (s.modTherm fun x => { x with sums := Vector.replicate 8 0, updates := 0 })

/-- ENGINE_SELECTION_INTERVAL (R414). -/
def execEngineSelectionInterval (s : State) : Host.Outcome State Fault Refusal :=
  .next (if s.on domMGT then s.selectEngines else s)

/-- The clock of an engine's island in MHz: the lower of the ladder's frequency and the host's cap, 0 with its domain off (R414). -/
def State.engineMHz (s : State) (e : Nat) : Nat :=
  if !s.on (if e ≤ 8 then domSN0 else domSN1) then 0
  else
    let f := match s.engineStep with
      | some l => if vget s.therm.selected e false then 1300 - 100 * l else 1000
      | none => 1000
    min f (s.num 0x3121 (9 + e))

/-- ThermalStatus (R422). -/
def State.thermalStatus (s : State) : Nat :=
  let t := s.therm
  t.band * 2 ^ 30 + b2n t.tripPending * 2 ^ 29 + b2n t.modelValid * 2 ^ 28 + b2n t.fromDiodes * 2 ^ 27 + b2n (0 < t.level) * 2 ^ 26
    + b2n t.atTop * 2 ^ 25 + b2n (t.supplyOut.toList.any id) * 2 ^ 24 + (if t.fromDiodes then 255 else t.hottest) * 2 ^ 16 + t.level * 2 ^ 8
    + s.diodeMask

/-- IslandClockCap may be written for CHE and the engines only (R422, R423). -/
def hookThermal (idx sub : Nat) (_v : Val) (_s : State) : Option (Except Nat State) :=
  if idx = 0x3121 ∧ sub - 1 ≠ 4 ∧ !(8 ≤ sub - 1 && sub - 1 ≤ 24) then some (.error (0x31040100 + (sub - 1))) else none

end Sys2Proof.Machine
end

