-- ==== Sys2Proof/Machine/Advice.lean ====
section
/-! DEFINITION. SpeedAdvice and the SPD_ADV output (R244, R245, R255). -/

set_option Elab.async false

namespace Sys2Proof.Machine

/-- The states in which SpeedAdvice is computed: ARMED, PRINTING or HELD with a current job (R244). -/
def State.advises (s : State) : Bool := s.inStates [.armed, .printing, .held] && s.current.isSome

/-- The least of a list of values with their names, the first on a tie. -/
def leastOf {α : Type} (less : α → α → Bool) (l : List (Nat × α)) : Option (Nat × α) :=
  l.foldl (fun (best : Option (Nat × α)) x => match best with
    | some b => if less x.2 b.2 then some x else some b
    | none => some x) none

/-- The addresses of a slice of a bar and of its halo, the two columns beyond each edge (R200, R244). -/
def sliceLoad (m : List Addr) (k : Nat) : Nat :=
  let bnd := boundsOf m
  let lo := bnd.getD k 0
  let hi := bnd.getD (k + 1) 0
  if hi ≤ lo then 0
  else
    let c0 := (m.getD lo default).column
    let c1 := (m.getD (hi - 1) default).column
    let near := fun (j : Nat) => let c := (m.getD j default).column
                                 (j < lo && c < c0 && c0 ≤ c + 2) || (hi ≤ j && c1 < c && c ≤ c1 + 2)
    (hi - lo) + (((around m lo 4).filter fun j => j < lo && near j) ++ (around m hi 4).filter fun j => hi ≤ j && near j).length

/-- A floor that the 16 bits of its object may not hold: the manual states no reading above them (R244). -/
def State.termValue (s : State) (v : Option Nat) : Nat × State :=
  match v with
  | some n => if n < 65536 then (n, s) else s.freeBelow 65536
  | none => s.freeBelow 65536

/-- The head term: the bar that sets it, and its value (R244). -/
def State.adviceHead (s : State) (len : Nat → Rat) (m : Rat) : Option (Nat × Nat) :=
  leastOf (fun (a b : Nat) => a < b) (s.jobBars.map fun b =>
    (b, (6000000000 * len b / (s.num 0x2911 (b + 1) : Rat) * m).floor.toNat))

/-- The engines that serve a slice, each with its speed in mm/s (R244). -/
def State.engineSpeeds (s : State) (len : Nat → Rat) : List (Nat × Rat) :=
  (List.range 17).filterMap fun e =>
    let mine := (List.range 16).filter fun k => vget s.sne.slices k 255 == e
    if mine.isEmpty || (s.engine e).st != .serving then none
    else
      let demand : Rat := s.jobBars.foldl (fun (t : Rat) b =>
        t + mine.foldl (fun (n : Nat) k => n + sliceLoad (s.map b) k) 0 / len b) 0
      if demand = 0 then none else some (e, 6000000 * (s.engineMHz e : Rat) / demand)

/-- The data term of the bars that run low (R244, R245). -/
def State.adviceData (s : State) : Option (Nat × Nat) × State :=
  if s.num 0x2931 2 = 0 then (none, s)
  else
    let lead := s.num 0x2931 3
    s.jobBars.foldl (fun (p : Option (Nat × Nat) × State) b =>
      let tte := p.2.tteNow b
      if lead ≤ tte then p
      else
        let (w, s) := p.2.webSpeed (barChannel p.2.obj b)
        let v := min 65535 ((w.natAbs * 6 / 1000) * tte / lead)
        match p.1 with
        | some best => (if v < best.2 then some (b, v) else some best, s)
        | none => (if v < 65535 then some (b, v) else none, s)) (none, s)

/-- SPEED_ADVICE_UPDATE: the three terms and SpeedAdvice are computed (R244). -/
def execSpeedAdviceUpdate (s : State) : Host.Outcome State Fault Refusal :=
  if !s.on domCTL then .next s
  else if !s.advises then .next ((s.setNum 0x2930 1 0).setNum 0x2930 5 0)
  else
    let m : Rat := ((10000 - s.num 0x2931 5 : Nat) : Rat) / 10000
    let len := fun (b : Nat) => (s.num 0x2610 (b + 1) : Rat) / (s.num 0x251B (barChannel s.obj b + 1) : Rat)
    let known := s.jobBars.all fun b => s.num 0x251B (barChannel s.obj b + 1) != 0
    let head := if known then s.adviceHead len m else none
    let pipe := if known then (leastOf (fun (a b : Rat) => a < b) (s.engineSpeeds len)).map fun x => (x.1, (6 * x.2 * m).floor.toNat) else none
    let (data, s) := s.adviceData
    let (h, s) := s.termValue (head.map (·.2))
    let (p, s) := s.termValue (pipe.map (·.2))
    let d := (data.map (·.2)).getD 65535
    let hv := (head.map (·.2)).getD h
    let pv := (pipe.map (·.2)).getD p
    let (limit, bar, eng) : Nat × Nat × Nat :=
      if hv ≤ pv ∧ hv ≤ d then (1, (head.map (·.1)).getD 255, 255)
      else if pv ≤ d then (2, 255, (pipe.map (·.1)).getD 255)
      else (3, (data.map (·.1)).getD 255, 255)
    let advice := min (min hv pv) d
    let (limit, bar, eng) : Nat × Nat × Nat := if advice = 0 then (0, 255, 255) else (limit, bar, eng)
    let s := (((s.setNum 0x2930 1 advice).setNum 0x2930 2 h).setNum 0x2930 3 p).setNum 0x2930 4 d
    .next (s.setNum 0x2930 5 (limit * 2 ^ 30 + bar * 2 ^ 16 + eng * 2 ^ 8))

/-- SpeedAdvice as it reads: 0 wherever it is not computed (R244). -/
def State.speedAdvice (s : State) : Nat := if s.advises then s.num 0x2930 1 else 0

/-- SPD_ADV_PERIOD_START: SpeedAdvice is latched as the ticks for which SPD_ADV is high in the period (R245). -/
def execSpdAdvPeriodStart (s : State) : Host.Outcome State Fault Refusal :=
  if !s.on domCTL ∨ s.num 0x2931 1 = 0 then .next s
  else
    let full := s.num 0x2931 4
    .next { s with fsq := { s.fsq with spdHigh := min s.speedAdvice full * 40000 / full } }

/-- SPD_ADV is driven: MIO drives it while AdviceOutputEnable is 1, but not in role STANDBY (R51, R245, R356). -/
def State.spdDriven (s : State) : Bool := s.on domCTL && s.num 0x2931 1 == 1 && s.mir.role != .standby

/-- AdviceStatus: the limiting term and what set it, overspeed episodes, the data term and the output (R255). -/
def State.adviceStatus (s : State) : Nat :=
  let v := if s.advises then s.num 0x2930 5 else 0
  let fast := maskOf (fun b => (s.bar b).overspeed) 8
  (if bits v 31 30 = 0 then 0xFFFF00 else v) + b2n (fast != 0) * 2 ^ 29 + b2n (s.num 0x2931 2 == 1) * 2 ^ 28
    + b2n s.spdDriven * 2 ^ 27 + fast

end Sys2Proof.Machine
end

