-- ==== Sys2Proof/Machine/Faults.lean ====
section
/-! DEFINITION. FLT: reports taken and recorded, reactions, rails, ERR_N (R371 to R391, R401). -/

set_option Elab.async false

namespace Sys2Proof.Machine

/-- FLT changed. -/
def State.modFlt (s : State) (f : Flt → Flt) : State := { s with flt := f s.flt }

/-- The last `n` of a list. -/
def lastN {α : Type} (n : Nat) (l : List α) : List α := l.drop (l.length - n)

/-- The record of a report; its era is found with E at logging as the reference (R106, R372). -/
def State.recordOf (s : State) (r : Report) (reactions : Nat) : Record :=
  { stamp := r.stamp, era := extend s.eNow r.stamp / 2 ^ 32, source := r.source, cause := r.cause, unit := r.unit, island := r.island,
    reactions := reactions, seq := s.bbx.nextSeq, data := r.data }

/-- A record logged: in the ring, in the history queue, in the counts of its source (R374, R390, R391, R401). -/
def State.log (s : State) (x : Record) : State :=
  let c := (kvGet s.flt.counts x.source).getD { count := 0, ns := 0, era := 0 }
  let s := s.modBbx fun b => { b with ring := lastN 4096 (b.ring ++ [x]), nextSeq := (b.nextSeq + 1) % 2 ^ 32 }
  s.modFlt fun f =>
    { f with history := lastN 32 (f.history ++ [x])
             counts := kvSet f.counts { count := 0, ns := 0, era := 0 } x.source
               { count := (c.count + 1) % 2 ^ 32, ns := x.stamp, era := x.era } }

/-- A record sent as an Emergency to a session that registered, and held until it is acknowledged, at most 32 (R58, R82). -/
def State.emergencyTo (s : State) (x : Record) (y : Session) : State :=
  let s := s.modSession y.sid fun z => { z with unacked := lastN 32 (z.unacked ++ [{ seq := x.seq, record := x.toBytes, resent := 0 }]) }
  s.sendDgram (sessionDgram y 0x20 x.seq 0 0 x.toBytes false)

/-- The reaction IRQ: IrqCause bit 0, and an Emergency to every session that registered (R82). -/
def State.reactIrq (s : State) (x : Record) : State :=
  let ys := s.wilwa.sessions.toList.filterMap fun y => y.filter (·.emergency)
  forEach ys (fun y s => s.emergencyTo x y) (s.irq 0)

/-- The reaction TRAP: FROZEN from the states in which R385 freezes. -/
def State.reactTrap (s : State) : State :=
  if s.inStates [.configured, .armed, .printing, .held] ∨ (s.pwr.dev = .standby ∧ s.pwr.trans = some .training) then s.enterFrozen
  else s

/-- The reaction CHIPRESET: the actions of R31 at once, the chip reset after 1 ms (R387). -/
def State.reactChipReset (s : State) : State :=
  let s := s.withRelease fun s => s.modPwr fun p => { p with chipPending := some 3 }
  s.stopFiring

/-- BOLT can be applied to the block that raised a report: it can be fenced, and it is no engine in the self-test of a block reset
(R216, R383, R384). -/
def State.canBolt (s : State) (b : Block) (cause : Nat) : Bool :=
  b.fenceable && !(b.area == 0x27 && cause == 5 && (s.engine b.unit).st == .selfTest)

/-- The reaction bits that a report is handled with: LOG and IRQ alone in latch mode; the fallback in place of a BOLT that no
fenceable unit can take (R380, R381, R384). -/
def State.applied (s : State) (r : Report) : Nat :=
  let x := s.reaction r.source
  if s.num 0x2F10 1 = 0 then x.byte &&& 5
  else if bit x.byte 1 && !s.canBolt (sourceBlock r.source) r.cause then
    let fall := match x.fallback with
      | 1 => 8 | 2 => 16 | 3 => 32 | _ => 0
    -- an engine in self-test can be fenced, and takes no fallback (R384)
    (x.byte - 2) ||| (if (sourceBlock r.source).fenceable then 0 else fall)
  else x.byte

/-- A block bolted, where its domain is ON and it is not bolted already (R383). -/
def State.reactBolt (s : State) (r : Report) : State :=
  let b := sourceBlock r.source
  if s.on (blockDomain b) && !s.bolted b then s.bolt b r.cause else s

/-- The reactions before LOG: BOLT, then ERRPIN (R382, R388). -/
def State.reactFirst (s : State) (r : Report) (bits : Nat) : State :=
  let s := if bit bits 1 then s.reactBolt r else s
  if bit bits 6 then s.modFlt fun f => { f with errPin := true, errFirst := if f.errPin then f.errFirst else r.source } else s

/-- The reactions after LOG, in order, and the snapshot request (R382). -/
def State.reactAfter (s : State) (r : Report) (bits : Nat) (x : Record) : State :=
  let s := if bit bits 2 then s.reactIrq x else s
  let s := if bit bits 3 then s.reactTrap else s
  let s := if bit bits 4 then s.blockReset (sourceBlock r.source) false r.cause else s
  let s := if bit bits 5 then s.reactChipReset else s
  let s := if bits &&& 58 = 0 then s else s.modFlt fun f => { f with snapWanted := true }
  if r.source = 0x3003 then s.forceSnap 2 else s

/-- FLT handles one report (R382). -/
def State.takeReport (s : State) (r : Report) : State :=
  let bits := s.applied r
  let s := s.reactFirst r bits
  let x := s.recordOf r bits
  (s.log x).reactAfter r bits x

/-- FAULT_REPORT: a unit's report arrives; of a source that the manual does not have, nothing (R371, R375). -/
def execFaultReport (m : FaultMsg) (s : State) : Host.Outcome State Fault Refusal :=
  if !sourceExists m.source.toNat then .next s
  else .next (s.send
    { source := m.source.toNat, cause := m.code.toNat / 256, unit := m.code.toNat % 256, island := m.island.toNat, stamp := s.stamp,
      tick := s.tick, data := m.data })

/-- Reports lost while the queue was full are logged once it has room (R379). -/
def State.logLost (s : State) : State :=
  if s.flt.lost = 0 then s
  else
    let n := s.flt.lost
    (s.modFlt fun f => { f with lost := 0 }).takeReport (s.mkReport 0x2F01 0 (u32 n))

/-- The snapshot request reaches AON once the reports at hand are logged, well within its 1 µs (R382). -/
def State.snapNow (s : State) : State :=
  if s.flt.snapWanted && s.flt.queue.isEmpty then (s.modFlt fun f => { f with snapWanted := false }).requestSnap 1 else s

/-- FAULT_REPORT_TAKEN: FLT takes the first report of its queue (R379, R382). -/
def execFaultReportTaken (s : State) : Host.Outcome State Fault Refusal :=
  if !s.fltRuns then .next s
  else match s.flt.queue with
    | [] => .next s.snapNow
    | r :: rest => .next ((s.modFlt fun f => { f with queue := rest }).takeReport r).logLost.snapNow

/-- The block, and the unit of it, that a rail pair belongs to (R377). -/
def railUnit (block unit : Nat) : Block :=
  if block < 17 then ⟨0x27, block⟩
  else if block < 21 then ⟨0x23, block - 17⟩
  else if block < 29 then ⟨0x2A, (block - 21) * 4 + unit % 4⟩
  else if block < 33 then ⟨0x2C, block - 29⟩
  else
    let area := [0x20, 0x21, 0x10, 0x22, 0x24, 0x25, 0x26, 0x28, 0x29, 0x2B, 0x2D, 0x2E, 0x2F, 0x30, 0x31, 0x32].getD (block - 33) 0
    ⟨area, if unitExists area unit then unit else 255⟩

/-- RAIL_BROKEN_WIRE: a pair of the block reads 00b or 11b; in latch mode 11b counts as an error present (R376, R377). -/
def execRailBrokenWire (block : Fin 49) (unit : BitVec 8) (level : Bool) (s : State) : Host.Outcome State Fault Refusal :=
  let b := railUnit block unit.toNat
  if !s.fltRuns ∨ s.railIgnored b then .next s
  else if s.num 0x2F10 1 = 0 then .next (if level then s.latchRail b else s)
  else
    let s := s.modFlt fun f => { f with broken := if f.broken.contains (block.val, b.unit) then f.broken else f.broken ++ [(block.val, b.unit)] }
    .next (s.raise (0x2F40 + block) 0 (u8 b.unit ++ u8 (b2n level) ++ u8 (b2n level)))

/-- RAIL_ERROR_TIMEOUT: a pair shows an error for 1 µs with no report taken (R376); in latch mode it sets its bit (R377). -/
def execRailErrorTimeout (block : Fin 49) (unit : BitVec 8) (s : State) : Host.Outcome State Fault Refusal :=
  let b := railUnit block unit.toNat
  if !s.fltRuns ∨ s.railIgnored b then .next s
  else if s.num 0x2F10 1 = 0 then .next (s.latchRail b)
  else .next (s.raise (0x2F80 + block) 0 (u8 b.unit))

/-- RailStatus: the blocks with a pair broken now; ignored pairs and latch mode show none (R376, R377, R401). -/
def State.railStatus (s : State) : Nat :=
  if s.num 0x2F10 1 = 0 then 0
  else maskOf (fun n => s.flt.broken.any fun x => x.1 == n && !s.railIgnored (railUnit x.1 x.2)) 49

/-- The code a reaction setting is refused with (R380). -/
def reactionError (src byte fallback : Nat) : Option Nat :=
  if !bit byte 0 then some 0x2F040100
  else if bit byte 7 then some 0x2F040200
  else if (src = 0x2180 ∨ src = 0x2181) ∧ byte ≠ 1 then some 0x2F040200
  else if sourceIsRecord src ∧ byte &&& 5 ≠ byte then some 0x2F040200
  else if bit byte 4 ∧ !sourceResettable src then some 0x2F040200
  else if 3 < fallback ∨ (fallback = 2 ∧ !sourceResettable src) then some 0x2F040300
  else none

/-- A source's reaction set. -/
def State.setReaction (s : State) (src : Nat) (x : Reaction) : State :=
  s.modFlt fun f => { f with reactions := kvSet f.reactions { byte := 1, fallback := 0 } src x }

/-- A ReactionTable download as its entries: source, reaction, fallback (R401). -/
def reactionEntries (b : Bytes) : List (Nat × Reaction) :=
  (List.range (b.length / 4)).map fun i => (leAt b (4 * i) 2, { byte := leAt b (4 * i + 2) 1, fallback := leAt b (4 * i + 3) 1 })

/-- The first entry of a download that is refused (R401). -/
def entriesError (l : List (Nat × Reaction)) : Option Nat :=
  (l.find? fun e => !sourceExists e.1 || (reactionError e.1 e.2.byte e.2.fallback).isSome).bind fun e =>
    if !sourceExists e.1 then some 0x2F040400 else reactionError e.1 e.2.byte e.2.fallback

/-- An upload of ReactionTable: every source in ascending id (R401). -/
def State.reactionTable (s : State) : Bytes :=
  sourceRows.flatMap fun row => (List.range (row.hi + 1 - row.lo)).flatMap fun i =>
    let x := s.reaction (row.lo + i)
    u16 (row.lo + i) ++ u8 x.byte ++ u8 x.fallback

/-- One field of the selected source's setting written. -/
def State.selectReaction (s : State) (byte fallback : Option Nat) : Except Nat State :=
  let src := s.num 0x2F12 1
  let x := s.reaction src
  let y : Reaction := { byte := byte.getD x.byte, fallback := fallback.getD x.fallback }
  if !sourceExists src then .error 0x2F040400
  else match reactionError src y.byte y.fallback with
    | some e => .error e
    | none => .ok (s.setReaction src y)

/-- Errors that units still hold on their rails set their bits of LatchWord in latch mode (R377). -/
def State.relatch (s : State) : State := forEach s.flt.queue (fun r s => s.noteRail r) s

/-- Writes of FLT's and BBX's objects with an effect of their own. -/
def hookFaults (idx sub : Nat) (v : Val) (s : State) : Option (Except Nat State) :=
  let n := v.toNum
  match idx, sub with
  | 0x2F10, 1 =>
    if n = 1 then some (if s.num 0x2F10 2 = 0 then .ok (s.setNum 0x2F10 1 1) else .error 0x2F030100)
    else some (.ok ((s.setNum 0x2F10 1 0).modFlt fun f => { f with broken := [] }).relatch)
  | 0x2F10, 2 => some (.ok (s.setNum 0x2F10 2 (s.num 0x2F10 2 - (s.num 0x2F10 2 &&& n))).relatch)
  | 0x2F10, 5 => some (.ok (if n = 1 ∧ !s.pwr.trip then s.modFlt fun f => { f with errPin := false, errFirst := 0 } else s))
  | 0x2F11, 1 =>
    let b := v.toBytes
    if b.length % 4 ≠ 0 then some (.error (abort 0x2F11 0x60500))
    else match entriesError (reactionEntries b) with
      | some e => some (.error e)
      | none => some (.ok (forEach (reactionEntries b) (fun e s => s.setReaction e.1 e.2) (s.modFlt fun f => { f with reactions := [] })))
  | 0x2F12, 1 => some (if sourceExists n then .ok (s.setNum 0x2F12 1 n) else .error 0x2F040400)
  | 0x2F12, 2 => some (s.selectReaction (some n) none)
  | 0x2F12, 3 => some (s.selectReaction none (some n))
  | 0x3011, 1 => some (.ok (if n = 1 then s.requestSnap 4 else s))
  | _, _ => none

/-- ErrPinStatus (R388, R401). -/
def State.errPinStatus (s : State) : Nat :=
  s.flt.errFirst * 2 ^ 16 + b2n s.pwr.trip * 2 + b2n (s.flt.errPin || s.pwr.trip)

end Sys2Proof.Machine
end

