-- ==== Sys2Proof/Machine/Time.lean ====
section
/-! DEFINITION. TIM: the master selection, the servo, the native clock and the legacy bases (R93, R96 to R105). Offsets and
corrections are in 2^-16 ns, frequencies in 2^-16 ppb, clock times in 2^-32 ns. -/

set_option Elab.async false

namespace Sys2Proof.Machine

/-- k of R98 in u4.28: 2^32 / 400,000,000, rounded to nearest. -/
def servoK : Nat := 2882303762

/-- The increment of a frequency (R98). -/
def incrementOf (f : Int) : Nat := (Int.fdiv ((nominalInc : Int) * 2 ^ 44 + f * servoK + 2 ^ 43) (2 ^ 44)).toNat

/-- The increment on entry to HOLDOVER (R100). -/
def holdoverInc (i : Int) : Nat := incrementOf (-i)

/-- What a domain's PTP port knows. -/
def State.ptpDom (s : State) (d : Nat) : PtpDom := (kvGet s.tim.doms d).getD PtpDom.initial

/-- What a domain's PTP port knows, changed. -/
def State.modDom (s : State) (d : Nat) (f : PtpDom → PtpDom) : State :=
  { s with tim := { s.tim with doms := kvPut s.tim.doms d (f (s.ptpDom d)) } }

/-- The latest anchor set announced. -/
def State.lastAnchor (s : State) : Anchor := s.tim.announced.headD s.tim.anchor

/-- A new anchor set announced, at least 64 ticks ahead and not before one that is announced already (R12; assumption 67): its
time from the clock's, and its increment. -/
def State.publish (s : State) (e : Nat → Nat) (inc : Nat) : State :=
  let (lead, s) := s.free
  let t := max (s.tick + 64 + lead) s.lastAnchor.tick
  { s with tim := { s.tim with announced := { tick := t, e := e t, inc := inc } :: s.tim.announced } }

/-- An offset as the I32 object gives it, rounded to ns; a free value outside the object's range. -/
def State.offsetI32 (s : State) (o : Int) : Nat × State :=
  let ns := roundHalfUpInt o (2 ^ 16)
  if -(2 ^ 31) ≤ ns ∧ ns < 2 ^ 31 then (ofSigned 32 ns, s) else s.freeBelow (2 ^ 32)

/-- Native time set to what `e` gives at an anchor tick, with its step record; its era marker is due once the tick is reached
(R101, R105). -/
def State.jumpNative (s : State) (e : Nat → Nat) : State :=
  let a := s.lastAnchor
  let s := s.publish e a.inc
  let new := s.lastAnchor
  let oldE := a.at new.tick / 2 ^ 32 % 2 ^ 48
  let newE := new.e / 2 ^ 32 % 2 ^ 48
  let s := { s with tim := { s.tim with native := { s.tim.native with stepCount := s.tim.native.stepCount + 1 } } }
  let s := s.raise 0x2103 0 (u48 oldE ++ u48 newE)
  let s := { s with tim := { s.tim with steps := s.tim.steps ++ [(new.tick, newE / 2 ^ 32)] } }
  s.clearTrack 1

/-- Native time moved by `-o` (R101). -/
def State.stepNative (s : State) (o : Int) : State :=
  let a := s.lastAnchor
  s.jumpNative fun t => ((a.at t : Int) - o * 2 ^ 16).toNat

/-- StepMode allows a step now (R101). -/
def State.stepAllowed (s : State) : Bool :=
  match s.num 0x2120 8 with
  | 0 => false
  | 1 => !s.anyPrinting
  | _ => true

/-- The gains, limits and thresholds of a servo. -/
structure ServoSet where
  kp : Nat
  ki : Nat
  limit : Nat
  step : Nat
  lock : Nat
  deriving DecidableEq, Repr

/-- The native servo's settings (R109). -/
def State.nativeSet (s : State) : ServoSet :=
  { kp := s.num 0x2120 4, ki := s.num 0x2120 5, limit := s.num 0x2120 6, step := s.num 0x2120 7, lock := s.num 0x2120 9 }

/-- A legacy servo's settings (R104, R110); its lock threshold is the native one (assumption 24). -/
def State.legacySet (s : State) (b : Nat) : ServoSet :=
  { kp := s.num (0x5010 + b) 3, ki := s.num (0x5010 + b) 4, limit := s.num (0x5010 + b) 5, step := s.num (0x5010 + b) 6,
    lock := s.num 0x2120 9 }

/-- The counts of consecutive Syncs that move a clock between ACQUIRING and LOCKED (R99). -/
def Servo.count (v : Servo) (c : ServoSet) (o : Int) : Servo :=
  let a := o.natAbs
  let lockRun := if a < c.lock * 2 ^ 16 then v.lockRun + 1 else 0
  let unlockRun := if 4 * c.lock * 2 ^ 16 ≤ a then v.unlockRun + 1 else 0
  match v.st with
  | .acquiring =>
    if 16 ≤ lockRun then { v with st := .locked, lockRun := 0, unlockRun := 0 }
    else { v with lockRun := lockRun, unlockRun := 0 }
  | .locked =>
    if 4 ≤ unlockRun then { v with st := .acquiring, lockRun := 0, unlockRun := 0 }
    else { v with unlockRun := unlockRun, lockRun := 0 }
  | _ => v

/-- The integral and frequency of a Sync without a step (R98, R101); `blocked` runs f at its limit (assumption 22). -/
def State.servoRun (s : State) (v : Servo) (c : ServoSet) (o : Int) (blocked : Bool) : Servo × State :=
  let lim : Int := c.limit * 2 ^ 16
  let (ko, s) := s.freeQuot (c.ki * o) (2 ^ 16)
  let i := clampInt (-lim) lim (v.i + ko)
  let (po, s) := s.freeQuot (c.kp * o) (2 ^ 16)
  let raw := -po - i
  let f := if blocked then (if 0 < o then -lim else lim) else clampInt (-lim) lim raw
  let atLimit := blocked || raw < -lim || lim < raw
  ({ v with i := i, f := f, atLimit := atLimit, limitRun := if atLimit then v.limitRun + 1 else 0 }, s)

/-- The native servo's Sync with offset `o` (R98, R99, R101). -/
def State.nativeSync (s : State) (o : Int) : State :=
  let c := s.nativeSet
  let v := s.tim.native
  let s := s.raiseMax 0x2110 6 (roundHalfUp o.natAbs (2 ^ 16))
  let s :=
    if v.st = .holdover then
      let (o32, s) := s.offsetI32 o
      s.raise 0x2102 0 (u32 ((s.tick - v.holdTick) / 400000) ++ u32 o32)
    else s
  let v := if v.st = .freerun ∨ v.st = .holdover then { v with st := .acquiring, lockRun := 0, unlockRun := 0 } else v
  let v := { (v.count c o) with offset := o }
  if c.step * 2 ^ 16 < o.natAbs ∧ s.stepAllowed then
    { s with tim := { s.tim with native := { v with atLimit := false, limitRun := 0 } } }.stepNative o
  else
    let far := decide (c.step * 2 ^ 16 < o.natAbs)
    let blocked := far || (v.stepBlocked && decide (c.step * 2 ^ 16 ≤ o.natAbs))
    let s :=
      if blocked && !v.stepBlocked then
        let (o32, s) := s.offsetI32 o
        s.raise 0x2104 0 (u32 o32)
      else s
    let (v, s) := s.servoRun { v with stepBlocked := blocked } c o far
    let s := if v.limitRun = 16 then s.raise 0x2105 0 (leBytes 6 (ofSigned 48 v.i)) else s
    let a := s.lastAnchor
    { s with tim := { s.tim with native := v } }.publish (fun t => a.at t) (incrementOf v.f)

/-- A legacy base's Sync with offset `o`: it steps whenever its threshold is passed (R104). -/
def State.legacySync (s : State) (b : Nat) (o : Int) : State :=
  let c := s.legacySet b
  let v := vget s.tim.legacy b Servo.start
  let k := vget s.tim.legacyClk b { tick := 0, e := 0, inc := nominalInc }
  let v := if v.st = .freerun ∨ v.st = .holdover then { v with st := .acquiring, lockRun := 0, unlockRun := 0 } else v
  let v := { (v.count c o) with offset := o }
  let (v, k, s) :=
    if c.step * 2 ^ 16 < o.natAbs then
      ({ v with stepCount := v.stepCount + 1 }, { k with tick := s.tick, e := ((k.at s.tick : Int) - o * 2 ^ 16).toNat }, s)
    else
      let (v, s) := s.servoRun v c o false
      (v, { tick := s.tick, e := k.at s.tick, inc := incrementOf v.f }, s)
  { s with tim := { s.tim with legacy := vmod s.tim.legacy b fun _ => v, legacyClk := vmod s.tim.legacyClk b fun _ => k } }

/-- The native clock's domain (R109). -/
def State.nativeDomain (s : State) : Nat := s.num 0x2120 1

/-- The legacy bases that follow a domain (R104). -/
def State.legacyIn (s : State) (d : Nat) : List Nat :=
  (List.range 4).filter fun b => s.num (0x5010 + b) 1 == 1 && s.num (0x5010 + b) 2 == d

/-- A domain that the native clock or a legacy base follows (R92). -/
def State.domainUsed (s : State) (d : Nat) : Bool := s.nativeDomain == d || !(s.legacyIn d).isEmpty

/-- Entry to HOLDOVER of the native clock, with F2101h's cause (R99, R100). -/
def State.nativeHoldover (s : State) (cause : Nat) : State :=
  let v := s.tim.native
  if v.st = .acquiring ∨ v.st = .locked then
    let (o32, s) := s.offsetI32 v.offset
    let a := s.lastAnchor
    let s := { s with tim := { s.tim with native := { v with st := .holdover, holdTick := s.tick, lockRun := 0, unlockRun := 0 } } }
    let s := s.setNum 0x2110 8 s.stamp48
    let s := s.publish (fun t => a.at t) (holdoverInc v.i)
    s.raise 0x2101 cause (u8 cause ++ u32 o32)
  else s

/-- Entry to HOLDOVER of a legacy base (R104, R112). -/
def State.legacyHoldover (s : State) (b : Nat) : State :=
  let v := vget s.tim.legacy b Servo.start
  if v.st = .acquiring ∨ v.st = .locked then
    let (o32, s) := s.offsetI32 v.offset
    let k := vget s.tim.legacyClk b { tick := 0, e := 0, inc := nominalInc }
    let k := { tick := s.tick, e := k.at s.tick, inc := holdoverInc v.i }
    let v := { v with st := .holdover, holdTick := s.tick, lockRun := 0, unlockRun := 0 }
    let s := { s with tim := { s.tim with legacy := vmod s.tim.legacy b fun _ => v, legacyClk := vmod s.tim.legacyClk b fun _ => k } }
    s.raise 0x2106 0 (u8 b ++ u32 o32)
  else s

/-- Every clock that follows a domain enters HOLDOVER. -/
def State.domainHoldover (s : State) (d cause : Nat) : State :=
  let s := if s.nativeDomain = d then s.nativeHoldover cause else s
  forEach (s.legacyIn d) (fun b s => s.legacyHoldover b) s

/-- The order of the default best master clock algorithm over two announced data sets: lower is better (R93). -/
def announceKey (a : Announce) : List Nat :=
  [a.priority1.toNat, a.clockClass.toNat, a.accuracy.toNat, a.variance.toNat, a.priority2.toNat, a.grandmaster.toNat,
    a.steps.toNat, a.sender.toNat]

/-- Lexicographic order of two lists of numbers. -/
def lexLt : List Nat → List Nat → Bool
  | a :: as, b :: bs => a < b || (a == b && lexLt as bs)
  | [], _ :: _ => true
  | _, [] => false

/-- The interval 2^l seconds in ticks. -/
def logTicks (l : Int) : Nat := if 0 ≤ l then 400000000 * 2 ^ l.toNat else 400000000 / 2 ^ (-l).toNat

/-- A foreign master counts: two Announces within four intervals, the last not longer ago than AnnounceTimeout (assumption 23). -/
def Foreign.qualified (f : Foreign) (now timeout : Nat) : Bool :=
  let i := logTicks f.ann.logInterval
  (match f.before with
    | some b => f.last - b ≤ 4 * i
    | none => false) && now - f.last ≤ timeout * i

/-- The best of the foreign masters that count. -/
def bestMaster (l : List Foreign) (now timeout : Nat) : Option Announce :=
  (l.filter (·.qualified now timeout)).foldl
    (fun b f => match b with
      | none => some f.ann
      | some a => if lexLt (announceKey f.ann) (announceKey a) then some f.ann else some a) none

/-- A domain's master selected anew; a change discards its path delay and sends its clocks to HOLDOVER (R93, R100). -/
def State.selectMaster (s : State) (d : Nat) : State :=
  let p := s.ptpDom d
  match bestMaster p.foreign s.tick (s.num 0x2120 11) with
  | none => s
  | some a =>
    let id := (a.grandmaster.toNat, a.sender.toNat)
    if p.ident = some id then s.modDom d fun p => { p with master := some a }
    else
      let s := s.modDom d fun p => { p with master := some a, ident := some id, mpd := none, lastSync := none, twoStep := none, req := none }
      if p.ident.isSome then s.domainHoldover d 2 else s

/-- An Announce reaches the PTP port (R93). -/
def State.announce (s : State) (a : Announce) : State :=
  let d := a.domain.toNat
  if s.on domNET && s.domainUsed d && bit (s.num 0x2120 3) a.mapping.toNat then
    let s := s.modDom d fun p =>
      let old := p.foreign.find? fun f => f.ann.sender == a.sender
      let rest := p.foreign.filter fun f => f.ann.sender != a.sender
      { p with foreign := rest ++ [{ ann := a, last := s.tick, before := old.map (·.last) }] }
    s.selectMaster d
  else s

/-- A domain's master is lost (R93): its clocks enter HOLDOVER, and the next best foreign master is selected. -/
def State.masterLost (s : State) (d : Nat) : State :=
  match (s.ptpDom d).master with
  | some a =>
    let s := s.modDom d fun p =>
      { p with master := none, foreign := p.foreign.filter fun f => f.ann.sender != a.sender }
    (s.domainHoldover d 1).selectMaster d
  | none => s

/-- The stamp of a clock's time `e`, whole ns rounded half up as R12 stamps, in 2^-16 ns (R91; assumption 67). -/
def ptpStamp (e : Nat) : Int := (((e + 2 ^ 31) / 2 ^ 32 * 2 ^ 16 : Nat) : Int)

/-- The latency of a port's PHY in 2^-16 ns, ingress (2013h) or egress (2014h); P0 has none (R91). -/
def State.phyLatency (s : State) (idx port : Nat) : Int := if port = 1 ∨ port = 2 then ((s.num idx port * 2 ^ 16 : Nat) : Int) else 0

/-- The receive time of a frame at a port on a clock, in 2^-16 ns, the ingress latency taken off (R91, R98). -/
def State.rxTime (s : State) (e port : Nat) : Int := ptpStamp e - s.phyLatency 0x2013 port

/-- The correction of a frame, with the link delay of its port added in the peer-to-peer mode (R94). -/
def State.linkCorrection (s : State) (m : PtpMsg) (c : Int) : Int :=
  let p := m.port.toNat
  if s.num 0x2120 2 = 2 ∧ s.num 0x2040 1 = 1 ∧ (p = 1 ∨ p = 2) then c + vget s.net.linkDelay (p - 1) 0 else c

/-- A delay sample enters the exponential average (R98). -/
def State.delaySample (s : State) (d : Nat) (x : Int) : State :=
  match (s.ptpDom d).mpd with
  | none => s.modDom d fun q => { q with mpd := some x }
  | some m =>
    let (y, s) := s.freeQuot (x - m) (2 ^ s.num 0x2120 10)
    s.modDom d fun q => { q with mpd := some (m + y) }

/-- The clocks of a domain run on a Sync with its origin time, its receive times and its corrections known (R98, R104). -/
def State.runSync (s : State) (m : PtpMsg) (t1 t2 : Nat) (legacy : List Nat) (correction : Int) : State :=
  let d := m.domain.toNat
  let p := m.port.toNat
  let r2 := s.rxTime t2 p
  let o1 : Int := (t1 * 2 ^ 16 : Nat)
  let ls : LastSync := { t1 := t1, t2 := r2, correction := correction, port := p, mapping := m.mapping.toNat }
  let s := s.modDom d fun q => { q with lastSync := some ls, twoStep := none }
  let s := if s.num 0x2120 2 = 2 then s.delaySample d 0 else s
  match (s.ptpDom d).mpd with
  | none => s
  | some mpd =>
    let s := if s.nativeDomain = d ∧ s.num 0x2120 12 = 1 then s.nativeSync (r2 - o1 - mpd - correction) else s
    forEach (s.legacyIn d) (fun b s => s.legacySync b (s.rxTime (legacy.getD b 0) p - o1 - mpd - correction)) s

/-- The legacy clocks' times now. -/
def State.legacyNow (s : State) : List Nat := s.tim.legacyClk.toList.map (·.at s.tick)

/-- The message is the selected master's (R93). -/
def State.fromMaster (s : State) (m : PtpMsg) : Bool :=
  s.on domNET && s.domainUsed m.domain.toNat
    && (match (s.ptpDom m.domain.toNat).master with
      | some a => a.sender == m.sender
      | none => false)

/-- SYNC_RECEIVED: a one-step Sync runs the clocks; a two-step Sync waits for its Follow_Up (R98). -/
def execSyncReceived (m : PtpMsg) (s : State) : Host.Outcome State Fault Refusal :=
  if !s.fromMaster m then .next s
  else
    let d := m.domain.toNat
    let s := s.modDom d fun q => { q with logSync := m.logInterval }
    let c := s.linkCorrection m m.correction
    let t2 := s.anchor.at s.tick
    if m.twoStep then
      .next (s.modDom d fun q =>
        { q with twoStep := some { sender := m.sender, seq := m.seq, t2 := t2, legacy := s.legacyNow, correction := c } })
    else .next (s.runSync m m.time t2 s.legacyNow c)

/-- FOLLOW_UP_RECEIVED: the Follow_Up of the Sync that waits gives its origin time and a further correction (R98). -/
def execFollowUpReceived (m : PtpMsg) (s : State) : Host.Outcome State Fault Refusal :=
  if !s.fromMaster m then .next s
  else
    match (s.ptpDom m.domain.toNat).twoStep with
    | some w =>
      if w.sender = m.sender ∧ w.seq = m.seq then .next (s.runSync m m.time w.t2 w.legacy (w.correction + m.correction))
      else .next s
    | none => .next s

/-- DELAY_RESP_RECEIVED: the answer to the Delay_Req on its way gives a raw sample (R98). -/
def execDelayRespReceived (m : PtpMsg) (s : State) : Host.Outcome State Fault Refusal :=
  let d := m.domain.toNat
  let q := s.ptpDom d
  if s.fromMaster m && s.num 0x2120 2 == 1 then
    match q.req, q.lastSync with
    | some r, some l =>
      if r.seq = m.seq.toNat then
        let t4 : Int := (m.time * 2 ^ 16 : Nat)
        let t1 : Int := (l.t1 * 2 ^ 16 : Nat)
        let (x, s) := s.freeQuot ((l.t2 - t1) + (t4 - r.t3) - l.correction - m.correction) 2
        let s := s.modDom d fun q => { q with req := none, logDelay := m.logInterval }
        .next (s.delaySample d x)
      else .next s
    | _, _ => .next s
  else .next s

/-- The transmit stamp of an own event message that leaves a port `wait` ticks on, in 2^-16 ns (R91). -/
def State.txTime (s : State) (port wait : Nat) : Int := ptpStamp (s.anchor.at (s.tick + wait)) + s.phyLatency 0x2014 port

/-- An own PTP message sent, its frame tagged with PCP 7 (R89, R96). -/
def State.sendPtp (s : State) (m : PtpOut) : State := s.emit (.ptp { m with vlan := s.ownTag 7 })

/-- The mapping by which the selected master's last Sync of the native domain came (R109); before any Sync `other`, the model's choice
(assumption 67). -/
def State.ownMapping (s : State) (other : Nat) : Nat := ((s.ptpDom s.nativeDomain).lastSync.map (·.mapping)).getD other

/-- DELAY_REQ_INTERVAL_EXPIRY: a Delay_Req leaves towards the domain's master (R96). -/
def execDelayReqIntervalExpiry (domain : BitVec 8) (s : State) : Host.Outcome State Fault Refusal :=
  let d := domain.toNat
  let q := s.ptpDom d
  match q.master, q.lastSync with
  | some _, some l =>
    if s.on domNET && s.domainUsed d && s.num 0x2120 2 == 1 then
      let (wait, s) := s.free
      let t3 := s.txTime l.port wait
      let s := s.modDom d fun q => { q with req := some { seq := q.reqSeq, t3 := t3 }, reqSeq := (q.reqSeq + 1) % 2 ^ 16 }
      .next (s.sendPtp { kind := .delayReq, port := l.port, mapping := l.mapping, domain := d, seq := q.reqSeq, correction := 0,
                         time := some (t3 / 2 ^ 16).toNat, vlan := none })
    else .next s
  | _, _ => .next s

/-- The peer delay mechanism runs on the external ports (R94). -/
def State.peerDelay (s : State) : Bool := s.on domNET && s.num 0x2040 1 == 1 && s.num 0x2120 2 == 2

/-- PDELAY_REQ_RECEIVED: a Pdelay_Resp leaves with the turnaround in its correctionField, from the reception to the transmission a free
number of ticks later, and requestReceiptTimestamp 0 (R96; assumption 67). -/
def execPdelayReqReceived (m : PtpMsg) (s : State) : Host.Outcome State Fault Refusal :=
  let p := m.port.toNat
  if s.peerDelay && (p == 1 || p == 2) then
    let (wait, s) := s.free
    let turn := s.txTime p wait - s.rxTime (s.anchor.at s.tick) p
    .next (s.sendPtp { kind := .pdelayResp, port := p, mapping := s.ownMapping m.mapping.toNat, domain := m.domain.toNat,
                       seq := m.seq.toNat, correction := m.correction + turn, time := some 0, vlan := none })
  else .next s

/-- PDELAY_REQ_INTERVAL_EXPIRY: a Pdelay_Req leaves an external port (R94, R96). -/
def execPdelayReqIntervalExpiry (port : Fin 2) (s : State) : Host.Outcome State Fault Refusal :=
  let p := port.val + 1
  if s.peerDelay then
    let (wait, s) := s.free
    let t1 := s.txTime p wait
    let q := s.net.pdelaySeq
    let s := { s with net := { s.net with pdelayReq := vmod s.net.pdelayReq port.val fun _ => some { seq := q, t3 := t1 },
                                          pdelaySeq := (q + 1) % 2 ^ 16 } }
    .next (s.sendPtp { kind := .pdelayReq, port := p, mapping := s.ownMapping 0, domain := s.nativeDomain, seq := q, correction := 0,
                       time := none, vlan := none })
  else .next s

/-- PDELAY_RESP_RECEIVED: the link delay of the port from the answer to its Pdelay_Req; `t2` and `t3` are the responder's
stamps in ns, 0 for a one-step responder (R94, R96). -/
def execPdelayRespReceived (m : PtpMsg) (t2 t3 : Nat) (s : State) : Host.Outcome State Fault Refusal :=
  let p := m.port.toNat
  match (if p = 1 ∨ p = 2 then vget s.net.pdelayReq (p - 1) none else none) with
  | some r =>
    if s.peerDelay ∧ r.seq = m.seq.toNat then
      let t4 := s.rxTime (s.anchor.at s.tick) p
      let turn : Int := ((t3 * 2 ^ 16 : Nat) : Int) - ((t2 * 2 ^ 16 : Nat) : Int)
      let (x, s) := s.freeQuot (t4 - r.t3 - turn - m.correction) 2
      .next { s with net := { s.net with linkDelay := vmod s.net.linkDelay (p - 1) fun _ => x,
                                         pdelayReq := vmod s.net.pdelayReq (p - 1) fun _ => none } }
    else .next s
  | none => .next s

/-- ANNOUNCE_RECEIVED: the best master clock algorithm runs on it (R93). -/
def execAnnounceReceived (ann : Announce) (s : State) : Host.Outcome State Fault Refusal := .next (s.announce ann)

/-- MASTER_LOST_TIMEOUT: the domain's master counts as lost (R93). -/
def execMasterLostTimeout (domain : BitVec 8) (s : State) : Host.Outcome State Fault Refusal :=
  .next (if s.on domNET && s.domainUsed domain.toNat then s.masterLost domain.toNat else s)

/-- An era marked with F2180h, `wraps` wraps of E after the time start (R105). -/
def State.markEra (s : State) (era wraps : Nat) : State :=
  ({ s with tim := { s.tim with markedEra := era, wraps := wraps } } : State).raise 0x2180 0 (u16 era ++ u32 wraps)

/-- The era markers of the steps whose anchor tick is reached (R105; assumption 67). -/
def State.markSteps (s : State) : State :=
  let due := s.tim.steps.filter fun e => e.1 ≤ s.tick
  let s := { s with tim := { s.tim with steps := s.tim.steps.filter fun e => s.tick < e.1 } }
  forEach due (fun e s => s.markEra e.2 s.tim.wraps) s

/-- ERA_WRAP: the steps that have taken effect are marked with F2180h, and an era that no marker record names yet (R105). -/
def execEraWrap (s : State) : Host.Outcome State Fault Refusal :=
  if s.on domNET then
    let s := s.markSteps
    let era := s.eNow / 2 ^ 32
    .next (if era ≠ s.tim.markedEra then s.markEra era (s.tim.wraps + 1) else s)
  else .next s

/-- A write of TIM's objects with an effect of its own: TimeSet, ServoEnable and LegacyLatch, LegacyEnable (R99, R101, R104). -/
def hookTime (idx sub : Nat) (v : Val) (s : State) : Option (Except Nat State) :=
  if idx = 0x2130 ∧ sub = 1 then
    if s.num 0x2120 12 = 1 ∨ !s.stepAllowed then some (.error 0x21040100)
    else
      let a := s.lastAnchor
      some (.ok (s.jumpNative fun t => v.toNum * 2 ^ 32 + (t - s.tick) * a.inc))
  else if idx = 0x2120 ∧ sub = 12 then
    let s := s.setObj idx sub v
    if v.toNum = 0 then
      let n := { s.tim.native with st := .freerun, lockRun := 0, unlockRun := 0, limitRun := 0 }
      some (.ok { s with tim := { s.tim with native := n } })
    else some (.ok s)
  else if idx = 0x5000 ∧ sub = 1 then
    if v.toNum = 1 then
      let s := s.setNum 0x5001 1 s.eNow
      some (.ok (forRange 4 (fun b s => s.setNum 0x5001 (2 + b) (s.legacyNow.getD b 0 / 2 ^ 32 % 2 ^ 64)) s))
    else some (.ok s)
  else if 0x5010 ≤ idx ∧ idx ≤ 0x5013 ∧ sub = 1 then
    let s := s.setObj idx sub v
    if v.toNum = 0 then
      let f := fun (n : Servo) => { n with st := .freerun, lockRun := 0, unlockRun := 0, limitRun := 0 }
      some (.ok { s with tim := { s.tim with legacy := vmod s.tim.legacy (idx - 0x5010) f } })
    else some (.ok s)
  else none

/-- The check between the objects of area 21h at a commit (R109); `get` reads the values that would be live. -/
def checkTime (get : Nat → Nat → Val) : Option (Nat × Nat) :=
  if (get 0x2120 3).toNum = 0 then some (0x2120, 3) else none

/-- The native clock follows the master of a newly committed domain (R93; assumption 25). -/
def State.domainChanged (s : State) (old : Nat) : State :=
  let new := s.nativeDomain
  if old = new ∨ ((s.ptpDom old).ident = (s.ptpDom new).ident ∧ (s.ptpDom new).master.isSome) then s
  else s.nativeHoldover 2

end Sys2Proof.Machine
end

