-- ==== Sys2Proof/Machine/Flags.lean ====
section
/-! DEFINITION. What every object reads as: the status words and flags that are computed from the state, the content of tables and
records, and the objects that a read clears (R21, R33, R44, R64, R76, and the object tables of every area). -/

set_option Elab.async false

namespace Sys2Proof.Machine

/-- HOST_IRQ_N is driven low (R82). -/
def State.irqLow (s : State) : Bool := s.num 0x1050 1 &&& s.num 0x1050 2 != 0 && s.on domMGT

/-- CommitStatus of an area (R76). -/
def State.commitStatus (s : State) (area : Nat) : Nat :=
  let a := s.adm area
  a.result * 2 ^ 24 + a.pending * 2 ^ 16 + a.failIdx * 2 ^ 8 + a.failSub

/-- SessionInfo of a session slot (R83). -/
def State.sessionInfo (s : State) (i : Nat) : Nat :=
  match vget s.wilwa.sessions i none with
  | some x => x.sid * 2 ^ 16 + x.level * 2 ^ 8 + x.version
  | none => 0

/-- The power domain of an island (R9). -/
def islandDomain (i : Nat) : Nat :=
  match i with
  | 0 => domAON | 1 => domMGT | 2 => domNET | 3 => domCTL | 4 => domCTL | 5 => domRFE | 6 => domMEMA | 7 => domMEMB
  | 25 => domHLK | 26 => domVIS | 27 => domMIR
  | n => if n ≤ 16 then domSN0 else domSN1

/-- The present clock of an island in MHz and how it is throttled, of its sub-block where the ladder acts on one (R9, R21, R412,
R414). The code of a retuned clock generator, divided, and that an island of which only a part is throttled shows that part's, are the
model's choice (assumption 56). -/
def State.islandClock (s : State) (i : Nat) : Nat × Nat :=
  let at_ := fun (l : Nat) => l ≤ s.therm.level && s.stepArmed l
  if !s.on (islandDomain i) then (0, 0)
  else if 8 ≤ i && i ≤ 24 then (s.engineMHz (i - 8), if s.engineMHz (i - 8) < 1000 then 2 else 0)
  else if i = 4 then (s.num 0x3121 5, if s.num 0x3121 5 < 1000 then 2 else 0)
  else if i = 5 then (1000, 0)
  else if i = 1 && at_ 3 then (200, 2)
  else if i = 26 && (at_ 1 || at_ 2) then (200, 1)
  else (400, 0)

/-- A unit of the island is bolted (R21). -/
def State.islandFenced (s : State) (i : Nat) : Bool :=
  if 8 ≤ i && i ≤ 24 then s.boltedEngine (i - 8)
  else match i with
    | 3 => s.num 0x2F14 4 != 0
    | 4 => s.boltedChe
    | 25 => s.num 0x2F14 2 != 0 || s.boltedHdg
    | 26 => s.num 0x2F14 3 != 0 || s.boltedIpl
    | _ => false

/-- Domain and Kind of an island in their fields (R9, R21). -/
def islandFixed (i : Nat) : Nat :=
  islandDomain i * 2 ^ 28 + (if i = 3 then 2 else if i = 4 ∨ i = 5 ∨ (8 ≤ i ∧ i ≤ 24) then 1 else 0)

/-- IslandStatus (R21). -/
def State.islandStatus (s : State) (i : Nat) : Nat :=
  let (mhz, thr) := s.islandClock i
  let on := s.on (islandDomain i)
  islandFixed i + mhz * 2 ^ 16 + thr * 2 ^ 6 + b2n (s.islandFenced i) * 32 + b2n on * 16 + b2n on * 8

/-- MdioResult (R108). -/
def State.mdioResult (s : State) : Nat := b2n s.net.mdio.isSome * 2 ^ 31 + s.num 0x2050 2

/-- TimeStatus (R109). -/
def State.timeStatus (s : State) : Nat :=
  let v := s.tim.native
  let d := s.ptpDom s.nativeDomain
  v.st.code * 2 ^ 30 + b2n v.stepBlocked * 2 ^ 29 + b2n v.atLimit * 2 ^ 28 + b2n d.mpd.isSome * 2 ^ 27
    + ofSigned 8 d.logSync * 2 ^ 16 + s.nativeDomain * 2 ^ 8 + v.stepCount % 256

/-- A quantity in 2^-16 ns as a U32 of ns; a value outside it is left open (R109). -/
def State.delayNs (s : State) (x : Int) : Nat × State :=
  let (v, s) := s.freeQuot x (2 ^ 16)
  if 0 ≤ v ∧ v < 2 ^ 32 then (v.toNat, s) else s.freeBelow (2 ^ 32)

/-- TrainStatus (R165). -/
def State.trainStatus (s : State) (c : Nat) : Nat × State :=
  let m := s.chan c
  -- whether the step is transferring patterns is timing inside a step
  let (g, s) := if m.st = .training then s.freeBelow 2 else (0, s)
  (m.step * 2 ^ 28 + g * 2 ^ 27 + b2n m.pendingPoint.isSome * 2 ^ 26 + m.pendingPoint.getD 0 * 2 ^ 25 + m.point * 2 ^ 24
    + b2n m.stored1 * 2 ^ 23 + b2n m.stored0 * 2 ^ 22 + m.result * 2 ^ 8 + m.failing, s)

/-- ChannelStatus (R165). -/
def State.channelStatus (s : State) (c : Nat) : Nat :=
  let m := s.chan c
  m.st.code * 2 ^ 28 + b2n m.hot * 2 ^ 27 + b2n m.sensorFault * 2 ^ 26 + b2n m.burst * 2 ^ 25 + b2n m.drain * 2 ^ 24
    + m.writes.length * 2 ^ 16 + max (vget m.owed 0 0) (vget m.owed 1 0) * 2 ^ 12 + m.freezeCause * 2 ^ 8
    + ofSigned 8 (Int.fdiv m.temp 1000)

/-- EngineStatus; the utilisation of the last 1 ms is timing (R223). -/
def State.engineStatus (s : State) (n : Nat) : Nat × State :=
  let e := s.engine n
  let (u, s) := if e.st = .serving then s.freeBelow 101 else (0, s)
  (e.st.code * 2 ^ 28 + e.lastCause * 2 ^ 24 + (if e.st = .serving then (s.sliceServed n).getD 255 else 255) * 2 ^ 16 + u, s)

/-- FireStatus (R255). -/
def State.fireStatus (s : State) (b : Nat) : Nat :=
  let x := s.bar b
  b2n (x.written == 31) * 2 ^ 31 + b2n x.overspeed * 2 ^ 30 + b2n x.dry * 2 ^ 29 + b2n x.suppressing * 2 ^ 28
    + b2n (!s.fireEn) * 2 ^ 27 + b2n x.lateEp * 2 ^ 26 + x.written * 2 ^ 21 + x.lastHead * 2 ^ 8

/-- LaneState (R281). -/
def State.laneState (s : State) (l : Nat) : Nat :=
  let x := s.lane l
  let h := leAt (s.bytes 0x2A17 (l + 1)) 0 1
  x.st.code * 2 ^ 28 + x.version * 2 ^ 26 + b2n (x.cap.any (·.input == 1)) * 2 ^ 25 + b2n x.lock * 2 ^ 24 + b2n (s.owning l) * 2 ^ 23
    + b2n x.bandStale * 2 ^ 22 + b2n x.checker * 2 ^ 21 + b2n (bit (s.num 0x2A30 (l + 1)) 11) * 2 ^ 20
    + bits h 1 0 * 2 ^ 18 + bits h 3 2 * 2 ^ 16 + x.failCause * 2 ^ 8 + ((x.cap.map (·.headCount)).getD 0) % 256

/-- MeasStatus (R295). -/
def State.measStatusWord (s : State) : Nat :=
  s.hdg.phase * 2 ^ 30 + s.hdg.pending * 2 ^ 16 + s.hdg.complete * 2 ^ 8 + s.hdg.pendingValid

/-- MeasResults: a record for every address of a bar that has been measured, else nothing (R295). -/
def State.measBytes (s : State) (b : Nat) : Bytes :=
  if (vget s.hdg.results b []).isEmpty && !bit s.hdg.pending b && !bit s.hdg.done b then []
  else (List.range (s.map b).length).flatMap fun a =>
    let r := s.measRec b a
    u16 r.primary ++ u16 r.leak ++ u8 r.status ++ u8 r.cls ++ u16 r.dev

/-- MachineSignals: a MARK_b has its reset level 0 until an edge of it was accepted; its level from then on, and WAKE_N's, are not
known to the model (R252). -/
def State.machineSignals (s : State) : Nat × State :=
  let (m, s) := s.freeBelow 256
  let m := m &&& s.fsq.marked
  let (w, s) := s.freeBelow 2
  (m * 2 ^ 24 + b2n s.fireEn * 128 + b2n s.fireOk * 64 + b2n s.spdDriven * 32 + b2n (!s.bbx.pfailLow) * 16 + w * 8
    + b2n (!(s.flt.errPin || s.pwr.trip)) * 4 + b2n (!s.irqLow) * 2, s)

/-- An unsigned 8.8 value; one that 16 bits do not hold is left open. -/
def State.u88 (s : State) (x : Rat) : Nat × State :=
  let n := (x * 256 + 1 / 2).floor.toNat
  if n < 65536 then (n, s) else s.freeBelow 65536

/-- The value and the state of a number that is read. -/
def asNum (p : Nat × State) : Val × State := (.num p.1, p.2)

/-- A signed number in an object of `w` bits. -/
def asInt (w : Nat) (p : Int × State) : Val × State := (.num (ofSigned w p.1), p.2)

/-- Objects that hold a maximum since they were last read (R88, R109, R165, R368, R423). -/
def clearedByRead (idx sub : Nat) : Bool :=
  (idx == 0x2040 && sub == 3) || (idx == 0x2110 && sub == 6) || idx == 0x2340 || (idx == 0x3212 && sub == 5) || idx == 0x3115

/-- Areas 10h to 12h and 60h (R21, R33, R41, R44, R79, R83). -/
def State.viewDic (s : State) (idx sub : Nat) : Option Nat :=
  match idx, sub with
  | 0x1010, 4 => some (b2n s.fuses.mirror)
  | 0x1010, 5 => some s.fuses.serial
  | 0x1020, 2 => some (s.wilwa.sessions.toList.filter (·.isSome)).length
  | 0x1021, _ => some (s.sessionInfo (sub - 1))
  | 0x1030, 3 => some (b2n s.nonVol.operator.isSome + b2n s.nonVol.service.isSome * 2)
  | 0x1100, 1 => some s.pwr.dev.code
  | 0x1100, 3 => some s.stateStatus
  | 0x1100, 4 => some (s.pwr.entryEra * 2 ^ 32 + s.pwr.entryNs)
  | 0x1101, _ => some (s.bar (sub - 1)).run.code
  | 0x1110, 2 => some s.domainStatus
  | 0x1210, _ => some (s.islandStatus (sub - 1))
  | 0x6010, 9 => some s.wilwa.cycSid
  | _, _ => none

/-- Areas 20h and 21h and the legacy time bases (R108 to R110). -/
def State.viewTime (s : State) (idx sub : Nat) : Option (Val × State) :=
  let b := idx - 0x5010
  let clk := vget s.tim.legacyClk b { tick := 0, e := 0, inc := nominalInc }
  match idx, sub with
  | 0x2020, 1 => some (.bytes (beBytes 6 s.fuses.mac), s)
  | 0x2050, 2 => some (.num s.mdioResult, s)
  | 0x2110, 1 => some (.num s.eNow, s)
  | 0x2110, 2 => some (.num s.timeStatus, s)
  | 0x2110, 3 => some (.num s.anchor.inc, s)
  | 0x2110, 4 => some (asNum (s.offsetI32 s.tim.native.offset))
  | 0x2110, 5 => some (asNum (s.delayNs ((s.ptpDom s.nativeDomain).mpd.getD 0)))
  | 0x2110, 7 => some (.bytes (beBytes 8 (((s.ptpDom s.nativeDomain).ident.map (·.1)).getD 0)), s)
  | 0x5010, 7 | 0x5011, 7 | 0x5012, 7 | 0x5013, 7 => some (.num (vget s.tim.legacy b Servo.start).st.code, s)
  | 0x5010, 8 | 0x5011, 8 | 0x5012, 8 | 0x5013, 8 => some (asNum (s.offsetI32 (vget s.tim.legacy b Servo.start).offset))
  | 0x5010, 9 | 0x5011, 9 | 0x5012, 9 | 0x5013, 9 => some (.num clk.inc, s)
  | 0x5010, 10 | 0x5011, 10 | 0x5012, 10 | 0x5013, 10 => some (.num (clk.at s.tick / 2 ^ 32 % 2 ^ 64), s)
  | _, _ => none

/-- Areas 22h to 24h (R135, R136, R165); invalid sync headers of the Raster lanes come with no command, so their count is left open. -/
def State.viewRaster (s : State) (idx sub : Nat) : Option (Val × State) :=
  match idx, sub with
  | 0x2219, _ => some (.num s.slotCapacity, s)
  | 0x221B, _ => some (.num (s.slot (sub - 1)).st.code, s)
  | 0x221C, _ => some (.num (s.linesMissing (sub - 1)), s)
  | 0x2220, 4 => some (.num (s.fill * 32), s)
  | 0x2220, 5 => some (.num s.intakeStatus, s)
  | 0x2317, _ => some (asNum (s.trainStatus (sub - 1)))
  | 0x2318, _ => some (.num (s.channelStatus (sub - 1)), s)
  | 0x2319, _ => some (.num (s.capacity (sub - 1)), s)
  | 0x2413, _ => some (.num (s.tteNow (sub - 1)), s)
  | 0x2414, _ => some (.num ((vget s.rin.windows (sub - 1) []).foldl (fun n x => n + (x.lines.length - x.fetched)) 0), s)
  | _, _ => none

/-- Areas 25h and 26h (R194, R195). -/
def State.viewPos (s : State) (idx sub : Nat) : Option (Val × State) :=
  let i := sub - 1
  let k := vget s.lcg i Lcg.start
  match idx with
  | 0x2519 => some (asNum (s.maxCountRate i))
  | 0x2520 => some (.num (s.pch i).count, s)
  | 0x2521 => some (asInt 32 (s.speed i))
  | 0x2522 => some (asInt 32 (s.webSpeed i))
  | 0x2523 => some (asNum (s.countInterval i))
  | 0x252A => some (asNum (s.positionStatus i))
  | 0x2630 => some (.num (s.lineClockStatus i), s)
  | 0x2631 => some (.num (k.n % 2 ^ 32), s)
  | 0x2632 => some (.num k.high, s)
  | 0x2633 => some (.num k.next, s)
  | 0x2634 => some (asNum (s.fit 32 (s.linePeriod i)))
  | 0x2648 => some (.num (s.compareStatus i), s)
  | _ => none

/-- Areas 27h to 29h (R223, R255, R342); the built-in tables read as their content (R209, R214, R223). -/
def State.viewPrint (s : State) (idx sub : Nat) : Option (Val × State) :=
  let i := sub - 1
  let b := s.bytes idx sub
  match idx, sub with
  | 0x2714, _ => if b.isEmpty then some (.bytes ((List.range 256).flatMap fun v => u16 (identityTone v)), s) else none
  | 0x271B, _ =>
    if b.isEmpty then some (.bytes ((List.range 65536).flatMap fun n => u8 (Config.blueNoise (n / 256) (n % 256))), s) else none
  | 0x271C, _ =>
    if b.isEmpty then some (.bytes ((List.range 4096).flatMap fun n => u8 (orderedDither (n / 64) (n % 64))), s) else none
  | 0x2730, _ => some (.num (vget s.sne.slices i 255), s)
  | 0x2731, _ => some (asNum (s.engineStatus i))
  | 0x281C, _ => some (.num (s.holdStatus i), s)
  | 0x2820, 12 => some (.num s.cheStatus, s)
  | 0x2830, _ => some (.bytes s.estimates, s)
  | 0x2831, _ => some (.bytes s.che.log.flatten, s)
  | 0x2930, 1 => some (.num s.speedAdvice, s)
  | 0x2930, 5 => some (.num s.adviceStatus, s)
  | 0x2950, _ => some (.num (s.fireStatus i), s)
  | 0x2951, _ => some (.num ((s.bar i).dutyIdx % 2 ^ 32), s)
  | _, _ => none

/-- Areas 2Ah to 2Eh (R252, R281, R295, R320, R321). -/
def State.viewEdges (s : State) (idx sub : Nat) : Option (Val × State) :=
  let i := sub - 1
  match idx, sub with
  | 0x2A13, _ => some (.num (s.laneState i), s)
  | 0x2A19, _ => some (asNum (s.headerRun i))
  | 0x2A1A, _ | 0x2A1B, _ | 0x2A1C, _ | 0x2A1D, _ => some (asNum (s.rxCount idx i))
  | 0x2A32, _ => some (asNum (s.testErrors i))
  | 0x2A33, _ => some (asNum (s.fit 64 (s.num 0x2A33 sub + s.checkedBits i)))
  | 0x2B10, 3 => some (.num s.measStatusWord, s)
  | 0x2B11, _ => some (.bytes (s.measBytes i), s)
  | 0x2B18, _ => some (.bytes (vget s.hdg.pendingMap i []), s)
  | 0x2C31, _ => some (.num (s.portStatus i), s)
  | 0x2D30, 2 => some (.bytes (s.selectedProduct.toOption.getD []), s)
  | 0x2D41, 1 => some (.bytes s.vis.defects.flatten, s)
  | 0x2E20, 2 => some (.num s.outputDriven, s)
  | 0x2E20, 3 => some (asNum (s.freeBelow (2 ^ 16)))
  | 0x2E30, _ => some (asNum s.machineSignals)
  | _, _ => none

/-- Areas 2Fh and 30h (R401, R402). -/
def State.viewFaults (s : State) (idx sub : Nat) : Option Val :=
  let src := s.num 0x2F12 1
  let c := (kvGet s.flt.counts src).getD { count := 0, ns := 0, era := 0 }
  match idx, sub with
  | 0x2F10, 3 => some (.num s.railStatus)
  | 0x2F10, 6 => some (.num s.errPinStatus)
  | 0x2F11, _ => some (.bytes s.reactionTable)
  | 0x2F12, 2 => some (.num (s.reaction src).byte)
  | 0x2F12, 3 => some (.num (s.reaction src).fallback)
  | 0x2F12, 4 => some (.num (sourceAttributes src))
  | 0x2F12, 5 => some (.num c.count)
  | 0x2F12, 6 => some (.num (c.era * 2 ^ 32 + c.ns))
  | 0x2F13, _ => some (.bytes (padTo 1024 (s.flt.history.flatMap Record.toBytes)))
  | 0x3010, 1 => some (.bytes (s.bbx.ring.flatMap Record.toBytes))
  | 0x3010, 2 => some (.num ((s.bbx.ring.getLast?.map (·.seq)).getD 0))
  | 0x3010, 3 => some (.num s.bbx.ring.length)
  | 0x3011, 3 => some (.num s.snapStatus)
  | 0x3011, 4 => some (.bytes s.snapDirectory)
  | 0x3011, 6 => some (.bytes (s.snapBytes (s.num 0x3011 5)))
  | 0x3011, 8 => some (.num (64 - s.usableSnaps.length))
  | _, _ => none

/-- Areas 31h and 32h (R368, R422, R423). -/
def State.viewPlant (s : State) (idx sub : Nat) : Option (Val × State) :=
  let i := sub - 1
  let m := s.mir
  match idx, sub with
  | 0x3110, 1 => some (.num s.dieTemp, s)
  | 0x3110, 2 => some (.num s.therm.band, s)
  | 0x3110, 3 => some (.num s.thermalStatus, s)
  | 0x3111, _ => some (.num (s88 (vget s.therm.reading i 0)), s)
  | 0x3112, _ => some (asNum (s.u88 (vget s.therm.power i 0)))
  | 0x3113, _ => match vget s.therm.diodes i none with
    | some v => some (.num (s88 ((v : Rat) / 1000)), s)
    | none => some (asNum (s.freeBelow 65536))
  | 0x3114, _ => some (.num (s88 (vget s.therm.residual i 0)), s)
  | 0x3120, 4 => some (.num s.therm.level, s)
  | 0x3121, _ => if i = 4 ∨ (8 ≤ i ∧ i ≤ 24) then none else some (.num (if i = 5 then 1000 else 400), s)
  | 0x3210, 2 => some (.num m.role.code, s)
  | 0x3210, 4 => some (.num s.mirrorStatus, s)
  | 0x3211, 4 => some (.num m.keyGen, s)
  | 0x3211, 5 => some (.num s.keyRemaining, s)
  | 0x3211, 6 => some (.num (m.latency * 625), s)
  | 0x3211, 7 => some (.num ((m.partner.map (·.serial.toNat)).getD 0), s)
  | 0x3211, 8 => some (.num ((m.partner.map (·.role.toNat)).getD 255), s)
  | _, _ => none

/-- An object whose reading is computed. -/
def State.viewComputed (s : State) (idx sub : Nat) : Option (Val × State) :=
  match idx / 256 with
  | 0x10 | 0x11 | 0x12 | 0x60 => (s.viewDic idx sub).map fun n => (.num n, s)
  | 0x20 | 0x21 | 0x50 => s.viewTime idx sub
  | 0x22 | 0x23 | 0x24 => s.viewRaster idx sub
  | 0x25 | 0x26 => s.viewPos idx sub
  | 0x27 | 0x28 | 0x29 => s.viewPrint idx sub
  | 0x2A | 0x2B | 0x2C | 0x2D | 0x2E => s.viewEdges idx sub
  | 0x2F | 0x30 => (s.viewFaults idx sub).map fun v => (v, s)
  | 0x31 | 0x32 => s.viewPlant idx sub
  | _ => none

/-- What a read of an object answers, and the state it leaves (R64). -/
def State.view (s : State) (idx sub : Nat) : Val × State :=
  if isAdminArea (idx / 256) && idx % 256 == 0 && sub == 1 then (.num (s.adm (idx / 256)).generation, s)
  else if isAdminArea (idx / 256) && idx % 256 == 0 && sub == 2 then (.num (s.commitStatus (idx / 256)), s)
  else if isAdminArea (idx / 256) && idx % 256 == 0 && sub == 3 then (.num (Config.areaVersion (idx / 256)).toNat, s)
  else if sub = 0 then (s.obj idx sub, s)
  else if clearedByRead idx sub then (s.obj idx sub, s.setObj idx sub (defaultVal idx sub))
  else match s.viewComputed idx sub with
    | some p => p
    | none => (s.obj idx sub, s)

end Sys2Proof.Machine
end

