-- ==== Sys2Proof/Machine/Route.lean ====
section
/-! DEFINITION. Writes, reads and commits of the dictionary: the checks of R72, what a write does, the area commit of R75, the
COMMIT frame of a pair (R357). -/

set_option Elab.async false

namespace Sys2Proof.Machine

/-- Why an index and subindex name no object (R72). -/
def missing (idx : Nat) : Nat := if indexInMap idx && (topSub idx).isSome then abort idx 0x60200 else abort idx 0x60100

/-- The session's version and level allow the access (R61, R65). -/
def sessionAllows (x : Session) (idx level : Nat) : Option Nat :=
  if !indexInVersion x.version idx then some 0x10020800
  else if x.level < level then some 0x10020600
  else none

/-- The power domain of an object is not ON (R72, R453). -/
def State.domainError (s : State) (idx sub : Nat) : Option Nat :=
  let d := objDomain idx sub
  if s.on d then none else some (abort idx (0x4F000 + d))

/-- The bit of CyclicControl that runs the transmit stream (0) or the receive stream (1) (R79). -/
def State.cycRuns (s : State) (i : Nat) : Bool := bit (s.num 0x6010 1) i

/-- The block that owns a Stopped object runs (R73). -/
def State.stoppedRuns (s : State) (idx sub : Nat) : Bool :=
  match idx / 256 with
  | 0x22 => rasterRuns s sub
  | 0x23 => memoryRuns s idx
  | 0x25 | 0x26 => posRuns s idx sub
  | 0x27 => sneRuns s
  | 0x28 => cheRuns s
  | 0x29 => if idx = 0x2960 then s.pwr.dev != .standby else s.inStates runStates
  | 0x2A => headsRuns s idx sub
  | 0x2C | 0x2D => visRuns s idx sub
  | 0x32 => mirRuns s
  | 0x50 => s.num idx 1 == 1
  | 0x60 =>
    if idx = 0x6000 ∨ (idx = 0x6010 ∧ sub = 3) then s.cycRuns 0
    else if idx = 0x6001 ∨ (idx = 0x6010 ∧ sub = 4) then s.cycRuns 1
    else s.cycRuns 0 || s.cycRuns 1
  | _ => false

/-- The change class allows a write now (R72, R73). -/
def State.classError (s : State) (d : Desc) (idx sub : Nat) : Option Nat :=
  if d.cls = .stopped ∧ s.stoppedRuns idx sub then some (abort idx 0x30200) else none

/-- The object is mapped into a running receive stream (R72). -/
def State.rxMapped (s : State) (idx sub : Nat) : Bool :=
  s.cycRuns 1 && (List.range (s.num 0x6001 0)).any fun i => s.num 0x6001 (i + 1) / 256 == key idx sub

/-- The length of a value fits its type (R72). -/
def Desc.lengthOk (d : Desc) (b : Bytes) : Bool :=
  match d.ty.size with
  | some n => b.length == n
  | none => b.length ≤ d.maxSize

/-- The value that bytes of the right length spell. -/
def Desc.value (d : Desc) (b : Bytes) : Val :=
  match d.ty.size with
  | some _ => .num (leNat b)
  | none => .bytes b

/-- The further ranges that chapters give single objects (R69, R79, R108, R194, R208, R223, R240, R255, R301, R303, R309, R343, R386). -/
def State.chapterRange (s : State) (idx sub : Nat) (v : Val) : Bool :=
  let n := v.toNum
  let b := v.toBytes
  match idx with
  | 0x1030 => b.length == 32
  | 0x1120 => sub != 2 || n % 256 == 255 || unitExists (n / 256) (n % 256)
  | 0x2020 => sub != 5 || b.length == 16
  | 0x2050 => bits n 31 29 != 2 && bits n 31 29 != 3 && bits n 31 29 != 6
  | 0x2516 => ssiConfigOk n
  | 0x2712 => zonesOf (s.map (sub - 1)) n ≤ 512
  | 0x2716 => bits n 31 24 + bits n 23 16 + bits n 15 8 + bits n 7 0 ≤ 256
  | 0x271A => b.length == 16
  | 0x271B => b.length == 65536
  | 0x271C => b.length == 4096
  | 0x2817 => n ≤ s.num 0x2818 sub
  | 0x2818 => s.num 0x2817 sub ≤ n
  | 0x2917 => b.length == 8 && b.head? == some 0
  | 0x6010 => (sub != 3 && sub != 4) || n < s.num 0x6010 2
  | 0x2920 | 0x2921 | 0x2922 | 0x2923 => waveOk b
  | 0x2C25 => cciMapOk b
  | 0x2C28 => b.length == 8 && leAt b 0 1 ≤ 1 && 1 ≤ leAt b 1 1 && leAt b 1 1 ≤ 4
  | 0x2C2F => n ≤ s.num 0x2C30 sub
  | 0x2C30 => s.num 0x2C2F sub ≤ n
  | _ => true

/-- The value lies in the object's range (R70, R72). -/
def State.valueOk (s : State) (d : Desc) (idx sub : Nat) (v : Val) : Bool :=
  (d.ty != .bool || v.toNum ≤ 1) && (d.ty.size.isNone || d.inRange v.toNum) && s.chapterRange idx sub v

/-- Items 4 and 5 of R72: the length and the value. -/
def State.valueError (s : State) (d : Desc) (idx sub : Nat) (b : Bytes) : Option Nat :=
  if !d.lengthOk b then some (abort idx 0x60500)
  else if !s.valueOk d idx sub (d.value b) then some (abort idx 0x60600)
  else none

/-- Items 7 and 8 of R72: the change class, the running receive stream. -/
def State.momentError (s : State) (d : Desc) (idx sub : Nat) (stream : Bool) : Option Nat :=
  (s.classError d idx sub).orElse fun _ => if !stream && s.rxMapped idx sub then some (abort idx 0x50200) else none

/-- Items 4, 5, 7 and 8 of R72: what a TransferEnd checks (R78). -/
def State.contentError (s : State) (d : Desc) (idx sub : Nat) (b : Bytes) : Option Nat :=
  (s.valueError d idx sub b).orElse fun _ => s.momentError d idx sub false

/-- Items 1 to 8 of R72 for a Write: the first abort code that applies. -/
def State.writeError (s : State) (x : Session) (idx sub : Nat) (b : Bytes) (stream : Bool) : Option Nat :=
  match findDesc idx sub with
  | none => some (missing idx)
  | some d => (sessionAllows x idx d.level).orElse fun _ =>
    if d.acc = .ro then some (abort idx 0x60300)
    else if d.ty = .domain then some (abort idx 0x60700)
    else (s.valueError d idx sub b).orElse fun _ => (s.domainError idx sub).orElse fun _ => s.momentError d idx sub stream

/-- The rules between objects of an area, over the values that would be live: the code, the failing index and subindex (R75). -/
def State.checkArea (s : State) (area : Nat) (get : Nat → Nat → Val) : Option (Nat × Nat × Nat) :=
  let generic := fun (r : Option (Nat × Nat)) => r.map fun e => (area * 2 ^ 24 + 0x80200, e.1, e.2)
  let low := fun (r : Option (Nat × Nat × Nat)) => r.map fun e => (area * 2 ^ 24 + 0x80000 + e.1, e.2.1, e.2.2)
  match area with
  | 0x20 => generic (checkNetwork get)
  | 0x21 => generic (checkTime get)
  | 0x22 => generic (checkRaster get)
  | 0x25 => checkPos s get
  | 0x26 => checkLcg get
  | 0x27 => low (checkSne s get)
  | 0x29 =>
    let bars := List.range 8
    match bars.find? fun b => decide ((get 0x2910 (b + 1)).toNum < s.minDelay s.obj b) with
    | some b => some (0x29080200, 0x2910, b + 1)
    | none => (bars.find? fun b => !wavesFit (s.waves (s.num 0x2912 (b + 1))) (get 0x2911 (b + 1)).toNum).map fun b =>
        (0x29080200, 0x2911, b + 1)
  | 0x2A => generic (checkLanes get s.map)
  | 0x2B => low (checkHdg s get)
  | _ => none

/-- The areas that hold per-bar objects. -/
def hasBars (area : Nat) : Bool := area == 0x26 || area == 0x27 || area == 0x29 || area == 0x2B

/-- What the commit of an area's staged values does outside the values themselves: compare units and the clock's domain take their new
settings up (R93, R189). -/
def State.areaLive (s : State) (area oldDomain : Nat) (staged : List (Nat × Val)) : State :=
  if area = 0x21 then s.domainChanged oldDomain
  else if area = 0x26 then
    forRange 16 (fun u s =>
      if staged.any fun e => 0x2640 ≤ e.1 / 256 ∧ e.1 / 256 ≤ 0x2647 ∧ e.1 % 256 = u + 1 then
        let again := !(s.unit u).enabled
        let s := s.unitTakeUp u
        if again && (s.unit u).enabled then s.unitRestarts u else s
      else s) s
  else s

/-- Step 5 of R75: the staged values of an area take effect, at once or as their object, bar or port says. -/
def State.takeUp (s : State) (area : Nat) : State :=
  let old := s.nativeDomain
  let mine := s.wilwa.staged.filter fun e => e.1 / 65536 == area
  if mine.isEmpty then s.commitDone area
  else if area = 0x2C then
    let ports := (List.range 4).filter fun p =>
      (s.cam p).enabled && mine.any fun e => e.1 % 256 == p + 1 && e.2 != s.obj (e.1 / 256) (p + 1)
    let s := s.modAdm area fun a => { a with pending := 0xF }
    forRange 4 (fun p s => if ports.contains p then s else s.portAtOnce p) s
  else if area = 0x2D then
    if (List.range 4).any fun p => (s.cam p).enabled then s else s.takeUpWeb
  else if area = 0x20 then
    let later := mine.any fun e => addressObject (e.1 / 256) && e.2 != s.obj (e.1 / 256) (e.1 % 256)
    let s := s.liveWhere fun idx _ => idx / 256 == area && !(later && addressObject idx)
    if later then s else (s.barsTakeUp area).commitDone area
  else if hasBars area then
    let s := s.liveWhere fun idx sub => idx / 256 == area && !perBar idx sub
    let s := s.areaLive area old mine
    if !mine.any fun e => perBar (e.1 / 256) (e.1 % 256) then (s.barsTakeUp area).commitDone area
    else
    let s := s.modAdm area fun a => { a with pending := 0xFF }
    forRange 8 (fun b s => if (s.bar b).run = .printing then s else s.takeUpBar area b (s.atOnceLine b)) s
  else
    let s := (s.liveWhere fun idx _ => idx / 256 == area).areaLive area old mine
    let s := if area = 0x2A then s.lanesSpare else s
    (s.barsTakeUp area).commitDone area

/-- A value in its wire form (R70). -/
def wire (idx sub : Nat) (v : Val) : Bytes :=
  match v with
  | .bytes b => b
  | .num n => leBytes (objWidth idx sub / 8) n

/-- CRC-32C over staged objects in ascending order: Index, Sub and the value in wire form (R357). -/
def digest (staged : List (Nat × Val)) : Nat :=
  crc32c (staged.flatMap fun e => u16 (e.1 / 256) ++ u8 (e.1 % 256) ++ wire (e.1 / 256) (e.1 % 256) e.2)

/-- The shadow values of an area written since its last commit. -/
def State.areaShadow (s : State) (area : Nat) : List (Nat × Val) := s.wilwa.shadow.filter fun e => e.1 / 65536 == area

/-- Step 4 of R75: the shadow values staged in one step, the generation accepted. -/
def State.stage (s : State) (area gen : Nat) : State :=
  let mine := s.areaShadow area
  let w := { s.wilwa with shadow := s.wilwa.shadow.filter fun e => e.1 / 65536 != area
                          staged := mine.foldl (fun l e => kvPut l e.1 e.2) s.wilwa.staged }
  ({ s with wilwa := w } : State).modAdm area fun _ => { generation := gen, result := 1, pending := 0, failIdx := 0, failSub := 0 }

/-- A CommitRequest (R75, R76, R357): 0, or the abort code; a refusal leaves its trace in CommitStatus. -/
def State.commitRequest (s : State) (area gen : Nat) : Nat × State :=
  let a := s.adm area
  let mine := s.areaShadow area
  if s.mir.role = .standby then (area * 2 ^ 24 + 0x3F100, s)
  else if gen ≠ (a.generation + 1) % 2 ^ 32 then
    (area * 2 ^ 24 + 0x80100, if a.result = 1 then s else s.modAdm area fun a => { a with result := 3, failIdx := 0, failSub := 0 })
  else if a.result = 1 then (area * 2 ^ 24 + 0x50100, s)
  else if area = 0x2A ∧ s.pwr.dev ≠ .standby ∧ assignmentChanges s s.shadowObj then (0x2A030400, s)
  else match s.checkArea area s.shadowObj with
    | some (code, idx, sub) =>
      (code, s.modAdm area fun a => { a with result := 2, failIdx := idx % 256, failSub := sub })
    | none =>
      let s := s.stage area gen
      let s := if s.linkWarm ∧ s.mir.role = .active then
          s.linkSend 4 0 (u8 area ++ [0, 0, 0] ++ u32 gen ++ u32 (digest mine) ++ u32 mine.length)
        else s
      (0, s.takeUp area)

/-- COMMIT_FRAME_RECEIVED: the standby stages its own shadow values and commits with the ACTIVE's generation (R357). By how many lines
its take-up differs from the ACTIVE's is known to no frame: a free value. -/
def execCommitFrameReceived (area : BitVec 8) (gen digest count : BitVec 32) (s : State) : Host.Outcome State Fault Refusal :=
  let a := area.toNat
  if !s.linkWarm ∨ s.mir.role ≠ .standby ∨ !isAdminArea a ∨ !s.on domMGT then .next s
  else
    let mine := s.areaShadow a
    let same := decide (Sys2Proof.Machine.digest mine = digest.toNat ∧ mine.length = count.toNat)
    let s := if same then s else s.raise 0x3210 0 (u8 a ++ u32 gen.toNat)
    let s := { s with mir := { s.mir with diverged := !same } }
    let s := (s.stage a gen.toNat).takeUp a
    if (s.adm a).pending = 0 ∨ a = 0x2C then .next s
    else
      let (k, s) := s.freeBelow (2 ^ 32)
      .next (s.raiseMax 0x3212 5 k)

/-- A map entry may stand in a stream's map (R81). -/
def mapEntryOk (x : Session) (receive : Bool) (n : Nat) : Bool :=
  n % 256 == 0 &&
  match findDesc (n / 65536) (n / 256 % 256) with
  | none => false
  | some d =>
    d.ty != .octets && d.ty != .string && d.ty != .domain
      && (if receive then d.acc != .ro && d.cls != .stopped && d.level ≤ x.level else d.acc != .wo)

/-- The bytes of the values that a map of `count` entries names (R81). -/
def State.mapSize (s : State) (idx count : Nat) : Nat :=
  (List.range count).foldl (fun t i =>
    let n := s.num idx (i + 1)
    t + ((findDesc (n / 65536) (n / 256 % 256)).bind (·.ty.size)).getD 0) 0

/-- CyclicControl: streams start bound to the session, or stop (R79, R81). -/
def State.cyclicControl (s : State) (x : Session) (n : Nat) : Except Nat State :=
  let period := s.num 0x6010 2
  if period ≤ s.num 0x6010 3 ∨ period ≤ s.num 0x6010 4 then .error 0x60070200
  else
    let w := s.wilwa
    let tx := bit n 0 && !s.cycRuns 0
    let rx := bit n 1 && !s.cycRuns 1
    let w := { w with cycSid := if n = 0 then 0 else x.sid, boundary := if s.num 0x6010 1 = 0 ∨ n = 0 then none else w.boundary,
                      cycles := if s.num 0x6010 1 = 0 ∨ n = 0 then [] else w.cycles,
                      txSample := if tx || !bit n 0 then none else w.txSample, rxWaiting := if rx || !bit n 1 then none else w.rxWaiting,
                      rxApplied := rx || w.rxApplied, rxMissRun := if rx then 0 else w.rxMissRun }
    .ok (({ s with wilwa := w } : State).setNum 0x6010 1 n)

/-- Writes of the dictionary's own objects (R69, R79, R81, R82) and of the waveforms (R240). -/
def hookDic (x : Session) (idx sub : Nat) (v : Val) (s : State) : Option (Except Nat State) :=
  let n := v.toNum
  match idx, sub with
  | 0x1030, 1 => some (.ok { s with nonVol := { s.nonVol with operator := some v.toBytes } })
  | 0x1030, 2 => some (.ok { s with nonVol := { s.nonVol with service := some v.toBytes } })
  | 0x1050, 1 => some (.ok (s.setNum 0x1050 1 (s.num 0x1050 1 - (s.num 0x1050 1 &&& n))))
  | 0x1050, 2 => some (.ok (s.setNum 0x1050 2 (n % 128)))
  | 0x2920, _ | 0x2921, _ | 0x2922, _ | 0x2923, _ => some (s.waveWrite (idx - 0x2920) sub v.toBytes)
  | 0x6000, 0 | 0x6001, 0 =>
    let tag := if x.sessKey.isSome then 16 else 0
    some (if udpLimit x.src.ip.v6 < 24 + s.mapSize idx n + tag then .error 0x60070100 else .ok (s.setObj idx sub v))
  | 0x6000, _ | 0x6001, _ => some (if mapEntryOk x (idx == 0x6001) n then .ok (s.setObj idx sub v) else .error 0x60070300)
  | 0x6010, 1 => some (s.cyclicControl x n)
  | _, _ => none

/-- The effect of its own that a write of an object has, if any. -/
def hook (x : Session) (idx sub : Nat) (v : Val) (s : State) : Option (Except Nat State) :=
  match idx / 256 with
  | 0x10 | 0x60 => hookDic x idx sub v s
  | 0x11 => hookPower idx sub v s
  | 0x20 => hookNetwork idx sub v s
  | 0x21 | 0x50 => hookTime idx sub v s
  | 0x22 | 0x24 => hookRaster idx sub v s
  | 0x23 => hookMemory idx sub v s
  | 0x25 | 0x26 => hookPos idx sub v s
  | 0x27 => hookSne idx sub v s
  | 0x28 => hookChe idx sub v s
  | 0x29 => (hookDic x idx sub v s).orElse fun _ => hookHeads idx sub v s
  | 0x2A => hookHeads idx sub v s
  | 0x2B => hookHdg idx sub v s
  | 0x2C => hookVis idx sub v s
  | 0x2F | 0x30 => hookFaults idx sub v s
  | 0x31 => hookThermal idx sub v s
  | 0x32 => hookMir idx sub v s
  | _ => none

/-- What a write that R72 lets through does: 0, or a code of its object's own rules, and the state (R73, R75, R78). -/
def State.applyWrite (s : State) (x : Session) (d : Desc) (idx sub : Nat) (v : Val) : Nat × State :=
  if isAdminArea (idx / 256) && idx % 256 == 0 && sub == 1 then s.commitRequest (idx / 256) v.toNum
  else match hook x idx sub v s with
    | some (.error e) => (e, s)
    | some (.ok t) => (0, t)
    | none =>
      if d.cls = .commit then (0, { s with wilwa := { s.wilwa with shadow := kvPut s.wilwa.shadow (key idx sub) v } })
      else (0, s.makeLive idx sub v)

/-- A Write: checked in order, then executed or refused (R72). -/
def State.write (s : State) (x : Session) (idx sub : Nat) (b : Bytes) (stream : Bool) : Nat × State :=
  match s.writeError x idx sub b stream with
  | some e => (e, s)
  | none => match findDesc idx sub with
    | some d => s.applyWrite x d idx sub (d.value b)
    | none => (missing idx, s)

/-- What a Read answers: its abort code, or the value's bytes with the state it leaves (R72, R73). -/
def State.read (s : State) (x : Session) (idx sub : Nat) (shadow : Bool) : Except Nat (Bytes × State) :=
  match findDesc idx sub with
  | none => .error (missing idx)
  | some d => match sessionAllows x idx 0 with
    | some e => .error e
    | none =>
      if d.acc = .wo then .error (abort idx 0x60400)
      else if d.ty = .domain then .error (abort idx 0x60700)
      else match s.domainError idx sub with
        | some e => .error e
        | none =>
          if shadow ∧ d.cls = .commit then .ok (wire idx sub (s.shadowObj idx sub), s)
          else
            let (v, s) := s.view idx sub
            .ok (wire idx sub v, s)

end Sys2Proof.Machine
end

