-- ==== Sys2Proof/Machine/Sessions.lean ====
section
/-! DEFINITION. Sessions, unlocking, reads, writes, Describe, Emergencies and cyclic streams: the datagrams of the host (R56 to R85). -/

set_option Elab.async false

namespace Sys2Proof.Machine

/-- An identifier from `lo` to `lo + n - 1` that is not in use; which one the device takes is left open (R58, R60). -/
def State.freeId (s : State) (used : List Nat) (lo n : Nat) : Nat × State :=
  let (k, s) := s.freeBelow n
  (((List.range (used.length + 1)).map fun i => lo + (k + i) % n).find? (fun i => !used.contains i) |>.getD lo, s)

/-- The open sessions. -/
def State.openSessions (s : State) : List Session := s.wilwa.sessions.toList.filterMap id

/-- A new session put into the first free slot. -/
def putSession (l : Vector (Option Session) 4) (x : Session) : Vector (Option Session) 4 :=
  match (List.range 4).find? fun i => (vget l i none).isNone with
  | some i => vmod l i fun _ => some x
  | none => l

/-- A session opened with a version (R60). -/
def State.openSession (s : State) (h : Hdr) (version : Nat) (emergency : Bool) : State :=
  let (sid, s) := s.freeId (s.openSessions.map (·.sid)) 1 0xFFFE
  let x : Session :=
    { sid := sid, src := h.src, version := version, level := 0, emergency := emergency, seq := h.seq.toNat, openSeq := h.seq.toNat,
      stored := none, openResp := none, heard := false, exchange := none, sessKey := none, unacked := [] }
  let d := sessionDgram x 0x02 x.seq 1 0 (u8 version ++ u16 sid ++ u64 s.fuses.serial) false
  let s := { s with wilwa := { s.wilwa with sessions := putSession s.wilwa.sessions { x with stored := some d, openResp := some d } } }
  (s.sendDgram d).irq 4

/-- OPEN_REQUEST: a retransmission gets the stored OpenResponse, any other opens a session or is refused (R60). -/
def execOpenRequest (h : Hdr) (versions : Bytes) (emergency : BitVec 8) (s : State) : Host.Outcome State Fault Refusal :=
  let payload := u8 versions.length ++ versions ++ u8 emergency.toNat
  let again := s.openSessions.find? fun x => bit h.flags.toNat 2 && x.src == h.src && x.openSeq == h.seq.toNat && !x.heard
  let common := [3, 2, 1].find? fun v => versions.contains (BitVec.ofNat 8 v)
  let refuse := fun (code : Nat) => Host.Outcome.next (s.sendDgram (strayDgram { h with sid := 0 } 0x02 code []))
  if !s.serves || !s.ownAddress h.dst then .next s
  else if !headerOk h payload || h.version != 0 || h.sid != 0 || 1 < emergency.toNat || 255 < versions.length then refuse 0x10010100
  else match again.bind (·.openResp), common with
    | some d, _ => .next (s.sendDgram d)
    | none, none => refuse 0x10020100
    | none, some v => if s.openSessions.length = 4 then refuse 0x10020200 else .next (s.openSession h v (emergency == 1))

/-- A session other than `sid` holds operator or service level (R65). -/
def State.levelHeld (s : State) (sid : Nat) : Bool := s.openSessions.any fun x => x.sid != sid && 0 < x.level

/-- The credential that a level is unlocked with (R69). -/
def State.credential (s : State) (level : Nat) : Option Bytes :=
  if level = 1 then s.nonVol.operator else some (s.nonVol.service.getD (List.replicate 32 0))

/-- Why an UnlockRequest is refused, if it is (R61, R65, R68, R69). The codes of a wrong level or length and of service level in
version 1, and the order of the refusals, are the model's choice (assumption 27). -/
def State.unlockError (s : State) (x : Session) (level : Nat) (nonce : Bytes) : Option Nat :=
  if nonce.length ≠ 32 ∨ (level ≠ 1 ∧ level ≠ 2) then some 0x10010100
  else if x.version = 1 ∧ level = 2 then some 0x10020800
  else if s.wilwa.lockout then some 0x10020500
  else if s.levelHeld x.sid then some 0x10020300
  else if (s.credential level).isNone then some 0x10020400
  else none

/-- UNLOCK_REQUEST: a Challenge with a fresh nonce, or a refusal (R66). -/
def execUnlockRequest (h : Hdr) (level : BitVec 8) (nonce : Bytes) (s : State) : Host.Outcome State Fault Refusal :=
  .next (s.requestV h 0x03 (u8 level.toNat ++ nonce) fun x s =>
    match s.unlockError x level.toNat nonce with
    | some e => { type := 0x04, status := e, payload := [], state := s }
    | none =>
      let (n, s) := s.freeBytes 32
      let s := s.modSession x.sid fun y => { y with exchange := some { level := level.toNat, hostNonce := nonce, deviceNonce := n } }
      { type := 0x04, status := 0, payload := n, state := s })

/-- A rejected proof: counted, raised, and the third within 60 s locks unlocking out (R66, R68). -/
def State.rejectProof (s : State) (x : Session) : State :=
  let r := s.tick :: s.wilwa.rejected.filter fun t => s.tick ≤ t + 24000000000
  let w := { s.wilwa with rejected := r, lockout := s.wilwa.lockout || decide (3 ≤ r.length) }
  ({ s with wilwa := w } : State).authFailure x.sid x.src

/-- A level granted to a session, with the session key where its version has one (R66, R67). -/
def State.grant (s : State) (x : Session) (e : Exchange) (cred : Bytes) : State :=
  s.modSession x.sid fun y =>
    { y with level := e.level,
             sessKey := if y.version = 3 then some (hmacSha256 cred (e.hostNonce ++ e.deviceNonce ++ [1])) else none }

/-- PROOF: checked against the credential of the level; a DeviceNonce serves one Proof (R66, R67). -/
def execProof (h : Hdr) (proof : Bytes) (s : State) : Host.Outcome State Fault Refusal :=
  .next (s.requestV h 0x05 proof fun x s =>
    let no := fun (code : Nat) (s : State) => ({ type := 0x06, status := code, payload := [], state := s } : Answer)
    if proof.length ≠ 32 then no 0x10010100 s
    else match x.exchange with
      | none => no 0x10020900 s
      | some e =>
        let s := s.modSession x.sid fun y => { y with exchange := none }
        let cred := (s.credential e.level).getD []
        let m := e.deviceNonce ++ e.hostNonce ++ u8 e.level ++ u16 x.sid ++ u64 s.fuses.serial
        if proof != hmacSha256 cred m then no 0x10020400 (s.rejectProof x)
        else if s.levelHeld x.sid then no 0x10020300 s
        else { type := 0x06, status := 0, payload := u8 e.level, state := s.grant x e cred })

/-- UNLOCK_EXCHANGE_TIMEOUT: the exchange is abandoned (R66). -/
def execUnlockExchangeTimeout (sid : BitVec 16) (s : State) : Host.Outcome State Fault Refusal :=
  .next (s.modSession sid.toNat fun y => { y with exchange := none })

/-- UNLOCK_LOCKOUT_END: unlocking is open again (R68). -/
def execUnlockLockoutEnd (s : State) : Host.Outcome State Fault Refusal :=
  .next { s with wilwa := { s.wilwa with lockout := false } }

/-- The streams stop (R63, R79). -/
def State.streamsStop (s : State) : State :=
  let w := { s.wilwa with cycSid := 0, txSample := none, rxWaiting := none, boundary := none, cycles := [],
                            rxApplied := false, rxMissRun := 0 }
  ({ s with wilwa := w } : State).setNum 0x6010 1 0

/-- A session closes: its transfers end, its streams stop, its level is free (R63). -/
def State.closeSession (s : State) (sid : Nat) : State :=
  let s := forEach (s.wilwa.transfers.filter (·.sid == sid)) (fun t s => s.abortTransfer t 0x10090600) s
  let s := if s.wilwa.cycSid = sid then s.streamsStop else s
  let v : Vector (Option Session) 4 := Vector.ofFn fun (i : Fin 4) => (s.wilwa.sessions[i]).filter fun x => x.sid != sid
  ({ s with wilwa := { s.wilwa with sessions := v } } : State).irq 4

/-- CLOSE (R63). -/
def execClose (h : Hdr) (s : State) : Host.Outcome State Fault Refusal :=
  .next (s.requestV h 0x07 [] fun x s => { type := 0x08, status := 0, payload := [], state := s.closeSession x.sid })

/-- KEEP_ALIVE (R62). -/
def execKeepAlive (h : Hdr) (s : State) : Host.Outcome State Fault Refusal :=
  .next (s.requestV h 0x09 [] fun _ s => { type := 0x0A, status := 0, payload := [], state := s })

/-- SESSION_TIMEOUT: the session closes; F1013h (R63, R85). -/
def execSessionTimeout (sid : BitVec 16) (s : State) : Host.Outcome State Fault Refusal :=
  match s.session sid.toNat with
  | some x => .next ((s.closeSession x.sid).raise 0x1013 0 (u16 x.sid ++ u8 x.level))
  | none => .next s

/-- READ (R58, R72, R73). -/
def execRead (h : Hdr) (idx : BitVec 16) (sub opts : BitVec 8) (s : State) : Host.Outcome State Fault Refusal :=
  let echo := u16 idx.toNat ++ u8 sub.toNat ++ u8 opts.toNat
  .next (s.requestV h 0x10 echo fun x s =>
    match s.read x idx.toNat sub.toNat (bit opts.toNat 0) with
    | .error e => { type := 0x11, status := e, payload := echo, state := s }
    | .ok (b, t) => { type := 0x11, status := 0, payload := echo ++ b, state := t })

/-- A Write request of an object (R58, R72): every command that writes a register is one. -/
def State.hostWrite (s : State) (h : Hdr) (idx sub opts : Nat) (value : Bytes) : State :=
  let echo := u16 idx ++ u8 sub ++ u8 opts
  s.requestV h 0x12 (echo ++ value) fun x s =>
    let (e, t) := s.write x idx sub value false
    { type := 0x13, status := e, payload := echo, state := t }

/-- WRITE (R72). -/
def execWrite (h : Hdr) (idx : BitVec 16) (sub opts : BitVec 8) (value : Bytes) (s : State) : Host.Outcome State Fault Refusal :=
  .next (s.hostWrite h idx.toNat sub.toNat opts.toNat value)

/-- The Minimum and Maximum of an object's numbers, in wire form (R71, R72). -/
def Desc.bounds (d : Desc) (size : Nat) : Nat × Nat :=
  let signed := d.ty == .i8 || d.ty == .i16 || d.ty == .i32 || d.ty == .i64
  let full := 2 ^ (8 * size) - 1
  if d.ty = .bool then (0, 1)
  else match d.ranges with
    | [] => if signed then (2 ^ (8 * size - 1), full / 2) else (0, full)
    | r :: rs =>
      let le := fun (a b : Nat) => if signed then decide (toSigned (8 * size) a ≤ toSigned (8 * size) b) else decide (a ≤ b)
      (rs.foldl (fun m q => if le q.1 m then q.1 else m) r.1, rs.foldl (fun m q => if le m q.2.1 then q.2.1 else m) r.2.1)

/-- The default that DescribeResponse gives: what the fuses or the implementation fix reads as its own default, and IslandStatus has
that of its field map (R20, R21, R71). -/
def State.describedDefault (s : State) (d : Desc) (idx sub : Nat) : Nat :=
  if idx = 0x1210 then islandFixed (sub - 1)
  else if (idx = 0x1010 ∧ (sub = 4 ∨ sub = 5)) ∨ (isAdminArea (idx / 256) && idx % 256 == 0 && sub == 3) then (s.view idx sub).1.toNum
  else (d.default idx sub).toNum

/-- The payload of a DescribeResponse (R58, R71); a MaxSize that its field cannot hold is free (assumption 65). -/
def State.describe (s : State) (d : Desc) (idx sub : Nat) : Bytes :=
  let three := match d.ty.size with
    | none => List.replicate 24 0
    | some n =>
      let (lo, hi) := d.bounds n
      padTo 8 (leBytes n (s.describedDefault d idx sub)) ++ padTo 8 (leBytes n lo) ++ padTo 8 (leBytes n hi)
  u8 d.ty.code ++ u8 d.acc.code ++ u8 d.level ++ u8 d.cls.code ++ u32 (fitted idx 32 d.maxSize) ++ three

/-- DESCRIBE (R71). -/
def execDescribe (h : Hdr) (idx : BitVec 16) (sub opts : BitVec 8) (s : State) : Host.Outcome State Fault Refusal :=
  let echo := u16 idx.toNat ++ u8 sub.toNat ++ u8 opts.toNat
  .next (s.requestV h 0x1C echo fun x s =>
    match findDesc idx.toNat sub.toNat, sessionAllows x idx.toNat 0 with
    | none, _ => { type := 0x1D, status := missing idx.toNat, payload := echo, state := s }
    | some _, some e => { type := 0x1D, status := e, payload := echo, state := s }
    | some d, none => { type := 0x1D, status := 0, payload := s.describe d idx.toNat sub.toNat, state := s })

/-- MALFORMED_DATAGRAM: shorter than the header, discarded and counted (R57). -/
def execMalformedDatagram (length : Nat) (s : State) : Host.Outcome State Fault Refusal :=
  .next (if s.serves ∧ length < 16 then s.bump 0x1020 3 else s)

/-- OVERSIZE_DATAGRAM: longer than the limit, discarded and counted (R56). -/
def execOversizeDatagram (length : Nat) (v6 : Bool) (s : State) : Host.Outcome State Fault Refusal :=
  .next (if s.serves ∧ udpLimit v6 < length then s.bump 0x1020 4 else s)

/-- The message types that a host may send (R58). -/
def hostTypes : List Nat := [0x01, 0x03, 0x05, 0x07, 0x09, 0x10, 0x12, 0x14, 0x16, 0x17, 0x18, 0x1A, 0x1C, 0x21, 0x30]

/-- UNKNOWN_MSGTYPE: answered with 1001_0200h, in its session where it has one (R59, R84; assumption 21). -/
def execUnknownMsgtype (h : Hdr) (ty : BitVec 8) (payload : Bytes) (s : State) : Host.Outcome State Fault Refusal :=
  if hostTypes.contains ty.toNat || !s.serves || !s.ownAddress h.dst then .next s
  else
    let answer := (ty.toNat + 1) % 256
    match s.session h.sid.toNat with
    | none => .next (s.sendDgram (strayDgram h answer (if headerOk h payload then 0x10010200 else 0x10010100) []))
    | some _ => match s.admission h ty.toNat payload true with
      | .dropped s => .next s
      | .session x s => .next (s.sendDgram (sessionDgram x answer h.seq.toNat 1 0x10010200 [] false))

/-- EMERGENCY_ACK: the record is acknowledged (R82). -/
def execEmergencyAck (h : Hdr) (seq : BitVec 32) (s : State) : Host.Outcome State Fault Refusal :=
  .next (s.notice h 0x21 (u32 seq.toNat) fun x s =>
    s.modSession x.sid fun y => { y with unacked := y.unacked.filter fun u => u.seq != seq.toNat })

/-- EMERGENCY_RETRANSMIT_TIMEOUT: sent again, up to three times; then EmergencyLost and F1012h (R82). -/
def execEmergencyRetransmitTimeout (sid : BitVec 16) (seq : BitVec 32) (s : State) : Host.Outcome State Fault Refusal :=
  match s.session sid.toNat with
  | none => .next s
  | some x => match x.unacked.find? fun u => u.seq == seq.toNat with
    | none => .next s
    | some u =>
      if u.resent < 3 then
        let s := s.modSession x.sid fun y =>
          { y with unacked := y.unacked.map fun v => if v.seq = u.seq then { v with resent := v.resent + 1 } else v }
        .next (s.sendDgram (sessionDgram x 0x20 u.seq 4 0 u.record false))
      else
        let s := s.modSession x.sid fun y => { y with unacked := y.unacked.filter fun v => v.seq != u.seq }
        .next ((s.irq 6).raise 0x1012 0 (u16 x.sid ++ u32 u.seq))

/-- The values of the objects of a transmit map, packed in map order; the value of an object whose domain is not ON is left open (R80). -/
def State.sampleMap (s : State) : Bytes × State :=
  (List.range (s.num 0x6000 0)).foldl (fun (acc : Bytes × State) i =>
    let n := s.num 0x6000 (i + 1)
    let idx := n / 65536
    let sub := n / 256 % 256
    match (findDesc idx sub).bind (·.ty.size) with
    | none => acc
    | some k =>
      if (acc.2.domainError idx sub).isSome then
        let (b, t) := acc.2.freeBytes k
        (acc.1 ++ b, t)
      else
        let (v, t) := acc.2.view idx sub
        (acc.1 ++ wire idx sub v, t)) ([], s)

/-- The last cycle boundary at or before native time (R80, R106). -/
def State.lastBoundary (s : State) : Nat := s.eNow - s.eNow % max 1 (s.num 0x6010 2)

/-- The boundary after one: boundaries resume from 0 where native time wraps (R106). -/
def State.boundaryAfter (s : State) (t : Nat) : Nat := if t + s.num 0x6010 2 < 2 ^ 48 then t + s.num 0x6010 2 else 0

/-- The cycles that the streams have passed within 2^47 ns, by boundary and tick: after that, a boundary that native time reaches again
past its wrap is another cycle (R80, R106). -/
def State.passedCycles (s : State) : List (Nat × Nat) := s.wilwa.cycles.filter fun c => decide (5 * s.tick < 5 * c.2 + 2 ^ 48)

/-- The cycle of the last boundary has been passed: it is not repeated after a step of time (R80). -/
def State.cyclePassed (s : State) : Bool := s.passedCycles.any (·.1 == s.lastBoundary)

/-- CYCLE_BOUNDARY: native time passes a multiple of CyclePeriod; the transmit objects are sampled. No cycle is repeated (R80). -/
def execCycleBoundary (s : State) : Host.Outcome State Fault Refusal :=
  let t := s.lastBoundary
  if !s.serves ∨ s.wilwa.cycSid = 0 ∨ s.cyclePassed then .next s
  else
    let s := { s with wilwa := { s.wilwa with boundary := some t, rxApplied := false, cycles := (t, s.tick) :: s.passedCycles } }
    if s.cycRuns 0 then
      let (b, s) := s.sampleMap
      .next { s with wilwa := { s.wilwa with txSample := some { ns := t % 2 ^ 32, era := t / 2 ^ 32, data := b } } }
    else .next s

/-- CYCLIC_TRANSMIT: the sample leaves at t_c + TxOffset (R79, R80). -/
def execCyclicTransmit (s : State) : Host.Outcome State Fault Refusal :=
  match s.wilwa.txSample, s.session s.wilwa.cycSid with
  | some c, some x =>
    if !s.serves ∨ !s.cycRuns 0 then .next s
    else
      let s := { s with wilwa := { s.wilwa with txSample := none } }
      let payload := u32 c.ns ++ u16 c.era ++ u16 0 ++ c.data
      .next ((s.sendDgram (sessionDgram x 0x30 (s.num 0x6010 8) 0 0 payload true)).bump 0x6010 8)
  | _, _ => .next s

/-- The cycle whose data a datagram arriving now may carry: the present one until its apply instant, then the next; the next one
where no boundary has come since the streams run (R80). -/
def State.rxCycle (s : State) : Nat :=
  match s.wilwa.boundary with
  | some t => if s.wilwa.rxApplied || decide (t + s.num 0x6010 4 ≤ s.eNow) then s.boundaryAfter t else t
  | none => s.boundaryAfter s.lastBoundary

/-- CYCLIC_RECEIVE: held for its cycle, or discarded and counted (R80). -/
def execCyclicReceive (h : Hdr) (payload : Bytes) (s : State) : Host.Outcome State Fault Refusal :=
  .next (s.notice h 0x30 payload fun x s =>
    if x.sid ≠ s.wilwa.cycSid ∨ !s.cycRuns 1 ∨ payload.length ≠ 8 + s.mapSize 0x6001 (s.num 0x6001 0) then s
    else if s.rxCycle = leAt payload 0 6 then
      { s with wilwa := { s.wilwa with rxWaiting := some { ns := leAt payload 0 4, era := leAt payload 4 2, data := payload.drop 8 } } }
    else s.bump 0x6010 6)

/-- A receive datagram's values written in map order; an entry that is refused changes nothing of its object (R72, R80). -/
def State.applyMap (s : State) (x : Session) (data : Bytes) : State :=
  ((List.range (s.num 0x6001 0)).foldl (fun (acc : Bytes × State) i =>
    let n := s.num 0x6001 (i + 1)
    let idx := n / 65536
    let sub := n / 256 % 256
    match (findDesc idx sub).bind (·.ty.size) with
    | none => acc
    | some k => (acc.1.drop k, (acc.2.write x idx sub (acc.1.take k) true).2)) (data, s)).2

/-- CYCLIC_RX_APPLY: at t_c + RxApplyOffset the datagram of the cycle is applied, or the cycle counts as missed (R80). -/
def execCyclicRxApply (s : State) : Host.Outcome State Fault Refusal :=
  match s.wilwa.boundary, s.session s.wilwa.cycSid with
  | some t, some x =>
    if !s.serves ∨ !s.cycRuns 1 ∨ s.wilwa.rxApplied then .next s
    else
      let w := s.wilwa
      match w.rxWaiting.filter fun c => c.era * 2 ^ 32 + c.ns == t with
      | some c =>
        .next (({ s with wilwa := { w with rxApplied := true, rxMissRun := 0, rxWaiting := none } } : State).applyMap x c.data)
      | none => .next (({ s with wilwa := { w with rxApplied := true, rxMissRun := w.rxMissRun + 1 } } : State).bump 0x6010 7)
  | _, _ => .next s

/-- CYCLIC_RX_WATCHDOG_EXPIRY: F1010h and IrqCause CyclicWatchdog; the count starts anew (R80, R82, R85). -/
def execCyclicRxWatchdogExpiry (s : State) : Host.Outcome State Fault Refusal :=
  if s.num 0x6010 5 = 0 ∨ !s.cycRuns 1 ∨ s.wilwa.rxMissRun < s.num 0x6010 5 then .next s
  else
    let s := { s with wilwa := { s.wilwa with rxMissRun := 0 } }
    .next ((s.irq 5).raise 0x1010 0 (u16 s.wilwa.cycSid ++ u32 (s.num 0x6010 7)))

end Sys2Proof.Machine
end

