-- ==== Sys2Proof/Machine/Transfer.lean ====
section
/-! DEFINITION. Segmented transfers of DOMAIN, OCTETS and STRING objects (R77, R78). -/

set_option Elab.async false

namespace Sys2Proof.Machine

/-- SegmentSize by version and IP version (R77). -/
def segmentSize (version : Nat) (v6 : Bool) : Nat :=
  match version, v6 with
  | 3, false => 1432
  | 3, true => 1412
  | _, false => 1448
  | _, true => 1428

/-- A transfer changed. -/
def State.modTransfer (s : State) (tid : Nat) (f : Transfer → Transfer) : State :=
  { s with wilwa := { s.wilwa with transfers := s.wilwa.transfers.map fun t => if t.tid = tid then f t else t } }

/-- The transfer with an id, if the session has it. -/
def State.sessionTransfer (s : State) (x : Session) (tid : Nat) : Option Transfer := (s.transfer tid).filter (·.sid == x.sid)

/-- A datagram of a transfer with Sequence 0 (R58). -/
def State.transferSend (s : State) (x : Session) (ty tid n : Nat) (data : Bytes) : State :=
  s.sendDgram (sessionDgram x ty 0 0 0 (u16 tid ++ u16 0 ++ u32 n ++ data) false)

/-- What R72 checks of a TransferInit before R77 applies. -/
def State.initError (s : State) (x : Session) (idx sub : Nat) (download : Bool) : Option Nat :=
  match findDesc idx sub with
  | none => some (missing idx)
  | some d => (sessionAllows x idx (if download then d.level else 0)).orElse fun _ =>
    if d.ty.size.isSome then some (abort idx 0x60700)
    else if download ∧ d.acc = .ro then some (abort idx 0x60300)
    else if !download ∧ d.acc = .wo then some (abort idx 0x60400)
    else (s.domainError idx sub).orElse fun _ => if download then s.classError d idx sub else none

/-- What a chapter checks of an upload at TransferInit (R317, R402). -/
def State.uploadError (s : State) (idx sub : Nat) : Option Nat :=
  if idx = 0x3011 ∧ sub = 6 then
    let k := s.num 0x3011 5
    if (s.snap k).state = .valid then none else some (0x30040100 + k)
  else if idx = 0x2D30 ∧ sub = 2 then match s.selectedProduct with
    | .error e => some e
    | .ok _ => none
  else none

/-- What R77 checks of a TransferInit. -/
def State.openError (s : State) (x : Session) (idx sub total : Nat) : Option Nat :=
  if s.wilwa.transfers.any (·.sid == x.sid) then some 0x10090100
  else if 4 ≤ s.wilwa.transfers.length then some 0x10090200
  else if ((findDesc idx sub).map (·.maxSize)).getD 0 < total then some 0x10090300
  else none

/-- A TransferInit (R77). -/
def State.transferInit (s : State) (x : Session) (idx sub total : Nat) (download : Bool) : Answer :=
  let no := fun (code : Nat) => ({ type := 0x15, status := code, payload := [], state := s } : Answer)
  match (s.initError x idx sub download).orElse fun _ => (s.openError x idx sub total).orElse fun _ =>
      if download then none else s.uploadError idx sub with
  | some e => no e
  | none =>
    let (data, s) := if download then ([], s) else
      let (v, s) := s.view idx sub
      (v.toBytes, s)
    let (tid, s) := s.freeId (s.wilwa.transfers.map (·.tid)) 0 65536
    let size := segmentSize x.version x.src.ip.v6
    let t : Transfer :=
      { tid := tid, sid := x.sid, idx := idx, sub := sub, download := download, total := if download then total else data.length,
        segSize := size, segs := [], acked := 0, sinceAck := 0, lastAck := none, data := data, sent := 0 }
    { type := 0x15, status := 0, payload := u16 tid ++ u16 size ++ u8 16,
      state := { s with wilwa := { s.wilwa with transfers := s.wilwa.transfers ++ [t] } } }

/-- The segments of an upload that its window still admits, at most `fuel` of them (R77). -/
def State.sendSegments : Nat → Session → Nat → State → State
  | 0, _, _, s => s
  | fuel + 1, x, tid, s =>
    match s.transfer tid with
    | none => s
    | some t =>
      if t.total ≤ t.sent ∨ t.acked + 16 * t.segSize ≤ t.sent then s
      else
        let piece := slice t.data t.sent t.segSize
        let s := s.transferSend x 0x16 tid t.sent piece
        State.sendSegments fuel x tid (s.modTransfer tid fun t => { t with sent := t.sent + piece.length })

/-- An upload goes on: its window is filled, and once everything is acknowledged the device sends TransferEnd (R77, R78). -/
def State.pump (s : State) (t : Transfer) : State :=
  match s.session t.sid with
  | none => s
  | some x =>
    if t.download then s
    else if t.total ≤ t.acked then (s.transferSend x 0x18 t.tid (crc32c t.data) []).dropTransfer t.tid
    else State.sendSegments 16 x t.tid s

/-- TRANSFER_INIT: checked, opened, and an upload's first segments sent behind the response (R77). -/
def execTransferInit (h : Hdr) (idx : BitVec 16) (sub dir : BitVec 8) (total : BitVec 32) (s : State) :
    Host.Outcome State Fault Refusal :=
  let old := s.wilwa.transfers.length
  let s := s.requestV h 0x14 (u16 idx.toNat ++ u8 sub.toNat ++ u8 dir.toNat ++ u32 total.toNat) fun x s =>
    if 1 < dir.toNat then { type := 0x15, status := 0x10010100, payload := [], state := s }
    else s.transferInit x idx.toNat sub.toNat total.toNat (dir == 0)
  .next (forEach (s.wilwa.transfers.drop old) (fun t s => s.pump t) s)

/-- The contiguous bytes of a download's segments from segment `n` on. -/
def contiguous (segs : List (Nat × Bytes)) : Nat → Nat → Nat
  | 0, _ => 0
  | fuel + 1, n =>
    match kvGet segs n with
    | some b => b.length + contiguous segs fuel (n + 1)
    | none => 0

/-- A segment lies where R77 wants it. -/
def Transfer.segmentOk (t : Transfer) (off : Nat) (data : Bytes) : Bool :=
  off % max 1 t.segSize == 0 && t.acked ≤ off && off < t.acked + 16 * t.segSize && off < t.total
    && data.length == min t.segSize (t.total - off)

/-- SEGMENT: taken into the window and acknowledged, or dropped (R77). -/
def execSegment (h : Hdr) (tid : BitVec 16) (off : BitVec 32) (data : Bytes) (s : State) : Host.Outcome State Fault Refusal :=
  .next (s.notice h 0x16 (u16 tid.toNat ++ u16 0 ++ u32 off.toNat ++ data) fun x s =>
    match s.sessionTransfer x tid.toNat with
    | none => s
    | some t =>
      if !t.download then s
      else if !t.segmentOk off.toNat data then match t.lastAck with
        | some a => s.transferSend x 0x17 t.tid a []
        | none => s
      else
        let segs := kvPut t.segs (off.toNat / max 1 t.segSize) data
        let acked := contiguous segs (segs.length + 1) 0
        let n := (t.sinceAck + 1) % 4
        let ack := n == 0 || off.toNat + data.length == t.total
        let s := s.modTransfer t.tid fun t =>
          { t with segs := segs, acked := acked, sinceAck := n, lastAck := if ack then some acked else t.lastAck }
        if ack then s.transferSend x 0x17 t.tid acked [] else s)

/-- SEGMENT_ACK: AckedOffset of an upload advances, and the window with it (R77). -/
def execSegmentAck (h : Hdr) (tid : BitVec 16) (acked : BitVec 32) (s : State) : Host.Outcome State Fault Refusal :=
  .next (s.notice h 0x17 (u16 tid.toNat ++ u16 0 ++ u32 acked.toNat) fun x s =>
    match s.sessionTransfer x tid.toNat with
    | none => s
    | some t =>
      let a := acked.toNat
      if t.download || a < t.acked || t.sent < a || (a != t.total && a % max 1 t.segSize != 0) then s
      else
        let s := s.modTransfer t.tid fun t => { t with acked := a }
        match s.transfer t.tid with
        | some t => s.pump t
        | none => s)

/-- The content of a download. -/
def Transfer.content (t : Transfer) : Bytes := (t.segs.flatMap (·.2)).take t.total

/-- A TransferEnd of the host: the code it is answered with, and the state it leaves (R78). -/
def State.transferEnd (s : State) (x : Session) (tid crc : Nat) : Nat × State :=
  match s.sessionTransfer x tid with
  | none => (0x10090400, s)
  | some t =>
    if !t.download then (0x10090800, s)
    else if t.acked < t.total then (0x10090900, s)
    else
      let s := s.dropTransfer tid
      if crc32c t.content ≠ crc then (0x10090500, s)
      else match findDesc t.idx t.sub with
        | none => (missing t.idx, s)
        | some d => match s.contentError d t.idx t.sub t.content with
          | some e => (e, s)
          | none => s.applyWrite x d t.idx t.sub (d.value t.content)

/-- TRANSFER_END (R78). -/
def execTransferEnd (h : Hdr) (tid : BitVec 16) (crc : BitVec 32) (s : State) : Host.Outcome State Fault Refusal :=
  let echo := u16 tid.toNat ++ u16 0 ++ u32 crc.toNat
  .next (s.requestV h 0x18 echo fun x s =>
    let (e, t) := s.transferEnd x tid.toNat crc.toNat
    { type := 0x19, status := e, payload := echo, state := t })

/-- TRANSFER_ABORT: the host ends its transfer; nothing is applied (R77, R78). -/
def execTransferAbort (h : Hdr) (tid : BitVec 16) (code : BitVec 32) (s : State) : Host.Outcome State Fault Refusal :=
  .next (s.notice h 0x1A (u16 tid.toNat ++ u16 0 ++ u32 code.toNat) fun x s =>
    match s.sessionTransfer x tid.toNat with
    | some t => s.dropTransfer t.tid
    | none => s)

/-- TRANSFER_RESEND_TIMEOUT: an upload is sent again from AckedOffset (R77). -/
def execTransferResendTimeout (tid : BitVec 16) (s : State) : Host.Outcome State Fault Refusal :=
  match s.transfer tid.toNat with
  | none => .next s
  | some t =>
    if t.download then .next s
    else
      let s := s.modTransfer t.tid fun t => { t with sent := t.acked }
      .next (match s.transfer t.tid with
        | some t => s.pump t
        | none => s)

/-- TRANSFER_TIMEOUT: the transfer is aborted (R77). -/
def execTransferTimeout (tid : BitVec 16) (s : State) : Host.Outcome State Fault Refusal :=
  match s.transfer tid.toNat with
  | some t => .next (s.abortTransfer t 0x10090600)
  | none => .next s

end Sys2Proof.Machine
end

