-- ==== Sys2Proof/Machine/Requests.lean ====
section
/-! DEFINITION. The commands that are a Write of one register: the Write of R72 with the register and the value that the command
stands for. What the register does with the value is written where its unit is. -/

set_option Elab.async false

namespace Sys2Proof.Machine

/-- The value of MdioCommand (R108). -/
def mdioWord (op : Nat) (phy reg : BitVec 5) (data : BitVec 16) : Bytes :=
  u32 (op * 2 ^ 29 + phy.toNat * 2 ^ 24 + reg.toNat * 2 ^ 16 + data.toNat)

/-- REQUEST_STANDBY: a write of StateRequest = 3 (R25). -/
def execRequestStandby (h : Hdr) (s : State) : Host.Outcome State Fault Refusal :=
  .next (s.hostWrite h 0x1100 2 0 (u8 3))

/-- REQUEST_CONFIGURED: a write of StateRequest = 4 (R26). -/
def execRequestConfigured (h : Hdr) (s : State) : Host.Outcome State Fault Refusal :=
  .next (s.hostWrite h 0x1100 2 0 (u8 4))

/-- REQUEST_ARMED: a write of StateRequest = 5 (R27). -/
def execRequestArmed (h : Hdr) (s : State) : Host.Outcome State Fault Refusal :=
  .next (s.hostWrite h 0x1100 2 0 (u8 5))

/-- REQUEST_PRINTING: a write of StateRequest = 6 (R29). -/
def execRequestPrinting (h : Hdr) (s : State) : Host.Outcome State Fault Refusal :=
  .next (s.hostWrite h 0x1100 2 0 (u8 6))

/-- REQUEST_HELD: a write of StateRequest = 7 (R28). -/
def execRequestHeld (h : Hdr) (s : State) : Host.Outcome State Fault Refusal :=
  .next (s.hostWrite h 0x1100 2 0 (u8 7))

/-- REQUEST_FROZEN: a write of StateRequest = 8 (R31). -/
def execRequestFrozen (h : Hdr) (s : State) : Host.Outcome State Fault Refusal :=
  .next (s.hostWrite h 0x1100 2 0 (u8 8))

/-- RESET_REQUEST_CHIP: a write of ResetRequest = 1 (R41). -/
def execResetRequestChip (h : Hdr) (s : State) : Host.Outcome State Fault Refusal :=
  .next (s.hostWrite h 0x1120 1 0 (u8 1))

/-- RESET_REQUEST_BLOCK: a write of ResetRequest = 2 (R386). -/
def execResetRequestBlock (h : Hdr) (s : State) : Host.Outcome State Fault Refusal :=
  .next (s.hostWrite h 0x1120 1 0 (u8 2))

/-- DOMAIN_REQUEST: a write of DomainRequest (R45). -/
def execDomainRequest (h : Hdr) (value : BitVec 32) (s : State) : Host.Outcome State Fault Refusal :=
  .next (s.hostWrite h 0x1110 1 0 (u32 value.toNat))

/-- COMMIT_REQUEST: a write of CommitRequest of an area (R75). -/
def execCommitRequest (h : Hdr) (area : BitVec 8) (value : BitVec 32) (s : State) : Host.Outcome State Fault Refusal :=
  .next (s.hostWrite h (area.toNat * 256) 1 0 (u32 value.toNat))

/-- IRQ_CAUSE_CLEAR: a write of IrqCause (R82). -/
def execIrqCauseClear (h : Hdr) (mask : BitVec 32) (s : State) : Host.Outcome State Fault Refusal :=
  .next (s.hostWrite h 0x1050 1 0 (u32 mask.toNat))

/-- CYCLIC_TX_RUN_WRITE: a write of TxRun of CyclicControl, its other bit as it stands (R79). -/
def execCyclicTxRunWrite (h : Hdr) (run : Bool) (s : State) : Host.Outcome State Fault Refusal :=
  .next (s.hostWrite h 0x6010 1 0 (u8 (b2n run + b2n (s.cycRuns 1) * 2)))

/-- CYCLIC_RX_RUN_WRITE: a write of RxRun of CyclicControl, its other bit as it stands (R79). -/
def execCyclicRxRunWrite (h : Hdr) (run : Bool) (s : State) : Host.Outcome State Fault Refusal :=
  .next (s.hostWrite h 0x6010 1 0 (u8 (b2n (s.cycRuns 0) + b2n run * 2)))

/-- OPERATOR_CREDENTIAL_WRITE: a write of OperatorCredential (R69). -/
def execOperatorCredentialWrite (h : Hdr) (credential : Bytes) (s : State) : Host.Outcome State Fault Refusal :=
  .next (s.hostWrite h 0x1030 1 0 (credential))

/-- SERVICE_CREDENTIAL_WRITE: a write of ServiceCredential (R69). -/
def execServiceCredentialWrite (h : Hdr) (credential : Bytes) (s : State) : Host.Outcome State Fault Refusal :=
  .next (s.hostWrite h 0x1030 2 0 (credential))

/-- TIME_SET: a write of TimeSet (R101). -/
def execTimeSet (h : Hdr) (value : Bytes) (s : State) : Host.Outcome State Fault Refusal :=
  .next (s.hostWrite h 0x2130 1 0 (value))

/-- SERVO_ENABLE_WRITE: a write of ServoEnable (R99). -/
def execServoEnableWrite (h : Hdr) (enable : Bool) (s : State) : Host.Outcome State Fault Refusal :=
  .next (s.hostWrite h 0x2120 12 0 (u8 (b2n enable)))

/-- LEGACY_LATCH: a write of LegacyLatch = 1 (R104). -/
def execLegacyLatch (h : Hdr) (s : State) : Host.Outcome State Fault Refusal :=
  .next (s.hostWrite h 0x5000 1 0 (u8 1))

/-- MDIO_C22_WRITE: a write of MdioCommand, op 000b (R108). -/
def execMdioC22Write (h : Hdr) (phy reg : BitVec 5) (data : BitVec 16) (s : State) : Host.Outcome State Fault Refusal :=
  .next (s.hostWrite h 0x2050 1 0 (mdioWord 0 phy reg data))

/-- MDIO_C22_READ: a write of MdioCommand, op 001b (R108). -/
def execMdioC22Read (h : Hdr) (phy reg : BitVec 5) (data : BitVec 16) (s : State) : Host.Outcome State Fault Refusal :=
  .next (s.hostWrite h 0x2050 1 0 (mdioWord 1 phy reg data))

/-- MDIO_C45_ADDRESS: a write of MdioCommand, op 100b (R108). -/
def execMdioC45Address (h : Hdr) (phy dev : BitVec 5) (data : BitVec 16) (s : State) : Host.Outcome State Fault Refusal :=
  .next (s.hostWrite h 0x2050 1 0 (mdioWord 4 phy dev data))

/-- MDIO_C45_WRITE: a write of MdioCommand, op 101b (R108). -/
def execMdioC45Write (h : Hdr) (phy dev : BitVec 5) (data : BitVec 16) (s : State) : Host.Outcome State Fault Refusal :=
  .next (s.hostWrite h 0x2050 1 0 (mdioWord 5 phy dev data))

/-- MDIO_C45_READ: a write of MdioCommand, op 111b (R108). -/
def execMdioC45Read (h : Hdr) (phy dev : BitVec 5) (data : BitVec 16) (s : State) : Host.Outcome State Fault Refusal :=
  .next (s.hostWrite h 0x2050 1 0 (mdioWord 7 phy dev data))

/-- INTAKE_ENABLE_WRITE: a write of IntakeEnable (R121). -/
def execIntakeEnableWrite (h : Hdr) (enable : Bool) (s : State) : Host.Outcome State Fault Refusal :=
  .next (s.hostWrite h 0x2220 1 0 (u8 (b2n enable)))

/-- FORWARD_RESTART: a write of ForwardRestart = 1 (R124). -/
def execForwardRestart (h : Hdr) (s : State) : Host.Outcome State Fault Refusal :=
  .next (s.hostWrite h 0x2220 10 0 (u8 1))

/-- SLOT_OPEN: a write of SlotCommand = 1 (R127). -/
def execSlotOpen (h : Hdr) (slot : Fin 2) (s : State) : Host.Outcome State Fault Refusal :=
  .next (s.hostWrite h 0x221A (slot + 1) 0 (u8 1))

/-- SLOT_SEAL: a write of SlotCommand = 2 (R127). -/
def execSlotSeal (h : Hdr) (slot : Fin 2) (s : State) : Host.Outcome State Fault Refusal :=
  .next (s.hostWrite h 0x221A (slot + 1) 0 (u8 2))

/-- SLOT_CLEAR: a write of SlotCommand = 3 (R127). -/
def execSlotClear (h : Hdr) (slot : Fin 2) (s : State) : Host.Outcome State Fault Refusal :=
  .next (s.hostWrite h 0x221A (slot + 1) 0 (u8 3))

/-- QUEUED_SLOT_WRITE: a write of QueuedSlot (R130). -/
def execQueuedSlotWrite (h : Hdr) (value : BitVec 8) (s : State) : Host.Outcome State Fault Refusal :=
  .next (s.hostWrite h 0x2410 1 0 (u8 value.toNat))

/-- CHANGE_AT_REPEAT_WRITE: a write of ChangeAtRepeat (R132). -/
def execChangeAtRepeatWrite (h : Hdr) (value : BitVec 32) (s : State) : Host.Outcome State Fault Refusal :=
  .next (s.hostWrite h 0x2410 3 0 (u32 value.toNat))

/-- CHANNEL_RELEASE_ISSUE: a write of ChannelRelease = 1 (R156). -/
def execChannelReleaseIssue (h : Hdr) (c : Chan) (s : State) : Host.Outcome State Fault Refusal :=
  .next (s.hostWrite h 0x2336 (c + 1) 0 (u8 1))

/-- CHANNEL_RELEASE_DISCARD: a write of ChannelRelease = 2 (R156). -/
def execChannelReleaseDiscard (h : Hdr) (c : Chan) (s : State) : Host.Outcome State Fault Refusal :=
  .next (s.hostWrite h 0x2336 (c + 1) 0 (u8 2))

/-- CHANNEL_RELEASE_RETRAIN: a write of ChannelRelease = 3 (R156). -/
def execChannelReleaseRetrain (h : Hdr) (c : Chan) (s : State) : Host.Outcome State Fault Refusal :=
  .next (s.hostWrite h 0x2336 (c + 1) 0 (u8 3))

/-- TRAIN_PRESENT_POINT: a write of TrainRequest = 1 (R159). -/
def execTrainPresentPoint (h : Hdr) (c : Chan) (s : State) : Host.Outcome State Fault Refusal :=
  .next (s.hostWrite h 0x2316 (c + 1) 0 (u8 1))

/-- CLEAR_STORED_RESULTS: a write of TrainRequest = 3 (R158). -/
def execClearStoredResults (h : Hdr) (c : Chan) (s : State) : Host.Outcome State Fault Refusal :=
  .next (s.hostWrite h 0x2316 (c + 1) 0 (u8 3))

/-- OP_POINT_SELECT_WRITE: a write of OpPointSelect (R160). -/
def execOpPointSelectWrite (h : Hdr) (c : Chan) (value : BitVec 8) (s : State) : Host.Outcome State Fault Refusal :=
  .next (s.hostWrite h 0x2315 (c + 1) 0 (u8 value.toNat))

/-- CHANNEL_ENABLE_WRITE: a write of ChannelEnable (R164). -/
def execChannelEnableWrite (h : Hdr) (c : Chan) (enable : Bool) (s : State) : Host.Outcome State Fault Refusal :=
  .next (s.hostWrite h 0x2310 (c + 1) 0 (u8 (b2n enable)))

/-- DIMM_SETTING_WRITE: a write of a rate, DimmRanks or DimmDensity (R158). -/
def execDimmSettingWrite (h : Hdr) (idx : BitVec 16) (sub : BitVec 8) (value : Bytes) (s : State) : Host.Outcome State Fault Refusal :=
  .next (s.hostWrite h idx.toNat sub.toNat 0 (value))

/-- LFSR_SEED_WRITE: a write of LfsrSeed (R150). -/
def execLfsrSeedWrite (h : Hdr) (c : Chan) (value : BitVec 32) (s : State) : Host.Outcome State Fault Refusal :=
  .next (s.hostWrite h 0x231C (c + 1) 0 (u32 value.toNat))

/-- CHANNEL_MODE_WRITE: a write of ChannelMode (R169). -/
def execChannelModeWrite (h : Hdr) (n : PosCh) (value : BitVec 8) (s : State) : Host.Outcome State Fault Refusal :=
  .next (s.hostWrite h 0x2510 (n + 1) 0 (u8 value.toNat))

/-- ZONE_WIDTH_WRITE: a write of ZoneWidth (R223). -/
def execZoneWidthWrite (h : Hdr) (b : Bar) (value : BitVec 32) (s : State) : Host.Outcome State Fault Refusal :=
  .next (s.hostWrite h 0x2712 (b + 1) 0 (u32 value.toNat))

/-- OUTPUT_LEVEL_WRITE: a write of OutputLevel (R250). -/
def execOutputLevelWrite (h : Hdr) (value : BitVec 16) (s : State) : Host.Outcome State Fault Refusal :=
  .next (s.hostWrite h 0x2E20 1 0 (u16 value.toNat))

/-- BIT_SLIP: a write of BitSlip = 1 (R271). -/
def execBitSlip (h : Hdr) (l : Lane) (s : State) : Host.Outcome State Fault Refusal :=
  .next (s.hostWrite h 0x2A18 (l + 1) 0 (u8 1))

/-- LANE_RETRAIN: a write of LaneCommand = 1 (R270). -/
def execLaneRetrain (h : Hdr) (l : Lane) (s : State) : Host.Outcome State Fault Refusal :=
  .next (s.hostWrite h 0x2A1F (l + 1) 0 (u8 1))

/-- LANE_ENTER_TEST: a write of LaneCommand = 2 (R270). -/
def execLaneEnterTest (h : Hdr) (l : Lane) (s : State) : Host.Outcome State Fault Refusal :=
  .next (s.hostWrite h 0x2A1F (l + 1) 0 (u8 2))

/-- LANE_LEAVE_TEST: a write of LaneCommand = 3 (R270). -/
def execLaneLeaveTest (h : Hdr) (l : Lane) (s : State) : Host.Outcome State Fault Refusal :=
  .next (s.hostWrite h 0x2A1F (l + 1) 0 (u8 3))

/-- TEST_INJECT_BIT: a write of TestInject = 1 (R280). -/
def execTestInjectBit (h : Hdr) (l : Lane) (s : State) : Host.Outcome State Fault Refusal :=
  .next (s.hostWrite h 0x2A31 (l + 1) 0 (u8 1))

/-- TEST_INJECT_BURST: a write of TestInject = 2 (R280). -/
def execTestInjectBurst (h : Hdr) (l : Lane) (s : State) : Host.Outcome State Fault Refusal :=
  .next (s.hostWrite h 0x2A31 (l + 1) 0 (u8 2))

/-- MEAS_START: a write of MeasCommand = 1 (R284). -/
def execMeasStart (h : Hdr) (s : State) : Host.Outcome State Fault Refusal :=
  .next (s.hostWrite h 0x2B10 2 0 (u8 1))

/-- MEAS_ABANDON: a write of MeasCommand = 2 (R287). -/
def execMeasAbandon (h : Hdr) (s : State) : Host.Outcome State Fault Refusal :=
  .next (s.hostWrite h 0x2B10 2 0 (u8 2))

/-- MEAS_CAPTURE_BASELINE: a write of MeasCommand = 3 (R294). -/
def execMeasCaptureBaseline (h : Hdr) (s : State) : Host.Outcome State Fault Refusal :=
  .next (s.hostWrite h 0x2B10 2 0 (u8 3))

/-- PENDING_APPLY: a write of PendingApply = 1 (R292). -/
def execPendingApply (h : Hdr) (b : Bar) (s : State) : Host.Outcome State Fault Refusal :=
  .next (s.hostWrite h 0x2B19 (b + 1) 0 (u8 1))

/-- CCI_COMMAND_WRITE: a write of CciCommand, op 0 (R303). -/
def execCciCommandWrite (h : Hdr) (p : CamPort) (value : Bytes) (s : State) : Host.Outcome State Fault Refusal :=
  .next (s.hostWrite h 0x2C28 (p + 1) 0 (value))

/-- CCI_COMMAND_READ: a write of CciCommand, op 1 (R303). -/
def execCciCommandRead (h : Hdr) (p : CamPort) (value : Bytes) (s : State) : Host.Outcome State Fault Refusal :=
  .next (s.hostWrite h 0x2C28 (p + 1) 0 (value))

/-- PORT_ENABLE_WRITE: a write of PortEnable (R310). -/
def execPortEnableWrite (h : Hdr) (p : CamPort) (value : Bool) (s : State) : Host.Outcome State Fault Refusal :=
  .next (s.hostWrite h 0x2C10 (p + 1) 0 (u8 (b2n value)))

/-- HOLD_RUN_WRITE: a write of HoldRun (R326). -/
def execHoldRunWrite (h : Hdr) (run : Bool) (s : State) : Host.Outcome State Fault Refusal :=
  .next (s.hostWrite h 0x2820 1 0 (u8 (b2n run)))

/-- HOLD_MODE_WRITE: a write of HoldMode (R339). -/
def execHoldModeWrite (h : Hdr) (b : Bar) (value : BitVec 8) (s : State) : Host.Outcome State Fault Refusal :=
  .next (s.hostWrite h 0x2810 (b + 1) 0 (u8 value.toNat))

/-- REF_COMMAND: a write of RefCommand (R336). -/
def execRefCommand (h : Hdr) (value : BitVec 8) (s : State) : Host.Outcome State Fault Refusal :=
  .next (s.hostWrite h 0x2820 11 0 (u8 value.toNat))

/-- ROLE_REQUEST_SOLO: a write of RoleRequest = 0 (R346). -/
def execRoleRequestSolo (h : Hdr) (s : State) : Host.Outcome State Fault Refusal :=
  .next (s.hostWrite h 0x3210 1 0 (u8 0))

/-- ROLE_REQUEST_ACTIVE: a write of RoleRequest = 1 (R346). -/
def execRoleRequestActive (h : Hdr) (s : State) : Host.Outcome State Fault Refusal :=
  .next (s.hostWrite h 0x3210 1 0 (u8 1))

/-- ROLE_REQUEST_STANDBY: a write of RoleRequest = 2 (R346). -/
def execRoleRequestStandby (h : Hdr) (s : State) : Host.Outcome State Fault Refusal :=
  .next (s.hostWrite h 0x3210 1 0 (u8 2))

/-- MIRROR_PAIR_AGAIN: a write of MirrorCommand = 1 (R347). -/
def execMirrorPairAgain (h : Hdr) (s : State) : Host.Outcome State Fault Refusal :=
  .next (s.hostWrite h 0x3210 3 0 (u8 1))

/-- MIRROR_PLANNED_SWAP: a write of MirrorCommand = 2 (R367). -/
def execMirrorPlannedSwap (h : Hdr) (s : State) : Host.Outcome State Fault Refusal :=
  .next (s.hostWrite h 0x3210 3 0 (u8 2))

/-- MIRROR_TAKE_OVER: a write of MirrorCommand = 3 (R362). -/
def execMirrorTakeOver (h : Hdr) (s : State) : Host.Outcome State Fault Refusal :=
  .next (s.hostWrite h 0x3210 3 0 (u8 3))

/-- MIRROR_DISSOLVE: a write of MirrorCommand = 4 (R347). -/
def execMirrorDissolve (h : Hdr) (s : State) : Host.Outcome State Fault Refusal :=
  .next (s.hostWrite h 0x3210 3 0 (u8 4))

/-- COLLECTOR_MODE_LATCH: a write of CollectorMode = 0 (R378). -/
def execCollectorModeLatch (h : Hdr) (s : State) : Host.Outcome State Fault Refusal :=
  .next (s.hostWrite h 0x2F10 1 0 (u8 0))

/-- COLLECTOR_MODE_NORMAL: a write of CollectorMode = 1 (R378). -/
def execCollectorModeNormal (h : Hdr) (s : State) : Host.Outcome State Fault Refusal :=
  .next (s.hostWrite h 0x2F10 1 0 (u8 1))

/-- LATCH_WORD_CLEAR: a write of LatchWord (R377). -/
def execLatchWordClear (h : Hdr) (mask : BitVec 64) (s : State) : Host.Outcome State Fault Refusal :=
  .next (s.hostWrite h 0x2F10 2 0 (u64 mask.toNat))

/-- ERR_PIN_CLEAR: a write of ErrPinClear = 1 (R388). -/
def execErrPinClear (h : Hdr) (s : State) : Host.Outcome State Fault Refusal :=
  .next (s.hostWrite h 0x2F10 5 0 (u8 1))

/-- SNAPSHOT_COMMAND: a write of SnapshotCommand = 1 (R393). -/
def execSnapshotCommand (h : Hdr) (s : State) : Host.Outcome State Fault Refusal :=
  .next (s.hostWrite h 0x3011 1 0 (u8 1))

end Sys2Proof.Machine
end

