-- ==== Sys2Proof/Machine/Dispatch.lean ====
section
/-! DEFINITION. Which meaning each command has: one arm per constructor. -/

namespace Sys2Proof.Machine

/-- The effect of a command on everything but the queue. -/
def exec (i : Instr) (s : State) : Host.Outcome State Fault Refusal :=
  match i with
  | .suppliesInRange => Sys2Proof.Machine.execSuppliesInRange s
  | .supplyOutOfRange supply => Sys2Proof.Machine.execSupplyOutOfRange supply s
  | .porstLow => Sys2Proof.Machine.execPorstLow s
  | .porstRise => Sys2Proof.Machine.execPorstRise s
  | .bootComplete a b => Sys2Proof.Machine.execBootComplete a b s
  | .vddAonRemoved => Sys2Proof.Machine.execVddAonRemoved s
  | .requestStandby h => Sys2Proof.Machine.execRequestStandby h s
  | .requestConfigured h => Sys2Proof.Machine.execRequestConfigured h s
  | .configuredTrainingDone => Sys2Proof.Machine.execConfiguredTrainingDone s
  | .requestArmed h => Sys2Proof.Machine.execRequestArmed h s
  | .requestPrinting h => Sys2Proof.Machine.execRequestPrinting h s
  | .resumeBurstEnd failed => Sys2Proof.Machine.execResumeBurstEnd failed s
  | .requestHeld h => Sys2Proof.Machine.execRequestHeld h s
  | .requestFrozen h => Sys2Proof.Machine.execRequestFrozen h s
  | .resetRequestChip h => Sys2Proof.Machine.execResetRequestChip h s
  | .chipReset => Sys2Proof.Machine.execChipReset s
  | .resetRequestBlock h => Sys2Proof.Machine.execResetRequestBlock h s
  | .blockResetComplete => Sys2Proof.Machine.execBlockResetComplete s
  | .engineSelfTestDone n pass => Sys2Proof.Machine.execEngineSelfTestDone n pass s
  | .domainRequest h value => Sys2Proof.Machine.execDomainRequest h value s
  | .domainSequenceDone failed => Sys2Proof.Machine.execDomainSequenceDone failed s
  | .mgtNetOffDelayExpiry => Sys2Proof.Machine.execMgtNetOffDelayExpiry s
  | .wakeNAssert a b => Sys2Proof.Machine.execWakeNAssert a b s
  | .openRequest h versions emergency => Sys2Proof.Machine.execOpenRequest h versions emergency s
  | .unlockRequest h level nonce => Sys2Proof.Machine.execUnlockRequest h level nonce s
  | .proof h proof => Sys2Proof.Machine.execProof h proof s
  | .unlockExchangeTimeout sid => Sys2Proof.Machine.execUnlockExchangeTimeout sid s
  | .unlockLockoutEnd => Sys2Proof.Machine.execUnlockLockoutEnd s
  | .close h => Sys2Proof.Machine.execClose h s
  | .keepAlive h => Sys2Proof.Machine.execKeepAlive h s
  | .sessionTimeout sid => Sys2Proof.Machine.execSessionTimeout sid s
  | .read h idx sub opts => Sys2Proof.Machine.execRead h idx sub opts s
  | .write h idx sub opts value => Sys2Proof.Machine.execWrite h idx sub opts value s
  | .describe h idx sub opts => Sys2Proof.Machine.execDescribe h idx sub opts s
  | .malformedDatagram length => Sys2Proof.Machine.execMalformedDatagram length s
  | .oversizeDatagram length v6 => Sys2Proof.Machine.execOversizeDatagram length v6 s
  | .transferInit h idx sub dir total => Sys2Proof.Machine.execTransferInit h idx sub dir total s
  | .segment h tid off data => Sys2Proof.Machine.execSegment h tid off data s
  | .segmentAck h tid acked => Sys2Proof.Machine.execSegmentAck h tid acked s
  | .transferEnd h tid crc => Sys2Proof.Machine.execTransferEnd h tid crc s
  | .transferAbort h tid code => Sys2Proof.Machine.execTransferAbort h tid code s
  | .transferResendTimeout tid => Sys2Proof.Machine.execTransferResendTimeout tid s
  | .transferTimeout tid => Sys2Proof.Machine.execTransferTimeout tid s
  | .commitRequest h area value => Sys2Proof.Machine.execCommitRequest h area value s
  | .emergencyAck h seq => Sys2Proof.Machine.execEmergencyAck h seq s
  | .emergencyRetransmitTimeout sid seq => Sys2Proof.Machine.execEmergencyRetransmitTimeout sid seq s
  | .irqCauseClear h mask => Sys2Proof.Machine.execIrqCauseClear h mask s
  | .cyclicTxRunWrite h run => Sys2Proof.Machine.execCyclicTxRunWrite h run s
  | .cyclicRxRunWrite h run => Sys2Proof.Machine.execCyclicRxRunWrite h run s
  | .cycleBoundary => Sys2Proof.Machine.execCycleBoundary s
  | .cyclicTransmit => Sys2Proof.Machine.execCyclicTransmit s
  | .cyclicReceive h payload => Sys2Proof.Machine.execCyclicReceive h payload s
  | .cyclicRxApply => Sys2Proof.Machine.execCyclicRxApply s
  | .cyclicRxWatchdogExpiry => Sys2Proof.Machine.execCyclicRxWatchdogExpiry s
  | .operatorCredentialWrite h credential => Sys2Proof.Machine.execOperatorCredentialWrite h credential s
  | .serviceCredentialWrite h credential => Sys2Proof.Machine.execServiceCredentialWrite h credential s
  | .frameForward port frame asks => Sys2Proof.Machine.execFrameForward port frame asks s
  | .announceReceived ann => Sys2Proof.Machine.execAnnounceReceived ann s
  | .syncReceived m => Sys2Proof.Machine.execSyncReceived m s
  | .delayRespReceived m => Sys2Proof.Machine.execDelayRespReceived m s
  | .pdelayReqReceived m => Sys2Proof.Machine.execPdelayReqReceived m s
  | .pdelayRespReceived m t2 t3 => Sys2Proof.Machine.execPdelayRespReceived m t2 t3 s
  | .delayReqIntervalExpiry domain => Sys2Proof.Machine.execDelayReqIntervalExpiry domain s
  | .pdelayReqIntervalExpiry port => Sys2Proof.Machine.execPdelayReqIntervalExpiry port s
  | .masterLostTimeout domain => Sys2Proof.Machine.execMasterLostTimeout domain s
  | .eraWrap => Sys2Proof.Machine.execEraWrap s
  | .timeSet h value => Sys2Proof.Machine.execTimeSet h value s
  | .servoEnableWrite h enable => Sys2Proof.Machine.execServoEnableWrite h enable s
  | .legacyLatch h => Sys2Proof.Machine.execLegacyLatch h s
  | .addressChangeEffect => Sys2Proof.Machine.execAddressChangeEffect s
  | .mdioC22Write h phy reg data => Sys2Proof.Machine.execMdioC22Write h phy reg data s
  | .mdioC22Read h phy reg data => Sys2Proof.Machine.execMdioC22Read h phy reg data s
  | .mdioC45Address h phy dev data => Sys2Proof.Machine.execMdioC45Address h phy dev data s
  | .mdioC45Write h phy dev data => Sys2Proof.Machine.execMdioC45Write h phy dev data s
  | .mdioC45Read h phy dev data => Sys2Proof.Machine.execMdioC45Read h phy dev data s
  | .mdioTransactionDone answer => Sys2Proof.Machine.execMdioTransactionDone answer s
  | .networkLinkUp port speed fullDuplex autoneg => Sys2Proof.Machine.execNetworkLinkUp port speed fullDuplex autoneg s
  | .networkLinkLost port => Sys2Proof.Machine.execNetworkLinkLost port s
  | .rasterLinkUp => Sys2Proof.Machine.execRasterLinkUp s
  | .rasterTrainingTimeout => Sys2Proof.Machine.execRasterTrainingTimeout s
  | .rasterLinkLost => Sys2Proof.Machine.execRasterLinkLost s
  | .intakeEnableWrite h enable => Sys2Proof.Machine.execIntakeEnableWrite h enable s
  | .rasterBlockReceived b => Sys2Proof.Machine.execRasterBlockReceived b s
  | .jobWriterBlock => Sys2Proof.Machine.execJobWriterBlock s
  | .streamDecodeBlock => Sys2Proof.Machine.execStreamDecodeBlock s
  | .forwardBlock => Sys2Proof.Machine.execForwardBlock s
  | .forwardAckTimeout => Sys2Proof.Machine.execForwardAckTimeout s
  | .forwardRestart h => Sys2Proof.Machine.execForwardRestart h s
  | .blockRelease => Sys2Proof.Machine.execBlockRelease s
  | .slotOpen h slot => Sys2Proof.Machine.execSlotOpen h slot s
  | .slotSeal h slot => Sys2Proof.Machine.execSlotSeal h slot s
  | .slotClear h slot => Sys2Proof.Machine.execSlotClear h slot s
  | .sealPassDone slot => Sys2Proof.Machine.execSealPassDone slot s
  | .queuedSlotWrite h value => Sys2Proof.Machine.execQueuedSlotWrite h value s
  | .changeAtRepeatWrite h value => Sys2Proof.Machine.execChangeAtRepeatWrite h value s
  | .fetIssueLine b => Sys2Proof.Machine.execFetIssueLine b s
  | .memoryRequest master addr data => Sys2Proof.Machine.execMemoryRequest master addr data s
  | .memoryReadComplete c errors => Sys2Proof.Machine.execMemoryReadComplete c errors s
  | .alertNAssert c => Sys2Proof.Machine.execAlertNAssert c s
  | .rtBurstLimit c => Sys2Proof.Machine.execRtBurstLimit c s
  | .burstGuardEnd c => Sys2Proof.Machine.execBurstGuardEnd c s
  | .refreshIntervalBoundary c => Sys2Proof.Machine.execRefreshIntervalBoundary c s
  | .channelReleaseIssue h c => Sys2Proof.Machine.execChannelReleaseIssue h c s
  | .channelReleaseDiscard h c => Sys2Proof.Machine.execChannelReleaseDiscard h c s
  | .channelReleaseRetrain h c => Sys2Proof.Machine.execChannelReleaseRetrain h c s
  | .trainPresentPoint h c => Sys2Proof.Machine.execTrainPresentPoint h c s
  | .clearStoredResults h c => Sys2Proof.Machine.execClearStoredResults h c s
  | .channelTrainingDone c outcome => Sys2Proof.Machine.execChannelTrainingDone c outcome s
  | .opPointSelectWrite h c value => Sys2Proof.Machine.execOpPointSelectWrite h c value s
  | .freqChangeDone c => Sys2Proof.Machine.execFreqChangeDone c s
  | .channelEnableWrite h c enable => Sys2Proof.Machine.execChannelEnableWrite h c enable s
  | .dimmSettingWrite h idx sub value => Sys2Proof.Machine.execDimmSettingWrite h idx sub value s
  | .lfsrSeedWrite h c value => Sys2Proof.Machine.execLfsrSeedWrite h c value s
  | .idleTimeExpiry c => Sys2Proof.Machine.execIdleTimeExpiry c s
  | .dqsDriftCorrection c => Sys2Proof.Machine.execDqsDriftCorrection c s
  | .channelModeWrite h n value => Sys2Proof.Machine.execChannelModeWrite h n value s
  | .countChange n a b => Sys2Proof.Machine.execCountChange n a b s
  | .hallStateChange n uvw => Sys2Proof.Machine.execHallStateChange n uvw s
  | .zIndexEdge n => Sys2Proof.Machine.execZIndexEdge n s
  | .ssiPeriodExpiry n => Sys2Proof.Machine.execSsiPeriodExpiry n s
  | .ssiFrameComplete n raw errorBit dataLow => Sys2Proof.Machine.execSsiFrameComplete n raw errorBit dataLow s
  | .stopTimeout n => Sys2Proof.Machine.execStopTimeout n s
  | .markAccepted b => Sys2Proof.Machine.execMarkAccepted b s
  | .compareAction u => Sys2Proof.Machine.execCompareAction u s
  | .comparePulseEnd u => Sys2Proof.Machine.execComparePulseEnd u s
  | .engineSliceLine n failure parity => Sys2Proof.Machine.execEngineSliceLine n failure parity s
  | .engineSliceTimeout n => Sys2Proof.Machine.execEngineSliceTimeout n s
  | .zoneWidthWrite h b value => Sys2Proof.Machine.execZoneWidthWrite h b value s
  | .linePreparation b => Sys2Proof.Machine.execLinePreparation b s
  | .tokenEmission l => Sys2Proof.Machine.execTokenEmission l s
  | .overspeedEpisodeEnd b => Sys2Proof.Machine.execOverspeedEpisodeEnd b s
  | .lateEpisodeEnd b => Sys2Proof.Machine.execLateEpisodeEnd b s
  | .fireEnFall => Sys2Proof.Machine.execFireEnFall s
  | .fireEnRise => Sys2Proof.Machine.execFireEnRise s
  | .speedAdviceUpdate => Sys2Proof.Machine.execSpeedAdviceUpdate s
  | .spdAdvPeriodStart => Sys2Proof.Machine.execSpdAdvPeriodStart s
  | .inputEdge n level => Sys2Proof.Machine.execInputEdge n level s
  | .outputLevelWrite h value => Sys2Proof.Machine.execOutputLevelWrite h value s
  | .outputCheckExpiry n => Sys2Proof.Machine.execOutputCheckExpiry n s
  | .ownerInterval l => Sys2Proof.Machine.execOwnerInterval l s
  | .releaseRepeatInterval l => Sys2Proof.Machine.execReleaseRepeatInterval l s
  | .syncInterval l => Sys2Proof.Machine.execSyncInterval l s
  | .latencyProbeInterval l => Sys2Proof.Machine.execLatencyProbeInterval l s
  | .lanePllLocked l => Sys2Proof.Machine.execLanePllLocked l s
  | .laneWakeTimeout l => Sys2Proof.Machine.execLaneWakeTimeout l s
  | .firmwareSlipWait l => Sys2Proof.Machine.execFirmwareSlipWait l s
  | .syncHeaderRunReached l => Sys2Proof.Machine.execSyncHeaderRunReached l s
  | .laneAlignTimeout l => Sys2Proof.Machine.execLaneAlignTimeout l s
  | .bitSlip h l => Sys2Proof.Machine.execBitSlip h l s
  | .capResendInterval l => Sys2Proof.Machine.execCapResendInterval l s
  | .capReceived l cap => Sys2Proof.Machine.execCapReceived l cap s
  | .laneCapTimeout l => Sys2Proof.Machine.execLaneCapTimeout l s
  | .statEchoReceived l tag turnaround rtt => Sys2Proof.Machine.execStatEchoReceived l tag turnaround rtt s
  | .statTableAckReceived l seq result => Sys2Proof.Machine.execStatTableAckReceived l seq result s
  | .laneTableAckTimeout l => Sys2Proof.Machine.execLaneTableAckTimeout l s
  | .statStatusReceived l st => Sys2Proof.Machine.execStatStatusReceived l st s
  | .statMeasResultReceived l r => Sys2Proof.Machine.execStatMeasResultReceived l r s
  | .statSilenceTimeout l => Sys2Proof.Machine.execStatSilenceTimeout l s
  | .laneLockLost l => Sys2Proof.Machine.execLaneLockLost l s
  | .laneRetrain h l => Sys2Proof.Machine.execLaneRetrain h l s
  | .laneEnterTest h l => Sys2Proof.Machine.execLaneEnterTest h l s
  | .laneLeaveTest h l => Sys2Proof.Machine.execLaneLeaveTest h l s
  | .testInjectBit h l => Sys2Proof.Machine.execTestInjectBit h l s
  | .testInjectBurst h l => Sys2Proof.Machine.execTestInjectBurst h l s
  | .hdmLineFrame m fromB f crcOk => Sys2Proof.Machine.execHdmLineFrame m fromB f crcOk s
  | .hdmToken m fromB bar number tag gen ok => Sys2Proof.Machine.execHdmToken m fromB bar number tag gen ok s
  | .hdmOwnerFrame m fromB active gen validFor => Sys2Proof.Machine.execHdmOwnerFrame m fromB active gen validFor s
  | .hdmRelease m fromB => Sys2Proof.Machine.execHdmRelease m fromB s
  | .hdmValidforExpiry m fromB => Sys2Proof.Machine.execHdmValidforExpiry m fromB s
  | .hdmSyncFrame m fromB band echo => Sys2Proof.Machine.execHdmSyncFrame m fromB band echo s
  | .hdmTableFrame m fromB level seq table crcOk => Sys2Proof.Machine.execHdmTableFrame m fromB level seq table crcOk s
  | .hdmMeasFrame m fromB head first count kind tag => Sys2Proof.Machine.execHdmMeasFrame m fromB head first count kind tag s
  | .hdmCapFrame m fromB chosen => Sys2Proof.Machine.execHdmCapFrame m fromB chosen s
  | .hdmStatusInterval m => Sys2Proof.Machine.execHdmStatusInterval m s
  | .measStart h => Sys2Proof.Machine.execMeasStart h s
  | .measAbandon h => Sys2Proof.Machine.execMeasAbandon h s
  | .measCaptureBaseline h => Sys2Proof.Machine.execMeasCaptureBaseline h s
  | .measTimeout l => Sys2Proof.Machine.execMeasTimeout l s
  | .pendingApply h b => Sys2Proof.Machine.execPendingApply h b s
  | .triggerRecord => Sys2Proof.Machine.execTriggerRecord s
  | .triggerRecordExpiry p => Sys2Proof.Machine.execTriggerRecordExpiry p s
  | .portSilent p => Sys2Proof.Machine.execPortSilent p s
  | .csiLine p line => Sys2Proof.Machine.execCsiLine p line s
  | .csiFrameStart p head => Sys2Proof.Machine.execCsiFrameStart p head s
  | .csiFrameEnd p head => Sys2Proof.Machine.execCsiFrameEnd p head s
  | .stitchedLineComplete => Sys2Proof.Machine.execStitchedLineComplete s
  | .webFrameClose => Sys2Proof.Machine.execWebFrameClose s
  | .productRecordSend stream => Sys2Proof.Machine.execProductRecordSend stream s
  | .cciBatchComplete p failed => Sys2Proof.Machine.execCciBatchComplete p failed s
  | .cciCommandWrite h p value => Sys2Proof.Machine.execCciCommandWrite h p value s
  | .cciCommandRead h p value => Sys2Proof.Machine.execCciCommandRead h p value s
  | .cciHostTransactionDone p acked data => Sys2Proof.Machine.execCciHostTransactionDone p acked data s
  | .portEnableWrite h p value => Sys2Proof.Machine.execPortEnableWrite h p value s
  | .chePairLine => Sys2Proof.Machine.execChePairLine s
  | .cheFrameClose => Sys2Proof.Machine.execCheFrameClose s
  | .tumblerSolveDone => Sys2Proof.Machine.execTumblerSolveDone s
  | .holdRunWrite h run => Sys2Proof.Machine.execHoldRunWrite h run s
  | .holdModeWrite h b value => Sys2Proof.Machine.execHoldModeWrite h b value s
  | .refCommand h value => Sys2Proof.Machine.execRefCommand h value s
  | .roleRequestSolo h => Sys2Proof.Machine.execRoleRequestSolo h s
  | .roleRequestActive h => Sys2Proof.Machine.execRoleRequestActive h s
  | .roleRequestStandby h => Sys2Proof.Machine.execRoleRequestStandby h s
  | .mirrorPairAgain h => Sys2Proof.Machine.execMirrorPairAgain h s
  | .mirrorPlannedSwap h => Sys2Proof.Machine.execMirrorPlannedSwap h s
  | .handoverStateSend => Sys2Proof.Machine.execHandoverStateSend s
  | .mirrorTakeOver h => Sys2Proof.Machine.execMirrorTakeOver h s
  | .mirrorDissolve h => Sys2Proof.Machine.execMirrorDissolve h s
  | .icselLinkUp => Sys2Proof.Machine.execIcselLinkUp s
  | .icselLinkLost => Sys2Proof.Machine.execIcselLinkLost s
  | .helloInterval => Sys2Proof.Machine.execHelloInterval s
  | .helloReceived f rtt => Sys2Proof.Machine.execHelloReceived f rtt s
  | .mirrorCycleBoundary => Sys2Proof.Machine.execMirrorCycleBoundary s
  | .stateFrameReceived cycle flags check block => Sys2Proof.Machine.execStateFrameReceived cycle flags check block s
  | .sackReceived cycle result ready => Sys2Proof.Machine.execSackReceived cycle result ready s
  | .commitFrameReceived area gen digest count => Sys2Proof.Machine.execCommitFrameReceived area gen digest count s
  | .fwdReceived sequence off total data => Sys2Proof.Machine.execFwdReceived sequence off total data s
  | .fackReceived sequence status ok => Sys2Proof.Machine.execFackReceived sequence status ok s
  | .slotFrameReceived f => Sys2Proof.Machine.execSlotFrameReceived f s
  | .refFrameReceived b entries => Sys2Proof.Machine.execRefFrameReceived b entries s
  | .keyExpiry => Sys2Proof.Machine.execKeyExpiry s
  | .takeoverAtReached => Sys2Proof.Machine.execTakeoverAtReached s
  | .reclaimCheck => Sys2Proof.Machine.execReclaimCheck s
  | .faultReport r => Sys2Proof.Machine.execFaultReport r s
  | .faultReportTaken => Sys2Proof.Machine.execFaultReportTaken s
  | .railBrokenWire block unit level => Sys2Proof.Machine.execRailBrokenWire block unit level s
  | .railErrorTimeout block unit => Sys2Proof.Machine.execRailErrorTimeout block unit s
  | .collectorModeLatch h => Sys2Proof.Machine.execCollectorModeLatch h s
  | .collectorModeNormal h => Sys2Proof.Machine.execCollectorModeNormal h s
  | .latchWordClear h mask => Sys2Proof.Machine.execLatchWordClear h mask s
  | .errPinClear h => Sys2Proof.Machine.execErrPinClear h s
  | .snapshotCommand h => Sys2Proof.Machine.execSnapshotCommand h s
  | .pfailAssert => Sys2Proof.Machine.execPfailAssert s
  | .snapshotMinIntervalExpiry => Sys2Proof.Machine.execSnapshotMinIntervalExpiry s
  | .snapshotWriteDone ok => Sys2Proof.Machine.execSnapshotWriteDone ok s
  | .thermalModelUpdate counts => Sys2Proof.Machine.execThermalModelUpdate counts s
  | .tripPendingEnd => Sys2Proof.Machine.execTripPendingEnd s
  | .aonDiodeConversion d value => Sys2Proof.Machine.execAonDiodeConversion d value s
  | .tripShutdown => Sys2Proof.Machine.execTripShutdown s
  | .housekeepingRead value => Sys2Proof.Machine.execHousekeepingRead value s
  | .housekeepingRoundEnd => Sys2Proof.Machine.execHousekeepingRoundEnd s
  | .engineSelectionInterval => Sys2Proof.Machine.execEngineSelectionInterval s
  | .followUpReceived m => Sys2Proof.Machine.execFollowUpReceived m s
  | .addressTableAgeing mac => Sys2Proof.Machine.execAddressTableAgeing mac s
  | .unknownMsgtype h ty payload => Sys2Proof.Machine.execUnknownMsgtype h ty payload s
  | .pfailNRise => Sys2Proof.Machine.execPfailNRise s
  | .checkerLock l => Sys2Proof.Machine.execCheckerLock l s
  | .checkerLockLost l => Sys2Proof.Machine.execCheckerLockLost l s
  | .hdmBlockAligned m fromB => Sys2Proof.Machine.execHdmBlockAligned m fromB s
  | .hdmBlockLockLost m fromB => Sys2Proof.Machine.execHdmBlockLockLost m fromB s

end Sys2Proof.Machine
end

