-- ==== Sys2Proof/Machine/Slots.lean ====
section
/-! DEFINITION. What a head lane sends, block by block: the slots of R266, the resume burst (R276), the equaliser preset (R279), the
test pattern (R280). The device's ticks drive them (assumption 2). -/

set_option Elab.async false

namespace Sys2Proof.Machine

/-- A block leaves on a lane in this slot; what the scrambler held before its first block is open (R259). -/
def State.putBlock (s : State) (l : Nat) (b : LinkBlock) (kind : SlotKind) : State :=
  let (f, s) := s.freeBelow (2 ^ 58)
  let (w, r) := b.wire ((s.lane l).tx.scrambler.getD f)
  (s.emit (.block l b w)).modLane l fun x =>
    { x with tx := { x.tx with prev := kind, sinceSkip := if b = skipBlock then 0 else x.tx.sinceSkip + 1, scrambler := some r } }

/-- LINE frames of the lane have not yet left in full (R233). -/
def Tx.linesOut (t : Tx) : Bool := (t.busy == 1 && !t.rest.isEmpty) || t.queue.any fun f => match f with
  | .line _ => true
  | _ => false

/-- The order in which frames that wait are begun (R266). -/
def LaneTx.rank : LaneTx → Option Nat
  | .owner .. => some 0
  | .line _ => some 1
  | .sync .. => some 2
  | .table .. => some 3
  | .meas .. => some 4
  | .cap .. => some 5
  | _ => none

/-- The frame that is begun next: the first of the best rank (R266). -/
def Tx.nextFrame (t : Tx) : Option LaneTx := (List.range 6).findSome? fun r => t.queue.find? fun f => f.rank == some r

/-- A TOKEN of the transmitter's queue leaves, its extension in the next slot (R263, R266). -/
def State.putToken (s : State) (l : Nat) (f : LaneTx) : State :=
  match f with
  | .token b n delay late gen =>
    let h : TokenHead := { bar := BitVec.ofNat 3 b, delay := BitVec.ofNat 3 delay, late := late, lane := BitVec.ofNat 8 l }
    let (t, e) := tokenBlocks h n gen n
    (s.putBlock l t .token).modLane l fun x => { x with tx := { x.tx with queue := x.tx.queue.erase f, ext := some e } }
  | _ => s

/-- The TOKEN that has to leave first of those that the queue holds. -/
def Tx.askedToken (t : Tx) : Option LaneTx := t.queue.find? fun f => match f with
  | .token .. => true
  | _ => false

/-- A token that leaves in this slot: one asked for; one placed for it; one that is late, its lines out, not behind a START. A withheld
one leaves an idle block (R232, R233, R243, R266). -/
def State.tokenSlot (s : State) (l t : Nat) : Option State :=
  let x := s.lane l
  match x.tx.askedToken with
  | some f => some (s.putToken l f)
  | none => match x.tokens with
    | [] => none
    | k :: rest =>
      let late := k.late || decide (k.boundary < t)
      if t < k.boundary ∨ x.tx.linesOut ∨ !s.owning l ∨ (late ∧ x.tx.prev = .start) then none
      else
        let k := if late then { k with late := true, delay := 0, boundary := t } else k
        let s := (s.modLane l fun x => { x with tokens := k :: rest }).emitToken l k
        some (match (s.lane l).tx.askedToken with
          | some f => s.putToken l f
          | none => s.putBlock l idleBlock .other)

/-- A frame begun: its START leaves, its other blocks follow (R261, R266). -/
def State.putStart (s : State) (l : Nat) (f : LaneTx) : State :=
  match s.frameParts l s.validFor f with
  | none => s
  | some (type, spec, data) =>
    let q := (s.lane l).frameSeq
    match frameBlocks type q spec data with
    | [] => s
    | b :: rest => (s.putBlock l b .start).modLane l fun x =>
        { x with frameSeq := (q + 1) % 256, tx := { x.tx with queue := x.tx.queue.erase f, busy := type, rest := rest } }

/-- The RELEASE or QUIET block that leaves next (R260, R267, R276). -/
def State.putControl (s : State) (l : Nat) (f : LaneTx) : State :=
  let b := match f with
    | .release gen => controlBlock 0x66 (u32 gen)
    | _ => controlBlock 0x55 []
  (s.putBlock l b .other).modLane l fun x => { x with tx := { x.tx with queue := x.tx.queue.erase f } }

/-- The equaliser follows the band at a block boundary outside any frame (R279). -/
def State.equalise (s : State) (l : Nat) : State :=
  s.modLane l fun x => if x.tx.rest.isEmpty ∧ x.tx.ext.isNone then { x with tx := { x.tx with preset := s.therm.band } } else x

/-- A slot of a training burst (R276). -/
def State.burstSlot (s : State) (l : Nat) : State :=
  let x := s.lane l
  let b := if 256 - x.tx.burst = 128 + x.tx.burstSkip then skipBlock else idleBlock
  (s.putBlock l b .other).modLane l fun x => { x with tx := { x.tx with burst := x.tx.burst - 1 } }

/-- The slot of a lane at a block boundary, in 125 ps units (R266, R270, R276). A lane that enters electrical idle first sends what it
still has to. -/
def State.blockSlot (s : State) (l t : Nat) : State :=
  let s := s.equalise l
  let x := s.lane l
  let tx := x.tx
  match tx.ext with
  | some e => (s.putBlock l e .other).modLane l fun x => { x with tx := { x.tx with ext := none } }
  | none =>
    if x.st = .eidle ∧ tx.rest.isEmpty ∧ tx.queue.isEmpty then s
    else match s.tokenSlot l t with
    | some s => s
    | none =>
      if 0 < tx.burst then s.burstSlot l
      else if 1023 ≤ tx.sinceSkip ∧ tx.prev = .other then s.putBlock l skipBlock .other
      else match tx.rest with
      | b :: rest => (s.putBlock l b .other).modLane l fun x => { x with tx := { x.tx with rest := rest } }
      | [] =>
        match tx.queue.find? LaneTx.isControl with
        | some f => s.putControl l f
        | none =>
          if x.tokens.head?.any (fun k => k.boundary == t + 33) then s.putBlock l idleBlock .other
          else match tx.nextFrame with
          | some f => s.putStart l f
          | none => s.putBlock l idleBlock .other

/-- The time of a block in TEST: 66 bits of the pattern while it is generated; the generator's first register is open but not 0
(R280; assumption 63). -/
def State.patternSlot (s : State) (l : Nat) : State :=
  let cfg := s.num 0x2A30 (l + 1)
  if !bit cfg 13 then s
  else
    let kind := bits cfg 15 14
    let (a, b) := patternTaps kind
    let (f, s) := s.freeBelow (2 ^ a - 1)
    let x := s.lane l
    let (w, r) := patternBits a b 66 (x.tx.prbs.getD (f + 1))
    let w := if xor (bit cfg 10) (kind != 0) then w ^^^ (2 ^ 66 - 1) else w
    let w := w ^^^ (2 ^ min 66 x.tx.inject - 1)
    (s.emit (.pattern l w)).modLane l fun x => { x with tx := { x.tx with prbs := some r, inject := x.tx.inject - 66 } }

/-- What a lane sends at a block boundary, by its state (R270, R275). -/
def State.laneSlot (s : State) (l t : Nat) : State :=
  match (s.lane l).st with
  | .deep | .waking => s
  | .test => s.patternSlot l
  | _ => s.blockSlot l t

/-- The slots of every lane whose block boundary falls into the present tick. -/
def State.serveLanes (s : State) : State :=
  if !s.on domHLK then s
  else forRange 32 (fun l s =>
    let t := nextBoundary l (s.tick * 20)
    if t < (s.tick + 1) * 20 then s.laneSlot l t else s) s

end Sys2Proof.Machine
end

