-- ==== Sys2Proof/Machine/Step.lean ====
section
/-! DEFINITION. One step: the command at the front of the queue, or one tick of SYSREF (R12) where none waits. -/

set_option Elab.async false

namespace Sys2Proof.Machine

/-- The state with a queue of waiting commands. -/
def State.withPending (s : State) (q : List Instr) : State := { s with pending := q }

/-- The tick count moved on by one. -/
def State.idle (s : State) : State := { s with tick := s.tick + 1 }

/-- What a tick brings by itself: blocks leave on the head lanes, coverage records go to memory, frames leave the switch's queues (R88,
R247, R266; assumption 2). -/
def State.served (s : State) : State := s.serveLanes.covDrainAll.serveEgress

/-- One step of the device. With no command waiting a tick passes. -/
def step (s : State) : Host.Outcome State Fault Refusal :=
  match s.pending with
  | [] => .next s.idle.served
  | c :: rest => exec c (s.withPending rest)

/-- The state with the command that a table word spells in front of its queue; as it is where the word spells none. -/
def State.withFetchWord (s : State) (nbits w : Nat) : State :=
  match decodeTableWord nbits w with
  | some c => s.withPending (c :: s.pending)
  | none => s

end Sys2Proof.Machine
end

