-- ==== Sys2Proof/Machine/Pins.lean ====
section
/-! DEFINITION. What the outside sees at the balls: each output low, high or released, by the table of R51 and the I/O classes of
R436. -/

set_option Elab.async false

namespace Sys2Proof.Machine

/-- The level that the device puts on a ball; a released ball takes the level of the board's resistor (R51). -/
inductive PinLevel where
  | low | high | released
  deriving DecidableEq, Repr

/-- A three-state push-pull output of class P33 that is driven (R436). -/
def PinLevel.driven (on : Bool) : PinLevel := if on then .high else .low

/-- An open-drain output of class D33, asserted by pulling it low (R436). -/
def PinLevel.openDrain (asserted : Bool) : PinLevel := if asserted then .low else .released

/-- The outputs of the machine interface and of the host's wires. -/
inductive OutPin where
  | fireOk | rpXon | spdAdv | hostIrqN | errN
  | out (n : Fin 16)
  | camTrig (n : Fin 4)
  deriving DecidableEq, Repr

/-- The balls are unpowered or held released: OFF, RESET, BOOT (R51). -/
def State.pinsDown (s : State) : Bool := s.inStates [.off, .reset, .boot]

/-- FIRE_OK: released with the balls down and in DEEP, else driven (R51, R53). -/
def State.fireOkPin (s : State) : PinLevel := if s.pinsDown || s.pwr.dev == .deep then .released else .driven s.fireOk

/-- RP_XON: in STANDBY released until intake is enabled, low in FROZEN, else by the FIFO (R51, R121). -/
def State.rpXonPin (s : State) : PinLevel :=
  if s.pinsDown || s.pwr.dev == .deep || (s.pwr.dev == .standby && !(s.on domRFE && s.num 0x2220 1 == 1)) then .released
  else .driven (s.pwr.dev != .frozen && s.rpXon)

/-- SPD_ADV: high from the period's start for the latched ticks while the device drives it (R51, R245, R356); `t` counts ticks from
the period's start. -/
def State.spdAdvPin (s : State) (t : Nat) : PinLevel :=
  if s.pinsDown || !s.spdDriven then .released else .driven (t < s.fsq.spdHigh)

/-- HOST_IRQ_N: asserted by the enabled causes while MGT is on (R51). -/
def State.hostIrqPin (s : State) : PinLevel := .openDrain (!s.pinsDown && s.irqLow)

/-- ERR_N: asserted by an ERRPIN reaction and by the trip latch, which AON drives in RESET too (R51, R388, R419). -/
def State.errPinLevel (s : State) : PinLevel :=
  .openDrain (s.pwr.dev != .off && (s.pwr.trip || (!s.pinsDown && s.on domMGT && s.flt.errPin)))

/-- OUTn: asserted as OutputDriven says, and released while CTL is OFF (R51, R250). -/
def State.outPin (s : State) (n : Nat) : PinLevel := .openDrain (!s.pinsDown && bit s.outputDriven n)

/-- CAM_TRIGn: with CTL on and but in role STANDBY, the level of the enabled compare unit whose target it is, else low (R51, R191,
R356). -/
def State.camTrigPin (s : State) (n : Nat) : PinLevel :=
  if s.pinsDown || !s.on domCTL || s.mir.role == .standby then .released
  else .driven ((List.range 16).any fun u => (s.unit u).enabled && s.num 0x2644 (u + 1) == n + 17 && (s.unit u).level)

/-- The level of an output, SPD_ADV's `t` ticks after its period's start (R51). -/
def State.pin (s : State) (t : Nat) : OutPin → PinLevel
  | .fireOk => s.fireOkPin
  | .rpXon => s.rpXonPin
  | .spdAdv => s.spdAdvPin t
  | .hostIrqN => s.hostIrqPin
  | .errN => s.errPinLevel
  | .out n => s.outPin n
  | .camTrig n => s.camTrigPin n

/-- Mc_RESET_N of a memory channel: low while an untrained channel is in RETAIN, which holds its DIMM in reset (R163). -/
def State.memResetPin (s : State) (c : Nat) : PinLevel := if s.pwr.dev == .off then .released else .driven !(s.chan c).resetLow

/-- The transmitter equaliser preset of a lane of the serial macro, by band: a head lane's own, and on the Raster port's and the Icsel
link's lanes the present band's, because their frames leave at once and so they switch outside any frame (R279, R411). -/
def State.txPreset (s : State) (l : Nat) : Nat := if l < 32 then (s.lane l).tx.preset else s.therm.band

end Sys2Proof.Machine
end

