-- ==== Sys2Proof/Safety.lean ====
section
/-! DEFINITION. The terms that statements use: what a command leaves alone, when a datagram is taken, what it is answered, and the
conditions that every step keeps. -/

set_option Elab.async false

namespace Sys2Proof.Machine

/-- A step that ends in a next state: neither a fault nor a refusal. -/
def Safe (s : State) : Prop := ∃ t, step s = .next t

/-- The parts of the state. -/
inductive StatePart where
  | pending | tick | fresh | sent | fuses | objs | pwr | flt | bbx | wilwa | nonVol | net | tim | rin | fet | mem | dram | pos
  | lcg | cmp | sne | fsq | hlk | hdms | hdg | vis | che | mir | therm | aonDiodes | fireEn
  deriving DecidableEq, Repr

/-- A part of the state is the same in two states. -/
def StatePart.same (s t : State) : StatePart → Prop
  | .pending => t.pending = s.pending
  | .tick => t.tick = s.tick
  | .fresh => t.fresh = s.fresh
  | .sent => t.sent = s.sent
  | .fuses => t.fuses = s.fuses
  | .objs => t.objs = s.objs
  | .pwr => t.pwr = s.pwr
  | .flt => t.flt = s.flt
  | .bbx => t.bbx = s.bbx
  | .wilwa => t.wilwa = s.wilwa
  | .nonVol => t.nonVol = s.nonVol
  | .net => t.net = s.net
  | .tim => t.tim = s.tim
  | .rin => t.rin = s.rin
  | .fet => t.fet = s.fet
  | .mem => t.mem = s.mem
  | .dram => t.dram = s.dram
  | .pos => t.pos = s.pos
  | .lcg => t.lcg = s.lcg
  | .cmp => t.cmp = s.cmp
  | .sne => t.sne = s.sne
  | .fsq => t.fsq = s.fsq
  | .hlk => t.hlk = s.hlk
  | .hdms => t.hdms = s.hdms
  | .hdg => t.hdg = s.hdg
  | .vis => t.vis = s.vis
  | .che => t.che = s.che
  | .mir => t.mir = s.mir
  | .therm => t.therm = s.therm
  | .aonDiodes => t.aonDiodes = s.aonDiodes
  | .fireEn => t.fireEn = s.fireEn

/-- Every part of the state but those listed is unchanged: the frame of a command. -/
def Only (ps : List StatePart) (s t : State) : Prop := ∀ p, p ∉ ps → p.same s t

/-- Every object of the dictionary but those listed reads as before. -/
def ObjsOnly (l : List (Nat × Nat)) (s t : State) : Prop := ∀ i j, j < 256 → (i, j) ∉ l → t.obj i j = s.obj i j

/-- A datagram of message type `ty` in session `x` passes the checks of R37, R57, R59, R61 and R90. -/
structure Admitted (s : State) (h : Hdr) (ty : Nat) (payload : Bytes) (x : Session) : Prop where
  serves : s.serves = true
  address : s.ownAddress h.dst = true
  opened : s.session h.sid.toNat = some x
  tagged : x.sessKey.isSome = true → bit h.flags.toNat 1 = true ∧ h.tag = tagOf x.sessKey (hdrBytes h ty) payload
  header : headerOk h payload = true
  version : h.version.toNat = x.version
  message : messageInVersion x.version ty = true

/-- An admitted request is the next one of its session (R62). -/
structure Accepted (s : State) (h : Hdr) (ty : Nat) (payload : Bytes) (x : Session) : Prop where
  admitted : Admitted s h ty payload x
  sequence : h.seq.toNat = (x.seq + 1) % 2 ^ 32

/-- The state in which a session has been heard from (R60). -/
def State.heard (s : State) (sid : Nat) : State := s.modSession sid fun x => { x with heard := true }

/-- The session as heard from. -/
def Session.now (x : Session) : Session := { x with heard := true }

/-- The eight items of R72 let session `x` write `b` to an object with description `d`: it exists, the session has its version and
level (items 1, 2; R61, R65), it is written and not by transfer (item 3), length and value fit (items 4, 5), its domain is ON (item 6),
its change class allows the moment (item 7) and no running receive stream maps it (item 8). -/
structure WriteAllowed (s : State) (x : Session) (idx sub : Nat) (b : Bytes) (d : Desc) : Prop where
  described : findDesc idx sub = some d
  version : indexInVersion x.version idx = true
  level : d.level ≤ x.level
  writable : d.acc ≠ .ro
  notTransfer : d.ty ≠ .domain
  length : d.lengthOk b = true
  range : s.valueOk d idx sub (d.value b) = true
  powered : s.on (objDomain idx sub) = true
  moment : d.cls = .stopped → s.stoppedRuns idx sub = false
  unmapped : s.rxMapped idx sub = false

/-- The Write of `b` to an object is the next request of its session, and R72 lets it through. -/
structure WriteTaken (s : State) (h : Hdr) (idx sub : Nat) (b : Bytes) (x : Session) : Prop where
  accepted : Accepted s h 0x12 (u16 idx ++ u8 sub ++ u8 0 ++ b) x
  allowed : ∃ d, WriteAllowed s x idx sub b d

/-- What R26 asks of a CONFIGURED request holds: the domains it names are ON, MEMA and MEMB where a channel of theirs is enabled, MIR in
a pair; no enabled channel is FROZEN. -/
structure ConfiguredReady (s : State) : Prop where
  domains : ∀ d ∈ [domMGT, domNET, domRFE, domSN0, domSN1, domCTL, domHLK], s.on d = true
  memA : s.num 0x2310 1 = 1 ∨ s.num 0x2310 2 = 1 → s.on domMEMA = true
  memB : s.num 0x2310 3 = 1 ∨ s.num 0x2310 4 = 1 → s.on domMEMB = true
  pair : s.mir.role ≠ .solo → s.on domMIR = true
  channels : ∀ c ∈ s.enabled, (s.chan c).st ≠ .frozen

/-- The bars of the job that an ARMED request takes up: those of the current slot, or else of the queued one (R27, R130). -/
def State.armBars (s : State) : List Nat :=
  barsOf (match s.current with
    | some k => s.slotMask k
    | none => if s.num 0x2410 1 < 2 then s.slotMask (s.num 0x2410 1) else 0)

/-- What R27 asks of an ARMED request holds: each bar of the job has its duty limits written, a nozzle map and trained lanes with an
agreed version (R272), and FIRE_EN is high. -/
structure ArmedReady (s : State) : Prop where
  duty : ∀ b ∈ s.armBars, (s.bar b).written = 31
  maps : ∀ b ∈ s.armBars, s.map b ≠ []
  lanes : ∀ b ∈ s.armBars, ∀ l ∈ s.lanesOf b, (s.lane l).st = .trained ∧ s.leastVersions ≤ (s.lane l).version
  fireEn : s.fireEn = true

/-- The last thing sent is a response of type `ty` with this Status to the request with this Sequence (R58, R62). -/
def Answered (t : State) (ty status seq : Nat) : Prop :=
  ∃ d, t.sent.getLast? = some (.dgram d) ∧ d.msgType = ty ∧ d.status = status ∧ d.seq = seq ∧ bit d.flags 0 = true

/-- A report was sent to FLT while it runs and its queue has room: it is queued with its source and cause (R375, R379). -/
def Raised (src cause : Nat) (t : State) : Prop := ∃ r ∈ t.flt.queue, r.source = src ∧ r.cause = cause

/-- FLT takes a report now: it runs and its queue has room (R379). -/
def State.takesReports (s : State) : Prop := s.fltRuns = true ∧ s.flt.queue.length < 64

/-- The open sessions as identifier and unlock level, in slot order. -/
def State.seats (s : State) : List (Nat × Nat) := s.openSessions.map fun x => (x.sid, x.level)

/-- No two open sessions have one identifier, and at most one holds operator or service level (R60, R65). -/
def State.SeatsOk (s : State) : Prop :=
  (s.seats.map Prod.fst).Nodup ∧ (s.seats.filter fun x => x.2 != 0).length ≤ 1

/-- Every operator or service level that a session holds in `t` it holds in `s` (R65). -/
def State.LevelsFrom (s t : State) : Prop := ∀ p ∈ t.seats, p.2 ≠ 0 → p ∈ s.seats

/-- The DRAM cells are in their canonical form (R138; assumption 4). -/
def State.DramOk (s : State) : Prop := Memory.wf s.dram = true

/-- Every object is listed once, in the order of the dictionary's index and subindex. -/
def State.ObjsOk (s : State) : Prop := kvSorted s.objs = true

/-- The command is an event of a head driver module, outside the device (R261 to R269). -/
def ofHdm : Instr → Bool
  | .hdmLineFrame .. | .hdmToken .. | .hdmOwnerFrame .. | .hdmRelease .. | .hdmValidforExpiry .. | .hdmSyncFrame ..
  | .hdmTableFrame .. | .hdmMeasFrame .. | .hdmCapFrame .. | .hdmStatusInterval .. | .hdmBlockAligned ..
  | .hdmBlockLockLost .. => true
  | _ => false

/-- What a power-on reset leaves (R35, R39): every object but the addresses reads its default, every block is as the switch-on of
its domain leaves it, no session is open, and the record ring is empty where VDD_AON was lost. -/
structure PowerCycled (s t : State) : Prop where
  objects : ∀ i j, j < 256 → t.obj i j = if nonVolObject i j then s.obj i j else defaultVal i j
  host : t.wilwa = Wilwa.start ∧ t.flt = Flt.start ∧ t.net = Net.start
  job : t.rin = Rin.start ∧ t.fet = Fet.start ∧ t.fsq = Fsq.start ∧ t.sne = Sne.start
  memory : t.mem = Vector.replicate 4 Mch.start ∧ t.dram = []
  position : t.pos = Vector.replicate 12 Pch.start ∧ t.lcg = Vector.replicate 8 Lcg.start ∧ t.cmp = Vector.replicate 16 Cmp.start
  heads : t.hlk = Hlk.start ∧ t.hdg = Hdg.start
  pictures : t.vis = Vis.start ∧ t.che = Che.start ∧ t.mir = Mir.start .solo
  ring : t.bbx.ring = if t.pwr.aon then s.bbx.ring else []

/-- The parts that a power-on reset may change: all but the queue, the tick count, what was sent, the fuses, the credentials, the
modules outside and the FIRE_EN pin. -/
def powerParts : List StatePart :=
  [.objs, .pwr, .flt, .bbx, .wilwa, .net, .tim, .rin, .fet, .mem, .dram, .pos, .lcg, .cmp, .sne, .fsq, .hlk, .hdg, .vis, .che,
   .mir, .therm, .aonDiodes]

/-- The parts that a state request may change: all but the queue, the tick count, the fuses, the credentials, the network, time,
positions, compare units, temperatures, the modules outside and the FIRE_EN pin. -/
def jobParts : List StatePart :=
  [.fresh, .sent, .objs, .pwr, .flt, .bbx, .wilwa, .rin, .fet, .mem, .dram, .lcg, .sne, .fsq, .hlk, .hdg, .vis, .che, .mir]

/-- A bar that has started and has to run to its next line boundary before it stops (R28). -/
def State.barMoves (s : State) (b : Nat) : Bool :=
  (s.bar b).stopping || (s.bar b).run == .printing || (s.bar b).run == .dry || (s.bar b).run == .reversed

/-- The parts that the switching of a domain or the reset of a block may change. -/
def domainParts : List StatePart :=
  [.fresh, .sent, .objs, .pwr, .flt, .bbx, .wilwa, .net, .tim, .rin, .fet, .mem, .dram, .pos, .lcg, .cmp, .sne, .fsq, .hlk, .hdg,
   .vis, .che, .mir, .therm]

/-- The request for a state change of this value that a command is (R24). -/
def stateRequestOf : Nat → Hdr → Option Instr
  | 3, h => some (.requestStandby h)
  | 4, h => some (.requestConfigured h)
  | 5, h => some (.requestArmed h)
  | 6, h => some (.requestPrinting h)
  | 7, h => some (.requestHeld h)
  | 8, h => some (.requestFrozen h)
  | _, _ => none

/-- The states that a state request may come from (R25). -/
def requestStarts : Nat → List DevState
  | 3 => [.configured, .frozen]
  | 4 => [.standby, .armed, .printing, .held]
  | 5 => [.configured]
  | 6 => [.held]
  | 7 => [.armed, .printing]
  | 8 => [.configured, .armed, .printing, .held]
  | _ => []

/-- The commands that are a Write of one object (R58), with its Index, Sub, Options and value; the two that set one bit of CyclicControl
write its other bit as it stands (R79). -/
def writeOf (s : State) : Instr → Option (Hdr × Nat × Nat × Nat × Bytes)
  | .write h i j o b => some (h, i.toNat, j.toNat, o.toNat, b)
  | .requestStandby h => some (h, 0x1100, 2, 0, u8 3)
  | .requestConfigured h => some (h, 0x1100, 2, 0, u8 4)
  | .requestArmed h => some (h, 0x1100, 2, 0, u8 5)
  | .requestPrinting h => some (h, 0x1100, 2, 0, u8 6)
  | .requestHeld h => some (h, 0x1100, 2, 0, u8 7)
  | .requestFrozen h => some (h, 0x1100, 2, 0, u8 8)
  | .resetRequestChip h => some (h, 0x1120, 1, 0, u8 1)
  | .resetRequestBlock h => some (h, 0x1120, 1, 0, u8 2)
  | .domainRequest h value => some (h, 0x1110, 1, 0, u32 value.toNat)
  | .commitRequest h area value => some (h, area.toNat * 256, 1, 0, u32 value.toNat)
  | .irqCauseClear h mask => some (h, 0x1050, 1, 0, u32 mask.toNat)
  | .cyclicTxRunWrite h run => some (h, 0x6010, 1, 0, u8 (b2n run + b2n (s.cycRuns 1) * 2))
  | .cyclicRxRunWrite h run => some (h, 0x6010, 1, 0, u8 (b2n (s.cycRuns 0) + b2n run * 2))
  | .operatorCredentialWrite h credential => some (h, 0x1030, 1, 0, credential)
  | .serviceCredentialWrite h credential => some (h, 0x1030, 2, 0, credential)
  | .timeSet h value => some (h, 0x2130, 1, 0, value)
  | .servoEnableWrite h enable => some (h, 0x2120, 12, 0, u8 (b2n enable))
  | .legacyLatch h => some (h, 0x5000, 1, 0, u8 1)
  | .mdioC22Write h phy reg data => some (h, 0x2050, 1, 0, mdioWord 0 phy reg data)
  | .mdioC22Read h phy reg data => some (h, 0x2050, 1, 0, mdioWord 1 phy reg data)
  | .mdioC45Address h phy dev data => some (h, 0x2050, 1, 0, mdioWord 4 phy dev data)
  | .mdioC45Write h phy dev data => some (h, 0x2050, 1, 0, mdioWord 5 phy dev data)
  | .mdioC45Read h phy dev data => some (h, 0x2050, 1, 0, mdioWord 7 phy dev data)
  | .intakeEnableWrite h enable => some (h, 0x2220, 1, 0, u8 (b2n enable))
  | .forwardRestart h => some (h, 0x2220, 10, 0, u8 1)
  | .slotOpen h slot => some (h, 0x221A, slot.val + 1, 0, u8 1)
  | .slotSeal h slot => some (h, 0x221A, slot.val + 1, 0, u8 2)
  | .slotClear h slot => some (h, 0x221A, slot.val + 1, 0, u8 3)
  | .queuedSlotWrite h value => some (h, 0x2410, 1, 0, u8 value.toNat)
  | .changeAtRepeatWrite h value => some (h, 0x2410, 3, 0, u32 value.toNat)
  | .channelReleaseIssue h c => some (h, 0x2336, c.val + 1, 0, u8 1)
  | .channelReleaseDiscard h c => some (h, 0x2336, c.val + 1, 0, u8 2)
  | .channelReleaseRetrain h c => some (h, 0x2336, c.val + 1, 0, u8 3)
  | .trainPresentPoint h c => some (h, 0x2316, c.val + 1, 0, u8 1)
  | .clearStoredResults h c => some (h, 0x2316, c.val + 1, 0, u8 3)
  | .opPointSelectWrite h c value => some (h, 0x2315, c.val + 1, 0, u8 value.toNat)
  | .channelEnableWrite h c enable => some (h, 0x2310, c.val + 1, 0, u8 (b2n enable))
  | .dimmSettingWrite h idx sub value => some (h, idx.toNat, sub.toNat, 0, value)
  | .lfsrSeedWrite h c value => some (h, 0x231C, c.val + 1, 0, u32 value.toNat)
  | .channelModeWrite h n value => some (h, 0x2510, n.val + 1, 0, u8 value.toNat)
  | .zoneWidthWrite h b value => some (h, 0x2712, b.val + 1, 0, u32 value.toNat)
  | .outputLevelWrite h value => some (h, 0x2E20, 1, 0, u16 value.toNat)
  | .bitSlip h l => some (h, 0x2A18, l.val + 1, 0, u8 1)
  | .laneRetrain h l => some (h, 0x2A1F, l.val + 1, 0, u8 1)
  | .laneEnterTest h l => some (h, 0x2A1F, l.val + 1, 0, u8 2)
  | .laneLeaveTest h l => some (h, 0x2A1F, l.val + 1, 0, u8 3)
  | .testInjectBit h l => some (h, 0x2A31, l.val + 1, 0, u8 1)
  | .testInjectBurst h l => some (h, 0x2A31, l.val + 1, 0, u8 2)
  | .measStart h => some (h, 0x2B10, 2, 0, u8 1)
  | .measAbandon h => some (h, 0x2B10, 2, 0, u8 2)
  | .measCaptureBaseline h => some (h, 0x2B10, 2, 0, u8 3)
  | .pendingApply h b => some (h, 0x2B19, b.val + 1, 0, u8 1)
  | .cciCommandWrite h p value => some (h, 0x2C28, p.val + 1, 0, value)
  | .cciCommandRead h p value => some (h, 0x2C28, p.val + 1, 0, value)
  | .portEnableWrite h p value => some (h, 0x2C10, p.val + 1, 0, u8 (b2n value))
  | .holdRunWrite h run => some (h, 0x2820, 1, 0, u8 (b2n run))
  | .holdModeWrite h b value => some (h, 0x2810, b.val + 1, 0, u8 value.toNat)
  | .refCommand h value => some (h, 0x2820, 11, 0, u8 value.toNat)
  | .roleRequestSolo h => some (h, 0x3210, 1, 0, u8 0)
  | .roleRequestActive h => some (h, 0x3210, 1, 0, u8 1)
  | .roleRequestStandby h => some (h, 0x3210, 1, 0, u8 2)
  | .mirrorPairAgain h => some (h, 0x3210, 3, 0, u8 1)
  | .mirrorPlannedSwap h => some (h, 0x3210, 3, 0, u8 2)
  | .mirrorTakeOver h => some (h, 0x3210, 3, 0, u8 3)
  | .mirrorDissolve h => some (h, 0x3210, 3, 0, u8 4)
  | .collectorModeLatch h => some (h, 0x2F10, 1, 0, u8 0)
  | .collectorModeNormal h => some (h, 0x2F10, 1, 0, u8 1)
  | .latchWordClear h mask => some (h, 0x2F10, 2, 0, u64 mask.toNat)
  | .errPinClear h => some (h, 0x2F10, 5, 0, u8 1)
  | .snapshotCommand h => some (h, 0x3011, 1, 0, u8 1)
  | _ => none

/-- A message other than OpenRequest, with its MsgType, its payload and whether it is answered (R58); a command that writes one object is
its Write. -/
def messageOf (s : State) : Instr → Option (Hdr × Nat × Bytes × Bool)
  | .unlockRequest h l n => some (h, 0x03, u8 l.toNat ++ n, true)
  | .proof h p => some (h, 0x05, p, true)
  | .close h => some (h, 0x07, [], true)
  | .keepAlive h => some (h, 0x09, [], true)
  | .read h i j o => some (h, 0x10, u16 i.toNat ++ u8 j.toNat ++ u8 o.toNat, true)
  | .describe h i j o => some (h, 0x1C, u16 i.toNat ++ u8 j.toNat ++ u8 o.toNat, true)
  | .transferInit h i j d n => some (h, 0x14, u16 i.toNat ++ u8 j.toNat ++ u8 d.toNat ++ u32 n.toNat, true)
  | .transferEnd h k c => some (h, 0x18, u16 k.toNat ++ u16 0 ++ u32 c.toNat, true)
  | .segment h k o d => some (h, 0x16, u16 k.toNat ++ u16 0 ++ u32 o.toNat ++ d, false)
  | .segmentAck h k a => some (h, 0x17, u16 k.toNat ++ u16 0 ++ u32 a.toNat, false)
  | .transferAbort h k c => some (h, 0x1A, u16 k.toNat ++ u16 0 ++ u32 c.toNat, false)
  | .emergencyAck h q => some (h, 0x21, u32 q.toNat, false)
  | .cyclicReceive h p => some (h, 0x30, p, false)
  | c => (writeOf s c).map fun (h, i, j, o, b) => (h, 0x12, u16 i ++ u8 j ++ u8 o ++ b, true)

/-- A datagram's tag is right, or its session has no session key (R59). -/
def TagRight (h : Hdr) (ty : Nat) (payload : Bytes) (x : Session) : Prop :=
  x.sessKey.isSome = true → bit h.flags.toNat 1 = true ∧ h.tag = tagOf x.sessKey (hdrBytes h ty) payload

/-- A request is answered with this response type and abort code; no object, no shadow and no staged value changes (R72). -/
def Refused (c : Instr) (h : Hdr) (ty code : Nat) (s : State) : Prop :=
  ∃ t, exec c s = .next t ∧ Answered t ty code h.seq.toNat ∧ t.wilwa.shadow = s.wilwa.shadow ∧ t.wilwa.staged = s.wilwa.staged ∧
    t.seats = s.seats ∧ Only [.wilwa, .sent] s t

/-- The payload of the last thing sent. -/
def LastPayload (t : State) (p : Bytes) : Prop := ∃ d, t.sent.getLast? = some (.dgram d) ∧ d.payload = p

/-- What an HDM sends for a frame on an input: the frame, and its blocks with the input's next FrameSeq (R261, R264). -/
def State.hdmSent (s : State) (m : Nat) (fromB : Bool) (f : HdmTx) : List Emission :=
  [.hdm m fromB f, .hdmFrame m fromB (hdmBlocks ((s.hdm m).input fromB).frameSeq f)]

/-- The drive that an HDM's tables give a level when a TOKEN fires it now, a band that a SYNC announced included (R240, R269, R278). -/
def Hdm.drives (h : Hdm) : List (Nat × List Drive) :=
  h.tables.map fun t => (t.1, ({ h with band := h.nextBand.getD h.band, nextBand := none } : Hdm).drive t.2)

/-- What leaves for a CCI transaction of a camera port: nothing in role STANDBY, whose CCI balls are released (R301, R356). -/
def State.cciSent (s : State) (p : Nat) (read : Bool) (index : Nat) (data : Bytes) : List Emission :=
  if s.mir.role = .standby then [] else [.cci p (s.num 0x2C26 (p + 1)) (s.num 0x2C27 (p + 1)) read index data]

/-- Only one open session may hold a level; none but this one does (R65). -/
def LevelFree (s : State) (x : Session) : Prop := ∀ y ∈ s.openSessions, y.sid ≠ x.sid → y.level = 0

end Sys2Proof.Machine
end

