-- ==== Sys2Proof/Certificates/Slice0/Obligations.lean ====
section
/-! DEFINITION. The statements for the provers. A clause for a command says that the command completes, under hypotheses on the
state and the operands alone, what the next state holds, and (`Only`) which parts of the state it leaves alone. -/

set_option Elab.async false

open Sys2Proof Sys2Proof.Machine

/-- A step takes the command at the front of the queue; with no command waiting the tick count moves on, and what waits on the head
lanes, in the coverage staging and in the switch's queues leaves as that tick allows (R88, R247, R266; assumption 2). -/
def Obligations.StepTakesTheFrontCommand : Prop :=
  (∀ (s : State) c rest, s.pending = c :: rest → step s = exec c (s.withPending rest)) ∧
  (∀ s : State, s.pending = [] → ∃ t, step s = .next t ∧ t.tick = s.tick + 1 ∧
    Only [.tick, .fresh, .sent, .objs, .flt, .bbx, .wilwa, .net, .mem, .dram, .fsq, .hlk, .hdg] s t) ∧
  (∀ s : State, s.pending = [] → s.on domHLK = false → s.on domNET = false → (∀ b, b < 8 → (s.bar b).staging = []) →
    step s = .next { s with tick := s.tick + 1 })

/-- Every step ends in a next state but one: a memory request beyond the fitted DRAM stops with its fault (R141). -/
def Obligations.OnlyMissingMemoryStopsAStep : Prop :=
  (∀ s : State, (∀ m a d rest, s.pending = .memoryRequest m a d :: rest → (s.locate (a.toNat / 128 * 128)).isSome = true) →
    Safe s) ∧
  (∀ (s : State) m a d rest, s.pending = .memoryRequest m a d :: rest → s.locate (a.toNat / 128 * 128) = none →
    step s = .fault (.noSuchAddress a.toNat))

/-- What reset leaves, as far as the manual says it: the state RESET, AON, MGT and NET on and the rest off (R23, R35), nothing
raised, no session, every lane DEEP (R270), no memory channel enabled, no job slot loaded, no bar in a job, the role SOLO. -/
def Obligations.ResetLeaves : Prop :=
  State.reset.pwr.dev = .reset ∧
  (∀ d, d < 12 → State.reset.on d = decide (d ≤ 2)) ∧
  State.reset.pending = [] ∧ State.reset.seats = [] ∧ State.reset.flt.queue = [] ∧
  (∀ l, l < 32 → (State.reset.lane l).st = .deep) ∧
  (∀ c, c < 4 → (State.reset.chan c).st = .disabled) ∧
  (∀ k, k < 2 → (State.reset.slot k).st = .empty) ∧
  (∀ b, b < 8 → (State.reset.bar b).run = .notInJob) ∧
  State.reset.mir.role = .solo ∧
  (∀ i j, State.reset.obj i j = defaultVal i j)

/-- The conditions that every step keeps hold after reset. -/
def Obligations.ConditionsHoldAtReset : Prop :=
  State.reset.DramOk ∧ State.reset.SeatsOk ∧ State.reset.ObjsOk

/-- At most one open session holds operator or service level, and no two have one identifier, after every step (R60, R65); unlocking is
refused while another session holds a level, and a Write or a download while the session's level is too low. -/
def Obligations.OneSessionHoldsALevel : Prop :=
  (∀ (s : State) t, s.SeatsOk → step s = .next t → t.SeatsOk) ∧
  (∀ (s : State) h (l : BitVec 8) n x, Accepted s h 0x03 (u8 l.toNat ++ n) x → n.length = 32 → (l.toNat = 1 ∨ l.toNat = 2) →
      (x.version = 1 → l.toNat = 1) → s.wilwa.lockout = false → ¬ LevelFree s x →
    Refused (.unlockRequest h l n) h 0x04 0x10020300 s) ∧
  (∀ (s : State) c h i j o b x d, writeOf s c = some (h, i, j, o, b) → Accepted s h 0x12 (u16 i ++ u8 j ++ u8 o ++ b) x →
      findDesc i j = some d → indexInVersion x.version i = true → x.level < d.level →
    Refused c h 0x13 0x10020600 s) ∧
  (∀ (s : State) h (i : BitVec 16) (j : BitVec 8) (n : BitVec 32) x d,
      Accepted s h 0x14 (u16 i.toNat ++ u8 j.toNat ++ u8 0 ++ u32 n.toNat) x → findDesc i.toNat j.toNat = some d →
      indexInVersion x.version i.toNat = true → x.level < d.level →
    Refused (.transferInit h i j 0 n) h 0x15 0x10020600 s)

/-- A session rises above observer level by a Proof alone: after any other step, whatever level a session holds it held before
(R65, R66). -/
def Obligations.OnlyAProofRaisesALevel : Prop :=
  ∀ s t, (∀ h p rest, s.pending ≠ .proof h p :: rest) → step s = .next t → s.LevelsFrom t

/-- The DRAM cells stay in their canonical form, and every object stays listed once, in order, over every step. -/
def Obligations.MemoryAndObjectsStayCanonical : Prop :=
  (∀ (s : State) t, s.DramOk → step s = .next t → t.DramOk) ∧ (∀ (s : State) t, s.ObjsOk → step s = .next t → t.ObjsOk)

/-- No command changes the queue, the tick count or the fuses; the level of FIRE_EN changes by its own two events, the modules
outside by the events of the modules, the stored credentials by a datagram alone. -/
def Obligations.CommandsKeepTheirPlaces : Prop :=
  (∀ c s t, exec c s = .next t → t.pending = s.pending ∧ t.tick = s.tick ∧ t.fuses = s.fuses) ∧
  (∀ c s t, exec c s = .next t → c ≠ .fireEnFall → c ≠ .fireEnRise → t.fireEn = s.fireEn) ∧
  (∀ c s t, exec c s = .next t → ofHdm c = false → t.hdms = s.hdms) ∧
  (∀ c s t, exec c s = .next t → c.hdr? = none → c ≠ .cyclicRxApply → t.nonVol = s.nonVol)

/-- Supplies, power-on resets and WAKE_N (R22, R25, R39, R40, R49, R50, R420, R429): each leads to its state with everything reset but
what R39 lets survive; a latched trip holds RESET whatever PORST_N does. WAKE_N low wakes MGT and NET and is counted where it is
enabled in DEEP; else it is counted as ignored. -/
def Obligations.SuppliesWakesAndPowerOnResets : Prop :=
  (∀ s : State, s.pwr.dev = .off → s.pwr.porst = false →
    ∃ t, exec .suppliesInRange s = .next t ∧ t.pwr.dev = .reset ∧ PowerCycled s t ∧ Only powerParts s t) ∧
  (∀ (s : State) k, ∃ t, exec (.supplyOutOfRange k) s = .next t ∧ t.pwr.dev = .off ∧ t.pwr.supplies = false ∧
    t.pwr.aon = (s.pwr.aon && k.val != 2) ∧ PowerCycled s t ∧ Only powerParts s t) ∧
  (∀ s : State, s.pwr.trip = false → (s.pwr.dev = .off → s.pwr.supplies = true ∧ s.pwr.aon = true) →
    ∃ t, exec .porstLow s = .next t ∧ t.pwr.dev = .reset ∧ t.pwr.porst = false ∧ PowerCycled s t ∧ Only powerParts s t) ∧
  (∀ s : State, s.pwr.trip = true → exec .porstLow s = .next { s with pwr := { s.pwr with porst := false } }) ∧
  (∀ s : State, s.pwr.dev = .reset → s.pwr.trip = false →
    ∃ t, exec .porstRise s = .next t ∧ t.pwr.dev = .boot ∧ t.pwr.bootTick = s.tick ∧ Only [.pwr] s t) ∧
  (∀ s : State, s.pwr.trip = true → exec .porstRise s = .next { s with pwr := { s.pwr with porst := true } }) ∧
  (∀ s : State, ∃ t, exec .vddAonRemoved s = .next t ∧ t.pwr.dev = .off ∧ t.pwr.trip = false ∧ t.bbx.ring = [] ∧ PowerCycled s t ∧
    Only powerParts s t) ∧
  (∀ s : State, s.pwr.trip = true → s.pwr.tripDown = false → s.pwr.dev ≠ .off →
    ∃ t, exec .tripShutdown s = .next t ∧ t.pwr.dev = .reset ∧ t.pwr.trip = true ∧ (∀ d, t.on d = decide (d = 0)) ∧
      PowerCycled s t ∧ Only powerParts s t) ∧
  (∀ (s : State) a b, s.pwr.trip = false → s.pwr.dev = .deep → s.on domMGT = false → s.num 0x1110 3 ≠ 0 →
      (s.imageStatus a = 0 ∨ s.imageStatus b = 0) →
    ∃ t, exec (.wakeNAssert a b) s = .next t ∧ t.on domMGT = true ∧ t.on domNET = true ∧
      t.num 0x1110 4 = (s.num 0x1110 4 + 1) % 2 ^ 32 ∧ Only domainParts s t) ∧
  (∀ (s : State) a b, s.pwr.trip = false → s.pwr.dev ≠ .off → s.pwr.dev ≠ .reset → (s.on domMGT = true ∨ s.num 0x1110 3 = 0) →
    ∃ t, exec (.wakeNAssert a b) s = .next t ∧ t.num 0x1110 5 = (s.num 0x1110 5 + 1) % 2 ^ 32 ∧ t.pwr = s.pwr ∧
      ObjsOnly [(0x1110, 5), (0x2F10, 2), (0x2F10, 4)] s t ∧ Only [.objs, .flt, .bbx] s t)

/-- A chip reset that was asked for resets all but AON, starts the boot and is counted (R39, R41); boot ends in STANDBY with the
firmware of slot A, or of slot B where A failed, and is held in BOOT where both fail (R36). -/
def Obligations.ChipResetAndBoot : Prop :=
  (∀ (s : State) c, s.pwr.chipPending = some c → s.pwr.trip = false →
    ∃ t, exec .chipReset s = .next t ∧ t.pwr.dev = .boot ∧ t.pwr.chipPending = none ∧ t.pwr.cause = c ∧
      t.num 0x1120 4 = (s.num 0x1120 4 + 1) % 2 ^ 32 ∧ t.seats = [] ∧ t.dram = [] ∧
      (∀ i j, j < 256 → (i, j) ≠ (0x1120, 4) →
        t.obj i j = if keptObject i j || i / 256 == 0x30 then s.obj i j else defaultVal i j) ∧
      Only [.objs, .pwr, .flt, .bbx, .wilwa, .net, .tim, .rin, .fet, .mem, .dram, .pos, .lcg, .cmp, .sne, .fsq, .hlk, .hdg, .vis,
        .che,
            .mir, .therm] s t) ∧
  (∀ s : State, s.pwr.chipPending = none → exec .chipReset s = .next s) ∧
  (∀ (s : State) a b, s.pwr.dev = .boot → s.pwr.bootHeld = false → (s.imageStatus a = 0 ∨ s.imageStatus b = 0) →
    ∃ t, exec (.bootComplete a b) s = .next t ∧ t.pwr.dev = .standby ∧ t.pwr.prevBoot = 0 ∧
      t.num 0x1130 3 = (if s.imageStatus a = 0 then a.firmware.toNat else b.firmware.toNat) ∧
      t.num 0x1120 3 = s.pwr.cause ∧
      t.sent = s.sent ++ [.phySetup (s.num 0x2011 1) (s.num 0x2010 1), .phySetup (s.num 0x2011 2) (s.num 0x2010 2)] ∧
      Only [.fresh, .sent, .objs, .pwr, .flt, .bbx] s t) ∧
  (∀ (s : State) a b, s.pwr.dev = .boot → s.pwr.bootHeld = false → s.imageStatus a ≠ 0 → s.imageStatus b ≠ 0 →
    ∃ t, exec (.bootComplete a b) s = .next t ∧ t.pwr.dev = .boot ∧ t.pwr.bootHeld = true ∧ t.pwr.prevBoot = 1 ∧
      Only [.fresh, .pwr] s t) ∧
  (∀ (s : State) a b, s.pwr.bootHeld = true → exec (.bootComplete a b) s = .next s)

/-- A state request that is not refused (R24 to R31): STANDBY and FROZEN are entered at once, ARMED from CONFIGURED with nothing lacking,
CONFIGURED by training from STANDBY and by stopping the bars otherwise, HELD at once with its bars stopping, PRINTING by the
lanes' training burst. Each is answered with Status 0. -/
def Obligations.StateRequestsAreCarriedOut : Prop :=
  (∀ (s : State) h x, WriteTaken s h 0x1100 2 (u8 3) x → s.pwrBusy = false → (s.pwr.dev = .configured ∨ s.pwr.dev = .frozen) →
    ∃ t, exec (.requestStandby h) s = .next t ∧ Answered t 0x13 0 h.seq.toNat ∧ t.pwr.dev = .standby ∧ t.pwr.trans = none ∧
      (∀ b, b < 8 → (t.bar b).run = .notInJob) ∧ Only jobParts s t) ∧
  (∀ (s : State) h x, WriteTaken s h 0x1100 2 (u8 4) x → s.pwrBusy = false → s.pwr.dev = .standby → ConfiguredReady s →
    ∃ t, exec (.requestConfigured h) s = .next t ∧ Answered t 0x13 0 h.seq.toNat ∧ t.pwr.dev = .standby ∧
      t.pwr.trans = some .training ∧ t.pwr.progress = { target := 4, step := 1, unit := 0, result := 0, busy := true } ∧
      (∀ c ∈ s.enabled, (s.chan c).st = .untrained → (t.chan c).st = .training) ∧ Only jobParts s t) ∧
  (∀ (s : State) h x, WriteTaken s h 0x1100 2 (u8 4) x → s.pwrBusy = false → s.pwr.dev = .held →
    ∃ t, exec (.requestConfigured h) s = .next t ∧ Answered t 0x13 0 h.seq.toNat ∧ t.pwr.dev = .configured ∧ t.pwr.trans = none ∧
      (∀ b, b < 8 → (t.bar b).run = .notInJob) ∧ Only jobParts s t) ∧
  (∀ (s : State) h x, WriteTaken s h 0x1100 2 (u8 4) x → s.pwrBusy = false → (s.pwr.dev = .armed ∨ s.pwr.dev = .printing) →
      (∀ b, b < 8 → s.barMoves b = false) →
    ∃ t, exec (.requestConfigured h) s = .next t ∧ Answered t 0x13 0 h.seq.toNat ∧ t.pwr.dev = .configured ∧ t.pwr.trans = none ∧
      (∀ b, b < 8 → (t.bar b).run = .notInJob) ∧ Only jobParts s t) ∧
  (∀ (s : State) h x b, WriteTaken s h 0x1100 2 (u8 4) x → s.pwrBusy = false → (s.pwr.dev = .armed ∨ s.pwr.dev = .printing) →
      b < 8 → s.barMoves b = true →
    ∃ t, exec (.requestConfigured h) s = .next t ∧ Answered t 0x13 0 h.seq.toNat ∧ t.pwr.dev = s.pwr.dev ∧
      t.pwr.trans = some .stopConfigured ∧ (∀ b, b < 8 → (t.bar b).stopping = s.barMoves b) ∧
      (∀ b, b < 8 → (s.bar b).run = .waiting → (t.bar b).run = .held) ∧ Only jobParts s t) ∧
  (∀ (s : State) h x, WriteTaken s h 0x1100 2 (u8 5) x → s.pwrBusy = false → s.pwr.dev = .configured → ArmedReady s →
    ∃ t, exec (.requestArmed h) s = .next t ∧ Answered t 0x13 0 h.seq.toNat ∧ t.pwr.dev = .armed ∧ t.pwr.trans = none ∧
      (∀ b, b < 8 → bit t.fsq.jobMask b = true → (t.bar b).run = .waiting) ∧ Only jobParts s t) ∧
  (∀ (s : State) h x, WriteTaken s h 0x1100 2 (u8 6) x → s.pwrBusy = false → s.pwr.dev = .held →
    ∃ t, exec (.requestPrinting h) s = .next t ∧ Answered t 0x13 0 h.seq.toNat ∧ t.pwr.dev = .held ∧ t.pwr.trans = some .resume ∧
      t.pwr.progress = { target := 6, step := 5, unit := 0, result := 0, busy := true } ∧ Only jobParts s t) ∧
  (∀ (s : State) h x, WriteTaken s h 0x1100 2 (u8 7) x → s.pwrBusy = false → (s.pwr.dev = .armed ∨ s.pwr.dev = .printing) →
    ∃ t, exec (.requestHeld h) s = .next t ∧ Answered t 0x13 0 h.seq.toNat ∧ t.pwr.dev = .held ∧
      t.pwr.trans = (if (List.range 8).any s.barMoves then some .stopHeld else none) ∧
      (∀ b, b < 8 → (t.bar b).stopping = s.barMoves b) ∧
      (∀ b, b < 8 → (s.bar b).run = .waiting → (t.bar b).run = .held) ∧ Only jobParts s t) ∧
  (∀ (s : State) h x, WriteTaken s h 0x1100 2 (u8 8) x → s.pwrBusy = false →
      (s.pwr.dev = .configured ∨ s.pwr.dev = .armed ∨ s.pwr.dev = .printing ∨ s.pwr.dev = .held) →
    ∃ t, exec (.requestFrozen h) s = .next t ∧ Answered t 0x13 0 h.seq.toNat ∧ t.pwr.dev = .frozen ∧ t.pwr.trans = none ∧
      (∀ b, b < 8 → (t.bar b).firing = none) ∧ Only jobParts s t)

/-- A state request is refused with 1105_0000h while a request runs or domains change, else with 1103_0000h from a state that R25 gives
it no way from; nothing happens but in its session (R24, R25, R54). -/
def Obligations.StateRequestsOutOfPlaceAreRefused : Prop :=
  (∀ (s : State) h x v c, stateRequestOf v h = some c → WriteTaken s h 0x1100 2 (u8 v) x → s.pwrBusy = true →
    ∃ t, exec c s = .next t ∧ Answered t 0x13 0x11050000 h.seq.toNat ∧ Only [.wilwa, .sent] s t) ∧
  (∀ (s : State) h x v c, stateRequestOf v h = some c → WriteTaken s h 0x1100 2 (u8 v) x → s.pwrBusy = false →
      s.pwr.dev ∉ requestStarts v →
    ∃ t, exec c s = .next t ∧ Answered t 0x13 0x11030000 h.seq.toNat ∧ Only [.wilwa, .sent] s t)

/-- How the requests that take time end (R26, R29, R34, R115): CONFIGURED with every channel, the Raster port and every lane of the job
trained; Result 1 at a channel that failed; Result 2 where the Raster port does not come up; PRINTING or ARMED, as HoldResumeMode
and the bars say, at the end of the training burst. -/
def Obligations.TimedRequestsEnd : Prop :=
  (∀ s : State, s.pwr.trans = some .training → (∀ c ∈ s.enabled, (s.chan c).serves = true) → s.rin.linkUp = true →
      (∀ l ∈ s.jobLanes, (s.lane l).st = .trained) →
    ∃ t, exec .configuredTrainingDone s = .next t ∧ t.pwr.dev = .configured ∧ t.pwr.trans = none ∧ t.pwr.progress.result = 0 ∧
      Only jobParts s t) ∧
  (∀ (s : State) c, s.pwr.trans = some .training → c ∈ s.enabled → (s.chan c).st = .untrained →
    ∃ t, exec .configuredTrainingDone s = .next t ∧ t.pwr.dev = s.pwr.dev ∧ t.pwr.trans = none ∧ t.pwr.progress.result = 1 ∧
      Only jobParts s t) ∧
  (∀ s : State, s.pwr.trans = some .training → s.rin.linkUp = false →
    ∃ t, exec .rasterTrainingTimeout s = .next t ∧ t.pwr.dev = s.pwr.dev ∧ t.pwr.trans = none ∧ t.pwr.progress.result = 2 ∧
      t.pwr.progress.step = 2 ∧ Only [.objs, .pwr, .flt, .bbx] s t) ∧
  (∀ (s : State) f, s.pwr.trans = some .resume →
    ∃ t, exec (.resumeBurstEnd f) s = .next t ∧
      t.pwr.dev = (if s.num 0x1100 5 = 0 ∧ s.anyBar (fun y => y.run == .held && y.wasPrinting) = true then .printing else .armed) ∧
      t.pwr.trans = none ∧ Only jobParts s t)

/-- Domain requests (R44, R45, R47): one that R45 finds nothing against is recorded and answered at once and Busy until its sequence is
done; the sequence leaves a changed domain in the state asked for; MGT and NET go OFF only after the response has gone out. -/
def Obligations.DomainRequestsAreCarriedOut : Prop :=
  (∀ (s : State) h x (v : BitVec 32), WriteTaken s h 0x1110 1 (u32 v.toNat) x → s.pwrBusy = false → s.pwr.dev = .standby →
    s.mir.role = .solo →
      bits v.toNat 30 24 = 0 → bits v.toNat 1 0 = 1 → bits v.toNat 3 2 = 1 → bits v.toNat 5 4 = 1 →
      (∀ d, 5 ≤ d → d < 12 → bits v.toNat (2 * d + 1) (2 * d) ≠ 2) →
      parentBroken (fun d => if d = 0 then .on else s.domWanted v.toNat d) = none →
    ∃ t w, exec (.domainRequest h v) s = .next t ∧ Answered t 0x13 0 h.seq.toNat ∧ t.num 0x1110 1 = v.toNat % 2 ^ 31 ∧
      t.pwr.domWork = some w ∧ w.waitReply = false ∧ t.pwr.doms = s.pwr.doms ∧ t.pwr.progress.step = 6 ∧
      Only [.sent, .objs, .pwr, .wilwa] s t) ∧
  (∀ (s : State) w f, s.pwr.domWork = some w → w.waitReply = false →
    ∃ t, exec (.domainSequenceDone f) s = .next t ∧ t.pwr.domWork = none ∧
      (∀ d st, w.changes = [(d, st)] → d < 12 → f = none → t.dom d = st) ∧ Only domainParts s t) ∧
  (∀ (s : State) w f, s.pwr.domWork = some w → w.waitReply = true → exec (.domainSequenceDone f) s = .next s) ∧
  (∀ (s : State) w, s.pwr.domWork = some w → w.waitReply = true →
    ∃ t, exec .mgtNetOffDelayExpiry s = .next t ∧ t.pwr.domWork = none ∧
      (w.changes = [(domNET, .off), (domMGT, .off)] → t.serves = false) ∧ Only domainParts s t)

/-- Resets that a host asks for (R41, R386): a chip reset falls due; the reset of a block that has one sets the
block's status and counters back and runs until it completes, the first begun first; an engine's self-test that passes returns it to service. -/
def Obligations.RequestedResets : Prop :=
  (∀ (s : State) h x, WriteTaken s h 0x1120 1 (u8 1) x →
    ∃ t, exec (.resetRequestChip h) s = .next t ∧ Answered t 0x13 0 h.seq.toNat ∧ t.pwr.chipPending = some 2 ∧
      t.objs = s.objs ∧ Only [.sent, .pwr, .wilwa] s t) ∧
  (∀ (s : State) h x, WriteTaken s h 0x1120 1 (u8 2) x → areaResettable (s.num 0x1120 2 / 256) = true →
    ∃ t, exec (.resetRequestBlock h) s = .next t ∧ Answered t 0x13 0 h.seq.toNat ∧
      (∀ i j, j < 256 → blockObject ⟨s.num 0x1120 2 / 256, s.num 0x1120 2 % 256⟩ i j = true → t.obj i j = defaultVal i j) ∧
      Only domainParts s t) ∧
  (∀ (s : State) h x, WriteTaken s h 0x1120 1 (u8 2) x → areaResettable (s.num 0x1120 2 / 256) = false →
    ∃ t, exec (.resetRequestBlock h) s = .next t ∧ Answered t 0x13 (0x11040A00 + s.num 0x1120 2 / 256) h.seq.toNat ∧
      Only [.wilwa, .sent] s t) ∧
  (∀ (s : State) r rest, s.pwr.resets = r :: rest →
    ∃ t, exec .blockResetComplete s = .next t ∧ t.pwr = { s.pwr with resets := rest } ∧ Only [.objs, .pwr, .hlk] s t) ∧
  (∀ (s : State) (n : Engine), (s.engine n).st = .selfTest →
    ∃ t, exec (.engineSelfTestDone n true) s = .next t ∧ ((t.engine n).st = .idle ∨ (t.engine n).st = .serving) ∧
      Only [.objs, .flt, .bbx, .sne] s t) ∧
  (∀ (s : State) (n : Engine), (s.engine n).st = .selfTest → s.takesReports →
    ∃ t, exec (.engineSelfTestDone n false) s = .next t ∧ Raised (0x2700 + n.val) 1 t ∧
      Only [.fresh, .objs, .flt, .bbx, .sne] s t) ∧
  (∀ (s : State) (n : Engine) p, (s.engine n).st ≠ .selfTest → exec (.engineSelfTestDone n p) s = .next s)

/-- Opening a session (R60): the highest version common to the list and {1, 2, 3}, a fresh identifier, observer level, the Sequence of
the OpenRequest; refused with no common version or at four open sessions, answered again from store for a retransmission, and
refused with 1001_0100h where the datagram is malformed (assumption 20). -/
def Obligations.SessionsOpenOrAreRefused : Prop :=
  (∀ (s : State) h vs e v, s.serves = true → s.ownAddress h.dst = true → headerOk h (u8 vs.length ++ vs ++ u8 e.toNat) = true →
    h.version = 0 → h.sid = 0 → e.toNat ≤ 1 →
      vs.length ≤ 255 →
      (bit h.flags.toNat 2 = true → ∀ y ∈ s.openSessions, y.src = h.src → y.openSeq = h.seq.toNat → y.heard = true) →
      v ∈ [1, 2, 3] → BitVec.ofNat 8 v ∈ vs → (∀ w ∈ [1, 2, 3], BitVec.ofNat 8 w ∈ vs → w ≤ v) → s.openSessions.length < 4 →
    ∃ t x, exec (.openRequest h vs e) s = .next t ∧ t.session x.sid = some x ∧ x.sid ∉ s.openSessions.map (·.sid) ∧ 1 ≤ x.sid ∧
      x.sid ≤ 0xFFFE ∧ x.version = v ∧ x.level = 0 ∧ x.seq = h.seq.toNat ∧ x.src = h.src ∧ x.emergency = (e == 1) ∧
      Answered t 0x02 0 h.seq.toNat ∧ bit (t.num 0x1050 1) 4 = true ∧ ObjsOnly [(0x1050, 1)] s t ∧
      Only [.fresh, .sent, .objs, .wilwa] s t) ∧
  (∀ (s : State) h vs e, s.serves = true → s.ownAddress h.dst = true → headerOk h (u8 vs.length ++ vs ++ u8 e.toNat) = true →
    h.version = 0 → h.sid = 0 → e.toNat ≤ 1 →
      vs.length ≤ 255 → bit h.flags.toNat 2 = false → (∀ w ∈ [1, 2, 3], BitVec.ofNat 8 w ∉ vs) →
    ∃ t, exec (.openRequest h vs e) s = .next t ∧ Answered t 0x02 0x10020100 h.seq.toNat ∧ Only [.sent] s t) ∧
  (∀ (s : State) h vs e w, s.serves = true → s.ownAddress h.dst = true → headerOk h (u8 vs.length ++ vs ++ u8 e.toNat) = true →
    h.version = 0 → h.sid = 0 → e.toNat ≤ 1 →
      vs.length ≤ 255 → bit h.flags.toNat 2 = false → w ∈ [1, 2, 3] → BitVec.ofNat 8 w ∈ vs → s.openSessions.length = 4 →
    ∃ t, exec (.openRequest h vs e) s = .next t ∧ Answered t 0x02 0x10020200 h.seq.toNat ∧ Only [.sent] s t) ∧
  (∀ (s : State) h vs e x d, s.serves = true → s.ownAddress h.dst = true → headerOk h (u8 vs.length ++ vs ++ u8 e.toNat) = true →
    h.version = 0 → h.sid = 0 → e.toNat ≤ 1 →
      vs.length ≤ 255 → bit h.flags.toNat 2 = true → x ∈ s.openSessions → x.src = h.src → x.openSeq = h.seq.toNat →
      x.heard = false →
      (∀ y ∈ s.openSessions, y.src = h.src → y.openSeq = h.seq.toNat → y.heard = false → y.openResp = some d) →
    exec (.openRequest h vs e) s = .next (s.sendDgram d)) ∧
  (∀ (s : State) h vs e, s.serves = true → s.ownAddress h.dst = true → (headerOk h (u8 vs.length ++ vs ++ u8 e.toNat) = false ∨
    h.version ≠ 0 ∨ h.sid ≠ 0 ∨ 1 < e.toNat) →
    ∃ t, exec (.openRequest h vs e) s = .next t ∧ Answered t 0x02 0x10010100 h.seq.toNat ∧ Only [.sent] s t)

/-- Unlocking (R66, R67, R69): the Challenge carries a fresh nonce of 32 bytes, the right Proof grants the level and, in version 3, the
session key; an exchange ends unanswered after its time, and a lockout after its own (R68). -/
def Obligations.UnlockingGrantsALevel : Prop :=
  (∀ (s : State) h (l : BitVec 8) n x, Accepted s h 0x03 (u8 l.toNat ++ n) x → n.length = 32 → (l.toNat = 1 ∨ l.toNat = 2) →
      (x.version = 1 → l.toNat = 1) → s.wilwa.lockout = false → LevelFree s x → (l.toNat = 1 → s.nonVol.operator.isSome = true) →
    ∃ t y dn, exec (.unlockRequest h l n) s = .next t ∧ t.session x.sid = some y ∧ dn.length = 32 ∧
      y.exchange = some { level := l.toNat, hostNonce := n, deviceNonce := dn } ∧ Answered t 0x04 0 h.seq.toNat ∧ LastPayload t dn ∧
      t.seats = s.seats ∧ Only [.fresh, .sent, .wilwa] s t) ∧
  (∀ (s : State) h p x e cred, Accepted s h 0x05 p x → x.exchange = some e →
      cred = (if e.level = 1 then s.nonVol.operator.getD [] else s.nonVol.service.getD (List.replicate 32 0)) →
      p = hmacSha256 cred (e.deviceNonce ++ e.hostNonce ++ u8 e.level ++ u16 x.sid ++ u64 s.fuses.serial) → p.length = 32 →
      LevelFree s x →
    ∃ t y, exec (.proof h p) s = .next t ∧ t.session x.sid = some y ∧ y.level = e.level ∧ y.exchange = none ∧
      y.sessKey = (if x.version = 3 then some (hmacSha256 cred (e.hostNonce ++ e.deviceNonce ++ [1])) else none) ∧
      Answered t 0x06 0 h.seq.toNat ∧ LastPayload t (u8 e.level) ∧ Only [.sent, .wilwa] s t) ∧
  (∀ (s : State) (i : BitVec 16) x, s.session i.toNat = some x →
    ∃ t, exec (.unlockExchangeTimeout i) s = .next t ∧ t.session i.toNat = some { x with exchange := none } ∧ t.seats = s.seats ∧
      Only [.wilwa] s t) ∧
  (∀ s : State, exec .unlockLockoutEnd s = .next { s with wilwa := { s.wilwa with lockout := false } })

/-- What unlocking is refused with (R61, R65, R66, R68, R69): a wrong Proof is counted and raises F1011h, and the third within 60 s
locks unlocking out; a Proof with no exchange open, and an unlock request that is refused, count nothing. -/
def Obligations.UnlockingIsRefused : Prop :=
  (∀ (s : State) h (l : BitVec 8) n x, Accepted s h 0x03 (u8 l.toNat ++ n) x → (n.length ≠ 32 ∨ (l.toNat ≠ 1 ∧ l.toNat ≠ 2)) →
    Refused (.unlockRequest h l n) h 0x04 0x10010100 s) ∧
  (∀ (s : State) h (l : BitVec 8) n x, Accepted s h 0x03 (u8 l.toNat ++ n) x → n.length = 32 → l.toNat = 2 → x.version = 1 →
    Refused (.unlockRequest h l n) h 0x04 0x10020800 s) ∧
  (∀ (s : State) h (l : BitVec 8) n x, Accepted s h 0x03 (u8 l.toNat ++ n) x → n.length = 32 → (l.toNat = 1 ∨ l.toNat = 2) →
      (x.version = 1 → l.toNat = 1) → s.wilwa.lockout = true →
    Refused (.unlockRequest h l n) h 0x04 0x10020500 s) ∧
  (∀ (s : State) h (l : BitVec 8) n x, Accepted s h 0x03 (u8 l.toNat ++ n) x → n.length = 32 → l.toNat = 1 →
    s.wilwa.lockout = false →
      LevelFree s x → s.nonVol.operator = none →
    Refused (.unlockRequest h l n) h 0x04 0x10020400 s) ∧
  (∀ (s : State) h p x, Accepted s h 0x05 p x → p.length ≠ 32 → Refused (.proof h p) h 0x06 0x10010100 s) ∧
  (∀ (s : State) h p x, Accepted s h 0x05 p x → p.length = 32 → x.exchange = none → Refused (.proof h p) h 0x06 0x10020900 s) ∧
  (∀ (s : State) h p x e, Accepted s h 0x05 p x → p.length = 32 → x.exchange = some e →
      p ≠ hmacSha256 (if e.level = 1 then s.nonVol.operator.getD [] else s.nonVol.service.getD (List.replicate 32 0))
            (e.deviceNonce ++ e.hostNonce ++ u8 e.level ++ u16 x.sid ++ u64 s.fuses.serial) →
    ∃ t y, exec (.proof h p) s = .next t ∧ Answered t 0x06 0x10020400 h.seq.toNat ∧ t.session x.sid = some y ∧ y.exchange = none ∧
      t.seats = s.seats ∧ t.num 0x1030 4 = (s.num 0x1030 4 + 1) % 2 ^ 32 ∧ (s.takesReports → Raised 0x1011 0 t) ∧
      t.wilwa.lockout = (s.wilwa.lockout ||
        decide (3 ≤ (s.wilwa.rejected.filter fun k => decide (s.tick ≤ k + 24000000000)).length + 1)) ∧
      Only [.sent, .objs, .flt, .bbx, .wilwa] s t) ∧
  (∀ (s : State) h p x e, Accepted s h 0x05 p x → p.length = 32 → x.exchange = some e →
      p = hmacSha256 (if e.level = 1 then s.nonVol.operator.getD [] else s.nonVol.service.getD (List.replicate 32 0))
            (e.deviceNonce ++ e.hostNonce ++ u8 e.level ++ u16 x.sid ++ u64 s.fuses.serial) → ¬ LevelFree s x →
    Refused (.proof h p) h 0x06 0x10020300 s)

/-- A session closes on Close or when nothing is heard from it (R63): its transfers end, its streams stop, its level is free, and
nothing else changes; the timeout also raises F1013h. A KeepAlive is answered and changes nothing but the Sequence (R62). -/
def Obligations.SessionsCloseAndStayAlive : Prop :=
  (∀ (s : State) h x, Accepted s h 0x07 [] x →
    ∃ t, exec (.close h) s = .next t ∧ Answered t 0x08 0 h.seq.toNat ∧ t.session x.sid = none ∧
      (∀ i, i ≠ x.sid → t.session i = s.session i) ∧ (∀ r ∈ t.wilwa.transfers, r.sid ≠ x.sid) ∧
      (s.wilwa.cycSid = x.sid → t.num 0x6010 1 = 0 ∧ t.wilwa.cycSid = 0) ∧ bit (t.num 0x1050 1) 4 = true ∧
      ObjsOnly [(0x1050, 1), (0x6010, 1)] s t ∧ Only [.sent, .objs, .wilwa] s t) ∧
  (∀ (s : State) (i : BitVec 16) x, s.session i.toNat = some x →
    ∃ t, exec (.sessionTimeout i) s = .next t ∧ t.session x.sid = none ∧ (∀ k, k ≠ x.sid → t.session k = s.session k) ∧
      (∀ r ∈ t.wilwa.transfers, r.sid ≠ x.sid) ∧ (s.wilwa.cycSid = x.sid → t.num 0x6010 1 = 0 ∧ t.wilwa.cycSid = 0) ∧
      (s.takesReports → Raised 0x1013 0 t) ∧ ObjsOnly [(0x1050, 1), (0x6010, 1), (0x2F10, 2), (0x2F10, 4)] s t ∧
      Only [.sent, .objs, .flt, .bbx, .wilwa] s t) ∧
  (∀ (s : State) (i : BitVec 16), s.session i.toNat = none → exec (.sessionTimeout i) s = .next s) ∧
  (∀ (s : State) h x, Accepted s h 0x09 [] x →
    ∃ t y, exec (.keepAlive h) s = .next t ∧ Answered t 0x0A 0 h.seq.toNat ∧ t.session x.sid = some y ∧ y.seq = h.seq.toNat ∧
      y.level = x.level ∧ t.seats = s.seats ∧ Only [.sent, .wilwa] s t)

/-- A request is handled by its Sequence (R62), whose first value is the OpenRequest's: the next one is executed and its response stored
(a Close leaves no session to store it in), the same one is answered from store and not executed again, any other is answered
1001_0400h and leaves the Sequence as it was. -/
def Obligations.RequestsFollowTheirSequence : Prop :=
  (∀ (s : State) h vs e t x, exec (.openRequest h vs e) s = .next t → t.session x.sid = some x → s.session x.sid = none →
    x.seq = h.seq.toNat) ∧
  (∀ (s : State) c h ty p x, messageOf s c = some (h, ty, p, true) → ty ≠ 0x07 → Accepted s h ty p x →
    ∃ t y d e pre rest, exec c s = .next t ∧ t.session x.sid = some y ∧ y.seq = h.seq.toNat ∧ y.stored = some d ∧
      t.sent = pre ++ .dgram e :: rest ∧ e = { d with vlan := e.vlan } ∧ (ty ≠ 0x14 → rest = []) ∧ d.seq = h.seq.toNat ∧
      d.msgType = ty + 1) ∧
  (∀ (s : State) c h ty p x d, messageOf s c = some (h, ty, p, true) → Admitted s h ty p x → h.seq.toNat ≠ (x.seq + 1) % 2 ^ 32 →
      h.seq.toNat = x.seq → x.stored = some d →
    exec c s = .next ((s.heard x.sid).sendDgram d)) ∧
  (∀ (s : State) c h ty p x, messageOf s c = some (h, ty, p, true) → Admitted s h ty p x → h.seq.toNat ≠ (x.seq + 1) % 2 ^ 32 →
      h.seq.toNat ≠ x.seq →
    ∃ t y, exec c s = .next t ∧ Answered t (ty + 1) 0x10010400 h.seq.toNat ∧ t.session x.sid = some y ∧ y = x.now ∧
      Only [.wilwa, .sent] s t)

/-- What becomes of a message before its request is looked at (R57, R59, R61, R90): one to no address of the device does nothing; one with no session or a malformed header is answered or,
where its kind is never answered, dropped; a wrong tag is counted, raises F1011h and is not answered; a message that the
session's version does not have is answered with 1002_0800h. Datagrams too short, too long or of unknown type (R56, R57, R84). -/
def Obligations.DatagramsAreAdmitted : Prop :=
  (∀ (s : State) c m, messageOf s c = some m → (s.serves = false ∨ s.ownAddress m.1.dst = false) → exec c s = .next s) ∧
  (∀ (s : State) c h ty p a x, messageOf s c = some (h, ty, p, a) → s.serves = true → s.ownAddress h.dst = true →
    s.session h.sid.toNat = some x → ¬ TagRight h ty p x →
    ∃ t, exec c s = .next t ∧ t.num 0x1030 4 = (s.num 0x1030 4 + 1) % 2 ^ 32 ∧ (s.takesReports → Raised 0x1011 0 t) ∧
      ObjsOnly [(0x1030, 4), (0x2F10, 2), (0x2F10, 4)] s t ∧ Only [.objs, .flt, .bbx] s t) ∧
  (∀ (s : State) c h ty p, messageOf s c = some (h, ty, p, true) → s.serves = true → s.ownAddress h.dst = true →
    s.session h.sid.toNat = none → headerOk h p = true →
    ∃ t, exec c s = .next t ∧ Answered t (ty + 1) 0x10020700 h.seq.toNat ∧ Only [.sent] s t) ∧
  (∀ (s : State) c h ty p, messageOf s c = some (h, ty, p, true) → s.serves = true → s.ownAddress h.dst = true →
    s.session h.sid.toNat = none → headerOk h p = false →
    ∃ t, exec c s = .next t ∧ Answered t (ty + 1) 0x10010100 h.seq.toNat ∧ Only [.sent] s t) ∧
  (∀ (s : State) c h ty p, messageOf s c = some (h, ty, p, false) → s.session h.sid.toNat = none → exec c s = .next s) ∧
  (∀ (s : State) c h ty p x, messageOf s c = some (h, ty, p, true) → s.serves = true → s.ownAddress h.dst = true →
    s.session h.sid.toNat = some x → TagRight h ty p x →
      (headerOk h p = false ∨ h.version.toNat ≠ x.version) →
    ∃ t, exec c s = .next t ∧ Answered t (ty + 1) 0x10010100 h.seq.toNat ∧ Only [.wilwa, .sent] s t) ∧
  (∀ (s : State) c h ty p x, messageOf s c = some (h, ty, p, true) → s.serves = true → s.ownAddress h.dst = true →
    s.session h.sid.toNat = some x → TagRight h ty p x →
      headerOk h p = true → h.version.toNat = x.version → messageInVersion x.version ty = false →
      h.seq.toNat = (x.seq + 1) % 2 ^ 32 →
    Refused c h (ty + 1) 0x10020800 s) ∧
  (∀ (s : State) n, s.serves = true → n < 16 →
    ∃ t, exec (.malformedDatagram n) s = .next t ∧ t.num 0x1020 3 = (s.num 0x1020 3 + 1) % 2 ^ 32 ∧ ObjsOnly [(0x1020, 3)] s t ∧
      Only [.objs] s t) ∧
  (∀ (s : State) n v6, s.serves = true → (if v6 then 1452 else 1472) < n →
    ∃ t, exec (.oversizeDatagram n v6) s = .next t ∧ t.num 0x1020 4 = (s.num 0x1020 4 + 1) % 2 ^ 32 ∧
      ObjsOnly [(0x1020, 4)] s t ∧ Only [.objs] s t) ∧
  (∀ (s : State) h (ty : BitVec 8) p x, s.serves = true → s.ownAddress h.dst = true → hostTypes.contains ty.toNat = false →
    s.session h.sid.toNat = some x →
      TagRight h ty.toNat p x → headerOk h p = true → h.version.toNat = x.version →
    ∃ t, exec (.unknownMsgtype h ty p) s = .next t ∧ Answered t ((ty.toNat + 1) % 256) 0x10010200 h.seq.toNat ∧ t.seats = s.seats ∧
      Only [.wilwa, .sent] s t) ∧
  (∀ (s : State) h (ty : BitVec 8) p, s.serves = true → s.ownAddress h.dst = true → hostTypes.contains ty.toNat = false →
    s.session h.sid.toNat = none →
      headerOk h p = true →
    ∃ t, exec (.unknownMsgtype h ty p) s = .next t ∧ Answered t ((ty.toNat + 1) % 256) 0x10010200 h.seq.toNat ∧ Only [.sent] s t)

/-- A Write is checked in this order and refused with the first code that applies (R72): existence, version and level, access and
type, length, value, power domain, change class, a running receive stream. -/
def Obligations.WritesAreCheckedInOrder : Prop :=
  (∀ (s : State) h (i : BitVec 16) (j o : BitVec 8) b x, Accepted s h 0x12 (u16 i.toNat ++ u8 j.toNat ++ u8 o.toNat ++ b) x →
      findDesc i.toNat j.toNat = none →
    Refused (.write h i j o b) h 0x13
      (abort i.toNat (if indexInMap i.toNat = true ∧ (topSub i.toNat).isSome = true then 0x60200 else 0x60100)) s) ∧
  (∀ (s : State) h (i : BitVec 16) (j o : BitVec 8) b x d, Accepted s h 0x12 (u16 i.toNat ++ u8 j.toNat ++ u8 o.toNat ++ b) x →
      findDesc i.toNat j.toNat = some d →
    (indexInVersion x.version i.toNat = false → Refused (.write h i j o b) h 0x13 0x10020800 s) ∧
    (indexInVersion x.version i.toNat = true → x.level < d.level → Refused (.write h i j o b) h 0x13 0x10020600 s)) ∧
  (∀ (s : State) h (i : BitVec 16) (j o : BitVec 8) b x d, Accepted s h 0x12 (u16 i.toNat ++ u8 j.toNat ++ u8 o.toNat ++ b) x →
      findDesc i.toNat j.toNat = some d → indexInVersion x.version i.toNat = true → d.level ≤ x.level →
    (d.acc = .ro → Refused (.write h i j o b) h 0x13 (abort i.toNat 0x60300) s) ∧
    (d.acc ≠ .ro → d.ty = .domain → Refused (.write h i j o b) h 0x13 (abort i.toNat 0x60700) s)) ∧
  (∀ (s : State) h (i : BitVec 16) (j o : BitVec 8) b x d, Accepted s h 0x12 (u16 i.toNat ++ u8 j.toNat ++ u8 o.toNat ++ b) x →
      findDesc i.toNat j.toNat = some d → indexInVersion x.version i.toNat = true → d.level ≤ x.level → d.acc ≠ .ro →
        d.ty ≠ .domain →
    (d.lengthOk b = false → Refused (.write h i j o b) h 0x13 (abort i.toNat 0x60500) s) ∧
    (d.lengthOk b = true → s.valueOk d i.toNat j.toNat (d.value b) = false →
      Refused (.write h i j o b) h 0x13 (abort i.toNat 0x60600) s) ∧
    (d.lengthOk b = true → s.valueOk d i.toNat j.toNat (d.value b) = true → s.on (objDomain i.toNat j.toNat) = false →
      Refused (.write h i j o b) h 0x13 (abort i.toNat (0x4F000 + objDomain i.toNat j.toNat)) s) ∧
    (d.lengthOk b = true → s.valueOk d i.toNat j.toNat (d.value b) = true → s.on (objDomain i.toNat j.toNat) = true →
      d.cls = .stopped → s.stoppedRuns i.toNat j.toNat = true →
      Refused (.write h i j o b) h 0x13 (abort i.toNat 0x30200) s) ∧
    (d.lengthOk b = true → s.valueOk d i.toNat j.toNat (d.value b) = true → s.on (objDomain i.toNat j.toNat) = true →
      (d.cls = .stopped → s.stoppedRuns i.toNat j.toNat = false) → s.rxMapped i.toNat j.toNat = true →
      Refused (.write h i j o b) h 0x13 (abort i.toNat 0x50200) s))

/-- A write that nothing speaks against, of an object with no effect of its own, sets the live value of a Free or Stopped object and the
shadow of a Commit object (R73); an object's own refusal is answered with its code. -/
def Obligations.WritesTakeEffectByTheirClass : Prop :=
  (∀ (s : State) h (i : BitVec 16) (j o : BitVec 8) b x d, Accepted s h 0x12 (u16 i.toNat ++ u8 j.toNat ++ u8 o.toNat ++ b) x →
      findDesc i.toNat j.toNat = some d → s.writeError x.now i.toNat j.toNat b false = none →
      (isAdminArea (i.toNat / 256) && i.toNat % 256 == 0 && j.toNat == 1) = false →
      hook x.now i.toNat j.toNat (d.value b) (s.heard x.sid) = none →
    (d.cls = .commit →
      ∃ t, exec (.write h i j o b) s = .next t ∧ Answered t 0x13 0 h.seq.toNat ∧ t.shadowObj i.toNat j.toNat = d.value b ∧
        t.seats = s.seats ∧ Only [.wilwa, .sent] s t) ∧
    (d.cls ≠ .commit →
      ∃ t, exec (.write h i j o b) s = .next t ∧ Answered t 0x13 0 h.seq.toNat ∧ t.obj i.toNat j.toNat = d.value b ∧
        t.seats = s.seats ∧ Only [.fresh, .wilwa, .sent, .objs, .sne, .fsq, .hdg] s t)) ∧
  (∀ (s : State) h (i : BitVec 16) (j o : BitVec 8) b x d e, Accepted s h 0x12 (u16 i.toNat ++ u8 j.toNat ++ u8 o.toNat ++ b) x →
      findDesc i.toNat j.toNat = some d → s.writeError x.now i.toNat j.toNat b false = none →
      (isAdminArea (i.toNat / 256) && i.toNat % 256 == 0 && j.toNat == 1) = false →
      hook x.now i.toNat j.toNat (d.value b) (s.heard x.sid) = some (.error e) →
    Refused (.write h i j o b) h 0x13 e s)

/-- A Read answers the live value, or with Options bit 0 the shadow value of a Commit object; it is refused for an object that does not
exist or the session's version does not have, a write-only or DOMAIN object, and one whose domain is not ON (R72, R73). Describe
answers an object's description (R71). -/
def Obligations.ReadsAndDescribeAnswer : Prop :=
  (∀ (s : State) h (i : BitVec 16) (j o : BitVec 8) x d, Accepted s h 0x10 (u16 i.toNat ++ u8 j.toNat ++ u8 o.toNat) x →
      findDesc i.toNat j.toNat = some d → indexInVersion x.version i.toNat = true → d.acc ≠ .wo → d.ty ≠ .domain →
      s.on (objDomain i.toNat j.toNat) = true →
    (bit o.toNat 0 = true → d.cls = .commit →
      ∃ t, exec (.read h i j o) s = .next t ∧ Answered t 0x11 0 h.seq.toNat ∧
        LastPayload t (u16 i.toNat ++ u8 j.toNat ++ u8 o.toNat ++ wire i.toNat j.toNat (s.shadowObj i.toNat j.toNat)) ∧
        Only [.wilwa, .sent] s t) ∧
    ((bit o.toNat 0 = false ∨ d.cls ≠ .commit) →
      ∃ t, exec (.read h i j o) s = .next t ∧ Answered t 0x11 0 h.seq.toNat ∧
        LastPayload t (u16 i.toNat ++ u8 j.toNat ++ u8 o.toNat ++ wire i.toNat j.toNat ((s.heard x.sid).view i.toNat j.toNat).1) ∧
        t.seats = s.seats ∧ Only [.fresh, .objs, .wilwa, .sent] s t)) ∧
  (∀ (s : State) h (i : BitVec 16) (j o : BitVec 8) x, Accepted s h 0x10 (u16 i.toNat ++ u8 j.toNat ++ u8 o.toNat) x →
      findDesc i.toNat j.toNat = none →
    Refused (.read h i j o) h 0x11
      (abort i.toNat (if indexInMap i.toNat = true ∧ (topSub i.toNat).isSome = true then 0x60200 else 0x60100)) s) ∧
  (∀ (s : State) h (i : BitVec 16) (j o : BitVec 8) x d, Accepted s h 0x10 (u16 i.toNat ++ u8 j.toNat ++ u8 o.toNat) x →
      findDesc i.toNat j.toNat = some d →
    (indexInVersion x.version i.toNat = false → Refused (.read h i j o) h 0x11 0x10020800 s) ∧
    (indexInVersion x.version i.toNat = true → d.acc = .wo → Refused (.read h i j o) h 0x11 (abort i.toNat 0x60400) s) ∧
    (indexInVersion x.version i.toNat = true → d.acc ≠ .wo → d.ty = .domain →
      Refused (.read h i j o) h 0x11 (abort i.toNat 0x60700) s) ∧
    (indexInVersion x.version i.toNat = true → d.acc ≠ .wo → d.ty ≠ .domain → s.on (objDomain i.toNat j.toNat) = false →
      Refused (.read h i j o) h 0x11 (abort i.toNat (0x4F000 + objDomain i.toNat j.toNat)) s)) ∧
  (∀ (s : State) h (i : BitVec 16) (j o : BitVec 8) x d, Accepted s h 0x1C (u16 i.toNat ++ u8 j.toNat ++ u8 o.toNat) x →
      findDesc i.toNat j.toNat = some d → indexInVersion x.version i.toNat = true →
    ∃ t p, exec (.describe h i j o) s = .next t ∧ Answered t 0x1D 0 h.seq.toNat ∧ LastPayload t p ∧
      p.take 4 = u8 d.ty.code ++ u8 d.acc.code ++ u8 d.level ++ u8 d.cls.code ∧ leAt p 4 4 = d.maxSize % 2 ^ 32 ∧
      (d.ty.size = none → p.drop 8 = List.replicate 24 0) ∧ t.seats = s.seats ∧ Only [.wilwa, .sent] s t) ∧
  (∀ (s : State) h (i : BitVec 16) (j o : BitVec 8) x, Accepted s h 0x1C (u16 i.toNat ++ u8 j.toNat ++ u8 o.toNat) x →
      findDesc i.toNat j.toNat = none →
    Refused (.describe h i j o) h 0x1D
      (abort i.toNat (if indexInMap i.toNat = true ∧ (topSub i.toNat).isSome = true then 0x60200 else 0x60100)) s)
/-- Transfers open (R72, R77): a TransferInit that nothing speaks against is answered with the transfer's id, its SegmentSize and a
window of 16; an upload at once sends its first segment, or its TransferEnd where it has no content. It is refused for an object of
fixed size, a download of a read-only object, an upload of a write-only one, a domain that is not ON, a second transfer of the
session, a fifth transfer, a TotalSize above MaxSize. -/
def Obligations.TransfersOpenOrAreRefused : Prop :=
  (∀ (s : State) (h : Hdr) (i : BitVec 16) (j : BitVec 8) (n : BitVec 32) (x : Session) (d : Desc),
      Accepted s h 0x14 (u16 i.toNat ++ u8 j.toNat ++ u8 0 ++ u32 n.toNat) x → findDesc i.toNat j.toNat = some d →
      d.level ≤ x.level → d.ty.size = none → d.acc ≠ .ro → s.on (objDomain i.toNat j.toNat) = true →
      (d.cls = .stopped → s.stoppedRuns i.toNat j.toNat = false) → (∀ r ∈ s.wilwa.transfers, r.sid ≠ x.sid) →
      s.wilwa.transfers.length < 4 → n.toNat ≤ d.maxSize →
    ∃ t r, exec (.transferInit h i j 0 n) s = .next t ∧ Answered t 0x15 0 h.seq.toNat ∧
      t.wilwa.transfers = s.wilwa.transfers ++ [r] ∧ r.tid ∉ s.wilwa.transfers.map (·.tid) ∧ r.sid = x.sid ∧ r.download = true ∧
      r.idx = i.toNat ∧ r.sub = j.toNat ∧ r.total = n.toNat ∧ r.acked = 0 ∧
      r.segSize = (if x.version = 3 then if x.src.ip.v6 then 1412 else 1432 else if x.src.ip.v6 then 1428 else 1448) ∧
      LastPayload t (u16 r.tid ++ u16 r.segSize ++ u8 16) ∧ Only [.fresh, .sent, .wilwa] s t) ∧
  (∀ (s : State) (h : Hdr) (i : BitVec 16) (j : BitVec 8) (n : BitVec 32) (x : Session) (d : Desc),
      Accepted s h 0x14 (u16 i.toNat ++ u8 j.toNat ++ u8 1 ++ u32 n.toNat) x → findDesc i.toNat j.toNat = some d →
      d.ty.size = none → d.acc ≠ .wo → s.on (objDomain i.toNat j.toNat) = true → (i.toNat, j.toNat) ≠ (0x3011, 6) →
      (i.toNat, j.toNat) ≠ (0x2D30, 2) → (∀ r ∈ s.wilwa.transfers, r.sid ≠ x.sid) → s.wilwa.transfers.length < 4 →
      n.toNat ≤ d.maxSize →
    ∃ t d e rest content, exec (.transferInit h i j 1 n) s = .next t ∧ t.sent = s.sent ++ .dgram d :: .dgram e :: rest ∧
      d.msgType = 0x15 ∧ d.status = 0 ∧ d.seq = h.seq.toNat ∧ content = ((s.heard x.sid).view i.toNat j.toNat).1.toBytes ∧
      e.msgType = (if content = [] then 0x18 else 0x16) ∧ e.seq = 0 ∧ e.status = 0 ∧ Only [.fresh, .sent, .objs, .wilwa] s t) ∧
  (∀ (s : State) (h : Hdr) (i : BitVec 16) (j r : BitVec 8) (n : BitVec 32) (x : Session) (d : Desc),
      Accepted s h 0x14 (u16 i.toNat ++ u8 j.toNat ++ u8 r.toNat ++ u32 n.toNat) x → r.toNat ≤ 1 →
        findDesc i.toNat j.toNat = some d →
      (r.toNat = 0 → d.level ≤ x.level) →
    (d.ty.size.isSome = true → Refused (.transferInit h i j r n) h 0x15 (abort i.toNat 0x60700) s) ∧
    (d.ty.size = none → r.toNat = 0 → d.acc = .ro → Refused (.transferInit h i j r n) h 0x15 (abort i.toNat 0x60300) s) ∧
    (d.ty.size = none → r.toNat = 1 → d.acc = .wo → Refused (.transferInit h i j r n) h 0x15 (abort i.toNat 0x60400) s) ∧
    (d.ty.size = none → (r.toNat = 0 → d.acc ≠ .ro) → (r.toNat = 1 → d.acc ≠ .wo) → s.on (objDomain i.toNat j.toNat) = false →
      Refused (.transferInit h i j r n) h 0x15 (abort i.toNat (0x4F000 + objDomain i.toNat j.toNat)) s) ∧
    (d.ty.size = none → (r.toNat = 0 → d.acc ≠ .ro) → (r.toNat = 1 → d.acc ≠ .wo) → s.on (objDomain i.toNat j.toNat) = true →
      (r.toNat = 0 → d.cls = .stopped → s.stoppedRuns i.toNat j.toNat = false) →
      ((∃ k ∈ s.wilwa.transfers, k.sid = x.sid) → Refused (.transferInit h i j r n) h 0x15 0x10090100 s) ∧
      ((∀ k ∈ s.wilwa.transfers, k.sid ≠ x.sid) → 4 ≤ s.wilwa.transfers.length →
        Refused (.transferInit h i j r n) h 0x15 0x10090200 s) ∧
      ((∀ k ∈ s.wilwa.transfers, k.sid ≠ x.sid) → s.wilwa.transfers.length < 4 → d.maxSize < n.toNat →
        Refused (.transferInit h i j r n) h 0x15 0x10090300 s)))

/-- Segments of a download (R77): one inside the window is taken, and acknowledged with the contiguous bytes after every fourth and
after the last; one that does not fit is dropped and the last acknowledgement repeated. Acknowledgements of an upload move its
window on, and the last is followed by the device's TransferEnd. -/
def Obligations.SegmentsAreTakenAndAcknowledged : Prop :=
  (∀ (s : State) h (k : BitVec 16) (o : BitVec 32) data x r, Admitted s h 0x16 (u16 k.toNat ++ u16 0 ++ u32 o.toNat ++ data) x →
      s.transfer k.toNat = some r → r.sid = x.sid → r.download = true → r.segmentOk o.toNat data = true →
    ∃ t q, exec (.segment h k o data) s = .next t ∧ t.transfer k.toNat = some q ∧
      kvGet q.segs (o.toNat / max 1 r.segSize) = some data ∧ q.acked = contiguous q.segs (q.segs.length + 1) 0 ∧
      (((r.sinceAck + 1) % 4 = 0 ∨ o.toNat + data.length = r.total) →
        LastPayload t (u16 r.tid ++ u16 0 ++ u32 q.acked) ∧ q.lastAck = some q.acked) ∧
      (¬ ((r.sinceAck + 1) % 4 = 0 ∨ o.toNat + data.length = r.total) → t.sent = s.sent) ∧ Only [.wilwa, .sent] s t) ∧
  (∀ (s : State) h (k : BitVec 16) (o : BitVec 32) data x r a, Admitted s h 0x16 (u16 k.toNat ++ u16 0 ++ u32 o.toNat ++ data) x →
      s.transfer k.toNat = some r → r.sid = x.sid → r.download = true → r.segmentOk o.toNat data = false → r.lastAck = some a →
    ∃ t, exec (.segment h k o data) s = .next t ∧ t.wilwa = (s.heard x.sid).wilwa ∧ LastPayload t (u16 r.tid ++ u16 0 ++ u32 a) ∧
      Only [.wilwa, .sent] s t) ∧
  (∀ (s : State) h (k : BitVec 16) (a : BitVec 32) x r, Admitted s h 0x17 (u16 k.toNat ++ u16 0 ++ u32 a.toNat) x →
      s.transfer k.toNat = some r → r.sid = x.sid → r.download = false → r.acked ≤ a.toNat → a.toNat ≤ r.sent →
    (a.toNat = r.total →
      ∃ t, exec (.segmentAck h k a) s = .next t ∧ t.transfer k.toNat = none ∧
        LastPayload t (u16 r.tid ++ u16 0 ++ u32 (crc32c r.data)) ∧ Only [.wilwa, .sent, .objs] s t) ∧
    (a.toNat < r.total → a.toNat % max 1 r.segSize = 0 →
      ∃ t q, exec (.segmentAck h k a) s = .next t ∧ t.transfer k.toNat = some q ∧ q.acked = a.toNat ∧ r.sent ≤ q.sent ∧
        Only [.wilwa, .sent] s t))

/-- How transfers end (R77, R78): a TransferEnd with everything received and the right checksum applies the content; with bytes missing
it is refused and the transfer stays; with a wrong checksum the transfer is gone and nothing applied; for an upload it is refused.
An abort and a timeout apply nothing; an upload whose acknowledgements stand still is sent again from AckedOffset. -/
def Obligations.TransfersEnd : Prop :=
  (∀ (s : State) h (k : BitVec 16) (c : BitVec 32) x r d u, Accepted s h 0x18 (u16 k.toNat ++ u16 0 ++ u32 c.toNat) x →
      s.transfer k.toNat = some r → r.sid = x.sid → r.download = true → r.total ≤ r.acked → crc32c r.content = c.toNat →
      findDesc r.idx r.sub = some d → u = (s.heard x.sid).dropTransfer k.toNat → u.contentError d r.idx r.sub r.content = none →
      (isAdminArea (r.idx / 256) && r.idx % 256 == 0 && r.sub == 1) = false → hook x.now r.idx r.sub (d.value r.content) u = none →
    ∃ t, exec (.transferEnd h k c) s = .next t ∧ Answered t 0x19 0 h.seq.toNat ∧ t.transfer k.toNat = none ∧
      (d.cls ≠ .commit → t.obj r.idx r.sub = d.value r.content) ∧ (d.cls = .commit → t.shadowObj r.idx r.sub = d.value r.content) ∧
      Only [.fresh, .wilwa, .sent, .objs, .sne, .fsq, .hdg] s t) ∧
  (∀ (s : State) h (k : BitVec 16) (c : BitVec 32) x r, Accepted s h 0x18 (u16 k.toNat ++ u16 0 ++ u32 c.toNat) x →
      s.transfer k.toNat = some r → r.sid = x.sid → r.download = true → r.acked < r.total →
    Refused (.transferEnd h k c) h 0x19 0x10090900 s) ∧
  (∀ (s : State) h (k : BitVec 16) (c : BitVec 32) x r, Accepted s h 0x18 (u16 k.toNat ++ u16 0 ++ u32 c.toNat) x →
      s.transfer k.toNat = some r → r.sid = x.sid → r.download = true → r.total ≤ r.acked → crc32c r.content ≠ c.toNat →
    ∃ t, exec (.transferEnd h k c) s = .next t ∧ Answered t 0x19 0x10090500 h.seq.toNat ∧ t.transfer k.toNat = none ∧
      t.wilwa.shadow = s.wilwa.shadow ∧ ObjsOnly [(0x1050, 1)] s t ∧ Only [.wilwa, .sent, .objs] s t) ∧
  (∀ (s : State) h (k : BitVec 16) (c : BitVec 32) x r, Accepted s h 0x18 (u16 k.toNat ++ u16 0 ++ u32 c.toNat) x →
      s.transfer k.toNat = some r → r.sid = x.sid → r.download = false →
    Refused (.transferEnd h k c) h 0x19 0x10090800 s) ∧
  (∀ (s : State) h (k : BitVec 16) (e : BitVec 32) x r, Admitted s h 0x1A (u16 k.toNat ++ u16 0 ++ u32 e.toNat) x →
      s.transfer k.toNat = some r → r.sid = x.sid →
    ∃ t, exec (.transferAbort h k e) s = .next t ∧ t.transfer k.toNat = none ∧ t.wilwa.shadow = s.wilwa.shadow ∧
      bit (t.num 0x1050 1) 3 = true ∧ ObjsOnly [(0x1050, 1)] s t ∧ Only [.wilwa, .objs] s t) ∧
  (∀ (s : State) (k : BitVec 16) r x, s.transfer k.toNat = some r → s.session r.sid = some x →
    ∃ t, exec (.transferTimeout k) s = .next t ∧ t.transfer k.toNat = none ∧ t.wilwa.shadow = s.wilwa.shadow ∧
      LastPayload t (u16 k.toNat ++ u16 0 ++ u32 0x10090600) ∧ ObjsOnly [(0x1050, 1)] s t ∧ Only [.wilwa, .sent, .objs] s t) ∧
  (∀ (s : State) (k : BitVec 16) r x, s.transfer k.toNat = some r → s.session r.sid = some x → r.download = false →
    r.acked < r.total →
      0 < r.segSize →
    ∃ t e rest, exec (.transferResendTimeout k) s = .next t ∧ t.sent = s.sent ++ .dgram e :: rest ∧ e.msgType = 0x16 ∧
      e.payload = u16 k.toNat ++ u16 0 ++ u32 r.acked ++ (r.data.drop r.acked).take r.segSize ∧ Only [.wilwa, .sent] s t)

/-- A commit (R75, R76): with the next generation, no commit pending and nothing against it, the generation is accepted and the shadow is
staged; an area with no per-bar objects has its values live together when the request is answered; a bar that does not print
takes its values up at once, and one that prints is pending. -/
def Obligations.CommitsTakeEffectTogether : Prop :=
  (∀ (s : State) h (a : BitVec 8) (g : BitVec 32) x, WriteTaken s h (a.toNat * 256) 1 (u32 g.toNat) x → isAdminArea a.toNat = true →
      s.mir.role ≠ .standby → g.toNat = ((s.adm a.toNat).generation + 1) % 2 ^ 32 → (s.adm a.toNat).result ≠ 1 →
      s.checkArea a.toNat s.shadowObj = none → (∀ e ∈ s.wilwa.shadow ++ s.wilwa.staged, e.1 / 65536 ≠ a.toNat) →
      (a.toNat = 0x2A → s.pwr.dev = .standby ∨ assignmentChanges s s.shadowObj = false) →
    ∃ t, exec (.commitRequest h a g) s = .next t ∧ Answered t 0x13 0 h.seq.toNat ∧
      t.adm a.toNat = { generation := g.toNat, result := 0, pending := 0, failIdx := 0, failSub := 0 } ∧
      bit (t.num 0x1050 1) 2 = true ∧ ObjsOnly [(0x1050, 1), (a.toNat * 256, 4)] s t ∧ Only [.wilwa, .sent, .objs, .mir] s t) ∧
  (∀ (s : State) h (a : BitVec 8) (g : BitVec 32) x, WriteTaken s h (a.toNat * 256) 1 (u32 g.toNat) x →
      a.toNat ∈ [0x22, 0x23, 0x25, 0x28, 0x2E, 0x2F, 0x31] → isAdminArea a.toNat = true → s.mir.role ≠ .standby →
      g.toNat = ((s.adm a.toNat).generation + 1) % 2 ^ 32 → (s.adm a.toNat).result ≠ 1 → s.checkArea a.toNat s.shadowObj = none →
    ∃ t, exec (.commitRequest h a g) s = .next t ∧ Answered t 0x13 0 h.seq.toNat ∧ (t.adm a.toNat).generation = g.toNat ∧
      (t.adm a.toNat).result = 0 ∧
      (∀ i j d v, j < 256 → i / 256 = a.toNat → findDesc i j = some d → d.cls = .commit →
        (key i j, v) ∈ s.wilwa.shadow → (∀ e ∈ s.wilwa.shadow ++ s.wilwa.staged, e.1 = key i j → e.2 = v) → t.obj i j = v) ∧
      Only [.fresh, .wilwa, .sent, .objs, .mir, .sne, .fsq, .hdg] s t) ∧
  (∀ (s : State) h (a : BitVec 8) (g : BitVec 32) x, WriteTaken s h (a.toNat * 256) 1 (u32 g.toNat) x →
    a.toNat ∈ [0x26, 0x27, 0x29, 0x2B] →
      s.mir.role ≠ .standby → g.toNat = ((s.adm a.toNat).generation + 1) % 2 ^ 32 → (s.adm a.toNat).result ≠ 1 →
      s.checkArea a.toNat s.shadowObj = none → (∃ e ∈ s.wilwa.shadow, e.1 / 65536 = a.toNat) →
    ∃ t, exec (.commitRequest h a g) s = .next t ∧ Answered t 0x13 0 h.seq.toNat ∧ (t.adm a.toNat).generation = g.toNat ∧
      (∀ b, b < 8 → bit (t.adm a.toNat).pending b = decide ((s.bar b).run = .printing)) ∧
      Only [.fresh, .wilwa, .sent, .objs, .mir, .cmp, .sne, .fsq, .hdg] s t)

/-- A commit that is refused (R75, R357): a generation out of turn leaves Result 3, a commit while one is pending leaves its Result 1, a
check between objects leaves Result 2 with the failing object, the standby of a pair takes none; shadow and staged values stay. -/
def Obligations.CommitsAreRefused : Prop :=
  (∀ (s : State) h (a : BitVec 8) (g : BitVec 32) x, WriteTaken s h (a.toNat * 256) 1 (u32 g.toNat) x → isAdminArea a.toNat = true →
      s.mir.role = .standby →
    Refused (.commitRequest h a g) h 0x13 (a.toNat * 2 ^ 24 + 0x3F100) s) ∧
  (∀ (s : State) h (a : BitVec 8) (g : BitVec 32) x, WriteTaken s h (a.toNat * 256) 1 (u32 g.toNat) x → isAdminArea a.toNat = true →
      s.mir.role ≠ .standby → g.toNat ≠ ((s.adm a.toNat).generation + 1) % 2 ^ 32 →
    ∃ t, exec (.commitRequest h a g) s = .next t ∧ Answered t 0x13 (a.toNat * 2 ^ 24 + 0x80100) h.seq.toNat ∧
      t.wilwa.shadow = s.wilwa.shadow ∧ t.wilwa.staged = s.wilwa.staged ∧ (t.adm a.toNat).generation = (s.adm a.toNat).generation ∧
      (t.adm a.toNat).result = (if (s.adm a.toNat).result = 1 then 1 else 3) ∧ Only [.wilwa, .sent] s t) ∧
  (∀ (s : State) h (a : BitVec 8) (g : BitVec 32) x, WriteTaken s h (a.toNat * 256) 1 (u32 g.toNat) x → isAdminArea a.toNat = true →
      s.mir.role ≠ .standby → g.toNat = ((s.adm a.toNat).generation + 1) % 2 ^ 32 → (s.adm a.toNat).result = 1 →
    Refused (.commitRequest h a g) h 0x13 (a.toNat * 2 ^ 24 + 0x50100) s) ∧
  (∀ (s : State) h (a : BitVec 8) (g : BitVec 32) x code i j, WriteTaken s h (a.toNat * 256) 1 (u32 g.toNat) x →
    isAdminArea a.toNat = true →
      s.mir.role ≠ .standby → g.toNat = ((s.adm a.toNat).generation + 1) % 2 ^ 32 → (s.adm a.toNat).result ≠ 1 →
      s.checkArea a.toNat s.shadowObj = some (code, i, j) →
      (a.toNat = 0x2A → s.pwr.dev = .standby ∨ assignmentChanges s s.shadowObj = false) →
    ∃ t, exec (.commitRequest h a g) s = .next t ∧ Answered t 0x13 code h.seq.toNat ∧ t.wilwa.shadow = s.wilwa.shadow ∧
      t.wilwa.staged = s.wilwa.staged ∧ (t.adm a.toNat).result = 2 ∧ (t.adm a.toNat).failIdx = i % 256 ∧
        (t.adm a.toNat).failSub = j ∧
      Only [.wilwa, .sent] s t)

/-- Emergencies and IrqCause (R82): an acknowledged record is dropped; one unacknowledged is sent again up to three times and then sets
EmergencyLost and raises F1012h; writing 1 to a bit of IrqCause clears it. -/
def Obligations.EmergenciesAndInterruptCauses : Prop :=
  (∀ (s : State) h (q : BitVec 32) x, Admitted s h 0x21 (u32 q.toNat) x →
    ∃ t y, exec (.emergencyAck h q) s = .next t ∧ t.session x.sid = some y ∧
      y.unacked = x.unacked.filter (fun u => u.seq != q.toNat) ∧
      t.seats = s.seats ∧ Only [.wilwa] s t) ∧
  (∀ (s : State) (i : BitVec 16) (q : BitVec 32) x u, s.session i.toNat = some x →
    x.unacked.find? (fun u => u.seq == q.toNat) = some u →
      u.resent < 3 →
    ∃ t y d, exec (.emergencyRetransmitTimeout i q) s = .next t ∧ t.session x.sid = some y ∧
      { u with resent := u.resent + 1 } ∈ y.unacked ∧ t.sent = s.sent ++ [.dgram d] ∧ d.msgType = 0x20 ∧ d.seq = q.toNat ∧
      bit d.flags 2 = true ∧ d.payload = u.record ∧ Only [.wilwa, .sent] s t) ∧
  (∀ (s : State) (i : BitVec 16) (q : BitVec 32) x u, s.session i.toNat = some x →
    x.unacked.find? (fun u => u.seq == q.toNat) = some u →
      3 ≤ u.resent →
    ∃ t y, exec (.emergencyRetransmitTimeout i q) s = .next t ∧ t.session x.sid = some y ∧ (∀ v ∈ y.unacked, v.seq ≠ q.toNat) ∧
      bit (t.num 0x1050 1) 6 = true ∧ (s.takesReports → Raised 0x1012 0 t) ∧
      ObjsOnly [(0x1050, 1), (0x2F10, 2), (0x2F10, 4)] s t ∧ Only [.wilwa, .objs, .flt, .bbx] s t) ∧
  (∀ (s : State) h (m : BitVec 32) x, WriteTaken s h 0x1050 1 (u32 m.toNat) x →
    ∃ t, exec (.irqCauseClear h m) s = .next t ∧ Answered t 0x13 0 h.seq.toNat ∧
      (∀ k, k < 32 → bit (t.num 0x1050 1) k = (bit (s.num 0x1050 1) k && !bit m.toNat k)) ∧ ObjsOnly [(0x1050, 1)] s t ∧
      Only [.wilwa, .sent, .objs] s t)

/-- Cyclic streams start bound to the session that sets TxRun or RxRun and stop when the bits are cleared; an offset not below the
period is refused (R79, R81). Credentials are kept as written (R69). -/
def Obligations.StreamsStartAndStop : Prop :=
  (∀ (s : State) h run x b, b = b2n run + b2n (s.cycRuns 1) * 2 → WriteTaken s h 0x6010 1 (u8 b) x →
    s.num 0x6010 3 < s.num 0x6010 2 →
      s.num 0x6010 4 < s.num 0x6010 2 →
    ∃ t, exec (.cyclicTxRunWrite h run) s = .next t ∧ Answered t 0x13 0 h.seq.toNat ∧ t.cycRuns 0 = run ∧
      t.cycRuns 1 = s.cycRuns 1 ∧ t.wilwa.cycSid = (if b = 0 then 0 else x.sid) ∧ ObjsOnly [(0x6010, 1)] s t ∧
      Only [.wilwa, .sent, .objs] s t) ∧
  (∀ (s : State) h run x b, b = b2n (s.cycRuns 0) + b2n run * 2 → WriteTaken s h 0x6010 1 (u8 b) x →
    s.num 0x6010 3 < s.num 0x6010 2 →
      s.num 0x6010 4 < s.num 0x6010 2 →
    ∃ t, exec (.cyclicRxRunWrite h run) s = .next t ∧ Answered t 0x13 0 h.seq.toNat ∧ t.cycRuns 1 = run ∧
      t.cycRuns 0 = s.cycRuns 0 ∧ t.wilwa.cycSid = (if b = 0 then 0 else x.sid) ∧ ObjsOnly [(0x6010, 1)] s t ∧
      Only [.wilwa, .sent, .objs] s t) ∧
  (∀ (s : State) h run x b, b = b2n run + b2n (s.cycRuns 1) * 2 → WriteTaken s h 0x6010 1 (u8 b) x →
      (s.num 0x6010 2 ≤ s.num 0x6010 3 ∨ s.num 0x6010 2 ≤ s.num 0x6010 4) →
    Refused (.cyclicTxRunWrite h run) h 0x13 0x60070200 s) ∧
  (∀ (s : State) h c x, WriteTaken s h 0x1030 1 c x →
    ∃ t, exec (.operatorCredentialWrite h c) s = .next t ∧ Answered t 0x13 0 h.seq.toNat ∧ t.nonVol.operator = some c ∧
      t.nonVol.service = s.nonVol.service ∧ Only [.wilwa, .sent, .nonVol] s t) ∧
  (∀ (s : State) h c x, WriteTaken s h 0x1030 2 c x →
    ∃ t, exec (.serviceCredentialWrite h c) s = .next t ∧ Answered t 0x13 0 h.seq.toNat ∧ t.nonVol.service = some c ∧
      t.nonVol.operator = s.nonVol.operator ∧ Only [.wilwa, .sent, .nonVol] s t)

/-- The cyclic schedule (R80): the transmit objects are sampled at a boundary not yet passed and sent with its stamp and the count of
transmit cycles; a receive datagram is held for its cycle and counted as late for any other; a cycle with none applied counts as
missed; the watchdog raises F1010h after as many missed cycles as it is set to. -/
def Obligations.CyclicStreamsRun : Prop :=
  (∀ s : State, s.serves = true → s.wilwa.cycSid ≠ 0 → s.cycRuns 0 = true →
      s.cyclePassed = false →
    ∃ t c, exec .cycleBoundary s = .next t ∧ t.wilwa.boundary = some (s.eNow - s.eNow % max 1 (s.num 0x6010 2)) ∧
      t.cyclePassed = true ∧
      t.wilwa.txSample = some c ∧ c.era * 2 ^ 32 + c.ns = s.eNow - s.eNow % max 1 (s.num 0x6010 2) ∧
      Only [.fresh, .objs, .wilwa] s t) ∧
  (∀ s : State, s.cyclePassed = true → exec .cycleBoundary s = .next s) ∧
  (∀ (s : State) c x, s.serves = true → s.cycRuns 0 = true → s.wilwa.txSample = some c → s.session s.wilwa.cycSid = some x →
    ∃ t d, exec .cyclicTransmit s = .next t ∧ t.sent = s.sent ++ [.dgram d] ∧ d.msgType = 0x30 ∧ d.cyclic = true ∧
      d.seq = s.num 0x6010 8 ∧ d.payload = u32 c.ns ++ u16 c.era ++ u16 0 ++ c.data ∧
      t.num 0x6010 8 = (s.num 0x6010 8 + 1) % 2 ^ 32 ∧ t.wilwa.txSample = none ∧ ObjsOnly [(0x6010, 8)] s t ∧
      Only [.sent, .objs, .wilwa] s t) ∧
  (∀ (s : State) h p x, Admitted s h 0x30 p x → x.sid = s.wilwa.cycSid → s.cycRuns 1 = true →
      p.length = 8 + s.mapSize 0x6001 (s.num 0x6001 0) →
    (s.rxCycle = leAt p 0 6 →
      ∃ t c, exec (.cyclicReceive h p) s = .next t ∧ t.wilwa.rxWaiting = some c ∧ c.data = p.drop 8 ∧ Only [.wilwa] s t) ∧
    (s.rxCycle ≠ leAt p 0 6 →
      ∃ t, exec (.cyclicReceive h p) s = .next t ∧ t.num 0x6010 6 = (s.num 0x6010 6 + 1) % 2 ^ 32 ∧
        t.wilwa.rxWaiting = s.wilwa.rxWaiting ∧ ObjsOnly [(0x6010, 6)] s t ∧ Only [.wilwa, .objs] s t)) ∧
  (∀ (s : State) b x, s.serves = true → s.cycRuns 1 = true → s.wilwa.rxApplied = false → s.wilwa.boundary = some b →
      s.session s.wilwa.cycSid = some x →
    ((∀ c, s.wilwa.rxWaiting = some c → c.era * 2 ^ 32 + c.ns ≠ b) →
      ∃ t, exec .cyclicRxApply s = .next t ∧ t.num 0x6010 7 = (s.num 0x6010 7 + 1) % 2 ^ 32 ∧ t.wilwa.rxApplied = true ∧
        t.wilwa.rxMissRun = s.wilwa.rxMissRun + 1 ∧ ObjsOnly [(0x6010, 7)] s t ∧ Only [.wilwa, .objs] s t) ∧
    (∀ c n d, s.wilwa.rxWaiting = some c → c.era * 2 ^ 32 + c.ns = b → s.num 0x6001 0 = 1 → n = s.num 0x6001 1 →
        findDesc (n / 65536) (n / 256 % 256) = some d → d.ty.size = some c.data.length → d.cls = .commit →
        s.writeError x (n / 65536) (n / 256 % 256) c.data true = none →
        (isAdminArea (n / 65536) && n / 65536 % 256 == 0 && n / 256 % 256 == 1) = false →
        hook x (n / 65536) (n / 256 % 256) (d.value c.data)
          { s with wilwa := { s.wilwa with rxApplied := true, rxMissRun := 0, rxWaiting := none } } = none →
      ∃ t, exec .cyclicRxApply s = .next t ∧ t.wilwa.rxApplied = true ∧ t.wilwa.rxMissRun = 0 ∧
        t.shadowObj (n / 65536) (n / 256 % 256) = d.value c.data ∧ Only [.wilwa] s t)) ∧
  (∀ s : State, s.num 0x6010 5 ≠ 0 → s.cycRuns 1 = true → s.num 0x6010 5 ≤ s.wilwa.rxMissRun →
    ∃ t, exec .cyclicRxWatchdogExpiry s = .next t ∧ t.wilwa.rxMissRun = 0 ∧ bit (t.num 0x1050 1) 5 = true ∧
      (s.takesReports → Raised 0x1010 0 t) ∧ ObjsOnly [(0x1050, 1), (0x2F10, 2), (0x2F10, 4)] s t ∧
      Only [.objs, .flt, .bbx, .wilwa] s t)
/-- The switch (R87, R88): a frame that arrives at an open port is counted, its source learned, and it leaves at its egress port, at once
where that sends nothing, else it waits in its queue; where the queue has no room it is discarded, counted and raises F2003h; a port
that is free sends from its highest queue first; a closed port passes nothing. -/
def Obligations.TheSwitchForwardsFrames : Prop :=
  (∀ (s : State) (p : Fin 3) f asks, s.on domNET = true → s.portOpen p.val = true →
    ∃ t, exec (.frameForward p f asks) s = .next t ∧
      (p.val ≠ 0 → t.num 0x2015 p.val = (s.num 0x2015 p.val + 1) % 2 ^ 32) ∧
      (p.val ≠ 0 → f.fcsOk = false → t.num 0x2016 p.val = (s.num 0x2016 p.val + 1) % 2 ^ 32) ∧
      (f.fcsOk = true → isGroup f.src = false → s.net.table.length < 1024 →
        kvGet t.net.table f.src.toNat = some { port := p.val, tick := s.tick }) ∧
      Only [.fresh, .sent, .objs, .flt, .bbx, .net] s t) ∧
  (∀ (s : State) (p : Fin 3) f asks o, s.on domNET = true → s.portOpen p.val = true → s.pdelayKept f = false →
    isGroup f.dst = false →
      f.dst.toNat ≠ s.fuses.mac → f.dst ≠ f.src → (kvGet s.net.table f.dst.toNat).map (·.port) = some o → o < 3 → o ≠ p.val →
      (o = 0 → asks = none) → s.portOpen o = true → f.fcsOk = true → f.length ≤ 1522 → s.num 0x2040 1 = 0 →
      (∀ k, k < 3 → k ≠ o → ∀ q, q < 4 → vget (s.egressPort k).queues q [] = []) →
    ((∀ q, q < 4 → vget (s.egressPort o).queues q [] = []) → (s.egressPort o).busy ≤ s.tick →
      ∃ t, exec (.frameForward p f asks) s = .next t ∧ t.sent = s.sent ++ [.frame o f] ∧ s.tick ≤ (t.egressPort o).busy ∧
        (∀ q, q < 4 → vget (t.egressPort o).queues q [] = []) ∧ ObjsOnly [(0x2015, p.val)] s t ∧
          Only [.fresh, .sent, .objs, .net] s t) ∧
    (s.tick < (s.egressPort o).busy →
        ((vget (s.egressPort o).queues (s.queueOf f) []).map (·.frame.length)).sum + f.length ≤ 32768 →
      ∃ t x, exec (.frameForward p f asks) s = .next t ∧ t.sent = s.sent ∧ x.frame = f ∧ x.port = p.val ∧ x.tick = s.tick ∧
        vget (t.egressPort o).queues (s.queueOf f) [] = vget (s.egressPort o).queues (s.queueOf f) [] ++ [x] ∧
        ObjsOnly [(0x2015, p.val)] s t ∧ Only [.objs, .net] s t) ∧
    (s.tick < (s.egressPort o).busy →
        32768 < ((vget (s.egressPort o).queues (s.queueOf f) []).map (·.frame.length)).sum + f.length →
      ∃ t, exec (.frameForward p f asks) s = .next t ∧ t.sent = s.sent ∧ t.net.egress = s.net.egress ∧
        t.num 0x2017 (s.queueOf f + 1) = (s.num 0x2017 (s.queueOf f + 1) + 1) % 2 ^ 32 ∧ (s.takesReports → Raised 0x2003 0 t) ∧
        Only [.objs, .flt, .bbx, .net] s t)) ∧
  (∀ (s : State) o q x rest, s.pending = [] → s.on domNET = true → s.on domHLK = false → (∀ b, b < 8 → (s.bar b).staging = []) →
      s.num 0x2040 1 = 0 → (o = 1 ∨ o = 2) → s.portOpen o = true → (s.egressPort o).busy ≤ s.tick + 1 → q < 4 →
      vget (s.egressPort o).queues q [] = x :: rest → (∀ r, q < r → r < 4 → vget (s.egressPort o).queues r [] = []) →
    ∃ t, step s = .next t ∧ .frame o x.frame ∈ t.sent ∧ vget (t.egressPort o).queues q [] = rest ∧
      Only [.tick, .fresh, .sent, .net] s t) ∧
  (∀ (s : State) (p : Fin 3) f asks, (s.on domNET = false ∨ s.portOpen p.val = false) → exec (.frameForward p f asks) s = .next s) ∧
  (∀ (s : State) (m : BitVec 48) l, kvGet s.net.table m.toNat = some l →
    (l.tick + 120000000000 ≤ s.tick →
      ∃ t, exec (.addressTableAgeing m) s = .next t ∧ kvGet t.net.table m.toNat = none ∧
        (∀ k, k ≠ m.toNat → kvGet t.net.table k = kvGet s.net.table k) ∧ Only [.net] s t) ∧
    (s.tick < l.tick + 120000000000 → exec (.addressTableAgeing m) s = .next s))

/-- Links and the PHY bus (R90, R108, R112): link status follows the link, its loss raises F2001h or F2002h; committed addresses take effect
after their delay; an MDIO command starts one transaction, is refused while one runs, and a read leaves its data. -/
def Obligations.LinksAndThePhyBus : Prop :=
  (∀ (s : State) (p : Fin 2) (v : BitVec 2) d a, s.on domNET = true → s.num 0x2010 (p.val + 1) ≠ 0 →
    ∃ t, exec (.networkLinkUp p v d a) s = .next t ∧ t.linkUp (p.val + 1) = true ∧
      bits (t.num 0x2012 (p.val + 1)) 14 12 = v.toNat ∧ bit (t.num 0x2012 (p.val + 1)) 11 = d ∧
      bit (t.num 0x2012 (p.val + 1)) 10 = a ∧ ObjsOnly [(0x2012, 1), (0x2012, 2)] s t ∧ Only [.objs] s t) ∧
  (∀ (s : State) (p : Fin 2) (v : BitVec 2) d a, (s.on domNET = false ∨ s.num 0x2010 (p.val + 1) = 0) →
    exec (.networkLinkUp p v d a) s = .next s) ∧
  (∀ (s : State) (p : Fin 2), s.on domNET = true → s.linkUp (p.val + 1) = true →
    ∃ t, exec (.networkLinkLost p) s = .next t ∧ t.linkUp (p.val + 1) = false ∧
      (s.takesReports → Raised (0x2001 + p.val) 0 t) ∧
      ObjsOnly [(0x2012, 1), (0x2012, 2), (0x2F10, 2), (0x2F10, 4)] s t ∧ Only [.objs, .flt, .bbx] s t) ∧
  (∀ (s : State) (p : Fin 2), s.linkUp (p.val + 1) = false → exec (.networkLinkLost p) s = .next s) ∧
  (∀ s : State, (s.adm 0x20).result = 1 →
    ∃ t, exec .addressChangeEffect s = .next t ∧ (t.adm 0x20).result = 0 ∧ (t.adm 0x20).pending = 0 ∧
      bit (t.num 0x1050 1) 2 = true ∧
      (∀ e ∈ t.wilwa.staged, e.1 / 65536 ≠ 0x20) ∧ Only [.fresh, .objs, .wilwa, .sne, .fsq, .hdg] s t) ∧
  (∀ s : State, (s.adm 0x20).result ≠ 1 → exec .addressChangeEffect s = .next s) ∧
  (∀ (s : State) h (phy reg : BitVec 5) (data : BitVec 16) x op c,
      (op, c) ∈ [(0, Instr.mdioC22Write h phy reg data), (1, .mdioC22Read h phy reg data), (4, .mdioC45Address h phy reg data),
        (5, .mdioC45Write h phy reg data), (7, .mdioC45Read h phy reg data)] →
      WriteTaken s h 0x2050 1 (u32 (op * 2 ^ 29 + phy.toNat * 2 ^ 24 + reg.toNat * 2 ^ 16 + data.toNat)) x →
    (s.net.mdio = none →
      ∃ t d, exec c s = .next t ∧ Answered t 0x13 0 h.seq.toNat ∧
        t.net = { s.net with mdio := some { op := op, phy := phy.toNat, reg := reg.toNat, data := data.toNat } } ∧
        t.sent = s.sent ++ [.mdio op phy.toNat reg.toNat data.toNat, .dgram d] ∧ Only [.wilwa, .sent, .net] s t) ∧
    (s.net.mdio ≠ none → Refused c h 0x13 0x20050000 s)) ∧
  (∀ (s : State) m (d : BitVec 16), s.net.mdio = some m → s.on domNET = true → (m.op = 1 ∨ m.op = 7) →
    (∃ t, exec (.mdioTransactionDone (some d)) s = .next t ∧ t.num 0x2050 2 = d.toNat ∧ t.net = { s.net with mdio := none } ∧
      ObjsOnly [(0x2050, 2)] s t ∧ Only [.objs, .net] s t) ∧
    (∃ t, exec (.mdioTransactionDone none) s = .next t ∧ t.num 0x2050 2 = 0xFFFF ∧ t.net = { s.net with mdio := none } ∧
      ObjsOnly [(0x2050, 2)] s t ∧ Only [.objs, .net] s t)) ∧
  (∀ (s : State) m a, s.net.mdio = some m → m.op ≠ 1 → m.op ≠ 7 →
    exec (.mdioTransactionDone a) s = .next { s with net := { s.net with mdio := none } })

/-- The messages of the time protocol (R93, R94, R96, R98): an Announce enters its domain's foreign masters and the best one is selected;
a Sync that steps nothing publishes the servo's new increment at least 64 ticks ahead; a two-step Sync waits for its Follow_Up;
delay requests leave, tagged with PCP 7 where own traffic is (R89), and their answers give samples. The mapping of a peer delay
message before any Sync is the model's choice (assumption 67). -/
def Obligations.TimeProtocolMessages : Prop :=
  (∀ (s : State) (a : Announce), s.on domNET = true → s.domainUsed a.domain.toNat = true →
    bit (s.num 0x2120 3) a.mapping.toNat = true →
    ∃ t, exec (.announceReceived a) s = .next t ∧
      (∃ f ∈ (t.ptpDom a.domain.toNat).foreign, f.ann = a ∧ f.last = s.tick) ∧
      (∀ b, bestMaster (t.ptpDom a.domain.toNat).foreign s.tick (s.num 0x2120 11) = some b →
        (t.ptpDom a.domain.toNat).master = some b) ∧
      Only [.fresh, .objs, .flt, .bbx, .tim] s t) ∧
  (∀ (s : State) (m : PtpMsg), s.fromMaster m = true → m.twoStep = true →
    ∃ t w, exec (.syncReceived m) s = .next t ∧ (t.ptpDom m.domain.toNat).twoStep = some w ∧ w.sender = m.sender ∧ w.seq = m.seq ∧
      w.t2 = s.anchor.at s.tick ∧ Only [.tim] s t) ∧
  (∀ (s : State) (m : PtpMsg), s.fromMaster m = true → m.twoStep = false → m.domain.toNat = s.nativeDomain → s.num 0x2120 12 = 1 →
      s.num 0x2120 8 = 0 → (s.num 0x2120 2 = 2 ∨ (s.ptpDom m.domain.toNat).mpd.isSome = true) →
    ∃ t n, exec (.syncReceived m) s = .next t ∧ t.tim.announced.head? = some n ∧ s.tick + 64 ≤ n.tick ∧
      n.inc = incrementOf t.tim.native.f ∧
      (t.tim.native.f.natAbs : Int) ≤ s.num 0x2120 6 * 2 ^ 16 ∧ (t.tim.native.i.natAbs : Int) ≤ s.num 0x2120 6 * 2 ^ 16 ∧
      (t.tim.native.st = .acquiring ∨ t.tim.native.st = .locked) ∧ t.tim.native.stepCount = s.tim.native.stepCount ∧
      Only [.fresh, .objs, .flt, .bbx, .tim, .che] s t) ∧
  (∀ (s : State) (m : PtpMsg) w, s.fromMaster m = true → (s.ptpDom m.domain.toNat).twoStep = some w → w.sender = m.sender →
    w.seq = m.seq →
    ∃ t l, exec (.followUpReceived m) s = .next t ∧ (t.ptpDom m.domain.toNat).twoStep = none ∧
      (t.ptpDom m.domain.toNat).lastSync = some l ∧ l.t1 = m.time ∧ l.correction = w.correction + m.correction ∧
      Only [.fresh, .objs, .flt, .bbx, .tim, .che] s t) ∧
  (∀ (s : State) (m : PtpMsg) r l, s.fromMaster m = true → s.num 0x2120 2 = 1 → (s.ptpDom m.domain.toNat).req = some r →
      (s.ptpDom m.domain.toNat).lastSync = some l → r.seq = m.seq.toNat →
    ∃ t, exec (.delayRespReceived m) s = .next t ∧ (t.ptpDom m.domain.toNat).req = none ∧
      (t.ptpDom m.domain.toNat).mpd.isSome = true ∧ Only [.fresh, .tim] s t) ∧
  (∀ (s : State) (d : BitVec 8) a l, (s.ptpDom d.toNat).master = some a → (s.ptpDom d.toNat).lastSync = some l →
    s.on domNET = true →
      s.domainUsed d.toNat = true → s.num 0x2120 2 = 1 →
    ∃ t r, exec (.delayReqIntervalExpiry d) s = .next t ∧
      t.sent = s.sent ++
        [.ptp { kind := .delayReq, port := l.port, mapping := l.mapping, domain := d.toNat, vlan := s.ownTag 7,
                seq := (s.ptpDom d.toNat).reqSeq, correction := 0, time := some (r.t3 / 2 ^ 16).toNat }] ∧
      (t.ptpDom d.toNat).req = some r ∧ r.seq = (s.ptpDom d.toNat).reqSeq ∧
      (t.ptpDom d.toNat).reqSeq = ((s.ptpDom d.toNat).reqSeq + 1) % 2 ^ 16 ∧ Only [.fresh, .sent, .tim] s t) ∧
  (∀ (s : State) (m : PtpMsg), s.peerDelay = true → (m.port.toNat = 1 ∨ m.port.toNat = 2) →
    ∃ t w, exec (.pdelayReqReceived m) s = .next t ∧
      t.sent = s.sent ++
        [.ptp { kind := .pdelayResp, port := m.port.toNat, mapping := s.ownMapping m.mapping.toNat, domain := m.domain.toNat,
                seq := m.seq.toNat, time := some 0, vlan := s.ownTag 7,
                correction := m.correction + (s.txTime m.port.toNat w - s.rxTime (s.anchor.at s.tick) m.port.toNat) }] ∧
      Only [.fresh, .sent] s t) ∧
  (∀ (s : State) (p : Fin 2), s.peerDelay = true →
    ∃ t r, exec (.pdelayReqIntervalExpiry p) s = .next t ∧
      t.sent = s.sent ++
        [.ptp { kind := .pdelayReq, port := p.val + 1, mapping := s.ownMapping 0, domain := s.nativeDomain,
                seq := s.net.pdelaySeq, correction := 0, time := none, vlan := s.ownTag 7 }] ∧
      vget t.net.pdelayReq p.val none = some r ∧ r.seq = s.net.pdelaySeq ∧
      t.net.pdelaySeq = (s.net.pdelaySeq + 1) % 2 ^ 16 ∧ Only [.fresh, .sent, .net] s t) ∧
  (∀ (s : State) (m : PtpMsg) t2 t3 r, s.peerDelay = true → (m.port.toNat = 1 ∨ m.port.toNat = 2) →
      vget s.net.pdelayReq (m.port.toNat - 1) none = some r → r.seq = m.seq.toNat →
    ∃ t, exec (.pdelayRespReceived m t2 t3) s = .next t ∧ vget t.net.pdelayReq (m.port.toNat - 1) none = none ∧
      (∀ p, p ≠ m.port.toNat - 1 → vget t.net.linkDelay p 0 = vget s.net.linkDelay p 0) ∧ Only [.fresh, .net] s t)

/-- The native clock (R99 to R101, R104, R105): a lost master sends a running clock to HOLDOVER at its last integral rate with F2101h;
TimeSet steps it while the servo is off and a step is allowed, else it is refused; ServoEnable 0 sends it to FREERUN; LegacyLatch
captures all five times on one tick; a new era, and a step once its anchor tick is reached, is marked with F2180h. -/
def Obligations.TheNativeClock : Prop :=
  (∀ (s : State) (d : BitVec 8) a, s.on domNET = true → s.nativeDomain = d.toNat → (s.ptpDom d.toNat).master = some a →
      (s.tim.native.st = .acquiring ∨ s.tim.native.st = .locked) →
    ∃ t n, exec (.masterLostTimeout d) s = .next t ∧ t.tim.native.st = .holdover ∧ t.tim.native.i = s.tim.native.i ∧
      t.tim.announced.head? = some n ∧ n.inc = holdoverInc s.tim.native.i ∧ (s.takesReports → Raised 0x2101 1 t) ∧
      (∀ b, (t.ptpDom d.toNat).master = some b → b.sender ≠ a.sender) ∧ Only [.fresh, .objs, .flt, .bbx, .tim] s t) ∧
  (∀ (s : State) h b x, WriteTaken s h 0x2130 1 b x → s.num 0x2120 12 ≠ 1 → s.stepAllowed = true →
    ∃ t n, exec (.timeSet h b) s = .next t ∧ Answered t 0x13 0 h.seq.toNat ∧ t.tim.announced.head? = some n ∧
      n.inc = s.lastAnchor.inc ∧
      s.tick + 64 ≤ n.tick ∧ n.e = leNat b * 2 ^ 32 + (n.tick - s.tick) * n.inc ∧
      t.tim.native.stepCount = s.tim.native.stepCount + 1 ∧
        t.tim.steps = s.tim.steps ++ [(n.tick, n.e / 2 ^ 32 % 2 ^ 48 / 2 ^ 32)] ∧
      (s.takesReports → Raised 0x2103 0 t) ∧
      Only [.fresh, .wilwa, .sent, .objs, .flt, .bbx, .tim, .che] s t) ∧
  (∀ (s : State) h b x, WriteTaken s h 0x2130 1 b x → (s.num 0x2120 12 = 1 ∨ s.stepAllowed = false) →
    Refused (.timeSet h b) h 0x13 0x21040100 s) ∧
  (∀ (s : State) h x, WriteTaken s h 0x2120 12 (u8 0) x →
    ∃ t, exec (.servoEnableWrite h false) s = .next t ∧ Answered t 0x13 0 h.seq.toNat ∧ t.num 0x2120 12 = 0 ∧
      t.tim.native.st = .freerun ∧ t.tim.announced = s.tim.announced ∧ t.tim.anchor = s.tim.anchor ∧ ObjsOnly [(0x2120, 12)] s t ∧
      Only [.wilwa, .sent, .objs, .tim] s t) ∧
  (∀ (s : State) h x, WriteTaken s h 0x2120 12 (u8 1) x →
    ∃ t, exec (.servoEnableWrite h true) s = .next t ∧ Answered t 0x13 0 h.seq.toNat ∧ t.num 0x2120 12 = 1 ∧
      ObjsOnly [(0x2120, 12)] s t ∧ Only [.wilwa, .sent, .objs] s t) ∧
  (∀ (s : State) h x, WriteTaken s h 0x5000 1 (u8 1) x →
    ∃ t, exec (.legacyLatch h) s = .next t ∧ Answered t 0x13 0 h.seq.toNat ∧ t.num 0x5001 1 = s.eNow ∧
      (∀ b, b < 4 → t.num 0x5001 (2 + b) = s.legacyNow.getD b 0 / 2 ^ 32 % 2 ^ 64) ∧
      ObjsOnly [(0x5001, 1), (0x5001, 2), (0x5001, 3), (0x5001, 4), (0x5001, 5)] s t ∧ Only [.wilwa, .sent, .objs] s t) ∧
  (∀ s : State, s.on domNET = true → (∀ e ∈ s.tim.steps, s.tick < e.1) → s.eNow / 2 ^ 32 ≠ s.tim.markedEra →
    ∃ t, exec .eraWrap s = .next t ∧ t.tim.markedEra = s.eNow / 2 ^ 32 ∧ t.tim.wraps = s.tim.wraps + 1 ∧
      (s.takesReports → Raised 0x2180 0 t) ∧ ObjsOnly [(0x2F10, 2), (0x2F10, 4)] s t ∧ Only [.objs, .flt, .bbx, .tim] s t) ∧
  (∀ (s : State) e, s.on domNET = true → s.tim.steps = [e] → e.1 ≤ s.tick → e.2 = s.eNow / 2 ^ 32 →
    ∃ t, exec .eraWrap s = .next t ∧ t.tim.steps = [] ∧ t.tim.markedEra = e.2 ∧ t.tim.wraps = s.tim.wraps ∧
      (s.takesReports → Raised 0x2180 0 t) ∧ ObjsOnly [(0x2F10, 2), (0x2F10, 4)] s t ∧ Only [.objs, .flt, .bbx, .tim] s t) ∧
  (∀ s : State, (s.on domNET = false ∨ ((∀ e ∈ s.tim.steps, s.tick < e.1) ∧ s.eNow / 2 ^ 32 = s.tim.markedEra)) →
    exec .eraWrap s = .next s)
/-- The Raster port's intake (R114, R115, R120 to R122, R126, R129): a valid block with room is stored; one that its slot refuses, one
with no room, and one with a wrong trailer are acknowledged with their status and not stored; words of an overrun are counted;
a block that the intake's closing caught is acknowledged Aborted. -/
def Obligations.RasterBlocksAreTakenIn : Prop :=
  (∀ (s : State) (b : RasterBlock) (k : Nat), s.intakeOpen = true → s.rin.overrun = false → headerValid b = true →
    s.slotCheck b = (0, k) →
      s.fill + blockWords b ≤ 262144 → trailerValid b = true →
    ∃ t y, exec (.rasterBlockReceived b) s = .next t ∧ t.rin.fifo = s.rin.fifo ++ [y] ∧ y.sequence = b.sequence.toNat ∧
      y.payload = b.payload ∧ y.slot = k ∧ y.taken = .waiting ∧ y.fwd = false ∧
      (s.slotStream k = true → k < 2 → ∀ i, i < 8 → barsOf b.barMask.toNat = [i] →
        (vget (t.slot k).streams i Stream.start).expected = b.firstLine.toNat + b.lineCount.toNat) ∧ Only [.objs, .rin] s t) ∧
  (∀ (s : State) (b : RasterBlock) (st : Nat) (k : Nat), s.intakeOpen = true → s.rin.overrun = false → headerValid b = true →
    s.slotCheck b = (st, k) → st ≠ 0 → s.fill < 262144 →
    ∃ t r, exec (.rasterBlockReceived b) s = .next t ∧ t.sent = s.sent ++ [.raster r] ∧ r.take 2 = u8 0x81 ++ u8 st ∧
      t.rin.fifo = s.rin.fifo ∧ ((st = 3 ∨ st = 4 ∨ st = 5) → s.takesReports → Raised 0x2206 0 t) ∧
      Only [.sent, .objs, .flt, .bbx, .rin] s t) ∧
  (∀ (s : State) (b : RasterBlock) (k : Nat), s.intakeOpen = true → s.rin.overrun = false → headerValid b = true →
    s.slotCheck b = (0, k) →
      262144 < s.fill + blockWords b → (s.fill < 262144 ∨ b.skipped = 0) →
    ∃ t r, exec (.rasterBlockReceived b) s = .next t ∧ t.sent = s.sent ++ [.raster r] ∧ r.take 2 = u8 0x81 ++ u8 2 ∧
      t.rin.fifo = s.rin.fifo ∧ (s.takesReports → Raised 0x2201 0 t) ∧ Only [.sent, .objs, .flt, .bbx, .rin] s t) ∧
  (∀ (s : State) (b : RasterBlock) (k : Nat), s.intakeOpen = true → s.rin.overrun = false → headerValid b = true →
    s.slotCheck b = (0, k) →
      s.fill + blockWords b ≤ 262144 → trailerValid b = false →
    ∃ t r, exec (.rasterBlockReceived b) s = .next t ∧ t.sent = s.sent ++ [.raster r] ∧ r.take 2 = u8 0x81 ++ u8 1 ∧
      t.rin.fifo = s.rin.fifo ∧ (s.takesReports → Raised 0x2202 0 t) ∧ Only [.sent, .objs, .flt, .bbx, .rin] s t) ∧
  (∀ (s : State) (b : RasterBlock), s.intakeOpen = true → s.rin.overrun = true → s.rin.xon = false → s.num 0x2220 3 * 32 < s.fill →
    ∃ t, exec (.rasterBlockReceived b) s = .next t ∧
      t.num 0x2220 6 = (s.num 0x2220 6 + (b.skipped + blockWords b)) % 2 ^ 32 ∧
      ObjsOnly [(0x2220, 6), (0x2221, 1), (0x2221, 2), (0x2221, 3), (0x2221, 4)] s t ∧ Only [.objs] s t) ∧
  (∀ (s : State) (b : RasterBlock) (k : Nat), s.intakeOpen = false → s.on domRFE = true → b.begun = true → s.rin.overrun = false →
    headerValid b = true → s.slotCheck b = (0, k) →
    ∃ t r, exec (.rasterBlockReceived b) s = .next t ∧ t.sent = s.sent ++ [.raster r] ∧ r.take 2 = u8 0x81 ++ u8 8 ∧
      Only [.fresh, .sent, .objs] s t) ∧
  (∀ (s : State) (b : RasterBlock), s.intakeOpen = false → b.begun = false → exec (.rasterBlockReceived b) s = .next s) ∧
  (∀ s : State, s.on domRFE = true → (s.pwr.trans = some .training ∨ s.rin.retrain = true) →
    ∃ t, exec .rasterLinkUp s = .next t ∧ t.rin.linkUp = true ∧ t.rin.locked = 15 ∧ Only [.rin] s t) ∧
  (∀ s : State, (s.on domRFE = false ∨ (s.pwr.trans ≠ some .training ∧ s.rin.retrain = false)) → exec .rasterLinkUp s = .next s) ∧
  (∀ s : State, s.on domRFE = true → s.rin.linkUp = true →
    ∃ t, exec .rasterLinkLost s = .next t ∧ t.rin.linkUp = false ∧ t.rpXon = false ∧ (s.takesReports → Raised 0x2203 0 t) ∧
      Only [.fresh, .objs, .flt, .bbx, .rin] s t) ∧
  (∀ (s : State) (h : Hdr) (e : Bool) (x : Session), WriteTaken s h 0x2220 1 (u8 (b2n e)) x →
    ∃ t, exec (.intakeEnableWrite h e) s = .next t ∧ Answered t 0x13 0 h.seq.toNat ∧ t.num 0x2220 1 = b2n e ∧
      (e = false → t.rpXon = false) ∧ t.rin.fifo = s.rin.fifo ∧ ObjsOnly [(0x2220, 1)] s t ∧ Only [.wilwa, .sent, .objs, .rin] s t)

/-- The local consumers of visible blocks (R118, R123, R125, R127, R129): the job writer stores a block of a store slot and the stream
decoder puts one into its bar's window; a codec error is raised and marked; a block whose slot is gone is unknown; each waits where
it cannot serve. The oldest block leaves once it is done with. -/
def Obligations.BlocksAreConsumed : Prop :=
  (∀ (s : State) i y k lines, s.nextBlock = some (i, y) → s.matchSlot y.jobId y.generation = some k → s.on domRFE = true →
      s.slotStream k = false → (s.slot k).st = .loading →
      (∀ b ∈ barsOf y.barMask, ∀ j < y.lineCount, s.memTakes (s.lineAddr k b (y.firstLine + j)) (s.pitch k) 1 = true) →
      s.decodeBlock { y with slot := k } = .ok lines →
    ∃ t, exec .jobWriterBlock s = .next t ∧ (t.rin.fifo[i]?).map (·.taken) = some .stored ∧
      (∀ e ∈ lines, kvGet (t.slot k).valid (lineKey e.1 e.2.1) = some ()) ∧ t.rin.writerWaiting = false ∧
      Only [.sent, .objs, .rin, .mem, .dram, .mir] s t) ∧
  (∀ (s : State) i y k b d, s.nextBlock = some (i, y) → s.matchSlot y.jobId y.generation = some k → s.on domRFE = true →
      s.slotStream k = false → (s.slot k).st = .loading →
      (∀ b ∈ barsOf y.barMask, ∀ j < y.lineCount, s.memTakes (s.lineAddr k b (y.firstLine + j)) (s.pitch k) 1 = true) →
      s.decodeBlock { y with slot := k } = .error (b, d) →
    ∃ t, exec .jobWriterBlock s = .next t ∧ (t.rin.fifo[i]?).map (·.taken) = some .codecError ∧
      (∀ b ∈ barsOf y.barMask, ∀ j < y.lineCount, kvGet (t.slot k).valid (lineKey b (y.firstLine + j)) = none) ∧
      (s.takesReports → Raised 0x2204 0 t) ∧ Only [.fresh, .sent, .objs, .flt, .bbx, .rin, .mem, .dram, .mir] s t) ∧
  (∀ (s : State) i y k b j, s.nextBlock = some (i, y) → s.matchSlot y.jobId y.generation = some k → s.on domRFE = true →
      s.slotStream k = false → (s.slot k).st = .loading → b ∈ barsOf y.barMask → j < y.lineCount →
      s.memTakes (s.lineAddr k b (y.firstLine + j)) (s.pitch k) 1 = false →
    exec .jobWriterBlock s = .next { s with rin := { s.rin with writerWaiting := true } }) ∧
  (∀ (s : State) i y, s.nextBlock = some (i, y) → s.matchSlot y.jobId y.generation = none → s.on domRFE = true →
    (y.kind = 0 → ∃ t, exec .jobWriterBlock s = .next t ∧ (t.rin.fifo[i]?).map (·.taken) = some .unknownJob ∧
      Only [.sent, .objs, .flt, .bbx, .rin, .mir] s t) ∧
    (y.kind ≠ 0 → ∃ t, exec .streamDecodeBlock s = .next t ∧ (t.rin.fifo[i]?).map (·.taken) = some .unknownJob ∧
      Only [.sent, .objs, .flt, .bbx, .rin, .mir] s t)) ∧
  (∀ (s : State) i y k b, s.nextBlock = some (i, y) → s.matchSlot y.jobId y.generation = some k → s.on domRFE = true →
      s.slotStream k = true → ((s.slot k).st = .ready ∨ (s.slot k).st = .printing ∨ (s.slot k).st = .draining) →
      barsOf y.barMask = [b] → b < 8 →
    (2 ≤ (vget s.rin.windows b []).length →
      exec .streamDecodeBlock s = .next { s with rin := { s.rin with blockedBar := some b } }) ∧
    ((vget s.rin.windows b []).length < 2 → s.allServe = true → ∀ lines, s.decodeBlock { y with slot := k } = .ok lines →
      ∃ t, exec .streamDecodeBlock s = .next t ∧ (t.rin.fifo[i]?).map (·.taken) = some .stored ∧
        vget t.rin.windows b [] = vget s.rin.windows b [] ++
          [{ slot := k, first := y.firstLine, lines := lines.map fun e => some e.2.2, fetched := 0 }] ∧
        Only [.sent, .objs, .rin, .flt, .bbx, .mir] s t) ∧
    ((vget s.rin.windows b []).length < 2 → s.allServe = true → ∀ e, s.decodeBlock { y with slot := k } = .error e →
      ∃ t, exec .streamDecodeBlock s = .next t ∧ (t.rin.fifo[i]?).map (·.taken) = some .codecError ∧
        (s.takesReports → Raised 0x2204 0 t) ∧ Only [.sent, .objs, .rin, .flt, .bbx, .mir] s t)) ∧
  (∀ (s : State) y rest, s.rin.fifo = y :: rest → s.on domRFE = true → y.taken ≠ .waiting → (s.forwarding y.slot = true →
    y.acked = true) →
    ∃ t, exec .blockRelease s = .next t ∧ t.rin.fifo = rest ∧
      (y.taken = .stored → y.fwd = false → ∃ r, t.sent = s.sent ++ [.raster r] ∧ r.take 2 = u8 0x81 ++ u8 0) ∧
      (y.taken ≠ .stored → t.sent = s.sent) ∧ Only [.sent, .objs, .flt, .bbx, .rin] s t) ∧
  (∀ s : State, s.rin.fifo = [] → exec .blockRelease s = .next s)

/-- The forwarder of a pair (R124): a visible block not yet sent goes out while fewer than four wait for their acknowledgement; a missing
or negative acknowledgement sends again from the oldest, and the third failure of one block stops the forwarder with F2205h. -/
def Obligations.BlocksAreForwarded : Prop :=
  (∀ (s : State) i y, ((List.range s.rin.fifo.length).zip s.rin.fifo).find? (fun e => !e.2.sent) = some (i, y) →
    s.on domRFE = true →
      s.forwarding y.slot = true → s.outstanding < 4 →
    ∃ t, exec .forwardBlock s = .next t ∧ (t.rin.fifo[i]?).map (·.sent) = some true ∧
      t.sent.length = s.sent.length + ceilDiv y.toBytes.length 65504 ∧ Only [.sent, .rin, .mir] s t) ∧
  (∀ s : State, 4 ≤ s.outstanding → exec .forwardBlock s = .next s) ∧
  (∀ (s : State) i y c, c ∈ [Instr.forwardAckTimeout, .fackReceived (BitVec.ofNat 32 y.sequence) 7 false] → y.sequence < 2 ^ 32 →
      ((List.range s.rin.fifo.length).zip s.rin.fifo).find? (fun e => e.2.sent && !e.2.acked) = some (i, y) → s.on domRFE = true →
      s.on domMIR = true → s.rin.fwdStopped = false → (c = .forwardAckTimeout → s.forwarding y.slot = true) →
    ∃ t, exec c s = .next t ∧ t.outstanding = 0 ∧ (t.rin.fifo[i]?).map (·.fails) = some (y.fails + 1) ∧
      t.rin.fwdStopped = decide (3 ≤ y.fails + 1) ∧ (3 ≤ y.fails + 1 → s.takesReports → Raised 0x2205 0 t) ∧
      Only [.objs, .flt, .bbx, .rin] s t) ∧
  (∀ (s : State) (q : BitVec 32) (st : BitVec 8) i y, ((List.range s.rin.fifo.length).zip s.rin.fifo).find?
        (fun e => e.2.sent && !e.2.acked && e.2.sequence == q.toNat) = some (i, y) → s.on domRFE = true → s.on domMIR = true →
    ∃ t, exec (.fackReceived q st true) s = .next t ∧ (t.rin.fifo[i]?).map (·.acked) = some true ∧
      (t.rin.fifo[i]?).map (·.partner) = some (some st.toNat) ∧ Only [.rin] s t) ∧
  (∀ (s : State) h x, WriteTaken s h 0x2220 10 (u8 1) x →
    ∃ t, exec (.forwardRestart h) s = .next t ∧ Answered t 0x13 0 h.seq.toNat ∧ t.rin.fwdStopped = false ∧
      (∀ y ∈ t.rin.fifo, y.fails = 0) ∧ Only [.wilwa, .sent, .rin] s t)

/-- The job slots (R127, R128, R130, R132): a slot opens where its descriptor fits, is sealed with no line missing, is cleared while it is
not queued; the seal pass makes it READY with its checksum; a READY slot is queued; each command out of place is refused. -/
def Obligations.SlotsAreOpenedSealedAndQueued : Prop :=
  (∀ (s : State) h (k : Fin 2) x, WriteTaken s h 0x221A (k.val + 1) (u8 1) x → (s.slot k).st = .empty →
      (s.slotStream k = false → (barsOf (s.slotMask k)).length * s.plane k ≤ s.slotCapacity) →
      ((s.slot (1 - k.val)).st ≠ .empty →
        s.num 0x2210 (k.val + 1) ≠ s.num 0x2210 (2 - k.val) ∨ s.num 0x2218 (k.val + 1) ≠ s.num 0x2218 (2 - k.val)) →
      s.storeLimits k = true →
    ∃ t, exec (.slotOpen h k) s = .next t ∧ Answered t 0x13 0 h.seq.toNat ∧
      (t.slot k).st = (if s.slotStream k = true then .ready else .loading) ∧ (t.slot k).valid = [] ∧
      Only [.wilwa, .sent, .rin, .mir] s t) ∧
  (∀ (s : State) h (k : Fin 2) x, WriteTaken s h 0x221A (k.val + 1) (u8 2) x → (s.slot k).st = .loading → s.linesMissing k = 0 →
    ∃ t, exec (.slotSeal h k) s = .next t ∧ Answered t 0x13 0 h.seq.toNat ∧ (t.slot k).st = .sealing ∧
      (t.slot k).valid = (s.slot k).valid ∧ Only [.wilwa, .sent, .rin, .mir] s t) ∧
  (∀ (s : State) h (k : Fin 2) x, WriteTaken s h 0x221A (k.val + 1) (u8 3) x →
      ((s.slot k).st = .loading ∨ (s.slot k).st = .sealing ∨ (s.slot k).st = .ready) → s.num 0x2410 1 ≠ k.val →
    ∃ t, exec (.slotClear h k) s = .next t ∧ Answered t 0x13 0 h.seq.toNat ∧ t.slot k = Slot.start ∧
      Only [.wilwa, .sent, .rin, .mir] s t) ∧
  (∀ (s : State) h (k : Fin 2) x, WriteTaken s h 0x221A (k.val + 1) (u8 1) x → (s.slot k).st ≠ .empty →
    Refused (.slotOpen h k) h 0x13 (0x22030100 + k.val) s) ∧
  (∀ (s : State) h (k : Fin 2) x, WriteTaken s h 0x221A (k.val + 1) (u8 2) x →
    ((s.slot k).st ≠ .loading → Refused (.slotSeal h k) h 0x13 (0x22030100 + k.val) s) ∧
    ((s.slot k).st = .loading → s.linesMissing k ≠ 0 → Refused (.slotSeal h k) h 0x13 (0x22040200 + k.val) s)) ∧
  (∀ (s : State) h (k : Fin 2) x, WriteTaken s h 0x221A (k.val + 1) (u8 3) x →
      ((s.slot k).st = .empty ∨ (s.slot k).st = .printing ∨ (s.slot k).st = .draining ∨ s.num 0x2410 1 = k.val) →
    Refused (.slotClear h k) h 0x13 (0x22030100 + k.val) s) ∧
  (∀ (s : State) (k : Fin 2), s.on domRFE = true → (s.slot k).st = .sealing →
      s.memServes (k.val * s.slotCapacity) ((barsOf (s.slotMask k)).length * s.plane k) = true →
    ∃ t, exec (.sealPassDone k) s = .next t ∧ (t.slot k).st = .ready ∧ bit (t.num 0x1050 1) 1 = true ∧
      Only [.sent, .objs, .rin, .mem, .dram, .mir] s t) ∧
  (∀ (s : State) (k : Fin 2), (s.slot k).st ≠ .sealing → exec (.sealPassDone k) s = .next s) ∧
  (∀ (s : State) h (v : BitVec 8) x, WriteTaken s h 0x2410 1 (u8 v.toNat) x →
    (s.fet.change = true → Refused (.queuedSlotWrite h v) h 0x13 0x24030300 s) ∧
    (s.fet.change = false → v.toNat < 2 → (s.slot v.toNat).st ≠ .ready →
      Refused (.queuedSlotWrite h v) h 0x13 (0x24040100 + v.toNat) s) ∧
    (s.fet.change = false → (v.toNat = 255 ∨ ((s.slot v.toNat).st = .ready ∧
        (s.num 0x2410 2 = 255 ∨ within (s.slotMask v.toNat) s.fsq.jobMask = true))) →
      ∃ t, exec (.queuedSlotWrite h v) s = .next t ∧ Answered t 0x13 0 h.seq.toNat ∧ t.num 0x2410 1 = v.toNat ∧
        ObjsOnly [(0x2410, 1)] s t ∧ Only [.wilwa, .sent, .objs] s t)) ∧
  (∀ (s : State) h (v : BitVec 32) x, WriteTaken s h 0x2410 3 (u32 v.toNat) x →
    (s.fet.change = true → Refused (.changeAtRepeatWrite h v) h 0x13 0x24030300 s) ∧
    (s.fet.change = false → v.toNat ≠ 0 → (∀ b ∈ barsOf s.fsq.jobMask, ∀ r, (s.bar b).run ≠ .ended → (s.bar b).run ≠ .notInJob →
      (s.job b).topRepeat = some r → r < v.toNat) →
      ∃ t, exec (.changeAtRepeatWrite h v) s = .next t ∧ Answered t 0x13 0 h.seq.toNat ∧ t.num 0x2410 3 = v.toNat ∧
        ObjsOnly [(0x2410, 3)] s t ∧ Only [.wilwa, .sent, .objs] s t) ∧
    (s.fet.change = false → v.toNat ≠ 0 → ∀ b r, b ∈ barsOf s.fsq.jobMask → (s.bar b).run ≠ .ended → (s.bar b).run ≠ .notInJob →
      (s.job b).topRepeat = some r → v.toNat ≤ r →
      Refused (.changeAtRepeatWrite h v) h 0x13 (0x24040200 + v.toNat % 256) s))

/-- FET issues a bar's earliest line whose preparation has not started (R14, R131, R199, R219): it enters the pre-fire buffer with its
design line's pixels and takes one place in the queue of every engine that serves a slice; an empty line is complete at once.
Where the bar is not in the job or the device does not run, nothing is issued. -/
def Obligations.LinesAreIssued : Prop :=
  (∀ (s : State) (b : Bar) k px, s.on domRFE = true → s.on domCTL = true → s.inStates runStates = true →
    bit s.fsq.jobMask b.val = true →
      ((s.fetCatchUp b.val).job b.val).slot = some k → ((s.fetCatchUp b.val).job b.val).ended = false →
      ((s.fetCatchUp b.val).job b.val).idx - ((s.fetCatchUp b.val).bar b.val).idx < (s.fetCatchUp b.val).num 0x1200 9 →
      (s.fetCatchUp b.val).inFlight b.val < 24 → ((s.fetCatchUp b.val).bar b.val).run ≠ .ended →
      (s.fetCatchUp b.val).fetchLine b.val k
        ((s.fetCatchUp b.val).designLine k ((s.fetCatchUp b.val).job b.val).p) = some px →
    ∃ t e, exec (.fetIssueLine b) s = .next t ∧
      kvGet (t.bar b.val).buf ((s.fetCatchUp b.val).job b.val).idx = some e ∧ e.pixels = px ∧ e.slot = k ∧
      e.p = ((s.fetCatchUp b.val).job b.val).p ∧ (t.job b.val).idx = ((s.fetCatchUp b.val).job b.val).idx + 1 ∧
      (t.job b.val).p = ((s.fetCatchUp b.val).job b.val).p + 1 ∧
      (px = none → e.slices = Vector.replicate 16 (.complete [])) ∧
      Only [.fresh, .sent, .objs, .wilwa, .rin, .fet, .mem, .dram, .sne, .fsq, .hdg, .che] s t) ∧
  (∀ (s : State) (b : Bar), (s.on domRFE = false ∨ s.on domCTL = false ∨ s.inStates runStates = false ∨
    bit s.fsq.jobMask b.val = false) →
    exec (.fetIssueLine b) s = .next s)
/-- Memory requests (R141, R144 to R146, R151 to R155, R162): on a channel at rest a write reaches the DRAM and changes no other byte; a
read joins the reads, or is answered at once from a queued write of its address; where the channel serves no requests they wait;
every byte that no queued write covers keeps its value. The channel's oldest real-time read, else its oldest, comes back with the
data of the DRAM where its codeword is clean; a corrected error is counted; an uncorrectable or address error freezes the channel
and poisons the read. -/
def Obligations.MemoryRequestsAreServed : Prop :=
  (∀ (s : State) (m : BitVec 8) (a : BitVec 48) d c (l : Nat), s.locate (a.toNat / 128 * 128) = some (c, l) → d.length = 128 →
    c < 4 →
      ((s.chan c).st = .ready ∨ (s.chan c).st = .selfRefresh) → (s.chan c).leaving = none → (s.chan c).reads = [] →
      (s.chan c).writes = [] → (s.chan c).waiting = [] →
    ∃ t, exec (.memoryRequest m a (some d)) s = .next t ∧ readCells t.dram (cellKey (c, l)) 128 = d ∧
      (∀ (k : Nat), k < cellKey (c, l) ∨ cellKey (c, l) + 128 ≤ k → readCell t.dram k = readCell s.dram k) ∧
      (t.chan c).writes = [] ∧ (t.chan c).st = .ready ∧ Only [.objs, .mem, .dram] s t) ∧
  (∀ (s : State) (m : BitVec 8) (a : BitVec 48) c (l : Nat), s.locate (a.toNat / 128 * 128) = some (c, l) → c < 4 →
    (s.chan c).st = .ready →
      (s.chan c).leaving = none → (s.chan c).waiting = [] →
    ((∀ w ∈ (s.chan c).writes, w.addr ≠ l) →
      ∃ t, exec (.memoryRequest m a none) s = .next t ∧
        (t.chan c).reads = (s.chan c).reads ++ [{ master := m.toNat, addr := l }] ∧ t.sent = s.sent ∧
        Only [.objs, .mem, .dram] s t) ∧
    (∀ (w : MemWrite), (s.chan c).writes.find? (·.addr == l) = some w →
      ∃ t, exec (.memoryRequest m a none) s = .next t ∧ (t.chan c).reads = (s.chan c).reads ∧
        t.sent = s.sent ++ [.memRead m.toNat (s.systemAddr c l) (some w.data)] ∧ Only [.sent, .objs, .mem, .dram] s t)) ∧
  (∀ (s : State) (m : BitVec 8) (a : BitVec 48) d c (l : Nat), s.locate (a.toNat / 128 * 128) = some (c, l) → c < 4 →
    (s.chan c).serves = false →
      (s.chan c).works = false →
    (∃ t, exec (.memoryRequest m a (some d)) s = .next t ∧
      (t.chan c).waiting = (s.chan c).waiting ++ [.write { master := m.toNat, addr := l, data := padTo 128 d }] ∧
      Only [.mem] s t) ∧
    (∃ t, exec (.memoryRequest m a none) s = .next t ∧
      (t.chan c).waiting = (s.chan c).waiting ++ [.read { master := m.toNat, addr := l }] ∧ Only [.mem] s t)) ∧
  (∀ (s : State) (t : State) (m : BitVec 8) (a : BitVec 48) d c (l : Nat), s.locate (a.toNat / 128 * 128) = some (c, l) → c < 4 →
    (∀ b, d = some b → b.length = 128) →
      (∀ w ∈ (s.chan c).writes, w.data.length = 128) → (∀ (w : MemWrite), .write w ∈ (s.chan c).waiting → w.data.length = 128) →
      exec (.memoryRequest m a d) s = .next t →
    ∀ (k : Nat), (∀ w ∈ (s.chan c).writes, k < cellKey (c, w.addr) ∨ cellKey (c, w.addr) + 128 ≤ k) →
      (∀ (w : MemWrite), .write w ∈ (s.chan c).waiting → k < cellKey (c, w.addr) ∨ cellKey (c, w.addr) + 128 ≤ k) →
      (d.isSome = true → k < cellKey (c, l) ∨ cellKey (c, l) + 128 ≤ k) → readCell t.dram k = readCell s.dram k) ∧
  (∀ (s : State) (c : Chan) (r : MemRead), (s.chan c.val).nextRead = some r → (s.chan c.val).st = .ready →
    (s.chan c.val).waiting = [] →
    ∃ t, exec (.memoryReadComplete c []) s = .next t ∧ (t.chan c.val).reads = (s.chan c.val).reads.erase r ∧
      t.sent = s.sent ++ [.memRead r.master (s.systemAddr c.val r.addr)
        (some (readCells s.dram (cellKey (c.val, r.addr)) 128))] ∧ Only [.sent, .objs, .mem, .dram] s t) ∧
  (∀ (s : State) (c : Chan) (r : MemRead) (es : List (Fin 82 × BitVec 16)) (j : Nat), (s.chan c.val).nextRead = some r →
    (s.chan c.val).st = .ready →
      classOf (syndromes (es.map fun e => (e.1.val, e.2.toNat))) = .corrected j →
    ∃ t, exec (.memoryReadComplete c es) s = .next t ∧
      t.num 0x2320 (c.val + 1) = (s.num 0x2320 (c.val + 1) + 1) % 2 ^ 32 ∧
      t.num 0x2322 (c.val + 1) = s.location c.val r.addr ∧ (t.chan c.val).st = .ready ∧
      Only [.fresh, .sent, .objs, .flt, .bbx, .mem, .dram] s t) ∧
  (∀ (s : State) (c : Chan) (r : MemRead) (es : List (Fin 82 × BitVec 16)) (k : Nat), (s.chan c.val).nextRead = some r →
    (s.chan c.val).st = .ready →
      (classOf (syndromes (es.map fun e => (e.1.val, e.2.toNat))) = .uncorrectable ∧ k = 1 ∨
        classOf (syndromes (es.map fun e => (e.1.val, e.2.toNat))) = .address ∧ k = 3) →
    ∃ t, exec (.memoryReadComplete c es) s = .next t ∧ (t.chan c.val).st = .frozen ∧ (t.chan c.val).freezeCause = k ∧
      t.sent = s.sent ++ [.memRead r.master (s.systemAddr c.val r.addr) none] ∧
      t.num 0x2331 (c.val + 1) = s.location c.val r.addr ∧ t.dram = s.dram ∧
      (s.takesReports → Raised (0x2310 + c.val) k t) ∧ Only [.sent, .objs, .pwr, .flt, .bbx, .mem, .hlk] s t) ∧
  (∀ (s : State) (c : Chan) (es : List (Fin 82 × BitVec 16)), ((s.chan c.val).nextRead = none ∨ (s.chan c.val).works = false) →
    exec (.memoryReadComplete c es) s = .next s)

/-- The clocks of a memory channel (R145, R147, R149, R153, R159, R162): a real-time burst ends in its guard, each refresh interval
leaves every rank owing one more refresh or issues it, an address parity error freezes the channel, an idle channel enters self-refresh, and the
DQS correction leaves the data as they are. -/
def Obligations.MemoryChannelsKeepTime : Prop :=
  (∀ (s : State) (c : Chan), (s.chan c.val).burst = true →
    ∃ t, exec (.rtBurstLimit c) s = .next t ∧ (t.chan c.val).burst = false ∧ (t.chan c.val).guard = true ∧
      t.num 0x2343 (c.val + 1) = (s.num 0x2343 (c.val + 1) + 1) % 2 ^ 32 ∧ Only [.sent, .objs, .mem, .dram] s t) ∧
  (∀ (s : State) (c : Chan), (s.chan c.val).burst = false → exec (.rtBurstLimit c) s = .next s) ∧
  (∀ (s : State) (c : Chan), (s.chan c.val).waiting = [] →
    ∃ t, exec (.burstGuardEnd c) s = .next t ∧ (t.chan c.val).guard = false ∧
      ((s.chan c.val).st = .ready → (t.chan c.val).burst = (s.chan c.val).reads.any (·.master == 0)) ∧
      (t.chan c.val).reads = (s.chan c.val).reads ∧ Only [.objs, .mem, .dram] s t) ∧
  (∀ (s : State) (c : Chan), s.on (chanDomain c.val) = true → (s.chan c.val).st = .frozen → s.ranks c.val ≤ 2 →
    ∃ t, exec (.refreshIntervalBoundary c) s = .next t ∧ (∀ r, r < s.ranks c.val → vget (t.chan c.val).owed r 0 = 0) ∧
      (t.chan c.val).st = .frozen ∧ (t.chan c.val).reads = (s.chan c.val).reads ∧ t.dram = s.dram ∧
      Only [.objs, .flt, .bbx, .mem] s t) ∧
  (∀ (s : State) (c : Chan), s.on (chanDomain c.val) = true → (s.chan c.val).st = .ready →
    ∃ t, exec (.refreshIntervalBoundary c) s = .next t ∧ (t.chan c.val).st = .ready ∧
      Only [.sent, .objs, .flt, .bbx, .mem, .dram] s t) ∧
  (∀ (s : State) (c : Chan), (s.chan c.val).refreshes = false → exec (.refreshIntervalBoundary c) s = .next s) ∧
  (∀ (s : State) (c : Chan), (s.chan c.val).st = .ready → s.on (chanDomain c.val) = true →
    ∃ t, exec (.alertNAssert c) s = .next t ∧ (t.chan c.val).st = .frozen ∧ (t.chan c.val).freezeCause = 2 ∧
      (s.takesReports → Raised (0x2310 + c.val) 2 t) ∧ Only [.fresh, .sent, .objs, .pwr, .flt, .bbx, .mem, .hlk] s t) ∧
  (∀ (s : State) (c : Chan), (s.chan c.val).works = false → exec (.alertNAssert c) s = .next s) ∧
  (∀ (s : State) (c : Chan), (s.chan c.val).st = .ready → (s.chan c.val).leaving = none → s.num 0x231A (c.val + 1) ≠ 0 →
    (s.chan c.val).reads = [] →
      (s.chan c.val).writes = [] → (s.chan c.val).waiting = [] →
    ∃ t, exec (.idleTimeExpiry c) s = .next t ∧ (t.chan c.val).st = .selfRefresh ∧
      t.num 0x2344 (c.val + 1) = (s.num 0x2344 (c.val + 1) + 1) % 2 ^ 32 ∧ ObjsOnly [(0x2344, c.val + 1)] s t ∧
      Only [.objs, .mem] s t) ∧
  (∀ (s : State) (c : Chan), (s.chan c.val).st ≠ .ready → exec (.idleTimeExpiry c) s = .next s) ∧
  (∀ (s : State) (c : Chan), (s.chan c.val).st = .ready →
    ∃ t, exec (.dqsDriftCorrection c) s = .next t ∧ ((t.chan c.val).log.getLast?).map (·.cmd) = some 9 ∧
      (t.chan c.val).reads = (s.chan c.val).reads ∧ (t.chan c.val).writes = (s.chan c.val).writes ∧ Only [.mem] s t)

/-- Training and operating points of a memory channel (R158 to R161, R163, R164): training that succeeds stores its result and makes
the channel READY; a failure leaves it UNTRAINED with F233xh; a change of point goes through FREQ_CHANGE to the stored result or
to training; a new DIMM description clears the stored results. -/
def Obligations.MemoryChannelsTrain : Prop :=
  (∀ (s : State) h (c : Chan) x, WriteTaken s h 0x2316 (c.val + 1) (u8 1) x → (s.pwr.dev = .standby ∨ s.pwr.dev = .configured) →
      ((s.chan c.val).st = .untrained ∨ (s.chan c.val).st = .ready ∨ (s.chan c.val).st = .selfRefresh) →
    ∃ t, exec (.trainPresentPoint h c) s = .next t ∧ Answered t 0x13 0 h.seq.toNat ∧ (t.chan c.val).st = .training ∧
      (t.chan c.val).step = 1 ∧ (t.chan c.val).point = (s.chan c.val).point ∧
      (t.chan c.val).reads = (s.chan c.val).reads ∧ (t.chan c.val).writes = (s.chan c.val).writes ∧
      Only [.wilwa, .sent, .objs, .mem, .dram] s t) ∧
  (∀ (s : State) h (c : Chan) x, WriteTaken s h 0x2316 (c.val + 1) (u8 3) x → (s.pwr.dev = .standby ∨ s.pwr.dev = .configured) →
      ((s.chan c.val).st = .untrained ∨ (s.chan c.val).st = .ready ∨ (s.chan c.val).st = .selfRefresh) →
    ∃ t, exec (.clearStoredResults h c) s = .next t ∧ Answered t 0x13 0 h.seq.toNat ∧ (t.chan c.val).stored0 = false ∧
      (t.chan c.val).stored1 = false ∧ (t.chan c.val).st = (s.chan c.val).st ∧ Only [.wilwa, .sent, .mem] s t) ∧
  (∀ (s : State) h (c : Chan) x, WriteTaken s h 0x2316 (c.val + 1) (u8 1) x →
    ((s.chan c.val).st = .frozen → Refused (.trainPresentPoint h c) h 0x13 (0x23030200 + c.val) s) ∧
    ((s.pwr.dev = .standby ∨ s.pwr.dev = .configured) → ((s.chan c.val).st = .training ∨ (s.chan c.val).st = .freqChange) →
      Refused (.trainPresentPoint h c) h 0x13 (0x23050100 + c.val) s)) ∧
  (∀ (s : State) (c : Chan), (s.chan c.val).st = .training → (s.chan c.val).step ≠ 0 → s.on (chanDomain c.val) = true →
    ((s.chan c.val).pendingPoint = none →
      ∃ t, exec (.channelTrainingDone c .done) s = .next t ∧ (t.chan c.val).st = .ready ∧ (t.chan c.val).step = 0 ∧
        (t.chan c.val).storedAt (s.chan c.val).point = true ∧ Only [.sent, .objs, .mem, .dram] s t) ∧
    (∀ (p : BitVec 4) (v : BitVec 8), ∃ t, exec (.channelTrainingDone c (.failed p v)) s = .next t ∧
      (t.chan c.val).st = .untrained ∧ (t.chan c.val).step = p.toNat ∧ (t.chan c.val).result = 1 ∧
      (t.chan c.val).failing = v.toNat ∧ (s.takesReports → Raised (0x2330 + c.val) 0 t) ∧ Only [.objs, .flt, .bbx, .mem] s t) ∧
    ((s.chan c.val).pendingPoint = none → s.retainPending c.val = false → (s.chan c.val).step < 7 →
      ∃ t, exec (.channelTrainingDone c .stepDone) s = .next t ∧ (t.chan c.val).st = .training ∧
        (t.chan c.val).step = (s.chan c.val).step + 1 ∧ Only [.fresh, .mem] s t) ∧
    (∀ p o, o ∈ [TrainOutcome.done, .stepDone] → (s.chan c.val).pendingPoint = some p → s.retainPending c.val = false →
      ∃ t, exec (.channelTrainingDone c o) s = .next t ∧ (t.chan c.val).st = .freqChange ∧ (t.chan c.val).point = p ∧
        (t.chan c.val).result = 2 ∧ ((t.chan c.val).log.getLast?).map (·.cmd) = some 6 ∧ Only [.mem] s t)) ∧
  (∀ (s : State) h (c : Chan) (v : BitVec 8) x, WriteTaken s h 0x2315 (c.val + 1) (u8 v.toNat) x →
    (((s.chan c.val).st = .ready ∨ (s.chan c.val).st = .selfRefresh) → v.toNat ≠ (s.chan c.val).point →
      ∃ t, exec (.opPointSelectWrite h c v) s = .next t ∧ Answered t 0x13 0 h.seq.toNat ∧ t.num 0x2315 (c.val + 1) = v.toNat ∧
        (t.chan c.val).st = .freqChange ∧
        ((s.chan c.val).reads = [] → (t.chan c.val).point = v.toNat ∧ (t.chan c.val).leaving = none ∧ (t.chan c.val).reads = [] ∧
          (t.chan c.val).writes = []) ∧
        ((s.chan c.val).reads ≠ [] → (t.chan c.val).point = (s.chan c.val).point ∧ (t.chan c.val).leaving = some (.freq v.toNat) ∧
          (t.chan c.val).reads = (s.chan c.val).reads) ∧ Only [.wilwa, .sent, .objs, .mem, .dram] s t) ∧
    ((s.chan c.val).st = .untrained →
      ∃ t, exec (.opPointSelectWrite h c v) s = .next t ∧ Answered t 0x13 0 h.seq.toNat ∧ t.num 0x2315 (c.val + 1) = v.toNat ∧
        (t.chan c.val).st = .untrained ∧ (t.chan c.val).point = v.toNat ∧ Only [.wilwa, .sent, .objs, .mem] s t) ∧
    ((s.chan c.val).st = .frozen → Refused (.opPointSelectWrite h c v) h 0x13 (0x23030200 + c.val) s)) ∧
  (∀ (s : State) (c : Chan), (s.chan c.val).st = .freqChange → (s.chan c.val).leaving = none → (s.chan c.val).step ≠ 0 →
      s.on (chanDomain c.val) = true → s.retainPending c.val = false → (s.chan c.val).pendingPoint = none →
    ((s.chan c.val).storedAt (s.chan c.val).point = true →
      ∃ t, exec (.freqChangeDone c) s = .next t ∧ (t.chan c.val).st = .ready ∧ (t.chan c.val).step = 0 ∧
        Only [.fresh, .sent, .objs, .mem, .dram] s t) ∧
    ((s.chan c.val).storedAt (s.chan c.val).point = false →
      ∃ t, exec (.freqChangeDone c) s = .next t ∧ (t.chan c.val).st = .training ∧ (t.chan c.val).step = 1 ∧
        Only [.fresh, .mem] s t)) ∧
  (∀ (s : State) h (c : Chan) x, WriteTaken s h 0x2310 (c.val + 1) (u8 0) x →
    ∃ t, exec (.channelEnableWrite h c false) s = .next t ∧ Answered t 0x13 0 h.seq.toNat ∧ t.num 0x2310 (c.val + 1) = 0 ∧
      (t.chan c.val).st = (s.chan c.val).st ∧ ObjsOnly [(0x2310, c.val + 1)] s t ∧ Only [.wilwa, .sent, .objs, .mem] s t) ∧
  (∀ (s : State) h (c : Chan) x, WriteTaken s h 0x2310 (c.val + 1) (u8 1) x → (s.chan c.val).st = .disabled →
    ∃ t, exec (.channelEnableWrite h c true) s = .next t ∧ Answered t 0x13 0 h.seq.toNat ∧ t.num 0x2310 (c.val + 1) = 1 ∧
      (t.chan c.val).st = .untrained ∧ ObjsOnly [(0x2310, c.val + 1)] s t ∧ Only [.wilwa, .sent, .objs, .mem] s t) ∧
  (∀ (s : State) h (j : BitVec 8) v x, WriteTaken s h 0x2311 j.toNat v x → 1 ≤ j.toNat → j.toNat ≤ 4 →
      (leNat v = 1 ∨ leNat v = 2 ∧ s.num 0x2312 j.toNat = 16) →
    ∃ t, exec (.dimmSettingWrite h 0x2311 j v) s = .next t ∧ Answered t 0x13 0 h.seq.toNat ∧ t.num 0x2311 j.toNat = leNat v ∧
      (t.chan (j.toNat - 1)).stored0 = false ∧ (t.chan (j.toNat - 1)).stored1 = false ∧
      ObjsOnly [(0x2311, j.toNat)] s t ∧ Only [.wilwa, .sent, .objs, .mem] s t) ∧
  (∀ (s : State) h (j : BitVec 8) v x, WriteTaken s h 0x2312 j.toNat v x → 1 ≤ j.toNat → j.toNat ≤ 4 →
      (s.num 0x2311 j.toNat = 1 ∨ s.num 0x2311 j.toNat = 2 ∧ leNat v = 16) →
    ∃ t, exec (.dimmSettingWrite h 0x2312 j v) s = .next t ∧ Answered t 0x13 0 h.seq.toNat ∧ t.num 0x2312 j.toNat = leNat v ∧
      (t.chan (j.toNat - 1)).stored0 = false ∧ (t.chan (j.toNat - 1)).stored1 = false ∧
      ObjsOnly [(0x2312, j.toNat)] s t ∧ Only [.wilwa, .sent, .objs, .mem] s t) ∧
  (∀ (s : State) h (j : BitVec 8) v x, 1 ≤ j.toNat → j.toNat ≤ 4 →
    (WriteTaken s h 0x2313 j.toNat v x →
      ∃ t, exec (.dimmSettingWrite h 0x2313 j v) s = .next t ∧ Answered t 0x13 0 h.seq.toNat ∧ t.num 0x2313 j.toNat = leNat v ∧
        (t.chan (j.toNat - 1)).stored0 = false ∧ (t.chan (j.toNat - 1)).stored1 = (s.chan (j.toNat - 1)).stored1 ∧
        ObjsOnly [(0x2313, j.toNat)] s t ∧ Only [.wilwa, .sent, .objs, .mem] s t) ∧
    (WriteTaken s h 0x2314 j.toNat v x →
      ∃ t, exec (.dimmSettingWrite h 0x2314 j v) s = .next t ∧ Answered t 0x13 0 h.seq.toNat ∧ t.num 0x2314 j.toNat = leNat v ∧
        (t.chan (j.toNat - 1)).stored1 = false ∧ (t.chan (j.toNat - 1)).stored0 = (s.chan (j.toNat - 1)).stored0 ∧
        ObjsOnly [(0x2314, j.toNat)] s t ∧ Only [.wilwa, .sent, .objs, .mem] s t)) ∧
  (∀ (s : State) h (j : BitVec 8) v x, WriteTaken s h 0x2311 j.toNat v x → 1 ≤ j.toNat → leNat v ≠ 1 → s.num 0x2312 j.toNat ≠ 16 →
    Refused (.dimmSettingWrite h 0x2311 j v) h 0x13 (0x23040100 + (j.toNat - 1)) s) ∧
  (∀ (s : State) h (c : Chan) (v : BitVec 32) x, WriteTaken s h 0x231C (c.val + 1) (u32 v.toNat) x →
    ∃ t, exec (.lfsrSeedWrite h c v) s = .next t ∧ Answered t 0x13 0 h.seq.toNat ∧ t.num 0x231C (c.val + 1) = v.toNat ∧
      (t.chan c.val).lfsr = v.toNat ∧ ObjsOnly [(0x231C, c.val + 1)] s t ∧ Only [.wilwa, .sent, .objs, .mem] s t)

/-- A frozen channel is released (R156): its queued writes issued, discarded and counted, or discarded with the channel trained anew; a
channel that is not frozen refuses. -/
def Obligations.FrozenChannelsAreReleased : Prop :=
  (∀ (s : State) h (c : Chan) x, WriteTaken s h 0x2336 (c.val + 1) (u8 1) x → (s.chan c.val).st = .frozen →
    (s.chan c.val).waiting = [] →
    ∃ t, exec (.channelReleaseIssue h c) s = .next t ∧ Answered t 0x13 0 h.seq.toNat ∧ (t.chan c.val).st = .ready ∧
      (t.chan c.val).freezeCause = 0 ∧ (t.chan c.val).writes = [] ∧ Only [.wilwa, .sent, .objs, .mem, .dram] s t) ∧
  (∀ (s : State) h (c : Chan) x, WriteTaken s h 0x2336 (c.val + 1) (u8 2) x → (s.chan c.val).st = .frozen →
    (s.chan c.val).waiting = [] →
    ∃ t, exec (.channelReleaseDiscard h c) s = .next t ∧ Answered t 0x13 0 h.seq.toNat ∧ (t.chan c.val).st = .ready ∧
      (t.chan c.val).writes = [] ∧ t.dram = s.dram ∧
      t.num 0x2337 (c.val + 1) = (s.num 0x2337 (c.val + 1) + (s.chan c.val).writes.length) % 2 ^ 32 ∧
      Only [.wilwa, .sent, .objs, .mem] s t) ∧
  (∀ (s : State) h (c : Chan) x, WriteTaken s h 0x2336 (c.val + 1) (u8 3) x → (s.chan c.val).st = .frozen →
    ∃ t, exec (.channelReleaseRetrain h c) s = .next t ∧ Answered t 0x13 0 h.seq.toNat ∧ (t.chan c.val).st = .training ∧
      (t.chan c.val).step = 1 ∧ (t.chan c.val).storedAt (s.chan c.val).point = false ∧ (t.chan c.val).writes = [] ∧
      t.dram = s.dram ∧ t.num 0x2337 (c.val + 1) = (s.num 0x2337 (c.val + 1) + (s.chan c.val).writes.length) % 2 ^ 32 ∧
      Only [.wilwa, .sent, .objs, .mem] s t) ∧
  (∀ (s : State) h (c : Chan) x v k, (v, k) ∈ [(1, Instr.channelReleaseIssue h c), (2, .channelReleaseDiscard h c),
        (3, .channelReleaseRetrain h c)] → WriteTaken s h 0x2336 (c.val + 1) (u8 v) x → (s.chan c.val).st ≠ .frozen →
    Refused k h 0x13 (0x23030100 + c.val) s)

/-- Position channels (R169 to R171, R173 to R178): an accepted quadrature or Hall change moves the counter by one and an SSI sample by its
difference; illegal transitions, bad Hall states and refused frames are counted and raised without moving it; Z latches it; the mode
can be changed where its rules allow. -/
def Obligations.PositionsAreCounted : Prop :=
  (∀ (s : State) (n : PosCh) a b, s.on domCTL = true → s.chMode n.val = 1 → ((s.pch n.val).a ≠ a ↔ (s.pch n.val).b = b) →
    ∃ t, exec (.countChange n a b) s = .next t ∧ (t.pch n.val).a = a ∧ (t.pch n.val).b = b ∧
      ((t.pch n.val).count = ((s.pch n.val).count + 1) % 2 ^ 32 ↔
        ((if (s.pch n.val).a ≠ a then a != (s.pch n.val).b else b == (s.pch n.val).a) = (s.num 0x2513 (n.val + 1) != 1))) ∧
      ((t.pch n.val).count = ((s.pch n.val).count + 1) % 2 ^ 32 ∨
        (t.pch n.val).count = ((s.pch n.val).count + 2 ^ 32 - 1) % 2 ^ 32) ∧ (∀ m, m ≠ n.val → t.pch m = s.pch m) ∧
      Only [.fresh, .sent, .objs, .pwr, .flt, .bbx, .wilwa, .rin, .fet, .mem, .dram, .pos, .lcg, .cmp, .sne, .fsq, .hlk, .hdg, .vis,
        .che, .mir] s t) ∧
  (∀ (s : State) (n : PosCh) a b, s.on domCTL = true → s.chMode n.val = 1 → (s.pch n.val).a ≠ a → (s.pch n.val).b ≠ b →
    ∃ t, exec (.countChange n a b) s = .next t ∧ (t.pch n.val).count = (s.pch n.val).count ∧ (t.pch n.val).window = [] ∧
      (t.pch n.val).a = a ∧ (t.pch n.val).b = b ∧ t.num 0x2524 (n.val + 1) = (s.num 0x2524 (n.val + 1) + 1) % 2 ^ 32 ∧
      (s.takesReports → Raised (0x2500 + n.val) 0 t) ∧ Only [.objs, .flt, .bbx, .pos] s t) ∧
  (∀ (s : State) (n : PosCh) a b, (s.on domCTL = false ∨ s.chMode n.val ≠ 1) → exec (.countChange n a b) s = .next s) ∧
  (∀ (s : State) (n : PosCh) (x : BitVec 3) r, s.on domCTL = true → s.chMode n.val = 3 → (s.pch n.val).uvw ≠ x.toNat → x ≠ 0 →
    x ≠ 7 →
      (s.pch n.val).hallRef = some r → hallPlace x.toNat = (hallPlace r + 1) % 6 → s.num 0x2513 (n.val + 1) = 0 → r ≠ x.toNat →
    ∃ t, exec (.hallStateChange n x) s = .next t ∧ (t.pch n.val).count = ((s.pch n.val).count + 1) % 2 ^ 32 ∧
      (t.pch n.val).uvw = x.toNat ∧ (t.pch n.val).hallRef = some x.toNat ∧
      Only [.fresh, .sent, .objs, .pwr, .flt, .bbx, .wilwa, .rin, .fet, .mem, .dram, .pos, .lcg, .cmp, .sne, .fsq, .hlk, .hdg, .vis,
        .che, .mir] s t) ∧
  (∀ (s : State) (n : PosCh) (x : BitVec 3), s.on domCTL = true → s.chMode n.val = 3 → (s.pch n.val).uvw ≠ x.toNat → (x = 0 ∨
    x = 7) →
    ∃ t, exec (.hallStateChange n x) s = .next t ∧ (t.pch n.val).count = (s.pch n.val).count ∧
      (t.pch n.val).hallRef = (s.pch n.val).hallRef ∧ t.num 0x2525 (n.val + 1) = (s.num 0x2525 (n.val + 1) + 1) % 2 ^ 32 ∧
      (s.takesReports → Raised (0x2510 + n.val) 0 t) ∧ Only [.objs, .flt, .bbx, .pos] s t) ∧
  (∀ (s : State) (n : PosCh), s.on domCTL = true → s.chMode n.val = 1 →
    ∃ t, exec (.zIndexEdge n) s = .next t ∧ t.num 0x2528 (n.val + 1) = (s.pch n.val).count ∧
      (t.pch n.val) = { s.pch n.val with zPrev := some (s.pch n.val).count } ∧
      (∀ z, (s.pch n.val).zPrev = some z → s.num 0x2514 (n.val + 1) ≠ 0 →
        s.num 0x2515 (n.val + 1) < min (diff32 (s.pch n.val).count z - s.num 0x2514 (n.val + 1)).natAbs
          (diff32 (s.pch n.val).count z + s.num 0x2514 (n.val + 1)).natAbs →
        t.num 0x2527 (n.val + 1) = (s.num 0x2527 (n.val + 1) + 1) % 2 ^ 32 ∧ (s.takesReports → Raised (0x2530 + n.val) 0 t)) ∧
      Only [.objs, .flt, .bbx, .pos] s t) ∧
  (∀ (s : State) (n : PosCh), s.on domCTL = true → s.chMode n.val = 2 →
    ∃ t, exec (.ssiPeriodExpiry n) s = .next t ∧ (t.pch n.val) = { s.pch n.val with ssiStart := some s.tick } ∧ Only [.pos] s t) ∧
  (∀ (s : State) (n : PosCh) (raw : BitVec 32) e k p, s.on domCTL = true → s.chMode n.val = 2 → (s.pch n.val).ssiStart = some k →
      (bit (s.num 0x2516 (n.val + 1)) 7 && e) = false → bit (s.num 0x2516 (n.val + 1)) 6 = false →
      bits (s.num 0x2516 (n.val + 1)) 5 0 = 32 → (s.pch n.val).ssiRaw = some p → s.num 0x2513 (n.val + 1) = 0 →
      (toSigned 32 (raw.toNat + 2 ^ 32 - p)).natAbs ≤ 2 ^ 30 →
    ∃ t, exec (.ssiFrameComplete n raw e false) s = .next t ∧
      (t.pch n.val).count = ofSigned 32 (((s.pch n.val).count : Int) + toSigned 32 (raw.toNat + 2 ^ 32 - p)) ∧
      (t.pch n.val).ssiRaw = some raw.toNat ∧ (t.pch n.val).ssiStart = none ∧
      Only [.fresh, .sent, .objs, .pwr, .flt, .bbx, .wilwa, .rin, .fet, .mem, .dram, .pos, .lcg, .cmp, .sne, .fsq, .hlk, .hdg, .vis,
        .che, .mir] s t) ∧
  (∀ (s : State) (n : PosCh) (raw : BitVec 32) e k (low : Bool) (q : Nat), s.on domCTL = true → s.chMode n.val = 2 →
      (s.pch n.val).ssiStart = some k →
      ((bit (s.num 0x2516 (n.val + 1)) 7 && e) = true ∧ q = 1 ∨ (bit (s.num 0x2516 (n.val + 1)) 7 && e) = false ∧ low = true ∧
        q = 2) →
    ∃ t, exec (.ssiFrameComplete n raw e low) s = .next t ∧ (t.pch n.val).count = (s.pch n.val).count ∧
      (t.pch n.val).ssiRaw = none ∧ t.num 0x2526 (n.val + 1) = (s.num 0x2526 (n.val + 1) + 1) % 2 ^ 32 ∧
      (s.takesReports → Raised (0x2520 + n.val) q t) ∧ Only [.objs, .flt, .bbx, .pos] s t) ∧
  (∀ (s : State) (n : PosCh), s.on domCTL = true →
    ∃ t, exec (.stopTimeout n) s = .next t ∧ (t.pch n.val) = { s.pch n.val with stopped := true, window := [] } ∧ Only [.pos] s t) ∧
  (∀ (s : State) h (n : PosCh) (v : BitVec 8) x, WriteTaken s h 0x2510 (n.val + 1) (u8 v.toNat) x →
    (v ≠ 3 ∨ 8 ≤ n.val → v ≠ 2 ∨ ssiFits (s.num 0x2516 (n.val + 1)) (s.num 0x2517 (n.val + 1)) = true →
      sharedOk (withVal s.obj 0x2510 (n.val + 1) (.num v.toNat)) = true →
      ∃ t, exec (.channelModeWrite h n v) s = .next t ∧ Answered t 0x13 0 h.seq.toNat ∧ t.chMode n.val = v.toNat ∧
        t.pch n.val = Pch.start ∧ Only [.wilwa, .sent, .fresh, .objs, .pos] s t) ∧
    (v = 3 → n.val < 8 → Refused (.channelModeWrite h n v) h 0x13 (0x25040100 + n.val) s) ∧
    (v = 2 → ssiFits (s.num 0x2516 (n.val + 1)) (s.num 0x2517 (n.val + 1)) = false →
      Refused (.channelModeWrite h n v) h 0x13 (0x25040200 + n.val) s))

/-- Marks, compare units, the machine's inputs and outputs, FIRE_EN and speed advice (R28, R51, R53, R180, R186, R191, R243 to R245, R249 to
R251): a mark starts a waiting bar or is counted; a compare unit acts on its target; an edge is latched; FIRE_EN's edges are recorded;
FIRE_OK is high exactly as R53 says, where no chip reset that a reaction asked for is due, and the balls are released in OFF, RESET and
BOOT but for ERR_N. -/
def Obligations.MarksAndPinsAct : Prop :=
  (∀ (s : State) (b : Bar), s.on domCTL = true → (s.pwr.dev = .armed ∨ s.pwr.dev = .printing) → s.num 0x2620 1 ≠ 1 →
      (s.clk b.val).st = .waiting → (s.bar b.val).run = .waiting →
    ∃ t, exec (.markAccepted b) s = .next t ∧ (t.clk b.val).st = .running ∧ (t.clk b.val).n = 0 ∧
      (t.clk b.val).high = (s.pch b.val).count ∧
      (t.clk b.val).next = ((s.pch b.val).count * 2 ^ 16 + s.num 0x2611 (b.val + 1)) % 2 ^ 48 ∧
      t.num 0x2635 (b.val + 1) = (s.pch b.val).count ∧ (t.bar b.val).run = .printing ∧ t.pwr.dev = .printing ∧
      (∀ i, i ≠ b.val → t.clk i = s.clk i) ∧ Only [.objs, .pwr, .lcg, .sne, .fsq, .che, .mir] s t) ∧
  (∀ (s : State) (b : Bar), s.on domCTL = true → (s.pwr.dev = .armed ∨ s.pwr.dev = .printing) → s.num 0x2620 1 = 1 → b.val = 0 →
      (∃ i, i < 8 ∧ (s.clk i).st = .waiting ∧ (s.bar i).run = .waiting) →
    ∃ t, exec (.markAccepted b) s = .next t ∧ t.pwr.dev = .printing ∧
      (∀ i, i < 8 → (s.clk i).st = .waiting → (s.bar i).run = .waiting → (t.clk i).st = .running ∧
        (t.clk i).high = (s.pch (s.num 0x2620 2)).count ∧
        (t.clk i).next = ((s.pch (s.num 0x2620 2)).count * 2 ^ 16 + s.num 0x2612 (i + 1) + s.num 0x2611 (i + 1)) % 2 ^ 48) ∧
      (∀ i, i < 8 → ((s.clk i).st ≠ .waiting ∨ (s.bar i).run ≠ .waiting) → t.clk i = s.clk i) ∧
        Only [.objs, .pwr, .lcg, .sne, .fsq, .che, .mir] s t) ∧
  (∀ (s : State) (b : Bar), s.on domCTL = true → s.num 0x2620 1 ≠ 1 → ((s.clk b.val).st ≠ .waiting ∨
    s.inStates [.armed, .printing] = false) →
    ∃ t, exec (.markAccepted b) s = .next t ∧ t.num 0x2637 (b.val + 1) = (s.num 0x2637 (b.val + 1) + 1) % 2 ^ 32 ∧
      t.fsq = { s.fsq with marked := s.fsq.marked ||| 2 ^ b.val } ∧ ObjsOnly [(0x2637, b.val + 1)] s t ∧ Only [.objs, .fsq] s t) ∧
  (∀ (s : State) (u : CmpUnit) k rest, (s.unit u.val).due = k :: rest →
    ∃ t, exec (.compareAction u) s = .next t ∧ (t.unit u.val).due = rest ∧
      (s.num 0x2645 (u.val + 1) = 0 → (t.unit u.val).pulse = true ∧ (t.unit u.val).level = true) ∧
      (s.num 0x2645 (u.val + 1) = 1 → (t.unit u.val).level = true) ∧
      (s.num 0x2645 (u.val + 1) = 2 → (t.unit u.val).level = false) ∧
      (s.num 0x2645 (u.val + 1) = 3 → (t.unit u.val).level = !(s.unit u.val).level) ∧
      (∀ w, w ≠ u.val → t.unit w = s.unit w) ∧ Only [.cmp] s t) ∧
  (∀ (s : State) (u : CmpUnit), (s.unit u.val).pulse = true →
    ∃ t, exec (.comparePulseEnd u) s = .next t ∧ t.unit u.val = { s.unit u.val with pulse := false, level := false } ∧
      (∀ w, w ≠ u.val → t.unit w = s.unit w) ∧ Only [.cmp] s t) ∧
  (∀ (s : State) (n : Fin 16) v, s.on domCTL = true → bit (s.num 0x2E10 1) n.val ≠ v →
    ∃ t, exec (.inputEdge n v) s = .next t ∧ t.num 0x2E10 1 = s.num 0x2E10 1 ^^^ 2 ^ n.val ∧
      (bit (s.num 0x2E10 2) (2 * n.val + (if v then 0 else 1)) = false → ObjsOnly [(0x2E10, 1)] s t ∧ Only [.objs] s t) ∧
      (bit (s.num 0x2E10 2) (2 * n.val + (if v then 0 else 1)) = true →
        t.num 0x2E11 (n.val + 1) = (s.num 0x2E11 (n.val + 1) + 1) % 2 ^ 32 ∧
        (s.num 0x2E10 3 < 12 → t.num 0x2E13 (n.val + 1) = (s.pch (s.num 0x2E10 3)).count) ∧
        (s.takesReports → Raised (0x2E00 + n.val) 0 t)) ∧ Only [.objs, .flt, .bbx] s t) ∧
  (∀ (s : State) (n : Fin 16), s.on domCTL = true → s.num 0x2E20 4 ≠ 0 →
    ∃ t, exec (.outputCheckExpiry n) s = .next t ∧ (s.takesReports → Raised (0x2E10 + n.val) 0 t) ∧
      Only [.fresh, .objs, .flt, .bbx] s t) ∧
  (∀ (s : State) h (v : BitVec 16) x, WriteTaken s h 0x2E20 1 (u16 v.toNat) x →
    ∃ t, exec (.outputLevelWrite h v) s = .next t ∧ Answered t 0x13 0 h.seq.toNat ∧ t.num 0x2E20 1 = v.toNat ∧
      (∀ n, n < 16 → s.on domCTL = true → s.mir.role ≠ .standby →
        (∀ u, u < 16 → (s.unit u).enabled = true → s.num 0x2644 (u + 1) ≠ n + 1) → bit t.outputDriven n = bit v.toNat n) ∧
      ObjsOnly [(0x2E20, 1)] s t ∧ Only [.wilwa, .sent, .objs] s t) ∧
  (∀ s : State, s.fireEn = true →
    ∃ t, exec .fireEnFall s = .next t ∧ t.fireEn = false ∧ t.fsq.fireEdge = some s.tick ∧ t.fsq.bars = s.fsq.bars ∧
      (s.on domCTL = true → s.anyPrinting = true → t.fsq.fallRecorded = true ∧ (s.takesReports → Raised 0x2930 0 t)) ∧
      Only [.objs, .flt, .bbx, .fsq, .fireEn] s t) ∧
  (∀ s : State, s.fireEn = false →
    ∃ t, exec .fireEnRise s = .next t ∧ t.fireEn = true ∧ t.fsq.fireEdge = some s.tick ∧ t.fsq.bars = s.fsq.bars ∧
      (s.on domCTL = true → s.fsq.fallRecorded = true → t.fsq.fallRecorded = false ∧ (s.takesReports → Raised 0x2931 0 t)) ∧
      Only [.objs, .flt, .bbx, .fsq, .fireEn] s t) ∧
  (∀ s : State, s.on domCTL = true → s.advises = false →
    ∃ t, exec .speedAdviceUpdate s = .next t ∧ t.num 0x2930 1 = 0 ∧ ObjsOnly [(0x2930, 1), (0x2930, 5)] s t ∧ Only [.objs] s t) ∧
  (∀ (s : State) b v, s.on domCTL = true → s.advises = true → (∀ i ∈ s.jobBars, s.num 0x251B (barChannel s.obj i + 1) ≠ 0) →
      s.adviceHead (fun i => (s.num 0x2610 (i + 1) : Rat) / (s.num 0x251B (barChannel s.obj i + 1) : Rat))
        (((10000 - s.num 0x2931 5 : Nat) : Rat) / 10000) = some (b, v) → v < 65536 →
    ∃ t, exec .speedAdviceUpdate s = .next t ∧ t.num 0x2930 2 = v ∧ t.num 0x2930 1 ≤ v ∧ t.num 0x2930 1 ≤ t.num 0x2930 4 ∧
      (s.num 0x2931 2 = 0 → t.num 0x2930 4 = 65535) ∧ Only [.fresh, .objs] s t) ∧
  (∀ s : State, s.on domCTL = true → s.num 0x2931 1 ≠ 0 →
    ∃ t, exec .spdAdvPeriodStart s = .next t ∧
      t.fsq = { s.fsq with spdHigh := min s.speedAdvice (s.num 0x2931 4) * 40000 / s.num 0x2931 4 } ∧
      Only [.fsq] s t) ∧
  (∀ (s : State) n, (s.pin n .fireOk = .high ↔
    ((s.pwr.dev = .armed ∨ s.pwr.dev = .printing) ∧ (s.mir.role = .solo ∨ s.keyHeld = true) ∧ s.pwr.trip = false ∧
      s.pwr.chipPending ≠ some 3))) ∧
  (∀ (s : State) n p, (s.pwr.dev = .off ∨ s.pwr.dev = .reset ∨ s.pwr.dev = .boot) → p ≠ .errN → s.pin n p = .released) ∧
  (∀ (s : State) n, s.pwr.dev = .frozen → s.pin n .fireOk = .low ∧ s.pin n .rpXon = .low)

/-- Slice engines (R203, R212, R215, R221): the slice line at the front of an engine's queue is completed with the levels of the
arithmetic, or fails a check or the time limit, is lost and raises F2700h + n; a new ZoneWidth clears the tables of the old one. -/
def Obligations.EnginesComputeSliceLines : Prop :=
  (∀ (s : State) (n : Engine) j e, s.front n.val = some (j, e) → j.slice < 16 →
    ∃ t, exec (.engineSliceLine n 0 []) s = .next t ∧ (t.engine n.val).queue = (s.engine n.val).queue.drop 1 ∧
      (∀ y, kvGet (t.bar j.bar).buf j.idx = some y → ∃ l, vget y.slices j.slice .lost = .complete l) ∧
      (e.fresh = true → ∀ y, kvGet (t.bar j.bar).buf j.idx = some y → vget y.slices j.slice .lost = .complete
        ((List.range ((boundsOf (mapOf e.cfg.map)).getD (j.slice + 1) 0 - (boundsOf (mapOf e.cfg.map)).getD j.slice 0)).map fun k =>
          (sliceLine e.cfg (mapOf e.cfg.map) ((boundsOf (mapOf e.cfg.map)).getD j.slice 0)
            ((boundsOf (mapOf e.cfg.map)).getD (j.slice + 1) 0) e.p (e.pixels.getD []) []).out.getD k 0)) ∧
      (e.cfg.mode = 0 → t.sne.diff = s.sne.diff) ∧ Only [.fresh, .objs, .flt, .bbx, .sne, .fsq] s t) ∧
  (∀ (s : State) (n : Engine) j e, s.front n.val = some (j, e) → j.slice < 16 →
    (∀ (c : BitVec 8) w, c ≠ 0 →
      ∃ t, exec (.engineSliceLine n c w) s = .next t ∧ (t.engine n.val).queue = (s.engine n.val).queue.drop 1 ∧
        (t.engine n.val).lastCause = c.toNat ∧
        (∀ y, kvGet (t.bar j.bar).buf j.idx = some y → vget y.slices j.slice .lost = .failed) ∧
        t.num 0x2721 (j.bar + 1) = (s.num 0x2721 (j.bar + 1) + 1) % 2 ^ 32 ∧
        (s.takesReports → Raised (0x2700 + n.val) c.toNat t) ∧ Only [.fresh, .objs, .flt, .bbx, .sne, .fsq] s t) ∧
    (∃ t, exec (.engineSliceTimeout n) s = .next t ∧ (t.engine n.val).queue = (s.engine n.val).queue.drop 1 ∧
      (t.engine n.val).lastCause = 3 ∧
      (∀ y, kvGet (t.bar j.bar).buf j.idx = some y → vget y.slices j.slice .lost = .failed) ∧
        t.num 0x2721 (j.bar + 1) = (s.num 0x2721 (j.bar + 1) + 1) % 2 ^ 32 ∧
      (s.takesReports → Raised (0x2700 + n.val) 3 t) ∧ Only [.fresh, .objs, .flt, .bbx, .sne, .fsq] s t)) ∧
  (∀ (s : State) (n : Engine) c w, s.front n.val = none →
    exec (.engineSliceLine n c w) s = .next s ∧ exec (.engineSliceTimeout n) s = .next s) ∧
  (∀ (s : State) h (b : Bar) (v : BitVec 32) x, WriteTaken s h 0x2712 (b.val + 1) (u32 v.toNat) x →
    ∃ t, exec (.zoneWidthWrite h b v) s = .next t ∧ Answered t 0x13 0 h.seq.toNat ∧ t.num 0x2712 (b.val + 1) = v.toNat ∧
      t.obj 0x2714 (b.val + 1) = defaultVal 0x2714 (b.val + 1) ∧ t.obj 0x2715 (b.val + 1) = defaultVal 0x2715 (b.val + 1) ∧
      t.num 0x2713 (b.val + 1) = zonesOf (s.map b.val) v.toNat ∧ Only [.wilwa, .sent, .objs] s t) ∧
  (∀ (s : State) h (b : Bar) (v : BitVec 32) x, Accepted s h 0x12 (u16 0x2712 ++ u8 (b.val + 1) ++ u8 0 ++ u32 v.toNat) x →
    x.version ≠ 1 → 1 ≤ x.level → 512 < zonesOf (s.map b.val) v.toNat →
    Refused (.zoneWidthWrite h b v) h 0x13 0x27060600 s)

/-- Lines on their way out (R227, R228, R232, R233, R236, R243): the next line is prepared once; a lane's token leaves while FIRE_EN is high
and is withheld while it is low; the last lane's finishes the line; episodes of drops and of late tokens end. -/
def Obligations.LinesArePreparedAndFired : Prop :=
  (∀ (s : State) (b : Bar), s.on domCTL = true → (s.bar b.val).ready = true → (s.bar b.val).prepared = none →
    (s.bar b.val).firing = none →
      s.halted = false → (s.bar b.val).run = .printing → (s.bar b.val).waiting = [] → bit (s.adm 0x29).pending b.val = false →
    ∃ t p, exec (.linePreparation b) s = .next t ∧ (t.bar b.val).prepared = some p ∧ p.idx = (s.bar b.val).idx ∧
      (p.blank = true ↔ ∀ e, kvGet (s.bar b.val).buf (s.bar b.val).idx = some e → e.pixels = none) ∧
      (t.bar b.val).buf = (s.bar b.val).buf ∧ Only [.sent, .objs, .flt, .bbx, .fsq, .hlk] s t) ∧
  (∀ (s : State) (b : Bar), s.on domCTL = true → (s.bar b.val).ready = true → (s.bar b.val).prepared = none →
    (s.bar b.val).firing = none →
      s.halted = false → (s.bar b.val).run = .printing → (s.bar b.val).waiting = [] → bit (s.adm 0x29).pending b.val = true →
    ∃ t, exec (.linePreparation b) s = .next t ∧ bit (t.adm 0x29).pending b.val = false ∧
      Only [.fresh, .sent, .objs, .flt, .bbx, .wilwa, .sne, .fsq, .hlk, .hdg] s t) ∧
  (∀ (s : State) (b : Bar), ((s.bar b.val).ready = false ∨ (s.bar b.val).prepared.isSome = true ∨ s.halted = true) →
    exec (.linePreparation b) s = .next s) ∧
  (∀ (s : State) (l : Lane) k rest f, (s.lane l.val).tokens = k :: rest → s.owning l.val = true → k.late = false → k.bar < 8 →
      s.fsq.fireEdge = none → (s.bar k.bar).firing = some f →
    (f.lanes.filter (· != l.val) ≠ [] →
      ∃ u, exec (.tokenEmission l) s = .next u ∧ (u.lane l.val).tokens = rest ∧
        (s.fireEn = true → s.hdg.phase ≠ 1 →
          u.sent = s.sent ++ [.lane l.val (.token k.bar k.n k.delay false (s.ownGen % 2 ^ 16))]) ∧
        (s.fireEn = false ∨ s.hdg.phase = 1 → u.sent = s.sent) ∧
        (u.bar k.bar).firing = some { f with
            lanes := f.lanes.filter (· != l.val), fired := if s.fireEn && s.hdg.phase != 1 then f.fired ++ [l.val] else f.fired } ∧ Only [.sent, .fsq, .hlk] s u) ∧
    (f.lanes.filter (· != l.val) = [] →
      ∃ u, exec (.tokenEmission l) s = .next u ∧ (u.bar k.bar).firing = none ∧ (u.bar k.bar).ready = true ∧
        Only [.fresh, .sent, .objs, .flt, .bbx, .wilwa, .mem, .dram, .fsq, .hlk, .hdg] s u)) ∧
  (∀ (s : State) (l : Lane), ((s.lane l.val).tokens = [] ∨ s.owning l.val = false) → exec (.tokenEmission l) s = .next s) ∧
  (∀ (s : State) (b : Bar), (s.bar b.val).overspeed = true → 64 ≤ (s.bar b.val).sinceDrop →
    ∃ t, exec (.overspeedEpisodeEnd b) s = .next t ∧ t.bar b.val = { s.bar b.val with overspeed := false } ∧
      (s.takesReports → Raised (0x2908 + b.val) 0 t) ∧ Only [.objs, .flt, .bbx, .fsq] s t) ∧
  (∀ (s : State) (b : Bar), (s.bar b.val).sinceDrop < 64 → exec (.overspeedEpisodeEnd b) s = .next s) ∧
  (∀ (s : State) (b : Bar), (s.bar b.val).lateEp = true → 64 ≤ (s.bar b.val).sinceLate →
    ∃ t, exec (.lateEpisodeEnd b) s = .next t ∧ t.bar b.val = { s.bar b.val with lateEp := false } ∧
      (∀ i, i ≠ b.val → t.bar i = s.bar i) ∧ Only [.fsq] s t) ∧
  (∀ (s : State) (b : Bar), (s.bar b.val).sinceLate < 64 → exec (.lateEpisodeEnd b) s = .next s)

/-- Bringing a lane up (R241, R270 to R272, R274): WAKING, ALIGNING, CAPABILITY, LATENCY and TABLES in their order to TRAINED, with what the
lane sends in each; a time limit, no common version, a failed check or a wide latency ends in DOWN with its FailCause and F2A20h + l. -/
def Obligations.LanesComeUp : Prop :=
  (∀ (s : State) (l : Lane), (s.lane l.val).st = .waking →
    ∃ t, exec (.lanePllLocked l) s = .next t ∧
      ((s.lane l.val).toTest = true → (t.lane l.val).st = .test ∧ Only [.hlk] s t) ∧
      ((s.lane l.val).toTest = false → (t.lane l.val).st = .aligning ∧ (t.lane l.val).lock = false ∧
        t.num 0x2A19 (l.val + 1) = 0 ∧ ObjsOnly [(0x2A19, l.val + 1)] s t) ∧
      (∀ m, m ≠ l.val → t.lane m = s.lane m) ∧ Only [.objs, .hlk] s t) ∧
  (∀ (s : State) (l : Lane), (s.lane l.val).st ≠ .waking → exec (.lanePllLocked l) s = .next s) ∧
  (∀ (s : State) (l : Lane) c k st, (c, k, st) ∈ [(Instr.laneWakeTimeout l, 1, LaneSt.waking), (.laneAlignTimeout l, 2, .aligning),
      (.laneCapTimeout l, 3, .capability)] →
    ((s.lane l.val).st = st → (k = 2 → s.num 0x2A20 2 = 0) →
      ∃ t, exec c s = .next t ∧ (t.lane l.val).st = .down ∧ (t.lane l.val).failCause = k ∧
        (∀ m, m ≠ l.val → t.lane m = s.lane m) ∧ (s.takesReports → Raised (0x2A20 + l.val) k t) ∧
        Only [.fresh, .objs, .flt, .bbx, .hlk] s t) ∧
    ((s.lane l.val).st ≠ st → exec c s = .next s)) ∧
  (∀ (s : State) (l : Lane), s.num 0x2A20 2 ≠ 0 → exec (.laneAlignTimeout l) s = .next s ∧ exec (.firmwareSlipWait l) s = .next s) ∧
  (∀ (s : State) (l : Lane), (s.lane l.val).st = .aligning → s.num 0x2A20 2 = 0 →
    ∃ t, exec (.firmwareSlipWait l) s = .next t ∧ t.num 0x2A19 (l.val + 1) = 0 ∧ ObjsOnly [(0x2A19, l.val + 1)] s t ∧
      t.lane l.val = { s.lane l.val with slip := ((s.lane l.val).slip + 1) % 66 } ∧ Only [.objs, .hlk] s t) ∧
  (∀ (s : State) (l : Lane), (s.lane l.val).st = .aligning →
    ∃ t, exec (.syncHeaderRunReached l) s = .next t ∧ (t.lane l.val).st = .capability ∧ (t.lane l.val).lock = true ∧
      t.num 0x2A19 (l.val + 1) = 64 ∧ t.sent = s.sent ++ [.lane l.val (.cap (s.num 0x2A20 5) (s.lane l.val).chosen)] ∧
      ObjsOnly [(0x2A19, l.val + 1)] s t ∧ Only [.sent, .objs, .hlk] s t) ∧
  (∀ (s : State) (l : Lane), (s.lane l.val).st = .resuming →
    ((s.lane l.val).tx.burst = 0 →
      ∃ t, exec (.syncHeaderRunReached l) s = .next t ∧ (t.lane l.val).st = .trained ∧ (t.lane l.val).lock = true ∧
        Only [.sent, .objs, .hlk, .mir] s t) ∧
    ((s.lane l.val).tx.burst ≠ 0 →
      ∃ t, exec (.syncHeaderRunReached l) s = .next t ∧ t.lane l.val = { s.lane l.val with lock := true } ∧
        t.num 0x2A19 (l.val + 1) = 64 ∧ ObjsOnly [(0x2A19, l.val + 1)] s t ∧ Only [.objs, .hlk] s t)) ∧
  (∀ (s : State) h (l : Lane) x, WriteTaken s h 0x2A18 (l.val + 1) (u8 1) x →
    (s.num 0x2A20 2 = 1 → (s.lane l.val).st = .aligning →
      ∃ t, exec (.bitSlip h l) s = .next t ∧ Answered t 0x13 0 h.seq.toNat ∧ t.num 0x2A19 (l.val + 1) = 0 ∧
        t.lane l.val = { s.lane l.val with slip := ((s.lane l.val).slip + 1) % 66 } ∧
        ObjsOnly [(0x2A19, l.val + 1)] s t ∧ Only [.wilwa, .sent, .objs, .hlk] s t) ∧
    ((s.num 0x2A20 2 ≠ 1 ∨ (s.lane l.val).st ≠ .aligning) → Refused (.bitSlip h l) h 0x13 (0x2A030100 + l.val) s)) ∧
  (∀ (s : State) (l : Lane), (s.lane l.val).st = .capability → (s.lane l.val).chosen = 0 →
    ∃ t, exec (.capResendInterval l) s = .next t ∧ t.sent = s.sent ++ [.lane l.val (.cap (s.num 0x2A20 5) 0)] ∧
      Only [.sent, .hlk] s t) ∧
  (∀ (s : State) (l : Lane), ((s.lane l.val).st ≠ .capability ∨ (s.lane l.val).chosen ≠ 0) →
    exec (.capResendInterval l) s = .next s) ∧
  (∀ (s : State) (l : Lane) c, (s.lane l.val).st = .capability → (s.lane l.val).chosen = 0 →
    ((if s.mir.role = .solo then 1 else 2) ≤ c.versions &&& s.num 0x2A20 5 &&& 7 →
      ∃ t v, exec (.capReceived l c) s = .next t ∧ (t.lane l.val).st = .capability ∧ (t.lane l.val).chosen = v ∧
        v = (if bit (c.versions &&& s.num 0x2A20 5 &&& 7) 2 then 3 else if bit (c.versions &&& s.num 0x2A20 5 &&& 7) 1 then 2 else 1) ∧
        t.obj 0x2A16 (l.val + 1) = .bytes (capBytes c) ∧ t.sent = s.sent ++ [.lane l.val (.cap (s.num 0x2A20 5) v)] ∧
        ObjsOnly [(0x2A16, l.val + 1)] s t ∧ Only [.sent, .objs, .hlk] s t) ∧
    (c.versions &&& s.num 0x2A20 5 &&& 7 < (if s.mir.role = .solo then 1 else 2) →
      ∃ t, exec (.capReceived l c) s = .next t ∧ (t.lane l.val).st = .down ∧ (t.lane l.val).failCause = 4 ∧
        (s.takesReports → Raised (0x2A20 + l.val) 4 t) ∧ Only [.fresh, .objs, .flt, .bbx, .hlk] s t)) ∧
  (∀ (s : State) (l : Lane) c, (s.lane l.val).st = .capability → (s.lane l.val).chosen ≠ 0 → c.chosen = (s.lane l.val).chosen →
    (s.capOk l.val c = true →
      ∃ t, exec (.capReceived l c) s = .next t ∧ (t.lane l.val).st = .latency ∧ (t.lane l.val).version = c.chosen ∧
        (t.lane l.val).probeOut = some 1 ∧ t.sent = s.sent ++ [.lane l.val (.sync s.therm.band 1)] ∧
        ObjsOnly [(0x2A16, l.val + 1)] s t ∧ Only [.sent, .objs, .hlk] s t) ∧
    (s.capOk l.val c = false →
      ∃ t, exec (.capReceived l c) s = .next t ∧ (t.lane l.val).st = .down ∧ (t.lane l.val).failCause = 5 ∧
        (s.takesReports → Raised (0x2A20 + l.val) 5 t) ∧ Only [.fresh, .objs, .flt, .bbx, .hlk] s t)) ∧
  (∀ (s : State) (l : Lane) c (g : BitVec 16) (q : BitVec 32) r, (s.lane l.val).st = .latency → (s.lane l.val).cap = some c →
      (s.lane l.val).probeOut = some g.toNat →
    ((s.lane l.val).probes.length < 15 →
      ∃ t, exec (.statEchoReceived l g q r) s = .next t ∧
        (t.lane l.val).probes = (s.lane l.val).probes ++ [oneWay c r q.toNat] ∧
        (t.lane l.val).probeOut = some ((s.lane l.val).probes.length + 2) ∧
        t.sent = s.sent ++ [.lane l.val (.sync s.therm.band ((s.lane l.val).probes.length + 2))] ∧ Only [.sent, .hlk] s t) ∧
    ((s.lane l.val).probes.length = 15 →
      5 * spreadOf ((s.lane l.val).probes ++ [oneWay c r q.toNat]) ≤ 132 →
      ∃ t, exec (.statEchoReceived l g q r) s = .next t ∧ (t.lane l.val).st = .tables ∧
        t.num 0x2A14 (l.val + 1) =
          (-(Int.fdiv (-(((s.lane l.val).probes ++ [oneWay c r q.toNat]).foldl (· + ·) 0)) 32)).toNat * 625 ∧
        Only [.fresh, .sent, .objs, .hlk] s t) ∧
    ((s.lane l.val).probes.length = 15 → (s.lane l.val).rounds = 2 →
      132 < 5 * spreadOf ((s.lane l.val).probes ++ [oneWay c r q.toNat]) →
      ∃ t, exec (.statEchoReceived l g q r) s = .next t ∧ (t.lane l.val).st = .down ∧ (t.lane l.val).failCause = 6 ∧
        (s.takesReports → Raised (0x2A20 + l.val) 6 t) ∧ Only [.fresh, .objs, .flt, .bbx, .hlk] s t)) ∧
  (∀ (s : State) (l : Lane) (q : BitVec 8), (s.lane l.val).tablesOut.contains q.toNat = true →
    ((s.lane l.val).tablesOut.filter (· != q.toNat) = [] → (s.lane l.val).st = .tables →
      ∃ t, exec (.statTableAckReceived l q 0) s = .next t ∧ (t.lane l.val).st = .trained ∧ (t.lane l.val).bandStale = false ∧
        Only [.sent, .objs, .hlk, .mir] s t) ∧
    ((s.lane l.val).tablesOut.filter (· != q.toNat) ≠ [] →
      ∃ t, exec (.statTableAckReceived l q 0) s = .next t ∧
        t.lane l.val = { s.lane l.val with tablesOut := (s.lane l.val).tablesOut.filter (· != q.toNat) } ∧ Only [.hlk] s t)) ∧
  (∀ (s : State) (l : Lane) (q r : BitVec 8), r ≠ 0 → exec (.statTableAckReceived l q r) s = .next s) ∧
  (∀ (s : State) (l : Lane), (s.lane l.val).tablesOut ≠ [] → ((s.lane l.val).st = .tables ∨ (s.lane l.val).st = .trained) →
    ∃ t, exec (.laneTableAckTimeout l) s = .next t ∧ (t.lane l.val).st = .down ∧ (t.lane l.val).failCause = 7 ∧
      (s.takesReports → Raised (0x2A20 + l.val) 7 t) ∧ Only [.fresh, .sent, .objs, .flt, .bbx, .wilwa, .fsq, .hlk, .hdg] s t) ∧
  (∀ (s : State) (l : Lane), (s.lane l.val).tablesOut = [] → exec (.laneTableAckTimeout l) s = .next s)

/-- Lanes in use (R264, R267, R270, R273, R274, R278, R280): OWNER, RELEASE, SYNC and probe frames at their intervals; a lost lock takes the
lane down; status is kept and its faults raised; LaneCommand retrains and tests; the checker counts injected errors. -/
def Obligations.LanesInUse : Prop :=
  (∀ (s : State) (l : Lane), s.owning l.val = true → s.mir.role = .solo →
    ∃ t, exec (.ownerInterval l) s = .next t ∧ t.sent = s.sent ++ [.lane l.val (.owner 0 500 s.hlk.soloGen)] ∧
      ObjsOnly [(0x2A20, 6)] s t ∧ Only [.sent, .objs, .hlk] s t) ∧
  (∀ (s : State) (l : Lane), s.owning l.val = true → s.mir.role = .active → (s.mir.st = .lone ∨ s.mir.st = .cold) →
    ∃ t, exec (.ownerInterval l) s = .next t ∧ t.mir = { s.mir with keyExpiry := some (s.tick + 200000) } ∧
      t.sent = s.sent ++ [.lane l.val (.owner 1 499 s.mir.keyGen)] ∧ ObjsOnly [(0x2A20, 6)] s t ∧
      Only [.sent, .objs, .hlk, .mir] s t) ∧
  (∀ (s : State) (l : Lane), s.owning l.val = false → exec (.ownerInterval l) s = .next s) ∧
  (∀ (s : State) (l : Lane), s.on domHLK = true → (s.lane l.val).st = .trained →
    (s.owning l.val = false →
      ∃ t, exec (.releaseRepeatInterval l) s = .next t ∧ t.sent = s.sent ++ [.lane l.val (.release (s.num 0x2A20 6))] ∧
        Only [.sent, .hlk] s t) ∧
    (s.owning l.val = true → exec (.releaseRepeatInterval l) s = .next s) ∧
    (∃ t, exec (.syncInterval l) s = .next t ∧ t.sent = s.sent ++ [.lane l.val (.sync s.therm.band 0)] ∧ Only [.sent, .hlk] s t)) ∧
  (∀ (s : State) (l : Lane), (s.lane l.val).st ≠ .trained →
    exec (.releaseRepeatInterval l) s = .next s ∧ exec (.syncInterval l) s = .next s ∧ exec (.latencyProbeInterval l) s = .next s ∧
      exec (.statSilenceTimeout l) s = .next s ∧ exec (.laneLockLost l) s = .next s) ∧
  (∀ (s : State) (l : Lane), (s.lane l.val).st = .trained → (s.lane l.val).version = 3 →
    ∃ t, exec (.latencyProbeInterval l) s = .next t ∧ (t.lane l.val).probeOut = some 1 ∧ (t.lane l.val).st = .trained ∧
      (∀ m, m ≠ l.val → t.lane m = s.lane m) ∧
      t.sent = s.sent ++ [.lane l.val (.sync s.therm.band 1)] ∧ Only [.sent, .hlk] s t) ∧
  (∀ (s : State) (l : Lane) c (g : BitVec 16) (q : BitVec 32) r w, (s.lane l.val).st = .trained → (s.lane l.val).cap = some c →
      (s.lane l.val).probeOut = some g.toNat → oneWay c r q.toNat = 2 * w → 0 ≤ w →
    ∃ t, exec (.statEchoReceived l g q r) s = .next t ∧ (t.lane l.val).probeOut = none ∧
      t.num 0x2A15 (l.val + 1) = w.toNat * 625 ∧
      (t.lane l.val).excursion = decide (s.num 0x2A20 4 < ((w.toNat * 625 : Nat) - (s.num 0x2A14 (l.val + 1) : Int)).natAbs) ∧
      ((t.lane l.val).excursion = true → (s.lane l.val).excursion = false → s.takesReports → Raised (0x2A80 + l.val) 0 t) ∧
      Only [.objs, .flt, .bbx, .hlk] s t) ∧
  (∀ (s : State) (l : Lane) x, s.on domHLK = true → (s.lane l.val).lock = true →
    ∃ t, exec (.statStatusReceived l x) s = .next t ∧ t.obj 0x2A17 (l.val + 1) = .bytes (statusBytes x) ∧
      vget t.hlk.genMax l.val 0 = max (vget s.hlk.genMax l.val 0) x.genMax.toNat ∧ t.hlk.lanes = s.hlk.lanes ∧
      ((bits x.ownerState.toNat 1 0 = 3 ∨ bits x.ownerState.toNat 3 2 = 3) → s.takesReports → Raised (0x2A40 + l.val) 0 t) ∧
      (x.flags ≠ 0 → s.fltRuns = true → s.flt.queue.length < 60 → Raised (0x2AE0 + l.val) 0 t) ∧
      Only [.objs, .flt, .bbx, .hlk, .mir] s t) ∧
  (∀ (s : State) (l : Lane) x, (s.lane l.val).lock = false → exec (.statStatusReceived l x) s = .next s) ∧
  (∀ (s : State) (l : Lane), (s.lane l.val).st = .trained →
    ∃ t, exec (.statSilenceTimeout l) s = .next t ∧ (s.takesReports → Raised (0x2AA0 + l.val) 0 t) ∧ Only [.objs, .flt, .bbx] s t) ∧
  (∀ (s : State) (l : Lane), (s.lane l.val).st = .trained →
    ∃ t, exec (.laneLockLost l) s = .next t ∧
      (s.hdg.phase ≠ 1 → (∀ b, b < 8 → (s.bar b).firing = none) →
        (t.lane l.val).st = (if s.num 0x2A20 3 = 1 ∧ s.boltedLane l.val = false then .aligning else .down) ∧
        (t.lane l.val).failCause = 8 ∧ (t.lane l.val).tokens = [] ∧
        t.sent = s.sent ++ [.lane l.val (.release (s.num 0x2A20 6))] ∧ (s.takesReports → Raised (0x2A00 + l.val) 0 t)) ∧
      Only [.fresh, .sent, .objs, .flt, .bbx, .wilwa, .mem, .dram, .fsq, .hlk, .hdg] s t) ∧
  (∀ (s : State) h (l : Lane) x v c, (v, c) ∈ [(1, Instr.laneRetrain h l), (2, .laneEnterTest h l), (3, .laneLeaveTest h l)] →
      WriteTaken s h 0x2A1F (l.val + 1) (u8 v) x →
    (s.boltedLane l.val = true → Refused c h 0x13 (0x2A04F200 + l.val) s) ∧
    (s.boltedLane l.val = false → (v = 1 ∧ (s.lane l.val).st ≠ .down ∨ v = 2 ∧ (s.lane l.val).st ≠ .deep ∨
        v = 3 ∧ (s.lane l.val).st ≠ .test) → Refused c h 0x13 (0x2A030200 + l.val) s) ∧
    (s.boltedLane l.val = false → v = 1 → (s.lane l.val).st = .down →
        s.inStates [.configured, .armed, .printing, .held] = true →
      ∃ t, exec (.laneRetrain h l) s = .next t ∧ Answered t 0x13 0 h.seq.toNat ∧ (t.lane l.val).st = .aligning ∧
        t.num 0x2A19 (l.val + 1) = 0 ∧ ObjsOnly [(0x2A19, l.val + 1)] s t ∧ Only [.wilwa, .sent, .objs, .hlk] s t) ∧
    (s.boltedLane l.val = false → v = 2 → (s.lane l.val).st = .deep → s.inStates [.standby, .configured] = true →
      ∃ t, exec (.laneEnterTest h l) s = .next t ∧ Answered t 0x13 0 h.seq.toNat ∧ (t.lane l.val).st = .waking ∧
        (t.lane l.val).toTest = true ∧ Only [.wilwa, .sent, .hlk] s t) ∧
    (s.boltedLane l.val = false → v = 3 → (s.lane l.val).st = .test →
      ∃ t, exec (.laneLeaveTest h l) s = .next t ∧ Answered t 0x13 0 h.seq.toNat ∧ (t.lane l.val).checker = false ∧
        (t.lane l.val).st = (if s.pwr.dev = .standby then .deep else .down) ∧
        ObjsOnly [(0x2A32, l.val + 1), (0x2A33, l.val + 1)] s t ∧ Only [.fresh, .wilwa, .sent, .objs, .hlk] s t)) ∧
  (∀ (s : State) h (l : Lane) x v c n, (v, c, n) ∈ [(1, Instr.testInjectBit h l, 1),
        (2, .testInjectBurst h l, max 1 (bits (s.num 0x2A30 (l.val + 1)) 7 0))] → WriteTaken s h 0x2A31 (l.val + 1) (u8 v) x →
    ((s.lane l.val).st = .test → (s.lane l.val).checker = true → bits (s.num 0x2A30 (l.val + 1)) 13 11 = 7 →
      ∃ t, exec c s = .next t ∧ Answered t 0x13 0 h.seq.toNat ∧
        t.num 0x2A32 (l.val + 1) = (s.num 0x2A32 (l.val + 1) + n) % 2 ^ 32 ∧ (t.lane l.val).tx.inject = n ∧
        ObjsOnly [(0x2A32, l.val + 1)] s t ∧ Only [.wilwa, .sent, .objs, .hlk] s t) ∧
    ((s.lane l.val).st = .test → (s.lane l.val).checker = false →
      ∃ t, exec c s = .next t ∧ Answered t 0x13 0 h.seq.toNat ∧ (t.lane l.val).tx.inject = n ∧ Only [.wilwa, .sent, .hlk] s t) ∧
    ((s.lane l.val).st ≠ .test → Refused c h 0x13 (0x2A030300 + l.val) s)) ∧
  (∀ (s : State) (l : Lane), (s.lane l.val).st = .test → bit (s.num 0x2A30 (l.val + 1)) 12 = true →
    ∃ t, exec (.checkerLock l) s = .next t ∧ t.lane l.val = { s.lane l.val with checker := true, checkFrom := s.tick } ∧
      Only [.hlk] s t) ∧
  (∀ (s : State) (l : Lane), (s.lane l.val).st ≠ .test → exec (.checkerLock l) s = .next s) ∧
  (∀ (s : State) (l : Lane), (s.lane l.val).checker = true →
    ∃ t, exec (.checkerLockLost l) s = .next t ∧ t.lane l.val = { s.lane l.val with checker := false } ∧
      (s.loops l.val = true → t.num 0x2A32 (l.val + 1) = s.num 0x2A32 (l.val + 1)) ∧
      ObjsOnly [(0x2A32, l.val + 1), (0x2A33, l.val + 1)] s t ∧ Only [.fresh, .objs, .hlk] s t) ∧
  (∀ (s : State) (l : Lane), (s.lane l.val).checker = false → exec (.checkerLockLost l) s = .next s)

/-- Head driver modules (R262 to R264, R268, R269, R272, R277, R278, R286): a LINE is held for its head, a TOKEN from the owner fires the held
lines that match and clears all; OWNER frames and RELEASE move ownership; SYNC, TABLE, CAP and MEAS are answered; nothing is
received without block lock. -/
def Obligations.HeadModulesObey : Prop :=
  (∀ (s : State) (m : Lane) (fromB : Bool) f, ((s.hdm m.val).input fromB).lock = true →
    ((if f.zeroLine then f.levels.isEmpty else f.levels.length == f.elements) = true →
      ∃ t, exec (.hdmLineFrame m fromB f true) s = .next t ∧
        kvGet (t.hdm m.val).held f.head = some { tag := f.number % 2 ^ 16, number := f.number % 2 ^ 32, bar := f.bar,
                                                 levels := if f.zeroLine then List.replicate f.elements 0 else f.levels } ∧
        (∀ k, k ≠ f.head → kvGet (t.hdm m.val).held k = kvGet (s.hdm m.val).held k) ∧
        (∀ k, k ≠ m.val → t.hdm k = s.hdm k) ∧ Only [.hdms] s t) ∧
    (∃ t, exec (.hdmLineFrame m fromB f false) s = .next t ∧ kvGet (t.hdm m.val).held f.head = none ∧
      ((t.hdm m.val).input fromB).crcErrors = ((s.hdm m.val).input fromB).crcErrors + 1 ∧
      (∀ k, k ≠ m.val → t.hdm k = s.hdm k) ∧ Only [.hdms] s t)) ∧
  (∀ (s : State) (m : Lane) (fromB : Bool) (hd : TokenHead) (n : BitVec 32) (g e : BitVec 16) k,
    ((s.hdm m.val).input fromB).lock = true →
    ((s.hdm m.val).owner (hdmIsHl1 m.val) fromB = 1 →
        ((s.hdm m.val).version = 3 → ((s.hdm m.val).input fromB).gen % 2 ^ 16 = e.toNat) →
        k.map (·.toNat) = some (tokenCrc hd g.toNat e.toNat n.toNat) →
      ∃ t, exec (.hdmToken m fromB hd n g e k) s = .next t ∧ (t.hdm m.val).held = [] ∧
        (t.hdm m.val).fired = ((s.hdm m.val).fired + 1) % 2 ^ 32 ∧ (t.hdm m.val).rejects = (s.hdm m.val).rejects ∧
        t.sent = s.sent ++ (((s.hdm m.val).held.filter fun x => x.2.tag == g.toNat && x.2.number == n.toNat).map fun x =>
          .hdm m.val fromB (.fire x.1 hd.bar.toNat n.toNat x.2.levels (hd.delay.toNat + (Config.hdmCap m.val).fireOffset)
            (s.hdm m.val).drives)) ∧ Only [.sent, .hdms] s t) ∧
    ((k.map (·.toNat) ≠ some (tokenCrc hd g.toNat e.toNat n.toNat) ∨ (s.hdm m.val).owner (hdmIsHl1 m.val) fromB ≠ 1 ∨
        (s.hdm m.val).version = 3 ∧ ((s.hdm m.val).input fromB).gen % 2 ^ 16 ≠ e.toNat) →
      ∃ t, exec (.hdmToken m fromB hd n g e k) s = .next t ∧ (t.hdm m.val).held = [] ∧
        (t.hdm m.val).rejects = ((s.hdm m.val).rejects + 1) % 2 ^ 16 ∧ (t.hdm m.val).fired = (s.hdm m.val).fired ∧
        Only [.hdms] s t)) ∧
  (∀ (s : State) (m : Lane) (fromB : Bool) (a : Bool) (g : BitVec 32) (v : BitVec 16), ((s.hdm m.val).input fromB).lock = true →
    (∃ t, exec (.hdmOwnerFrame m fromB a g v) s = .next t ∧ (t.hdm m.val).genMax = max (s.hdm m.val).genMax g.toNat ∧
      ((t.hdm m.val).input fromB).claims = (v != 0) ∧ ((t.hdm m.val).input fromB).gen = g.toNat ∧
      (t.hdm m.val).input (!fromB) = (s.hdm m.val).input (!fromB) ∧ Only [.hdms] s t) ∧
    (∃ t, exec (.hdmRelease m fromB) s = .next t ∧
      (t.hdm m.val).input fromB = { (s.hdm m.val).input fromB with claims := false } ∧
      (t.hdm m.val).input (!fromB) = (s.hdm m.val).input (!fromB) ∧ Only [.hdms] s t)) ∧
  (∀ (s : State) (m : Lane) (fromB : Bool),
    (∃ t, exec (.hdmValidforExpiry m fromB) s = .next t ∧
      (t.hdm m.val).input fromB = { (s.hdm m.val).input fromB with claims := false } ∧
      (t.hdm m.val).input (!fromB) = (s.hdm m.val).input (!fromB) ∧ Only [.hdms] s t) ∧
    (∃ t, exec (.hdmBlockLockLost m fromB) s = .next t ∧
      (t.hdm m.val).input fromB = { (s.hdm m.val).input fromB with lock := false } ∧
        (t.hdm m.val).owner (hdmIsHl1 m.val) fromB = 0 ∧
      (t.hdm m.val).input (!fromB) = (s.hdm m.val).input (!fromB) ∧ Only [.hdms] s t)) ∧
  (∀ (s : State) (m : Lane) (fromB : Bool) (d : BitVec 8) (e : BitVec 16), ((s.hdm m.val).input fromB).lock = true →
    ∃ t, exec (.hdmSyncFrame m fromB d e) s = .next t ∧
      (t.hdm m.val).nextBand = (if (s.hdm m.val).version = 3 ∧ d.toNat ≤ 3 then some d.toNat else (s.hdm m.val).nextBand) ∧
      (e = 0 → t.sent = s.sent) ∧
      (e ≠ 0 → ∃ k, t.sent = s.sent ++ s.hdmSent m.val fromB (.echo e.toNat k) ∧ k ≤ (Config.hdmCap m.val).maxTurnaround * 8 / 5) ∧
      Only [.fresh, .sent, .hdms] s t) ∧
  (∀ (s : State) (m : Lane) (fromB : Bool) (v q : BitVec 8) b, ((s.hdm m.val).input fromB).lock = true →
    (∃ t, exec (.hdmTableFrame m fromB v q b false) s = .next t ∧ t.sent = s.sent ++ s.hdmSent m.val fromB (.tableAck q.toNat 1) ∧
      (t.hdm m.val).tables = (s.hdm m.val).tables ∧ Only [.sent, .hdms] s t) ∧
    ((b = [] ∨ waveOk b = false ∨ v = 0 ∨ 7 < v.toNat) →
      ∃ t, exec (.hdmTableFrame m fromB v q b true) s = .next t ∧ t.sent = s.sent ++ s.hdmSent m.val fromB (.tableAck q.toNat 2) ∧
        (t.hdm m.val).tables = (s.hdm m.val).tables ∧ Only [.sent, .hdms] s t) ∧
    (b ≠ [] → waveOk b = true → v ≠ 0 → v.toNat ≤ 7 →
      ∃ t, exec (.hdmTableFrame m fromB v q b true) s = .next t ∧
        (if leAt b 0 1 = (Config.hdmCap m.val).kind then
            t.sent = s.sent ++ s.hdmSent m.val fromB (.tableAck q.toNat 0) ∧ kvGet (t.hdm m.val).tables v.toNat = some b
          else t.sent = s.sent ++ s.hdmSent m.val fromB (.tableAck q.toNat 3) ∧ (t.hdm m.val).tables = (s.hdm m.val).tables) ∧
            Only [.sent, .hdms] s t)) ∧
  (∀ (s : State) (m : Lane) (fromB : Bool) (v : BitVec 8), ((s.hdm m.val).input fromB).lock = true →
    ∃ t, exec (.hdmCapFrame m fromB v) s = .next t ∧
      (t.hdm m.val).version = (if v = 0 then (s.hdm m.val).version else v.toNat) ∧
      t.sent = s.sent ++ s.hdmSent m.val fromB (.cap { Config.hdmCap m.val with chosen := v.toNat, input := b2n fromB }) ∧
      Only [.sent, .hdms] s t) ∧
  (∀ (s : State) (m : Lane) (fromB : Bool) (hd f n : BitVec 16) (k g : BitVec 8), ((s.hdm m.val).input fromB).lock = true →
    ∃ t r, exec (.hdmMeasFrame m fromB hd f n k g) s = .next t ∧ t.sent = s.sent ++ s.hdmSent m.val fromB (.measResult r) ∧
      r.tag = g ∧ r.first = f ∧ r.kind = k ∧
      (((s.hdm m.val).owner (hdmIsHl1 m.val) fromB ≠ 1 ∧
        ((s.hdm m.val).owner (hdmIsHl1 m.val) false = 1 ∨ (s.hdm m.val).owner (hdmIsHl1 m.val) true = 1)) → r.result = 1) ∧
      ((n = 0 ∨ 64 < n.toNat) → r.result = 1 ∨ r.result = 3) ∧
      (r.result = 0 → r.values = (List.range n.toNat).map fun i =>
        BitVec.ofNat 16 (Config.element m.val hd.toNat (f.toNat + i) k.toNat)) ∧ Only [.fresh, .sent, .hdms] s t) ∧
  (∀ (s : State) (m : Lane), ((s.hdm m.val).input false).lock = true → ((s.hdm m.val).input true).lock = false →
    ∃ t x, exec (.hdmStatusInterval m) s = .next t ∧ t.sent = s.sent ++ s.hdmSent m.val false (.status x) ∧
      x.fired = BitVec.ofNat 32 (s.hdm m.val).fired ∧ x.rejects = BitVec.ofNat 16 (s.hdm m.val).rejects ∧
      x.mismatches = BitVec.ofNat 16 (s.hdm m.val).mismatches ∧ Only [.fresh, .sent, .hdms] s t) ∧
  (∀ (s : State) (m : Lane), ((s.hdm m.val).input false).lock = true → ((s.hdm m.val).input true).lock = true →
    ∃ t x y, exec (.hdmStatusInterval m) s = .next t ∧
      t.sent = s.sent ++ s.hdmSent m.val false (.status x) ++ s.hdmSent m.val true (.status y) ∧
        Only [.fresh, .sent, .hdms] s t) ∧
  (∀ (s : State) (m : Lane) (fromB : Bool), ∃ t, exec (.hdmBlockAligned m fromB) s = .next t ∧
    (if (fromB && hdmIsHl1 m.val) = true then t = s
      else ((t.hdm m.val).input fromB).lock = true ∧ ∃ x, t.sent = s.sent ++
        s.hdmSent m.val fromB (.cap { Config.hdmCap m.val with chosen := 0, input := b2n fromB }) ++
        [.hdm m.val fromB (.status x), .hdmFrame m.val fromB
          (hdmBlocks ((((s.hdm m.val).input fromB).frameSeq + 1) % 256) (.status x))]) ∧
    Only [.fresh, .sent, .hdms] s t) ∧
  (∀ (s : State) (m : Lane) (fromB : Bool), ((s.hdm m.val).input fromB).lock = false →
    (∀ f k, exec (.hdmLineFrame m fromB f k) s = .next s) ∧
      (∀ hd n g (e : BitVec 16) k, exec (.hdmToken m fromB hd n g e k) s = .next s) ∧
    (∀ (a : Bool) g v, exec (.hdmOwnerFrame m fromB a g v) s = .next s) ∧ exec (.hdmRelease m fromB) s = .next s ∧
    (∀ d (e : BitVec 16), exec (.hdmSyncFrame m fromB d e) s = .next s) ∧
      (∀ v (q : BitVec 8) b k, exec (.hdmTableFrame m fromB v q b k) s = .next s) ∧
    (∀ v, exec (.hdmCapFrame m fromB v) s = .next s) ∧ (∀ d f n k g, exec (.hdmMeasFrame m fromB d f n k g) s = .next s))

/-- Measurement of the heads (R284, R285, R287 to R289, R292, R294): a start sends each trained lane its first MEAS; a matching result is
stored and the next MEAS goes out; an answer that stays out is asked for once more, then skipped with F2B20h + l; a run is abandoned;
a pending map and a baseline become shadows. -/
def Obligations.HeadsAreMeasured : Prop :=
  (∀ (s : State) h x, WriteTaken s h 0x2B10 2 (u8 1) x →
    (s.boltedHdg = true → Refused (.measStart h) h 0x13 0x2B04F200 s) ∧
    (s.boltedHdg = false → (s.inStates [.configured, .held] = false ∨ s.mir.role = .standby) →
      Refused (.measStart h) h 0x13 0x2B030100 s) ∧
    (s.boltedHdg = false → s.inStates [.configured, .held] = true → s.mir.role ≠ .standby → s.hdg.phase = 1 →
      Refused (.measStart h) h 0x13 0x2B030300 s) ∧
    (s.boltedHdg = false → s.inStates [.configured, .held] = true → s.mir.role ≠ .standby → s.hdg.phase ≠ 1 →
        (∀ b ∈ barsOf (s.num 0x2B10 1), (s.map b).isEmpty = false ∧ ∀ l ∈ s.lanesOf b, (s.lane l).st = .trained) →
      ∃ t, exec (.measStart h) s = .next t ∧ Answered t 0x13 0 h.seq.toNat ∧ t.hdg.startTick = s.tick ∧
        (t.hdg.phase = 1 ∨ t.hdg.phase = 2) ∧ (barsOf (s.num 0x2B10 1) = [] → t.hdg.phase = 2) ∧
        (∀ b ∈ barsOf (s.num 0x2B10 1), ∀ l ∈ s.lanesOf b, ∀ c, 2 ≤ (s.lane l).version → s.laneHeads l ≠ [] →
          (s.lane l).cap = some c → (t.lane l).meas.map (fun o => (o.head, o.first, o.kind)) = some (0, 0, firstKind c)) ∧
        Only [.sent, .objs, .flt, .bbx, .wilwa, .fsq, .hlk, .hdg] s t)) ∧
  (∀ (s : State) h x, WriteTaken s h 0x2B10 2 (u8 2) x →
    (s.hdg.phase = 1 → ∃ t, exec (.measAbandon h) s = .next t ∧ Answered t 0x13 0 h.seq.toNat ∧ t.hdg.phase = 3 ∧
      t.hdg.pending = 0 ∧
      Only [.sent, .objs, .flt, .bbx, .wilwa, .hlk, .hdg, .mir] s t) ∧
    (s.hdg.phase ≠ 1 → ∃ t, exec (.measAbandon h) s = .next t ∧ Answered t 0x13 0 h.seq.toNat ∧ Only [.wilwa, .sent] s t)) ∧
  (∀ (s : State) h x, WriteTaken s h 0x2B10 2 (u8 3) x →
    (s.hdg.phase = 1 → Refused (.measCaptureBaseline h) h 0x13 0x2B030300 s) ∧
    (s.hdg.phase ≠ 1 → (∀ b ∈ barsOf (s.num 0x2B10 1), bit s.hdg.done b = true) →
      ∃ t, exec (.measCaptureBaseline h) s = .next t ∧ Answered t 0x13 0 h.seq.toNat ∧
        (∀ b ∈ barsOf (s.num 0x2B10 1), kvGet t.wilwa.shadow (key 0x2B12 (b + 1)) = some (.bytes
          ((List.range (s.map b).length).flatMap fun a => if (s.measRec b a).status = 0 then
            u16 (s.measRec b a).primary ++ u16 (s.measRec b a).leak else u32 0))) ∧ Only [.wilwa, .sent] s t)) ∧
  (∀ (s : State) h (b : Bar) x, WriteTaken s h 0x2B19 (b.val + 1) (u8 1) x →
    (bit s.hdg.pendingValid b.val = true →
      ∃ t, exec (.pendingApply h b) s = .next t ∧ Answered t 0x13 0 h.seq.toNat ∧
        kvGet t.wilwa.shadow (key 0x2710 (b.val + 1)) = some (.bytes (vget s.hdg.pendingMap b.val [])) ∧
        t.hdg = { s.hdg with pendingValid := s.hdg.pendingValid - 2 ^ b.val } ∧ Only [.wilwa, .sent, .hdg] s t) ∧
    (bit s.hdg.pendingValid b.val = false → Refused (.pendingApply h b) h 0x13 (0x2B030600 + b.val) s)) ∧
  (∀ (s : State) (l : Lane) (r : MeasResult) o hd f k, (s.lane l.val).meas = some o → r.tag.toNat = o.tag →
    r.first.toNat = o.first →
      r.count.toNat = o.count → r.kind.toNat = o.kind → r.head.toNat = o.head → r.result = 0 → o.kind ≠ 3 → s.laneBar l.val < 8 →
      s.measNext l.val o = some (hd, f, k) →
    ∃ t, exec (.statMeasResultReceived l r) s = .next t ∧
      (t.lane l.val).meas.map (fun o => (o.head, o.first, o.kind, o.retried)) = some (hd, f, k, false) ∧
      (∀ a i, a < (s.map (s.laneBar l.val)).length → i < o.count →
        ((s.map (s.laneBar l.val)).getD a default).head = s.barHead l.val o.head →
        ((s.map (s.laneBar l.val)).getD a default).element = o.first + i →
        (t.measRec (s.laneBar l.val) a).primary = (r.values.map (·.toNat)).getD i 0) ∧ Only [.sent, .hlk, .hdg] s t) ∧
  (∀ (s : State) (l : Lane) (r : MeasResult), (∀ o, (s.lane l.val).meas = some o → r.tag.toNat ≠ o.tag) →
    exec (.statMeasResultReceived l r) s = .next s) ∧
  (∀ (s : State) (l : Lane) o, (s.lane l.val).meas = some o →
    (o.retried = false →
      ∃ t, exec (.measTimeout l) s = .next t ∧
        (t.lane l.val).meas.map (fun o => (o.head, o.first, o.kind, o.retried)) = some (o.head, o.first, o.kind, true) ∧
        Only [.sent, .hlk] s t) ∧
    (o.retried = true →
      ∃ t, exec (.measTimeout l) s = .next t ∧ (s.takesReports → Raised (0x2B20 + l.val) 0 t) ∧
        (∀ p, (t.lane l.val).meas = some p → p.retried = false) ∧
        Only [.sent, .objs, .flt, .bbx, .wilwa, .fsq, .hlk, .hdg] s t)) ∧
  (∀ (s : State) (l : Lane), (s.lane l.val).meas = none → exec (.measTimeout l) s = .next s)

/-- Roles and mirror commands (R4, R346, R347, R362, R367, R369): a fused device changes its role in STANDBY or CONFIGURED outside WARM;
the commands pair again, swap, take over and dissolve where the mirror state allows, and are refused elsewhere. -/
def Obligations.RolesAndMirrorCommands : Prop :=
  (∀ (s : State) h x v c r, (v, c, r) ∈ [(0, Instr.roleRequestSolo h, Role.solo), (1, .roleRequestActive h, .active),
        (2, .roleRequestStandby h, .standby)] → WriteTaken s h 0x3210 1 (u8 v) x →
    (s.fuses.mirror = false → v ≠ 0 → Refused c h 0x13 0x32040100 s) ∧
    (s.fuses.mirror = false → v = 0 → ∃ t, exec c s = .next t ∧ Answered t 0x13 0 h.seq.toNat ∧ Only [.wilwa, .sent] s t) ∧
    (s.fuses.mirror = true → s.inStates [.standby, .configured] = false → Refused c h 0x13 0x32030100 s) ∧
    (s.fuses.mirror = true → s.inStates [.standby, .configured] = true → s.mir.st = .warm → Refused c h 0x13 0x32030300 s) ∧
    (s.fuses.mirror = true → s.inStates [.standby, .configured] = true → s.mir.st ≠ .warm →
      ∃ t, exec c s = .next t ∧ Answered t 0x13 0 h.seq.toNat ∧ t.mir.role = r ∧ t.num 0x3210 1 = v ∧
        (v = 0 → t.mir.st = .off ∧ t.mir.keyExpiry = none) ∧
        (v ≠ 0 → s.on domMIR = true → s.mir.st = .off → t.mir.st = if s.mir.link then .hello else .linking) ∧
        ObjsOnly [(0x3210, 1), (0x2A20, 6)] s t ∧ Only [.wilwa, .sent, .objs, .mir] s t)) ∧
  (∀ (s : State) h x, WriteTaken s h 0x3210 3 (u8 1) x →
    (∀ p, s.mir.st = .lone → s.mir.link = true → s.mir.partner = some p → p.role = 2 →
        commonFormat (s.num 0x3210 5) p.versions.toNat ≠ 0 →
      ∃ t, exec (.mirrorPairAgain h) s = .next t ∧ Answered t 0x13 0 h.seq.toNat ∧ t.mir.st = .warm ∧ t.mir.role = s.mir.role ∧
        t.mir.format = commonFormat (s.num 0x3210 5) p.versions.toNat ∧ Only [.wilwa, .sent, .mir] s t) ∧
    ((s.mir.st ≠ .lone ∨ s.mir.link = false ∨ s.mir.partner = none) → Refused (.mirrorPairAgain h) h 0x13 0x32030201 s)) ∧
  (∀ (s : State) h x v c, (v, c) ∈ [(2, Instr.mirrorPlannedSwap h), (4, .mirrorDissolve h)] → WriteTaken s h 0x3210 3 (u8 v) x →
    (s.mir.st = .warm → s.mir.role = .active →
      ∃ t, exec c s = .next t ∧ Answered t 0x13 0 h.seq.toNat ∧
        t.mir = (if v = 2 then { s.mir with swap := true } else { s.mir with dissolve := true }) ∧ Only [.wilwa, .sent, .mir] s t) ∧
    ((s.mir.st ≠ .warm ∨ s.mir.role ≠ .active) → Refused c h 0x13 (0x32030200 + v) s)) ∧
  (∀ (s : State) h x, WriteTaken s h 0x3210 3 (u8 3) x →
    ((s.mir.st = .cold ∧ s.mir.role = .standby ∨ s.mir.st = .orphan) →
      ∃ t, exec (.mirrorTakeOver h) s = .next t ∧ Answered t 0x13 0 h.seq.toNat ∧ t.mir.role = .active ∧ t.mir.st = .lone ∧
        t.mir.keyGen = (s.partnerGen + 1) % 2 ^ 32 ∧ t.mir.keyExpiry = some (s.tick + 200000) ∧
        (s.takesReports → Raised 0x3205 2 t) ∧ Only [.fresh, .sent, .objs, .flt, .bbx, .wilwa, .fsq, .hlk, .mir] s t) ∧
    (s.mir.st ≠ .orphan → (s.mir.st ≠ .cold ∨ s.mir.role ≠ .standby) → Refused (.mirrorTakeOver h) h 0x13 0x32030203 s))

/-- The pair and its link (R347, R348, R351, R352, R354, R355, R358 to R363, R367): the link comes up and goes, HELLO leads to WARM, COLD
or CONFLICT, each cycle's STATE and SACK renew the Key and the takeover timer, an expired Key is given up, an expired timer takes
over, and the partner's frames are taken in. -/
def Obligations.TheMirrorPairRuns : Prop :=
  (∀ s : State, s.on domMIR = true → s.mir.role ≠ .solo →
    ∃ t, exec .icselLinkUp s = .next t ∧ t.mir.link = true ∧ t.mir.locked = 15 ∧ t.mir.role = s.mir.role ∧
      t.mir.st = (if s.mir.st = .linking then .hello else s.mir.st) ∧ Only [.sent, .mir] s t) ∧
  (∀ s : State, s.mir.role = .solo → exec .icselLinkUp s = .next s) ∧
  (∀ s : State, s.on domMIR = true → s.mir.link = true →
    ∃ t, exec .icselLinkLost s = .next t ∧ t.mir.link = false ∧ t.mir.cause = 1 ∧ t.mir.role = s.mir.role ∧
      t.mir.st = (if s.mir.st = .cold then (if s.mir.role = .active then .lone else .orphan) else s.mir.st) ∧
      (s.takesReports → Raised 0x3200 0 t) ∧ Only [.fresh, .objs, .flt, .bbx, .mir] s t) ∧
  (∀ s : State, s.mir.link = false → exec .icselLinkLost s = .next s ∧ ∀ f r, exec (.helloReceived f r) s = .next s) ∧
  (∀ s : State, s.on domMIR = true → s.mir.link = true → (s.mir.st = .hello ∨ s.mir.st = .cold ∨ s.mir.st = .conflict) →
    ∃ t b, exec .helloInterval s = .next t ∧ t.sent = s.sent ++ [.link b] ∧ t.mir = { s.mir with seq := (s.mir.seq + 1) % 2 ^ 32 } ∧
      Only [.sent, .mir] s t) ∧
  (∀ s : State, (s.mir.st = .warm ∨ s.mir.st = .lone ∨ s.mir.st = .off) → exec .helloInterval s = .next s) ∧
  (∀ (s : State) f r, s.on domMIR = true → s.mir.link = true → s.mir.st = .hello → f.echoTag = 0 →
    (f.role.toNat = s.mir.role.code →
      ∃ t, exec (.helloReceived f r) s = .next t ∧ t.mir = { s.mir with partner := some f, st := .conflict, cause := 4 } ∧
        (s.takesReports → Raised 0x3202 0 t) ∧ Only [.objs, .flt, .bbx, .mir] s t) ∧
    (f.role.toNat ≠ s.mir.role.code → commonFormat (s.num 0x3210 5) f.versions.toNat = 0 →
      ∃ t, exec (.helloReceived f r) s = .next t ∧ t.mir.st = .cold ∧ t.mir.cause = 2 ∧ t.mir.partner = some f ∧
        (s.takesReports → Raised 0x3201 2 t) ∧ Only [.objs, .flt, .bbx, .mir] s t) ∧
    (f.role.toNat ≠ s.mir.role.code → commonFormat (s.num 0x3210 5) f.versions.toNat ≠ 0 → s.mir.role = .active → s.mir.format = 0 →
      ∃ t b, exec (.helloReceived f r) s = .next t ∧ t.mir.format = commonFormat (s.num 0x3210 5) f.versions.toNat ∧
        t.mir.st = .hello ∧ t.sent = s.sent ++ [.link b] ∧ Only [.sent, .mir] s t) ∧
    (∀ k, f.role.toNat ≠ s.mir.role.code → commonFormat (s.num 0x3210 5) f.versions.toNat ≠ 0 → s.mir.role = .active →
        s.mir.format ≠ 0 → s.mir.probeOut = some k → f.echoReturn.toNat = k → s.mir.probes.length = 15 →
      ∃ t d, exec (.helloReceived f r) s = .next t ∧
        d = (-Int.fdiv (-((s.mir.probes ++ [(r : Int) - f.turnaround.toNat]).foldl (fun a x => a + x) 0)) 32).toNat ∧
        t.mir.latency = d ∧ t.mir.st = (if d ≤ 1600 then .warm else .cold) ∧
        (1600 < d → t.mir.cause = 3 ∧ (s.takesReports → Raised 0x3201 3 t)) ∧ Only [.objs, .flt, .bbx, .mir] s t)) ∧
  (∀ s : State, s.on domMIR = true → s.mir.st = .warm → s.mir.role = .active →
    (s.mir.handover = false → s.mir.swap = false →
      ∃ t, exec .mirrorCycleBoundary s = .next t ∧ t.mir.cycle = (s.mir.cycle + 1) % 2 ^ 32 ∧ t.mir.acked = false ∧
        t.mir.departures = (((s.mir.cycle + 1) % 2 ^ 32, s.tick) :: s.mir.departures).take 16 ∧
        t.num 0x3212 1 = (s.num 0x3212 1 + 1) % 2 ^ 32 ∧
        (s.mir.acked = false → t.num 0x3212 3 = (s.num 0x3212 3 + 1) % 2 ^ 32) ∧
        (s.mir.link = true → ∃ b, t.sent = s.sent ++ [.link b]) ∧ Only [.fresh, .sent, .objs, .mir] s t) ∧
    (s.mir.handover = false → s.mir.swap = true →
      ∃ t, exec .mirrorCycleBoundary s = .next t ∧ t.mir.handover = true ∧ t.mir.swap = false ∧
        (∀ l, l < 32 → (t.lane l).tokens = []) ∧ Only [.fresh, .sent, .objs, .flt, .bbx, .wilwa, .mem, .dram, .fsq, .hlk, .hdg,
          .mir] s t) ∧
    (s.mir.handover = true → s.mir.flagCycle = none →
      ∃ t, exec .handoverStateSend s = .next t ∧ t.mir.keyExpiry = none ∧ t.mir.cycle = (s.mir.cycle + 1) % 2 ^ 32 ∧
        t.mir.flagCycle = some ((s.mir.cycle + 1) % 2 ^ 32) ∧ Only [.fresh, .sent, .objs, .mir] s t)) ∧
  (∀ s : State, (s.on domMIR = false ∨ s.mir.st ≠ .warm ∨ s.mir.role ≠ .active) →
    exec .mirrorCycleBoundary s = .next s ∧ exec .handoverStateSend s = .next s) ∧
  (∀ (s : State) (k : BitVec 32) b, s.linkWarm = true → s.mir.role = .standby →
    (∃ t, exec (.stateFrameReceived k 0 0 b) s = .next t ∧ t.mir.role = .standby ∧ t.mir.st = .warm ∧ t.mir.cycle = k.toNat ∧
      t.mir.block = some b ∧ t.mir.keyGen = b.keyGen.toNat ∧ t.mir.takeoverAt = some (s.tick + 220000) ∧
      Only [.fresh, .sent, .objs, .flt, .bbx, .fet, .pos, .lcg, .sne, .fsq, .hlk, .che, .mir] s t) ∧
    (∃ t, exec (.stateFrameReceived k 1 0 b) s = .next t ∧ t.mir.role = .active ∧ t.mir.st = .warm ∧
      t.mir.keyGen = (b.keyGen.toNat + 1) % 2 ^ 32 ∧
      Only [.fresh, .sent, .objs, .flt, .bbx, .fet, .pos, .lcg, .sne, .fsq, .hlk, .che, .mir] s t) ∧
    (∃ t, exec (.stateFrameReceived k 2 0 b) s = .next t ∧ t.mir.role = .standby ∧ t.mir.st = .orphan ∧ t.mir.takeoverAt = none ∧
      Only [.fresh, .sent, .objs, .flt, .bbx, .fet, .pos, .lcg, .sne, .fsq, .hlk, .che, .mir] s t) ∧
    (∀ (f : BitVec 8) (r : Fin 4), r ≠ 0 →
      ∃ t y, exec (.stateFrameReceived k f r b) s = .next t ∧ t.sent = s.sent ++ [.link y] ∧
        t.mir = { s.mir with seq := (s.mir.seq + 1) % 2 ^ 32 } ∧ Only [.sent, .mir] s t)) ∧
  (∀ (s : State) k f r b, s.mir.role ≠ .standby → exec (.stateFrameReceived k f r b) s = .next s) ∧
  (∀ (s : State) (k : BitVec 32) (r : BitVec 8) d, s.linkWarm = true → s.mir.role = .active →
      s.mir.departures.find? (fun e => e.1 == k.toNat) = some (k.toNat, d) →
    (s.mir.handover = false → s.mir.flagCycle = none → s.halted = false →
      ∃ t, exec (.sackReceived k 0 r) s = .next t ∧ t.mir.keyExpiry = some (max (s.mir.keyExpiry.getD 0) (d + 200000)) ∧
        t.mir.lastSack = k.toNat ∧ t.mir.partnerReady = bit r.toNat 0 ∧ t.mir.role = .active ∧ t.mir.st = .warm ∧
        t.num 0x3212 2 = (s.num 0x3212 2 + 1) % 2 ^ 32 ∧ Only [.sent, .objs, .hlk, .mir] s t) ∧
    (s.mir.handover = true → s.mir.flagCycle = some k.toNat →
      ∃ t, exec (.sackReceived k 0 r) s = .next t ∧ t.mir.role = .standby ∧ t.mir.handover = false ∧ t.mir.takeoverAt = none ∧
        t.num 0x3212 7 = (s.num 0x3212 7 + 1) % 2 ^ 32 ∧ (s.takesReports → Raised 0x3207 0 t) ∧
        Only [.objs, .flt, .bbx, .mir] s t) ∧
    (∀ q, q ≠ 0 → ∃ t, exec (.sackReceived k q r) s = .next t ∧ t.mir.keyExpiry = s.mir.keyExpiry ∧
      t.mir.slotsMatch = bit r.toNat 1 ∧ Only [.mir] s t)) ∧
  (∀ (s : State) k q r, (s.linkWarm = false ∨ s.mir.role ≠ .active) → exec (.sackReceived k q r) s = .next s) ∧
  (∀ (s : State) (a : BitVec 8) (g : BitVec 32) d n, s.linkWarm = true → s.mir.role = .standby → isAdminArea a.toNat = true →
    s.on domMGT = true →
    ∃ t, exec (.commitFrameReceived a g d n) s = .next t ∧
      t.mir.diverged = !decide (digest (s.areaShadow a.toNat) = d.toNat ∧ (s.areaShadow a.toNat).length = n.toNat) ∧
      (s.areaShadow a.toNat = [] → (∀ e ∈ s.wilwa.staged, e.1 / 65536 ≠ a.toNat) →
        (t.adm a.toNat).generation = g.toNat ∧ (t.adm a.toNat).result = 0 ∧
        (n ≠ 0 → s.takesReports → Raised 0x3210 0 t)) ∧
      Only [.fresh, .sent, .objs, .flt, .bbx, .wilwa, .tim, .cmp, .sne, .fsq, .hlk, .hdg, .vis, .mir] s t) ∧
  (∀ (s : State) (q n : BitVec 32) b, s.linkWarm = true → s.takesForwarded = true → s.on domRFE = true → s.halted = false →
    (b.length < n.toNat →
      exec (.fwdReceived q 0 n b) s = .next { s with mir := { s.mir with fwd := some (q.toNat, n.toNat, b) } }) ∧
    (n.toNat ≤ b.length → ∃ t, exec (.fwdReceived q 0 n b) s = .next t ∧ t.mir.fwd = none ∧
      Only [.fresh, .sent, .objs, .flt, .bbx, .rin, .mir] s t) ∧
    (∀ (o : BitVec 32) (c : Bytes), o ≠ 0 → s.mir.fwd = some (q.toNat, n.toNat, c) → c.length = o.toNat →
      c.length + b.length < n.toNat →
      exec (.fwdReceived q o n b) s = .next { s with mir := { s.mir with fwd := some (q.toNat, n.toNat, c ++ b) } })) ∧
  (∀ (s : State) f, s.linkWarm = true → f.slot.toNat < 2 →
    ∃ t, exec (.slotFrameReceived f) s = .next t ∧ vget t.mir.partnerSlots f.slot.toNat none = some f ∧
      (s.mir.role = .standby → t.mir.slotsMatch = (t.slotAgrees 0 && t.slotAgrees 1)) ∧ Only [.objs, .flt, .bbx, .mir] s t) ∧
  (∀ (s : State) (b : Bar) (y : Bytes), s.linkWarm = true → s.mir.role = .standby → s.on domCTL = true →
    ∃ t, exec (.refFrameReceived b y) s = .next t ∧ t.obj 0x2819 (b.val + 1) = .bytes y ∧ ObjsOnly [(0x2819, b.val + 1)] s t ∧
      Only [.objs] s t) ∧
  (∀ s : State, s.linkWarm = false → (∀ q (o : BitVec 32) n b, exec (.fwdReceived q o n b) s = .next s) ∧
    (∀ f, exec (.slotFrameReceived f) s = .next s) ∧ (∀ b (y : Bytes), exec (.refFrameReceived b y) s = .next s) ∧
    ∀ (a : BitVec 8) (g : BitVec 32) d n, exec (.commitFrameReceived a g d n) s = .next s) ∧
  (∀ (s : State) k, s.mir.keyExpiry = some k →
    (s.mir.st = .warm → s.mir.role = .active → k ≤ s.tick →
      ∃ t, exec .keyExpiry s = .next t ∧ t.mir.role = .standby ∧ t.mir.st = .orphan ∧ t.mir.cause = 5 ∧ t.mir.keyExpiry = none ∧
        t.mir.lastExpiry = k ∧ t.mir.seenPartner = some 0 ∧ (∀ l, l < 32 → (t.lane l).tokens = []) ∧
        ((∀ b, b < 8 → (s.bar b).firing = none) → s.takesReports → Raised 0x3204 0 t) ∧
        Only [.fresh, .sent, .objs, .flt, .bbx, .wilwa, .mem, .dram, .fsq, .hlk, .hdg, .mir] s t) ∧
    (s.tick < k → exec .keyExpiry s = .next s)) ∧
  (∀ (s : State) k, s.mir.takeoverAt = some k → s.mir.st = .warm → s.mir.role = .standby →
    (k ≤ s.tick → s.inStates ownStates = true →
      ∃ t, exec .takeoverAtReached s = .next t ∧ t.mir.role = .active ∧ t.mir.st = .lone ∧
        t.mir.keyGen = (s.partnerGen + 1) % 2 ^ 32 ∧ t.mir.takeoverAt = none ∧ (s.takesReports → Raised 0x3205 1 t) ∧
        Only [.fresh, .sent, .objs, .flt, .bbx, .fsq, .hlk, .mir] s t) ∧
    (k ≤ s.tick → s.inStates ownStates = false →
      ∃ t, exec .takeoverAtReached s = .next t ∧ t.mir = { s.mir with st := .orphan, takeoverAt := none } ∧
        (s.takesReports → Raised 0x3203 0 t) ∧ Only [.objs, .flt, .bbx, .mir] s t) ∧
    (s.tick < k → exec .takeoverAtReached s = .next s)) ∧
  (∀ (s : State) n, s.mir.seenPartner = some n → s.mir.st = .orphan → s.num 0x3210 6 ≠ 0 →
      s.mir.lastExpiry + 20000 + s.num 0x3210 6 * 400 ≤ s.tick →
    (n = 0 →
      ∃ t, exec .reclaimCheck s = .next t ∧ t.mir.role = .active ∧ t.mir.st = .lone ∧ t.mir.keyGen = (s.mir.keyGen + 2) % 2 ^ 32 ∧
        (s.takesReports → Raised 0x3206 0 t) ∧ Only [.fresh, .sent, .objs, .flt, .bbx, .fsq, .hlk, .mir] s t) ∧
    (n ≠ 0 →
      ∃ t, exec .reclaimCheck s = .next t ∧ t.mir = { s.mir with seenPartner := none, cause := 6 } ∧
        (s.takesReports → Raised 0x3214 0 t) ∧ Only [.objs, .flt, .bbx, .mir] s t)) ∧
  (∀ s : State, s.mir.seenPartner = none → exec .reclaimCheck s = .next s)

/-- Reports, reactions, the rails and the collector's objects (R371, R375 to R377, R379, R380, R382 to R385, R388, R401): a report is
queued, counted lost, or held for the next boot; it is logged with its reactions, of which latch mode applies LOG and IRQ alone (R381); a
rail fault raises or, in latch mode, latches. -/
def Obligations.FaultsAreReportedAndLogged : Prop :=
  (∀ (s : State) m, sourceExists m.source.toNat = true →
    (s.takesReports → ∃ t, exec (.faultReport m) s = .next t ∧ Raised m.source.toNat (m.code.toNat / 256) t ∧
      Only [.objs, .flt] s t) ∧
    (s.fltRuns = true → 64 ≤ s.flt.queue.length →
      ∃ t, exec (.faultReport m) s = .next t ∧ t.flt = { s.flt with lost := s.flt.lost + 1 } ∧
        t.num 0x2F10 4 = (s.num 0x2F10 4 + 1) % 2 ^ 32 ∧ Only [.objs, .flt] s t) ∧
    (s.fltRuns = false →
      ∃ r, exec (.faultReport m) s = .next { s with bbx := { s.bbx with waiting := s.bbx.waiting ++ [r] } } ∧
        r.source = m.source.toNat ∧ r.cause = m.code.toNat / 256 ∧ r.data = m.data)) ∧
  (∀ (s : State) m, sourceExists m.source.toNat = false → exec (.faultReport m) s = .next s) ∧
  (∀ s : State, (s.fltRuns = false ∨ (s.flt.queue = [] ∧ s.flt.snapWanted = false)) → exec .faultReportTaken s = .next s) ∧
  (∀ (s : State) r rest, s.fltRuns = true → s.flt.queue = r :: rest → s.flt.lost = 0 → s.flt.snapWanted = false →
    r.source ≠ 0x3003 →
    (s.applied r = 1 →
      ∃ t, exec .faultReportTaken s = .next t ∧ t.flt.queue = rest ∧ t.flt.history = lastN 32 (s.flt.history ++ [s.recordOf r 1]) ∧
        t.bbx = { s.bbx with ring := lastN 4096 (s.bbx.ring ++ [s.recordOf r 1]), nextSeq := (s.bbx.nextSeq + 1) % 2 ^ 32 } ∧
        Only [.flt, .bbx] s t) ∧
    (s.applied r = 0x41 →
      ∃ t, exec .faultReportTaken s = .next t ∧ t.flt.queue = rest ∧ t.flt.errPin = true ∧
        t.flt.errFirst = (if s.flt.errPin then s.flt.errFirst else r.source) ∧
        t.bbx.ring = lastN 4096 (s.bbx.ring ++ [s.recordOf r 0x41]) ∧ Only [.flt, .bbx] s t) ∧
    (s.applied r = 5 →
      ∃ t, exec .faultReportTaken s = .next t ∧ t.flt.queue = rest ∧ bit (t.num 0x1050 1) 0 = true ∧
        t.bbx.ring = lastN 4096 (s.bbx.ring ++ [s.recordOf r 5]) ∧ ObjsOnly [(0x1050, 1)] s t ∧
        Only [.sent, .objs, .flt, .bbx, .wilwa] s t)) ∧
  (∀ (s : State) r rest, s.fltRuns = true → s.flt.queue = r :: rest → s.flt.lost = 0 → s.flt.snapWanted = false →
    r.source ≠ 0x3003 →
      s.num 0x2F10 1 = 0 →
    ∃ t, exec .faultReportTaken s = .next t ∧ t.flt.queue = rest ∧
      t.bbx.ring = lastN 4096 (s.bbx.ring ++ [s.recordOf r ((s.reaction r.source).byte &&& 5)]) ∧
      (s.recordOf r ((s.reaction r.source).byte &&& 5)).reactions = (s.reaction r.source).byte &&& 5 ∧
      (bit (s.reaction r.source).byte 2 = true → bit (t.num 0x1050 1) 0 = true) ∧
      (bit (s.reaction r.source).byte 2 = false → Only [.flt, .bbx] s t) ∧ t.flt.errPin = s.flt.errPin ∧ t.flt.snapWanted = false ∧
      ObjsOnly [(0x1050, 1)] s t ∧ Only [.sent, .objs, .flt, .bbx, .wilwa] s t) ∧
  (∀ (s : State), (s.inStates [.configured, .armed, .printing, .held] = true ∨ (s.pwr.dev = .standby ∧
    s.pwr.trans = some .training)) →
    s.reactTrap.pwr.dev = .frozen) ∧
  (∀ (s : State), s.inStates [.configured, .armed, .printing, .held] = false → ¬ (s.pwr.dev = .standby ∧
    s.pwr.trans = some .training) →
    s.reactTrap = s) ∧
  (∀ (s : State) (r : Report), s.on (blockDomain (sourceBlock r.source)) = true → (boltBit (sourceBlock r.source)).isSome = true →
    (s.reactBolt r).bolted (sourceBlock r.source) = true) ∧
  (∀ (s : State) (p : Fin 49) (u : BitVec 8) level b, b = railUnit p.val u.toNat →
    ((s.fltRuns = false ∨ s.railIgnored b = true) →
      exec (.railBrokenWire p u level) s = .next s ∧ exec (.railErrorTimeout p u) s = .next s) ∧
    (∀ n, s.fltRuns = true → s.railIgnored b = false → s.num 0x2F10 1 = 0 → latchNumber b = some n →
      (∃ t, exec (.railErrorTimeout p u) s = .next t ∧ t.num 0x2F10 2 = s.num 0x2F10 2 ||| 2 ^ n ∧ Only [.objs] s t) ∧
      (∃ t, exec (.railBrokenWire p u true) s = .next t ∧ t.num 0x2F10 2 = s.num 0x2F10 2 ||| 2 ^ n ∧ Only [.objs] s t) ∧
      exec (.railBrokenWire p u false) s = .next s) ∧
    (s.takesReports → s.railIgnored b = false → s.num 0x2F10 1 ≠ 0 →
      (∃ t, exec (.railErrorTimeout p u) s = .next t ∧ Raised (0x2F80 + p.val) 0 t ∧ Only [.flt] s t) ∧
      (∃ t, exec (.railBrokenWire p u level) s = .next t ∧ Raised (0x2F40 + p.val) 0 t ∧ (p.val, b.unit) ∈ t.flt.broken ∧
        Only [.flt] s t))) ∧
  (∀ (s : State) h x, WriteTaken s h 0x2F10 1 (u8 0) x →
    ∃ t, exec (.collectorModeLatch h) s = .next t ∧ Answered t 0x13 0 h.seq.toNat ∧ t.num 0x2F10 1 = 0 ∧ t.flt.broken = [] ∧
      t.flt.queue = s.flt.queue ∧ ObjsOnly [(0x2F10, 1), (0x2F10, 2)] s t ∧ Only [.wilwa, .sent, .objs, .flt] s t) ∧
  (∀ (s : State) h x, WriteTaken s h 0x2F10 1 (u8 1) x →
    (s.num 0x2F10 2 = 0 →
      ∃ t, exec (.collectorModeNormal h) s = .next t ∧ Answered t 0x13 0 h.seq.toNat ∧ t.num 0x2F10 1 = 1 ∧
        ObjsOnly [(0x2F10, 1)] s t ∧ Only [.wilwa, .sent, .objs] s t) ∧
    (s.num 0x2F10 2 ≠ 0 → Refused (.collectorModeNormal h) h 0x13 0x2F030100 s)) ∧
  (∀ (s : State) h (m : BitVec 64) x, WriteTaken s h 0x2F10 2 (u64 m.toNat) x →
    ∃ t, exec (.latchWordClear h m) s = .next t ∧ Answered t 0x13 0 h.seq.toNat ∧
      (s.flt.queue = [] → t.num 0x2F10 2 = s.num 0x2F10 2 - (s.num 0x2F10 2 &&& m.toNat)) ∧
      ObjsOnly [(0x2F10, 2)] s t ∧ Only [.wilwa, .sent, .objs] s t) ∧
  (∀ (s : State) h x, WriteTaken s h 0x2F10 5 (u8 1) x →
    ∃ t, exec (.errPinClear h) s = .next t ∧ Answered t 0x13 0 h.seq.toNat ∧
      t.flt = (if s.pwr.trip then s.flt else { s.flt with errPin := false, errFirst := 0 }) ∧ Only [.wilwa, .sent, .flt] s t)

/-- Snapshots (R392 to R395, R398): the host's command, PFAIL_N and the end of the minimum interval start one, or defer it; its end makes
it valid, or retires the slot and writes the next one. -/
def Obligations.SnapshotsAreWritten : Prop :=
  (∀ (s : State) h x, WriteTaken s h 0x3011 1 (u8 1) x →
    (s.bbx.stopped = true →
      ∃ t, exec (.snapshotCommand h) s = .next t ∧ Answered t 0x13 0 h.seq.toNat ∧ Only [.wilwa, .sent] s t) ∧
    (s.bbx.stopped = false →
        (s.bbx.writing.isSome = true ∨ ∃ k, s.bbx.lastStart = some k ∧ s.tick < k + s.num 0x3011 2 * 400000) →
      ∃ t, exec (.snapshotCommand h) s = .next t ∧ Answered t 0x13 0 h.seq.toNat ∧
        t.bbx = { s.bbx with deferred := s.bbx.deferred ||| 4 } ∧ Only [.wilwa, .sent, .bbx] s t) ∧
    (∀ k, s.bbx.stopped = false → s.bbx.writing = none →
        (∀ q, s.bbx.lastStart = some q → q + s.num 0x3011 2 * 400000 ≤ s.tick) → s.pwr.aon = true → s.pwr.trip = false →
        s.snapAfter s.latestSnap = some k →
      ∃ t w, exec (.snapshotCommand h) s = .next t ∧ Answered t 0x13 0 h.seq.toNat ∧ t.bbx.writing = some w ∧ w.slot = k ∧
        w.causes = 4 ||| s.bbx.deferred ∧ w.records = lastN 4092 s.bbx.ring ∧
        (∀ j, s.latestSnap = some j → w.seq = ((s.snap j).seq + 1) % 2 ^ 32) ∧ t.bbx.deferred = 0 ∧
        t.bbx.lastStart = some s.tick ∧ Only [.fresh, .wilwa, .sent, .bbx] s t)) ∧
  (∀ s : State, (s.bbx.pfailLow = true ∨ ∃ q, s.bbx.pfailRose = some q ∧ s.tick < q + 4000000) →
    exec .pfailAssert s = .next { s with bbx := { s.bbx with pfailLow := true } }) ∧
  (∀ s : State, s.bbx.pfailLow = false → (∀ q, s.bbx.pfailRose = some q → q + 4000000 ≤ s.tick) → s.pwr.aon = true →
    s.pwr.trip = false →
      s.pwr.dev ≠ .off →
    (s.takesReports →
      ∃ t, exec .pfailAssert s = .next t ∧ t.num 0x3011 9 = (s.num 0x3011 9 + 1) % 2 ^ 32 ∧ Raised 0x3003 0 t ∧
        t.bbx = { s.bbx with pfailLow := true } ∧ Only [.objs, .flt, .bbx] s t) ∧
    (∀ k, s.fltRuns = false → s.bbx.stopped = false → s.bbx.writing = none → s.snapAfter s.latestSnap = some k →
      ∃ t w, exec .pfailAssert s = .next t ∧ t.num 0x3011 9 = (s.num 0x3011 9 + 1) % 2 ^ 32 ∧ t.bbx.pfailLow = true ∧
        t.bbx.writing = some w ∧ w.slot = k ∧ w.causes = 2 ||| s.bbx.deferred ∧ ObjsOnly [(0x3011, 9)] s t ∧
        Only [.fresh, .objs, .bbx] s t)) ∧
  (∀ s : State, s.bbx.pfailLow = true →
    exec .pfailNRise s = .next { s with bbx := { s.bbx with pfailLow := false, pfailRose := some s.tick } }) ∧
  (∀ s : State, s.bbx.pfailLow = false → exec .pfailNRise s = .next s) ∧
  (∀ (s : State) k, s.bbx.deferred ≠ 0 → s.bbx.writing = none → s.bbx.stopped = false → s.pwr.aon = true → s.pwr.trip = false →
      s.snapAfter s.latestSnap = some k →
    ∃ t w, exec .snapshotMinIntervalExpiry s = .next t ∧ t.bbx.writing = some w ∧ w.slot = k ∧ w.causes = s.bbx.deferred ∧
      w.records = lastN 4092 s.bbx.ring ∧ t.bbx.deferred = 0 ∧ t.bbx.lastStart = some s.tick ∧ Only [.fresh, .bbx] s t) ∧
  (∀ s : State, (s.bbx.deferred = 0 ∨ s.bbx.writing.isSome = true) → exec .snapshotMinIntervalExpiry s = .next s) ∧
  (∀ (s : State) ok, s.bbx.writing = none → exec (.snapshotWriteDone ok) s = .next s) ∧
  (∀ (s : State) w, s.bbx.writing = some w →
    (bit s.bbx.deferred 1 = false → bit s.bbx.deferred 3 = false →
      ∃ t, exec (.snapshotWriteDone true) s = .next t ∧ t.bbx.writing = none ∧ (t.snap w.slot).state = .valid ∧
        (t.snap w.slot).records = w.records ∧ (t.snap w.slot).seq = w.seq ∧ (t.snap w.slot).causes = w.causes ∧
        t.num 0x3011 7 = (s.num 0x3011 7 + 1) % 2 ^ 32 ∧ (s.takesReports → Raised 0x3000 0 t) ∧ Only [.objs, .flt, .bbx] s t) ∧
    (2 ≤ (s.usableSnaps.filter fun j => j != w.slot).length →
      ∃ t k, exec (.snapshotWriteDone false) s = .next t ∧ t.bbx.writing = some { w with slot := k } ∧ k ≠ w.slot ∧
        (t.snap w.slot).state = .retired ∧ (s.takesReports → Raised 0x3005 0 t) ∧ Only [.objs, .flt, .bbx] s t) ∧
    ((s.usableSnaps.filter fun j => j != w.slot).length < 2 →
      ∃ t, exec (.snapshotWriteDone false) s = .next t ∧ t.bbx.writing = none ∧ t.bbx.stopped = true ∧
        (t.snap w.slot).state = .retired ∧ (s.fltRuns = true → s.flt.queue.length < 63 → Raised 0x3005 0 t ∧ Raised 0x3006 0 t) ∧
        Only [.objs, .flt, .bbx] s t))

/-- Temperatures (R148, R405 to R408, R414, R416, R417): the model's update, the trip at 125 °C of a reading or of a diode read by AON,
the end of a pending trip, the housekeeping channels and the end of their round, the engines that the ladder slows. -/
def Obligations.TemperaturesAreWatched : Prop :=
  (∀ (s : State) c, s.on domMGT = true →
    ∃ t, exec (.thermalModelUpdate c) s = .next t ∧ t.therm.updates = s.therm.updates + 1 ∧
      vget t.therm.t 23 0 = vget s.therm.t 23 0 ∧ (∀ i, i < 24 → 125 ≤ vget t.therm.reading i 0 → t.pwr.trip = true) ∧
      (s.therm.modelValid = false → t.therm.t = s.therm.t ∧ t.therm.reading = s.therm.reading ∧ t.therm.fromDiodes = true) ∧
      (s.therm.modelValid = true → ∀ i, i < 23 → vget t.therm.t i 0 = s.nodeNext (s.nodePower c i) i ∧
        vget t.therm.reading i 0 = r32 (vget t.therm.t i 0 + vget s.therm.off i 0)) ∧
      Only [.fresh, .sent, .objs, .pwr, .flt, .bbx, .wilwa, .mem, .dram, .fsq, .hlk, .hdg, .therm] s t) ∧
  (∀ s : State, s.on domMGT = true → s.therm.tripPending = true → s.anyAt 115 = false → s.therm.lastHot + 40000000 ≤ s.tick →
    ∃ t, exec .tripPendingEnd s = .next t ∧ t.therm = { s.therm with tripPending := false } ∧
      (s.takesReports → Raised 0x3102 0 t) ∧ Only [.objs, .flt, .bbx, .therm] s t) ∧
  (∀ s : State, (s.therm.tripPending = false ∨ s.anyAt 115 = true ∨ s.tick < s.therm.lastHot + 40000000) →
    exec .tripPendingEnd s = .next s) ∧
  (∀ (s : State) (d : Fin 8) (v : Option Int), s.pwr.dev ≠ .off →
    (∀ r, v = some r → 125000 ≤ r → r ≤ 150000 →
      ∃ t, exec (.aonDiodeConversion d v) s = .next t ∧ t.pwr.trip = true ∧ vget t.aonDiodes d.val none = v ∧
        Only [.fresh, .sent, .objs, .pwr, .flt, .bbx, .wilwa, .mem, .dram, .fsq, .hlk, .hdg, .therm, .aonDiodes] s t) ∧
    ((∀ r, v = some r → r < 125000 ∨ 150000 < r) →
      ∃ t, exec (.aonDiodeConversion d v) s = .next t ∧ vget t.aonDiodes d.val none = v ∧
        (∀ e, e ≠ d.val → vget t.aonDiodes e none = vget s.aonDiodes e none) ∧ (s.on domMGT = false → Only [.aonDiodes] s t) ∧
        Only [.fresh, .objs, .flt, .bbx, .therm, .aonDiodes] s t)) ∧
  (∀ (s : State) d v, s.pwr.dev = .off → exec (.aonDiodeConversion d v) s = .next s) ∧
  (∀ (s : State) n, s.on domMGT = true → s.therm.channel = n → n < 64 →
    (∀ v : Int, n < 8 →
      ∃ t, exec (.housekeepingRead (some v)) s = .next t ∧ t.therm.channel = n + 1 ∧ t.num 0x3116 (n + 1) = ofSigned 32 v ∧
        vget t.therm.diodes n none = some v ∧ (vget t.therm.valid n false = true ↔ -55000 ≤ v ∧ v ≤ 150000) ∧
        ObjsOnly [(0x3116, n + 1)] s t ∧ Only [.objs, .therm] s t) ∧
    (n < 8 →
      ∃ t, exec (.housekeepingRead none) s = .next t ∧ t.therm.channel = n + 1 ∧ vget t.therm.diodes n none = none ∧
        vget t.therm.valid n false = false ∧ ObjsOnly [(0x3116, n + 1)] s t ∧ Only [.fresh, .objs, .therm] s t) ∧
    (∀ v : Int, 8 ≤ n → n < 21 →
      ∃ t, exec (.housekeepingRead (some v)) s = .next t ∧ t.therm = { s.therm with channel := n + 1, roundRead := false } ∧
        t.num 0x3116 (n + 1) = ofSigned 32 v ∧ ObjsOnly [(0x3116, n + 1)] s t ∧ Only [.objs, .therm] s t) ∧
    (∀ v : Option Int, 21 ≤ n → n < 33 → s.num 0x2310 ((n - 21) / 3 + 1) = 0 →
      ∃ t, exec (.housekeepingRead v) s = .next t ∧ t.therm = { s.therm with channel := n + 1, roundRead := false } ∧
        t.num 0x3116 (n + 1) = 0x80000000 ∧ ObjsOnly [(0x3116, n + 1)] s t ∧ Only [.objs, .mem, .therm] s t) ∧
    (∀ v : Int, 21 ≤ n → n < 33 → s.num 0x2310 ((n - 21) / 3 + 1) ≠ 0 →
      ∃ t, exec (.housekeepingRead (some v)) s = .next t ∧ t.therm = { s.therm with channel := n + 1, roundRead := false } ∧
        t.num 0x3116 (n + 1) = ofSigned 32 v ∧ Only [.objs, .flt, .bbx, .mem, .therm] s t) ∧
    (∀ v : Option Int, 33 ≤ n →
      ∃ t, exec (.housekeepingRead v) s = .next t ∧ t.therm = { s.therm with channel := (n + 1) % 64, roundRead := n == 63 } ∧
        t.num 0x3116 (n + 1) = 0 ∧ ObjsOnly [(0x3116, n + 1)] s t ∧ Only [.objs, .therm] s t)) ∧
  (∀ s : State, s.on domMGT = true → s.therm.roundRead = true →
    ∃ t, exec .housekeepingRoundEnd s = .next t ∧ t.therm.roundRead = false ∧ t.therm.sums = Vector.replicate 8 0 ∧
      t.therm.updates = 0 ∧
      t.therm.modelValid = true ∧
      (∀ d, d < 8 → vget s.therm.valid d false = false → s.fltRuns = true → s.flt.queue.length < 32 → Raised (0x3108 + d) 0 t) ∧
      (s.therm.modelValid = false → ∃ m, t.therm.t = Vector.replicate 24 m ∧ t.therm.reading = Vector.replicate 24 m ∧
        t.therm.scale = Vector.replicate 8 1 ∧
        (s.validDiodes ≠ [] → m = r32 (sum32 (s.validDiodes.map (·.2)) / r32 (s.validDiodes.map (·.2)).length))) ∧
      Only [.fresh, .objs, .flt, .bbx, .therm] s t) ∧
  (∀ s : State, s.on domMGT = true →
    ∃ t, exec .engineSelectionInterval s = .next t ∧ Only [.therm] s t ∧
      ∀ e, e < 17 → (vget t.therm.selected e false = true ↔
        (∃ l, 4 ≤ l ∧ l ≤ 8 ∧ l ≤ s.therm.level ∧ s.stepArmed l = true) ∧
          s.ladderMarks.2 ≤ vget s.therm.reading (engineNode e) 0)) ∧
  (∀ s : State, s.therm.roundRead = false → exec .housekeepingRoundEnd s = .next s) ∧
  (∀ s : State, s.on domMGT = false → exec .housekeepingRoundEnd s = .next s ∧ exec .engineSelectionInterval s = .next s ∧
    (∀ c, exec (.thermalModelUpdate c) s = .next s) ∧ ∀ v, exec (.housekeepingRead v) s = .next s)

/-- Cameras (R298, R300 to R306, R310, R311, R313, R316): a trigger record is numbered and waits for its line on every running port; lines
pair with it or are stray; frames open and close; a stitched line goes to its frame and to colour hold; products leave over the Raster
port, and a coder that the throttle ladder does not slow skips none (R412, R413); settings and host transactions run on CCI; a port is
enabled and disabled. -/
def Obligations.PicturesArePassedOn : Prop :=
  (∀ (s : State) k rest, s.vis.trigs = k :: rest →
    ((s.on domVIS = false ∨ s.num 0x2644 (k.unit + 1) ≠ 17 + s.num 0x2D10 1 ∨ s.usedPorts = []) →
      exec .triggerRecord s = .next { s with vis := { s.vis with trigs := rest } }) ∧
    (s.on domVIS = true → s.num 0x2644 (k.unit + 1) = 17 + s.num 0x2D10 1 → s.usedPorts ≠ [] →
        (∀ (l : Nat), s.vis.lastI = some l → l < k.count - 1) → (k.count - 1) % s.frameLines ≠ 0 →
      ∃ t, exec .triggerRecord s = .next t ∧ t.vis.trigs = rest ∧ t.vis.lastI = some (k.count - 1) ∧
        (t.vis.stitch.getLast?).map (·.i) = some (k.count - 1) ∧
        (∀ p, p < 4 → s.portUsed p = true → (s.cam p).started = true → (s.cam p).pending.length < 32 →
          (t.cam p).pending = (s.cam p).pending ++ [{ i := k.count - 1, trig := k, gen := (s.cam p).frameGen }]) ∧
        Only [.objs, .flt, .bbx, .vis, .che] s t) ∧
    (∃ t, exec .triggerRecord s = .next t ∧ Only [.fresh, .sent, .objs, .flt, .bbx, .wilwa, .sne, .fsq, .hdg, .vis, .che] s t)) ∧
  (∀ s : State, s.vis.trigs = [] → exec .triggerRecord s = .next s) ∧
  (∀ (s : State) (p : CamPort) (r : PendTrig) rest, (s.cam p.val).pending = r :: rest →
    ∃ t, exec (.triggerRecordExpiry p) s = .next t ∧ (t.cam p.val).pending = rest ∧
      (t.cam p.val).expiredRun = (s.cam p.val).expiredRun + 1 ∧
      t.num 0x2C3D (p.val + 1) = (s.num 0x2C3D (p.val + 1) + 1) % 2 ^ 32 ∧
      (∀ x ∈ t.vis.stitch, x.i = r.i → vget x.parts p.val .awaited = .fill) ∧
      ObjsOnly [(0x2C3D, p.val + 1)] s t ∧ Only [.objs, .vis] s t) ∧
  (∀ (s : State) (p : CamPort), (s.cam p.val).pending = [] → exec (.triggerRecordExpiry p) s = .next s) ∧
  (∀ (s : State) (p : CamPort), (s.cam p.val).enabled = true → (s.cam p.val).silent = false → 64 ≤ (s.cam p.val).expiredRun →
    ∃ t, exec (.portSilent p) s = .next t ∧ t.cam p.val = { s.cam p.val with silent := true } ∧
      (s.takesReports → Raised (0x2C10 + p.val) 0 t) ∧ Only [.objs, .flt, .bbx, .vis] s t) ∧
  (∀ (s : State) (p : CamPort), (s.cam p.val).expiredRun < 64 → exec (.portSilent p) s = .next s) ∧
  (∀ (s : State) (p : CamPort) h, s.on domVIS = true → s.portUsed p.val = true →
    (h.ecc ≠ .bad → h.vc.toNat = s.num 0x2C13 (p.val + 1) →
      (∃ t, exec (.csiFrameStart p h) s = .next t ∧ (t.cam p.val).frame = some
          { j := none, marks := 0, gen := 0, hist := List.replicate 192 0, lastSeen := false, discard := false } ∧
        Only [.objs, .flt, .bbx, .vis] s t) ∧
      (∀ f, (s.cam p.val).frame = some f →
        ∃ t, exec (.csiFrameEnd p h) s = .next t ∧ (t.cam p.val).frame = none ∧
          (t.cam p.val).closedTo = f.j.getD (s.cam p.val).closedTo + 1 ∧ Only [.objs, .flt, .bbx, .vis] s t)) ∧
    (h.ecc = .bad → ∀ c ∈ [Instr.csiFrameStart p h, .csiFrameEnd p h],
      ∃ t, exec c s = .next t ∧ t.num 0x2C39 (p.val + 1) = (s.num 0x2C39 (p.val + 1) + 1) % 2 ^ 32 ∧
        ObjsOnly [(0x2C39, p.val + 1)] s t ∧ Only [.objs, .vis] s t) ∧
    (h.ecc = .clean → h.vc.toNat ≠ s.num 0x2C13 (p.val + 1) → ∀ c ∈ [Instr.csiFrameStart p h, .csiFrameEnd p h],
      ∃ t, exec c s = .next t ∧ t.num 0x2C3F (p.val + 1) = (s.num 0x2C3F (p.val + 1) + 1) % 2 ^ 32 ∧
        ObjsOnly [(0x2C3F, p.val + 1)] s t ∧ Only [.objs] s t)) ∧
  (∀ (s : State) (p : CamPort) (l : CsiLine), s.on domVIS = true → s.portUsed p.val = true → l.head.ecc ≠ .bad →
      l.head.vc.toNat = s.num 0x2C13 (p.val + 1) → l.dataType.toNat = s.num 0x2C14 (p.val + 1) →
    (∀ (r : PendTrig), nearestRecord ((s.stamp + 2 ^ 32 - l.age % 2 ^ 32) % 2 ^ 32) (s.num 0x2C1C (p.val + 1)) (s.num 0x2C1D (p.val + 1))
        (s.cam p.val).pending = some r → (s.cam p.val).frame.all (fun f => !f.discard && f.j.all (· == r.i / s.frameLines)) = true →
        (s.cam p.val).closedTo ≤ r.i / s.frameLines →
      ∃ t, exec (.csiLine p l) s = .next t ∧ (t.cam p.val).pending = (s.cam p.val).pending.filter (·.i != r.i) ∧
        (t.cam p.val).expiredRun = 0 ∧ (t.cam p.val).silent = false ∧
        ((t.cam p.val).frame.map (·.j)) = some (some (r.i / s.frameLines)) ∧
        (∀ x ∈ t.vis.stitch, x.i = r.i → vget x.parts p.val .awaited = .line (s.portPixels p.val l).1) ∧ Only [.objs, .vis] s t) ∧
    (nearestRecord ((s.stamp + 2 ^ 32 - l.age % 2 ^ 32) % 2 ^ 32) (s.num 0x2C1C (p.val + 1)) (s.num 0x2C1D (p.val + 1))
        (s.cam p.val).pending = none →
      ∃ t, exec (.csiLine p l) s = .next t ∧ t.num 0x2C3E (p.val + 1) = (s.num 0x2C3E (p.val + 1) + 1) % 2 ^ 32 ∧
        t.vis.stitch = s.vis.stitch ∧ Only [.objs, .vis] s t)) ∧
  (∀ (s : State) (p : CamPort), (s.on domVIS = false ∨ s.portUsed p.val = false) →
    (∀ h, exec (.csiFrameStart p h) s = .next s ∧ exec (.csiFrameEnd p h) s = .next s) ∧
      ∀ (l : CsiLine), exec (.csiLine p l) s = .next s) ∧
  (∀ (s : State) x rest, s.vis.stitch = x :: rest →
    (s.on domVIS = true → s.lineReady x = true → s.boltedIpl = false → s.usedPorts ≠ [] →
      ∃ t w, exec .stitchedLineComplete s = .next t ∧ t.vis.stitch = (x :: rest).filter (·.i != x.i) ∧
        t.vis.toChe = s.vis.toChe ++ [.line w] ∧ w.i = x.i ∧ w.pixels = s.webPixels x ∧
        (∃ f ∈ t.vis.frames, f.j = x.i / s.frameLines ∧ w ∈ f.lines) ∧ Only [.vis] s t) ∧
    ((s.on domVIS = false ∨ s.lineReady x = false) → exec .stitchedLineComplete s = .next s)) ∧
  (∀ (s : State) f rest, s.vis.frames = f :: rest →
    (s.on domVIS = true → s.boltedIpl = false → s.frameDone f = true →
      ∃ t c, exec .webFrameClose s = .next t ∧ t.vis.frames = (f :: rest).filter (·.j != f.j) ∧
        t.vis.toChe = s.vis.toChe ++ [.close c] ∧ c.j = f.j ∧ (s.pwr.dev = .standby → t.num 0x2D10 9 = f.j) ∧
        (s.coderThrottled 1 = false → t.num 0x3120 7 = s.num 0x3120 7) ∧ (s.coderThrottled 0 = false →
          t.num 0x3120 8 = s.num 0x3120 8) ∧
        Only [.fresh, .sent, .objs, .flt, .bbx, .wilwa, .vis] s t) ∧
    ((s.on domVIS = false ∨ s.frameDone f = false) → exec .webFrameClose s = .next s)) ∧
  (∀ (s : State) (k : Fin 3) p, s.rin.linkUp = true →
      (vget s.vis.rings k.val []).find? (fun x => x.sent.any (· < x.data.length)) = some p →
    ∃ t r, exec (.productRecordSend k) s = .next t ∧ t.sent = s.sent ++ [.raster r] ∧ r.take 1 = u8 0x82 ∧
      vget t.vis.rings k.val [] = (vget s.vis.rings k.val []).map (fun q => if q.frame = p.frame then
        { q with sent := some (p.sent.getD 0 + (slice p.data (p.sent.getD 0) 65536).length) } else q) ∧ Only [.sent, .vis] s t) ∧
  (∀ (s : State) (k : Fin 3), s.rin.linkUp = false → exec (.productRecordSend k) s = .next s) ∧
  (∀ (s : State) (p : CamPort) (b : CciBatch), (s.cam p.val).batch = some b →
    (∀ (a : CciAnswer), a.failed.all (b.writes.length ≤ ·) = true →
      ∃ t, exec (.cciBatchComplete p a) s = .next t ∧ (t.cam p.val).batch = none ∧ (t.cam p.val).cciFailed = false ∧
        (t.cam p.val).gen = ((s.cam p.val).gen + 1) % 2 ^ 16 ∧
        (a.repeated = [] → t.sent = s.sent ++ b.writes.flatMap (fun w => s.cciSent p.val false w.2.1 w.2.2)) ∧
        Only [.sent, .vis] s t) ∧
    (∀ (a : CciAnswer) k, a.failed = some k → k < b.writes.length →
      ∃ t, exec (.cciBatchComplete p a) s = .next t ∧ (t.cam p.val).batch = none ∧ (t.cam p.val).cciFailed = true ∧
        (t.cam p.val).gen = ((s.cam p.val).gen + 1) % 2 ^ 16 ∧ (s.takesReports → Raised (0x2C20 + p.val) 0 t) ∧
        Only [.sent, .objs, .flt, .bbx, .vis] s t)) ∧
  (∀ (s : State) (p : CamPort) k, (s.cam p.val).batch = none → exec (.cciBatchComplete p k) s = .next s) ∧
  (∀ (s : State) h (p : CamPort) (v : Bytes) x (c : Instr), c ∈ [Instr.cciCommandWrite h p v, .cciCommandRead h p v] →
    WriteTaken s h 0x2C28 (p.val + 1) v x →
    (s.boltedPort p.val = true → Refused c h 0x13 (0x2C04F200 + p.val) s) ∧
    (s.boltedPort p.val = false → (s.cam p.val).host.isSome = true → Refused c h 0x13 (0x2C050100 + p.val) s) ∧
    (s.boltedPort p.val = false → (s.cam p.val).host = none → v.length = 8 → leAt v 0 1 ≤ 1 → 1 ≤ leAt v 1 1 → leAt v 1 1 ≤ 4 →
      ∃ t, exec c s = .next t ∧ Answered t 0x13 0 h.seq.toNat ∧ t.obj 0x2C29 (p.val + 1) = .bytes (u8 1 ++ List.replicate 7 0) ∧
        t.cam p.val = { s.cam p.val with
          host := some { read := leAt v 0 1 == 1, count := leAt v 1 1, index := leAt v 2 2, data := slice v 4 4 } } ∧
        ObjsOnly [(0x2C29, p.val + 1)] s t ∧ Only [.wilwa, .sent, .objs, .vis] s t)) ∧
  (∀ (s : State) (p : CamPort) (q : CciHost) (a : Bool) (d : Bytes), (s.cam p.val).host = some q → (s.cam p.val).batch = none →
    ∃ t, exec (.cciHostTransactionDone p a d) s = .next t ∧ (t.cam p.val).host = none ∧
      t.sent = s.sent ++ s.cciSent p.val q.read q.index (if q.read then [] else q.data.take q.count) ∧
      t.obj 0x2C29 (p.val + 1) = .bytes (u8 0 ++ u8 (b2n a) ++ u16 0 ++ padTo 4 (if q.read && a then d.take q.count else [])) ∧
      (t.cam p.val).batch.isSome = (s.cam p.val).batchDue ∧ ObjsOnly [(0x2C29, p.val + 1)] s t ∧ Only [.sent, .objs, .vis] s t) ∧
  (∀ (s : State) (p : CamPort) (a : Bool) (d : Bytes), (s.cam p.val).host = none →
    exec (.cciHostTransactionDone p a d) s = .next s) ∧
  (∀ (s : State) h (p : CamPort) x, WriteTaken s h 0x2C10 (p.val + 1) (u8 0) x →
    ∃ t, exec (.portEnableWrite h p false) s = .next t ∧ Answered t 0x13 0 h.seq.toNat ∧ (t.cam p.val).enabled = false ∧
      (t.cam p.val).pending = [] ∧ (t.cam p.val).frame = none ∧
      ((∀ (q : Nat), q < 4 → bit (s.adm 0x2C).pending q = false) → (s.adm 0x2D).result ≠ 1 → t.num 0x2C10 (p.val + 1) = 0) ∧
      Only [.sent, .fresh, .objs, .wilwa, .sne, .fsq, .hdg, .vis] s t) ∧
  (∀ (s : State) h (p : CamPort) x, WriteTaken s h 0x2C10 (p.val + 1) (u8 1) x →
    (s.boltedPort p.val = true → Refused (.portEnableWrite h p true) h 0x13 (0x2C04F200 + p.val) s) ∧
    (s.boltedPort p.val = false → (s.cam p.val).enabled = false → (∀ (q : Nat), q < 4 → (s.cam q).enabled = false) →
        s.num 0x2C18 (p.val + 1) + s.num 0x2C19 (p.val + 1) ≤ s.num 0x2C16 (p.val + 1) →
        s.num 0x2C1A (p.val + 1) + s.num 0x2C19 (p.val + 1) ≤ s.num 0x2D10 3 → s.num 0x2C1D (p.val + 1) < s.num 0x2C1C (p.val + 1) →
        cciMapOk (s.bytes 0x2C25 (p.val + 1)) = true → statZones s.num ≤ 512 →
      ∃ t, exec (.portEnableWrite h p true) s = .next t ∧ Answered t 0x13 0 h.seq.toNat ∧ (t.cam p.val).enabled = true ∧
        t.num 0x2C10 (p.val + 1) = 1 ∧ t.num 0x2D10 7 = statZones s.num ∧
        (t.cam p.val).batch.isSome = (s.cam p.val).host.isNone ∧ (t.cam p.val).batchDue = (s.cam p.val).host.isSome ∧
        ObjsOnly [(0x2C10, p.val + 1), (0x2D10, 7)] s t ∧ Only [.wilwa, .sent, .objs, .vis] s t) ∧
    (s.boltedPort p.val = false → (s.cam p.val).enabled = false →
        s.num 0x2C16 (p.val + 1) < s.num 0x2C18 (p.val + 1) + s.num 0x2C19 (p.val + 1) →
      Refused (.portEnableWrite h p true) h 0x13 (0x2C040200 + p.val) s))

/-- Colour hold (R325, R326, R328, R331, R333, R339, R342, R343): a stitched line is paired or counted unpaired; a web frame joins the
window, which goes to the solve when it is long enough; a solve that ends publishes; HoldRun, HoldMode and RefCommand take effect. -/
def Obligations.ColoursAreHeld : Prop :=
  (∀ (s : State) w rest, s.vis.toChe = .line w :: rest →
    (s.holdRuns = false → s.num 0x2D40 1 = 0 →
      exec .chePairLine s = .next { s with vis := { s.vis with toChe := rest } }) ∧
    (s.holdRuns = true → s.jobBars.all s.covServes = false → exec .chePairLine s = .next s) ∧
    (s.holdRuns = true → s.num 0x2D40 1 = 0 → s.jobBars.all s.covServes = true →
        (s.zoneMismatch = true ∨ s.distanceMissing = true ∨ s.usedPorts = [] ∨ s.jobBars = []) →
      ∃ t, exec .chePairLine s = .next t ∧ t.vis = { s.vis with toChe := rest } ∧
        t.num 0x2832 2 = (s.num 0x2832 2 + 1) % 2 ^ 32 ∧ t.che.frameAcc = s.che.frameAcc ∧ t.che.lastPos = w.trig.pos ∧
        ObjsOnly [(0x2832, 2)] s t ∧ Only [.objs, .vis, .che] s t) ∧
    (s.holdRuns = true → s.num 0x2D40 1 = 0 → s.jobBars.all s.covServes = true → s.zoneMismatch = false →
      s.distanceMissing = false → s.usedPorts ≠ [] →
        s.jobBars ≠ [] → s.num 0x2820 9 = 0 → s.mir.missed = [] →
        (∀ b ∈ s.jobBars, (s.cheBar b).jobStart = none ∧ ∃ r l, s.pairBar b w.trig.pos = .yes r l) →
      ∃ t, exec .chePairLine s = .next t ∧ t.vis = { s.vis with toChe := rest } ∧
        t.num 0x2832 1 = (s.num 0x2832 1 + 1) % 2 ^ 32 ∧ t.che.lastPos = w.trig.pos ∧
        ObjsOnly [(0x2832, 1), (0x2342, 1), (0x2342, 2), (0x2342, 3), (0x2342, 4)] s t ∧
          Only [.sent, .objs, .mem, .dram, .vis, .che] s t) ∧
    (∃ t, exec .chePairLine s = .next t ∧ Only [.sent, .objs, .flt, .bbx, .mem, .dram, .vis, .che, .mir] s t)) ∧
  (∀ s : State, (∀ w rest, s.vis.toChe ≠ .line w :: rest) → exec .chePairLine s = .next s) ∧
  (∀ (s : State) c rest, s.vis.toChe = .close c :: rest →
    (s.holdRuns = false → exec .cheFrameClose s = .next { s with vis := { s.vis with toChe := rest } }) ∧
    (s.holdRuns = true → c.hold = false → s.num 0x2529 (s.che.chan + 1) = s.che.dirAtFrame → s.che.p0 = none →
      ∃ t, exec .cheFrameClose s = .next t ∧ t.che.winAcc = joinAcc s.che.winAcc s.che.frameAcc ∧ t.che.frameAcc = [] ∧
        t.che.framesIn = s.che.framesIn ∧ t.che.solving = s.che.solving ∧ Only [.vis, .che] s t) ∧
    (s.holdRuns = true → c.hold = true → s.che.p0 = none →
      ∃ t, exec .cheFrameClose s = .next t ∧ t.che.winAcc = s.che.winAcc ∧ t.che.frameAcc = [] ∧
        t.num 0x2832 3 = (s.num 0x2832 3 + 1) % 2 ^ 32 ∧ ObjsOnly [(0x2832, 3)] s t ∧ Only [.objs, .vis, .che] s t) ∧
    (∀ p, s.holdRuns = true → c.hold = false → s.num 0x2529 (s.che.chan + 1) = s.che.dirAtFrame → s.che.p0 = some p →
        ((s.num 0x2820 2 * s.num 0x251B (s.che.chan + 1) : Nat) : Int) ≤ toSigned 48 (s.che.lastPos + 2 ^ 48 - p) →
      ∃ t, exec .cheFrameClose s = .next t ∧ t.che.solving = some (joinAcc s.che.winAcc s.che.frameAcc) ∧ t.che.winAcc = [] ∧
        t.che.p0 = none ∧ t.che.framesIn = 0 ∧ t.num 0x2820 13 = (s.num 0x2820 13 + 1) % 2 ^ 32 ∧
        ObjsOnly [(0x2820, 13), (0x2820, 14)] s t ∧ Only [.objs, .vis, .che] s t)) ∧
  (∀ s : State, (∀ c rest, s.vis.toChe ≠ .close c :: rest) → exec .cheFrameClose s = .next s) ∧
  (∀ (s : State) acc, s.che.solving = some acc → s.on domCTL = true → s.boltedChe = false →
    ∃ t, exec .tumblerSolveDone s = .next t ∧ t.che.solving = none ∧ t.che.estWindow = s.num 0x2820 13 ∧
      t.che.estNs = s.che.solveNs ∧ t.che.estZones = s.che.solveZones ∧
      (s.jobBars = [] → t.num 0x2832 4 = (s.num 0x2832 4 + 1) % 2 ^ 32) ∧ Only [.sent, .objs, .flt, .bbx, .che, .mir] s t) ∧
  (∀ s : State, s.che.solving = none → exec .tumblerSolveDone s = .next s) ∧
  (∀ (s : State) h e x, WriteTaken s h 0x2820 1 (u8 (b2n e)) x →
    (s.boltedChe = true → Refused (.holdRunWrite h e) h 0x13 0x2804F200 s) ∧
    (s.boltedChe = false → e = true → s.num 0x2820 1 = 0 → s.on domCTL = true →
      ∃ t, exec (.holdRunWrite h e) s = .next t ∧ Answered t 0x13 0 h.seq.toNat ∧ t.num 0x2820 1 = 1 ∧ t.num 0x2820 13 = 0 ∧
        t.che.track = [] ∧ (s.takesReports → Raised 0x2800 3 t) ∧ Only [.wilwa, .sent, .objs, .flt, .bbx, .che] s t) ∧
    (s.boltedChe = false → e = true → s.num 0x2820 1 = 1 →
      ∃ t, exec (.holdRunWrite h e) s = .next t ∧ Answered t 0x13 0 h.seq.toNat ∧ Only [.wilwa, .sent] s t) ∧
    (s.boltedChe = false → e = false →
      ∃ t, exec (.holdRunWrite h e) s = .next t ∧ Answered t 0x13 0 h.seq.toNat ∧ t.num 0x2820 1 = 0 ∧
        ObjsOnly [(0x2820, 1)] s t ∧ Only [.wilwa, .sent, .objs] s t)) ∧
  (∀ (s : State) h (b : Bar) (v : BitVec 8) x, WriteTaken s h 0x2810 (b.val + 1) (u8 v.toNat) x →
    (s.boltedChe = true → Refused (.holdModeWrite h b v) h 0x13 0x2804F200 s) ∧
    (s.boltedChe = false → v ≠ 0 → s.map b.val = [] → Refused (.holdModeWrite h b v) h 0x13 (0x28040100 + b.val) s) ∧
    (s.boltedChe = false → (v = 0 ∨ s.map b.val ≠ []) →
      ∃ t, exec (.holdModeWrite h b v) s = .next t ∧ Answered t 0x13 0 h.seq.toNat ∧ t.num 0x2810 (b.val + 1) = v.toNat ∧
        (s.num 0x2810 (b.val + 1) = 0 → v ≠ 0 → (t.cheBar b.val).integ = [] ∧ t.obj 0x281B (b.val + 1) =
          .bytes ((List.range (s.zoneCount b.val)).flatMap fun z => u16 (s.liveGain b.val z))) ∧
        ObjsOnly [(0x2810, b.val + 1), (0x281B, b.val + 1)] s t ∧ Only [.wilwa, .sent, .objs, .che] s t)) ∧
  (∀ (s : State) h (v : BitVec 8) x, WriteTaken s h 0x2820 11 (u8 v.toNat) x →
    (s.boltedChe = true → Refused (.refCommand h v) h 0x13 0x2804F200 s) ∧
    (s.boltedChe = false →
      ∃ t, exec (.refCommand h v) s = .next t ∧ Answered t 0x13 0 h.seq.toNat ∧
        (∀ b ∈ barsOf v.toNat, t.bytes 0x2819 (b + 1) = []) ∧ ObjsOnly ((List.range 8).map fun b => (0x2819, b + 1)) s t ∧
        Only [.wilwa, .sent, .objs, .che, .mir] s t))
end

