-- ==== Sys2Proof/Laws/State.lean ====
section
/-! SUPPORT. What each named update of the state does to each field: one lemma per field, true by unfolding, so that no proof unfolds
a record update. -/

set_option Elab.async false

namespace Sys2Proof.Machine

@[simp] theorem State.withPending_pending (s : State) (q : List Instr) : (s.withPending q).pending = q := rfl
@[simp] theorem State.withPending_tick (s : State) (q : List Instr) : (s.withPending q).tick = s.tick := rfl
@[simp] theorem State.withPending_fresh (s : State) (q : List Instr) : (s.withPending q).fresh = s.fresh := rfl
@[simp] theorem State.withPending_sent (s : State) (q : List Instr) : (s.withPending q).sent = s.sent := rfl
@[simp] theorem State.withPending_fuses (s : State) (q : List Instr) : (s.withPending q).fuses = s.fuses := rfl
@[simp] theorem State.withPending_objs (s : State) (q : List Instr) : (s.withPending q).objs = s.objs := rfl
@[simp] theorem State.withPending_pwr (s : State) (q : List Instr) : (s.withPending q).pwr = s.pwr := rfl
@[simp] theorem State.withPending_flt (s : State) (q : List Instr) : (s.withPending q).flt = s.flt := rfl
@[simp] theorem State.withPending_bbx (s : State) (q : List Instr) : (s.withPending q).bbx = s.bbx := rfl
@[simp] theorem State.withPending_wilwa (s : State) (q : List Instr) : (s.withPending q).wilwa = s.wilwa := rfl
@[simp] theorem State.withPending_nonVol (s : State) (q : List Instr) : (s.withPending q).nonVol = s.nonVol := rfl
@[simp] theorem State.withPending_net (s : State) (q : List Instr) : (s.withPending q).net = s.net := rfl
@[simp] theorem State.withPending_tim (s : State) (q : List Instr) : (s.withPending q).tim = s.tim := rfl
@[simp] theorem State.withPending_rin (s : State) (q : List Instr) : (s.withPending q).rin = s.rin := rfl
@[simp] theorem State.withPending_fet (s : State) (q : List Instr) : (s.withPending q).fet = s.fet := rfl
@[simp] theorem State.withPending_mem (s : State) (q : List Instr) : (s.withPending q).mem = s.mem := rfl
@[simp] theorem State.withPending_dram (s : State) (q : List Instr) : (s.withPending q).dram = s.dram := rfl
@[simp] theorem State.withPending_pos (s : State) (q : List Instr) : (s.withPending q).pos = s.pos := rfl
@[simp] theorem State.withPending_lcg (s : State) (q : List Instr) : (s.withPending q).lcg = s.lcg := rfl
@[simp] theorem State.withPending_cmp (s : State) (q : List Instr) : (s.withPending q).cmp = s.cmp := rfl
@[simp] theorem State.withPending_sne (s : State) (q : List Instr) : (s.withPending q).sne = s.sne := rfl
@[simp] theorem State.withPending_fsq (s : State) (q : List Instr) : (s.withPending q).fsq = s.fsq := rfl
@[simp] theorem State.withPending_hlk (s : State) (q : List Instr) : (s.withPending q).hlk = s.hlk := rfl
@[simp] theorem State.withPending_hdms (s : State) (q : List Instr) : (s.withPending q).hdms = s.hdms := rfl
@[simp] theorem State.withPending_hdg (s : State) (q : List Instr) : (s.withPending q).hdg = s.hdg := rfl
@[simp] theorem State.withPending_vis (s : State) (q : List Instr) : (s.withPending q).vis = s.vis := rfl
@[simp] theorem State.withPending_che (s : State) (q : List Instr) : (s.withPending q).che = s.che := rfl
@[simp] theorem State.withPending_mir (s : State) (q : List Instr) : (s.withPending q).mir = s.mir := rfl
@[simp] theorem State.withPending_therm (s : State) (q : List Instr) : (s.withPending q).therm = s.therm := rfl
@[simp] theorem State.withPending_aonDiodes (s : State) (q : List Instr) : (s.withPending q).aonDiodes = s.aonDiodes := rfl
@[simp] theorem State.withPending_fireEn (s : State) (q : List Instr) : (s.withPending q).fireEn = s.fireEn := rfl

@[simp] theorem State.idle_pending (s : State) : s.idle.pending = s.pending := rfl
@[simp] theorem State.idle_tick (s : State) : s.idle.tick = s.tick + 1 := rfl
@[simp] theorem State.idle_fresh (s : State) : s.idle.fresh = s.fresh := rfl
@[simp] theorem State.idle_sent (s : State) : s.idle.sent = s.sent := rfl
@[simp] theorem State.idle_fuses (s : State) : s.idle.fuses = s.fuses := rfl
@[simp] theorem State.idle_objs (s : State) : s.idle.objs = s.objs := rfl
@[simp] theorem State.idle_pwr (s : State) : s.idle.pwr = s.pwr := rfl
@[simp] theorem State.idle_flt (s : State) : s.idle.flt = s.flt := rfl
@[simp] theorem State.idle_bbx (s : State) : s.idle.bbx = s.bbx := rfl
@[simp] theorem State.idle_wilwa (s : State) : s.idle.wilwa = s.wilwa := rfl
@[simp] theorem State.idle_nonVol (s : State) : s.idle.nonVol = s.nonVol := rfl
@[simp] theorem State.idle_net (s : State) : s.idle.net = s.net := rfl
@[simp] theorem State.idle_tim (s : State) : s.idle.tim = s.tim := rfl
@[simp] theorem State.idle_rin (s : State) : s.idle.rin = s.rin := rfl
@[simp] theorem State.idle_fet (s : State) : s.idle.fet = s.fet := rfl
@[simp] theorem State.idle_mem (s : State) : s.idle.mem = s.mem := rfl
@[simp] theorem State.idle_dram (s : State) : s.idle.dram = s.dram := rfl
@[simp] theorem State.idle_pos (s : State) : s.idle.pos = s.pos := rfl
@[simp] theorem State.idle_lcg (s : State) : s.idle.lcg = s.lcg := rfl
@[simp] theorem State.idle_cmp (s : State) : s.idle.cmp = s.cmp := rfl
@[simp] theorem State.idle_sne (s : State) : s.idle.sne = s.sne := rfl
@[simp] theorem State.idle_fsq (s : State) : s.idle.fsq = s.fsq := rfl
@[simp] theorem State.idle_hlk (s : State) : s.idle.hlk = s.hlk := rfl
@[simp] theorem State.idle_hdms (s : State) : s.idle.hdms = s.hdms := rfl
@[simp] theorem State.idle_hdg (s : State) : s.idle.hdg = s.hdg := rfl
@[simp] theorem State.idle_vis (s : State) : s.idle.vis = s.vis := rfl
@[simp] theorem State.idle_che (s : State) : s.idle.che = s.che := rfl
@[simp] theorem State.idle_mir (s : State) : s.idle.mir = s.mir := rfl
@[simp] theorem State.idle_therm (s : State) : s.idle.therm = s.therm := rfl
@[simp] theorem State.idle_aonDiodes (s : State) : s.idle.aonDiodes = s.aonDiodes := rfl
@[simp] theorem State.idle_fireEn (s : State) : s.idle.fireEn = s.fireEn := rfl

@[simp] theorem State.emit_pending (s : State) (e : Emission) : (s.emit e).pending = s.pending := rfl
@[simp] theorem State.emit_tick (s : State) (e : Emission) : (s.emit e).tick = s.tick := rfl
@[simp] theorem State.emit_fresh (s : State) (e : Emission) : (s.emit e).fresh = s.fresh := rfl
@[simp] theorem State.emit_sent (s : State) (e : Emission) : (s.emit e).sent = s.sent ++ [e] := rfl
@[simp] theorem State.emit_fuses (s : State) (e : Emission) : (s.emit e).fuses = s.fuses := rfl
@[simp] theorem State.emit_objs (s : State) (e : Emission) : (s.emit e).objs = s.objs := rfl
@[simp] theorem State.emit_pwr (s : State) (e : Emission) : (s.emit e).pwr = s.pwr := rfl
@[simp] theorem State.emit_flt (s : State) (e : Emission) : (s.emit e).flt = s.flt := rfl
@[simp] theorem State.emit_bbx (s : State) (e : Emission) : (s.emit e).bbx = s.bbx := rfl
@[simp] theorem State.emit_wilwa (s : State) (e : Emission) : (s.emit e).wilwa = s.wilwa := rfl
@[simp] theorem State.emit_nonVol (s : State) (e : Emission) : (s.emit e).nonVol = s.nonVol := rfl
@[simp] theorem State.emit_net (s : State) (e : Emission) : (s.emit e).net = s.net := rfl
@[simp] theorem State.emit_tim (s : State) (e : Emission) : (s.emit e).tim = s.tim := rfl
@[simp] theorem State.emit_rin (s : State) (e : Emission) : (s.emit e).rin = s.rin := rfl
@[simp] theorem State.emit_fet (s : State) (e : Emission) : (s.emit e).fet = s.fet := rfl
@[simp] theorem State.emit_mem (s : State) (e : Emission) : (s.emit e).mem = s.mem := rfl
@[simp] theorem State.emit_dram (s : State) (e : Emission) : (s.emit e).dram = s.dram := rfl
@[simp] theorem State.emit_pos (s : State) (e : Emission) : (s.emit e).pos = s.pos := rfl
@[simp] theorem State.emit_lcg (s : State) (e : Emission) : (s.emit e).lcg = s.lcg := rfl
@[simp] theorem State.emit_cmp (s : State) (e : Emission) : (s.emit e).cmp = s.cmp := rfl
@[simp] theorem State.emit_sne (s : State) (e : Emission) : (s.emit e).sne = s.sne := rfl
@[simp] theorem State.emit_fsq (s : State) (e : Emission) : (s.emit e).fsq = s.fsq := rfl
@[simp] theorem State.emit_hlk (s : State) (e : Emission) : (s.emit e).hlk = s.hlk := rfl
@[simp] theorem State.emit_hdms (s : State) (e : Emission) : (s.emit e).hdms = s.hdms := rfl
@[simp] theorem State.emit_hdg (s : State) (e : Emission) : (s.emit e).hdg = s.hdg := rfl
@[simp] theorem State.emit_vis (s : State) (e : Emission) : (s.emit e).vis = s.vis := rfl
@[simp] theorem State.emit_che (s : State) (e : Emission) : (s.emit e).che = s.che := rfl
@[simp] theorem State.emit_mir (s : State) (e : Emission) : (s.emit e).mir = s.mir := rfl
@[simp] theorem State.emit_therm (s : State) (e : Emission) : (s.emit e).therm = s.therm := rfl
@[simp] theorem State.emit_aonDiodes (s : State) (e : Emission) : (s.emit e).aonDiodes = s.aonDiodes := rfl
@[simp] theorem State.emit_fireEn (s : State) (e : Emission) : (s.emit e).fireEn = s.fireEn := rfl

@[simp] theorem State.setObj_pending (s : State) (i j : Nat) (v : Val) : (s.setObj i j v).pending = s.pending := rfl
@[simp] theorem State.setObj_tick (s : State) (i j : Nat) (v : Val) : (s.setObj i j v).tick = s.tick := rfl
@[simp] theorem State.setObj_fresh (s : State) (i j : Nat) (v : Val) : (s.setObj i j v).fresh = s.fresh := rfl
@[simp] theorem State.setObj_sent (s : State) (i j : Nat) (v : Val) : (s.setObj i j v).sent = s.sent := rfl
@[simp] theorem State.setObj_fuses (s : State) (i j : Nat) (v : Val) : (s.setObj i j v).fuses = s.fuses := rfl
@[simp] theorem State.setObj_objs (s : State) (i j : Nat) (v : Val) : (s.setObj i j v).objs = kvSet s.objs (defaultVal i j) (key i j) v := rfl
@[simp] theorem State.setObj_pwr (s : State) (i j : Nat) (v : Val) : (s.setObj i j v).pwr = s.pwr := rfl
@[simp] theorem State.setObj_flt (s : State) (i j : Nat) (v : Val) : (s.setObj i j v).flt = s.flt := rfl
@[simp] theorem State.setObj_bbx (s : State) (i j : Nat) (v : Val) : (s.setObj i j v).bbx = s.bbx := rfl
@[simp] theorem State.setObj_wilwa (s : State) (i j : Nat) (v : Val) : (s.setObj i j v).wilwa = s.wilwa := rfl
@[simp] theorem State.setObj_nonVol (s : State) (i j : Nat) (v : Val) : (s.setObj i j v).nonVol = s.nonVol := rfl
@[simp] theorem State.setObj_net (s : State) (i j : Nat) (v : Val) : (s.setObj i j v).net = s.net := rfl
@[simp] theorem State.setObj_tim (s : State) (i j : Nat) (v : Val) : (s.setObj i j v).tim = s.tim := rfl
@[simp] theorem State.setObj_rin (s : State) (i j : Nat) (v : Val) : (s.setObj i j v).rin = s.rin := rfl
@[simp] theorem State.setObj_fet (s : State) (i j : Nat) (v : Val) : (s.setObj i j v).fet = s.fet := rfl
@[simp] theorem State.setObj_mem (s : State) (i j : Nat) (v : Val) : (s.setObj i j v).mem = s.mem := rfl
@[simp] theorem State.setObj_dram (s : State) (i j : Nat) (v : Val) : (s.setObj i j v).dram = s.dram := rfl
@[simp] theorem State.setObj_pos (s : State) (i j : Nat) (v : Val) : (s.setObj i j v).pos = s.pos := rfl
@[simp] theorem State.setObj_lcg (s : State) (i j : Nat) (v : Val) : (s.setObj i j v).lcg = s.lcg := rfl
@[simp] theorem State.setObj_cmp (s : State) (i j : Nat) (v : Val) : (s.setObj i j v).cmp = s.cmp := rfl
@[simp] theorem State.setObj_sne (s : State) (i j : Nat) (v : Val) : (s.setObj i j v).sne = s.sne := rfl
@[simp] theorem State.setObj_fsq (s : State) (i j : Nat) (v : Val) : (s.setObj i j v).fsq = s.fsq := rfl
@[simp] theorem State.setObj_hlk (s : State) (i j : Nat) (v : Val) : (s.setObj i j v).hlk = s.hlk := rfl
@[simp] theorem State.setObj_hdms (s : State) (i j : Nat) (v : Val) : (s.setObj i j v).hdms = s.hdms := rfl
@[simp] theorem State.setObj_hdg (s : State) (i j : Nat) (v : Val) : (s.setObj i j v).hdg = s.hdg := rfl
@[simp] theorem State.setObj_vis (s : State) (i j : Nat) (v : Val) : (s.setObj i j v).vis = s.vis := rfl
@[simp] theorem State.setObj_che (s : State) (i j : Nat) (v : Val) : (s.setObj i j v).che = s.che := rfl
@[simp] theorem State.setObj_mir (s : State) (i j : Nat) (v : Val) : (s.setObj i j v).mir = s.mir := rfl
@[simp] theorem State.setObj_therm (s : State) (i j : Nat) (v : Val) : (s.setObj i j v).therm = s.therm := rfl
@[simp] theorem State.setObj_aonDiodes (s : State) (i j : Nat) (v : Val) : (s.setObj i j v).aonDiodes = s.aonDiodes := rfl
@[simp] theorem State.setObj_fireEn (s : State) (i j : Nat) (v : Val) : (s.setObj i j v).fireEn = s.fireEn := rfl

@[simp] theorem State.setNum_pending (s : State) (i j n : Nat) : (s.setNum i j n).pending = s.pending := rfl
@[simp] theorem State.setNum_tick (s : State) (i j n : Nat) : (s.setNum i j n).tick = s.tick := rfl
@[simp] theorem State.setNum_fresh (s : State) (i j n : Nat) : (s.setNum i j n).fresh = s.fresh := rfl
@[simp] theorem State.setNum_sent (s : State) (i j n : Nat) : (s.setNum i j n).sent = s.sent := rfl
@[simp] theorem State.setNum_fuses (s : State) (i j n : Nat) : (s.setNum i j n).fuses = s.fuses := rfl
@[simp] theorem State.setNum_objs (s : State) (i j n : Nat) : (s.setNum i j n).objs = kvSet s.objs (defaultVal i j) (key i j) (.num n) := rfl
@[simp] theorem State.setNum_pwr (s : State) (i j n : Nat) : (s.setNum i j n).pwr = s.pwr := rfl
@[simp] theorem State.setNum_flt (s : State) (i j n : Nat) : (s.setNum i j n).flt = s.flt := rfl
@[simp] theorem State.setNum_bbx (s : State) (i j n : Nat) : (s.setNum i j n).bbx = s.bbx := rfl
@[simp] theorem State.setNum_wilwa (s : State) (i j n : Nat) : (s.setNum i j n).wilwa = s.wilwa := rfl
@[simp] theorem State.setNum_nonVol (s : State) (i j n : Nat) : (s.setNum i j n).nonVol = s.nonVol := rfl
@[simp] theorem State.setNum_net (s : State) (i j n : Nat) : (s.setNum i j n).net = s.net := rfl
@[simp] theorem State.setNum_tim (s : State) (i j n : Nat) : (s.setNum i j n).tim = s.tim := rfl
@[simp] theorem State.setNum_rin (s : State) (i j n : Nat) : (s.setNum i j n).rin = s.rin := rfl
@[simp] theorem State.setNum_fet (s : State) (i j n : Nat) : (s.setNum i j n).fet = s.fet := rfl
@[simp] theorem State.setNum_mem (s : State) (i j n : Nat) : (s.setNum i j n).mem = s.mem := rfl
@[simp] theorem State.setNum_dram (s : State) (i j n : Nat) : (s.setNum i j n).dram = s.dram := rfl
@[simp] theorem State.setNum_pos (s : State) (i j n : Nat) : (s.setNum i j n).pos = s.pos := rfl
@[simp] theorem State.setNum_lcg (s : State) (i j n : Nat) : (s.setNum i j n).lcg = s.lcg := rfl
@[simp] theorem State.setNum_cmp (s : State) (i j n : Nat) : (s.setNum i j n).cmp = s.cmp := rfl
@[simp] theorem State.setNum_sne (s : State) (i j n : Nat) : (s.setNum i j n).sne = s.sne := rfl
@[simp] theorem State.setNum_fsq (s : State) (i j n : Nat) : (s.setNum i j n).fsq = s.fsq := rfl
@[simp] theorem State.setNum_hlk (s : State) (i j n : Nat) : (s.setNum i j n).hlk = s.hlk := rfl
@[simp] theorem State.setNum_hdms (s : State) (i j n : Nat) : (s.setNum i j n).hdms = s.hdms := rfl
@[simp] theorem State.setNum_hdg (s : State) (i j n : Nat) : (s.setNum i j n).hdg = s.hdg := rfl
@[simp] theorem State.setNum_vis (s : State) (i j n : Nat) : (s.setNum i j n).vis = s.vis := rfl
@[simp] theorem State.setNum_che (s : State) (i j n : Nat) : (s.setNum i j n).che = s.che := rfl
@[simp] theorem State.setNum_mir (s : State) (i j n : Nat) : (s.setNum i j n).mir = s.mir := rfl
@[simp] theorem State.setNum_therm (s : State) (i j n : Nat) : (s.setNum i j n).therm = s.therm := rfl
@[simp] theorem State.setNum_aonDiodes (s : State) (i j n : Nat) : (s.setNum i j n).aonDiodes = s.aonDiodes := rfl
@[simp] theorem State.setNum_fireEn (s : State) (i j n : Nat) : (s.setNum i j n).fireEn = s.fireEn := rfl

@[simp] theorem State.addNum_pending (s : State) (i j n : Nat) : (s.addNum i j n).pending = s.pending := rfl
@[simp] theorem State.addNum_tick (s : State) (i j n : Nat) : (s.addNum i j n).tick = s.tick := rfl
@[simp] theorem State.addNum_fresh (s : State) (i j n : Nat) : (s.addNum i j n).fresh = s.fresh := rfl
@[simp] theorem State.addNum_sent (s : State) (i j n : Nat) : (s.addNum i j n).sent = s.sent := rfl
@[simp] theorem State.addNum_fuses (s : State) (i j n : Nat) : (s.addNum i j n).fuses = s.fuses := rfl
@[simp] theorem State.addNum_pwr (s : State) (i j n : Nat) : (s.addNum i j n).pwr = s.pwr := rfl
@[simp] theorem State.addNum_flt (s : State) (i j n : Nat) : (s.addNum i j n).flt = s.flt := rfl
@[simp] theorem State.addNum_bbx (s : State) (i j n : Nat) : (s.addNum i j n).bbx = s.bbx := rfl
@[simp] theorem State.addNum_wilwa (s : State) (i j n : Nat) : (s.addNum i j n).wilwa = s.wilwa := rfl
@[simp] theorem State.addNum_nonVol (s : State) (i j n : Nat) : (s.addNum i j n).nonVol = s.nonVol := rfl
@[simp] theorem State.addNum_net (s : State) (i j n : Nat) : (s.addNum i j n).net = s.net := rfl
@[simp] theorem State.addNum_tim (s : State) (i j n : Nat) : (s.addNum i j n).tim = s.tim := rfl
@[simp] theorem State.addNum_rin (s : State) (i j n : Nat) : (s.addNum i j n).rin = s.rin := rfl
@[simp] theorem State.addNum_fet (s : State) (i j n : Nat) : (s.addNum i j n).fet = s.fet := rfl
@[simp] theorem State.addNum_mem (s : State) (i j n : Nat) : (s.addNum i j n).mem = s.mem := rfl
@[simp] theorem State.addNum_dram (s : State) (i j n : Nat) : (s.addNum i j n).dram = s.dram := rfl
@[simp] theorem State.addNum_pos (s : State) (i j n : Nat) : (s.addNum i j n).pos = s.pos := rfl
@[simp] theorem State.addNum_lcg (s : State) (i j n : Nat) : (s.addNum i j n).lcg = s.lcg := rfl
@[simp] theorem State.addNum_cmp (s : State) (i j n : Nat) : (s.addNum i j n).cmp = s.cmp := rfl
@[simp] theorem State.addNum_sne (s : State) (i j n : Nat) : (s.addNum i j n).sne = s.sne := rfl
@[simp] theorem State.addNum_fsq (s : State) (i j n : Nat) : (s.addNum i j n).fsq = s.fsq := rfl
@[simp] theorem State.addNum_hlk (s : State) (i j n : Nat) : (s.addNum i j n).hlk = s.hlk := rfl
@[simp] theorem State.addNum_hdms (s : State) (i j n : Nat) : (s.addNum i j n).hdms = s.hdms := rfl
@[simp] theorem State.addNum_hdg (s : State) (i j n : Nat) : (s.addNum i j n).hdg = s.hdg := rfl
@[simp] theorem State.addNum_vis (s : State) (i j n : Nat) : (s.addNum i j n).vis = s.vis := rfl
@[simp] theorem State.addNum_che (s : State) (i j n : Nat) : (s.addNum i j n).che = s.che := rfl
@[simp] theorem State.addNum_mir (s : State) (i j n : Nat) : (s.addNum i j n).mir = s.mir := rfl
@[simp] theorem State.addNum_therm (s : State) (i j n : Nat) : (s.addNum i j n).therm = s.therm := rfl
@[simp] theorem State.addNum_aonDiodes (s : State) (i j n : Nat) : (s.addNum i j n).aonDiodes = s.aonDiodes := rfl
@[simp] theorem State.addNum_fireEn (s : State) (i j n : Nat) : (s.addNum i j n).fireEn = s.fireEn := rfl

@[simp] theorem State.bump_pending (s : State) (i j : Nat) : (s.bump i j).pending = s.pending := rfl
@[simp] theorem State.bump_tick (s : State) (i j : Nat) : (s.bump i j).tick = s.tick := rfl
@[simp] theorem State.bump_fresh (s : State) (i j : Nat) : (s.bump i j).fresh = s.fresh := rfl
@[simp] theorem State.bump_sent (s : State) (i j : Nat) : (s.bump i j).sent = s.sent := rfl
@[simp] theorem State.bump_fuses (s : State) (i j : Nat) : (s.bump i j).fuses = s.fuses := rfl
@[simp] theorem State.bump_pwr (s : State) (i j : Nat) : (s.bump i j).pwr = s.pwr := rfl
@[simp] theorem State.bump_flt (s : State) (i j : Nat) : (s.bump i j).flt = s.flt := rfl
@[simp] theorem State.bump_bbx (s : State) (i j : Nat) : (s.bump i j).bbx = s.bbx := rfl
@[simp] theorem State.bump_wilwa (s : State) (i j : Nat) : (s.bump i j).wilwa = s.wilwa := rfl
@[simp] theorem State.bump_nonVol (s : State) (i j : Nat) : (s.bump i j).nonVol = s.nonVol := rfl
@[simp] theorem State.bump_net (s : State) (i j : Nat) : (s.bump i j).net = s.net := rfl
@[simp] theorem State.bump_tim (s : State) (i j : Nat) : (s.bump i j).tim = s.tim := rfl
@[simp] theorem State.bump_rin (s : State) (i j : Nat) : (s.bump i j).rin = s.rin := rfl
@[simp] theorem State.bump_fet (s : State) (i j : Nat) : (s.bump i j).fet = s.fet := rfl
@[simp] theorem State.bump_mem (s : State) (i j : Nat) : (s.bump i j).mem = s.mem := rfl
@[simp] theorem State.bump_dram (s : State) (i j : Nat) : (s.bump i j).dram = s.dram := rfl
@[simp] theorem State.bump_pos (s : State) (i j : Nat) : (s.bump i j).pos = s.pos := rfl
@[simp] theorem State.bump_lcg (s : State) (i j : Nat) : (s.bump i j).lcg = s.lcg := rfl
@[simp] theorem State.bump_cmp (s : State) (i j : Nat) : (s.bump i j).cmp = s.cmp := rfl
@[simp] theorem State.bump_sne (s : State) (i j : Nat) : (s.bump i j).sne = s.sne := rfl
@[simp] theorem State.bump_fsq (s : State) (i j : Nat) : (s.bump i j).fsq = s.fsq := rfl
@[simp] theorem State.bump_hlk (s : State) (i j : Nat) : (s.bump i j).hlk = s.hlk := rfl
@[simp] theorem State.bump_hdms (s : State) (i j : Nat) : (s.bump i j).hdms = s.hdms := rfl
@[simp] theorem State.bump_hdg (s : State) (i j : Nat) : (s.bump i j).hdg = s.hdg := rfl
@[simp] theorem State.bump_vis (s : State) (i j : Nat) : (s.bump i j).vis = s.vis := rfl
@[simp] theorem State.bump_che (s : State) (i j : Nat) : (s.bump i j).che = s.che := rfl
@[simp] theorem State.bump_mir (s : State) (i j : Nat) : (s.bump i j).mir = s.mir := rfl
@[simp] theorem State.bump_therm (s : State) (i j : Nat) : (s.bump i j).therm = s.therm := rfl
@[simp] theorem State.bump_aonDiodes (s : State) (i j : Nat) : (s.bump i j).aonDiodes = s.aonDiodes := rfl
@[simp] theorem State.bump_fireEn (s : State) (i j : Nat) : (s.bump i j).fireEn = s.fireEn := rfl

@[simp] theorem State.clearObjs_pending (s : State) (p : Nat → Nat → Bool) : (s.clearObjs p).pending = s.pending := rfl
@[simp] theorem State.clearObjs_tick (s : State) (p : Nat → Nat → Bool) : (s.clearObjs p).tick = s.tick := rfl
@[simp] theorem State.clearObjs_fresh (s : State) (p : Nat → Nat → Bool) : (s.clearObjs p).fresh = s.fresh := rfl
@[simp] theorem State.clearObjs_sent (s : State) (p : Nat → Nat → Bool) : (s.clearObjs p).sent = s.sent := rfl
@[simp] theorem State.clearObjs_fuses (s : State) (p : Nat → Nat → Bool) : (s.clearObjs p).fuses = s.fuses := rfl
@[simp] theorem State.clearObjs_pwr (s : State) (p : Nat → Nat → Bool) : (s.clearObjs p).pwr = s.pwr := rfl
@[simp] theorem State.clearObjs_flt (s : State) (p : Nat → Nat → Bool) : (s.clearObjs p).flt = s.flt := rfl
@[simp] theorem State.clearObjs_bbx (s : State) (p : Nat → Nat → Bool) : (s.clearObjs p).bbx = s.bbx := rfl
@[simp] theorem State.clearObjs_wilwa (s : State) (p : Nat → Nat → Bool) : (s.clearObjs p).wilwa = s.wilwa := rfl
@[simp] theorem State.clearObjs_nonVol (s : State) (p : Nat → Nat → Bool) : (s.clearObjs p).nonVol = s.nonVol := rfl
@[simp] theorem State.clearObjs_net (s : State) (p : Nat → Nat → Bool) : (s.clearObjs p).net = s.net := rfl
@[simp] theorem State.clearObjs_tim (s : State) (p : Nat → Nat → Bool) : (s.clearObjs p).tim = s.tim := rfl
@[simp] theorem State.clearObjs_rin (s : State) (p : Nat → Nat → Bool) : (s.clearObjs p).rin = s.rin := rfl
@[simp] theorem State.clearObjs_fet (s : State) (p : Nat → Nat → Bool) : (s.clearObjs p).fet = s.fet := rfl
@[simp] theorem State.clearObjs_mem (s : State) (p : Nat → Nat → Bool) : (s.clearObjs p).mem = s.mem := rfl
@[simp] theorem State.clearObjs_dram (s : State) (p : Nat → Nat → Bool) : (s.clearObjs p).dram = s.dram := rfl
@[simp] theorem State.clearObjs_pos (s : State) (p : Nat → Nat → Bool) : (s.clearObjs p).pos = s.pos := rfl
@[simp] theorem State.clearObjs_lcg (s : State) (p : Nat → Nat → Bool) : (s.clearObjs p).lcg = s.lcg := rfl
@[simp] theorem State.clearObjs_cmp (s : State) (p : Nat → Nat → Bool) : (s.clearObjs p).cmp = s.cmp := rfl
@[simp] theorem State.clearObjs_sne (s : State) (p : Nat → Nat → Bool) : (s.clearObjs p).sne = s.sne := rfl
@[simp] theorem State.clearObjs_fsq (s : State) (p : Nat → Nat → Bool) : (s.clearObjs p).fsq = s.fsq := rfl
@[simp] theorem State.clearObjs_hlk (s : State) (p : Nat → Nat → Bool) : (s.clearObjs p).hlk = s.hlk := rfl
@[simp] theorem State.clearObjs_hdms (s : State) (p : Nat → Nat → Bool) : (s.clearObjs p).hdms = s.hdms := rfl
@[simp] theorem State.clearObjs_hdg (s : State) (p : Nat → Nat → Bool) : (s.clearObjs p).hdg = s.hdg := rfl
@[simp] theorem State.clearObjs_vis (s : State) (p : Nat → Nat → Bool) : (s.clearObjs p).vis = s.vis := rfl
@[simp] theorem State.clearObjs_che (s : State) (p : Nat → Nat → Bool) : (s.clearObjs p).che = s.che := rfl
@[simp] theorem State.clearObjs_mir (s : State) (p : Nat → Nat → Bool) : (s.clearObjs p).mir = s.mir := rfl
@[simp] theorem State.clearObjs_therm (s : State) (p : Nat → Nat → Bool) : (s.clearObjs p).therm = s.therm := rfl
@[simp] theorem State.clearObjs_aonDiodes (s : State) (p : Nat → Nat → Bool) : (s.clearObjs p).aonDiodes = s.aonDiodes := rfl
@[simp] theorem State.clearObjs_fireEn (s : State) (p : Nat → Nat → Bool) : (s.clearObjs p).fireEn = s.fireEn := rfl

@[simp] theorem State.irq_pending (s : State) (i : Nat) : (s.irq i).pending = s.pending := rfl
@[simp] theorem State.irq_tick (s : State) (i : Nat) : (s.irq i).tick = s.tick := rfl
@[simp] theorem State.irq_fresh (s : State) (i : Nat) : (s.irq i).fresh = s.fresh := rfl
@[simp] theorem State.irq_sent (s : State) (i : Nat) : (s.irq i).sent = s.sent := rfl
@[simp] theorem State.irq_fuses (s : State) (i : Nat) : (s.irq i).fuses = s.fuses := rfl
@[simp] theorem State.irq_pwr (s : State) (i : Nat) : (s.irq i).pwr = s.pwr := rfl
@[simp] theorem State.irq_flt (s : State) (i : Nat) : (s.irq i).flt = s.flt := rfl
@[simp] theorem State.irq_bbx (s : State) (i : Nat) : (s.irq i).bbx = s.bbx := rfl
@[simp] theorem State.irq_wilwa (s : State) (i : Nat) : (s.irq i).wilwa = s.wilwa := rfl
@[simp] theorem State.irq_nonVol (s : State) (i : Nat) : (s.irq i).nonVol = s.nonVol := rfl
@[simp] theorem State.irq_net (s : State) (i : Nat) : (s.irq i).net = s.net := rfl
@[simp] theorem State.irq_tim (s : State) (i : Nat) : (s.irq i).tim = s.tim := rfl
@[simp] theorem State.irq_rin (s : State) (i : Nat) : (s.irq i).rin = s.rin := rfl
@[simp] theorem State.irq_fet (s : State) (i : Nat) : (s.irq i).fet = s.fet := rfl
@[simp] theorem State.irq_mem (s : State) (i : Nat) : (s.irq i).mem = s.mem := rfl
@[simp] theorem State.irq_dram (s : State) (i : Nat) : (s.irq i).dram = s.dram := rfl
@[simp] theorem State.irq_pos (s : State) (i : Nat) : (s.irq i).pos = s.pos := rfl
@[simp] theorem State.irq_lcg (s : State) (i : Nat) : (s.irq i).lcg = s.lcg := rfl
@[simp] theorem State.irq_cmp (s : State) (i : Nat) : (s.irq i).cmp = s.cmp := rfl
@[simp] theorem State.irq_sne (s : State) (i : Nat) : (s.irq i).sne = s.sne := rfl
@[simp] theorem State.irq_fsq (s : State) (i : Nat) : (s.irq i).fsq = s.fsq := rfl
@[simp] theorem State.irq_hlk (s : State) (i : Nat) : (s.irq i).hlk = s.hlk := rfl
@[simp] theorem State.irq_hdms (s : State) (i : Nat) : (s.irq i).hdms = s.hdms := rfl
@[simp] theorem State.irq_hdg (s : State) (i : Nat) : (s.irq i).hdg = s.hdg := rfl
@[simp] theorem State.irq_vis (s : State) (i : Nat) : (s.irq i).vis = s.vis := rfl
@[simp] theorem State.irq_che (s : State) (i : Nat) : (s.irq i).che = s.che := rfl
@[simp] theorem State.irq_mir (s : State) (i : Nat) : (s.irq i).mir = s.mir := rfl
@[simp] theorem State.irq_therm (s : State) (i : Nat) : (s.irq i).therm = s.therm := rfl
@[simp] theorem State.irq_aonDiodes (s : State) (i : Nat) : (s.irq i).aonDiodes = s.aonDiodes := rfl
@[simp] theorem State.irq_fireEn (s : State) (i : Nat) : (s.irq i).fireEn = s.fireEn := rfl

@[simp] theorem State.modPwr_pending (s : State) (f : Pwr → Pwr) : (s.modPwr f).pending = s.pending := rfl
@[simp] theorem State.modPwr_tick (s : State) (f : Pwr → Pwr) : (s.modPwr f).tick = s.tick := rfl
@[simp] theorem State.modPwr_fresh (s : State) (f : Pwr → Pwr) : (s.modPwr f).fresh = s.fresh := rfl
@[simp] theorem State.modPwr_sent (s : State) (f : Pwr → Pwr) : (s.modPwr f).sent = s.sent := rfl
@[simp] theorem State.modPwr_fuses (s : State) (f : Pwr → Pwr) : (s.modPwr f).fuses = s.fuses := rfl
@[simp] theorem State.modPwr_objs (s : State) (f : Pwr → Pwr) : (s.modPwr f).objs = s.objs := rfl
@[simp] theorem State.modPwr_pwr (s : State) (f : Pwr → Pwr) : (s.modPwr f).pwr = f s.pwr := rfl
@[simp] theorem State.modPwr_flt (s : State) (f : Pwr → Pwr) : (s.modPwr f).flt = s.flt := rfl
@[simp] theorem State.modPwr_bbx (s : State) (f : Pwr → Pwr) : (s.modPwr f).bbx = s.bbx := rfl
@[simp] theorem State.modPwr_wilwa (s : State) (f : Pwr → Pwr) : (s.modPwr f).wilwa = s.wilwa := rfl
@[simp] theorem State.modPwr_nonVol (s : State) (f : Pwr → Pwr) : (s.modPwr f).nonVol = s.nonVol := rfl
@[simp] theorem State.modPwr_net (s : State) (f : Pwr → Pwr) : (s.modPwr f).net = s.net := rfl
@[simp] theorem State.modPwr_tim (s : State) (f : Pwr → Pwr) : (s.modPwr f).tim = s.tim := rfl
@[simp] theorem State.modPwr_rin (s : State) (f : Pwr → Pwr) : (s.modPwr f).rin = s.rin := rfl
@[simp] theorem State.modPwr_fet (s : State) (f : Pwr → Pwr) : (s.modPwr f).fet = s.fet := rfl
@[simp] theorem State.modPwr_mem (s : State) (f : Pwr → Pwr) : (s.modPwr f).mem = s.mem := rfl
@[simp] theorem State.modPwr_dram (s : State) (f : Pwr → Pwr) : (s.modPwr f).dram = s.dram := rfl
@[simp] theorem State.modPwr_pos (s : State) (f : Pwr → Pwr) : (s.modPwr f).pos = s.pos := rfl
@[simp] theorem State.modPwr_lcg (s : State) (f : Pwr → Pwr) : (s.modPwr f).lcg = s.lcg := rfl
@[simp] theorem State.modPwr_cmp (s : State) (f : Pwr → Pwr) : (s.modPwr f).cmp = s.cmp := rfl
@[simp] theorem State.modPwr_sne (s : State) (f : Pwr → Pwr) : (s.modPwr f).sne = s.sne := rfl
@[simp] theorem State.modPwr_fsq (s : State) (f : Pwr → Pwr) : (s.modPwr f).fsq = s.fsq := rfl
@[simp] theorem State.modPwr_hlk (s : State) (f : Pwr → Pwr) : (s.modPwr f).hlk = s.hlk := rfl
@[simp] theorem State.modPwr_hdms (s : State) (f : Pwr → Pwr) : (s.modPwr f).hdms = s.hdms := rfl
@[simp] theorem State.modPwr_hdg (s : State) (f : Pwr → Pwr) : (s.modPwr f).hdg = s.hdg := rfl
@[simp] theorem State.modPwr_vis (s : State) (f : Pwr → Pwr) : (s.modPwr f).vis = s.vis := rfl
@[simp] theorem State.modPwr_che (s : State) (f : Pwr → Pwr) : (s.modPwr f).che = s.che := rfl
@[simp] theorem State.modPwr_mir (s : State) (f : Pwr → Pwr) : (s.modPwr f).mir = s.mir := rfl
@[simp] theorem State.modPwr_therm (s : State) (f : Pwr → Pwr) : (s.modPwr f).therm = s.therm := rfl
@[simp] theorem State.modPwr_aonDiodes (s : State) (f : Pwr → Pwr) : (s.modPwr f).aonDiodes = s.aonDiodes := rfl
@[simp] theorem State.modPwr_fireEn (s : State) (f : Pwr → Pwr) : (s.modPwr f).fireEn = s.fireEn := rfl

@[simp] theorem State.modFlt_pending (s : State) (f : Flt → Flt) : (s.modFlt f).pending = s.pending := rfl
@[simp] theorem State.modFlt_tick (s : State) (f : Flt → Flt) : (s.modFlt f).tick = s.tick := rfl
@[simp] theorem State.modFlt_fresh (s : State) (f : Flt → Flt) : (s.modFlt f).fresh = s.fresh := rfl
@[simp] theorem State.modFlt_sent (s : State) (f : Flt → Flt) : (s.modFlt f).sent = s.sent := rfl
@[simp] theorem State.modFlt_fuses (s : State) (f : Flt → Flt) : (s.modFlt f).fuses = s.fuses := rfl
@[simp] theorem State.modFlt_objs (s : State) (f : Flt → Flt) : (s.modFlt f).objs = s.objs := rfl
@[simp] theorem State.modFlt_pwr (s : State) (f : Flt → Flt) : (s.modFlt f).pwr = s.pwr := rfl
@[simp] theorem State.modFlt_flt (s : State) (f : Flt → Flt) : (s.modFlt f).flt = f s.flt := rfl
@[simp] theorem State.modFlt_bbx (s : State) (f : Flt → Flt) : (s.modFlt f).bbx = s.bbx := rfl
@[simp] theorem State.modFlt_wilwa (s : State) (f : Flt → Flt) : (s.modFlt f).wilwa = s.wilwa := rfl
@[simp] theorem State.modFlt_nonVol (s : State) (f : Flt → Flt) : (s.modFlt f).nonVol = s.nonVol := rfl
@[simp] theorem State.modFlt_net (s : State) (f : Flt → Flt) : (s.modFlt f).net = s.net := rfl
@[simp] theorem State.modFlt_tim (s : State) (f : Flt → Flt) : (s.modFlt f).tim = s.tim := rfl
@[simp] theorem State.modFlt_rin (s : State) (f : Flt → Flt) : (s.modFlt f).rin = s.rin := rfl
@[simp] theorem State.modFlt_fet (s : State) (f : Flt → Flt) : (s.modFlt f).fet = s.fet := rfl
@[simp] theorem State.modFlt_mem (s : State) (f : Flt → Flt) : (s.modFlt f).mem = s.mem := rfl
@[simp] theorem State.modFlt_dram (s : State) (f : Flt → Flt) : (s.modFlt f).dram = s.dram := rfl
@[simp] theorem State.modFlt_pos (s : State) (f : Flt → Flt) : (s.modFlt f).pos = s.pos := rfl
@[simp] theorem State.modFlt_lcg (s : State) (f : Flt → Flt) : (s.modFlt f).lcg = s.lcg := rfl
@[simp] theorem State.modFlt_cmp (s : State) (f : Flt → Flt) : (s.modFlt f).cmp = s.cmp := rfl
@[simp] theorem State.modFlt_sne (s : State) (f : Flt → Flt) : (s.modFlt f).sne = s.sne := rfl
@[simp] theorem State.modFlt_fsq (s : State) (f : Flt → Flt) : (s.modFlt f).fsq = s.fsq := rfl
@[simp] theorem State.modFlt_hlk (s : State) (f : Flt → Flt) : (s.modFlt f).hlk = s.hlk := rfl
@[simp] theorem State.modFlt_hdms (s : State) (f : Flt → Flt) : (s.modFlt f).hdms = s.hdms := rfl
@[simp] theorem State.modFlt_hdg (s : State) (f : Flt → Flt) : (s.modFlt f).hdg = s.hdg := rfl
@[simp] theorem State.modFlt_vis (s : State) (f : Flt → Flt) : (s.modFlt f).vis = s.vis := rfl
@[simp] theorem State.modFlt_che (s : State) (f : Flt → Flt) : (s.modFlt f).che = s.che := rfl
@[simp] theorem State.modFlt_mir (s : State) (f : Flt → Flt) : (s.modFlt f).mir = s.mir := rfl
@[simp] theorem State.modFlt_therm (s : State) (f : Flt → Flt) : (s.modFlt f).therm = s.therm := rfl
@[simp] theorem State.modFlt_aonDiodes (s : State) (f : Flt → Flt) : (s.modFlt f).aonDiodes = s.aonDiodes := rfl
@[simp] theorem State.modFlt_fireEn (s : State) (f : Flt → Flt) : (s.modFlt f).fireEn = s.fireEn := rfl

@[simp] theorem State.modBbx_pending (s : State) (f : Bbx → Bbx) : (s.modBbx f).pending = s.pending := rfl
@[simp] theorem State.modBbx_tick (s : State) (f : Bbx → Bbx) : (s.modBbx f).tick = s.tick := rfl
@[simp] theorem State.modBbx_fresh (s : State) (f : Bbx → Bbx) : (s.modBbx f).fresh = s.fresh := rfl
@[simp] theorem State.modBbx_sent (s : State) (f : Bbx → Bbx) : (s.modBbx f).sent = s.sent := rfl
@[simp] theorem State.modBbx_fuses (s : State) (f : Bbx → Bbx) : (s.modBbx f).fuses = s.fuses := rfl
@[simp] theorem State.modBbx_objs (s : State) (f : Bbx → Bbx) : (s.modBbx f).objs = s.objs := rfl
@[simp] theorem State.modBbx_pwr (s : State) (f : Bbx → Bbx) : (s.modBbx f).pwr = s.pwr := rfl
@[simp] theorem State.modBbx_flt (s : State) (f : Bbx → Bbx) : (s.modBbx f).flt = s.flt := rfl
@[simp] theorem State.modBbx_bbx (s : State) (f : Bbx → Bbx) : (s.modBbx f).bbx = f s.bbx := rfl
@[simp] theorem State.modBbx_wilwa (s : State) (f : Bbx → Bbx) : (s.modBbx f).wilwa = s.wilwa := rfl
@[simp] theorem State.modBbx_nonVol (s : State) (f : Bbx → Bbx) : (s.modBbx f).nonVol = s.nonVol := rfl
@[simp] theorem State.modBbx_net (s : State) (f : Bbx → Bbx) : (s.modBbx f).net = s.net := rfl
@[simp] theorem State.modBbx_tim (s : State) (f : Bbx → Bbx) : (s.modBbx f).tim = s.tim := rfl
@[simp] theorem State.modBbx_rin (s : State) (f : Bbx → Bbx) : (s.modBbx f).rin = s.rin := rfl
@[simp] theorem State.modBbx_fet (s : State) (f : Bbx → Bbx) : (s.modBbx f).fet = s.fet := rfl
@[simp] theorem State.modBbx_mem (s : State) (f : Bbx → Bbx) : (s.modBbx f).mem = s.mem := rfl
@[simp] theorem State.modBbx_dram (s : State) (f : Bbx → Bbx) : (s.modBbx f).dram = s.dram := rfl
@[simp] theorem State.modBbx_pos (s : State) (f : Bbx → Bbx) : (s.modBbx f).pos = s.pos := rfl
@[simp] theorem State.modBbx_lcg (s : State) (f : Bbx → Bbx) : (s.modBbx f).lcg = s.lcg := rfl
@[simp] theorem State.modBbx_cmp (s : State) (f : Bbx → Bbx) : (s.modBbx f).cmp = s.cmp := rfl
@[simp] theorem State.modBbx_sne (s : State) (f : Bbx → Bbx) : (s.modBbx f).sne = s.sne := rfl
@[simp] theorem State.modBbx_fsq (s : State) (f : Bbx → Bbx) : (s.modBbx f).fsq = s.fsq := rfl
@[simp] theorem State.modBbx_hlk (s : State) (f : Bbx → Bbx) : (s.modBbx f).hlk = s.hlk := rfl
@[simp] theorem State.modBbx_hdms (s : State) (f : Bbx → Bbx) : (s.modBbx f).hdms = s.hdms := rfl
@[simp] theorem State.modBbx_hdg (s : State) (f : Bbx → Bbx) : (s.modBbx f).hdg = s.hdg := rfl
@[simp] theorem State.modBbx_vis (s : State) (f : Bbx → Bbx) : (s.modBbx f).vis = s.vis := rfl
@[simp] theorem State.modBbx_che (s : State) (f : Bbx → Bbx) : (s.modBbx f).che = s.che := rfl
@[simp] theorem State.modBbx_mir (s : State) (f : Bbx → Bbx) : (s.modBbx f).mir = s.mir := rfl
@[simp] theorem State.modBbx_therm (s : State) (f : Bbx → Bbx) : (s.modBbx f).therm = s.therm := rfl
@[simp] theorem State.modBbx_aonDiodes (s : State) (f : Bbx → Bbx) : (s.modBbx f).aonDiodes = s.aonDiodes := rfl
@[simp] theorem State.modBbx_fireEn (s : State) (f : Bbx → Bbx) : (s.modBbx f).fireEn = s.fireEn := rfl

@[simp] theorem State.modSession_pending (s : State) (i : Nat) (f : Session → Session) : (s.modSession i f).pending = s.pending := by unfold State.modSession; rfl
@[simp] theorem State.modSession_tick (s : State) (i : Nat) (f : Session → Session) : (s.modSession i f).tick = s.tick := by unfold State.modSession; rfl
@[simp] theorem State.modSession_fresh (s : State) (i : Nat) (f : Session → Session) : (s.modSession i f).fresh = s.fresh := by unfold State.modSession; rfl
@[simp] theorem State.modSession_sent (s : State) (i : Nat) (f : Session → Session) : (s.modSession i f).sent = s.sent := by unfold State.modSession; rfl
@[simp] theorem State.modSession_fuses (s : State) (i : Nat) (f : Session → Session) : (s.modSession i f).fuses = s.fuses := by unfold State.modSession; rfl
@[simp] theorem State.modSession_objs (s : State) (i : Nat) (f : Session → Session) : (s.modSession i f).objs = s.objs := by unfold State.modSession; rfl
@[simp] theorem State.modSession_pwr (s : State) (i : Nat) (f : Session → Session) : (s.modSession i f).pwr = s.pwr := by unfold State.modSession; rfl
@[simp] theorem State.modSession_flt (s : State) (i : Nat) (f : Session → Session) : (s.modSession i f).flt = s.flt := by unfold State.modSession; rfl
@[simp] theorem State.modSession_bbx (s : State) (i : Nat) (f : Session → Session) : (s.modSession i f).bbx = s.bbx := by unfold State.modSession; rfl
@[simp] theorem State.modSession_nonVol (s : State) (i : Nat) (f : Session → Session) : (s.modSession i f).nonVol = s.nonVol := by unfold State.modSession; rfl
@[simp] theorem State.modSession_net (s : State) (i : Nat) (f : Session → Session) : (s.modSession i f).net = s.net := by unfold State.modSession; rfl
@[simp] theorem State.modSession_tim (s : State) (i : Nat) (f : Session → Session) : (s.modSession i f).tim = s.tim := by unfold State.modSession; rfl
@[simp] theorem State.modSession_rin (s : State) (i : Nat) (f : Session → Session) : (s.modSession i f).rin = s.rin := by unfold State.modSession; rfl
@[simp] theorem State.modSession_fet (s : State) (i : Nat) (f : Session → Session) : (s.modSession i f).fet = s.fet := by unfold State.modSession; rfl
@[simp] theorem State.modSession_mem (s : State) (i : Nat) (f : Session → Session) : (s.modSession i f).mem = s.mem := by unfold State.modSession; rfl
@[simp] theorem State.modSession_dram (s : State) (i : Nat) (f : Session → Session) : (s.modSession i f).dram = s.dram := by unfold State.modSession; rfl
@[simp] theorem State.modSession_pos (s : State) (i : Nat) (f : Session → Session) : (s.modSession i f).pos = s.pos := by unfold State.modSession; rfl
@[simp] theorem State.modSession_lcg (s : State) (i : Nat) (f : Session → Session) : (s.modSession i f).lcg = s.lcg := by unfold State.modSession; rfl
@[simp] theorem State.modSession_cmp (s : State) (i : Nat) (f : Session → Session) : (s.modSession i f).cmp = s.cmp := by unfold State.modSession; rfl
@[simp] theorem State.modSession_sne (s : State) (i : Nat) (f : Session → Session) : (s.modSession i f).sne = s.sne := by unfold State.modSession; rfl
@[simp] theorem State.modSession_fsq (s : State) (i : Nat) (f : Session → Session) : (s.modSession i f).fsq = s.fsq := by unfold State.modSession; rfl
@[simp] theorem State.modSession_hlk (s : State) (i : Nat) (f : Session → Session) : (s.modSession i f).hlk = s.hlk := by unfold State.modSession; rfl
@[simp] theorem State.modSession_hdms (s : State) (i : Nat) (f : Session → Session) : (s.modSession i f).hdms = s.hdms := by unfold State.modSession; rfl
@[simp] theorem State.modSession_hdg (s : State) (i : Nat) (f : Session → Session) : (s.modSession i f).hdg = s.hdg := by unfold State.modSession; rfl
@[simp] theorem State.modSession_vis (s : State) (i : Nat) (f : Session → Session) : (s.modSession i f).vis = s.vis := by unfold State.modSession; rfl
@[simp] theorem State.modSession_che (s : State) (i : Nat) (f : Session → Session) : (s.modSession i f).che = s.che := by unfold State.modSession; rfl
@[simp] theorem State.modSession_mir (s : State) (i : Nat) (f : Session → Session) : (s.modSession i f).mir = s.mir := by unfold State.modSession; rfl
@[simp] theorem State.modSession_therm (s : State) (i : Nat) (f : Session → Session) : (s.modSession i f).therm = s.therm := by unfold State.modSession; rfl
@[simp] theorem State.modSession_aonDiodes (s : State) (i : Nat) (f : Session → Session) : (s.modSession i f).aonDiodes = s.aonDiodes := by unfold State.modSession; rfl
@[simp] theorem State.modSession_fireEn (s : State) (i : Nat) (f : Session → Session) : (s.modSession i f).fireEn = s.fireEn := by unfold State.modSession; rfl

@[simp] theorem State.modTransfer_pending (s : State) (i : Nat) (f : Transfer → Transfer) : (s.modTransfer i f).pending = s.pending := rfl
@[simp] theorem State.modTransfer_tick (s : State) (i : Nat) (f : Transfer → Transfer) : (s.modTransfer i f).tick = s.tick := rfl
@[simp] theorem State.modTransfer_fresh (s : State) (i : Nat) (f : Transfer → Transfer) : (s.modTransfer i f).fresh = s.fresh := rfl
@[simp] theorem State.modTransfer_sent (s : State) (i : Nat) (f : Transfer → Transfer) : (s.modTransfer i f).sent = s.sent := rfl
@[simp] theorem State.modTransfer_fuses (s : State) (i : Nat) (f : Transfer → Transfer) : (s.modTransfer i f).fuses = s.fuses := rfl
@[simp] theorem State.modTransfer_objs (s : State) (i : Nat) (f : Transfer → Transfer) : (s.modTransfer i f).objs = s.objs := rfl
@[simp] theorem State.modTransfer_pwr (s : State) (i : Nat) (f : Transfer → Transfer) : (s.modTransfer i f).pwr = s.pwr := rfl
@[simp] theorem State.modTransfer_flt (s : State) (i : Nat) (f : Transfer → Transfer) : (s.modTransfer i f).flt = s.flt := rfl
@[simp] theorem State.modTransfer_bbx (s : State) (i : Nat) (f : Transfer → Transfer) : (s.modTransfer i f).bbx = s.bbx := rfl
@[simp] theorem State.modTransfer_nonVol (s : State) (i : Nat) (f : Transfer → Transfer) : (s.modTransfer i f).nonVol = s.nonVol := rfl
@[simp] theorem State.modTransfer_net (s : State) (i : Nat) (f : Transfer → Transfer) : (s.modTransfer i f).net = s.net := rfl
@[simp] theorem State.modTransfer_tim (s : State) (i : Nat) (f : Transfer → Transfer) : (s.modTransfer i f).tim = s.tim := rfl
@[simp] theorem State.modTransfer_rin (s : State) (i : Nat) (f : Transfer → Transfer) : (s.modTransfer i f).rin = s.rin := rfl
@[simp] theorem State.modTransfer_fet (s : State) (i : Nat) (f : Transfer → Transfer) : (s.modTransfer i f).fet = s.fet := rfl
@[simp] theorem State.modTransfer_mem (s : State) (i : Nat) (f : Transfer → Transfer) : (s.modTransfer i f).mem = s.mem := rfl
@[simp] theorem State.modTransfer_dram (s : State) (i : Nat) (f : Transfer → Transfer) : (s.modTransfer i f).dram = s.dram := rfl
@[simp] theorem State.modTransfer_pos (s : State) (i : Nat) (f : Transfer → Transfer) : (s.modTransfer i f).pos = s.pos := rfl
@[simp] theorem State.modTransfer_lcg (s : State) (i : Nat) (f : Transfer → Transfer) : (s.modTransfer i f).lcg = s.lcg := rfl
@[simp] theorem State.modTransfer_cmp (s : State) (i : Nat) (f : Transfer → Transfer) : (s.modTransfer i f).cmp = s.cmp := rfl
@[simp] theorem State.modTransfer_sne (s : State) (i : Nat) (f : Transfer → Transfer) : (s.modTransfer i f).sne = s.sne := rfl
@[simp] theorem State.modTransfer_fsq (s : State) (i : Nat) (f : Transfer → Transfer) : (s.modTransfer i f).fsq = s.fsq := rfl
@[simp] theorem State.modTransfer_hlk (s : State) (i : Nat) (f : Transfer → Transfer) : (s.modTransfer i f).hlk = s.hlk := rfl
@[simp] theorem State.modTransfer_hdms (s : State) (i : Nat) (f : Transfer → Transfer) : (s.modTransfer i f).hdms = s.hdms := rfl
@[simp] theorem State.modTransfer_hdg (s : State) (i : Nat) (f : Transfer → Transfer) : (s.modTransfer i f).hdg = s.hdg := rfl
@[simp] theorem State.modTransfer_vis (s : State) (i : Nat) (f : Transfer → Transfer) : (s.modTransfer i f).vis = s.vis := rfl
@[simp] theorem State.modTransfer_che (s : State) (i : Nat) (f : Transfer → Transfer) : (s.modTransfer i f).che = s.che := rfl
@[simp] theorem State.modTransfer_mir (s : State) (i : Nat) (f : Transfer → Transfer) : (s.modTransfer i f).mir = s.mir := rfl
@[simp] theorem State.modTransfer_therm (s : State) (i : Nat) (f : Transfer → Transfer) : (s.modTransfer i f).therm = s.therm := rfl
@[simp] theorem State.modTransfer_aonDiodes (s : State) (i : Nat) (f : Transfer → Transfer) : (s.modTransfer i f).aonDiodes = s.aonDiodes := rfl
@[simp] theorem State.modTransfer_fireEn (s : State) (i : Nat) (f : Transfer → Transfer) : (s.modTransfer i f).fireEn = s.fireEn := rfl

@[simp] theorem State.modAdm_pending (s : State) (a : Nat) (f : AreaAdm → AreaAdm) : (s.modAdm a f).pending = s.pending := rfl
@[simp] theorem State.modAdm_tick (s : State) (a : Nat) (f : AreaAdm → AreaAdm) : (s.modAdm a f).tick = s.tick := rfl
@[simp] theorem State.modAdm_fresh (s : State) (a : Nat) (f : AreaAdm → AreaAdm) : (s.modAdm a f).fresh = s.fresh := rfl
@[simp] theorem State.modAdm_sent (s : State) (a : Nat) (f : AreaAdm → AreaAdm) : (s.modAdm a f).sent = s.sent := rfl
@[simp] theorem State.modAdm_fuses (s : State) (a : Nat) (f : AreaAdm → AreaAdm) : (s.modAdm a f).fuses = s.fuses := rfl
@[simp] theorem State.modAdm_objs (s : State) (a : Nat) (f : AreaAdm → AreaAdm) : (s.modAdm a f).objs = s.objs := rfl
@[simp] theorem State.modAdm_pwr (s : State) (a : Nat) (f : AreaAdm → AreaAdm) : (s.modAdm a f).pwr = s.pwr := rfl
@[simp] theorem State.modAdm_flt (s : State) (a : Nat) (f : AreaAdm → AreaAdm) : (s.modAdm a f).flt = s.flt := rfl
@[simp] theorem State.modAdm_bbx (s : State) (a : Nat) (f : AreaAdm → AreaAdm) : (s.modAdm a f).bbx = s.bbx := rfl
@[simp] theorem State.modAdm_nonVol (s : State) (a : Nat) (f : AreaAdm → AreaAdm) : (s.modAdm a f).nonVol = s.nonVol := rfl
@[simp] theorem State.modAdm_net (s : State) (a : Nat) (f : AreaAdm → AreaAdm) : (s.modAdm a f).net = s.net := rfl
@[simp] theorem State.modAdm_tim (s : State) (a : Nat) (f : AreaAdm → AreaAdm) : (s.modAdm a f).tim = s.tim := rfl
@[simp] theorem State.modAdm_rin (s : State) (a : Nat) (f : AreaAdm → AreaAdm) : (s.modAdm a f).rin = s.rin := rfl
@[simp] theorem State.modAdm_fet (s : State) (a : Nat) (f : AreaAdm → AreaAdm) : (s.modAdm a f).fet = s.fet := rfl
@[simp] theorem State.modAdm_mem (s : State) (a : Nat) (f : AreaAdm → AreaAdm) : (s.modAdm a f).mem = s.mem := rfl
@[simp] theorem State.modAdm_dram (s : State) (a : Nat) (f : AreaAdm → AreaAdm) : (s.modAdm a f).dram = s.dram := rfl
@[simp] theorem State.modAdm_pos (s : State) (a : Nat) (f : AreaAdm → AreaAdm) : (s.modAdm a f).pos = s.pos := rfl
@[simp] theorem State.modAdm_lcg (s : State) (a : Nat) (f : AreaAdm → AreaAdm) : (s.modAdm a f).lcg = s.lcg := rfl
@[simp] theorem State.modAdm_cmp (s : State) (a : Nat) (f : AreaAdm → AreaAdm) : (s.modAdm a f).cmp = s.cmp := rfl
@[simp] theorem State.modAdm_sne (s : State) (a : Nat) (f : AreaAdm → AreaAdm) : (s.modAdm a f).sne = s.sne := rfl
@[simp] theorem State.modAdm_fsq (s : State) (a : Nat) (f : AreaAdm → AreaAdm) : (s.modAdm a f).fsq = s.fsq := rfl
@[simp] theorem State.modAdm_hlk (s : State) (a : Nat) (f : AreaAdm → AreaAdm) : (s.modAdm a f).hlk = s.hlk := rfl
@[simp] theorem State.modAdm_hdms (s : State) (a : Nat) (f : AreaAdm → AreaAdm) : (s.modAdm a f).hdms = s.hdms := rfl
@[simp] theorem State.modAdm_hdg (s : State) (a : Nat) (f : AreaAdm → AreaAdm) : (s.modAdm a f).hdg = s.hdg := rfl
@[simp] theorem State.modAdm_vis (s : State) (a : Nat) (f : AreaAdm → AreaAdm) : (s.modAdm a f).vis = s.vis := rfl
@[simp] theorem State.modAdm_che (s : State) (a : Nat) (f : AreaAdm → AreaAdm) : (s.modAdm a f).che = s.che := rfl
@[simp] theorem State.modAdm_mir (s : State) (a : Nat) (f : AreaAdm → AreaAdm) : (s.modAdm a f).mir = s.mir := rfl
@[simp] theorem State.modAdm_therm (s : State) (a : Nat) (f : AreaAdm → AreaAdm) : (s.modAdm a f).therm = s.therm := rfl
@[simp] theorem State.modAdm_aonDiodes (s : State) (a : Nat) (f : AreaAdm → AreaAdm) : (s.modAdm a f).aonDiodes = s.aonDiodes := rfl
@[simp] theorem State.modAdm_fireEn (s : State) (a : Nat) (f : AreaAdm → AreaAdm) : (s.modAdm a f).fireEn = s.fireEn := rfl

@[simp] theorem State.modDom_pending (s : State) (d : Nat) (f : PtpDom → PtpDom) : (s.modDom d f).pending = s.pending := rfl
@[simp] theorem State.modDom_tick (s : State) (d : Nat) (f : PtpDom → PtpDom) : (s.modDom d f).tick = s.tick := rfl
@[simp] theorem State.modDom_fresh (s : State) (d : Nat) (f : PtpDom → PtpDom) : (s.modDom d f).fresh = s.fresh := rfl
@[simp] theorem State.modDom_sent (s : State) (d : Nat) (f : PtpDom → PtpDom) : (s.modDom d f).sent = s.sent := rfl
@[simp] theorem State.modDom_fuses (s : State) (d : Nat) (f : PtpDom → PtpDom) : (s.modDom d f).fuses = s.fuses := rfl
@[simp] theorem State.modDom_objs (s : State) (d : Nat) (f : PtpDom → PtpDom) : (s.modDom d f).objs = s.objs := rfl
@[simp] theorem State.modDom_pwr (s : State) (d : Nat) (f : PtpDom → PtpDom) : (s.modDom d f).pwr = s.pwr := rfl
@[simp] theorem State.modDom_flt (s : State) (d : Nat) (f : PtpDom → PtpDom) : (s.modDom d f).flt = s.flt := rfl
@[simp] theorem State.modDom_bbx (s : State) (d : Nat) (f : PtpDom → PtpDom) : (s.modDom d f).bbx = s.bbx := rfl
@[simp] theorem State.modDom_wilwa (s : State) (d : Nat) (f : PtpDom → PtpDom) : (s.modDom d f).wilwa = s.wilwa := rfl
@[simp] theorem State.modDom_nonVol (s : State) (d : Nat) (f : PtpDom → PtpDom) : (s.modDom d f).nonVol = s.nonVol := rfl
@[simp] theorem State.modDom_net (s : State) (d : Nat) (f : PtpDom → PtpDom) : (s.modDom d f).net = s.net := rfl
@[simp] theorem State.modDom_rin (s : State) (d : Nat) (f : PtpDom → PtpDom) : (s.modDom d f).rin = s.rin := rfl
@[simp] theorem State.modDom_fet (s : State) (d : Nat) (f : PtpDom → PtpDom) : (s.modDom d f).fet = s.fet := rfl
@[simp] theorem State.modDom_mem (s : State) (d : Nat) (f : PtpDom → PtpDom) : (s.modDom d f).mem = s.mem := rfl
@[simp] theorem State.modDom_dram (s : State) (d : Nat) (f : PtpDom → PtpDom) : (s.modDom d f).dram = s.dram := rfl
@[simp] theorem State.modDom_pos (s : State) (d : Nat) (f : PtpDom → PtpDom) : (s.modDom d f).pos = s.pos := rfl
@[simp] theorem State.modDom_lcg (s : State) (d : Nat) (f : PtpDom → PtpDom) : (s.modDom d f).lcg = s.lcg := rfl
@[simp] theorem State.modDom_cmp (s : State) (d : Nat) (f : PtpDom → PtpDom) : (s.modDom d f).cmp = s.cmp := rfl
@[simp] theorem State.modDom_sne (s : State) (d : Nat) (f : PtpDom → PtpDom) : (s.modDom d f).sne = s.sne := rfl
@[simp] theorem State.modDom_fsq (s : State) (d : Nat) (f : PtpDom → PtpDom) : (s.modDom d f).fsq = s.fsq := rfl
@[simp] theorem State.modDom_hlk (s : State) (d : Nat) (f : PtpDom → PtpDom) : (s.modDom d f).hlk = s.hlk := rfl
@[simp] theorem State.modDom_hdms (s : State) (d : Nat) (f : PtpDom → PtpDom) : (s.modDom d f).hdms = s.hdms := rfl
@[simp] theorem State.modDom_hdg (s : State) (d : Nat) (f : PtpDom → PtpDom) : (s.modDom d f).hdg = s.hdg := rfl
@[simp] theorem State.modDom_vis (s : State) (d : Nat) (f : PtpDom → PtpDom) : (s.modDom d f).vis = s.vis := rfl
@[simp] theorem State.modDom_che (s : State) (d : Nat) (f : PtpDom → PtpDom) : (s.modDom d f).che = s.che := rfl
@[simp] theorem State.modDom_mir (s : State) (d : Nat) (f : PtpDom → PtpDom) : (s.modDom d f).mir = s.mir := rfl
@[simp] theorem State.modDom_therm (s : State) (d : Nat) (f : PtpDom → PtpDom) : (s.modDom d f).therm = s.therm := rfl
@[simp] theorem State.modDom_aonDiodes (s : State) (d : Nat) (f : PtpDom → PtpDom) : (s.modDom d f).aonDiodes = s.aonDiodes := rfl
@[simp] theorem State.modDom_fireEn (s : State) (d : Nat) (f : PtpDom → PtpDom) : (s.modDom d f).fireEn = s.fireEn := rfl

@[simp] theorem State.modSlot_pending (s : State) (k : Nat) (f : Slot → Slot) : (s.modSlot k f).pending = s.pending := by unfold State.modSlot; rfl
@[simp] theorem State.modSlot_tick (s : State) (k : Nat) (f : Slot → Slot) : (s.modSlot k f).tick = s.tick := by unfold State.modSlot; rfl
@[simp] theorem State.modSlot_fresh (s : State) (k : Nat) (f : Slot → Slot) : (s.modSlot k f).fresh = s.fresh := by unfold State.modSlot; rfl
@[simp] theorem State.modSlot_sent (s : State) (k : Nat) (f : Slot → Slot) : (s.modSlot k f).sent = s.sent := by unfold State.modSlot; rfl
@[simp] theorem State.modSlot_fuses (s : State) (k : Nat) (f : Slot → Slot) : (s.modSlot k f).fuses = s.fuses := by unfold State.modSlot; rfl
@[simp] theorem State.modSlot_objs (s : State) (k : Nat) (f : Slot → Slot) : (s.modSlot k f).objs = s.objs := by unfold State.modSlot; rfl
@[simp] theorem State.modSlot_pwr (s : State) (k : Nat) (f : Slot → Slot) : (s.modSlot k f).pwr = s.pwr := by unfold State.modSlot; rfl
@[simp] theorem State.modSlot_flt (s : State) (k : Nat) (f : Slot → Slot) : (s.modSlot k f).flt = s.flt := by unfold State.modSlot; rfl
@[simp] theorem State.modSlot_bbx (s : State) (k : Nat) (f : Slot → Slot) : (s.modSlot k f).bbx = s.bbx := by unfold State.modSlot; rfl
@[simp] theorem State.modSlot_wilwa (s : State) (k : Nat) (f : Slot → Slot) : (s.modSlot k f).wilwa = s.wilwa := by unfold State.modSlot; rfl
@[simp] theorem State.modSlot_nonVol (s : State) (k : Nat) (f : Slot → Slot) : (s.modSlot k f).nonVol = s.nonVol := by unfold State.modSlot; rfl
@[simp] theorem State.modSlot_net (s : State) (k : Nat) (f : Slot → Slot) : (s.modSlot k f).net = s.net := by unfold State.modSlot; rfl
@[simp] theorem State.modSlot_tim (s : State) (k : Nat) (f : Slot → Slot) : (s.modSlot k f).tim = s.tim := by unfold State.modSlot; rfl
@[simp] theorem State.modSlot_rin (s : State) (k : Nat) (f : Slot → Slot) : (s.modSlot k f).rin = { s.rin with slots := vmod s.rin.slots k f } := rfl
@[simp] theorem State.modSlot_fet (s : State) (k : Nat) (f : Slot → Slot) : (s.modSlot k f).fet = s.fet := by unfold State.modSlot; rfl
@[simp] theorem State.modSlot_mem (s : State) (k : Nat) (f : Slot → Slot) : (s.modSlot k f).mem = s.mem := by unfold State.modSlot; rfl
@[simp] theorem State.modSlot_dram (s : State) (k : Nat) (f : Slot → Slot) : (s.modSlot k f).dram = s.dram := by unfold State.modSlot; rfl
@[simp] theorem State.modSlot_pos (s : State) (k : Nat) (f : Slot → Slot) : (s.modSlot k f).pos = s.pos := by unfold State.modSlot; rfl
@[simp] theorem State.modSlot_lcg (s : State) (k : Nat) (f : Slot → Slot) : (s.modSlot k f).lcg = s.lcg := by unfold State.modSlot; rfl
@[simp] theorem State.modSlot_cmp (s : State) (k : Nat) (f : Slot → Slot) : (s.modSlot k f).cmp = s.cmp := by unfold State.modSlot; rfl
@[simp] theorem State.modSlot_sne (s : State) (k : Nat) (f : Slot → Slot) : (s.modSlot k f).sne = s.sne := by unfold State.modSlot; rfl
@[simp] theorem State.modSlot_fsq (s : State) (k : Nat) (f : Slot → Slot) : (s.modSlot k f).fsq = s.fsq := by unfold State.modSlot; rfl
@[simp] theorem State.modSlot_hlk (s : State) (k : Nat) (f : Slot → Slot) : (s.modSlot k f).hlk = s.hlk := by unfold State.modSlot; rfl
@[simp] theorem State.modSlot_hdms (s : State) (k : Nat) (f : Slot → Slot) : (s.modSlot k f).hdms = s.hdms := by unfold State.modSlot; rfl
@[simp] theorem State.modSlot_hdg (s : State) (k : Nat) (f : Slot → Slot) : (s.modSlot k f).hdg = s.hdg := by unfold State.modSlot; rfl
@[simp] theorem State.modSlot_vis (s : State) (k : Nat) (f : Slot → Slot) : (s.modSlot k f).vis = s.vis := by unfold State.modSlot; rfl
@[simp] theorem State.modSlot_che (s : State) (k : Nat) (f : Slot → Slot) : (s.modSlot k f).che = s.che := by unfold State.modSlot; rfl
@[simp] theorem State.modSlot_mir (s : State) (k : Nat) (f : Slot → Slot) : (s.modSlot k f).mir = s.mir := by unfold State.modSlot; rfl
@[simp] theorem State.modSlot_therm (s : State) (k : Nat) (f : Slot → Slot) : (s.modSlot k f).therm = s.therm := by unfold State.modSlot; rfl
@[simp] theorem State.modSlot_aonDiodes (s : State) (k : Nat) (f : Slot → Slot) : (s.modSlot k f).aonDiodes = s.aonDiodes := by unfold State.modSlot; rfl
@[simp] theorem State.modSlot_fireEn (s : State) (k : Nat) (f : Slot → Slot) : (s.modSlot k f).fireEn = s.fireEn := by unfold State.modSlot; rfl

@[simp] theorem State.modBlock_pending (s : State) (i : Nat) (f : FifoBlock → FifoBlock) : (s.modBlock i f).pending = s.pending := rfl
@[simp] theorem State.modBlock_tick (s : State) (i : Nat) (f : FifoBlock → FifoBlock) : (s.modBlock i f).tick = s.tick := rfl
@[simp] theorem State.modBlock_fresh (s : State) (i : Nat) (f : FifoBlock → FifoBlock) : (s.modBlock i f).fresh = s.fresh := rfl
@[simp] theorem State.modBlock_sent (s : State) (i : Nat) (f : FifoBlock → FifoBlock) : (s.modBlock i f).sent = s.sent := rfl
@[simp] theorem State.modBlock_fuses (s : State) (i : Nat) (f : FifoBlock → FifoBlock) : (s.modBlock i f).fuses = s.fuses := rfl
@[simp] theorem State.modBlock_objs (s : State) (i : Nat) (f : FifoBlock → FifoBlock) : (s.modBlock i f).objs = s.objs := rfl
@[simp] theorem State.modBlock_pwr (s : State) (i : Nat) (f : FifoBlock → FifoBlock) : (s.modBlock i f).pwr = s.pwr := rfl
@[simp] theorem State.modBlock_flt (s : State) (i : Nat) (f : FifoBlock → FifoBlock) : (s.modBlock i f).flt = s.flt := rfl
@[simp] theorem State.modBlock_bbx (s : State) (i : Nat) (f : FifoBlock → FifoBlock) : (s.modBlock i f).bbx = s.bbx := rfl
@[simp] theorem State.modBlock_wilwa (s : State) (i : Nat) (f : FifoBlock → FifoBlock) : (s.modBlock i f).wilwa = s.wilwa := rfl
@[simp] theorem State.modBlock_nonVol (s : State) (i : Nat) (f : FifoBlock → FifoBlock) : (s.modBlock i f).nonVol = s.nonVol := rfl
@[simp] theorem State.modBlock_net (s : State) (i : Nat) (f : FifoBlock → FifoBlock) : (s.modBlock i f).net = s.net := rfl
@[simp] theorem State.modBlock_tim (s : State) (i : Nat) (f : FifoBlock → FifoBlock) : (s.modBlock i f).tim = s.tim := rfl
@[simp] theorem State.modBlock_fet (s : State) (i : Nat) (f : FifoBlock → FifoBlock) : (s.modBlock i f).fet = s.fet := rfl
@[simp] theorem State.modBlock_mem (s : State) (i : Nat) (f : FifoBlock → FifoBlock) : (s.modBlock i f).mem = s.mem := rfl
@[simp] theorem State.modBlock_dram (s : State) (i : Nat) (f : FifoBlock → FifoBlock) : (s.modBlock i f).dram = s.dram := rfl
@[simp] theorem State.modBlock_pos (s : State) (i : Nat) (f : FifoBlock → FifoBlock) : (s.modBlock i f).pos = s.pos := rfl
@[simp] theorem State.modBlock_lcg (s : State) (i : Nat) (f : FifoBlock → FifoBlock) : (s.modBlock i f).lcg = s.lcg := rfl
@[simp] theorem State.modBlock_cmp (s : State) (i : Nat) (f : FifoBlock → FifoBlock) : (s.modBlock i f).cmp = s.cmp := rfl
@[simp] theorem State.modBlock_sne (s : State) (i : Nat) (f : FifoBlock → FifoBlock) : (s.modBlock i f).sne = s.sne := rfl
@[simp] theorem State.modBlock_fsq (s : State) (i : Nat) (f : FifoBlock → FifoBlock) : (s.modBlock i f).fsq = s.fsq := rfl
@[simp] theorem State.modBlock_hlk (s : State) (i : Nat) (f : FifoBlock → FifoBlock) : (s.modBlock i f).hlk = s.hlk := rfl
@[simp] theorem State.modBlock_hdms (s : State) (i : Nat) (f : FifoBlock → FifoBlock) : (s.modBlock i f).hdms = s.hdms := rfl
@[simp] theorem State.modBlock_hdg (s : State) (i : Nat) (f : FifoBlock → FifoBlock) : (s.modBlock i f).hdg = s.hdg := rfl
@[simp] theorem State.modBlock_vis (s : State) (i : Nat) (f : FifoBlock → FifoBlock) : (s.modBlock i f).vis = s.vis := rfl
@[simp] theorem State.modBlock_che (s : State) (i : Nat) (f : FifoBlock → FifoBlock) : (s.modBlock i f).che = s.che := rfl
@[simp] theorem State.modBlock_mir (s : State) (i : Nat) (f : FifoBlock → FifoBlock) : (s.modBlock i f).mir = s.mir := rfl
@[simp] theorem State.modBlock_therm (s : State) (i : Nat) (f : FifoBlock → FifoBlock) : (s.modBlock i f).therm = s.therm := rfl
@[simp] theorem State.modBlock_aonDiodes (s : State) (i : Nat) (f : FifoBlock → FifoBlock) : (s.modBlock i f).aonDiodes = s.aonDiodes := rfl
@[simp] theorem State.modBlock_fireEn (s : State) (i : Nat) (f : FifoBlock → FifoBlock) : (s.modBlock i f).fireEn = s.fireEn := rfl

@[simp] theorem State.modJob_pending (s : State) (b : Nat) (f : BarJob → BarJob) : (s.modJob b f).pending = s.pending := by unfold State.modJob; rfl
@[simp] theorem State.modJob_tick (s : State) (b : Nat) (f : BarJob → BarJob) : (s.modJob b f).tick = s.tick := by unfold State.modJob; rfl
@[simp] theorem State.modJob_fresh (s : State) (b : Nat) (f : BarJob → BarJob) : (s.modJob b f).fresh = s.fresh := by unfold State.modJob; rfl
@[simp] theorem State.modJob_sent (s : State) (b : Nat) (f : BarJob → BarJob) : (s.modJob b f).sent = s.sent := by unfold State.modJob; rfl
@[simp] theorem State.modJob_fuses (s : State) (b : Nat) (f : BarJob → BarJob) : (s.modJob b f).fuses = s.fuses := by unfold State.modJob; rfl
@[simp] theorem State.modJob_objs (s : State) (b : Nat) (f : BarJob → BarJob) : (s.modJob b f).objs = s.objs := by unfold State.modJob; rfl
@[simp] theorem State.modJob_pwr (s : State) (b : Nat) (f : BarJob → BarJob) : (s.modJob b f).pwr = s.pwr := by unfold State.modJob; rfl
@[simp] theorem State.modJob_flt (s : State) (b : Nat) (f : BarJob → BarJob) : (s.modJob b f).flt = s.flt := by unfold State.modJob; rfl
@[simp] theorem State.modJob_bbx (s : State) (b : Nat) (f : BarJob → BarJob) : (s.modJob b f).bbx = s.bbx := by unfold State.modJob; rfl
@[simp] theorem State.modJob_wilwa (s : State) (b : Nat) (f : BarJob → BarJob) : (s.modJob b f).wilwa = s.wilwa := by unfold State.modJob; rfl
@[simp] theorem State.modJob_nonVol (s : State) (b : Nat) (f : BarJob → BarJob) : (s.modJob b f).nonVol = s.nonVol := by unfold State.modJob; rfl
@[simp] theorem State.modJob_net (s : State) (b : Nat) (f : BarJob → BarJob) : (s.modJob b f).net = s.net := by unfold State.modJob; rfl
@[simp] theorem State.modJob_tim (s : State) (b : Nat) (f : BarJob → BarJob) : (s.modJob b f).tim = s.tim := by unfold State.modJob; rfl
@[simp] theorem State.modJob_rin (s : State) (b : Nat) (f : BarJob → BarJob) : (s.modJob b f).rin = s.rin := by unfold State.modJob; rfl
@[simp] theorem State.modJob_fet (s : State) (b : Nat) (f : BarJob → BarJob) : (s.modJob b f).fet = { s.fet with bars := vmod s.fet.bars b f } := rfl
@[simp] theorem State.modJob_mem (s : State) (b : Nat) (f : BarJob → BarJob) : (s.modJob b f).mem = s.mem := by unfold State.modJob; rfl
@[simp] theorem State.modJob_dram (s : State) (b : Nat) (f : BarJob → BarJob) : (s.modJob b f).dram = s.dram := by unfold State.modJob; rfl
@[simp] theorem State.modJob_pos (s : State) (b : Nat) (f : BarJob → BarJob) : (s.modJob b f).pos = s.pos := by unfold State.modJob; rfl
@[simp] theorem State.modJob_lcg (s : State) (b : Nat) (f : BarJob → BarJob) : (s.modJob b f).lcg = s.lcg := by unfold State.modJob; rfl
@[simp] theorem State.modJob_cmp (s : State) (b : Nat) (f : BarJob → BarJob) : (s.modJob b f).cmp = s.cmp := by unfold State.modJob; rfl
@[simp] theorem State.modJob_sne (s : State) (b : Nat) (f : BarJob → BarJob) : (s.modJob b f).sne = s.sne := by unfold State.modJob; rfl
@[simp] theorem State.modJob_fsq (s : State) (b : Nat) (f : BarJob → BarJob) : (s.modJob b f).fsq = s.fsq := by unfold State.modJob; rfl
@[simp] theorem State.modJob_hlk (s : State) (b : Nat) (f : BarJob → BarJob) : (s.modJob b f).hlk = s.hlk := by unfold State.modJob; rfl
@[simp] theorem State.modJob_hdms (s : State) (b : Nat) (f : BarJob → BarJob) : (s.modJob b f).hdms = s.hdms := by unfold State.modJob; rfl
@[simp] theorem State.modJob_hdg (s : State) (b : Nat) (f : BarJob → BarJob) : (s.modJob b f).hdg = s.hdg := by unfold State.modJob; rfl
@[simp] theorem State.modJob_vis (s : State) (b : Nat) (f : BarJob → BarJob) : (s.modJob b f).vis = s.vis := by unfold State.modJob; rfl
@[simp] theorem State.modJob_che (s : State) (b : Nat) (f : BarJob → BarJob) : (s.modJob b f).che = s.che := by unfold State.modJob; rfl
@[simp] theorem State.modJob_mir (s : State) (b : Nat) (f : BarJob → BarJob) : (s.modJob b f).mir = s.mir := by unfold State.modJob; rfl
@[simp] theorem State.modJob_therm (s : State) (b : Nat) (f : BarJob → BarJob) : (s.modJob b f).therm = s.therm := by unfold State.modJob; rfl
@[simp] theorem State.modJob_aonDiodes (s : State) (b : Nat) (f : BarJob → BarJob) : (s.modJob b f).aonDiodes = s.aonDiodes := by unfold State.modJob; rfl
@[simp] theorem State.modJob_fireEn (s : State) (b : Nat) (f : BarJob → BarJob) : (s.modJob b f).fireEn = s.fireEn := by unfold State.modJob; rfl

@[simp] theorem State.modChan_pending (s : State) (c : Nat) (f : Mch → Mch) : (s.modChan c f).pending = s.pending := by unfold State.modChan; rfl
@[simp] theorem State.modChan_tick (s : State) (c : Nat) (f : Mch → Mch) : (s.modChan c f).tick = s.tick := by unfold State.modChan; rfl
@[simp] theorem State.modChan_fresh (s : State) (c : Nat) (f : Mch → Mch) : (s.modChan c f).fresh = s.fresh := by unfold State.modChan; rfl
@[simp] theorem State.modChan_sent (s : State) (c : Nat) (f : Mch → Mch) : (s.modChan c f).sent = s.sent := by unfold State.modChan; rfl
@[simp] theorem State.modChan_fuses (s : State) (c : Nat) (f : Mch → Mch) : (s.modChan c f).fuses = s.fuses := by unfold State.modChan; rfl
@[simp] theorem State.modChan_objs (s : State) (c : Nat) (f : Mch → Mch) : (s.modChan c f).objs = s.objs := by unfold State.modChan; rfl
@[simp] theorem State.modChan_pwr (s : State) (c : Nat) (f : Mch → Mch) : (s.modChan c f).pwr = s.pwr := by unfold State.modChan; rfl
@[simp] theorem State.modChan_flt (s : State) (c : Nat) (f : Mch → Mch) : (s.modChan c f).flt = s.flt := by unfold State.modChan; rfl
@[simp] theorem State.modChan_bbx (s : State) (c : Nat) (f : Mch → Mch) : (s.modChan c f).bbx = s.bbx := by unfold State.modChan; rfl
@[simp] theorem State.modChan_wilwa (s : State) (c : Nat) (f : Mch → Mch) : (s.modChan c f).wilwa = s.wilwa := by unfold State.modChan; rfl
@[simp] theorem State.modChan_nonVol (s : State) (c : Nat) (f : Mch → Mch) : (s.modChan c f).nonVol = s.nonVol := by unfold State.modChan; rfl
@[simp] theorem State.modChan_net (s : State) (c : Nat) (f : Mch → Mch) : (s.modChan c f).net = s.net := by unfold State.modChan; rfl
@[simp] theorem State.modChan_tim (s : State) (c : Nat) (f : Mch → Mch) : (s.modChan c f).tim = s.tim := by unfold State.modChan; rfl
@[simp] theorem State.modChan_rin (s : State) (c : Nat) (f : Mch → Mch) : (s.modChan c f).rin = s.rin := by unfold State.modChan; rfl
@[simp] theorem State.modChan_fet (s : State) (c : Nat) (f : Mch → Mch) : (s.modChan c f).fet = s.fet := by unfold State.modChan; rfl
@[simp] theorem State.modChan_mem (s : State) (c : Nat) (f : Mch → Mch) : (s.modChan c f).mem = vmod s.mem c f := rfl
@[simp] theorem State.modChan_dram (s : State) (c : Nat) (f : Mch → Mch) : (s.modChan c f).dram = s.dram := by unfold State.modChan; rfl
@[simp] theorem State.modChan_pos (s : State) (c : Nat) (f : Mch → Mch) : (s.modChan c f).pos = s.pos := by unfold State.modChan; rfl
@[simp] theorem State.modChan_lcg (s : State) (c : Nat) (f : Mch → Mch) : (s.modChan c f).lcg = s.lcg := by unfold State.modChan; rfl
@[simp] theorem State.modChan_cmp (s : State) (c : Nat) (f : Mch → Mch) : (s.modChan c f).cmp = s.cmp := by unfold State.modChan; rfl
@[simp] theorem State.modChan_sne (s : State) (c : Nat) (f : Mch → Mch) : (s.modChan c f).sne = s.sne := by unfold State.modChan; rfl
@[simp] theorem State.modChan_fsq (s : State) (c : Nat) (f : Mch → Mch) : (s.modChan c f).fsq = s.fsq := by unfold State.modChan; rfl
@[simp] theorem State.modChan_hlk (s : State) (c : Nat) (f : Mch → Mch) : (s.modChan c f).hlk = s.hlk := by unfold State.modChan; rfl
@[simp] theorem State.modChan_hdms (s : State) (c : Nat) (f : Mch → Mch) : (s.modChan c f).hdms = s.hdms := by unfold State.modChan; rfl
@[simp] theorem State.modChan_hdg (s : State) (c : Nat) (f : Mch → Mch) : (s.modChan c f).hdg = s.hdg := by unfold State.modChan; rfl
@[simp] theorem State.modChan_vis (s : State) (c : Nat) (f : Mch → Mch) : (s.modChan c f).vis = s.vis := by unfold State.modChan; rfl
@[simp] theorem State.modChan_che (s : State) (c : Nat) (f : Mch → Mch) : (s.modChan c f).che = s.che := by unfold State.modChan; rfl
@[simp] theorem State.modChan_mir (s : State) (c : Nat) (f : Mch → Mch) : (s.modChan c f).mir = s.mir := by unfold State.modChan; rfl
@[simp] theorem State.modChan_therm (s : State) (c : Nat) (f : Mch → Mch) : (s.modChan c f).therm = s.therm := by unfold State.modChan; rfl
@[simp] theorem State.modChan_aonDiodes (s : State) (c : Nat) (f : Mch → Mch) : (s.modChan c f).aonDiodes = s.aonDiodes := by unfold State.modChan; rfl
@[simp] theorem State.modChan_fireEn (s : State) (c : Nat) (f : Mch → Mch) : (s.modChan c f).fireEn = s.fireEn := by unfold State.modChan; rfl

@[simp] theorem State.modPch_pending (s : State) (n : Nat) (f : Pch → Pch) : (s.modPch n f).pending = s.pending := by unfold State.modPch; rfl
@[simp] theorem State.modPch_tick (s : State) (n : Nat) (f : Pch → Pch) : (s.modPch n f).tick = s.tick := by unfold State.modPch; rfl
@[simp] theorem State.modPch_fresh (s : State) (n : Nat) (f : Pch → Pch) : (s.modPch n f).fresh = s.fresh := by unfold State.modPch; rfl
@[simp] theorem State.modPch_sent (s : State) (n : Nat) (f : Pch → Pch) : (s.modPch n f).sent = s.sent := by unfold State.modPch; rfl
@[simp] theorem State.modPch_fuses (s : State) (n : Nat) (f : Pch → Pch) : (s.modPch n f).fuses = s.fuses := by unfold State.modPch; rfl
@[simp] theorem State.modPch_objs (s : State) (n : Nat) (f : Pch → Pch) : (s.modPch n f).objs = s.objs := by unfold State.modPch; rfl
@[simp] theorem State.modPch_pwr (s : State) (n : Nat) (f : Pch → Pch) : (s.modPch n f).pwr = s.pwr := by unfold State.modPch; rfl
@[simp] theorem State.modPch_flt (s : State) (n : Nat) (f : Pch → Pch) : (s.modPch n f).flt = s.flt := by unfold State.modPch; rfl
@[simp] theorem State.modPch_bbx (s : State) (n : Nat) (f : Pch → Pch) : (s.modPch n f).bbx = s.bbx := by unfold State.modPch; rfl
@[simp] theorem State.modPch_wilwa (s : State) (n : Nat) (f : Pch → Pch) : (s.modPch n f).wilwa = s.wilwa := by unfold State.modPch; rfl
@[simp] theorem State.modPch_nonVol (s : State) (n : Nat) (f : Pch → Pch) : (s.modPch n f).nonVol = s.nonVol := by unfold State.modPch; rfl
@[simp] theorem State.modPch_net (s : State) (n : Nat) (f : Pch → Pch) : (s.modPch n f).net = s.net := by unfold State.modPch; rfl
@[simp] theorem State.modPch_tim (s : State) (n : Nat) (f : Pch → Pch) : (s.modPch n f).tim = s.tim := by unfold State.modPch; rfl
@[simp] theorem State.modPch_rin (s : State) (n : Nat) (f : Pch → Pch) : (s.modPch n f).rin = s.rin := by unfold State.modPch; rfl
@[simp] theorem State.modPch_fet (s : State) (n : Nat) (f : Pch → Pch) : (s.modPch n f).fet = s.fet := by unfold State.modPch; rfl
@[simp] theorem State.modPch_mem (s : State) (n : Nat) (f : Pch → Pch) : (s.modPch n f).mem = s.mem := by unfold State.modPch; rfl
@[simp] theorem State.modPch_dram (s : State) (n : Nat) (f : Pch → Pch) : (s.modPch n f).dram = s.dram := by unfold State.modPch; rfl
@[simp] theorem State.modPch_pos (s : State) (n : Nat) (f : Pch → Pch) : (s.modPch n f).pos = vmod s.pos n f := rfl
@[simp] theorem State.modPch_lcg (s : State) (n : Nat) (f : Pch → Pch) : (s.modPch n f).lcg = s.lcg := by unfold State.modPch; rfl
@[simp] theorem State.modPch_cmp (s : State) (n : Nat) (f : Pch → Pch) : (s.modPch n f).cmp = s.cmp := by unfold State.modPch; rfl
@[simp] theorem State.modPch_sne (s : State) (n : Nat) (f : Pch → Pch) : (s.modPch n f).sne = s.sne := by unfold State.modPch; rfl
@[simp] theorem State.modPch_fsq (s : State) (n : Nat) (f : Pch → Pch) : (s.modPch n f).fsq = s.fsq := by unfold State.modPch; rfl
@[simp] theorem State.modPch_hlk (s : State) (n : Nat) (f : Pch → Pch) : (s.modPch n f).hlk = s.hlk := by unfold State.modPch; rfl
@[simp] theorem State.modPch_hdms (s : State) (n : Nat) (f : Pch → Pch) : (s.modPch n f).hdms = s.hdms := by unfold State.modPch; rfl
@[simp] theorem State.modPch_hdg (s : State) (n : Nat) (f : Pch → Pch) : (s.modPch n f).hdg = s.hdg := by unfold State.modPch; rfl
@[simp] theorem State.modPch_vis (s : State) (n : Nat) (f : Pch → Pch) : (s.modPch n f).vis = s.vis := by unfold State.modPch; rfl
@[simp] theorem State.modPch_che (s : State) (n : Nat) (f : Pch → Pch) : (s.modPch n f).che = s.che := by unfold State.modPch; rfl
@[simp] theorem State.modPch_mir (s : State) (n : Nat) (f : Pch → Pch) : (s.modPch n f).mir = s.mir := by unfold State.modPch; rfl
@[simp] theorem State.modPch_therm (s : State) (n : Nat) (f : Pch → Pch) : (s.modPch n f).therm = s.therm := by unfold State.modPch; rfl
@[simp] theorem State.modPch_aonDiodes (s : State) (n : Nat) (f : Pch → Pch) : (s.modPch n f).aonDiodes = s.aonDiodes := by unfold State.modPch; rfl
@[simp] theorem State.modPch_fireEn (s : State) (n : Nat) (f : Pch → Pch) : (s.modPch n f).fireEn = s.fireEn := by unfold State.modPch; rfl

@[simp] theorem State.modLcg_pending (s : State) (b : Nat) (f : Lcg → Lcg) : (s.modLcg b f).pending = s.pending := by unfold State.modLcg; rfl
@[simp] theorem State.modLcg_tick (s : State) (b : Nat) (f : Lcg → Lcg) : (s.modLcg b f).tick = s.tick := by unfold State.modLcg; rfl
@[simp] theorem State.modLcg_fresh (s : State) (b : Nat) (f : Lcg → Lcg) : (s.modLcg b f).fresh = s.fresh := by unfold State.modLcg; rfl
@[simp] theorem State.modLcg_sent (s : State) (b : Nat) (f : Lcg → Lcg) : (s.modLcg b f).sent = s.sent := by unfold State.modLcg; rfl
@[simp] theorem State.modLcg_fuses (s : State) (b : Nat) (f : Lcg → Lcg) : (s.modLcg b f).fuses = s.fuses := by unfold State.modLcg; rfl
@[simp] theorem State.modLcg_objs (s : State) (b : Nat) (f : Lcg → Lcg) : (s.modLcg b f).objs = s.objs := by unfold State.modLcg; rfl
@[simp] theorem State.modLcg_pwr (s : State) (b : Nat) (f : Lcg → Lcg) : (s.modLcg b f).pwr = s.pwr := by unfold State.modLcg; rfl
@[simp] theorem State.modLcg_flt (s : State) (b : Nat) (f : Lcg → Lcg) : (s.modLcg b f).flt = s.flt := by unfold State.modLcg; rfl
@[simp] theorem State.modLcg_bbx (s : State) (b : Nat) (f : Lcg → Lcg) : (s.modLcg b f).bbx = s.bbx := by unfold State.modLcg; rfl
@[simp] theorem State.modLcg_wilwa (s : State) (b : Nat) (f : Lcg → Lcg) : (s.modLcg b f).wilwa = s.wilwa := by unfold State.modLcg; rfl
@[simp] theorem State.modLcg_nonVol (s : State) (b : Nat) (f : Lcg → Lcg) : (s.modLcg b f).nonVol = s.nonVol := by unfold State.modLcg; rfl
@[simp] theorem State.modLcg_net (s : State) (b : Nat) (f : Lcg → Lcg) : (s.modLcg b f).net = s.net := by unfold State.modLcg; rfl
@[simp] theorem State.modLcg_tim (s : State) (b : Nat) (f : Lcg → Lcg) : (s.modLcg b f).tim = s.tim := by unfold State.modLcg; rfl
@[simp] theorem State.modLcg_rin (s : State) (b : Nat) (f : Lcg → Lcg) : (s.modLcg b f).rin = s.rin := by unfold State.modLcg; rfl
@[simp] theorem State.modLcg_fet (s : State) (b : Nat) (f : Lcg → Lcg) : (s.modLcg b f).fet = s.fet := by unfold State.modLcg; rfl
@[simp] theorem State.modLcg_mem (s : State) (b : Nat) (f : Lcg → Lcg) : (s.modLcg b f).mem = s.mem := by unfold State.modLcg; rfl
@[simp] theorem State.modLcg_dram (s : State) (b : Nat) (f : Lcg → Lcg) : (s.modLcg b f).dram = s.dram := by unfold State.modLcg; rfl
@[simp] theorem State.modLcg_pos (s : State) (b : Nat) (f : Lcg → Lcg) : (s.modLcg b f).pos = s.pos := by unfold State.modLcg; rfl
@[simp] theorem State.modLcg_lcg (s : State) (b : Nat) (f : Lcg → Lcg) : (s.modLcg b f).lcg = vmod s.lcg b f := rfl
@[simp] theorem State.modLcg_cmp (s : State) (b : Nat) (f : Lcg → Lcg) : (s.modLcg b f).cmp = s.cmp := by unfold State.modLcg; rfl
@[simp] theorem State.modLcg_sne (s : State) (b : Nat) (f : Lcg → Lcg) : (s.modLcg b f).sne = s.sne := by unfold State.modLcg; rfl
@[simp] theorem State.modLcg_fsq (s : State) (b : Nat) (f : Lcg → Lcg) : (s.modLcg b f).fsq = s.fsq := by unfold State.modLcg; rfl
@[simp] theorem State.modLcg_hlk (s : State) (b : Nat) (f : Lcg → Lcg) : (s.modLcg b f).hlk = s.hlk := by unfold State.modLcg; rfl
@[simp] theorem State.modLcg_hdms (s : State) (b : Nat) (f : Lcg → Lcg) : (s.modLcg b f).hdms = s.hdms := by unfold State.modLcg; rfl
@[simp] theorem State.modLcg_hdg (s : State) (b : Nat) (f : Lcg → Lcg) : (s.modLcg b f).hdg = s.hdg := by unfold State.modLcg; rfl
@[simp] theorem State.modLcg_vis (s : State) (b : Nat) (f : Lcg → Lcg) : (s.modLcg b f).vis = s.vis := by unfold State.modLcg; rfl
@[simp] theorem State.modLcg_che (s : State) (b : Nat) (f : Lcg → Lcg) : (s.modLcg b f).che = s.che := by unfold State.modLcg; rfl
@[simp] theorem State.modLcg_mir (s : State) (b : Nat) (f : Lcg → Lcg) : (s.modLcg b f).mir = s.mir := by unfold State.modLcg; rfl
@[simp] theorem State.modLcg_therm (s : State) (b : Nat) (f : Lcg → Lcg) : (s.modLcg b f).therm = s.therm := by unfold State.modLcg; rfl
@[simp] theorem State.modLcg_aonDiodes (s : State) (b : Nat) (f : Lcg → Lcg) : (s.modLcg b f).aonDiodes = s.aonDiodes := by unfold State.modLcg; rfl
@[simp] theorem State.modLcg_fireEn (s : State) (b : Nat) (f : Lcg → Lcg) : (s.modLcg b f).fireEn = s.fireEn := by unfold State.modLcg; rfl

@[simp] theorem State.modUnit_pending (s : State) (u : Nat) (f : Cmp → Cmp) : (s.modUnit u f).pending = s.pending := by unfold State.modUnit; rfl
@[simp] theorem State.modUnit_tick (s : State) (u : Nat) (f : Cmp → Cmp) : (s.modUnit u f).tick = s.tick := by unfold State.modUnit; rfl
@[simp] theorem State.modUnit_fresh (s : State) (u : Nat) (f : Cmp → Cmp) : (s.modUnit u f).fresh = s.fresh := by unfold State.modUnit; rfl
@[simp] theorem State.modUnit_sent (s : State) (u : Nat) (f : Cmp → Cmp) : (s.modUnit u f).sent = s.sent := by unfold State.modUnit; rfl
@[simp] theorem State.modUnit_fuses (s : State) (u : Nat) (f : Cmp → Cmp) : (s.modUnit u f).fuses = s.fuses := by unfold State.modUnit; rfl
@[simp] theorem State.modUnit_objs (s : State) (u : Nat) (f : Cmp → Cmp) : (s.modUnit u f).objs = s.objs := by unfold State.modUnit; rfl
@[simp] theorem State.modUnit_pwr (s : State) (u : Nat) (f : Cmp → Cmp) : (s.modUnit u f).pwr = s.pwr := by unfold State.modUnit; rfl
@[simp] theorem State.modUnit_flt (s : State) (u : Nat) (f : Cmp → Cmp) : (s.modUnit u f).flt = s.flt := by unfold State.modUnit; rfl
@[simp] theorem State.modUnit_bbx (s : State) (u : Nat) (f : Cmp → Cmp) : (s.modUnit u f).bbx = s.bbx := by unfold State.modUnit; rfl
@[simp] theorem State.modUnit_wilwa (s : State) (u : Nat) (f : Cmp → Cmp) : (s.modUnit u f).wilwa = s.wilwa := by unfold State.modUnit; rfl
@[simp] theorem State.modUnit_nonVol (s : State) (u : Nat) (f : Cmp → Cmp) : (s.modUnit u f).nonVol = s.nonVol := by unfold State.modUnit; rfl
@[simp] theorem State.modUnit_net (s : State) (u : Nat) (f : Cmp → Cmp) : (s.modUnit u f).net = s.net := by unfold State.modUnit; rfl
@[simp] theorem State.modUnit_tim (s : State) (u : Nat) (f : Cmp → Cmp) : (s.modUnit u f).tim = s.tim := by unfold State.modUnit; rfl
@[simp] theorem State.modUnit_rin (s : State) (u : Nat) (f : Cmp → Cmp) : (s.modUnit u f).rin = s.rin := by unfold State.modUnit; rfl
@[simp] theorem State.modUnit_fet (s : State) (u : Nat) (f : Cmp → Cmp) : (s.modUnit u f).fet = s.fet := by unfold State.modUnit; rfl
@[simp] theorem State.modUnit_mem (s : State) (u : Nat) (f : Cmp → Cmp) : (s.modUnit u f).mem = s.mem := by unfold State.modUnit; rfl
@[simp] theorem State.modUnit_dram (s : State) (u : Nat) (f : Cmp → Cmp) : (s.modUnit u f).dram = s.dram := by unfold State.modUnit; rfl
@[simp] theorem State.modUnit_pos (s : State) (u : Nat) (f : Cmp → Cmp) : (s.modUnit u f).pos = s.pos := by unfold State.modUnit; rfl
@[simp] theorem State.modUnit_lcg (s : State) (u : Nat) (f : Cmp → Cmp) : (s.modUnit u f).lcg = s.lcg := by unfold State.modUnit; rfl
@[simp] theorem State.modUnit_cmp (s : State) (u : Nat) (f : Cmp → Cmp) : (s.modUnit u f).cmp = vmod s.cmp u f := rfl
@[simp] theorem State.modUnit_sne (s : State) (u : Nat) (f : Cmp → Cmp) : (s.modUnit u f).sne = s.sne := by unfold State.modUnit; rfl
@[simp] theorem State.modUnit_fsq (s : State) (u : Nat) (f : Cmp → Cmp) : (s.modUnit u f).fsq = s.fsq := by unfold State.modUnit; rfl
@[simp] theorem State.modUnit_hlk (s : State) (u : Nat) (f : Cmp → Cmp) : (s.modUnit u f).hlk = s.hlk := by unfold State.modUnit; rfl
@[simp] theorem State.modUnit_hdms (s : State) (u : Nat) (f : Cmp → Cmp) : (s.modUnit u f).hdms = s.hdms := by unfold State.modUnit; rfl
@[simp] theorem State.modUnit_hdg (s : State) (u : Nat) (f : Cmp → Cmp) : (s.modUnit u f).hdg = s.hdg := by unfold State.modUnit; rfl
@[simp] theorem State.modUnit_vis (s : State) (u : Nat) (f : Cmp → Cmp) : (s.modUnit u f).vis = s.vis := by unfold State.modUnit; rfl
@[simp] theorem State.modUnit_che (s : State) (u : Nat) (f : Cmp → Cmp) : (s.modUnit u f).che = s.che := by unfold State.modUnit; rfl
@[simp] theorem State.modUnit_mir (s : State) (u : Nat) (f : Cmp → Cmp) : (s.modUnit u f).mir = s.mir := by unfold State.modUnit; rfl
@[simp] theorem State.modUnit_therm (s : State) (u : Nat) (f : Cmp → Cmp) : (s.modUnit u f).therm = s.therm := by unfold State.modUnit; rfl
@[simp] theorem State.modUnit_aonDiodes (s : State) (u : Nat) (f : Cmp → Cmp) : (s.modUnit u f).aonDiodes = s.aonDiodes := by unfold State.modUnit; rfl
@[simp] theorem State.modUnit_fireEn (s : State) (u : Nat) (f : Cmp → Cmp) : (s.modUnit u f).fireEn = s.fireEn := by unfold State.modUnit; rfl

@[simp] theorem State.modEngine_pending (s : State) (n : Nat) (f : Eng → Eng) : (s.modEngine n f).pending = s.pending := by unfold State.modEngine; rfl
@[simp] theorem State.modEngine_tick (s : State) (n : Nat) (f : Eng → Eng) : (s.modEngine n f).tick = s.tick := by unfold State.modEngine; rfl
@[simp] theorem State.modEngine_fresh (s : State) (n : Nat) (f : Eng → Eng) : (s.modEngine n f).fresh = s.fresh := by unfold State.modEngine; rfl
@[simp] theorem State.modEngine_sent (s : State) (n : Nat) (f : Eng → Eng) : (s.modEngine n f).sent = s.sent := by unfold State.modEngine; rfl
@[simp] theorem State.modEngine_fuses (s : State) (n : Nat) (f : Eng → Eng) : (s.modEngine n f).fuses = s.fuses := by unfold State.modEngine; rfl
@[simp] theorem State.modEngine_objs (s : State) (n : Nat) (f : Eng → Eng) : (s.modEngine n f).objs = s.objs := by unfold State.modEngine; rfl
@[simp] theorem State.modEngine_pwr (s : State) (n : Nat) (f : Eng → Eng) : (s.modEngine n f).pwr = s.pwr := by unfold State.modEngine; rfl
@[simp] theorem State.modEngine_flt (s : State) (n : Nat) (f : Eng → Eng) : (s.modEngine n f).flt = s.flt := by unfold State.modEngine; rfl
@[simp] theorem State.modEngine_bbx (s : State) (n : Nat) (f : Eng → Eng) : (s.modEngine n f).bbx = s.bbx := by unfold State.modEngine; rfl
@[simp] theorem State.modEngine_wilwa (s : State) (n : Nat) (f : Eng → Eng) : (s.modEngine n f).wilwa = s.wilwa := by unfold State.modEngine; rfl
@[simp] theorem State.modEngine_nonVol (s : State) (n : Nat) (f : Eng → Eng) : (s.modEngine n f).nonVol = s.nonVol := by unfold State.modEngine; rfl
@[simp] theorem State.modEngine_net (s : State) (n : Nat) (f : Eng → Eng) : (s.modEngine n f).net = s.net := by unfold State.modEngine; rfl
@[simp] theorem State.modEngine_tim (s : State) (n : Nat) (f : Eng → Eng) : (s.modEngine n f).tim = s.tim := by unfold State.modEngine; rfl
@[simp] theorem State.modEngine_rin (s : State) (n : Nat) (f : Eng → Eng) : (s.modEngine n f).rin = s.rin := by unfold State.modEngine; rfl
@[simp] theorem State.modEngine_fet (s : State) (n : Nat) (f : Eng → Eng) : (s.modEngine n f).fet = s.fet := by unfold State.modEngine; rfl
@[simp] theorem State.modEngine_mem (s : State) (n : Nat) (f : Eng → Eng) : (s.modEngine n f).mem = s.mem := by unfold State.modEngine; rfl
@[simp] theorem State.modEngine_dram (s : State) (n : Nat) (f : Eng → Eng) : (s.modEngine n f).dram = s.dram := by unfold State.modEngine; rfl
@[simp] theorem State.modEngine_pos (s : State) (n : Nat) (f : Eng → Eng) : (s.modEngine n f).pos = s.pos := by unfold State.modEngine; rfl
@[simp] theorem State.modEngine_lcg (s : State) (n : Nat) (f : Eng → Eng) : (s.modEngine n f).lcg = s.lcg := by unfold State.modEngine; rfl
@[simp] theorem State.modEngine_cmp (s : State) (n : Nat) (f : Eng → Eng) : (s.modEngine n f).cmp = s.cmp := by unfold State.modEngine; rfl
@[simp] theorem State.modEngine_sne (s : State) (n : Nat) (f : Eng → Eng) : (s.modEngine n f).sne = { s.sne with engines := vmod s.sne.engines n f } := rfl
@[simp] theorem State.modEngine_fsq (s : State) (n : Nat) (f : Eng → Eng) : (s.modEngine n f).fsq = s.fsq := by unfold State.modEngine; rfl
@[simp] theorem State.modEngine_hlk (s : State) (n : Nat) (f : Eng → Eng) : (s.modEngine n f).hlk = s.hlk := by unfold State.modEngine; rfl
@[simp] theorem State.modEngine_hdms (s : State) (n : Nat) (f : Eng → Eng) : (s.modEngine n f).hdms = s.hdms := by unfold State.modEngine; rfl
@[simp] theorem State.modEngine_hdg (s : State) (n : Nat) (f : Eng → Eng) : (s.modEngine n f).hdg = s.hdg := by unfold State.modEngine; rfl
@[simp] theorem State.modEngine_vis (s : State) (n : Nat) (f : Eng → Eng) : (s.modEngine n f).vis = s.vis := by unfold State.modEngine; rfl
@[simp] theorem State.modEngine_che (s : State) (n : Nat) (f : Eng → Eng) : (s.modEngine n f).che = s.che := by unfold State.modEngine; rfl
@[simp] theorem State.modEngine_mir (s : State) (n : Nat) (f : Eng → Eng) : (s.modEngine n f).mir = s.mir := by unfold State.modEngine; rfl
@[simp] theorem State.modEngine_therm (s : State) (n : Nat) (f : Eng → Eng) : (s.modEngine n f).therm = s.therm := by unfold State.modEngine; rfl
@[simp] theorem State.modEngine_aonDiodes (s : State) (n : Nat) (f : Eng → Eng) : (s.modEngine n f).aonDiodes = s.aonDiodes := by unfold State.modEngine; rfl
@[simp] theorem State.modEngine_fireEn (s : State) (n : Nat) (f : Eng → Eng) : (s.modEngine n f).fireEn = s.fireEn := by unfold State.modEngine; rfl

@[simp] theorem State.modBar_pending (s : State) (b : Nat) (f : BarFsq → BarFsq) : (s.modBar b f).pending = s.pending := by unfold State.modBar; rfl
@[simp] theorem State.modBar_tick (s : State) (b : Nat) (f : BarFsq → BarFsq) : (s.modBar b f).tick = s.tick := by unfold State.modBar; rfl
@[simp] theorem State.modBar_fresh (s : State) (b : Nat) (f : BarFsq → BarFsq) : (s.modBar b f).fresh = s.fresh := by unfold State.modBar; rfl
@[simp] theorem State.modBar_sent (s : State) (b : Nat) (f : BarFsq → BarFsq) : (s.modBar b f).sent = s.sent := by unfold State.modBar; rfl
@[simp] theorem State.modBar_fuses (s : State) (b : Nat) (f : BarFsq → BarFsq) : (s.modBar b f).fuses = s.fuses := by unfold State.modBar; rfl
@[simp] theorem State.modBar_objs (s : State) (b : Nat) (f : BarFsq → BarFsq) : (s.modBar b f).objs = s.objs := by unfold State.modBar; rfl
@[simp] theorem State.modBar_pwr (s : State) (b : Nat) (f : BarFsq → BarFsq) : (s.modBar b f).pwr = s.pwr := by unfold State.modBar; rfl
@[simp] theorem State.modBar_flt (s : State) (b : Nat) (f : BarFsq → BarFsq) : (s.modBar b f).flt = s.flt := by unfold State.modBar; rfl
@[simp] theorem State.modBar_bbx (s : State) (b : Nat) (f : BarFsq → BarFsq) : (s.modBar b f).bbx = s.bbx := by unfold State.modBar; rfl
@[simp] theorem State.modBar_wilwa (s : State) (b : Nat) (f : BarFsq → BarFsq) : (s.modBar b f).wilwa = s.wilwa := by unfold State.modBar; rfl
@[simp] theorem State.modBar_nonVol (s : State) (b : Nat) (f : BarFsq → BarFsq) : (s.modBar b f).nonVol = s.nonVol := by unfold State.modBar; rfl
@[simp] theorem State.modBar_net (s : State) (b : Nat) (f : BarFsq → BarFsq) : (s.modBar b f).net = s.net := by unfold State.modBar; rfl
@[simp] theorem State.modBar_tim (s : State) (b : Nat) (f : BarFsq → BarFsq) : (s.modBar b f).tim = s.tim := by unfold State.modBar; rfl
@[simp] theorem State.modBar_rin (s : State) (b : Nat) (f : BarFsq → BarFsq) : (s.modBar b f).rin = s.rin := by unfold State.modBar; rfl
@[simp] theorem State.modBar_fet (s : State) (b : Nat) (f : BarFsq → BarFsq) : (s.modBar b f).fet = s.fet := by unfold State.modBar; rfl
@[simp] theorem State.modBar_mem (s : State) (b : Nat) (f : BarFsq → BarFsq) : (s.modBar b f).mem = s.mem := by unfold State.modBar; rfl
@[simp] theorem State.modBar_dram (s : State) (b : Nat) (f : BarFsq → BarFsq) : (s.modBar b f).dram = s.dram := by unfold State.modBar; rfl
@[simp] theorem State.modBar_pos (s : State) (b : Nat) (f : BarFsq → BarFsq) : (s.modBar b f).pos = s.pos := by unfold State.modBar; rfl
@[simp] theorem State.modBar_lcg (s : State) (b : Nat) (f : BarFsq → BarFsq) : (s.modBar b f).lcg = s.lcg := by unfold State.modBar; rfl
@[simp] theorem State.modBar_cmp (s : State) (b : Nat) (f : BarFsq → BarFsq) : (s.modBar b f).cmp = s.cmp := by unfold State.modBar; rfl
@[simp] theorem State.modBar_sne (s : State) (b : Nat) (f : BarFsq → BarFsq) : (s.modBar b f).sne = s.sne := by unfold State.modBar; rfl
@[simp] theorem State.modBar_fsq (s : State) (b : Nat) (f : BarFsq → BarFsq) : (s.modBar b f).fsq = { s.fsq with bars := vmod s.fsq.bars b f } := rfl
@[simp] theorem State.modBar_hlk (s : State) (b : Nat) (f : BarFsq → BarFsq) : (s.modBar b f).hlk = s.hlk := by unfold State.modBar; rfl
@[simp] theorem State.modBar_hdms (s : State) (b : Nat) (f : BarFsq → BarFsq) : (s.modBar b f).hdms = s.hdms := by unfold State.modBar; rfl
@[simp] theorem State.modBar_hdg (s : State) (b : Nat) (f : BarFsq → BarFsq) : (s.modBar b f).hdg = s.hdg := by unfold State.modBar; rfl
@[simp] theorem State.modBar_vis (s : State) (b : Nat) (f : BarFsq → BarFsq) : (s.modBar b f).vis = s.vis := by unfold State.modBar; rfl
@[simp] theorem State.modBar_che (s : State) (b : Nat) (f : BarFsq → BarFsq) : (s.modBar b f).che = s.che := by unfold State.modBar; rfl
@[simp] theorem State.modBar_mir (s : State) (b : Nat) (f : BarFsq → BarFsq) : (s.modBar b f).mir = s.mir := by unfold State.modBar; rfl
@[simp] theorem State.modBar_therm (s : State) (b : Nat) (f : BarFsq → BarFsq) : (s.modBar b f).therm = s.therm := by unfold State.modBar; rfl
@[simp] theorem State.modBar_aonDiodes (s : State) (b : Nat) (f : BarFsq → BarFsq) : (s.modBar b f).aonDiodes = s.aonDiodes := by unfold State.modBar; rfl
@[simp] theorem State.modBar_fireEn (s : State) (b : Nat) (f : BarFsq → BarFsq) : (s.modBar b f).fireEn = s.fireEn := by unfold State.modBar; rfl

@[simp] theorem State.modLane_pending (s : State) (l : Nat) (f : Hln → Hln) : (s.modLane l f).pending = s.pending := by unfold State.modLane; rfl
@[simp] theorem State.modLane_tick (s : State) (l : Nat) (f : Hln → Hln) : (s.modLane l f).tick = s.tick := by unfold State.modLane; rfl
@[simp] theorem State.modLane_fresh (s : State) (l : Nat) (f : Hln → Hln) : (s.modLane l f).fresh = s.fresh := by unfold State.modLane; rfl
@[simp] theorem State.modLane_sent (s : State) (l : Nat) (f : Hln → Hln) : (s.modLane l f).sent = s.sent := by unfold State.modLane; rfl
@[simp] theorem State.modLane_fuses (s : State) (l : Nat) (f : Hln → Hln) : (s.modLane l f).fuses = s.fuses := by unfold State.modLane; rfl
@[simp] theorem State.modLane_objs (s : State) (l : Nat) (f : Hln → Hln) : (s.modLane l f).objs = s.objs := by unfold State.modLane; rfl
@[simp] theorem State.modLane_pwr (s : State) (l : Nat) (f : Hln → Hln) : (s.modLane l f).pwr = s.pwr := by unfold State.modLane; rfl
@[simp] theorem State.modLane_flt (s : State) (l : Nat) (f : Hln → Hln) : (s.modLane l f).flt = s.flt := by unfold State.modLane; rfl
@[simp] theorem State.modLane_bbx (s : State) (l : Nat) (f : Hln → Hln) : (s.modLane l f).bbx = s.bbx := by unfold State.modLane; rfl
@[simp] theorem State.modLane_wilwa (s : State) (l : Nat) (f : Hln → Hln) : (s.modLane l f).wilwa = s.wilwa := by unfold State.modLane; rfl
@[simp] theorem State.modLane_nonVol (s : State) (l : Nat) (f : Hln → Hln) : (s.modLane l f).nonVol = s.nonVol := by unfold State.modLane; rfl
@[simp] theorem State.modLane_net (s : State) (l : Nat) (f : Hln → Hln) : (s.modLane l f).net = s.net := by unfold State.modLane; rfl
@[simp] theorem State.modLane_tim (s : State) (l : Nat) (f : Hln → Hln) : (s.modLane l f).tim = s.tim := by unfold State.modLane; rfl
@[simp] theorem State.modLane_rin (s : State) (l : Nat) (f : Hln → Hln) : (s.modLane l f).rin = s.rin := by unfold State.modLane; rfl
@[simp] theorem State.modLane_fet (s : State) (l : Nat) (f : Hln → Hln) : (s.modLane l f).fet = s.fet := by unfold State.modLane; rfl
@[simp] theorem State.modLane_mem (s : State) (l : Nat) (f : Hln → Hln) : (s.modLane l f).mem = s.mem := by unfold State.modLane; rfl
@[simp] theorem State.modLane_dram (s : State) (l : Nat) (f : Hln → Hln) : (s.modLane l f).dram = s.dram := by unfold State.modLane; rfl
@[simp] theorem State.modLane_pos (s : State) (l : Nat) (f : Hln → Hln) : (s.modLane l f).pos = s.pos := by unfold State.modLane; rfl
@[simp] theorem State.modLane_lcg (s : State) (l : Nat) (f : Hln → Hln) : (s.modLane l f).lcg = s.lcg := by unfold State.modLane; rfl
@[simp] theorem State.modLane_cmp (s : State) (l : Nat) (f : Hln → Hln) : (s.modLane l f).cmp = s.cmp := by unfold State.modLane; rfl
@[simp] theorem State.modLane_sne (s : State) (l : Nat) (f : Hln → Hln) : (s.modLane l f).sne = s.sne := by unfold State.modLane; rfl
@[simp] theorem State.modLane_fsq (s : State) (l : Nat) (f : Hln → Hln) : (s.modLane l f).fsq = s.fsq := by unfold State.modLane; rfl
@[simp] theorem State.modLane_hlk (s : State) (l : Nat) (f : Hln → Hln) : (s.modLane l f).hlk = { s.hlk with lanes := vmod s.hlk.lanes l f } := rfl
@[simp] theorem State.modLane_hdms (s : State) (l : Nat) (f : Hln → Hln) : (s.modLane l f).hdms = s.hdms := by unfold State.modLane; rfl
@[simp] theorem State.modLane_hdg (s : State) (l : Nat) (f : Hln → Hln) : (s.modLane l f).hdg = s.hdg := by unfold State.modLane; rfl
@[simp] theorem State.modLane_vis (s : State) (l : Nat) (f : Hln → Hln) : (s.modLane l f).vis = s.vis := by unfold State.modLane; rfl
@[simp] theorem State.modLane_che (s : State) (l : Nat) (f : Hln → Hln) : (s.modLane l f).che = s.che := by unfold State.modLane; rfl
@[simp] theorem State.modLane_mir (s : State) (l : Nat) (f : Hln → Hln) : (s.modLane l f).mir = s.mir := by unfold State.modLane; rfl
@[simp] theorem State.modLane_therm (s : State) (l : Nat) (f : Hln → Hln) : (s.modLane l f).therm = s.therm := by unfold State.modLane; rfl
@[simp] theorem State.modLane_aonDiodes (s : State) (l : Nat) (f : Hln → Hln) : (s.modLane l f).aonDiodes = s.aonDiodes := by unfold State.modLane; rfl
@[simp] theorem State.modLane_fireEn (s : State) (l : Nat) (f : Hln → Hln) : (s.modLane l f).fireEn = s.fireEn := by unfold State.modLane; rfl

@[simp] theorem State.laneSend_pending (s : State) (l : Nat) (f : LaneTx) : (s.laneSend l f).pending = s.pending := by unfold State.laneSend; rfl
@[simp] theorem State.laneSend_tick (s : State) (l : Nat) (f : LaneTx) : (s.laneSend l f).tick = s.tick := by unfold State.laneSend; rfl
@[simp] theorem State.laneSend_fresh (s : State) (l : Nat) (f : LaneTx) : (s.laneSend l f).fresh = s.fresh := by unfold State.laneSend; rfl
@[simp] theorem State.laneSend_sent (s : State) (l : Nat) (f : LaneTx) : (s.laneSend l f).sent = s.sent ++ [.lane l f] := rfl
@[simp] theorem State.laneSend_fuses (s : State) (l : Nat) (f : LaneTx) : (s.laneSend l f).fuses = s.fuses := by unfold State.laneSend; rfl
@[simp] theorem State.laneSend_objs (s : State) (l : Nat) (f : LaneTx) : (s.laneSend l f).objs = s.objs := by unfold State.laneSend; rfl
@[simp] theorem State.laneSend_pwr (s : State) (l : Nat) (f : LaneTx) : (s.laneSend l f).pwr = s.pwr := by unfold State.laneSend; rfl
@[simp] theorem State.laneSend_flt (s : State) (l : Nat) (f : LaneTx) : (s.laneSend l f).flt = s.flt := by unfold State.laneSend; rfl
@[simp] theorem State.laneSend_bbx (s : State) (l : Nat) (f : LaneTx) : (s.laneSend l f).bbx = s.bbx := by unfold State.laneSend; rfl
@[simp] theorem State.laneSend_wilwa (s : State) (l : Nat) (f : LaneTx) : (s.laneSend l f).wilwa = s.wilwa := by unfold State.laneSend; rfl
@[simp] theorem State.laneSend_nonVol (s : State) (l : Nat) (f : LaneTx) : (s.laneSend l f).nonVol = s.nonVol := by unfold State.laneSend; rfl
@[simp] theorem State.laneSend_net (s : State) (l : Nat) (f : LaneTx) : (s.laneSend l f).net = s.net := by unfold State.laneSend; rfl
@[simp] theorem State.laneSend_tim (s : State) (l : Nat) (f : LaneTx) : (s.laneSend l f).tim = s.tim := by unfold State.laneSend; rfl
@[simp] theorem State.laneSend_rin (s : State) (l : Nat) (f : LaneTx) : (s.laneSend l f).rin = s.rin := by unfold State.laneSend; rfl
@[simp] theorem State.laneSend_fet (s : State) (l : Nat) (f : LaneTx) : (s.laneSend l f).fet = s.fet := by unfold State.laneSend; rfl
@[simp] theorem State.laneSend_mem (s : State) (l : Nat) (f : LaneTx) : (s.laneSend l f).mem = s.mem := by unfold State.laneSend; rfl
@[simp] theorem State.laneSend_dram (s : State) (l : Nat) (f : LaneTx) : (s.laneSend l f).dram = s.dram := by unfold State.laneSend; rfl
@[simp] theorem State.laneSend_pos (s : State) (l : Nat) (f : LaneTx) : (s.laneSend l f).pos = s.pos := by unfold State.laneSend; rfl
@[simp] theorem State.laneSend_lcg (s : State) (l : Nat) (f : LaneTx) : (s.laneSend l f).lcg = s.lcg := by unfold State.laneSend; rfl
@[simp] theorem State.laneSend_cmp (s : State) (l : Nat) (f : LaneTx) : (s.laneSend l f).cmp = s.cmp := by unfold State.laneSend; rfl
@[simp] theorem State.laneSend_sne (s : State) (l : Nat) (f : LaneTx) : (s.laneSend l f).sne = s.sne := by unfold State.laneSend; rfl
@[simp] theorem State.laneSend_fsq (s : State) (l : Nat) (f : LaneTx) : (s.laneSend l f).fsq = s.fsq := by unfold State.laneSend; rfl
@[simp] theorem State.laneSend_hlk (s : State) (l : Nat) (f : LaneTx) : (s.laneSend l f).hlk = { s.hlk with lanes := vmod s.hlk.lanes l fun x => { x with tx := x.tx.ask f } } := rfl
@[simp] theorem State.laneSend_hdms (s : State) (l : Nat) (f : LaneTx) : (s.laneSend l f).hdms = s.hdms := by unfold State.laneSend; rfl
@[simp] theorem State.laneSend_hdg (s : State) (l : Nat) (f : LaneTx) : (s.laneSend l f).hdg = s.hdg := by unfold State.laneSend; rfl
@[simp] theorem State.laneSend_vis (s : State) (l : Nat) (f : LaneTx) : (s.laneSend l f).vis = s.vis := by unfold State.laneSend; rfl
@[simp] theorem State.laneSend_che (s : State) (l : Nat) (f : LaneTx) : (s.laneSend l f).che = s.che := by unfold State.laneSend; rfl
@[simp] theorem State.laneSend_mir (s : State) (l : Nat) (f : LaneTx) : (s.laneSend l f).mir = s.mir := by unfold State.laneSend; rfl
@[simp] theorem State.laneSend_therm (s : State) (l : Nat) (f : LaneTx) : (s.laneSend l f).therm = s.therm := by unfold State.laneSend; rfl
@[simp] theorem State.laneSend_aonDiodes (s : State) (l : Nat) (f : LaneTx) : (s.laneSend l f).aonDiodes = s.aonDiodes := by unfold State.laneSend; rfl
@[simp] theorem State.laneSend_fireEn (s : State) (l : Nat) (f : LaneTx) : (s.laneSend l f).fireEn = s.fireEn := by unfold State.laneSend; rfl

@[simp] theorem State.modEgress_pending (s : State) (o : Nat) (f : Egress → Egress) : (s.modEgress o f).pending = s.pending := by unfold State.modEgress; rfl
@[simp] theorem State.modEgress_tick (s : State) (o : Nat) (f : Egress → Egress) : (s.modEgress o f).tick = s.tick := by unfold State.modEgress; rfl
@[simp] theorem State.modEgress_fresh (s : State) (o : Nat) (f : Egress → Egress) : (s.modEgress o f).fresh = s.fresh := by unfold State.modEgress; rfl
@[simp] theorem State.modEgress_sent (s : State) (o : Nat) (f : Egress → Egress) : (s.modEgress o f).sent = s.sent := by unfold State.modEgress; rfl
@[simp] theorem State.modEgress_fuses (s : State) (o : Nat) (f : Egress → Egress) : (s.modEgress o f).fuses = s.fuses := by unfold State.modEgress; rfl
@[simp] theorem State.modEgress_objs (s : State) (o : Nat) (f : Egress → Egress) : (s.modEgress o f).objs = s.objs := by unfold State.modEgress; rfl
@[simp] theorem State.modEgress_pwr (s : State) (o : Nat) (f : Egress → Egress) : (s.modEgress o f).pwr = s.pwr := by unfold State.modEgress; rfl
@[simp] theorem State.modEgress_flt (s : State) (o : Nat) (f : Egress → Egress) : (s.modEgress o f).flt = s.flt := by unfold State.modEgress; rfl
@[simp] theorem State.modEgress_bbx (s : State) (o : Nat) (f : Egress → Egress) : (s.modEgress o f).bbx = s.bbx := by unfold State.modEgress; rfl
@[simp] theorem State.modEgress_wilwa (s : State) (o : Nat) (f : Egress → Egress) : (s.modEgress o f).wilwa = s.wilwa := by unfold State.modEgress; rfl
@[simp] theorem State.modEgress_nonVol (s : State) (o : Nat) (f : Egress → Egress) : (s.modEgress o f).nonVol = s.nonVol := by unfold State.modEgress; rfl
@[simp] theorem State.modEgress_net (s : State) (o : Nat) (f : Egress → Egress) : (s.modEgress o f).net = { s.net with egress := vmod s.net.egress o f } := rfl
@[simp] theorem State.modEgress_tim (s : State) (o : Nat) (f : Egress → Egress) : (s.modEgress o f).tim = s.tim := by unfold State.modEgress; rfl
@[simp] theorem State.modEgress_rin (s : State) (o : Nat) (f : Egress → Egress) : (s.modEgress o f).rin = s.rin := by unfold State.modEgress; rfl
@[simp] theorem State.modEgress_fet (s : State) (o : Nat) (f : Egress → Egress) : (s.modEgress o f).fet = s.fet := by unfold State.modEgress; rfl
@[simp] theorem State.modEgress_mem (s : State) (o : Nat) (f : Egress → Egress) : (s.modEgress o f).mem = s.mem := by unfold State.modEgress; rfl
@[simp] theorem State.modEgress_dram (s : State) (o : Nat) (f : Egress → Egress) : (s.modEgress o f).dram = s.dram := by unfold State.modEgress; rfl
@[simp] theorem State.modEgress_pos (s : State) (o : Nat) (f : Egress → Egress) : (s.modEgress o f).pos = s.pos := by unfold State.modEgress; rfl
@[simp] theorem State.modEgress_lcg (s : State) (o : Nat) (f : Egress → Egress) : (s.modEgress o f).lcg = s.lcg := by unfold State.modEgress; rfl
@[simp] theorem State.modEgress_cmp (s : State) (o : Nat) (f : Egress → Egress) : (s.modEgress o f).cmp = s.cmp := by unfold State.modEgress; rfl
@[simp] theorem State.modEgress_sne (s : State) (o : Nat) (f : Egress → Egress) : (s.modEgress o f).sne = s.sne := by unfold State.modEgress; rfl
@[simp] theorem State.modEgress_fsq (s : State) (o : Nat) (f : Egress → Egress) : (s.modEgress o f).fsq = s.fsq := by unfold State.modEgress; rfl
@[simp] theorem State.modEgress_hlk (s : State) (o : Nat) (f : Egress → Egress) : (s.modEgress o f).hlk = s.hlk := by unfold State.modEgress; rfl
@[simp] theorem State.modEgress_hdms (s : State) (o : Nat) (f : Egress → Egress) : (s.modEgress o f).hdms = s.hdms := by unfold State.modEgress; rfl
@[simp] theorem State.modEgress_hdg (s : State) (o : Nat) (f : Egress → Egress) : (s.modEgress o f).hdg = s.hdg := by unfold State.modEgress; rfl
@[simp] theorem State.modEgress_vis (s : State) (o : Nat) (f : Egress → Egress) : (s.modEgress o f).vis = s.vis := by unfold State.modEgress; rfl
@[simp] theorem State.modEgress_che (s : State) (o : Nat) (f : Egress → Egress) : (s.modEgress o f).che = s.che := by unfold State.modEgress; rfl
@[simp] theorem State.modEgress_mir (s : State) (o : Nat) (f : Egress → Egress) : (s.modEgress o f).mir = s.mir := by unfold State.modEgress; rfl
@[simp] theorem State.modEgress_therm (s : State) (o : Nat) (f : Egress → Egress) : (s.modEgress o f).therm = s.therm := by unfold State.modEgress; rfl
@[simp] theorem State.modEgress_aonDiodes (s : State) (o : Nat) (f : Egress → Egress) : (s.modEgress o f).aonDiodes = s.aonDiodes := by unfold State.modEgress; rfl
@[simp] theorem State.modEgress_fireEn (s : State) (o : Nat) (f : Egress → Egress) : (s.modEgress o f).fireEn = s.fireEn := by unfold State.modEgress; rfl

@[simp] theorem State.modHdm_pending (s : State) (m : Nat) (f : Hdm → Hdm) : (s.modHdm m f).pending = s.pending := by unfold State.modHdm; rfl
@[simp] theorem State.modHdm_tick (s : State) (m : Nat) (f : Hdm → Hdm) : (s.modHdm m f).tick = s.tick := by unfold State.modHdm; rfl
@[simp] theorem State.modHdm_fresh (s : State) (m : Nat) (f : Hdm → Hdm) : (s.modHdm m f).fresh = s.fresh := by unfold State.modHdm; rfl
@[simp] theorem State.modHdm_sent (s : State) (m : Nat) (f : Hdm → Hdm) : (s.modHdm m f).sent = s.sent := by unfold State.modHdm; rfl
@[simp] theorem State.modHdm_fuses (s : State) (m : Nat) (f : Hdm → Hdm) : (s.modHdm m f).fuses = s.fuses := by unfold State.modHdm; rfl
@[simp] theorem State.modHdm_objs (s : State) (m : Nat) (f : Hdm → Hdm) : (s.modHdm m f).objs = s.objs := by unfold State.modHdm; rfl
@[simp] theorem State.modHdm_pwr (s : State) (m : Nat) (f : Hdm → Hdm) : (s.modHdm m f).pwr = s.pwr := by unfold State.modHdm; rfl
@[simp] theorem State.modHdm_flt (s : State) (m : Nat) (f : Hdm → Hdm) : (s.modHdm m f).flt = s.flt := by unfold State.modHdm; rfl
@[simp] theorem State.modHdm_bbx (s : State) (m : Nat) (f : Hdm → Hdm) : (s.modHdm m f).bbx = s.bbx := by unfold State.modHdm; rfl
@[simp] theorem State.modHdm_wilwa (s : State) (m : Nat) (f : Hdm → Hdm) : (s.modHdm m f).wilwa = s.wilwa := by unfold State.modHdm; rfl
@[simp] theorem State.modHdm_nonVol (s : State) (m : Nat) (f : Hdm → Hdm) : (s.modHdm m f).nonVol = s.nonVol := by unfold State.modHdm; rfl
@[simp] theorem State.modHdm_net (s : State) (m : Nat) (f : Hdm → Hdm) : (s.modHdm m f).net = s.net := by unfold State.modHdm; rfl
@[simp] theorem State.modHdm_tim (s : State) (m : Nat) (f : Hdm → Hdm) : (s.modHdm m f).tim = s.tim := by unfold State.modHdm; rfl
@[simp] theorem State.modHdm_rin (s : State) (m : Nat) (f : Hdm → Hdm) : (s.modHdm m f).rin = s.rin := by unfold State.modHdm; rfl
@[simp] theorem State.modHdm_fet (s : State) (m : Nat) (f : Hdm → Hdm) : (s.modHdm m f).fet = s.fet := by unfold State.modHdm; rfl
@[simp] theorem State.modHdm_mem (s : State) (m : Nat) (f : Hdm → Hdm) : (s.modHdm m f).mem = s.mem := by unfold State.modHdm; rfl
@[simp] theorem State.modHdm_dram (s : State) (m : Nat) (f : Hdm → Hdm) : (s.modHdm m f).dram = s.dram := by unfold State.modHdm; rfl
@[simp] theorem State.modHdm_pos (s : State) (m : Nat) (f : Hdm → Hdm) : (s.modHdm m f).pos = s.pos := by unfold State.modHdm; rfl
@[simp] theorem State.modHdm_lcg (s : State) (m : Nat) (f : Hdm → Hdm) : (s.modHdm m f).lcg = s.lcg := by unfold State.modHdm; rfl
@[simp] theorem State.modHdm_cmp (s : State) (m : Nat) (f : Hdm → Hdm) : (s.modHdm m f).cmp = s.cmp := by unfold State.modHdm; rfl
@[simp] theorem State.modHdm_sne (s : State) (m : Nat) (f : Hdm → Hdm) : (s.modHdm m f).sne = s.sne := by unfold State.modHdm; rfl
@[simp] theorem State.modHdm_fsq (s : State) (m : Nat) (f : Hdm → Hdm) : (s.modHdm m f).fsq = s.fsq := by unfold State.modHdm; rfl
@[simp] theorem State.modHdm_hlk (s : State) (m : Nat) (f : Hdm → Hdm) : (s.modHdm m f).hlk = s.hlk := by unfold State.modHdm; rfl
@[simp] theorem State.modHdm_hdms (s : State) (m : Nat) (f : Hdm → Hdm) : (s.modHdm m f).hdms = vmod s.hdms m f := rfl
@[simp] theorem State.modHdm_hdg (s : State) (m : Nat) (f : Hdm → Hdm) : (s.modHdm m f).hdg = s.hdg := by unfold State.modHdm; rfl
@[simp] theorem State.modHdm_vis (s : State) (m : Nat) (f : Hdm → Hdm) : (s.modHdm m f).vis = s.vis := by unfold State.modHdm; rfl
@[simp] theorem State.modHdm_che (s : State) (m : Nat) (f : Hdm → Hdm) : (s.modHdm m f).che = s.che := by unfold State.modHdm; rfl
@[simp] theorem State.modHdm_mir (s : State) (m : Nat) (f : Hdm → Hdm) : (s.modHdm m f).mir = s.mir := by unfold State.modHdm; rfl
@[simp] theorem State.modHdm_therm (s : State) (m : Nat) (f : Hdm → Hdm) : (s.modHdm m f).therm = s.therm := by unfold State.modHdm; rfl
@[simp] theorem State.modHdm_aonDiodes (s : State) (m : Nat) (f : Hdm → Hdm) : (s.modHdm m f).aonDiodes = s.aonDiodes := by unfold State.modHdm; rfl
@[simp] theorem State.modHdm_fireEn (s : State) (m : Nat) (f : Hdm → Hdm) : (s.modHdm m f).fireEn = s.fireEn := by unfold State.modHdm; rfl

@[simp] theorem State.modCam_pending (s : State) (p : Nat) (f : Cam → Cam) : (s.modCam p f).pending = s.pending := by unfold State.modCam; rfl
@[simp] theorem State.modCam_tick (s : State) (p : Nat) (f : Cam → Cam) : (s.modCam p f).tick = s.tick := by unfold State.modCam; rfl
@[simp] theorem State.modCam_fresh (s : State) (p : Nat) (f : Cam → Cam) : (s.modCam p f).fresh = s.fresh := by unfold State.modCam; rfl
@[simp] theorem State.modCam_sent (s : State) (p : Nat) (f : Cam → Cam) : (s.modCam p f).sent = s.sent := by unfold State.modCam; rfl
@[simp] theorem State.modCam_fuses (s : State) (p : Nat) (f : Cam → Cam) : (s.modCam p f).fuses = s.fuses := by unfold State.modCam; rfl
@[simp] theorem State.modCam_objs (s : State) (p : Nat) (f : Cam → Cam) : (s.modCam p f).objs = s.objs := by unfold State.modCam; rfl
@[simp] theorem State.modCam_pwr (s : State) (p : Nat) (f : Cam → Cam) : (s.modCam p f).pwr = s.pwr := by unfold State.modCam; rfl
@[simp] theorem State.modCam_flt (s : State) (p : Nat) (f : Cam → Cam) : (s.modCam p f).flt = s.flt := by unfold State.modCam; rfl
@[simp] theorem State.modCam_bbx (s : State) (p : Nat) (f : Cam → Cam) : (s.modCam p f).bbx = s.bbx := by unfold State.modCam; rfl
@[simp] theorem State.modCam_wilwa (s : State) (p : Nat) (f : Cam → Cam) : (s.modCam p f).wilwa = s.wilwa := by unfold State.modCam; rfl
@[simp] theorem State.modCam_nonVol (s : State) (p : Nat) (f : Cam → Cam) : (s.modCam p f).nonVol = s.nonVol := by unfold State.modCam; rfl
@[simp] theorem State.modCam_net (s : State) (p : Nat) (f : Cam → Cam) : (s.modCam p f).net = s.net := by unfold State.modCam; rfl
@[simp] theorem State.modCam_tim (s : State) (p : Nat) (f : Cam → Cam) : (s.modCam p f).tim = s.tim := by unfold State.modCam; rfl
@[simp] theorem State.modCam_rin (s : State) (p : Nat) (f : Cam → Cam) : (s.modCam p f).rin = s.rin := by unfold State.modCam; rfl
@[simp] theorem State.modCam_fet (s : State) (p : Nat) (f : Cam → Cam) : (s.modCam p f).fet = s.fet := by unfold State.modCam; rfl
@[simp] theorem State.modCam_mem (s : State) (p : Nat) (f : Cam → Cam) : (s.modCam p f).mem = s.mem := by unfold State.modCam; rfl
@[simp] theorem State.modCam_dram (s : State) (p : Nat) (f : Cam → Cam) : (s.modCam p f).dram = s.dram := by unfold State.modCam; rfl
@[simp] theorem State.modCam_pos (s : State) (p : Nat) (f : Cam → Cam) : (s.modCam p f).pos = s.pos := by unfold State.modCam; rfl
@[simp] theorem State.modCam_lcg (s : State) (p : Nat) (f : Cam → Cam) : (s.modCam p f).lcg = s.lcg := by unfold State.modCam; rfl
@[simp] theorem State.modCam_cmp (s : State) (p : Nat) (f : Cam → Cam) : (s.modCam p f).cmp = s.cmp := by unfold State.modCam; rfl
@[simp] theorem State.modCam_sne (s : State) (p : Nat) (f : Cam → Cam) : (s.modCam p f).sne = s.sne := by unfold State.modCam; rfl
@[simp] theorem State.modCam_fsq (s : State) (p : Nat) (f : Cam → Cam) : (s.modCam p f).fsq = s.fsq := by unfold State.modCam; rfl
@[simp] theorem State.modCam_hlk (s : State) (p : Nat) (f : Cam → Cam) : (s.modCam p f).hlk = s.hlk := by unfold State.modCam; rfl
@[simp] theorem State.modCam_hdms (s : State) (p : Nat) (f : Cam → Cam) : (s.modCam p f).hdms = s.hdms := by unfold State.modCam; rfl
@[simp] theorem State.modCam_hdg (s : State) (p : Nat) (f : Cam → Cam) : (s.modCam p f).hdg = s.hdg := by unfold State.modCam; rfl
@[simp] theorem State.modCam_che (s : State) (p : Nat) (f : Cam → Cam) : (s.modCam p f).che = s.che := by unfold State.modCam; rfl
@[simp] theorem State.modCam_mir (s : State) (p : Nat) (f : Cam → Cam) : (s.modCam p f).mir = s.mir := by unfold State.modCam; rfl
@[simp] theorem State.modCam_therm (s : State) (p : Nat) (f : Cam → Cam) : (s.modCam p f).therm = s.therm := by unfold State.modCam; rfl
@[simp] theorem State.modCam_aonDiodes (s : State) (p : Nat) (f : Cam → Cam) : (s.modCam p f).aonDiodes = s.aonDiodes := by unfold State.modCam; rfl
@[simp] theorem State.modCam_fireEn (s : State) (p : Nat) (f : Cam → Cam) : (s.modCam p f).fireEn = s.fireEn := by unfold State.modCam; rfl

@[simp] theorem State.modChe_pending (s : State) (b : Nat) (f : CheBar → CheBar) : (s.modChe b f).pending = s.pending := by unfold State.modChe; rfl
@[simp] theorem State.modChe_tick (s : State) (b : Nat) (f : CheBar → CheBar) : (s.modChe b f).tick = s.tick := by unfold State.modChe; rfl
@[simp] theorem State.modChe_fresh (s : State) (b : Nat) (f : CheBar → CheBar) : (s.modChe b f).fresh = s.fresh := by unfold State.modChe; rfl
@[simp] theorem State.modChe_sent (s : State) (b : Nat) (f : CheBar → CheBar) : (s.modChe b f).sent = s.sent := by unfold State.modChe; rfl
@[simp] theorem State.modChe_fuses (s : State) (b : Nat) (f : CheBar → CheBar) : (s.modChe b f).fuses = s.fuses := by unfold State.modChe; rfl
@[simp] theorem State.modChe_objs (s : State) (b : Nat) (f : CheBar → CheBar) : (s.modChe b f).objs = s.objs := by unfold State.modChe; rfl
@[simp] theorem State.modChe_pwr (s : State) (b : Nat) (f : CheBar → CheBar) : (s.modChe b f).pwr = s.pwr := by unfold State.modChe; rfl
@[simp] theorem State.modChe_flt (s : State) (b : Nat) (f : CheBar → CheBar) : (s.modChe b f).flt = s.flt := by unfold State.modChe; rfl
@[simp] theorem State.modChe_bbx (s : State) (b : Nat) (f : CheBar → CheBar) : (s.modChe b f).bbx = s.bbx := by unfold State.modChe; rfl
@[simp] theorem State.modChe_wilwa (s : State) (b : Nat) (f : CheBar → CheBar) : (s.modChe b f).wilwa = s.wilwa := by unfold State.modChe; rfl
@[simp] theorem State.modChe_nonVol (s : State) (b : Nat) (f : CheBar → CheBar) : (s.modChe b f).nonVol = s.nonVol := by unfold State.modChe; rfl
@[simp] theorem State.modChe_net (s : State) (b : Nat) (f : CheBar → CheBar) : (s.modChe b f).net = s.net := by unfold State.modChe; rfl
@[simp] theorem State.modChe_tim (s : State) (b : Nat) (f : CheBar → CheBar) : (s.modChe b f).tim = s.tim := by unfold State.modChe; rfl
@[simp] theorem State.modChe_rin (s : State) (b : Nat) (f : CheBar → CheBar) : (s.modChe b f).rin = s.rin := by unfold State.modChe; rfl
@[simp] theorem State.modChe_fet (s : State) (b : Nat) (f : CheBar → CheBar) : (s.modChe b f).fet = s.fet := by unfold State.modChe; rfl
@[simp] theorem State.modChe_mem (s : State) (b : Nat) (f : CheBar → CheBar) : (s.modChe b f).mem = s.mem := by unfold State.modChe; rfl
@[simp] theorem State.modChe_dram (s : State) (b : Nat) (f : CheBar → CheBar) : (s.modChe b f).dram = s.dram := by unfold State.modChe; rfl
@[simp] theorem State.modChe_pos (s : State) (b : Nat) (f : CheBar → CheBar) : (s.modChe b f).pos = s.pos := by unfold State.modChe; rfl
@[simp] theorem State.modChe_lcg (s : State) (b : Nat) (f : CheBar → CheBar) : (s.modChe b f).lcg = s.lcg := by unfold State.modChe; rfl
@[simp] theorem State.modChe_cmp (s : State) (b : Nat) (f : CheBar → CheBar) : (s.modChe b f).cmp = s.cmp := by unfold State.modChe; rfl
@[simp] theorem State.modChe_sne (s : State) (b : Nat) (f : CheBar → CheBar) : (s.modChe b f).sne = s.sne := by unfold State.modChe; rfl
@[simp] theorem State.modChe_fsq (s : State) (b : Nat) (f : CheBar → CheBar) : (s.modChe b f).fsq = s.fsq := by unfold State.modChe; rfl
@[simp] theorem State.modChe_hlk (s : State) (b : Nat) (f : CheBar → CheBar) : (s.modChe b f).hlk = s.hlk := by unfold State.modChe; rfl
@[simp] theorem State.modChe_hdms (s : State) (b : Nat) (f : CheBar → CheBar) : (s.modChe b f).hdms = s.hdms := by unfold State.modChe; rfl
@[simp] theorem State.modChe_hdg (s : State) (b : Nat) (f : CheBar → CheBar) : (s.modChe b f).hdg = s.hdg := by unfold State.modChe; rfl
@[simp] theorem State.modChe_vis (s : State) (b : Nat) (f : CheBar → CheBar) : (s.modChe b f).vis = s.vis := by unfold State.modChe; rfl
@[simp] theorem State.modChe_che (s : State) (b : Nat) (f : CheBar → CheBar) : (s.modChe b f).che = { s.che with bars := vmod s.che.bars b f } := rfl
@[simp] theorem State.modChe_mir (s : State) (b : Nat) (f : CheBar → CheBar) : (s.modChe b f).mir = s.mir := by unfold State.modChe; rfl
@[simp] theorem State.modChe_therm (s : State) (b : Nat) (f : CheBar → CheBar) : (s.modChe b f).therm = s.therm := by unfold State.modChe; rfl
@[simp] theorem State.modChe_aonDiodes (s : State) (b : Nat) (f : CheBar → CheBar) : (s.modChe b f).aonDiodes = s.aonDiodes := by unfold State.modChe; rfl
@[simp] theorem State.modChe_fireEn (s : State) (b : Nat) (f : CheBar → CheBar) : (s.modChe b f).fireEn = s.fireEn := by unfold State.modChe; rfl

@[simp] theorem State.modMir_pending (s : State) (f : Mir → Mir) : (s.modMir f).pending = s.pending := rfl
@[simp] theorem State.modMir_tick (s : State) (f : Mir → Mir) : (s.modMir f).tick = s.tick := rfl
@[simp] theorem State.modMir_fresh (s : State) (f : Mir → Mir) : (s.modMir f).fresh = s.fresh := rfl
@[simp] theorem State.modMir_sent (s : State) (f : Mir → Mir) : (s.modMir f).sent = s.sent := rfl
@[simp] theorem State.modMir_fuses (s : State) (f : Mir → Mir) : (s.modMir f).fuses = s.fuses := rfl
@[simp] theorem State.modMir_objs (s : State) (f : Mir → Mir) : (s.modMir f).objs = s.objs := rfl
@[simp] theorem State.modMir_pwr (s : State) (f : Mir → Mir) : (s.modMir f).pwr = s.pwr := rfl
@[simp] theorem State.modMir_flt (s : State) (f : Mir → Mir) : (s.modMir f).flt = s.flt := rfl
@[simp] theorem State.modMir_bbx (s : State) (f : Mir → Mir) : (s.modMir f).bbx = s.bbx := rfl
@[simp] theorem State.modMir_wilwa (s : State) (f : Mir → Mir) : (s.modMir f).wilwa = s.wilwa := rfl
@[simp] theorem State.modMir_nonVol (s : State) (f : Mir → Mir) : (s.modMir f).nonVol = s.nonVol := rfl
@[simp] theorem State.modMir_net (s : State) (f : Mir → Mir) : (s.modMir f).net = s.net := rfl
@[simp] theorem State.modMir_tim (s : State) (f : Mir → Mir) : (s.modMir f).tim = s.tim := rfl
@[simp] theorem State.modMir_rin (s : State) (f : Mir → Mir) : (s.modMir f).rin = s.rin := rfl
@[simp] theorem State.modMir_fet (s : State) (f : Mir → Mir) : (s.modMir f).fet = s.fet := rfl
@[simp] theorem State.modMir_mem (s : State) (f : Mir → Mir) : (s.modMir f).mem = s.mem := rfl
@[simp] theorem State.modMir_dram (s : State) (f : Mir → Mir) : (s.modMir f).dram = s.dram := rfl
@[simp] theorem State.modMir_pos (s : State) (f : Mir → Mir) : (s.modMir f).pos = s.pos := rfl
@[simp] theorem State.modMir_lcg (s : State) (f : Mir → Mir) : (s.modMir f).lcg = s.lcg := rfl
@[simp] theorem State.modMir_cmp (s : State) (f : Mir → Mir) : (s.modMir f).cmp = s.cmp := rfl
@[simp] theorem State.modMir_sne (s : State) (f : Mir → Mir) : (s.modMir f).sne = s.sne := rfl
@[simp] theorem State.modMir_fsq (s : State) (f : Mir → Mir) : (s.modMir f).fsq = s.fsq := rfl
@[simp] theorem State.modMir_hlk (s : State) (f : Mir → Mir) : (s.modMir f).hlk = s.hlk := rfl
@[simp] theorem State.modMir_hdms (s : State) (f : Mir → Mir) : (s.modMir f).hdms = s.hdms := rfl
@[simp] theorem State.modMir_hdg (s : State) (f : Mir → Mir) : (s.modMir f).hdg = s.hdg := rfl
@[simp] theorem State.modMir_vis (s : State) (f : Mir → Mir) : (s.modMir f).vis = s.vis := rfl
@[simp] theorem State.modMir_che (s : State) (f : Mir → Mir) : (s.modMir f).che = s.che := rfl
@[simp] theorem State.modMir_mir (s : State) (f : Mir → Mir) : (s.modMir f).mir = f s.mir := rfl
@[simp] theorem State.modMir_therm (s : State) (f : Mir → Mir) : (s.modMir f).therm = s.therm := rfl
@[simp] theorem State.modMir_aonDiodes (s : State) (f : Mir → Mir) : (s.modMir f).aonDiodes = s.aonDiodes := rfl
@[simp] theorem State.modMir_fireEn (s : State) (f : Mir → Mir) : (s.modMir f).fireEn = s.fireEn := rfl

@[simp] theorem State.modTherm_pending (s : State) (f : Therm → Therm) : (s.modTherm f).pending = s.pending := rfl
@[simp] theorem State.modTherm_tick (s : State) (f : Therm → Therm) : (s.modTherm f).tick = s.tick := rfl
@[simp] theorem State.modTherm_fresh (s : State) (f : Therm → Therm) : (s.modTherm f).fresh = s.fresh := rfl
@[simp] theorem State.modTherm_sent (s : State) (f : Therm → Therm) : (s.modTherm f).sent = s.sent := rfl
@[simp] theorem State.modTherm_fuses (s : State) (f : Therm → Therm) : (s.modTherm f).fuses = s.fuses := rfl
@[simp] theorem State.modTherm_objs (s : State) (f : Therm → Therm) : (s.modTherm f).objs = s.objs := rfl
@[simp] theorem State.modTherm_pwr (s : State) (f : Therm → Therm) : (s.modTherm f).pwr = s.pwr := rfl
@[simp] theorem State.modTherm_flt (s : State) (f : Therm → Therm) : (s.modTherm f).flt = s.flt := rfl
@[simp] theorem State.modTherm_bbx (s : State) (f : Therm → Therm) : (s.modTherm f).bbx = s.bbx := rfl
@[simp] theorem State.modTherm_wilwa (s : State) (f : Therm → Therm) : (s.modTherm f).wilwa = s.wilwa := rfl
@[simp] theorem State.modTherm_nonVol (s : State) (f : Therm → Therm) : (s.modTherm f).nonVol = s.nonVol := rfl
@[simp] theorem State.modTherm_net (s : State) (f : Therm → Therm) : (s.modTherm f).net = s.net := rfl
@[simp] theorem State.modTherm_tim (s : State) (f : Therm → Therm) : (s.modTherm f).tim = s.tim := rfl
@[simp] theorem State.modTherm_rin (s : State) (f : Therm → Therm) : (s.modTherm f).rin = s.rin := rfl
@[simp] theorem State.modTherm_fet (s : State) (f : Therm → Therm) : (s.modTherm f).fet = s.fet := rfl
@[simp] theorem State.modTherm_mem (s : State) (f : Therm → Therm) : (s.modTherm f).mem = s.mem := rfl
@[simp] theorem State.modTherm_dram (s : State) (f : Therm → Therm) : (s.modTherm f).dram = s.dram := rfl
@[simp] theorem State.modTherm_pos (s : State) (f : Therm → Therm) : (s.modTherm f).pos = s.pos := rfl
@[simp] theorem State.modTherm_lcg (s : State) (f : Therm → Therm) : (s.modTherm f).lcg = s.lcg := rfl
@[simp] theorem State.modTherm_cmp (s : State) (f : Therm → Therm) : (s.modTherm f).cmp = s.cmp := rfl
@[simp] theorem State.modTherm_sne (s : State) (f : Therm → Therm) : (s.modTherm f).sne = s.sne := rfl
@[simp] theorem State.modTherm_fsq (s : State) (f : Therm → Therm) : (s.modTherm f).fsq = s.fsq := rfl
@[simp] theorem State.modTherm_hlk (s : State) (f : Therm → Therm) : (s.modTherm f).hlk = s.hlk := rfl
@[simp] theorem State.modTherm_hdms (s : State) (f : Therm → Therm) : (s.modTherm f).hdms = s.hdms := rfl
@[simp] theorem State.modTherm_hdg (s : State) (f : Therm → Therm) : (s.modTherm f).hdg = s.hdg := rfl
@[simp] theorem State.modTherm_vis (s : State) (f : Therm → Therm) : (s.modTherm f).vis = s.vis := rfl
@[simp] theorem State.modTherm_che (s : State) (f : Therm → Therm) : (s.modTherm f).che = s.che := rfl
@[simp] theorem State.modTherm_mir (s : State) (f : Therm → Therm) : (s.modTherm f).mir = s.mir := rfl
@[simp] theorem State.modTherm_therm (s : State) (f : Therm → Therm) : (s.modTherm f).therm = f s.therm := rfl
@[simp] theorem State.modTherm_aonDiodes (s : State) (f : Therm → Therm) : (s.modTherm f).aonDiodes = s.aonDiodes := rfl
@[simp] theorem State.modTherm_fireEn (s : State) (f : Therm → Therm) : (s.modTherm f).fireEn = s.fireEn := rfl

end Sys2Proof.Machine
end

