-- ==== Sys2Proof/Laws/Tables.lean ====
section
/-! SUPPORT. Tables: fixed-length ones by index, sparse ones by key, the DRAM cells, and the objects of the dictionary. -/

set_option Elab.async false

namespace Sys2Proof.Machine

/-! Fixed-length tables. -/

theorem vget_eq_getElem {α : Type} {n : Nat} (v : Vector α n) (d : α) {i : Nat} (h : i < n) : vget v i d = v[i] := by
  simp [vget, List.getD, h]

theorem vget_of_ge {α : Type} {n : Nat} (v : Vector α n) (d : α) {i : Nat} (h : n ≤ i) : vget v i d = d := by
  simp [vget, List.getD, h]

theorem vget_vmod_self {α : Type} {n : Nat} (v : Vector α n) (f : α → α) (d : α) {i : Nat} (h : i < n) :
    vget (vmod v i f) i d = f (vget v i d) := by
  rw [vget_eq_getElem _ _ h, vget_eq_getElem _ _ h]; simp [vmod]

theorem vget_vmod_ne {α : Type} {n : Nat} (v : Vector α n) (f : α → α) (d : α) {i j : Nat} (h : j ≠ i) :
    vget (vmod v i f) j d = vget v j d := by
  rcases Nat.lt_or_ge j n with hj | hj
  · rw [vget_eq_getElem _ _ hj, vget_eq_getElem _ _ hj]; simp [vmod, h]
  · rw [vget_of_ge _ _ hj, vget_of_ge _ _ hj]

/-! Sparse tables. -/

@[simp] theorem kvGet_kvPut_self {α : Type} (l : List (Nat × α)) (q : Nat) (v : α) : kvGet (kvPut l q v) q = some v := by
  induction l with
  | nil => simp [kvPut, kvGet]
  | cons e t ih =>
    obtain ⟨k, x⟩ := e
    simp only [kvPut]
    split
    · simp [kvGet]
    · split
      · simp [kvGet]
      · rename_i h
        simp [kvGet, ih, Ne.symm h]

theorem kvGet_kvPut_ne {α : Type} (l : List (Nat × α)) {q r : Nat} (v : α) (h : r ≠ q) :
    kvGet (kvPut l q v) r = kvGet l r := by
  induction l with
  | nil => simp [kvPut, kvGet, h.symm]
  | cons e t ih =>
    obtain ⟨k, x⟩ := e
    simp only [kvPut]
    split
    · simp [kvGet, h.symm]
    · split
      · rename_i hk; subst hk; simp [kvGet, h.symm]
      · simp [kvGet, ih]

@[simp] theorem kvGet_kvDel_self {α : Type} (l : List (Nat × α)) (q : Nat) : kvGet (kvDel l q) q = none := by
  induction l with
  | nil => rfl
  | cons e t ih =>
    obtain ⟨k, x⟩ := e
    simp only [kvDel]
    split <;> simp_all [kvGet]

theorem kvGet_kvDel_ne {α : Type} (l : List (Nat × α)) {q r : Nat} (h : r ≠ q) : kvGet (kvDel l q) r = kvGet l r := by
  induction l with
  | nil => rfl
  | cons e t ih =>
    obtain ⟨k, x⟩ := e
    simp only [kvDel]
    split
    · rename_i hk; subst hk; simp [kvGet, h.symm, ih]
    · simp [kvGet, ih]

/-- A key set to a value reads it, where an unlisted key reads the default. -/
@[simp] theorem kvGet_kvSet_self {α : Type} [DecidableEq α] (l : List (Nat × α)) (d : α) (q : Nat) (v : α) :
    (kvGet (kvSet l d q v) q).getD d = v := by
  unfold kvSet
  split
  · simp [*]
  · simp

theorem kvGet_kvSet_ne {α : Type} [DecidableEq α] (l : List (Nat × α)) (d : α) {q r : Nat} (v : α) (h : r ≠ q) :
    kvGet (kvSet l d q v) r = kvGet l r := by
  unfold kvSet
  split
  · exact kvGet_kvDel_ne l h
  · exact kvGet_kvPut_ne l v h

/-- Entries taken out by their key leave the others as they were. -/
theorem kvGet_filter {α : Type} (l : List (Nat × α)) (p : Nat → Bool) (q : Nat) :
    kvGet (l.filter fun e => p e.1) q = if p q then kvGet l q else none := by
  induction l with
  | nil => simp [kvGet]
  | cons e t ih =>
    obtain ⟨k, x⟩ := e
    by_cases hk : k = q
    · subst hk
      by_cases hp : p k <;> simp [kvGet, hp, ih]
    · by_cases hp : p k <;> simp [kvGet, hp, hk, ih]

theorem kvAbove_kvPut {α : Type} (l : List (Nat × α)) {a q : Nat} (v : α) (h : kvAbove a l = true) (hq : a < q) :
    kvAbove a (kvPut l q v) = true := by
  induction l with
  | nil => simp [kvPut, kvAbove, hq]
  | cons e t ih =>
    obtain ⟨k, x⟩ := e
    simp only [kvAbove, Bool.and_eq_true, decide_eq_true_eq] at h
    simp only [kvPut]
    split
    · simp [kvAbove, hq, h]
    · split
      · simp [kvAbove, hq, h]
      · simp [kvAbove, h, ih h.2]

theorem kvAbove_trans {α : Type} (l : List (Nat × α)) {a b : Nat} (h : kvAbove b l = true) (hab : a < b) : kvAbove a l = true := by
  induction l with
  | nil => rfl
  | cons e t ih =>
    obtain ⟨k, x⟩ := e
    simp only [kvAbove, Bool.and_eq_true, decide_eq_true_eq] at h ⊢
    exact ⟨by omega, ih h.2⟩

theorem kvSorted_kvPut {α : Type} (l : List (Nat × α)) (q : Nat) (v : α) (h : kvSorted l = true) :
    kvSorted (kvPut l q v) = true := by
  induction l with
  | nil => rfl
  | cons e t ih =>
    obtain ⟨k, x⟩ := e
    simp only [kvSorted, Bool.and_eq_true] at h
    simp only [kvPut]
    split
    · rename_i hq; simp [kvSorted, kvAbove, h, hq, kvAbove_trans t h.1 hq]
    · split
      · rename_i hk; subst hk; simp [kvSorted, h]
      · have hq : k < q := by omega
        simp [kvSorted, ih h.2, kvAbove_kvPut t v h.1 hq]

theorem kvAbove_filter {α : Type} (l : List (Nat × α)) (p : Nat × α → Bool) {a : Nat} (h : kvAbove a l = true) :
    kvAbove a (l.filter p) = true := by
  induction l with
  | nil => rfl
  | cons e t ih =>
    obtain ⟨k, x⟩ := e
    simp only [kvAbove, Bool.and_eq_true, decide_eq_true_eq] at h
    by_cases hp : p (k, x) <;> simp [kvAbove, hp, h, ih h.2]

theorem kvSorted_filter {α : Type} (l : List (Nat × α)) (p : Nat × α → Bool) (h : kvSorted l = true) :
    kvSorted (l.filter p) = true := by
  induction l with
  | nil => rfl
  | cons e t ih =>
    obtain ⟨k, x⟩ := e
    simp only [kvSorted, Bool.and_eq_true] at h
    by_cases hp : p (k, x) <;> simp [kvSorted, hp, kvAbove_filter t p h.1, ih h.2]

theorem kvDel_eq_filter {α : Type} (l : List (Nat × α)) (q : Nat) : kvDel l q = l.filter fun e => e.1 != q := by
  induction l with
  | nil => rfl
  | cons e t ih =>
    obtain ⟨k, x⟩ := e
    by_cases hk : k = q <;> simp [kvDel, hk, ih]

theorem kvSorted_kvSet {α : Type} [DecidableEq α] (l : List (Nat × α)) (d : α) (q : Nat) (v : α) (h : kvSorted l = true) :
    kvSorted (kvSet l d q v) = true := by
  unfold kvSet
  split
  · rw [kvDel_eq_filter]; exact kvSorted_filter l _ h
  · exact kvSorted_kvPut l q v h

theorem mem_kvPut {α : Type} (l : List (Nat × α)) (q : Nat) (v : α) {e : Nat × α} (h : e ∈ kvPut l q v) : e = (q, v) ∨ e ∈ l := by
  induction l with
  | nil => simpa [kvPut] using h
  | cons y t ih =>
    obtain ⟨k, x⟩ := y
    simp only [kvPut] at h
    split at h
    · simpa using h
    · split at h
      · rcases List.mem_cons.mp h with h | h
        · exact .inl h
        · exact .inr (List.mem_cons_of_mem _ h)
      · rcases List.mem_cons.mp h with h | h
        · exact .inr (by simp [h])
        · rcases ih h with h | h
          · exact .inl h
          · exact .inr (List.mem_cons_of_mem _ h)

/-! The DRAM cells (R138). -/

theorem readCell_writeCell_self (m : List Host.Cell) (a : Nat) (v : Byte) : readCell (writeCell m a v) a = v := by
  simp [readCell, writeCell]

theorem readCell_writeCell_ne (m : List Host.Cell) {a b : Nat} (v : Byte) (h : b ≠ a) :
    readCell (writeCell m a v) b = readCell m b := by
  simp [readCell, writeCell, kvGet_kvSet_ne _ _ _ h]

theorem Memory.wf_nil : Memory.wf [] = true := rfl

theorem Memory.wf_filter (m : List Host.Cell) (p : Host.Cell → Bool) (h : Memory.wf m = true) : Memory.wf (m.filter p) = true := by
  simp only [Memory.wf, Bool.and_eq_true, List.all_eq_true] at h ⊢
  exact ⟨kvSorted_filter m p h.1, fun e he => h.2 e ((List.mem_filter.mp he).1)⟩

theorem Memory.wf_writeCell (m : List Host.Cell) (a : Nat) (v : Byte) (h : Memory.wf m = true) :
    Memory.wf (writeCell m a v) = true := by
  simp only [Memory.wf, Bool.and_eq_true, List.all_eq_true] at h ⊢
  refine ⟨kvSorted_kvSet m 0 a v h.1, fun e he => ?_⟩
  unfold writeCell kvSet at he
  split at he
  · rw [kvDel_eq_filter] at he
    exact h.2 e ((List.mem_filter.mp he).1)
  · rename_i hv
    rcases mem_kvPut m a v he with rfl | he
    · simpa using hv
    · exact h.2 e he

theorem Memory.wf_writeCells (b : Bytes) (m : List Host.Cell) (a : Nat) (h : Memory.wf m = true) :
    Memory.wf (writeCells m a b) = true := by
  induction b generalizing m a with
  | nil => simpa [writeCells] using h
  | cons x t ih => exact ih _ _ (Memory.wf_writeCell m a x h)

/-! The objects of the dictionary (R70). -/

theorem key_inj {i j i' j' : Nat} (hj : j < 256) (hj' : j' < 256) (h : key i j = key i' j') : i = i' ∧ j = j' := by
  unfold key at h; omega

/-- An object set to a value reads it. -/
@[simp] theorem State.obj_setObj_self (s : State) (i j : Nat) (v : Val) : (s.setObj i j v).obj i j = v := by
  simp [State.obj, State.setObj]

/-- An object set to a value leaves every other object alone. -/
theorem State.obj_setObj_ne (s : State) (v : Val) {i j i' j' : Nat} (h : key i' j' ≠ key i j) :
    (s.setObj i j v).obj i' j' = s.obj i' j' := by
  simp [State.obj, State.setObj, kvGet_kvSet_ne _ _ _ h]

@[simp] theorem State.num_setNum_self (s : State) (i j n : Nat) : (s.setNum i j n).num i j = n := by
  simp [State.num, State.setNum, Val.toNum]

@[simp] theorem State.num_setObj_self (s : State) (i j : Nat) (v : Val) : (s.setObj i j v).num i j = v.toNum := by
  simp [State.num]

theorem State.num_setObj_ne (s : State) (v : Val) {i j i' j' : Nat} (h : key i' j' ≠ key i j) :
    (s.setObj i j v).num i' j' = s.num i' j' := by
  simp [State.num, State.obj_setObj_ne s v h]

theorem State.num_setNum_ne (s : State) (n : Nat) {i j i' j' : Nat} (h : key i' j' ≠ key i j) :
    (s.setNum i j n).num i' j' = s.num i' j' := State.num_setObj_ne s (.num n) h

@[simp] theorem State.num_addNum_self (s : State) (i j n : Nat) :
    (s.addNum i j n).num i j = (s.num i j + n) % 2 ^ objWidth i j := by
  simp [State.addNum]

@[simp] theorem State.num_bump_self (s : State) (i j : Nat) : (s.bump i j).num i j = (s.num i j + 1) % 2 ^ objWidth i j := by
  simp [State.bump]

theorem State.num_bump_ne (s : State) {i j i' j' : Nat} (h : key i' j' ≠ key i j) : (s.bump i j).num i' j' = s.num i' j' :=
  State.num_setNum_ne s _ h

/-- An object depends on the listed objects alone. -/
theorem State.obj_congr {s t : State} (h : t.objs = s.objs) (i j : Nat) : t.obj i j = s.obj i j := by
  simp [State.obj, h]

theorem State.num_congr {s t : State} (h : t.objs = s.objs) (i j : Nat) : t.num i j = s.num i j := by
  simp [State.num, State.obj_congr h]

end Sys2Proof.Machine
end

