-- ==== Sys2Proof/Laws/Moves.lean ====
section
/-! SUPPORT. What a function on the state may do, said once: the parts it may change, and that it keeps what every step keeps. The
lemmas of Laws/Frames say it of each function. -/

set_option Elab.async false

namespace Sys2Proof.Machine

/-- From `s` to `t` only the parts `ps` may change; DRAM stays canonical, objects stay in order, and at most one open session
holds a level (R60, R65). -/
structure Keeps (ps : List StatePart) (s t : State) : Prop where
  only : Only ps s t
  dram : s.DramOk → t.DramOk
  objs : s.ObjsOk → t.ObjsOk
  seats : s.SeatsOk → t.SeatsOk

/-- And every level held after is held before: what every function does but the grant of a level (R66). -/
structure Moves (ps : List StatePart) (s t : State) : Prop extends Keeps ps s t where
  levels : s.LevelsFrom t

/-- The same of a function that also answers a value. -/
def MovesP {α : Type} (ps : List StatePart) (s : State) (p : α × State) : Prop := Moves ps s p.2
/-- The same of a read that has its own meaning for some objects. -/
def MovesQ {α : Type} (ps : List StatePart) (s : State) : Option (α × State) → Prop
  | some p => Moves ps s p.2
  | none => True
/-- The same of a function that may refuse with a code. -/
def MovesE (ps : List StatePart) (s : State) : Except Nat State → Prop
  | .ok t => Moves ps s t
  | .error _ => True
/-- The same of a read that may refuse with a code. -/
def MovesF {α : Type} (ps : List StatePart) (s : State) : Except Nat (α × State) → Prop
  | .ok p => Moves ps s p.2
  | .error _ => True
/-- The same of a hook. -/
def MovesH (ps : List StatePart) (s : State) : Option (Except Nat State) → Prop
  | some r => MovesE ps s r
  | none => True
/-- The same of a function that may give nothing. -/
def MovesS (ps : List StatePart) (s : State) : Option State → Prop
  | some t => Moves ps s t
  | none => True
/-- The same of an answer to a request. -/
def MovesA (ps : List StatePart) (s : State) (a : Answer) : Prop := Moves ps s a.state
/-- The same of the admission of a datagram. -/
def MovesD (ps : List StatePart) (s : State) : Admission → Prop
  | .dropped t => Moves ps s t
  | .session _ t => Moves ps s t
/-- The same of a command. -/
def MovesO (ps : List StatePart) (s : State) : Host.Outcome State Fault Refusal → Prop
  | .next t => Moves ps s t
  | _ => True

variable {ps qs : List StatePart} {s t u v : State}

theorem Only.trans (h : Only ps s t) (k : Only ps t u) : Only ps s u := by
  intro p hp
  have a := h p hp
  have b := k p hp
  cases p <;> exact Eq.trans b a

theorem Only.mono (h : Only qs s t) (hq : ∀ p ∈ qs, p ∈ ps) : Only ps s t := fun p hp => h p fun k => hp (hq p k)

theorem Keeps.refl : Keeps ps s s := ⟨fun p _ => by cases p <;> rfl, id, id, id⟩

theorem Moves.refl : Moves ps s s := ⟨.refl, fun _ h _ => h⟩

theorem Keeps.after (h : Keeps qs u v) (k : Keeps ps s u) (hq : ∀ p ∈ qs, p ∈ ps := by decide) : Keeps ps s v :=
  ⟨k.only.trans (h.only.mono hq), fun d => h.dram (k.dram d), fun d => h.objs (k.objs d), fun d => h.seats (k.seats d)⟩

/-- A function with a lemma of its own, applied to a state that has been reached. -/
theorem Moves.after (h : Moves qs u v) (k : Moves ps s u) (hq : ∀ p ∈ qs, p ∈ ps := by decide) : Moves ps s v :=
  ⟨.after h.toKeeps k.toKeeps hq, fun p hp hl => k.levels p (h.levels p hp hl) hl⟩

theorem Moves.mono (h : Moves qs s t) (hq : ∀ p ∈ qs, p ∈ ps := by decide) : Moves ps s t := .after h .refl hq

theorem Moves.ite {c : Prop} [Decidable c] (hu : Moves ps s u) (hv : Moves ps s v) : Moves ps s (if c then u else v) := by
  split <;> assumption

/-- An update of parts of which no condition speaks. -/
theorem Moves.plain (k : Moves ps s u) (h : Only ps u v) (ho : v.objs = u.objs := by rfl) (hd : v.dram = u.dram := by rfl)
    (hs : v.wilwa.sessions = u.wilwa.sessions := by rfl) : Moves ps s v := by
  refine Moves.after (qs := ps) ⟨⟨h, ?_, ?_, ?_⟩, ?_⟩ k (fun p hp => hp)
  · intro d; unfold State.DramOk at *; rw [hd]; exact d
  · intro d; unfold State.ObjsOk at *; rw [ho]; exact d
  · intro d; unfold State.SeatsOk State.seats State.openSessions at *; rw [hs]; exact d
  · intro p hp _; unfold State.seats State.openSessions at *; rw [hs] at hp; exact hp

theorem State.seatsOk_nil (h : s.seats = []) : s.SeatsOk := by
  unfold State.SeatsOk
  rw [h]
  decide

/-- An update that closes every session. -/
theorem Moves.plainSeats (k : Moves ps s u) (h : Only ps u v) (hs : v.seats = []) (ho : v.objs = u.objs := by rfl)
    (hd : v.dram = u.dram := by rfl) : Moves ps s v := by
  refine Moves.after (qs := ps) ⟨⟨h, ?_, ?_, fun _ => State.seatsOk_nil hs⟩, fun p hp => by rw [hs] at hp; cases hp⟩ k (fun p hp => hp)
  · intro d; unfold State.DramOk at *; rw [hd]; exact d
  · intro d; unfold State.ObjsOk at *; rw [ho]; exact d

theorem MovesP.after {α : Type} {p : α × State} (h : MovesP qs u p) (k : Moves ps s u) (hq : ∀ p ∈ qs, p ∈ ps := by decide) :
    MovesP ps s p := Moves.after (v := p.2) h k hq
theorem MovesP.mk {α : Type} {a : α} (h : Moves ps s t) : MovesP ps s (a, t) := h
theorem MovesP.snd {α : Type} {p : α × State} (h : MovesP ps s p) : Moves ps s p.2 := h
theorem MovesP.of_eq {α : Type} {p : α × State} {a : α} (e : p = (a, t)) (h : MovesP ps s p) : Moves ps s t := by rw [e] at h; exact h
theorem MovesP.ite {α : Type} {p q : α × State} {c : Prop} [Decidable c] (hp : MovesP ps s p) (hq : MovesP ps s q) :
    MovesP ps s (if c then p else q) := by split <;> assumption

theorem MovesQ.after {α : Type} {r : Option (α × State)} (h : MovesQ qs u r) (k : Moves ps s u)
    (hq : ∀ p ∈ qs, p ∈ ps := by decide) : MovesQ ps s r := by
  cases r with
  | none => trivial
  | some p => exact Moves.after (v := p.2) h k hq
theorem MovesQ.none {α : Type} : MovesQ (α := α) ps s none := trivial
theorem MovesQ.some {α : Type} {p : α × State} (h : MovesP ps s p) : MovesQ ps s (some p) := h
theorem MovesQ.of_eq {α : Type} {r : Option (α × State)} {p : α × State} (e : r = .some p) (h : MovesQ ps s r) : MovesP ps s p := by
  rw [e] at h; exact h
theorem MovesQ.ite {α : Type} {p q : Option (α × State)} {c : Prop} [Decidable c] (hp : MovesQ ps s p) (hq : MovesQ ps s q) :
    MovesQ ps s (if c then p else q) := by split <;> assumption
theorem MovesQ.orElse {α : Type} {p : Option (α × State)} {q : Unit → Option (α × State)} (hp : MovesQ ps s p)
    (hq : MovesQ ps s (q ())) : MovesQ ps s (p.orElse q) := by
  cases p with
  | none => exact hq
  | some p => exact hp

theorem MovesE.after {r : Except Nat State} (h : MovesE qs u r) (k : Moves ps s u) (hq : ∀ p ∈ qs, p ∈ ps := by decide) :
    MovesE ps s r := by
  cases r with
  | error e => trivial
  | ok t => exact Moves.after (v := t) h k hq
theorem MovesE.ok (h : Moves ps s t) : MovesE ps s (.ok t) := h
theorem MovesE.error {e : Nat} : MovesE ps s (.error e) := trivial
theorem MovesE.of_eq {r : Except Nat State} (e : r = .ok t) (h : MovesE ps s r) : Moves ps s t := by rw [e] at h; exact h
theorem MovesE.ite {p q : Except Nat State} {c : Prop} [Decidable c] (hp : MovesE ps s p) (hq : MovesE ps s q) :
    MovesE ps s (if c then p else q) := by split <;> assumption

theorem MovesF.after {α : Type} {r : Except Nat (α × State)} (h : MovesF qs u r) (k : Moves ps s u)
    (hq : ∀ p ∈ qs, p ∈ ps := by decide) : MovesF ps s r := by
  cases r with
  | error e => trivial
  | ok p => exact Moves.after (v := p.2) h k hq
theorem MovesF.ok {α : Type} {p : α × State} (h : MovesP ps s p) : MovesF ps s (.ok p) := h
theorem MovesF.error {α : Type} {e : Nat} : MovesF (α := α) ps s (.error e) := trivial
theorem MovesF.of_eq {α : Type} {r : Except Nat (α × State)} {p : α × State} (e : r = .ok p) (h : MovesF ps s r) : MovesP ps s p := by
  rw [e] at h; exact h
theorem MovesF.ite {α : Type} {p q : Except Nat (α × State)} {c : Prop} [Decidable c] (hp : MovesF ps s p) (hq : MovesF ps s q) :
    MovesF ps s (if c then p else q) := by split <;> assumption

theorem MovesH.after {r : Option (Except Nat State)} (h : MovesH qs u r) (k : Moves ps s u) (hq : ∀ p ∈ qs, p ∈ ps := by decide) :
    MovesH ps s r := by
  cases r with
  | none => trivial
  | some r => exact MovesE.after h k hq
theorem MovesH.none : MovesH ps s none := trivial
theorem MovesH.some {r : Except Nat State} (h : MovesE ps s r) : MovesH ps s (some r) := h
theorem MovesH.of_eq {r : Option (Except Nat State)} {x : Except Nat State} (e : r = .some x) (h : MovesH ps s r) : MovesE ps s x := by
  rw [e] at h; exact h
theorem MovesH.ite {p q : Option (Except Nat State)} {c : Prop} [Decidable c] (hp : MovesH ps s p) (hq : MovesH ps s q) :
    MovesH ps s (if c then p else q) := by split <;> assumption
theorem MovesH.orElse {p : Option (Except Nat State)} {q : Unit → Option (Except Nat State)} (hp : MovesH ps s p)
    (hq : MovesH ps s (q ())) : MovesH ps s (p.orElse q) := by
  cases p with
  | none => exact hq
  | some p => exact hp

theorem MovesS.after {r : Option State} (h : MovesS qs u r) (k : Moves ps s u) (hq : ∀ p ∈ qs, p ∈ ps := by decide) :
    MovesS ps s r := by
  cases r with
  | none => trivial
  | some t => exact Moves.after (v := t) h k hq
theorem MovesS.none : MovesS ps s none := trivial
theorem MovesS.some (h : Moves ps s t) : MovesS ps s (some t) := h
theorem MovesS.of_eq {r : Option State} (e : r = .some t) (h : MovesS ps s r) : Moves ps s t := by rw [e] at h; exact h
theorem MovesS.ite {p q : Option State} {c : Prop} [Decidable c] (hp : MovesS ps s p) (hq : MovesS ps s q) :
    MovesS ps s (if c then p else q) := by split <;> assumption

theorem MovesA.after {a : Answer} (h : MovesA qs u a) (k : Moves ps s u) (hq : ∀ p ∈ qs, p ∈ ps := by decide) :
    MovesA ps s a := Moves.after (v := a.state) h k hq
theorem MovesA.mk {ty st : Nat} {b : Bytes} (h : Moves ps s t) :
    MovesA ps s { type := ty, status := st, payload := b, state := t } := h
theorem MovesA.ite {p q : Answer} {c : Prop} [Decidable c] (hp : MovesA ps s p) (hq : MovesA ps s q) :
    MovesA ps s (if c then p else q) := by split <;> assumption

theorem MovesD.after {a : Admission} (h : MovesD qs u a) (k : Moves ps s u) (hq : ∀ p ∈ qs, p ∈ ps := by decide) : MovesD ps s a := by
  cases a with
  | dropped t => exact Moves.after (v := t) h k hq
  | session x t => exact Moves.after (v := t) h k hq
theorem MovesD.dropped (h : Moves ps s t) : MovesD ps s (.dropped t) := h
theorem MovesD.session {x : Session} (h : Moves ps s t) : MovesD ps s (.session x t) := h
theorem MovesD.of_dropped {a : Admission} (e : a = .dropped t) (h : MovesD ps s a) : Moves ps s t := by rw [e] at h; exact h
theorem MovesD.of_session {a : Admission} {x : Session} (e : a = .session x t) (h : MovesD ps s a) : Moves ps s t := by
  rw [e] at h; exact h
theorem MovesD.ite {p q : Admission} {c : Prop} [Decidable c] (hp : MovesD ps s p) (hq : MovesD ps s q) :
    MovesD ps s (if c then p else q) := by split <;> assumption

theorem MovesO.after {r : Host.Outcome State Fault Refusal} (h : MovesO qs u r) (k : Moves ps s u)
    (hq : ∀ p ∈ qs, p ∈ ps := by decide) : MovesO ps s r := by
  cases r with
  | next t => exact Moves.after (v := t) h k hq
  | fault f => trivial
  | refused f => trivial
theorem MovesO.next (h : Moves ps s t) : MovesO ps s (.next t) := h
theorem MovesO.fault {f : Fault} : MovesO ps s (.fault f) := trivial
theorem MovesO.of_next {r : Host.Outcome State Fault Refusal} (e : r = .next t) (h : MovesO ps s r) : Moves ps s t := by
  rw [e] at h; exact h
theorem MovesO.ite {p q : Host.Outcome State Fault Refusal} {c : Prop} [Decidable c] (hp : MovesO ps s p) (hq : MovesO ps s q) :
    MovesO ps s (if c then p else q) := by split <;> assumption

/-! Steps done for every member of a list. -/

theorem Moves.foldl {α : Type} {f : State → α → State} {l : List α} (k : Moves ps s u)
    (h : ∀ t a, Moves ps s t → Moves ps s (f t a)) : Moves ps s (l.foldl f u) := by
  induction l generalizing u with
  | nil => exact k
  | cons a l ih => exact ih (h u a k)

theorem MovesP.foldl {α β : Type} {f : β × State → α → β × State} {l : List α} {p : β × State} (k : MovesP ps s p)
    (h : ∀ q a, Moves ps s q.2 → MovesP ps s (f q a)) : MovesP ps s (l.foldl f p) := by
  induction l generalizing p with
  | nil => exact k
  | cons a l ih => exact ih (h p a k)

/-- A fold whose accumulator carries the state first. -/
theorem Moves.foldlFst {α β : Type} {f : State × β → α → State × β} {l : List α} {p : State × β} (k : Moves ps s p.1)
    (h : ∀ q a, Moves ps s q.1 → Moves ps s (f q a).1) : Moves ps s (l.foldl f p).1 := by
  induction l generalizing p with
  | nil => exact k
  | cons a l ih => exact ih (h p a k)

theorem Moves.forEach {α : Type} {f : α → State → State} {l : List α} (k : Moves ps s u)
    (h : ∀ a t, Moves ps s t → Moves ps s (f a t)) : Moves ps s (forEach l f u) := by
  unfold Sys2Proof.Machine.forEach; exact .foldl k fun t a hk => h a t hk

theorem Moves.forRange {f : Nat → State → State} {n : Nat} (k : Moves ps s u)
    (h : ∀ a t, Moves ps s t → Moves ps s (f a t)) : Moves ps s (forRange n f u) := by
  unfold Sys2Proof.Machine.forRange; exact .foldl k fun t a hk => h a t hk

/-! An update of one part. -/

theorem Moves.tick {x : Nat} (k : Moves ps s u) (hp : .tick ∈ ps := by decide) : Moves ps s { u with tick := x } :=
  .plain (u := u) k fun p h => by cases p <;> first | rfl | exact absurd hp h
theorem Moves.fresh {x : Nat} (k : Moves ps s u) (hp : .fresh ∈ ps := by decide) : Moves ps s { u with fresh := x } :=
  .plain (u := u) k fun p h => by cases p <;> first | rfl | exact absurd hp h
theorem Moves.sent {x : List Emission} (k : Moves ps s u) (hp : .sent ∈ ps := by decide) : Moves ps s { u with sent := x } :=
  .plain (u := u) k fun p h => by cases p <;> first | rfl | exact absurd hp h
theorem Moves.pwr {x : Pwr} (k : Moves ps s u) (hp : .pwr ∈ ps := by decide) : Moves ps s { u with pwr := x } :=
  .plain (u := u) k fun p h => by cases p <;> first | rfl | exact absurd hp h
theorem Moves.flt {x : Flt} (k : Moves ps s u) (hp : .flt ∈ ps := by decide) : Moves ps s { u with flt := x } :=
  .plain (u := u) k fun p h => by cases p <;> first | rfl | exact absurd hp h
theorem Moves.bbx {x : Bbx} (k : Moves ps s u) (hp : .bbx ∈ ps := by decide) : Moves ps s { u with bbx := x } :=
  .plain (u := u) k fun p h => by cases p <;> first | rfl | exact absurd hp h
theorem Moves.nonVol {x : NonVol} (k : Moves ps s u) (hp : .nonVol ∈ ps := by decide) : Moves ps s { u with nonVol := x } :=
  .plain (u := u) k fun p h => by cases p <;> first | rfl | exact absurd hp h
theorem Moves.net {x : Net} (k : Moves ps s u) (hp : .net ∈ ps := by decide) : Moves ps s { u with net := x } :=
  .plain (u := u) k fun p h => by cases p <;> first | rfl | exact absurd hp h
theorem Moves.tim {x : Tim} (k : Moves ps s u) (hp : .tim ∈ ps := by decide) : Moves ps s { u with tim := x } :=
  .plain (u := u) k fun p h => by cases p <;> first | rfl | exact absurd hp h
theorem Moves.rin {x : Rin} (k : Moves ps s u) (hp : .rin ∈ ps := by decide) : Moves ps s { u with rin := x } :=
  .plain (u := u) k fun p h => by cases p <;> first | rfl | exact absurd hp h
theorem Moves.fet {x : Fet} (k : Moves ps s u) (hp : .fet ∈ ps := by decide) : Moves ps s { u with fet := x } :=
  .plain (u := u) k fun p h => by cases p <;> first | rfl | exact absurd hp h
theorem Moves.mem {x : Vector Mch 4} (k : Moves ps s u) (hp : .mem ∈ ps := by decide) : Moves ps s { u with mem := x } :=
  .plain (u := u) k fun p h => by cases p <;> first | rfl | exact absurd hp h
theorem Moves.pos {x : Vector Pch 12} (k : Moves ps s u) (hp : .pos ∈ ps := by decide) : Moves ps s { u with pos := x } :=
  .plain (u := u) k fun p h => by cases p <;> first | rfl | exact absurd hp h
theorem Moves.lcg {x : Vector Lcg 8} (k : Moves ps s u) (hp : .lcg ∈ ps := by decide) : Moves ps s { u with lcg := x } :=
  .plain (u := u) k fun p h => by cases p <;> first | rfl | exact absurd hp h
theorem Moves.cmp {x : Vector Cmp 16} (k : Moves ps s u) (hp : .cmp ∈ ps := by decide) : Moves ps s { u with cmp := x } :=
  .plain (u := u) k fun p h => by cases p <;> first | rfl | exact absurd hp h
theorem Moves.sne {x : Sne} (k : Moves ps s u) (hp : .sne ∈ ps := by decide) : Moves ps s { u with sne := x } :=
  .plain (u := u) k fun p h => by cases p <;> first | rfl | exact absurd hp h
theorem Moves.fsq {x : Fsq} (k : Moves ps s u) (hp : .fsq ∈ ps := by decide) : Moves ps s { u with fsq := x } :=
  .plain (u := u) k fun p h => by cases p <;> first | rfl | exact absurd hp h
theorem Moves.hlk {x : Hlk} (k : Moves ps s u) (hp : .hlk ∈ ps := by decide) : Moves ps s { u with hlk := x } :=
  .plain (u := u) k fun p h => by cases p <;> first | rfl | exact absurd hp h
theorem Moves.hdms {x : Vector Hdm 32} (k : Moves ps s u) (hp : .hdms ∈ ps := by decide) : Moves ps s { u with hdms := x } :=
  .plain (u := u) k fun p h => by cases p <;> first | rfl | exact absurd hp h
theorem Moves.hdg {x : Hdg} (k : Moves ps s u) (hp : .hdg ∈ ps := by decide) : Moves ps s { u with hdg := x } :=
  .plain (u := u) k fun p h => by cases p <;> first | rfl | exact absurd hp h
theorem Moves.vis {x : Vis} (k : Moves ps s u) (hp : .vis ∈ ps := by decide) : Moves ps s { u with vis := x } :=
  .plain (u := u) k fun p h => by cases p <;> first | rfl | exact absurd hp h
theorem Moves.che {x : Che} (k : Moves ps s u) (hp : .che ∈ ps := by decide) : Moves ps s { u with che := x } :=
  .plain (u := u) k fun p h => by cases p <;> first | rfl | exact absurd hp h
theorem Moves.mir {x : Mir} (k : Moves ps s u) (hp : .mir ∈ ps := by decide) : Moves ps s { u with mir := x } :=
  .plain (u := u) k fun p h => by cases p <;> first | rfl | exact absurd hp h
theorem Moves.therm {x : Therm} (k : Moves ps s u) (hp : .therm ∈ ps := by decide) : Moves ps s { u with therm := x } :=
  .plain (u := u) k fun p h => by cases p <;> first | rfl | exact absurd hp h
theorem Moves.aonDiodes {x : Vector (Option Int) 8} (k : Moves ps s u) (hp : .aonDiodes ∈ ps := by decide) : Moves ps s { u with aonDiodes := x } :=
  .plain (u := u) k fun p h => by cases p <;> first | rfl | exact absurd hp h
theorem Moves.fireEn {x : Bool} (k : Moves ps s u) (hp : .fireEn ∈ ps := by decide) : Moves ps s { u with fireEn := x } :=
  .plain (u := u) k fun p h => by cases p <;> first | rfl | exact absurd hp h
theorem Moves.wilwa {x : Wilwa} (k : Moves ps s u) (hs : x.sessions = u.wilwa.sessions := by rfl) (hp : .wilwa ∈ ps := by decide) :
    Moves ps s { u with wilwa := x } :=
  .plain (u := u) k (fun p h => by cases p <;> first | rfl | exact absurd hp h) rfl rfl hs

end Sys2Proof.Machine
end

