-- ==== Sys2Proof/Laws/MovesByHand.lean ====
section
/-! SUPPORT. The functions whose frame is proved by hand: the first writers of objects, cells and sessions, and the functions that
take functions. -/

set_option Elab.async false

namespace Sys2Proof.Machine

variable {ps : List StatePart} {s t u v : State}

theorem MovesA.state {a : Answer} (h : MovesA ps s a) : Moves ps s a.state := h

theorem State.setObj_moves {s : State} {i j : Nat} {v : Val} : Moves [.objs] s (State.setObj s i j v) :=
  ⟨⟨fun p h => by cases p <;> first | rfl | exact absurd (by decide) h, id, fun h => kvSorted_kvSet _ _ _ _ h, id⟩, fun _ h _ => h⟩

theorem State.clearObjs_moves {s : State} {p : Nat → Nat → Bool} : Moves [.objs] s (State.clearObjs s p) :=
  ⟨⟨fun p h => by cases p <;> first | rfl | exact absurd (by decide) h, id, fun h => kvSorted_filter _ _ h, id⟩, fun _ h _ => h⟩

theorem ofFn_toList {α β : Type} {n : Nat} (l : Vector α n) (f : α → β) :
    (Vector.ofFn fun i : Fin n => f l[i]).toList = l.toList.map f := by
  apply List.ext_getElem <;> simp

theorem State.modSession_seats {s : State} {i : Nat} {f : Session → Session}
    (hf : ∀ x, (f x).sid = x.sid ∧ (f x).level = x.level) : (s.modSession i f).seats = s.seats := by
  unfold State.seats State.openSessions State.modSession
  have := ofFn_toList s.wilwa.sessions fun y => y.map fun x => if x.sid = i then f x else x
  simp only [this]
  induction s.wilwa.sessions.toList with
  | nil => rfl
  | cons y l ih =>
    cases y with
    | none => simpa using ih
    | some x =>
      simp only [List.map_cons, Option.map_some, List.filterMap_cons, id_eq]
      refine List.cons_eq_cons.2 ⟨?_, ih⟩
      by_cases h : x.sid = i <;> simp [h, hf]

theorem State.modSession_moves {s : State} {i : Nat} {f : Session → Session}
    (hf : ∀ x, (f x).sid = x.sid ∧ (f x).level = x.level) : Moves [.wilwa] s (State.modSession s i f) :=
  ⟨⟨fun p h => by cases p <;> first | rfl | exact absurd (by decide) h, id, id,
    fun h => by unfold State.SeatsOk; rw [State.modSession_seats hf]; exact h⟩, fun p h _ => by rw [State.modSession_seats hf] at h; exact h⟩

theorem State.closeSlot_seats {s : State} {i : Nat} {w : Wilwa}
    (hw : w.sessions = Vector.ofFn fun k : Fin 4 => (s.wilwa.sessions[k]).filter fun x => x.sid != i) :
    ({ s with wilwa := w } : State).seats = s.seats.filter fun x => x.1 != i := by
  unfold State.seats State.openSessions
  simp only [hw]
  rw [ofFn_toList s.wilwa.sessions fun y => y.filter fun x => x.sid != i]
  induction s.wilwa.sessions.toList with
  | nil => rfl
  | cons y l ih =>
    cases y with
    | none => simpa using ih
    | some x =>
      by_cases h : x.sid = i <;> simp [Option.filter, h] at ih ⊢ <;> exact ih

theorem State.seatsOk_filter {s t : State} {p : Nat × Nat → Bool} (h : t.seats = s.seats.filter p) (k : s.SeatsOk) : t.SeatsOk := by
  unfold State.SeatsOk at *
  rw [h]
  refine ⟨?_, ?_⟩
  · exact List.Nodup.sublist (List.Sublist.map _ List.filter_sublist) k.1
  · refine Nat.le_trans (List.Sublist.length_le ?_) k.2
    exact List.filter_sublist.filter _

theorem Wilwa.start_seats {u : State} (h : u.wilwa = Wilwa.start) : u.seats = [] := by
  unfold State.seats State.openSessions
  rw [h]
  decide

theorem State.issueWrite_cells {s : State} {k : Nat} {b : Bytes} : Moves [.dram] s { s with dram := writeCells s.dram k b } :=
  ⟨⟨fun p h => by cases p <;> first | rfl | exact absurd (by decide) h, fun h => Memory.wf_writeCells b s.dram k h, id, id⟩, fun _ h _ => h⟩

theorem State.writeCell_moves {s : State} {k : Nat} {b : Byte} : Moves [.dram] s { s with dram := writeCell s.dram k b } :=
  ⟨⟨fun p h => by cases p <;> first | rfl | exact absurd (by decide) h, fun h => Memory.wf_writeCell s.dram k b h, id, id⟩, fun _ h _ => h⟩

theorem State.loseDram_moves {s : State} {c : Nat} : Moves [.dram] s (State.loseDram s c) :=
  ⟨⟨fun p h => by cases p <;> first | rfl | exact absurd (by decide) h, fun h => Memory.wf_filter s.dram _ h, id, id⟩, fun _ h _ => h⟩

end Sys2Proof.Machine
end

