-- ==== Sys2Proof/Laws/FramesBase.lean ====
section
/-! SUPPORT. Frames: what the functions of the shared operations, operands and committed values may change, one lemma a function. -/

set_option Elab.async false

namespace Sys2Proof.Machine

set_option maxRecDepth 4000
variable {ps qs : List StatePart} {t u v : State}

theorem State.emit_moves {s : State} {e : Emission} : Moves [.sent] s (State.emit s e) := by
  delta State.emit
  exact .sent .refl

theorem State.sendDgram_moves {s : State} {d : Dgram} : Moves [.sent] s (State.sendDgram s d) := by
  delta State.sendDgram
  exact .after State.emit_moves .refl

theorem Answer.finish_moves {a : Answer} {x : Session} {q : Nat} : Moves [.sent, .wilwa] a.state (a.finish x q) := by
  delta Answer.finish
  extract_lets d
  exact .after State.sendDgram_moves (.after (State.modSession_moves (fun _ => ⟨rfl, rfl⟩)) .refl)

theorem State.modPwr_moves {s : State} {f : Pwr → Pwr} : Moves [.pwr] s (State.modPwr s f) := by
  delta State.modPwr
  exact .pwr .refl

theorem State.setNum_moves {s : State} {idx : Nat} {sub : Nat} {n : Nat} : Moves [.objs] s (State.setNum s idx sub n) := by
  delta State.setNum
  exact .after State.setObj_moves .refl

theorem State.irq_moves {s : State} {i : Nat} : Moves [.objs] s (State.irq s i) := by
  delta State.irq
  exact .after State.setNum_moves .refl

theorem State.endRequest_moves {s : State} {result : Nat} : Moves [.objs, .pwr] s (State.endRequest s result) := by
  delta State.endRequest
  extract_lets l1
  have h_l1 : Moves [.objs, .pwr] s l1 := by
    unfold l1
    exact .after State.modPwr_moves .refl
  exact .after State.irq_moves h_l1

theorem State.abandonRequest_moves {s : State} : Moves [.objs, .pwr] s (State.abandonRequest s) := by
  delta State.abandonRequest
  refine .ite ?_ ?_
  · exact .after State.endRequest_moves .refl
  · exact .refl

theorem State.modChan_moves {s : State} {c : Nat} {f : Mch → Mch} : Moves [.mem] s (State.modChan s c f) := by
  delta State.modChan
  exact .mem .refl

theorem State.modLane_moves {s : State} {l : Nat} {f : Hln → Hln} : Moves [.hlk] s (State.modLane s l f) := by
  delta State.modLane
  extract_lets l1
  exact .hlk .refl

theorem State.laneSend_moves {s : State} {l : Nat} {f : LaneTx} : Moves [.sent, .hlk] s (State.laneSend s l f) := by
  delta State.laneSend
  refine .after State.modLane_moves (.after State.emit_moves ?_)
  exact .refl

theorem State.dropTransfer_moves {s : State} {tid : Nat} : Moves [.objs, .wilwa] s (State.dropTransfer s tid) := by
  delta State.dropTransfer
  extract_lets l1
  refine .after State.irq_moves (.wilwa ?_)
  exact .refl

theorem State.abortTransfer_moves {s : State} {t : Transfer} {code : Nat} : Moves [.sent, .objs, .wilwa] s (State.abortTransfer s t code) := by
  delta State.abortTransfer
  extract_lets l1
  have h_l1 : Moves [.sent, .objs, .wilwa] s l1 := by
    unfold l1
    exact .after State.dropTransfer_moves .refl
  split
  · exact .after State.sendDgram_moves h_l1
  · exact h_l1

theorem State.addNum_moves {s : State} {idx : Nat} {sub : Nat} {n : Nat} : Moves [.objs] s (State.addNum s idx sub n) := by
  delta State.addNum
  exact .after State.setNum_moves .refl

theorem State.bump_moves {s : State} {idx : Nat} {sub : Nat} : Moves [.objs] s (State.bump s idx sub) := by
  delta State.bump
  exact .after State.addNum_moves .refl

theorem State.latchRail_moves {s : State} {b : Block} : Moves [.objs] s (State.latchRail s b) := by
  delta State.latchRail
  split
  · refine .ite ?_ ?_
    · exact .after State.setNum_moves .refl
    · exact .refl
  · exact .refl

theorem State.noteRail_moves {s : State} {r : Report} : Moves [.objs] s (State.noteRail s r) := by
  delta State.noteRail
  refine .ite ?_ ?_
  · exact .refl
  · exact .after State.latchRail_moves .refl

theorem State.send_moves {s : State} {r : Report} : Moves [.objs, .flt, .bbx] s (State.send s r) := by
  delta State.send
  extract_lets l1 l2 l3
  have h_l1 : Moves [.objs, .flt, .bbx] s l1 := by
    unfold l1
    exact .after State.noteRail_moves .refl
  refine .ite ?_ ?_
  · refine .ite ?_ ?_
    · exact .flt h_l1
    · refine .after State.bump_moves (.flt ?_)
      exact h_l1
  · exact .bbx .refl

theorem State.raise_moves {s : State} {src : Nat} {cause : Nat} {data : Bytes} : Moves [.objs, .flt, .bbx] s (State.raise s src cause data) := by
  delta State.raise
  exact .after State.send_moves .refl

theorem State.authFailure_moves {s : State} {sid : Nat} {e : Endpoint} : Moves [.objs, .flt, .bbx] s (State.authFailure s sid e) := by
  delta State.authFailure
  refine .after State.raise_moves (.after State.bump_moves ?_)
  exact .refl

theorem State.admission_moves {s : State} {h : Hdr} {ty : Nat} {payload : Bytes} {answered : Bool} : MovesD [.sent, .objs, .flt, .bbx, .wilwa] s (State.admission s h ty payload answered) := by
  delta State.admission
  refine .ite ?_ ?_
  · exact .dropped .refl
  · split
    · extract_lets l1
      have h_l1 : Moves [.sent, .objs, .flt, .bbx, .wilwa] s l1 := by
        unfold l1
        exact .after (State.modSession_moves (fun _ => ⟨rfl, rfl⟩)) .refl
      refine .ite ?_ ?_
      · refine .dropped (.after State.authFailure_moves ?_)
        exact .refl
      · refine .ite ?_ ?_
        · refine .dropped (.ite ?_ ?_)
          · exact .after State.sendDgram_moves h_l1
          · exact h_l1
        · exact .session h_l1
    · refine .ite ?_ ?_
      · exact .dropped .refl
      · refine .ite ?_ ?_
        · refine .dropped (.after State.sendDgram_moves ?_)
          exact .refl
        · refine .dropped (.after State.sendDgram_moves ?_)
          exact .refl

theorem State.modBar_moves {s : State} {b : Nat} {f : BarFsq → BarFsq} : Moves [.fsq] s (State.modBar s b f) := by
  delta State.modBar
  extract_lets l1
  exact .fsq .refl

theorem State.modJob_moves {s : State} {b : Nat} {f : BarJob → BarJob} : Moves [.fet] s (State.modJob s b f) := by
  delta State.modJob
  extract_lets l1
  exact .fet .refl

theorem State.modLcg_moves {s : State} {b : Nat} {f : Lcg → Lcg} : Moves [.lcg] s (State.modLcg s b f) := by
  delta State.modLcg
  exact .lcg .refl

theorem State.freeQuot_moves {s : State} {a : Int} {b : Nat} : MovesP [.fresh] s (State.freeQuot s a b) := by
  delta State.freeQuot
  refine .ite ?_ ?_
  · exact .mk .refl
  · refine .mk (.fresh ?_)
    exact .refl

theorem State.modMeas_moves {s : State} {b : Nat} {a : Nat} {f : MeasRec → MeasRec} : Moves [.hdg] s (State.modMeas s b a f) := by
  delta State.modMeas
  extract_lets l1
  exact .hdg .refl

theorem State.modAdm_moves {s : State} {area : Nat} {f : AreaAdm → AreaAdm} : Moves [.wilwa] s (State.modAdm s area f) := by
  delta State.modAdm
  extract_lets l1
  exact .wilwa .refl

theorem State.commitDone_moves {s : State} {area : Nat} : Moves [.objs, .wilwa] s (State.commitDone s area) := by
  delta State.commitDone
  extract_lets l1
  have h_l1 : Moves [.objs, .wilwa] s l1 := by
    unfold l1
    exact .after State.modAdm_moves .refl
  refine .after State.irq_moves (.after State.setNum_moves ?_)
  exact h_l1

theorem State.takenUp_moves {s : State} {area : Nat} {b : Nat} {line : Nat} {time : Nat} : Moves [.objs, .wilwa] s (State.takenUp s area b line time) := by
  delta State.takenUp
  extract_lets l1 l2
  have h_l1 : Moves [.objs, .wilwa] s l1 := by
    unfold l1
    refine .after State.setNum_moves (.after State.setNum_moves ?_)
    exact .refl
  have h_l2 : Moves [.objs, .wilwa] s l2 := by
    unfold l2
    exact .after State.modAdm_moves h_l1
  refine .ite ?_ ?_
  · exact .after State.commitDone_moves h_l2
  · exact h_l2

theorem State.mapCommitted_moves {s : State} {b : Nat} : Moves [.objs] s (State.mapCommitted s b) := by
  delta State.mapCommitted
  extract_lets l1 l2 l3
  have h_l2 : Moves [.objs] s l2 := by
    unfold l2
    refine .after State.setNum_moves (.after State.setNum_moves ?_)
    exact .refl
  have h_l3 : Moves [.objs] s l3 := by
    unfold l3
    exact .after State.setObj_moves h_l2
  refine .ite ?_ ?_
  · exact h_l2
  · exact .after State.setNum_moves h_l3

theorem State.delaysChanged_moves {s : State} : Moves [.fresh, .objs] s (State.delaysChanged s) := by
  delta State.delaysChanged
  refine .forRange ?_ fun i1 t2 h_t2 => ?_
  · exact .refl
  · split
    · rename_i x3 x4 x5 x6
      have h_x5 : Moves [.fresh, .objs] s x5 := by
        refine MovesP.of_eq x6 (.after State.freeQuot_moves ?_)
        exact h_t2
      refine .after State.setNum_moves (.after State.setNum_moves ?_)
      exact h_x5

theorem State.nowLive_moves {s : State} {idx : Nat} {sub : Nat} {old : Val} : Moves [.fresh, .objs, .sne, .fsq, .hdg] s (State.nowLive s idx sub old) := by
  delta State.nowLive
  extract_lets l1 l2 l3 l4
  have h_l3 : Moves [.fresh, .objs, .sne, .fsq, .hdg] s l3 := by
    unfold l3
    refine .ite ?_ ?_
    · exact .refl
    · exact .hdg .refl
  split
  · rename_i x5
    exact .after State.mapCommitted_moves h_l3
  · rename_i x6
    exact .after State.mapCommitted_moves .refl
  · rename_i x7
    exact .sne .refl
  · rename_i x8
    exact .after State.modBar_moves .refl
  · rename_i x9
    exact .after State.modBar_moves .refl
  · rename_i x10
    exact .after State.modBar_moves .refl
  · rename_i x11
    exact .after State.modBar_moves .refl
  · rename_i x12
    exact .after State.modBar_moves .refl
  · rename_i x13
    exact .after State.delaysChanged_moves .refl
  · rename_i x14
    exact .after State.delaysChanged_moves .refl
  · rename_i x15
    exact .after State.delaysChanged_moves .refl
  · rename_i x16
    exact .after State.delaysChanged_moves .refl
  · rename_i x17
    exact .after State.delaysChanged_moves .refl
  · rename_i x18
    exact .after State.delaysChanged_moves .refl
  · rename_i x19
    exact .after State.delaysChanged_moves .refl
  · exact .refl

theorem State.makeLive_moves {s : State} {idx : Nat} {sub : Nat} {v : Val} : Moves [.fresh, .objs, .sne, .fsq, .hdg] s (State.makeLive s idx sub v) := by
  delta State.makeLive
  refine .after State.nowLive_moves (.after State.setObj_moves ?_)
  exact .refl

theorem State.liveWhere_moves {s : State} {p : Nat → Nat → Bool} : Moves [.fresh, .objs, .wilwa, .sne, .fsq, .hdg] s (State.liveWhere s p) := by
  delta State.liveWhere
  extract_lets l1 l2 l3
  have h_l3 : Moves [.fresh, .objs, .wilwa, .sne, .fsq, .hdg] s l3 := by
    unfold l3
    exact .wilwa .refl
  refine .forEach ?_ fun i4 t5 h_t5 => ?_
  · exact h_l3
  · exact .after State.makeLive_moves h_t5

theorem State.takeUpBar_moves {s : State} {area : Nat} {b : Nat} {line : Nat} : Moves [.fresh, .objs, .wilwa, .sne, .fsq, .hdg] s (State.takeUpBar s area b line) := by
  delta State.takeUpBar
  refine .ite ?_ ?_
  · refine .after State.takenUp_moves (.after State.liveWhere_moves ?_)
    exact .refl
  · exact .refl

theorem State.barAtOnce_moves {s : State} {b : Nat} : Moves [.fresh, .objs, .wilwa, .sne, .fsq, .hdg] s (State.barAtOnce s b) := by
  delta State.barAtOnce
  refine .ite ?_ ?_
  · exact .refl
  · refine .forEach ?_ fun i1 t2 h_t2 => ?_
    · exact .refl
    · exact .after State.takeUpBar_moves h_t2

theorem State.modSlot_moves {s : State} {k : Nat} {f : Slot → Slot} : Moves [.rin] s (State.modSlot s k f) := by
  delta State.modSlot
  extract_lets l1
  exact .rin .refl

theorem State.linkSend_moves {s : State} {ty : Nat} {flags : Nat} {payload : Bytes} : Moves [.sent, .mir] s (State.linkSend s ty flags payload) := by
  delta State.linkSend
  extract_lets l1 l2
  have h_l1 : Moves [.sent, .mir] s l1 := by
    unfold l1
    exact .after State.emit_moves .refl
  refine .ite ?_ ?_
  · exact .mir h_l1
  · exact .refl

theorem State.freeBelow_moves {s : State} {n : Nat} : MovesP [.fresh] s (State.freeBelow s n) := by
  delta State.freeBelow
  refine .mk (.fresh ?_)
  exact .refl

theorem State.fitInt_moves {s : State} {x : Int} : MovesP [.fresh] s (State.fitInt s x) := by
  delta State.fitInt
  refine .ite ?_ ?_
  · exact .mk .refl
  · split
    · rename_i x1 x2 x3 x4
      have h_x3 : Moves [.fresh] s x3 := by
        refine MovesP.of_eq x4 (.after State.freeBelow_moves ?_)
        exact .refl
      exact .mk h_x3

theorem State.free_moves {s : State} : MovesP [.fresh] s (State.free s) := by
  delta State.free
  refine .mk (.fresh ?_)
  exact .refl

theorem State.barsTakeUp_moves {s : State} {area : Nat} : Moves [.objs] s (State.barsTakeUp s area) := by
  delta State.barsTakeUp
  refine .forRange ?_ fun i1 t2 h_t2 => ?_
  · exact .refl
  · refine .after State.setNum_moves (.after State.setNum_moves ?_)
    exact h_t2

theorem State.beginRequest_moves {s : State} {target : Nat} {step : Nat} {t : Option Transition} : Moves [.pwr] s (State.beginRequest s target step t) := by
  delta State.beginRequest
  exact .after State.modPwr_moves .refl

theorem State.freeBytes_moves {s : State} {k : Nat} : MovesP [.fresh] s (State.freeBytes s k) := by
  delta State.freeBytes
  refine .mk (.fresh ?_)
  exact .refl

theorem State.sendRef_moves {s : State} {b : Nat} : Moves [.sent, .mir] s (State.sendRef s b) := by
  delta State.sendRef
  extract_lets l1
  refine .ite ?_ ?_
  · exact .after State.linkSend_moves .refl
  · exact .refl

theorem State.measSend_moves {s : State} {l : Nat} {o : Nat × Nat × Nat} {retried : Bool} : Moves [.sent, .hlk] s (State.measSend s l o retried) := by
  delta State.measSend
  split
  · extract_lets l1 l2 l3 l4
    have h_l4 : Moves [.sent, .hlk] s l4 := by
      unfold l4
      exact .after State.modLane_moves .refl
    exact .after State.laneSend_moves h_l4

theorem State.measBegin_moves {s : State} {l : Nat} : Moves [.sent, .hlk] s (State.measBegin s l) := by
  delta State.measBegin
  split
  · refine .ite ?_ ?_
    · exact .refl
    · exact .after State.measSend_moves .refl
  · exact .refl

theorem State.fit_moves {s : State} {w : Nat} {n : Nat} : MovesP [.fresh] s (State.fit s w n) := by
  delta State.fit
  refine .ite ?_ ?_
  · exact .mk .refl
  · exact .after State.freeBelow_moves .refl

theorem State.raiseMax_moves {s : State} {idx : Nat} {sub : Nat} {n : Nat} : Moves [.objs] s (State.raiseMax s idx sub n) := by
  delta State.raiseMax
  refine .ite ?_ ?_
  · exact .after State.setNum_moves .refl
  · exact .refl

theorem State.request_moves {s : State} {h : Hdr} {ty : Nat} {payload : Bytes} {run : Session → State → Answer} (k : Moves ps s u)
    (hr : ∀ x t, Moves ps s t → MovesA ps s (run x t))
    (hp : ∀ p ∈ [StatePart.sent, .objs, .flt, .bbx, .wilwa], p ∈ ps := by decide) : Moves ps s (State.request u h ty payload run) := by
  delta State.request
  have ha : MovesD [.sent, .objs, .flt, .bbx, .wilwa] u (u.admission h ty payload true) := State.admission_moves.after .refl
  split
  · rename_i t e
    exact .after (MovesD.of_dropped e ha) k hp
  · rename_i x t e
    have ht : Moves ps s t := .after (MovesD.of_session e ha) k hp
    have hs : ∀ p ∈ [StatePart.sent], p ∈ ps := fun p h => hp p (by simp at h; simp [h])
    have hw : ∀ p ∈ [StatePart.sent, StatePart.wilwa], p ∈ ps := fun p h => hp p (by simp at h; rcases h with rfl | rfl <;> simp)
    refine .ite ?_ (.ite ?_ ?_)
    · exact .after Answer.finish_moves (MovesA.state (hr x t ht)) hw
    · split
      · exact .after State.sendDgram_moves ht hs
      · exact ht
    · exact .after State.sendDgram_moves ht hs

theorem State.requestV_moves {s : State} {h : Hdr} {ty : Nat} {payload : Bytes} {run : Session → State → Answer} (k : Moves ps s u)
    (hr : ∀ x t, Moves ps s t → MovesA ps s (run x t))
    (hp : ∀ p ∈ [StatePart.sent, .objs, .flt, .bbx, .wilwa], p ∈ ps := by decide) : Moves ps s (State.requestV u h ty payload run) := by
  delta State.requestV
  exact State.request_moves k (fun x t ht => .ite (hr x t ht) (.mk ht)) hp

theorem MovesQ.map {α β : Type} {t : State} {r : Option α} {f : α → β × State} (h : ∀ a, MovesP ps t (f a)) : MovesQ ps t (r.map f) := by
  cases r with
  | none => exact .none
  | some a => exact h a

theorem State.notice_moves {s : State} {h : Hdr} {ty : Nat} {payload : Bytes} {run : Session → State → State} (k : Moves ps s u)
    (hr : ∀ x t, Moves ps s t → Moves ps s (run x t))
    (hp : ∀ p ∈ [StatePart.sent, .objs, .flt, .bbx, .wilwa], p ∈ ps := by decide) : Moves ps s (State.notice u h ty payload run) := by
  delta State.notice
  have ha : MovesD [.sent, .objs, .flt, .bbx, .wilwa] u (u.admission h ty payload false) := State.admission_moves.after .refl
  split
  · rename_i t e
    exact .after (MovesD.of_dropped e ha) k hp
  · rename_i x t e
    have ht : Moves ps s t := .after (MovesD.of_session e ha) k hp
    exact .ite (hr x t ht) ht

theorem State.request_keeps {s : State} {h : Hdr} {ty : Nat} {payload : Bytes} {run : Session → State → Answer}
    (hr : ∀ x t, Keeps [.sent, .objs, .flt, .bbx, .wilwa] s t → Keeps [.sent, .objs, .flt, .bbx, .wilwa] s (run x t).state) :
    Keeps [.sent, .objs, .flt, .bbx, .wilwa] s (State.request s h ty payload run) := by
  delta State.request
  have ha : MovesD [.sent, .objs, .flt, .bbx, .wilwa] s (s.admission h ty payload true) := State.admission_moves.after .refl
  split
  · rename_i t e
    exact (MovesD.of_dropped e ha).toKeeps
  · rename_i x t e
    have ht : Keeps [.sent, .objs, .flt, .bbx, .wilwa] s t := (MovesD.of_session e ha).toKeeps
    extract_lets q
    split
    · exact .after Answer.finish_moves.toKeeps (hr x t ht)
    · split
      · split
        · exact .after State.sendDgram_moves.toKeeps ht
        · exact ht
      · exact .after State.sendDgram_moves.toKeeps ht

end Sys2Proof.Machine
end

