-- ==== Sys2Proof/Laws/FramesHeads.lean ====
section
/-! SUPPORT. Frames: what the functions of the head lanes and head driver modules may change, one lemma a function. -/

set_option Elab.async false

namespace Sys2Proof.Machine

set_option maxRecDepth 4000
variable {ps qs : List StatePart} {t u v : State}

theorem State.sendRelease_moves {s : State} {l : Nat} : Moves [.sent, .hlk] s (State.sendRelease s l) := by
  delta State.sendRelease
  exact .after State.laneSend_moves .refl

theorem State.laneDeep_moves {s : State} {l : Nat} : Moves [.sent, .objs, .hlk] s (State.laneDeep s l) := by
  delta State.laneDeep
  extract_lets l1
  have h_l1 : Moves [.sent, .objs, .hlk] s l1 := by
    unfold l1
    refine .ite ?_ ?_
    · exact .after State.sendRelease_moves .refl
    · exact .refl
  refine .after State.setNum_moves (.after State.modLane_moves ?_)
  exact h_l1

theorem State.laneIdle_moves {s : State} {l : Nat} : Moves [.sent, .hlk] s (State.laneIdle s l) := by
  delta State.laneIdle
  refine .ite ?_ ?_
  · refine .after State.modLane_moves ?_
    refine .foldl ?_ fun t1 i2 h_t1 => ?_
    · exact .after State.sendRelease_moves .refl
    · exact .after State.laneSend_moves h_t1
  · exact .refl

theorem State.laneBurst_moves {s : State} {l : Nat} : Moves [.fresh, .hlk] s (State.laneBurst s l) := by
  delta State.laneBurst
  split
  · rename_i x1 x2 x3 x4
    have h_x3 : Moves [.fresh, .hlk] s x3 := by
      refine MovesP.of_eq x4 (.after State.freeBelow_moves ?_)
      exact .refl
    exact .after State.modLane_moves h_x3

theorem State.lanesResume_moves {s : State} : Moves [.fresh, .hlk] s (State.lanesResume s) := by
  delta State.lanesResume
  refine .forRange ?_ fun i1 t2 h_t2 => ?_
  · exact .refl
  · refine .ite ?_ ?_
    · exact .after State.laneBurst_moves h_t2
    · exact h_t2

theorem State.lanesSpare_moves {s : State} : Moves [.sent, .objs, .hlk] s (State.lanesSpare s) := by
  delta State.lanesSpare
  refine .ite ?_ ?_
  · exact .refl
  · refine .forRange ?_ fun i1 t2 h_t2 => ?_
    · exact .refl
    · refine .ite ?_ ?_
      · exact h_t2
      · exact .after State.laneDeep_moves h_t2

theorem State.sendTables_moves {s : State} {l : Nat} : Moves [.sent, .hlk] s (State.sendTables s l) := by
  delta State.sendTables
  extract_lets l1 l2 l3
  refine .forRange ?_ fun i4 t5 h_t5 => ?_
  · exact .after State.modLane_moves .refl
  · extract_lets l6 l7
    have h_l7 : Moves [.sent, .hlk] s l7 := by
      unfold l7
      exact .after State.modLane_moves h_t5
    exact .after State.laneSend_moves h_l7

theorem State.classTables_moves {s : State} {k : Nat} : Moves [.sent, .hlk] s (State.classTables s k) := by
  delta State.classTables
  refine .forRange ?_ fun i1 t2 h_t2 => ?_
  · exact .refl
  · refine .ite ?_ ?_
    · exact .after State.sendTables_moves h_t2
    · exact h_t2

theorem State.waveWrite_moves {s : State} {k : Nat} {level : Nat} {b : Bytes} : MovesE [.sent, .objs, .hlk] s (State.waveWrite s k level b) := by
  delta State.waveWrite
  extract_lets l1 l2
  have h_l2 : Moves [.sent, .objs, .hlk] s l2 := by
    unfold l2
    exact .after State.setObj_moves .refl
  refine .ite ?_ ?_
  · exact .error
  · refine .ite ?_ ?_
    · exact .error
    · refine .ite ?_ ?_
      · exact .error
      · refine .ok (.ite ?_ ?_)
        · exact .after State.classTables_moves h_l2
        · exact h_l2

theorem State.sendOwner_moves {s : State} {l : Nat} : Moves [.sent, .objs, .hlk, .mir] s (State.sendOwner s l) := by
  delta State.sendOwner
  extract_lets l1 l2 l3
  have h_l2 : Moves [.sent, .objs, .hlk, .mir] s l2 := by
    unfold l2
    refine .ite ?_ ?_
    · exact .mir .refl
    · exact .refl
  have h_l3 : Moves [.sent, .objs, .hlk, .mir] s l3 := by
    unfold l3
    exact .after State.setNum_moves h_l2
  exact .after State.laneSend_moves h_l3

theorem State.lanesStandby_moves {s : State} : Moves [.sent, .objs, .hlk] s (State.lanesStandby s) := by
  delta State.lanesStandby
  refine .forRange ?_ fun i1 t2 h_t2 => ?_
  · exact .refl
  · refine .ite ?_ ?_
    · exact h_t2
    · exact .after State.laneDeep_moves h_t2

theorem State.laneWake_moves {s : State} {l : Nat} {test : Bool} : Moves [.hlk] s (State.laneWake s l test) := by
  delta State.laneWake
  exact .after State.modLane_moves .refl

theorem State.laneAlign_moves {s : State} {l : Nat} : Moves [.objs, .hlk] s (State.laneAlign s l) := by
  delta State.laneAlign
  refine .after State.setNum_moves (.after State.modLane_moves ?_)
  exact .refl

theorem State.trainLane_moves {s : State} {l : Nat} : Moves [.objs, .hlk] s (State.trainLane s l) := by
  delta State.trainLane
  refine .ite ?_ ?_
  · exact .refl
  · split
    · exact .after State.laneWake_moves .refl
    · exact .after State.laneWake_moves .refl
    · exact .after State.laneAlign_moves .refl
    · exact .refl

theorem State.headerRun_moves {s : State} {l : Nat} : MovesP [.fresh] s (State.headerRun s l) := by
  delta State.headerRun
  refine .ite ?_ ?_
  · split
    · rename_i x1 x2 x3 x4
      have h_x3 : Moves [.fresh] s x3 := by
        refine MovesP.of_eq x4 (.after State.freeBelow_moves ?_)
        exact .refl
      exact .mk h_x3
  · refine .ite ?_ ?_
    · exact .after State.freeBelow_moves .refl
    · exact .mk .refl

theorem State.laneUnlock_moves {s : State} {l : Nat} : Moves [.fresh, .objs, .hlk] s (State.laneUnlock s l) := by
  delta State.laneUnlock
  split
  · rename_i x1 x2 x3 x4
    have h_x3 : Moves [.fresh, .objs, .hlk] s x3 := by
      refine MovesP.of_eq x4 (.after State.headerRun_moves ?_)
      exact .refl
    refine .after State.modLane_moves (.after State.setNum_moves ?_)
    exact h_x3

theorem State.bitSlip_moves {s : State} {l : Nat} : Moves [.objs, .hlk] s (State.bitSlip s l) := by
  delta State.bitSlip
  refine .after State.setNum_moves (.after State.modLane_moves ?_)
  exact .refl

theorem State.testErrors_moves {s : State} {l : Nat} : MovesP [.fresh, .objs] s (State.testErrors s l) := by
  delta State.testErrors
  split
  · rename_i x1 x2 x3 x4
    have h_x3 : Moves [.fresh, .objs] s x3 := by
      refine MovesP.of_eq x4 (.after State.free_moves ?_)
      exact .refl
    extract_lets l5
    have h_l5 : Moves [.fresh, .objs] s l5 := by
      unfold l5
      refine .ite ?_ ?_
      · exact .after State.addNum_moves h_x3
      · exact h_x3
    exact .mk h_l5

theorem State.checkerStops_moves {s : State} {l : Nat} : Moves [.fresh, .objs, .hlk] s (State.checkerStops s l) := by
  delta State.checkerStops
  refine .ite ?_ ?_
  · exact .refl
  · split
    · rename_i x1 x2 x3 x4
      have h_x3 : Moves [.fresh, .objs, .hlk] s x3 := by
        refine MovesP.of_eq x4 (.after State.testErrors_moves ?_)
        exact .refl
      refine .after State.modLane_moves (.after State.addNum_moves ?_)
      exact h_x3

theorem State.laneCommand_moves {s : State} {l : Nat} {v : Nat} : MovesE [.fresh, .sent, .objs, .hlk] s (State.laneCommand s l v) := by
  delta State.laneCommand
  extract_lets l1 l2 l3
  have h_l2 : MovesE [.fresh, .sent, .objs, .hlk] s l2 := by
    unfold l2
    exact .error
  have h_l3 : Moves [.fresh, .sent, .objs, .hlk] s l3 := by
    unfold l3
    refine .after State.modLane_moves (.after State.checkerStops_moves ?_)
    exact .refl
  refine .ite ?_ ?_
  · exact .error
  · refine .ite ?_ ?_
    · refine .ite ?_ ?_
      · refine .ok (.after State.laneAlign_moves ?_)
        exact .refl
      · exact h_l2
    · refine .ite ?_ ?_
      · refine .ite ?_ ?_
        · refine .ok (.after State.laneWake_moves ?_)
          exact .refl
        · exact h_l2
      · refine .ite ?_ ?_
        · refine .ok (.ite ?_ ?_)
          · exact .after State.laneDeep_moves h_l3
          · exact .after State.modLane_moves h_l3
        · exact h_l2

theorem State.injectBits_moves {s : State} {l : Nat} {n : Nat} : Moves [.objs, .hlk] s (State.injectBits s l n) := by
  delta State.injectBits
  extract_lets l1 l2
  have h_l2 : Moves [.objs, .hlk] s l2 := by
    unfold l2
    exact .after State.modLane_moves .refl
  refine .ite ?_ ?_
  · exact .after State.addNum_moves h_l2
  · exact h_l2

theorem hookHeads_moves {idx : Nat} {sub : Nat} {v : Val} {s : State} : MovesH [.fresh, .sent, .objs, .hlk] s (hookHeads idx sub v s) := by
  delta hookHeads
  extract_lets l1 l2
  split
  · refine .some (.ite ?_ ?_)
    · refine .ok (.after State.bitSlip_moves ?_)
      exact .refl
    · exact .error
  · refine .some (.after State.laneCommand_moves ?_)
    exact .refl
  · refine .some (.ite ?_ ?_)
    · exact .error
    · refine .ok (.after State.injectBits_moves ?_)
      exact .refl
  · refine .ite ?_ ?_
    · refine .some (.ok ?_)
      refine .after State.lanesSpare_moves (.after State.setObj_moves ?_)
      exact .refl
    · exact .none
  · refine .some (.ite ?_ ?_)
    · refine .ok (.after State.setObj_moves ?_)
      exact .refl
    · exact .error
  · exact .none

theorem State.sendOwners_moves {s : State} : Moves [.sent, .objs, .hlk, .mir] s (State.sendOwners s) := by
  delta State.sendOwners
  refine .forRange ?_ fun i1 t2 h_t2 => ?_
  · exact .refl
  · refine .ite ?_ ?_
    · exact .after State.sendOwner_moves h_t2
    · exact h_t2

theorem State.bandMoved_moves {s : State} {old : Nat} {new : Nat} : Moves [.objs, .flt, .bbx, .hlk] s (State.bandMoved s old new) := by
  delta State.bandMoved
  refine .forRange ?_ fun i1 t2 h_t2 => ?_
  · exact .refl
  · extract_lets l3
    refine .ite ?_ ?_
    · refine .after State.raise_moves (.after State.modLane_moves ?_)
      exact h_t2
    · exact h_t2

theorem State.laneTrained_moves {s : State} {l : Nat} : Moves [.sent, .objs, .hlk, .mir] s (State.laneTrained s l) := by
  delta State.laneTrained
  extract_lets l1 l2
  have h_l1 : Moves [.sent, .objs, .hlk, .mir] s l1 := by
    unfold l1
    exact .after State.modLane_moves .refl
  have h_l2 : Moves [.sent, .objs, .hlk, .mir] s l2 := by
    unfold l2
    refine .ite ?_ ?_
    · exact .after State.sendOwner_moves h_l1
    · exact h_l1
  refine .ite ?_ ?_
  · exact .after State.measBegin_moves h_l2
  · exact h_l2

theorem State.burstEnds_moves {s : State} {failed : Nat} : Moves [.sent, .objs, .hlk, .mir] s (State.burstEnds s failed) := by
  delta State.burstEnds
  refine .forRange ?_ fun i1 t2 h_t2 => ?_
  · exact .refl
  · extract_lets l3
    have h_l3 : Moves [.sent, .objs, .hlk, .mir] s l3 := by
      unfold l3
      exact .after State.modLane_moves h_t2
    refine .ite ?_ ?_
    · refine .ite ?_ ?_
      · exact .after State.laneAlign_moves h_l3
      · exact .after State.laneTrained_moves h_l3
    · exact h_t2

theorem State.fixSoloGen_moves {s : State} : Moves [.hlk] s (State.fixSoloGen s) := by
  delta State.fixSoloGen
  extract_lets l1 l2
  exact .hlk .refl

theorem State.modHdm_moves {s : State} {m : Nat} {f : Hdm → Hdm} : Moves [.hdms] s (State.modHdm s m f) := by
  delta State.modHdm
  exact .hdms .refl

theorem State.hdmSend_moves {s : State} {m : Nat} {fromB : Bool} {f : HdmTx} : Moves [.sent, .hdms] s (State.hdmSend s m fromB f) := by
  delta State.hdmSend
  extract_lets l1
  refine .after State.modHdm_moves (.after State.emit_moves ?_)
  exact .after State.emit_moves .refl

theorem State.hdmCap_moves {s : State} {m : Nat} {fromB : Bool} {chosen : Nat} : Moves [.sent, .hdms] s (State.hdmCap s m fromB chosen) := by
  delta State.hdmCap
  extract_lets l1
  exact .after State.hdmSend_moves .refl

theorem State.hdmStatus_moves {s : State} {m : Nat} {fromB : Bool} : Moves [.fresh, .sent, .hdms] s (State.hdmStatus s m fromB) := by
  delta State.hdmStatus
  extract_lets l1 l2
  split
  · rename_i x3 x4 x5 x6
    have h_x5 : Moves [.fresh, .sent, .hdms] s x5 := by
      refine MovesP.of_eq x6 (.after State.freeBelow_moves ?_)
      exact .refl
    split
    · rename_i x7 x8 x9 x10
      have h_x9 : Moves [.fresh, .sent, .hdms] s x9 := by
        refine MovesP.of_eq x10 (.after State.freeBelow_moves ?_)
        exact h_x5
      split
      · rename_i x11 x12 x13 x14
        have h_x13 : Moves [.fresh, .sent, .hdms] s x13 := by
          refine MovesP.of_eq x14 (.after State.freeBytes_moves ?_)
          exact h_x9
        extract_lets l15
        exact .after State.hdmSend_moves h_x13

theorem State.laneFail_moves {s : State} {l : Nat} {cause : Nat} : Moves [.fresh, .objs, .flt, .bbx, .hlk] s (State.laneFail s l cause) := by
  delta State.laneFail
  extract_lets l1
  split
  · rename_i x2 x3 x4 x5
    have h_x4 : Moves [.fresh, .objs, .flt, .bbx, .hlk] s x4 := by
      refine MovesP.of_eq x5 (.after State.headerRun_moves ?_)
      exact .refl
    extract_lets l6
    have h_l6 : Moves [.fresh, .objs, .flt, .bbx, .hlk] s l6 := by
      unfold l6
      refine .after State.setNum_moves (.after State.modLane_moves ?_)
      exact h_x4
    exact .after State.raise_moves h_l6

theorem State.rxCount_moves {s : State} {idx : Nat} {l : Nat} : MovesP [.fresh, .objs] s (State.rxCount s idx l) := by
  delta State.rxCount
  split
  · rename_i x1 x2 x3 x4
    have h_x3 : Moves [.fresh, .objs] s x3 := by
      refine MovesP.of_eq x4 (.after State.free_moves ?_)
      exact .refl
    extract_lets l5
    have h_l5 : Moves [.fresh, .objs] s l5 := by
      unfold l5
      refine .ite ?_ ?_
      · exact h_x3
      · exact .after State.addNum_moves h_x3
    exact .mk h_l5

theorem State.laneLost_moves {s : State} {l : Nat} : Moves [.fresh, .sent, .objs, .flt, .bbx, .hlk] s (State.laneLost s l) := by
  delta State.laneLost
  extract_lets l1 l2
  have h_l1 : Moves [.fresh, .sent, .objs, .flt, .bbx, .hlk] s l1 := by
    unfold l1
    refine .after State.sendRelease_moves (.after State.modLane_moves ?_)
    exact .refl
  have h_l2 : Moves [.fresh, .sent, .objs, .flt, .bbx, .hlk] s l2 := by
    unfold l2
    refine .after State.modLane_moves (.after State.laneUnlock_moves ?_)
    exact h_l1
  split
  · rename_i x3 x4 x5 x6
    have h_x5 : Moves [.fresh, .sent, .objs, .flt, .bbx, .hlk] s x5 := by
      refine MovesP.of_eq x6 (.after State.rxCount_moves ?_)
      exact h_l2
    extract_lets l7
    have h_l7 : Moves [.fresh, .sent, .objs, .flt, .bbx, .hlk] s l7 := by
      unfold l7
      exact .after State.raise_moves h_x5
    refine .ite ?_ ?_
    · exact .after State.laneAlign_moves h_l7
    · exact h_l7

theorem State.releaseAll_moves {s : State} : Moves [.sent, .hlk] s (State.releaseAll s) := by
  delta State.releaseAll
  refine .forRange ?_ fun i1 t2 h_t2 => ?_
  · exact .refl
  · refine .ite ?_ ?_
    · exact .after State.sendRelease_moves h_t2
    · exact h_t2

theorem State.sendProbe_moves {s : State} {l : Nat} {tag : Nat} : Moves [.sent, .hlk] s (State.sendProbe s l tag) := by
  delta State.sendProbe
  refine .after State.laneSend_moves (.after State.modLane_moves ?_)
  exact .refl

theorem State.latencyDone_moves {s : State} {l : Nat} : Moves [.fresh, .sent, .objs, .flt, .bbx, .hlk] s (State.latencyDone s l) := by
  delta State.latencyDone
  extract_lets l1 l2 l3 l4 l5
  have h_l4 : Moves [.fresh, .sent, .objs, .flt, .bbx, .hlk] s l4 := by
    unfold l4
    exact .after State.setNum_moves .refl
  have h_l5 : Moves [.fresh, .sent, .objs, .flt, .bbx, .hlk] s l5 := by
    unfold l5
    refine .after State.delaysChanged_moves (.after State.modLane_moves ?_)
    exact h_l4
  refine .ite ?_ ?_
  · exact .after State.sendTables_moves h_l5
  · refine .ite ?_ ?_
    · exact .after State.laneFail_moves .refl
    · refine .after State.sendProbe_moves (.after State.modLane_moves ?_)
      exact .refl

theorem State.sendCap_moves {s : State} {l : Nat} : Moves [.sent, .hlk] s (State.sendCap s l) := by
  delta State.sendCap
  exact .after State.laneSend_moves .refl

theorem execOwnerInterval_moves {l : Lane} {s : State} : MovesO [.sent, .objs, .hlk, .mir] s (execOwnerInterval l s) := by
  delta execOwnerInterval
  refine .next (.ite ?_ ?_)
  · exact .after State.sendOwner_moves .refl
  · exact .refl

theorem execReleaseRepeatInterval_moves {l : Lane} {s : State} : MovesO [.sent, .hlk] s (execReleaseRepeatInterval l s) := by
  delta execReleaseRepeatInterval
  refine .next (.ite ?_ ?_)
  · exact .after State.sendRelease_moves .refl
  · exact .refl

theorem execSyncInterval_moves {l : Lane} {s : State} : MovesO [.sent, .hlk] s (execSyncInterval l s) := by
  delta execSyncInterval
  refine .next (.ite ?_ ?_)
  · exact .after State.laneSend_moves .refl
  · exact .refl

theorem execLatencyProbeInterval_moves {l : Lane} {s : State} : MovesO [.sent, .hlk] s (execLatencyProbeInterval l s) := by
  delta execLatencyProbeInterval
  refine .next (.ite ?_ ?_)
  · exact .after State.sendProbe_moves .refl
  · exact .refl

theorem execLanePllLocked_moves {l : Lane} {s : State} : MovesO [.objs, .hlk] s (execLanePllLocked l s) := by
  delta execLanePllLocked
  extract_lets l1
  refine .next (.ite ?_ ?_)
  · refine .ite ?_ ?_
    · exact .after State.modLane_moves .refl
    · exact .after State.laneAlign_moves .refl
  · exact .refl

theorem execLaneWakeTimeout_moves {l : Lane} {s : State} : MovesO [.fresh, .objs, .flt, .bbx, .hlk] s (execLaneWakeTimeout l s) := by
  delta execLaneWakeTimeout
  refine .next (.ite ?_ ?_)
  · exact .after State.laneFail_moves .refl
  · exact .refl

theorem execFirmwareSlipWait_moves {l : Lane} {s : State} : MovesO [.objs, .hlk] s (execFirmwareSlipWait l s) := by
  delta execFirmwareSlipWait
  refine .next (.ite ?_ ?_)
  · exact .after State.bitSlip_moves .refl
  · exact .refl

theorem execSyncHeaderRunReached_moves {l : Lane} {s : State} : MovesO [.sent, .objs, .hlk, .mir] s (execSyncHeaderRunReached l s) := by
  delta execSyncHeaderRunReached
  extract_lets l1
  have h_l1 : ∀ a1, Moves [.sent, .objs, .hlk, .mir] s a1 → Moves [.sent, .objs, .hlk, .mir] s (l1 a1) := by
    intro a1 h_a1
    unfold l1
    refine .after State.modLane_moves (.after State.setNum_moves ?_)
    exact h_a1
  split
  · refine .next (.after State.sendCap_moves ?_)
    refine .after State.modLane_moves (h_l1 _ ?_)
    exact .refl
  · refine .next (.ite ?_ ?_)
    · refine .after State.laneTrained_moves (h_l1 _ ?_)
      exact .refl
    · exact h_l1 _ .refl
  · exact .next .refl

theorem execLaneAlignTimeout_moves {l : Lane} {s : State} : MovesO [.fresh, .objs, .flt, .bbx, .hlk] s (execLaneAlignTimeout l s) := by
  delta execLaneAlignTimeout
  refine .next (.ite ?_ ?_)
  · exact .after State.laneFail_moves .refl
  · exact .refl

theorem execCapResendInterval_moves {l : Lane} {s : State} : MovesO [.sent, .hlk] s (execCapResendInterval l s) := by
  delta execCapResendInterval
  extract_lets l1
  refine .next (.ite ?_ ?_)
  · exact .after State.sendCap_moves .refl
  · exact .refl

theorem execCapReceived_moves {l : Lane} {cap : CapUp} {s : State} : MovesO [.fresh, .sent, .objs, .flt, .bbx, .hlk] s (execCapReceived l cap s) := by
  delta execCapReceived
  extract_lets l1 l2 l3 l4 l5 l6
  have h_l2 : Moves [.fresh, .sent, .objs, .flt, .bbx, .hlk] s l2 := by
    unfold l2
    exact .after State.modLane_moves .refl
  have h_l3 : Moves [.fresh, .sent, .objs, .flt, .bbx, .hlk] s l3 := by
    unfold l3
    exact .after State.setObj_moves h_l2
  have h_l6 : Moves [.fresh, .sent, .objs, .flt, .bbx, .hlk] s l6 := by
    unfold l6
    exact .after State.modLane_moves h_l3
  refine .ite ?_ ?_
  · exact .next .refl
  · refine .ite ?_ ?_
    · refine .ite ?_ ?_
      · refine .next (.after State.laneFail_moves ?_)
        exact h_l3
      · refine .next (.after State.sendCap_moves ?_)
        exact .after State.modLane_moves h_l3
    · refine .ite ?_ ?_
      · exact .next h_l3
      · refine .ite ?_ ?_
        · refine .next (.after State.laneFail_moves ?_)
          exact h_l6
        · refine .next (.after State.sendProbe_moves ?_)
          exact .after State.modLane_moves h_l6

theorem execLaneCapTimeout_moves {l : Lane} {s : State} : MovesO [.fresh, .objs, .flt, .bbx, .hlk] s (execLaneCapTimeout l s) := by
  delta execLaneCapTimeout
  refine .next (.ite ?_ ?_)
  · exact .after State.laneFail_moves .refl
  · exact .refl

theorem execStatEchoReceived_moves {l : Lane} {tag : BitVec 16} {turnaround : BitVec 32} {rtt : Nat} {s : State} : MovesO [.fresh, .sent, .objs, .flt, .bbx, .hlk] s (execStatEchoReceived l tag turnaround rtt s) := by
  delta execStatEchoReceived
  extract_lets l1
  split
  · extract_lets l2 l3
    have h_l3 : Moves [.fresh, .sent, .objs, .flt, .bbx, .hlk] s l3 := by
      unfold l3
      exact .after State.modLane_moves .refl
    refine .ite ?_ ?_
    · exact .next .refl
    · split
      · refine .next (.ite ?_ ?_)
        · exact .after State.latencyDone_moves h_l3
        · exact .after State.sendProbe_moves h_l3
      · split
        · rename_i x4 x5 x6 x7
          have h_x6 : Moves [.fresh, .sent, .objs, .flt, .bbx, .hlk] s x6 := by
            refine MovesP.of_eq x7 (.after State.freeQuot_moves ?_)
            exact .refl
          extract_lets l8 l9 l10 l11 l12
          have h_l9 : Moves [.fresh, .sent, .objs, .flt, .bbx, .hlk] s l9 := by
            unfold l9
            refine .after State.setNum_moves (.after State.modLane_moves ?_)
            exact h_x6
          have h_l12 : Moves [.fresh, .sent, .objs, .flt, .bbx, .hlk] s l12 := by
            unfold l12
            exact .after State.modLane_moves h_l9
          refine .next (.ite ?_ ?_)
          · exact .after State.raise_moves h_l12
          · exact h_l12
      · exact .next .refl
  · exact .next .refl

theorem execStatTableAckReceived_moves {l : Lane} {seq result : BitVec 8} {s : State} :
    MovesO [.sent, .objs, .hlk, .mir] s (execStatTableAckReceived l seq result s) := by
  delta execStatTableAckReceived
  extract_lets x l1
  have h1 : Moves [.sent, .objs, .hlk, .mir] s l1 := by
    unfold l1
    exact .after State.modLane_moves .refl
  clear_value x l1
  refine .ite (.ite ?_ (.next h1)) (.next .refl)
  split
  · exact .next (.after State.laneTrained_moves (.after State.modLane_moves h1))
  · exact .next (.after State.modLane_moves h1)
  · exact .next h1

theorem execStatStatusReceived_moves {l : Lane} {st : HdmStatus} {s : State} : MovesO [.objs, .flt, .bbx, .hlk, .mir] s (execStatStatusReceived l st s) := by
  delta execStatStatusReceived
  extract_lets l1 l2 l3 l4 l5 l6 l7 l8 l9 l10 l11 l12 l13 l14
  have h_l2 : Moves [.objs, .flt, .bbx, .hlk, .mir] s l2 := by
    unfold l2
    exact .after State.setObj_moves .refl
  have h_l4 : Moves [.objs, .flt, .bbx, .hlk, .mir] s l4 := by
    unfold l4
    exact .hlk h_l2
  have h_l10 : Moves [.objs, .flt, .bbx, .hlk, .mir] s l10 := by
    unfold l10
    refine .ite ?_ ?_
    · exact .after State.raise_moves h_l4
    · exact h_l4
  have h_l11 : Moves [.objs, .flt, .bbx, .hlk, .mir] s l11 := by
    unfold l11
    refine .ite ?_ ?_
    · exact .after State.raise_moves h_l10
    · exact h_l10
  have h_l12 : Moves [.objs, .flt, .bbx, .hlk, .mir] s l12 := by
    unfold l12
    refine .ite ?_ ?_
    · exact .after State.raise_moves h_l11
    · exact h_l11
  refine .ite ?_ ?_
  · exact .next .refl
  · refine .next ?_
    split
    · refine .ite ?_ ?_
      · exact .mir h_l12
      · exact h_l12
    · exact h_l12

theorem execStatSilenceTimeout_moves {l : Lane} {s : State} : MovesO [.objs, .flt, .bbx] s (execStatSilenceTimeout l s) := by
  delta execStatSilenceTimeout
  refine .next (.ite ?_ ?_)
  · exact .after State.raise_moves .refl
  · exact .refl

theorem State.onHdm_moves {s : State} {m : Lane} {b : Bool} {f : State → State} (k : Moves ps s u)
    (hf : ∀ t, Moves ps s t → Moves ps s (f t)) : MovesO ps s (State.onHdm u m b f) := by
  delta State.onHdm
  exact .next (.ite (hf _ k) k)

theorem execHdmLineFrame_moves {m : Lane} {fromB : Bool} {f : HdmLine} {crcOk : Bool} {s : State} : MovesO [.hdms] s (execHdmLineFrame m fromB f crcOk s) := by
  delta execHdmLineFrame
  refine State.onHdm_moves ?_ fun t1 h_t1 => ?_
  · exact .refl
  · exact .after State.modHdm_moves h_t1

theorem execHdmToken_moves {m : Lane} {fromB : Bool} {head : TokenHead} {number : BitVec 32} {tag : BitVec 16} {gen : BitVec 16} {crc : Option (BitVec 16)} {s : State} : MovesO [.sent, .hdms] s (execHdmToken m fromB head number tag gen crc s) := by
  delta execHdmToken
  refine State.onHdm_moves ?_ fun t1 h_t1 => ?_
  · exact .refl
  · extract_lets l2 l3 l4 l5 l6 l7 l8 l9 l10 l11
    have h_l6 : ∀ a1, Moves [.sent, .hdms] s (l6 a1) := by
      intro a1
      unfold l6
      exact .after State.modHdm_moves h_t1
    have h_l9 : Moves [.sent, .hdms] s l9 := by
      unfold l9
      refine h_l6 _
    refine .ite ?_ ?_
    · refine h_l6 _
    · refine .forEach ?_ fun i12 t13 h_t13 => ?_
      · exact h_l9
      · exact .after State.emit_moves h_t13

theorem execHdmOwnerFrame_moves {m : Lane} {fromB : Bool} {_active : Bool} {gen : BitVec 32} {validFor : BitVec 16} {s : State} : MovesO [.hdms] s (execHdmOwnerFrame m fromB _active gen validFor s) := by
  delta execHdmOwnerFrame
  refine State.onHdm_moves ?_ fun t1 h_t1 => ?_
  · exact .refl
  · exact .after State.modHdm_moves h_t1

theorem execHdmRelease_moves {m : Lane} {fromB : Bool} {s : State} : MovesO [.hdms] s (execHdmRelease m fromB s) := by
  delta execHdmRelease
  refine State.onHdm_moves ?_ fun t1 h_t1 => ?_
  · exact .refl
  · exact .after State.modHdm_moves h_t1

theorem execHdmValidforExpiry_moves {m : Lane} {fromB : Bool} {s : State} : MovesO [.hdms] s (execHdmValidforExpiry m fromB s) := by
  delta execHdmValidforExpiry
  refine .next (.after State.modHdm_moves ?_)
  exact .refl

theorem execHdmSyncFrame_moves {m : Lane} {fromB : Bool} {band : BitVec 8} {echo : BitVec 16} {s : State} : MovesO [.fresh, .sent, .hdms] s (execHdmSyncFrame m fromB band echo s) := by
  delta execHdmSyncFrame
  refine State.onHdm_moves ?_ fun t1 h_t1 => ?_
  · exact .refl
  · extract_lets l2
    have h_l2 : Moves [.fresh, .sent, .hdms] s l2 := by
      unfold l2
      exact .after State.modHdm_moves h_t1
    refine .ite ?_ ?_
    · exact h_l2
    · split
      · rename_i x3 x4 x5 x6
        have h_x5 : Moves [.fresh, .sent, .hdms] s x5 := by
          refine MovesP.of_eq x6 (.after State.freeBelow_moves ?_)
          exact h_l2
        exact .after State.hdmSend_moves h_x5

theorem execHdmTableFrame_moves {m : Lane} {fromB : Bool} {level : BitVec 8} {seq : BitVec 8} {table : Bytes} {crcOk : Bool} {s : State} : MovesO [.sent, .hdms] s (execHdmTableFrame m fromB level seq table crcOk s) := by
  delta execHdmTableFrame
  refine State.onHdm_moves ?_ fun t1 h_t1 => ?_
  · exact .refl
  · extract_lets l2 l3
    have h_l3 : Moves [.sent, .hdms] s l3 := by
      unfold l3
      refine .ite ?_ ?_
      · exact .after State.modHdm_moves h_t1
      · refine .ite ?_ ?_
        · exact .after State.modHdm_moves h_t1
        · exact h_t1
    exact .after State.hdmSend_moves h_l3

theorem execHdmCapFrame_moves {m : Lane} {fromB : Bool} {chosen : BitVec 8} {s : State} : MovesO [.sent, .hdms] s (execHdmCapFrame m fromB chosen s) := by
  delta execHdmCapFrame
  refine State.onHdm_moves ?_ fun t1 h_t1 => ?_
  · exact .refl
  · refine .after State.hdmCap_moves (.after State.modHdm_moves ?_)
    exact h_t1

theorem execHdmStatusInterval_moves {m : Lane} {s : State} : MovesO [.fresh, .sent, .hdms] s (execHdmStatusInterval m s) := by
  delta execHdmStatusInterval
  extract_lets l1
  have h_l1 : ∀ a1 a2, Moves [.fresh, .sent, .hdms] s a2 → Moves [.fresh, .sent, .hdms] s (l1 a1 a2) := by
    intro a1 a2 h_a2
    unfold l1
    refine .ite ?_ ?_
    · exact .after State.hdmStatus_moves h_a2
    · exact h_a2
  refine .next (h_l1 _ _ ?_)
  exact h_l1 _ _ .refl

theorem execCheckerLock_moves {l : Lane} {s : State} : MovesO [.hlk] s (execCheckerLock l s) := by
  delta execCheckerLock
  refine .next (.ite ?_ ?_)
  · exact .after State.modLane_moves .refl
  · exact .refl

theorem execCheckerLockLost_moves {l : Lane} {s : State} : MovesO [.fresh, .objs, .hlk] s (execCheckerLockLost l s) := by
  delta execCheckerLockLost
  refine .next (.after State.checkerStops_moves ?_)
  exact .refl

theorem execHdmBlockAligned_moves {m : Lane} {fromB : Bool} {s : State} : MovesO [.fresh, .sent, .hdms] s (execHdmBlockAligned m fromB s) := by
  delta execHdmBlockAligned
  extract_lets l1
  have h_l1 : Moves [.fresh, .sent, .hdms] s l1 := by
    unfold l1
    exact .after State.modHdm_moves .refl
  refine .ite ?_ ?_
  · exact .next .refl
  · refine .next (.after State.hdmStatus_moves ?_)
    exact .after State.hdmCap_moves h_l1

theorem execHdmBlockLockLost_moves {m : Lane} {fromB : Bool} {s : State} : MovesO [.hdms] s (execHdmBlockLockLost m fromB s) := by
  delta execHdmBlockLockLost
  refine .next (.after State.modHdm_moves ?_)
  exact .refl

end Sys2Proof.Machine
end

