-- ==== Sys2Proof/Laws/FramesMemory.lean ====
section
/-! SUPPORT. Frames: what the functions of the memory channels, the raster intake and the track may change, one lemma a function. -/

set_option Elab.async false

namespace Sys2Proof.Machine

set_option maxRecDepth 4000
variable {ps qs : List StatePart} {t u v : State}

theorem State.abandonTraining_moves {s : State} : Moves [.sent, .objs, .pwr, .mem, .hlk] s (State.abandonTraining s) := by
  delta State.abandonTraining
  refine .ite ?_ ?_
  · exact .refl
  · split
    · extract_lets l1 l2
      have h_l1 : Moves [.sent, .objs, .pwr, .mem, .hlk] s l1 := by
        unfold l1
        exact .after State.modPwr_moves .refl
      have h_l2 : Moves [.sent, .objs, .pwr, .mem, .hlk] s l2 := by
        unfold l2
        refine .forEach ?_ fun i3 t4 h_t4 => ?_
        · exact h_l1
        · refine .ite ?_ ?_
          · exact .after State.modChan_moves h_t4
          · exact h_t4
      refine .forEach ?_ fun i5 t6 h_t6 => ?_
      · exact h_l2
      · split
        · exact .after State.laneDeep_moves h_t6
        · exact .after State.laneDeep_moves h_t6
        · exact .after State.laneDeep_moves h_t6
        · exact .after State.laneDeep_moves h_t6
        · exact .after State.laneDeep_moves h_t6
        · exact h_t6

theorem State.logCmd_moves {s : State} {c : Nat} {cmd : Nat} {target : Nat} {master : Nat} {row : Nat} {burst : Nat} : Moves [.mem] s (State.logCmd s c cmd target master row burst) := by
  delta State.logCmd
  extract_lets l1
  exact .after State.modChan_moves .refl

theorem State.activate_moves {s : State} {c : Nat} {t : Nat} {row : Nat} {master : Nat} : Moves [.mem] s (State.activate s c t row master) := by
  delta State.activate
  extract_lets l1 l2 l3
  have h_l1 : Moves [.mem] s l1 := by
    unfold l1
    exact .after State.logCmd_moves .refl
  exact .after State.modChan_moves h_l1

theorem State.issueDue_moves {n c : Nat} {p : Nat → Bool} {s : State} : Moves [.objs, .mem] s (State.issueDue n c p s) := by
  induction n generalizing s with
  | zero => exact .refl
  | succ n ih =>
    simp only [State.issueDue]
    split
    · exact .refl
    · exact .after ih (.after State.bump_moves (.after State.logCmd_moves (.after State.activate_moves (.after State.modChan_moves .refl))))

theorem State.clearBank_moves {s : State} {c : Nat} {t : Nat} : Moves [.objs, .mem] s (State.clearBank s c t) := by
  delta State.clearBank
  exact .after State.issueDue_moves .refl

theorem State.access_moves {s : State} {c : Nat} {a : Nat} {master : Nat} {write : Bool} : Moves [.objs, .mem] s (State.access s c a master write) := by
  delta State.access
  extract_lets l1 l2 l3
  refine .after State.logCmd_moves (.after State.activate_moves ?_)
  exact .after State.clearBank_moves .refl

theorem State.countBlock_moves {s : State} {status : Nat} {seq : Nat} {job : Nat} : Moves [.objs, .flt, .bbx] s (State.countBlock s status seq job) := by
  delta State.countBlock
  extract_lets l1
  have h_l1 : Moves [.objs, .flt, .bbx] s l1 := by
    unfold l1
    refine .ite ?_ ?_
    · exact .after State.bump_moves .refl
    · exact .after State.bump_moves .refl
  refine .ite ?_ ?_
  · exact .after State.raise_moves h_l1
  · exact h_l1

theorem State.ack_moves {s : State} {status : Nat} {stream : Nat} {seq : Nat} {job : Nat} {first : Nat} : Moves [.sent, .objs, .flt, .bbx] s (State.ack s status stream seq job first) := by
  delta State.ack
  extract_lets l1
  refine .after State.countBlock_moves (.after State.emit_moves ?_)
  exact .refl

theorem State.admitWaiting_moves {c : Nat} {held l : List MemWait} {s : State} :
    Moves [.sent, .mem] s (State.admitWaiting c held l s) := by
  induction l generalizing held s with
  | nil => delta State.admitWaiting; exact .after State.modChan_moves .refl
  | cons q l ih =>
    simp only [State.admitWaiting]
    refine .ite (.after ih .refl) ?_
    cases q with
    | read r =>
      dsimp only
      split
      · exact .after ih (.after State.emit_moves .refl)
      · exact .after ih (.after State.modChan_moves .refl)
    | write w => exact .ite (.after ih (.after State.modChan_moves .refl)) (.ite (.after ih (.after State.modChan_moves .refl)) (.after ih .refl))

theorem State.takeIn_moves {s : State} {c : Nat} : Moves [.sent, .mem] s (State.takeIn s c) := by
  delta State.takeIn
  refine .ite ?_ ?_
  · exact .refl
  · exact .after State.admitWaiting_moves .refl

theorem State.rankCmd_moves {s : State} {c : Nat} {cmd : Nat} : Moves [.mem] s (State.rankCmd s c cmd) := by
  delta State.rankCmd
  refine .forRange ?_ fun i1 t2 h_t2 => ?_
  · exact .refl
  · exact .after State.logCmd_moves h_t2

theorem State.wakeChan_moves {s : State} {c : Nat} : Moves [.mem] s (State.wakeChan s c) := by
  delta State.wakeChan
  refine .ite ?_ ?_
  · refine .after State.rankCmd_moves (.after State.modChan_moves ?_)
    exact .refl
  · exact .refl

theorem State.refreshRank_moves {s : State} {c : Nat} {rank : Nat} : Moves [.objs, .mem] s (State.refreshRank s c rank) := by
  delta State.refreshRank
  extract_lets l1
  have h_l1 : Moves [.objs, .mem] s l1 := by
    unfold l1
    refine .forRange ?_ fun i2 t3 h_t3 => ?_
    · exact .refl
    · extract_lets l4
      have h_l4 : Moves [.objs, .mem] s l4 := by
        unfold l4
        refine .ite ?_ ?_
        · exact h_t3
        · exact .after State.issueDue_moves h_t3
      exact .after State.logCmd_moves h_l4
  exact .after State.modChan_moves h_l1

theorem State.refreshOwed_moves {s : State} {c : Nat} : Moves [.objs, .mem] s (State.refreshOwed s c) := by
  delta State.refreshOwed
  refine .forRange ?_ fun i1 t2 h_t2 => ?_
  · exact .refl
  · refine .forRange ?_ fun i3 t4 h_t4 => ?_
    · exact h_t2
    · exact .after State.refreshRank_moves h_t4

theorem State.selfRefresh_moves {s : State} {c : Nat} : Moves [.objs, .mem] s (State.selfRefresh s c) := by
  delta State.selfRefresh
  refine .after State.rankCmd_moves (.after State.refreshOwed_moves ?_)
  exact .refl

theorem State.atRest_moves {s : State} {c : Nat} : Moves [.objs, .mem] s (State.atRest s c) := by
  delta State.atRest
  extract_lets l1
  have h_l1 : Moves [.objs, .mem] s l1 := by
    unfold l1
    refine .after State.issueDue_moves (.after State.refreshOwed_moves ?_)
    exact .refl
  split
  · refine .after State.modChan_moves (.after State.selfRefresh_moves ?_)
    exact h_l1
  · exact h_l1

theorem State.issueWrite_moves {s : State} {c : Nat} {w : MemWrite} : Moves [.objs, .mem, .dram] s (State.issueWrite s c w) := by
  delta State.issueWrite
  exact .after State.issueWrite_cells (.after State.access_moves .refl)

theorem settleN_moves {n c : Nat} {s : State} : Moves [.sent, .objs, .mem, .dram] s (settleN n c s) := by
  induction n generalizing s with
  | zero => exact .refl
  | succ n ih =>
    have h : ∀ f, Moves [.sent, .objs, .mem, .dram] s ((s.takeIn c).modChan c f) :=
      fun f => .after State.modChan_moves (.after State.takeIn_moves .refl)
    simp only [settleN]
    refine .ite (h _) (.ite (.ite (.after State.atRest_moves (h _)) (h _)) (.ite ?_ (h _)))
    split
    · exact .after ih (.after State.issueWrite_moves (.after State.modChan_moves (h _)))
    · exact h _

theorem State.settle_moves {s : State} {c : Nat} : Moves [.sent, .objs, .mem, .dram] s (State.settle s c) := by
  delta State.settle
  extract_lets l1
  refine .ite ?_ ?_
  · exact .after settleN_moves .refl
  · exact .refl

theorem State.memRequest_moves {s : State} {c : Nat} {a : Nat} {master : Nat} {data : Option Bytes} : Moves [.sent, .objs, .mem, .dram] s (State.memRequest s c a master data) := by
  delta State.memRequest
  extract_lets l1 l2
  have h_l1 : Moves [.sent, .objs, .mem, .dram] s l1 := by
    unfold l1
    exact .after State.wakeChan_moves .refl
  refine .after State.settle_moves (.after State.modChan_moves ?_)
  exact h_l1

theorem State.memWrite_moves {s : State} {a : Nat} {b : Bytes} {master : Nat} : Moves [.sent, .objs, .mem, .dram] s (State.memWrite s a b master) := by
  delta State.memWrite
  refine .ite ?_ ?_
  · exact .refl
  · refine .forRange ?_ fun i1 t2 h_t2 => ?_
    · exact .refl
    · extract_lets l3 l4
      split
      · exact .after State.memRequest_moves h_t2
      · exact h_t2

theorem State.tellSlot_moves {s : State} {k : Nat} : Moves [.sent, .mir] s (State.tellSlot s k) := by
  delta State.tellSlot
  refine .ite ?_ ?_
  · exact .after State.linkSend_moves .refl
  · exact .refl

theorem State.emptySlot_moves {s : State} {k : Nat} : Moves [.sent, .rin, .mir] s (State.emptySlot s k) := by
  delta State.emptySlot
  extract_lets l1 l2 l3
  have h_l1 : Moves [.sent, .rin, .mir] s l1 := by
    unfold l1
    exact .after State.modSlot_moves .refl
  have h_l3 : Moves [.sent, .rin, .mir] s l3 := by
    unfold l3
    exact .rin h_l1
  exact .after State.tellSlot_moves h_l3

theorem State.modChe_moves {s : State} {b : Nat} {f : CheBar → CheBar} : Moves [.che] s (State.modChe s b f) := by
  delta State.modChe
  extract_lets l1
  exact .che .refl

theorem State.cheOldGone_moves {s : State} : Moves [.che] s (State.cheOldGone s) := by
  delta State.cheOldGone
  refine .forRange ?_ fun i1 t2 h_t2 => ?_
  · exact .refl
  · exact .after State.modChe_moves h_t2

theorem State.setSlot_moves {s : State} {k : Nat} {st : SlotSt} : Moves [.sent, .rin, .mir] s (State.setSlot s k st) := by
  delta State.setSlot
  refine .after State.tellSlot_moves (.after State.modSlot_moves ?_)
  exact .refl

theorem State.cheLeft_moves {s : State} {b : Nat} {k : Nat} {n : Nat} {p : Nat} : Moves [.che] s (State.cheLeft s b k n p) := by
  delta State.cheLeft
  exact .after State.modChe_moves .refl

theorem State.cheJobStart_moves {s : State} {b : Nat} {n : Nat} : Moves [.che] s (State.cheJobStart s b n) := by
  delta State.cheJobStart
  exact .after State.modChe_moves .refl

theorem State.timeToEmpty_moves {s : State} {b : Nat} : Moves [.objs] s (State.timeToEmpty s b) := by
  delta State.timeToEmpty
  extract_lets l1 l2 l3 l4
  exact .after State.setNum_moves .refl

theorem State.answer_moves {s : State} {fwd : Bool} {status : Nat} {stream : Nat} {seq : Nat} {job : Nat} {first : Nat} : Moves [.sent, .objs, .flt, .bbx, .mir] s (State.answer s fwd status stream seq job first) := by
  delta State.answer
  refine .ite ?_ ?_
  · refine .after State.countBlock_moves (.after State.linkSend_moves ?_)
    exact .refl
  · exact .after State.ack_moves .refl

theorem State.restoreCmds_moves {s : State} {c : Nat} : Moves [.fresh, .mem] s (State.restoreCmds s c) := by
  delta State.restoreCmds
  split
  · rename_i x1 x2 x3 x4
    have h_x3 : Moves [.fresh, .mem] s x3 := by
      refine MovesP.of_eq x4 (.after State.freeBelow_moves ?_)
      exact .refl
    refine .after State.rankCmd_moves ?_
    refine .forRange ?_ fun i5 t6 h_t6 => ?_
    · exact h_x3
    · exact .after State.rankCmd_moves h_t6

theorem State.stepCmds_moves {s : State} {c : Nat} {step : Nat} : Moves [.fresh, .mem] s (State.stepCmds s c step) := by
  delta State.stepCmds
  refine .ite ?_ ?_
  · exact .after State.rankCmd_moves .refl
  · split
    · rename_i x1 x2 x3 x4
      have h_x3 : Moves [.fresh, .mem] s x3 := by
        refine MovesP.of_eq x4 (.after State.freeBelow_moves ?_)
        exact .refl
      refine .forRange ?_ fun i5 t6 h_t6 => ?_
      · exact h_x3
      · split
        · rename_i x7 x8 x9 x10
          have h_x9 : Moves [.fresh, .mem] s x9 := by
            refine MovesP.of_eq x10 (.after State.freeBelow_moves ?_)
            exact h_t6
          split
          · rename_i x11 x12 x13 x14
            have h_x13 : Moves [.fresh, .mem] s x13 := by
              refine MovesP.of_eq x14 (.after State.freeBelow_moves ?_)
              exact h_x9
            split
            · rename_i x15 x16 x17 x18
              have h_x17 : Moves [.fresh, .mem] s x17 := by
                refine MovesP.of_eq x18 (.after State.freeBelow_moves ?_)
                exact h_x13
              split
              · rename_i x19 x20 x21 x22
                have h_x21 : Moves [.fresh, .mem] s x21 := by
                  refine MovesP.of_eq x22 (.after State.freeBelow_moves ?_)
                  exact h_x17
                split
                · rename_i x23 x24 x25 x26
                  have h_x25 : Moves [.fresh, .mem] s x25 := by
                    refine MovesP.of_eq x26 (.after State.freeBelow_moves ?_)
                    exact h_x21
                  split
                  · rename_i x27 x28 x29 x30
                    have h_x29 : Moves [.fresh, .mem] s x29 := by
                      refine MovesP.of_eq x30 (.after State.freeBelow_moves ?_)
                      exact h_x25
                    exact .after State.logCmd_moves h_x29

theorem State.startTraining_moves {s : State} {c : Nat} {restore : Bool} : Moves [.fresh, .mem] s (State.startTraining s c restore) := by
  delta State.startTraining
  extract_lets l1
  have h_l1 : Moves [.fresh, .mem] s l1 := by
    unfold l1
    exact .after State.modChan_moves .refl
  refine .ite ?_ ?_
  · exact .after State.restoreCmds_moves h_l1
  · exact .after State.stepCmds_moves h_l1

theorem State.trainForConfigured_moves {s : State} {c : Nat} : Moves [.fresh, .mem] s (State.trainForConfigured s c) := by
  delta State.trainForConfigured
  extract_lets l1
  refine .ite ?_ ?_
  · exact .after State.startTraining_moves .refl
  · exact .refl

theorem State.beginRetain_moves {s : State} {c : Nat} : Moves [.sent, .objs, .mem, .dram] s (State.beginRetain s c) := by
  delta State.beginRetain
  extract_lets l1
  refine .ite ?_ ?_
  · refine .after State.settle_moves (.after State.modChan_moves ?_)
    exact .refl
  · exact .refl

theorem State.rinBlockReset_moves {s : State} : Moves [.sent, .objs, .flt, .bbx, .rin, .mir] s (State.rinBlockReset s) := by
  delta State.rinBlockReset
  extract_lets l1 l2 l3 l4 l5
  have h_l2 : Moves [.sent, .objs, .flt, .bbx, .rin, .mir] s l2 := by
    unfold l2
    refine .forEach ?_ fun i6 t7 h_t7 => ?_
    · exact .refl
    · exact .after State.answer_moves h_t7
  have h_l5 : Moves [.sent, .objs, .flt, .bbx, .rin, .mir] s l5 := by
    unfold l5
    exact .after State.clearObjs_moves h_l2
  exact .rin h_l5

theorem State.chanBlockReset_moves {s : State} {c : Nat} : Moves [.objs, .mem] s (State.chanBlockReset s c) := by
  delta State.chanBlockReset
  extract_lets l1 l2 l3 l4
  have h_l2 : Moves [.objs, .mem] s l2 := by
    unfold l2
    exact .after State.addNum_moves .refl
  have h_l3 : Moves [.objs, .mem] s l3 := by
    unfold l3
    exact .after State.clearObjs_moves h_l2
  exact .after State.modChan_moves h_l3

theorem State.holdLog_moves {s : State} {bar : Nat} {kind : Nat} {g : GainLoad} {takeUp : Nat} : Moves [.che] s (State.holdLog s bar kind g takeUp) := by
  delta State.holdLog
  extract_lets l1 l2 l3 l4
  exact .che .refl

theorem State.discardWindow_moves {s : State} {cause : Nat} : Moves [.objs, .flt, .bbx, .che] s (State.discardWindow s cause) := by
  delta State.discardWindow
  extract_lets l1 l2 l3 l4
  have h_l1 : Moves [.objs, .flt, .bbx, .che] s l1 := by
    unfold l1
    exact .after State.bump_moves .refl
  have h_l2 : Moves [.objs, .flt, .bbx, .che] s l2 := by
    unfold l2
    exact .after State.raise_moves h_l1
  have h_l3 : Moves [.objs, .flt, .bbx, .che] s l3 := by
    unfold l3
    exact .after State.holdLog_moves h_l2
  refine .ite ?_ ?_
  · exact .che h_l3
  · exact .refl

theorem State.clearTrack_moves {s : State} {cause : Nat} : Moves [.objs, .flt, .bbx, .che] s (State.clearTrack s cause) := by
  delta State.clearTrack
  extract_lets l1 l2 l3
  have h_l1 : Moves [.objs, .flt, .bbx, .che] s l1 := by
    unfold l1
    exact .after State.raise_moves .refl
  have h_l3 : Moves [.objs, .flt, .bbx, .che] s l3 := by
    unfold l3
    exact .che h_l1
  refine .ite ?_ ?_
  · exact .after State.discardWindow_moves h_l3
  · exact .refl

theorem State.slotCommand_moves {s : State} {k : Nat} {v : Nat} : MovesE [.sent, .rin, .mir] s (State.slotCommand s k v) := by
  delta State.slotCommand
  extract_lets l1 l2 l3
  have h_l3 : Moves [.sent, .rin, .mir] s l3 := by
    unfold l3
    exact .after State.modSlot_moves .refl
  refine .ite ?_ ?_
  · refine .ite ?_ ?_
    · exact .error
    · refine .ite ?_ ?_
      · exact .error
      · refine .ite ?_ ?_
        · exact .error
        · refine .ite ?_ ?_
          · exact .error
          · refine .ok (.after State.setSlot_moves ?_)
            exact h_l3
  · refine .ite ?_ ?_
    · refine .ite ?_ ?_
      · exact .error
      · refine .ite ?_ ?_
        · exact .error
        · refine .ok (.after State.setSlot_moves ?_)
          exact .refl
    · refine .ite ?_ ?_
      · exact .error
      · refine .ok (.after State.emptySlot_moves ?_)
        exact .refl

theorem State.markXon_moves {s : State} {fill : Nat} : Moves [.rin] s (State.markXon s fill) := by
  delta State.markXon
  extract_lets l1 l2 l3
  exact .rin .refl

theorem State.fillMoved_moves {s : State} : Moves [.rin] s (State.fillMoved s) := by
  delta State.fillMoved
  extract_lets l1 l2
  have h_l1 : Moves [.rin] s l1 := by
    unfold l1
    exact .after State.markXon_moves .refl
  refine .ite ?_ ?_
  · exact .rin h_l1
  · exact h_l1

theorem State.queueSlot_moves {s : State} {v : Nat} : MovesE [.objs] s (State.queueSlot s v) := by
  delta State.queueSlot
  refine .ite ?_ ?_
  · exact .error
  · refine .ite ?_ ?_
    · refine .ok (.after State.setNum_moves ?_)
      exact .refl
    · refine .ite ?_ ?_
      · exact .error
      · refine .ite ?_ ?_
        · exact .error
        · refine .ok (.after State.setNum_moves ?_)
          exact .refl

theorem State.changeAt_moves {s : State} {v : Nat} : MovesE [.objs] s (State.changeAt s v) := by
  delta State.changeAt
  extract_lets l1 l2 l3 l4
  refine .ite ?_ ?_
  · exact .error
  · refine .ite ?_ ?_
    · refine .ok (.after State.setNum_moves ?_)
      exact .refl
    · exact .error

theorem hookRaster_moves {idx : Nat} {sub : Nat} {v : Val} {s : State} : MovesH [.sent, .objs, .rin, .mir] s (hookRaster idx sub v s) := by
  delta hookRaster
  extract_lets l1 l2
  split
  · refine .some (.after State.slotCommand_moves ?_)
    exact .refl
  · refine .some (.ok ?_)
    refine .after State.fillMoved_moves (.after State.setObj_moves ?_)
    exact .refl
  · refine .some (.ok ?_)
    refine .ite ?_ ?_
    · exact .rin .refl
    · exact .refl
  · refine .some (.after State.queueSlot_moves ?_)
    exact .refl
  · refine .some (.after State.changeAt_moves ?_)
    exact .refl
  · exact .none

theorem State.startFreq_moves {s : State} {c : Nat} {p : Nat} : Moves [.sent, .objs, .mem, .dram] s (State.startFreq s c p) := by
  delta State.startFreq
  extract_lets l1
  have h_l1 : Moves [.sent, .objs, .mem, .dram] s l1 := by
    unfold l1
    exact .after State.wakeChan_moves .refl
  refine .after State.settle_moves (.after State.modChan_moves ?_)
  exact h_l1

theorem State.selectPoint_moves {s : State} {c : Nat} {v : Nat} : MovesE [.sent, .objs, .mem, .dram] s (State.selectPoint s c v) := by
  delta State.selectPoint
  extract_lets l1 l2 l3
  have h_l2 : Moves [.sent, .objs, .mem, .dram] s l2 := by
    unfold l2
    exact .after State.setNum_moves .refl
  refine .ite ?_ ?_
  · exact .error
  · split
    · refine .ok (.after State.modChan_moves ?_)
      exact h_l2
    · refine .ok (.after State.modChan_moves ?_)
      exact h_l2
    · refine .ok (.after State.modChan_moves ?_)
      exact h_l2
    · refine .ok (.ite ?_ ?_)
      · exact h_l2
      · exact .after State.startFreq_moves h_l2

theorem State.trainRequest_moves {s : State} {c : Nat} {v : Nat} : MovesE [.fresh, .mem] s (State.trainRequest s c v) := by
  delta State.trainRequest
  extract_lets l1
  refine .ite ?_ ?_
  · exact .error
  · refine .ite ?_ ?_
    · exact .error
    · refine .ite ?_ ?_
      · refine .ok (.after State.modChan_moves ?_)
        exact .refl
      · refine .ok (.after State.startTraining_moves ?_)
        exact .after State.wakeChan_moves .refl

theorem State.resumeChan_moves {s : State} {c : Nat} : Moves [.sent, .objs, .mem, .dram] s (State.resumeChan s c) := by
  delta State.resumeChan
  extract_lets l1
  have h_l1 : Moves [.sent, .objs, .mem, .dram] s l1 := by
    unfold l1
    exact .after State.modChan_moves .refl
  split
  · exact .after State.startFreq_moves h_l1
  · exact .after State.settle_moves h_l1

theorem State.issueAll_moves {s : State} {c : Nat} : Moves [.objs, .mem, .dram] s (State.issueAll s c) := by
  delta State.issueAll
  extract_lets l1 l2
  have h_l2 : Moves [.objs, .mem, .dram] s l2 := by
    unfold l2
    exact .after State.modChan_moves .refl
  refine .forEach ?_ fun i3 t4 h_t4 => ?_
  · exact h_l2
  · exact .after State.issueWrite_moves h_t4

theorem State.release_moves {s : State} {c : Nat} {v : Nat} : MovesE [.fresh, .sent, .objs, .mem, .dram] s (State.release s c v) := by
  delta State.release
  extract_lets l1 l2 l3
  have h_l2 : Moves [.fresh, .sent, .objs, .mem, .dram] s l2 := by
    unfold l2
    exact .after State.addNum_moves .refl
  have h_l3 : Moves [.fresh, .sent, .objs, .mem, .dram] s l3 := by
    unfold l3
    exact .after State.modChan_moves h_l2
  refine .ite ?_ ?_
  · exact .error
  · refine .ite ?_ ?_
    · refine .ok (.after State.resumeChan_moves ?_)
      exact .after State.issueAll_moves .refl
    · refine .ite ?_ ?_
      · refine .ok (.after State.resumeChan_moves ?_)
        exact h_l3
      · refine .ok (.after State.startTraining_moves ?_)
        exact .after State.modChan_moves h_l3

theorem hookMemory_moves {idx : Nat} {sub : Nat} {v : Val} {s : State} : MovesH [.fresh, .sent, .objs, .mem, .dram] s (hookMemory idx sub v s) := by
  delta hookMemory
  extract_lets l1 l2 l3
  have h_l3 : Moves [.fresh, .sent, .objs, .mem, .dram] s l3 := by
    unfold l3
    exact .after State.setObj_moves .refl
  split
  · rename_i x4
    refine .some (.ok ?_)
    exact .after State.modChan_moves h_l3
  · rename_i x5
    refine .ite ?_ ?_
    · refine .some (.ok ?_)
      refine .after State.modChan_moves (.after State.setObj_moves ?_)
      exact .refl
    · exact .some .error
  · rename_i x6
    refine .ite ?_ ?_
    · refine .some (.ok ?_)
      refine .after State.modChan_moves (.after State.setObj_moves ?_)
      exact .refl
    · exact .some .error
  · rename_i x7
    refine .some (.ok ?_)
    refine .after State.modChan_moves (.after State.setObj_moves ?_)
    exact .refl
  · rename_i x8
    refine .some (.ok ?_)
    refine .after State.modChan_moves (.after State.setObj_moves ?_)
    exact .refl
  · rename_i x9
    refine .some (.after State.selectPoint_moves ?_)
    exact .refl
  · rename_i x10
    refine .some (.after State.trainRequest_moves ?_)
    exact .refl
  · rename_i x11
    refine .some (.ok ?_)
    refine .after State.modChan_moves (.after State.setObj_moves ?_)
    exact .refl
  · rename_i x12
    refine .some (.after State.release_moves ?_)
    exact .refl
  · exact .none

theorem State.modBlock_moves {s : State} {i : Nat} {f : FifoBlock → FifoBlock} : Moves [.rin] s (State.modBlock s i f) := by
  delta State.modBlock
  extract_lets l1
  exact .rin .refl

theorem State.blockCodecError_moves {s : State} {i : Nat} {x : FifoBlock} {b : Nat} {d : Nat} : Moves [.sent, .objs, .flt, .bbx, .rin, .mir] s (State.blockCodecError s i x b d) := by
  delta State.blockCodecError
  extract_lets l1 l2 l3
  have h_l1 : Moves [.sent, .objs, .flt, .bbx, .rin, .mir] s l1 := by
    unfold l1
    exact .after State.modBlock_moves .refl
  have h_l2 : Moves [.sent, .objs, .flt, .bbx, .rin, .mir] s l2 := by
    unfold l2
    exact .after State.modSlot_moves h_l1
  have h_l3 : Moves [.sent, .objs, .flt, .bbx, .rin, .mir] s l3 := by
    unfold l3
    exact .after State.raise_moves h_l2
  exact .after State.answer_moves h_l3

theorem State.blockStored_moves {s : State} {i : Nat} {x : FifoBlock} : Moves [.sent, .objs, .flt, .bbx, .rin, .mir] s (State.blockStored s i x) := by
  delta State.blockStored
  extract_lets l1
  have h_l1 : Moves [.sent, .objs, .flt, .bbx, .rin, .mir] s l1 := by
    unfold l1
    exact .after State.modBlock_moves .refl
  refine .ite ?_ ?_
  · exact .after State.answer_moves h_l1
  · exact h_l1

theorem State.blockUnknown_moves {s : State} {i : Nat} {x : FifoBlock} : Moves [.sent, .objs, .flt, .bbx, .rin, .mir] s (State.blockUnknown s i x) := by
  delta State.blockUnknown
  extract_lets l1 l2
  have h_l1 : Moves [.sent, .objs, .flt, .bbx, .rin, .mir] s l1 := by
    unfold l1
    exact .after State.modBlock_moves .refl
  refine .after State.answer_moves (.rin ?_)
  exact h_l1

theorem State.chanOff_moves {s : State} {c : Nat} : Moves [.mem, .dram] s (State.chanOff s c) := by
  delta State.chanOff
  refine .after State.modChan_moves (.after State.loseDram_moves ?_)
  exact .refl

theorem State.chanOn_moves {s : State} {c : Nat} : Moves [.fresh, .sent, .objs, .mem, .dram] s (State.chanOn s c) := by
  delta State.chanOn
  extract_lets l1
  refine .ite ?_ ?_
  · exact .refl
  · refine .ite ?_ ?_
    · refine .after State.rankCmd_moves (.after State.modChan_moves ?_)
      exact .refl
    · refine .ite ?_ ?_
      · refine .after State.settle_moves (.after State.modChan_moves ?_)
        refine .after State.restoreCmds_moves (.after State.rankCmd_moves ?_)
        exact .refl
      · exact .after State.modChan_moves .refl

theorem State.chanRetain_moves {s : State} {c : Nat} : Moves [.objs, .mem, .dram] s (State.chanRetain s c) := by
  delta State.chanRetain
  extract_lets l1 l2 l3
  have h_l2 : ∀ a1 a2 a3, Moves [.objs, .mem, .dram] s a1 → Moves [.objs, .mem, .dram] s (l2 a1 a2 a3) := by
    intro a1 a2 a3 h_a1
    unfold l2
    exact .after State.modChan_moves h_a1
  have h_l3 : Moves [.objs, .mem, .dram] s l3 := by
    unfold l3
    exact .after State.addNum_moves .refl
  split
  · exact .refl
  · exact .refl
  · refine h_l2 _ _ _ (.after State.loseDram_moves ?_)
    exact .refl
  · refine h_l2 _ _ _ (.after State.rankCmd_moves ?_)
    exact .after State.modChan_moves h_l3
  · exact h_l2 _ _ _ .refl
  · refine h_l2 _ _ _ (.after State.selfRefresh_moves ?_)
    exact .refl

theorem State.dimmSensor_moves {s : State} {c : Nat} {sensor : Nat} {value : Option Int} : Moves [.objs, .flt, .bbx, .mem] s (State.dimmSensor s c sensor value) := by
  delta State.dimmSensor
  split
  · refine .after State.raise_moves (.after State.modChan_moves ?_)
    exact .refl
  · extract_lets l1 l2 l3 l4
    have h_l1 : Moves [.objs, .flt, .bbx, .mem] s l1 := by
      unfold l1
      exact .after State.modChan_moves .refl
    have h_l4 : Moves [.objs, .flt, .bbx, .mem] s l4 := by
      unfold l4
      exact .after State.modChan_moves h_l1
    refine .ite ?_ ?_
    · exact .after State.raise_moves h_l4
    · exact h_l4

theorem State.dimmUnread_moves {s : State} {c : Nat} : Moves [.mem] s (State.dimmUnread s c) := by
  delta State.dimmUnread
  exact .after State.modChan_moves .refl

theorem State.flagCmd_moves {s : State} {c : Nat} {flag : Nat} : Moves [.mem] s (State.flagCmd s c flag) := by
  delta State.flagCmd
  exact .after State.modChan_moves .refl

theorem State.forwardFailed_moves {s : State} {i : Nat} : Moves [.objs, .flt, .bbx, .rin] s (State.forwardFailed s i) := by
  delta State.forwardFailed
  split
  · exact .refl
  · extract_lets l1 l2 l3 l4
    have h_l2 : Moves [.objs, .flt, .bbx, .rin] s l2 := by
      unfold l2
      exact .rin .refl
    have h_l3 : Moves [.objs, .flt, .bbx, .rin] s l3 := by
      unfold l3
      exact .after State.modBlock_moves h_l2
    refine .ite ?_ ?_
    · refine .after State.raise_moves (.rin ?_)
      exact h_l3
    · exact h_l3

theorem State.freezeChan_moves {s : State} {c : Nat} {cause : Nat} {address : Nat} {loc : Nat} {synd : Bytes} {map : Nat} : Moves [.sent, .objs, .pwr, .flt, .bbx, .mem, .hlk] s (State.freezeChan s c cause address loc synd map) := by
  delta State.freezeChan
  extract_lets l1 l2 l3 l4 l5 l6 l7 l8 l9 l10
  have h_l2 : Moves [.sent, .objs, .pwr, .flt, .bbx, .mem, .hlk] s l2 := by
    unfold l2
    exact .after State.modChan_moves .refl
  have h_l4 : Moves [.sent, .objs, .pwr, .flt, .bbx, .mem, .hlk] s l4 := by
    unfold l4
    exact .after State.setNum_moves h_l2
  have h_l5 : Moves [.sent, .objs, .pwr, .flt, .bbx, .mem, .hlk] s l5 := by
    unfold l5
    exact .after State.setNum_moves h_l4
  have h_l6 : Moves [.sent, .objs, .pwr, .flt, .bbx, .mem, .hlk] s l6 := by
    unfold l6
    exact .after State.setObj_moves h_l5
  have h_l7 : Moves [.sent, .objs, .pwr, .flt, .bbx, .mem, .hlk] s l7 := by
    unfold l7
    exact .after State.setNum_moves h_l6
  have h_l8 : Moves [.sent, .objs, .pwr, .flt, .bbx, .mem, .hlk] s l8 := by
    unfold l8
    exact .after State.setNum_moves h_l7
  have h_l9 : Moves [.sent, .objs, .pwr, .flt, .bbx, .mem, .hlk] s l9 := by
    unfold l9
    exact .after State.setObj_moves h_l8
  have h_l10 : Moves [.sent, .objs, .pwr, .flt, .bbx, .mem, .hlk] s l10 := by
    unfold l10
    exact .after State.raise_moves h_l9
  refine .ite ?_ ?_
  · refine .after State.abandonRequest_moves (.after State.abandonTraining_moves ?_)
    exact h_l10
  · exact h_l10

theorem State.gainTaken_moves {s : State} {b : Nat} {n : Nat} : Moves [.objs, .che] s (State.gainTaken s b n) := by
  delta State.gainTaken
  split
  · exact .refl
  · refine .after State.holdLog_moves (.after State.setNum_moves ?_)
    exact .after State.modChe_moves .refl

theorem State.overrunBegins_moves {s : State} {words : Nat} {seq : Nat} : Moves [.objs, .flt, .bbx, .rin] s (State.overrunBegins s words seq) := by
  delta State.overrunBegins
  extract_lets l1 l2
  have h_l1 : Moves [.objs, .flt, .bbx, .rin] s l1 := by
    unfold l1
    refine .after State.raise_moves (.after State.addNum_moves ?_)
    exact .refl
  exact .rin h_l1

theorem State.storeBlock_moves {s : State} {fwd : Bool} {b : RasterBlock} {k : Nat} : Moves [.objs, .rin] s (State.storeBlock s fwd b k) := by
  delta State.storeBlock
  extract_lets l1 l2 l3 l4
  have h_l3 : Moves [.objs, .rin] s l3 := by
    unfold l3
    exact .rin .refl
  have h_l4 : Moves [.objs, .rin] s l4 := by
    unfold l4
    refine .ite ?_ ?_
    · exact .after State.modSlot_moves h_l3
    · exact h_l3
  refine .after State.fillMoved_moves ?_
  refine .forEach ?_ fun i5 t6 h_t6 => ?_
  · exact h_l4
  · exact .after State.timeToEmpty_moves h_t6

theorem State.intake_moves {s : State} {fwd : Bool} {b : RasterBlock} : Moves [.fresh, .sent, .objs, .flt, .bbx, .rin, .mir] s (State.intake s fwd b) := by
  delta State.intake
  extract_lets l1 l2 l3 l4
  have h_l2 : Moves [.fresh, .sent, .objs, .flt, .bbx, .rin, .mir] s l2 := by
    unfold l2
    exact .after State.fillMoved_moves .refl
  have h_l3 : Moves [.fresh, .sent, .objs, .flt, .bbx, .rin, .mir] s l3 := by
    unfold l3
    exact .after State.addNum_moves h_l2
  have h_l4 : Moves [.fresh, .sent, .objs, .flt, .bbx, .rin, .mir] s l4 := by
    unfold l4
    refine .after State.raise_moves (.after State.markXon_moves ?_)
    exact h_l3
  refine .ite ?_ ?_
  · exact .after State.addNum_moves h_l2
  · refine .ite ?_ ?_
    · split
      · rename_i x5 x6 x7 x8
        have h_x7 : Moves [.fresh, .sent, .objs, .flt, .bbx, .rin, .mir] s x7 := by
          refine MovesP.of_eq x8 (.after State.freeBelow_moves ?_)
          exact h_l2
        exact .after State.overrunBegins_moves h_x7
    · refine .ite ?_ ?_
      · exact .after State.addNum_moves h_l3
      · split
        · extract_lets l9 l10
          have h_l9 : ∀ a1 a2, Moves [.fresh, .sent, .objs, .flt, .bbx, .rin, .mir] s a1 → Moves [.fresh, .sent, .objs, .flt, .bbx, .rin, .mir] s (l9 a1 a2) := by
            intro a1 a2 h_a1
            unfold l9
            exact .after State.answer_moves h_a1
          have h_l10 : Moves [.fresh, .sent, .objs, .flt, .bbx, .rin, .mir] s l10 := by
            unfold l10
            refine h_l9 _ _ (.after State.overrunBegins_moves ?_)
            exact h_l3
          refine .ite ?_ ?_
          · exact h_l9 _ _ h_l3
          · refine .ite ?_ ?_
            · refine .after State.fillMoved_moves (.after State.markXon_moves ?_)
              exact h_l10
            · refine .ite ?_ ?_
              · refine .after State.fillMoved_moves (h_l9 _ _ ?_)
                exact h_l4
              · exact .after State.storeBlock_moves h_l3

theorem State.keepPrev_moves {s : State} {k : Nat} {lines : List (Nat × Nat × Bytes)} : Moves [.rin] s (State.keepPrev s k lines) := by
  delta State.keepPrev
  refine .forEach ?_ fun i1 t2 h_t2 => ?_
  · exact .refl
  · exact .after State.modSlot_moves h_t2

theorem State.laneErrors_moves {s : State} {n : Nat → Nat} : Moves [.objs] s (State.laneErrors s n) := by
  delta State.laneErrors
  refine .forRange ?_ fun i1 t2 h_t2 => ?_
  · exact .refl
  · exact .after State.addNum_moves h_t2

theorem State.memAccess_moves {s : State} {a : Nat} {n : Nat} {master : Nat} : Moves [.sent, .objs, .mem, .dram] s (State.memAccess s a n master) := by
  delta State.memAccess
  refine .forRange ?_ fun i1 t2 h_t2 => ?_
  · exact .refl
  · split
    · refine .ite ?_ ?_
      · exact h_t2
      · refine .after State.settle_moves (.after State.access_moves ?_)
        exact .after State.wakeChan_moves h_t2
    · exact h_t2

theorem State.preempt_moves {s : State} {c : Nat} {rank : Nat} : Moves [.objs, .flt, .bbx, .mem] s (State.preempt s c rank) := by
  delta State.preempt
  extract_lets l1 l2 l3
  have h_l3 : Moves [.objs, .flt, .bbx, .mem] s l3 := by
    unfold l3
    refine .forRange ?_ fun i4 t5 h_t5 => ?_
    · exact .refl
    · exact .after State.refreshRank_moves h_t5
  refine .ite ?_ ?_
  · exact .refl
  · refine .ite ?_ ?_
    · refine .after State.raise_moves (.after State.bump_moves ?_)
      exact h_l3
    · exact h_l3

theorem State.stepForFreq_moves {s : State} {c : Nat} {p : Nat} : Moves [.objs, .mem] s (State.stepForFreq s c p) := by
  delta State.stepForFreq
  refine .after State.modChan_moves (.after State.selfRefresh_moves ?_)
  exact .refl

theorem State.stepForRetain_moves {s : State} {c : Nat} : Moves [.mem] s (State.stepForRetain s c) := by
  delta State.stepForRetain
  exact .after State.modChan_moves .refl

theorem State.trackPoint_moves {s : State} {t : Trig} : Moves [.objs, .flt, .bbx, .che] s (State.trackPoint s t) := by
  delta State.trackPoint
  extract_lets l1 l2 l3 l4
  have h_l2 : Moves [.objs, .flt, .bbx, .che] s l2 := by
    unfold l2
    refine .ite ?_ ?_
    · exact .after State.clearTrack_moves .refl
    · exact .refl
  refine .ite ?_ ?_
  · exact .refl
  · exact .che h_l2

theorem execRasterLinkUp_moves {s : State} : MovesO [.rin] s (execRasterLinkUp s) := by
  delta execRasterLinkUp
  extract_lets l1
  refine .ite ?_ ?_
  · refine .next (.after State.fillMoved_moves ?_)
    exact .rin .refl
  · exact .next .refl

theorem execRasterLinkLost_moves {s : State} : MovesO [.fresh, .objs, .flt, .bbx, .rin] s (execRasterLinkLost s) := by
  delta execRasterLinkLost
  refine .ite ?_ ?_
  · split
    · rename_i x1 x2 x3 x4
      have h_x3 : Moves [.fresh, .objs, .flt, .bbx, .rin] s x3 := by
        refine MovesP.of_eq x4 (.after State.freeBelow_moves ?_)
        exact .refl
      extract_lets l5 l6 l7 l8
      have h_l6 : Moves [.fresh, .objs, .flt, .bbx, .rin] s l6 := by
        unfold l6
        refine .after State.laneErrors_moves (.fresh ?_)
        exact h_x3
      have h_l8 : Moves [.fresh, .objs, .flt, .bbx, .rin] s l8 := by
        unfold l8
        exact .rin h_l6
      refine .next (.after State.raise_moves ?_)
      exact h_l8
  · exact .next .refl

theorem execRasterBlockReceived_moves {b : RasterBlock} {s : State} : MovesO [.fresh, .sent, .objs, .flt, .bbx, .rin, .mir] s (execRasterBlockReceived b s) := by
  delta execRasterBlockReceived
  extract_lets l1
  have h_l1 : Moves [.fresh, .sent, .objs, .flt, .bbx, .rin, .mir] s l1 := by
    unfold l1
    exact .after State.laneErrors_moves .refl
  refine .ite ?_ ?_
  · refine .next (.after State.intake_moves ?_)
    exact .after State.laneErrors_moves .refl
  · refine .ite ?_ ?_
    · split
      · rename_i x2 x3 x4 x5
        have h_x4 : Moves [.fresh, .sent, .objs, .flt, .bbx, .rin, .mir] s x4 := by
          refine MovesP.of_eq x5 (.after State.freeBelow_moves ?_)
          exact h_l1
        refine .ite ?_ ?_
        · refine .next (.after State.addNum_moves ?_)
          exact h_x4
        · refine .ite ?_ ?_
          · refine .next (.after State.addNum_moves ?_)
            exact h_x4
          · split
            · refine .next (.after State.ack_moves ?_)
              exact .after State.addNum_moves h_x4
    · exact .next .refl

theorem execJobWriterBlock_moves {s : State} : MovesO [.fresh, .sent, .objs, .flt, .bbx, .rin, .mem, .dram, .mir] s (execJobWriterBlock s) := by
  delta execJobWriterBlock
  split
  · exact .next .refl
  · split
    · refine .next (.ite ?_ ?_)
      · exact .after State.blockUnknown_moves .refl
      · exact .refl
    · extract_lets l1 l2 l3 l4 l5 l6
      have h_l5 : Moves [.fresh, .sent, .objs, .flt, .bbx, .rin, .mem, .dram, .mir] s l5 := by
        unfold l5
        exact .rin .refl
      have h_l6 : Moves [.fresh, .sent, .objs, .flt, .bbx, .rin, .mem, .dram, .mir] s l6 := by
        unfold l6
        refine .forEach ?_ fun i7 t8 h_t8 => ?_
        · exact h_l5
        · split
          · rename_i x9 x10 x11 x12
            have h_x11 : Moves [.fresh, .sent, .objs, .flt, .bbx, .rin, .mem, .dram, .mir] s x11 := by
              refine MovesP.of_eq x12 (.after State.freeBytes_moves ?_)
              exact h_t8
            extract_lets l13
            have h_l13 : Moves [.fresh, .sent, .objs, .flt, .bbx, .rin, .mem, .dram, .mir] s l13 := by
              unfold l13
              exact .after State.memWrite_moves h_x11
            exact .after State.modSlot_moves h_l13
      refine .ite ?_ ?_
      · exact .next .refl
      · refine .ite ?_ ?_
        · refine .next (.after State.blockUnknown_moves ?_)
          exact .refl
        · refine .ite ?_ ?_
          · refine .next (.rin ?_)
            exact .refl
          · split
            · refine .next (.after State.blockCodecError_moves ?_)
              exact h_l6
            · extract_lets l14
              have h_l14 : Moves [.fresh, .sent, .objs, .flt, .bbx, .rin, .mem, .dram, .mir] s l14 := by
                unfold l14
                refine .forEach ?_ fun i15 t16 h_t16 => ?_
                · exact h_l5
                · extract_lets l17
                  have h_l17 : Moves [.fresh, .sent, .objs, .flt, .bbx, .rin, .mem, .dram, .mir] s l17 := by
                    unfold l17
                    exact .after State.memWrite_moves h_t16
                  exact .after State.modSlot_moves h_l17
              refine .next (.after State.blockStored_moves ?_)
              exact .after State.keepPrev_moves h_l14

theorem execStreamDecodeBlock_moves {s : State} : MovesO [.sent, .objs, .flt, .bbx, .rin, .mir] s (execStreamDecodeBlock s) := by
  delta execStreamDecodeBlock
  split
  · exact .next .refl
  · split
    · refine .next (.ite ?_ ?_)
      · exact .after State.blockUnknown_moves .refl
      · exact .refl
    · extract_lets l1 l2 l3 l4 l5 l6
      have h_l5 : Moves [.sent, .objs, .flt, .bbx, .rin, .mir] s l5 := by
        unfold l5
        exact .rin .refl
      have h_l6 : ∀ a1 a2, Moves [.sent, .objs, .flt, .bbx, .rin, .mir] s a1 → Moves [.sent, .objs, .flt, .bbx, .rin, .mir] s (l6 a1 a2) := by
        intro a1 a2 h_a1
        unfold l6
        extract_lets l7 l8 l9
        have h_l9 : Moves [.sent, .objs, .flt, .bbx, .rin, .mir] s l9 := by
          unfold l9
          exact .rin h_a1
        refine .ite ?_ ?_
        · exact .after State.modSlot_moves h_l9
        · exact h_l9
      refine .ite ?_ ?_
      · exact .next .refl
      · refine .ite ?_ ?_
        · refine .next (.after State.blockUnknown_moves ?_)
          exact .refl
        · refine .ite ?_ ?_
          · refine .next (.rin ?_)
            exact .refl
          · refine .ite ?_ ?_
            · refine .next (.rin ?_)
              exact .refl
            · split
              · refine .next (.after State.blockCodecError_moves ?_)
                exact h_l6 _ _ h_l5
              · refine .next (.after State.blockStored_moves ?_)
                refine .after State.keepPrev_moves (h_l6 _ _ ?_)
                exact h_l5

theorem execForwardBlock_moves {s : State} : MovesO [.sent, .rin, .mir] s (execForwardBlock s) := by
  delta execForwardBlock
  split
  · exact .next .refl
  · extract_lets l1 l2 l3
    have h_l2 : Moves [.sent, .rin, .mir] s l2 := by
      unfold l2
      exact .after State.modBlock_moves .refl
    refine .ite ?_ ?_
    · refine .next ?_
      refine .forRange ?_ fun i4 t5 h_t5 => ?_
      · exact h_l2
      · exact .after State.linkSend_moves h_t5
    · exact .next .refl

theorem execForwardAckTimeout_moves {s : State} : MovesO [.objs, .flt, .bbx, .rin] s (execForwardAckTimeout s) := by
  delta execForwardAckTimeout
  split
  · refine .next (.ite ?_ ?_)
    · exact .after State.forwardFailed_moves .refl
    · exact .refl
  · exact .next .refl

theorem execBlockRelease_moves {s : State} : MovesO [.sent, .objs, .flt, .bbx, .rin] s (execBlockRelease s) := by
  delta execBlockRelease
  split
  · exact .next .refl
  · extract_lets l1 l2 l3 l4 l5
    have h_l2 : Moves [.sent, .objs, .flt, .bbx, .rin] s l2 := by
      unfold l2
      exact .rin .refl
    have h_l3 : Moves [.sent, .objs, .flt, .bbx, .rin] s l3 := by
      unfold l3
      refine .ite ?_ ?_
      · exact .after State.ack_moves h_l2
      · exact h_l2
    have h_l5 : Moves [.sent, .objs, .flt, .bbx, .rin] s l5 := by
      unfold l5
      split
      · refine .ite ?_ ?_
        · exact h_l3
        · exact .after State.raise_moves h_l3
      · exact h_l3
    refine .ite ?_ ?_
    · exact .next .refl
    · refine .next (.after State.fillMoved_moves ?_)
      exact h_l5

theorem execSealPassDone_moves {slot : Fin 2} {s : State} : MovesO [.sent, .objs, .rin, .mem, .dram, .mir] s (execSealPassDone slot s) := by
  delta execSealPassDone
  extract_lets l1 l2 l3 l4
  have h_l3 : Moves [.sent, .objs, .rin, .mem, .dram, .mir] s l3 := by
    unfold l3
    exact .after State.memAccess_moves .refl
  have h_l4 : Moves [.sent, .objs, .rin, .mem, .dram, .mir] s l4 := by
    unfold l4
    exact .after State.setNum_moves h_l3
  refine .ite ?_ ?_
  · refine .next (.after State.irq_moves ?_)
    exact .after State.setSlot_moves h_l4
  · exact .next .refl

theorem execMemoryRequest_moves {master : BitVec 8} {addr : BitVec 48} {data : Option Bytes} {s : State} : MovesO [.sent, .objs, .mem, .dram] s (execMemoryRequest master addr data s) := by
  delta execMemoryRequest
  split
  · exact .fault
  · refine .next (.after State.memRequest_moves ?_)
    exact .refl

theorem execMemoryReadComplete_moves {c : Chan} {errors : List (Fin 82 × BitVec 16)} {s : State} : MovesO [.fresh, .sent, .objs, .pwr, .flt, .bbx, .mem, .dram, .hlk] s (execMemoryReadComplete c errors s) := by
  delta execMemoryReadComplete
  extract_lets l1 l2 l3
  split
  · exact .next .refl
  · extract_lets l4 l5 l6 l7 l8 l9 l10 l11 l12 l13
    have h_l4 : Moves [.fresh, .sent, .objs, .pwr, .flt, .bbx, .mem, .dram, .hlk] s l4 := by
      unfold l4
      exact .after State.access_moves .refl
    have h_l5 : Moves [.fresh, .sent, .objs, .pwr, .flt, .bbx, .mem, .dram, .hlk] s l5 := by
      unfold l5
      exact .after State.modChan_moves h_l4
    have h_l9 : Moves [.fresh, .sent, .objs, .pwr, .flt, .bbx, .mem, .dram, .hlk] s l9 := by
      unfold l9
      exact .after State.flagCmd_moves h_l5
    have h_l10 : Moves [.fresh, .sent, .objs, .pwr, .flt, .bbx, .mem, .dram, .hlk] s l10 := by
      unfold l10
      exact .after State.bump_moves h_l9
    have h_l12 : Moves [.fresh, .sent, .objs, .pwr, .flt, .bbx, .mem, .dram, .hlk] s l12 := by
      unfold l12
      refine .after State.emit_moves (.after State.flagCmd_moves ?_)
      exact h_l5
    have h_l13 : Moves [.fresh, .sent, .objs, .pwr, .flt, .bbx, .mem, .dram, .hlk] s l13 := by
      unfold l13
      refine .after State.emit_moves (.after State.flagCmd_moves ?_)
      exact h_l5
    refine .ite ?_ ?_
    · exact .next .refl
    · split
      · refine .ite ?_ ?_
        · refine .next (.after State.settle_moves ?_)
          exact .after State.emit_moves h_l5
        · split
          · rename_i x14 x15 x16 x17
            have h_x16 : Moves [.fresh, .sent, .objs, .pwr, .flt, .bbx, .mem, .dram, .hlk] s x16 := by
              refine MovesP.of_eq x17 (.after State.freeBytes_moves ?_)
              exact h_l5
            refine .next (.after State.settle_moves ?_)
            exact .after State.emit_moves h_x16
      · extract_lets l18 l19 l20 l21 l22 l23 l24 l25
        have h_l19 : Moves [.fresh, .sent, .objs, .pwr, .flt, .bbx, .mem, .dram, .hlk] s l19 := by
          unfold l19
          exact .after State.setObj_moves h_l10
        have h_l20 : Moves [.fresh, .sent, .objs, .pwr, .flt, .bbx, .mem, .dram, .hlk] s l20 := by
          unfold l20
          exact .after State.setNum_moves h_l19
        have h_l21 : Moves [.fresh, .sent, .objs, .pwr, .flt, .bbx, .mem, .dram, .hlk] s l21 := by
          unfold l21
          exact .after State.setNum_moves h_l20
        have h_l22 : Moves [.fresh, .sent, .objs, .pwr, .flt, .bbx, .mem, .dram, .hlk] s l22 := by
          unfold l22
          exact .after State.setNum_moves h_l21
        have h_l25 : Moves [.fresh, .sent, .objs, .pwr, .flt, .bbx, .mem, .dram, .hlk] s l25 := by
          unfold l25
          refine .ite ?_ ?_
          · exact .after State.raise_moves h_l22
          · exact h_l22
        split
        · rename_i x26 x27 x28 x29
          have h_x28 : Moves [.fresh, .sent, .objs, .pwr, .flt, .bbx, .mem, .dram, .hlk] s x28 := by
            refine MovesP.of_eq x29 (.ite ?_ ?_)
            · exact .mk h_l25
            · exact .after State.freeBytes_moves h_l25
          refine .next (.after State.settle_moves ?_)
          exact .after State.emit_moves h_x28
      · refine .next (.after State.freezeChan_moves ?_)
        exact h_l12
      · refine .next (.after State.freezeChan_moves ?_)
        exact h_l13

theorem execAlertNAssert_moves {c : Chan} {s : State} : MovesO [.fresh, .sent, .objs, .pwr, .flt, .bbx, .mem, .hlk] s (execAlertNAssert c s) := by
  delta execAlertNAssert
  extract_lets l1
  have h_l1 : Moves [.fresh, .sent, .objs, .pwr, .flt, .bbx, .mem, .hlk] s l1 := by
    unfold l1
    exact .after State.flagCmd_moves .refl
  refine .ite ?_ ?_
  · split
    · rename_i x2 x3 x4 x5
      have h_x4 : Moves [.fresh, .sent, .objs, .pwr, .flt, .bbx, .mem, .hlk] s x4 := by
        refine MovesP.of_eq x5 (.after State.freeBelow_moves ?_)
        exact h_l1
      split
      · rename_i x6 x7 x8 x9
        have h_x8 : Moves [.fresh, .sent, .objs, .pwr, .flt, .bbx, .mem, .hlk] s x8 := by
          refine MovesP.of_eq x9 (.after State.freeBelow_moves ?_)
          exact h_x4
        split
        · rename_i x10 x11 x12 x13
          have h_x12 : Moves [.fresh, .sent, .objs, .pwr, .flt, .bbx, .mem, .hlk] s x12 := by
            refine MovesP.of_eq x13 (.after State.freeBelow_moves ?_)
            exact h_x8
          split
          · rename_i x14 x15 x16 x17
            have h_x16 : Moves [.fresh, .sent, .objs, .pwr, .flt, .bbx, .mem, .hlk] s x16 := by
              refine MovesP.of_eq x17 (.after State.freeBelow_moves ?_)
              exact h_x12
            split
            · rename_i x18 x19 x20 x21
              have h_x20 : Moves [.fresh, .sent, .objs, .pwr, .flt, .bbx, .mem, .hlk] s x20 := by
                refine MovesP.of_eq x21 (.after State.freeBytes_moves ?_)
                exact h_x16
              split
              · rename_i x22 x23 x24 x25
                have h_x24 : Moves [.fresh, .sent, .objs, .pwr, .flt, .bbx, .mem, .hlk] s x24 := by
                  refine MovesP.of_eq x25 (.after State.freeBelow_moves ?_)
                  exact h_x20
                split
                · rename_i x26 x27 x28 x29
                  have h_x28 : Moves [.fresh, .sent, .objs, .pwr, .flt, .bbx, .mem, .hlk] s x28 := by
                    refine MovesP.of_eq x29 (.after State.freeBelow_moves ?_)
                    exact h_x24
                  refine .next (.after State.freezeChan_moves ?_)
                  exact h_x28
  · exact .next .refl

theorem execRtBurstLimit_moves {c : Chan} {s : State} : MovesO [.sent, .objs, .mem, .dram] s (execRtBurstLimit c s) := by
  delta execRtBurstLimit
  refine .ite ?_ ?_
  · refine .next (.after State.settle_moves ?_)
    refine .after State.modChan_moves (.after State.bump_moves ?_)
    exact .refl
  · exact .next .refl

theorem execBurstGuardEnd_moves {c : Chan} {s : State} : MovesO [.sent, .objs, .mem, .dram] s (execBurstGuardEnd c s) := by
  delta execBurstGuardEnd
  refine .next (.after State.settle_moves ?_)
  exact .after State.modChan_moves .refl

theorem execRefreshIntervalBoundary_moves {c : Chan} {s : State} : MovesO [.sent, .objs, .flt, .bbx, .mem, .dram] s (execRefreshIntervalBoundary c s) := by
  delta execRefreshIntervalBoundary
  extract_lets l1
  have h_l1 : Moves [.sent, .objs, .flt, .bbx, .mem, .dram] s l1 := by
    unfold l1
    refine .forRange ?_ fun i2 t3 h_t3 => ?_
    · exact .refl
    · extract_lets l4
      have h_l4 : Moves [.sent, .objs, .flt, .bbx, .mem, .dram] s l4 := by
        unfold l4
        exact .after State.modChan_moves h_t3
      exact .after State.raiseMax_moves h_l4
  refine .ite ?_ ?_
  · refine .next (.ite ?_ ?_)
    · refine .forRange ?_ fun i5 t6 h_t6 => ?_
      · exact .after State.settle_moves h_l1
      · exact .after State.preempt_moves h_t6
    · exact .after State.refreshOwed_moves h_l1
  · exact .next .refl

theorem execChannelTrainingDone_moves {c : Chan} {outcome : TrainOutcome} {s : State} : MovesO [.fresh, .sent, .objs, .flt, .bbx, .mem, .dram] s (execChannelTrainingDone c outcome s) := by
  delta execChannelTrainingDone
  extract_lets l1 l2
  refine .ite ?_ ?_
  · exact .next .refl
  · split
    · split
      · refine .next (.after State.stepForFreq_moves ?_)
        exact .refl
      · refine .next (.after State.settle_moves ?_)
        exact .after State.modChan_moves .refl
    · extract_lets l3
      have h_l3 : Moves [.fresh, .sent, .objs, .flt, .bbx, .mem, .dram] s l3 := by
        unfold l3
        exact .after State.modChan_moves .refl
      refine .next (.after State.raise_moves ?_)
      exact h_l3
    · refine .ite ?_ ?_
      · refine .next (.after State.stepForRetain_moves ?_)
        exact .refl
      · split
        · refine .next (.after State.stepForFreq_moves ?_)
          exact .refl
        · refine .ite ?_ ?_
          · exact .next .refl
          · refine .next (.after State.stepCmds_moves ?_)
            exact .after State.modChan_moves .refl

theorem execFreqChangeDone_moves {c : Chan} {s : State} : MovesO [.fresh, .sent, .objs, .mem, .dram] s (execFreqChangeDone c s) := by
  delta execFreqChangeDone
  extract_lets l1 l2
  have h_l2 : Moves [.fresh, .sent, .objs, .mem, .dram] s l2 := by
    unfold l2
    exact .after State.rankCmd_moves .refl
  refine .ite ?_ ?_
  · refine .ite ?_ ?_
    · refine .next (.after State.stepForRetain_moves ?_)
      exact .after State.rankCmd_moves .refl
    · split
      · refine .next (.after State.modChan_moves ?_)
        exact .refl
      · refine .ite ?_ ?_
        · refine .next (.after State.settle_moves ?_)
          refine .after State.modChan_moves (.after State.restoreCmds_moves ?_)
          exact h_l2
        · refine .next (.after State.startTraining_moves ?_)
          exact h_l2
  · exact .next .refl

theorem execIdleTimeExpiry_moves {c : Chan} {s : State} : MovesO [.objs, .mem] s (execIdleTimeExpiry c s) := by
  delta execIdleTimeExpiry
  extract_lets l1
  refine .ite ?_ ?_
  · refine .next (.after State.modChan_moves ?_)
    refine .after State.bump_moves (.after State.selfRefresh_moves ?_)
    exact .refl
  · exact .next .refl

theorem execDqsDriftCorrection_moves {c : Chan} {s : State} : MovesO [.mem] s (execDqsDriftCorrection c s) := by
  delta execDqsDriftCorrection
  refine .next (.ite ?_ ?_)
  · exact .after State.rankCmd_moves .refl
  · exact .refl

theorem execFackReceived_moves {sequence : BitVec 32} {status : BitVec 8} {ok : Bool} {s : State} : MovesO [.objs, .flt, .bbx, .rin] s (execFackReceived sequence status ok s) := by
  delta execFackReceived
  split
  · exact .next .refl
  · refine .ite ?_ ?_
    · exact .next .refl
    · refine .ite ?_ ?_
      · refine .next (.after State.modBlock_moves ?_)
        exact .refl
      · refine .next (.ite ?_ ?_)
        · exact .after State.forwardFailed_moves .refl
        · exact .refl

end Sys2Proof.Machine
end

