-- ==== Sys2Proof/Laws/FramesPrint.lean ====
section
/-! SUPPORT. Frames: what the functions of the jobs, the fire sequencer, the engines and the measurement may change, one lemma a function. -/

set_option Elab.async false

namespace Sys2Proof.Machine

set_option maxRecDepth 4000
variable {ps qs : List StatePart} {t u v : State}

theorem State.dropFrom_moves {s : State} {b : Nat} {idx : Nat} : Moves [.sne, .fsq] s (State.dropFrom s b idx) := by
  delta State.dropFrom
  extract_lets l1 l2
  have h_l1 : Moves [.sne, .fsq] s l1 := by
    unfold l1
    exact .after State.modBar_moves .refl
  exact .sne h_l1

theorem State.modEngine_moves {s : State} {n : Nat} {f : Eng → Eng} : Moves [.sne] s (State.modEngine s n f) := by
  delta State.modEngine
  extract_lets l1
  exact .sne .refl

theorem State.settleEngines_moves {s : State} : Moves [.sne] s (State.settleEngines s) := by
  delta State.settleEngines
  refine .forRange ?_ fun i1 t2 h_t2 => ?_
  · exact .refl
  · refine .ite ?_ ?_
    · exact .after State.modEngine_moves h_t2
    · exact h_t2

theorem State.zeroSlice_moves {s : State} {k : Nat} : Moves [.sne] s (State.zeroSlice s k) := by
  delta State.zeroSlice
  extract_lets l1 l2
  exact .sne .refl

theorem State.giveSlice_moves {s : State} {k : Nat} {n : Nat} {failed : Nat} {cause : Nat} : Moves [.objs, .flt, .bbx, .sne] s (State.giveSlice s k n failed cause) := by
  delta State.giveSlice
  extract_lets l1 l2 l3
  have h_l2 : Moves [.objs, .flt, .bbx, .sne] s l2 := by
    unfold l2
    exact .sne .refl
  have h_l3 : Moves [.objs, .flt, .bbx, .sne] s l3 := by
    unfold l3
    refine .after State.settleEngines_moves (.after State.zeroSlice_moves ?_)
    exact h_l2
  refine .ite ?_ ?_
  · exact .after State.raise_moves h_l3
  · exact h_l3

theorem State.leaveSlice_moves {s : State} {k : Nat} : Moves [.objs, .flt, .bbx, .sne] s (State.leaveSlice s k) := by
  delta State.leaveSlice
  extract_lets l1 l2
  have h_l2 : Moves [.objs, .flt, .bbx, .sne] s l2 := by
    unfold l2
    exact .sne .refl
  refine .after State.raise_moves (.after State.settleEngines_moves ?_)
  exact h_l2

theorem State.enginesConfigured_moves {s : State} : Moves [.objs, .flt, .bbx, .sne] s (State.enginesConfigured s) := by
  delta State.enginesConfigured
  extract_lets out can l1
  have h1 : Moves [.objs, .flt, .bbx, .sne] s l1 := by
    unfold l1
    refine .forRange .refl fun i t h => ?_
    exact .ite (.after State.giveSlice_moves h) (.ite (.after State.leaveSlice_moves h) h)
  clear_value out l1
  cases out with
  | nil => exact h1
  | cons f more =>
    refine .forEach ?_ fun i t h => .after State.leaveSlice_moves h
    exact .ite h1 (.ite (.after State.giveSlice_moves h1) (.after State.leaveSlice_moves h1))

theorem State.dropLines_moves {s : State} {b : Nat} : Moves [.sne, .fsq] s (State.dropLines s b) := by
  delta State.dropLines
  refine .after State.modBar_moves (.after State.dropFrom_moves ?_)
  exact .refl

theorem State.stampFine_moves {s : State} {t : Nat} : MovesP [.fresh] s (State.stampFine s t) := by
  delta State.stampFine
  split
  · rename_i x1 x2 x3 x4
    have h_x3 : Moves [.fresh] s x3 := by
      refine MovesP.of_eq x4 (.after State.freeQuot_moves ?_)
      exact .refl
    exact .mk h_x3

theorem State.covDrain_moves {n b : Nat} {s : State} : Moves [.sent, .objs, .mem, .dram, .fsq] s (State.covDrain n b s) := by
  induction n generalizing s with
  | zero => exact .refl
  | succ n ih =>
    simp only [State.covDrain]
    split
    · exact .refl
    · exact .ite (.after ih (.after State.bump_moves (.after State.modBar_moves (.after State.memWrite_moves .refl)))) .refl

theorem State.covClose_moves {s : State} {b : Nat} {early : Bool} : Moves [.sent, .objs, .flt, .bbx, .mem, .dram, .fsq] s (State.covClose s b early) := by
  delta State.covClose
  split
  · exact .refl
  · extract_lets l1 l2 l3 l4 l5 l6
    have h_l4 : Moves [.sent, .objs, .flt, .bbx, .mem, .dram, .fsq] s l4 := by
      unfold l4
      refine .after State.covDrain_moves (.after State.modBar_moves ?_)
      exact .refl
    have h_l5 : Moves [.sent, .objs, .flt, .bbx, .mem, .dram, .fsq] s l5 := by
      unfold l5
      exact .after State.bump_moves h_l4
    have h_l6 : Moves [.sent, .objs, .flt, .bbx, .mem, .dram, .fsq] s l6 := by
      unfold l6
      refine .ite ?_ ?_
      · exact .after State.raise_moves h_l5
      · exact h_l5
    refine .ite ?_ ?_
    · exact .after State.modBar_moves h_l6
    · refine .after State.covDrain_moves (.after State.modBar_moves ?_)
      exact h_l4

theorem State.covLine_moves {s : State} {b : Nat} {ev : LineEv} {pr : Prepared} {fin : LineEnd} {fire : Nat} {lanes : Option (List Nat)} : Moves [.fresh, .sent, .objs, .flt, .bbx, .mem, .dram, .fsq] s (State.covLine s b ev pr fin fire lanes) := by
  delta State.covLine
  extract_lets l1 l2 l3 l4 l5 l6 l7 l8 l9
  split
  · rename_i x10 x11 x12 x13
    have h_x12 : Moves [.fresh, .sent, .objs, .flt, .bbx, .mem, .dram, .fsq] s x12 := by
      refine MovesP.of_eq x13 ?_
      split
      · exact .after State.stampFine_moves .refl
      · exact .mk .refl
    extract_lets l14 l15 l16
    have h_l16 : Moves [.fresh, .sent, .objs, .flt, .bbx, .mem, .dram, .fsq] s l16 := by
      unfold l16
      exact .after State.modBar_moves h_x12
    refine .ite ?_ ?_
    · exact .after State.covClose_moves h_l16
    · exact h_l16

theorem State.autoHide_moves {s : State} {b : Nat} {newly : List Nat} : Moves [.objs, .flt, .bbx, .wilwa, .fsq] s (State.autoHide s b newly) := by
  delta State.autoHide
  extract_lets l1 l2 l3 l4 l5 l6 l7
  have h_l3 : Moves [.objs, .flt, .bbx, .wilwa, .fsq] s l3 := by
    unfold l3
    exact .after State.setObj_moves .refl
  have h_l5 : Moves [.objs, .flt, .bbx, .wilwa, .fsq] s l5 := by
    unfold l5
    split
    · exact .wilwa h_l3
    · exact h_l3
  have h_l6 : Moves [.objs, .flt, .bbx, .wilwa, .fsq] s l6 := by
    unfold l6
    exact .after State.modBar_moves h_l5
  have h_l7 : Moves [.objs, .flt, .bbx, .wilwa, .fsq] s l7 := by
    unfold l7
    exact .after State.addNum_moves h_l6
  exact .after State.raise_moves h_l7

theorem State.measClassify_moves {s : State} {b : Nat} : Moves [.objs, .flt, .bbx, .wilwa, .fsq, .hdg] s (State.measClassify s b) := by
  delta State.measClassify
  extract_lets i m addrs l1 live pending newly map hd l2 weak missing l3 l4 l5
  have h1 : Moves [.objs, .flt, .bbx, .wilwa, .fsq, .hdg] s l1 := by
    unfold l1
    refine .forEach .refl fun a t h => ?_
    split
    exact .after State.modMeas_moves h
  have h3 : Moves [.objs, .flt, .bbx, .wilwa, .fsq, .hdg] s l3 := by
    unfold l3
    refine .after State.setNum_moves (.after State.setNum_moves (.after State.setNum_moves ?_))
    unfold l2
    exact .hdg h1
  have h5 : Moves [.objs, .flt, .bbx, .wilwa, .fsq, .hdg] s l5 := by
    unfold l5 l4
    clear_value newly l3
    cases newly with
    | nil => exact .after State.raise_moves h3
    | cons f _ => exact .after State.raise_moves (.after State.raise_moves h3)
  exact .ite (.after State.autoHide_moves h5) h5

theorem State.measBarDone_moves {s : State} {b : Nat} : Moves [.objs, .flt, .bbx, .wilwa, .fsq, .hdg] s (State.measBarDone s b) := by
  delta State.measBarDone
  extract_lets l1 l2 l3 l4
  have h_l1 : Moves [.objs, .flt, .bbx, .wilwa, .fsq, .hdg] s l1 := by
    unfold l1
    exact .after State.measClassify_moves .refl
  have h_l3 : Moves [.objs, .flt, .bbx, .wilwa, .fsq, .hdg] s l3 := by
    unfold l3
    exact .hdg h_l1
  refine .ite ?_ ?_
  · exact .refl
  · refine .ite ?_ ?_
    · exact h_l3
    · refine .after State.setNum_moves (.hdg ?_)
      exact h_l3

theorem State.measLaneDone_moves {s : State} {l : Nat} : Moves [.sent, .objs, .flt, .bbx, .wilwa, .fsq, .hlk, .hdg] s (State.measLaneDone s l) := by
  delta State.measLaneDone
  extract_lets l1 l2 l3
  have h_l2 : Moves [.sent, .objs, .flt, .bbx, .wilwa, .fsq, .hlk, .hdg] s l2 := by
    unfold l2
    exact .after State.modLane_moves .refl
  have h_l3 : Moves [.sent, .objs, .flt, .bbx, .wilwa, .fsq, .hlk, .hdg] s l3 := by
    unfold l3
    refine .ite ?_ ?_
    · exact .after State.laneIdle_moves h_l2
    · exact h_l2
  exact .after State.measBarDone_moves h_l3

theorem State.measStatus_moves {s : State} {l : Nat} {h : Nat} {st : Nat} {p : Nat → Bool} : Moves [.hdg] s (State.measStatus s l h st p) := by
  delta State.measStatus
  extract_lets l1
  refine .forEach ?_ fun i2 t3 h_t3 => ?_
  · exact .refl
  · exact .after State.modMeas_moves h_t3

theorem State.measRest_moves {s : State} {l : Nat} {o : MeasOut} {st : Nat} {later : Bool} : Moves [.hdg] s (State.measRest s l o st later) := by
  delta State.measRest
  extract_lets l1
  have h_l1 : Moves [.hdg] s l1 := by
    unfold l1
    exact .after State.measStatus_moves .refl
  refine .ite ?_ ?_
  · refine .forRange ?_ fun i2 t3 h_t3 => ?_
    · exact h_l1
    · refine .ite ?_ ?_
      · exact .after State.measStatus_moves h_t3
      · exact h_t3
  · exact h_l1

theorem State.measLaneLost_moves {s : State} {l : Nat} : Moves [.sent, .objs, .flt, .bbx, .wilwa, .fsq, .hlk, .hdg] s (State.measLaneLost s l) := by
  delta State.measLaneLost
  extract_lets l1
  refine .ite ?_ ?_
  · exact .refl
  · refine .after State.measLaneDone_moves (.after State.measRest_moves ?_)
    exact .refl

theorem State.barIdle_moves {s : State} {b : Nat} : Moves [.sent, .objs, .flt, .bbx, .wilwa, .fsq, .hlk, .hdg] s (State.barIdle s b) := by
  delta State.barIdle
  refine .forEach ?_ fun i1 t2 h_t2 => ?_
  · exact .refl
  · refine .ite ?_ ?_
    · refine .after State.laneIdle_moves (.after State.measLaneLost_moves ?_)
      exact h_t2
    · exact h_t2

theorem State.settleStop_moves {s : State} {b : Nat} : Moves [.sent, .objs, .flt, .bbx, .wilwa, .mem, .dram, .fsq, .hlk, .hdg] s (State.settleStop s b) := by
  delta State.settleStop
  extract_lets l1
  refine .ite ?_ ?_
  · exact .refl
  · refine .ite ?_ ?_
    · refine .after State.barIdle_moves (.after State.covClose_moves ?_)
      exact .refl
    · refine .ite ?_ ?_
      · exact .after State.covClose_moves .refl
      · exact .refl

theorem State.lineFinished_moves {s : State} {b : Nat} {ev : LineEv} {pr : Prepared} {fin : LineEnd} {fire : Nat} {lanes : Option (List Nat)} : Moves [.fresh, .sent, .objs, .flt, .bbx, .wilwa, .mem, .dram, .fsq, .hlk, .hdg] s (State.lineFinished s b ev pr fin fire lanes) := by
  delta State.lineFinished
  extract_lets l1 l2 l3 l4
  have h_l1 : Moves [.fresh, .sent, .objs, .flt, .bbx, .wilwa, .mem, .dram, .fsq, .hlk, .hdg] s l1 := by
    unfold l1
    split
    · rename_i x5 x6
      exact .after State.bump_moves .refl
    · rename_i x7 x8
      exact .after State.bump_moves .refl
    · exact .refl
  have h_l3 : Moves [.fresh, .sent, .objs, .flt, .bbx, .wilwa, .mem, .dram, .fsq, .hlk, .hdg] s l3 := by
    unfold l3
    exact .after State.covLine_moves h_l1
  have h_l4 : Moves [.fresh, .sent, .objs, .flt, .bbx, .wilwa, .mem, .dram, .fsq, .hlk, .hdg] s l4 := by
    unfold l4
    exact .after State.modBar_moves h_l3
  exact .after State.settleStop_moves h_l4

theorem State.cutBar_moves {s : State} {b : Nat} : Moves [.fresh, .sent, .objs, .flt, .bbx, .wilwa, .mem, .dram, .fsq, .hlk, .hdg] s (State.cutBar s b) := by
  delta State.cutBar
  extract_lets l1 l2 l3 l4
  have h_l1 : Moves [.fresh, .sent, .objs, .flt, .bbx, .wilwa, .mem, .dram, .fsq, .hlk, .hdg] s l1 := by
    unfold l1
    refine .forRange ?_ fun i5 t6 h_t6 => ?_
    · exact .refl
    · exact .after State.modLane_moves h_t6
  have h_l2 : Moves [.fresh, .sent, .objs, .flt, .bbx, .wilwa, .mem, .dram, .fsq, .hlk, .hdg] s l2 := by
    unfold l2
    split
    · exact .after State.lineFinished_moves h_l1
    · exact h_l1
  have h_l4 : Moves [.fresh, .sent, .objs, .flt, .bbx, .wilwa, .mem, .dram, .fsq, .hlk, .hdg] s l4 := by
    unfold l4
    refine .forEach ?_ fun i7 t8 h_t8 => ?_
    · exact h_l2
    · exact .after State.covLine_moves h_t8
  refine .after State.covClose_moves (.after State.modBar_moves ?_)
  exact h_l4

theorem State.clearBars_moves {s : State} : Moves [.fresh, .sent, .objs, .flt, .bbx, .wilwa, .fet, .mem, .dram, .lcg, .sne, .fsq, .hlk, .hdg] s (State.clearBars s) := by
  delta State.clearBars
  refine .forRange ?_ fun i1 t2 h_t2 => ?_
  · exact .refl
  · extract_lets l3 l4 l5
    have h_l3 : Moves [.fresh, .sent, .objs, .flt, .bbx, .wilwa, .fet, .mem, .dram, .lcg, .sne, .fsq, .hlk, .hdg] s l3 := by
      unfold l3
      refine .after State.dropLines_moves (.after State.cutBar_moves ?_)
      exact h_t2
    have h_l4 : Moves [.fresh, .sent, .objs, .flt, .bbx, .wilwa, .fet, .mem, .dram, .lcg, .sne, .fsq, .hlk, .hdg] s l4 := by
      unfold l4
      exact .after State.modBar_moves h_l3
    have h_l5 : Moves [.fresh, .sent, .objs, .flt, .bbx, .wilwa, .fet, .mem, .dram, .lcg, .sne, .fsq, .hlk, .hdg] s l5 := by
      unfold l5
      exact .after State.modLcg_moves h_l4
    refine .after State.barAtOnce_moves (.after State.setNum_moves ?_)
    exact .after State.modJob_moves h_l5

theorem State.makeCurrent_moves {s : State} {k : Nat} : Moves [.sent, .objs, .rin, .fsq, .mir] s (State.makeCurrent s k) := by
  delta State.makeCurrent
  extract_lets l1 l2
  have h_l1 : Moves [.sent, .objs, .rin, .fsq, .mir] s l1 := by
    unfold l1
    refine .after State.setSlot_moves (.after State.setNum_moves ?_)
    exact .refl
  exact .fsq h_l1

theorem State.changeDone_moves {s : State} {follow : Option Nat} : Moves [.sent, .objs, .rin, .fet, .fsq, .che, .mir] s (State.changeDone s follow) := by
  delta State.changeDone
  extract_lets l1 l2 l3 l4 l5 l6
  have h_l1 : Moves [.sent, .objs, .rin, .fet, .fsq, .che, .mir] s l1 := by
    unfold l1
    split
    · exact .after State.emptySlot_moves .refl
    · exact .refl
  have h_l2 : Moves [.sent, .objs, .rin, .fet, .fsq, .che, .mir] s l2 := by
    unfold l2
    refine .after State.cheOldGone_moves (.after State.setNum_moves ?_)
    exact .after State.setNum_moves h_l1
  have h_l4 : Moves [.sent, .objs, .rin, .fet, .fsq, .che, .mir] s l4 := by
    unfold l4
    exact .fet h_l2
  have h_l5 : Moves [.sent, .objs, .rin, .fet, .fsq, .che, .mir] s l5 := by
    unfold l5
    exact .after State.setNum_moves h_l4
  split
  · exact .after State.makeCurrent_moves h_l4
  · exact .fsq h_l5

theorem State.settleChange_moves {s : State} : Moves [.sent, .objs, .rin, .fet, .fsq, .che, .mir] s (State.settleChange s) := by
  delta State.settleChange
  extract_lets l1 l2
  refine .ite ?_ ?_
  · exact .after State.changeDone_moves .refl
  · exact .refl

theorem State.enter_moves {s : State} {d : DevState} : Moves [.objs, .pwr] s (State.enter s d) := by
  delta State.enter
  extract_lets l1 l2
  have h_l2 : Moves [.objs, .pwr] s l2 := by
    unfold l2
    exact .pwr .refl
  exact .after State.setNum_moves h_l2

theorem State.reserveRings_moves {s : State} : Moves [.objs] s (State.reserveRings s) := by
  delta State.reserveRings
  refine .forRange ?_ fun i1 t2 h_t2 => ?_
  · exact .refl
  · exact .after State.setNum_moves h_t2

theorem State.enterConfigured_moves {s : State} : Moves [.fresh, .sent, .objs, .pwr, .flt, .bbx, .wilwa, .rin, .fet, .mem, .dram, .lcg, .sne, .fsq, .hlk, .hdg, .vis, .che, .mir] s (State.enterConfigured s) := by
  delta State.enterConfigured
  extract_lets l1 l2 l3
  have h_l1 : Moves [.fresh, .sent, .objs, .pwr, .flt, .bbx, .wilwa, .rin, .fet, .mem, .dram, .lcg, .sne, .fsq, .hlk, .hdg, .vis, .che, .mir] s l1 := by
    unfold l1
    refine .after State.enginesConfigured_moves (.after State.clearBars_moves ?_)
    exact .after State.settleChange_moves .refl
  have h_l3 : Moves [.fresh, .sent, .objs, .pwr, .flt, .bbx, .wilwa, .rin, .fet, .mem, .dram, .lcg, .sne, .fsq, .hlk, .hdg, .vis, .che, .mir] s l3 := by
    unfold l3
    exact .vis h_l1
  refine .after State.enter_moves (.after State.lanesResume_moves ?_)
  exact .after State.reserveRings_moves h_l3

theorem State.stopsDone_moves {s : State} : Moves [.fresh, .sent, .objs, .pwr, .flt, .bbx, .wilwa, .rin, .fet, .mem, .dram, .lcg, .sne, .fsq, .hlk, .hdg, .vis, .che, .mir] s (State.stopsDone s) := by
  delta State.stopsDone
  extract_lets l1
  split
  · exact .after State.endRequest_moves .refl
  · refine .after State.endRequest_moves (.after State.enterConfigured_moves ?_)
    exact .refl
  · exact .after State.modPwr_moves .refl
  · exact .after State.modPwr_moves .refl
  · exact .refl

theorem State.barEnds_moves {s : State} {b : Nat} : Moves [.fresh, .objs, .wilwa, .lcg, .sne, .fsq, .hdg] s (State.barEnds s b) := by
  delta State.barEnds
  extract_lets l1
  have h_l1 : Moves [.fresh, .objs, .wilwa, .lcg, .sne, .fsq, .hdg] s l1 := by
    unfold l1
    refine .after State.modBar_moves (.after State.dropFrom_moves ?_)
    exact .refl
  refine .after State.barAtOnce_moves (.after State.setNum_moves ?_)
  exact .after State.modLcg_moves h_l1

theorem State.fixFollow_moves {s : State} {b : Nat} {f : Option Nat} : Moves [.fet] s (State.fixFollow s b f) := by
  delta State.fixFollow
  extract_lets l1 l2
  have h_l1 : Moves [.fet] s l1 := by
    unfold l1
    exact .after State.modJob_moves .refl
  exact .fet h_l1

theorem State.cursorTo_moves {s : State} {b : Nat} {q : Nat} {idx : Nat} {p : Nat} : Moves [.fet] s (State.cursorTo s b q idx p) := by
  delta State.cursorTo
  exact .after State.modJob_moves .refl

theorem State.startBar_moves {s : State} {b : Nat} {slot : Option Nat} {p : Nat} : Moves [.fet, .sne, .fsq] s (State.startBar s b slot p) := by
  delta State.startBar
  extract_lets l1 l2
  have h_l1 : Moves [.fet, .sne, .fsq] s l1 := by
    unfold l1
    refine .after State.modBar_moves (.after State.dropLines_moves ?_)
    exact .refl
  exact .after State.modJob_moves h_l1

theorem State.toArmed_moves {s : State} : Moves [.objs, .pwr] s (State.toArmed s) := by
  delta State.toArmed
  refine .forRange ?_ fun i1 t2 h_t2 => ?_
  · exact .after State.enter_moves .refl
  · exact .after State.setNum_moves h_t2

theorem State.lastChanged_moves {s : State} : Moves [.fresh, .sent, .objs, .pwr, .flt, .bbx, .wilwa, .rin, .fet, .lcg, .sne, .fsq, .hdg, .che, .mir] s (State.lastChanged s) := by
  delta State.lastChanged
  extract_lets q follow waiting l1 l2
  have h1 : Moves [.fresh, .sent, .objs, .pwr, .flt, .bbx, .wilwa, .rin, .fet, .lcg, .sne, .fsq, .hdg, .che, .mir] s l1 := by
    unfold l1
    clear_value follow
    refine .forEach .refl fun i t h => ?_
    extract_lets l3
    have h3 : Moves [.fresh, .sent, .objs, .pwr, .flt, .bbx, .wilwa, .rin, .fet, .lcg, .sne, .fsq, .hdg, .che, .mir] s l3 := by
      unfold l3
      split
      · exact .after State.raise_moves h
      · exact h
    cases follow with
    | none => exact .after State.barEnds_moves h3
    | some q => exact .ite (.after State.startBar_moves h3) (.after State.barEnds_moves h3)
  have h2 : Moves [.fresh, .sent, .objs, .pwr, .flt, .bbx, .wilwa, .rin, .fet, .lcg, .sne, .fsq, .hdg, .che, .mir] s l2 := by
    unfold l2
    exact .after State.changeDone_moves h1
  exact .ite (.after State.toArmed_moves h2) h2

theorem State.barBoundary_moves {s : State} {b : Nat} : Moves [.fresh, .sent, .objs, .pwr, .flt, .bbx, .wilwa, .rin, .fet, .lcg, .sne, .fsq, .hdg, .che, .mir] s (State.barBoundary s b) := by
  delta State.barBoundary
  extract_lets l1 f
  split
  · exact .refl
  · extract_lets l2 l3 l4 l5
    refine .ite .refl (.ite (.after State.modJob_moves (.after State.barEnds_moves .refl)) ?_)
    have h2 : Moves [.fresh, .sent, .objs, .pwr, .flt, .bbx, .wilwa, .rin, .fet, .lcg, .sne, .fsq, .hdg, .che, .mir] s l2 := by
      unfold l2
      exact .after State.raise_moves (.after State.fixFollow_moves .refl)
    have h3 : Moves [.fresh, .sent, .objs, .pwr, .flt, .bbx, .wilwa, .rin, .fet, .lcg, .sne, .fsq, .hdg, .che, .mir] s l3 := by
      unfold l3
      exact .ite (.after State.setSlot_moves h2) h2
    have h4 : Moves [.fresh, .sent, .objs, .pwr, .flt, .bbx, .wilwa, .rin, .fet, .lcg, .sne, .fsq, .hdg, .che, .mir] s l4 := by
      unfold l4
      clear_value f l3
      cases f with
      | none => exact .after State.barEnds_moves h3
      | some q => exact .after State.modBar_moves (.ite h3 (.after State.cursorTo_moves h3))
    have h5 : Moves [.fresh, .sent, .objs, .pwr, .flt, .bbx, .wilwa, .rin, .fet, .lcg, .sne, .fsq, .hdg, .che, .mir] s l5 := by
      unfold l5
      exact .after State.modJob_moves h4
    exact .ite (.after State.lastChanged_moves h5) h5

theorem State.stopBar_moves {s : State} {b : Nat} : Moves [.fresh, .sent, .objs, .flt, .bbx, .wilwa, .mem, .dram, .sne, .fsq, .hlk, .hdg] s (State.stopBar s b) := by
  delta State.stopBar
  extract_lets l1
  have h_l1 : Moves [.fresh, .sent, .objs, .flt, .bbx, .wilwa, .mem, .dram, .sne, .fsq, .hlk, .hdg] s l1 := by
    unfold l1
    exact .after State.modBar_moves .refl
  refine .after State.barAtOnce_moves (.after State.settleStop_moves ?_)
  exact .after State.setNum_moves h_l1

theorem State.lostEvent_moves {s : State} {b : Nat} {idx : Nat} {ev : LineEv} : Moves [.objs, .flt, .bbx, .sne] s (State.lostEvent s b idx ev) := by
  delta State.lostEvent
  split
  · exact .refl
  · extract_lets l1 l2 l3 l4
    have h_l1 : ∀ a1 a2, Moves [.objs, .flt, .bbx, .sne] s a1 → Moves [.objs, .flt, .bbx, .sne] s (l1 a1 a2) := by
      intro a1 a2 h_a1
      unfold l1
      extract_lets l5
      exact .sne h_a1
    have h_l4 : Moves [.objs, .flt, .bbx, .sne] s l4 := by
      unfold l4
      exact h_l1 _ _ .refl
    refine .ite ?_ ?_
    · exact h_l1 _ _ .refl
    · split
      · extract_lets l6 l7
        have h_l6 : Moves [.objs, .flt, .bbx, .sne] s l6 := by
          unfold l6
          exact .after State.raise_moves h_l4
        have h_l7 : Moves [.objs, .flt, .bbx, .sne] s l7 := by
          unfold l7
          refine .after State.setNum_moves (.after State.setNum_moves ?_)
          exact h_l6
        refine .after State.setNum_moves (.after State.setNum_moves ?_)
        exact h_l7

theorem State.blankLine_moves {s : State} {b : Nat} {ev : LineEv} : Moves [.fresh, .objs, .flt, .bbx, .wilwa, .sne, .fsq, .hdg] s (State.blankLine s b ev) := by
  delta State.blankLine
  extract_lets l1 l2 l3 l4
  have h_l3 : Moves [.fresh, .objs, .flt, .bbx, .wilwa, .sne, .fsq, .hdg] s l3 := by
    unfold l3
    refine .after State.setNum_moves (.after State.setNum_moves ?_)
    exact .after State.bump_moves .refl
  have h_l4 : Moves [.fresh, .objs, .flt, .bbx, .wilwa, .sne, .fsq, .hdg] s l4 := by
    unfold l4
    exact .after State.raise_moves h_l3
  refine .ite ?_ ?_
  · refine .after State.barAtOnce_moves (.after State.modBar_moves ?_)
    exact h_l3
  · refine .after State.barAtOnce_moves (.after State.modBar_moves ?_)
    exact h_l4

theorem State.dropMark_moves {s : State} {b : Nat} {ev : LineEv} {st : Nat} : Moves [.objs] s (State.dropMark s b ev st) := by
  delta State.dropMark
  refine .after State.setNum_moves (.after State.setNum_moves ?_)
  refine .after State.setNum_moves (.after State.bump_moves ?_)
  exact .refl

theorem State.dropLine_moves {s : State} {b : Nat} {ev : LineEv} : Moves [.fresh, .objs, .flt, .bbx, .fsq] s (State.dropLine s b ev) := by
  delta State.dropLine
  extract_lets l1 l2 l3 l4
  have h_l3 : Moves [.fresh, .objs, .flt, .bbx, .fsq] s l3 := by
    unfold l3
    refine .after State.dropMark_moves (MovesP.snd ?_)
    exact .after State.stampFine_moves .refl
  have h_l4 : Moves [.fresh, .objs, .flt, .bbx, .fsq] s l4 := by
    unfold l4
    exact .after State.raise_moves h_l3
  refine .ite ?_ ?_
  · exact .after State.modBar_moves h_l3
  · exact .after State.modBar_moves h_l4

theorem State.hingeFires_moves {s : State} {b : Nat} {ev : LineEv} {fire : Nat} : Moves [.fresh, .objs, .flt, .bbx, .mir] s (State.hingeFires s b ev fire) := by
  delta State.hingeFires
  split
  · exact .refl
  · split
    · rename_i x1 x2 x3 x4
      have h_x3 : Moves [.fresh, .objs, .flt, .bbx, .mir] s x3 := by
        refine MovesP.of_eq x4 (.after State.stampFine_moves ?_)
        exact .refl
      extract_lets l5 l6 l7
      have h_l6 : Moves [.fresh, .objs, .flt, .bbx, .mir] s l6 := by
        unfold l6
        exact .mir h_x3
      have h_l7 : Moves [.fresh, .objs, .flt, .bbx, .mir] s l7 := by
        unfold l7
        exact .after State.setObj_moves h_l6
      exact .after State.raise_moves h_l7

theorem State.fireLine_moves {s : State} {b : Nat} {ev : LineEv} {pr : Prepared} {fire : Nat} : Moves [.fresh, .sent, .objs, .flt, .bbx, .wilwa, .mem, .dram, .fsq, .hlk, .hdg, .mir] s (State.fireLine s b ev pr fire) := by
  delta State.fireLine
  extract_lets l1 l2 l3
  have h_l2 : Moves [.fresh, .sent, .objs, .flt, .bbx, .wilwa, .mem, .dram, .fsq, .hlk, .hdg, .mir] s l2 := by
    unfold l2
    exact .after State.hingeFires_moves .refl
  have h_l3 : Moves [.fresh, .sent, .objs, .flt, .bbx, .wilwa, .mem, .dram, .fsq, .hlk, .hdg, .mir] s l3 := by
    unfold l3
    refine .forEach ?_ fun i4 t5 h_t5 => ?_
    · exact h_l2
    · extract_lets l6
      exact .after State.modLane_moves h_t5
  refine .ite ?_ ?_
  · exact .after State.lineFinished_moves .refl
  · refine .ite ?_ ?_
    · exact .after State.lineFinished_moves .refl
    · exact .after State.modBar_moves h_l3

theorem State.placeLine_moves {s : State} {b : Nat} {ev : LineEv} {pr : Prepared} : Moves [.fresh, .sent, .objs, .flt, .bbx, .wilwa, .mem, .dram, .sne, .fsq, .hlk, .hdg, .mir] s (State.placeLine s b ev pr) := by
  delta State.placeLine
  extract_lets l1 l2 l3 l4
  have h_l2 : Moves [.fresh, .sent, .objs, .flt, .bbx, .wilwa, .mem, .dram, .sne, .fsq, .hlk, .hdg, .mir] s l2 := by
    unfold l2
    exact .after State.modBar_moves .refl
  have h_l3 : Moves [.fresh, .sent, .objs, .flt, .bbx, .wilwa, .mem, .dram, .sne, .fsq, .hlk, .hdg, .mir] s l3 := by
    unfold l3
    refine .after State.modBar_moves (.after State.blankLine_moves ?_)
    exact h_l2
  refine .ite ?_ ?_
  · exact .after State.lineFinished_moves h_l3
  · refine .ite ?_ ?_
    · refine .after State.lineFinished_moves (.after State.dropLine_moves ?_)
      exact h_l2
    · refine .after State.fireLine_moves (.after State.modBar_moves ?_)
      exact h_l2

theorem State.lineEvent_moves {s : State} {b : Nat} {ev : LineEv} : Moves [.fresh, .sent, .objs, .pwr, .flt, .bbx, .wilwa, .rin, .fet, .mem, .dram, .lcg, .sne, .fsq, .hlk, .hdg, .che, .mir] s (State.lineEvent s b ev) := by
  delta State.lineEvent
  extract_lets l1 l2 l3 l4 l5
  have h_l2 : Moves [.fresh, .sent, .objs, .pwr, .flt, .bbx, .wilwa, .rin, .fet, .mem, .dram, .lcg, .sne, .fsq, .hlk, .hdg, .che, .mir] s l2 := by
    unfold l2
    exact .after State.barBoundary_moves .refl
  have h_l3 : Moves [.fresh, .sent, .objs, .pwr, .flt, .bbx, .wilwa, .rin, .fet, .mem, .dram, .lcg, .sne, .fsq, .hlk, .hdg, .che, .mir] s l3 := by
    unfold l3
    refine .ite ?_ ?_
    · exact .after State.cheLeft_moves h_l2
    · exact h_l2
  have h_l4 : Moves [.fresh, .sent, .objs, .pwr, .flt, .bbx, .wilwa, .rin, .fet, .mem, .dram, .lcg, .sne, .fsq, .hlk, .hdg, .che, .mir] s l4 := by
    unfold l4
    refine .ite ?_ ?_
    · exact .after State.cheJobStart_moves h_l3
    · exact h_l3
  refine .ite ?_ ?_
  · exact .refl
  · refine .ite ?_ ?_
    · exact .after State.stopBar_moves .refl
    · split
      · exact .after State.settleStop_moves h_l4
      · extract_lets l6 l7 l8 l9 l10 l11
        have h_l7 : Moves [.fresh, .sent, .objs, .pwr, .flt, .bbx, .wilwa, .rin, .fet, .mem, .dram, .lcg, .sne, .fsq, .hlk, .hdg, .che, .mir] s l7 := by
          unfold l7
          refine .after State.setNum_moves (.after State.setNum_moves ?_)
          exact h_l4
        have h_l8 : Moves [.fresh, .sent, .objs, .pwr, .flt, .bbx, .wilwa, .rin, .fet, .mem, .dram, .lcg, .sne, .fsq, .hlk, .hdg, .che, .mir] s l8 := by
          unfold l8
          exact .after State.lostEvent_moves h_l7
        have h_l9 : Moves [.fresh, .sent, .objs, .pwr, .flt, .bbx, .wilwa, .rin, .fet, .mem, .dram, .lcg, .sne, .fsq, .hlk, .hdg, .che, .mir] s l9 := by
          unfold l9
          refine .ite ?_ ?_
          · exact .after State.raise_moves h_l8
          · exact h_l8
        have h_l10 : Moves [.fresh, .sent, .objs, .pwr, .flt, .bbx, .wilwa, .rin, .fet, .mem, .dram, .lcg, .sne, .fsq, .hlk, .hdg, .che, .mir] s l10 := by
          unfold l10
          exact .after State.modBar_moves h_l9
        have h_l11 : Moves [.fresh, .sent, .objs, .pwr, .flt, .bbx, .wilwa, .rin, .fet, .mem, .dram, .lcg, .sne, .fsq, .hlk, .hdg, .che, .mir] s l11 := by
          unfold l11
          split
          · exact .after State.placeLine_moves h_l10
          · exact .after State.modBar_moves h_l10
        exact .after State.timeToEmpty_moves h_l11

theorem State.measAbandon_moves {s : State} {cause : Nat} {then_ : WokenLane} : Moves [.sent, .objs, .flt, .bbx, .hlk, .hdg, .mir] s (State.measAbandon s cause then_) := by
  delta State.measAbandon
  extract_lets l1 l2 l3 l4 l5
  have h_l2 : Moves [.sent, .objs, .flt, .bbx, .hlk, .hdg, .mir] s l2 := by
    unfold l2
    refine .forEach ?_ fun i6 t7 h_t7 => ?_
    · exact .refl
    · exact .after State.send_moves h_t7
  have h_l3 : Moves [.sent, .objs, .flt, .bbx, .hlk, .hdg, .mir] s l3 := by
    unfold l3
    refine .forEach ?_ fun i8 t9 h_t9 => ?_
    · exact h_l2
    · refine .forEach ?_ fun i10 t11 h_t11 => ?_
      · exact h_t9
      · refine .ite ?_ ?_
        · exact h_t11
        · refine .forEach ?_ fun i12 t13 h_t13 => ?_
          · exact h_t11
          · exact .after State.modMeas_moves h_t13
  have h_l5 : Moves [.sent, .objs, .flt, .bbx, .hlk, .hdg, .mir] s l5 := by
    unfold l5
    exact .hdg h_l3
  refine .ite ?_ ?_
  · exact .refl
  · refine .forRange ?_ fun i14 t15 h_t15 => ?_
    · exact h_l5
    · extract_lets l16 l17
      have h_l17 : Moves [.sent, .objs, .flt, .bbx, .hlk, .hdg, .mir] s l17 := by
        unfold l17
        exact .after State.modLane_moves h_t15
      refine .ite ?_ ?_
      · exact h_l17
      · split
        · split
          · refine .ite ?_ ?_
            · exact .after State.sendOwner_moves h_l17
            · exact h_l17
          · exact .after State.laneIdle_moves h_l17
          · exact h_l17
        · refine .ite ?_ ?_
          · exact .after State.modLane_moves h_l17
          · exact h_l17
        · exact h_l17

theorem State.stopBegin_moves {s : State} {b : Nat} : Moves [.fsq] s (State.stopBegin s b) := by
  delta State.stopBegin
  split
  · exact .after State.modBar_moves .refl
  · exact .after State.modBar_moves .refl
  · exact .after State.modBar_moves .refl
  · exact .after State.modBar_moves .refl
  · exact .refl

theorem State.zeroCounts_moves {s : State} {b : Nat} : Moves [.fsq] s (State.zeroCounts s b) := by
  delta State.zeroCounts
  exact .after State.modBar_moves .refl

theorem State.waitForMark_moves {s : State} {b : Nat} {slot : Option Nat} {p : Nat} : Moves [.fresh, .sent, .objs, .flt, .bbx, .wilwa, .fet, .mem, .dram, .lcg, .sne, .fsq, .hlk, .hdg] s (State.waitForMark s b slot p) := by
  delta State.waitForMark
  extract_lets l1 l2
  have h_l1 : Moves [.fresh, .sent, .objs, .flt, .bbx, .wilwa, .fet, .mem, .dram, .lcg, .sne, .fsq, .hlk, .hdg] s l1 := by
    unfold l1
    refine .after State.modBar_moves (.after State.startBar_moves ?_)
    exact .after State.cutBar_moves .refl
  exact .after State.modLcg_moves h_l1

theorem State.enterArmed_moves {s : State} : Moves [.fresh, .sent, .objs, .pwr, .flt, .bbx, .wilwa, .rin, .fet, .mem, .dram, .lcg, .sne, .fsq, .hlk, .hdg, .mir] s (State.enterArmed s) := by
  delta State.enterArmed
  extract_lets l1 l2 l3 l4
  have h_l3 : Moves [.fresh, .sent, .objs, .pwr, .flt, .bbx, .wilwa, .rin, .fet, .mem, .dram, .lcg, .sne, .fsq, .hlk, .hdg, .mir] s l3 := by
    unfold l3
    split
    · exact .fsq .refl
    · refine .ite ?_ ?_
      · refine .after State.setNum_moves (.after State.makeCurrent_moves ?_)
        exact .refl
      · exact .fsq .refl
  have h_l4 : Moves [.fresh, .sent, .objs, .pwr, .flt, .bbx, .wilwa, .rin, .fet, .mem, .dram, .lcg, .sne, .fsq, .hlk, .hdg, .mir] s l4 := by
    unfold l4
    refine .forRange ?_ fun i5 t6 h_t6 => ?_
    · exact h_l3
    · extract_lets l7
      have h_l7 : Moves [.fresh, .sent, .objs, .pwr, .flt, .bbx, .wilwa, .rin, .fet, .mem, .dram, .lcg, .sne, .fsq, .hlk, .hdg, .mir] s l7 := by
        unfold l7
        exact .after State.zeroCounts_moves h_t6
      refine .ite ?_ ?_
      · refine .after State.setNum_moves (.after State.setNum_moves ?_)
        exact .after State.waitForMark_moves h_l7
      · exact h_l7
  exact .after State.toArmed_moves h_l4

theorem State.stopFiring_moves {s : State} : Moves [.fresh, .sent, .objs, .flt, .bbx, .wilwa, .mem, .dram, .fsq, .hlk, .hdg] s (State.stopFiring s) := by
  delta State.stopFiring
  refine .forRange ?_ fun i1 t2 h_t2 => ?_
  · exact .refl
  · exact .after State.cutBar_moves h_t2

theorem State.linesLost_moves {s : State} {b : Nat} {k : Nat} : Moves [.objs, .flt, .bbx, .sne, .fsq] s (State.linesLost s b k) := by
  delta State.linesLost
  extract_lets l1 l2 l3 l4 l5 l6 l7
  have h_l3 : Moves [.objs, .flt, .bbx, .sne, .fsq] s l3 := by
    unfold l3
    exact .after State.addNum_moves .refl
  have h_l5 : Moves [.objs, .flt, .bbx, .sne, .fsq] s l5 := by
    unfold l5
    exact .after State.modBar_moves h_l3
  split
  · extract_lets l8 l9 l10
    have h_l10 : Moves [.objs, .flt, .bbx, .sne, .fsq] s l10 := by
      unfold l10
      exact .sne h_l5
    split
    · exact .after State.lostEvent_moves h_l10
    · exact h_l10
  · exact h_l5

theorem State.engineOut_moves {s : State} {n cause : Nat} {st : EngSt} :
    Moves [.objs, .flt, .bbx, .sne, .fsq] s (State.engineOut s n cause st) := by
  delta State.engineOut
  extract_lets served spare l1
  have h1 : Moves [.objs, .flt, .bbx, .sne, .fsq] s l1 := by
    unfold l1
    exact .after State.modEngine_moves .refl
  clear_value served
  cases served with
  | none => exact h1
  | some k =>
    have h2 : Moves [.objs, .flt, .bbx, .sne, .fsq] s (Sys2Proof.Machine.forRange 8 (fun b s => s.linesLost b k) l1) :=
      .forRange h1 fun i t h => .after State.linesLost_moves h
    exact .ite (.after State.giveSlice_moves (.sne h2)) (.after State.leaveSlice_moves (.sne h2))

theorem State.laneDone_moves {s : State} {b : Nat} {l : Nat} {passed : Bool} {late : Bool} : Moves [.fresh, .sent, .objs, .flt, .bbx, .wilwa, .mem, .dram, .fsq, .hlk, .hdg] s (State.laneDone s b l passed late) := by
  delta State.laneDone
  split
  · exact .refl
  · extract_lets l1 l2 l3
    have h_l2 : Moves [.fresh, .sent, .objs, .flt, .bbx, .wilwa, .mem, .dram, .fsq, .hlk, .hdg] s l2 := by
      unfold l2
      exact .after State.modBar_moves .refl
    refine .ite ?_ ?_
    · exact h_l2
    · exact .after State.lineFinished_moves h_l2

theorem hookSne_moves {idx : Nat} {sub : Nat} {v : Val} {s : State} : MovesH [.objs, .wilwa] s (hookSne idx sub v s) := by
  delta hookSne
  extract_lets l1 l2
  have h_l2 : ∀ a1, Moves [.objs, .wilwa] s a1 → Moves [.objs, .wilwa] s (l2 a1) := by
    intro a1 h_a1
    unfold l2
    extract_lets l3
    exact .wilwa h_a1
  split
  · refine .ite ?_ ?_
    · exact .some .error
    · refine .some (.ok ?_)
      refine .after State.mapCommitted_moves (.after State.setObj_moves ?_)
      refine .after State.setObj_moves (h_l2 _ ?_)
      exact .after State.setObj_moves .refl
  · refine .ite ?_ ?_
    · exact .some .error
    · exact .none
  · exact .none

theorem State.measStart_moves {s : State} : MovesE [.fresh, .sent, .objs, .flt, .bbx, .wilwa, .fsq, .hlk, .hdg] s (State.measStart s) := by
  delta State.measStart
  extract_lets l1 l2 l3 l4 l5 l6 l7 l8 l9 l10 l11
  have h_l5 : Moves [.fresh, .sent, .objs, .flt, .bbx, .wilwa, .fsq, .hlk, .hdg] s l5 := by
    unfold l5
    exact .hdg .refl
  have h_l6 : Moves [.fresh, .sent, .objs, .flt, .bbx, .wilwa, .fsq, .hlk, .hdg] s l6 := by
    unfold l6
    refine .forEach ?_ fun i12 t13 h_t13 => ?_
    · exact h_l5
    · extract_lets l14
      exact .hdg h_t13
  have h_l8 : Moves [.fresh, .sent, .objs, .flt, .bbx, .wilwa, .fsq, .hlk, .hdg] s l8 := by
    unfold l8
    refine .forEach ?_ fun i15 t16 h_t16 => ?_
    · exact h_l6
    · exact .after State.modLane_moves h_t16
  have h_l9 : Moves [.fresh, .sent, .objs, .flt, .bbx, .wilwa, .fsq, .hlk, .hdg] s l9 := by
    unfold l9
    refine .forEach ?_ fun i17 t18 h_t18 => ?_
    · exact h_l8
    · refine .ite ?_ ?_
      · exact .after State.modLane_moves h_t18
      · refine .ite ?_ ?_
        · refine .after State.modLane_moves (.after State.laneBurst_moves ?_)
          exact h_t18
        · exact .after State.measBegin_moves h_t18
  have h_l10 : Moves [.fresh, .sent, .objs, .flt, .bbx, .wilwa, .fsq, .hlk, .hdg] s l10 := by
    unfold l10
    refine .forEach ?_ fun i19 t20 h_t20 => ?_
    · exact h_l9
    · exact .after State.measBarDone_moves h_t20
  refine .ite ?_ ?_
  · exact .error
  · refine .ite ?_ ?_
    · exact .error
    · refine .ite ?_ ?_
      · exact .error
      · split
        · exact .error
        · split
          · exact .error
          · refine .ok (.ite ?_ ?_)
            · refine .after State.setNum_moves (.hdg ?_)
              exact h_l10
            · exact h_l10

theorem State.measBaseline_moves {s : State} : MovesE [.wilwa] s (State.measBaseline s) := by
  delta State.measBaseline
  extract_lets l1
  refine .ite ?_ ?_
  · exact .error
  · split
    · exact .error
    · refine .ok ?_
      refine .forEach ?_ fun i2 t3 h_t3 => ?_
      · exact .refl
      · extract_lets l4 l5
        exact .wilwa h_t3

theorem State.pendingApply_moves {s : State} {b : Nat} : MovesE [.wilwa, .hdg] s (State.pendingApply s b) := by
  delta State.pendingApply
  extract_lets l1 l2 l3
  have h_l2 : Moves [.wilwa, .hdg] s l2 := by
    unfold l2
    exact .wilwa .refl
  refine .ite ?_ ?_
  · exact .error
  · refine .ok (.hdg ?_)
    exact h_l2

theorem hookHdg_moves {idx : Nat} {sub : Nat} {v : Val} {s : State} : MovesH [.fresh, .sent, .objs, .flt, .bbx, .wilwa, .fsq, .hlk, .hdg, .mir] s (hookHdg idx sub v s) := by
  delta hookHdg
  split
  · refine .ite ?_ ?_
    · split
      · refine .some (.after State.measStart_moves ?_)
        exact .refl
      · refine .some (.ok ?_)
        exact .after State.measAbandon_moves .refl
      · refine .some (.after State.measBaseline_moves ?_)
        exact .refl
      · exact .none
    · exact .none
  · refine .some (.ite ?_ ?_)
    · exact .after State.pendingApply_moves .refl
    · exact .ok .refl
  · exact .none

theorem State.equalise_moves {s : State} {l : Nat} : Moves [.hlk] s (State.equalise s l) := by
  delta State.equalise
  exact .after State.modLane_moves .refl

theorem State.putBlock_moves {s : State} {l : Nat} {b : LinkBlock} {kind : SlotKind} : Moves [.fresh, .sent, .hlk] s (State.putBlock s l b kind) := by
  delta State.putBlock
  split
  · rename_i x1 x2 x3 x4
    have h_x3 : Moves [.fresh, .sent, .hlk] s x3 := by
      refine MovesP.of_eq x4 (.after State.freeBelow_moves ?_)
      exact .refl
    split
    · refine .after State.modLane_moves (.after State.emit_moves ?_)
      exact h_x3

theorem State.putToken_moves {s : State} {l : Nat} {f : LaneTx} : Moves [.fresh, .sent, .hlk] s (State.putToken s l f) := by
  delta State.putToken
  split
  · extract_lets l1
    split
    · refine .after State.modLane_moves (.after State.putBlock_moves ?_)
      exact .refl
  · exact .refl

theorem State.lateToken_moves {s : State} {b : Nat} {l : Nat} {t : Token} : Moves [.fresh, .objs, .flt, .bbx, .fsq] s (State.lateToken s b l t) := by
  delta State.lateToken
  split
  · rename_i x1 x2 x3 x4
    have h_x3 : Moves [.fresh, .objs, .flt, .bbx, .fsq] s x3 := by
      refine MovesP.of_eq x4 (.after State.stampFine_moves ?_)
      exact .refl
    extract_lets l5 l6
    have h_l5 : Moves [.fresh, .objs, .flt, .bbx, .fsq] s l5 := by
      unfold l5
      refine .after State.setNum_moves (.after State.bump_moves ?_)
      exact h_x3
    refine .ite ?_ ?_
    · exact h_l5
    · refine .after State.raise_moves (.after State.modBar_moves ?_)
      exact h_l5

theorem State.gatePasses_moves {s : State} : MovesP [.fresh] s (State.gatePasses s) := by
  delta State.gatePasses
  split
  · refine .ite ?_ ?_
    · split
      · rename_i x1 x2 x3 x4
        have h_x3 : Moves [.fresh] s x3 := by
          refine MovesP.of_eq x4 (.after State.freeBelow_moves ?_)
          exact .refl
        exact .mk h_x3
    · exact .mk .refl
  · exact .mk .refl

theorem State.emitToken_moves {s : State} {l : Nat} {t : Token} : Moves [.fresh, .sent, .objs, .flt, .bbx, .wilwa, .mem, .dram, .fsq, .hlk, .hdg] s (State.emitToken s l t) := by
  delta State.emitToken
  extract_lets l1 l2 l3
  have h_l1 : Moves [.fresh, .sent, .objs, .flt, .bbx, .wilwa, .mem, .dram, .fsq, .hlk, .hdg] s l1 := by
    unfold l1
    exact .after State.modLane_moves .refl
  have h_l3 : Moves [.fresh, .sent, .objs, .flt, .bbx, .wilwa, .mem, .dram, .fsq, .hlk, .hdg] s l3 := by
    unfold l3
    refine .ite ?_ ?_
    · exact .after State.lateToken_moves h_l1
    · exact h_l1
  split
  · rename_i x4 x5 x6 x7
    have h_x6 : Moves [.fresh, .sent, .objs, .flt, .bbx, .wilwa, .mem, .dram, .fsq, .hlk, .hdg] s x6 := by
      refine MovesP.of_eq x7 (.after State.gatePasses_moves ?_)
      exact h_l3
    extract_lets l8 l9
    have h_l9 : Moves [.fresh, .sent, .objs, .flt, .bbx, .wilwa, .mem, .dram, .fsq, .hlk, .hdg] s l9 := by
      unfold l9
      refine .ite ?_ ?_
      · exact .after State.laneSend_moves h_x6
      · exact h_x6
    exact .after State.laneDone_moves h_l9

theorem State.tokenSlot_moves {s : State} {l : Nat} {t : Nat} : MovesS [.fresh, .sent, .objs, .flt, .bbx, .wilwa, .mem, .dram, .fsq, .hlk, .hdg] s (State.tokenSlot s l t) := by
  delta State.tokenSlot
  extract_lets l1
  split
  · refine .some (.after State.putToken_moves ?_)
    exact .refl
  · split
    · exact .none
    · extract_lets l2 l3 l4
      have h_l4 : Moves [.fresh, .sent, .objs, .flt, .bbx, .wilwa, .mem, .dram, .fsq, .hlk, .hdg] s l4 := by
        unfold l4
        refine .after State.emitToken_moves (.after State.modLane_moves ?_)
        exact .refl
      refine .ite ?_ ?_
      · exact .none
      · refine .some ?_
        split
        · exact .after State.putToken_moves h_l4
        · exact .after State.putBlock_moves h_l4

theorem State.burstSlot_moves {s : State} {l : Nat} : Moves [.fresh, .sent, .hlk] s (State.burstSlot s l) := by
  delta State.burstSlot
  extract_lets l1 l2
  refine .after State.modLane_moves (.after State.putBlock_moves ?_)
  exact .refl

theorem State.putControl_moves {s : State} {l : Nat} {f : LaneTx} : Moves [.fresh, .sent, .hlk] s (State.putControl s l f) := by
  delta State.putControl
  extract_lets l1
  refine .after State.modLane_moves (.after State.putBlock_moves ?_)
  exact .refl

theorem State.putStart_moves {s : State} {l : Nat} {f : LaneTx} : Moves [.fresh, .sent, .hlk] s (State.putStart s l f) := by
  delta State.putStart
  split
  · exact .refl
  · extract_lets l1
    split
    · exact .refl
    · refine .after State.modLane_moves (.after State.putBlock_moves ?_)
      exact .refl

theorem State.blockSlot_moves {s : State} {l t : Nat} : Moves [.fresh, .sent, .objs, .flt, .bbx, .wilwa, .mem, .dram, .fsq, .hlk, .hdg] s (State.blockSlot s l t) := by
  delta State.blockSlot
  extract_lets l1 x tx
  have h1 : Moves [.fresh, .sent, .objs, .flt, .bbx, .wilwa, .mem, .dram, .fsq, .hlk, .hdg] s l1 := by
    unfold l1
    exact .after State.equalise_moves .refl
  clear_value tx x l1
  have hp : ∀ b k, Moves [.fresh, .sent, .objs, .flt, .bbx, .wilwa, .mem, .dram, .fsq, .hlk, .hdg] s (l1.putBlock l b k) := fun b k => .after State.putBlock_moves h1
  have ht : MovesS [.fresh, .sent, .objs, .flt, .bbx, .wilwa, .mem, .dram, .fsq, .hlk, .hdg] s (l1.tokenSlot l t) := .after State.tokenSlot_moves h1
  split
  · exact .after State.modLane_moves (hp _ _)
  · refine .ite h1 ?_
    generalize l1.tokenSlot l t = r at ht
    cases r with
    | some u => exact ht
    | none =>
      refine .ite (.after State.burstSlot_moves h1) (.ite (hp _ _) ?_)
      split
      · exact .after State.modLane_moves (hp _ _)
      · split
        · exact .after State.putControl_moves h1
        · refine .ite (hp _ _) ?_
          split
          · exact .after State.putStart_moves h1
          · exact hp _ _

theorem State.covDrainAll_moves {s : State} : Moves [.sent, .objs, .mem, .dram, .fsq] s (State.covDrainAll s) := by
  delta State.covDrainAll
  refine .forRange ?_ fun i1 t2 h_t2 => ?_
  · exact .refl
  · exact .after State.covDrain_moves h_t2

theorem State.enginesOff_moves {s : State} {p : Nat → Bool} : Moves [.sne] s (State.enginesOff s p) := by
  delta State.enginesOff
  refine .forRange ?_ fun i1 t2 h_t2 => ?_
  · exact .refl
  · refine .ite ?_ ?_
    · exact .after State.modEngine_moves h_t2
    · exact h_t2

theorem State.enginesOn_moves {s : State} {p : Nat → Bool} : Moves [.sne] s (State.enginesOn s p) := by
  delta State.enginesOn
  refine .after State.settleEngines_moves ?_
  refine .forRange ?_ fun i1 t2 h_t2 => ?_
  · exact .refl
  · refine .ite ?_ ?_
    · exact .after State.modEngine_moves h_t2
    · exact h_t2

theorem State.dropEdges_moves {s : State} {j : SliceJob} : Moves [.sne] s (State.dropEdges s j) := by
  delta State.dropEdges
  extract_lets l1
  exact .sne .refl

theorem State.dryEnds_moves {s : State} {b : Nat} : Moves [.objs, .flt, .bbx, .fsq] s (State.dryEnds s b) := by
  delta State.dryEnds
  extract_lets l1 l2
  have h_l2 : Moves [.objs, .flt, .bbx, .fsq] s l2 := by
    unfold l2
    exact .after State.raise_moves .refl
  refine .ite ?_ ?_
  · exact .after State.modBar_moves h_l2
  · exact .refl

theorem State.engineReturns_moves {s : State} {n : Nat} : Moves [.objs, .flt, .bbx, .sne] s (State.engineReturns s n) := by
  delta State.engineReturns
  extract_lets l1 l2
  have h_l1 : Moves [.objs, .flt, .bbx, .sne] s l1 := by
    unfold l1
    exact .after State.modEngine_moves .refl
  refine .ite ?_ ?_
  · refine .ite ?_ ?_
    · exact .after State.giveSlice_moves h_l1
    · exact h_l1
  · split
    · exact .after State.giveSlice_moves h_l1
    · exact h_l1

theorem State.markSlice_moves {s : State} {j : SliceJob} {v : SliceSt} : Moves [.fsq] s (State.markSlice s j v) := by
  delta State.markSlice
  extract_lets l1
  exact .after State.modBar_moves .refl

theorem State.failSlice_moves {s : State} {n cause : Nat} {j : SliceJob} :
    Moves [.fresh, .objs, .flt, .bbx, .sne, .fsq] s (State.failSlice s n cause j) := by
  delta State.failSlice
  extract_lets l1 l2
  have h2 : Moves [.fresh, .objs, .flt, .bbx, .sne, .fsq] s l2 := by
    unfold l2 l1
    exact .after State.addNum_moves (.after State.markSlice_moves (.after State.dropEdges_moves (.after State.modEngine_moves .refl)))
  clear_value l2
  split
  refine .after State.raise_moves ?_
  exact .plain (u := l2) h2 (fun p h => by cases p <;> first | exact absurd (by decide) h | rfl)

theorem State.fetchedTo_moves {s : State} {b : Nat} {k : Nat} {d : Nat} : Moves [.rin] s (State.fetchedTo s b k d) := by
  delta State.fetchedTo
  extract_lets l1 l2
  exact .rin .refl

theorem State.fetSkip_moves {n b : Nat} {s : State} : Moves [.rin, .fet] s (State.fetSkip n b s) := by
  induction n generalizing s with
  | zero => exact .refl
  | succ n ih =>
    simp only [State.fetSkip]
    refine .after ih (.after State.modJob_moves ?_)
    split
    · exact .ite .refl (.after State.fetchedTo_moves .refl)
    · exact .refl

theorem State.fetCatchUp_moves {s : State} {b : Nat} : Moves [.rin, .fet] s (State.fetCatchUp s b) := by
  delta State.fetCatchUp
  exact .after State.fetSkip_moves .refl

theorem State.patternSlot_moves {s : State} {l : Nat} : Moves [.fresh, .sent, .hlk] s (State.patternSlot s l) := by
  delta State.patternSlot
  extract_lets l1 l2
  refine .ite ?_ ?_
  · exact .refl
  · split
    · split
      · rename_i x3 x4 x5 x6
        have h_x5 : Moves [.fresh, .sent, .hlk] s x5 := by
          refine MovesP.of_eq x6 (.after State.freeBelow_moves ?_)
          exact .refl
        extract_lets l7
        split
        · extract_lets l8 l9
          refine .after State.modLane_moves (.after State.emit_moves ?_)
          exact h_x5

theorem State.laneSlot_moves {s : State} {l : Nat} {t : Nat} : Moves [.fresh, .sent, .objs, .flt, .bbx, .wilwa, .mem, .dram, .fsq, .hlk, .hdg] s (State.laneSlot s l t) := by
  delta State.laneSlot
  split
  · exact .refl
  · exact .refl
  · exact .after State.patternSlot_moves .refl
  · exact .after State.blockSlot_moves .refl

theorem State.lanesLose_moves {s : State} {b : Nat} : Moves [.objs] s (State.lanesLose s b) := by
  delta State.lanesLose
  refine .forEach ?_ fun i1 t2 h_t2 => ?_
  · exact .refl
  · refine .ite ?_ ?_
    · exact h_t2
    · exact .after State.bump_moves h_t2

theorem State.measGo_moves {s : State} {l : Nat} {o : Option (Nat × Nat × Nat)} : Moves [.sent, .objs, .flt, .bbx, .wilwa, .fsq, .hlk, .hdg] s (State.measGo s l o) := by
  delta State.measGo
  split
  · exact .after State.measSend_moves .refl
  · exact .after State.measLaneDone_moves .refl

theorem State.measStore_moves {s : State} {l : Nat} {h : Nat} {el : Nat} {kind : Nat} {v : Nat} : Moves [.hdg] s (State.measStore s l h el kind v) := by
  delta State.measStore
  extract_lets l1
  refine .forEach ?_ fun i2 t3 h_t3 => ?_
  · exact .refl
  · exact .after State.modMeas_moves h_t3

theorem State.sendLines_moves {s : State} {b : Nat} {n : Nat} {line : List (Addr × Nat)} : Moves [.sent, .hlk] s (State.sendLines s b n line) := by
  delta State.sendLines
  refine .forEach ?_ fun i1 t2 h_t2 => ?_
  · exact .refl
  · extract_lets l3
    refine .forRange ?_ fun i4 t5 h_t5 => ?_
    · exact h_t2
    · extract_lets l6
      exact .after State.laneSend_moves h_t5

theorem State.prepareLine_moves {s : State} {b : Nat} {idx : Nat} {n : Nat} {j : Nat} : Moves [.sent, .objs, .flt, .bbx, .fsq, .hlk] s (State.prepareLine s b idx n j) := by
  delta State.prepareLine
  extract_lets l1 l2 l3
  have h_l1 : Moves [.sent, .objs, .flt, .bbx, .fsq, .hlk] s l1 := by
    unfold l1
    exact .after State.lanesLose_moves .refl
  have h_l3 : Moves [.sent, .objs, .flt, .bbx, .fsq, .hlk] s l3 := by
    unfold l3
    exact .after State.dryEnds_moves h_l1
  split
  · exact .after State.modBar_moves h_l1
  · extract_lets l4 l5 l6 l7 l8 l9 l10 l11 l12 l13
    have h_l7 : Moves [.sent, .objs, .flt, .bbx, .fsq, .hlk] s l7 := by
      unfold l7
      exact .after State.addNum_moves h_l3
    have h_l11 : Moves [.sent, .objs, .flt, .bbx, .fsq, .hlk] s l11 := by
      unfold l11
      refine .after State.addNum_moves (.after State.addNum_moves ?_)
      exact h_l7
    have h_l12 : Moves [.sent, .objs, .flt, .bbx, .fsq, .hlk] s l12 := by
      unfold l12
      split
      · refine .ite ?_ ?_
        · exact .after State.raise_moves h_l11
        · exact h_l11
      · exact h_l11
    have h_l13 : Moves [.sent, .objs, .flt, .bbx, .fsq, .hlk] s l13 := by
      unfold l13
      exact .after State.modBar_moves h_l12
    exact .after State.sendLines_moves h_l13

theorem State.serveLanes_moves {s : State} : Moves [.fresh, .sent, .objs, .flt, .bbx, .wilwa, .mem, .dram, .fsq, .hlk, .hdg] s (State.serveLanes s) := by
  delta State.serveLanes
  refine .ite ?_ ?_
  · exact .refl
  · refine .forRange ?_ fun i1 t2 h_t2 => ?_
    · exact .refl
    · extract_lets l3
      refine .ite ?_ ?_
      · exact .after State.laneSlot_moves h_t2
      · exact h_t2

theorem execEngineSelfTestDone_moves {n : Engine} {pass : Bool} {s : State} : MovesO [.fresh, .objs, .flt, .bbx, .sne] s (execEngineSelfTestDone n pass s) := by
  delta execEngineSelfTestDone
  extract_lets l1
  have h_l1 : Moves [.fresh, .objs, .flt, .bbx, .sne] s l1 := by
    unfold l1
    exact .after State.modEngine_moves .refl
  refine .ite ?_ ?_
  · exact .next .refl
  · refine .ite ?_ ?_
    · refine .next (.after State.engineReturns_moves ?_)
      exact .refl
    · split
      · rename_i x2 x3 x4 x5
        have h_x4 : Moves [.fresh, .objs, .flt, .bbx, .sne] s x4 := by
          refine MovesP.of_eq x5 (.after State.freeBytes_moves ?_)
          exact h_l1
        extract_lets l6
        have h_l6 : Moves [.fresh, .objs, .flt, .bbx, .sne] s l6 := by
          unfold l6
          exact .after State.raise_moves h_x4
        refine .next (.ite ?_ ?_)
        · exact h_l6
        · exact .after State.engineReturns_moves h_l6

theorem execFetIssueLine_moves {b : Bar} {s : State} : MovesO [.fresh, .sent, .objs, .wilwa, .rin, .fet, .mem, .dram, .sne, .fsq, .hdg, .che] s (execFetIssueLine b s) := by
  delta execFetIssueLine
  extract_lets l1 l2
  have h_l1 : Moves [.fresh, .sent, .objs, .wilwa, .rin, .fet, .mem, .dram, .sne, .fsq, .hdg, .che] s l1 := by
    unfold l1
    exact .after State.fetCatchUp_moves .refl
  refine .ite ?_ ?_
  · exact .next .refl
  · refine .ite ?_ ?_
    · exact .next h_l1
    · split
      · refine .next (.ite ?_ ?_)
        · exact h_l1
        · refine .after State.modJob_moves (.after State.fixFollow_moves ?_)
          exact h_l1
      · extract_lets l3 l4 l5 l6 l7
        have h_l4 : Moves [.fresh, .sent, .objs, .wilwa, .rin, .fet, .mem, .dram, .sne, .fsq, .hdg, .che] s l4 := by
          unfold l4
          refine .ite ?_ ?_
          · refine .after State.cursorTo_moves (.after State.fixFollow_moves ?_)
            exact h_l1
          · exact h_l1
        have h_l6 : Moves [.fresh, .sent, .objs, .wilwa, .rin, .fet, .mem, .dram, .sne, .fsq, .hdg, .che] s l6 := by
          unfold l6
          refine .after State.gainTaken_moves (.after State.takeUpBar_moves ?_)
          exact h_l4
        have h_l7 : Moves [.fresh, .sent, .objs, .wilwa, .rin, .fet, .mem, .dram, .sne, .fsq, .hdg, .che] s l7 := by
          unfold l7
          refine .ite ?_ ?_
          · exact .after State.fetchedTo_moves h_l6
          · exact .after State.memAccess_moves h_l6
        split
        · exact .next h_l1
        · extract_lets l8 l9 l10 l11 l12 l13 l14 l15
          have h_l8 : Moves [.fresh, .sent, .objs, .wilwa, .rin, .fet, .mem, .dram, .sne, .fsq, .hdg, .che] s l8 := by
            unfold l8
            refine .ite ?_ ?_
            · exact h_l6
            · exact .after State.modJob_moves h_l7
          have h_l12 : Moves [.fresh, .sent, .objs, .wilwa, .rin, .fet, .mem, .dram, .sne, .fsq, .hdg, .che] s l12 := by
            unfold l12
            exact .after State.modBar_moves h_l8
          have h_l14 : Moves [.fresh, .sent, .objs, .wilwa, .rin, .fet, .mem, .dram, .sne, .fsq, .hdg, .che] s l14 := by
            unfold l14
            refine .ite ?_ ?_
            · exact .sne h_l12
            · exact h_l12
          have h_l15 : Moves [.fresh, .sent, .objs, .wilwa, .rin, .fet, .mem, .dram, .sne, .fsq, .hdg, .che] s l15 := by
            unfold l15
            refine .forRange ?_ fun i16 t17 h_t17 => ?_
            · exact h_l14
            · refine .ite ?_ ?_
              · exact h_t17
              · refine .ite ?_ ?_
                · exact .after State.modEngine_moves h_t17
                · exact .after State.addNum_moves h_t17
          refine .next (.after State.modJob_moves ?_)
          exact h_l15

theorem execEngineSliceLine_moves {n : Engine} {failure : BitVec 8} {parity : List (BitVec 16 × BitVec 32)} {s : State} : MovesO [.fresh, .objs, .flt, .bbx, .sne, .fsq] s (execEngineSliceLine n failure parity s) := by
  delta execEngineSliceLine
  split
  · exact .next .refl
  · extract_lets l1 l2 l3 l4 l5 l6 l7 l8 l9 l10 l11 l12 l13 l14 l15 l16 l17 l18
    have h_l1 : Moves [.fresh, .objs, .flt, .bbx, .sne, .fsq] s l1 := by
      unfold l1
      exact .after State.modEngine_moves .refl
    have h_l13 : Moves [.fresh, .objs, .flt, .bbx, .sne, .fsq] s l13 := by
      unfold l13
      exact .after State.dropEdges_moves h_l1
    have h_l16 : Moves [.fresh, .objs, .flt, .bbx, .sne, .fsq] s l16 := by
      unfold l16
      exact .sne h_l13
    have h_l17 : Moves [.fresh, .objs, .flt, .bbx, .sne, .fsq] s l17 := by
      unfold l17
      refine .after State.addNum_moves (.after State.addNum_moves ?_)
      exact h_l16
    have h_l18 : Moves [.fresh, .objs, .flt, .bbx, .sne, .fsq] s l18 := by
      unfold l18
      refine .forEach ?_ fun i19 t20 h_t20 => ?_
      · exact h_l17
      · refine .after State.raise_moves (.after State.bump_moves ?_)
        exact h_t20
    refine .ite ?_ ?_
    · refine .next (.after State.failSlice_moves ?_)
      exact .refl
    · refine .next (.after State.markSlice_moves ?_)
      exact h_l18

theorem execEngineSliceTimeout_moves {n : Engine} {s : State} : MovesO [.fresh, .objs, .flt, .bbx, .sne, .fsq] s (execEngineSliceTimeout n s) := by
  delta execEngineSliceTimeout
  split
  · exact .next .refl
  · refine .next (.after State.failSlice_moves ?_)
    exact .refl

theorem execLinePreparation_moves {b : Bar} {s : State} : MovesO [.fresh, .sent, .objs, .flt, .bbx, .wilwa, .mem, .dram, .sne, .fsq, .hlk, .hdg, .mir] s (execLinePreparation b s) := by
  delta execLinePreparation
  extract_lets l1 l2 l3 l4 l5
  have h_l4 : Moves [.fresh, .sent, .objs, .flt, .bbx, .wilwa, .mem, .dram, .sne, .fsq, .hlk, .hdg, .mir] s l4 := by
    unfold l4
    exact .after State.takeUpBar_moves .refl
  have h_l5 : Moves [.fresh, .sent, .objs, .flt, .bbx, .wilwa, .mem, .dram, .sne, .fsq, .hlk, .hdg, .mir] s l5 := by
    unfold l5
    exact .after State.prepareLine_moves h_l4
  refine .ite ?_ ?_
  · exact .next .refl
  · split
    · refine .next (.after State.placeLine_moves ?_)
      exact .after State.modBar_moves h_l5
    · exact .next h_l5

theorem execTokenEmission_moves {l : Lane} {s : State} : MovesO [.fresh, .sent, .objs, .flt, .bbx, .wilwa, .mem, .dram, .fsq, .hlk, .hdg] s (execTokenEmission l s) := by
  delta execTokenEmission
  split
  · exact .next .refl
  · refine .next (.ite ?_ ?_)
    · exact .after State.emitToken_moves .refl
    · exact .refl

theorem execOverspeedEpisodeEnd_moves {b : Bar} {s : State} : MovesO [.objs, .flt, .bbx, .fsq] s (execOverspeedEpisodeEnd b s) := by
  delta execOverspeedEpisodeEnd
  extract_lets l1
  refine .next (.ite ?_ ?_)
  · refine .after State.modBar_moves (.after State.raise_moves ?_)
    exact .refl
  · exact .refl

theorem execLateEpisodeEnd_moves {b : Bar} {s : State} : MovesO [.fsq] s (execLateEpisodeEnd b s) := by
  delta execLateEpisodeEnd
  refine .next (.ite ?_ ?_)
  · exact .after State.modBar_moves .refl
  · exact .refl

theorem execFireEnFall_moves {s : State} : MovesO [.objs, .flt, .bbx, .fsq, .fireEn] s (execFireEnFall s) := by
  delta execFireEnFall
  refine .ite (.next .refl) ?_
  refine .next (.ite ?_ ?_)
  · refine .fsq (.after State.raise_moves ?_)
    exact .plain (u := s) .refl (fun p h => by cases p <;> first | exact absurd (by decide) h | rfl)
  · exact .plain (u := s) .refl (fun p h => by cases p <;> first | exact absurd (by decide) h | rfl)

theorem execFireEnRise_moves {s : State} : MovesO [.objs, .flt, .bbx, .fsq, .fireEn] s (execFireEnRise s) := by
  delta execFireEnRise
  refine .ite (.next .refl) ?_
  refine .next (.ite ?_ ?_)
  · refine .fsq (.after State.raise_moves ?_)
    exact .plain (u := s) .refl (fun p h => by cases p <;> first | exact absurd (by decide) h | rfl)
  · exact .plain (u := s) .refl (fun p h => by cases p <;> first | exact absurd (by decide) h | rfl)

theorem execLaneTableAckTimeout_moves {l : Lane} {s : State} : MovesO [.fresh, .sent, .objs, .flt, .bbx, .wilwa, .fsq, .hlk, .hdg] s (execLaneTableAckTimeout l s) := by
  delta execLaneTableAckTimeout
  extract_lets l1
  refine .ite ?_ ?_
  · exact .next .refl
  · split
    · refine .next (.after State.laneFail_moves ?_)
      exact .refl
    · refine .next (.after State.measLaneLost_moves ?_)
      refine .after State.laneFail_moves (.after State.sendRelease_moves ?_)
      exact .refl
    · exact .next .refl

theorem execStatMeasResultReceived_moves {l : Lane} {r : MeasResult} {s : State} : MovesO [.sent, .objs, .flt, .bbx, .wilwa, .fsq, .hlk, .hdg] s (execStatMeasResultReceived l r s) := by
  delta execStatMeasResultReceived
  split
  · exact .next .refl
  · extract_lets l1 l2 l3 l4 l5
    have h_l1 : Moves [.sent, .objs, .flt, .bbx, .wilwa, .fsq, .hlk, .hdg] s l1 := by
      unfold l1
      exact .after State.modLane_moves .refl
    have h_l3 : Moves [.sent, .objs, .flt, .bbx, .wilwa, .fsq, .hlk, .hdg] s l3 := by
      unfold l3
      refine .forRange ?_ fun i6 t7 h_t7 => ?_
      · exact h_l1
      · exact .after State.measStore_moves h_t7
    have h_l4 : Moves [.sent, .objs, .flt, .bbx, .wilwa, .fsq, .hlk, .hdg] s l4 := by
      unfold l4
      exact .after State.measRest_moves h_l1
    have h_l5 : Moves [.sent, .objs, .flt, .bbx, .wilwa, .fsq, .hlk, .hdg] s l5 := by
      unfold l5
      exact .after State.measStatus_moves h_l1
    refine .ite ?_ ?_
    · exact .next .refl
    · refine .ite ?_ ?_
      · refine .next (.after State.measGo_moves ?_)
        exact h_l3
      · refine .ite ?_ ?_
        · refine .next (.after State.measGo_moves ?_)
          exact h_l4
        · refine .next (.after State.measGo_moves ?_)
          exact h_l5

theorem execLaneLockLost_moves {l : Lane} {s : State} : MovesO [.fresh, .sent, .objs, .flt, .bbx, .wilwa, .mem, .dram, .fsq, .hlk, .hdg] s (execLaneLockLost l s) := by
  delta execLaneLockLost
  extract_lets l1 l2
  have h_l2 : Moves [.fresh, .sent, .objs, .flt, .bbx, .wilwa, .mem, .dram, .fsq, .hlk, .hdg] s l2 := by
    unfold l2
    refine .after State.measLaneLost_moves (.after State.laneLost_moves ?_)
    exact .refl
  refine .ite ?_ ?_
  · exact .next .refl
  · refine .next ?_
    refine .forEach ?_ fun i3 t4 h_t4 => ?_
    · exact h_l2
    · exact .after State.laneDone_moves h_t4

theorem execHdmMeasFrame_moves {m : Lane} {fromB : Bool} {head : BitVec 16} {first : BitVec 16} {count : BitVec 16} {kind : BitVec 8} {tag : BitVec 8} {s : State} : MovesO [.fresh, .sent, .hdms] s (execHdmMeasFrame m fromB head first count kind tag s) := by
  delta execHdmMeasFrame
  refine State.onHdm_moves ?_ fun t1 h_t1 => ?_
  · exact .refl
  · extract_lets l2 l3 l4 l5 l6 l7 l8 l9
    have h_l9 : ∀ a1 a2 a3, Moves [.fresh, .sent, .hdms] s a3 → Moves [.fresh, .sent, .hdms] s (l9 a1 a2 a3) := by
      intro a1 a2 a3 h_a3
      unfold l9
      exact .after State.hdmSend_moves h_a3
    refine .ite ?_ ?_
    · exact h_l9 _ _ _ h_t1
    · refine .ite ?_ ?_
      · exact h_l9 _ _ _ h_t1
      · split
        · rename_i x10 x11 x12 x13
          have h_x12 : Moves [.fresh, .sent, .hdms] s x12 := by
            refine MovesP.of_eq x13 (.after State.freeBelow_moves ?_)
            exact h_t1
          refine .ite ?_ ?_
          · exact h_l9 _ _ _ h_x12
          · exact h_l9 _ _ _ h_x12

theorem execMeasTimeout_moves {l : Lane} {s : State} : MovesO [.sent, .objs, .flt, .bbx, .wilwa, .fsq, .hlk, .hdg] s (execMeasTimeout l s) := by
  delta execMeasTimeout
  split
  · exact .next .refl
  · extract_lets l1 l2
    have h_l1 : Moves [.sent, .objs, .flt, .bbx, .wilwa, .fsq, .hlk, .hdg] s l1 := by
      unfold l1
      exact .after State.measStatus_moves .refl
    have h_l2 : Moves [.sent, .objs, .flt, .bbx, .wilwa, .fsq, .hlk, .hdg] s l2 := by
      unfold l2
      exact .after State.raise_moves h_l1
    refine .ite ?_ ?_
    · refine .next (.after State.measSend_moves ?_)
      exact .refl
    · refine .next (.after State.measGo_moves ?_)
      exact h_l2

end Sys2Proof.Machine
end

