-- ==== Sys2Proof/Laws/FramesPos.lean ====
section
/-! SUPPORT. Frames: what the functions of the position channels, the machine signals, the cameras and colour hold may change, one lemma a function. -/

set_option Elab.async false

namespace Sys2Proof.Machine

set_option maxRecDepth 4000
variable {ps qs : List StatePart} {t u v : State}

theorem State.modPch_moves {s : State} {n : Nat} {f : Pch → Pch} : Moves [.pos] s (State.modPch s n f) := by
  delta State.modPch
  exact .pos .refl

theorem State.lineEvents_moves {f b n : Nat} {how : CrossBy} {s : State} : Moves [.fresh, .sent, .objs, .pwr, .flt, .bbx, .wilwa, .rin, .fet, .mem, .dram, .lcg, .sne, .fsq, .hlk, .hdg, .che, .mir] s (State.lineEvents f b n how s) := by
  induction f generalizing s with
  | zero => exact .refl
  | succ f ih =>
    simp only [State.lineEvents]
    refine .ite .refl ?_
    refine .after ih (.after State.lineEvent_moves (.after State.modLcg_moves ?_))
    exact .ite (.after State.bump_moves .refl) .refl

theorem State.advance_moves {s : State} {b : Nat} {n : Nat} {how : CrossBy} : Moves [.fresh, .sent, .objs, .pwr, .flt, .bbx, .wilwa, .rin, .fet, .mem, .dram, .lcg, .sne, .fsq, .hlk, .hdg, .vis, .che, .mir] s (State.advance s b n how) := by
  delta State.advance
  extract_lets l1 l2 l3 l4 l5
  have h_l2 : Moves [.fresh, .sent, .objs, .pwr, .flt, .bbx, .wilwa, .rin, .fet, .mem, .dram, .lcg, .sne, .fsq, .hlk, .hdg, .vis, .che, .mir] s l2 := by
    unfold l2
    exact .after State.modLcg_moves .refl
  have h_l4 : Moves [.fresh, .sent, .objs, .pwr, .flt, .bbx, .wilwa, .rin, .fet, .mem, .dram, .lcg, .sne, .fsq, .hlk, .hdg, .vis, .che, .mir] s l4 := by
    unfold l4
    refine .after State.stopsDone_moves (.after State.lineEvents_moves ?_)
    exact h_l2
  refine .ite ?_ ?_
  · exact h_l4
  · refine .after State.takeUpBar_moves (.after State.takeUpBar_moves ?_)
    exact h_l4

theorem State.speed_moves {s : State} {n : Nat} : MovesP [.fresh] s (State.speed s n) := by
  delta State.speed
  extract_lets l1
  refine .ite ?_ ?_
  · exact .mk .refl
  · split
    · split
      · rename_i x2 x3 x4 x5
        have h_x4 : Moves [.fresh] s x4 := by
          refine MovesP.of_eq x5 (.after State.freeBelow_moves ?_)
          exact .refl
        exact .mk h_x4
    · extract_lets l6
      refine .ite ?_ ?_
      · split
        · rename_i x7 x8 x9 x10
          have h_x9 : Moves [.fresh] s x9 := by
            refine MovesP.of_eq x10 (.after State.freeBelow_moves ?_)
            exact .refl
          exact .mk h_x9
      · split
        · rename_i x11 x12 x13 x14
          have h_x13 : Moves [.fresh] s x13 := by
            refine MovesP.of_eq x14 (.after State.freeQuot_moves ?_)
            exact .refl
          exact .after State.fitInt_moves h_x13

theorem State.webSpeed_moves {s : State} {n : Nat} : MovesP [.fresh] s (State.webSpeed s n) := by
  delta State.webSpeed
  split
  · rename_i x1 x2 x3 x4
    have h_x3 : Moves [.fresh] s x3 := by
      refine MovesP.of_eq x4 (.after State.speed_moves ?_)
      exact .refl
    extract_lets l5
    refine .ite ?_ ?_
    · split
      · rename_i x6 x7 x8 x9
        have h_x8 : Moves [.fresh] s x8 := by
          refine MovesP.of_eq x9 (.after State.freeBelow_moves ?_)
          exact h_x3
        exact .mk h_x8
    · split
      · rename_i x10 x11 x12 x13
        have h_x12 : Moves [.fresh] s x12 := by
          refine MovesP.of_eq x13 (.after State.freeQuot_moves ?_)
          exact h_x3
        exact .after State.fitInt_moves h_x12

theorem State.modCam_moves {s : State} {p : Nat} {f : Cam → Cam} : Moves [.vis] s (State.modCam s p f) := by
  delta State.modCam
  extract_lets l1
  exact .vis .refl

theorem State.portAtOnce_moves {s : State} {p : Nat} : Moves [.fresh, .objs, .wilwa, .sne, .fsq, .hdg, .vis] s (State.portAtOnce s p) := by
  delta State.portAtOnce
  extract_lets l1
  have h_l1 : Moves [.fresh, .objs, .wilwa, .sne, .fsq, .hdg, .vis] s l1 := by
    unfold l1
    exact .after State.liveWhere_moves .refl
  refine .ite ?_ ?_
  · split
    · rename_i x2 x3 x4 x5
      have h_x4 : Moves [.fresh, .objs, .wilwa, .sne, .fsq, .hdg, .vis] s x4 := by
        refine MovesP.of_eq x5 (.after State.freeBelow_moves ?_)
        exact h_l1
      refine .after State.modCam_moves (.after State.takenUp_moves ?_)
      exact h_x4
  · exact .refl

theorem State.takeUpWeb_moves {s : State} : Moves [.fresh, .objs, .wilwa, .sne, .fsq, .hdg] s (State.takeUpWeb s) := by
  delta State.takeUpWeb
  refine .ite ?_ ?_
  · refine .after State.commitDone_moves (.after State.barsTakeUp_moves ?_)
    exact .after State.liveWhere_moves .refl
  · exact .refl

theorem State.modUnit_moves {s : State} {u : Nat} {f : Cmp → Cmp} : Moves [.cmp] s (State.modUnit s u f) := by
  delta State.modUnit
  exact .cmp .refl

theorem State.unitTakeUp_moves {s : State} {u : Nat} : Moves [.objs, .flt, .bbx, .cmp] s (State.unitTakeUp s u) := by
  delta State.unitTakeUp
  extract_lets l1 l2 l3 l4 l5 l6 l7
  have h_l4 : Moves [.objs, .flt, .bbx, .cmp] s l4 := by
    unfold l4
    refine .ite ?_ ?_
    · exact .after State.setNum_moves .refl
    · exact .refl
  have h_l7 : Moves [.objs, .flt, .bbx, .cmp] s l7 := by
    unfold l7
    exact .after State.modUnit_moves h_l4
  refine .ite ?_ ?_
  · exact .after State.modUnit_moves h_l4
  · refine .ite ?_ ?_
    · exact .after State.raise_moves h_l7
    · exact h_l7

theorem State.autoExpose_moves {s : State} {p : Nat} {hist : List Nat} : Moves [.objs, .flt, .bbx, .vis] s (State.autoExpose s p hist) := by
  delta State.autoExpose
  extract_lets l1 l2 l3 l4 l5
  refine .ite ?_ ?_
  · exact .refl
  · split
    · exact .refl
    · exact .refl
    · extract_lets l6 l7 l8 l9 l10 l11
      have h_l10 : Moves [.objs, .flt, .bbx, .vis] s l10 := by
        unfold l10
        refine .ite ?_ ?_
        · exact .after State.raise_moves .refl
        · exact .refl
      have h_l11 : Moves [.objs, .flt, .bbx, .vis] s l11 := by
        unfold l11
        exact .after State.modCam_moves h_l10
      refine .ite ?_ ?_
      · exact h_l11
      · exact .after State.setNum_moves h_l11

theorem State.closePortFrame_moves {s : State} {p : Nat} {extra : Nat} : Moves [.objs, .flt, .bbx, .vis] s (State.closePortFrame s p extra) := by
  delta State.closePortFrame
  extract_lets l1 l2
  split
  · exact .refl
  · extract_lets l3 l4 l5 l6 l7 l8 l9 l10
    have h_l6 : Moves [.objs, .flt, .bbx, .vis] s l6 := by
      unfold l6
      exact .vis .refl
    have h_l7 : Moves [.objs, .flt, .bbx, .vis] s l7 := by
      unfold l7
      exact .after State.modCam_moves h_l6
    have h_l8 : Moves [.objs, .flt, .bbx, .vis] s l8 := by
      unfold l8
      refine .ite ?_ ?_
      · exact h_l7
      · exact .after State.setObj_moves h_l7
    have h_l10 : Moves [.objs, .flt, .bbx, .vis] s l10 := by
      unfold l10
      exact .vis h_l8
    refine .ite ?_ ?_
    · refine .ite ?_ ?_
      · exact h_l10
      · exact .after State.autoExpose_moves h_l10
    · exact .after State.raise_moves h_l10

theorem State.setPart_moves {s : State} {p : Nat} {i : Nat} {part : Part} {m : Nat} : Moves [.vis] s (State.setPart s p i part m) := by
  delta State.setPart
  extract_lets l1
  exact .vis .refl

theorem State.completeLine_moves {s : State} {t : Stitch} : Moves [.vis] s (State.completeLine s t) := by
  delta State.completeLine
  extract_lets l1 l2 l3 l4 l5 l6 l7 l8 l9 l10
  have h_l2 : Moves [.vis] s l2 := by
    unfold l2
    exact .vis .refl
  refine .ite ?_ ?_
  · exact h_l2
  · exact .vis h_l2

theorem State.coderLate_moves {s : State} {stream : Nat} : MovesP [.fresh] s (State.coderLate s stream) := by
  delta State.coderLate
  refine .ite ?_ ?_
  · split
    · rename_i x1 x2 x3 x4
      have h_x3 : Moves [.fresh] s x3 := by
        refine MovesP.of_eq x4 (.after State.freeBelow_moves ?_)
        exact .refl
      exact .mk h_x3
  · exact .mk .refl

theorem State.ringEnds_moves {s : State} {stream : Nat} : Moves [.objs] s (State.ringEnds s stream) := by
  delta State.ringEnds
  extract_lets l1 l2
  refine .after State.setNum_moves (.after State.setNum_moves ?_)
  exact .refl

theorem State.productLost_moves {s : State} {stream : Nat} {p : Product} : Moves [.sent, .objs, .flt, .bbx, .wilwa] s (State.productLost s stream p) := by
  delta State.productLost
  extract_lets l1
  have h_l1 : Moves [.sent, .objs, .flt, .bbx, .wilwa] s l1 := by
    unfold l1
    split
    · refine .ite ?_ ?_
      · refine .after State.raise_moves (.after State.bump_moves ?_)
        exact .refl
      · exact .refl
    · exact .refl
  refine .forEach ?_ fun i2 t3 h_t3 => ?_
  · exact h_l1
  · exact .after State.abortTransfer_moves h_t3

theorem State.ringRoom_moves {n a b : Nat} {s : State} : Moves [.sent, .objs, .flt, .bbx, .wilwa, .vis] s (State.ringRoom n a b s) := by
  induction n generalizing s with
  | zero => exact .refl
  | succ n ih =>
    simp only [State.ringRoom]
    split
    · exact .refl
    · exact .ite .refl (.after ih (.after State.productLost_moves (.vis .refl)))

theorem State.keepProduct_moves {s : State} {k : Nat} {f : WebFrame} {marks : Nat} : Moves [.sent, .objs, .flt, .bbx, .wilwa, .vis] s (State.keepProduct s k f marks) := by
  delta State.keepProduct
  extract_lets l1 l2 l3 l4 l5
  have h_l2 : Moves [.sent, .objs, .flt, .bbx, .wilwa, .vis] s l2 := by
    unfold l2
    exact .after State.ringRoom_moves .refl
  refine .ite ?_ ?_
  · refine .after State.ringEnds_moves (.after State.productLost_moves ?_)
    exact h_l2
  · refine .after State.ringEnds_moves (.vis ?_)
    exact h_l2

theorem State.makeProducts_moves {s : State} {f : WebFrame} {marks : Nat} : Moves [.fresh, .sent, .objs, .flt, .bbx, .wilwa, .vis] s (State.makeProducts s f marks) := by
  delta State.makeProducts
  refine .ite ?_ ?_
  · exact .refl
  · refine .forRange ?_ fun i1 t2 h_t2 => ?_
    · exact .refl
    · refine .ite ?_ ?_
      · exact h_t2
      · split
        · rename_i x3 x4 x5 x6
          have h_x5 : Moves [.fresh, .sent, .objs, .flt, .bbx, .wilwa, .vis] s x5 := by
            refine MovesP.of_eq x6 (.after State.coderLate_moves ?_)
            exact h_t2
          refine .ite ?_ ?_
          · exact .after State.bump_moves h_x5
          · exact .after State.keepProduct_moves h_x5

theorem State.webClose_moves {s : State} {f : WebFrame} {extra : Nat} : Moves [.fresh, .sent, .objs, .flt, .bbx, .wilwa, .vis] s (State.webClose s f extra) := by
  delta State.webClose
  extract_lets l1 l2 l3 l4 l5 l6 l7 l8 l9 l10 l11 l12 l13 l14 l15 l16 l17 l18
  have h_l4 : Moves [.fresh, .sent, .objs, .flt, .bbx, .wilwa, .vis] s l4 := by
    unfold l4
    refine .forEach ?_ fun i19 t20 h_t20 => ?_
    · exact .refl
    · exact .after State.modCam_moves h_t20
  have h_l6 : Moves [.fresh, .sent, .objs, .flt, .bbx, .wilwa, .vis] s l6 := by
    unfold l6
    exact .vis h_l4
  have h_l7 : Moves [.fresh, .sent, .objs, .flt, .bbx, .wilwa, .vis] s l7 := by
    unfold l7
    refine .after State.setNum_moves (.after State.setNum_moves ?_)
    exact h_l6
  have h_l9 : Moves [.fresh, .sent, .objs, .flt, .bbx, .wilwa, .vis] s l9 := by
    unfold l9
    exact .after State.setObj_moves h_l7
  have h_l11 : Moves [.fresh, .sent, .objs, .flt, .bbx, .wilwa, .vis] s l11 := by
    unfold l11
    refine .ite ?_ ?_
    · exact .after State.raise_moves h_l9
    · exact h_l9
  have h_l14 : Moves [.fresh, .sent, .objs, .flt, .bbx, .wilwa, .vis] s l14 := by
    unfold l14
    exact .vis h_l11
  have h_l16 : Moves [.fresh, .sent, .objs, .flt, .bbx, .wilwa, .vis] s l16 := by
    unfold l16
    refine .ite ?_ ?_
    · exact .after State.raise_moves h_l14
    · exact h_l14
  have h_l18 : Moves [.fresh, .sent, .objs, .flt, .bbx, .wilwa, .vis] s l18 := by
    unfold l18
    exact .vis h_l16
  exact .after State.makeProducts_moves h_l18

theorem State.restartTriggers_moves {s : State} : Moves [.fresh, .sent, .objs, .flt, .bbx, .wilwa, .vis] s (State.restartTriggers s) := by
  delta State.restartTriggers
  extract_lets l1 l2 l3 l4 l5
  have h_l1 : Moves [.fresh, .sent, .objs, .flt, .bbx, .wilwa, .vis] s l1 := by
    unfold l1
    refine .forRange ?_ fun i6 t7 h_t7 => ?_
    · exact .refl
    · extract_lets l8 l9
      have h_l8 : Moves [.fresh, .sent, .objs, .flt, .bbx, .wilwa, .vis] s l8 := by
        unfold l8
        split
        · exact .after State.closePortFrame_moves h_t7
        · exact h_t7
      have h_l9 : Moves [.fresh, .sent, .objs, .flt, .bbx, .wilwa, .vis] s l9 := by
        unfold l9
        refine .forEach ?_ fun i10 t11 h_t11 => ?_
        · exact h_l8
        · exact .after State.setPart_moves h_t11
      exact .after State.modCam_moves h_l9
  have h_l2 : Moves [.fresh, .sent, .objs, .flt, .bbx, .wilwa, .vis] s l2 := by
    unfold l2
    refine .forEach ?_ fun i12 t13 h_t13 => ?_
    · exact h_l1
    · refine .ite ?_ ?_
      · exact .after State.completeLine_moves h_t13
      · exact h_t13
  have h_l3 : Moves [.fresh, .sent, .objs, .flt, .bbx, .wilwa, .vis] s l3 := by
    unfold l3
    refine .ite ?_ ?_
    · exact h_l2
    · refine .forEach ?_ fun i14 t15 h_t15 => ?_
      · exact h_l2
      · exact .after State.webClose_moves h_t15
  have h_l4 : Moves [.fresh, .sent, .objs, .flt, .bbx, .wilwa, .vis] s l4 := by
    unfold l4
    refine .forRange ?_ fun i16 t17 h_t17 => ?_
    · exact h_l3
    · exact .after State.modCam_moves h_t17
  exact .vis h_l4

theorem State.unitRestarts_moves {s : State} {u : Nat} : Moves [.fresh, .sent, .objs, .flt, .bbx, .wilwa, .vis] s (State.unitRestarts s u) := by
  delta State.unitRestarts
  refine .ite ?_ ?_
  · exact .after State.restartTriggers_moves .refl
  · exact .refl

theorem State.markFrame_moves {s : State} {p : Nat} {j : Nat} {m : Nat} : Moves [.vis] s (State.markFrame s p j m) := by
  delta State.markFrame
  exact .after State.modCam_moves .refl

theorem State.expireOldest_moves {s : State} {p : Nat} : Moves [.objs, .vis] s (State.expireOldest s p) := by
  delta State.expireOldest
  split
  · exact .refl
  · extract_lets l1 l2 l3 l4 l5
    have h_l3 : Moves [.objs, .vis] s l3 := by
      unfold l3
      exact .after State.modCam_moves .refl
    have h_l4 : Moves [.objs, .vis] s l4 := by
      unfold l4
      refine .after State.markFrame_moves (.after State.bump_moves ?_)
      exact h_l3
    have h_l5 : Moves [.objs, .vis] s l5 := by
      unfold l5
      exact .after State.modCam_moves h_l4
    exact .after State.setPart_moves h_l5

theorem State.startBatch_moves {s : State} {p : Nat} : Moves [.vis] s (State.startBatch s p) := by
  delta State.startBatch
  extract_lets l1 l2 l3
  refine .ite ?_ ?_
  · exact .after State.modCam_moves .refl
  · exact .after State.modCam_moves .refl

theorem State.camReset_moves {s : State} {p : Nat} : Moves [.objs, .vis] s (State.camReset s p) := by
  delta State.camReset
  extract_lets l1 l2 l3 l4 l5 l6 l7
  have h_l1 : Moves [.objs, .vis] s l1 := by
    unfold l1
    refine .foldl ?_ fun t8 i9 h_t8 => ?_
    · exact .refl
    · exact .after State.expireOldest_moves h_t8
  have h_l2 : Moves [.objs, .vis] s l2 := by
    unfold l2
    split
    · exact .after State.markFrame_moves h_l1
    · exact h_l1
  have h_l5 : Moves [.objs, .vis] s l5 := by
    unfold l5
    exact .vis h_l2
  have h_l7 : Moves [.objs, .vis] s l7 := by
    unfold l7
    exact .after State.modCam_moves h_l5
  refine .ite ?_ ?_
  · exact .after State.startBatch_moves h_l7
  · exact h_l7

theorem hookPos_moves {idx : Nat} {sub : Nat} {v : Val} {s : State} : MovesH [.fresh, .objs, .pos] s (hookPos idx sub v s) := by
  delta hookPos
  extract_lets l1 l2 l3 l4
  have h_l4 : MovesE [.fresh, .objs, .pos] s l4 := by
    unfold l4
    refine .ok (.after State.delaysChanged_moves ?_)
    exact .after State.setObj_moves .refl
  split
  · rename_i x5
    refine .some (.ite ?_ ?_)
    · exact .error
    · refine .ite ?_ ?_
      · exact .error
      · refine .ite ?_ ?_
        · exact .error
        · refine .ok (.after State.delaysChanged_moves ?_)
          refine .after State.modPch_moves (.after State.setObj_moves ?_)
          exact .refl
  · rename_i x6
    refine .some (.ite ?_ ?_)
    · exact .error
    · refine .ite ?_ ?_
      · exact .error
      · refine .ite ?_ ?_
        · exact .error
        · exact h_l4
  · rename_i x7
    refine .some (.ite ?_ ?_)
    · exact .error
    · refine .ite ?_ ?_
      · exact .error
      · refine .ite ?_ ?_
        · exact .error
        · exact h_l4
  · rename_i x8
    refine .some (.ite ?_ ?_)
    · exact h_l4
    · exact .error
  · exact .none

theorem State.holdMode_moves {s : State} {c : Nat} {v : Nat} : MovesE [.objs, .che] s (State.holdMode s c v) := by
  delta State.holdMode
  extract_lets l1 l2 l3 l4
  have h_l3 : Moves [.objs, .che] s l3 := by
    unfold l3
    exact .after State.setNum_moves .refl
  refine .ite ?_ ?_
  · exact .error
  · refine .ite ?_ ?_
    · exact .error
    · refine .ok (.ite ?_ ?_)
      · refine .after State.modChe_moves (.after State.setObj_moves ?_)
        exact h_l3
      · exact h_l3

theorem State.holdRun_moves {s : State} {on : Bool} : MovesE [.objs, .flt, .bbx, .che] s (State.holdRun s on) := by
  delta State.holdRun
  refine .ite ?_ ?_
  · exact .error
  · refine .ite ?_ ?_
    · refine .ite ?_ ?_
      · exact .ok .refl
      · refine .ok (.after State.clearTrack_moves ?_)
        refine .after State.setNum_moves (.after State.setNum_moves ?_)
        exact .refl
    · refine .ok (.after State.setNum_moves ?_)
      exact .refl

theorem State.clearRef_moves {s : State} {b : Nat} : Moves [.sent, .objs, .che, .mir] s (State.clearRef s b) := by
  delta State.clearRef
  refine .ite ?_ ?_
  · exact .refl
  · refine .after State.sendRef_moves (.after State.holdLog_moves ?_)
    exact .after State.setObj_moves .refl

theorem hookChe_moves {idx : Nat} {sub : Nat} {v : Val} {s : State} : MovesH [.sent, .objs, .flt, .bbx, .che, .mir] s (hookChe idx sub v s) := by
  delta hookChe
  extract_lets l1 l2
  split
  · refine .some (.after State.holdMode_moves ?_)
    exact .refl
  · refine .some (.ite ?_ ?_)
    · refine .ok (.after State.setObj_moves ?_)
      exact .refl
    · exact .error
  · refine .some (.ite ?_ ?_)
    · refine .ok (.after State.setObj_moves ?_)
      exact .refl
    · exact .error
  · refine .some (.ite ?_ ?_)
    · refine .ok (.after State.sendRef_moves ?_)
      exact .after State.setObj_moves .refl
    · exact .error
  · refine .ite ?_ ?_
    · refine .some (.after State.holdRun_moves ?_)
      exact .refl
    · refine .ite ?_ ?_
      · refine .some (.ite ?_ ?_)
        · exact .error
        · refine .ok ?_
          refine .forEach ?_ fun i3 t4 h_t4 => ?_
          · exact .refl
          · exact .after State.clearRef_moves h_t4
      · exact .none
  · exact .none

theorem State.visAtOnce_moves {s : State} : Moves [.fresh, .objs, .wilwa, .sne, .fsq, .hdg, .vis] s (State.visAtOnce s) := by
  delta State.visAtOnce
  extract_lets l1
  have h_l1 : Moves [.fresh, .objs, .wilwa, .sne, .fsq, .hdg, .vis] s l1 := by
    unfold l1
    refine .forRange ?_ fun i2 t3 h_t3 => ?_
    · exact .refl
    · refine .ite ?_ ?_
      · exact h_t3
      · exact .after State.portAtOnce_moves h_t3
  refine .ite ?_ ?_
  · exact h_l1
  · exact .after State.takeUpWeb_moves h_l1

theorem State.portEnable_moves {s : State} {p : Nat} {on : Bool} : MovesE [.fresh, .objs, .wilwa, .sne, .fsq, .hdg, .vis] s (State.portEnable s p on) := by
  delta State.portEnable
  extract_lets l1 l2 l3 l4 l5 l6 l7 l8 l9 l10 l11 l12 l13 l14
  have h_l3 : Moves [.fresh, .objs, .wilwa, .sne, .fsq, .hdg, .vis] s l3 := by
    unfold l3
    exact .after State.setNum_moves .refl
  have h_l5 : Moves [.fresh, .objs, .wilwa, .sne, .fsq, .hdg, .vis] s l5 := by
    unfold l5
    exact .after State.modCam_moves h_l3
  have h_l7 : Moves [.fresh, .objs, .wilwa, .sne, .fsq, .hdg, .vis] s l7 := by
    unfold l7
    exact .vis h_l5
  have h_l12 : Moves [.fresh, .objs, .wilwa, .sne, .fsq, .hdg, .vis] s l12 := by
    unfold l12
    refine .after State.setNum_moves (.after State.setNum_moves ?_)
    exact .refl
  have h_l14 : Moves [.fresh, .objs, .wilwa, .sne, .fsq, .hdg, .vis] s l14 := by
    unfold l14
    exact .after State.modCam_moves h_l12
  refine .ite ?_ ?_
  · refine .ok (.after State.visAtOnce_moves ?_)
    exact h_l7
  · refine .ite ?_ ?_
    · exact .error
    · refine .ite ?_ ?_
      · exact .ok .refl
      · refine .ite ?_ ?_
        · exact .error
        · refine .ite ?_ ?_
          · exact .error
          · refine .ok (.after State.startBatch_moves ?_)
            exact h_l14

theorem State.cciCommand_moves {s : State} {p : Nat} {v : Bytes} : MovesE [.objs, .vis] s (State.cciCommand s p v) := by
  delta State.cciCommand
  extract_lets l1
  refine .ite ?_ ?_
  · exact .error
  · refine .ite ?_ ?_
    · exact .error
    · refine .ite ?_ ?_
      · exact .error
      · refine .ok (.after State.setObj_moves ?_)
        exact .after State.modCam_moves .refl

theorem hookVis_moves {idx : Nat} {sub : Nat} {v : Val} {s : State} : MovesH [.fresh, .objs, .wilwa, .sne, .fsq, .hdg, .vis] s (hookVis idx sub v s) := by
  delta hookVis
  extract_lets l1
  split
  · refine .some (.after State.portEnable_moves ?_)
    exact .refl
  · refine .ite ?_ ?_
    · exact .some .error
    · exact .none
  · refine .some (.after State.cciCommand_moves ?_)
    exact .refl
  · refine .some (.ok ?_)
    refine .after State.modCam_moves (.after State.setObj_moves ?_)
    exact .refl
  · refine .some (.ite ?_ ?_)
    · refine .ok (.after State.setObj_moves ?_)
      exact .refl
    · exact .error
  · refine .some (.ite ?_ ?_)
    · refine .ok (.after State.setObj_moves ?_)
      exact .refl
    · exact .error
  · exact .none

theorem State.countInterval_moves {s : State} {n : Nat} : MovesP [.fresh] s (State.countInterval s n) := by
  delta State.countInterval
  split
  · exact .mk .refl
  · split
    · rename_i x1 x2 x3 x4
      have h_x3 : Moves [.fresh] s x3 := by
        refine MovesP.of_eq x4 (.after State.freeQuot_moves ?_)
        exact .refl
      exact .after State.fit_moves h_x3

theorem State.positionStatus_moves {s : State} {n : Nat} : MovesP [.fresh] s (State.positionStatus s n) := by
  delta State.positionStatus
  extract_lets l1
  split
  · rename_i x2 x3 x4 x5
    have h_x4 : Moves [.fresh] s x4 := by
      refine MovesP.of_eq x5 (.ite ?_ ?_)
      · exact .mk .refl
      · exact .after State.freeBelow_moves .refl
    exact .mk h_x4

theorem State.markOpen_moves {s : State} {p : Nat} {m : Nat} : Moves [.vis] s (State.markOpen s p m) := by
  delta State.markOpen
  exact .after State.modCam_moves .refl

theorem State.boxLine_moves {s : State} {i : Nat} {t : Trig} {runs : List Run} : Moves [.objs, .vis] s (State.boxLine s i t runs) := by
  delta State.boxLine
  split
  · extract_lets l1 l2 l3 l4 l5
    have h_l2 : Moves [.objs, .vis] s l2 := by
      unfold l2
      exact .after State.addNum_moves .refl
    have h_l5 : Moves [.objs, .vis] s l5 := by
      unfold l5
      exact .vis h_l2
    exact .after State.addNum_moves h_l5

theorem State.captureRefs_moves {s : State} {c : Nat} :
    Moves [.sent, .objs, .flt, .bbx, .che, .mir] s (State.captureRefs s c) := by
  delta State.captureRefs
  extract_lets l1 l2 l3 l4 l5 l6 l7 l8
  have h8 : Moves [.sent, .objs, .flt, .bbx, .che, .mir] s l8 := by
    unfold l8 l7
    exact .after State.raise_moves (.after State.setObj_moves .refl)
  clear_value l8 l4
  cases l4 with
  | nil => exact .refl
  | cons a l => exact .after State.sendRef_moves (.after State.holdLog_moves h8)

theorem State.clockChange_moves {s : State} {b : Nat} {n : Nat} {how : CrossBy} : Moves [.fresh, .sent, .objs, .pwr, .flt, .bbx, .wilwa, .rin, .fet, .mem, .dram, .lcg, .sne, .fsq, .hlk, .hdg, .vis, .che, .mir] s (State.clockChange s b n how) := by
  delta State.clockChange
  extract_lets l1 l2 l3 l4 l5 l6 l7
  have h_l4 : Moves [.fresh, .sent, .objs, .pwr, .flt, .bbx, .wilwa, .rin, .fet, .mem, .dram, .lcg, .sne, .fsq, .hlk, .hdg, .vis, .che, .mir] s l4 := by
    unfold l4
    refine .after State.bump_moves (.after State.modLcg_moves ?_)
    exact .refl
  have h_l5 : Moves [.fresh, .sent, .objs, .pwr, .flt, .bbx, .wilwa, .rin, .fet, .mem, .dram, .lcg, .sne, .fsq, .hlk, .hdg, .vis, .che, .mir] s l5 := by
    unfold l5
    exact .after State.raise_moves h_l4
  have h_l6 : Moves [.fresh, .sent, .objs, .pwr, .flt, .bbx, .wilwa, .rin, .fet, .mem, .dram, .lcg, .sne, .fsq, .hlk, .hdg, .vis, .che, .mir] s l6 := by
    unfold l6
    exact .after State.modBar_moves .refl
  have h_l7 : Moves [.fresh, .sent, .objs, .pwr, .flt, .bbx, .wilwa, .rin, .fet, .mem, .dram, .lcg, .sne, .fsq, .hlk, .hdg, .vis, .che, .mir] s l7 := by
    unfold l7
    exact .after State.raise_moves h_l6
  split
  · exact .refl
  · exact .refl
  · refine .ite ?_ ?_
    · exact .after State.advance_moves .refl
    · refine .ite ?_ ?_
      · exact .after State.modLcg_moves .refl
      · refine .after State.barAtOnce_moves (.after State.modBar_moves ?_)
        exact h_l5
  · refine .ite ?_ ?_
    · exact .after State.advance_moves .refl
    · refine .ite ?_ ?_
      · exact .after State.modLcg_moves .refl
      · refine .after State.barAtOnce_moves (.after State.modBar_moves ?_)
        exact h_l5
  · refine .ite ?_ ?_
    · exact .after State.advance_moves h_l7
    · exact .refl

theorem State.compareLine_moves {s : State} {w : WebLine} {lines : Option (List (Nat × Nat))} : Moves [.objs, .vis] s (State.compareLine s w lines) := by
  delta State.compareLine
  extract_lets l1 l2 l3
  refine .ite ?_ ?_
  · exact .refl
  · split
    · refine .after State.boxLine_moves (.after State.bump_moves ?_)
      exact .refl
    · extract_lets l4
      refine .ite ?_ ?_
      · refine .after State.boxLine_moves (.after State.bump_moves ?_)
        exact .refl
      · exact .after State.boxLine_moves .refl

theorem State.unitAction_moves {s : State} {u : Nat} : Moves [.cmp] s (State.unitAction s u) := by
  delta State.unitAction
  exact .after State.modUnit_moves .refl

theorem State.unitFires_moves {s : State} {u : Nat} {n : Nat} {how : CrossBy} : Moves [.objs, .flt, .bbx, .cmp, .vis] s (State.unitFires s u n how) := by
  delta State.unitFires
  extract_lets l1 l2 l3 l4 l5 l6
  have h_l4 : Moves [.objs, .flt, .bbx, .cmp, .vis] s l4 := by
    unfold l4
    exact .after State.bump_moves .refl
  have h_l5 : Moves [.objs, .flt, .bbx, .cmp, .vis] s l5 := by
    unfold l5
    exact .after State.modUnit_moves h_l4
  have h_l6 : Moves [.objs, .flt, .bbx, .cmp, .vis] s l6 := by
    unfold l6
    exact .after State.bump_moves h_l5
  split
  · extract_lets l7 l8 l9 l10 l11 l12 l13
    have h_l10 : Moves [.objs, .flt, .bbx, .cmp, .vis] s l10 := by
      unfold l10
      refine .ite ?_ ?_
      · refine .after State.unitAction_moves (.after State.bump_moves ?_)
        exact h_l5
      · exact .after State.modUnit_moves h_l5
    refine .ite ?_ ?_
    · exact .after State.raise_moves h_l6
    · refine .ite ?_ ?_
      · exact h_l5
      · refine .ite ?_ ?_
        · exact .vis h_l10
        · exact h_l10

theorem State.unitCross_moves {f u n o : Nat} {how : CrossBy} {s : State} : Moves [.objs, .flt, .bbx, .cmp, .vis] s (State.unitCross f u n o how s) := by
  induction f generalizing s with
  | zero => exact .refl
  | succ f ih =>
    simp only [State.unitCross]
    exact .ite (.after ih (.after State.unitFires_moves .refl)) .refl

theorem State.countMoved_moves {s : State} {n : Nat} {old : Nat} {how : CrossBy} : Moves [.fresh, .sent, .objs, .pwr, .flt, .bbx, .wilwa, .rin, .fet, .mem, .dram, .lcg, .cmp, .sne, .fsq, .hlk, .hdg, .vis, .che, .mir] s (State.countMoved s n old how) := by
  delta State.countMoved
  extract_lets l1 l2
  have h_l1 : Moves [.fresh, .sent, .objs, .pwr, .flt, .bbx, .wilwa, .rin, .fet, .mem, .dram, .lcg, .cmp, .sne, .fsq, .hlk, .hdg, .vis, .che, .mir] s l1 := by
    unfold l1
    refine .forRange ?_ fun i3 t4 h_t4 => ?_
    · exact .refl
    · refine .ite ?_ ?_
      · exact .after State.clockChange_moves h_t4
      · exact h_t4
  refine .forRange ?_ fun i5 t6 h_t6 => ?_
  · exact h_l1
  · refine .ite ?_ ?_
    · exact .after State.unitCross_moves h_t6
    · exact h_t6

theorem State.speedChange_moves {s : State} {n : Nat} {back : Bool} {te : Nat} {steps : Nat} : Moves [.objs, .pos] s (State.speedChange s n back te steps) := by
  delta State.speedChange
  extract_lets l1 l2 l3 l4 l5 l6
  have h_l3 : Moves [.objs, .pos] s l3 := by
    unfold l3
    refine .ite ?_ ?_
    · exact .after State.bump_moves .refl
    · exact .refl
  refine .ite ?_ ?_
  · exact .after State.modPch_moves h_l3
  · exact .after State.modPch_moves h_l3

theorem State.countStep_moves {s : State} {n : Nat} {forward : Bool} : Moves [.fresh, .sent, .objs, .pwr, .flt, .bbx, .wilwa, .rin, .fet, .mem, .dram, .pos, .lcg, .cmp, .sne, .fsq, .hlk, .hdg, .vis, .che, .mir] s (State.countStep s n forward) := by
  delta State.countStep
  extract_lets l1 l2 l3 l4
  have h_l4 : Moves [.fresh, .sent, .objs, .pwr, .flt, .bbx, .wilwa, .rin, .fet, .mem, .dram, .pos, .lcg, .cmp, .sne, .fsq, .hlk, .hdg, .vis, .che, .mir] s l4 := by
    unfold l4
    exact .after State.modPch_moves .refl
  refine .after State.countMoved_moves (.after State.speedChange_moves ?_)
  exact h_l4

theorem State.covOverrun_moves {s : State} {b : Nat} : Moves [.objs, .flt, .bbx, .che] s (State.covOverrun s b) := by
  delta State.covOverrun
  extract_lets l1 l2
  have h_l1 : Moves [.objs, .flt, .bbx, .che] s l1 := by
    unfold l1
    exact .after State.bump_moves .refl
  have h_l2 : Moves [.objs, .flt, .bbx, .che] s l2 := by
    unfold l2
    refine .ite ?_ ?_
    · exact h_l1
    · exact .after State.raise_moves h_l1
  exact .after State.modChe_moves h_l2

theorem State.csiHeader_moves {s : State} {p : Nat} {h : CsiHead} {wanted : Bool} : MovesP [.objs, .vis] s (State.csiHeader s p h wanted) := by
  delta State.csiHeader
  split
  · refine .mk (.after State.markOpen_moves ?_)
    exact .after State.bump_moves .refl
  · extract_lets l1
    have h_l1 : Moves [.objs, .vis] s l1 := by
      unfold l1
      refine .ite ?_ ?_
      · exact .after State.bump_moves .refl
      · exact .refl
    refine .ite ?_ ?_
    · exact .mk h_l1
    · refine .mk (.after State.bump_moves ?_)
      exact h_l1

theorem State.jobStartSeen_moves {s : State} {pos : Nat} : Moves [.sent, .objs, .flt, .bbx, .che, .mir] s (State.jobStartSeen s pos) := by
  delta State.jobStartSeen
  extract_lets l1 l2 l3 l4
  have h_l1 : Moves [.sent, .objs, .flt, .bbx, .che, .mir] s l1 := by
    unfold l1
    exact .after State.discardWindow_moves .refl
  have h_l3 : Moves [.sent, .objs, .flt, .bbx, .che, .mir] s l3 := by
    unfold l3
    exact .che h_l1
  have h_l4 : Moves [.sent, .objs, .flt, .bbx, .che, .mir] s l4 := by
    unfold l4
    refine .forRange ?_ fun i5 t6 h_t6 => ?_
    · exact h_l3
    · exact .after State.modChe_moves h_t6
  refine .ite ?_ ?_
  · refine .forRange ?_ fun i7 t8 h_t8 => ?_
    · exact h_l4
    · exact .after State.clearRef_moves h_t8
  · exact h_l4

theorem State.lineInFrame_moves {s : State} {w : WebLine} : Moves [.che] s (State.lineInFrame s w) := by
  delta State.lineInFrame
  extract_lets l1 l2 l3 l4 l5 l6
  have h_l3 : Moves [.che] s l3 := by
    unfold l3
    refine .ite ?_ ?_
    · exact .che .refl
    · exact .refl
  have h_l5 : Moves [.che] s l5 := by
    unfold l5
    refine .ite ?_ ?_
    · exact .che h_l3
    · exact h_l3
  exact .che h_l5

theorem State.maxCountRate_moves {s : State} {n : Nat} : MovesP [.fresh] s (State.maxCountRate s n) := by
  delta State.maxCountRate
  split
  · rename_i x1 x2 x3 x4
    have h_x3 : Moves [.fresh] s x3 := by
      refine MovesP.of_eq x4 (.after State.freeQuot_moves ?_)
      exact .refl
    exact .mk h_x3

theorem State.observeLine_moves {s : State} {w : WebLine} {recs : List (Nat × CovRec)} : Moves [.che] s (State.observeLine s w recs) := by
  delta State.observeLine
  extract_lets l1 l2 l3
  refine .ite ?_ ?_
  · exact .refl
  · exact .che .refl

theorem State.openPortFrame_moves {s : State} {p : Nat} {j : Option Nat} {gen : Nat} {marks : Nat} : Moves [.vis] s (State.openPortFrame s p j gen marks) := by
  delta State.openPortFrame
  exact .after State.modCam_moves .refl

theorem State.readCov_moves {s : State} {b : Nat} {r : CovRec} : Moves [.sent, .objs, .mem, .dram] s (State.readCov s b r) := by
  delta State.readCov
  extract_lets l1
  split
  · refine .forRange ?_ fun i2 t3 h_t3 => ?_
    · exact .refl
    · exact .after State.memAccess_moves h_t3
  · exact .refl

theorem State.pairLine_moves {s : State} {w : WebLine} : MovesP [.sent, .objs, .flt, .bbx, .mem, .dram, .che, .mir] s (State.pairLine s w) := by
  delta State.pairLine
  extract_lets l1 l2 l3 l4 l5 l6 l7 l8 l9 l10 l11
  have h_l1 : Moves [.sent, .objs, .flt, .bbx, .mem, .dram, .che, .mir] s l1 := by
    unfold l1
    exact .after State.lineInFrame_moves .refl
  have h_l2 : ∀ a1, Moves [.sent, .objs, .flt, .bbx, .mem, .dram, .che, .mir] s a1 → MovesP [.sent, .objs, .flt, .bbx, .mem, .dram, .che, .mir] s (l2 a1) := by
    intro a1 h_a1
    unfold l2
    refine .mk (.after State.bump_moves ?_)
    exact h_a1
  have h_l4 : Moves [.sent, .objs, .flt, .bbx, .mem, .dram, .che, .mir] s l4 := by
    unfold l4
    refine .forEach ?_ fun i12 t13 h_t13 => ?_
    · exact h_l1
    · split
      · exact .after State.bump_moves h_t13
      · exact .after State.covOverrun_moves h_t13
      · refine .ite ?_ ?_
        · exact h_t13
        · refine .after State.modChe_moves (.after State.readCov_moves ?_)
          exact h_t13
      · exact h_t13
  have h_l10 : Moves [.sent, .objs, .flt, .bbx, .mem, .dram, .che, .mir] s l10 := by
    unfold l10
    refine .ite ?_ ?_
    · exact .after State.jobStartSeen_moves h_l4
    · exact h_l4
  have h_l11 : Moves [.sent, .objs, .flt, .bbx, .mem, .dram, .che, .mir] s l11 := by
    unfold l11
    refine .after State.observeLine_moves (.after State.bump_moves ?_)
    exact h_l10
  refine .ite ?_ ?_
  · exact h_l2 _ h_l1
  · refine .ite ?_ ?_
    · exact h_l2 _ h_l4
    · exact .mk h_l11

theorem State.portFrameStart_moves {s : State} {p : Nat} {j : Nat} {time : Nat} : Moves [.fresh, .objs, .wilwa, .sne, .fsq, .hdg, .vis] s (State.portFrameStart s p j time) := by
  delta State.portFrameStart
  extract_lets l1 l2 l3 l4 l5 l6
  have h_l2 : Moves [.fresh, .objs, .wilwa, .sne, .fsq, .hdg, .vis] s l2 := by
    unfold l2
    refine .ite ?_ ?_
    · refine .after State.modCam_moves (.after State.takenUp_moves ?_)
      exact .refl
    · exact .refl
  have h_l4 : Moves [.fresh, .objs, .wilwa, .sne, .fsq, .hdg, .vis] s l4 := by
    unfold l4
    refine .ite ?_ ?_
    · refine .after State.modCam_moves (.after State.liveWhere_moves ?_)
      exact h_l2
    · exact h_l2
  have h_l6 : Moves [.fresh, .objs, .wilwa, .sne, .fsq, .hdg, .vis] s l6 := by
    unfold l6
    refine .ite ?_ ?_
    · exact .after State.startBatch_moves h_l4
    · exact h_l4
  exact .after State.modCam_moves h_l6

theorem State.sendCci_moves {s : State} {p : Nat} {read : Bool} {index : Nat} {data : Bytes} : Moves [.sent] s (State.sendCci s p read index data) := by
  delta State.sendCci
  refine .ite ?_ ?_
  · exact .refl
  · exact .after State.emit_moves .refl

theorem State.servo_moves {s : State} {c : Nat} : Moves [.objs, .flt, .bbx, .che] s (State.servo s c) := by
  delta State.servo
  extract_lets i zones ratios obs code l1 l2 mode adv n steps changed big atEdge limited edge l3 l4 integ l5 g l6 l7
  have h2 : Moves [.objs, .flt, .bbx, .che] s l2 := by
    unfold l2 l1
    exact .after State.modChe_moves (.after State.setObj_moves .refl)
  have h3 : Moves [.objs, .flt, .bbx, .che] s l3 := by
    unfold l3
    clear_value limited l2
    cases limited with
    | nil => exact h2
    | cons f _ => exact .ite h2 (.after State.raise_moves h2)
  have h5 : Moves [.objs, .flt, .bbx, .che] s l5 := by
    unfold l5 l4
    exact .after State.modChe_moves (.after State.setObj_moves h3)
  have h6 : Moves [.objs, .flt, .bbx, .che] s l6 := by
    unfold l6
    split
    · exact .after State.holdLog_moves h5
    · exact h5
  have h7 : Moves [.objs, .flt, .bbx, .che] s l7 := by
    unfold l7
    exact .after State.setNum_moves (.after State.setObj_moves h6)
  exact .ite h2 (.ite h5 (.ite (.after State.holdLog_moves h5) (.after State.modChe_moves h7)))

theorem State.solveAll_moves {s : State} {acc : List (Nat × ZoneAcc)} : Moves [.che] s (State.solveAll s acc) := by
  delta State.solveAll
  extract_lets l1 l2
  have h_l1 : Moves [.che] s l1 := by
    unfold l1
    refine .forRange ?_ fun i3 t4 h_t4 => ?_
    · exact .refl
    · extract_lets l5 l6 l7 l8 l9
      refine .ite ?_ ?_
      · exact .che h_t4
      · exact .che h_t4
  exact .che h_l1

theorem State.speedClear_moves {s : State} {n : Nat} : Moves [.pos] s (State.speedClear s n) := by
  delta State.speedClear
  exact .after State.modPch_moves .refl

theorem State.startAtMark_moves {s : State} {b : Nat} {n : Nat} {offset : Nat} : Moves [.objs, .lcg, .sne, .fsq, .che, .mir] s (State.startAtMark s b n offset) := by
  delta State.startAtMark
  extract_lets l1 l2 l3 l4 l5 l6 l7
  have h_l2 : Moves [.objs, .lcg, .sne, .fsq, .che, .mir] s l2 := by
    unfold l2
    exact .after State.setNum_moves .refl
  have h_l3 : Moves [.objs, .lcg, .sne, .fsq, .che, .mir] s l3 := by
    unfold l3
    exact .after State.setNum_moves h_l2
  have h_l4 : Moves [.objs, .lcg, .sne, .fsq, .che, .mir] s l4 := by
    unfold l4
    exact .after State.modLcg_moves h_l3
  have h_l7 : Moves [.objs, .lcg, .sne, .fsq, .che, .mir] s l7 := by
    unfold l7
    refine .after State.cheJobStart_moves ?_
    refine .plain (u := l4) ?_ (fun p h => by cases p <;> first | exact absurd (by decide) h | rfl)
    exact h_l4
  exact .after State.modBar_moves h_l7

theorem State.takeLine_moves {s : State} {p : Nat} {j : Nat} {r : PendTrig} {line : CsiLine} : Moves [.objs, .vis] s (State.takeLine s p j r line) := by
  delta State.takeLine
  split
  · extract_lets l1 l2 l3 l4 l5
    have h_l1 : Moves [.objs, .vis] s l1 := by
      unfold l1
      refine .ite ?_ ?_
      · exact .after State.bump_moves .refl
      · exact .refl
    have h_l2 : Moves [.objs, .vis] s l2 := by
      unfold l2
      refine .ite ?_ ?_
      · exact .after State.bump_moves h_l1
      · exact h_l1
    have h_l5 : Moves [.objs, .vis] s l5 := by
      unfold l5
      exact .after State.modCam_moves h_l2
    exact .after State.setPart_moves h_l5

theorem State.windowClose_moves {s : State} : Moves [.objs, .che] s (State.windowClose s) := by
  delta State.windowClose
  extract_lets l1 l2 l3
  have h_l2 : Moves [.objs, .che] s l2 := by
    unfold l2
    refine .after State.setObj_moves (.after State.bump_moves ?_)
    exact .refl
  exact .che h_l2

theorem execCountChange_moves {n : PosCh} {a : Bool} {b : Bool} {s : State} : MovesO [.fresh, .sent, .objs, .pwr, .flt, .bbx, .wilwa, .rin, .fet, .mem, .dram, .pos, .lcg, .cmp, .sne, .fsq, .hlk, .hdg, .vis, .che, .mir] s (execCountChange n a b s) := by
  delta execCountChange
  extract_lets l1 l2 l3
  have h_l2 : Moves [.fresh, .sent, .objs, .pwr, .flt, .bbx, .wilwa, .rin, .fet, .mem, .dram, .pos, .lcg, .cmp, .sne, .fsq, .hlk, .hdg, .vis, .che, .mir] s l2 := by
    unfold l2
    exact .after State.modPch_moves .refl
  have h_l3 : Moves [.fresh, .sent, .objs, .pwr, .flt, .bbx, .wilwa, .rin, .fet, .mem, .dram, .pos, .lcg, .cmp, .sne, .fsq, .hlk, .hdg, .vis, .che, .mir] s l3 := by
    unfold l3
    refine .after State.speedClear_moves (.after State.bump_moves ?_)
    exact h_l2
  refine .ite ?_ ?_
  · exact .next .refl
  · refine .ite ?_ ?_
    · refine .next (.after State.raise_moves ?_)
      exact h_l3
    · refine .next (.after State.countStep_moves ?_)
      exact h_l2

theorem execHallStateChange_moves {n : PosCh} {uvw : BitVec 3} {s : State} : MovesO [.fresh, .sent, .objs, .pwr, .flt, .bbx, .wilwa, .rin, .fet, .mem, .dram, .pos, .lcg, .cmp, .sne, .fsq, .hlk, .hdg, .vis, .che, .mir] s (execHallStateChange n uvw s) := by
  delta execHallStateChange
  extract_lets l1 l2 l3 l4 l5
  have h_l3 : ∀ a1, Moves [.fresh, .sent, .objs, .pwr, .flt, .bbx, .wilwa, .rin, .fet, .mem, .dram, .pos, .lcg, .cmp, .sne, .fsq, .hlk, .hdg, .vis, .che, .mir] s a1 → Moves [.fresh, .sent, .objs, .pwr, .flt, .bbx, .wilwa, .rin, .fet, .mem, .dram, .pos, .lcg, .cmp, .sne, .fsq, .hlk, .hdg, .vis, .che, .mir] s (l3 a1) := by
    intro a1 h_a1
    unfold l3
    refine .after State.raise_moves (.after State.bump_moves ?_)
    exact h_a1
  have h_l4 : Moves [.fresh, .sent, .objs, .pwr, .flt, .bbx, .wilwa, .rin, .fet, .mem, .dram, .pos, .lcg, .cmp, .sne, .fsq, .hlk, .hdg, .vis, .che, .mir] s l4 := by
    unfold l4
    exact .after State.modPch_moves .refl
  have h_l5 : Moves [.fresh, .sent, .objs, .pwr, .flt, .bbx, .wilwa, .rin, .fet, .mem, .dram, .pos, .lcg, .cmp, .sne, .fsq, .hlk, .hdg, .vis, .che, .mir] s l5 := by
    unfold l5
    exact .after State.modPch_moves h_l4
  refine .ite ?_ ?_
  · exact .next .refl
  · refine .ite ?_ ?_
    · refine .next (h_l3 _ ?_)
      exact h_l4
    · split
      · exact .next h_l5
      · refine .ite ?_ ?_
        · exact .next h_l5
        · refine .ite ?_ ?_
          · refine .next (.after State.countStep_moves ?_)
            exact h_l5
          · refine .ite ?_ ?_
            · refine .next (.after State.countStep_moves ?_)
              exact h_l5
            · refine .next (h_l3 _ ?_)
              exact .after State.speedClear_moves h_l5

theorem execZIndexEdge_moves {n : PosCh} {s : State} : MovesO [.objs, .flt, .bbx, .pos] s (execZIndexEdge n s) := by
  delta execZIndexEdge
  extract_lets l1 l2 l3
  have h_l2 : Moves [.objs, .flt, .bbx, .pos] s l2 := by
    unfold l2
    refine .after State.modPch_moves (.after State.setNum_moves ?_)
    exact .refl
  refine .ite ?_ ?_
  · exact .next .refl
  · split
    · exact .next h_l2
    · extract_lets l4 l5
      refine .next (.ite ?_ ?_)
      · refine .after State.raise_moves (.after State.bump_moves ?_)
        exact h_l2
      · exact h_l2

theorem execSsiPeriodExpiry_moves {n : PosCh} {s : State} : MovesO [.pos] s (execSsiPeriodExpiry n s) := by
  delta execSsiPeriodExpiry
  refine .next (.ite ?_ ?_)
  · exact .after State.modPch_moves .refl
  · exact .refl

theorem execSsiFrameComplete_moves {n : PosCh} {raw : BitVec 32} {errorBit : Bool} {dataLow : Bool} {s : State} : MovesO [.fresh, .sent, .objs, .pwr, .flt, .bbx, .wilwa, .rin, .fet, .mem, .dram, .pos, .lcg, .cmp, .sne, .fsq, .hlk, .hdg, .vis, .che, .mir] s (execSsiFrameComplete n raw errorBit dataLow s) := by
  delta execSsiFrameComplete
  extract_lets l1 l2 l3 l4 l5 l6 l7 l8 l9 l10 l11 l12
  have h_l6 : Moves [.fresh, .sent, .objs, .pwr, .flt, .bbx, .wilwa, .rin, .fet, .mem, .dram, .pos, .lcg, .cmp, .sne, .fsq, .hlk, .hdg, .vis, .che, .mir] s l6 := by
    unfold l6
    exact .after State.modPch_moves .refl
  have h_l7 : Moves [.fresh, .sent, .objs, .pwr, .flt, .bbx, .wilwa, .rin, .fet, .mem, .dram, .pos, .lcg, .cmp, .sne, .fsq, .hlk, .hdg, .vis, .che, .mir] s l7 := by
    unfold l7
    exact .after State.modPch_moves h_l6
  have h_l8 : ∀ a1, Moves [.fresh, .sent, .objs, .pwr, .flt, .bbx, .wilwa, .rin, .fet, .mem, .dram, .pos, .lcg, .cmp, .sne, .fsq, .hlk, .hdg, .vis, .che, .mir] s (l8 a1) := by
    intro a1
    unfold l8
    refine .after State.raise_moves (.after State.bump_moves ?_)
    exact h_l7
  split
  · exact .next .refl
  · extract_lets l13
    have h_l13 : Moves [.fresh, .sent, .objs, .pwr, .flt, .bbx, .wilwa, .rin, .fet, .mem, .dram, .pos, .lcg, .cmp, .sne, .fsq, .hlk, .hdg, .vis, .che, .mir] s l13 := by
      unfold l13
      exact .after State.modPch_moves h_l6
    refine .ite ?_ ?_
    · exact .next .refl
    · refine .ite ?_ ?_
      · refine .next (h_l8 _)
      · refine .ite ?_ ?_
        · refine .next (h_l8 _)
        · refine .ite ?_ ?_
          · refine .next (h_l8 _)
          · split
            · refine .ite ?_ ?_
              · exact .next h_l13
              · refine .next (.after State.countMoved_moves ?_)
                exact .after State.speedChange_moves h_l13
            · refine .next (.after State.modPch_moves ?_)
              exact h_l13

theorem execStopTimeout_moves {n : PosCh} {s : State} : MovesO [.pos] s (execStopTimeout n s) := by
  delta execStopTimeout
  refine .next (.ite ?_ ?_)
  · exact .after State.modPch_moves .refl
  · exact .refl

theorem execMarkAccepted_moves {b : Bar} {s : State} : MovesO [.objs, .pwr, .lcg, .sne, .fsq, .che, .mir] s (execMarkAccepted b s) := by
  delta execMarkAccepted
  extract_lets l1 l2 l3 l4 l5 l6 l7
  have h_l2 : Moves [.objs, .pwr, .lcg, .sne, .fsq, .che, .mir] s l2 := by
    unfold l2
    exact .fsq .refl
  have h_l7 : Moves [.objs, .pwr, .lcg, .sne, .fsq, .che, .mir] s l7 := by
    unfold l7
    refine .forEach ?_ fun i8 t9 h_t9 => ?_
    · exact h_l2
    · exact .after State.startAtMark_moves h_t9
  refine .ite ?_ ?_
  · exact .next .refl
  · refine .ite ?_ ?_
    · refine .next (.ite ?_ ?_)
      · exact h_l2
      · exact .after State.bump_moves h_l2
    · refine .next (.ite ?_ ?_)
      · exact .after State.enter_moves h_l7
      · exact h_l7

theorem execCompareAction_moves {u : CmpUnit} {s : State} : MovesO [.cmp] s (execCompareAction u s) := by
  delta execCompareAction
  split
  · exact .next .refl
  · refine .next (.after State.unitAction_moves ?_)
    exact .after State.modUnit_moves .refl

theorem execComparePulseEnd_moves {u : CmpUnit} {s : State} : MovesO [.cmp] s (execComparePulseEnd u s) := by
  delta execComparePulseEnd
  refine .next (.ite ?_ ?_)
  · exact .after State.modUnit_moves .refl
  · exact .refl

theorem execInputEdge_moves {n : Fin 16} {level : Bool} {s : State} : MovesO [.objs, .flt, .bbx] s (execInputEdge n level s) := by
  delta execInputEdge
  extract_lets l1 l2 l3 l4
  have h_l1 : Moves [.objs, .flt, .bbx] s l1 := by
    unfold l1
    exact .after State.setNum_moves .refl
  have h_l2 : Moves [.objs, .flt, .bbx] s l2 := by
    unfold l2
    refine .after State.setNum_moves (.after State.bump_moves ?_)
    exact h_l1
  have h_l4 : Moves [.objs, .flt, .bbx] s l4 := by
    unfold l4
    refine .ite ?_ ?_
    · exact .after State.setNum_moves h_l2
    · exact h_l2
  refine .ite ?_ ?_
  · exact .next .refl
  · refine .ite ?_ ?_
    · exact .next h_l1
    · refine .next (.after State.raise_moves ?_)
      exact h_l4

theorem execOutputCheckExpiry_moves {n : Fin 16} {s : State} : MovesO [.fresh, .objs, .flt, .bbx] s (execOutputCheckExpiry n s) := by
  delta execOutputCheckExpiry
  extract_lets l1
  refine .ite ?_ ?_
  · exact .next .refl
  · split
    · rename_i x2 x3 x4 x5
      have h_x4 : Moves [.fresh, .objs, .flt, .bbx] s x4 := by
        refine MovesP.of_eq x5 (.after State.freeBelow_moves ?_)
        exact .refl
      extract_lets l6
      refine .next (.after State.raise_moves ?_)
      exact h_x4

theorem execTriggerRecord_moves {s : State} : MovesO [.fresh, .sent, .objs, .flt, .bbx, .wilwa, .sne, .fsq, .hdg, .vis, .che] s (execTriggerRecord s) := by
  delta execTriggerRecord
  split
  · exact .next .refl
  · extract_lets l1 l2 l3 l4 l5 l6 l7 l8 l9 l10 l11 l12 l13 l14 l15 l16 l17
    have h_l2 : Moves [.fresh, .sent, .objs, .flt, .bbx, .wilwa, .sne, .fsq, .hdg, .vis, .che] s l2 := by
      unfold l2
      exact .vis .refl
    have h_l3 : Moves [.fresh, .sent, .objs, .flt, .bbx, .wilwa, .sne, .fsq, .hdg, .vis, .che] s l3 := by
      unfold l3
      exact .after State.trackPoint_moves h_l2
    have h_l5 : Moves [.fresh, .sent, .objs, .flt, .bbx, .wilwa, .sne, .fsq, .hdg, .vis, .che] s l5 := by
      unfold l5
      exact .after State.restartTriggers_moves h_l3
    have h_l7 : Moves [.fresh, .sent, .objs, .flt, .bbx, .wilwa, .sne, .fsq, .hdg, .vis, .che] s l7 := by
      unfold l7
      refine .ite ?_ ?_
      · exact .vis h_l5
      · exact h_l3
    have h_l9 : Moves [.fresh, .sent, .objs, .flt, .bbx, .wilwa, .sne, .fsq, .hdg, .vis, .che] s l9 := by
      unfold l9
      exact .vis h_l7
    have h_l11 : Moves [.fresh, .sent, .objs, .flt, .bbx, .wilwa, .sne, .fsq, .hdg, .vis, .che] s l11 := by
      unfold l11
      refine .ite ?_ ?_
      · refine .forEach ?_ fun i18 t19 h_t19 => ?_
        · exact .after State.takeUpWeb_moves h_l9
        · exact .after State.portFrameStart_moves h_t19
      · exact h_l9
    have h_l17 : Moves [.fresh, .sent, .objs, .flt, .bbx, .wilwa, .sne, .fsq, .hdg, .vis, .che] s l17 := by
      unfold l17
      refine .ite ?_ ?_
      · exact h_l11
      · exact .vis h_l11
    refine .ite ?_ ?_
    · exact .next h_l2
    · refine .ite ?_ ?_
      · exact .next h_l3
      · refine .next ?_
        refine .forEach ?_ fun i20 t21 h_t21 => ?_
        · exact h_l17
        · extract_lets l22
          have h_l22 : Moves [.fresh, .sent, .objs, .flt, .bbx, .wilwa, .sne, .fsq, .hdg, .vis, .che] s l22 := by
            unfold l22
            refine .ite ?_ ?_
            · exact .after State.expireOldest_moves h_t21
            · exact h_t21
          exact .after State.modCam_moves h_l22

theorem execTriggerRecordExpiry_moves {p : CamPort} {s : State} : MovesO [.objs, .vis] s (execTriggerRecordExpiry p s) := by
  delta execTriggerRecordExpiry
  refine .next (.after State.expireOldest_moves ?_)
  exact .refl

theorem execPortSilent_moves {p : CamPort} {s : State} : MovesO [.objs, .flt, .bbx, .vis] s (execPortSilent p s) := by
  delta execPortSilent
  extract_lets l1
  refine .next (.ite ?_ ?_)
  · refine .after State.raise_moves (.after State.modCam_moves ?_)
    exact .refl
  · exact .refl

theorem execCsiLine_moves {p : CamPort} {line : CsiLine} {s : State} : MovesO [.objs, .vis] s (execCsiLine p line s) := by
  delta execCsiLine
  refine .ite ?_ ?_
  · exact .next .refl
  · split
    · rename_i x1 x2 x3 x4
      have h_x3 : Moves [.objs, .vis] s x3 := by
        refine MovesP.of_eq x4 (.after State.csiHeader_moves ?_)
        exact .refl
      extract_lets l5 l6
      have h_l5 : Moves [.objs, .vis] s l5 := by
        unfold l5
        refine .ite ?_ ?_
        · exact h_x3
        · refine .after State.markOpen_moves (.after State.bump_moves ?_)
          exact h_x3
      refine .ite ?_ ?_
      · exact .next h_x3
      · split
        · refine .next (.after State.markOpen_moves ?_)
          exact .after State.bump_moves h_l5
        · extract_lets l7 l8 l9 l10 l11
          have h_l8 : Moves [.objs, .vis] s l8 := by
            unfold l8
            exact .after State.modCam_moves h_l5
          have h_l10 : ∀ a1 a2, Moves [.objs, .vis] s a1 → Moves [.objs, .vis] s (l10 a1 a2) := by
            intro a1 a2 h_a1
            unfold l10
            exact .after State.setPart_moves h_a1
          have h_l11 : Moves [.objs, .vis] s l11 := by
            unfold l11
            exact .after State.modCam_moves h_l8
          split
          · refine .ite ?_ ?_
            · refine .next (h_l10 _ _ ?_)
              exact h_l8
            · refine .ite ?_ ?_
              · refine .next (h_l10 _ _ ?_)
                exact h_l11
              · refine .ite ?_ ?_
                · refine .next (h_l10 _ _ ?_)
                  exact h_l8
                · refine .next (.after State.takeLine_moves ?_)
                  exact h_l8
          · refine .ite ?_ ?_
            · refine .next (h_l10 _ _ ?_)
              exact h_l8
            · refine .next (.after State.takeLine_moves ?_)
              exact .after State.openPortFrame_moves h_l8

theorem execCsiFrameStart_moves {p : CamPort} {head : CsiHead} {s : State} : MovesO [.objs, .flt, .bbx, .vis] s (execCsiFrameStart p head s) := by
  delta execCsiFrameStart
  refine .ite ?_ ?_
  · exact .next .refl
  · split
    · rename_i x1 x2 x3 x4
      have h_x3 : Moves [.objs, .flt, .bbx, .vis] s x3 := by
        refine MovesP.of_eq x4 (.after State.csiHeader_moves ?_)
        exact .refl
      extract_lets l5
      have h_l5 : Moves [.objs, .flt, .bbx, .vis] s l5 := by
        unfold l5
        split
        · exact .after State.closePortFrame_moves h_x3
        · exact h_x3
      refine .ite ?_ ?_
      · exact .next h_x3
      · refine .next (.ite ?_ ?_)
        · exact .after State.openPortFrame_moves h_l5
        · exact h_l5

theorem execCsiFrameEnd_moves {p : CamPort} {head : CsiHead} {s : State} : MovesO [.objs, .flt, .bbx, .vis] s (execCsiFrameEnd p head s) := by
  delta execCsiFrameEnd
  refine .ite ?_ ?_
  · exact .next .refl
  · split
    · rename_i x1 x2 x3 x4
      have h_x3 : Moves [.objs, .flt, .bbx, .vis] s x3 := by
        refine MovesP.of_eq x4 (.after State.csiHeader_moves ?_)
        exact .refl
      refine .ite ?_ ?_
      · exact .next h_x3
      · split
        · refine .next (.after State.closePortFrame_moves ?_)
          exact h_x3
        · exact .next h_x3

theorem execStitchedLineComplete_moves {s : State} : MovesO [.vis] s (execStitchedLineComplete s) := by
  delta execStitchedLineComplete
  split
  · exact .next .refl
  · refine .next (.ite ?_ ?_)
    · exact .after State.completeLine_moves .refl
    · exact .refl

theorem execWebFrameClose_moves {s : State} : MovesO [.fresh, .sent, .objs, .flt, .bbx, .wilwa, .vis] s (execWebFrameClose s) := by
  delta execWebFrameClose
  split
  · exact .next .refl
  · refine .next (.ite ?_ ?_)
    · exact .after State.webClose_moves .refl
    · exact .refl

theorem execProductRecordSend_moves {stream : Fin 3} {s : State} : MovesO [.sent, .vis] s (execProductRecordSend stream s) := by
  delta execProductRecordSend
  refine .ite ?_ ?_
  · exact .next .refl
  · split
    · exact .next .refl
    · extract_lets l1 l2 l3 l4 l5 l6 l7
      have h_l5 : Moves [.sent, .vis] s l5 := by
        unfold l5
        exact .after State.emit_moves .refl
      refine .next (.vis ?_)
      exact h_l5

theorem execCciBatchComplete_moves {p : CamPort} {answer : CciAnswer} {s : State} :
    MovesO [.sent, .objs, .flt, .bbx, .vis] s (execCciBatchComplete p answer s) := by
  delta execCciBatchComplete
  split
  · exact .next .refl
  · extract_lets bad reached twice sent l1 l2 l3
    have h1 : Moves [.sent, .objs, .flt, .bbx, .vis] s l1 := by
      unfold l1
      exact .forEach .refl fun i t h => .after State.sendCci_moves h
    have h2 : Moves [.sent, .objs, .flt, .bbx, .vis] s l2 := by
      unfold l2
      clear_value bad l1
      cases bad with
      | none => exact h1
      | some x => exact .after State.raise_moves h1
    exact .next (.after State.modCam_moves h2)

theorem execCciHostTransactionDone_moves {p : CamPort} {acked : Bool} {data : Bytes} {s : State} : MovesO [.sent, .objs, .vis] s (execCciHostTransactionDone p acked data s) := by
  delta execCciHostTransactionDone
  split
  · exact .next .refl
  · extract_lets l1 l2 l3 l4
    have h_l1 : Moves [.sent, .objs, .vis] s l1 := by
      unfold l1
      exact .after State.sendCci_moves .refl
    have h_l3 : Moves [.sent, .objs, .vis] s l3 := by
      unfold l3
      exact .after State.setObj_moves h_l1
    have h_l4 : Moves [.sent, .objs, .vis] s l4 := by
      unfold l4
      exact .after State.modCam_moves h_l3
    refine .ite ?_ ?_
    · exact .next .refl
    · refine .next (.ite ?_ ?_)
      · exact .after State.startBatch_moves h_l4
      · exact h_l4

theorem execChePairLine_moves {s0 : State} : MovesO [.sent, .objs, .flt, .bbx, .mem, .dram, .vis, .che, .mir] s0 (execChePairLine s0) := by
  delta execChePairLine
  split
  · extract_lets l1 l2
    have h_l2 : Moves [.sent, .objs, .flt, .bbx, .mem, .dram, .vis, .che, .mir] s0 l2 := by
      unfold l2
      exact .vis .refl
    split
    · rename_i x3 x4 x5 x6
      have h_x5 : Moves [.sent, .objs, .flt, .bbx, .mem, .dram, .vis, .che, .mir] s0 x5 := by
        refine MovesP.of_eq x6 (.ite ?_ ?_)
        · exact .after State.pairLine_moves h_l2
        · exact .mk h_l2
      refine .next (.ite ?_ ?_)
      · exact .refl
      · exact .after State.compareLine_moves h_x5
  · exact .next .refl

theorem execCheFrameClose_moves {s : State} : MovesO [.objs, .vis, .che] s (execCheFrameClose s) := by
  delta execCheFrameClose
  split
  · extract_lets l1 l2 l3 l4 l5 l6 l7 l8 l9 l10
    have h_l2 : Moves [.objs, .vis, .che] s l2 := by
      unfold l2
      exact .vis .refl
    have h_l6 : Moves [.objs, .vis, .che] s l6 := by
      unfold l6
      refine .ite ?_ ?_
      · exact .after State.bump_moves h_l2
      · exact h_l2
    have h_l9 : Moves [.objs, .vis, .che] s l9 := by
      unfold l9
      exact .che h_l6
    refine .ite ?_ ?_
    · exact .next h_l2
    · refine .next (.ite ?_ ?_)
      · exact .after State.windowClose_moves h_l9
      · exact h_l9
  · exact .next .refl

theorem execTumblerSolveDone_moves {s : State} : MovesO [.sent, .objs, .flt, .bbx, .che, .mir] s (execTumblerSolveDone s) := by
  delta execTumblerSolveDone
  split
  · exact .next .refl
  · extract_lets l1 l2 l3 l4
    have h_l1 : Moves [.sent, .objs, .flt, .bbx, .che, .mir] s l1 := by
      unfold l1
      exact .after State.solveAll_moves .refl
    have h_l3 : Moves [.sent, .objs, .flt, .bbx, .che, .mir] s l3 := by
      unfold l3
      refine .after State.bump_moves (.che ?_)
      exact h_l1
    have h_l4 : Moves [.sent, .objs, .flt, .bbx, .che, .mir] s l4 := by
      unfold l4
      refine .ite ?_ ?_
      · refine .forEach ?_ fun i5 t6 h_t6 => ?_
        · exact h_l3
        · exact .after State.captureRefs_moves h_t6
      · exact h_l3
    refine .ite ?_ ?_
    · exact .next .refl
    · refine .next ?_
      refine .forRange ?_ fun i7 t8 h_t8 => ?_
      · exact h_l4
      · exact .after State.servo_moves h_t8

end Sys2Proof.Machine
end

