-- ==== Sys2Proof/Laws/FramesPair.lean ====
section
/-! SUPPORT. Frames: what the functions of the mirrored pair, block resets, the record store and the state requests may change, one lemma a function. -/

set_option Elab.async false

namespace Sys2Proof.Machine

set_option maxRecDepth 4000
variable {ps qs : List StatePart} {t u v : State}

theorem State.adoptChan_moves {s : State} {n : Nat} {d : Int} : Moves [.pos] s (State.adoptChan s n d) := by
  delta State.adoptChan
  exact .after State.modPch_moves .refl

theorem State.adoptBar_moves {s : State} {b : Nat} {i : Nat} {d : Int} : Moves [.fet, .lcg, .sne, .fsq] s (State.adoptBar s b i d) := by
  delta State.adoptBar
  extract_lets l1 l2
  have h_l2 : ∀ a1, Moves [.fet, .lcg, .sne, .fsq] s a1 → Moves [.fet, .lcg, .sne, .fsq] s (l2 a1) := by
    intro a1 h_a1
    unfold l2
    extract_lets l3 l4 l5
    have h_l4 : Moves [.fet, .lcg, .sne, .fsq] s l4 := by
      unfold l4
      refine .after State.modBar_moves (.after State.dropFrom_moves ?_)
      exact h_a1
    exact .after State.modJob_moves h_l4
  split
  · exact .after State.modLcg_moves .refl
  · exact .after State.modLcg_moves .refl
  · refine h_l2 _ (.after State.modLcg_moves ?_)
    exact .refl
  · refine h_l2 _ (.after State.modBar_moves ?_)
    exact .refl
  · refine h_l2 _ (.after State.modBar_moves ?_)
    exact .refl

theorem State.modMir_moves {s : State} {f : Mir → Mir} : Moves [.mir] s (State.modMir s f) := by
  delta State.modMir
  exact .mir .refl

theorem State.adopt_moves {s : State} {own : StateBlock} {blk : StateBlock} : Moves [.objs, .flt, .bbx, .fet, .pos, .lcg, .sne, .fsq, .mir] s (State.adopt s own blk) := by
  delta State.adopt
  extract_lets l1 l2
  have h_l2 : Moves [.objs, .flt, .bbx, .fet, .pos, .lcg, .sne, .fsq, .mir] s l2 := by
    unfold l2
    refine .forEach ?_ fun i3 t4 h_t4 => ?_
    · exact .refl
    · extract_lets l5 l6 l7 l8 l9 l10
      have h_l8 : Moves [.objs, .flt, .bbx, .fet, .pos, .lcg, .sne, .fsq, .mir] s l8 := by
        unfold l8
        refine .ite ?_ ?_
        · exact .after State.raise_moves h_t4
        · exact h_t4
      have h_l9 : Moves [.objs, .flt, .bbx, .fet, .pos, .lcg, .sne, .fsq, .mir] s l9 := by
        unfold l9
        refine .ite ?_ ?_
        · exact .after State.raise_moves h_l8
        · exact h_l8
      have h_l10 : Moves [.objs, .flt, .bbx, .fet, .pos, .lcg, .sne, .fsq, .mir] s l10 := by
        unfold l10
        refine .ite ?_ ?_
        · exact .after State.adoptChan_moves h_l9
        · exact .after State.adoptBar_moves h_l9
      refine .ite ?_ ?_
      · exact h_l9
      · refine .after State.bump_moves (.after State.modMir_moves ?_)
        exact h_l10
  exact .after State.modMir_moves h_l2

theorem State.enterStandby_moves {s : State} : Moves [.fresh, .sent, .objs, .pwr, .flt, .bbx, .wilwa, .rin, .fet, .mem, .dram, .lcg, .sne, .fsq, .hlk, .hdg, .che, .mir] s (State.enterStandby s) := by
  delta State.enterStandby
  refine .after State.enter_moves (.after State.lanesStandby_moves ?_)
  refine .after State.clearBars_moves (.after State.settleChange_moves ?_)
  exact .refl

theorem State.startConfigured_moves {s : State} : Moves [.fresh, .objs, .pwr, .mem, .hlk] s (State.startConfigured s) := by
  delta State.startConfigured
  extract_lets l1 l2
  have h_l1 : Moves [.fresh, .objs, .pwr, .mem, .hlk] s l1 := by
    unfold l1
    exact .after State.beginRequest_moves .refl
  have h_l2 : Moves [.fresh, .objs, .pwr, .mem, .hlk] s l2 := by
    unfold l2
    refine .forEach ?_ fun i3 t4 h_t4 => ?_
    · exact h_l1
    · exact .after State.trainForConfigured_moves h_t4
  refine .forEach ?_ fun i5 t6 h_t6 => ?_
  · exact h_l2
  · exact .after State.trainLane_moves h_t6

theorem State.stopForConfigured_moves {s : State} : Moves [.fresh, .sent, .objs, .pwr, .flt, .bbx, .wilwa, .rin, .fet, .mem, .dram, .lcg, .sne, .fsq, .hlk, .hdg, .vis, .che, .mir] s (State.stopForConfigured s) := by
  delta State.stopForConfigured
  extract_lets l1
  have h_l1 : Moves [.fresh, .sent, .objs, .pwr, .flt, .bbx, .wilwa, .rin, .fet, .mem, .dram, .lcg, .sne, .fsq, .hlk, .hdg, .vis, .che, .mir] s l1 := by
    unfold l1
    exact .after State.beginRequest_moves .refl
  refine .ite ?_ ?_
  · refine .after State.endRequest_moves (.after State.enterConfigured_moves ?_)
    exact h_l1
  · refine .after State.stopsDone_moves ?_
    refine .forRange ?_ fun i2 t3 h_t3 => ?_
    · exact h_l1
    · exact .after State.stopBegin_moves h_t3

theorem State.startHeld_moves {s : State} : Moves [.fresh, .sent, .objs, .pwr, .flt, .bbx, .wilwa, .rin, .fet, .mem, .dram, .lcg, .sne, .fsq, .hlk, .hdg, .vis, .che, .mir] s (State.startHeld s) := by
  delta State.startHeld
  extract_lets l1 l2
  have h_l1 : Moves [.fresh, .sent, .objs, .pwr, .flt, .bbx, .wilwa, .rin, .fet, .mem, .dram, .lcg, .sne, .fsq, .hlk, .hdg, .vis, .che, .mir] s l1 := by
    unfold l1
    refine .after State.enter_moves (.after State.beginRequest_moves ?_)
    exact .refl
  have h_l2 : Moves [.fresh, .sent, .objs, .pwr, .flt, .bbx, .wilwa, .rin, .fet, .mem, .dram, .lcg, .sne, .fsq, .hlk, .hdg, .vis, .che, .mir] s l2 := by
    unfold l2
    refine .forRange ?_ fun i3 t4 h_t4 => ?_
    · exact h_l1
    · extract_lets l5
      have h_l5 : Moves [.fresh, .sent, .objs, .pwr, .flt, .bbx, .wilwa, .rin, .fet, .mem, .dram, .lcg, .sne, .fsq, .hlk, .hdg, .vis, .che, .mir] s l5 := by
        unfold l5
        exact .after State.stopBegin_moves h_t4
      refine .ite ?_ ?_
      · exact h_l5
      · exact .after State.barIdle_moves h_l5
  exact .after State.stopsDone_moves h_l2

theorem State.withRelease_moves {s : State} {f : State → State} (k : Moves ps s u) (hf : ∀ t, Moves ps s t → Moves ps s (f t))
    (hp : ∀ p ∈ [StatePart.sent, .hlk], p ∈ ps := by decide) :
    Moves ps s (State.withRelease u f) := by
  delta State.withRelease
  refine .forRange (hf _ k) fun l t h => ?_
  exact .ite (.after State.sendRelease_moves h hp) h

theorem State.enterFrozen_moves {s : State} : Moves [.fresh, .sent, .objs, .pwr, .flt, .bbx, .wilwa, .mem, .dram, .fsq, .hlk, .hdg, .mir] s (State.enterFrozen s) := by
  delta State.enterFrozen
  extract_lets l1 l2
  have h_l1 : Moves [.fresh, .sent, .objs, .pwr, .flt, .bbx, .wilwa, .mem, .dram, .fsq, .hlk, .hdg, .mir] s l1 := by
    unfold l1
    refine .after State.measAbandon_moves (.after State.abandonRequest_moves ?_)
    exact .after State.abandonTraining_moves .refl
  have h_l2 : Moves [.fresh, .sent, .objs, .pwr, .flt, .bbx, .wilwa, .mem, .dram, .fsq, .hlk, .hdg, .mir] s l2 := by
    unfold l2
    refine State.withRelease_moves ?_ fun t3 h_t3 => ?_
    · exact h_l1
    · exact .after State.enter_moves h_t3
  exact .after State.stopFiring_moves h_l2

theorem State.stateRequest_moves {s : State} {v : Nat} : MovesE [.fresh, .sent, .objs, .pwr, .flt, .bbx, .wilwa, .rin, .fet, .mem, .dram, .lcg, .sne, .fsq, .hlk, .hdg, .vis, .che, .mir] s (State.stateRequest s v) := by
  delta State.stateRequest
  extract_lets l1 l2
  have h_l1 : ∀ a1, Moves [.fresh, .sent, .objs, .pwr, .flt, .bbx, .wilwa, .rin, .fet, .mem, .dram, .lcg, .sne, .fsq, .hlk, .hdg, .vis, .che, .mir] s (l1 a1) := by
    intro a1
    unfold l1
    exact .after State.measAbandon_moves .refl
  have h_l2 : MovesE [.fresh, .sent, .objs, .pwr, .flt, .bbx, .wilwa, .rin, .fet, .mem, .dram, .lcg, .sne, .fsq, .hlk, .hdg, .vis, .che, .mir] s l2 := by
    unfold l2
    exact .error
  refine .ite ?_ ?_
  · exact .error
  · split
    · refine .ok (.after State.endRequest_moves ?_)
      refine .after State.enterStandby_moves (.after State.beginRequest_moves ?_)
      refine h_l1 _
    · refine .ok (.after State.endRequest_moves ?_)
      refine .after State.enterStandby_moves (.after State.beginRequest_moves ?_)
      refine h_l1 _
    · split
      · exact .error
      · refine .ok (.after State.startConfigured_moves ?_)
        refine h_l1 _
    · refine .ok (.after State.stopForConfigured_moves ?_)
      refine h_l1 _
    · refine .ok (.after State.stopForConfigured_moves ?_)
      refine h_l1 _
    · refine .ok (.after State.stopForConfigured_moves ?_)
      refine h_l1 _
    · split
      · exact .error
      · refine .ok (.after State.endRequest_moves ?_)
        refine .after State.enterArmed_moves (.after State.beginRequest_moves ?_)
        refine h_l1 _
    · refine .ok (.after State.beginRequest_moves ?_)
      refine .after State.lanesResume_moves (h_l1 _)
    · refine .ok (.after State.startHeld_moves ?_)
      refine h_l1 _
    · refine .ok (.after State.startHeld_moves ?_)
      refine h_l1 _
    · refine .ok (.after State.endRequest_moves ?_)
      refine .after State.enterFrozen_moves (.after State.beginRequest_moves ?_)
      refine h_l1 _
    · refine .ok (.after State.endRequest_moves ?_)
      refine .after State.enterFrozen_moves (.after State.beginRequest_moves ?_)
      refine h_l1 _
    · refine .ok (.after State.endRequest_moves ?_)
      refine .after State.enterFrozen_moves (.after State.beginRequest_moves ?_)
      refine h_l1 _
    · refine .ok (.after State.endRequest_moves ?_)
      refine .after State.enterFrozen_moves (.after State.beginRequest_moves ?_)
      refine h_l1 _
    · exact h_l2

theorem State.showBolt_moves {s : State} {b : Block} {on : Bool} : Moves [.objs] s (State.showBolt s b on) := by
  delta State.showBolt
  split
  · extract_lets l1
    exact .after State.setNum_moves .refl
  · exact .refl

theorem State.barRestart_moves {s : State} {b : Nat} : Moves [.fresh, .sent, .objs, .flt, .bbx, .wilwa, .fet, .mem, .dram, .lcg, .sne, .fsq, .hlk, .hdg] s (State.barRestart s b) := by
  delta State.barRestart
  extract_lets l1 l2
  refine .ite ?_ ?_
  · exact .after State.waitForMark_moves .refl
  · exact .refl

theorem State.engineReset_moves {s : State} {n : Nat} {byHost : Bool} {cause : Nat} : Moves [.fresh, .objs, .flt, .bbx, .sne, .fsq] s (State.engineReset s n byHost cause) := by
  delta State.engineReset
  extract_lets l1 l2
  have h_l2 : Moves [.fresh, .objs, .flt, .bbx, .sne, .fsq] s l2 := by
    unfold l2
    exact .after State.engineOut_moves .refl
  refine .ite ?_ ?_
  · exact .refl
  · refine .ite ?_ ?_
    · split
      · rename_i x3 x4 x5 x6
        have h_x5 : Moves [.fresh, .objs, .flt, .bbx, .sne, .fsq] s x5 := by
          refine MovesP.of_eq x6 (.after State.freeBytes_moves ?_)
          exact h_l2
        exact .after State.raise_moves h_x5
    · exact h_l2

theorem State.laneSilent_moves {s : State} {l : Nat} : Moves [.fresh, .sent, .objs, .flt, .bbx, .wilwa, .mem, .dram, .fsq, .hlk, .hdg] s (State.laneSilent s l) := by
  delta State.laneSilent
  extract_lets l1 l2 l3
  have h_l2 : Moves [.fresh, .sent, .objs, .flt, .bbx, .wilwa, .mem, .dram, .fsq, .hlk, .hdg] s l2 := by
    unfold l2
    refine .after State.modLane_moves (.after State.laneUnlock_moves ?_)
    exact .refl
  have h_l3 : Moves [.fresh, .sent, .objs, .flt, .bbx, .wilwa, .mem, .dram, .fsq, .hlk, .hdg] s l3 := by
    unfold l3
    exact .after State.measLaneLost_moves h_l2
  refine .forEach ?_ fun i4 t5 h_t5 => ?_
  · exact h_l3
  · exact .after State.laneDone_moves h_t5

theorem State.mirLink_moves {s : State} : Moves [.mir] s (State.mirLink s) := by
  delta State.mirLink
  refine .ite ?_ ?_
  · exact .after State.modMir_moves .refl
  · exact .refl

theorem State.mirBlockReset_moves {s : State} : Moves [.mir] s (State.mirBlockReset s) := by
  delta State.mirBlockReset
  extract_lets l1
  refine .after State.mirLink_moves (.mir ?_)
  exact .refl

theorem State.blockReset_moves {s : State} {b : Block} {byHost : Bool} {cause : Nat} : Moves [.fresh, .sent, .objs, .pwr, .flt, .bbx, .wilwa, .rin, .fet, .mem, .dram, .pos, .lcg, .cmp, .sne, .fsq, .hlk, .hdg, .vis, .che, .mir] s (State.blockReset s b byHost cause) := by
  delta State.blockReset
  extract_lets l1 l2 l3 l4 l5 l6 l7 l8 l9 l10 l11 l12 l13
  have h_l1 : Moves [.fresh, .sent, .objs, .pwr, .flt, .bbx, .wilwa, .rin, .fet, .mem, .dram, .pos, .lcg, .cmp, .sne, .fsq, .hlk, .hdg, .vis, .che, .mir] s l1 := by
    unfold l1
    refine .forEach ?_ fun i14 t15 h_t15 => ?_
    · exact .refl
    · exact .after State.showBolt_moves h_t15
  have h_l2 : Moves [.fresh, .sent, .objs, .pwr, .flt, .bbx, .wilwa, .rin, .fet, .mem, .dram, .pos, .lcg, .cmp, .sne, .fsq, .hlk, .hdg, .vis, .che, .mir] s l2 := by
    unfold l2
    exact .after State.modPwr_moves h_l1
  have h_l5 : Moves [.fresh, .sent, .objs, .pwr, .flt, .bbx, .wilwa, .rin, .fet, .mem, .dram, .pos, .lcg, .cmp, .sne, .fsq, .hlk, .hdg, .vis, .che, .mir] s l5 := by
    unfold l5
    refine .forEach ?_ fun i16 t17 h_t17 => ?_
    · exact h_l2
    · refine .after State.modLcg_moves (.after State.barRestart_moves ?_)
      exact h_t17
  have h_l8 : Moves [.fresh, .sent, .objs, .pwr, .flt, .bbx, .wilwa, .rin, .fet, .mem, .dram, .pos, .lcg, .cmp, .sne, .fsq, .hlk, .hdg, .vis, .che, .mir] s l8 := by
    unfold l8
    refine .forRange ?_ fun i18 t19 h_t19 => ?_
    · exact h_l2
    · exact .after State.barRestart_moves h_t19
  have h_l10 : Moves [.fresh, .sent, .objs, .pwr, .flt, .bbx, .wilwa, .rin, .fet, .mem, .dram, .pos, .lcg, .cmp, .sne, .fsq, .hlk, .hdg, .vis, .che, .mir] s l10 := by
    unfold l10
    exact .after State.measAbandon_moves h_l2
  have h_l13 : Moves [.fresh, .sent, .objs, .pwr, .flt, .bbx, .wilwa, .rin, .fet, .mem, .dram, .pos, .lcg, .cmp, .sne, .fsq, .hlk, .hdg, .vis, .che, .mir] s l13 := by
    unfold l13
    split
    · exact .after State.rinBlockReset_moves h_l2
    · refine .forEach ?_ fun i20 t21 h_t21 => ?_
      · exact h_l2
      · exact .after State.chanBlockReset_moves h_t21
    · refine .forRange ?_ fun i22 t23 h_t23 => ?_
      · exact h_l2
      · exact .after State.barRestart_moves h_t23
    · refine .forEach ?_ fun i24 t25 h_t25 => ?_
      · exact h_l2
      · refine .after State.modPch_moves ?_
        refine .forEach ?_ fun i26 t27 h_t27 => ?_
        · exact h_t25
        · exact .after State.barRestart_moves h_t27
    · refine .forEach ?_ fun i28 t29 h_t29 => ?_
      · exact h_l5
      · exact .after State.modUnit_moves h_t29
    · refine .forEach ?_ fun i30 t31 h_t31 => ?_
      · exact h_l2
      · exact .after State.engineReset_moves h_t31
    · exact .che h_l2
    · refine .forRange ?_ fun i32 t33 h_t33 => ?_
      · exact h_l8
      · exact .after State.modBar_moves h_t33
    · refine .forEach ?_ fun i34 t35 h_t35 => ?_
      · exact h_l2
      · refine .ite ?_ ?_
        · exact h_t35
        · refine .after State.modLane_moves (.after State.laneSilent_moves ?_)
          exact h_t35
    · exact .hdg h_l10
    · refine .forEach ?_ fun i36 t37 h_t37 => ?_
      · exact h_l2
      · exact .after State.camReset_moves h_t37
    · exact .vis h_l2
    · exact .fsq h_l2
    · refine State.withRelease_moves ?_ fun t38 h_t38 => ?_
      · exact h_l2
      · exact .after State.mirBlockReset_moves h_t38
    · exact h_l2
  refine .after State.delaysChanged_moves (.after State.clearObjs_moves ?_)
  exact h_l13

theorem State.modBbx_moves {s : State} {f : Bbx → Bbx} : Moves [.bbx] s (State.modBbx s f) := by
  delta State.modBbx
  exact .bbx .refl

theorem State.modSnap_moves {s : State} {k : Nat} {f : SnapSlot → SnapSlot} : Moves [.bbx] s (State.modSnap s k f) := by
  delta State.modSnap
  exact .after State.modBbx_moves .refl

theorem State.writeSnap_moves {s : State} {w : SnapWrite} : Moves [.bbx] s (State.writeSnap s w) := by
  delta State.writeSnap
  extract_lets l1 l2
  have h_l2 : Moves [.bbx] s l2 := by
    unfold l2
    exact .after State.modSnap_moves .refl
  exact .after State.modBbx_moves h_l2

theorem State.startSnapAfter_moves {s : State} {after : Option Nat} {causes : Nat} : Moves [.fresh, .bbx] s (State.startSnapAfter s after causes) := by
  delta State.startSnapAfter
  split
  · split
    · rename_i x1 x2 x3 x4
      have h_x3 : Moves [.fresh, .bbx] s x3 := by
        refine MovesP.of_eq x4 ?_
        split
        · exact .mk .refl
        · exact .after State.freeBelow_moves .refl
      extract_lets l5 l6 l7
      have h_l7 : Moves [.fresh, .bbx] s l7 := by
        unfold l7
        exact .after State.writeSnap_moves h_x3
      exact .after State.modBbx_moves h_l7
  · exact .refl

theorem State.startSnap_moves {s : State} {causes : Nat} : Moves [.fresh, .bbx] s (State.startSnap s causes) := by
  delta State.startSnap
  exact .after State.startSnapAfter_moves .refl

theorem State.requestSnap_moves {s : State} {causes : Nat} : Moves [.fresh, .bbx] s (State.requestSnap s causes) := by
  delta State.requestSnap
  extract_lets l1
  refine .ite ?_ ?_
  · exact .refl
  · refine .ite ?_ ?_
    · exact .after State.modBbx_moves .refl
    · exact .after State.startSnap_moves .refl

theorem State.mirOff_moves {s : State} : Moves [.mir] s (State.mirOff s) := by
  delta State.mirOff
  exact .after State.modMir_moves .refl

theorem State.roleRequest_moves {s : State} {v : Nat} : MovesE [.sent, .objs, .hlk, .mir] s (State.roleRequest s v) := by
  delta State.roleRequest
  extract_lets l1 l2
  have h_l2 : Moves [.sent, .objs, .hlk, .mir] s l2 := by
    unfold l2
    refine State.withRelease_moves ?_ fun t3 h_t3 => ?_
    · exact .refl
    · extract_lets l4
      have h_l4 : Moves [.sent, .objs, .hlk, .mir] s l4 := by
        unfold l4
        exact .after State.modMir_moves h_t3
      refine .ite ?_ ?_
      · exact .after State.mirOff_moves h_l4
      · refine .ite ?_ ?_
        · exact .after State.modMir_moves h_l4
        · exact .after State.mirLink_moves h_l4
  refine .ite ?_ ?_
  · refine .ite ?_ ?_
    · exact .ok .refl
    · exact .error
  · refine .ite ?_ ?_
    · exact .error
    · refine .ite ?_ ?_
      · exact .error
      · refine .ok (.after State.setNum_moves ?_)
        exact h_l2

theorem State.enterWarm_moves {s : State} : Moves [.mir] s (State.enterWarm s) := by
  delta State.enterWarm
  extract_lets l1
  exact .after State.modMir_moves .refl

theorem State.startHinges_moves {s : State} {kind : Nat} : Moves [.fresh, .mir] s (State.startHinges s kind) := by
  delta State.startHinges
  refine .forRange ?_ fun i1 t2 h_t2 => ?_
  · exact .refl
  · refine .ite ?_ ?_
    · exact h_t2
    · split
      · extract_lets l3
        exact .after State.modMir_moves h_t2
      · split
        · rename_i x4 x5 x6 x7
          have h_x6 : Moves [.fresh, .mir] s x6 := by
            refine MovesP.of_eq x7 (.after State.freeBelow_moves ?_)
            exact h_t2
          split
          · rename_i x8 x9 x10 x11
            have h_x10 : Moves [.fresh, .mir] s x10 := by
              refine MovesP.of_eq x11 (.after State.freeBelow_moves ?_)
              exact h_x6
            split
            · rename_i x12 x13 x14 x15
              have h_x14 : Moves [.fresh, .mir] s x14 := by
                refine MovesP.of_eq x15 (.after State.freeBelow_moves ?_)
                exact h_x10
              exact .after State.modMir_moves h_x14

theorem State.prepareAnew_moves {s : State} : Moves [.fsq] s (State.prepareAnew s) := by
  delta State.prepareAnew
  refine .forRange ?_ fun i1 t2 h_t2 => ?_
  · exact .refl
  · refine .ite ?_ ?_
    · exact .after State.modBar_moves h_t2
    · exact h_t2

theorem State.takeHeads_moves {s : State} {st : MirSt} {gen : Nat} {kind : Nat} : Moves [.fresh, .sent, .objs, .fsq, .hlk, .mir] s (State.takeHeads s st gen kind) := by
  delta State.takeHeads
  extract_lets l1 l2 l3
  have h_l1 : Moves [.fresh, .sent, .objs, .fsq, .hlk, .mir] s l1 := by
    unfold l1
    exact .after State.modMir_moves .refl
  have h_l2 : Moves [.fresh, .sent, .objs, .fsq, .hlk, .mir] s l2 := by
    unfold l2
    refine .after State.lanesResume_moves (.after State.startHinges_moves ?_)
    exact h_l1
  have h_l3 : Moves [.fresh, .sent, .objs, .fsq, .hlk, .mir] s l3 := by
    unfold l3
    exact .after State.sendOwners_moves h_l2
  refine .ite ?_ ?_
  · exact h_l3
  · exact .after State.prepareAnew_moves h_l3

theorem State.takeover_moves {s : State} {st : MirSt} {cause : Nat} {kind : Nat} : Moves [.fresh, .sent, .objs, .flt, .bbx, .fsq, .hlk, .mir] s (State.takeover s st cause kind) := by
  delta State.takeover
  extract_lets l1
  have h_l1 : Moves [.fresh, .sent, .objs, .flt, .bbx, .fsq, .hlk, .mir] s l1 := by
    unfold l1
    exact .after State.takeHeads_moves .refl
  refine .after State.raise_moves (.after State.bump_moves ?_)
  exact h_l1

theorem State.mirrorCommand_moves {s : State} {v : Nat} : MovesE [.fresh, .sent, .objs, .flt, .bbx, .fsq, .hlk, .mir] s (State.mirrorCommand s v) := by
  delta State.mirrorCommand
  extract_lets l1 l2 l3
  have h_l2 : MovesE [.fresh, .sent, .objs, .flt, .bbx, .fsq, .hlk, .mir] s l2 := by
    unfold l2
    exact .error
  refine .ite ?_ ?_
  · refine .ite ?_ ?_
    · refine .ok (.after State.enterWarm_moves ?_)
      exact .after State.modMir_moves .refl
    · exact h_l2
  · refine .ite ?_ ?_
    · refine .ite ?_ ?_
      · refine .ok (.after State.modMir_moves ?_)
        exact .refl
      · exact h_l2
    · refine .ite ?_ ?_
      · refine .ite ?_ ?_
        · refine .ok (.after State.takeover_moves ?_)
          exact .refl
        · exact h_l2
      · refine .ite ?_ ?_
        · refine .ok (.after State.modMir_moves ?_)
          exact .refl
        · exact h_l2

theorem hookMir_moves {idx : Nat} {sub : Nat} {v : Val} {s : State} : MovesH [.fresh, .sent, .objs, .flt, .bbx, .fsq, .hlk, .mir] s (hookMir idx sub v s) := by
  delta hookMir
  split
  · refine .some (.after State.roleRequest_moves ?_)
    exact .refl
  · refine .some (.after State.mirrorCommand_moves ?_)
    exact .refl
  · exact .none

theorem State.blkChan_moves {s : State} {n : Nat} : MovesP [.fresh] s (State.blkChan s n) := by
  delta State.blkChan
  split
  · rename_i x1 x2 x3 x4
    have h_x3 : Moves [.fresh] s x3 := by
      refine MovesP.of_eq x4 (.after State.speed_moves ?_)
      exact .refl
    split
    · rename_i x5 x6 x7 x8
      have h_x7 : Moves [.fresh] s x7 := by
        refine MovesP.of_eq x8 (.after State.countInterval_moves ?_)
        exact h_x3
      split
      · rename_i x9 x10 x11 x12
        have h_x11 : Moves [.fresh] s x11 := by
          refine MovesP.of_eq x12 (.after State.positionStatus_moves ?_)
          exact h_x7
        exact .mk h_x11

theorem State.blkChans_moves {s : State} : MovesP [.fresh] s (State.blkChans s) := by
  delta State.blkChans
  refine .foldl ?_ fun q1 i2 h_q1 => ?_
  · exact .mk .refl
  · split
    · rename_i x3 x4 x5 x6
      have h_x5 : Moves [.fresh] s x5 := by
        refine MovesP.of_eq x6 (.after State.blkChan_moves ?_)
        exact MovesP.snd h_q1
      exact .mk h_x5

theorem State.bolt_moves {s : State} {b : Block} {cause : Nat} : Moves [.fresh, .sent, .objs, .flt, .bbx, .wilwa, .mem, .dram, .cmp, .sne, .fsq, .hlk, .hdg, .vis, .mir] s (State.bolt s b cause) := by
  delta State.bolt
  extract_lets l1 l2 l3
  have h_l1 : Moves [.fresh, .sent, .objs, .flt, .bbx, .wilwa, .mem, .dram, .cmp, .sne, .fsq, .hlk, .hdg, .vis, .mir] s l1 := by
    unfold l1
    exact .after State.showBolt_moves .refl
  have h_l2 : Moves [.fresh, .sent, .objs, .flt, .bbx, .wilwa, .mem, .dram, .cmp, .sne, .fsq, .hlk, .hdg, .vis, .mir] s l2 := by
    unfold l2
    refine .ite ?_ ?_
    · exact h_l1
    · exact .after State.sendRelease_moves h_l1
  have h_l3 : Moves [.fresh, .sent, .objs, .flt, .bbx, .wilwa, .mem, .dram, .cmp, .sne, .fsq, .hlk, .hdg, .vis, .mir] s l3 := by
    unfold l3
    refine .forEach ?_ fun i4 t5 h_t5 => ?_
    · exact h_l1
    · exact .after State.setPart_moves h_t5
  split
  · exact .after State.engineOut_moves h_l1
  · refine .ite ?_ ?_
    · exact h_l2
    · exact .after State.laneSilent_moves h_l2
  · refine .after State.modCam_moves (.after State.markOpen_moves ?_)
    exact h_l3
  · exact .after State.modUnit_moves h_l1
  · exact .after State.measAbandon_moves h_l1
  · exact h_l1

theorem State.captureBlock_moves {s : State} : MovesP [.fresh] s (State.captureBlock s) := by
  delta State.captureBlock
  split
  · rename_i x1 x2 x3 x4
    have h_x3 : Moves [.fresh] s x3 := by
      refine MovesP.of_eq x4 (.after State.blkChans_moves ?_)
      exact .refl
    extract_lets l5
    exact .mk h_x3

theorem State.forceSnap_moves {s : State} {causes : Nat} : Moves [.fresh, .objs, .flt, .bbx] s (State.forceSnap s causes) := by
  delta State.forceSnap
  split
  · exact .after State.startSnap_moves .refl
  · extract_lets l1
    have h_l1 : Moves [.fresh, .objs, .flt, .bbx] s l1 := by
      unfold l1
      refine .after State.raise_moves (.after State.modBbx_moves ?_)
      exact .refl
    refine .ite ?_ ?_
    · exact .after State.startSnapAfter_moves h_l1
    · exact .after State.modBbx_moves .refl

theorem State.fireStamps_moves {s : State} : MovesP [.fresh] s (State.fireStamps s) := by
  delta State.fireStamps
  split
  · rename_i x1 x2 x3 x4
    have h_x3 : Moves [.fresh] s x3 := by
      refine MovesP.of_eq x4 ?_
      refine .foldl ?_ fun q5 i6 h_q5 => ?_
      · exact .mk .refl
      · split
        · rename_i x7 x8 x9 x10
          have h_x9 : Moves [.fresh] s x9 := by
            refine MovesP.of_eq x10 ?_
            split
            · refine .after State.stampFine_moves (MovesP.snd ?_)
              exact h_q5
            · refine .mk (MovesP.snd ?_)
              exact h_q5
          exact .mk h_x9
    exact .mk h_x3

theorem State.matchSlots_moves {s : State} : Moves [.objs, .flt, .bbx, .mir] s (State.matchSlots s) := by
  delta State.matchSlots
  extract_lets l1 l2 l3
  have h_l3 : Moves [.objs, .flt, .bbx, .mir] s l3 := by
    unfold l3
    refine .forEach ?_ fun i4 t5 h_t5 => ?_
    · exact .refl
    · exact .after State.raise_moves h_t5
  exact .after State.modMir_moves h_l3

theorem State.mirrorHold_moves {s : State} {blk : StateBlock} : Moves [.objs, .che] s (State.mirrorHold s blk) := by
  delta State.mirrorHold
  refine .forEach ?_ fun i1 t2 h_t2 => ?_
  · exact .refl
  · extract_lets l3 l4 l5 l6 l7 l8 l9 l10 l11
    have h_l5 : Moves [.objs, .che] s l5 := by
      unfold l5
      exact .after State.setObj_moves h_t2
    have h_l7 : Moves [.objs, .che] s l7 := by
      unfold l7
      exact .after State.modChe_moves h_l5
    have h_l10 : Moves [.objs, .che] s l10 := by
      unfold l10
      split
      · exact .after State.holdLog_moves h_l7
      · exact h_l7
    have h_l11 : Moves [.objs, .che] s l11 := by
      unfold l11
      refine .after State.setNum_moves (.after State.setObj_moves ?_)
      exact h_l10
    refine .ite ?_ ?_
    · exact h_l7
    · exact .after State.modChe_moves h_l11

theorem State.sendHello_moves {s : State} {echo : Nat} {answer : Nat} {turnaround : Nat} : Moves [.sent, .mir] s (State.sendHello s echo answer turnaround) := by
  delta State.sendHello
  exact .after State.linkSend_moves .refl

theorem State.runCold_moves {s : State} {cause : Nat} {versions : Nat} : Moves [.objs, .flt, .bbx, .mir] s (State.runCold s cause versions) := by
  delta State.runCold
  refine .after State.raise_moves (.after State.modMir_moves ?_)
  exact .refl

theorem State.probeNext_moves {s : State} {versions : Nat} : Moves [.sent, .objs, .flt, .bbx, .mir] s (State.probeNext s versions) := by
  delta State.probeNext
  extract_lets l1 l2 l3 l4
  have h_l4 : Moves [.sent, .objs, .flt, .bbx, .mir] s l4 := by
    unfold l4
    exact .after State.modMir_moves .refl
  refine .ite ?_ ?_
  · refine .after State.sendHello_moves (.after State.modMir_moves ?_)
    exact .refl
  · refine .ite ?_ ?_
    · exact .after State.runCold_moves h_l4
    · exact .after State.enterWarm_moves h_l4

theorem State.resumeBar_moves {s : State} {b : Nat} : Moves [.fresh, .sent, .objs, .flt, .bbx, .wilwa, .fet, .mem, .dram, .lcg, .sne, .fsq, .hlk, .hdg] s (State.resumeBar s b) := by
  delta State.resumeBar
  extract_lets l1 l2
  refine .ite ?_ ?_
  · exact .refl
  · refine .ite ?_ ?_
    · refine .after State.modLcg_moves (.after State.modBar_moves ?_)
      exact .refl
    · refine .ite ?_ ?_
      · exact .after State.modBar_moves .refl
      · split
        · exact .after State.waitForMark_moves .refl
        · exact .after State.waitForMark_moves .refl

theorem State.sendSack_moves {s : State} {cycle : Nat} {result : Nat} : Moves [.sent, .mir] s (State.sendSack s cycle result) := by
  delta State.sendSack
  exact .after State.linkSend_moves .refl

theorem State.sendState_moves {s : State} {flags : Nat} : Moves [.fresh, .sent, .objs, .mir] s (State.sendState s flags) := by
  delta State.sendState
  extract_lets l1
  have h_l1 : Moves [.fresh, .sent, .objs, .mir] s l1 := by
    unfold l1
    exact .after State.modMir_moves .refl
  split
  · rename_i x2 x3 x4 x5
    have h_x4 : Moves [.fresh, .sent, .objs, .mir] s x4 := by
      refine MovesP.of_eq x5 (.after State.captureBlock_moves ?_)
      exact h_l1
    split
    · rename_i x6 x7 x8 x9
      have h_x8 : Moves [.fresh, .sent, .objs, .mir] s x8 := by
        refine MovesP.of_eq x9 (.after State.fireStamps_moves ?_)
        exact h_x4
      extract_lets l10
      have h_l10 : Moves [.fresh, .sent, .objs, .mir] s l10 := by
        unfold l10
        exact .after State.modMir_moves h_x8
      refine .after State.linkSend_moves (.after State.bump_moves ?_)
      exact h_l10

theorem State.trainingFails_moves {s : State} {step : Nat} {unit : Nat} {result : Nat} : Moves [.objs, .pwr, .flt, .bbx] s (State.trainingFails s step unit result) := by
  delta State.trainingFails
  extract_lets l1
  have h_l1 : Moves [.objs, .pwr, .flt, .bbx] s l1 := by
    unfold l1
    exact .after State.raise_moves .refl
  refine .after State.endRequest_moves (.after State.modPwr_moves ?_)
  exact h_l1

theorem State.withdrawTokens_moves {s : State} : Moves [.fresh, .sent, .objs, .flt, .bbx, .wilwa, .mem, .dram, .fsq, .hlk, .hdg] s (State.withdrawTokens s) := by
  delta State.withdrawTokens
  extract_lets l1
  have h_l1 : Moves [.fresh, .sent, .objs, .flt, .bbx, .wilwa, .mem, .dram, .fsq, .hlk, .hdg] s l1 := by
    unfold l1
    refine .forRange ?_ fun i2 t3 h_t3 => ?_
    · exact .refl
    · exact .after State.modLane_moves h_t3
  refine .forRange ?_ fun i4 t5 h_t5 => ?_
  · exact h_l1
  · split
    · exact .after State.lineFinished_moves h_t5
    · exact h_t5

theorem execConfiguredTrainingDone_moves {s : State} : MovesO [.fresh, .sent, .objs, .pwr, .flt, .bbx, .wilwa, .rin, .fet, .mem, .dram, .lcg, .sne, .fsq, .hlk, .hdg, .vis, .che, .mir] s (execConfiguredTrainingDone s) := by
  delta execConfiguredTrainingDone
  extract_lets l1 l2
  refine .ite ?_ ?_
  · exact .next .refl
  · split
    · refine .next (.after State.trainingFails_moves ?_)
      exact .refl
    · refine .next (.ite ?_ ?_)
      · refine .after State.abandonRequest_moves (.after State.abandonTraining_moves ?_)
        exact .refl
      · exact .after State.trainingFails_moves .refl
    · refine .ite ?_ ?_
      · refine .next (.after State.endRequest_moves ?_)
        refine .after State.sendOwners_moves (.after State.enterConfigured_moves ?_)
        exact .after State.fixSoloGen_moves .refl
      · exact .next .refl

theorem execResumeBurstEnd_moves {failed : BitVec 32} {s : State} : MovesO [.fresh, .sent, .objs, .pwr, .flt, .bbx, .wilwa, .fet, .mem, .dram, .lcg, .sne, .fsq, .hlk, .hdg, .mir] s (execResumeBurstEnd failed s) := by
  delta execResumeBurstEnd
  split
  · extract_lets l1 l2 l3 l4
    have h_l2 : Moves [.fresh, .sent, .objs, .pwr, .flt, .bbx, .wilwa, .fet, .mem, .dram, .lcg, .sne, .fsq, .hlk, .hdg, .mir] s l2 := by
      unfold l2
      exact .after State.burstEnds_moves .refl
    have h_l3 : Moves [.fresh, .sent, .objs, .pwr, .flt, .bbx, .wilwa, .fet, .mem, .dram, .lcg, .sne, .fsq, .hlk, .hdg, .mir] s l3 := by
      unfold l3
      refine .forRange ?_ fun i5 t6 h_t6 => ?_
      · exact h_l2
      · exact .after State.resumeBar_moves h_t6
    have h_l4 : Moves [.fresh, .sent, .objs, .pwr, .flt, .bbx, .wilwa, .fet, .mem, .dram, .lcg, .sne, .fsq, .hlk, .hdg, .mir] s l4 := by
      unfold l4
      refine .ite ?_ ?_
      · exact .after State.enter_moves h_l3
      · exact .after State.toArmed_moves h_l3
    refine .next (.after State.endRequest_moves ?_)
    exact h_l4
  · refine .ite ?_ ?_
    · refine .next (.after State.prepareAnew_moves ?_)
      exact .after State.burstEnds_moves .refl
    · exact .next .refl

theorem execBlockResetComplete_moves {s : State} : MovesO [.objs, .pwr, .hlk] s (execBlockResetComplete s) := by
  delta execBlockResetComplete
  split
  · exact .next .refl
  · extract_lets l1
    have h_l1 : Moves [.objs, .pwr, .hlk] s l1 := by
      unfold l1
      exact .after State.modPwr_moves .refl
    refine .next (.ite ?_ ?_)
    · refine .forEach ?_ fun i2 t3 h_t3 => ?_
      · exact h_l1
      · refine .ite ?_ ?_
        · exact .after State.laneAlign_moves h_t3
        · exact h_t3
    · exact h_l1

theorem execRasterTrainingTimeout_moves {s : State} : MovesO [.objs, .pwr, .flt, .bbx] s (execRasterTrainingTimeout s) := by
  delta execRasterTrainingTimeout
  refine .next (.ite ?_ ?_)
  · exact .after State.trainingFails_moves .refl
  · exact .refl

theorem execHandoverStateSend_moves {s : State} : MovesO [.fresh, .sent, .objs, .mir] s (execHandoverStateSend s) := by
  delta execHandoverStateSend
  refine .ite ?_ ?_
  · refine .next (.after State.modMir_moves ?_)
    exact .after State.sendState_moves .refl
  · exact .next .refl

theorem execIcselLinkUp_moves {s : State} : MovesO [.sent, .mir] s (execIcselLinkUp s) := by
  delta execIcselLinkUp
  extract_lets l1
  have h_l1 : Moves [.sent, .mir] s l1 := by
    unfold l1
    exact .after State.modMir_moves .refl
  refine .ite ?_ ?_
  · exact .next .refl
  · refine .next (.ite ?_ ?_)
    · refine .after State.sendHello_moves (.after State.modMir_moves ?_)
      exact h_l1
    · exact h_l1

theorem execIcselLinkLost_moves {s : State} : MovesO [.fresh, .objs, .flt, .bbx, .mir] s (execIcselLinkLost s) := by
  delta execIcselLinkLost
  refine .ite ?_ ?_
  · exact .next .refl
  · split
    · rename_i x1 x2 x3 x4
      have h_x3 : Moves [.fresh, .objs, .flt, .bbx, .mir] s x3 := by
        refine MovesP.of_eq x4 (.after State.freeBelow_moves ?_)
        exact .refl
      extract_lets l5 l6
      have h_l5 : Moves [.fresh, .objs, .flt, .bbx, .mir] s l5 := by
        unfold l5
        exact .after State.raise_moves h_x3
      have h_l6 : Moves [.fresh, .objs, .flt, .bbx, .mir] s l6 := by
        unfold l6
        exact .after State.modMir_moves h_l5
      refine .next (.ite ?_ ?_)
      · exact .after State.modMir_moves h_l6
      · exact h_l6

theorem execHelloInterval_moves {s : State} : MovesO [.sent, .mir] s (execHelloInterval s) := by
  delta execHelloInterval
  refine .next ?_
  split
  · exact .after State.sendHello_moves .refl
  · exact .after State.sendHello_moves .refl
  · exact .after State.sendHello_moves .refl
  · exact .refl

theorem execHelloReceived_moves {f : Hello} {rtt : Nat} {s : State} : MovesO [.fresh, .sent, .objs, .flt, .bbx, .mir] s (execHelloReceived f rtt s) := by
  delta execHelloReceived
  extract_lets l1 l2 l3
  have h_l1 : Moves [.fresh, .sent, .objs, .flt, .bbx, .mir] s l1 := by
    unfold l1
    exact .after State.modMir_moves .refl
  have h_l3 : Moves [.fresh, .sent, .objs, .flt, .bbx, .mir] s l3 := by
    unfold l3
    refine .ite ?_ ?_
    · exact .after State.modMir_moves h_l1
    · exact h_l1
  refine .ite ?_ ?_
  · exact .next .refl
  · split
    · rename_i x4 x5 x6 x7
      have h_x6 : Moves [.fresh, .sent, .objs, .flt, .bbx, .mir] s x6 := by
        refine MovesP.of_eq x7 (.after State.freeBelow_moves ?_)
        exact h_l3
      extract_lets l8 l9
      have h_l8 : Moves [.fresh, .sent, .objs, .flt, .bbx, .mir] s l8 := by
        unfold l8
        refine .ite ?_ ?_
        · exact .after State.sendHello_moves h_x6
        · exact h_l3
      refine .ite ?_ ?_
      · exact .next h_l8
      · refine .ite ?_ ?_
        · refine .next (.after State.raise_moves ?_)
          exact .after State.modMir_moves h_l8
        · refine .ite ?_ ?_
          · refine .next (.after State.runCold_moves ?_)
            exact h_l8
          · refine .ite ?_ ?_
            · refine .ite ?_ ?_
              · refine .next (.after State.sendHello_moves ?_)
                exact .after State.modMir_moves h_l8
              · exact .next h_l8
            · refine .ite ?_ ?_
              · refine .next (.after State.sendHello_moves ?_)
                exact .after State.modMir_moves h_l8
              · split
                · refine .next (.ite ?_ ?_)
                  · exact .after State.probeNext_moves h_l8
                  · exact h_l8
                · refine .ite ?_ ?_
                  · refine .next (.after State.probeNext_moves ?_)
                    exact .after State.modMir_moves h_l8
                  · exact .next h_l8

theorem execMirrorCycleBoundary_moves {s : State} : MovesO [.fresh, .sent, .objs, .flt, .bbx, .wilwa, .mem, .dram, .fsq, .hlk, .hdg, .mir] s (execMirrorCycleBoundary s) := by
  delta execMirrorCycleBoundary
  extract_lets l1
  have h_l1 : Moves [.fresh, .sent, .objs, .flt, .bbx, .wilwa, .mem, .dram, .fsq, .hlk, .hdg, .mir] s l1 := by
    unfold l1
    refine .ite ?_ ?_
    · exact .refl
    · exact .after State.bump_moves .refl
  refine .ite ?_ ?_
  · exact .next .refl
  · refine .ite ?_ ?_
    · exact .next h_l1
    · refine .ite ?_ ?_
      · refine .next ?_
        refine State.withRelease_moves ?_ fun t2 h_t2 => ?_
        · exact h_l1
        · refine .after State.withdrawTokens_moves (.after State.modMir_moves ?_)
          exact h_t2
      · refine .next (.after State.sendState_moves ?_)
        exact h_l1

theorem execStateFrameReceived_moves {cycle : BitVec 32} {flags : BitVec 8} {check : Fin 4} {block : StateBlock} {s : State} : MovesO [.fresh, .sent, .objs, .flt, .bbx, .fet, .pos, .lcg, .sne, .fsq, .hlk, .che, .mir] s (execStateFrameReceived cycle flags check block s) := by
  delta execStateFrameReceived
  extract_lets l1
  have h_l1 : Moves [.fresh, .sent, .objs, .flt, .bbx, .fet, .pos, .lcg, .sne, .fsq, .hlk, .che, .mir] s l1 := by
    unfold l1
    refine .ite ?_ ?_
    · split
      · rename_i x2 x3 x4 x5
        have h_x4 : Moves [.fresh, .sent, .objs, .flt, .bbx, .fet, .pos, .lcg, .sne, .fsq, .hlk, .che, .mir] s x4 := by
          refine MovesP.of_eq x5 (.after State.freeBelow_moves ?_)
          exact .refl
        refine .after State.enterWarm_moves (.after State.modMir_moves ?_)
        exact h_x4
    · exact .refl
  refine .ite ?_ ?_
  · exact .next h_l1
  · refine .ite ?_ ?_
    · refine .next (.after State.sendSack_moves ?_)
      exact h_l1
    · split
      · rename_i x6 x7 x8 x9
        have h_x8 : Moves [.fresh, .sent, .objs, .flt, .bbx, .fet, .pos, .lcg, .sne, .fsq, .hlk, .che, .mir] s x8 := by
          refine MovesP.of_eq x9 (.after State.captureBlock_moves ?_)
          exact h_l1
        split
        · rename_i x10 x11 x12 x13
          have h_x12 : Moves [.fresh, .sent, .objs, .flt, .bbx, .fet, .pos, .lcg, .sne, .fsq, .hlk, .che, .mir] s x12 := by
            refine MovesP.of_eq x13 (.after State.fireStamps_moves ?_)
            exact h_x8
          extract_lets l14 l15 l16 l17 l18
          have h_l14 : Moves [.fresh, .sent, .objs, .flt, .bbx, .fet, .pos, .lcg, .sne, .fsq, .hlk, .che, .mir] s l14 := by
            unfold l14
            exact .after State.modMir_moves h_x12
          have h_l15 : Moves [.fresh, .sent, .objs, .flt, .bbx, .fet, .pos, .lcg, .sne, .fsq, .hlk, .che, .mir] s l15 := by
            unfold l15
            refine .after State.matchSlots_moves (.after State.mirrorHold_moves ?_)
            exact .after State.adopt_moves h_l14
          have h_l16 : Moves [.fresh, .sent, .objs, .flt, .bbx, .fet, .pos, .lcg, .sne, .fsq, .hlk, .che, .mir] s l16 := by
            unfold l16
            exact .after State.modMir_moves h_l15
          have h_l17 : Moves [.fresh, .sent, .objs, .flt, .bbx, .fet, .pos, .lcg, .sne, .fsq, .hlk, .che, .mir] s l17 := by
            unfold l17
            exact .after State.sendSack_moves h_l16
          have h_l18 : Moves [.fresh, .sent, .objs, .flt, .bbx, .fet, .pos, .lcg, .sne, .fsq, .hlk, .che, .mir] s l18 := by
            unfold l18
            exact .after State.takeover_moves h_l17
          refine .ite ?_ ?_
          · refine .next (.after State.raise_moves ?_)
            exact .after State.bump_moves h_l18
          · refine .ite ?_ ?_
            · refine .next (.after State.modMir_moves ?_)
              exact h_l17
            · exact .next h_l17

theorem execSackReceived_moves {cycle : BitVec 32} {result : BitVec 8} {ready : BitVec 8} {s : State} : MovesO [.sent, .objs, .flt, .bbx, .hlk, .mir] s (execSackReceived cycle result ready s) := by
  delta execSackReceived
  extract_lets l1 l2 l3 l4
  have h_l2 : Moves [.sent, .objs, .flt, .bbx, .hlk, .mir] s l2 := by
    unfold l2
    exact .after State.modMir_moves .refl
  have h_l3 : Moves [.sent, .objs, .flt, .bbx, .hlk, .mir] s l3 := by
    unfold l3
    refine .after State.modMir_moves (.after State.bump_moves ?_)
    exact h_l2
  have h_l4 : Moves [.sent, .objs, .flt, .bbx, .hlk, .mir] s l4 := by
    unfold l4
    exact .after State.modMir_moves h_l3
  refine .ite ?_ ?_
  · exact .next .refl
  · split
    · exact .next h_l2
    · extract_lets l5
      have h_l5 : Moves [.sent, .objs, .flt, .bbx, .hlk, .mir] s l5 := by
        unfold l5
        exact .after State.modMir_moves h_l3
      refine .ite ?_ ?_
      · exact .next h_l2
      · refine .ite ?_ ?_
        · refine .next (.after State.raise_moves ?_)
          exact .after State.bump_moves h_l4
        · refine .ite ?_ ?_
          · refine .next (.after State.sendOwners_moves ?_)
            exact .after State.modMir_moves h_l5
          · refine .next (.after State.sendOwners_moves ?_)
            exact h_l5

theorem execFwdReceived_moves {sequence off total : BitVec 32} {data : Bytes} {s : State} :
    MovesO [.fresh, .sent, .objs, .flt, .bbx, .rin, .mir] s (execFwdReceived sequence off total data s) := by
  delta execFwdReceived
  extract_lets q got
  refine .ite (.next .refl) ?_
  clear_value got
  cases got with
  | none => exact .next .refl
  | some b =>
    refine .ite (.next (.after State.modMir_moves .refl)) (.next ?_)
    have h : Moves [.fresh, .sent, .objs, .flt, .bbx, .rin, .mir] s ((s.modMir fun m => { m with fwd := none }).intake true (parseBlock b)) :=
      .after State.intake_moves (.after State.modMir_moves .refl)
    exact .ite (.forEach h fun i t h => .after State.modMir_moves h) h

theorem execSlotFrameReceived_moves {f : SlotFrame} {s : State} : MovesO [.objs, .flt, .bbx, .mir] s (execSlotFrameReceived f s) := by
  delta execSlotFrameReceived
  extract_lets l1
  have h_l1 : Moves [.objs, .flt, .bbx, .mir] s l1 := by
    unfold l1
    exact .after State.modMir_moves .refl
  refine .ite ?_ ?_
  · exact .next .refl
  · refine .next (.ite ?_ ?_)
    · exact .after State.matchSlots_moves h_l1
    · exact h_l1

theorem execRefFrameReceived_moves {b : Bar} {entries : Bytes} {s : State} : MovesO [.objs] s (execRefFrameReceived b entries s) := by
  delta execRefFrameReceived
  refine .next (.ite ?_ ?_)
  · exact .after State.setObj_moves .refl
  · exact .refl

theorem execKeyExpiry_moves {s : State} : MovesO [.fresh, .sent, .objs, .flt, .bbx, .wilwa, .mem, .dram, .fsq, .hlk, .hdg, .mir] s (execKeyExpiry s) := by
  delta execKeyExpiry
  split
  · exact .next .refl
  · extract_lets l1 l2 l3
    have h_l1 : Moves [.fresh, .sent, .objs, .flt, .bbx, .wilwa, .mem, .dram, .fsq, .hlk, .hdg, .mir] s l1 := by
      unfold l1
      refine .forRange ?_ fun i4 t5 h_t5 => ?_
      · exact .refl
      · refine .ite ?_ ?_
        · exact .after State.sendRelease_moves h_t5
        · exact h_t5
    have h_l2 : Moves [.fresh, .sent, .objs, .flt, .bbx, .wilwa, .mem, .dram, .fsq, .hlk, .hdg, .mir] s l2 := by
      unfold l2
      exact .after State.withdrawTokens_moves h_l1
    have h_l3 : Moves [.fresh, .sent, .objs, .flt, .bbx, .wilwa, .mem, .dram, .fsq, .hlk, .hdg, .mir] s l3 := by
      unfold l3
      exact .after State.modMir_moves h_l2
    refine .ite ?_ ?_
    · exact .next .refl
    · refine .next (.after State.raise_moves ?_)
      exact h_l3

theorem execTakeoverAtReached_moves {s : State} : MovesO [.fresh, .sent, .objs, .flt, .bbx, .fsq, .hlk, .mir] s (execTakeoverAtReached s) := by
  delta execTakeoverAtReached
  split
  · exact .next .refl
  · refine .ite ?_ ?_
    · exact .next .refl
    · refine .ite ?_ ?_
      · refine .next (.after State.takeover_moves ?_)
        exact .refl
      · refine .next (.after State.raise_moves ?_)
        exact .after State.modMir_moves .refl

theorem execReclaimCheck_moves {s : State} : MovesO [.fresh, .sent, .objs, .flt, .bbx, .fsq, .hlk, .mir] s (execReclaimCheck s) := by
  delta execReclaimCheck
  split
  · exact .next .refl
  · extract_lets l1 l2
    have h_l2 : Moves [.fresh, .sent, .objs, .flt, .bbx, .fsq, .hlk, .mir] s l2 := by
      unfold l2
      exact .after State.takeHeads_moves .refl
    refine .ite ?_ ?_
    · exact .next .refl
    · refine .ite ?_ ?_
      · refine .next (.after State.raise_moves ?_)
        exact h_l2
      · refine .next (.after State.raise_moves ?_)
        exact .after State.modMir_moves .refl

theorem execPfailAssert_moves {s : State} : MovesO [.fresh, .objs, .flt, .bbx] s (execPfailAssert s) := by
  delta execPfailAssert
  extract_lets l1 l2 l3 l4 l5
  have h_l2 : Moves [.fresh, .objs, .flt, .bbx] s l2 := by
    unfold l2
    exact .after State.modBbx_moves .refl
  have h_l4 : Moves [.fresh, .objs, .flt, .bbx] s l4 := by
    unfold l4
    exact .after State.bump_moves h_l2
  have h_l5 : Moves [.fresh, .objs, .flt, .bbx] s l5 := by
    unfold l5
    exact .after State.raise_moves h_l4
  refine .ite ?_ ?_
  · exact .next h_l2
  · refine .next (.ite ?_ ?_)
    · exact h_l5
    · exact .after State.forceSnap_moves h_l5

theorem execSnapshotMinIntervalExpiry_moves {s : State} : MovesO [.fresh, .bbx] s (execSnapshotMinIntervalExpiry s) := by
  delta execSnapshotMinIntervalExpiry
  refine .next (.ite ?_ ?_)
  · exact .after State.startSnap_moves .refl
  · exact .refl

theorem execSnapshotWriteDone_moves {ok : Bool} {s : State} : MovesO [.fresh, .objs, .flt, .bbx] s (execSnapshotWriteDone ok s) := by
  delta execSnapshotWriteDone
  split
  · exact .next .refl
  · extract_lets l1 l2 l3 l4 l5 l6
    have h_l1 : Moves [.fresh, .objs, .flt, .bbx] s l1 := by
      unfold l1
      exact .after State.modBbx_moves .refl
    have h_l2 : Moves [.fresh, .objs, .flt, .bbx] s l2 := by
      unfold l2
      exact .after State.modSnap_moves h_l1
    have h_l3 : Moves [.fresh, .objs, .flt, .bbx] s l3 := by
      unfold l3
      refine .after State.raise_moves (.after State.bump_moves ?_)
      exact h_l2
    have h_l4 : Moves [.fresh, .objs, .flt, .bbx] s l4 := by
      unfold l4
      exact .after State.modSnap_moves h_l1
    have h_l6 : Moves [.fresh, .objs, .flt, .bbx] s l6 := by
      unfold l6
      exact .after State.raise_moves h_l4
    refine .ite ?_ ?_
    · refine .next (.ite ?_ ?_)
      · exact .after State.startSnap_moves h_l3
      · exact h_l3
    · refine .ite ?_ ?_
      · refine .next (.after State.raise_moves ?_)
        exact .after State.modBbx_moves h_l6
      · split
        · refine .next (.after State.writeSnap_moves ?_)
          exact h_l6
        · exact .next h_l6

theorem execPfailNRise_moves {s : State} : MovesO [.bbx] s (execPfailNRise s) := by
  delta execPfailNRise
  refine .next (.ite ?_ ?_)
  · exact .after State.modBbx_moves .refl
  · exact .refl

end Sys2Proof.Machine
end

