-- ==== Sys2Proof/Laws/FramesPower.lean ====
section
/-! SUPPORT. Frames: what the functions of power-up and domains, the thermal model, advice, faults and the network may change, one lemma a function. -/

set_option Elab.async false

namespace Sys2Proof.Machine

set_option maxRecDepth 4000
variable {ps qs : List StatePart} {t u v : State}

theorem State.adviceData_moves {s : State} : MovesP [.fresh] s (State.adviceData s) := by
  delta State.adviceData
  extract_lets l1
  refine .ite ?_ ?_
  · exact .mk .refl
  · refine .foldl ?_ fun q2 i3 h_q2 => ?_
    · exact .mk .refl
    · extract_lets l4
      refine .ite ?_ ?_
      · exact h_q2
      · split
        · rename_i x5 x6 x7 x8
          have h_x7 : Moves [.fresh] s x7 := by
            refine MovesP.of_eq x8 (.after State.webSpeed_moves ?_)
            exact MovesP.snd h_q2
          extract_lets l9
          split
          · exact .mk h_x7
          · exact .mk h_x7

theorem State.answerFrame_moves {s : State} {q : Queued} : Moves [.fresh, .sent] s (State.answerFrame s q) := by
  delta State.answerFrame
  split
  · exact .refl
  · extract_lets l1
    refine .ite ?_ ?_
    · split
      · rename_i x2 x3 x4 x5
        have h_x4 : Moves [.fresh, .sent] s x4 := by
          refine MovesP.of_eq x5 (.after State.freeBelow_moves ?_)
          exact .refl
        exact .after State.emit_moves h_x4
    · exact .refl

theorem State.domainRequest_moves {s : State} {v : Nat} : MovesE [.sent, .objs, .pwr, .mem, .dram] s (State.domainRequest s v) := by
  delta State.domainRequest
  extract_lets l1 l2 l3 l4 l5 l6 l7 l8
  have h_l8 : Moves [.sent, .objs, .pwr, .mem, .dram] s l8 := by
    unfold l8
    refine .after State.modPwr_moves (.after State.setNum_moves ?_)
    exact .refl
  refine .ite ?_ ?_
  · exact .error
  · refine .ite ?_ ?_
    · exact .error
    · split
      · exact .error
      · split
        · exact .error
        · refine .ite ?_ ?_
          · exact .error
          · split
            · exact .error
            · refine .ite ?_ ?_
              · exact .error
              · refine .ok ?_
                refine .forRange ?_ fun i9 t10 h_t10 => ?_
                · exact h_l8
                · refine .ite ?_ ?_
                  · exact .after State.beginRetain_moves h_t10
                  · exact h_t10

theorem State.resetRequest_moves {s : State} {v : Nat} : MovesE [.fresh, .sent, .objs, .pwr, .flt, .bbx, .wilwa, .rin, .fet, .mem, .dram, .pos, .lcg, .cmp, .sne, .fsq, .hlk, .hdg, .vis, .che, .mir] s (State.resetRequest s v) := by
  delta State.resetRequest
  extract_lets l1
  refine .ite ?_ ?_
  · refine .ok (.after State.modPwr_moves ?_)
    exact .refl
  · refine .ite ?_ ?_
    · refine .ok (.after State.blockReset_moves ?_)
      exact .refl
    · exact .error

theorem hookPower_moves {idx : Nat} {sub : Nat} {v : Val} {s : State} : MovesH [.fresh, .sent, .objs, .pwr, .flt, .bbx, .wilwa, .rin, .fet, .mem, .dram, .pos, .lcg, .cmp, .sne, .fsq, .hlk, .hdg, .vis, .che, .mir] s (hookPower idx sub v s) := by
  delta hookPower
  extract_lets l1
  split
  · refine .some (.after State.stateRequest_moves ?_)
    exact .refl
  · refine .some (.after State.domainRequest_moves ?_)
    exact .refl
  · refine .some (.after State.resetRequest_moves ?_)
    exact .refl
  · refine .some (.ite ?_ ?_)
    · refine .ok (.after State.setNum_moves ?_)
      exact .refl
    · exact .error
  · exact .none

theorem hookNetwork_moves {idx : Nat} {sub : Nat} {v : Val} {s : State} : MovesH [.sent, .net] s (hookNetwork idx sub v s) := by
  delta hookNetwork
  extract_lets l1 l2 l3 l4
  refine .ite ?_ ?_
  · refine .ite ?_ ?_
    · exact .some .error
    · refine .ite ?_ ?_
      · exact .some .error
      · refine .some (.ok ?_)
        refine .after State.emit_moves (.net ?_)
        exact .refl
  · exact .none

theorem State.relatch_moves {s : State} : Moves [.objs] s (State.relatch s) := by
  delta State.relatch
  refine .forEach ?_ fun i1 t2 h_t2 => ?_
  · exact .refl
  · exact .after State.noteRail_moves h_t2

theorem State.modFlt_moves {s : State} {f : Flt → Flt} : Moves [.flt] s (State.modFlt s f) := by
  delta State.modFlt
  exact .flt .refl

theorem State.setReaction_moves {s : State} {src : Nat} {x : Reaction} : Moves [.flt] s (State.setReaction s src x) := by
  delta State.setReaction
  exact .after State.modFlt_moves .refl

theorem State.selectReaction_moves {s : State} {byte : Option Nat} {fallback : Option Nat} : MovesE [.flt] s (State.selectReaction s byte fallback) := by
  delta State.selectReaction
  extract_lets l1 l2 l3
  refine .ite ?_ ?_
  · exact .error
  · split
    · exact .error
    · refine .ok (.after State.setReaction_moves ?_)
      exact .refl

theorem hookFaults_moves {idx : Nat} {sub : Nat} {v : Val} {s : State} : MovesH [.fresh, .objs, .flt, .bbx] s (hookFaults idx sub v s) := by
  delta hookFaults
  extract_lets l1 l2
  split
  · refine .ite ?_ ?_
    · refine .some (.ite ?_ ?_)
      · refine .ok (.after State.setNum_moves ?_)
        exact .refl
      · exact .error
    · refine .some (.ok ?_)
      refine .after State.relatch_moves (.after State.modFlt_moves ?_)
      exact .after State.setNum_moves .refl
  · refine .some (.ok ?_)
    refine .after State.relatch_moves (.after State.setNum_moves ?_)
    exact .refl
  · refine .some (.ok ?_)
    refine .ite ?_ ?_
    · exact .after State.modFlt_moves .refl
    · exact .refl
  · refine .ite ?_ ?_
    · exact .some .error
    · split
      · exact .some .error
      · refine .some (.ok ?_)
        refine .forEach ?_ fun i3 t4 h_t4 => ?_
        · exact .after State.modFlt_moves .refl
        · exact .after State.setReaction_moves h_t4
  · refine .some (.ite ?_ ?_)
    · refine .ok (.after State.setNum_moves ?_)
      exact .refl
    · exact .error
  · refine .some (.after State.selectReaction_moves ?_)
    exact .refl
  · refine .some (.after State.selectReaction_moves ?_)
    exact .refl
  · refine .some (.ok ?_)
    refine .ite ?_ ?_
    · exact .after State.requestSnap_moves .refl
    · exact .refl
  · exact .none

theorem hookThermal_moves {idx : Nat} {sub : Nat} {_v : Val} {_s : State} : MovesH [] _s (hookThermal idx sub _v _s) := by
  delta hookThermal
  refine .ite ?_ ?_
  · exact .some .error
  · exact .none

theorem State.boltsLifted_moves {s : State} {d : Nat} : Moves [.objs] s (State.boltsLifted s d) := by
  delta State.boltsLifted
  extract_lets l1
  have h_l1 : ∀ a1 a2 a3 a4, Moves [.objs] s a1 → Moves [.objs] s (l1 a1 a2 a3 a4) := by
    intro a1 a2 a3 a4 h_a1
    unfold l1
    refine .foldl ?_ fun t2 i3 h_t2 => ?_
    · exact h_a1
    · exact .after State.showBolt_moves h_t2
  refine .ite ?_ ?_
  · exact h_l1 _ _ _ _ .refl
  · refine .ite ?_ ?_
    · exact h_l1 _ _ _ _ .refl
    · refine .ite ?_ ?_
      · refine .after State.showBolt_moves (h_l1 _ _ _ _ ?_)
        exact .refl
      · refine .ite ?_ ?_
        · refine .after State.showBolt_moves (h_l1 _ _ _ _ ?_)
          exact .refl
        · refine .ite ?_ ?_
          · refine .after State.showBolt_moves (h_l1 _ _ _ _ ?_)
            exact .refl
          · exact .refl

theorem State.bootFails_moves {s : State} {a : Image} {b : Image} : Moves [.fresh, .pwr] s (State.bootFails s a b) := by
  delta State.bootFails
  split
  · rename_i x1 x2 x3 x4
    have h_x3 : Moves [.fresh, .pwr] s x3 := by
      refine MovesP.of_eq x4 (.after State.freeBelow_moves ?_)
      exact .refl
    split
    · rename_i x5 x6 x7 x8
      have h_x7 : Moves [.fresh, .pwr] s x7 := by
        refine MovesP.of_eq x8 (.after State.freeBelow_moves ?_)
        exact h_x3
      exact .after State.modPwr_moves h_x7

theorem State.bootRecords_moves {s : State} {fresh : Bool} {a : Nat} {b : Nat} : Moves [.fresh, .objs, .pwr, .flt, .bbx] s (State.bootRecords s fresh a b) := by
  delta State.bootRecords
  split
  · rename_i x1 x2 x3 x4
    have h_x3 : Moves [.fresh, .objs, .pwr, .flt, .bbx] s x3 := by
      refine MovesP.of_eq x4 (.after State.freeBelow_moves ?_)
      exact .refl
    split
    · rename_i x5 x6 x7 x8
      have h_x7 : Moves [.fresh, .objs, .pwr, .flt, .bbx] s x7 := by
        refine MovesP.of_eq x8 (.after State.freeBelow_moves ?_)
        exact h_x3
      split
      · rename_i x9 x10 x11 x12
        have h_x11 : Moves [.fresh, .objs, .pwr, .flt, .bbx] s x11 := by
          refine MovesP.of_eq x12 (.after State.freeBelow_moves ?_)
          exact h_x7
        split
        · rename_i x13 x14 x15 x16
          have h_x15 : Moves [.fresh, .objs, .pwr, .flt, .bbx] s x15 := by
            refine MovesP.of_eq x16 (.after State.freeBelow_moves ?_)
            exact h_x11
          extract_lets l17 l18 l19 l20 l21 l22 l23 l24 l25 l26 l27
          have h_l27 : Moves [.fresh, .objs, .pwr, .flt, .bbx] s l27 := by
            unfold l27
            refine .forEach ?_ fun i28 t29 h_t29 => ?_
            · exact .flt h_x15
            · exact .after State.noteRail_moves h_t29
          refine .after State.modPwr_moves (.after State.modBbx_moves ?_)
          exact h_l27

theorem State.modTherm_moves {s : State} {f : Therm → Therm} : Moves [.therm] s (State.modTherm s f) := by
  delta State.modTherm
  exact .therm .refl

theorem State.calibrateNodes_moves {s : State} : Moves [.objs, .flt, .bbx, .therm] s (State.calibrateNodes s) := by
  delta State.calibrateNodes
  extract_lets l1 l2 l3 l4
  have h_l2 : Moves [.objs, .flt, .bbx, .therm] s l2 := by
    unfold l2
    exact .after State.modTherm_moves .refl
  have h_l4 : Moves [.objs, .flt, .bbx, .therm] s l4 := by
    unfold l4
    exact .after State.modTherm_moves h_l2
  refine .ite ?_ ?_
  · exact h_l2
  · refine .forEach ?_ fun i5 t6 h_t6 => ?_
    · exact h_l4
    · extract_lets l7 l8 l9 l10 l11 l12
      have h_l8 : Moves [.objs, .flt, .bbx, .therm] s l8 := by
        unfold l8
        exact .after State.modTherm_moves h_t6
      have h_l10 : Moves [.objs, .flt, .bbx, .therm] s l10 := by
        unfold l10
        exact .after State.raiseMax_moves h_l8
      have h_l12 : Moves [.objs, .flt, .bbx, .therm] s l12 := by
        unfold l12
        refine .ite ?_ ?_
        · exact .after State.raise_moves h_l10
        · exact h_l10
      exact .after State.modTherm_moves h_l12

theorem State.calibrateScale_moves {s : State} : Moves [.fresh, .therm] s (State.calibrateScale s) := by
  delta State.calibrateScale
  refine .forRange ?_ fun i1 t2 h_t2 => ?_
  · exact .refl
  · extract_lets l3 l4 l5 l6 l7
    split
    · rename_i x8 x9 x10 x11
      have h_x10 : Moves [.fresh, .therm] s x10 := by
        refine MovesP.of_eq x11 (.ite ?_ ?_)
        · split
          · rename_i x12 x13 x14 x15
            have h_x14 : Moves [.fresh, .therm] s x14 := by
              refine MovesP.of_eq x15 (.after State.freeBelow_moves ?_)
              exact h_t2
            exact .mk h_x14
        · exact .mk h_t2
      exact .after State.modTherm_moves h_x10

theorem State.checkBand_moves {s : State} : Moves [.objs, .flt, .bbx, .hlk, .therm] s (State.checkBand s) := by
  delta State.checkBand
  extract_lets l1 l2 l3 l4
  have h_l4 : ∀ a1, Moves [.objs, .flt, .bbx, .hlk, .therm] s (l4 a1) := by
    intro a1
    unfold l4
    extract_lets l5
    have h_l5 : Moves [.objs, .flt, .bbx, .hlk, .therm] s l5 := by
      unfold l5
      exact .after State.modTherm_moves .refl
    refine .after State.bandMoved_moves (.after State.raise_moves ?_)
    exact h_l5
  refine .ite ?_ ?_
  · refine h_l4 _
  · refine .ite ?_ ?_
    · refine h_l4 _
    · exact .refl

theorem State.selectEngines_moves {s : State} : Moves [.therm] s (State.selectEngines s) := by
  delta State.selectEngines
  extract_lets l1
  exact .after State.modTherm_moves .refl

theorem State.setLevel_moves {s : State} {l : Nat} : Moves [.objs, .flt, .bbx, .therm] s (State.setLevel s l) := by
  delta State.setLevel
  extract_lets l1 l2 l3
  have h_l2 : Moves [.objs, .flt, .bbx, .therm] s l2 := by
    unfold l2
    exact .after State.modTherm_moves .refl
  have h_l3 : Moves [.objs, .flt, .bbx, .therm] s l3 := by
    unfold l3
    refine .ite ?_ ?_
    · exact .after State.bump_moves h_l2
    · exact h_l2
  refine .after State.selectEngines_moves (.after State.raise_moves ?_)
  exact h_l3

theorem State.checkLadder_moves {s : State} : Moves [.objs, .flt, .bbx, .therm] s (State.checkLadder s) := by
  delta State.checkLadder
  split
  · extract_lets l1 l2
    have h_l2 : Moves [.objs, .flt, .bbx, .therm] s l2 := by
      unfold l2
      exact .after State.modTherm_moves .refl
    refine .ite ?_ ?_
    · refine .ite ?_ ?_
      · exact .refl
      · split
        · exact .after State.setLevel_moves .refl
        · refine .ite ?_ ?_
          · exact .refl
          · refine .after State.raise_moves (.after State.modTherm_moves ?_)
            exact .refl
    · refine .ite ?_ ?_
      · refine .ite ?_ ?_
        · exact h_l2
        · exact .after State.setLevel_moves h_l2
      · exact .refl

theorem State.checkPending_moves {s : State} : Moves [.fresh, .objs, .flt, .bbx, .therm] s (State.checkPending s) := by
  delta State.checkPending
  extract_lets l1 l2 l3
  have h_l1 : Moves [.fresh, .objs, .flt, .bbx, .therm] s l1 := by
    unfold l1
    refine .after State.bump_moves (.after State.modTherm_moves ?_)
    exact .refl
  have h_l2 : Moves [.fresh, .objs, .flt, .bbx, .therm] s l2 := by
    unfold l2
    exact .after State.raise_moves h_l1
  have h_l3 : Moves [.fresh, .objs, .flt, .bbx, .therm] s l3 := by
    unfold l3
    refine .ite ?_ ?_
    · exact h_l2
    · exact .after State.forceSnap_moves h_l2
  refine .ite ?_ ?_
  · refine .ite ?_ ?_
    · exact .after State.modTherm_moves .refl
    · exact .refl
  · refine .ite ?_ ?_
    · exact .refl
    · split
      · refine .ite ?_ ?_
        · exact .after State.setLevel_moves h_l3
        · exact h_l3
      · exact h_l3

theorem State.chipReset_moves {s : State} {cause : Nat} : Moves [.objs, .pwr, .flt, .bbx, .wilwa, .net, .tim, .rin, .fet, .mem, .dram, .pos, .lcg, .cmp, .sne, .fsq, .hlk, .hdg, .vis, .che, .mir, .therm] s (State.chipReset s cause) := by
  delta State.chipReset
  refine .after State.bump_moves ?_
  exact ⟨⟨fun p h => by cases p <;> first | exact absurd (by decide) h | rfl, fun _ => Memory.wf_nil, fun h => kvSorted_filter _ _ h,
    fun _ => State.seatsOk_nil (Wilwa.start_seats rfl)⟩, fun p h => by rw [Wilwa.start_seats rfl] at h; cases h⟩

theorem State.correct_moves {s : State} {q : Queued} {out : Nat} : MovesP [.fresh, .objs] s (State.correct s q out) := by
  delta State.correct
  extract_lets l1
  refine .ite ?_ ?_
  · split
    · rename_i x2 x3 x4 x5
      have h_x4 : Moves [.fresh, .objs] s x4 := by
        refine MovesP.of_eq x5 (.after State.free_moves ?_)
        exact .refl
      extract_lets l6
      split
      · rename_i x7 x8 x9 x10
        have h_x9 : Moves [.fresh, .objs] s x9 := by
          refine MovesP.of_eq x10 (.after State.freeQuot_moves ?_)
          exact h_x4
        extract_lets l11 l12
        have h_l12 : Moves [.fresh, .objs] s l12 := by
          unfold l12
          exact .after State.bump_moves h_x9
        split
        · rename_i x13 x14 x15 x16
          have h_x15 : Moves [.fresh, .objs] s x15 := by
            refine MovesP.of_eq x16 (.after State.freeQuot_moves ?_)
            exact h_l12
          split
          · rename_i x17 x18 x19 x20
            have h_x19 : Moves [.fresh, .objs] s x19 := by
              refine MovesP.of_eq x20 (.after State.fit_moves ?_)
              exact h_x15
            refine .mk (.after State.raiseMax_moves ?_)
            exact h_x19
  · exact .mk .refl

theorem State.dropShadow_moves {s : State} {p : Nat → Nat → Bool} : Moves [.wilwa] s (State.dropShadow s p) := by
  delta State.dropShadow
  extract_lets l1 l2
  exact .wilwa .refl

theorem State.domainLost_moves {s : State} {d : Nat} : Moves [.fresh, .objs, .flt, .wilwa, .net, .tim, .rin, .fet, .pos, .lcg, .cmp, .sne, .fsq, .hlk, .hdg, .vis, .che, .mir, .therm] s (State.domainLost s d) := by
  delta State.domainLost
  extract_lets mine l1 l2
  have h1 : Moves [.fresh, .objs, .flt, .wilwa, .net, .tim, .rin, .fet, .pos, .lcg, .cmp, .sne, .fsq, .hlk, .hdg, .vis, .che, .mir, .therm] s l1 := by
    unfold l1
    exact .after State.dropShadow_moves (.after State.clearObjs_moves .refl)
  refine .ite ?_ (.ite ?_ (.ite ?_ (.ite ?_ (.ite ?_ (.ite ?_ (.ite ?_ (.ite ?_ (.ite ?_ h1))))))))
  · refine .plainSeats (u := l1) h1 (fun p h => by cases p <;> first | exact absurd (by decide) h | rfl) (Wilwa.start_seats rfl)
  · exact .plain (u := l1) h1 (fun p h => by cases p <;> first | exact absurd (by decide) h | rfl)
  · exact .plain (u := l1) h1 (fun p h => by cases p <;> first | exact absurd (by decide) h | rfl)
  · refine .forRange ?_ fun i t h => .after State.barAtOnce_moves h
    exact .plain (u := l1) h1 (fun p h => by cases p <;> first | exact absurd (by decide) h | rfl)
  · exact .after State.enginesOff_moves h1
  · exact .after State.enginesOff_moves h1
  · exact .plain (u := l1) h1 (fun p h => by cases p <;> first | exact absurd (by decide) h | rfl)
  · exact .after State.visAtOnce_moves (.vis h1)
  · exact .mir h1

theorem State.slotsLost_moves {s : State} {d : Nat} : Moves [.sent, .objs, .rin, .fsq, .mir] s (State.slotsLost s d) := by
  delta State.slotsLost
  extract_lets l1 l2 l3
  have h_l2 : Moves [.sent, .objs, .rin, .fsq, .mir] s l2 := by
    unfold l2
    refine .forRange ?_ fun i4 t5 h_t5 => ?_
    · exact .refl
    · extract_lets l6 l7
      have h_l6 : Moves [.sent, .objs, .rin, .fsq, .mir] s l6 := by
        unfold l6
        refine .after State.setNum_moves (.after State.emptySlot_moves ?_)
        exact h_t5
      have h_l7 : Moves [.sent, .objs, .rin, .fsq, .mir] s l7 := by
        unfold l7
        refine .ite ?_ ?_
        · exact .after State.setNum_moves h_l6
        · exact h_l6
      refine .ite ?_ ?_
      · exact h_t5
      · refine .ite ?_ ?_
        · exact .after State.setNum_moves h_l7
        · exact h_l7
  refine .ite ?_ ?_
  · refine .ite ?_ ?_
    · exact .fsq h_l2
    · exact h_l2
  · exact .refl

theorem State.setDomain_moves {s : State} {d : Nat} {st : DomSt} : Moves [.fresh, .sent, .objs, .pwr, .flt, .bbx, .wilwa, .net, .tim, .rin, .fet, .mem, .dram, .pos, .lcg, .cmp, .sne, .fsq, .hlk, .hdg, .vis, .che, .mir, .therm] s (State.setDomain s d st) := by
  delta State.setDomain
  extract_lets l1 l2 l3 l4 l5
  have h_l2 : ∀ a1, Moves [.fresh, .sent, .objs, .pwr, .flt, .bbx, .wilwa, .net, .tim, .rin, .fet, .mem, .dram, .pos, .lcg, .cmp, .sne, .fsq, .hlk, .hdg, .vis, .che, .mir, .therm] s a1 → Moves [.fresh, .sent, .objs, .pwr, .flt, .bbx, .wilwa, .net, .tim, .rin, .fet, .mem, .dram, .pos, .lcg, .cmp, .sne, .fsq, .hlk, .hdg, .vis, .che, .mir, .therm] s (l2 a1) := by
    intro a1 h_a1
    unfold l2
    exact .after State.modPwr_moves h_a1
  have h_l4 : Moves [.fresh, .sent, .objs, .pwr, .flt, .bbx, .wilwa, .net, .tim, .rin, .fet, .mem, .dram, .pos, .lcg, .cmp, .sne, .fsq, .hlk, .hdg, .vis, .che, .mir, .therm] s l4 := by
    unfold l4
    refine .ite ?_ ?_
    · exact .after State.measAbandon_moves .refl
    · exact .refl
  have h_l5 : Moves [.fresh, .sent, .objs, .pwr, .flt, .bbx, .wilwa, .net, .tim, .rin, .fet, .mem, .dram, .pos, .lcg, .cmp, .sne, .fsq, .hlk, .hdg, .vis, .che, .mir, .therm] s l5 := by
    unfold l5
    exact h_l2 _ .refl
  refine .ite ?_ ?_
  · exact .refl
  · refine .ite ?_ ?_
    · split
      · rename_i x6
        refine .forEach ?_ fun i7 t8 h_t8 => ?_
        · refine h_l2 _ (.after State.slotsLost_moves ?_)
          exact .refl
        · exact .after State.chanOff_moves h_t8
      · rename_i x9
        refine h_l2 _ ?_
        refine .forEach ?_ fun i10 t11 h_t11 => ?_
        · exact .refl
        · exact .after State.chanRetain_moves h_t11
      · rename_i x12
        refine .forEach ?_ fun i13 t14 h_t14 => ?_
        · exact h_l2 _ .refl
        · exact .after State.chanOn_moves h_t14
    · refine .ite ?_ ?_
      · refine .after State.delaysChanged_moves (h_l2 _ ?_)
        refine .after State.domainLost_moves (.after State.boltsLifted_moves ?_)
        exact h_l4
      · refine .ite ?_ ?_
        · exact .therm h_l5
        · refine .ite ?_ ?_
          · exact .tim h_l5
          · refine .ite ?_ ?_
            · exact .after State.enginesOn_moves h_l5
            · refine .ite ?_ ?_
              · exact .after State.enginesOn_moves h_l5
              · refine .ite ?_ ?_
                · exact .after State.mirLink_moves h_l5
                · exact h_l5

theorem State.applyDomains_moves {f : Option (Nat × Nat)} {l : List (Nat × DomSt)} {s : State} : Moves [.fresh, .sent, .objs, .pwr, .flt, .bbx, .wilwa, .net, .tim, .rin, .fet, .mem, .dram, .pos, .lcg, .cmp, .sne, .fsq, .hlk, .hdg, .vis, .che, .mir, .therm] s (State.applyDomains f l s) := by
  induction l generalizing s with
  | nil => exact .refl
  | cons p l ih =>
    cases f with
    | none => exact .after ih (.after State.setDomain_moves .refl)
    | some q =>
      simp only [State.applyDomains]
      exact .ite (.after State.raise_moves .refl) (.after ih (.after State.setDomain_moves .refl))

theorem State.domainsDone_moves {s : State} {w : DomWork} {failed : Option (Nat × Nat)} : Moves [.fresh, .sent, .objs, .pwr, .flt, .bbx, .wilwa, .net, .tim, .rin, .fet, .mem, .dram, .pos, .lcg, .cmp, .sne, .fsq, .hlk, .hdg, .vis, .che, .mir, .therm] s (State.domainsDone s w failed) := by
  delta State.domainsDone
  extract_lets l1 l2 l3 l4 l5
  have h_l1 : Moves [.fresh, .sent, .objs, .pwr, .flt, .bbx, .wilwa, .net, .tim, .rin, .fet, .mem, .dram, .pos, .lcg, .cmp, .sne, .fsq, .hlk, .hdg, .vis, .che, .mir, .therm] s l1 := by
    unfold l1
    exact .after State.applyDomains_moves .refl
  have h_l2 : Moves [.fresh, .sent, .objs, .pwr, .flt, .bbx, .wilwa, .net, .tim, .rin, .fet, .mem, .dram, .pos, .lcg, .cmp, .sne, .fsq, .hlk, .hdg, .vis, .che, .mir, .therm] s l2 := by
    unfold l2
    exact .mem h_l1
  have h_l3 : Moves [.fresh, .sent, .objs, .pwr, .flt, .bbx, .wilwa, .net, .tim, .rin, .fet, .mem, .dram, .pos, .lcg, .cmp, .sne, .fsq, .hlk, .hdg, .vis, .che, .mir, .therm] s l3 := by
    unfold l3
    exact .after State.modPwr_moves h_l2
  have h_l5 : Moves [.fresh, .sent, .objs, .pwr, .flt, .bbx, .wilwa, .net, .tim, .rin, .fet, .mem, .dram, .pos, .lcg, .cmp, .sne, .fsq, .hlk, .hdg, .vis, .che, .mir, .therm] s l5 := by
    unfold l5
    refine .ite ?_ ?_
    · exact .after State.enter_moves h_l3
    · refine .ite ?_ ?_
      · exact .after State.enter_moves h_l3
      · exact h_l3
  refine .ite ?_ ?_
  · exact .after State.irq_moves h_l5
  · exact h_l5

theorem State.emergencyTo_moves {s : State} {x : Record} {y : Session} : Moves [.sent, .wilwa] s (State.emergencyTo s x y) := by
  delta State.emergencyTo
  extract_lets l1
  have h_l1 : Moves [.sent, .wilwa] s l1 := by
    unfold l1
    exact .after (State.modSession_moves (fun _ => ⟨rfl, rfl⟩)) .refl
  exact .after State.sendDgram_moves h_l1

theorem State.firmware_moves {s : State} {a : Image} {b : Image} : MovesS [.objs, .pwr] s (State.firmware s a b) := by
  delta State.firmware
  extract_lets l1 l2 l3 l4 l5
  have h_l4 : Moves [.objs, .pwr] s l4 := by
    unfold l4
    exact .after State.setNum_moves .refl
  have h_l5 : Moves [.objs, .pwr] s l5 := by
    unfold l5
    refine .after State.setNum_moves (.after State.setNum_moves ?_)
    exact h_l4
  refine .ite ?_ ?_
  · exact .none
  · refine .some (.after State.modPwr_moves ?_)
    exact .after State.setNum_moves h_l5

theorem State.modEgress_moves {s : State} {o : Nat} {f : Egress → Egress} : Moves [.net] s (State.modEgress s o f) := by
  delta State.modEgress
  extract_lets l1
  exact .net .refl

theorem State.transmit_moves {s : State} {o : Nat} : Moves [.fresh, .sent, .objs, .net] s (State.transmit s o) := by
  delta State.transmit
  extract_lets l1
  refine .ite ?_ ?_
  · exact .refl
  · split
    · exact .refl
    · split
      · exact .refl
      · split
        · rename_i x2 x3 x4 x5
          have h_x4 : Moves [.fresh, .sent, .objs, .net] s x4 := by
            refine MovesP.of_eq x5 (.after State.free_moves ?_)
            exact .refl
          extract_lets l6 l7
          have h_l7 : Moves [.fresh, .sent, .objs, .net] s l7 := by
            unfold l7
            exact .after State.modEgress_moves h_x4
          split
          · rename_i x8 x9 x10 x11
            have h_x10 : Moves [.fresh, .sent, .objs, .net] s x10 := by
              refine MovesP.of_eq x11 (.after State.correct_moves ?_)
              exact h_l7
            extract_lets l12
            have h_l12 : Moves [.fresh, .sent, .objs, .net] s l12 := by
              unfold l12
              exact .after State.emit_moves h_x10
            refine .ite ?_ ?_
            · exact .after State.answerFrame_moves h_l12
            · exact h_l12

theorem State.forwardTo_moves {s : State} {f : Frame} {port : Nat} {asks : Option IpAsk} {out : Nat} : Moves [.fresh, .sent, .objs, .flt, .bbx, .net] s (State.forwardTo s f port asks out) := by
  delta State.forwardTo
  extract_lets l1 l2 l3
  refine .ite ?_ ?_
  · exact .refl
  · refine .ite ?_ ?_
    · exact .refl
    · refine .ite ?_ ?_
      · exact .refl
      · refine .ite ?_ ?_
        · refine .after State.raise_moves (.after State.bump_moves ?_)
          exact .refl
        · refine .after State.transmit_moves (.after State.modEgress_moves ?_)
          exact .refl

theorem State.latchTrip_moves {s : State} : Moves [.fresh, .sent, .objs, .pwr, .flt, .bbx, .wilwa, .mem, .dram, .fsq, .hlk, .hdg] s (State.latchTrip s) := by
  delta State.latchTrip
  refine .ite ?_ ?_
  · exact .refl
  · refine .after State.stopFiring_moves (.after State.releaseAll_moves ?_)
    exact .after State.modPwr_moves .refl

theorem State.learn_moves {s : State} {mac : BitVec 48} {port : Nat} : Moves [.net] s (State.learn s mac port) := by
  delta State.learn
  extract_lets l1
  refine .ite ?_ ?_
  · exact .refl
  · refine .ite ?_ ?_
    · exact .net .refl
    · exact .refl

theorem State.log_moves {s : State} {x : Record} : Moves [.flt, .bbx] s (State.log s x) := by
  delta State.log
  extract_lets l1 l2
  have h_l2 : Moves [.flt, .bbx] s l2 := by
    unfold l2
    exact .after State.modBbx_moves .refl
  exact .after State.modFlt_moves h_l2

theorem State.reactBolt_moves {s : State} {r : Report} : Moves [.fresh, .sent, .objs, .flt, .bbx, .wilwa, .mem, .dram, .cmp, .sne, .fsq, .hlk, .hdg, .vis, .mir] s (State.reactBolt s r) := by
  delta State.reactBolt
  extract_lets l1
  refine .ite ?_ ?_
  · exact .after State.bolt_moves .refl
  · exact .refl

theorem State.reactFirst_moves {s : State} {r : Report} {bits : Nat} : Moves [.fresh, .sent, .objs, .flt, .bbx, .wilwa, .mem, .dram, .cmp, .sne, .fsq, .hlk, .hdg, .vis, .mir] s (State.reactFirst s r bits) := by
  delta State.reactFirst
  extract_lets l1
  have h_l1 : Moves [.fresh, .sent, .objs, .flt, .bbx, .wilwa, .mem, .dram, .cmp, .sne, .fsq, .hlk, .hdg, .vis, .mir] s l1 := by
    unfold l1
    refine .ite ?_ ?_
    · exact .after State.reactBolt_moves .refl
    · exact .refl
  refine .ite ?_ ?_
  · exact .after State.modFlt_moves h_l1
  · exact h_l1

theorem State.reactIrq_moves {s : State} {x : Record} : Moves [.sent, .objs, .wilwa] s (State.reactIrq s x) := by
  delta State.reactIrq
  extract_lets l1
  refine .forEach ?_ fun i2 t3 h_t3 => ?_
  · exact .after State.irq_moves .refl
  · exact .after State.emergencyTo_moves h_t3

theorem State.reactTrap_moves {s : State} : Moves [.fresh, .sent, .objs, .pwr, .flt, .bbx, .wilwa, .mem, .dram, .fsq, .hlk, .hdg, .mir] s (State.reactTrap s) := by
  delta State.reactTrap
  refine .ite ?_ ?_
  · exact .after State.enterFrozen_moves .refl
  · exact .refl

theorem State.reactChipReset_moves {s : State} : Moves [.fresh, .sent, .objs, .pwr, .flt, .bbx, .wilwa, .mem, .dram, .fsq, .hlk, .hdg] s (State.reactChipReset s) := by
  delta State.reactChipReset
  extract_lets l1
  have h_l1 : Moves [.fresh, .sent, .objs, .pwr, .flt, .bbx, .wilwa, .mem, .dram, .fsq, .hlk, .hdg] s l1 := by
    unfold l1
    refine State.withRelease_moves ?_ fun t2 h_t2 => ?_
    · exact .refl
    · exact .after State.modPwr_moves h_t2
  exact .after State.stopFiring_moves h_l1

theorem State.reactAfter_moves {s : State} {r : Report} {bits : Nat} {x : Record} : Moves [.fresh, .sent, .objs, .pwr, .flt, .bbx, .wilwa, .rin, .fet, .mem, .dram, .pos, .lcg, .cmp, .sne, .fsq, .hlk, .hdg, .vis, .che, .mir] s (State.reactAfter s r bits x) := by
  delta State.reactAfter
  extract_lets l1 l2 l3 l4 l5
  have h_l1 : Moves [.fresh, .sent, .objs, .pwr, .flt, .bbx, .wilwa, .rin, .fet, .mem, .dram, .pos, .lcg, .cmp, .sne, .fsq, .hlk, .hdg, .vis, .che, .mir] s l1 := by
    unfold l1
    refine .ite ?_ ?_
    · exact .after State.reactIrq_moves .refl
    · exact .refl
  have h_l2 : Moves [.fresh, .sent, .objs, .pwr, .flt, .bbx, .wilwa, .rin, .fet, .mem, .dram, .pos, .lcg, .cmp, .sne, .fsq, .hlk, .hdg, .vis, .che, .mir] s l2 := by
    unfold l2
    refine .ite ?_ ?_
    · exact .after State.reactTrap_moves h_l1
    · exact h_l1
  have h_l3 : Moves [.fresh, .sent, .objs, .pwr, .flt, .bbx, .wilwa, .rin, .fet, .mem, .dram, .pos, .lcg, .cmp, .sne, .fsq, .hlk, .hdg, .vis, .che, .mir] s l3 := by
    unfold l3
    refine .ite ?_ ?_
    · exact .after State.blockReset_moves h_l2
    · exact h_l2
  have h_l4 : Moves [.fresh, .sent, .objs, .pwr, .flt, .bbx, .wilwa, .rin, .fet, .mem, .dram, .pos, .lcg, .cmp, .sne, .fsq, .hlk, .hdg, .vis, .che, .mir] s l4 := by
    unfold l4
    refine .ite ?_ ?_
    · exact .after State.reactChipReset_moves h_l3
    · exact h_l3
  have h_l5 : Moves [.fresh, .sent, .objs, .pwr, .flt, .bbx, .wilwa, .rin, .fet, .mem, .dram, .pos, .lcg, .cmp, .sne, .fsq, .hlk, .hdg, .vis, .che, .mir] s l5 := by
    unfold l5
    refine .ite ?_ ?_
    · exact h_l4
    · exact .after State.modFlt_moves h_l4
  refine .ite ?_ ?_
  · exact .after State.forceSnap_moves h_l5
  · exact h_l5

theorem State.takeReport_moves {s : State} {r : Report} : Moves [.fresh, .sent, .objs, .pwr, .flt, .bbx, .wilwa, .rin, .fet, .mem, .dram, .pos, .lcg, .cmp, .sne, .fsq, .hlk, .hdg, .vis, .che, .mir] s (State.takeReport s r) := by
  delta State.takeReport
  extract_lets l1 l2 l3
  have h_l2 : Moves [.fresh, .sent, .objs, .pwr, .flt, .bbx, .wilwa, .rin, .fet, .mem, .dram, .pos, .lcg, .cmp, .sne, .fsq, .hlk, .hdg, .vis, .che, .mir] s l2 := by
    unfold l2
    exact .after State.reactFirst_moves .refl
  refine .after State.reactAfter_moves (.after State.log_moves ?_)
  exact h_l2

theorem State.logLost_moves {s : State} : Moves [.fresh, .sent, .objs, .pwr, .flt, .bbx, .wilwa, .rin, .fet, .mem, .dram, .pos, .lcg, .cmp, .sne, .fsq, .hlk, .hdg, .vis, .che, .mir] s (State.logLost s) := by
  delta State.logLost
  extract_lets l1
  refine .ite ?_ ?_
  · exact .refl
  · refine .after State.takeReport_moves (.after State.modFlt_moves ?_)
    exact .refl

theorem State.phySetup_moves {s : State} : Moves [.sent] s (State.phySetup s) := by
  delta State.phySetup
  refine .forEach ?_ fun i1 t2 h_t2 => ?_
  · exact .refl
  · exact .after State.emit_moves h_t2

theorem State.powerOnReset_moves {s : State} : Moves [.objs, .pwr, .flt, .bbx, .wilwa, .net, .tim, .rin, .fet, .mem, .dram, .pos, .lcg, .cmp, .sne, .fsq, .hlk, .hdg, .vis, .che, .mir, .therm, .aonDiodes] s (State.powerOnReset s) :=
  ⟨⟨fun p h => by cases p <;> first | exact absurd (by decide) h | rfl, fun _ => Memory.wf_nil, fun h => kvSorted_filter _ _ h,
    fun _ => State.seatsOk_nil (Wilwa.start_seats rfl)⟩, fun p h => by rw [Wilwa.start_seats rfl] at h; cases h⟩

theorem State.roundFaults_moves {s : State} : Moves [.objs, .flt, .bbx, .therm] s (State.roundFaults s) := by
  delta State.roundFaults
  extract_lets l1
  have h_l1 : Moves [.objs, .flt, .bbx, .therm] s l1 := by
    unfold l1
    refine .forRange ?_ fun i2 t3 h_t3 => ?_
    · exact .refl
    · refine .ite ?_ ?_
      · exact h_t3
      · exact .after State.raise_moves h_t3
  refine .forRange ?_ fun i4 t5 h_t5 => ?_
  · exact h_l1
  · extract_lets l6 l7 l8
    have h_l8 : Moves [.objs, .flt, .bbx, .therm] s l8 := by
      unfold l8
      exact .after State.modTherm_moves h_t5
    refine .ite ?_ ?_
    · exact .after State.raise_moves h_l8
    · exact h_l8

theorem State.serveEgress_moves {s : State} : Moves [.fresh, .sent, .objs, .net] s (State.serveEgress s) := by
  delta State.serveEgress
  refine .ite ?_ ?_
  · refine .forRange ?_ fun i1 t2 h_t2 => ?_
    · exact .refl
    · exact .after State.transmit_moves h_t2
  · exact .refl

theorem State.setLink_moves {s : State} {port : Nat} {v : Nat} : Moves [.objs] s (State.setLink s port v) := by
  delta State.setLink
  extract_lets l1 l2
  have h_l1 : Moves [.objs] s l1 := by
    unfold l1
    exact .after State.setNum_moves .refl
  refine .forEach ?_ fun i3 t4 h_t4 => ?_
  · exact h_l1
  · exact .after State.setNum_moves h_t4

theorem State.snapNow_moves {s : State} : Moves [.fresh, .flt, .bbx] s (State.snapNow s) := by
  delta State.snapNow
  refine .ite ?_ ?_
  · refine .after State.requestSnap_moves (.after State.modFlt_moves ?_)
    exact .refl
  · exact .refl

theorem State.takeHot_moves {s : State} : Moves [.fresh, .therm] s (State.takeHot s) := by
  delta State.takeHot
  extract_lets l1 l2
  refine .ite ?_ ?_
  · split
    · exact .after State.modTherm_moves .refl
    · exact .refl
  · split
    · exact .after State.modTherm_moves .refl
    · split
      · rename_i x3 x4 x5 x6
        have h_x5 : Moves [.fresh, .therm] s x5 := by
          refine MovesP.of_eq x6 (.after State.freeBelow_moves ?_)
          exact .refl
        exact .after State.modTherm_moves h_x5

theorem State.termValue_moves {s : State} {v : Option Nat} : MovesP [.fresh] s (State.termValue s v) := by
  delta State.termValue
  split
  · refine .ite ?_ ?_
    · exact .mk .refl
    · exact .after State.freeBelow_moves .refl
  · exact .after State.freeBelow_moves .refl

theorem execSuppliesInRange_moves {s : State} : MovesO [.objs, .pwr, .flt, .bbx, .wilwa, .net, .tim, .rin, .fet, .mem, .dram, .pos, .lcg, .cmp, .sne, .fsq, .hlk, .hdg, .vis, .che, .mir, .therm, .aonDiodes] s (execSuppliesInRange s) := by
  delta execSuppliesInRange
  extract_lets l1
  have h_l1 : Moves [.objs, .pwr, .flt, .bbx, .wilwa, .net, .tim, .rin, .fet, .mem, .dram, .pos, .lcg, .cmp, .sne, .fsq, .hlk, .hdg, .vis, .che, .mir, .therm, .aonDiodes] s l1 := by
    unfold l1
    exact .after State.modPwr_moves .refl
  refine .next (.ite ?_ ?_)
  · refine .after State.modPwr_moves (.after State.powerOnReset_moves ?_)
    exact h_l1
  · exact h_l1

theorem execSupplyOutOfRange_moves {supply : Fin 8} {s : State} : MovesO [.objs, .pwr, .flt, .bbx, .wilwa, .net, .tim, .rin, .fet, .mem, .dram, .pos, .lcg, .cmp, .sne, .fsq, .hlk, .hdg, .vis, .che, .mir, .therm, .aonDiodes] s (execSupplyOutOfRange supply s) := by
  delta execSupplyOutOfRange
  extract_lets l1
  have h_l1 : Moves [.objs, .pwr, .flt, .bbx, .wilwa, .net, .tim, .rin, .fet, .mem, .dram, .pos, .lcg, .cmp, .sne, .fsq, .hlk, .hdg, .vis, .che, .mir, .therm, .aonDiodes] s l1 := by
    unfold l1
    exact .after State.modPwr_moves .refl
  refine .next (.after State.modPwr_moves ?_)
  exact .after State.powerOnReset_moves h_l1

theorem execPorstLow_moves {s : State} : MovesO [.objs, .pwr, .flt, .bbx, .wilwa, .net, .tim, .rin, .fet, .mem, .dram, .pos, .lcg, .cmp, .sne, .fsq, .hlk, .hdg, .vis, .che, .mir, .therm, .aonDiodes] s (execPorstLow s) := by
  delta execPorstLow
  extract_lets l1
  have h_l1 : Moves [.objs, .pwr, .flt, .bbx, .wilwa, .net, .tim, .rin, .fet, .mem, .dram, .pos, .lcg, .cmp, .sne, .fsq, .hlk, .hdg, .vis, .che, .mir, .therm, .aonDiodes] s l1 := by
    unfold l1
    exact .after State.modPwr_moves .refl
  refine .ite ?_ ?_
  · exact .next h_l1
  · refine .ite ?_ ?_
    · exact .next h_l1
    · refine .next (.after State.modPwr_moves ?_)
      exact .after State.powerOnReset_moves h_l1

theorem execPorstRise_moves {s : State} : MovesO [.pwr] s (execPorstRise s) := by
  delta execPorstRise
  extract_lets l1
  have h_l1 : Moves [.pwr] s l1 := by
    unfold l1
    exact .after State.modPwr_moves .refl
  refine .next (.ite ?_ ?_)
  · exact .after State.modPwr_moves h_l1
  · exact h_l1

theorem execBootComplete_moves {a : Image} {b : Image} {s : State} : MovesO [.fresh, .sent, .objs, .pwr, .flt, .bbx] s (execBootComplete a b s) := by
  delta execBootComplete
  refine .ite ?_ ?_
  · exact .next .refl
  · split
    · rename_i x1 x2
      refine .next (.after State.modPwr_moves ?_)
      exact .after State.bootFails_moves .refl
    · rename_i x3 x4 x5
      have h_x4 : Moves [.fresh, .sent, .objs, .pwr, .flt, .bbx] s x4 := by
        refine MovesS.of_eq x5 (.after State.firmware_moves ?_)
        exact .refl
      extract_lets l6
      split
      · rename_i x7 x8 x9 x10
        have h_x9 : Moves [.fresh, .sent, .objs, .pwr, .flt, .bbx] s x9 := by
          refine MovesP.of_eq x10 (.after State.freeQuot_moves ?_)
          exact h_x4
        split
        · rename_i x11 x12 x13 x14
          have h_x13 : Moves [.fresh, .sent, .objs, .pwr, .flt, .bbx] s x13 := by
            refine MovesP.of_eq x14 (.after State.fit_moves ?_)
            exact h_x9
          extract_lets l15 l16
          have h_l15 : Moves [.fresh, .sent, .objs, .pwr, .flt, .bbx] s l15 := by
            unfold l15
            exact .after State.setNum_moves h_x13
          have h_l16 : Moves [.fresh, .sent, .objs, .pwr, .flt, .bbx] s l16 := by
            unfold l16
            refine .after State.phySetup_moves (.after State.enter_moves ?_)
            exact .after State.modPwr_moves h_l15
          refine .next (.after State.bootRecords_moves ?_)
          exact h_l16

theorem execVddAonRemoved_moves {s : State} : MovesO [.objs, .pwr, .flt, .bbx, .wilwa, .net, .tim, .rin, .fet, .mem, .dram, .pos, .lcg, .cmp, .sne, .fsq, .hlk, .hdg, .vis, .che, .mir, .therm, .aonDiodes] s (execVddAonRemoved s) := by
  delta execVddAonRemoved
  extract_lets l1
  have h_l1 : Moves [.objs, .pwr, .flt, .bbx, .wilwa, .net, .tim, .rin, .fet, .mem, .dram, .pos, .lcg, .cmp, .sne, .fsq, .hlk, .hdg, .vis, .che, .mir, .therm, .aonDiodes] s l1 := by
    unfold l1
    exact .after State.modPwr_moves .refl
  refine .next (.after State.modPwr_moves ?_)
  exact .after State.powerOnReset_moves h_l1

theorem execChipReset_moves {s : State} : MovesO [.objs, .pwr, .flt, .bbx, .wilwa, .net, .tim, .rin, .fet, .mem, .dram, .pos, .lcg, .cmp, .sne, .fsq, .hlk, .hdg, .vis, .che, .mir, .therm] s (execChipReset s) := by
  delta execChipReset
  split
  · refine .next (.ite ?_ ?_)
    · exact .refl
    · exact .after State.chipReset_moves .refl
  · exact .next .refl

theorem execDomainSequenceDone_moves {failed : Option (Fin 12 × BitVec 32)} {s : State} : MovesO [.fresh, .sent, .objs, .pwr, .flt, .bbx, .wilwa, .net, .tim, .rin, .fet, .mem, .dram, .pos, .lcg, .cmp, .sne, .fsq, .hlk, .hdg, .vis, .che, .mir, .therm] s (execDomainSequenceDone failed s) := by
  delta execDomainSequenceDone
  split
  · refine .next (.ite ?_ ?_)
    · exact .refl
    · exact .after State.domainsDone_moves .refl
  · exact .next .refl

theorem execMgtNetOffDelayExpiry_moves {s : State} : MovesO [.fresh, .sent, .objs, .pwr, .flt, .bbx, .wilwa, .net, .tim, .rin, .fet, .mem, .dram, .pos, .lcg, .cmp, .sne, .fsq, .hlk, .hdg, .vis, .che, .mir, .therm] s (execMgtNetOffDelayExpiry s) := by
  delta execMgtNetOffDelayExpiry
  split
  · refine .next (.ite ?_ ?_)
    · exact .after State.domainsDone_moves .refl
    · exact .refl
  · exact .next .refl

theorem execWakeNAssert_moves {a : Image} {b : Image} {s : State} : MovesO [.fresh, .sent, .objs, .pwr, .flt, .bbx, .wilwa, .net, .tim, .rin, .fet, .mem, .dram, .pos, .lcg, .cmp, .sne, .fsq, .hlk, .hdg, .vis, .che, .mir, .therm] s (execWakeNAssert a b s) := by
  delta execWakeNAssert
  extract_lets l1 l2
  have h_l1 : Moves [.fresh, .sent, .objs, .pwr, .flt, .bbx, .wilwa, .net, .tim, .rin, .fet, .mem, .dram, .pos, .lcg, .cmp, .sne, .fsq, .hlk, .hdg, .vis, .che, .mir, .therm] s l1 := by
    unfold l1
    exact .after State.bump_moves .refl
  have h_l2 : Moves [.fresh, .sent, .objs, .pwr, .flt, .bbx, .wilwa, .net, .tim, .rin, .fet, .mem, .dram, .pos, .lcg, .cmp, .sne, .fsq, .hlk, .hdg, .vis, .che, .mir, .therm] s l2 := by
    unfold l2
    exact .after State.bump_moves .refl
  refine .ite ?_ ?_
  · exact .next .refl
  · refine .ite ?_ ?_
    · refine .next (.after State.raise_moves ?_)
      exact h_l1
    · split
      · rename_i x3 x4
        refine .next (.after State.bootFails_moves ?_)
        exact h_l2
      · rename_i x5 x6 x7
        have h_x6 : Moves [.fresh, .sent, .objs, .pwr, .flt, .bbx, .wilwa, .net, .tim, .rin, .fet, .mem, .dram, .pos, .lcg, .cmp, .sne, .fsq, .hlk, .hdg, .vis, .che, .mir, .therm] s x6 := by
          refine MovesS.of_eq x7 (.after State.firmware_moves ?_)
          exact h_l2
        extract_lets l8
        have h_l8 : Moves [.fresh, .sent, .objs, .pwr, .flt, .bbx, .wilwa, .net, .tim, .rin, .fet, .mem, .dram, .pos, .lcg, .cmp, .sne, .fsq, .hlk, .hdg, .vis, .che, .mir, .therm] s l8 := by
          unfold l8
          refine .after State.setDomain_moves (.after State.setDomain_moves ?_)
          exact h_x6
        split
        · rename_i x9 x10 x11 x12
          have h_x11 : Moves [.fresh, .sent, .objs, .pwr, .flt, .bbx, .wilwa, .net, .tim, .rin, .fet, .mem, .dram, .pos, .lcg, .cmp, .sne, .fsq, .hlk, .hdg, .vis, .che, .mir, .therm] s x11 := by
            refine MovesP.of_eq x12 (.after State.freeBelow_moves ?_)
            exact h_l8
          extract_lets l13
          have h_l13 : Moves [.fresh, .sent, .objs, .pwr, .flt, .bbx, .wilwa, .net, .tim, .rin, .fet, .mem, .dram, .pos, .lcg, .cmp, .sne, .fsq, .hlk, .hdg, .vis, .che, .mir, .therm] s l13 := by
            unfold l13
            refine .after State.phySetup_moves (.after State.setNum_moves ?_)
            exact h_x11
          refine .next (.after State.bootRecords_moves ?_)
          exact h_l13

theorem execFrameForward_moves {port : Fin 3} {frame : Frame} {asks : Option IpAsk} {s : State} : MovesO [.fresh, .sent, .objs, .flt, .bbx, .net] s (execFrameForward port frame asks s) := by
  delta execFrameForward
  extract_lets l1 l2 l3 l4 l5
  have h_l2 : Moves [.fresh, .sent, .objs, .flt, .bbx, .net] s l2 := by
    unfold l2
    exact .after State.serveEgress_moves .refl
  have h_l3 : Moves [.fresh, .sent, .objs, .flt, .bbx, .net] s l3 := by
    unfold l3
    refine .ite ?_ ?_
    · exact h_l2
    · exact .after State.bump_moves h_l2
  have h_l4 : Moves [.fresh, .sent, .objs, .flt, .bbx, .net] s l4 := by
    unfold l4
    refine .ite ?_ ?_
    · exact .after State.bump_moves h_l3
    · exact h_l3
  have h_l5 : Moves [.fresh, .sent, .objs, .flt, .bbx, .net] s l5 := by
    unfold l5
    refine .ite ?_ ?_
    · exact .after State.learn_moves h_l4
    · exact h_l4
  refine .ite ?_ ?_
  · exact .next .refl
  · refine .ite ?_ ?_
    · exact .next h_l5
    · refine .next ?_
      refine .forEach ?_ fun i6 t7 h_t7 => ?_
      · exact h_l5
      · exact .after State.forwardTo_moves h_t7

theorem execAddressChangeEffect_moves {s : State} : MovesO [.fresh, .objs, .wilwa, .sne, .fsq, .hdg] s (execAddressChangeEffect s) := by
  delta execAddressChangeEffect
  refine .ite ?_ ?_
  · refine .next (.after State.commitDone_moves ?_)
    refine .after State.barsTakeUp_moves (.after State.liveWhere_moves ?_)
    exact .refl
  · exact .next .refl

theorem execMdioTransactionDone_moves {answer : Option (BitVec 16)} {s : State} : MovesO [.objs, .net] s (execMdioTransactionDone answer s) := by
  delta execMdioTransactionDone
  split
  · extract_lets l1 l2
    have h_l2 : Moves [.objs, .net] s l2 := by
      unfold l2
      exact .net .refl
    refine .ite ?_ ?_
    · refine .next (.after State.setNum_moves ?_)
      exact h_l2
    · exact .next h_l2
  · exact .next .refl

theorem execNetworkLinkUp_moves {port : Fin 2} {speed : BitVec 2} {fullDuplex : Bool} {autoneg : Bool} {s : State} : MovesO [.objs] s (execNetworkLinkUp port speed fullDuplex autoneg s) := by
  delta execNetworkLinkUp
  refine .ite ?_ ?_
  · refine .next (.after State.setLink_moves ?_)
    exact .refl
  · exact .next .refl

theorem execNetworkLinkLost_moves {port : Fin 2} {s : State} : MovesO [.objs, .flt, .bbx] s (execNetworkLinkLost port s) := by
  delta execNetworkLinkLost
  extract_lets l1 l2
  refine .ite ?_ ?_
  · refine .next (.after State.raise_moves ?_)
    exact .after State.setLink_moves .refl
  · exact .next .refl

theorem execSpeedAdviceUpdate_moves {s : State} : MovesO [.fresh, .objs] s (execSpeedAdviceUpdate s) := by
  delta execSpeedAdviceUpdate
  extract_lets l1 l2 l3 l4 l5
  refine .ite ?_ ?_
  · exact .next .refl
  · refine .ite ?_ ?_
    · refine .next (.after State.setNum_moves ?_)
      exact .after State.setNum_moves .refl
    · split
      · rename_i x6 x7 x8 x9
        have h_x8 : Moves [.fresh, .objs] s x8 := by
          refine MovesP.of_eq x9 (.after State.adviceData_moves ?_)
          exact .refl
        split
        · rename_i x10 x11 x12 x13
          have h_x12 : Moves [.fresh, .objs] s x12 := by
            refine MovesP.of_eq x13 (.after State.termValue_moves ?_)
            exact h_x8
          split
          · rename_i x14 x15 x16 x17
            have h_x16 : Moves [.fresh, .objs] s x16 := by
              refine MovesP.of_eq x17 (.after State.termValue_moves ?_)
              exact h_x12
            extract_lets l18 l19 l20 l21 l22
            have h_l22 : Moves [.fresh, .objs] s l22 := by
              unfold l22
              refine .after State.setNum_moves (.after State.setNum_moves ?_)
              refine .after State.setNum_moves (.after State.setNum_moves ?_)
              exact h_x16
            split
            · split
              · refine .next (.after State.setNum_moves ?_)
                exact h_l22

theorem execSpdAdvPeriodStart_moves {s : State} : MovesO [.fsq] s (execSpdAdvPeriodStart s) := by
  delta execSpdAdvPeriodStart
  extract_lets l1 l2
  refine .ite ?_ ?_
  · exact .next .refl
  · refine .next (.fsq ?_)
    exact .refl

theorem execFaultReport_moves {m : FaultMsg} {s : State} : MovesO [.objs, .flt, .bbx] s (execFaultReport m s) := by
  delta execFaultReport
  refine .ite ?_ ?_
  · exact .next .refl
  · refine .next (.after State.send_moves ?_)
    exact .refl

theorem execFaultReportTaken_moves {s : State} : MovesO [.fresh, .sent, .objs, .pwr, .flt, .bbx, .wilwa, .rin, .fet, .mem, .dram, .pos, .lcg, .cmp, .sne, .fsq, .hlk, .hdg, .vis, .che, .mir] s (execFaultReportTaken s) := by
  delta execFaultReportTaken
  refine .ite ?_ ?_
  · exact .next .refl
  · split
    · refine .next (.after State.snapNow_moves ?_)
      exact .refl
    · refine .next (.after State.snapNow_moves ?_)
      refine .after State.logLost_moves (.after State.takeReport_moves ?_)
      exact .after State.modFlt_moves .refl

theorem execRailBrokenWire_moves {block : Fin 49} {unit : BitVec 8} {level : Bool} {s : State} : MovesO [.objs, .flt, .bbx] s (execRailBrokenWire block unit level s) := by
  delta execRailBrokenWire
  extract_lets l1 l2
  have h_l2 : Moves [.objs, .flt, .bbx] s l2 := by
    unfold l2
    exact .after State.modFlt_moves .refl
  refine .ite ?_ ?_
  · exact .next .refl
  · refine .ite ?_ ?_
    · refine .next (.ite ?_ ?_)
      · exact .after State.latchRail_moves .refl
      · exact .refl
    · refine .next (.after State.raise_moves ?_)
      exact h_l2

theorem execRailErrorTimeout_moves {block : Fin 49} {unit : BitVec 8} {s : State} : MovesO [.objs, .flt, .bbx] s (execRailErrorTimeout block unit s) := by
  delta execRailErrorTimeout
  extract_lets l1
  refine .ite ?_ ?_
  · exact .next .refl
  · refine .ite ?_ ?_
    · refine .next (.after State.latchRail_moves ?_)
      exact .refl
    · refine .next (.after State.raise_moves ?_)
      exact .refl

theorem execThermalModelUpdate_moves {counts : List (List Nat)} {s : State} : MovesO [.fresh, .sent, .objs, .pwr, .flt, .bbx, .wilwa, .mem, .dram, .fsq, .hlk, .hdg, .therm] s (execThermalModelUpdate counts s) := by
  delta execThermalModelUpdate
  extract_lets l1 l2 l3 l4 l5 l6 l7
  have h_l5 : Moves [.fresh, .sent, .objs, .pwr, .flt, .bbx, .wilwa, .mem, .dram, .fsq, .hlk, .hdg, .therm] s l5 := by
    unfold l5
    exact .after State.modTherm_moves .refl
  have h_l6 : Moves [.fresh, .sent, .objs, .pwr, .flt, .bbx, .wilwa, .mem, .dram, .fsq, .hlk, .hdg, .therm] s l6 := by
    unfold l6
    exact .after State.takeHot_moves h_l5
  have h_l7 : Moves [.fresh, .sent, .objs, .pwr, .flt, .bbx, .wilwa, .mem, .dram, .fsq, .hlk, .hdg, .therm] s l7 := by
    unfold l7
    refine .ite ?_ ?_
    · exact .after State.latchTrip_moves h_l6
    · exact h_l6
  refine .ite ?_ ?_
  · exact .next .refl
  · refine .next (.after State.checkLadder_moves ?_)
    refine .after State.checkBand_moves (.after State.checkPending_moves ?_)
    exact h_l7

theorem execTripPendingEnd_moves {s : State} : MovesO [.objs, .flt, .bbx, .therm] s (execTripPendingEnd s) := by
  delta execTripPendingEnd
  refine .next (.ite ?_ ?_)
  · refine .after State.raise_moves (.after State.modTherm_moves ?_)
    exact .refl
  · exact .refl

theorem execAonDiodeConversion_moves {d : Fin 8} {value : Option Int} {s : State} : MovesO [.fresh, .sent, .objs, .pwr, .flt, .bbx, .wilwa, .mem, .dram, .fsq, .hlk, .hdg, .therm, .aonDiodes] s (execAonDiodeConversion d value s) := by
  delta execAonDiodeConversion
  extract_lets l1 l2
  have h_l1 : Moves [.fresh, .sent, .objs, .pwr, .flt, .bbx, .wilwa, .mem, .dram, .fsq, .hlk, .hdg, .therm, .aonDiodes] s l1 := by
    unfold l1
    exact .aonDiodes .refl
  have h_l2 : Moves [.fresh, .sent, .objs, .pwr, .flt, .bbx, .wilwa, .mem, .dram, .fsq, .hlk, .hdg, .therm, .aonDiodes] s l2 := by
    unfold l2
    refine .ite ?_ ?_
    · exact .after State.latchTrip_moves h_l1
    · exact h_l1
  refine .ite ?_ ?_
  · exact .next .refl
  · refine .next (.ite ?_ ?_)
    · exact .after State.checkPending_moves h_l2
    · exact h_l2

theorem execTripShutdown_moves {s : State} : MovesO [.objs, .pwr, .flt, .bbx, .wilwa, .net, .tim, .rin, .fet, .mem, .dram, .pos, .lcg, .cmp, .sne, .fsq, .hlk, .hdg, .vis, .che, .mir, .therm, .aonDiodes] s (execTripShutdown s) := by
  delta execTripShutdown
  refine .next (.ite ?_ ?_)
  · refine .after State.modPwr_moves (.after State.powerOnReset_moves ?_)
    exact .after State.modPwr_moves .refl
  · exact .refl

theorem execHousekeepingRead_moves {value : Option Int} {s : State} : MovesO [.fresh, .objs, .flt, .bbx, .mem, .therm] s (execHousekeepingRead value s) := by
  delta execHousekeepingRead
  extract_lets l1 l2 l3 l4 l5
  have h_l2 : Moves [.fresh, .objs, .flt, .bbx, .mem, .therm] s l2 := by
    unfold l2
    exact .after State.modTherm_moves .refl
  have h_l3 : ∀ a1 a2, Moves [.fresh, .objs, .flt, .bbx, .mem, .therm] s a1 → Moves [.fresh, .objs, .flt, .bbx, .mem, .therm] s (l3 a1 a2) := by
    intro a1 a2 h_a1
    unfold l3
    exact .after State.setNum_moves h_a1
  have h_l5 : Moves [.fresh, .objs, .flt, .bbx, .mem, .therm] s l5 := by
    unfold l5
    exact h_l3 _ _ h_l2
  refine .ite ?_ ?_
  · exact .next .refl
  · refine .ite ?_ ?_
    · split
      · rename_i x6 x7 x8 x9
        have h_x8 : Moves [.fresh, .objs, .flt, .bbx, .mem, .therm] s x8 := by
          refine MovesP.of_eq x9 ?_
          split
          · rename_i x10 x11
            have h_x8 : Moves [.fresh, .objs, .flt, .bbx, .mem, .therm] s x8 := by
              refine MovesP.of_eq x9 ?_
              split
              · exact .mk h_l2
              · exact .after State.freeBelow_moves h_l2
            exact .mk h_l2
          · rename_i x12
            have h_x8 : Moves [.fresh, .objs, .flt, .bbx, .mem, .therm] s x8 := by
              refine MovesP.of_eq x9 ?_
              split
              · exact .mk h_l2
              · exact .after State.freeBelow_moves h_l2
            exact .after State.freeBelow_moves h_l2
        refine .next (.after State.modTherm_moves ?_)
        exact h_l3 _ _ h_x8
    · refine .ite ?_ ?_
      · split
        · rename_i x13 x14
          refine .next (h_l3 _ _ ?_)
          exact h_l2
        · rename_i x15
          split
          · rename_i x16 x17 x18 x19
            have h_x18 : Moves [.fresh, .objs, .flt, .bbx, .mem, .therm] s x18 := by
              refine MovesP.of_eq x19 (.after State.freeBelow_moves ?_)
              exact h_l2
            refine .next (h_l3 _ _ ?_)
            exact h_x18
      · refine .ite ?_ ?_
        · refine .ite ?_ ?_
          · refine .next (.after State.dimmUnread_moves ?_)
            exact h_l3 _ _ h_l2
          · refine .next (.after State.dimmSensor_moves ?_)
            exact h_l5
        · refine .next (h_l3 _ _ ?_)
          exact h_l2

theorem execHousekeepingRoundEnd_moves {s : State} : MovesO [.fresh, .objs, .flt, .bbx, .therm] s (execHousekeepingRoundEnd s) := by
  delta execHousekeepingRoundEnd
  extract_lets l1 l2 l3
  have h_l1 : Moves [.fresh, .objs, .flt, .bbx, .therm] s l1 := by
    unfold l1
    refine .after State.roundFaults_moves (.after State.modTherm_moves ?_)
    exact .refl
  have h_l3 : Moves [.fresh, .objs, .flt, .bbx, .therm] s l3 := by
    unfold l3
    refine .ite ?_ ?_
    · refine .after State.calibrateNodes_moves (.after State.calibrateScale_moves ?_)
      exact h_l1
    · split
      · rename_i x4 x5 x6 x7
        have h_x6 : Moves [.fresh, .objs, .flt, .bbx, .therm] s x6 := by
          refine MovesP.of_eq x7 (.ite ?_ ?_)
          · split
            · rename_i x8 x9 x10 x11
              have h_x10 : Moves [.fresh, .objs, .flt, .bbx, .therm] s x10 := by
                refine MovesP.of_eq x11 (.after State.freeBelow_moves ?_)
                exact h_l1
              exact .mk h_x10
          · exact .mk h_l1
        exact .after State.modTherm_moves h_x6
  refine .ite ?_ ?_
  · exact .next .refl
  · refine .next (.after State.modTherm_moves ?_)
    exact h_l3

theorem execEngineSelectionInterval_moves {s : State} : MovesO [.therm] s (execEngineSelectionInterval s) := by
  delta execEngineSelectionInterval
  refine .next (.ite ?_ ?_)
  · exact .after State.selectEngines_moves .refl
  · exact .refl

theorem execAddressTableAgeing_moves {mac : BitVec 48} {s : State} : MovesO [.net] s (execAddressTableAgeing mac s) := by
  delta execAddressTableAgeing
  split
  · extract_lets l1
    refine .ite ?_ ?_
    · refine .next (.net ?_)
      exact .refl
    · exact .next .refl
  · exact .next .refl

end Sys2Proof.Machine
end

