-- ==== Sys2Proof/Laws/FramesHost.lean ====
section
/-! SUPPORT. Frames: what the functions of time, the reads and writes of the dictionary, sessions and transfers may change, one lemma a function. -/

set_option Elab.async false

namespace Sys2Proof.Machine

set_option maxRecDepth 4000
variable {ps qs : List StatePart} {t u v : State}

theorem State.modDom_moves {s : State} {d : Nat} {f : PtpDom → PtpDom} : Moves [.tim] s (State.modDom s d f) := by
  delta State.modDom
  extract_lets l1
  exact .tim .refl

theorem State.offsetI32_moves {s : State} {o : Int} : MovesP [.fresh] s (State.offsetI32 s o) := by
  delta State.offsetI32
  extract_lets l1
  refine .ite ?_ ?_
  · exact .mk .refl
  · exact .after State.freeBelow_moves .refl

theorem State.publish_moves {s : State} {e : Nat → Nat} {inc : Nat} : Moves [.fresh, .tim] s (State.publish s e inc) := by
  delta State.publish
  split
  · rename_i x1 x2 x3 x4
    have h_x3 : Moves [.fresh, .tim] s x3 := by
      refine MovesP.of_eq x4 (.after State.free_moves ?_)
      exact .refl
    extract_lets l5 l6
    exact .tim h_x3

theorem State.nativeHoldover_moves {s : State} {cause : Nat} : Moves [.fresh, .objs, .flt, .bbx, .tim] s (State.nativeHoldover s cause) := by
  delta State.nativeHoldover
  extract_lets l1
  refine .ite ?_ ?_
  · split
    · rename_i x2 x3 x4 x5
      have h_x4 : Moves [.fresh, .objs, .flt, .bbx, .tim] s x4 := by
        refine MovesP.of_eq x5 (.after State.offsetI32_moves ?_)
        exact .refl
      extract_lets l6 l7 l8 l9 l10
      have h_l8 : Moves [.fresh, .objs, .flt, .bbx, .tim] s l8 := by
        unfold l8
        exact .tim h_x4
      have h_l9 : Moves [.fresh, .objs, .flt, .bbx, .tim] s l9 := by
        unfold l9
        exact .after State.setNum_moves h_l8
      have h_l10 : Moves [.fresh, .objs, .flt, .bbx, .tim] s l10 := by
        unfold l10
        exact .after State.publish_moves h_l9
      exact .after State.raise_moves h_l10
  · exact .refl

theorem State.legacyHoldover_moves {s : State} {b : Nat} : Moves [.fresh, .objs, .flt, .bbx, .tim] s (State.legacyHoldover s b) := by
  delta State.legacyHoldover
  extract_lets l1
  refine .ite ?_ ?_
  · split
    · rename_i x2 x3 x4 x5
      have h_x4 : Moves [.fresh, .objs, .flt, .bbx, .tim] s x4 := by
        refine MovesP.of_eq x5 (.after State.offsetI32_moves ?_)
        exact .refl
      extract_lets l6 l7 l8 l9 l10
      have h_l10 : Moves [.fresh, .objs, .flt, .bbx, .tim] s l10 := by
        unfold l10
        exact .tim h_x4
      exact .after State.raise_moves h_l10
  · exact .refl

theorem State.domainHoldover_moves {s : State} {d : Nat} {cause : Nat} : Moves [.fresh, .objs, .flt, .bbx, .tim] s (State.domainHoldover s d cause) := by
  delta State.domainHoldover
  extract_lets l1
  have h_l1 : Moves [.fresh, .objs, .flt, .bbx, .tim] s l1 := by
    unfold l1
    refine .ite ?_ ?_
    · exact .after State.nativeHoldover_moves .refl
    · exact .refl
  refine .forEach ?_ fun i2 t3 h_t3 => ?_
  · exact h_l1
  · exact .after State.legacyHoldover_moves h_t3

theorem State.selectMaster_moves {s : State} {d : Nat} : Moves [.fresh, .objs, .flt, .bbx, .tim] s (State.selectMaster s d) := by
  delta State.selectMaster
  extract_lets l1
  split
  · exact .refl
  · extract_lets l2 l3
    have h_l3 : Moves [.fresh, .objs, .flt, .bbx, .tim] s l3 := by
      unfold l3
      exact .after State.modDom_moves .refl
    refine .ite ?_ ?_
    · exact .after State.modDom_moves .refl
    · refine .ite ?_ ?_
      · exact .after State.domainHoldover_moves h_l3
      · exact h_l3

theorem State.announce_moves {s : State} {a : Announce} : Moves [.fresh, .objs, .flt, .bbx, .tim] s (State.announce s a) := by
  delta State.announce
  extract_lets l1 l2
  have h_l2 : Moves [.fresh, .objs, .flt, .bbx, .tim] s l2 := by
    unfold l2
    exact .after State.modDom_moves .refl
  refine .ite ?_ ?_
  · exact .after State.selectMaster_moves h_l2
  · exact .refl

theorem State.stage_moves {s : State} {area : Nat} {gen : Nat} : Moves [.wilwa] s (State.stage s area gen) := by
  delta State.stage
  extract_lets l1 l2 l3
  refine .after State.modAdm_moves (.wilwa ?_)
  exact .refl

theorem State.domainChanged_moves {s : State} {old : Nat} : Moves [.fresh, .objs, .flt, .bbx, .tim] s (State.domainChanged s old) := by
  delta State.domainChanged
  extract_lets l1
  refine .ite ?_ ?_
  · exact .refl
  · exact .after State.nativeHoldover_moves .refl

theorem State.areaLive_moves {s : State} {area : Nat} {oldDomain : Nat} {staged : List (Nat × Val)} : Moves [.fresh, .sent, .objs, .flt, .bbx, .wilwa, .tim, .cmp, .vis] s (State.areaLive s area oldDomain staged) := by
  delta State.areaLive
  refine .ite ?_ ?_
  · exact .after State.domainChanged_moves .refl
  · refine .ite ?_ ?_
    · refine .forRange ?_ fun i1 t2 h_t2 => ?_
      · exact .refl
      · extract_lets l3 l4
        have h_l4 : Moves [.fresh, .sent, .objs, .flt, .bbx, .wilwa, .tim, .cmp, .vis] s l4 := by
          unfold l4
          exact .after State.unitTakeUp_moves h_t2
        refine .ite ?_ ?_
        · refine .ite ?_ ?_
          · exact .after State.unitRestarts_moves h_l4
          · exact h_l4
        · exact h_t2
    · exact .refl

theorem State.takeUp_moves {s : State} {area : Nat} : Moves [.fresh, .sent, .objs, .flt, .bbx, .wilwa, .tim, .cmp, .sne, .fsq, .hlk, .hdg, .vis] s (State.takeUp s area) := by
  delta State.takeUp
  extract_lets l1 l2 l3 l4 l5 l6 l7 l8 l9 l10 l11
  have h_l4 : Moves [.fresh, .sent, .objs, .flt, .bbx, .wilwa, .tim, .cmp, .sne, .fsq, .hlk, .hdg, .vis] s l4 := by
    unfold l4
    exact .after State.modAdm_moves .refl
  have h_l6 : Moves [.fresh, .sent, .objs, .flt, .bbx, .wilwa, .tim, .cmp, .sne, .fsq, .hlk, .hdg, .vis] s l6 := by
    unfold l6
    exact .after State.liveWhere_moves .refl
  have h_l7 : Moves [.fresh, .sent, .objs, .flt, .bbx, .wilwa, .tim, .cmp, .sne, .fsq, .hlk, .hdg, .vis] s l7 := by
    unfold l7
    exact .after State.liveWhere_moves .refl
  have h_l8 : Moves [.fresh, .sent, .objs, .flt, .bbx, .wilwa, .tim, .cmp, .sne, .fsq, .hlk, .hdg, .vis] s l8 := by
    unfold l8
    exact .after State.areaLive_moves h_l7
  have h_l9 : Moves [.fresh, .sent, .objs, .flt, .bbx, .wilwa, .tim, .cmp, .sne, .fsq, .hlk, .hdg, .vis] s l9 := by
    unfold l9
    exact .after State.modAdm_moves h_l8
  have h_l10 : Moves [.fresh, .sent, .objs, .flt, .bbx, .wilwa, .tim, .cmp, .sne, .fsq, .hlk, .hdg, .vis] s l10 := by
    unfold l10
    refine .after State.areaLive_moves (.after State.liveWhere_moves ?_)
    exact .refl
  have h_l11 : Moves [.fresh, .sent, .objs, .flt, .bbx, .wilwa, .tim, .cmp, .sne, .fsq, .hlk, .hdg, .vis] s l11 := by
    unfold l11
    refine .ite ?_ ?_
    · exact .after State.lanesSpare_moves h_l10
    · exact h_l10
  refine .ite ?_ ?_
  · exact .after State.commitDone_moves .refl
  · refine .ite ?_ ?_
    · refine .forRange ?_ fun i12 t13 h_t13 => ?_
      · exact h_l4
      · refine .ite ?_ ?_
        · exact h_t13
        · exact .after State.portAtOnce_moves h_t13
    · refine .ite ?_ ?_
      · refine .ite ?_ ?_
        · exact .refl
        · exact .after State.takeUpWeb_moves .refl
      · refine .ite ?_ ?_
        · refine .ite ?_ ?_
          · exact h_l6
          · refine .after State.commitDone_moves (.after State.barsTakeUp_moves ?_)
            exact h_l6
        · refine .ite ?_ ?_
          · refine .ite ?_ ?_
            · refine .after State.commitDone_moves (.after State.barsTakeUp_moves ?_)
              exact h_l8
            · refine .forRange ?_ fun i14 t15 h_t15 => ?_
              · exact h_l9
              · refine .ite ?_ ?_
                · exact h_t15
                · exact .after State.takeUpBar_moves h_t15
          · refine .after State.commitDone_moves (.after State.barsTakeUp_moves ?_)
            exact h_l11

theorem State.commitRequest_moves {s : State} {area : Nat} {gen : Nat} : MovesP [.fresh, .sent, .objs, .flt, .bbx, .wilwa, .tim, .cmp, .sne, .fsq, .hlk, .hdg, .vis, .mir] s (State.commitRequest s area gen) := by
  delta State.commitRequest
  extract_lets l1 l2 l3 l4
  have h_l3 : Moves [.fresh, .sent, .objs, .flt, .bbx, .wilwa, .tim, .cmp, .sne, .fsq, .hlk, .hdg, .vis, .mir] s l3 := by
    unfold l3
    exact .after State.stage_moves .refl
  have h_l4 : Moves [.fresh, .sent, .objs, .flt, .bbx, .wilwa, .tim, .cmp, .sne, .fsq, .hlk, .hdg, .vis, .mir] s l4 := by
    unfold l4
    refine .ite ?_ ?_
    · exact .after State.linkSend_moves h_l3
    · exact h_l3
  refine .ite ?_ ?_
  · exact .mk .refl
  · refine .ite ?_ ?_
    · refine .mk (.ite ?_ ?_)
      · exact .refl
      · exact .after State.modAdm_moves .refl
    · refine .ite ?_ ?_
      · exact .mk .refl
      · refine .ite ?_ ?_
        · exact .mk .refl
        · split
          · refine .mk (.after State.modAdm_moves ?_)
            exact .refl
          · refine .mk (.after State.takeUp_moves ?_)
            exact h_l4

theorem State.cyclicControl_moves {s : State} {x : Session} {n : Nat} : MovesE [.objs, .wilwa] s (State.cyclicControl s x n) := by
  delta State.cyclicControl
  extract_lets l1 l2 l3 l4 l5
  refine .ite ?_ ?_
  · exact .error
  · refine .ok (.after State.setNum_moves ?_)
    exact .wilwa .refl

theorem hookDic_moves {x : Session} {idx : Nat} {sub : Nat} {v : Val} {s : State} : MovesH [.sent, .objs, .wilwa, .nonVol, .hlk] s (hookDic x idx sub v s) := by
  delta hookDic
  extract_lets l1 l2 l3
  split
  · refine .some (.ok ?_)
    exact .nonVol .refl
  · refine .some (.ok ?_)
    exact .nonVol .refl
  · refine .some (.ok ?_)
    exact .after State.setNum_moves .refl
  · refine .some (.ok ?_)
    exact .after State.setNum_moves .refl
  · refine .some (.after State.waveWrite_moves ?_)
    exact .refl
  · refine .some (.after State.waveWrite_moves ?_)
    exact .refl
  · refine .some (.after State.waveWrite_moves ?_)
    exact .refl
  · refine .some (.after State.waveWrite_moves ?_)
    exact .refl
  · refine .some (.ite ?_ ?_)
    · exact .error
    · refine .ok (.after State.setObj_moves ?_)
      exact .refl
  · refine .some (.ite ?_ ?_)
    · exact .error
    · refine .ok (.after State.setObj_moves ?_)
      exact .refl
  · refine .some (.ite ?_ ?_)
    · refine .ok (.after State.setObj_moves ?_)
      exact .refl
    · exact .error
  · refine .some (.ite ?_ ?_)
    · refine .ok (.after State.setObj_moves ?_)
      exact .refl
    · exact .error
  · refine .some (.after State.cyclicControl_moves ?_)
    exact .refl
  · exact .none

theorem State.jumpNative_moves {s : State} {e : Nat → Nat} : Moves [.fresh, .objs, .flt, .bbx, .tim, .che] s (State.jumpNative s e) := by
  delta State.jumpNative
  extract_lets l1 l2 l3 l4 l5 l6 l7 l8 l9 l10 l11
  have h_l2 : Moves [.fresh, .objs, .flt, .bbx, .tim, .che] s l2 := by
    unfold l2
    exact .after State.publish_moves .refl
  have h_l8 : Moves [.fresh, .objs, .flt, .bbx, .tim, .che] s l8 := by
    unfold l8
    exact .tim h_l2
  have h_l9 : Moves [.fresh, .objs, .flt, .bbx, .tim, .che] s l9 := by
    unfold l9
    exact .after State.raise_moves h_l8
  have h_l11 : Moves [.fresh, .objs, .flt, .bbx, .tim, .che] s l11 := by
    unfold l11
    exact .tim h_l9
  exact .after State.clearTrack_moves h_l11

theorem hookTime_moves {idx : Nat} {sub : Nat} {v : Val} {s : State} : MovesH [.fresh, .objs, .flt, .bbx, .tim, .che] s (hookTime idx sub v s) := by
  delta hookTime
  extract_lets l1 l2 l3 l4 l5 l6 l7
  have h_l2 : Moves [.fresh, .objs, .flt, .bbx, .tim, .che] s l2 := by
    unfold l2
    exact .after State.setObj_moves .refl
  have h_l6 : Moves [.fresh, .objs, .flt, .bbx, .tim, .che] s l6 := by
    unfold l6
    exact .after State.setNum_moves .refl
  refine .ite ?_ ?_
  · refine .ite ?_ ?_
    · exact .some .error
    · refine .some (.ok ?_)
      exact .after State.jumpNative_moves .refl
  · refine .ite ?_ ?_
    · refine .ite ?_ ?_
      · refine .some (.ok ?_)
        exact .tim h_l2
      · refine .some (.ok ?_)
        exact h_l2
    · refine .ite ?_ ?_
      · refine .ite ?_ ?_
        · refine .some (.ok ?_)
          refine .forRange ?_ fun i8 t9 h_t9 => ?_
          · exact h_l6
          · exact .after State.setNum_moves h_t9
        · refine .some (.ok ?_)
          exact .refl
      · refine .ite ?_ ?_
        · refine .ite ?_ ?_
          · refine .some (.ok ?_)
            exact .tim h_l2
          · refine .some (.ok ?_)
            exact h_l2
        · exact .none

theorem hook_moves {x : Session} {idx : Nat} {sub : Nat} {v : Val} {s : State} : MovesH [.fresh, .sent, .objs, .pwr, .flt, .bbx, .wilwa, .nonVol, .net, .tim, .rin, .fet, .mem, .dram, .pos, .lcg, .cmp, .sne, .fsq, .hlk, .hdg, .vis, .che, .mir] s (hook x idx sub v s) := by
  delta hook
  split
  · exact .after hookDic_moves .refl
  · exact .after hookDic_moves .refl
  · exact .after hookPower_moves .refl
  · exact .after hookNetwork_moves .refl
  · exact .after hookTime_moves .refl
  · exact .after hookTime_moves .refl
  · exact .after hookRaster_moves .refl
  · exact .after hookRaster_moves .refl
  · exact .after hookMemory_moves .refl
  · exact .after hookPos_moves .refl
  · exact .after hookPos_moves .refl
  · exact .after hookSne_moves .refl
  · exact .after hookChe_moves .refl
  · refine .orElse ?_ ?_
    · exact .after hookDic_moves .refl
    · exact .after hookHeads_moves .refl
  · exact .after hookHeads_moves .refl
  · exact .after hookHdg_moves .refl
  · exact .after hookVis_moves .refl
  · exact .after hookFaults_moves .refl
  · exact .after hookFaults_moves .refl
  · exact .after hookThermal_moves .refl
  · exact .after hookMir_moves .refl
  · exact .none

theorem State.applyWrite_moves {s : State} {x : Session} {d : Desc} {idx : Nat} {sub : Nat} {v : Val} : MovesP [.fresh, .sent, .objs, .pwr, .flt, .bbx, .wilwa, .nonVol, .net, .tim, .rin, .fet, .mem, .dram, .pos, .lcg, .cmp, .sne, .fsq, .hlk, .hdg, .vis, .che, .mir] s (State.applyWrite s x d idx sub v) := by
  delta State.applyWrite
  refine .ite ?_ ?_
  · exact .after State.commitRequest_moves .refl
  · split
    · rename_i x1 x2 x3
      exact .mk .refl
    · rename_i x4 x5 x6
      have h_x5 : Moves [.fresh, .sent, .objs, .pwr, .flt, .bbx, .wilwa, .nonVol, .net, .tim, .rin, .fet, .mem, .dram, .pos, .lcg, .cmp, .sne, .fsq, .hlk, .hdg, .vis, .che, .mir] s x5 := by
        refine MovesE.of_eq rfl (MovesH.of_eq x6 ?_)
        exact .after hook_moves .refl
      exact .mk h_x5
    · rename_i x7 x8
      extract_lets l9
      refine .ite ?_ ?_
      · refine .mk (.wilwa ?_)
        exact .refl
      · refine .mk (.after State.makeLive_moves ?_)
        exact .refl

theorem State.write_moves {s : State} {x : Session} {idx : Nat} {sub : Nat} {b : Bytes} {stream : Bool} : MovesP [.fresh, .sent, .objs, .pwr, .flt, .bbx, .wilwa, .nonVol, .net, .tim, .rin, .fet, .mem, .dram, .pos, .lcg, .cmp, .sne, .fsq, .hlk, .hdg, .vis, .che, .mir] s (State.write s x idx sub b stream) := by
  delta State.write
  split
  · exact .mk .refl
  · split
    · exact .after State.applyWrite_moves .refl
    · exact .mk .refl

theorem State.applyMap_moves {s : State} {x : Session} {data : Bytes} : Moves [.fresh, .sent, .objs, .pwr, .flt, .bbx, .wilwa, .nonVol, .net, .tim, .rin, .fet, .mem, .dram, .pos, .lcg, .cmp, .sne, .fsq, .hlk, .hdg, .vis, .che, .mir] s (State.applyMap s x data) := by
  delta State.applyMap
  refine MovesP.snd ?_
  refine .foldl ?_ fun q1 i2 h_q1 => ?_
  · exact .mk .refl
  · extract_lets l3 l4 l5
    split
    · exact h_q1
    · refine .mk (MovesP.snd ?_)
      refine .after State.write_moves (MovesP.snd ?_)
      exact h_q1

theorem State.streamsStop_moves {s : State} : Moves [.objs, .wilwa] s (State.streamsStop s) := by
  delta State.streamsStop
  extract_lets l1 l2
  refine .after State.setNum_moves (.wilwa ?_)
  exact .refl

theorem State.closeSession_moves {s : State} {sid : Nat} : Moves [.sent, .objs, .wilwa] s (State.closeSession s sid) := by
  delta State.closeSession
  extract_lets l1 l2 v
  have h1 : Moves [.sent, .objs, .wilwa] s l1 := by
    unfold l1
    exact .forEach .refl fun i t h => .after State.abortTransfer_moves h
  have h2 : Moves [.sent, .objs, .wilwa] s l2 := by
    unfold l2
    exact .ite (.after State.streamsStop_moves h1) h1
  have hc := State.closeSlot_seats (s := l2) (i := sid) (w := { l2.wilwa with sessions := v }) rfl
  refine .after State.irq_moves (.after (u := l2) (qs := [.wilwa]) ⟨⟨?_, id, id, State.seatsOk_filter hc⟩, ?_⟩ h2)
  · exact fun p h => by cases p <;> first | exact absurd (by decide) h | rfl
  · intro p hp _
    rw [hc] at hp
    exact (List.mem_filter.1 hp).1

theorem State.delayNs_moves {s : State} {x : Int} : MovesP [.fresh] s (State.delayNs s x) := by
  delta State.delayNs
  split
  · rename_i x1 x2 x3 x4
    have h_x3 : Moves [.fresh] s x3 := by
      refine MovesP.of_eq x4 (.after State.freeQuot_moves ?_)
      exact .refl
    refine .ite ?_ ?_
    · exact .mk h_x3
    · exact .after State.freeBelow_moves h_x3

theorem State.delaySample_moves {s : State} {d : Nat} {x : Int} : Moves [.fresh, .tim] s (State.delaySample s d x) := by
  delta State.delaySample
  split
  · exact .after State.modDom_moves .refl
  · split
    · rename_i x1 x2 x3 x4
      have h_x3 : Moves [.fresh, .tim] s x3 := by
        refine MovesP.of_eq x4 (.after State.freeQuot_moves ?_)
        exact .refl
      exact .after State.modDom_moves h_x3

theorem State.engineStatus_moves {s : State} {n : Nat} : MovesP [.fresh] s (State.engineStatus s n) := by
  delta State.engineStatus
  extract_lets l1
  split
  · rename_i x2 x3 x4 x5
    have h_x4 : Moves [.fresh] s x4 := by
      refine MovesP.of_eq x5 (.ite ?_ ?_)
      · exact .after State.freeBelow_moves .refl
      · exact .mk .refl
    exact .mk h_x4

theorem State.freeId_moves {s : State} {used : List Nat} {lo : Nat} {n : Nat} : MovesP [.fresh] s (State.freeId s used lo n) := by
  delta State.freeId
  split
  · rename_i x1 x2 x3 x4
    have h_x3 : Moves [.fresh] s x3 := by
      refine MovesP.of_eq x4 (.after State.freeBelow_moves ?_)
      exact .refl
    exact .mk h_x3

theorem State.heard_moves {s : State} {sid : Nat} : Moves [.wilwa] s (State.heard s sid) := by
  delta State.heard
  exact .after (State.modSession_moves (fun _ => ⟨rfl, rfl⟩)) .refl

theorem State.hostWrite_moves {s : State} {h : Hdr} {idx : Nat} {sub : Nat} {opts : Nat} {value : Bytes} : Moves [.fresh, .sent, .objs, .pwr, .flt, .bbx, .wilwa, .nonVol, .net, .tim, .rin, .fet, .mem, .dram, .pos, .lcg, .cmp, .sne, .fsq, .hlk, .hdg, .vis, .che, .mir] s (State.hostWrite s h idx sub opts value) := by
  delta State.hostWrite
  extract_lets l1
  refine State.requestV_moves ?_ fun y3 t2 h_t2 => ?_
  · exact .refl
  · split
    · rename_i x4 x5 x6 x7
      have h_x6 : Moves [.fresh, .sent, .objs, .pwr, .flt, .bbx, .wilwa, .nonVol, .net, .tim, .rin, .fet, .mem, .dram, .pos, .lcg, .cmp, .sne, .fsq, .hlk, .hdg, .vis, .che, .mir] s x6 := by
        refine MovesP.of_eq x7 (.after State.write_moves ?_)
        exact h_t2
      exact .mk h_x6

theorem State.servoRun_moves {s : State} {v : Servo} {c : ServoSet} {o : Int} {blocked : Bool} : MovesP [.fresh] s (State.servoRun s v c o blocked) := by
  delta State.servoRun
  extract_lets l1
  split
  · rename_i x2 x3 x4 x5
    have h_x4 : Moves [.fresh] s x4 := by
      refine MovesP.of_eq x5 (.after State.freeQuot_moves ?_)
      exact .refl
    extract_lets l6
    split
    · rename_i x7 x8 x9 x10
      have h_x9 : Moves [.fresh] s x9 := by
        refine MovesP.of_eq x10 (.after State.freeQuot_moves ?_)
        exact h_x4
      extract_lets l11 l12 l13
      exact .mk h_x9

theorem State.legacySync_moves {s : State} {b : Nat} {o : Int} : Moves [.fresh, .tim] s (State.legacySync s b o) := by
  delta State.legacySync
  extract_lets c v k v1 v2
  clear_value v2 k
  by_cases h : c.step * 2 ^ 16 < o.natAbs
  · simp only [if_pos h]
    exact .tim .refl
  · simp only [if_neg h]
    exact .tim (MovesP.snd (.after State.servoRun_moves .refl))

theorem State.machineSignals_moves {s : State} : MovesP [.fresh] s (State.machineSignals s) := by
  delta State.machineSignals
  split
  · rename_i x1 x2 x3 x4
    have h_x3 : Moves [.fresh] s x3 := by
      refine MovesP.of_eq x4 (.after State.freeBelow_moves ?_)
      exact .refl
    extract_lets l5
    split
    · rename_i x6 x7 x8 x9
      have h_x8 : Moves [.fresh] s x8 := by
        refine MovesP.of_eq x9 (.after State.freeBelow_moves ?_)
        exact h_x3
      exact .mk h_x8

theorem State.markEra_moves {s : State} {era : Nat} {wraps : Nat} : Moves [.objs, .flt, .bbx, .tim] s (State.markEra s era wraps) := by
  delta State.markEra
  extract_lets l1
  refine .after State.raise_moves (.tim ?_)
  exact .refl

theorem State.markSteps_moves {s : State} : Moves [.objs, .flt, .bbx, .tim] s (State.markSteps s) := by
  delta State.markSteps
  extract_lets l1 l2 l3
  have h_l3 : Moves [.objs, .flt, .bbx, .tim] s l3 := by
    unfold l3
    exact .tim .refl
  refine .forEach ?_ fun i4 t5 h_t5 => ?_
  · exact h_l3
  · exact .after State.markEra_moves h_t5

theorem State.masterLost_moves {s : State} {d : Nat} : Moves [.fresh, .objs, .flt, .bbx, .tim] s (State.masterLost s d) := by
  delta State.masterLost
  split
  · extract_lets l1
    have h_l1 : Moves [.fresh, .objs, .flt, .bbx, .tim] s l1 := by
      unfold l1
      exact .after State.modDom_moves .refl
    refine .after State.selectMaster_moves (.after State.domainHoldover_moves ?_)
    exact h_l1
  · exact .refl

theorem State.modTransfer_moves {s : State} {tid : Nat} {f : Transfer → Transfer} : Moves [.wilwa] s (State.modTransfer s tid f) := by
  delta State.modTransfer
  extract_lets l1
  exact .wilwa .refl

theorem State.stepNative_moves {s : State} {o : Int} : Moves [.fresh, .objs, .flt, .bbx, .tim, .che] s (State.stepNative s o) := by
  delta State.stepNative
  extract_lets l1
  exact .after State.jumpNative_moves .refl

theorem State.nativeSync_moves {s : State} {o : Int} : Moves [.fresh, .objs, .flt, .bbx, .tim, .che] s (State.nativeSync s o) := by
  delta State.nativeSync
  extract_lets l1 l2 l3 l4 l5 l6 l7 l8 l9 l10 l11
  have h_l3 : Moves [.fresh, .objs, .flt, .bbx, .tim, .che] s l3 := by
    unfold l3
    exact .after State.raiseMax_moves .refl
  have h_l4 : Moves [.fresh, .objs, .flt, .bbx, .tim, .che] s l4 := by
    unfold l4
    refine .ite ?_ ?_
    · split
      · rename_i x12 x13 x14 x15
        have h_x14 : Moves [.fresh, .objs, .flt, .bbx, .tim, .che] s x14 := by
          refine MovesP.of_eq x15 (.after State.offsetI32_moves ?_)
          exact h_l3
        exact .after State.raise_moves h_x14
    · exact h_l3
  have h_l11 : Moves [.fresh, .objs, .flt, .bbx, .tim, .che] s l11 := by
    unfold l11
    refine .ite ?_ ?_
    · split
      · rename_i x16 x17 x18 x19
        have h_x18 : Moves [.fresh, .objs, .flt, .bbx, .tim, .che] s x18 := by
          refine MovesP.of_eq x19 (.after State.offsetI32_moves ?_)
          exact h_l4
        exact .after State.raise_moves h_x18
    · exact h_l4
  refine .ite ?_ ?_
  · refine .after State.stepNative_moves (.tim ?_)
    exact h_l4
  · split
    · rename_i x20 x21 x22 x23
      have h_x22 : Moves [.fresh, .objs, .flt, .bbx, .tim, .che] s x22 := by
        refine MovesP.of_eq x23 (.after State.servoRun_moves ?_)
        exact h_l11
      extract_lets l24 l25 l26
      have h_l24 : Moves [.fresh, .objs, .flt, .bbx, .tim, .che] s l24 := by
        unfold l24
        refine .ite ?_ ?_
        · exact .after State.raise_moves h_x22
        · exact h_x22
      refine .after State.publish_moves (.tim ?_)
      exact h_l24

theorem State.freeId_notMem {s : State} {used : List Nat} {lo n : Nat} (hu : used.length < n) : (s.freeId used lo n).1 ∉ used := by
  have h : ∀ k, ∃ j, ((List.range (used.length + 1)).map fun i => lo + (k + i) % n).find? (fun i => !used.contains i) = some j ∧ j ∉ used := by
    intro k
    cases hf : ((List.range (used.length + 1)).map fun i => lo + (k + i) % n).find? (fun i => !used.contains i) with
    | some j => exact ⟨j, rfl, by simpa using List.find?_some hf⟩
    | none =>
      exfalso
      have hall := List.find?_eq_none.1 hf
      have hsub : ((List.range (used.length + 1)).map fun i => lo + (k + i) % n) ⊆ used := fun x hx => by
        simpa using hall x hx
      have hnd : ((List.range (used.length + 1)).map fun i => lo + (k + i) % n).Nodup := by
        refine List.Nodup.map_on ?_ List.nodup_range
        intro a ha b hb hab
        have ha := List.mem_range.1 ha
        have hb := List.mem_range.1 hb
        have hab' : (k + a) % n = (k + b) % n := by omega
        have e1 : (k + a) ≡ (k + b) [MOD n] := hab'
        have e2 : a ≡ b [MOD n] := Nat.ModEq.add_left_cancel' k e1
        have := Nat.ModEq.eq_of_lt_of_lt e2 (by omega) (by omega)
        exact this
      have := (hnd.subperm hsub).length_le
      simp at this
  obtain ⟨j, e, hj⟩ := h (s.freeBelow n).1
  have : (s.freeId used lo n).1 = j := by
    show ((List.find? _ _).getD lo) = j
    exact congrArg (·.getD lo) e
  rw [this]
  exact hj

theorem State.openSessions_length (s : State) : s.openSessions.length ≤ 4 := by
  have := List.length_filterMap_le id s.wilwa.sessions.toList
  simpa [State.openSessions] using this

theorem vmod_toList {α : Type} {n : Nat} (v : Vector α n) (i : Nat) (x : α) : (vmod v i fun _ => x).toList = v.toList.set i x := by
  apply List.ext_getElem
  · simp [vmod]
  · intro j h1 h2
    simp [vmod, List.getElem_set, eq_comm]

theorem filterMap_set_none {α : Type} (l : List (Option α)) (i : Nat) (x : α) (hi : l[i]? = some none) :
    ((l.set i (some x)).filterMap id).Perm (x :: l.filterMap id) := by
  induction l generalizing i with
  | nil => simp at hi
  | cons a l ih =>
    cases i with
    | zero =>
      have : a = none := by simpa using hi
      subst this
      simp
    | succ i =>
      have h := ih i (by simpa using hi)
      cases a with
      | none => simpa using h
      | some a =>
        simp only [List.set_cons_succ, List.filterMap_cons, id]
        exact (h.cons a).trans (.swap x a _)

theorem putSession_perm (l : Vector (Option Session) 4) (x : Session) :
    (putSession l x).toList.filterMap id = l.toList.filterMap id ∨
    ((putSession l x).toList.filterMap id).Perm (x :: l.toList.filterMap id) := by
  unfold putSession
  split
  · rename_i i h
    right
    rw [vmod_toList]
    have hm := List.mem_range.1 (List.mem_of_find?_eq_some h)
    have hn := List.find?_some h
    rw [vget_eq_getElem _ _ hm] at hn
    refine filterMap_set_none _ _ _ ?_
    rw [List.getElem?_eq_getElem (by simpa using hm)]
    simpa using hn
  · exact .inl rfl

theorem State.putSession_levels {s : State} {w : Wilwa} {x : Session} (hw : w.sessions = putSession s.wilwa.sessions x)
    (hl : x.level = 0) : s.LevelsFrom { s with wilwa := w } := by
  intro p hp h0
  unfold State.seats State.openSessions at *
  simp only [hw] at hp
  rcases putSession_perm s.wilwa.sessions x with h | h
  · rw [h] at hp; exact hp
  · have hp := ((h.map fun x : Session => (x.sid, x.level)).mem_iff).1 hp
    rcases List.mem_cons.1 hp with rfl | hp
    · exact absurd hl h0
    · exact hp

theorem State.putSession_seatsOk {s : State} {w : Wilwa} {x : Session} (hw : w.sessions = putSession s.wilwa.sessions x)
    (hx : x.sid ∉ s.openSessions.map (·.sid)) (hl : x.level = 0) (k : s.SeatsOk) : ({ s with wilwa := w } : State).SeatsOk := by
  unfold State.SeatsOk State.seats State.openSessions at *
  simp only [hw]
  rcases putSession_perm s.wilwa.sessions x with h | h
  · rw [h]; exact k
  · have hp := h.map fun x : Session => (x.sid, x.level)
    refine ⟨(hp.map Prod.fst).nodup_iff.2 ?_, ?_⟩
    · refine List.nodup_cons.2 ⟨?_, k.1⟩
      intro hm
      apply hx
      simpa [List.mem_map] using hm
    · rw [(hp.filter _).length_eq]
      have : List.filter (fun y : Nat × Nat => y.2 != 0) (List.map (fun x : Session => (x.sid, x.level)) (x :: List.filterMap id s.wilwa.sessions.toList))
          = List.filter (fun y : Nat × Nat => y.2 != 0) (List.map (fun x : Session => (x.sid, x.level)) (List.filterMap id s.wilwa.sessions.toList)) := by
        simp [hl]
      rw [this]
      exact k.2

theorem State.openSession_moves {s : State} {h : Hdr} {version : Nat} {emergency : Bool} :
    Moves [.fresh, .sent, .objs, .wilwa] s (State.openSession s h version emergency) := by
  have hid := State.freeId_notMem (s := s) (used := s.openSessions.map (·.sid)) (lo := 1) (n := 0xFFFE)
    (by have := State.openSessions_length s; simp; omega)
  have hf : MovesP [.fresh] s (s.freeId (s.openSessions.map (·.sid)) 1 0xFFFE) := State.freeId_moves
  have ho : (s.freeId (s.openSessions.map (·.sid)) 1 0xFFFE).2.wilwa = s.wilwa := rfl
  delta State.openSession
  generalize s.freeId (s.openSessions.map (·.sid)) 1 0xFFFE = p at hid hf ho
  obtain ⟨sid, t⟩ := p
  have ht : Moves [.fresh, .sent, .objs, .wilwa] s t := .after hf.snd .refl
  refine .after State.irq_moves (.after State.sendDgram_moves ?_)
  refine .after (u := t) (qs := [.wilwa]) ⟨⟨?_, id, id, ?_⟩, State.putSession_levels (s := t) rfl rfl⟩ ht
  · exact fun p h => by cases p <;> first | exact absurd (by decide) h | rfl
  · refine State.putSession_seatsOk (s := t) rfl ?_ rfl
    have : t.openSessions = s.openSessions := by
      unfold State.openSessions
      exact congrArg (fun w : Wilwa => w.sessions.toList.filterMap id) ho
    rw [this]
    exact hid

theorem State.transferSend_moves {s : State} {x : Session} {ty : Nat} {tid : Nat} {n : Nat} {data : Bytes} : Moves [.sent] s (State.transferSend s x ty tid n data) := by
  delta State.transferSend
  exact .after State.sendDgram_moves .refl

theorem State.sendSegments_moves {f : Nat} {x : Session} {i : Nat} {s : State} : Moves [.sent, .wilwa] s (State.sendSegments f x i s) := by
  induction f generalizing s with
  | zero => exact .refl
  | succ f ih =>
    simp only [State.sendSegments]
    split
    · exact .refl
    · exact .ite .refl (.after ih (.after State.modTransfer_moves (.after State.transferSend_moves .refl)))

theorem State.pump_moves {s : State} {t : Transfer} : Moves [.sent, .objs, .wilwa] s (State.pump s t) := by
  delta State.pump
  split
  · exact .refl
  · refine .ite ?_ ?_
    · exact .refl
    · refine .ite ?_ ?_
      · refine .after State.dropTransfer_moves (.after State.transferSend_moves ?_)
        exact .refl
      · exact .after State.sendSegments_moves .refl

theorem asNum_moves {t : State} {p : Nat × State} (h : MovesP ps t p) : MovesP ps t (asNum p) := h

theorem State.viewTime_moves {s : State} {idx : Nat} {sub : Nat} : MovesQ [.fresh] s (State.viewTime s idx sub) := by
  delta State.viewTime
  extract_lets l1 l2
  split
  · refine .some (.mk ?_)
    exact .refl
  · refine .some (.mk ?_)
    exact .refl
  · refine .some (.mk ?_)
    exact .refl
  · refine .some (.mk ?_)
    exact .refl
  · refine .some (.mk ?_)
    exact .refl
  · refine .some (asNum_moves ?_)
    exact .after State.offsetI32_moves .refl
  · refine .some (asNum_moves ?_)
    exact .after State.delayNs_moves .refl
  · refine .some (.mk ?_)
    exact .refl
  · refine .some (.mk ?_)
    exact .refl
  · refine .some (.mk ?_)
    exact .refl
  · refine .some (.mk ?_)
    exact .refl
  · refine .some (.mk ?_)
    exact .refl
  · refine .some (asNum_moves ?_)
    exact .after State.offsetI32_moves .refl
  · refine .some (asNum_moves ?_)
    exact .after State.offsetI32_moves .refl
  · refine .some (asNum_moves ?_)
    exact .after State.offsetI32_moves .refl
  · refine .some (asNum_moves ?_)
    exact .after State.offsetI32_moves .refl
  · refine .some (.mk ?_)
    exact .refl
  · refine .some (.mk ?_)
    exact .refl
  · refine .some (.mk ?_)
    exact .refl
  · refine .some (.mk ?_)
    exact .refl
  · refine .some (.mk ?_)
    exact .refl
  · refine .some (.mk ?_)
    exact .refl
  · refine .some (.mk ?_)
    exact .refl
  · refine .some (.mk ?_)
    exact .refl
  · exact .none

theorem State.trainStatus_moves {s : State} {c : Nat} : MovesP [.fresh] s (State.trainStatus s c) := by
  delta State.trainStatus
  extract_lets l1
  split
  · rename_i x2 x3 x4 x5
    have h_x4 : Moves [.fresh] s x4 := by
      refine MovesP.of_eq x5 (.ite ?_ ?_)
      · exact .after State.freeBelow_moves .refl
      · exact .mk .refl
    exact .mk h_x4

theorem State.viewRaster_moves {s : State} {idx : Nat} {sub : Nat} : MovesQ [.fresh] s (State.viewRaster s idx sub) := by
  delta State.viewRaster
  split
  · refine .some (.mk ?_)
    exact .refl
  · refine .some (.mk ?_)
    exact .refl
  · refine .some (.mk ?_)
    exact .refl
  · refine .some (.mk ?_)
    exact .refl
  · refine .some (.mk ?_)
    exact .refl
  · refine .some (asNum_moves ?_)
    exact .after State.trainStatus_moves .refl
  · refine .some (.mk ?_)
    exact .refl
  · refine .some (.mk ?_)
    exact .refl
  · refine .some (.mk ?_)
    exact .refl
  · refine .some (.mk ?_)
    exact .refl
  · exact .none

theorem asInt_moves {t : State} {w : Nat} {p : Int × State} (h : MovesP ps t p) : MovesP ps t (asInt w p) := h

theorem State.viewPos_moves {s : State} {idx : Nat} {sub : Nat} : MovesQ [.fresh] s (State.viewPos s idx sub) := by
  delta State.viewPos
  extract_lets l1 l2
  split
  · refine .some (asNum_moves ?_)
    exact .after State.maxCountRate_moves .refl
  · refine .some (.mk ?_)
    exact .refl
  · refine .some (asInt_moves ?_)
    exact .after State.speed_moves .refl
  · refine .some (asInt_moves ?_)
    exact .after State.webSpeed_moves .refl
  · refine .some (asNum_moves ?_)
    exact .after State.countInterval_moves .refl
  · refine .some (asNum_moves ?_)
    exact .after State.positionStatus_moves .refl
  · refine .some (.mk ?_)
    exact .refl
  · refine .some (.mk ?_)
    exact .refl
  · refine .some (.mk ?_)
    exact .refl
  · refine .some (.mk ?_)
    exact .refl
  · refine .some (asNum_moves ?_)
    exact .after State.fit_moves .refl
  · refine .some (.mk ?_)
    exact .refl
  · exact .none

theorem State.viewPrint_moves {s : State} {idx : Nat} {sub : Nat} : MovesQ [.fresh] s (State.viewPrint s idx sub) := by
  delta State.viewPrint
  extract_lets l1 l2
  split
  · refine .ite ?_ ?_
    · refine .some (.mk ?_)
      exact .refl
    · exact .none
  · refine .ite ?_ ?_
    · refine .some (.mk ?_)
      exact .refl
    · exact .none
  · refine .ite ?_ ?_
    · refine .some (.mk ?_)
      exact .refl
    · exact .none
  · refine .some (.mk ?_)
    exact .refl
  · refine .some (asNum_moves ?_)
    exact .after State.engineStatus_moves .refl
  · refine .some (.mk ?_)
    exact .refl
  · refine .some (.mk ?_)
    exact .refl
  · refine .some (.mk ?_)
    exact .refl
  · refine .some (.mk ?_)
    exact .refl
  · refine .some (.mk ?_)
    exact .refl
  · refine .some (.mk ?_)
    exact .refl
  · refine .some (.mk ?_)
    exact .refl
  · refine .some (.mk ?_)
    exact .refl
  · exact .none

theorem State.viewEdges_moves {s : State} {idx : Nat} {sub : Nat} : MovesQ [.fresh, .objs] s (State.viewEdges s idx sub) := by
  delta State.viewEdges
  extract_lets l1
  split
  · refine .some (.mk ?_)
    exact .refl
  · refine .some (asNum_moves ?_)
    exact .after State.headerRun_moves .refl
  · refine .some (asNum_moves ?_)
    exact .after State.rxCount_moves .refl
  · refine .some (asNum_moves ?_)
    exact .after State.rxCount_moves .refl
  · refine .some (asNum_moves ?_)
    exact .after State.rxCount_moves .refl
  · refine .some (asNum_moves ?_)
    exact .after State.rxCount_moves .refl
  · refine .some (asNum_moves ?_)
    exact .after State.testErrors_moves .refl
  · refine .some (asNum_moves ?_)
    exact .after State.fit_moves .refl
  · refine .some (.mk ?_)
    exact .refl
  · refine .some (.mk ?_)
    exact .refl
  · refine .some (.mk ?_)
    exact .refl
  · refine .some (.mk ?_)
    exact .refl
  · refine .some (.mk ?_)
    exact .refl
  · refine .some (.mk ?_)
    exact .refl
  · refine .some (.mk ?_)
    exact .refl
  · refine .some (asNum_moves ?_)
    exact .after State.freeBelow_moves .refl
  · refine .some (asNum_moves ?_)
    exact .after State.machineSignals_moves .refl
  · exact .none

theorem State.u88_moves {s : State} {x : Rat} : MovesP [.fresh] s (State.u88 s x) := by
  delta State.u88
  extract_lets l1
  refine .ite ?_ ?_
  · exact .mk .refl
  · exact .after State.freeBelow_moves .refl

theorem State.viewPlant_moves {s : State} {idx : Nat} {sub : Nat} : MovesQ [.fresh] s (State.viewPlant s idx sub) := by
  delta State.viewPlant
  extract_lets l1 l2
  split
  · refine .some (.mk ?_)
    exact .refl
  · refine .some (.mk ?_)
    exact .refl
  · refine .some (.mk ?_)
    exact .refl
  · refine .some (.mk ?_)
    exact .refl
  · refine .some (asNum_moves ?_)
    exact .after State.u88_moves .refl
  · split
    · refine .some (.mk ?_)
      exact .refl
    · refine .some (asNum_moves ?_)
      exact .after State.freeBelow_moves .refl
  · refine .some (.mk ?_)
    exact .refl
  · refine .some (.mk ?_)
    exact .refl
  · refine .ite ?_ ?_
    · exact .none
    · refine .some (.mk ?_)
      exact .refl
  · refine .some (.mk ?_)
    exact .refl
  · refine .some (.mk ?_)
    exact .refl
  · refine .some (.mk ?_)
    exact .refl
  · refine .some (.mk ?_)
    exact .refl
  · refine .some (.mk ?_)
    exact .refl
  · refine .some (.mk ?_)
    exact .refl
  · refine .some (.mk ?_)
    exact .refl
  · exact .none

theorem State.viewComputed_moves {s : State} {idx : Nat} {sub : Nat} : MovesQ [.fresh, .objs] s (State.viewComputed s idx sub) := by
  delta State.viewComputed
  split
  · refine MovesQ.map fun y1 => (.mk ?_)
    exact .refl
  · refine MovesQ.map fun y2 => (.mk ?_)
    exact .refl
  · refine MovesQ.map fun y3 => (.mk ?_)
    exact .refl
  · refine MovesQ.map fun y4 => (.mk ?_)
    exact .refl
  · exact .after State.viewTime_moves .refl
  · exact .after State.viewTime_moves .refl
  · exact .after State.viewTime_moves .refl
  · exact .after State.viewRaster_moves .refl
  · exact .after State.viewRaster_moves .refl
  · exact .after State.viewRaster_moves .refl
  · exact .after State.viewPos_moves .refl
  · exact .after State.viewPos_moves .refl
  · exact .after State.viewPrint_moves .refl
  · exact .after State.viewPrint_moves .refl
  · exact .after State.viewPrint_moves .refl
  · exact .after State.viewEdges_moves .refl
  · exact .after State.viewEdges_moves .refl
  · exact .after State.viewEdges_moves .refl
  · exact .after State.viewEdges_moves .refl
  · exact .after State.viewEdges_moves .refl
  · refine MovesQ.map fun y5 => (.mk ?_)
    exact .refl
  · refine MovesQ.map fun y6 => (.mk ?_)
    exact .refl
  · exact .after State.viewPlant_moves .refl
  · exact .after State.viewPlant_moves .refl
  · exact .none

theorem State.view_moves {s : State} {idx : Nat} {sub : Nat} : MovesP [.fresh, .objs] s (State.view s idx sub) := by
  delta State.view
  refine .ite ?_ ?_
  · exact .mk .refl
  · refine .ite ?_ ?_
    · exact .mk .refl
    · refine .ite ?_ ?_
      · exact .mk .refl
      · refine .ite ?_ ?_
        · exact .mk .refl
        · refine .ite ?_ ?_
          · refine .mk (.after State.setObj_moves ?_)
            exact .refl
          · split
            · rename_i x1 x2 x3
              have h_x2 : MovesP [.fresh, .objs] s x2 := by
                refine MovesQ.of_eq x3 (.after State.viewComputed_moves ?_)
                exact .refl
              exact h_x2
            · rename_i x4 x5
              exact .mk .refl

theorem State.read_moves {s : State} {x : Session} {idx : Nat} {sub : Nat} {shadow : Bool} : MovesF [.fresh, .objs] s (State.read s x idx sub shadow) := by
  delta State.read
  split
  · exact .error
  · split
    · exact .error
    · refine .ite ?_ ?_
      · exact .error
      · refine .ite ?_ ?_
        · exact .error
        · split
          · exact .error
          · refine .ite ?_ ?_
            · refine .ok (.mk ?_)
              exact .refl
            · split
              · rename_i x1 x2 x3 x4
                have h_x3 : Moves [.fresh, .objs] s x3 := by
                  refine MovesP.of_eq x4 (.after State.view_moves ?_)
                  exact .refl
                refine .ok (.mk ?_)
                exact h_x3

theorem State.rejectProof_moves {s : State} {x : Session} : Moves [.objs, .flt, .bbx, .wilwa] s (State.rejectProof s x) := by
  delta State.rejectProof
  extract_lets l1 l2 l3
  refine .after State.authFailure_moves (.wilwa ?_)
  exact .refl

theorem State.runSync_moves {s : State} {m : PtpMsg} {t1 : Nat} {t2 : Nat} {legacy : List Nat} {correction : Int} : Moves [.fresh, .objs, .flt, .bbx, .tim, .che] s (State.runSync s m t1 t2 legacy correction) := by
  delta State.runSync
  extract_lets l1 l2 l3 l4 l5 l6 l7
  have h_l6 : Moves [.fresh, .objs, .flt, .bbx, .tim, .che] s l6 := by
    unfold l6
    exact .after State.modDom_moves .refl
  have h_l7 : Moves [.fresh, .objs, .flt, .bbx, .tim, .che] s l7 := by
    unfold l7
    refine .ite ?_ ?_
    · exact .after State.delaySample_moves h_l6
    · exact h_l6
  split
  · exact h_l7
  · extract_lets l8
    have h_l8 : Moves [.fresh, .objs, .flt, .bbx, .tim, .che] s l8 := by
      unfold l8
      refine .ite ?_ ?_
      · exact .after State.nativeSync_moves h_l7
      · exact h_l7
    refine .forEach ?_ fun i9 t10 h_t10 => ?_
    · exact h_l8
    · exact .after State.legacySync_moves h_t10

theorem State.sampleMap_moves {s : State} : MovesP [.fresh, .objs] s (State.sampleMap s) := by
  delta State.sampleMap
  refine .foldl ?_ fun q1 i2 h_q1 => ?_
  · exact .mk .refl
  · extract_lets l3 l4 l5
    split
    · exact h_q1
    · refine .ite ?_ ?_
      · split
        · rename_i x6 x7 x8 x9
          have h_x8 : Moves [.fresh, .objs] s x8 := by
            refine MovesP.of_eq x9 (.after State.freeBytes_moves ?_)
            exact MovesP.snd h_q1
          exact .mk h_x8
      · split
        · rename_i x10 x11 x12 x13
          have h_x12 : Moves [.fresh, .objs] s x12 := by
            refine MovesP.of_eq x13 (.after State.view_moves ?_)
            exact MovesP.snd h_q1
          exact .mk h_x12

theorem State.sendPtp_moves {s : State} {m : PtpOut} : Moves [.sent] s (State.sendPtp s m) := by
  delta State.sendPtp
  exact .after State.emit_moves .refl

theorem State.transferEnd_moves {s : State} {x : Session} {tid : Nat} {crc : Nat} : MovesP [.fresh, .sent, .objs, .pwr, .flt, .bbx, .wilwa, .nonVol, .net, .tim, .rin, .fet, .mem, .dram, .pos, .lcg, .cmp, .sne, .fsq, .hlk, .hdg, .vis, .che, .mir] s (State.transferEnd s x tid crc) := by
  delta State.transferEnd
  split
  · exact .mk .refl
  · extract_lets l1
    have h_l1 : Moves [.fresh, .sent, .objs, .pwr, .flt, .bbx, .wilwa, .nonVol, .net, .tim, .rin, .fet, .mem, .dram, .pos, .lcg, .cmp, .sne, .fsq, .hlk, .hdg, .vis, .che, .mir] s l1 := by
      unfold l1
      exact .after State.dropTransfer_moves .refl
    refine .ite ?_ ?_
    · exact .mk .refl
    · refine .ite ?_ ?_
      · exact .mk .refl
      · refine .ite ?_ ?_
        · exact .mk h_l1
        · split
          · exact .mk h_l1
          · split
            · exact .mk h_l1
            · exact .after State.applyWrite_moves h_l1

theorem State.transferInit_moves {s : State} {x : Session} {idx : Nat} {sub : Nat} {total : Nat} {download : Bool} : MovesA [.fresh, .objs, .wilwa] s (State.transferInit s x idx sub total download) := by
  delta State.transferInit
  extract_lets l1 l2
  have h_l1 : ∀ a1, MovesA [.fresh, .objs, .wilwa] s (l1 a1) := by
    intro a1
    unfold l1
    exact .mk .refl
  split
  · refine h_l1 _
  · split
    · rename_i x3 x4 x5 x6
      have h_x5 : Moves [.fresh, .objs, .wilwa] s x5 := by
        refine MovesP.of_eq x6 (.ite ?_ ?_)
        · exact .mk .refl
        · split
          · rename_i x7 x8 x9 x10
            have h_x9 : Moves [.fresh, .objs, .wilwa] s x9 := by
              refine MovesP.of_eq x10 (.after State.view_moves ?_)
              exact .refl
            exact .mk h_x9
      split
      · rename_i x11 x12 x13 x14
        have h_x13 : Moves [.fresh, .objs, .wilwa] s x13 := by
          refine MovesP.of_eq x14 (.after State.freeId_moves ?_)
          exact h_x5
        extract_lets l15 l16
        refine .mk (.wilwa ?_)
        exact h_x13

theorem execRequestStandby_moves {h : Hdr} {s : State} : MovesO [.fresh, .sent, .objs, .pwr, .flt, .bbx, .wilwa, .nonVol, .net, .tim, .rin, .fet, .mem, .dram, .pos, .lcg, .cmp, .sne, .fsq, .hlk, .hdg, .vis, .che, .mir] s (execRequestStandby h s) := by
  delta execRequestStandby
  refine .next (.after State.hostWrite_moves ?_)
  exact .refl

theorem execRequestConfigured_moves {h : Hdr} {s : State} : MovesO [.fresh, .sent, .objs, .pwr, .flt, .bbx, .wilwa, .nonVol, .net, .tim, .rin, .fet, .mem, .dram, .pos, .lcg, .cmp, .sne, .fsq, .hlk, .hdg, .vis, .che, .mir] s (execRequestConfigured h s) := by
  delta execRequestConfigured
  refine .next (.after State.hostWrite_moves ?_)
  exact .refl

theorem execRequestArmed_moves {h : Hdr} {s : State} : MovesO [.fresh, .sent, .objs, .pwr, .flt, .bbx, .wilwa, .nonVol, .net, .tim, .rin, .fet, .mem, .dram, .pos, .lcg, .cmp, .sne, .fsq, .hlk, .hdg, .vis, .che, .mir] s (execRequestArmed h s) := by
  delta execRequestArmed
  refine .next (.after State.hostWrite_moves ?_)
  exact .refl

theorem execRequestPrinting_moves {h : Hdr} {s : State} : MovesO [.fresh, .sent, .objs, .pwr, .flt, .bbx, .wilwa, .nonVol, .net, .tim, .rin, .fet, .mem, .dram, .pos, .lcg, .cmp, .sne, .fsq, .hlk, .hdg, .vis, .che, .mir] s (execRequestPrinting h s) := by
  delta execRequestPrinting
  refine .next (.after State.hostWrite_moves ?_)
  exact .refl

theorem execRequestHeld_moves {h : Hdr} {s : State} : MovesO [.fresh, .sent, .objs, .pwr, .flt, .bbx, .wilwa, .nonVol, .net, .tim, .rin, .fet, .mem, .dram, .pos, .lcg, .cmp, .sne, .fsq, .hlk, .hdg, .vis, .che, .mir] s (execRequestHeld h s) := by
  delta execRequestHeld
  refine .next (.after State.hostWrite_moves ?_)
  exact .refl

theorem execRequestFrozen_moves {h : Hdr} {s : State} : MovesO [.fresh, .sent, .objs, .pwr, .flt, .bbx, .wilwa, .nonVol, .net, .tim, .rin, .fet, .mem, .dram, .pos, .lcg, .cmp, .sne, .fsq, .hlk, .hdg, .vis, .che, .mir] s (execRequestFrozen h s) := by
  delta execRequestFrozen
  refine .next (.after State.hostWrite_moves ?_)
  exact .refl

theorem execResetRequestChip_moves {h : Hdr} {s : State} : MovesO [.fresh, .sent, .objs, .pwr, .flt, .bbx, .wilwa, .nonVol, .net, .tim, .rin, .fet, .mem, .dram, .pos, .lcg, .cmp, .sne, .fsq, .hlk, .hdg, .vis, .che, .mir] s (execResetRequestChip h s) := by
  delta execResetRequestChip
  refine .next (.after State.hostWrite_moves ?_)
  exact .refl

theorem execResetRequestBlock_moves {h : Hdr} {s : State} : MovesO [.fresh, .sent, .objs, .pwr, .flt, .bbx, .wilwa, .nonVol, .net, .tim, .rin, .fet, .mem, .dram, .pos, .lcg, .cmp, .sne, .fsq, .hlk, .hdg, .vis, .che, .mir] s (execResetRequestBlock h s) := by
  delta execResetRequestBlock
  refine .next (.after State.hostWrite_moves ?_)
  exact .refl

theorem execDomainRequest_moves {h : Hdr} {value : BitVec 32} {s : State} : MovesO [.fresh, .sent, .objs, .pwr, .flt, .bbx, .wilwa, .nonVol, .net, .tim, .rin, .fet, .mem, .dram, .pos, .lcg, .cmp, .sne, .fsq, .hlk, .hdg, .vis, .che, .mir] s (execDomainRequest h value s) := by
  delta execDomainRequest
  refine .next (.after State.hostWrite_moves ?_)
  exact .refl

theorem execOpenRequest_moves {h : Hdr} {versions : Bytes} {emergency : BitVec 8} {s : State} : MovesO [.fresh, .sent, .objs, .wilwa] s (execOpenRequest h versions emergency s) := by
  delta execOpenRequest
  extract_lets l1 l2 l3 l4
  have h_l4 : ∀ a1, MovesO [.fresh, .sent, .objs, .wilwa] s (l4 a1) := by
    intro a1
    unfold l4
    refine .next (.after State.sendDgram_moves ?_)
    exact .refl
  refine .ite ?_ ?_
  · exact .next .refl
  · refine .ite ?_ ?_
    · refine h_l4 _
    · split
      · refine .next (.after State.sendDgram_moves ?_)
        exact .refl
      · refine h_l4 _
      · refine .ite ?_ ?_
        · refine h_l4 _
        · refine .next (.after State.openSession_moves ?_)
          exact .refl

theorem execUnlockRequest_moves {h : Hdr} {level : BitVec 8} {nonce : Bytes} {s : State} : MovesO [.fresh, .sent, .objs, .flt, .bbx, .wilwa] s (execUnlockRequest h level nonce s) := by
  delta execUnlockRequest
  refine .next ?_
  refine State.requestV_moves ?_ fun y2 t1 h_t1 => ?_
  · exact .refl
  · split
    · exact .mk h_t1
    · split
      · rename_i x3 x4 x5 x6
        have h_x5 : Moves [.fresh, .sent, .objs, .flt, .bbx, .wilwa] s x5 := by
          refine MovesP.of_eq x6 (.after State.freeBytes_moves ?_)
          exact h_t1
        extract_lets l7
        have h_l7 : Moves [.fresh, .sent, .objs, .flt, .bbx, .wilwa] s l7 := by
          unfold l7
          exact .after (State.modSession_moves (fun _ => ⟨rfl, rfl⟩)) h_x5
        exact .mk h_l7

theorem execUnlockExchangeTimeout_moves {sid : BitVec 16} {s : State} : MovesO [.wilwa] s (execUnlockExchangeTimeout sid s) := by
  delta execUnlockExchangeTimeout
  refine .next ?_
  exact .after (State.modSession_moves (fun _ => ⟨rfl, rfl⟩)) .refl

theorem execUnlockLockoutEnd_moves {s : State} : MovesO [.wilwa] s (execUnlockLockoutEnd s) := by
  delta execUnlockLockoutEnd
  extract_lets l1
  refine .next (.wilwa ?_)
  exact .refl

theorem execClose_moves {h : Hdr} {s : State} : MovesO [.sent, .objs, .flt, .bbx, .wilwa] s (execClose h s) := by
  delta execClose
  refine .next ?_
  refine State.requestV_moves ?_ fun y2 t1 h_t1 => ?_
  · exact .refl
  · refine .mk (.after State.closeSession_moves ?_)
    exact h_t1

theorem execKeepAlive_moves {h : Hdr} {s : State} : MovesO [.sent, .objs, .flt, .bbx, .wilwa] s (execKeepAlive h s) := by
  delta execKeepAlive
  refine .next ?_
  refine State.requestV_moves ?_ fun y2 t1 h_t1 => ?_
  · exact .refl
  · exact .mk h_t1

theorem execSessionTimeout_moves {sid : BitVec 16} {s : State} : MovesO [.sent, .objs, .flt, .bbx, .wilwa] s (execSessionTimeout sid s) := by
  delta execSessionTimeout
  split
  · refine .next (.after State.raise_moves ?_)
    exact .after State.closeSession_moves .refl
  · exact .next .refl

theorem execRead_moves {h : Hdr} {idx : BitVec 16} {sub : BitVec 8} {opts : BitVec 8} {s : State} : MovesO [.fresh, .sent, .objs, .flt, .bbx, .wilwa] s (execRead h idx sub opts s) := by
  delta execRead
  extract_lets l1
  refine .next ?_
  refine State.requestV_moves ?_ fun y3 t2 h_t2 => ?_
  · exact .refl
  · split
    · rename_i x4 x5 x6
      exact .mk h_t2
    · rename_i x7 x8 x9 x10
      have h_x9 : Moves [.fresh, .sent, .objs, .flt, .bbx, .wilwa] s x9 := by
        refine MovesP.of_eq rfl (MovesF.of_eq x10 ?_)
        exact .after State.read_moves h_t2
      exact .mk h_x9

theorem execWrite_moves {h : Hdr} {idx : BitVec 16} {sub : BitVec 8} {opts : BitVec 8} {value : Bytes} {s : State} : MovesO [.fresh, .sent, .objs, .pwr, .flt, .bbx, .wilwa, .nonVol, .net, .tim, .rin, .fet, .mem, .dram, .pos, .lcg, .cmp, .sne, .fsq, .hlk, .hdg, .vis, .che, .mir] s (execWrite h idx sub opts value s) := by
  delta execWrite
  refine .next (.after State.hostWrite_moves ?_)
  exact .refl

theorem execDescribe_moves {h : Hdr} {idx : BitVec 16} {sub : BitVec 8} {opts : BitVec 8} {s : State} : MovesO [.sent, .objs, .flt, .bbx, .wilwa] s (execDescribe h idx sub opts s) := by
  delta execDescribe
  extract_lets l1
  refine .next ?_
  refine State.requestV_moves ?_ fun y3 t2 h_t2 => ?_
  · exact .refl
  · split
    · exact .mk h_t2
    · exact .mk h_t2
    · exact .mk h_t2

theorem execMalformedDatagram_moves {length : Nat} {s : State} : MovesO [.objs] s (execMalformedDatagram length s) := by
  delta execMalformedDatagram
  refine .next (.ite ?_ ?_)
  · exact .after State.bump_moves .refl
  · exact .refl

theorem execOversizeDatagram_moves {length : Nat} {v6 : Bool} {s : State} : MovesO [.objs] s (execOversizeDatagram length v6 s) := by
  delta execOversizeDatagram
  refine .next (.ite ?_ ?_)
  · exact .after State.bump_moves .refl
  · exact .refl

theorem execTransferInit_moves {h : Hdr} {idx : BitVec 16} {sub : BitVec 8} {dir : BitVec 8} {total : BitVec 32} {s : State} : MovesO [.fresh, .sent, .objs, .flt, .bbx, .wilwa] s (execTransferInit h idx sub dir total s) := by
  delta execTransferInit
  extract_lets l1 l2
  have h_l2 : Moves [.fresh, .sent, .objs, .flt, .bbx, .wilwa] s l2 := by
    unfold l2
    refine State.requestV_moves ?_ fun y4 t3 h_t3 => ?_
    · exact .refl
    · refine .ite ?_ ?_
      · exact .mk h_t3
      · exact .after State.transferInit_moves h_t3
  refine .next ?_
  refine .forEach ?_ fun i5 t6 h_t6 => ?_
  · exact h_l2
  · exact .after State.pump_moves h_t6

theorem execSegment_moves {h : Hdr} {tid : BitVec 16} {off : BitVec 32} {data : Bytes} {s : State} : MovesO [.sent, .objs, .flt, .bbx, .wilwa] s (execSegment h tid off data s) := by
  delta execSegment
  refine .next ?_
  refine State.notice_moves ?_ fun y2 t1 h_t1 => ?_
  · exact .refl
  · split
    · exact h_t1
    · extract_lets l3 l4 l5 l6 l7
      have h_l7 : Moves [.sent, .objs, .flt, .bbx, .wilwa] s l7 := by
        unfold l7
        exact .after State.modTransfer_moves h_t1
      refine .ite ?_ ?_
      · exact h_t1
      · refine .ite ?_ ?_
        · split
          · exact .after State.transferSend_moves h_t1
          · exact h_t1
        · refine .ite ?_ ?_
          · exact .after State.transferSend_moves h_l7
          · exact h_l7

theorem execSegmentAck_moves {h : Hdr} {tid : BitVec 16} {acked : BitVec 32} {s : State} : MovesO [.sent, .objs, .flt, .bbx, .wilwa] s (execSegmentAck h tid acked s) := by
  delta execSegmentAck
  refine .next ?_
  refine State.notice_moves ?_ fun y2 t1 h_t1 => ?_
  · exact .refl
  · split
    · exact h_t1
    · extract_lets l3 l4
      have h_l4 : Moves [.sent, .objs, .flt, .bbx, .wilwa] s l4 := by
        unfold l4
        exact .after State.modTransfer_moves h_t1
      refine .ite ?_ ?_
      · exact h_t1
      · split
        · exact .after State.pump_moves h_l4
        · exact h_l4

theorem execTransferEnd_moves {h : Hdr} {tid : BitVec 16} {crc : BitVec 32} {s : State} : MovesO [.fresh, .sent, .objs, .pwr, .flt, .bbx, .wilwa, .nonVol, .net, .tim, .rin, .fet, .mem, .dram, .pos, .lcg, .cmp, .sne, .fsq, .hlk, .hdg, .vis, .che, .mir] s (execTransferEnd h tid crc s) := by
  delta execTransferEnd
  extract_lets l1
  refine .next ?_
  refine State.requestV_moves ?_ fun y3 t2 h_t2 => ?_
  · exact .refl
  · split
    · rename_i x4 x5 x6 x7
      have h_x6 : Moves [.fresh, .sent, .objs, .pwr, .flt, .bbx, .wilwa, .nonVol, .net, .tim, .rin, .fet, .mem, .dram, .pos, .lcg, .cmp, .sne, .fsq, .hlk, .hdg, .vis, .che, .mir] s x6 := by
        refine MovesP.of_eq x7 (.after State.transferEnd_moves ?_)
        exact h_t2
      exact .mk h_x6

theorem execTransferAbort_moves {h : Hdr} {tid : BitVec 16} {code : BitVec 32} {s : State} : MovesO [.sent, .objs, .flt, .bbx, .wilwa] s (execTransferAbort h tid code s) := by
  delta execTransferAbort
  refine .next ?_
  refine State.notice_moves ?_ fun y2 t1 h_t1 => ?_
  · exact .refl
  · split
    · exact .after State.dropTransfer_moves h_t1
    · exact h_t1

theorem execTransferResendTimeout_moves {tid : BitVec 16} {s : State} : MovesO [.sent, .objs, .wilwa] s (execTransferResendTimeout tid s) := by
  delta execTransferResendTimeout
  split
  · exact .next .refl
  · extract_lets l1
    have h_l1 : Moves [.sent, .objs, .wilwa] s l1 := by
      unfold l1
      exact .after State.modTransfer_moves .refl
    refine .ite ?_ ?_
    · exact .next .refl
    · refine .next ?_
      split
      · exact .after State.pump_moves h_l1
      · exact h_l1

theorem execTransferTimeout_moves {tid : BitVec 16} {s : State} : MovesO [.sent, .objs, .wilwa] s (execTransferTimeout tid s) := by
  delta execTransferTimeout
  split
  · refine .next (.after State.abortTransfer_moves ?_)
    exact .refl
  · exact .next .refl

theorem execCommitRequest_moves {h : Hdr} {area : BitVec 8} {value : BitVec 32} {s : State} : MovesO [.fresh, .sent, .objs, .pwr, .flt, .bbx, .wilwa, .nonVol, .net, .tim, .rin, .fet, .mem, .dram, .pos, .lcg, .cmp, .sne, .fsq, .hlk, .hdg, .vis, .che, .mir] s (execCommitRequest h area value s) := by
  delta execCommitRequest
  refine .next (.after State.hostWrite_moves ?_)
  exact .refl

theorem execEmergencyAck_moves {h : Hdr} {seq : BitVec 32} {s : State} : MovesO [.sent, .objs, .flt, .bbx, .wilwa] s (execEmergencyAck h seq s) := by
  delta execEmergencyAck
  refine .next ?_
  refine State.notice_moves ?_ fun y2 t1 h_t1 => ?_
  · exact .refl
  · exact .after (State.modSession_moves (fun _ => ⟨rfl, rfl⟩)) h_t1

theorem execEmergencyRetransmitTimeout_moves {sid : BitVec 16} {seq : BitVec 32} {s : State} : MovesO [.sent, .objs, .flt, .bbx, .wilwa] s (execEmergencyRetransmitTimeout sid seq s) := by
  delta execEmergencyRetransmitTimeout
  split
  · exact .next .refl
  · split
    · exact .next .refl
    · extract_lets l1 l2
      have h_l1 : Moves [.sent, .objs, .flt, .bbx, .wilwa] s l1 := by
        unfold l1
        exact .after (State.modSession_moves (fun _ => ⟨rfl, rfl⟩)) .refl
      have h_l2 : Moves [.sent, .objs, .flt, .bbx, .wilwa] s l2 := by
        unfold l2
        exact .after (State.modSession_moves (fun _ => ⟨rfl, rfl⟩)) .refl
      refine .ite ?_ ?_
      · refine .next (.after State.sendDgram_moves ?_)
        exact h_l1
      · refine .next (.after State.raise_moves ?_)
        exact .after State.irq_moves h_l2

theorem execIrqCauseClear_moves {h : Hdr} {mask : BitVec 32} {s : State} : MovesO [.fresh, .sent, .objs, .pwr, .flt, .bbx, .wilwa, .nonVol, .net, .tim, .rin, .fet, .mem, .dram, .pos, .lcg, .cmp, .sne, .fsq, .hlk, .hdg, .vis, .che, .mir] s (execIrqCauseClear h mask s) := by
  delta execIrqCauseClear
  refine .next (.after State.hostWrite_moves ?_)
  exact .refl

theorem execCyclicTxRunWrite_moves {h : Hdr} {run : Bool} {s : State} : MovesO [.fresh, .sent, .objs, .pwr, .flt, .bbx, .wilwa, .nonVol, .net, .tim, .rin, .fet, .mem, .dram, .pos, .lcg, .cmp, .sne, .fsq, .hlk, .hdg, .vis, .che, .mir] s (execCyclicTxRunWrite h run s) := by
  delta execCyclicTxRunWrite
  refine .next (.after State.hostWrite_moves ?_)
  exact .refl

theorem execCyclicRxRunWrite_moves {h : Hdr} {run : Bool} {s : State} : MovesO [.fresh, .sent, .objs, .pwr, .flt, .bbx, .wilwa, .nonVol, .net, .tim, .rin, .fet, .mem, .dram, .pos, .lcg, .cmp, .sne, .fsq, .hlk, .hdg, .vis, .che, .mir] s (execCyclicRxRunWrite h run s) := by
  delta execCyclicRxRunWrite
  refine .next (.after State.hostWrite_moves ?_)
  exact .refl

theorem execCycleBoundary_moves {s : State} : MovesO [.fresh, .objs, .wilwa] s (execCycleBoundary s) := by
  delta execCycleBoundary
  extract_lets l1 l2 l3
  have h_l3 : Moves [.fresh, .objs, .wilwa] s l3 := by
    unfold l3
    exact .wilwa .refl
  refine .ite ?_ ?_
  · exact .next .refl
  · refine .ite ?_ ?_
    · split
      · rename_i x4 x5 x6 x7
        have h_x6 : Moves [.fresh, .objs, .wilwa] s x6 := by
          refine MovesP.of_eq x7 (.after State.sampleMap_moves ?_)
          exact h_l3
        extract_lets l8
        refine .next (.wilwa ?_)
        exact h_x6
    · exact .next h_l3

theorem execCyclicTransmit_moves {s : State} : MovesO [.sent, .objs, .wilwa] s (execCyclicTransmit s) := by
  delta execCyclicTransmit
  split
  · extract_lets l1 l2 l3
    have h_l2 : Moves [.sent, .objs, .wilwa] s l2 := by
      unfold l2
      exact .wilwa .refl
    refine .ite ?_ ?_
    · exact .next .refl
    · refine .next (.after State.bump_moves ?_)
      exact .after State.sendDgram_moves h_l2
  · exact .next .refl

theorem execCyclicReceive_moves {h : Hdr} {payload : Bytes} {s : State} : MovesO [.sent, .objs, .flt, .bbx, .wilwa] s (execCyclicReceive h payload s) := by
  delta execCyclicReceive
  refine .next ?_
  refine State.notice_moves ?_ fun y2 t1 h_t1 => ?_
  · exact .refl
  · extract_lets l3
    refine .ite ?_ ?_
    · exact h_t1
    · refine .ite ?_ ?_
      · exact .wilwa h_t1
      · exact .after State.bump_moves h_t1

theorem execCyclicRxApply_moves {s : State} : MovesO [.fresh, .sent, .objs, .pwr, .flt, .bbx, .wilwa, .nonVol, .net, .tim, .rin, .fet, .mem, .dram, .pos, .lcg, .cmp, .sne, .fsq, .hlk, .hdg, .vis, .che, .mir] s (execCyclicRxApply s) := by
  delta execCyclicRxApply
  split
  · extract_lets l1
    refine .ite ?_ ?_
    · exact .next .refl
    · split
      · refine .next (.after State.applyMap_moves ?_)
        exact .wilwa .refl
      · refine .next (.after State.bump_moves ?_)
        exact .wilwa .refl
  · exact .next .refl

theorem execCyclicRxWatchdogExpiry_moves {s : State} : MovesO [.objs, .flt, .bbx, .wilwa] s (execCyclicRxWatchdogExpiry s) := by
  delta execCyclicRxWatchdogExpiry
  extract_lets l1 l2
  have h_l2 : Moves [.objs, .flt, .bbx, .wilwa] s l2 := by
    unfold l2
    exact .wilwa .refl
  refine .ite ?_ ?_
  · exact .next .refl
  · refine .next (.after State.raise_moves ?_)
    exact .after State.irq_moves h_l2

theorem execOperatorCredentialWrite_moves {h : Hdr} {credential : Bytes} {s : State} : MovesO [.fresh, .sent, .objs, .pwr, .flt, .bbx, .wilwa, .nonVol, .net, .tim, .rin, .fet, .mem, .dram, .pos, .lcg, .cmp, .sne, .fsq, .hlk, .hdg, .vis, .che, .mir] s (execOperatorCredentialWrite h credential s) := by
  delta execOperatorCredentialWrite
  refine .next (.after State.hostWrite_moves ?_)
  exact .refl

theorem execServiceCredentialWrite_moves {h : Hdr} {credential : Bytes} {s : State} : MovesO [.fresh, .sent, .objs, .pwr, .flt, .bbx, .wilwa, .nonVol, .net, .tim, .rin, .fet, .mem, .dram, .pos, .lcg, .cmp, .sne, .fsq, .hlk, .hdg, .vis, .che, .mir] s (execServiceCredentialWrite h credential s) := by
  delta execServiceCredentialWrite
  refine .next (.after State.hostWrite_moves ?_)
  exact .refl

theorem execAnnounceReceived_moves {ann : Announce} {s : State} : MovesO [.fresh, .objs, .flt, .bbx, .tim] s (execAnnounceReceived ann s) := by
  delta execAnnounceReceived
  refine .next (.after State.announce_moves ?_)
  exact .refl

theorem execSyncReceived_moves {m : PtpMsg} {s : State} : MovesO [.fresh, .objs, .flt, .bbx, .tim, .che] s (execSyncReceived m s) := by
  delta execSyncReceived
  extract_lets l1 l2 l3 l4
  have h_l2 : Moves [.fresh, .objs, .flt, .bbx, .tim, .che] s l2 := by
    unfold l2
    exact .after State.modDom_moves .refl
  refine .ite ?_ ?_
  · exact .next .refl
  · refine .ite ?_ ?_
    · refine .next (.after State.modDom_moves ?_)
      exact h_l2
    · refine .next (.after State.runSync_moves ?_)
      exact h_l2

theorem execDelayRespReceived_moves {m : PtpMsg} {s : State} : MovesO [.fresh, .tim] s (execDelayRespReceived m s) := by
  delta execDelayRespReceived
  extract_lets l1 l2 l3
  refine .ite ?_ ?_
  · split
    · extract_lets l4
      refine .ite ?_ ?_
      · split
        · rename_i x5 x6 x7 x8
          have h_x7 : Moves [.fresh, .tim] s x7 := by
            refine MovesP.of_eq x8 (.after State.freeQuot_moves ?_)
            exact .refl
          extract_lets l9
          have h_l9 : Moves [.fresh, .tim] s l9 := by
            unfold l9
            exact .after State.modDom_moves h_x7
          refine .next (.after State.delaySample_moves ?_)
          exact h_l9
      · exact .next .refl
    · exact .next .refl
  · exact .next .refl

theorem execPdelayReqReceived_moves {m : PtpMsg} {s : State} : MovesO [.fresh, .sent] s (execPdelayReqReceived m s) := by
  delta execPdelayReqReceived
  extract_lets l1
  refine .ite ?_ ?_
  · split
    · rename_i x2 x3 x4 x5
      have h_x4 : Moves [.fresh, .sent] s x4 := by
        refine MovesP.of_eq x5 (.after State.free_moves ?_)
        exact .refl
      extract_lets l6
      refine .next (.after State.sendPtp_moves ?_)
      exact h_x4
  · exact .next .refl

theorem execPdelayRespReceived_moves {m : PtpMsg} {t2 : Nat} {t3 : Nat} {s : State} : MovesO [.fresh, .net] s (execPdelayRespReceived m t2 t3 s) := by
  delta execPdelayRespReceived
  extract_lets l1 l2 l3
  split
  · refine .ite ?_ ?_
    · split
      · rename_i x4 x5 x6 x7
        have h_x6 : Moves [.fresh, .net] s x6 := by
          refine MovesP.of_eq x7 (.after State.freeQuot_moves ?_)
          exact .refl
        extract_lets l8
        refine .next (.net ?_)
        exact h_x6
    · exact .next .refl
  · exact .next .refl

theorem execDelayReqIntervalExpiry_moves {domain : BitVec 8} {s : State} : MovesO [.fresh, .sent, .tim] s (execDelayReqIntervalExpiry domain s) := by
  delta execDelayReqIntervalExpiry
  extract_lets l1 l2
  split
  · refine .ite ?_ ?_
    · split
      · rename_i x3 x4 x5 x6
        have h_x5 : Moves [.fresh, .sent, .tim] s x5 := by
          refine MovesP.of_eq x6 (.after State.free_moves ?_)
          exact .refl
        extract_lets l7 l8
        have h_l8 : Moves [.fresh, .sent, .tim] s l8 := by
          unfold l8
          exact .after State.modDom_moves h_x5
        refine .next (.after State.sendPtp_moves ?_)
        exact h_l8
    · exact .next .refl
  · exact .next .refl

theorem execPdelayReqIntervalExpiry_moves {port : Fin 2} {s : State} : MovesO [.fresh, .sent, .net] s (execPdelayReqIntervalExpiry port s) := by
  delta execPdelayReqIntervalExpiry
  extract_lets l1
  refine .ite ?_ ?_
  · split
    · rename_i x2 x3 x4 x5
      have h_x4 : Moves [.fresh, .sent, .net] s x4 := by
        refine MovesP.of_eq x5 (.after State.free_moves ?_)
        exact .refl
      extract_lets l6 l7 l8 l9
      have h_l9 : Moves [.fresh, .sent, .net] s l9 := by
        unfold l9
        exact .net h_x4
      refine .next (.after State.sendPtp_moves ?_)
      exact h_l9
  · exact .next .refl

theorem execMasterLostTimeout_moves {domain : BitVec 8} {s : State} : MovesO [.fresh, .objs, .flt, .bbx, .tim] s (execMasterLostTimeout domain s) := by
  delta execMasterLostTimeout
  refine .next (.ite ?_ ?_)
  · exact .after State.masterLost_moves .refl
  · exact .refl

theorem execEraWrap_moves {s : State} : MovesO [.objs, .flt, .bbx, .tim] s (execEraWrap s) := by
  delta execEraWrap
  extract_lets l1 l2
  have h_l1 : Moves [.objs, .flt, .bbx, .tim] s l1 := by
    unfold l1
    exact .after State.markSteps_moves .refl
  refine .ite ?_ ?_
  · refine .next (.ite ?_ ?_)
    · exact .after State.markEra_moves h_l1
    · exact h_l1
  · exact .next .refl

theorem execTimeSet_moves {h : Hdr} {value : Bytes} {s : State} : MovesO [.fresh, .sent, .objs, .pwr, .flt, .bbx, .wilwa, .nonVol, .net, .tim, .rin, .fet, .mem, .dram, .pos, .lcg, .cmp, .sne, .fsq, .hlk, .hdg, .vis, .che, .mir] s (execTimeSet h value s) := by
  delta execTimeSet
  refine .next (.after State.hostWrite_moves ?_)
  exact .refl

theorem execServoEnableWrite_moves {h : Hdr} {enable : Bool} {s : State} : MovesO [.fresh, .sent, .objs, .pwr, .flt, .bbx, .wilwa, .nonVol, .net, .tim, .rin, .fet, .mem, .dram, .pos, .lcg, .cmp, .sne, .fsq, .hlk, .hdg, .vis, .che, .mir] s (execServoEnableWrite h enable s) := by
  delta execServoEnableWrite
  refine .next (.after State.hostWrite_moves ?_)
  exact .refl

theorem execLegacyLatch_moves {h : Hdr} {s : State} : MovesO [.fresh, .sent, .objs, .pwr, .flt, .bbx, .wilwa, .nonVol, .net, .tim, .rin, .fet, .mem, .dram, .pos, .lcg, .cmp, .sne, .fsq, .hlk, .hdg, .vis, .che, .mir] s (execLegacyLatch h s) := by
  delta execLegacyLatch
  refine .next (.after State.hostWrite_moves ?_)
  exact .refl

theorem execMdioC22Write_moves {h : Hdr} {phy : BitVec 5} {reg : BitVec 5} {data : BitVec 16} {s : State} : MovesO [.fresh, .sent, .objs, .pwr, .flt, .bbx, .wilwa, .nonVol, .net, .tim, .rin, .fet, .mem, .dram, .pos, .lcg, .cmp, .sne, .fsq, .hlk, .hdg, .vis, .che, .mir] s (execMdioC22Write h phy reg data s) := by
  delta execMdioC22Write
  refine .next (.after State.hostWrite_moves ?_)
  exact .refl

theorem execMdioC22Read_moves {h : Hdr} {phy : BitVec 5} {reg : BitVec 5} {data : BitVec 16} {s : State} : MovesO [.fresh, .sent, .objs, .pwr, .flt, .bbx, .wilwa, .nonVol, .net, .tim, .rin, .fet, .mem, .dram, .pos, .lcg, .cmp, .sne, .fsq, .hlk, .hdg, .vis, .che, .mir] s (execMdioC22Read h phy reg data s) := by
  delta execMdioC22Read
  refine .next (.after State.hostWrite_moves ?_)
  exact .refl

theorem execMdioC45Address_moves {h : Hdr} {phy : BitVec 5} {dev : BitVec 5} {data : BitVec 16} {s : State} : MovesO [.fresh, .sent, .objs, .pwr, .flt, .bbx, .wilwa, .nonVol, .net, .tim, .rin, .fet, .mem, .dram, .pos, .lcg, .cmp, .sne, .fsq, .hlk, .hdg, .vis, .che, .mir] s (execMdioC45Address h phy dev data s) := by
  delta execMdioC45Address
  refine .next (.after State.hostWrite_moves ?_)
  exact .refl

theorem execMdioC45Write_moves {h : Hdr} {phy : BitVec 5} {dev : BitVec 5} {data : BitVec 16} {s : State} : MovesO [.fresh, .sent, .objs, .pwr, .flt, .bbx, .wilwa, .nonVol, .net, .tim, .rin, .fet, .mem, .dram, .pos, .lcg, .cmp, .sne, .fsq, .hlk, .hdg, .vis, .che, .mir] s (execMdioC45Write h phy dev data s) := by
  delta execMdioC45Write
  refine .next (.after State.hostWrite_moves ?_)
  exact .refl

theorem execMdioC45Read_moves {h : Hdr} {phy : BitVec 5} {dev : BitVec 5} {data : BitVec 16} {s : State} : MovesO [.fresh, .sent, .objs, .pwr, .flt, .bbx, .wilwa, .nonVol, .net, .tim, .rin, .fet, .mem, .dram, .pos, .lcg, .cmp, .sne, .fsq, .hlk, .hdg, .vis, .che, .mir] s (execMdioC45Read h phy dev data s) := by
  delta execMdioC45Read
  refine .next (.after State.hostWrite_moves ?_)
  exact .refl

theorem execIntakeEnableWrite_moves {h : Hdr} {enable : Bool} {s : State} : MovesO [.fresh, .sent, .objs, .pwr, .flt, .bbx, .wilwa, .nonVol, .net, .tim, .rin, .fet, .mem, .dram, .pos, .lcg, .cmp, .sne, .fsq, .hlk, .hdg, .vis, .che, .mir] s (execIntakeEnableWrite h enable s) := by
  delta execIntakeEnableWrite
  refine .next (.after State.hostWrite_moves ?_)
  exact .refl

theorem execForwardRestart_moves {h : Hdr} {s : State} : MovesO [.fresh, .sent, .objs, .pwr, .flt, .bbx, .wilwa, .nonVol, .net, .tim, .rin, .fet, .mem, .dram, .pos, .lcg, .cmp, .sne, .fsq, .hlk, .hdg, .vis, .che, .mir] s (execForwardRestart h s) := by
  delta execForwardRestart
  refine .next (.after State.hostWrite_moves ?_)
  exact .refl

theorem execSlotOpen_moves {h : Hdr} {slot : Fin 2} {s : State} : MovesO [.fresh, .sent, .objs, .pwr, .flt, .bbx, .wilwa, .nonVol, .net, .tim, .rin, .fet, .mem, .dram, .pos, .lcg, .cmp, .sne, .fsq, .hlk, .hdg, .vis, .che, .mir] s (execSlotOpen h slot s) := by
  delta execSlotOpen
  refine .next (.after State.hostWrite_moves ?_)
  exact .refl

theorem execSlotSeal_moves {h : Hdr} {slot : Fin 2} {s : State} : MovesO [.fresh, .sent, .objs, .pwr, .flt, .bbx, .wilwa, .nonVol, .net, .tim, .rin, .fet, .mem, .dram, .pos, .lcg, .cmp, .sne, .fsq, .hlk, .hdg, .vis, .che, .mir] s (execSlotSeal h slot s) := by
  delta execSlotSeal
  refine .next (.after State.hostWrite_moves ?_)
  exact .refl

theorem execSlotClear_moves {h : Hdr} {slot : Fin 2} {s : State} : MovesO [.fresh, .sent, .objs, .pwr, .flt, .bbx, .wilwa, .nonVol, .net, .tim, .rin, .fet, .mem, .dram, .pos, .lcg, .cmp, .sne, .fsq, .hlk, .hdg, .vis, .che, .mir] s (execSlotClear h slot s) := by
  delta execSlotClear
  refine .next (.after State.hostWrite_moves ?_)
  exact .refl

theorem execQueuedSlotWrite_moves {h : Hdr} {value : BitVec 8} {s : State} : MovesO [.fresh, .sent, .objs, .pwr, .flt, .bbx, .wilwa, .nonVol, .net, .tim, .rin, .fet, .mem, .dram, .pos, .lcg, .cmp, .sne, .fsq, .hlk, .hdg, .vis, .che, .mir] s (execQueuedSlotWrite h value s) := by
  delta execQueuedSlotWrite
  refine .next (.after State.hostWrite_moves ?_)
  exact .refl

theorem execChangeAtRepeatWrite_moves {h : Hdr} {value : BitVec 32} {s : State} : MovesO [.fresh, .sent, .objs, .pwr, .flt, .bbx, .wilwa, .nonVol, .net, .tim, .rin, .fet, .mem, .dram, .pos, .lcg, .cmp, .sne, .fsq, .hlk, .hdg, .vis, .che, .mir] s (execChangeAtRepeatWrite h value s) := by
  delta execChangeAtRepeatWrite
  refine .next (.after State.hostWrite_moves ?_)
  exact .refl

theorem execChannelReleaseIssue_moves {h : Hdr} {c : Chan} {s : State} : MovesO [.fresh, .sent, .objs, .pwr, .flt, .bbx, .wilwa, .nonVol, .net, .tim, .rin, .fet, .mem, .dram, .pos, .lcg, .cmp, .sne, .fsq, .hlk, .hdg, .vis, .che, .mir] s (execChannelReleaseIssue h c s) := by
  delta execChannelReleaseIssue
  refine .next (.after State.hostWrite_moves ?_)
  exact .refl

theorem execChannelReleaseDiscard_moves {h : Hdr} {c : Chan} {s : State} : MovesO [.fresh, .sent, .objs, .pwr, .flt, .bbx, .wilwa, .nonVol, .net, .tim, .rin, .fet, .mem, .dram, .pos, .lcg, .cmp, .sne, .fsq, .hlk, .hdg, .vis, .che, .mir] s (execChannelReleaseDiscard h c s) := by
  delta execChannelReleaseDiscard
  refine .next (.after State.hostWrite_moves ?_)
  exact .refl

theorem execChannelReleaseRetrain_moves {h : Hdr} {c : Chan} {s : State} : MovesO [.fresh, .sent, .objs, .pwr, .flt, .bbx, .wilwa, .nonVol, .net, .tim, .rin, .fet, .mem, .dram, .pos, .lcg, .cmp, .sne, .fsq, .hlk, .hdg, .vis, .che, .mir] s (execChannelReleaseRetrain h c s) := by
  delta execChannelReleaseRetrain
  refine .next (.after State.hostWrite_moves ?_)
  exact .refl

theorem execTrainPresentPoint_moves {h : Hdr} {c : Chan} {s : State} : MovesO [.fresh, .sent, .objs, .pwr, .flt, .bbx, .wilwa, .nonVol, .net, .tim, .rin, .fet, .mem, .dram, .pos, .lcg, .cmp, .sne, .fsq, .hlk, .hdg, .vis, .che, .mir] s (execTrainPresentPoint h c s) := by
  delta execTrainPresentPoint
  refine .next (.after State.hostWrite_moves ?_)
  exact .refl

theorem execClearStoredResults_moves {h : Hdr} {c : Chan} {s : State} : MovesO [.fresh, .sent, .objs, .pwr, .flt, .bbx, .wilwa, .nonVol, .net, .tim, .rin, .fet, .mem, .dram, .pos, .lcg, .cmp, .sne, .fsq, .hlk, .hdg, .vis, .che, .mir] s (execClearStoredResults h c s) := by
  delta execClearStoredResults
  refine .next (.after State.hostWrite_moves ?_)
  exact .refl

theorem execOpPointSelectWrite_moves {h : Hdr} {c : Chan} {value : BitVec 8} {s : State} : MovesO [.fresh, .sent, .objs, .pwr, .flt, .bbx, .wilwa, .nonVol, .net, .tim, .rin, .fet, .mem, .dram, .pos, .lcg, .cmp, .sne, .fsq, .hlk, .hdg, .vis, .che, .mir] s (execOpPointSelectWrite h c value s) := by
  delta execOpPointSelectWrite
  refine .next (.after State.hostWrite_moves ?_)
  exact .refl

theorem execChannelEnableWrite_moves {h : Hdr} {c : Chan} {enable : Bool} {s : State} : MovesO [.fresh, .sent, .objs, .pwr, .flt, .bbx, .wilwa, .nonVol, .net, .tim, .rin, .fet, .mem, .dram, .pos, .lcg, .cmp, .sne, .fsq, .hlk, .hdg, .vis, .che, .mir] s (execChannelEnableWrite h c enable s) := by
  delta execChannelEnableWrite
  refine .next (.after State.hostWrite_moves ?_)
  exact .refl

theorem execDimmSettingWrite_moves {h : Hdr} {idx : BitVec 16} {sub : BitVec 8} {value : Bytes} {s : State} : MovesO [.fresh, .sent, .objs, .pwr, .flt, .bbx, .wilwa, .nonVol, .net, .tim, .rin, .fet, .mem, .dram, .pos, .lcg, .cmp, .sne, .fsq, .hlk, .hdg, .vis, .che, .mir] s (execDimmSettingWrite h idx sub value s) := by
  delta execDimmSettingWrite
  refine .next (.after State.hostWrite_moves ?_)
  exact .refl

theorem execLfsrSeedWrite_moves {h : Hdr} {c : Chan} {value : BitVec 32} {s : State} : MovesO [.fresh, .sent, .objs, .pwr, .flt, .bbx, .wilwa, .nonVol, .net, .tim, .rin, .fet, .mem, .dram, .pos, .lcg, .cmp, .sne, .fsq, .hlk, .hdg, .vis, .che, .mir] s (execLfsrSeedWrite h c value s) := by
  delta execLfsrSeedWrite
  refine .next (.after State.hostWrite_moves ?_)
  exact .refl

theorem execChannelModeWrite_moves {h : Hdr} {n : PosCh} {value : BitVec 8} {s : State} : MovesO [.fresh, .sent, .objs, .pwr, .flt, .bbx, .wilwa, .nonVol, .net, .tim, .rin, .fet, .mem, .dram, .pos, .lcg, .cmp, .sne, .fsq, .hlk, .hdg, .vis, .che, .mir] s (execChannelModeWrite h n value s) := by
  delta execChannelModeWrite
  refine .next (.after State.hostWrite_moves ?_)
  exact .refl

theorem execZoneWidthWrite_moves {h : Hdr} {b : Bar} {value : BitVec 32} {s : State} : MovesO [.fresh, .sent, .objs, .pwr, .flt, .bbx, .wilwa, .nonVol, .net, .tim, .rin, .fet, .mem, .dram, .pos, .lcg, .cmp, .sne, .fsq, .hlk, .hdg, .vis, .che, .mir] s (execZoneWidthWrite h b value s) := by
  delta execZoneWidthWrite
  refine .next (.after State.hostWrite_moves ?_)
  exact .refl

theorem execOutputLevelWrite_moves {h : Hdr} {value : BitVec 16} {s : State} : MovesO [.fresh, .sent, .objs, .pwr, .flt, .bbx, .wilwa, .nonVol, .net, .tim, .rin, .fet, .mem, .dram, .pos, .lcg, .cmp, .sne, .fsq, .hlk, .hdg, .vis, .che, .mir] s (execOutputLevelWrite h value s) := by
  delta execOutputLevelWrite
  refine .next (.after State.hostWrite_moves ?_)
  exact .refl

theorem execBitSlip_moves {h : Hdr} {l : Lane} {s : State} : MovesO [.fresh, .sent, .objs, .pwr, .flt, .bbx, .wilwa, .nonVol, .net, .tim, .rin, .fet, .mem, .dram, .pos, .lcg, .cmp, .sne, .fsq, .hlk, .hdg, .vis, .che, .mir] s (execBitSlip h l s) := by
  delta execBitSlip
  refine .next (.after State.hostWrite_moves ?_)
  exact .refl

theorem execLaneRetrain_moves {h : Hdr} {l : Lane} {s : State} : MovesO [.fresh, .sent, .objs, .pwr, .flt, .bbx, .wilwa, .nonVol, .net, .tim, .rin, .fet, .mem, .dram, .pos, .lcg, .cmp, .sne, .fsq, .hlk, .hdg, .vis, .che, .mir] s (execLaneRetrain h l s) := by
  delta execLaneRetrain
  refine .next (.after State.hostWrite_moves ?_)
  exact .refl

theorem execLaneEnterTest_moves {h : Hdr} {l : Lane} {s : State} : MovesO [.fresh, .sent, .objs, .pwr, .flt, .bbx, .wilwa, .nonVol, .net, .tim, .rin, .fet, .mem, .dram, .pos, .lcg, .cmp, .sne, .fsq, .hlk, .hdg, .vis, .che, .mir] s (execLaneEnterTest h l s) := by
  delta execLaneEnterTest
  refine .next (.after State.hostWrite_moves ?_)
  exact .refl

theorem execLaneLeaveTest_moves {h : Hdr} {l : Lane} {s : State} : MovesO [.fresh, .sent, .objs, .pwr, .flt, .bbx, .wilwa, .nonVol, .net, .tim, .rin, .fet, .mem, .dram, .pos, .lcg, .cmp, .sne, .fsq, .hlk, .hdg, .vis, .che, .mir] s (execLaneLeaveTest h l s) := by
  delta execLaneLeaveTest
  refine .next (.after State.hostWrite_moves ?_)
  exact .refl

theorem execTestInjectBit_moves {h : Hdr} {l : Lane} {s : State} : MovesO [.fresh, .sent, .objs, .pwr, .flt, .bbx, .wilwa, .nonVol, .net, .tim, .rin, .fet, .mem, .dram, .pos, .lcg, .cmp, .sne, .fsq, .hlk, .hdg, .vis, .che, .mir] s (execTestInjectBit h l s) := by
  delta execTestInjectBit
  refine .next (.after State.hostWrite_moves ?_)
  exact .refl

theorem execTestInjectBurst_moves {h : Hdr} {l : Lane} {s : State} : MovesO [.fresh, .sent, .objs, .pwr, .flt, .bbx, .wilwa, .nonVol, .net, .tim, .rin, .fet, .mem, .dram, .pos, .lcg, .cmp, .sne, .fsq, .hlk, .hdg, .vis, .che, .mir] s (execTestInjectBurst h l s) := by
  delta execTestInjectBurst
  refine .next (.after State.hostWrite_moves ?_)
  exact .refl

theorem execMeasStart_moves {h : Hdr} {s : State} : MovesO [.fresh, .sent, .objs, .pwr, .flt, .bbx, .wilwa, .nonVol, .net, .tim, .rin, .fet, .mem, .dram, .pos, .lcg, .cmp, .sne, .fsq, .hlk, .hdg, .vis, .che, .mir] s (execMeasStart h s) := by
  delta execMeasStart
  refine .next (.after State.hostWrite_moves ?_)
  exact .refl

theorem execMeasAbandon_moves {h : Hdr} {s : State} : MovesO [.fresh, .sent, .objs, .pwr, .flt, .bbx, .wilwa, .nonVol, .net, .tim, .rin, .fet, .mem, .dram, .pos, .lcg, .cmp, .sne, .fsq, .hlk, .hdg, .vis, .che, .mir] s (execMeasAbandon h s) := by
  delta execMeasAbandon
  refine .next (.after State.hostWrite_moves ?_)
  exact .refl

theorem execMeasCaptureBaseline_moves {h : Hdr} {s : State} : MovesO [.fresh, .sent, .objs, .pwr, .flt, .bbx, .wilwa, .nonVol, .net, .tim, .rin, .fet, .mem, .dram, .pos, .lcg, .cmp, .sne, .fsq, .hlk, .hdg, .vis, .che, .mir] s (execMeasCaptureBaseline h s) := by
  delta execMeasCaptureBaseline
  refine .next (.after State.hostWrite_moves ?_)
  exact .refl

theorem execPendingApply_moves {h : Hdr} {b : Bar} {s : State} : MovesO [.fresh, .sent, .objs, .pwr, .flt, .bbx, .wilwa, .nonVol, .net, .tim, .rin, .fet, .mem, .dram, .pos, .lcg, .cmp, .sne, .fsq, .hlk, .hdg, .vis, .che, .mir] s (execPendingApply h b s) := by
  delta execPendingApply
  refine .next (.after State.hostWrite_moves ?_)
  exact .refl

theorem execCciCommandWrite_moves {h : Hdr} {p : CamPort} {value : Bytes} {s : State} : MovesO [.fresh, .sent, .objs, .pwr, .flt, .bbx, .wilwa, .nonVol, .net, .tim, .rin, .fet, .mem, .dram, .pos, .lcg, .cmp, .sne, .fsq, .hlk, .hdg, .vis, .che, .mir] s (execCciCommandWrite h p value s) := by
  delta execCciCommandWrite
  refine .next (.after State.hostWrite_moves ?_)
  exact .refl

theorem execCciCommandRead_moves {h : Hdr} {p : CamPort} {value : Bytes} {s : State} : MovesO [.fresh, .sent, .objs, .pwr, .flt, .bbx, .wilwa, .nonVol, .net, .tim, .rin, .fet, .mem, .dram, .pos, .lcg, .cmp, .sne, .fsq, .hlk, .hdg, .vis, .che, .mir] s (execCciCommandRead h p value s) := by
  delta execCciCommandRead
  refine .next (.after State.hostWrite_moves ?_)
  exact .refl

theorem execPortEnableWrite_moves {h : Hdr} {p : CamPort} {value : Bool} {s : State} : MovesO [.fresh, .sent, .objs, .pwr, .flt, .bbx, .wilwa, .nonVol, .net, .tim, .rin, .fet, .mem, .dram, .pos, .lcg, .cmp, .sne, .fsq, .hlk, .hdg, .vis, .che, .mir] s (execPortEnableWrite h p value s) := by
  delta execPortEnableWrite
  refine .next (.after State.hostWrite_moves ?_)
  exact .refl

theorem execHoldRunWrite_moves {h : Hdr} {run : Bool} {s : State} : MovesO [.fresh, .sent, .objs, .pwr, .flt, .bbx, .wilwa, .nonVol, .net, .tim, .rin, .fet, .mem, .dram, .pos, .lcg, .cmp, .sne, .fsq, .hlk, .hdg, .vis, .che, .mir] s (execHoldRunWrite h run s) := by
  delta execHoldRunWrite
  refine .next (.after State.hostWrite_moves ?_)
  exact .refl

theorem execHoldModeWrite_moves {h : Hdr} {b : Bar} {value : BitVec 8} {s : State} : MovesO [.fresh, .sent, .objs, .pwr, .flt, .bbx, .wilwa, .nonVol, .net, .tim, .rin, .fet, .mem, .dram, .pos, .lcg, .cmp, .sne, .fsq, .hlk, .hdg, .vis, .che, .mir] s (execHoldModeWrite h b value s) := by
  delta execHoldModeWrite
  refine .next (.after State.hostWrite_moves ?_)
  exact .refl

theorem execRefCommand_moves {h : Hdr} {value : BitVec 8} {s : State} : MovesO [.fresh, .sent, .objs, .pwr, .flt, .bbx, .wilwa, .nonVol, .net, .tim, .rin, .fet, .mem, .dram, .pos, .lcg, .cmp, .sne, .fsq, .hlk, .hdg, .vis, .che, .mir] s (execRefCommand h value s) := by
  delta execRefCommand
  refine .next (.after State.hostWrite_moves ?_)
  exact .refl

theorem execRoleRequestSolo_moves {h : Hdr} {s : State} : MovesO [.fresh, .sent, .objs, .pwr, .flt, .bbx, .wilwa, .nonVol, .net, .tim, .rin, .fet, .mem, .dram, .pos, .lcg, .cmp, .sne, .fsq, .hlk, .hdg, .vis, .che, .mir] s (execRoleRequestSolo h s) := by
  delta execRoleRequestSolo
  refine .next (.after State.hostWrite_moves ?_)
  exact .refl

theorem execRoleRequestActive_moves {h : Hdr} {s : State} : MovesO [.fresh, .sent, .objs, .pwr, .flt, .bbx, .wilwa, .nonVol, .net, .tim, .rin, .fet, .mem, .dram, .pos, .lcg, .cmp, .sne, .fsq, .hlk, .hdg, .vis, .che, .mir] s (execRoleRequestActive h s) := by
  delta execRoleRequestActive
  refine .next (.after State.hostWrite_moves ?_)
  exact .refl

theorem execRoleRequestStandby_moves {h : Hdr} {s : State} : MovesO [.fresh, .sent, .objs, .pwr, .flt, .bbx, .wilwa, .nonVol, .net, .tim, .rin, .fet, .mem, .dram, .pos, .lcg, .cmp, .sne, .fsq, .hlk, .hdg, .vis, .che, .mir] s (execRoleRequestStandby h s) := by
  delta execRoleRequestStandby
  refine .next (.after State.hostWrite_moves ?_)
  exact .refl

theorem execMirrorPairAgain_moves {h : Hdr} {s : State} : MovesO [.fresh, .sent, .objs, .pwr, .flt, .bbx, .wilwa, .nonVol, .net, .tim, .rin, .fet, .mem, .dram, .pos, .lcg, .cmp, .sne, .fsq, .hlk, .hdg, .vis, .che, .mir] s (execMirrorPairAgain h s) := by
  delta execMirrorPairAgain
  refine .next (.after State.hostWrite_moves ?_)
  exact .refl

theorem execMirrorPlannedSwap_moves {h : Hdr} {s : State} : MovesO [.fresh, .sent, .objs, .pwr, .flt, .bbx, .wilwa, .nonVol, .net, .tim, .rin, .fet, .mem, .dram, .pos, .lcg, .cmp, .sne, .fsq, .hlk, .hdg, .vis, .che, .mir] s (execMirrorPlannedSwap h s) := by
  delta execMirrorPlannedSwap
  refine .next (.after State.hostWrite_moves ?_)
  exact .refl

theorem execMirrorTakeOver_moves {h : Hdr} {s : State} : MovesO [.fresh, .sent, .objs, .pwr, .flt, .bbx, .wilwa, .nonVol, .net, .tim, .rin, .fet, .mem, .dram, .pos, .lcg, .cmp, .sne, .fsq, .hlk, .hdg, .vis, .che, .mir] s (execMirrorTakeOver h s) := by
  delta execMirrorTakeOver
  refine .next (.after State.hostWrite_moves ?_)
  exact .refl

theorem execMirrorDissolve_moves {h : Hdr} {s : State} : MovesO [.fresh, .sent, .objs, .pwr, .flt, .bbx, .wilwa, .nonVol, .net, .tim, .rin, .fet, .mem, .dram, .pos, .lcg, .cmp, .sne, .fsq, .hlk, .hdg, .vis, .che, .mir] s (execMirrorDissolve h s) := by
  delta execMirrorDissolve
  refine .next (.after State.hostWrite_moves ?_)
  exact .refl

theorem execCommitFrameReceived_moves {area : BitVec 8} {gen : BitVec 32} {digest : BitVec 32} {count : BitVec 32} {s : State} : MovesO [.fresh, .sent, .objs, .flt, .bbx, .wilwa, .tim, .cmp, .sne, .fsq, .hlk, .hdg, .vis, .mir] s (execCommitFrameReceived area gen digest count s) := by
  delta execCommitFrameReceived
  extract_lets l1 l2 l3 l4 l5 l6 l7
  have h_l4 : Moves [.fresh, .sent, .objs, .flt, .bbx, .wilwa, .tim, .cmp, .sne, .fsq, .hlk, .hdg, .vis, .mir] s l4 := by
    unfold l4
    refine .ite ?_ ?_
    · exact .refl
    · exact .after State.raise_moves .refl
  have h_l6 : Moves [.fresh, .sent, .objs, .flt, .bbx, .wilwa, .tim, .cmp, .sne, .fsq, .hlk, .hdg, .vis, .mir] s l6 := by
    unfold l6
    exact .mir h_l4
  have h_l7 : Moves [.fresh, .sent, .objs, .flt, .bbx, .wilwa, .tim, .cmp, .sne, .fsq, .hlk, .hdg, .vis, .mir] s l7 := by
    unfold l7
    refine .after State.takeUp_moves (.after State.stage_moves ?_)
    exact h_l6
  refine .ite ?_ ?_
  · exact .next .refl
  · refine .ite ?_ ?_
    · exact .next h_l7
    · split
      · rename_i x8 x9 x10 x11
        have h_x10 : Moves [.fresh, .sent, .objs, .flt, .bbx, .wilwa, .tim, .cmp, .sne, .fsq, .hlk, .hdg, .vis, .mir] s x10 := by
          refine MovesP.of_eq x11 (.after State.freeBelow_moves ?_)
          exact h_l7
        refine .next (.after State.raiseMax_moves ?_)
        exact h_x10

theorem execCollectorModeLatch_moves {h : Hdr} {s : State} : MovesO [.fresh, .sent, .objs, .pwr, .flt, .bbx, .wilwa, .nonVol, .net, .tim, .rin, .fet, .mem, .dram, .pos, .lcg, .cmp, .sne, .fsq, .hlk, .hdg, .vis, .che, .mir] s (execCollectorModeLatch h s) := by
  delta execCollectorModeLatch
  refine .next (.after State.hostWrite_moves ?_)
  exact .refl

theorem execCollectorModeNormal_moves {h : Hdr} {s : State} : MovesO [.fresh, .sent, .objs, .pwr, .flt, .bbx, .wilwa, .nonVol, .net, .tim, .rin, .fet, .mem, .dram, .pos, .lcg, .cmp, .sne, .fsq, .hlk, .hdg, .vis, .che, .mir] s (execCollectorModeNormal h s) := by
  delta execCollectorModeNormal
  refine .next (.after State.hostWrite_moves ?_)
  exact .refl

theorem execLatchWordClear_moves {h : Hdr} {mask : BitVec 64} {s : State} : MovesO [.fresh, .sent, .objs, .pwr, .flt, .bbx, .wilwa, .nonVol, .net, .tim, .rin, .fet, .mem, .dram, .pos, .lcg, .cmp, .sne, .fsq, .hlk, .hdg, .vis, .che, .mir] s (execLatchWordClear h mask s) := by
  delta execLatchWordClear
  refine .next (.after State.hostWrite_moves ?_)
  exact .refl

theorem execErrPinClear_moves {h : Hdr} {s : State} : MovesO [.fresh, .sent, .objs, .pwr, .flt, .bbx, .wilwa, .nonVol, .net, .tim, .rin, .fet, .mem, .dram, .pos, .lcg, .cmp, .sne, .fsq, .hlk, .hdg, .vis, .che, .mir] s (execErrPinClear h s) := by
  delta execErrPinClear
  refine .next (.after State.hostWrite_moves ?_)
  exact .refl

theorem execSnapshotCommand_moves {h : Hdr} {s : State} : MovesO [.fresh, .sent, .objs, .pwr, .flt, .bbx, .wilwa, .nonVol, .net, .tim, .rin, .fet, .mem, .dram, .pos, .lcg, .cmp, .sne, .fsq, .hlk, .hdg, .vis, .che, .mir] s (execSnapshotCommand h s) := by
  delta execSnapshotCommand
  refine .next (.after State.hostWrite_moves ?_)
  exact .refl

theorem execFollowUpReceived_moves {m : PtpMsg} {s : State} : MovesO [.fresh, .objs, .flt, .bbx, .tim, .che] s (execFollowUpReceived m s) := by
  delta execFollowUpReceived
  refine .ite ?_ ?_
  · exact .next .refl
  · split
    · refine .ite ?_ ?_
      · refine .next (.after State.runSync_moves ?_)
        exact .refl
      · exact .next .refl
    · exact .next .refl

theorem execUnknownMsgtype_moves {h : Hdr} {ty : BitVec 8} {payload : Bytes} {s : State} : MovesO [.sent, .objs, .flt, .bbx, .wilwa] s (execUnknownMsgtype h ty payload s) := by
  delta execUnknownMsgtype
  extract_lets l1
  refine .ite ?_ ?_
  · exact .next .refl
  · split
    · refine .next (.after State.sendDgram_moves ?_)
      exact .refl
    · split
      · rename_i x2 x3 x4
        have h_x3 : Moves [.sent, .objs, .flt, .bbx, .wilwa] s x3 := by
          refine MovesD.of_dropped x4 (.after State.admission_moves ?_)
          exact .refl
        exact .next h_x3
      · rename_i x5 x6 x7 x8
        have h_x7 : Moves [.sent, .objs, .flt, .bbx, .wilwa] s x7 := by
          refine MovesD.of_session x8 (.after State.admission_moves ?_)
          exact .refl
        refine .next (.after State.sendDgram_moves ?_)
        exact h_x7

/-- What an unlock does to the open sessions: one of them now holds the level. -/
theorem State.modSession_seats_level {s : State} {i lv : Nat} {f : Session → Session} (hf : ∀ x, (f x).sid = x.sid ∧ (f x).level = lv) :
    (s.modSession i f).seats = s.seats.map fun p => if p.1 = i then (p.1, lv) else p := by
  unfold State.seats State.openSessions State.modSession
  have := ofFn_toList s.wilwa.sessions fun y => y.map fun x => if x.sid = i then f x else x
  simp only [this]
  induction s.wilwa.sessions.toList with
  | nil => rfl
  | cons y l ih =>
    cases y with
    | none => exact ih
    | some x =>
      exact congr (congrArg List.cons (by by_cases h : x.sid = i <;> simp [h, hf])) ih

theorem one_seat (l : List (Nat × Nat)) (i lv : Nat) (hn : (l.map Prod.fst).Nodup) (h : ∀ p ∈ l, p.1 ≠ i → p.2 = 0) :
    ((l.map fun p => if p.1 = i then (p.1, lv) else p).filter fun x => x.2 != 0).length ≤ 1 := by
  induction l with
  | nil => exact Nat.zero_le _
  | cons p l ih =>
    have hn' : p.1 ∉ l.map Prod.fst ∧ (l.map Prod.fst).Nodup := List.nodup_cons.1 hn
    by_cases hp : p.1 = i
    · have h0 : (l.map fun p => if p.1 = i then (p.1, lv) else p).filter (fun x => x.2 != 0) = [] := by
        rw [List.filter_eq_nil_iff]
        intro q hq
        obtain ⟨r, hr, rfl⟩ := List.mem_map.1 hq
        have : r.1 ≠ i := by
          rintro rfl
          apply hn'.1
          simp only [hp]
          exact List.mem_map.2 ⟨r, hr, rfl⟩
        simp [this, h r (List.mem_cons_of_mem _ hr) this]
      rw [List.map_cons, List.filter_cons, h0, if_pos hp]
      by_cases h1 : ((p.1, lv).2 != 0) = true
      · rw [if_pos h1]; exact Nat.le_refl _
      · rw [if_neg h1]; exact Nat.zero_le _
    · have hz := h p (List.mem_cons_self ..) hp
      simp only [List.map_cons, if_neg hp, List.filter_cons, hz]
      exact ih hn'.2 fun q hq => h q (List.mem_cons_of_mem _ hq)

theorem State.grant_keeps {s : State} {x : Session} {e : Exchange} {cred : Bytes} (h : s.levelHeld x.sid = false) :
    Keeps [.wilwa] s (State.grant s x e cred) := by
  refine ⟨fun p h => by cases p <;> first | exact absurd (by decide) h | rfl, id, id, fun k => ?_⟩
  unfold State.SeatsOk
  delta State.grant
  rw [State.modSession_seats_level (lv := e.level) (by intro y; exact ⟨rfl, rfl⟩)]
  refine ⟨?_, one_seat _ _ _ k.1 ?_⟩
  · rw [List.map_map]
    have : (Prod.fst ∘ fun p : Nat × Nat => if p.1 = x.sid then (p.1, e.level) else p) = Prod.fst := by
      funext p; simp only [Function.comp]; split <;> rfl
    rw [this]
    exact k.1
  · intro p hp hne
    obtain ⟨y, hy, rfl⟩ := List.mem_map.1 hp
    have := h
    simp only [State.levelHeld, List.any_eq_false] at this
    have hy := this y hy
    simp at hy
    by_contra h0
    exact absurd (hy hne) (by simpa using h0)

theorem execProof_keeps {h : Hdr} {proof : Bytes} {s t : State} (e : execProof h proof s = .next t) :
    Keeps [.sent, .objs, .flt, .bbx, .wilwa] s t := by
  have e : t = _ := (Host.Outcome.next.inj e).symm
  subst e
  delta State.requestV
  refine State.request_keeps fun y t ht => ?_
  have hl : Keeps [.sent, .objs, .flt, .bbx, .wilwa] s (t.modSession y.sid fun y => { y with exchange := none }) :=
    .after (qs := [.wilwa]) (State.modSession_moves (f := fun y => { y with exchange := none }) (fun _ => ⟨rfl, rfl⟩)).toKeeps ht
  by_cases hm : messageInVersion y.version 5 = true
  · simp only [if_pos hm]
    by_cases hn : proof.length ≠ 32
    · simp only [if_pos hn]; exact ht
    · simp only [if_neg hn]
      split
      · exact ht
      · split
        · exact .after State.rejectProof_moves.toKeeps hl
        · split
          · exact hl
          · rename_i hh
            exact .after (State.grant_keeps (by simpa using hh)) hl
  · simp only [if_neg hm]; exact ht

end Sys2Proof.Machine
end

