-- ==== Sys2Proof/Laws/FramesStep.lean ====
section
/-! SUPPORT. Frames: what the functions of every command and one step may change, one lemma a function. -/

set_option Elab.async false

namespace Sys2Proof.Machine

set_option maxRecDepth 4000
variable {ps qs : List StatePart} {t u v : State}

theorem State.idle_moves {s : State} : Moves [.tick] s (State.idle s) := by
  delta State.idle
  exact .tick .refl

theorem State.served_moves {s : State} : Moves [.fresh, .sent, .objs, .flt, .bbx, .wilwa, .net, .mem, .dram, .fsq, .hlk, .hdg] s (State.served s) := by
  delta State.served
  refine .after State.serveEgress_moves (.after State.covDrainAll_moves ?_)
  exact .after State.serveLanes_moves .refl

theorem State.withPending_moves {s : State} {q : List Instr} : Moves [.pending] s (State.withPending s q) := by
  delta State.withPending
  refine .plain (u := s) ?_ (fun p h => by cases p <;> first | exact absurd (by decide) h | rfl)
  exact .refl

theorem State.withFetchWord_moves {s : State} {nbits : Nat} {w : Nat} : Moves [.pending] s (State.withFetchWord s nbits w) := by
  delta State.withFetchWord
  split
  · exact .after State.withPending_moves .refl
  · exact .refl

/-- What any command but a Proof may do. -/
theorem exec_moves {i : Instr} {s : State} (hi : ∀ h p, i ≠ .proof h p) : MovesO [.fresh, .sent, .objs, .pwr, .flt, .bbx, .wilwa, .nonVol, .net, .tim, .rin, .fet, .mem, .dram, .pos, .lcg, .cmp, .sne, .fsq, .hlk, .hdms, .hdg, .vis, .che, .mir, .therm, .aonDiodes, .fireEn] s (exec i s) := by
  delta exec
  split
  · exact .after execSuppliesInRange_moves .refl
  · exact .after execSupplyOutOfRange_moves .refl
  · exact .after execPorstLow_moves .refl
  · exact .after execPorstRise_moves .refl
  · exact .after execBootComplete_moves .refl
  · exact .after execVddAonRemoved_moves .refl
  · exact .after execRequestStandby_moves .refl
  · exact .after execRequestConfigured_moves .refl
  · exact .after execConfiguredTrainingDone_moves .refl
  · exact .after execRequestArmed_moves .refl
  · exact .after execRequestPrinting_moves .refl
  · exact .after execResumeBurstEnd_moves .refl
  · exact .after execRequestHeld_moves .refl
  · exact .after execRequestFrozen_moves .refl
  · exact .after execResetRequestChip_moves .refl
  · exact .after execChipReset_moves .refl
  · exact .after execResetRequestBlock_moves .refl
  · exact .after execBlockResetComplete_moves .refl
  · exact .after execEngineSelfTestDone_moves .refl
  · exact .after execDomainRequest_moves .refl
  · exact .after execDomainSequenceDone_moves .refl
  · exact .after execMgtNetOffDelayExpiry_moves .refl
  · exact .after execWakeNAssert_moves .refl
  · exact .after execOpenRequest_moves .refl
  · exact .after execUnlockRequest_moves .refl
  · exact absurd rfl (hi _ _)
  · exact .after execUnlockExchangeTimeout_moves .refl
  · exact .after execUnlockLockoutEnd_moves .refl
  · exact .after execClose_moves .refl
  · exact .after execKeepAlive_moves .refl
  · exact .after execSessionTimeout_moves .refl
  · exact .after execRead_moves .refl
  · exact .after execWrite_moves .refl
  · exact .after execDescribe_moves .refl
  · exact .after execMalformedDatagram_moves .refl
  · exact .after execOversizeDatagram_moves .refl
  · exact .after execTransferInit_moves .refl
  · exact .after execSegment_moves .refl
  · exact .after execSegmentAck_moves .refl
  · exact .after execTransferEnd_moves .refl
  · exact .after execTransferAbort_moves .refl
  · exact .after execTransferResendTimeout_moves .refl
  · exact .after execTransferTimeout_moves .refl
  · exact .after execCommitRequest_moves .refl
  · exact .after execEmergencyAck_moves .refl
  · exact .after execEmergencyRetransmitTimeout_moves .refl
  · exact .after execIrqCauseClear_moves .refl
  · exact .after execCyclicTxRunWrite_moves .refl
  · exact .after execCyclicRxRunWrite_moves .refl
  · exact .after execCycleBoundary_moves .refl
  · exact .after execCyclicTransmit_moves .refl
  · exact .after execCyclicReceive_moves .refl
  · exact .after execCyclicRxApply_moves .refl
  · exact .after execCyclicRxWatchdogExpiry_moves .refl
  · exact .after execOperatorCredentialWrite_moves .refl
  · exact .after execServiceCredentialWrite_moves .refl
  · exact .after execFrameForward_moves .refl
  · exact .after execAnnounceReceived_moves .refl
  · exact .after execSyncReceived_moves .refl
  · exact .after execDelayRespReceived_moves .refl
  · exact .after execPdelayReqReceived_moves .refl
  · exact .after execPdelayRespReceived_moves .refl
  · exact .after execDelayReqIntervalExpiry_moves .refl
  · exact .after execPdelayReqIntervalExpiry_moves .refl
  · exact .after execMasterLostTimeout_moves .refl
  · exact .after execEraWrap_moves .refl
  · exact .after execTimeSet_moves .refl
  · exact .after execServoEnableWrite_moves .refl
  · exact .after execLegacyLatch_moves .refl
  · exact .after execAddressChangeEffect_moves .refl
  · exact .after execMdioC22Write_moves .refl
  · exact .after execMdioC22Read_moves .refl
  · exact .after execMdioC45Address_moves .refl
  · exact .after execMdioC45Write_moves .refl
  · exact .after execMdioC45Read_moves .refl
  · exact .after execMdioTransactionDone_moves .refl
  · exact .after execNetworkLinkUp_moves .refl
  · exact .after execNetworkLinkLost_moves .refl
  · exact .after execRasterLinkUp_moves .refl
  · exact .after execRasterTrainingTimeout_moves .refl
  · exact .after execRasterLinkLost_moves .refl
  · exact .after execIntakeEnableWrite_moves .refl
  · exact .after execRasterBlockReceived_moves .refl
  · exact .after execJobWriterBlock_moves .refl
  · exact .after execStreamDecodeBlock_moves .refl
  · exact .after execForwardBlock_moves .refl
  · exact .after execForwardAckTimeout_moves .refl
  · exact .after execForwardRestart_moves .refl
  · exact .after execBlockRelease_moves .refl
  · exact .after execSlotOpen_moves .refl
  · exact .after execSlotSeal_moves .refl
  · exact .after execSlotClear_moves .refl
  · exact .after execSealPassDone_moves .refl
  · exact .after execQueuedSlotWrite_moves .refl
  · exact .after execChangeAtRepeatWrite_moves .refl
  · exact .after execFetIssueLine_moves .refl
  · exact .after execMemoryRequest_moves .refl
  · exact .after execMemoryReadComplete_moves .refl
  · exact .after execAlertNAssert_moves .refl
  · exact .after execRtBurstLimit_moves .refl
  · exact .after execBurstGuardEnd_moves .refl
  · exact .after execRefreshIntervalBoundary_moves .refl
  · exact .after execChannelReleaseIssue_moves .refl
  · exact .after execChannelReleaseDiscard_moves .refl
  · exact .after execChannelReleaseRetrain_moves .refl
  · exact .after execTrainPresentPoint_moves .refl
  · exact .after execClearStoredResults_moves .refl
  · exact .after execChannelTrainingDone_moves .refl
  · exact .after execOpPointSelectWrite_moves .refl
  · exact .after execFreqChangeDone_moves .refl
  · exact .after execChannelEnableWrite_moves .refl
  · exact .after execDimmSettingWrite_moves .refl
  · exact .after execLfsrSeedWrite_moves .refl
  · exact .after execIdleTimeExpiry_moves .refl
  · exact .after execDqsDriftCorrection_moves .refl
  · exact .after execChannelModeWrite_moves .refl
  · exact .after execCountChange_moves .refl
  · exact .after execHallStateChange_moves .refl
  · exact .after execZIndexEdge_moves .refl
  · exact .after execSsiPeriodExpiry_moves .refl
  · exact .after execSsiFrameComplete_moves .refl
  · exact .after execStopTimeout_moves .refl
  · exact .after execMarkAccepted_moves .refl
  · exact .after execCompareAction_moves .refl
  · exact .after execComparePulseEnd_moves .refl
  · exact .after execEngineSliceLine_moves .refl
  · exact .after execEngineSliceTimeout_moves .refl
  · exact .after execZoneWidthWrite_moves .refl
  · exact .after execLinePreparation_moves .refl
  · exact .after execTokenEmission_moves .refl
  · exact .after execOverspeedEpisodeEnd_moves .refl
  · exact .after execLateEpisodeEnd_moves .refl
  · exact .after execFireEnFall_moves .refl
  · exact .after execFireEnRise_moves .refl
  · exact .after execSpeedAdviceUpdate_moves .refl
  · exact .after execSpdAdvPeriodStart_moves .refl
  · exact .after execInputEdge_moves .refl
  · exact .after execOutputLevelWrite_moves .refl
  · exact .after execOutputCheckExpiry_moves .refl
  · exact .after execOwnerInterval_moves .refl
  · exact .after execReleaseRepeatInterval_moves .refl
  · exact .after execSyncInterval_moves .refl
  · exact .after execLatencyProbeInterval_moves .refl
  · exact .after execLanePllLocked_moves .refl
  · exact .after execLaneWakeTimeout_moves .refl
  · exact .after execFirmwareSlipWait_moves .refl
  · exact .after execSyncHeaderRunReached_moves .refl
  · exact .after execLaneAlignTimeout_moves .refl
  · exact .after execBitSlip_moves .refl
  · exact .after execCapResendInterval_moves .refl
  · exact .after execCapReceived_moves .refl
  · exact .after execLaneCapTimeout_moves .refl
  · exact .after execStatEchoReceived_moves .refl
  · exact .after execStatTableAckReceived_moves .refl
  · exact .after execLaneTableAckTimeout_moves .refl
  · exact .after execStatStatusReceived_moves .refl
  · exact .after execStatMeasResultReceived_moves .refl
  · exact .after execStatSilenceTimeout_moves .refl
  · exact .after execLaneLockLost_moves .refl
  · exact .after execLaneRetrain_moves .refl
  · exact .after execLaneEnterTest_moves .refl
  · exact .after execLaneLeaveTest_moves .refl
  · exact .after execTestInjectBit_moves .refl
  · exact .after execTestInjectBurst_moves .refl
  · exact .after execHdmLineFrame_moves .refl
  · exact .after execHdmToken_moves .refl
  · exact .after execHdmOwnerFrame_moves .refl
  · exact .after execHdmRelease_moves .refl
  · exact .after execHdmValidforExpiry_moves .refl
  · exact .after execHdmSyncFrame_moves .refl
  · exact .after execHdmTableFrame_moves .refl
  · exact .after execHdmMeasFrame_moves .refl
  · exact .after execHdmCapFrame_moves .refl
  · exact .after execHdmStatusInterval_moves .refl
  · exact .after execMeasStart_moves .refl
  · exact .after execMeasAbandon_moves .refl
  · exact .after execMeasCaptureBaseline_moves .refl
  · exact .after execMeasTimeout_moves .refl
  · exact .after execPendingApply_moves .refl
  · exact .after execTriggerRecord_moves .refl
  · exact .after execTriggerRecordExpiry_moves .refl
  · exact .after execPortSilent_moves .refl
  · exact .after execCsiLine_moves .refl
  · exact .after execCsiFrameStart_moves .refl
  · exact .after execCsiFrameEnd_moves .refl
  · exact .after execStitchedLineComplete_moves .refl
  · exact .after execWebFrameClose_moves .refl
  · exact .after execProductRecordSend_moves .refl
  · exact .after execCciBatchComplete_moves .refl
  · exact .after execCciCommandWrite_moves .refl
  · exact .after execCciCommandRead_moves .refl
  · exact .after execCciHostTransactionDone_moves .refl
  · exact .after execPortEnableWrite_moves .refl
  · exact .after execChePairLine_moves .refl
  · exact .after execCheFrameClose_moves .refl
  · exact .after execTumblerSolveDone_moves .refl
  · exact .after execHoldRunWrite_moves .refl
  · exact .after execHoldModeWrite_moves .refl
  · exact .after execRefCommand_moves .refl
  · exact .after execRoleRequestSolo_moves .refl
  · exact .after execRoleRequestActive_moves .refl
  · exact .after execRoleRequestStandby_moves .refl
  · exact .after execMirrorPairAgain_moves .refl
  · exact .after execMirrorPlannedSwap_moves .refl
  · exact .after execHandoverStateSend_moves .refl
  · exact .after execMirrorTakeOver_moves .refl
  · exact .after execMirrorDissolve_moves .refl
  · exact .after execIcselLinkUp_moves .refl
  · exact .after execIcselLinkLost_moves .refl
  · exact .after execHelloInterval_moves .refl
  · exact .after execHelloReceived_moves .refl
  · exact .after execMirrorCycleBoundary_moves .refl
  · exact .after execStateFrameReceived_moves .refl
  · exact .after execSackReceived_moves .refl
  · exact .after execCommitFrameReceived_moves .refl
  · exact .after execFwdReceived_moves .refl
  · exact .after execFackReceived_moves .refl
  · exact .after execSlotFrameReceived_moves .refl
  · exact .after execRefFrameReceived_moves .refl
  · exact .after execKeyExpiry_moves .refl
  · exact .after execTakeoverAtReached_moves .refl
  · exact .after execReclaimCheck_moves .refl
  · exact .after execFaultReport_moves .refl
  · exact .after execFaultReportTaken_moves .refl
  · exact .after execRailBrokenWire_moves .refl
  · exact .after execRailErrorTimeout_moves .refl
  · exact .after execCollectorModeLatch_moves .refl
  · exact .after execCollectorModeNormal_moves .refl
  · exact .after execLatchWordClear_moves .refl
  · exact .after execErrPinClear_moves .refl
  · exact .after execSnapshotCommand_moves .refl
  · exact .after execPfailAssert_moves .refl
  · exact .after execSnapshotMinIntervalExpiry_moves .refl
  · exact .after execSnapshotWriteDone_moves .refl
  · exact .after execThermalModelUpdate_moves .refl
  · exact .after execTripPendingEnd_moves .refl
  · exact .after execAonDiodeConversion_moves .refl
  · exact .after execTripShutdown_moves .refl
  · exact .after execHousekeepingRead_moves .refl
  · exact .after execHousekeepingRoundEnd_moves .refl
  · exact .after execEngineSelectionInterval_moves .refl
  · exact .after execFollowUpReceived_moves .refl
  · exact .after execAddressTableAgeing_moves .refl
  · exact .after execUnknownMsgtype_moves .refl
  · exact .after execPfailNRise_moves .refl
  · exact .after execCheckerLock_moves .refl
  · exact .after execCheckerLockLost_moves .refl
  · exact .after execHdmBlockAligned_moves .refl
  · exact .after execHdmBlockLockLost_moves .refl

/-- What any command may do. -/
theorem exec_keeps {i : Instr} {s t : State} (e : exec i s = .next t) :
    Keeps [.fresh, .sent, .objs, .pwr, .flt, .bbx, .wilwa, .nonVol, .net, .tim, .rin, .fet, .mem, .dram, .pos, .lcg, .cmp, .sne, .fsq, .hlk, .hdms, .hdg, .vis, .che, .mir, .therm, .aonDiodes, .fireEn] s t := by
  by_cases hi : ∃ h p, i = .proof h p
  · obtain ⟨h, p, rfl⟩ := hi
    exact .after (execProof_keeps e) .refl
  · exact (MovesO.of_next e (exec_moves fun h p k => hi ⟨h, p, k⟩)).toKeeps

end Sys2Proof.Machine
end

