-- ==== Sys2Proof/Laws/Requests.lean ====
section
/-! SUPPORT. What an admitted datagram, an accepted request and a Write that R72 lets through come to (R57 to R62, R72). -/

set_option Elab.async false

namespace Sys2Proof.Machine

/-- An admitted datagram reaches its session. -/
theorem Admitted.admission {s : State} {h : Hdr} {ty : Nat} {p : Bytes} {x : Session} (a : Admitted s h ty p x) (answered : Bool) :
    s.admission h ty p answered = .session x.now (s.heard x.sid) := by
  have ht : (x.sessKey.isSome && (!bit h.flags.toNat 1 || h.tag != tagOf x.sessKey (hdrBytes h ty) p)) = false := by
    cases hk : x.sessKey.isSome
    · rfl
    · have := a.tagged hk; simp [this]
  simp [State.admission, a.serves, a.address, a.opened, ht, a.header, a.version, State.heard, Session.now]

/-- An accepted request is executed, answered and stored (R62). -/
theorem Accepted.request {s : State} {h : Hdr} {ty : Nat} {p : Bytes} {x : Session} (a : Accepted s h ty p x)
    (run : Session → State → Answer) :
    s.request h ty p run = (run x.now (s.heard x.sid)).finish x.now h.seq.toNat := by
  simp [State.request, a.admitted.admission, a.sequence, Session.now]

/-- An accepted request of a message that the session's version has. -/
theorem Accepted.requestV {s : State} {h : Hdr} {ty : Nat} {p : Bytes} {x : Session} (a : Accepted s h ty p x)
    (run : Session → State → Answer) :
    s.requestV h ty p run = (run x.now (s.heard x.sid)).finish x.now h.seq.toNat := by
  unfold State.requestV
  rw [a.request]
  simp [Session.now, a.admitted.message]

/-- A datagram that is never answered reaches its meaning (R58). -/
theorem Admitted.notice {s : State} {h : Hdr} {ty : Nat} {p : Bytes} {x : Session} (a : Admitted s h ty p x)
    (run : Session → State → State) : s.notice h ty p run = run x.now (s.heard x.sid) := by
  simp [State.notice, a.admission, Session.now, a.message]

/-- A datagram that is sent is the last thing sent, with the tag of its traffic (R89). -/
theorem State.sendDgram_last (s : State) (d : Dgram) : (s.sendDgram d).sent.getLast? =
    some (.dgram { d with vlan := s.ownTag (s.num 0x2030 (if d.cyclic then 3 else 4)) }) := by
  simp [State.sendDgram, State.emit]

/-- The answer is sent, with its type, its Status and the request's Sequence. -/
theorem Answer.finish_answered (a : Answer) (x : Session) (seq : Nat) : Answered (a.finish x seq) a.type a.status seq := by
  refine ⟨_, State.sendDgram_last _ _, rfl, rfl, rfl, ?_⟩
  simp only [sessionDgram]
  split <;> decide

/-- Sending the answer changes nothing but the sessions and what has been sent. -/
theorem Answer.finish_only (a : Answer) (x : Session) (seq : Nat) : Only [.wilwa, .sent] a.state (a.finish x seq) := by
  intro p hp
  cases p <;> first | rfl | exact absurd (by decide) hp

@[simp] theorem Answer.finish_objs (a : Answer) (x : Session) (seq : Nat) : (a.finish x seq).objs = a.state.objs := rfl

@[simp] theorem Answer.finish_obj (a : Answer) (x : Session) (seq i j : Nat) : (a.finish x seq).obj i j = a.state.obj i j := rfl

@[simp] theorem Answer.finish_num (a : Answer) (x : Session) (seq i j : Nat) : (a.finish x seq).num i j = a.state.num i j := rfl

@[simp] theorem State.heard_objs (s : State) (i : Nat) : (s.heard i).objs = s.objs := rfl

@[simp] theorem State.heard_obj (s : State) (i j k : Nat) : (s.heard i).obj j k = s.obj j k := rfl

@[simp] theorem State.heard_num (s : State) (i j k : Nat) : (s.heard i).num j k = s.num j k := rfl

/-- Having been heard from is no part of what R72 looks at: a Write it allows has no error. -/
theorem WriteAllowed.writeError {s : State} {x : Session} {i j : Nat} {b : Bytes} {d : Desc} (w : WriteAllowed s x i j b d) :
    (s.heard x.sid).writeError x.now i j b false = none := by
  have e1 : (s.heard x.sid).valueOk d i j (d.value b) = true := w.range
  have e2 : (s.heard x.sid).on (objDomain i j) = true := w.powered
  have e3 : ¬ (d.cls = .stopped ∧ (s.heard x.sid).stoppedRuns i j = true) := fun h => by
    have := w.moment h.1; exact absurd h.2 (by rw [show (s.heard x.sid).stoppedRuns i j = s.stoppedRuns i j from rfl, this]; decide)
  have e4 : (s.heard x.sid).rxMapped i j = false := w.unmapped
  have e5 : ¬ x.level < d.level := Nat.not_lt.mpr w.level
  simp [State.writeError, w.described, sessionAllows, Session.now, w.version, e5, w.writable, w.notTransfer, State.valueError, w.length,
    e1, State.domainError, e2, State.momentError, State.classError, e3, e4]

/-- A Write that the session may make, to a described object, has no error of R72. -/
theorem WriteTaken.noError {s : State} {h : Hdr} {i j : Nat} {b : Bytes} {x : Session} (w : WriteTaken s h i j b x) :
    (s.heard x.sid).writeError x.now i j b false = none := w.allowed.elim fun _ a => a.writeError

/-- A Write that R72 lets through does what its object says, and is answered with the code that comes of it. -/
theorem WriteTaken.hostWrite {s : State} {h : Hdr} {i j : Nat} {b : Bytes} {x : Session} {d : Desc} (w : WriteTaken s h i j b x)
    (hd : findDesc i j = some d) :
    s.hostWrite h i j 0 b =
      Answer.finish { type := 0x13, status := ((s.heard x.sid).applyWrite x.now d i j (d.value b)).1,
                      payload := u16 i ++ u8 j ++ u8 0, state := ((s.heard x.sid).applyWrite x.now d i j (d.value b)).2 }
        x.now h.seq.toNat := by
  unfold State.hostWrite
  rw [w.accepted.requestV]
  simp [State.write, w.noError, hd]

/-- A Write whose object does something of its own, and does it: answered with 0, and nothing else happens but in its session. -/
theorem WriteTaken.done {s u : State} {h : Hdr} {i j : Nat} {b : Bytes} {x : Session} {d : Desc} (w : WriteTaken s h i j b x)
    (hd : findDesc i j = some d) (ha : (isAdminArea (i / 256) && i % 256 == 0 && j == 1) = false)
    (hk : hook x.now i j (d.value b) (s.heard x.sid) = some (.ok u)) :
    ∃ t, Host.Outcome.next (s.hostWrite h i j 0 b) = (.next t : Host.Outcome State Fault Refusal) ∧
      Answered t 0x13 0 h.seq.toNat ∧ Only [.wilwa, .sent] u t := by
  have e : (s.heard x.sid).applyWrite x.now d i j (d.value b) = (0, u) := by simp [State.applyWrite, ha, hk]
  refine ⟨_, rfl, ?_, ?_⟩
  · rw [w.hostWrite hd, e]; exact Answer.finish_answered _ _ _
  · rw [w.hostWrite hd, e]; exact Answer.finish_only _ _ _

/-- A Write whose object refuses it with a code of its own: answered with the code, and nothing happens but in its session. -/
theorem WriteTaken.refused {s : State} {h : Hdr} {i j e : Nat} {b : Bytes} {x : Session} {d : Desc} (w : WriteTaken s h i j b x)
    (hd : findDesc i j = some d) (ha : (isAdminArea (i / 256) && i % 256 == 0 && j == 1) = false)
    (hk : hook x.now i j (d.value b) (s.heard x.sid) = some (.error e)) :
    ∃ t, Host.Outcome.next (s.hostWrite h i j 0 b) = (.next t : Host.Outcome State Fault Refusal) ∧
      Answered t 0x13 e h.seq.toNat ∧ Only [.wilwa, .sent] (s.heard x.sid) t := by
  have e : (s.heard x.sid).applyWrite x.now d i j (d.value b) = (e, s.heard x.sid) := by simp [State.applyWrite, ha, hk]
  refine ⟨_, rfl, ?_, ?_⟩
  · rw [w.hostWrite hd, e]; exact Answer.finish_answered _ _ _
  · rw [w.hostWrite hd, e]; exact Answer.finish_only _ _ _

/-- What R26 asks of a CONFIGURED request holds: it lacks nothing. -/
theorem ConfiguredReady.lacks {s : State} (r : ConfiguredReady s) : s.configuredLacks = none := by
  have hd : ∀ d ∈ s.requiredDomains ++ (if s.mir.role = .solo then [] else [domMIR]), s.on d = true := by
    have := r.domains
    intro d hd
    simp only [State.requiredDomains, List.mem_append] at hd
    rcases hd with (((hd | hd) | hd) | hd) | hd
    · simp only [List.mem_cons, List.not_mem_nil, or_false] at hd
      rcases hd with rfl | rfl <;> exact this _ (by decide)
    · split at hd
      · simp only [List.mem_singleton] at hd; exact hd ▸ r.memA ‹_›
      · simp at hd
    · split at hd
      · simp only [List.mem_singleton] at hd; exact hd ▸ r.memB ‹_›
      · simp at hd
    · simp only [List.mem_cons, List.not_mem_nil, or_false] at hd
      rcases hd with rfl | rfl | rfl | rfl | rfl <;> exact this _ (by decide)
    · split at hd
      · simp at hd
      · simp only [List.mem_singleton] at hd; exact hd ▸ r.pair ‹_›
  have e1 : (s.requiredDomains ++ (if s.mir.role = .solo then [] else [domMIR])).find? (!s.on ·) = none :=
    List.find?_eq_none.2 fun d h => by simp [hd d h]
  have e2 : (s.enabled.find? fun c => (s.chan c).st == .frozen) = none :=
    List.find?_eq_none.2 fun c h => by simp [r.channels c h]
  simp [State.configuredLacks, e1, e2]

/-- What R27 asks of an ARMED request holds: it lacks nothing. -/
theorem ArmedReady.lacks {s : State} (r : ArmedReady s) : s.armedLacks = none := by
  have e1 : (s.armBars.find? fun b => (s.bar b).written != 31) = none :=
    List.find?_eq_none.2 fun b h => by simp [r.duty b h]
  have e2 : (s.armBars.find? fun b => (s.map b).isEmpty) = none :=
    List.find?_eq_none.2 fun b h => by simp [r.maps b h]
  have e3 : ((s.armBars.flatMap s.lanesOf).find? fun l =>
      (s.lane l).st != .trained || (s.lane l).version < s.leastVersions) = none :=
    List.find?_eq_none.2 fun l h => by
      obtain ⟨b, hb, hl⟩ := List.mem_flatMap.1 h
      obtain ⟨h1, h2⟩ := r.lanes b hb l hl
      simp [h1, h2]
  unfold State.armedLacks
  extract_lets q mask bars
  have h : bars = s.armBars := rfl
  rw [h, e1]
  dsimp only
  rw [e2]
  dsimp only
  rw [e3]
  simp [r.fireEn]

end Sys2Proof.Machine
end

