-- ==== Sys2Proof/Laws/Objects.lean ====
section
/-! SUPPORT. Which objects the shared operations may change, and how frames of objects compose. -/

set_option Elab.async false

namespace Sys2Proof.Machine

variable {s t u : State} {l m : List (Nat × Nat)}

theorem ObjsOnly.refl : ObjsOnly l s s := fun _ _ _ _ => rfl

theorem ObjsOnly.of_objs (h : t.objs = s.objs) : ObjsOnly l s t := fun i j _ _ => State.obj_congr h i j

theorem ObjsOnly.trans (h : ObjsOnly l s t) (k : ObjsOnly l t u) : ObjsOnly l s u :=
  fun i j hj hl => (k i j hj hl).trans (h i j hj hl)

theorem ObjsOnly.mono (h : ObjsOnly m s t) (hm : ∀ x ∈ m, x ∈ l) : ObjsOnly l s t := fun i j hj hl => h i j hj fun k => hl (hm _ k)

/-- A function with a frame of its own, applied to a state that has been reached. -/
theorem ObjsOnly.after (h : ObjsOnly m t u) (k : ObjsOnly l s t) (hm : ∀ x ∈ m, x ∈ l := by decide) : ObjsOnly l s u :=
  k.trans (h.mono hm)

theorem ObjsOnly.ite {c : Prop} [Decidable c] (h : ObjsOnly l s t) (k : ObjsOnly l s u) : ObjsOnly l s (if c then t else u) := by
  split <;> assumption

theorem ObjsOnly.num (h : ObjsOnly l s t) {i j : Nat} (hj : j < 256 := by decide) (hl : (i, j) ∉ l := by decide) :
    t.num i j = s.num i j := by
  unfold State.num; rw [h i j hj hl]

theorem State.setObj_objs_only (s : State) (i j : Nat) (v : Val) (hj : j < 256 := by decide) : ObjsOnly [(i, j)] s (s.setObj i j v) := by
  intro a b hb hl
  refine State.obj_setObj_ne s v fun h => hl ?_
  obtain ⟨rfl, rfl⟩ := key_inj hb hj h
  exact List.mem_singleton.2 rfl

theorem State.setNum_objs_only (s : State) (i j n : Nat) (hj : j < 256 := by decide) : ObjsOnly [(i, j)] s (s.setNum i j n) :=
  State.setObj_objs_only s i j _ hj

theorem State.bump_objs_only (s : State) (i j : Nat) (hj : j < 256 := by decide) : ObjsOnly [(i, j)] s (s.bump i j) :=
  State.setObj_objs_only s i j _ hj

theorem State.irq_objs_only (s : State) (i : Nat) : ObjsOnly [(0x1050, 1)] s (s.irq i) := State.setObj_objs_only s _ _ _

/-- A report changes no object but the latch word and the count of lost reports (R377, R379). -/
theorem State.raise_objs_only (s : State) (src cause : Nat) (d : Bytes) : ObjsOnly [(0x2F10, 2), (0x2F10, 4)] s (s.raise src cause d) := by
  unfold State.raise State.send
  split
  · have hn : ObjsOnly [(0x2F10, 2), (0x2F10, 4)] s (s.noteRail (s.mkReport src cause d)) := by
      unfold State.noteRail
      split
      · exact .refl
      · unfold State.latchRail
        split
        · split
          · exact (State.setNum_objs_only s _ _ _).mono (by decide)
          · exact .refl
        · exact .refl
    dsimp only
    split
    · exact hn.trans (.of_objs rfl)
    · exact (hn.trans (.of_objs rfl)).trans ((State.bump_objs_only _ _ _).mono (by decide))
  · exact .of_objs rfl

/-- A request that was answered has changed no object that its meaning left alone. -/
theorem Answer.finish_objs_only (a : Answer) (x : Session) (q : Nat) (h : ObjsOnly l s a.state) : ObjsOnly l s (a.finish x q) :=
  h.trans (.of_objs rfl)

/-- A report to a queue with room is in it. -/
theorem State.raise_raised (src cause : Nat) (d : Bytes) (h : s.takesReports) : Raised src cause (s.raise src cause d) := by
  have hq : ∀ n : State, (n.flt = s.flt) → ∃ r ∈ queueReport (s.mkReport src cause d) n.flt.queue, r.source = src ∧ r.cause = cause := by
    intro n _
    exact ⟨s.mkReport src cause d, by unfold queueReport; simp, rfl, rfl⟩
  have hn : (s.noteRail (s.mkReport src cause d)).flt = s.flt := by
    unfold State.noteRail
    split
    · rfl
    · unfold State.latchRail
      split
      · split <;> rfl
      · rfl
  unfold State.raise State.send Raised
  rw [if_pos h.1]
  dsimp only
  rw [if_pos (by rw [hn]; exact h.2)]
  exact hq _ hn

end Sys2Proof.Machine
end

