-- ==== Sys2Proof/Laws/Rows.lean ====
section
/-! SUPPORT. What a row that is a Write of one register comes to, with its frame; what a value's bytes spell. -/

set_option Elab.async false

namespace Sys2Proof.Machine

variable {ps : List StatePart} {s t u : State}

/-- The frame of a command that answers a next state. -/
theorem MovesO.only {r : Host.Outcome State Fault Refusal} (h : MovesO ps s r) (e : r = .next t) : Only ps s t := (MovesO.of_next e h).only

/-- What a function leaves alone, by its part. -/
theorem Moves.same (m : Moves ps s t) (p : StatePart) (h : p ∉ ps := by decide) : p.same s t := m.only p h

/-- Hearing from a session changes the sessions alone. -/
theorem State.heard_only (s : State) (i : Nat) : Only [.wilwa] s (s.heard i) := fun p hp => by
  cases p <;> first | exact absurd (by decide) hp | rfl

/-- A command that is a Write does what the Write does. -/
theorem exec_of_writeOf {c : Instr} {h : Hdr} {i j o : Nat} {b : Bytes} (e : writeOf s c = some (h, i, j, o, b)) :
    exec c s = .next (s.hostWrite h i j o b) := by
  cases c <;> cases e <;> rfl

/-- A row that is a Write: what its register does, the response with Status 0, and the frame of both. -/
theorem WriteTaken.row {h : Hdr} {i j : Nat} {b : Bytes} {x : Session} (w : WriteTaken s h i j b x)
    (hd : (findDesc i j).isSome = true) (ha : (isAdminArea (i / 256) && i % 256 == 0 && j == 1) = false)
    (hk : ∀ d, findDesc i j = some d → hook x.now i j (d.value b) (s.heard x.sid) = some (.ok u))
    (m : Moves ps (s.heard x.sid) u) (h1 : .wilwa ∈ ps := by decide) (h2 : .sent ∈ ps := by decide) :
    ∃ t, Host.Outcome.next (s.hostWrite h i j 0 b) = (.next t : Host.Outcome State Fault Refusal) ∧
      Answered t 0x13 0 h.seq.toNat ∧ Only [.wilwa, .sent] u t ∧ Only ps s t := by
  obtain ⟨d, hd⟩ := Option.isSome_iff_exists.1 hd
  obtain ⟨t, e, a, o⟩ := w.done hd ha (hk d hd)
  exact ⟨t, e, a, o, (((s.heard_only _).mono (by simpa using h1)).trans m.only).trans (o.mono (by simp [h1, h2]))⟩

/-- A row that is a Write which its register refuses: the response with the code, and nothing else but in its session. -/
theorem WriteTaken.rowRefused {h : Hdr} {i j e : Nat} {b : Bytes} {x : Session} (w : WriteTaken s h i j b x)
    (hd : (findDesc i j).isSome = true) (ha : (isAdminArea (i / 256) && i % 256 == 0 && j == 1) = false)
    (hk : ∀ d, findDesc i j = some d → hook x.now i j (d.value b) (s.heard x.sid) = some (.error e)) :
    ∃ t, Host.Outcome.next (s.hostWrite h i j 0 b) = (.next t : Host.Outcome State Fault Refusal) ∧
      Answered t 0x13 e h.seq.toNat ∧ Only [.wilwa, .sent] s t := by
  obtain ⟨d, hd⟩ := Option.isSome_iff_exists.1 hd
  obtain ⟨t, e, a, o⟩ := w.refused hd ha (hk d hd)
  exact ⟨t, e, a, ((s.heard_only _).mono (by decide)).trans o⟩

/-- The value of an object of fixed size is the number its bytes spell. -/
theorem Desc.value_num {d : Desc} {i j : Nat} (hd : findDesc i j = some d) (b : Bytes)
    (h : ((findDesc i j).bind (·.ty.size)).isSome = true) : d.value b = .num (leNat b) := by
  rw [hd] at h
  unfold Desc.value
  cases hs : d.ty.size with
  | none => simp [hs] at h
  | some n => rfl

/-- The value of an object of varying size is its bytes. -/
theorem Desc.value_bytes {d : Desc} {i j : Nat} (hd : findDesc i j = some d) (b : Bytes)
    (h : ((findDesc i j).bind (·.ty.size)) = none) : d.value b = .bytes b := by
  rw [hd] at h
  unfold Desc.value
  rw [show d.ty.size = none from h]

@[simp] theorem leNat_leBytes (k n : Nat) : leNat (leBytes k n) = n % 256 ^ k := by
  induction k generalizing n with
  | zero => simp [leBytes, leNat, Nat.mod_one]
  | succ k ih =>
    simp only [leBytes, leNat, ih, BitVec.toNat_ofNat]
    exact (show n % 256 ^ (k + 1) = n % 256 + 256 * (n / 256 % 256 ^ k) by
      rw [show 256 ^ (k + 1) = 256 * 256 ^ k by rw [Nat.pow_succ, Nat.mul_comm], Nat.mod_mul]).symm

end Sys2Proof.Machine
end

