-- ==== Sys2Proof/Tests/Slice0.lean ====
section
/-! SUPPORT. The model's own tests: for every obligation with hypotheses a state and operands that meet them (clause by clause),
an ill-formed command for each check of `Instr.wf`, and the manual's own examples. -/

set_option Elab.async false
set_option maxRecDepth 10000

namespace Sys2Proof.Machine
/-- The state with these blocks in the intake FIFO. -/
def State.queued (s : State) (l : List FifoBlock) : State := { s with rin := { s.rin with fifo := l } }
end Sys2Proof.Machine

namespace Sys2Proof.Tests
open Sys2Proof.Machine

/-- A host's endpoint. -/
def host : Endpoint := { ip := { v6 := false, addr := 1 }, port := 50000 }

/-- An open version 2 session at service level whose last Sequence is 0. -/
def ses : Session :=
  { sid := 1, src := host, version := 2, level := 2, emergency := false, seq := 0, openSeq := 0, stored := none, openResp := none,
    heard := false, exchange := none, sessKey := none, unacked := [] }

/-- Its next request, with `n` bytes of payload. -/
def hd (n : Nat) : Hdr :=
  { src := host, dst := { v6 := false, addr := 9 }, version := 2, sid := 1, seq := 1, payloadLength := BitVec.ofNat 16 n, flags := 0, reserved := 0, status := 0, tag := [] }

/-- A device in STANDBY at address 9 with every domain ON, the link of port 1 up and these sessions open. -/
def upWith (v : Vector (Option Session) 4) : State :=
  (({ State.reset with
      tick := 10000000000000
      pwr := { Pwr.start with dev := .standby, doms := Vector.replicate 12 .on, trip := false, aon := true }
      wilwa := { Wilwa.start with sessions := v } } : State).setNum 0x2012 1 0x8000).setNum 0x2020 2 9

/-- With the one session. -/
def up : State := upWith #v[some ses, none, none, none]

/-- In another device state. -/
def upIn (d : DevState) : State := up.modPwr fun p => { p with dev := d }

/-- An image that authenticates where the fuses hold its key's digest, and one that the NOR does not yield. The key and the nonce of the
signature are 1: the public key is the generator, r its abscissa and s = hash + r. -/
def keyBytes : Bytes := beBytes 48 p384G.x ++ beBytes 48 p384G.y
def image : Image :=
  { readOk := true, headerOk := true, publicKey := keyBytes, security := 0, signed := [7], sigR := BitVec.ofNat 384 (p384G.x % p384N),
    sigS := BitVec.ofNat 384 ((beNat (sha384 [7]) + p384G.x % p384N) % p384N), firmware := 7 }
def badImage : Image := { image with readOk := false }
def keyed (s : State) : State := { s with fuses := { s.fuses with keyHash := BitVec.ofNat 384 (beNat (sha384 keyBytes)) } }

/-- A datagram as it might be stored. -/
def note : Dgram :=
  { dst := host, cyclic := false, version := 2, msgType := 2, sid := 1, seq := 0, flags := 1, status := 0, payload := [], tag := [], vlan := none }

/-- A session with an unlock exchange open. -/
def exchange : Exchange := { level := 2, hostNonce := List.replicate 32 9, deviceNonce := List.replicate 32 9 }
def unlockSes : Session := { ses with level := 0, exchange := some exchange }
def unlocking : State := upWith #v[some unlockSes, none, none, none]

/-- Channel 0 enabled and trained, the Raster port up, CONFIGURED asked for. -/
def trained : State :=
  (({ up with rin := { Rin.start with linkUp := true, locked := 15 } }.setNum 0x2310 1 1).modChan 0 fun m => { m with st := .ready }).modPwr
    fun p => { p with trans := some .training }

/-- What R26 and R27 ask for. -/
def readyToTrain : State := up.setNum 0x2310 1 1
def readyToArm : State := { upIn .configured with fireEn := true }

/-- Every lane trained at version 3. -/
def lanesUp (s : State) : State :=
  { s with hlk := { Hlk.start with lanes := Vector.replicate 32 { Hln.start with st := .trained, version := 3, lock := true } } }

/-- The domains that boot leaves OFF. -/
def dark : State := up.modPwr fun p => { p with doms := resetDoms }

/-- A download of 32 bytes into 1030:01 that has received nothing, and an upload that has sent its first 16 bytes. -/
def download : Transfer :=
  { tid := 7, sid := 1, idx := 0x1030, sub := 1, download := true, total := 32, segSize := 16, segs := [], acked := 0, sinceAck := 0,
    lastAck := some 0, data := [], sent := 0 }
def upload : Transfer :=
  { download with idx := 0x2710, download := false, data := List.replicate 32 1, sent := 32 }
def transferring (r : Transfer) : State := { up with wilwa := { up.wilwa with transfers := [r] } }

/-- A session at version 1. -/
def ses1 : Session := { ses with version := 1 }
def up1 : State := upWith #v[some ses1, none, none, none]
def hd1 (n : Nat) : Hdr := { hd n with version := 1 }

/-- The cyclic streams run for the session, boundary 1000 passed. -/
def cyclic : State :=
  { (((up.setNum 0x6010 1 3).setNum 0x6010 2 1000000).setNum 0x6010 5 3) with
    wilwa := { up.wilwa with cycSid := 1, boundary := some 1000, cycles := [(1000, up.tick)] } }

/-- A frame of 100 bytes, and the switch with both links up and its destination learned at port 2. -/
def frame : Frame :=
  { dst := 0x22, src := 0x44, pcp := none, vid := 0, length := 100, fcsOk := true, ptp := none, correction := 0 }
def linked : State :=
  { (((up.setNum 0x2012 1 0x8000).setNum 0x2012 2 0x8000).setNum 0x2040 1 0) with net := { up.net with table := [(0x22, { port := 2, tick := 5 })] } }
/-- Port 2 sends until a tick to come, with so many frames in its queue 0. -/
def queued (n : Nat) : State :=
  linked.modEgress 2 fun p => { p with
    busy := linked.tick + 5, queues := vmod p.queues 0 fun _ => List.replicate n { frame := frame, port := 1, tick := 0, asks := none } }

/-- A master's Announce and one of its messages. -/
def master : Announce :=
  { domain := 0, mapping := 0, priority1 := 128, clockClass := 6, accuracy := 0x20, variance := 0, priority2 := 128, grandmaster := 77,
    steps := 0, sender := 99, logInterval := 0 }
def message : PtpMsg :=
  { port := 1, mapping := 0, domain := 0, sender := 99, seq := 5, twoStep := false, time := 5000, correction := 0, logInterval := 0 }
def followed (f : PtpDom → PtpDom) : State := up.modDom 0 fun d => f { d with master := some master }

/-- A raster block of job 7, generation 3, one line of bar 0, with this payload. -/
def block0 (kind first : Nat) (p : Bytes) : RasterBlock :=
  { skipped := 0, magic := 0x5652, headerVersion := 1, codec := 0, jobId := 7, barMask := 1, kind := BitVec.ofNat 8 kind, generation := 3,
    firstLine := BitVec.ofNat 32 first, lineCount := 1, payloadLength := BitVec.ofNat 32 p.length, sequence := 9, headerCrc := 0,
    payload := p, blockCrc := 0, trailerSequence := 9, endMagic := 0x5645, begun := false, laneErrors := Vector.replicate 4 0 }
def block1 (kind first : Nat) (p : Bytes) : RasterBlock :=
  { block0 kind first p with headerCrc := BitVec.ofNat 32 (crc32c (headerOf (block0 kind first p))) }
def block (kind first : Nat) (p : Bytes) : RasterBlock :=
  { block1 kind first p with
    blockCrc := BitVec.ofNat 32 (crc32c (headerOf (block1 kind first p) ++ u32 (block1 kind first p).headerCrc.toNat ++ p)) }

/-- Slot 0 holds job 7, generation 3: bar 0, 64 pixels a line, 4 lines; the Raster port is up. -/
def slotted (st : SlotSt) : State :=
  (({ ((((((up.setNum 0x2210 1 7).setNum 0x2218 1 3).setNum 0x2212 1 1).setNum 0x2213 1 64).setNum 0x2216 1 4).setNum 0x2220 1 1) with
    rin := { Rin.start with linkUp := true, locked := 15 } }.setNum 0x2310 1 1).modSlot 0 fun k => { k with st := st }).modChan 0
      fun m => { m with st := .ready }
def streaming (st : SlotSt) : State := (slotted st).setNum 0x2211 1 1

/-- A block of that job in the FIFO. -/
def held (kind : Nat) (p : Bytes) : FifoBlock :=
  { codec := 0, jobId := 7, barMask := 1, kind := kind, generation := 3, firstLine := 0, lineCount := 1, sequence := 9, payload := p, words := 4,
    slot := 0, taken := .waiting, sent := false, fails := 0, acked := false, partner := none, fwd := false }
def sixtyFour : Bytes := List.replicate 64 0

/-- The active partner of a pair. -/
def paired (s : State) : State := s.modMir fun m => { m with role := .active, st := .warm, link := true }

/-- A map of 16 addresses at columns 0 to 15, unit gain, element by address. -/
def aMap : Bytes := (List.range 16).flatMap fun i => u64 (0x4000 * 2 ^ 48 + i * 2 ^ 31 + i)

/-- A job on bar 0 from slot 0, the device printing. -/
def printing : State :=
  (({ slotted .printing with
      pwr := { up.pwr with dev := .printing }
      fsq := { Fsq.start with jobMask := 1 } }.setObj 0x2710 1 (.bytes aMap)).modJob 0 fun j => { j with slot := some 0 }).modBar 0
    fun x => { x with run := .printing, slot := some 0, ready := true }

/-- Channel 0 in this state, alone enabled. -/
def chanIn (st : ChSt) : State := (up.setNum 0x2310 1 1).modChan 0 fun m => { m with st := st }

def training (f : Mch → Mch) : State := (chanIn .training).modChan 0 fun m => f { m with step := 3 }

/-- Bar `b` waits for its mark. -/
def awaiting (b : Nat) (s : State) : State :=
  { s with lcg := vmod s.lcg b fun c => { c with st := .waiting } }.modBar b fun x => { x with run := .waiting }

/-- Position channel 0 in this mode. -/
def chanMode (m : Nat) (f : Pch → Pch) : State :=
  { up.setNum 0x2510 1 m with pos := vmod up.pos 0 f }
/-- Channel 8 in Hall mode. -/
def hall (f : Pch → Pch) : State := { up.setNum 0x2510 9 3 with pos := vmod up.pos 8 f }

/-- An issued line of bar 0 whose first slice engine 0 has in its queue. -/
def entry : Entry :=
  { cfg := printing.sneCfg 0 0, p := 0, slot := 0, design := 0, pixels := some sixtyFour, slices := Vector.replicate 16 .waiting,
    prev := none, fresh := true }
def sliceJob : SliceJob := { bar := 0, idx := 0, slice := 0 }
def slicing : State :=
  (printing.modBar 0 fun x => { x with buf := [(0, entry)] }).modEngine 0 fun e => { e with st := .serving, queue := [sliceJob] }

/-- A line of bar 0 whose tokens wait on these lanes. -/
def token : Token := { bar := 0, n := 3, boundary := 100, delay := 2, late := false, fire := 50 }
def firing (lanes : List Nat) : Firing :=
  { ev := { n := 3, cross := 0, raw := false, pos := 0, stamp := 0, era := 0 },
    line := { idx := 0, cfg := none, blank := true, levels := [], suppressed := false, incomplete := false, lanes := lanes }, fire := 50, lanes := lanes,
    fired := [], late := false }
def tokens (lanes : List Nat) : State :=
  { lanesUp (printing.modBar 0 fun x => { x with firing := some (firing lanes), ready := false }) with fireEn := true }.modLane 0
    fun l => { l with tokens := [token] }

/-- What a module that knows all versions tells of itself. -/
def cap : CapUp :=
  { versions := 7, chosen := 3, input := 0, model := 1, firmware := 1, serial := 1, headCount := 16, kind := 1, elements := 320, maxRate := 160,
    fireOffset := 100, asymmetry := 0, maxTurnaround := 1000 }

/-- Lane 0 so, in CONFIGURED; module 0 so. -/
def laneIn (st : LaneSt) (f : Hln → Hln) : State := (upIn .configured).modLane 0 fun x => f { x with st := st, lock := true }
def headModule (f : Hdm → Hdm) : State := up.modHdm 0 fun h => f { h with a := { h.a with lock := true } }
def wave : Bytes := u8 1 ++ u8 1 ++ u16 0 ++ u64 0 ++ u32 0 ++ u16 10 ++ u16 0 ++ u32 0
def status : HdmStatus :=
  { ownerState := 0, flags := 0, genMax := 0, fired := 0, rejects := 0, crcErrors := 0, mismatches := 0, faultMask := 0, temps := [] }
def tokenHead : TokenHead := { bar := 0, delay := 2, late := false, lane := 0 }
def hdmLine : HdmLine := { head := 2, number := 70000, elements := 3, zeroLine := false, bar := 1, levels := [1, 2, 3] }
def measOut : MeasOut := { head := 0, first := 0, count := 16, kind := 0, tag := 5, retried := false }
def measResult : MeasResult := { tag := 5, result := 0, first := 0, count := 16, kind := 0, head := 0, values := List.replicate 16 9 }

/-- A pair's link in this role and state. -/
def pairIn (r : Role) (st : MirSt) (f : Mir → Mir) : State :=
  { up with fuses := { up.fuses with mirror := true } }.modMir fun m => f { m with role := r, st := st, link := true }
def hello : Hello :=
  { versions := 3, chosen := 2, role := 2, devState := 3, serial := 7, keyGen := 4, stepping := 0, echoTag := 0, echoReturn := 0, turnaround := 10 }
def blkBar : BlkBar :=
  { clock := 0, run := 0, high := 0, count := 0, next := 0, p := 0, design := 0, repeatIdx := 0, expected := 0, windowLines := 0, dutyIdx := 0,
    nextPrep := 0, holdMode := 0, window := 0, gainStamp := 0, zones := [] }
def stateBlock : StateBlock :=
  { keyGen := 6, keyRemaining := 0, devState := 3, holdResume := 0,
    chans := Vector.replicate 12 { position := 0, speed := 0, interval := 0, status := 0 }, bars := Vector.replicate 8 blkBar, current := 255,
    queued := 255, changeAt := 0, slotStates := Vector.replicate 2 0, slotSums := Vector.replicate 2 0, fwdOldest := 0, fwdOut := 0,
    generations := List.replicate 20 0, outputs := 0, compareEnable := 0 }
def slotFrame : SlotFrame := { slot := 1, state := 3, job := 7, gen := 3, sum := 0 }

/-- A report of line clock 0 and how it waits. -/
def faultMsg : FaultMsg := { source := 0x2600, code := 0x0100, island := 3, data := [1] }
def report : Report := { source := 0x2600, cause := 1, unit := 0, island := 3, stamp := 5, tick := 5, data := [1] }
def reporting (byte : Nat) : State := up.modFlt fun f => { f with queue := [report], reactions := [(0x2600, { byte := byte, fallback := 0 })] }
def snapWrite : SnapWrite := { slot := 3, records := [], seq := 2, newest := 0, causes := 4, ns := 0, era := 0 }

/-- Camera port 0 in use, so. -/
def camera (f : Cam → Cam) : State := up.modCam 0 fun c => f { c with enabled := true, started := true }
def trig : Trig := { tick := 0, ns := 0, era := 0, pos := 66536, channel := 0, unit := 0, count := 6 }
def pendTrig : PendTrig := { i := 5, trig := trig, gen := 0 }
def portFrame : PortFrame := { j := some 0, marks := 0, gen := 0, hist := List.replicate 192 0, lastSeen := false, discard := false }
def csiHead : CsiHead := { ecc := .clean, vc := 0 }
def csiLine : CsiLine := { head := csiHead, dataType := 0x24, samples := [1, 2, 3], crcOk := true, age := 0 }
def stitch (part : Part) : Stitch :=
  { i := 5, trig := trig, parts := Vector.replicate 4 part, marks := 0, gens := Vector.replicate 4 0 }
def webLine : WebLine := { i := 63, trig := trig, pixels := [], sums := [], marks := 0, whole := false }
def webFrame : WebFrame := { j := 0, marks := 0, firstGens := Vector.replicate 4 0, lines := [webLine] }
def product : Product := { frame := 4, data := [1, 2, 3], sent := some 0, ports := 1, ns := 0, era := 0 }
def batch : CciBatch := { writes := [(1, 0x202, [1, 2])], settings := { exposure := 1, gain := 1, red := 1, green := 1, blue := 1 } }
def cciHost : CciHost := { read := true, count := 2, index := 0x300, data := [0, 0, 0, 0] }
def seen (s : State) (f : Vis → Vis) : State := { s with vis := f s.vis }

/-- Colour hold runs on bar 0, with a camera and two coverage records. -/
def holding : State :=
  { ((((camera id).setNum 0x2820 1 1).setNum 0x2960 1 1024).setNum 0x2961 1 2).setNum 0x2811 1 1 with
    fsq := { Fsq.start with jobMask := 1 } }.modChan 0 fun m => { m with st := .ready }
def covered (l : List CheIn) : State :=
  { seen (holding.setNum 0x2310 1 1) fun v => { v with toChe := l } with
    dram := [(14, 64), (16, 0xE8), (17, 3), (1088, 64), (1102, 64), (1104, 0xD0), (1105, 7)]
    che := { Che.start with track := [⟨500, 0⟩, ⟨2500, 2000⟩] } }

/-- The checks of an admitted request. -/
def enters (s : State) (h : Hdr) (ty : Nat) (p : Bytes) (x : Session) : Bool :=
  s.serves && s.ownAddress h.dst && decide (s.session h.sid.toNat = some x) && x.sessKey.isNone && headerOk h p
    && h.version.toNat == x.version && messageInVersion x.version ty

theorem admitted_of_enters {s : State} {h : Hdr} {ty : Nat} {p : Bytes} {x : Session} (e : enters s h ty p x = true) :
    Admitted s h ty p x := by
  simp only [enters, Bool.and_eq_true, decide_eq_true_eq, beq_iff_eq, Option.isNone_iff_eq_none] at e
  obtain ⟨⟨⟨⟨⟨⟨h1, h0⟩, h2⟩, h3⟩, h4⟩, h5⟩, h6⟩ := e
  exact ⟨h1, h0, h2, by simp [h3], h4, h5, h6⟩

/-- The checks of an accepted request. -/
def takes (s : State) (h : Hdr) (ty : Nat) (p : Bytes) (x : Session) : Bool :=
  enters s h ty p x && h.seq.toNat == (x.seq + 1) % 2 ^ 32

theorem accepted_of_takes {s : State} {h : Hdr} {ty : Nat} {p : Bytes} {x : Session} (e : takes s h ty p x = true) :
    Accepted s h ty p x := by
  simp only [takes, Bool.and_eq_true, beq_iff_eq] at e
  exact ⟨admitted_of_enters e.1, e.2⟩

/-- The checks of a Write that is taken. -/
def writes (s : State) (h : Hdr) (i j : Nat) (b : Bytes) (x : Session) : Bool :=
  takes s h 0x12 (u16 i ++ u8 j ++ u8 0 ++ b) x && (match findDesc i j with
    | none => false
    | some d => indexInVersion x.version i && decide (d.level ≤ x.level) && d.acc != .ro && d.ty != .domain && d.lengthOk b
      && s.valueOk d i j (d.value b) && s.on (objDomain i j) && (d.cls != .stopped || !s.stoppedRuns i j) && !s.rxMapped i j)

theorem writeTaken_of_writes {s : State} {h : Hdr} {i j : Nat} {b : Bytes} {x : Session} (e : writes s h i j b x = true) :
    WriteTaken s h i j b x := by
  simp only [writes, Bool.and_eq_true] at e
  refine ⟨accepted_of_takes e.1, ?_⟩
  have e := e.2
  cases hd : findDesc i j with
  | none => simp [hd] at e
  | some d =>
    simp only [hd, Bool.and_eq_true, decide_eq_true_eq, bne_iff_ne, Bool.or_eq_true, Bool.not_eq_true'] at e
    obtain ⟨⟨⟨⟨⟨⟨⟨⟨h1, h2⟩, h3⟩, h4⟩, h5⟩, h6⟩, h7⟩, h8⟩, h9⟩ := e
    exact ⟨d, hd, h1, h2, h3, h4, h5, h6, h7, fun c => h8.resolve_left (fun k => k c), h9⟩

/-- No session open, then one opened: its SessionId is free. -/
def noSession : State := upWith #v[none, none, none, none]
def opening : Hdr := { hd 3 with version := 0, sid := 0, seq := 7 }
def opened : State := noSession.openSession opening 2 false
def newcomer : Session := (vget opened.wilwa.sessions 0 none).getD ses

theorem newcomer_found : opened.session newcomer.sid = some newcomer := by
  have e : vget opened.wilwa.sessions 0 none = some newcomer := rfl
  have r : List.range 4 = [0, 1, 2, 3] := rfl
  simp [State.session, State.sessionSlot, e, r]

theorem witness_StepTakesTheFrontCommand :
    (∃ (s : State) (c : Instr) (rest : List Instr), s.pending = c :: rest) ∧
    (∃ (s : State), s.pending = []) ∧
    (∃ (s : State), s.pending = [] ∧ s.on domHLK = false ∧ s.on domNET = false ∧ (∀ b, b < 8 → (s.bar b).staging = [])) :=
  ⟨⟨{ up with pending := [.pfailNRise, .eraWrap] }, Instr.pfailNRise, [.eraWrap], by decide⟩,
    ⟨up, by decide⟩,
    ⟨up.modPwr fun p => { p with doms := resetDoms.set 2 .off }, by decide, by decide, by decide, by decide⟩⟩

theorem witness_OnlyMissingMemoryStopsAStep :
    (∃ (s : State), (∀ m a d rest, s.pending = .memoryRequest m a d :: rest → (s.locate (a.toNat / 128 * 128)).isSome = true)) ∧
    (∃ (s : State) (m : BitVec 8) (a : BitVec 48) (d : Option Bytes) (rest : List Instr), s.pending = .memoryRequest m a d :: rest ∧ s.locate (a.toNat / 128 * 128) = none) :=
  ⟨⟨up, (by intro _ _ _ _ e; simp [up, upWith, State.reset] at e)⟩,
    ⟨{ up with pending := [.memoryRequest 0 0 none] }, 0, (0 : BitVec 48), (none : Option Bytes), ([] : List Instr), by decide, by decide⟩⟩

theorem witness_ResetLeaves :
    (∃ (d : Nat), d < 12) ∧
    (∃ (l : Nat), l < 32) ∧
    (∃ (c : Nat), c < 4) ∧
    (∃ (k : Nat), k < 2) ∧
    (∃ (b : Nat), b < 8) :=
  ⟨⟨11, by decide⟩,
    ⟨31, by decide⟩,
    ⟨3, by decide⟩,
    ⟨1, by decide⟩,
    ⟨7, by decide⟩⟩

theorem witness_OneSessionHoldsALevel :
    (∃ (s : State) (t : State), s.SeatsOk ∧ step s = .next t) ∧
    (∃ (s : State) (h : Hdr) (l : BitVec 8) (n : Bytes) (x : Session), Accepted s h 0x03 (u8 l.toNat ++ n) x ∧ n.length = 32 ∧ (l.toNat = 1 ∨ l.toNat = 2) ∧ (x.version = 1 → l.toNat = 1) ∧ s.wilwa.lockout = false ∧ ¬ LevelFree s x) ∧
    (∃ (s : State) (c : Instr) (h : Hdr) (i : Nat) (j : Nat) (o : Nat) (b : Bytes) (x : Session) (d : Desc), writeOf s c = some (h, i, j, o, b) ∧ Accepted s h 0x12 (u16 i ++ u8 j ++ u8 o ++ b) x ∧ findDesc i j = some d ∧ indexInVersion x.version i = true ∧ x.level < d.level) ∧
    (∃ (s : State) (h : Hdr) (i : BitVec 16) (j : BitVec 8) (n : BitVec 32) (x : Session) (d : Desc), Accepted s h 0x14 (u16 i.toNat ++ u8 j.toNat ++ u8 0 ++ u32 n.toNat) x ∧ findDesc i.toNat j.toNat = some d ∧ indexInVersion x.version i.toNat = true ∧ x.level < d.level) :=
  ⟨⟨up, _, (by unfold State.SeatsOk; decide), rfl⟩,
    ⟨upWith #v[some { ses with level := 0 }, some { ses with sid := 2 }, none, none], hd ((u8 (2 : BitVec 8).toNat ++ ((List.replicate 32 0 : Bytes))) : Bytes).length, 2, (List.replicate 32 0 : Bytes), { ses with level := 0 }, accepted_of_takes (by decide), by decide, by decide, by decide, by decide, (by unfold LevelFree; decide)⟩,
    ⟨upWith #v[some { ses with level := 0 }, none, none, none], Instr.write (hd 4) 0x1030 2 0 [], hd 4, (0x1030 : Nat), (2 : Nat), (0 : Nat), ([] : Bytes), { ses with level := 0 }, (findDesc 0x1030 2).get (by decide), by decide, accepted_of_takes (by decide), by decide, by decide, by decide⟩,
    ⟨upWith #v[some { ses with level := 0 }, none, none, none], hd ((u16 (0x2710 : BitVec 16).toNat ++ u8 (1 : BitVec 8).toNat ++ u8 0 ++ u32 (0 : BitVec 32).toNat) : Bytes).length, 0x2710, 1, 0, { ses with level := 0 }, (findDesc 0x2710 1).get (by decide), accepted_of_takes (by decide), by decide, by decide, by decide⟩⟩

theorem witness_OnlyAProofRaisesALevel :
    (∃ (s : State) (t : State), (∀ h p rest, s.pending ≠ .proof h p :: rest) ∧ step s = .next t) :=
  ⟨up, _, (by intro _ _ _ e; simp [up, upWith, State.reset] at e), rfl⟩

theorem witness_MemoryAndObjectsStayCanonical :
    (∃ (s : State) (t : State), s.DramOk ∧ step s = .next t) ∧
    (∃ (s : State) (t : State), s.ObjsOk ∧ step s = .next t) :=
  ⟨⟨up, _, (by unfold State.DramOk; decide), rfl⟩,
    ⟨up, _, (by unfold State.ObjsOk; decide), rfl⟩⟩

theorem witness_CommandsKeepTheirPlaces :
    (∃ (c : Instr) (s : State) (t : State), exec c s = .next t) ∧
    (∃ (c : Instr) (s : State) (t : State), exec c s = .next t) ∧
    (∃ (c : Instr) (s : State) (t : State), exec c s = .next t) ∧
    (∃ (c : Instr) (s : State) (t : State), exec c s = .next t ∧ c ≠ .fireEnFall ∧ c ≠ .fireEnRise) ∧
    (∃ (c : Instr) (s : State) (t : State), exec c s = .next t ∧ ofHdm c = false) ∧
    (∃ (c : Instr) (s : State) (t : State), exec c s = .next t ∧ c.hdr? = none ∧ c ≠ .cyclicRxApply) :=
  ⟨⟨Instr.eraWrap, up, _, rfl⟩,
    ⟨Instr.eraWrap, up, _, rfl⟩,
    ⟨Instr.eraWrap, up, _, rfl⟩,
    ⟨Instr.eraWrap, up, _, rfl, by decide, by decide⟩,
    ⟨Instr.eraWrap, up, _, rfl, by decide⟩,
    ⟨Instr.eraWrap, up, _, rfl, by decide, by decide⟩⟩

theorem witness_SuppliesWakesAndPowerOnResets :
    (∃ (s : State), s.pwr.dev = .off ∧ s.pwr.porst = false) ∧
    (∃ (s : State), s.pwr.trip = false ∧ (s.pwr.dev = .off → s.pwr.supplies = true ∧ s.pwr.aon = true)) ∧
    (∃ (s : State), s.pwr.trip = true) ∧
    (∃ (s : State), s.pwr.dev = .reset ∧ s.pwr.trip = false) ∧
    (∃ (s : State), s.pwr.trip = true) ∧
    (∃ (s : State), s.pwr.trip = true ∧ s.pwr.tripDown = false ∧ s.pwr.dev ≠ .off) ∧
    (∃ (s : State) (a : Image) (b : Image), s.pwr.trip = false ∧ s.pwr.dev = .deep ∧ s.on domMGT = false ∧ s.num 0x1110 3 ≠ 0 ∧ (s.imageStatus a = 0 ∨ s.imageStatus b = 0)) ∧
    (∃ (s : State), s.pwr.trip = false ∧ s.pwr.dev ≠ .off ∧ s.pwr.dev ≠ .reset ∧ (s.on domMGT = true ∨ s.num 0x1110 3 = 0)) :=
  ⟨⟨(upIn .off).setNum 0x2710 1 5, by decide, by decide⟩,
    ⟨up, by decide, by decide⟩,
    ⟨up.modPwr fun p => { p with trip := true }, by decide⟩,
    ⟨upIn .reset, by decide, by decide⟩,
    ⟨up.modPwr fun p => { p with trip := true }, by decide⟩,
    ⟨up.modPwr fun p => { p with trip := true }, by decide, by decide, by decide⟩,
    ⟨keyed (((upIn .deep).modPwr fun p => { p with doms := #v[.on, .off, .off, .off, .off, .off, .off, .retain, .off, .off, .off, .off] }).setNum 0x1110 3 1), badImage, image, by decide, by decide, by decide, by decide, (by decide +kernel)⟩,
    ⟨up, by decide, by decide, by decide, by decide⟩⟩

theorem witness_ChipResetAndBoot :
    (∃ (s : State) (c : Nat), s.pwr.chipPending = some c ∧ s.pwr.trip = false) ∧
    (∃ (s : State), s.pwr.chipPending = none) ∧
    (∃ (s : State) (a : Image) (b : Image), s.pwr.dev = .boot ∧ s.pwr.bootHeld = false ∧ (s.imageStatus a = 0 ∨ s.imageStatus b = 0)) ∧
    (∃ (s : State) (a : Image) (b : Image), s.pwr.dev = .boot ∧ s.pwr.bootHeld = false ∧ s.imageStatus a ≠ 0 ∧ s.imageStatus b ≠ 0) ∧
    (∃ (s : State), s.pwr.bootHeld = true) :=
  ⟨⟨up.modPwr fun p => { p with chipPending := some 3 }, 3, by decide, by decide⟩,
    ⟨up, by decide⟩,
    ⟨keyed (upIn .boot), badImage, image, by decide, by decide, (by decide +kernel)⟩,
    ⟨upIn .boot, badImage, badImage, by decide, by decide, by decide, by decide⟩,
    ⟨(upIn .boot).modPwr fun p => { p with bootHeld := true }, by decide⟩⟩

theorem witness_StateRequestsAreCarriedOut :
    (∃ (s : State) (h : Hdr) (x : Session), WriteTaken s h 0x1100 2 (u8 3) x ∧ s.pwrBusy = false ∧ (s.pwr.dev = .configured ∨ s.pwr.dev = .frozen)) ∧
    (∃ (s : State) (h : Hdr) (x : Session), WriteTaken s h 0x1100 2 (u8 4) x ∧ s.pwrBusy = false ∧ s.pwr.dev = .standby ∧ ConfiguredReady s) ∧
    (∃ (s : State) (h : Hdr) (x : Session), WriteTaken s h 0x1100 2 (u8 4) x ∧ s.pwrBusy = false ∧ s.pwr.dev = .held) ∧
    (∃ (s : State) (h : Hdr) (x : Session), WriteTaken s h 0x1100 2 (u8 4) x ∧ s.pwrBusy = false ∧ (s.pwr.dev = .armed ∨ s.pwr.dev = .printing) ∧ (∀ b, b < 8 → s.barMoves b = false)) ∧
    (∃ (s : State) (h : Hdr) (x : Session) (b : Nat), WriteTaken s h 0x1100 2 (u8 4) x ∧ s.pwrBusy = false ∧ (s.pwr.dev = .armed ∨ s.pwr.dev = .printing) ∧ b < 8 ∧ s.barMoves b = true) ∧
    (∃ (s : State) (h : Hdr) (x : Session), WriteTaken s h 0x1100 2 (u8 5) x ∧ s.pwrBusy = false ∧ s.pwr.dev = .configured ∧ ArmedReady s) ∧
    (∃ (s : State) (h : Hdr) (x : Session), WriteTaken s h 0x1100 2 (u8 6) x ∧ s.pwrBusy = false ∧ s.pwr.dev = .held) ∧
    (∃ (s : State) (h : Hdr) (x : Session), WriteTaken s h 0x1100 2 (u8 7) x ∧ s.pwrBusy = false ∧ (s.pwr.dev = .armed ∨ s.pwr.dev = .printing)) ∧
    (∃ (s : State) (h : Hdr) (x : Session), WriteTaken s h 0x1100 2 (u8 8) x ∧ s.pwrBusy = false ∧ (s.pwr.dev = .configured ∨ s.pwr.dev = .armed ∨ s.pwr.dev = .printing ∨ s.pwr.dev = .held)) :=
  ⟨⟨upIn .frozen, hd (4 + ((u8 3)).length), ses, writeTaken_of_writes (by decide), by decide, by decide⟩,
    ⟨readyToTrain, hd (4 + ((u8 4)).length), ses, writeTaken_of_writes (by decide), by decide, by decide, ⟨by decide, by decide, by decide, by decide, by decide⟩⟩,
    ⟨upIn .held, hd (4 + ((u8 4)).length), ses, writeTaken_of_writes (by decide), by decide, by decide⟩,
    ⟨upIn .printing, hd (4 + ((u8 4)).length), ses, writeTaken_of_writes (by decide), by decide, by decide, by decide⟩,
    ⟨((upIn .printing).modBar 3 fun x => { x with run := .printing }).modBar 4 fun x => { x with run := .waiting }, hd (4 + ((u8 4)).length), ses, 3, writeTaken_of_writes (by decide), by decide, by decide, by decide, by decide⟩,
    ⟨readyToArm, hd (4 + ((u8 5)).length), ses, writeTaken_of_writes (by decide), by decide, by decide, ⟨by decide, by decide, by decide, by decide⟩⟩,
    ⟨upIn .held, hd (4 + ((u8 6)).length), ses, writeTaken_of_writes (by decide), by decide, by decide⟩,
    ⟨((upIn .printing).modBar 3 fun x => { x with run := .printing }).modBar 4 fun x => { x with run := .waiting }, hd (4 + ((u8 7)).length), ses, writeTaken_of_writes (by decide), by decide, by decide⟩,
    ⟨upIn .held, hd (4 + ((u8 8)).length), ses, writeTaken_of_writes (by decide), by decide, by decide⟩⟩

theorem witness_StateRequestsOutOfPlaceAreRefused :
    (∃ (s : State) (h : Hdr) (x : Session) (v : Nat) (c : Instr), stateRequestOf v h = some c ∧ WriteTaken s h 0x1100 2 (u8 v) x ∧ s.pwrBusy = true) ∧
    (∃ (s : State) (h : Hdr) (x : Session) (v : Nat) (c : Instr), stateRequestOf v h = some c ∧ WriteTaken s h 0x1100 2 (u8 v) x ∧ s.pwrBusy = false ∧ s.pwr.dev ∉ requestStarts v) :=
  ⟨⟨up.modPwr fun p => { p with trans := some .training }, hd (4 + ((u8 (8))).length), ses, 8, Instr.requestFrozen (hd 5), by decide, writeTaken_of_writes (by decide), by decide⟩,
    ⟨upIn .frozen, hd (4 + ((u8 (8))).length), ses, 8, Instr.requestFrozen (hd 5), by decide, writeTaken_of_writes (by decide), by decide, by decide⟩⟩

theorem witness_TimedRequestsEnd :
    (∃ (s : State), s.pwr.trans = some .training ∧ (∀ c ∈ s.enabled, (s.chan c).serves = true) ∧ s.rin.linkUp = true ∧ (∀ l ∈ s.jobLanes, (s.lane l).st = .trained)) ∧
    (∃ (s : State) (c : Nat), s.pwr.trans = some .training ∧ c ∈ s.enabled ∧ (s.chan c).st = .untrained) ∧
    (∃ (s : State), s.pwr.trans = some .training ∧ s.rin.linkUp = false) ∧
    (∃ (s : State), s.pwr.trans = some .resume) :=
  ⟨⟨lanesUp trained, by decide, by decide, by decide, by decide⟩,
    ⟨trained.modChan 0 fun m => { m with st := .untrained }, 0, by decide, by decide, by decide⟩,
    ⟨{ trained with rin := Rin.start }, by decide, by decide⟩,
    ⟨(upIn .held).modPwr fun p => { p with trans := some .resume }, by decide⟩⟩

theorem witness_DomainRequestsAreCarriedOut :
    (∃ (s : State) (h : Hdr) (x : Session) (v : BitVec 32), WriteTaken s h 0x1110 1 (u32 v.toNat) x ∧ s.pwrBusy = false ∧ s.pwr.dev = .standby ∧ s.mir.role = .solo ∧ bits v.toNat 30 24 = 0 ∧ bits v.toNat 1 0 = 1 ∧ bits v.toNat 3 2 = 1 ∧ bits v.toNat 5 4 = 1 ∧ (∀ d, 5 ≤ d → d < 12 → bits v.toNat (2 * d + 1) (2 * d) ≠ 2) ∧ parentBroken (fun d => if d = 0 then .on else s.domWanted v.toNat d) = none) ∧
    (∃ (s : State) (w : DomWork), s.pwr.domWork = some w ∧ w.waitReply = false) ∧
    (∃ (s : State) (w : DomWork), s.pwr.domWork = some w ∧ w.waitReply = true) ∧
    (∃ (s : State) (w : DomWork), s.pwr.domWork = some w ∧ w.waitReply = true) :=
  ⟨⟨up, hd (4 + ((u32 (0x00555515 : BitVec 32).toNat)).length), ses, 0x00555515, writeTaken_of_writes (by decide), by decide, by decide, by decide, by decide, by decide, by decide, by decide, fun d h1 h2 => (by decide : ∀ d < 12, 5 ≤ d → bits (0x00555515 : BitVec 32).toNat (2 * d + 1) (2 * d) ≠ 2) d h2 h1, by decide⟩,
    ⟨up.modPwr fun p => { p with domWork := some { changes := [(5, .on)], waitReply := false } }, ({ changes := [(5, .on)], waitReply := false } : DomWork), by decide, by decide⟩,
    ⟨up.modPwr fun p => { p with domWork := some { changes := [], waitReply := true } }, ({ changes := [], waitReply := true } : DomWork), by decide, by decide⟩,
    ⟨(upIn .deep).modPwr fun p => { p with domWork := some { changes := [(domNET, .off), (domMGT, .off)], waitReply := true } }, ({ changes := [(domNET, .off), (domMGT, .off)], waitReply := true } : DomWork), by decide, by decide⟩⟩

theorem witness_RequestedResets :
    (∃ (s : State) (h : Hdr) (x : Session), WriteTaken s h 0x1120 1 (u8 1) x) ∧
    (∃ (s : State) (h : Hdr) (x : Session), WriteTaken s h 0x1120 1 (u8 2) x ∧ areaResettable (s.num 0x1120 2 / 256) = true) ∧
    (∃ (s : State) (h : Hdr) (x : Session), WriteTaken s h 0x1120 1 (u8 2) x ∧ areaResettable (s.num 0x1120 2 / 256) = false) ∧
    (∃ (s : State) (r : Nat × Nat) (rest : List (Nat × Nat)), s.pwr.resets = r :: rest) ∧
    (∃ (s : State) (n : Engine), (s.engine n).st = .selfTest) ∧
    (∃ (s : State) (n : Engine), (s.engine n).st = .selfTest ∧ s.takesReports) ∧
    (∃ (s : State) (n : Engine), (s.engine n).st ≠ .selfTest) :=
  ⟨⟨up, hd (4 + ((u8 1)).length), ses, writeTaken_of_writes (by decide)⟩,
    ⟨up.setNum 0x1120 2 0x2700, hd (4 + ((u8 2)).length), ses, writeTaken_of_writes (by decide), by decide⟩,
    ⟨up.setNum 0x1120 2 0x3000, hd (4 + ((u8 2)).length), ses, writeTaken_of_writes (by decide), by decide⟩,
    ⟨up.modPwr fun p => { p with resets := [(0x25, 255), (0x27, 0)] }, (0x25, 255), [(0x27, 0)], by decide⟩,
    ⟨up.modEngine 16 fun e => { e with st := .selfTest }, 16, by decide⟩,
    ⟨up.modEngine 16 fun e => { e with st := .selfTest }, 16, by decide, (by unfold State.takesReports; decide)⟩,
    ⟨up, 16, by decide⟩⟩

theorem witness_SessionsOpenOrAreRefused :
    (∃ (s : State) (h : Hdr) (vs : Bytes) (e : BitVec 8) (v : Nat), s.serves = true ∧ s.ownAddress h.dst = true ∧ headerOk h (u8 vs.length ++ vs ++ u8 e.toNat) = true ∧ h.version = 0 ∧ h.sid = 0 ∧ e.toNat ≤ 1 ∧ vs.length ≤ 255 ∧ (bit h.flags.toNat 2 = true → ∀ y ∈ s.openSessions, y.src = h.src → y.openSeq = h.seq.toNat → y.heard = true) ∧ v ∈ [1, 2, 3] ∧ BitVec.ofNat 8 v ∈ vs ∧ (∀ w ∈ [1, 2, 3], BitVec.ofNat 8 w ∈ vs → w ≤ v) ∧ s.openSessions.length < 4) ∧
    (∃ (s : State) (h : Hdr) (vs : Bytes) (e : BitVec 8), s.serves = true ∧ s.ownAddress h.dst = true ∧ headerOk h (u8 vs.length ++ vs ++ u8 e.toNat) = true ∧ h.version = 0 ∧ h.sid = 0 ∧ e.toNat ≤ 1 ∧ vs.length ≤ 255 ∧ bit h.flags.toNat 2 = false ∧ (∀ w ∈ [1, 2, 3], BitVec.ofNat 8 w ∉ vs)) ∧
    (∃ (s : State) (h : Hdr) (vs : Bytes) (e : BitVec 8) (w : Nat), s.serves = true ∧ s.ownAddress h.dst = true ∧ headerOk h (u8 vs.length ++ vs ++ u8 e.toNat) = true ∧ h.version = 0 ∧ h.sid = 0 ∧ e.toNat ≤ 1 ∧ vs.length ≤ 255 ∧ bit h.flags.toNat 2 = false ∧ w ∈ [1, 2, 3] ∧ BitVec.ofNat 8 w ∈ vs ∧ s.openSessions.length = 4) ∧
    (∃ (s : State) (h : Hdr) (vs : Bytes) (e : BitVec 8) (x : Session) (d : Dgram), s.serves = true ∧ s.ownAddress h.dst = true ∧ headerOk h (u8 vs.length ++ vs ++ u8 e.toNat) = true ∧ h.version = 0 ∧ h.sid = 0 ∧ e.toNat ≤ 1 ∧ vs.length ≤ 255 ∧ bit h.flags.toNat 2 = true ∧ x ∈ s.openSessions ∧ x.src = h.src ∧ x.openSeq = h.seq.toNat ∧ x.heard = false ∧ (∀ y ∈ s.openSessions, y.src = h.src → y.openSeq = h.seq.toNat → y.heard = false → y.openResp = some d)) ∧
    (∃ (s : State) (h : Hdr) (vs : Bytes) (e : BitVec 8), s.serves = true ∧ s.ownAddress h.dst = true ∧ (headerOk h (u8 vs.length ++ vs ++ u8 e.toNat) = false ∨ h.version ≠ 0 ∨ h.sid ≠ 0 ∨ 1 < e.toNat)) :=
  ⟨⟨up, { hd 4 with version := 0, sid := 0, seq := 7 }, ([1, 2] : Bytes), (1 : BitVec 8), 2, by decide, by decide, by decide, by decide, by decide, by decide, by decide, by decide, by decide, by decide, by decide, by decide⟩,
    ⟨up, { hd 3 with version := 0, sid := 0, seq := 7 }, ([9] : Bytes), (1 : BitVec 8), by decide, by decide, by decide, by decide, by decide, by decide, by decide, by decide, by decide⟩,
    ⟨upWith #v[some ses, some { ses with sid := 2 }, some { ses with sid := 3 }, some { ses with sid := 4 }], { hd 3 with version := 0, sid := 0, seq := 7 }, ([3] : Bytes), (0 : BitVec 8), 3, by decide, by decide, by decide, by decide, by decide, by decide, by decide, by decide, by decide, by decide, by decide⟩,
    ⟨upWith #v[some { ses with openResp := some note }, none, none, none], { hd 3 with version := 0, sid := 0, seq := 0, flags := 4 }, ([3] : Bytes), (0 : BitVec 8), { ses with openResp := some note }, note, by decide, by decide, by decide, by decide, by decide, by decide, by decide, by decide, by decide, by decide, by decide, by decide, by decide⟩,
    ⟨up, { hd 3 with version := 1, sid := 0 }, ([3] : Bytes), (0 : BitVec 8), by decide, by decide, by decide⟩⟩

theorem witness_UnlockingGrantsALevel :
    (∃ (s : State) (h : Hdr) (l : BitVec 8) (n : Bytes) (x : Session), Accepted s h 0x03 (u8 l.toNat ++ n) x ∧ n.length = 32 ∧ (l.toNat = 1 ∨ l.toNat = 2) ∧ (x.version = 1 → l.toNat = 1) ∧ s.wilwa.lockout = false ∧ LevelFree s x ∧ (l.toNat = 1 → s.nonVol.operator.isSome = true)) ∧
    (∃ (s : State) (h : Hdr) (p : Bytes) (x : Session) (e : Exchange) (cred : Bytes), Accepted s h 0x05 p x ∧ x.exchange = some e ∧ cred = (if e.level = 1 then s.nonVol.operator.getD [] else s.nonVol.service.getD (List.replicate 32 0)) ∧ p = hmacSha256 cred (e.deviceNonce ++ e.hostNonce ++ u8 e.level ++ u16 x.sid ++ u64 s.fuses.serial) ∧ p.length = 32 ∧ LevelFree s x) ∧
    (∃ (s : State) (i : BitVec 16) (x : Session), s.session i.toNat = some x) :=
  ⟨⟨up, hd ((u8 (2 : BitVec 8).toNat ++ ((List.replicate 32 7 : Bytes))) : Bytes).length, 2, (List.replicate 32 7 : Bytes), ses, accepted_of_takes (by decide), by decide, by decide, by decide, by decide, (by unfold LevelFree; decide), by decide⟩,
    ⟨unlocking, hd ((hmacSha256 (List.replicate 32 0) (List.replicate 64 9 ++ u8 2 ++ u16 1 ++ u64 0)) : Bytes).length, hmacSha256 (List.replicate 32 0) (List.replicate 64 9 ++ u8 2 ++ u16 1 ++ u64 0), unlockSes, exchange, (List.replicate 32 0 : Bytes), accepted_of_takes (by decide), by decide, by decide, by decide, by decide, (by unfold LevelFree; decide)⟩,
    ⟨up, 1, ses, by decide⟩⟩

theorem witness_UnlockingIsRefused :
    (∃ (s : State) (h : Hdr) (l : BitVec 8) (n : Bytes) (x : Session), Accepted s h 0x03 (u8 l.toNat ++ n) x ∧ (n.length ≠ 32 ∨ (l.toNat ≠ 1 ∧ l.toNat ≠ 2))) ∧
    (∃ (s : State) (h : Hdr) (l : BitVec 8) (n : Bytes) (x : Session), Accepted s h 0x03 (u8 l.toNat ++ n) x ∧ n.length = 32 ∧ l.toNat = 2 ∧ x.version = 1) ∧
    (∃ (s : State) (h : Hdr) (l : BitVec 8) (n : Bytes) (x : Session), Accepted s h 0x03 (u8 l.toNat ++ n) x ∧ n.length = 32 ∧ (l.toNat = 1 ∨ l.toNat = 2) ∧ (x.version = 1 → l.toNat = 1) ∧ s.wilwa.lockout = true) ∧
    (∃ (s : State) (h : Hdr) (l : BitVec 8) (n : Bytes) (x : Session), Accepted s h 0x03 (u8 l.toNat ++ n) x ∧ n.length = 32 ∧ l.toNat = 1 ∧ s.wilwa.lockout = false ∧ LevelFree s x ∧ s.nonVol.operator = none) ∧
    (∃ (s : State) (h : Hdr) (p : Bytes) (x : Session), Accepted s h 0x05 p x ∧ p.length ≠ 32) ∧
    (∃ (s : State) (h : Hdr) (p : Bytes) (x : Session), Accepted s h 0x05 p x ∧ p.length = 32 ∧ x.exchange = none) ∧
    (∃ (s : State) (h : Hdr) (p : Bytes) (x : Session) (e : Exchange), Accepted s h 0x05 p x ∧ p.length = 32 ∧ x.exchange = some e ∧ p ≠ hmacSha256 (if e.level = 1 then s.nonVol.operator.getD [] else s.nonVol.service.getD (List.replicate 32 0)) (e.deviceNonce ++ e.hostNonce ++ u8 e.level ++ u16 x.sid ++ u64 s.fuses.serial)) ∧
    (∃ (s : State) (h : Hdr) (p : Bytes) (x : Session) (e : Exchange), Accepted s h 0x05 p x ∧ p.length = 32 ∧ x.exchange = some e ∧ p = hmacSha256 (if e.level = 1 then s.nonVol.operator.getD [] else s.nonVol.service.getD (List.replicate 32 0)) (e.deviceNonce ++ e.hostNonce ++ u8 e.level ++ u16 x.sid ++ u64 s.fuses.serial) ∧ ¬ LevelFree s x) :=
  ⟨⟨up, hd ((u8 (3 : BitVec 8).toNat ++ ((List.replicate 32 7 : Bytes))) : Bytes).length, 3, (List.replicate 32 7 : Bytes), ses, accepted_of_takes (by decide), by decide⟩,
    ⟨upWith #v[some { ses with version := 1 }, none, none, none], { hd 33 with version := 1 }, 2, (List.replicate 32 7 : Bytes), { ses with version := 1 }, accepted_of_takes (by decide), by decide, by decide, by decide⟩,
    ⟨{ up with wilwa := { up.wilwa with lockout := true } }, hd ((u8 (1 : BitVec 8).toNat ++ ((List.replicate 32 7 : Bytes))) : Bytes).length, 1, (List.replicate 32 7 : Bytes), ses, accepted_of_takes (by decide), by decide, by decide, by decide, by decide⟩,
    ⟨up, hd ((u8 (1 : BitVec 8).toNat ++ ((List.replicate 32 7 : Bytes))) : Bytes).length, 1, (List.replicate 32 7 : Bytes), ses, accepted_of_takes (by decide), by decide, by decide, by decide, (by unfold LevelFree; decide), by decide⟩,
    ⟨up, hd ((([] : Bytes)) : Bytes).length, ([] : Bytes), ses, accepted_of_takes (by decide), by decide⟩,
    ⟨up, hd (((List.replicate 32 7 : Bytes)) : Bytes).length, (List.replicate 32 7 : Bytes), ses, accepted_of_takes (by decide), by decide, by decide⟩,
    ⟨unlocking, hd (((List.replicate 32 7 : Bytes)) : Bytes).length, (List.replicate 32 7 : Bytes), unlockSes, exchange, accepted_of_takes (by decide), by decide, by decide, by decide⟩,
    ⟨upWith #v[some unlockSes, some { ses with sid := 2 }, none, none], hd ((hmacSha256 (List.replicate 32 0) (List.replicate 64 9 ++ u8 2 ++ u16 1 ++ u64 0)) : Bytes).length, hmacSha256 (List.replicate 32 0) (List.replicate 64 9 ++ u8 2 ++ u16 1 ++ u64 0), unlockSes, exchange, accepted_of_takes (by decide), by decide, by decide, by decide, (by unfold LevelFree; decide)⟩⟩

theorem witness_SessionsCloseAndStayAlive :
    (∃ (s : State) (h : Hdr) (x : Session), Accepted s h 0x07 [] x) ∧
    (∃ (s : State) (i : BitVec 16) (x : Session), s.session i.toNat = some x) ∧
    (∃ (s : State) (i : BitVec 16), s.session i.toNat = none) ∧
    (∃ (s : State) (h : Hdr) (x : Session), Accepted s h 0x09 [] x) :=
  ⟨⟨({ up with wilwa := { up.wilwa with cycSid := 1 } }).setNum 0x6010 1 3, hd ([] : Bytes).length, ses, accepted_of_takes (by decide)⟩,
    ⟨({ up with wilwa := { up.wilwa with cycSid := 1 } }).setNum 0x6010 1 3, 1, ses, by decide⟩,
    ⟨up, 9, by decide⟩,
    ⟨up, hd ([] : Bytes).length, ses, accepted_of_takes (by decide)⟩⟩

theorem witness_RequestsFollowTheirSequence :
    (∃ (s : State) (h : Hdr) (vs : Bytes) (e : BitVec 8) (t : State) (x : Session), exec (.openRequest h vs e) s = .next t ∧ t.session x.sid = some x ∧ s.session x.sid = none) ∧
    (∃ (s : State) (c : Instr) (h : Hdr) (ty : Nat) (p : Bytes) (x : Session), messageOf s c = some (h, ty, p, true) ∧ ty ≠ 0x07 ∧ Accepted s h ty p x) ∧
    (∃ (s : State) (c : Instr) (h : Hdr) (ty : Nat) (p : Bytes) (x : Session) (d : Dgram), messageOf s c = some (h, ty, p, true) ∧ Admitted s h ty p x ∧ h.seq.toNat ≠ (x.seq + 1) % 2 ^ 32 ∧ h.seq.toNat = x.seq ∧ x.stored = some d) ∧
    (∃ (s : State) (c : Instr) (h : Hdr) (ty : Nat) (p : Bytes) (x : Session), messageOf s c = some (h, ty, p, true) ∧ Admitted s h ty p x ∧ h.seq.toNat ≠ (x.seq + 1) % 2 ^ 32 ∧ h.seq.toNat ≠ x.seq) :=
  ⟨⟨noSession, opening, ([2] : Bytes), (0 : BitVec 8), _, newcomer, rfl, newcomer_found, rfl⟩,
    ⟨up, Instr.keepAlive (hd 0), hd 0, 9, ([] : Bytes), ses, by decide, by decide, accepted_of_takes (by decide)⟩,
    ⟨upWith #v[some { ses with seq := 1, stored := some note }, none, none, none], Instr.keepAlive (hd 0), hd 0, 9, ([] : Bytes), { ses with seq := 1, stored := some note }, note, by decide, admitted_of_enters (by decide), by decide, by decide, by decide⟩,
    ⟨upWith #v[some { ses with seq := 5 }, none, none, none], Instr.keepAlive (hd 0), hd 0, 9, ([] : Bytes), { ses with seq := 5 }, by decide, admitted_of_enters (by decide), by decide, by decide⟩⟩

theorem witness_DatagramsAreAdmitted :
    (∃ (s : State) (c : Instr) (m : Hdr × Nat × Bytes × Bool), messageOf s c = some m ∧ (s.serves = false ∨ s.ownAddress m.1.dst = false)) ∧
    (∃ (s : State) (c : Instr) (h : Hdr) (ty : Nat) (p : Bytes) (a : Bool) (x : Session), messageOf s c = some (h, ty, p, a) ∧ s.serves = true ∧ s.ownAddress h.dst = true ∧ s.session h.sid.toNat = some x ∧ ¬ TagRight h ty p x) ∧
    (∃ (s : State) (c : Instr) (h : Hdr) (ty : Nat) (p : Bytes), messageOf s c = some (h, ty, p, true) ∧ s.serves = true ∧ s.ownAddress h.dst = true ∧ s.session h.sid.toNat = none ∧ headerOk h p = true) ∧
    (∃ (s : State) (c : Instr) (h : Hdr) (ty : Nat) (p : Bytes), messageOf s c = some (h, ty, p, true) ∧ s.serves = true ∧ s.ownAddress h.dst = true ∧ s.session h.sid.toNat = none ∧ headerOk h p = false) ∧
    (∃ (s : State) (c : Instr) (h : Hdr) (ty : Nat) (p : Bytes), messageOf s c = some (h, ty, p, false) ∧ s.session h.sid.toNat = none) ∧
    (∃ (s : State) (c : Instr) (h : Hdr) (ty : Nat) (p : Bytes) (x : Session), messageOf s c = some (h, ty, p, true) ∧ s.serves = true ∧ s.ownAddress h.dst = true ∧ s.session h.sid.toNat = some x ∧ TagRight h ty p x ∧ (headerOk h p = false ∨ h.version.toNat ≠ x.version)) ∧
    (∃ (s : State) (c : Instr) (h : Hdr) (ty : Nat) (p : Bytes) (x : Session), messageOf s c = some (h, ty, p, true) ∧ s.serves = true ∧ s.ownAddress h.dst = true ∧ s.session h.sid.toNat = some x ∧ TagRight h ty p x ∧ headerOk h p = true ∧ h.version.toNat = x.version ∧ messageInVersion x.version ty = false ∧ h.seq.toNat = (x.seq + 1) % 2 ^ 32) ∧
    (∃ (s : State) (n : Nat), s.serves = true ∧ n < 16) ∧
    (∃ (s : State) (n : Nat) (v6 : Bool), s.serves = true ∧ (if v6 then 1452 else 1472) < n) ∧
    (∃ (s : State) (h : Hdr) (ty : BitVec 8) (p : Bytes) (x : Session), s.serves = true ∧ s.ownAddress h.dst = true ∧ hostTypes.contains ty.toNat = false ∧ s.session h.sid.toNat = some x ∧ TagRight h ty.toNat p x ∧ headerOk h p = true ∧ h.version.toNat = x.version) ∧
    (∃ (s : State) (h : Hdr) (ty : BitVec 8) (p : Bytes), s.serves = true ∧ s.ownAddress h.dst = true ∧ hostTypes.contains ty.toNat = false ∧ s.session h.sid.toNat = none ∧ headerOk h p = true) :=
  ⟨⟨upIn .reset, Instr.keepAlive (hd 0), (hd 0, 9, ([] : Bytes), true), by decide, by decide⟩,
    ⟨upWith #v[some { ses with version := 3, sessKey := some [] }, none, none, none], Instr.keepAlive (hd 0), hd 0, 9, ([] : Bytes), true, { ses with version := 3, sessKey := some [] }, by decide, by decide, by decide, by decide, (by unfold TagRight; decide)⟩,
    ⟨upWith #v[none, none, none, none], Instr.keepAlive (hd 0), hd 0, 9, ([] : Bytes), by decide, by decide, by decide, by decide, by decide⟩,
    ⟨upWith #v[none, none, none, none], Instr.keepAlive (hd 1), hd 1, 9, ([] : Bytes), by decide, by decide, by decide, by decide, by decide⟩,
    ⟨upWith #v[none, none, none, none], Instr.emergencyAck (hd 4) 0, hd 4, 0x21, ([0, 0, 0, 0] : Bytes), by decide, by decide⟩,
    ⟨up, Instr.keepAlive (hd 1), hd 1, 9, ([] : Bytes), ses, by decide, by decide, by decide, by decide, (by unfold TagRight; decide), by decide⟩,
    ⟨upWith #v[some { ses with version := 1 }, none, none, none], Instr.describe { hd 4 with version := 1 } 0x1010 1 0, { hd 4 with version := 1 }, 0x1C, ([0x10, 0x10, 1, 0] : Bytes), { ses with version := 1 }, by decide, by decide, by decide, by decide, (by unfold TagRight; decide), by decide, by decide, by decide, by decide⟩,
    ⟨up, 15, by decide, by decide⟩,
    ⟨up, 1473, false, by decide, by decide⟩,
    ⟨up, hd 0, 0x7F, ([] : Bytes), ses, by decide, by decide, by decide, by decide, (by unfold TagRight; decide), by decide, by decide⟩,
    ⟨upWith #v[none, none, none, none], hd 0, 0x7F, ([] : Bytes), by decide, by decide, by decide, by decide, by decide⟩⟩

theorem witness_WritesAreCheckedInOrder :
    (∃ (s : State) (h : Hdr) (i : BitVec 16) (j : BitVec 8) (o : BitVec 8) (b : Bytes) (x : Session), Accepted s h 0x12 (u16 i.toNat ++ u8 j.toNat ++ u8 o.toNat ++ b) x ∧ findDesc i.toNat j.toNat = none) ∧
    (∃ (s : State) (h : Hdr) (i : BitVec 16) (j : BitVec 8) (o : BitVec 8) (b : Bytes) (x : Session) (d : Desc), Accepted s h 0x12 (u16 i.toNat ++ u8 j.toNat ++ u8 o.toNat ++ b) x ∧ findDesc i.toNat j.toNat = some d ∧ indexInVersion x.version i.toNat = false) ∧
    (∃ (s : State) (h : Hdr) (i : BitVec 16) (j : BitVec 8) (o : BitVec 8) (b : Bytes) (x : Session) (d : Desc), Accepted s h 0x12 (u16 i.toNat ++ u8 j.toNat ++ u8 o.toNat ++ b) x ∧ findDesc i.toNat j.toNat = some d ∧ indexInVersion x.version i.toNat = true ∧ x.level < d.level) ∧
    (∃ (s : State) (h : Hdr) (i : BitVec 16) (j : BitVec 8) (o : BitVec 8) (b : Bytes) (x : Session) (d : Desc), Accepted s h 0x12 (u16 i.toNat ++ u8 j.toNat ++ u8 o.toNat ++ b) x ∧ findDesc i.toNat j.toNat = some d ∧ indexInVersion x.version i.toNat = true ∧ d.level ≤ x.level ∧ d.acc = .ro) ∧
    (∃ (s : State) (h : Hdr) (i : BitVec 16) (j : BitVec 8) (o : BitVec 8) (b : Bytes) (x : Session) (d : Desc), Accepted s h 0x12 (u16 i.toNat ++ u8 j.toNat ++ u8 o.toNat ++ b) x ∧ findDesc i.toNat j.toNat = some d ∧ indexInVersion x.version i.toNat = true ∧ d.level ≤ x.level ∧ d.acc ≠ .ro ∧ d.ty = .domain) ∧
    (∃ (s : State) (h : Hdr) (i : BitVec 16) (j : BitVec 8) (o : BitVec 8) (b : Bytes) (x : Session) (d : Desc), Accepted s h 0x12 (u16 i.toNat ++ u8 j.toNat ++ u8 o.toNat ++ b) x ∧ findDesc i.toNat j.toNat = some d ∧ indexInVersion x.version i.toNat = true ∧ d.level ≤ x.level ∧ d.acc ≠ .ro ∧ d.ty ≠ .domain ∧ d.lengthOk b = false) ∧
    (∃ (s : State) (h : Hdr) (i : BitVec 16) (j : BitVec 8) (o : BitVec 8) (b : Bytes) (x : Session) (d : Desc), Accepted s h 0x12 (u16 i.toNat ++ u8 j.toNat ++ u8 o.toNat ++ b) x ∧ findDesc i.toNat j.toNat = some d ∧ indexInVersion x.version i.toNat = true ∧ d.level ≤ x.level ∧ d.acc ≠ .ro ∧ d.ty ≠ .domain ∧ d.lengthOk b = true ∧ s.valueOk d i.toNat j.toNat (d.value b) = false) ∧
    (∃ (s : State) (h : Hdr) (i : BitVec 16) (j : BitVec 8) (o : BitVec 8) (b : Bytes) (x : Session) (d : Desc), Accepted s h 0x12 (u16 i.toNat ++ u8 j.toNat ++ u8 o.toNat ++ b) x ∧ findDesc i.toNat j.toNat = some d ∧ indexInVersion x.version i.toNat = true ∧ d.level ≤ x.level ∧ d.acc ≠ .ro ∧ d.ty ≠ .domain ∧ d.lengthOk b = true ∧ s.valueOk d i.toNat j.toNat (d.value b) = true ∧ s.on (objDomain i.toNat j.toNat) = false) ∧
    (∃ (s : State) (h : Hdr) (i : BitVec 16) (j : BitVec 8) (o : BitVec 8) (b : Bytes) (x : Session) (d : Desc), Accepted s h 0x12 (u16 i.toNat ++ u8 j.toNat ++ u8 o.toNat ++ b) x ∧ findDesc i.toNat j.toNat = some d ∧ indexInVersion x.version i.toNat = true ∧ d.level ≤ x.level ∧ d.acc ≠ .ro ∧ d.ty ≠ .domain ∧ d.lengthOk b = true ∧ s.valueOk d i.toNat j.toNat (d.value b) = true ∧ s.on (objDomain i.toNat j.toNat) = true ∧ d.cls = .stopped ∧ s.stoppedRuns i.toNat j.toNat = true) ∧
    (∃ (s : State) (h : Hdr) (i : BitVec 16) (j : BitVec 8) (o : BitVec 8) (b : Bytes) (x : Session) (d : Desc), Accepted s h 0x12 (u16 i.toNat ++ u8 j.toNat ++ u8 o.toNat ++ b) x ∧ findDesc i.toNat j.toNat = some d ∧ indexInVersion x.version i.toNat = true ∧ d.level ≤ x.level ∧ d.acc ≠ .ro ∧ d.ty ≠ .domain ∧ d.lengthOk b = true ∧ s.valueOk d i.toNat j.toNat (d.value b) = true ∧ s.on (objDomain i.toNat j.toNat) = true ∧ (d.cls = .stopped → s.stoppedRuns i.toNat j.toNat = false) ∧ s.rxMapped i.toNat j.toNat = true) :=
  ⟨⟨up, hd ((u16 (0x5555 : BitVec 16).toNat ++ u8 (0 : BitVec 8).toNat ++ u8 (0 : BitVec 8).toNat ++ (([1] : Bytes))) : Bytes).length, 0x5555, 0, 0, ([1] : Bytes), ses, accepted_of_takes (by decide), by decide⟩,
    ⟨up1, hd1 5, 0x2214, 1, 0, ([1] : Bytes), ses1, (findDesc 0x2214 1).get (by decide), accepted_of_takes (by decide), by decide, by decide⟩,
    ⟨upWith #v[some { ses with level := 0 }, none, none, none], hd ((u16 (0x2214 : BitVec 16).toNat ++ u8 (1 : BitVec 8).toNat ++ u8 (0 : BitVec 8).toNat ++ (([1] : Bytes))) : Bytes).length, 0x2214, 1, 0, ([1] : Bytes), { ses with level := 0 }, (findDesc 0x2214 1).get (by decide), accepted_of_takes (by decide), by decide, by decide, by decide⟩,
    ⟨up, hd ((u16 (0x3010 : BitVec 16).toNat ++ u8 (1 : BitVec 8).toNat ++ u8 (0 : BitVec 8).toNat ++ (([1] : Bytes))) : Bytes).length, 0x3010, 1, 0, ([1] : Bytes), ses, (findDesc 0x3010 1).get (by decide), accepted_of_takes (by decide), by decide, by decide, by decide, by decide⟩,
    ⟨up, hd ((u16 (0x2710 : BitVec 16).toNat ++ u8 (1 : BitVec 8).toNat ++ u8 (0 : BitVec 8).toNat ++ (([1] : Bytes))) : Bytes).length, 0x2710, 1, 0, ([1] : Bytes), ses, (findDesc 0x2710 1).get (by decide), accepted_of_takes (by decide), by decide, by decide, by decide, by decide, by decide⟩,
    ⟨up, hd ((u16 (0x2310 : BitVec 16).toNat ++ u8 (1 : BitVec 8).toNat ++ u8 (0 : BitVec 8).toNat ++ (([1, 0] : Bytes))) : Bytes).length, 0x2310, 1, 0, ([1, 0] : Bytes), ses, (findDesc 0x2310 1).get (by decide), accepted_of_takes (by decide), by decide, by decide, by decide, by decide, by decide, by decide⟩,
    ⟨up, hd ((u16 (0x2310 : BitVec 16).toNat ++ u8 (1 : BitVec 8).toNat ++ u8 (0 : BitVec 8).toNat ++ (([2] : Bytes))) : Bytes).length, 0x2310, 1, 0, ([2] : Bytes), ses, (findDesc 0x2310 1).get (by decide), accepted_of_takes (by decide), by decide, by decide, by decide, by decide, by decide, by decide, by decide⟩,
    ⟨dark, hd ((u16 (0x2214 : BitVec 16).toNat ++ u8 (1 : BitVec 8).toNat ++ u8 (0 : BitVec 8).toNat ++ (([88, 2] : Bytes))) : Bytes).length, 0x2214, 1, 0, ([88, 2] : Bytes), ses, (findDesc 0x2214 1).get (by decide), accepted_of_takes (by decide), by decide, by decide, by decide, by decide, by decide, by decide, by decide, by decide⟩,
    ⟨up.modSlot 0 fun k => { k with st := .printing }, hd ((u16 (0x2214 : BitVec 16).toNat ++ u8 (1 : BitVec 8).toNat ++ u8 (0 : BitVec 8).toNat ++ (([88, 2] : Bytes))) : Bytes).length, 0x2214, 1, 0, ([88, 2] : Bytes), ses, (findDesc 0x2214 1).get (by decide), accepted_of_takes (by decide), by decide, by decide, by decide, by decide, by decide, by decide, by decide, by decide, by decide, by decide⟩,
    ⟨((up.setNum 0x6010 1 2).setNum 0x6001 0 1).setNum 0x6001 1 0x22140100, hd ((u16 (0x2214 : BitVec 16).toNat ++ u8 (1 : BitVec 8).toNat ++ u8 (0 : BitVec 8).toNat ++ (([88, 2] : Bytes))) : Bytes).length, 0x2214, 1, 0, ([88, 2] : Bytes), ses, (findDesc 0x2214 1).get (by decide), accepted_of_takes (by decide), by decide, by decide, by decide, by decide, by decide, by decide, by decide, by decide, by decide, by decide⟩⟩

theorem witness_WritesTakeEffectByTheirClass :
    (∃ (s : State) (h : Hdr) (i : BitVec 16) (j : BitVec 8) (o : BitVec 8) (b : Bytes) (x : Session) (d : Desc), Accepted s h 0x12 (u16 i.toNat ++ u8 j.toNat ++ u8 o.toNat ++ b) x ∧ findDesc i.toNat j.toNat = some d ∧ s.writeError x.now i.toNat j.toNat b false = none ∧ (isAdminArea (i.toNat / 256) && i.toNat % 256 == 0 && j.toNat == 1) = false ∧ hook x.now i.toNat j.toNat (d.value b) (s.heard x.sid) = none ∧ d.cls = .commit) ∧
    (∃ (s : State) (h : Hdr) (i : BitVec 16) (j : BitVec 8) (o : BitVec 8) (b : Bytes) (x : Session) (d : Desc), Accepted s h 0x12 (u16 i.toNat ++ u8 j.toNat ++ u8 o.toNat ++ b) x ∧ findDesc i.toNat j.toNat = some d ∧ s.writeError x.now i.toNat j.toNat b false = none ∧ (isAdminArea (i.toNat / 256) && i.toNat % 256 == 0 && j.toNat == 1) = false ∧ hook x.now i.toNat j.toNat (d.value b) (s.heard x.sid) = none ∧ d.cls ≠ .commit) ∧
    (∃ (s : State) (h : Hdr) (i : BitVec 16) (j : BitVec 8) (o : BitVec 8) (b : Bytes) (x : Session) (d : Desc) (e : Nat), Accepted s h 0x12 (u16 i.toNat ++ u8 j.toNat ++ u8 o.toNat ++ b) x ∧ findDesc i.toNat j.toNat = some d ∧ s.writeError x.now i.toNat j.toNat b false = none ∧ (isAdminArea (i.toNat / 256) && i.toNat % 256 == 0 && j.toNat == 1) = false ∧ hook x.now i.toNat j.toNat (d.value b) (s.heard x.sid) = some (.error e)) :=
  ⟨⟨up, hd ((u16 (0x2917 : BitVec 16).toNat ++ u8 (1 : BitVec 8).toNat ++ u8 (0 : BitVec 8).toNat ++ (([0, 2, 3, 4, 5, 6, 7, 8] : Bytes))) : Bytes).length, 0x2917, 1, 0, ([0, 2, 3, 4, 5, 6, 7, 8] : Bytes), ses, (findDesc 0x2917 1).get (by decide), accepted_of_takes (by decide), by decide, by decide, by decide, rfl, by decide⟩,
    ⟨up, hd ((u16 (0x2214 : BitVec 16).toNat ++ u8 (1 : BitVec 8).toNat ++ u8 (0 : BitVec 8).toNat ++ (([88, 2] : Bytes))) : Bytes).length, 0x2214, 1, 0, ([88, 2] : Bytes), ses, (findDesc 0x2214 1).get (by decide), accepted_of_takes (by decide), by decide, by decide, by decide, rfl, by decide⟩,
    ⟨up, hd ((u16 (0x6000 : BitVec 16).toNat ++ u8 (1 : BitVec 8).toNat ++ u8 (0 : BitVec 8).toNat ++ (u32 1)) : Bytes).length, 0x6000, 1, 0, u32 1, ses, (findDesc 0x6000 1).get (by decide), (0x60070300 : Nat), accepted_of_takes (by decide), by decide, by decide, by decide, rfl⟩⟩

theorem witness_ReadsAndDescribeAnswer :
    (∃ (s : State) (h : Hdr) (i : BitVec 16) (j : BitVec 8) (o : BitVec 8) (x : Session) (d : Desc), Accepted s h 0x10 (u16 i.toNat ++ u8 j.toNat ++ u8 o.toNat) x ∧ findDesc i.toNat j.toNat = some d ∧ indexInVersion x.version i.toNat = true ∧ d.acc ≠ .wo ∧ d.ty ≠ .domain ∧ s.on (objDomain i.toNat j.toNat) = true ∧ bit o.toNat 0 = true ∧ d.cls = .commit) ∧
    (∃ (s : State) (h : Hdr) (i : BitVec 16) (j : BitVec 8) (o : BitVec 8) (x : Session) (d : Desc), Accepted s h 0x10 (u16 i.toNat ++ u8 j.toNat ++ u8 o.toNat) x ∧ findDesc i.toNat j.toNat = some d ∧ indexInVersion x.version i.toNat = true ∧ d.acc ≠ .wo ∧ d.ty ≠ .domain ∧ s.on (objDomain i.toNat j.toNat) = true ∧ (bit o.toNat 0 = false ∨ d.cls ≠ .commit)) ∧
    (∃ (s : State) (h : Hdr) (i : BitVec 16) (j : BitVec 8) (o : BitVec 8) (x : Session), Accepted s h 0x10 (u16 i.toNat ++ u8 j.toNat ++ u8 o.toNat) x ∧ findDesc i.toNat j.toNat = none) ∧
    (∃ (s : State) (h : Hdr) (i : BitVec 16) (j : BitVec 8) (o : BitVec 8) (x : Session) (d : Desc), Accepted s h 0x10 (u16 i.toNat ++ u8 j.toNat ++ u8 o.toNat) x ∧ findDesc i.toNat j.toNat = some d ∧ indexInVersion x.version i.toNat = false) ∧
    (∃ (s : State) (h : Hdr) (i : BitVec 16) (j : BitVec 8) (o : BitVec 8) (x : Session) (d : Desc), Accepted s h 0x10 (u16 i.toNat ++ u8 j.toNat ++ u8 o.toNat) x ∧ findDesc i.toNat j.toNat = some d ∧ indexInVersion x.version i.toNat = true ∧ d.acc = .wo) ∧
    (∃ (s : State) (h : Hdr) (i : BitVec 16) (j : BitVec 8) (o : BitVec 8) (x : Session) (d : Desc), Accepted s h 0x10 (u16 i.toNat ++ u8 j.toNat ++ u8 o.toNat) x ∧ findDesc i.toNat j.toNat = some d ∧ indexInVersion x.version i.toNat = true ∧ d.acc ≠ .wo ∧ d.ty = .domain) ∧
    (∃ (s : State) (h : Hdr) (i : BitVec 16) (j : BitVec 8) (o : BitVec 8) (x : Session) (d : Desc), Accepted s h 0x10 (u16 i.toNat ++ u8 j.toNat ++ u8 o.toNat) x ∧ findDesc i.toNat j.toNat = some d ∧ indexInVersion x.version i.toNat = true ∧ d.acc ≠ .wo ∧ d.ty ≠ .domain ∧ s.on (objDomain i.toNat j.toNat) = false) ∧
    (∃ (s : State) (h : Hdr) (i : BitVec 16) (j : BitVec 8) (o : BitVec 8) (x : Session) (d : Desc), Accepted s h 0x1C (u16 i.toNat ++ u8 j.toNat ++ u8 o.toNat) x ∧ findDesc i.toNat j.toNat = some d ∧ indexInVersion x.version i.toNat = true) ∧
    (∃ (s : State) (h : Hdr) (i : BitVec 16) (j : BitVec 8) (o : BitVec 8) (x : Session), Accepted s h 0x1C (u16 i.toNat ++ u8 j.toNat ++ u8 o.toNat) x ∧ findDesc i.toNat j.toNat = none) :=
  ⟨⟨up, hd ((u16 (0x2917 : BitVec 16).toNat ++ u8 (1 : BitVec 8).toNat ++ u8 (1 : BitVec 8).toNat) : Bytes).length, 0x2917, 1, 1, ses, (findDesc 0x2917 1).get (by decide), accepted_of_takes (by decide), by decide, by decide, by decide, by decide, by decide, by decide, by decide⟩,
    ⟨up, hd ((u16 (0x2917 : BitVec 16).toNat ++ u8 (1 : BitVec 8).toNat ++ u8 (0 : BitVec 8).toNat) : Bytes).length, 0x2917, 1, 0, ses, (findDesc 0x2917 1).get (by decide), accepted_of_takes (by decide), by decide, by decide, by decide, by decide, by decide, by decide⟩,
    ⟨up, hd ((u16 (0x2917 : BitVec 16).toNat ++ u8 (99 : BitVec 8).toNat ++ u8 (0 : BitVec 8).toNat) : Bytes).length, 0x2917, 99, 0, ses, accepted_of_takes (by decide), by decide⟩,
    ⟨up1, hd1 4, 0x2917, 1, 0, ses1, (findDesc 0x2917 1).get (by decide), accepted_of_takes (by decide), by decide, by decide⟩,
    ⟨up, hd ((u16 (0x1030 : BitVec 16).toNat ++ u8 (1 : BitVec 8).toNat ++ u8 (0 : BitVec 8).toNat) : Bytes).length, 0x1030, 1, 0, ses, (findDesc 0x1030 1).get (by decide), accepted_of_takes (by decide), by decide, by decide, by decide⟩,
    ⟨up, hd ((u16 (0x2710 : BitVec 16).toNat ++ u8 (1 : BitVec 8).toNat ++ u8 (0 : BitVec 8).toNat) : Bytes).length, 0x2710, 1, 0, ses, (findDesc 0x2710 1).get (by decide), accepted_of_takes (by decide), by decide, by decide, by decide, by decide⟩,
    ⟨dark, hd ((u16 (0x2214 : BitVec 16).toNat ++ u8 (1 : BitVec 8).toNat ++ u8 (0 : BitVec 8).toNat) : Bytes).length, 0x2214, 1, 0, ses, (findDesc 0x2214 1).get (by decide), accepted_of_takes (by decide), by decide, by decide, by decide, by decide, by decide⟩,
    ⟨up, hd ((u16 (0x2214 : BitVec 16).toNat ++ u8 (1 : BitVec 8).toNat ++ u8 (0 : BitVec 8).toNat) : Bytes).length, 0x2214, 1, 0, ses, (findDesc 0x2214 1).get (by decide), accepted_of_takes (by decide), by decide, by decide⟩,
    ⟨up, hd ((u16 (0x5555 : BitVec 16).toNat ++ u8 (0 : BitVec 8).toNat ++ u8 (0 : BitVec 8).toNat) : Bytes).length, 0x5555, 0, 0, ses, accepted_of_takes (by decide), by decide⟩⟩

theorem witness_TransfersOpenOrAreRefused :
    (∃ (s : State) (h : Hdr) (i : BitVec 16) (j : BitVec 8) (n : BitVec 32) (x : Session) (d : Desc), Accepted s h 0x14 (u16 i.toNat ++ u8 j.toNat ++ u8 0 ++ u32 n.toNat) x ∧ findDesc i.toNat j.toNat = some d ∧ d.level ≤ x.level ∧ d.ty.size = none ∧ d.acc ≠ .ro ∧ s.on (objDomain i.toNat j.toNat) = true ∧ (d.cls = .stopped → s.stoppedRuns i.toNat j.toNat = false) ∧ (∀ r ∈ s.wilwa.transfers, r.sid ≠ x.sid) ∧ s.wilwa.transfers.length < 4 ∧ n.toNat ≤ d.maxSize) ∧
    (∃ (s : State) (h : Hdr) (i : BitVec 16) (j : BitVec 8) (n : BitVec 32) (x : Session) (d : Desc), Accepted s h 0x14 (u16 i.toNat ++ u8 j.toNat ++ u8 1 ++ u32 n.toNat) x ∧ findDesc i.toNat j.toNat = some d ∧ d.ty.size = none ∧ d.acc ≠ .wo ∧ s.on (objDomain i.toNat j.toNat) = true ∧ (i.toNat, j.toNat) ≠ (0x3011, 6) ∧ (i.toNat, j.toNat) ≠ (0x2D30, 2) ∧ (∀ r ∈ s.wilwa.transfers, r.sid ≠ x.sid) ∧ s.wilwa.transfers.length < 4 ∧ n.toNat ≤ d.maxSize) ∧
    (∃ (s : State) (h : Hdr) (i : BitVec 16) (j : BitVec 8) (r : BitVec 8) (n : BitVec 32) (x : Session) (d : Desc), Accepted s h 0x14 (u16 i.toNat ++ u8 j.toNat ++ u8 r.toNat ++ u32 n.toNat) x ∧ r.toNat ≤ 1 ∧ findDesc i.toNat j.toNat = some d ∧ (r.toNat = 0 → d.level ≤ x.level) ∧ d.ty.size.isSome = true) ∧
    (∃ (s : State) (h : Hdr) (i : BitVec 16) (j : BitVec 8) (r : BitVec 8) (n : BitVec 32) (x : Session) (d : Desc), Accepted s h 0x14 (u16 i.toNat ++ u8 j.toNat ++ u8 r.toNat ++ u32 n.toNat) x ∧ r.toNat ≤ 1 ∧ findDesc i.toNat j.toNat = some d ∧ (r.toNat = 0 → d.level ≤ x.level) ∧ d.ty.size = none ∧ r.toNat = 0 ∧ d.acc = .ro) ∧
    (∃ (s : State) (h : Hdr) (i : BitVec 16) (j : BitVec 8) (r : BitVec 8) (n : BitVec 32) (x : Session) (d : Desc), Accepted s h 0x14 (u16 i.toNat ++ u8 j.toNat ++ u8 r.toNat ++ u32 n.toNat) x ∧ r.toNat ≤ 1 ∧ findDesc i.toNat j.toNat = some d ∧ (r.toNat = 0 → d.level ≤ x.level) ∧ d.ty.size = none ∧ r.toNat = 1 ∧ d.acc = .wo) ∧
    (∃ (s : State) (h : Hdr) (i : BitVec 16) (j : BitVec 8) (r : BitVec 8) (n : BitVec 32) (x : Session) (d : Desc), Accepted s h 0x14 (u16 i.toNat ++ u8 j.toNat ++ u8 r.toNat ++ u32 n.toNat) x ∧ r.toNat ≤ 1 ∧ findDesc i.toNat j.toNat = some d ∧ (r.toNat = 0 → d.level ≤ x.level) ∧ d.ty.size = none ∧ (r.toNat = 0 → d.acc ≠ .ro) ∧ (r.toNat = 1 → d.acc ≠ .wo) ∧ s.on (objDomain i.toNat j.toNat) = false) ∧
    (∃ (s : State) (h : Hdr) (i : BitVec 16) (j : BitVec 8) (r : BitVec 8) (n : BitVec 32) (x : Session) (d : Desc), Accepted s h 0x14 (u16 i.toNat ++ u8 j.toNat ++ u8 r.toNat ++ u32 n.toNat) x ∧ r.toNat ≤ 1 ∧ findDesc i.toNat j.toNat = some d ∧ (r.toNat = 0 → d.level ≤ x.level) ∧ d.ty.size = none ∧ (r.toNat = 0 → d.acc ≠ .ro) ∧ (r.toNat = 1 → d.acc ≠ .wo) ∧ s.on (objDomain i.toNat j.toNat) = true ∧ (r.toNat = 0 → d.cls = .stopped → s.stoppedRuns i.toNat j.toNat = false) ∧ (∃ k ∈ s.wilwa.transfers, k.sid = x.sid)) ∧
    (∃ (s : State) (h : Hdr) (i : BitVec 16) (j : BitVec 8) (r : BitVec 8) (n : BitVec 32) (x : Session) (d : Desc), Accepted s h 0x14 (u16 i.toNat ++ u8 j.toNat ++ u8 r.toNat ++ u32 n.toNat) x ∧ r.toNat ≤ 1 ∧ findDesc i.toNat j.toNat = some d ∧ (r.toNat = 0 → d.level ≤ x.level) ∧ d.ty.size = none ∧ (r.toNat = 0 → d.acc ≠ .ro) ∧ (r.toNat = 1 → d.acc ≠ .wo) ∧ s.on (objDomain i.toNat j.toNat) = true ∧ (r.toNat = 0 → d.cls = .stopped → s.stoppedRuns i.toNat j.toNat = false) ∧ (∀ k ∈ s.wilwa.transfers, k.sid ≠ x.sid) ∧ 4 ≤ s.wilwa.transfers.length) ∧
    (∃ (s : State) (h : Hdr) (i : BitVec 16) (j : BitVec 8) (r : BitVec 8) (n : BitVec 32) (x : Session) (d : Desc), Accepted s h 0x14 (u16 i.toNat ++ u8 j.toNat ++ u8 r.toNat ++ u32 n.toNat) x ∧ r.toNat ≤ 1 ∧ findDesc i.toNat j.toNat = some d ∧ (r.toNat = 0 → d.level ≤ x.level) ∧ d.ty.size = none ∧ (r.toNat = 0 → d.acc ≠ .ro) ∧ (r.toNat = 1 → d.acc ≠ .wo) ∧ s.on (objDomain i.toNat j.toNat) = true ∧ (r.toNat = 0 → d.cls = .stopped → s.stoppedRuns i.toNat j.toNat = false) ∧ (∀ k ∈ s.wilwa.transfers, k.sid ≠ x.sid) ∧ s.wilwa.transfers.length < 4 ∧ d.maxSize < n.toNat) :=
  ⟨⟨up, hd ((u16 (0x1030 : BitVec 16).toNat ++ u8 (1 : BitVec 8).toNat ++ u8 0 ++ u32 (32 : BitVec 32).toNat) : Bytes).length, 0x1030, 1, 32, ses, (findDesc 0x1030 1).get (by decide), accepted_of_takes (by decide), by decide, by decide, by decide, by decide, by decide, by decide, by decide, by decide, by decide⟩,
    ⟨up, hd ((u16 (0x2710 : BitVec 16).toNat ++ u8 (1 : BitVec 8).toNat ++ u8 1 ++ u32 (0 : BitVec 32).toNat) : Bytes).length, 0x2710, 1, 0, ses, (findDesc 0x2710 1).get (by decide), accepted_of_takes (by decide), by decide, by decide, by decide, by decide, by decide, by decide, by decide, by decide, by decide⟩,
    ⟨up, hd ((u16 (0x2310 : BitVec 16).toNat ++ u8 (1 : BitVec 8).toNat ++ u8 (0 : BitVec 8).toNat ++ u32 (0 : BitVec 32).toNat) : Bytes).length, 0x2310, 1, 0, 0, ses, (findDesc 0x2310 1).get (by decide), accepted_of_takes (by decide), by decide, by decide, by decide, by decide⟩,
    ⟨up, hd ((u16 (0x1010 : BitVec 16).toNat ++ u8 (1 : BitVec 8).toNat ++ u8 (0 : BitVec 8).toNat ++ u32 (0 : BitVec 32).toNat) : Bytes).length, 0x1010, 1, 0, 0, ses, (findDesc 0x1010 1).get (by decide), accepted_of_takes (by decide), by decide, by decide, by decide, by decide, by decide, by decide⟩,
    ⟨up, hd ((u16 (0x1030 : BitVec 16).toNat ++ u8 (1 : BitVec 8).toNat ++ u8 (1 : BitVec 8).toNat ++ u32 (0 : BitVec 32).toNat) : Bytes).length, 0x1030, 1, 1, 0, ses, (findDesc 0x1030 1).get (by decide), accepted_of_takes (by decide), by decide, by decide, by decide, by decide, by decide, by decide⟩,
    ⟨dark, hd ((u16 (0x2710 : BitVec 16).toNat ++ u8 (1 : BitVec 8).toNat ++ u8 (0 : BitVec 8).toNat ++ u32 (0 : BitVec 32).toNat) : Bytes).length, 0x2710, 1, 0, 0, ses, (findDesc 0x2710 1).get (by decide), accepted_of_takes (by decide), by decide, by decide, by decide, by decide, by decide, by decide, by decide⟩,
    ⟨transferring download, hd ((u16 (0x1030 : BitVec 16).toNat ++ u8 (1 : BitVec 8).toNat ++ u8 (0 : BitVec 8).toNat ++ u32 (0 : BitVec 32).toNat) : Bytes).length, 0x1030, 1, 0, 0, ses, (findDesc 0x1030 1).get (by decide), accepted_of_takes (by decide), by decide, by decide, by decide, by decide, by decide, by decide, by decide, by decide, by decide⟩,
    ⟨{ up with wilwa := { up.wilwa with transfers := List.replicate 4 { download with sid := 2 } } }, hd ((u16 (0x1030 : BitVec 16).toNat ++ u8 (1 : BitVec 8).toNat ++ u8 (0 : BitVec 8).toNat ++ u32 (0 : BitVec 32).toNat) : Bytes).length, 0x1030, 1, 0, 0, ses, (findDesc 0x1030 1).get (by decide), accepted_of_takes (by decide), by decide, by decide, by decide, by decide, by decide, by decide, by decide, by decide, by decide, by decide⟩,
    ⟨up, hd ((u16 (0x1030 : BitVec 16).toNat ++ u8 (1 : BitVec 8).toNat ++ u8 (0 : BitVec 8).toNat ++ u32 (33 : BitVec 32).toNat) : Bytes).length, 0x1030, 1, 0, 33, ses, (findDesc 0x1030 1).get (by decide), accepted_of_takes (by decide), by decide, by decide, by decide, by decide, by decide, by decide, by decide, by decide, by decide, by decide, by decide⟩⟩

theorem witness_SegmentsAreTakenAndAcknowledged :
    (∃ (s : State) (h : Hdr) (k : BitVec 16) (o : BitVec 32) (data : Bytes) (x : Session) (r : Transfer), Admitted s h 0x16 (u16 k.toNat ++ u16 0 ++ u32 o.toNat ++ data) x ∧ s.transfer k.toNat = some r ∧ r.sid = x.sid ∧ r.download = true ∧ r.segmentOk o.toNat data = true) ∧
    (∃ (s : State) (h : Hdr) (k : BitVec 16) (o : BitVec 32) (data : Bytes) (x : Session) (r : Transfer) (a : Nat), Admitted s h 0x16 (u16 k.toNat ++ u16 0 ++ u32 o.toNat ++ data) x ∧ s.transfer k.toNat = some r ∧ r.sid = x.sid ∧ r.download = true ∧ r.segmentOk o.toNat data = false ∧ r.lastAck = some a) ∧
    (∃ (s : State) (h : Hdr) (k : BitVec 16) (a : BitVec 32) (x : Session) (r : Transfer), Admitted s h 0x17 (u16 k.toNat ++ u16 0 ++ u32 a.toNat) x ∧ s.transfer k.toNat = some r ∧ r.sid = x.sid ∧ r.download = false ∧ r.acked ≤ a.toNat ∧ a.toNat ≤ r.sent ∧ a.toNat = r.total) ∧
    (∃ (s : State) (h : Hdr) (k : BitVec 16) (a : BitVec 32) (x : Session) (r : Transfer), Admitted s h 0x17 (u16 k.toNat ++ u16 0 ++ u32 a.toNat) x ∧ s.transfer k.toNat = some r ∧ r.sid = x.sid ∧ r.download = false ∧ r.acked ≤ a.toNat ∧ a.toNat ≤ r.sent ∧ a.toNat < r.total ∧ a.toNat % max 1 r.segSize = 0) :=
  ⟨⟨transferring download, hd ((u16 (7 : BitVec 16).toNat ++ u16 0 ++ u32 (0 : BitVec 32).toNat ++ ((List.replicate 16 3 : Bytes))) : Bytes).length, 7, 0, (List.replicate 16 3 : Bytes), ses, download, admitted_of_enters (by decide), by decide, by decide, by decide, by decide⟩,
    ⟨transferring download, hd ((u16 (7 : BitVec 16).toNat ++ u16 0 ++ u32 (1 : BitVec 32).toNat ++ ((List.replicate 16 3 : Bytes))) : Bytes).length, 7, 1, (List.replicate 16 3 : Bytes), ses, download, (0 : Nat), admitted_of_enters (by decide), by decide, by decide, by decide, by decide, by decide⟩,
    ⟨transferring upload, hd ((u16 (7 : BitVec 16).toNat ++ u16 0 ++ u32 (32 : BitVec 32).toNat) : Bytes).length, 7, 32, ses, upload, admitted_of_enters (by decide), by decide, by decide, by decide, by decide, by decide, by decide⟩,
    ⟨transferring upload, hd ((u16 (7 : BitVec 16).toNat ++ u16 0 ++ u32 (16 : BitVec 32).toNat) : Bytes).length, 7, 16, ses, upload, admitted_of_enters (by decide), by decide, by decide, by decide, by decide, by decide, by decide, by decide⟩⟩

theorem witness_TransfersEnd :
    (∃ (s : State) (h : Hdr) (k : BitVec 16) (c : BitVec 32) (x : Session) (r : Transfer) (d : Desc) (u : State), Accepted s h 0x18 (u16 k.toNat ++ u16 0 ++ u32 c.toNat) x ∧ s.transfer k.toNat = some r ∧ r.sid = x.sid ∧ r.download = true ∧ r.total ≤ r.acked ∧ crc32c r.content = c.toNat ∧ findDesc r.idx r.sub = some d ∧ u = (s.heard x.sid).dropTransfer k.toNat ∧ u.contentError d r.idx r.sub r.content = none ∧ (isAdminArea (r.idx / 256) && r.idx % 256 == 0 && r.sub == 1) = false ∧ hook x.now r.idx r.sub (d.value r.content) u = none) ∧
    (∃ (s : State) (h : Hdr) (k : BitVec 16) (c : BitVec 32) (x : Session) (r : Transfer), Accepted s h 0x18 (u16 k.toNat ++ u16 0 ++ u32 c.toNat) x ∧ s.transfer k.toNat = some r ∧ r.sid = x.sid ∧ r.download = true ∧ r.acked < r.total) ∧
    (∃ (s : State) (h : Hdr) (k : BitVec 16) (c : BitVec 32) (x : Session) (r : Transfer), Accepted s h 0x18 (u16 k.toNat ++ u16 0 ++ u32 c.toNat) x ∧ s.transfer k.toNat = some r ∧ r.sid = x.sid ∧ r.download = true ∧ r.total ≤ r.acked ∧ crc32c r.content ≠ c.toNat) ∧
    (∃ (s : State) (h : Hdr) (k : BitVec 16) (c : BitVec 32) (x : Session) (r : Transfer), Accepted s h 0x18 (u16 k.toNat ++ u16 0 ++ u32 c.toNat) x ∧ s.transfer k.toNat = some r ∧ r.sid = x.sid ∧ r.download = false) ∧
    (∃ (s : State) (h : Hdr) (k : BitVec 16) (e : BitVec 32) (x : Session) (r : Transfer), Admitted s h 0x1A (u16 k.toNat ++ u16 0 ++ u32 e.toNat) x ∧ s.transfer k.toNat = some r ∧ r.sid = x.sid) ∧
    (∃ (s : State) (k : BitVec 16) (r : Transfer) (x : Session), s.transfer k.toNat = some r ∧ s.session r.sid = some x) ∧
    (∃ (s : State) (k : BitVec 16) (r : Transfer) (x : Session), s.transfer k.toNat = some r ∧ s.session r.sid = some x ∧ r.download = false ∧ r.acked < r.total ∧ 0 < r.segSize) :=
  ⟨⟨transferring { download with idx := 0x2917, total := 8, segs := [(0, [0, 1, 2, 3, 4, 5, 6, 7])], acked := 8 }, hd ((u16 (7 : BitVec 16).toNat ++ u16 0 ++ u32 (BitVec.ofNat 32 (crc32c ([0, 1, 2, 3, 4, 5, 6, 7])) : BitVec 32).toNat) : Bytes).length, 7, BitVec.ofNat 32 (crc32c ([0, 1, 2, 3, 4, 5, 6, 7])), ses, { download with idx := 0x2917, total := 8, segs := [(0, [0, 1, 2, 3, 4, 5, 6, 7])], acked := 8 }, (findDesc 0x2917 1).get (by decide), (((transferring { download with idx := 0x2917, total := 8, segs := [(0, [0, 1, 2, 3, 4, 5, 6, 7])], acked := 8 }).heard 1).dropTransfer 7), accepted_of_takes (by decide), by decide, by decide, by decide, by decide, by decide, by decide, by decide, by decide, by decide, rfl⟩,
    ⟨transferring download, hd ((u16 (7 : BitVec 16).toNat ++ u16 0 ++ u32 (0 : BitVec 32).toNat) : Bytes).length, 7, 0, ses, download, accepted_of_takes (by decide), by decide, by decide, by decide, by decide⟩,
    ⟨transferring { download with total := 0 }, hd ((u16 (7 : BitVec 16).toNat ++ u16 0 ++ u32 (1 : BitVec 32).toNat) : Bytes).length, 7, 1, ses, { download with total := 0 }, accepted_of_takes (by decide), by decide, by decide, by decide, by decide, by decide⟩,
    ⟨transferring upload, hd ((u16 (7 : BitVec 16).toNat ++ u16 0 ++ u32 (0 : BitVec 32).toNat) : Bytes).length, 7, 0, ses, upload, accepted_of_takes (by decide), by decide, by decide, by decide⟩,
    ⟨transferring download, hd ((u16 (7 : BitVec 16).toNat ++ u16 0 ++ u32 (5 : BitVec 32).toNat) : Bytes).length, 7, 5, ses, download, admitted_of_enters (by decide), by decide, by decide⟩,
    ⟨transferring download, 7, download, ses, by decide, by decide⟩,
    ⟨transferring upload, 7, upload, ses, by decide, by decide, by decide, by decide, by decide⟩⟩

theorem witness_CommitsTakeEffectTogether :
    (∃ (s : State) (h : Hdr) (a : BitVec 8) (g : BitVec 32) (x : Session), WriteTaken s h (a.toNat * 256) 1 (u32 g.toNat) x ∧ isAdminArea a.toNat = true ∧ s.mir.role ≠ .standby ∧ g.toNat = ((s.adm a.toNat).generation + 1) % 2 ^ 32 ∧ (s.adm a.toNat).result ≠ 1 ∧ s.checkArea a.toNat s.shadowObj = none ∧ (∀ e ∈ s.wilwa.shadow ++ s.wilwa.staged, e.1 / 65536 ≠ a.toNat) ∧ (a.toNat = 0x2A → s.pwr.dev = .standby ∨ assignmentChanges s s.shadowObj = false)) ∧
    (∃ (s : State) (h : Hdr) (a : BitVec 8) (g : BitVec 32) (x : Session), WriteTaken s h (a.toNat * 256) 1 (u32 g.toNat) x ∧ a.toNat ∈ [0x22, 0x23, 0x25, 0x28, 0x2E, 0x2F, 0x31] ∧ isAdminArea a.toNat = true ∧ s.mir.role ≠ .standby ∧ g.toNat = ((s.adm a.toNat).generation + 1) % 2 ^ 32 ∧ (s.adm a.toNat).result ≠ 1 ∧ s.checkArea a.toNat s.shadowObj = none) ∧
    (∃ (s : State) (h : Hdr) (a : BitVec 8) (g : BitVec 32) (x : Session), WriteTaken s h (a.toNat * 256) 1 (u32 g.toNat) x ∧ a.toNat ∈ [0x26, 0x27, 0x29, 0x2B] ∧ s.mir.role ≠ .standby ∧ g.toNat = ((s.adm a.toNat).generation + 1) % 2 ^ 32 ∧ (s.adm a.toNat).result ≠ 1 ∧ s.checkArea a.toNat s.shadowObj = none ∧ (∃ e ∈ s.wilwa.shadow, e.1 / 65536 = a.toNat)) :=
  ⟨⟨up, hd (4 + ((u32 (1 : BitVec 32).toNat)).length), 0x22, 1, ses, writeTaken_of_writes (by decide), by decide, by decide, by decide, by decide, by decide, by decide, by decide⟩,
    ⟨{ up with wilwa := { up.wilwa with shadow := [(key 0x2E10 2, .num 3)] } }, hd (4 + ((u32 (1 : BitVec 32).toNat)).length), 0x2E, 1, ses, writeTaken_of_writes (by decide), by decide, by decide, by decide, by decide, by decide, by decide⟩,
    ⟨{ up with wilwa := { up.wilwa with shadow := [(key 0x2917 1, .bytes [1])] } }, hd (4 + ((u32 (1 : BitVec 32).toNat)).length), 0x29, 1, ses, writeTaken_of_writes (by decide), by decide, by decide, by decide, by decide, by decide, by decide⟩⟩

theorem witness_CommitsAreRefused :
    (∃ (s : State) (h : Hdr) (a : BitVec 8) (g : BitVec 32) (x : Session), WriteTaken s h (a.toNat * 256) 1 (u32 g.toNat) x ∧ isAdminArea a.toNat = true ∧ s.mir.role = .standby) ∧
    (∃ (s : State) (h : Hdr) (a : BitVec 8) (g : BitVec 32) (x : Session), WriteTaken s h (a.toNat * 256) 1 (u32 g.toNat) x ∧ isAdminArea a.toNat = true ∧ s.mir.role ≠ .standby ∧ g.toNat ≠ ((s.adm a.toNat).generation + 1) % 2 ^ 32) ∧
    (∃ (s : State) (h : Hdr) (a : BitVec 8) (g : BitVec 32) (x : Session), WriteTaken s h (a.toNat * 256) 1 (u32 g.toNat) x ∧ isAdminArea a.toNat = true ∧ s.mir.role ≠ .standby ∧ g.toNat = ((s.adm a.toNat).generation + 1) % 2 ^ 32 ∧ (s.adm a.toNat).result = 1) ∧
    (∃ (s : State) (h : Hdr) (a : BitVec 8) (g : BitVec 32) (x : Session) (code : Nat) (i : Nat) (j : Nat), WriteTaken s h (a.toNat * 256) 1 (u32 g.toNat) x ∧ isAdminArea a.toNat = true ∧ s.mir.role ≠ .standby ∧ g.toNat = ((s.adm a.toNat).generation + 1) % 2 ^ 32 ∧ (s.adm a.toNat).result ≠ 1 ∧ s.checkArea a.toNat s.shadowObj = some (code, i, j) ∧ (a.toNat = 0x2A → s.pwr.dev = .standby ∨ assignmentChanges s s.shadowObj = false)) :=
  ⟨⟨up.modMir fun m => { m with role := .standby }, hd (4 + ((u32 (1 : BitVec 32).toNat)).length), 0x22, 1, ses, writeTaken_of_writes (by decide), by decide, by decide⟩,
    ⟨up, hd (4 + ((u32 (2 : BitVec 32).toNat)).length), 0x22, 2, ses, writeTaken_of_writes (by decide), by decide, by decide, by decide⟩,
    ⟨up.modAdm 0x22 fun m => { m with result := 1 }, hd (4 + ((u32 (1 : BitVec 32).toNat)).length), 0x22, 1, ses, writeTaken_of_writes (by decide), by decide, by decide, by decide, by decide⟩,
    ⟨{ up with wilwa := { up.wilwa with shadow := [(key 0x2120 3, .num 0)] } }, hd (4 + ((u32 (1 : BitVec 32).toNat)).length), 0x21, 1, ses, 0x21080200, 0x2120, 3, writeTaken_of_writes (by decide), by decide, by decide, by decide, by decide, by decide, by decide⟩⟩

theorem witness_EmergenciesAndInterruptCauses :
    (∃ (s : State) (h : Hdr) (q : BitVec 32) (x : Session), Admitted s h 0x21 (u32 q.toNat) x) ∧
    (∃ (s : State) (i : BitVec 16) (q : BitVec 32) (x : Session) (u : Unacked), s.session i.toNat = some x ∧ x.unacked.find? (fun u => u.seq == q.toNat) = some u ∧ u.resent < 3) ∧
    (∃ (s : State) (i : BitVec 16) (q : BitVec 32) (x : Session) (u : Unacked), s.session i.toNat = some x ∧ x.unacked.find? (fun u => u.seq == q.toNat) = some u ∧ 3 ≤ u.resent) ∧
    (∃ (s : State) (h : Hdr) (m : BitVec 32) (x : Session), WriteTaken s h 0x1050 1 (u32 m.toNat) x) :=
  ⟨⟨upWith #v[some { ses with unacked := [{ seq := 5, record := [1], resent := 0 }] }, none, none, none], hd ((u32 (5 : BitVec 32).toNat) : Bytes).length, 5, { ses with unacked := [{ seq := 5, record := [1], resent := 0 }] }, admitted_of_enters (by decide)⟩,
    ⟨upWith #v[some { ses with unacked := [{ seq := 5, record := [1], resent := 0 }] }, none, none, none], 1, 5, { ses with unacked := [{ seq := 5, record := [1], resent := 0 }] }, ({ seq := 5, record := [1], resent := 0 } : Unacked), by decide, by decide, by decide⟩,
    ⟨upWith #v[some { ses with unacked := [{ seq := 5, record := [1], resent := 3 }] }, none, none, none], 1, 5, { ses with unacked := [{ seq := 5, record := [1], resent := 3 }] }, ({ seq := 5, record := [1], resent := 3 } : Unacked), by decide, by decide, by decide⟩,
    ⟨up.setNum 0x1050 1 5, hd (4 + ((u32 (4 : BitVec 32).toNat)).length), 4, ses, writeTaken_of_writes (by decide)⟩⟩

theorem witness_StreamsStartAndStop :
    (∃ (s : State) (h : Hdr) (run : Bool) (x : Session) (b : Nat), b = b2n run + b2n (s.cycRuns 1) * 2 ∧ WriteTaken s h 0x6010 1 (u8 b) x ∧ s.num 0x6010 3 < s.num 0x6010 2 ∧ s.num 0x6010 4 < s.num 0x6010 2) ∧
    (∃ (s : State) (h : Hdr) (run : Bool) (x : Session) (b : Nat), b = b2n (s.cycRuns 0) + b2n run * 2 ∧ WriteTaken s h 0x6010 1 (u8 b) x ∧ s.num 0x6010 3 < s.num 0x6010 2 ∧ s.num 0x6010 4 < s.num 0x6010 2) ∧
    (∃ (s : State) (h : Hdr) (run : Bool) (x : Session) (b : Nat), b = b2n run + b2n (s.cycRuns 1) * 2 ∧ WriteTaken s h 0x6010 1 (u8 b) x ∧ (s.num 0x6010 2 ≤ s.num 0x6010 3 ∨ s.num 0x6010 2 ≤ s.num 0x6010 4)) ∧
    (∃ (s : State) (h : Hdr) (c : Bytes) (x : Session), WriteTaken s h 0x1030 1 c x) ∧
    (∃ (s : State) (h : Hdr) (c : Bytes) (x : Session), WriteTaken s h 0x1030 2 c x) :=
  ⟨⟨up, hd (4 + ((u8 (1))).length), true, ses, 1, by decide, writeTaken_of_writes (by decide), by decide, by decide⟩,
    ⟨up, hd (4 + ((u8 (2))).length), true, ses, 2, by decide, writeTaken_of_writes (by decide), by decide, by decide⟩,
    ⟨up.setNum 0x6010 3 4000000000, hd (4 + ((u8 (1))).length), true, ses, 1, by decide, writeTaken_of_writes (by decide), by decide⟩,
    ⟨up, hd (4 + (((List.replicate 32 4 : Bytes))).length), (List.replicate 32 4 : Bytes), ses, writeTaken_of_writes (by decide)⟩,
    ⟨up, hd (4 + (((List.replicate 32 4 : Bytes))).length), (List.replicate 32 4 : Bytes), ses, writeTaken_of_writes (by decide)⟩⟩

theorem witness_CyclicStreamsRun :
    (∃ (s : State), s.serves = true ∧ s.wilwa.cycSid ≠ 0 ∧ s.cycRuns 0 = true ∧ s.cyclePassed = false) ∧
    (∃ (s : State), s.cyclePassed = true) ∧
    (∃ (s : State) (c : CyclicData) (x : Session), s.serves = true ∧ s.cycRuns 0 = true ∧ s.wilwa.txSample = some c ∧ s.session s.wilwa.cycSid = some x) ∧
    (∃ (s : State) (h : Hdr) (p : Bytes) (x : Session), Admitted s h 0x30 p x ∧ x.sid = s.wilwa.cycSid ∧ s.cycRuns 1 = true ∧ p.length = 8 + s.mapSize 0x6001 (s.num 0x6001 0) ∧ s.rxCycle = leAt p 0 6) ∧
    (∃ (s : State) (h : Hdr) (p : Bytes) (x : Session), Admitted s h 0x30 p x ∧ x.sid = s.wilwa.cycSid ∧ s.cycRuns 1 = true ∧ p.length = 8 + s.mapSize 0x6001 (s.num 0x6001 0) ∧ s.rxCycle ≠ leAt p 0 6) ∧
    (∃ (s : State) (b : Nat) (x : Session), s.serves = true ∧ s.cycRuns 1 = true ∧ s.wilwa.rxApplied = false ∧ s.wilwa.boundary = some b ∧ s.session s.wilwa.cycSid = some x ∧ (∀ c, s.wilwa.rxWaiting = some c → c.era * 2 ^ 32 + c.ns ≠ b)) ∧
    (∃ (s : State) (b : Nat) (x : Session) (c : CyclicData) (n : Nat) (d : Desc), s.serves = true ∧ s.cycRuns 1 = true ∧ s.wilwa.rxApplied = false ∧ s.wilwa.boundary = some b ∧ s.session s.wilwa.cycSid = some x ∧ s.wilwa.rxWaiting = some c ∧ c.era * 2 ^ 32 + c.ns = b ∧ s.num 0x6001 0 = 1 ∧ n = s.num 0x6001 1 ∧ findDesc (n / 65536) (n / 256 % 256) = some d ∧ d.ty.size = some c.data.length ∧ d.cls = .commit ∧ s.writeError x (n / 65536) (n / 256 % 256) c.data true = none ∧ (isAdminArea (n / 65536) && n / 65536 % 256 == 0 && n / 256 % 256 == 1) = false ∧ hook x (n / 65536) (n / 256 % 256) (d.value c.data) { s with wilwa := { s.wilwa with rxApplied := true, rxMissRun := 0, rxWaiting := none } } = none) ∧
    (∃ (s : State), s.num 0x6010 5 ≠ 0 ∧ s.cycRuns 1 = true ∧ s.num 0x6010 5 ≤ s.wilwa.rxMissRun) :=
  ⟨⟨cyclic, by decide, by decide, by decide, by decide⟩,
    ⟨{ cyclic with wilwa := { cyclic.wilwa with cycles := [(cyclic.eNow - cyclic.eNow % 1000000, cyclic.tick)] } }, by decide⟩,
    ⟨{ cyclic with wilwa := { cyclic.wilwa with txSample := some ⟨7, 1, [4]⟩ } }, (⟨7, 1, [4]⟩ : CyclicData), ses, by decide, by decide, by decide, by decide⟩,
    ⟨{ cyclic with wilwa := { cyclic.wilwa with boundary := some 1000, rxApplied := true } }, hd ((leBytes 6 1001000 ++ leBytes 2 0) : Bytes).length, leBytes 6 1001000 ++ leBytes 2 0, ses, admitted_of_enters (by decide), by decide, by decide, by decide, by decide⟩,
    ⟨cyclic, hd ((leBytes 8 999) : Bytes).length, leBytes 8 999, ses, admitted_of_enters (by decide), by decide, by decide, by decide, by decide⟩,
    ⟨cyclic, (1000 : Nat), ses, by decide, by decide, by decide, by decide, by decide, by decide⟩,
    ⟨{ ((cyclic.setNum 0x6001 0 1).setNum 0x6001 1 0x25110100) with wilwa := { cyclic.wilwa with rxWaiting := some ⟨1000, 0, [5, 0]⟩ } }, (1000 : Nat), ses, (⟨1000, 0, [5, 0]⟩ : CyclicData), (0x25110100 : Nat), (findDesc 0x2511 1).get (by decide), by decide, by decide, by decide, by decide, by decide, by decide, by decide, by decide, by decide, by decide, by decide, by decide, by decide, by decide, rfl⟩,
    ⟨{ cyclic with wilwa := { cyclic.wilwa with rxMissRun := 3 } }, by decide, by decide, by decide⟩⟩

theorem witness_TheSwitchForwardsFrames :
    (∃ (s : State) (p : Fin 3), s.on domNET = true ∧ s.portOpen p.val = true) ∧
    (∃ (s : State) (p : Fin 3) (f : Frame) (asks : Option IpAsk) (o : Nat), s.on domNET = true ∧ s.portOpen p.val = true ∧ s.pdelayKept f = false ∧ isGroup f.dst = false ∧ f.dst.toNat ≠ s.fuses.mac ∧ f.dst ≠ f.src ∧ (kvGet s.net.table f.dst.toNat).map (·.port) = some o ∧ o < 3 ∧ o ≠ p.val ∧ (o = 0 → asks = none) ∧ s.portOpen o = true ∧ f.fcsOk = true ∧ f.length ≤ 1522 ∧ s.num 0x2040 1 = 0 ∧ (∀ k, k < 3 → k ≠ o → ∀ q, q < 4 → vget (s.egressPort k).queues q [] = []) ∧ (∀ q, q < 4 → vget (s.egressPort o).queues q [] = []) ∧ (s.egressPort o).busy ≤ s.tick) ∧
    (∃ (s : State) (p : Fin 3) (f : Frame) (asks : Option IpAsk) (o : Nat), s.on domNET = true ∧ s.portOpen p.val = true ∧ s.pdelayKept f = false ∧ isGroup f.dst = false ∧ f.dst.toNat ≠ s.fuses.mac ∧ f.dst ≠ f.src ∧ (kvGet s.net.table f.dst.toNat).map (·.port) = some o ∧ o < 3 ∧ o ≠ p.val ∧ (o = 0 → asks = none) ∧ s.portOpen o = true ∧ f.fcsOk = true ∧ f.length ≤ 1522 ∧ s.num 0x2040 1 = 0 ∧ (∀ k, k < 3 → k ≠ o → ∀ q, q < 4 → vget (s.egressPort k).queues q [] = []) ∧ s.tick < (s.egressPort o).busy ∧ ((vget (s.egressPort o).queues (s.queueOf f) []).map (·.frame.length)).sum + f.length ≤ 32768) ∧
    (∃ (s : State) (p : Fin 3) (f : Frame) (asks : Option IpAsk) (o : Nat), s.on domNET = true ∧ s.portOpen p.val = true ∧ s.pdelayKept f = false ∧ isGroup f.dst = false ∧ f.dst.toNat ≠ s.fuses.mac ∧ f.dst ≠ f.src ∧ (kvGet s.net.table f.dst.toNat).map (·.port) = some o ∧ o < 3 ∧ o ≠ p.val ∧ (o = 0 → asks = none) ∧ s.portOpen o = true ∧ f.fcsOk = true ∧ f.length ≤ 1522 ∧ s.num 0x2040 1 = 0 ∧ (∀ k, k < 3 → k ≠ o → ∀ q, q < 4 → vget (s.egressPort k).queues q [] = []) ∧ s.tick < (s.egressPort o).busy ∧ 32768 < ((vget (s.egressPort o).queues (s.queueOf f) []).map (·.frame.length)).sum + f.length) ∧
    (∃ (s : State) (o : Nat) (q : Nat) (x : Queued) (rest : List Queued), s.pending = [] ∧ s.on domNET = true ∧ s.on domHLK = false ∧ (∀ b, b < 8 → (s.bar b).staging = []) ∧ s.num 0x2040 1 = 0 ∧ (o = 1 ∨ o = 2) ∧ s.portOpen o = true ∧ (s.egressPort o).busy ≤ s.tick + 1 ∧ q < 4 ∧ vget (s.egressPort o).queues q [] = x :: rest ∧ (∀ r, q < r → r < 4 → vget (s.egressPort o).queues r [] = [])) ∧
    (∃ (s : State) (p : Fin 3), (s.on domNET = false ∨ s.portOpen p.val = false)) ∧
    (∃ (s : State) (m : BitVec 48) (l : Learned), kvGet s.net.table m.toNat = some l ∧ l.tick + 120000000000 ≤ s.tick) ∧
    (∃ (s : State) (m : BitVec 48) (l : Learned), kvGet s.net.table m.toNat = some l ∧ s.tick < l.tick + 120000000000) :=
  ⟨⟨linked, 1, by decide, by decide⟩,
    ⟨linked, 1, frame, (none : Option IpAsk), (2 : Nat), by decide, by decide, by decide, by decide, by decide, by decide, by decide, by decide, by decide, by decide, by decide, by decide, by decide, by decide, by decide, by decide, by decide⟩,
    ⟨queued 3, 1, frame, (none : Option IpAsk), (2 : Nat), by decide, by decide, by decide, by decide, by decide, by decide, by decide, by decide, by decide, by decide, by decide, by decide, by decide, by decide, by decide, by decide, by decide⟩,
    ⟨queued 327, 1, frame, (none : Option IpAsk), (2 : Nat), by decide, by decide, by decide, by decide, by decide, by decide, by decide, by decide, by decide, by decide, by decide, by decide, by decide, by decide, by decide, by decide, by decide⟩,
    ⟨{ (queued 2).modPwr (fun p => { p with doms := vmod p.doms domHLK fun _ => .off }) with tick := 10000000000005 }, (2 : Nat), (0 : Nat), (⟨frame, 1, 0, none⟩ : Queued), [(⟨frame, 1, 0, none⟩ : Queued)], by decide, by decide, by decide, by decide, by decide, by decide, by decide, by decide, by decide, by decide, (by intro r h1 h2; have h : r = 1 ∨ r = 2 ∨ r = 3 := (by omega); obtain rfl | rfl | rfl := h <;> decide)⟩,
    ⟨up, 2, by decide⟩,
    ⟨linked, 0x22, (⟨2, 5⟩ : Learned), by decide, by decide⟩,
    ⟨{ linked with tick := 100 }, 0x22, (⟨2, 5⟩ : Learned), by decide, by decide⟩⟩

theorem witness_LinksAndThePhyBus :
    (∃ (s : State) (p : Fin 2), s.on domNET = true ∧ s.num 0x2010 (p.val + 1) ≠ 0) ∧
    (∃ (s : State) (p : Fin 2), (s.on domNET = false ∨ s.num 0x2010 (p.val + 1) = 0)) ∧
    (∃ (s : State) (p : Fin 2), s.on domNET = true ∧ s.linkUp (p.val + 1) = true) ∧
    (∃ (s : State) (p : Fin 2), s.linkUp (p.val + 1) = false) ∧
    (∃ (s : State), (s.adm 0x20).result = 1) ∧
    (∃ (s : State), (s.adm 0x20).result ≠ 1) ∧
    (∃ (s : State) (h : Hdr) (phy : BitVec 5) (reg : BitVec 5) (data : BitVec 16) (x : Session) (op : Nat) (c : Instr), (op, c) ∈ [(0, Instr.mdioC22Write h phy reg data), (1, .mdioC22Read h phy reg data), (4, .mdioC45Address h phy reg data), (5, .mdioC45Write h phy reg data), (7, .mdioC45Read h phy reg data)] ∧ WriteTaken s h 0x2050 1 (u32 (op * 2 ^ 29 + phy.toNat * 2 ^ 24 + reg.toNat * 2 ^ 16 + data.toNat)) x ∧ s.net.mdio = none) ∧
    (∃ (s : State) (h : Hdr) (phy : BitVec 5) (reg : BitVec 5) (data : BitVec 16) (x : Session) (op : Nat) (c : Instr), (op, c) ∈ [(0, Instr.mdioC22Write h phy reg data), (1, .mdioC22Read h phy reg data), (4, .mdioC45Address h phy reg data), (5, .mdioC45Write h phy reg data), (7, .mdioC45Read h phy reg data)] ∧ WriteTaken s h 0x2050 1 (u32 (op * 2 ^ 29 + phy.toNat * 2 ^ 24 + reg.toNat * 2 ^ 16 + data.toNat)) x ∧ s.net.mdio ≠ none) ∧
    (∃ (s : State) (m : Mdio), s.net.mdio = some m ∧ s.on domNET = true ∧ (m.op = 1 ∨ m.op = 7)) ∧
    (∃ (s : State) (m : Mdio), s.net.mdio = some m ∧ s.on domNET = true ∧ (m.op = 1 ∨ m.op = 7)) ∧
    (∃ (s : State) (m : Mdio), s.net.mdio = some m ∧ m.op ≠ 1 ∧ m.op ≠ 7) :=
  ⟨⟨up.setNum 0x2010 1 1, 0, by decide, by decide⟩,
    ⟨up.setNum 0x2010 1 0, 0, by decide⟩,
    ⟨linked, 0, by decide, by decide⟩,
    ⟨up, 1, by decide⟩,
    ⟨{ up with wilwa := { up.wilwa with areas := [(0x20, { AreaAdm.initial with result := 1 })], staged := [(key 0x2010 1, .num 2)] } }, by decide⟩,
    ⟨up, by decide⟩,
    ⟨up, hd (4 + ((u32 (((1 : Nat)) * 2 ^ 29 + (3 : BitVec 5).toNat * 2 ^ 24 + (4 : BitVec 5).toNat * 2 ^ 16 + (0 : BitVec 16).toNat))).length), 3, 4, 0, ses, (1 : Nat), Instr.mdioC22Read (hd 8) 3 4 0, by decide, writeTaken_of_writes (by decide), by decide⟩,
    ⟨{ up with net := { up.net with mdio := some ⟨1, 2, 3, 4⟩ } }, hd (4 + ((u32 (((1 : Nat)) * 2 ^ 29 + (3 : BitVec 5).toNat * 2 ^ 24 + (4 : BitVec 5).toNat * 2 ^ 16 + (0 : BitVec 16).toNat))).length), 3, 4, 0, ses, (1 : Nat), Instr.mdioC22Read (hd 8) 3 4 0, by decide, writeTaken_of_writes (by decide), by decide⟩,
    ⟨{ up with net := { up.net with mdio := some ⟨1, 2, 3, 4⟩ } }, (⟨1, 2, 3, 4⟩ : Mdio), by decide, by decide, by decide⟩,
    ⟨{ up with net := { up.net with mdio := some ⟨1, 2, 3, 4⟩ } }, (⟨1, 2, 3, 4⟩ : Mdio), by decide, by decide, by decide⟩,
    ⟨{ up with net := { up.net with mdio := some ⟨0, 2, 3, 4⟩ } }, (⟨0, 2, 3, 4⟩ : Mdio), by decide, by decide, by decide⟩⟩

theorem witness_TimeProtocolMessages :
    (∃ (s : State) (a : Announce), s.on domNET = true ∧ s.domainUsed a.domain.toNat = true ∧ bit (s.num 0x2120 3) a.mapping.toNat = true) ∧
    (∃ (s : State) (m : PtpMsg), s.fromMaster m = true ∧ m.twoStep = true) ∧
    (∃ (s : State) (m : PtpMsg), s.fromMaster m = true ∧ m.twoStep = false ∧ m.domain.toNat = s.nativeDomain ∧ s.num 0x2120 12 = 1 ∧ s.num 0x2120 8 = 0 ∧ (s.num 0x2120 2 = 2 ∨ (s.ptpDom m.domain.toNat).mpd.isSome = true)) ∧
    (∃ (s : State) (m : PtpMsg) (w : TwoStep), s.fromMaster m = true ∧ (s.ptpDom m.domain.toNat).twoStep = some w ∧ w.sender = m.sender ∧ w.seq = m.seq) ∧
    (∃ (s : State) (m : PtpMsg) (r : DelayReq) (l : LastSync), s.fromMaster m = true ∧ s.num 0x2120 2 = 1 ∧ (s.ptpDom m.domain.toNat).req = some r ∧ (s.ptpDom m.domain.toNat).lastSync = some l ∧ r.seq = m.seq.toNat) ∧
    (∃ (s : State) (d : BitVec 8) (a : Announce) (l : LastSync), (s.ptpDom d.toNat).master = some a ∧ (s.ptpDom d.toNat).lastSync = some l ∧ s.on domNET = true ∧ s.domainUsed d.toNat = true ∧ s.num 0x2120 2 = 1) ∧
    (∃ (s : State) (m : PtpMsg), s.peerDelay = true ∧ (m.port.toNat = 1 ∨ m.port.toNat = 2)) ∧
    (∃ (s : State), s.peerDelay = true) ∧
    (∃ (s : State) (m : PtpMsg) (r : DelayReq), s.peerDelay = true ∧ (m.port.toNat = 1 ∨ m.port.toNat = 2) ∧ vget s.net.pdelayReq (m.port.toNat - 1) none = some r ∧ r.seq = m.seq.toNat) :=
  ⟨⟨up, master, by decide, by decide, by decide⟩,
    ⟨followed id, { message with twoStep := true }, by decide, by decide⟩,
    ⟨(((followed id).setNum 0x2120 12 1).setNum 0x2120 8 0).setNum 0x2120 2 2, message, by decide, by decide, by decide, by decide, by decide, by decide⟩,
    ⟨followed fun d => { d with twoStep := some ⟨99, 5, 1000, [0,0,0,0], 0⟩ }, message, (⟨99, 5, 1000, [0,0,0,0], 0⟩ : TwoStep), by decide, by decide, by decide, by decide⟩,
    ⟨(followed fun d => { d with req := some ⟨5, 100⟩, lastSync := some ⟨1, 2, 3, 1, 0⟩ }).setNum 0x2120 2 1, message, (⟨5, 100⟩ : DelayReq), (⟨1, 2, 3, 1, 0⟩ : LastSync), by decide, by decide, by decide, by decide, by decide⟩,
    ⟨(followed fun d => { d with lastSync := some ⟨1, 2, 3, 1, 0⟩ }).setNum 0x2120 2 1, 0, master, (⟨1, 2, 3, 1, 0⟩ : LastSync), by decide, by decide, by decide, by decide, by decide⟩,
    ⟨(up.setNum 0x2120 2 2).setNum 0x2040 1 1, message, by decide, by decide⟩,
    ⟨(up.setNum 0x2120 2 2).setNum 0x2040 1 1, by decide⟩,
    ⟨{ ((up.setNum 0x2120 2 2).setNum 0x2040 1 1) with net := { up.net with pdelayReq := #v[some ⟨5, 100⟩, none] } }, message, (⟨5, 100⟩ : DelayReq), by decide, by decide, by decide, by decide⟩⟩

theorem witness_TheNativeClock :
    (∃ (s : State) (d : BitVec 8) (a : Announce), s.on domNET = true ∧ s.nativeDomain = d.toNat ∧ (s.ptpDom d.toNat).master = some a ∧ (s.tim.native.st = .acquiring ∨ s.tim.native.st = .locked)) ∧
    (∃ (s : State) (h : Hdr) (b : Bytes) (x : Session), WriteTaken s h 0x2130 1 b x ∧ s.num 0x2120 12 ≠ 1 ∧ s.stepAllowed = true) ∧
    (∃ (s : State) (h : Hdr) (b : Bytes) (x : Session), WriteTaken s h 0x2130 1 b x ∧ (s.num 0x2120 12 = 1 ∨ s.stepAllowed = false)) ∧
    (∃ (s : State) (h : Hdr) (x : Session), WriteTaken s h 0x2120 12 (u8 0) x) ∧
    (∃ (s : State) (h : Hdr) (x : Session), WriteTaken s h 0x2120 12 (u8 1) x) ∧
    (∃ (s : State) (h : Hdr) (x : Session), WriteTaken s h 0x5000 1 (u8 1) x) ∧
    (∃ (s : State), s.on domNET = true ∧ (∀ e ∈ s.tim.steps, s.tick < e.1) ∧ s.eNow / 2 ^ 32 ≠ s.tim.markedEra) ∧
    (∃ (s : State) (e : Nat × Nat), s.on domNET = true ∧ s.tim.steps = [e] ∧ e.1 ≤ s.tick ∧ e.2 = s.eNow / 2 ^ 32) ∧
    (∃ (s : State), (s.on domNET = false ∨ ((∀ e ∈ s.tim.steps, s.tick < e.1) ∧ s.eNow / 2 ^ 32 = s.tim.markedEra))) :=
  ⟨⟨let q := followed id; { q with tim := { q.tim with native := { q.tim.native with st := .locked } } }, 0, master, by decide, by decide, by decide, by decide⟩,
    ⟨(up.setNum 0x2120 8 2).setNum 0x2120 12 0, hd (4 + ((u64 12345)).length), u64 12345, ses, writeTaken_of_writes (by decide), by decide, by decide⟩,
    ⟨(up.setNum 0x2120 8 0).setNum 0x2120 12 0, hd (4 + ((u64 12345)).length), u64 12345, ses, writeTaken_of_writes (by decide), by decide⟩,
    ⟨up, hd (4 + ((u8 0)).length), ses, writeTaken_of_writes (by decide)⟩,
    ⟨up, hd (4 + ((u8 1)).length), ses, writeTaken_of_writes (by decide)⟩,
    ⟨up, hd (4 + ((u8 1)).length), ses, writeTaken_of_writes (by decide)⟩,
    ⟨{ up with tim := { up.tim with markedEra := 77 } }, by decide, by decide, by decide⟩,
    ⟨{ up with tim := { up.tim with markedEra := 77, steps := [(5, up.eNow / 2 ^ 32)] } }, (5, up.eNow / 2 ^ 32), by decide, by decide, by decide, by decide⟩,
    ⟨{ up with tick := 0 }, by decide⟩⟩

theorem witness_RasterBlocksAreTakenIn :
    (∃ (s : State) (b : RasterBlock) (k : Nat), s.intakeOpen = true ∧ s.rin.overrun = false ∧ headerValid b = true ∧ s.slotCheck b = (0, k) ∧ s.fill + blockWords b ≤ 262144 ∧ trailerValid b = true) ∧
    (∃ (s : State) (b : RasterBlock) (st : Nat) (k : Nat), s.intakeOpen = true ∧ s.rin.overrun = false ∧ headerValid b = true ∧ s.slotCheck b = (st, k) ∧ st ≠ 0 ∧ s.fill < 262144) ∧
    (∃ (s : State) (b : RasterBlock) (k : Nat), s.intakeOpen = true ∧ s.rin.overrun = false ∧ headerValid b = true ∧ s.slotCheck b = (0, k) ∧ 262144 < s.fill + blockWords b ∧ (s.fill < 262144 ∨ b.skipped = 0)) ∧
    (∃ (s : State) (b : RasterBlock) (k : Nat), s.intakeOpen = true ∧ s.rin.overrun = false ∧ headerValid b = true ∧ s.slotCheck b = (0, k) ∧ s.fill + blockWords b ≤ 262144 ∧ trailerValid b = false) ∧
    (∃ (s : State), s.intakeOpen = true ∧ s.rin.overrun = true ∧ s.rin.xon = false ∧ s.num 0x2220 3 * 32 < s.fill) ∧
    (∃ (s : State) (b : RasterBlock) (k : Nat), s.intakeOpen = false ∧ s.on domRFE = true ∧ b.begun = true ∧ s.rin.overrun = false ∧ headerValid b = true ∧ s.slotCheck b = (0, k)) ∧
    (∃ (s : State) (b : RasterBlock), s.intakeOpen = false ∧ b.begun = false) ∧
    (∃ (s : State), s.on domRFE = true ∧ (s.pwr.trans = some .training ∨ s.rin.retrain = true)) ∧
    (∃ (s : State), (s.on domRFE = false ∨ (s.pwr.trans ≠ some .training ∧ s.rin.retrain = false))) ∧
    (∃ (s : State), s.on domRFE = true ∧ s.rin.linkUp = true) ∧
    (∃ (s : State) (h : Hdr) (e : Bool) (x : Session), WriteTaken s h 0x2220 1 (u8 (b2n e)) x) :=
  ⟨⟨slotted .loading, block 0 0 sixtyFour, (0 : Nat), by decide, by decide, by decide, by decide, by decide, by decide⟩,
    ⟨slotted .ready, block 0 0 sixtyFour, (3 : Nat), (255 : Nat), by decide, by decide, by decide, by decide, by decide, by decide⟩,
    ⟨(slotted .loading).queued [{ held 0 [] with words := 262144 }], block 0 0 sixtyFour, (0 : Nat), by decide, by decide, by decide, by decide, by decide, by decide⟩,
    ⟨slotted .loading, { block 0 0 sixtyFour with endMagic := 0 }, (0 : Nat), by decide, by decide, by decide, by decide, by decide, by decide⟩,
    ⟨let q := (slotted .loading).queued [{ held 0 [] with words := 262144 }]; { q with rin := { q.rin with overrun := true, xon := false } }, by decide, by decide, by decide, by decide⟩,
    ⟨(slotted .loading).setNum 0x2220 1 0, { block 0 0 sixtyFour with begun := true }, (0 : Nat), by decide, by decide, by decide, by decide, by decide, by decide⟩,
    ⟨(slotted .loading).setNum 0x2220 1 0, block 0 0 sixtyFour, by decide, by decide⟩,
    ⟨trained, by decide, by decide⟩,
    ⟨up, by decide⟩,
    ⟨slotted .loading, by decide, by decide⟩,
    ⟨up, hd (4 + ((u8 (b2n (true : Bool)))).length), true, ses, writeTaken_of_writes (by decide)⟩⟩

theorem witness_BlocksAreConsumed :
    (∃ (s : State) (i : Nat) (y : FifoBlock) (k : Nat) (lines : List (Nat × Nat × Bytes)), s.nextBlock = some (i, y) ∧ s.matchSlot y.jobId y.generation = some k ∧ s.on domRFE = true ∧ s.slotStream k = false ∧ (s.slot k).st = .loading ∧ (∀ b ∈ barsOf y.barMask, ∀ j < y.lineCount, s.memTakes (s.lineAddr k b (y.firstLine + j)) (s.pitch k) 1 = true) ∧ s.decodeBlock { y with slot := k } = .ok lines) ∧
    (∃ (s : State) (i : Nat) (y : FifoBlock) (k : Nat) (b : Nat) (d : Nat), s.nextBlock = some (i, y) ∧ s.matchSlot y.jobId y.generation = some k ∧ s.on domRFE = true ∧ s.slotStream k = false ∧ (s.slot k).st = .loading ∧ (∀ b ∈ barsOf y.barMask, ∀ j < y.lineCount, s.memTakes (s.lineAddr k b (y.firstLine + j)) (s.pitch k) 1 = true) ∧ s.decodeBlock { y with slot := k } = .error (b, d)) ∧
    (∃ (s : State) (i : Nat) (y : FifoBlock) (k : Nat) (b : Nat) (j : Nat), s.nextBlock = some (i, y) ∧ s.matchSlot y.jobId y.generation = some k ∧ s.on domRFE = true ∧ s.slotStream k = false ∧ (s.slot k).st = .loading ∧ b ∈ barsOf y.barMask ∧ j < y.lineCount ∧ s.memTakes (s.lineAddr k b (y.firstLine + j)) (s.pitch k) 1 = false) ∧
    (∃ (s : State) (i : Nat) (y : FifoBlock), s.nextBlock = some (i, y) ∧ s.matchSlot y.jobId y.generation = none ∧ s.on domRFE = true ∧ y.kind = 0) ∧
    (∃ (s : State) (i : Nat) (y : FifoBlock), s.nextBlock = some (i, y) ∧ s.matchSlot y.jobId y.generation = none ∧ s.on domRFE = true ∧ y.kind ≠ 0) ∧
    (∃ (s : State) (i : Nat) (y : FifoBlock) (k : Nat) (b : Nat), s.nextBlock = some (i, y) ∧ s.matchSlot y.jobId y.generation = some k ∧ s.on domRFE = true ∧ s.slotStream k = true ∧ ((s.slot k).st = .ready ∨ (s.slot k).st = .printing ∨ (s.slot k).st = .draining) ∧ barsOf y.barMask = [b] ∧ b < 8 ∧ 2 ≤ (vget s.rin.windows b []).length) ∧
    (∃ (s : State) (i : Nat) (y : FifoBlock) (k : Nat) (b : Nat) (lines : List (Nat × Nat × Bytes)), s.nextBlock = some (i, y) ∧ s.matchSlot y.jobId y.generation = some k ∧ s.on domRFE = true ∧ s.slotStream k = true ∧ ((s.slot k).st = .ready ∨ (s.slot k).st = .printing ∨ (s.slot k).st = .draining) ∧ barsOf y.barMask = [b] ∧ b < 8 ∧ (vget s.rin.windows b []).length < 2 ∧ s.allServe = true ∧ s.decodeBlock { y with slot := k } = .ok lines) ∧
    (∃ (s : State) (i : Nat) (y : FifoBlock) (k : Nat) (b : Nat) (e : Nat × Nat), s.nextBlock = some (i, y) ∧ s.matchSlot y.jobId y.generation = some k ∧ s.on domRFE = true ∧ s.slotStream k = true ∧ ((s.slot k).st = .ready ∨ (s.slot k).st = .printing ∨ (s.slot k).st = .draining) ∧ barsOf y.barMask = [b] ∧ b < 8 ∧ (vget s.rin.windows b []).length < 2 ∧ s.allServe = true ∧ s.decodeBlock { y with slot := k } = .error e) ∧
    (∃ (s : State) (y : FifoBlock) (rest : List FifoBlock), s.rin.fifo = y :: rest ∧ s.on domRFE = true ∧ y.taken ≠ .waiting ∧ (s.forwarding y.slot = true → y.acked = true)) ∧
    (∃ (s : State), s.rin.fifo = []) :=
  ⟨⟨(slotted .loading).queued [held 0 sixtyFour], (0 : Nat), held 0 sixtyFour, (0 : Nat), [(0, 0, sixtyFour)], by decide, by decide, by decide, by decide, by decide, (by intro b hb j hj; cases (by simpa using (show b ∈ [0] from hb) : b = 0); cases (Nat.lt_one_iff.mp hj); simp only [State.lineAddr, Nat.zero_mul]; decide), rfl⟩,
    ⟨(slotted .loading).queued [held 0 [1]], (0 : Nat), held 0 [1], (0 : Nat), (0 : Nat), (0 : Nat), by decide, by decide, by decide, by decide, by decide, (by intro b hb j hj; cases (by simpa using (show b ∈ [0] from hb) : b = 0); cases (Nat.lt_one_iff.mp hj); simp only [State.lineAddr, Nat.zero_mul]; decide), rfl⟩,
    ⟨((slotted .loading).queued [held 0 sixtyFour]).modChan 0 fun m => { m with st := .frozen }, (0 : Nat), held 0 sixtyFour, (0 : Nat), (0 : Nat), (0 : Nat), by decide, by decide, by decide, by decide, by decide, by decide, by decide, (by simp only [State.lineAddr, Nat.zero_mul]; decide)⟩,
    ⟨(slotted .empty).queued [held 0 sixtyFour], (0 : Nat), held 0 sixtyFour, by decide, by decide, by decide, by decide⟩,
    ⟨(slotted .empty).queued [held 1 sixtyFour], (0 : Nat), held 1 sixtyFour, by decide, by decide, by decide, by decide⟩,
    ⟨let q := (streaming .ready).queued [held 1 sixtyFour]; { q with rin := { q.rin with windows := Vector.replicate 8 [⟨0,0,[],0⟩, ⟨0,0,[],0⟩] } }, (0 : Nat), held 1 sixtyFour, (0 : Nat), (0 : Nat), by decide, by decide, by decide, by decide, by decide, by decide, by decide, by decide⟩,
    ⟨(streaming .ready).queued [held 1 sixtyFour], (0 : Nat), held 1 sixtyFour, (0 : Nat), (0 : Nat), [(0, 0, sixtyFour)], by decide, by decide, by decide, by decide, by decide, by decide, by decide, by decide, by decide, rfl⟩,
    ⟨(streaming .ready).queued [held 1 [1]], (0 : Nat), held 1 [1], (0 : Nat), (0 : Nat), ((0, 0) : Nat × Nat), by decide, by decide, by decide, by decide, by decide, by decide, by decide, by decide, by decide, rfl⟩,
    ⟨(slotted .loading).queued [{ held 0 sixtyFour with taken := .stored }], { held 0 sixtyFour with taken := .stored }, ([] : List FifoBlock), by decide, by decide, by decide, by decide⟩,
    ⟨up, by decide⟩⟩

theorem witness_BlocksAreForwarded :
    (∃ (s : State) (i : Nat) (y : FifoBlock), ((List.range s.rin.fifo.length).zip s.rin.fifo).find? (fun e => !e.2.sent) = some (i, y) ∧ s.on domRFE = true ∧ s.forwarding y.slot = true ∧ s.outstanding < 4) ∧
    (∃ (s : State), 4 ≤ s.outstanding) ∧
    (∃ (s : State) (i : Nat) (y : FifoBlock) (c : Instr), c ∈ [Instr.forwardAckTimeout, .fackReceived (BitVec.ofNat 32 y.sequence) 7 false] ∧ y.sequence < 2 ^ 32 ∧ ((List.range s.rin.fifo.length).zip s.rin.fifo).find? (fun e => e.2.sent && !e.2.acked) = some (i, y) ∧ s.on domRFE = true ∧ s.on domMIR = true ∧ s.rin.fwdStopped = false ∧ (c = .forwardAckTimeout → s.forwarding y.slot = true)) ∧
    (∃ (s : State) (q : BitVec 32) (i : Nat) (y : FifoBlock), ((List.range s.rin.fifo.length).zip s.rin.fifo).find? (fun e => e.2.sent && !e.2.acked && e.2.sequence == q.toNat) = some (i, y) ∧ s.on domRFE = true ∧ s.on domMIR = true) ∧
    (∃ (s : State) (h : Hdr) (x : Session), WriteTaken s h 0x2220 10 (u8 1) x) :=
  ⟨⟨paired ((streaming .ready).queued [held 1 sixtyFour]), (0 : Nat), held 1 sixtyFour, by decide, by decide, by decide, by decide⟩,
    ⟨up.queued (List.replicate 4 { held 1 [] with sent := true }), by decide⟩,
    ⟨(paired ((streaming .ready).queued [{ held 1 sixtyFour with sent := true, fails := 2 }])), (0 : Nat), { held 1 sixtyFour with sent := true, fails := 2 }, Instr.forwardAckTimeout, by decide, by decide, by decide, by decide, by decide, by decide, by decide⟩,
    ⟨(paired ((streaming .ready).queued [{ held 1 sixtyFour with sent := true }])), 9, (0 : Nat), { held 1 sixtyFour with sent := true }, by decide, by decide, by decide⟩,
    ⟨let q := up.queued [{ held 1 sixtyFour with fails := 3 }]; { q with rin := { q.rin with fwdStopped := true } }, hd (4 + ((u8 1)).length), ses, writeTaken_of_writes (by decide)⟩⟩

theorem witness_SlotsAreOpenedSealedAndQueued :
    (∃ (s : State) (h : Hdr) (k : Fin 2) (x : Session), WriteTaken s h 0x221A (k.val + 1) (u8 1) x ∧ (s.slot k).st = .empty ∧ (s.slotStream k = false → (barsOf (s.slotMask k)).length * s.plane k ≤ s.slotCapacity) ∧ ((s.slot (1 - k.val)).st ≠ .empty → s.num 0x2210 (k.val + 1) ≠ s.num 0x2210 (2 - k.val) ∨ s.num 0x2218 (k.val + 1) ≠ s.num 0x2218 (2 - k.val)) ∧ s.storeLimits k = true) ∧
    (∃ (s : State) (h : Hdr) (k : Fin 2) (x : Session), WriteTaken s h 0x221A (k.val + 1) (u8 2) x ∧ (s.slot k).st = .loading ∧ s.linesMissing k = 0) ∧
    (∃ (s : State) (h : Hdr) (k : Fin 2) (x : Session), WriteTaken s h 0x221A (k.val + 1) (u8 3) x ∧ ((s.slot k).st = .loading ∨ (s.slot k).st = .sealing ∨ (s.slot k).st = .ready) ∧ s.num 0x2410 1 ≠ k.val) ∧
    (∃ (s : State) (h : Hdr) (k : Fin 2) (x : Session), WriteTaken s h 0x221A (k.val + 1) (u8 1) x ∧ (s.slot k).st ≠ .empty) ∧
    (∃ (s : State) (h : Hdr) (k : Fin 2) (x : Session), WriteTaken s h 0x221A (k.val + 1) (u8 2) x ∧ (s.slot k).st ≠ .loading) ∧
    (∃ (s : State) (h : Hdr) (k : Fin 2) (x : Session), WriteTaken s h 0x221A (k.val + 1) (u8 2) x ∧ (s.slot k).st = .loading ∧ s.linesMissing k ≠ 0) ∧
    (∃ (s : State) (h : Hdr) (k : Fin 2) (x : Session), WriteTaken s h 0x221A (k.val + 1) (u8 3) x ∧ ((s.slot k).st = .empty ∨ (s.slot k).st = .printing ∨ (s.slot k).st = .draining ∨ s.num 0x2410 1 = k.val)) ∧
    (∃ (s : State) (k : Fin 2), s.on domRFE = true ∧ (s.slot k).st = .sealing ∧ s.memServes (k.val * s.slotCapacity) ((barsOf (s.slotMask k)).length * s.plane k) = true) ∧
    (∃ (s : State) (k : Fin 2), (s.slot k).st ≠ .sealing) ∧
    (∃ (s : State) (h : Hdr) (v : BitVec 8) (x : Session), WriteTaken s h 0x2410 1 (u8 v.toNat) x ∧ s.fet.change = true) ∧
    (∃ (s : State) (h : Hdr) (v : BitVec 8) (x : Session), WriteTaken s h 0x2410 1 (u8 v.toNat) x ∧ s.fet.change = false ∧ v.toNat < 2 ∧ (s.slot v.toNat).st ≠ .ready) ∧
    (∃ (s : State) (h : Hdr) (v : BitVec 8) (x : Session), WriteTaken s h 0x2410 1 (u8 v.toNat) x ∧ s.fet.change = false ∧ (v.toNat = 255 ∨ ((s.slot v.toNat).st = .ready ∧ (s.num 0x2410 2 = 255 ∨ within (s.slotMask v.toNat) s.fsq.jobMask = true)))) ∧
    (∃ (s : State) (h : Hdr) (v : BitVec 32) (x : Session), WriteTaken s h 0x2410 3 (u32 v.toNat) x ∧ s.fet.change = true) ∧
    (∃ (s : State) (h : Hdr) (v : BitVec 32) (x : Session), WriteTaken s h 0x2410 3 (u32 v.toNat) x ∧ s.fet.change = false ∧ v.toNat ≠ 0 ∧ (∀ b ∈ barsOf s.fsq.jobMask, ∀ r, (s.bar b).run ≠ .ended → (s.bar b).run ≠ .notInJob → (s.job b).topRepeat = some r → r < v.toNat)) ∧
    (∃ (s : State) (h : Hdr) (v : BitVec 32) (x : Session) (b : Nat) (r : Nat), WriteTaken s h 0x2410 3 (u32 v.toNat) x ∧ s.fet.change = false ∧ v.toNat ≠ 0 ∧ b ∈ barsOf s.fsq.jobMask ∧ (s.bar b).run ≠ .ended ∧ (s.bar b).run ≠ .notInJob ∧ (s.job b).topRepeat = some r ∧ v.toNat ≤ r) :=
  ⟨⟨streaming .empty, hd (4 + ((u8 1)).length), 0, ses, writeTaken_of_writes (by decide), by decide, by decide, by decide, by decide⟩,
    ⟨(slotted .loading).modSlot 0 fun k => { k with valid := [(0, ()), (1, ()), (2, ()), (3, ())] }, hd (4 + ((u8 2)).length), 0, ses, writeTaken_of_writes (by decide), by decide, by decide⟩,
    ⟨slotted .ready, hd (4 + ((u8 3)).length), 0, ses, writeTaken_of_writes (by decide), by decide, by decide⟩,
    ⟨slotted .ready, hd (4 + ((u8 1)).length), 0, ses, writeTaken_of_writes (by decide), by decide⟩,
    ⟨slotted .ready, hd (4 + ((u8 2)).length), 0, ses, writeTaken_of_writes (by decide), by decide⟩,
    ⟨slotted .loading, hd (4 + ((u8 2)).length), 0, ses, writeTaken_of_writes (by decide), by decide, by decide⟩,
    ⟨slotted .printing, hd (4 + ((u8 3)).length), 0, ses, writeTaken_of_writes (by decide), by decide⟩,
    ⟨slotted .sealing, 0, by decide, by decide, (by rw [show ((0 : Fin 2)).val * _ = 0 from Nat.zero_mul _]; decide)⟩,
    ⟨slotted .ready, 0, by decide⟩,
    ⟨{ slotted .ready with fet := { Fet.start with change := true } }, hd (4 + ((u8 (0 : BitVec 8).toNat)).length), 0, ses, writeTaken_of_writes (by decide), by decide⟩,
    ⟨slotted .loading, hd (4 + ((u8 (0 : BitVec 8).toNat)).length), 0, ses, writeTaken_of_writes (by decide), by decide, by decide, by decide⟩,
    ⟨slotted .ready, hd (4 + ((u8 (0 : BitVec 8).toNat)).length), 0, ses, writeTaken_of_writes (by decide), by decide, by decide⟩,
    ⟨{ slotted .ready with fet := { Fet.start with change := true } }, hd (4 + ((u32 (2 : BitVec 32).toNat)).length), 2, ses, writeTaken_of_writes (by decide), by decide⟩,
    ⟨printing.modJob 0 fun j => { j with topRepeat := some 1 }, hd (4 + ((u32 (2 : BitVec 32).toNat)).length), 2, ses, writeTaken_of_writes (by decide), by decide, by decide, (by intro b hb r _ _ e; cases (by simpa using (show b ∈ [0] from hb) : b = 0); cases e; decide)⟩,
    ⟨printing.modJob 0 fun j => { j with topRepeat := some 5 }, hd (4 + ((u32 (2 : BitVec 32).toNat)).length), 2, ses, (0 : Nat), (5 : Nat), writeTaken_of_writes (by decide), by decide, by decide, by decide, by decide, by decide, by decide, by decide⟩⟩

theorem witness_LinesAreIssued :
    (∃ (s : State) (b : Bar) (k : Nat) (px : Option Bytes), s.on domRFE = true ∧ s.on domCTL = true ∧ s.inStates runStates = true ∧ bit s.fsq.jobMask b.val = true ∧ ((s.fetCatchUp b.val).job b.val).slot = some k ∧ ((s.fetCatchUp b.val).job b.val).ended = false ∧ ((s.fetCatchUp b.val).job b.val).idx - ((s.fetCatchUp b.val).bar b.val).idx < (s.fetCatchUp b.val).num 0x1200 9 ∧ (s.fetCatchUp b.val).inFlight b.val < 24 ∧ ((s.fetCatchUp b.val).bar b.val).run ≠ .ended ∧ (s.fetCatchUp b.val).fetchLine b.val k ((s.fetCatchUp b.val).designLine k ((s.fetCatchUp b.val).job b.val).p) = some px) ∧
    (∃ (s : State) (b : Bar), (s.on domRFE = false ∨ s.on domCTL = false ∨ s.inStates runStates = false ∨ bit s.fsq.jobMask b.val = false)) :=
  ⟨⟨printing.modJob 0 fun j => { j with held := some (0, 0, some sixtyFour) }, 0, (0 : Nat), some sixtyFour, by decide, by decide, by decide, by decide, by decide, by decide, by decide, by decide, by decide, by decide⟩,
    ⟨up, 0, by decide⟩⟩

theorem witness_MemoryRequestsAreServed :
    (∃ (s : State) (a : BitVec 48) (d : Bytes) (c : Nat) (l : Nat), s.locate (a.toNat / 128 * 128) = some (c, l) ∧ d.length = 128 ∧ c < 4 ∧ ((s.chan c).st = .ready ∨ (s.chan c).st = .selfRefresh) ∧ (s.chan c).leaving = none ∧ (s.chan c).reads = [] ∧ (s.chan c).writes = [] ∧ (s.chan c).waiting = []) ∧
    (∃ (s : State) (a : BitVec 48) (c : Nat) (l : Nat), s.locate (a.toNat / 128 * 128) = some (c, l) ∧ c < 4 ∧ (s.chan c).st = .ready ∧ (s.chan c).leaving = none ∧ (s.chan c).waiting = [] ∧ (∀ w ∈ (s.chan c).writes, w.addr ≠ l)) ∧
    (∃ (s : State) (a : BitVec 48) (c : Nat) (l : Nat) (w : MemWrite), s.locate (a.toNat / 128 * 128) = some (c, l) ∧ c < 4 ∧ (s.chan c).st = .ready ∧ (s.chan c).leaving = none ∧ (s.chan c).waiting = [] ∧ (s.chan c).writes.find? (·.addr == l) = some w) ∧
    (∃ (s : State) (a : BitVec 48) (c : Nat) (l : Nat), s.locate (a.toNat / 128 * 128) = some (c, l) ∧ c < 4 ∧ (s.chan c).serves = false ∧ (s.chan c).works = false) ∧
    (∃ (s : State) (a : BitVec 48) (c : Nat) (l : Nat), s.locate (a.toNat / 128 * 128) = some (c, l) ∧ c < 4 ∧ (s.chan c).serves = false ∧ (s.chan c).works = false) ∧
    (∃ (s : State) (t : State) (m : BitVec 8) (a : BitVec 48) (d : Option Bytes) (c : Nat) (l : Nat) (k : Nat), s.locate (a.toNat / 128 * 128) = some (c, l) ∧ c < 4 ∧ (∀ b, d = some b → b.length = 128) ∧ (∀ w ∈ (s.chan c).writes, w.data.length = 128) ∧ (∀ (w : MemWrite), .write w ∈ (s.chan c).waiting → w.data.length = 128) ∧ exec (.memoryRequest m a d) s = .next t ∧ (∀ w ∈ (s.chan c).writes, k < cellKey (c, w.addr) ∨ cellKey (c, w.addr) + 128 ≤ k) ∧ (∀ (w : MemWrite), .write w ∈ (s.chan c).waiting → k < cellKey (c, w.addr) ∨ cellKey (c, w.addr) + 128 ≤ k) ∧ (d.isSome = true → k < cellKey (c, l) ∨ cellKey (c, l) + 128 ≤ k)) ∧
    (∃ (s : State) (c : Chan) (r : MemRead), (s.chan c.val).nextRead = some r ∧ (s.chan c.val).st = .ready ∧ (s.chan c.val).waiting = []) ∧
    (∃ (s : State) (c : Chan) (r : MemRead) (es : List (Fin 82 × BitVec 16)) (j : Nat), (s.chan c.val).nextRead = some r ∧ (s.chan c.val).st = .ready ∧ classOf (syndromes (es.map fun e => (e.1.val, e.2.toNat))) = .corrected j) ∧
    (∃ (s : State) (c : Chan) (r : MemRead) (es : List (Fin 82 × BitVec 16)) (k : Nat), (s.chan c.val).nextRead = some r ∧ (s.chan c.val).st = .ready ∧ (classOf (syndromes (es.map fun e => (e.1.val, e.2.toNat))) = .uncorrectable ∧ k = 1 ∨ classOf (syndromes (es.map fun e => (e.1.val, e.2.toNat))) = .address ∧ k = 3)) ∧
    (∃ (s : State) (c : Chan), ((s.chan c.val).nextRead = none ∨ (s.chan c.val).works = false)) :=
  ⟨⟨chanIn .ready, (0x1005 : BitVec 48), (List.replicate 128 7 : Bytes), (0 : Nat), (0x1000 : Nat), by decide, by decide, by decide, by decide, by decide, by decide, by decide, by decide⟩,
    ⟨chanIn .ready, (0x1005 : BitVec 48), (0 : Nat), (0x1000 : Nat), by decide, by decide, by decide, by decide, by decide, by decide⟩,
    ⟨(chanIn .ready).modChan 0 fun m => { m with writes := [⟨1, 0x1000, List.replicate 128 7⟩] }, (0x1005 : BitVec 48), (0 : Nat), (0x1000 : Nat), (⟨1, 0x1000, List.replicate 128 7⟩ : MemWrite), by decide, by decide, by decide, by decide, by decide, by decide⟩,
    ⟨chanIn .frozen, (0x1005 : BitVec 48), (0 : Nat), (0x1000 : Nat), by decide, by decide, by decide, by decide⟩,
    ⟨chanIn .frozen, (0x1005 : BitVec 48), (0 : Nat), (0x1000 : Nat), by decide, by decide, by decide, by decide⟩,
    ⟨chanIn .ready, _, (3 : BitVec 8), (0x1005 : BitVec 48), some (List.replicate 128 7 : Bytes), (0 : Nat), (0x1000 : Nat), (0 : Nat), by decide, by decide, (by intro b e; cases e; decide), by decide, (by intro w e; cases e), rfl, by decide, (by intro w e; cases e), by decide⟩,
    ⟨(chanIn .ready).modChan 0 fun m => { m with reads := [⟨3, 0x1000⟩] }, 0, (⟨3, 0x1000⟩ : MemRead), by decide, by decide, by decide⟩,
    ⟨(chanIn .ready).modChan 0 fun m => { m with reads := [⟨3, 0x1000⟩] }, 0, (⟨3, 0x1000⟩ : MemRead), [((4 : Fin 82), (9 : BitVec 16))], (1 : Nat), by decide, by decide, by decide⟩,
    ⟨(chanIn .ready).modChan 0 fun m => { m with reads := [⟨3, 0x1000⟩] }, 0, (⟨3, 0x1000⟩ : MemRead), [((4 : Fin 82), (9 : BitVec 16)), ((9 : Fin 82), (9 : BitVec 16))], (1 : Nat), by decide, by decide, by decide⟩,
    ⟨chanIn .ready, 0, by decide⟩⟩

theorem witness_MemoryChannelsKeepTime :
    (∃ (s : State) (c : Chan), (s.chan c.val).burst = true) ∧
    (∃ (s : State) (c : Chan), (s.chan c.val).burst = false) ∧
    (∃ (s : State) (c : Chan), (s.chan c.val).waiting = []) ∧
    (∃ (s : State) (c : Chan), s.on (chanDomain c.val) = true ∧ (s.chan c.val).st = .frozen ∧ s.ranks c.val ≤ 2) ∧
    (∃ (s : State) (c : Chan), s.on (chanDomain c.val) = true ∧ (s.chan c.val).st = .ready) ∧
    (∃ (s : State) (c : Chan), (s.chan c.val).refreshes = false) ∧
    (∃ (s : State) (c : Chan), (s.chan c.val).st = .ready ∧ s.on (chanDomain c.val) = true) ∧
    (∃ (s : State) (c : Chan), (s.chan c.val).works = false) ∧
    (∃ (s : State) (c : Chan), (s.chan c.val).st = .ready ∧ (s.chan c.val).leaving = none ∧ s.num 0x231A (c.val + 1) ≠ 0 ∧ (s.chan c.val).reads = [] ∧ (s.chan c.val).writes = [] ∧ (s.chan c.val).waiting = []) ∧
    (∃ (s : State) (c : Chan), (s.chan c.val).st ≠ .ready) ∧
    (∃ (s : State) (c : Chan), (s.chan c.val).st = .ready) :=
  ⟨⟨(chanIn .ready).modChan 0 fun m => { m with burst := true }, 0, by decide⟩,
    ⟨up, 0, by decide⟩,
    ⟨(chanIn .ready).modChan 0 fun m => { m with guard := true }, 0, by decide⟩,
    ⟨chanIn .frozen, 0, by decide, by decide, by decide⟩,
    ⟨chanIn .ready, 0, by decide, by decide⟩,
    ⟨up, 0, by decide⟩,
    ⟨chanIn .ready, 0, by decide, by decide⟩,
    ⟨up, 0, by decide⟩,
    ⟨chanIn .ready, 0, by decide, by decide, by decide, by decide, by decide, by decide⟩,
    ⟨up, 0, by decide⟩,
    ⟨chanIn .ready, 0, by decide⟩⟩

theorem witness_MemoryChannelsTrain :
    (∃ (s : State) (h : Hdr) (c : Chan) (x : Session), WriteTaken s h 0x2316 (c.val + 1) (u8 1) x ∧ (s.pwr.dev = .standby ∨ s.pwr.dev = .configured) ∧ ((s.chan c.val).st = .untrained ∨ (s.chan c.val).st = .ready ∨ (s.chan c.val).st = .selfRefresh)) ∧
    (∃ (s : State) (h : Hdr) (c : Chan) (x : Session), WriteTaken s h 0x2316 (c.val + 1) (u8 3) x ∧ (s.pwr.dev = .standby ∨ s.pwr.dev = .configured) ∧ ((s.chan c.val).st = .untrained ∨ (s.chan c.val).st = .ready ∨ (s.chan c.val).st = .selfRefresh)) ∧
    (∃ (s : State) (h : Hdr) (c : Chan) (x : Session), WriteTaken s h 0x2316 (c.val + 1) (u8 1) x ∧ (s.chan c.val).st = .frozen) ∧
    (∃ (s : State) (h : Hdr) (c : Chan) (x : Session), WriteTaken s h 0x2316 (c.val + 1) (u8 1) x ∧ (s.pwr.dev = .standby ∨ s.pwr.dev = .configured) ∧ ((s.chan c.val).st = .training ∨ (s.chan c.val).st = .freqChange)) ∧
    (∃ (s : State) (c : Chan), (s.chan c.val).st = .training ∧ (s.chan c.val).step ≠ 0 ∧ s.on (chanDomain c.val) = true ∧ (s.chan c.val).pendingPoint = none) ∧
    (∃ (s : State) (c : Chan), (s.chan c.val).st = .training ∧ (s.chan c.val).step ≠ 0 ∧ s.on (chanDomain c.val) = true) ∧
    (∃ (s : State) (c : Chan), (s.chan c.val).st = .training ∧ (s.chan c.val).step ≠ 0 ∧ s.on (chanDomain c.val) = true ∧ (s.chan c.val).pendingPoint = none ∧ s.retainPending c.val = false ∧ (s.chan c.val).step < 7) ∧
    (∃ (s : State) (c : Chan) (p : Nat) (o : TrainOutcome), (s.chan c.val).st = .training ∧ (s.chan c.val).step ≠ 0 ∧ s.on (chanDomain c.val) = true ∧ o ∈ [TrainOutcome.done, .stepDone] ∧ (s.chan c.val).pendingPoint = some p ∧ s.retainPending c.val = false) ∧
    (∃ (s : State) (h : Hdr) (c : Chan) (v : BitVec 8) (x : Session), WriteTaken s h 0x2315 (c.val + 1) (u8 v.toNat) x ∧ ((s.chan c.val).st = .ready ∨ (s.chan c.val).st = .selfRefresh) ∧ v.toNat ≠ (s.chan c.val).point) ∧
    (∃ (s : State) (h : Hdr) (c : Chan) (v : BitVec 8) (x : Session), WriteTaken s h 0x2315 (c.val + 1) (u8 v.toNat) x ∧ (s.chan c.val).st = .untrained) ∧
    (∃ (s : State) (h : Hdr) (c : Chan) (v : BitVec 8) (x : Session), WriteTaken s h 0x2315 (c.val + 1) (u8 v.toNat) x ∧ (s.chan c.val).st = .frozen) ∧
    (∃ (s : State) (c : Chan), (s.chan c.val).st = .freqChange ∧ (s.chan c.val).leaving = none ∧ (s.chan c.val).step ≠ 0 ∧ s.on (chanDomain c.val) = true ∧ s.retainPending c.val = false ∧ (s.chan c.val).pendingPoint = none ∧ (s.chan c.val).storedAt (s.chan c.val).point = true) ∧
    (∃ (s : State) (c : Chan), (s.chan c.val).st = .freqChange ∧ (s.chan c.val).leaving = none ∧ (s.chan c.val).step ≠ 0 ∧ s.on (chanDomain c.val) = true ∧ s.retainPending c.val = false ∧ (s.chan c.val).pendingPoint = none ∧ (s.chan c.val).storedAt (s.chan c.val).point = false) ∧
    (∃ (s : State) (h : Hdr) (c : Chan) (x : Session), WriteTaken s h 0x2310 (c.val + 1) (u8 0) x) ∧
    (∃ (s : State) (h : Hdr) (c : Chan) (x : Session), WriteTaken s h 0x2310 (c.val + 1) (u8 1) x ∧ (s.chan c.val).st = .disabled) ∧
    (∃ (s : State) (h : Hdr) (j : BitVec 8) (v : Bytes) (x : Session), WriteTaken s h 0x2311 j.toNat v x ∧ 1 ≤ j.toNat ∧ j.toNat ≤ 4 ∧ (leNat v = 1 ∨ leNat v = 2 ∧ s.num 0x2312 j.toNat = 16)) ∧
    (∃ (s : State) (h : Hdr) (j : BitVec 8) (v : Bytes) (x : Session), WriteTaken s h 0x2312 j.toNat v x ∧ 1 ≤ j.toNat ∧ j.toNat ≤ 4 ∧ (s.num 0x2311 j.toNat = 1 ∨ s.num 0x2311 j.toNat = 2 ∧ leNat v = 16)) ∧
    (∃ (s : State) (h : Hdr) (j : BitVec 8) (v : Bytes) (x : Session), 1 ≤ j.toNat ∧ j.toNat ≤ 4 ∧ WriteTaken s h 0x2313 j.toNat v x) ∧
    (∃ (s : State) (h : Hdr) (j : BitVec 8) (v : Bytes) (x : Session), 1 ≤ j.toNat ∧ j.toNat ≤ 4 ∧ WriteTaken s h 0x2314 j.toNat v x) ∧
    (∃ (s : State) (h : Hdr) (j : BitVec 8) (v : Bytes) (x : Session), WriteTaken s h 0x2311 j.toNat v x ∧ 1 ≤ j.toNat ∧ leNat v ≠ 1 ∧ s.num 0x2312 j.toNat ≠ 16) ∧
    (∃ (s : State) (h : Hdr) (c : Chan) (v : BitVec 32) (x : Session), WriteTaken s h 0x231C (c.val + 1) (u32 v.toNat) x) :=
  ⟨⟨chanIn .untrained, hd (4 + ((u8 1)).length), 0, ses, writeTaken_of_writes (by decide), by decide, by decide⟩,
    ⟨chanIn .untrained, hd (4 + ((u8 3)).length), 0, ses, writeTaken_of_writes (by decide), by decide, by decide⟩,
    ⟨chanIn .frozen, hd (4 + ((u8 1)).length), 0, ses, writeTaken_of_writes (by decide), by decide⟩,
    ⟨chanIn .training, hd (4 + ((u8 1)).length), 0, ses, writeTaken_of_writes (by decide), by decide, by decide⟩,
    ⟨training id, 0, by decide, by decide, by decide, by decide⟩,
    ⟨training id, 0, by decide, by decide, by decide⟩,
    ⟨training id, 0, by decide, by decide, by decide, by decide, by decide, by decide⟩,
    ⟨training fun m => { m with pendingPoint := some 1 }, 0, (1 : Nat), TrainOutcome.done, by decide, by decide, by decide, by decide, by decide, by decide⟩,
    ⟨chanIn .ready, hd (4 + ((u8 (1 : BitVec 8).toNat)).length), 0, 1, ses, writeTaken_of_writes (by decide), by decide, by decide⟩,
    ⟨chanIn .untrained, hd (4 + ((u8 (1 : BitVec 8).toNat)).length), 0, 1, ses, writeTaken_of_writes (by decide), by decide⟩,
    ⟨chanIn .frozen, hd (4 + ((u8 (1 : BitVec 8).toNat)).length), 0, 1, ses, writeTaken_of_writes (by decide), by decide⟩,
    ⟨(chanIn .freqChange).modChan 0 fun m => { m with step := 8, stored0 := true }, 0, by decide, by decide, by decide, by decide, by decide, by decide, by decide⟩,
    ⟨(chanIn .freqChange).modChan 0 fun m => { m with step := 8 }, 0, by decide, by decide, by decide, by decide, by decide, by decide, by decide⟩,
    ⟨chanIn .ready, hd (4 + ((u8 0)).length), 0, ses, writeTaken_of_writes (by decide)⟩,
    ⟨up, hd (4 + ((u8 1)).length), 0, ses, writeTaken_of_writes (by decide), by decide⟩,
    ⟨up, hd (4 + ((([1] : Bytes))).length), 1, ([1] : Bytes), ses, writeTaken_of_writes (by decide), by decide, by decide, by decide⟩,
    ⟨up, hd (4 + ((([24] : Bytes))).length), 1, ([24] : Bytes), ses, writeTaken_of_writes (by decide), by decide, by decide, by decide⟩,
    ⟨up, hd (4 + ((([0xE0, 0x15] : Bytes))).length), 1, ([0xE0, 0x15] : Bytes), ses, by decide, by decide, writeTaken_of_writes (by decide)⟩,
    ⟨up, hd (4 + ((([0xE0, 0x15] : Bytes))).length), 1, ([0xE0, 0x15] : Bytes), ses, by decide, by decide, writeTaken_of_writes (by decide)⟩,
    ⟨up.setNum 0x2312 1 24, hd (4 + ((([2] : Bytes))).length), 1, ([2] : Bytes), ses, writeTaken_of_writes (by decide), by decide, by decide, by decide⟩,
    ⟨up, hd (4 + ((u32 (7 : BitVec 32).toNat)).length), 0, 7, ses, writeTaken_of_writes (by decide)⟩⟩

theorem witness_FrozenChannelsAreReleased :
    (∃ (s : State) (h : Hdr) (c : Chan) (x : Session), WriteTaken s h 0x2336 (c.val + 1) (u8 1) x ∧ (s.chan c.val).st = .frozen ∧ (s.chan c.val).waiting = []) ∧
    (∃ (s : State) (h : Hdr) (c : Chan) (x : Session), WriteTaken s h 0x2336 (c.val + 1) (u8 2) x ∧ (s.chan c.val).st = .frozen ∧ (s.chan c.val).waiting = []) ∧
    (∃ (s : State) (h : Hdr) (c : Chan) (x : Session), WriteTaken s h 0x2336 (c.val + 1) (u8 3) x ∧ (s.chan c.val).st = .frozen) ∧
    (∃ (s : State) (h : Hdr) (c : Chan) (x : Session) (v : Nat) (k : Instr), (v, k) ∈ [(1, Instr.channelReleaseIssue h c), (2, .channelReleaseDiscard h c), (3, .channelReleaseRetrain h c)] ∧ WriteTaken s h 0x2336 (c.val + 1) (u8 v) x ∧ (s.chan c.val).st ≠ .frozen) :=
  ⟨⟨chanIn .frozen, hd (4 + ((u8 1)).length), 0, ses, writeTaken_of_writes (by decide), by decide, by decide⟩,
    ⟨chanIn .frozen, hd (4 + ((u8 2)).length), 0, ses, writeTaken_of_writes (by decide), by decide, by decide⟩,
    ⟨chanIn .frozen, hd (4 + ((u8 3)).length), 0, ses, writeTaken_of_writes (by decide), by decide⟩,
    ⟨chanIn .ready, hd (4 + ((u8 ((1 : Nat)))).length), 0, ses, (1 : Nat), Instr.channelReleaseIssue (hd 5) 0, by decide, writeTaken_of_writes (by decide), by decide⟩⟩

theorem witness_PositionsAreCounted :
    (∃ (s : State) (n : PosCh) (a : Bool) (b : Bool), s.on domCTL = true ∧ s.chMode n.val = 1 ∧ ((s.pch n.val).a ≠ a ↔ (s.pch n.val).b = b)) ∧
    (∃ (s : State) (n : PosCh) (a : Bool) (b : Bool), s.on domCTL = true ∧ s.chMode n.val = 1 ∧ (s.pch n.val).a ≠ a ∧ (s.pch n.val).b ≠ b) ∧
    (∃ (s : State) (n : PosCh), (s.on domCTL = false ∨ s.chMode n.val ≠ 1)) ∧
    (∃ (s : State) (n : PosCh) (x : BitVec 3) (r : Nat), s.on domCTL = true ∧ s.chMode n.val = 3 ∧ (s.pch n.val).uvw ≠ x.toNat ∧ x ≠ 0 ∧ x ≠ 7 ∧ (s.pch n.val).hallRef = some r ∧ hallPlace x.toNat = (hallPlace r + 1) % 6 ∧ s.num 0x2513 (n.val + 1) = 0 ∧ r ≠ x.toNat) ∧
    (∃ (s : State) (n : PosCh) (x : BitVec 3), s.on domCTL = true ∧ s.chMode n.val = 3 ∧ (s.pch n.val).uvw ≠ x.toNat ∧ (x = 0 ∨ x = 7)) ∧
    (∃ (s : State) (n : PosCh), s.on domCTL = true ∧ s.chMode n.val = 1) ∧
    (∃ (s : State) (n : PosCh), s.on domCTL = true ∧ s.chMode n.val = 2) ∧
    (∃ (s : State) (n : PosCh) (raw : BitVec 32) (e : Bool) (k : Nat) (p : Nat), s.on domCTL = true ∧ s.chMode n.val = 2 ∧ (s.pch n.val).ssiStart = some k ∧ (bit (s.num 0x2516 (n.val + 1)) 7 && e) = false ∧ bit (s.num 0x2516 (n.val + 1)) 6 = false ∧ bits (s.num 0x2516 (n.val + 1)) 5 0 = 32 ∧ (s.pch n.val).ssiRaw = some p ∧ s.num 0x2513 (n.val + 1) = 0 ∧ (toSigned 32 (raw.toNat + 2 ^ 32 - p)).natAbs ≤ 2 ^ 30) ∧
    (∃ (s : State) (n : PosCh) (e : Bool) (k : Nat) (low : Bool) (q : Nat), s.on domCTL = true ∧ s.chMode n.val = 2 ∧ (s.pch n.val).ssiStart = some k ∧ ((bit (s.num 0x2516 (n.val + 1)) 7 && e) = true ∧ q = 1 ∨ (bit (s.num 0x2516 (n.val + 1)) 7 && e) = false ∧ low = true ∧ q = 2)) ∧
    (∃ (s : State), s.on domCTL = true) ∧
    (∃ (s : State) (h : Hdr) (n : PosCh) (v : BitVec 8) (x : Session), WriteTaken s h 0x2510 (n.val + 1) (u8 v.toNat) x ∧ (v ≠ 3 ∨ 8 ≤ n.val) ∧ (v ≠ 2 ∨ ssiFits (s.num 0x2516 (n.val + 1)) (s.num 0x2517 (n.val + 1)) = true) ∧ sharedOk (withVal s.obj 0x2510 (n.val + 1) (.num v.toNat)) = true) ∧
    (∃ (s : State) (h : Hdr) (n : PosCh) (v : BitVec 8) (x : Session), WriteTaken s h 0x2510 (n.val + 1) (u8 v.toNat) x ∧ v = 3 ∧ n.val < 8) ∧
    (∃ (s : State) (h : Hdr) (n : PosCh) (v : BitVec 8) (x : Session), WriteTaken s h 0x2510 (n.val + 1) (u8 v.toNat) x ∧ v = 2 ∧ ssiFits (s.num 0x2516 (n.val + 1)) (s.num 0x2517 (n.val + 1)) = false) :=
  ⟨⟨chanMode 1 id, 0, true, false, by decide, by decide, by decide⟩,
    ⟨chanMode 1 id, 0, true, true, by decide, by decide, by decide, by decide⟩,
    ⟨up, 0, by decide⟩,
    ⟨hall fun c => { c with hallRef := some 1, uvw := 1 }, 8, 3, (1 : Nat), by decide, by decide, by decide, by decide, by decide, by decide, by decide, by decide, by decide⟩,
    ⟨hall id, 8, 7, by decide, by decide, by decide, by decide⟩,
    ⟨chanMode 1 id, 0, by decide, by decide⟩,
    ⟨chanMode 2 id, 0, by decide, by decide⟩,
    ⟨(chanMode 2 fun c => { c with ssiStart := some 7, ssiRaw := some 5 }).setNum 0x2516 1 0x04001420, 0, 9, false, (7 : Nat), (5 : Nat), by decide, by decide, by decide, by decide, by decide, by decide, by decide, by decide, by decide⟩,
    ⟨chanMode 2 fun c => { c with ssiStart := some 7, ssiRaw := some 5 }, 0, false, (7 : Nat), true, (2 : Nat), by decide, by decide, by decide, by decide⟩,
    ⟨up, by decide⟩,
    ⟨up, hd (4 + ((u8 (1 : BitVec 8).toNat)).length), 0, 1, ses, writeTaken_of_writes (by decide), by decide, by decide, by decide⟩,
    ⟨up, hd (4 + ((u8 (3 : BitVec 8).toNat)).length), 0, 3, ses, writeTaken_of_writes (by decide), by decide, by decide⟩,
    ⟨up.setNum 0x2517 1 1, hd (4 + ((u8 (2 : BitVec 8).toNat)).length), 0, 2, ses, writeTaken_of_writes (by decide), by decide, by decide⟩⟩

theorem witness_MarksAndPinsAct :
    (∃ (s : State) (b : Bar), s.on domCTL = true ∧ (s.pwr.dev = .armed ∨ s.pwr.dev = .printing) ∧ s.num 0x2620 1 ≠ 1 ∧ (s.clk b.val).st = .waiting ∧ (s.bar b.val).run = .waiting) ∧
    (∃ (s : State) (b : Bar), s.on domCTL = true ∧ (s.pwr.dev = .armed ∨ s.pwr.dev = .printing) ∧ s.num 0x2620 1 = 1 ∧ b.val = 0 ∧ (∃ i, i < 8 ∧ (s.clk i).st = .waiting ∧ (s.bar i).run = .waiting)) ∧
    (∃ (s : State) (b : Bar), s.on domCTL = true ∧ s.num 0x2620 1 ≠ 1 ∧ ((s.clk b.val).st ≠ .waiting ∨ s.inStates [.armed, .printing] = false)) ∧
    (∃ (s : State) (u : CmpUnit) (k : Nat) (rest : List Nat), (s.unit u.val).due = k :: rest) ∧
    (∃ (s : State) (u : CmpUnit), (s.unit u.val).pulse = true) ∧
    (∃ (s : State) (n : Fin 16) (v : Bool), s.on domCTL = true ∧ bit (s.num 0x2E10 1) n.val ≠ v) ∧
    (∃ (s : State), s.on domCTL = true ∧ s.num 0x2E20 4 ≠ 0) ∧
    (∃ (s : State) (h : Hdr) (v : BitVec 16) (x : Session), WriteTaken s h 0x2E20 1 (u16 v.toNat) x) ∧
    (∃ (s : State), s.fireEn = true) ∧
    (∃ (s : State), s.fireEn = false) ∧
    (∃ (s : State), s.on domCTL = true ∧ s.advises = false) ∧
    (∃ (s : State) (b : Nat) (v : Nat), s.on domCTL = true ∧ s.advises = true ∧ (∀ i ∈ s.jobBars, s.num 0x251B (barChannel s.obj i + 1) ≠ 0) ∧ s.adviceHead (fun i => (s.num 0x2610 (i + 1) : Rat) / (s.num 0x251B (barChannel s.obj i + 1) : Rat)) (((10000 - s.num 0x2931 5 : Nat) : Rat) / 10000) = some (b, v) ∧ v < 65536) ∧
    (∃ (s : State), s.on domCTL = true ∧ s.num 0x2931 1 ≠ 0) ∧
    (∃ (s : State) (p : OutPin), (s.pwr.dev = .off ∨ s.pwr.dev = .reset ∨ s.pwr.dev = .boot) ∧ p ≠ .errN) ∧
    (∃ (s : State), s.pwr.dev = .frozen) ∧
    (∃ (s : State), s.pwr.dev = .frozen) :=
  ⟨⟨awaiting 0 (upIn .armed), 0, by decide, by decide, by decide, by decide, by decide⟩,
    ⟨awaiting 3 ((upIn .armed).setNum 0x2620 1 1), 0, by decide, by decide, by decide, by decide, ⟨3, by decide, by decide, by decide⟩⟩,
    ⟨up, 0, by decide, by decide, by decide⟩,
    ⟨{ up with cmp := vmod up.cmp 0 fun c => { c with due := [5, 6] } }, 0, (5 : Nat), [6], by decide⟩,
    ⟨{ up with cmp := vmod up.cmp 0 fun c => { c with pulse := true } }, 0, by decide⟩,
    ⟨up, 3, true, by decide, by decide⟩,
    ⟨up.setNum 0x2E20 4 5, by decide, by decide⟩,
    ⟨up, hd (4 + ((u16 (9 : BitVec 16).toNat)).length), 9, ses, writeTaken_of_writes (by decide)⟩,
    ⟨{ up with fireEn := true }, by decide⟩,
    ⟨up, by decide⟩,
    ⟨up, by decide, by decide⟩,
    ⟨printing.setNum 0x2410 2 0, (0 : Nat), ((((printing.setNum 0x2410 2 0).adviceHead (fun i => (up.num 0x2610 (i + 1) : Rat) / (up.num 0x251B (i + 1) : Rat)) (((10000 - up.num 0x2931 5 : Nat) : Rat) / 10000)).getD (0, 0)).2), by decide, by decide, (by decide +kernel), (by decide +kernel), (by decide +kernel)⟩,
    ⟨up.setNum 0x2931 1 1, by decide, by decide⟩,
    ⟨upIn .boot, OutPin.out 3, by decide, by decide⟩,
    ⟨upIn .frozen, by decide⟩,
    ⟨upIn .frozen, by decide⟩⟩

theorem witness_EnginesComputeSliceLines :
    (∃ (s : State) (n : Engine) (j : SliceJob) (e : Entry), s.front n.val = some (j, e) ∧ j.slice < 16) ∧
    (∃ (s : State) (n : Engine) (j : SliceJob) (e : Entry) (c : BitVec 8), s.front n.val = some (j, e) ∧ j.slice < 16 ∧ c ≠ 0) ∧
    (∃ (s : State) (n : Engine) (j : SliceJob) (e : Entry), s.front n.val = some (j, e) ∧ j.slice < 16) ∧
    (∃ (s : State) (n : Engine), s.front n.val = none) ∧
    (∃ (s : State) (n : Engine), s.front n.val = none) ∧
    (∃ (s : State) (h : Hdr) (b : Bar) (v : BitVec 32) (x : Session), WriteTaken s h 0x2712 (b.val + 1) (u32 v.toNat) x) ∧
    (∃ (s : State) (h : Hdr) (b : Bar) (v : BitVec 32) (x : Session), Accepted s h 0x12 (u16 0x2712 ++ u8 (b.val + 1) ++ u8 0 ++ u32 v.toNat) x ∧ x.version ≠ 1 ∧ 1 ≤ x.level ∧ 512 < zonesOf (s.map b.val) v.toNat) :=
  ⟨⟨slicing, 0, sliceJob, entry, by decide, by decide⟩,
    ⟨slicing, 0, sliceJob, entry, 4, by decide, by decide, by decide⟩,
    ⟨slicing, 0, sliceJob, entry, by decide, by decide⟩,
    ⟨up, 0, by decide⟩,
    ⟨up, 0, by decide⟩,
    ⟨up.setObj 0x2710 1 (.bytes aMap), hd (4 + ((u32 (64 : BitVec 32).toNat)).length), 0, 64, ses, writeTaken_of_writes (by decide)⟩,
    ⟨up.setObj 0x2710 1 (.bytes (u64 (131071 * 2 ^ 31))), hd ((u16 0x2712 ++ u8 ((0 : Bar).val + 1) ++ u8 0 ++ u32 (32 : BitVec 32).toNat) : Bytes).length, 0, 32, ses, accepted_of_takes (by decide), by decide, by decide, by decide⟩⟩

theorem witness_LinesArePreparedAndFired :
    (∃ (s : State) (b : Bar), s.on domCTL = true ∧ (s.bar b.val).ready = true ∧ (s.bar b.val).prepared = none ∧ (s.bar b.val).firing = none ∧ s.halted = false ∧ (s.bar b.val).run = .printing ∧ (s.bar b.val).waiting = [] ∧ bit (s.adm 0x29).pending b.val = false) ∧
    (∃ (s : State) (b : Bar), s.on domCTL = true ∧ (s.bar b.val).ready = true ∧ (s.bar b.val).prepared = none ∧ (s.bar b.val).firing = none ∧ s.halted = false ∧ (s.bar b.val).run = .printing ∧ (s.bar b.val).waiting = [] ∧ bit (s.adm 0x29).pending b.val = true) ∧
    (∃ (s : State) (b : Bar), ((s.bar b.val).ready = false ∨ (s.bar b.val).prepared.isSome = true ∨ s.halted = true)) ∧
    (∃ (s : State) (l : Lane) (k : Token) (rest : List Token) (f : Firing), (s.lane l.val).tokens = k :: rest ∧ s.owning l.val = true ∧ k.late = false ∧ k.bar < 8 ∧ s.fsq.fireEdge = none ∧ (s.bar k.bar).firing = some f ∧ f.lanes.filter (· != l.val) ≠ []) ∧
    (∃ (s : State) (l : Lane) (k : Token) (rest : List Token) (f : Firing), (s.lane l.val).tokens = k :: rest ∧ s.owning l.val = true ∧ k.late = false ∧ k.bar < 8 ∧ s.fsq.fireEdge = none ∧ (s.bar k.bar).firing = some f ∧ f.lanes.filter (· != l.val) = []) ∧
    (∃ (s : State) (l : Lane), ((s.lane l.val).tokens = [] ∨ s.owning l.val = false)) ∧
    (∃ (s : State) (b : Bar), (s.bar b.val).overspeed = true ∧ 64 ≤ (s.bar b.val).sinceDrop) ∧
    (∃ (s : State) (b : Bar), (s.bar b.val).sinceDrop < 64) ∧
    (∃ (s : State) (b : Bar), (s.bar b.val).lateEp = true ∧ 64 ≤ (s.bar b.val).sinceLate) ∧
    (∃ (s : State) (b : Bar), (s.bar b.val).sinceLate < 64) :=
  ⟨⟨printing, 0, by decide, by decide, by decide, by decide, by decide, by decide, by decide, by decide⟩,
    ⟨printing.modAdm 0x29 fun a => { a with pending := 1, result := 1 }, 0, by decide, by decide, by decide, by decide, by decide, by decide, by decide, by decide⟩,
    ⟨up, 0, by decide⟩,
    ⟨tokens [0, 1], 0, token, ([] : List Token), firing [0, 1], by decide, by decide, by decide, by decide, by decide, by decide, by decide⟩,
    ⟨tokens [0], 0, token, ([] : List Token), firing [0], by decide, by decide, by decide, by decide, by decide, by decide, by decide⟩,
    ⟨up, 0, by decide⟩,
    ⟨up.modBar 0 fun x => { x with overspeed := true, sinceDrop := 64 }, 0, by decide, by decide⟩,
    ⟨up, 0, by decide⟩,
    ⟨up.modBar 0 fun x => { x with lateEp := true, sinceLate := 64 }, 0, by decide, by decide⟩,
    ⟨up, 0, by decide⟩⟩

theorem witness_LanesComeUp :
    (∃ (s : State) (l : Lane), (s.lane l.val).st = .waking) ∧
    (∃ (s : State) (l : Lane), (s.lane l.val).st ≠ .waking) ∧
    (∃ (s : State) (l : Lane) (c : Instr) (k : Nat) (st : LaneSt), (c, k, st) ∈ [(Instr.laneWakeTimeout l, 1, LaneSt.waking), (.laneAlignTimeout l, 2, .aligning), (.laneCapTimeout l, 3, .capability)] ∧ (s.lane l.val).st = st ∧ (k = 2 → s.num 0x2A20 2 = 0)) ∧
    (∃ (s : State) (l : Lane) (c : Instr) (k : Nat) (st : LaneSt), (c, k, st) ∈ [(Instr.laneWakeTimeout l, 1, LaneSt.waking), (.laneAlignTimeout l, 2, .aligning), (.laneCapTimeout l, 3, .capability)] ∧ (s.lane l.val).st ≠ st) ∧
    (∃ (s : State), s.num 0x2A20 2 ≠ 0) ∧
    (∃ (s : State), s.num 0x2A20 2 ≠ 0) ∧
    (∃ (s : State) (l : Lane), (s.lane l.val).st = .aligning ∧ s.num 0x2A20 2 = 0) ∧
    (∃ (s : State) (l : Lane), (s.lane l.val).st = .aligning) ∧
    (∃ (s : State) (l : Lane), (s.lane l.val).st = .resuming ∧ (s.lane l.val).tx.burst = 0) ∧
    (∃ (s : State) (l : Lane), (s.lane l.val).st = .resuming ∧ (s.lane l.val).tx.burst ≠ 0) ∧
    (∃ (s : State) (h : Hdr) (l : Lane) (x : Session), WriteTaken s h 0x2A18 (l.val + 1) (u8 1) x ∧ s.num 0x2A20 2 = 1 ∧ (s.lane l.val).st = .aligning) ∧
    (∃ (s : State) (h : Hdr) (l : Lane) (x : Session), WriteTaken s h 0x2A18 (l.val + 1) (u8 1) x ∧ (s.num 0x2A20 2 ≠ 1 ∨ (s.lane l.val).st ≠ .aligning)) ∧
    (∃ (s : State) (l : Lane), (s.lane l.val).st = .capability ∧ (s.lane l.val).chosen = 0) ∧
    (∃ (s : State) (l : Lane), ((s.lane l.val).st ≠ .capability ∨ (s.lane l.val).chosen ≠ 0)) ∧
    (∃ (s : State) (l : Lane) (c : CapUp), (s.lane l.val).st = .capability ∧ (s.lane l.val).chosen = 0 ∧ (if s.mir.role = .solo then 1 else 2) ≤ c.versions &&& s.num 0x2A20 5 &&& 7) ∧
    (∃ (s : State) (l : Lane) (c : CapUp), (s.lane l.val).st = .capability ∧ (s.lane l.val).chosen = 0 ∧ c.versions &&& s.num 0x2A20 5 &&& 7 < (if s.mir.role = .solo then 1 else 2)) ∧
    (∃ (s : State) (l : Lane) (c : CapUp), (s.lane l.val).st = .capability ∧ (s.lane l.val).chosen ≠ 0 ∧ c.chosen = (s.lane l.val).chosen ∧ s.capOk l.val c = true) ∧
    (∃ (s : State) (l : Lane) (c : CapUp), (s.lane l.val).st = .capability ∧ (s.lane l.val).chosen ≠ 0 ∧ c.chosen = (s.lane l.val).chosen ∧ s.capOk l.val c = false) ∧
    (∃ (s : State) (l : Lane) (c : CapUp) (g : BitVec 16), (s.lane l.val).st = .latency ∧ (s.lane l.val).cap = some c ∧ (s.lane l.val).probeOut = some g.toNat ∧ (s.lane l.val).probes.length < 15) ∧
    (∃ (s : State) (l : Lane) (c : CapUp) (g : BitVec 16) (q : BitVec 32) (r : Nat), (s.lane l.val).st = .latency ∧ (s.lane l.val).cap = some c ∧ (s.lane l.val).probeOut = some g.toNat ∧ (s.lane l.val).probes.length = 15 ∧ 5 * spreadOf ((s.lane l.val).probes ++ [oneWay c r q.toNat]) ≤ 132) ∧
    (∃ (s : State) (l : Lane) (c : CapUp) (g : BitVec 16) (q : BitVec 32) (r : Nat), (s.lane l.val).st = .latency ∧ (s.lane l.val).cap = some c ∧ (s.lane l.val).probeOut = some g.toNat ∧ (s.lane l.val).probes.length = 15 ∧ (s.lane l.val).rounds = 2 ∧ 132 < 5 * spreadOf ((s.lane l.val).probes ++ [oneWay c r q.toNat])) ∧
    (∃ (s : State) (l : Lane) (q : BitVec 8), (s.lane l.val).tablesOut.contains q.toNat = true ∧ (s.lane l.val).tablesOut.filter (· != q.toNat) = [] ∧ (s.lane l.val).st = .tables) ∧
    (∃ (s : State) (l : Lane) (q : BitVec 8), (s.lane l.val).tablesOut.contains q.toNat = true ∧ (s.lane l.val).tablesOut.filter (· != q.toNat) ≠ []) ∧
    (∃ (r : BitVec 8), r ≠ 0) ∧
    (∃ (s : State) (l : Lane), (s.lane l.val).tablesOut ≠ [] ∧ ((s.lane l.val).st = .tables ∨ (s.lane l.val).st = .trained)) ∧
    (∃ (s : State) (l : Lane), (s.lane l.val).tablesOut = []) :=
  ⟨⟨laneIn .waking id, 0, by decide⟩,
    ⟨up, 0, by decide⟩,
    ⟨laneIn .aligning id, 0, Instr.laneAlignTimeout 0, (2 : Nat), LaneSt.aligning, by decide, by decide, by decide⟩,
    ⟨laneIn .waking id, 0, Instr.laneAlignTimeout 0, (2 : Nat), LaneSt.aligning, by decide, by decide⟩,
    ⟨(laneIn .aligning id).setNum 0x2A20 2 1, by decide⟩,
    ⟨(laneIn .aligning id).setNum 0x2A20 2 1, by decide⟩,
    ⟨(laneIn .aligning id).setNum 0x2A19 1 5, 0, by decide, by decide⟩,
    ⟨laneIn .aligning id, 0, by decide⟩,
    ⟨laneIn .resuming id, 0, by decide, by decide⟩,
    ⟨laneIn .resuming fun x => { x with tx := { x.tx with burst := 9 } }, 0, by decide, by decide⟩,
    ⟨(laneIn .aligning id).setNum 0x2A20 2 1, hd (4 + ((u8 1)).length), 0, ses, writeTaken_of_writes (by decide), by decide, by decide⟩,
    ⟨laneIn .aligning id, hd (4 + ((u8 1)).length), 0, ses, writeTaken_of_writes (by decide), by decide⟩,
    ⟨laneIn .capability id, 0, by decide, by decide⟩,
    ⟨up, 0, by decide⟩,
    ⟨laneIn .capability id, 0, cap, by decide, by decide, by decide⟩,
    ⟨laneIn .capability id, 0, { cap with versions := 8 }, by decide, by decide, by decide⟩,
    ⟨laneIn .capability fun x => { x with chosen := 3 }, 0, cap, by decide, by decide, by decide, by decide⟩,
    ⟨laneIn .capability fun x => { x with chosen := 3 }, 0, { cap with headCount := 3 }, by decide, by decide, by decide, by decide⟩,
    ⟨laneIn .latency fun x => { x with cap := some cap, probeOut := some 4, probes := [100, 101, 102] }, 0, cap, 4, by decide, by decide, by decide, by decide⟩,
    ⟨laneIn .latency fun x => { x with cap := some cap, probeOut := some 16, probes := List.replicate 15 450 }, 0, cap, 16, 50, (300 : Nat), by decide, by decide, by decide, by decide, by decide⟩,
    ⟨laneIn .latency fun x => { x with cap := some cap, probeOut := some 16, probes := List.replicate 15 10, rounds := 2 }, 0, cap, 16, 50, (300 : Nat), by decide, by decide, by decide, by decide, by decide, by decide⟩,
    ⟨laneIn .tables fun x => { x with tablesOut := [4] }, 0, 4, by decide, by decide, by decide⟩,
    ⟨laneIn .tables fun x => { x with tablesOut := [4, 5] }, 0, 4, by decide, by decide⟩,
    ⟨1, by decide⟩,
    ⟨laneIn .tables fun x => { x with tablesOut := [4, 5] }, 0, by decide, by decide⟩,
    ⟨up, 0, by decide⟩⟩

theorem witness_LanesInUse :
    (∃ (s : State) (l : Lane), s.owning l.val = true ∧ s.mir.role = .solo) ∧
    (∃ (s : State) (l : Lane), s.owning l.val = true ∧ s.mir.role = .active ∧ (s.mir.st = .lone ∨ s.mir.st = .cold)) ∧
    (∃ (s : State) (l : Lane), s.owning l.val = false) ∧
    (∃ (s : State) (l : Lane), s.on domHLK = true ∧ (s.lane l.val).st = .trained ∧ s.owning l.val = false) ∧
    (∃ (s : State) (l : Lane), s.on domHLK = true ∧ (s.lane l.val).st = .trained ∧ s.owning l.val = true) ∧
    (∃ (s : State) (l : Lane), s.on domHLK = true ∧ (s.lane l.val).st = .trained) ∧
    (∃ (s : State) (l : Lane), (s.lane l.val).st ≠ .trained) ∧
    (∃ (s : State) (l : Lane), (s.lane l.val).st ≠ .trained) ∧
    (∃ (s : State) (l : Lane), (s.lane l.val).st ≠ .trained) ∧
    (∃ (s : State) (l : Lane), (s.lane l.val).st ≠ .trained) ∧
    (∃ (s : State) (l : Lane), (s.lane l.val).st ≠ .trained) ∧
    (∃ (s : State) (l : Lane), (s.lane l.val).st = .trained ∧ (s.lane l.val).version = 3) ∧
    (∃ (s : State) (l : Lane) (c : CapUp) (g : BitVec 16) (q : BitVec 32) (r : Nat) (w : Int), (s.lane l.val).st = .trained ∧ (s.lane l.val).cap = some c ∧ (s.lane l.val).probeOut = some g.toNat ∧ oneWay c r q.toNat = 2 * w ∧ 0 ≤ w) ∧
    (∃ (s : State) (l : Lane), s.on domHLK = true ∧ (s.lane l.val).lock = true) ∧
    (∃ (s : State) (l : Lane), (s.lane l.val).lock = false) ∧
    (∃ (s : State) (l : Lane), (s.lane l.val).st = .trained) ∧
    (∃ (s : State) (l : Lane), (s.lane l.val).st = .trained) ∧
    (∃ (s : State) (h : Hdr) (l : Lane) (x : Session) (v : Nat) (c : Instr), (v, c) ∈ [(1, Instr.laneRetrain h l), (2, .laneEnterTest h l), (3, .laneLeaveTest h l)] ∧ WriteTaken s h 0x2A1F (l.val + 1) (u8 v) x ∧ s.boltedLane l.val = true) ∧
    (∃ (s : State) (h : Hdr) (l : Lane) (x : Session) (v : Nat) (c : Instr), (v, c) ∈ [(1, Instr.laneRetrain h l), (2, .laneEnterTest h l), (3, .laneLeaveTest h l)] ∧ WriteTaken s h 0x2A1F (l.val + 1) (u8 v) x ∧ s.boltedLane l.val = false ∧ (v = 1 ∧ (s.lane l.val).st ≠ .down ∨ v = 2 ∧ (s.lane l.val).st ≠ .deep ∨ v = 3 ∧ (s.lane l.val).st ≠ .test)) ∧
    (∃ (s : State) (h : Hdr) (l : Lane) (x : Session) (v : Nat) (c : Instr), (v, c) ∈ [(1, Instr.laneRetrain h l), (2, .laneEnterTest h l), (3, .laneLeaveTest h l)] ∧ WriteTaken s h 0x2A1F (l.val + 1) (u8 v) x ∧ s.boltedLane l.val = false ∧ v = 1 ∧ (s.lane l.val).st = .down ∧ s.inStates [.configured, .armed, .printing, .held] = true) ∧
    (∃ (s : State) (h : Hdr) (l : Lane) (x : Session) (v : Nat) (c : Instr), (v, c) ∈ [(1, Instr.laneRetrain h l), (2, .laneEnterTest h l), (3, .laneLeaveTest h l)] ∧ WriteTaken s h 0x2A1F (l.val + 1) (u8 v) x ∧ s.boltedLane l.val = false ∧ v = 2 ∧ (s.lane l.val).st = .deep ∧ s.inStates [.standby, .configured] = true) ∧
    (∃ (s : State) (h : Hdr) (l : Lane) (x : Session) (v : Nat) (c : Instr), (v, c) ∈ [(1, Instr.laneRetrain h l), (2, .laneEnterTest h l), (3, .laneLeaveTest h l)] ∧ WriteTaken s h 0x2A1F (l.val + 1) (u8 v) x ∧ s.boltedLane l.val = false ∧ v = 3 ∧ (s.lane l.val).st = .test) ∧
    (∃ (s : State) (h : Hdr) (l : Lane) (x : Session) (v : Nat) (c : Instr) (n : Nat), (v, c, n) ∈ [(1, Instr.testInjectBit h l, 1), (2, .testInjectBurst h l, max 1 (bits (s.num 0x2A30 (l.val + 1)) 7 0))] ∧ WriteTaken s h 0x2A31 (l.val + 1) (u8 v) x ∧ (s.lane l.val).st = .test ∧ (s.lane l.val).checker = true ∧ bits (s.num 0x2A30 (l.val + 1)) 13 11 = 7) ∧
    (∃ (s : State) (h : Hdr) (l : Lane) (x : Session) (v : Nat) (c : Instr) (n : Nat), (v, c, n) ∈ [(1, Instr.testInjectBit h l, 1), (2, .testInjectBurst h l, max 1 (bits (s.num 0x2A30 (l.val + 1)) 7 0))] ∧ WriteTaken s h 0x2A31 (l.val + 1) (u8 v) x ∧ (s.lane l.val).st = .test ∧ (s.lane l.val).checker = false) ∧
    (∃ (s : State) (h : Hdr) (l : Lane) (x : Session) (v : Nat) (c : Instr) (n : Nat), (v, c, n) ∈ [(1, Instr.testInjectBit h l, 1), (2, .testInjectBurst h l, max 1 (bits (s.num 0x2A30 (l.val + 1)) 7 0))] ∧ WriteTaken s h 0x2A31 (l.val + 1) (u8 v) x ∧ (s.lane l.val).st ≠ .test) ∧
    (∃ (s : State) (l : Lane), (s.lane l.val).st = .test ∧ bit (s.num 0x2A30 (l.val + 1)) 12 = true) ∧
    (∃ (s : State) (l : Lane), (s.lane l.val).st ≠ .test) ∧
    (∃ (s : State) (l : Lane), (s.lane l.val).checker = true) ∧
    (∃ (s : State) (l : Lane), (s.lane l.val).checker = false) :=
  ⟨⟨laneIn .trained id, 0, by decide, by decide⟩,
    ⟨(laneIn .trained id).modMir fun m => { m with role := .active, st := .lone }, 0, by decide, by decide, by decide⟩,
    ⟨up, 0, by decide⟩,
    ⟨(laneIn .trained id).modPwr fun p => { p with dev := .standby }, 0, by decide, by decide, by decide⟩,
    ⟨laneIn .trained id, 0, by decide, by decide, by decide⟩,
    ⟨laneIn .trained id, 0, by decide, by decide⟩,
    ⟨up, 0, by decide⟩,
    ⟨up, 0, by decide⟩,
    ⟨up, 0, by decide⟩,
    ⟨up, 0, by decide⟩,
    ⟨up, 0, by decide⟩,
    ⟨laneIn .trained fun x => { x with version := 3 }, 0, by decide, by decide⟩,
    ⟨laneIn .trained fun x => { x with version := 3, cap := some cap, probeOut := some 1 }, 0, cap, 1, 50, (300 : Nat), (225 : Int), by decide, by decide, by decide, by decide, by decide⟩,
    ⟨laneIn .trained id, 0, by decide, by decide⟩,
    ⟨up, 0, by decide⟩,
    ⟨laneIn .trained id, 0, by decide⟩,
    ⟨laneIn .trained id, 0, by decide⟩,
    ⟨(laneIn .down id).setNum 0x2F14 2 1, hd (4 + ((u8 ((1 : Nat)))).length), 0, ses, (1 : Nat), Instr.laneRetrain (hd 5) 0, by decide, writeTaken_of_writes (by decide), by decide⟩,
    ⟨laneIn .trained id, hd (4 + ((u8 ((1 : Nat)))).length), 0, ses, (1 : Nat), Instr.laneRetrain (hd 5) 0, by decide, writeTaken_of_writes (by decide), by decide, by decide⟩,
    ⟨laneIn .down id, hd (4 + ((u8 ((1 : Nat)))).length), 0, ses, (1 : Nat), Instr.laneRetrain (hd 5) 0, by decide, writeTaken_of_writes (by decide), by decide, by decide, by decide, by decide⟩,
    ⟨laneIn .deep id, hd (4 + ((u8 ((2 : Nat)))).length), 0, ses, (2 : Nat), Instr.laneEnterTest (hd 5) 0, by decide, writeTaken_of_writes (by decide), by decide, by decide, by decide, by decide⟩,
    ⟨laneIn .test id, hd (4 + ((u8 ((3 : Nat)))).length), 0, ses, (3 : Nat), Instr.laneLeaveTest (hd 5) 0, by decide, writeTaken_of_writes (by decide), by decide, by decide, by decide⟩,
    ⟨(laneIn .test fun x => { x with checker := true }).setNum 0x2A30 1 0x3804, hd (4 + ((u8 ((2 : Nat)))).length), 0, ses, (2 : Nat), Instr.testInjectBurst (hd 5) 0, (4 : Nat), by decide, writeTaken_of_writes (by decide), by decide, by decide, by decide⟩,
    ⟨laneIn .test id, hd (4 + ((u8 ((1 : Nat)))).length), 0, ses, (1 : Nat), Instr.testInjectBit (hd 5) 0, (1 : Nat), by decide, writeTaken_of_writes (by decide), by decide, by decide⟩,
    ⟨laneIn .down id, hd (4 + ((u8 ((1 : Nat)))).length), 0, ses, (1 : Nat), Instr.testInjectBit (hd 5) 0, (1 : Nat), by decide, writeTaken_of_writes (by decide), by decide⟩,
    ⟨(laneIn .test id).setNum 0x2A30 1 0x1000, 0, by decide, by decide⟩,
    ⟨up, 0, by decide⟩,
    ⟨laneIn .test fun x => { x with checker := true }, 0, by decide⟩,
    ⟨up, 0, by decide⟩⟩

theorem witness_HeadModulesObey :
    (∃ (s : State) (m : Lane) (fromB : Bool) (f : HdmLine), ((s.hdm m.val).input fromB).lock = true ∧ (if f.zeroLine then f.levels.isEmpty else f.levels.length == f.elements) = true) ∧
    (∃ (s : State) (m : Lane) (fromB : Bool), ((s.hdm m.val).input fromB).lock = true) ∧
    (∃ (s : State) (m : Lane) (fromB : Bool) (hd : TokenHead) (n : BitVec 32) (g : BitVec 16) (e : BitVec 16) (k : Option (BitVec 16)), ((s.hdm m.val).input fromB).lock = true ∧ (s.hdm m.val).owner (hdmIsHl1 m.val) fromB = 1 ∧ ((s.hdm m.val).version = 3 → ((s.hdm m.val).input fromB).gen % 2 ^ 16 = e.toNat) ∧ k.map (·.toNat) = some (tokenCrc hd g.toNat e.toNat n.toNat)) ∧
    (∃ (s : State) (m : Lane) (fromB : Bool) (hd : TokenHead) (n : BitVec 32) (g : BitVec 16) (e : BitVec 16) (k : Option (BitVec 16)), ((s.hdm m.val).input fromB).lock = true ∧ (k.map (·.toNat) ≠ some (tokenCrc hd g.toNat e.toNat n.toNat) ∨ (s.hdm m.val).owner (hdmIsHl1 m.val) fromB ≠ 1 ∨ (s.hdm m.val).version = 3 ∧ ((s.hdm m.val).input fromB).gen % 2 ^ 16 ≠ e.toNat)) ∧
    (∃ (s : State) (m : Lane) (fromB : Bool), ((s.hdm m.val).input fromB).lock = true) ∧
    (∃ (s : State) (m : Lane) (fromB : Bool), ((s.hdm m.val).input fromB).lock = true) ∧
    (∃ (s : State) (m : Lane) (fromB : Bool), ((s.hdm m.val).input fromB).lock = true) ∧
    (∃ (s : State) (m : Lane) (fromB : Bool), ((s.hdm m.val).input fromB).lock = true) ∧
    (∃ (s : State) (m : Lane) (fromB : Bool) (v : BitVec 8) (b : List Byte), ((s.hdm m.val).input fromB).lock = true ∧ (b = [] ∨ waveOk b = false ∨ v = 0 ∨ 7 < v.toNat)) ∧
    (∃ (s : State) (m : Lane) (fromB : Bool) (v : BitVec 8) (b : List Byte), ((s.hdm m.val).input fromB).lock = true ∧ b ≠ [] ∧ waveOk b = true ∧ v ≠ 0 ∧ v.toNat ≤ 7) ∧
    (∃ (s : State) (m : Lane) (fromB : Bool), ((s.hdm m.val).input fromB).lock = true) ∧
    (∃ (s : State) (m : Lane) (fromB : Bool), ((s.hdm m.val).input fromB).lock = true) ∧
    (∃ (s : State) (m : Lane), ((s.hdm m.val).input false).lock = true ∧ ((s.hdm m.val).input true).lock = false) ∧
    (∃ (s : State) (m : Lane), ((s.hdm m.val).input false).lock = true ∧ ((s.hdm m.val).input true).lock = true) ∧
    (∃ (s : State) (m : Lane) (fromB : Bool), ((s.hdm m.val).input fromB).lock = false) ∧
    (∃ (s : State) (m : Lane) (fromB : Bool), ((s.hdm m.val).input fromB).lock = false) ∧
    (∃ (s : State) (m : Lane) (fromB : Bool), ((s.hdm m.val).input fromB).lock = false) ∧
    (∃ (s : State) (m : Lane) (fromB : Bool), ((s.hdm m.val).input fromB).lock = false) ∧
    (∃ (s : State) (m : Lane) (fromB : Bool), ((s.hdm m.val).input fromB).lock = false) ∧
    (∃ (s : State) (m : Lane) (fromB : Bool), ((s.hdm m.val).input fromB).lock = false) ∧
    (∃ (s : State) (m : Lane) (fromB : Bool), ((s.hdm m.val).input fromB).lock = false) ∧
    (∃ (s : State) (m : Lane) (fromB : Bool), ((s.hdm m.val).input fromB).lock = false) :=
  ⟨⟨headModule id, 0, false, hdmLine, by decide, by decide⟩,
    ⟨headModule fun h => { h with held := [(2, ⟨1, 1, 1, []⟩)] }, 0, false, by decide⟩,
    ⟨headModule fun h => { h with a := { h.a with claims := true }, held := [(2, ⟨4464, 70000, 1, [1]⟩)] }, 0, false, tokenHead, 70000, 4464, 0, some (BitVec.ofNat 16 (tokenCrc tokenHead 4464 0 70000)), by decide, (by simp [Hdm.owner]; split <;> rfl), by decide, (by decide +kernel)⟩,
    ⟨headModule fun h => { h with held := [(2, ⟨4464, 70000, 1, [1]⟩)] }, 0, false, tokenHead, 0, 0, 0, (none : Option (BitVec 16)), by decide, by decide⟩,
    ⟨headModule id, 0, false, by decide⟩,
    ⟨headModule id, 0, false, by decide⟩,
    ⟨headModule fun h => { h with version := 3 }, 0, false, by decide⟩,
    ⟨headModule id, 0, false, by decide⟩,
    ⟨headModule id, 0, false, 1, ([] : Bytes), by decide, by decide⟩,
    ⟨headModule id, 0, false, 1, wave, by decide, by decide, by decide, by decide, by decide⟩,
    ⟨headModule id, 0, false, by decide⟩,
    ⟨headModule id, 0, false, by decide⟩,
    ⟨headModule id, 0, by decide, by decide⟩,
    ⟨(headModule id).modHdm 0 fun h => { h with b := { h.b with lock := true } }, 0, by decide, by decide⟩,
    ⟨up, 0, false, by decide⟩,
    ⟨up, 0, false, by decide⟩,
    ⟨up, 0, false, by decide⟩,
    ⟨up, 0, false, by decide⟩,
    ⟨up, 0, false, by decide⟩,
    ⟨up, 0, false, by decide⟩,
    ⟨up, 0, false, by decide⟩,
    ⟨up, 0, false, by decide⟩⟩

theorem witness_HeadsAreMeasured :
    (∃ (s : State) (h : Hdr) (x : Session), WriteTaken s h 0x2B10 2 (u8 1) x ∧ s.boltedHdg = true) ∧
    (∃ (s : State) (h : Hdr) (x : Session), WriteTaken s h 0x2B10 2 (u8 1) x ∧ s.boltedHdg = false ∧ (s.inStates [.configured, .held] = false ∨ s.mir.role = .standby)) ∧
    (∃ (s : State) (h : Hdr) (x : Session), WriteTaken s h 0x2B10 2 (u8 1) x ∧ s.boltedHdg = false ∧ s.inStates [.configured, .held] = true ∧ s.mir.role ≠ .standby ∧ s.hdg.phase = 1) ∧
    (∃ (s : State) (h : Hdr) (x : Session), WriteTaken s h 0x2B10 2 (u8 1) x ∧ s.boltedHdg = false ∧ s.inStates [.configured, .held] = true ∧ s.mir.role ≠ .standby ∧ s.hdg.phase ≠ 1 ∧ (∀ b ∈ barsOf (s.num 0x2B10 1), (s.map b).isEmpty = false ∧ ∀ l ∈ s.lanesOf b, (s.lane l).st = .trained)) ∧
    (∃ (s : State) (h : Hdr) (x : Session), WriteTaken s h 0x2B10 2 (u8 2) x ∧ s.hdg.phase = 1) ∧
    (∃ (s : State) (h : Hdr) (x : Session), WriteTaken s h 0x2B10 2 (u8 2) x ∧ s.hdg.phase ≠ 1) ∧
    (∃ (s : State) (h : Hdr) (x : Session), WriteTaken s h 0x2B10 2 (u8 3) x ∧ s.hdg.phase = 1) ∧
    (∃ (s : State) (h : Hdr) (x : Session), WriteTaken s h 0x2B10 2 (u8 3) x ∧ s.hdg.phase ≠ 1 ∧ (∀ b ∈ barsOf (s.num 0x2B10 1), bit s.hdg.done b = true)) ∧
    (∃ (s : State) (h : Hdr) (b : Bar) (x : Session), WriteTaken s h 0x2B19 (b.val + 1) (u8 1) x ∧ bit s.hdg.pendingValid b.val = true) ∧
    (∃ (s : State) (h : Hdr) (b : Bar) (x : Session), WriteTaken s h 0x2B19 (b.val + 1) (u8 1) x ∧ bit s.hdg.pendingValid b.val = false) ∧
    (∃ (s : State) (l : Lane) (r : MeasResult) (o : MeasOut) (hd : Nat) (f : Nat) (k : Nat), (s.lane l.val).meas = some o ∧ r.tag.toNat = o.tag ∧ r.first.toNat = o.first ∧ r.count.toNat = o.count ∧ r.kind.toNat = o.kind ∧ r.head.toNat = o.head ∧ r.result = 0 ∧ o.kind ≠ 3 ∧ s.laneBar l.val < 8 ∧ s.measNext l.val o = some (hd, f, k)) ∧
    (∃ (s : State) (l : Lane) (r : MeasResult), (∀ o, (s.lane l.val).meas = some o → r.tag.toNat ≠ o.tag)) ∧
    (∃ (s : State) (l : Lane) (o : MeasOut), (s.lane l.val).meas = some o ∧ o.retried = false) ∧
    (∃ (s : State) (l : Lane) (o : MeasOut), (s.lane l.val).meas = some o ∧ o.retried = true) ∧
    (∃ (s : State) (l : Lane), (s.lane l.val).meas = none) :=
  ⟨⟨up.setNum 0x2F14 5 4, hd (4 + ((u8 1)).length), ses, writeTaken_of_writes (by decide), by decide⟩,
    ⟨up, hd (4 + ((u8 1)).length), ses, writeTaken_of_writes (by decide), by decide, by decide⟩,
    ⟨{ upIn .configured with hdg := { Hdg.start with phase := 1 } }, hd (4 + ((u8 1)).length), ses, writeTaken_of_writes (by decide), by decide, by decide, by decide, by decide⟩,
    ⟨(((lanesUp (upIn .configured)).setNum 0x2B10 1 1).setObj 0x2710 1 (.bytes aMap)).modLane 0 fun x => { x with cap := some cap }, hd (4 + ((u8 1)).length), ses, writeTaken_of_writes (by decide), by decide, by decide, by decide, by decide, by decide⟩,
    ⟨{ upIn .configured with hdg := { Hdg.start with phase := 1 } }, hd (4 + ((u8 2)).length), ses, writeTaken_of_writes (by decide), by decide⟩,
    ⟨upIn .configured, hd (4 + ((u8 2)).length), ses, writeTaken_of_writes (by decide), by decide⟩,
    ⟨{ upIn .configured with hdg := { Hdg.start with phase := 1 } }, hd (4 + ((u8 3)).length), ses, writeTaken_of_writes (by decide), by decide⟩,
    ⟨{ (((upIn .configured).setNum 0x2B10 1 1).setObj 0x2710 1 (.bytes aMap)) with hdg := { Hdg.start with done := 1 } }, hd (4 + ((u8 3)).length), ses, writeTaken_of_writes (by decide), by decide, by decide⟩,
    ⟨{ upIn .configured with hdg := { Hdg.start with pendingValid := 1, pendingMap := Vector.replicate 8 aMap } }, hd (4 + ((u8 1)).length), 0, ses, writeTaken_of_writes (by decide), by decide⟩,
    ⟨upIn .configured, hd (4 + ((u8 1)).length), 0, ses, writeTaken_of_writes (by decide), by decide⟩,
    ⟨{ ((laneIn .trained fun x => { x with version := 2, cap := some cap, meas := some measOut }).setObj 0x2710 1 (.bytes aMap)) with hdg := { Hdg.start with phase := 1, pending := 1 } }, 0, measResult, measOut, (0 : Nat), (64 : Nat), (firstKind cap), by decide, by decide, by decide, by decide, by decide, by decide, by decide, by decide, by decide, by decide⟩,
    ⟨laneIn .trained fun x => { x with meas := some measOut }, 0, { measResult with tag := 9 }, (by intro o e; cases e; decide)⟩,
    ⟨laneIn .trained fun x => { x with meas := some measOut }, 0, measOut, by decide, by decide⟩,
    ⟨(laneIn .trained fun x => { x with meas := some { measOut with retried := true }, cap := some cap }).setObj 0x2710 1 (.bytes aMap), 0, { measOut with retried := true }, by decide, by decide⟩,
    ⟨up, 0, by decide⟩⟩

theorem witness_RolesAndMirrorCommands :
    (∃ (s : State) (h : Hdr) (x : Session) (v : Nat) (c : Instr) (r : Role), (v, c, r) ∈ [(0, Instr.roleRequestSolo h, Role.solo), (1, .roleRequestActive h, .active), (2, .roleRequestStandby h, .standby)] ∧ WriteTaken s h 0x3210 1 (u8 v) x ∧ s.fuses.mirror = false ∧ v ≠ 0) ∧
    (∃ (s : State) (h : Hdr) (x : Session) (v : Nat) (c : Instr) (r : Role), (v, c, r) ∈ [(0, Instr.roleRequestSolo h, Role.solo), (1, .roleRequestActive h, .active), (2, .roleRequestStandby h, .standby)] ∧ WriteTaken s h 0x3210 1 (u8 v) x ∧ s.fuses.mirror = false ∧ v = 0) ∧
    (∃ (s : State) (h : Hdr) (x : Session) (v : Nat) (c : Instr) (r : Role), (v, c, r) ∈ [(0, Instr.roleRequestSolo h, Role.solo), (1, .roleRequestActive h, .active), (2, .roleRequestStandby h, .standby)] ∧ WriteTaken s h 0x3210 1 (u8 v) x ∧ s.fuses.mirror = true ∧ s.inStates [.standby, .configured] = false) ∧
    (∃ (s : State) (h : Hdr) (x : Session) (v : Nat) (c : Instr) (r : Role), (v, c, r) ∈ [(0, Instr.roleRequestSolo h, Role.solo), (1, .roleRequestActive h, .active), (2, .roleRequestStandby h, .standby)] ∧ WriteTaken s h 0x3210 1 (u8 v) x ∧ s.fuses.mirror = true ∧ s.inStates [.standby, .configured] = true ∧ s.mir.st = .warm) ∧
    (∃ (s : State) (h : Hdr) (x : Session) (v : Nat) (c : Instr) (r : Role), (v, c, r) ∈ [(0, Instr.roleRequestSolo h, Role.solo), (1, .roleRequestActive h, .active), (2, .roleRequestStandby h, .standby)] ∧ WriteTaken s h 0x3210 1 (u8 v) x ∧ s.fuses.mirror = true ∧ s.inStates [.standby, .configured] = true ∧ s.mir.st ≠ .warm) ∧
    (∃ (s : State) (h : Hdr) (x : Session) (p : Hello), WriteTaken s h 0x3210 3 (u8 1) x ∧ s.mir.st = .lone ∧ s.mir.link = true ∧ s.mir.partner = some p ∧ p.role = 2 ∧ commonFormat (s.num 0x3210 5) p.versions.toNat ≠ 0) ∧
    (∃ (s : State) (h : Hdr) (x : Session), WriteTaken s h 0x3210 3 (u8 1) x ∧ (s.mir.st ≠ .lone ∨ s.mir.link = false ∨ s.mir.partner = none)) ∧
    (∃ (s : State) (h : Hdr) (x : Session) (v : Nat) (c : Instr), (v, c) ∈ [(2, Instr.mirrorPlannedSwap h), (4, .mirrorDissolve h)] ∧ WriteTaken s h 0x3210 3 (u8 v) x ∧ s.mir.st = .warm ∧ s.mir.role = .active) ∧
    (∃ (s : State) (h : Hdr) (x : Session) (v : Nat) (c : Instr), (v, c) ∈ [(2, Instr.mirrorPlannedSwap h), (4, .mirrorDissolve h)] ∧ WriteTaken s h 0x3210 3 (u8 v) x ∧ (s.mir.st ≠ .warm ∨ s.mir.role ≠ .active)) ∧
    (∃ (s : State) (h : Hdr) (x : Session), WriteTaken s h 0x3210 3 (u8 3) x ∧ (s.mir.st = .cold ∧ s.mir.role = .standby ∨ s.mir.st = .orphan)) ∧
    (∃ (s : State) (h : Hdr) (x : Session), WriteTaken s h 0x3210 3 (u8 3) x ∧ s.mir.st ≠ .orphan ∧ (s.mir.st ≠ .cold ∨ s.mir.role ≠ .standby)) :=
  ⟨⟨up, hd (4 + ((u8 ((1 : Nat)))).length), ses, (1 : Nat), Instr.roleRequestActive (hd 5), Role.active, by decide, writeTaken_of_writes (by decide), by decide, by decide⟩,
    ⟨up, hd (4 + ((u8 ((0 : Nat)))).length), ses, (0 : Nat), Instr.roleRequestSolo (hd 5), Role.solo, by decide, writeTaken_of_writes (by decide), by decide, by decide⟩,
    ⟨(pairIn .active .lone id).modPwr fun p => { p with dev := .printing }, hd (4 + ((u8 ((1 : Nat)))).length), ses, (1 : Nat), Instr.roleRequestActive (hd 5), Role.active, by decide, writeTaken_of_writes (by decide), by decide, by decide⟩,
    ⟨pairIn .active .warm id, hd (4 + ((u8 ((1 : Nat)))).length), ses, (1 : Nat), Instr.roleRequestActive (hd 5), Role.active, by decide, writeTaken_of_writes (by decide), by decide, by decide, by decide⟩,
    ⟨pairIn .solo .off id, hd (4 + ((u8 ((1 : Nat)))).length), ses, (1 : Nat), Instr.roleRequestActive (hd 5), Role.active, by decide, writeTaken_of_writes (by decide), by decide, by decide, by decide⟩,
    ⟨pairIn .active .lone fun m => { m with partner := some hello }, hd (4 + ((u8 1)).length), ses, hello, writeTaken_of_writes (by decide), by decide, by decide, by decide, by decide, by decide⟩,
    ⟨pairIn .active .lone id, hd (4 + ((u8 1)).length), ses, writeTaken_of_writes (by decide), by decide⟩,
    ⟨pairIn .active .warm id, hd (4 + ((u8 ((2 : Nat)))).length), ses, (2 : Nat), Instr.mirrorPlannedSwap (hd 5), by decide, writeTaken_of_writes (by decide), by decide, by decide⟩,
    ⟨pairIn .standby .warm id, hd (4 + ((u8 ((2 : Nat)))).length), ses, (2 : Nat), Instr.mirrorPlannedSwap (hd 5), by decide, writeTaken_of_writes (by decide), by decide⟩,
    ⟨pairIn .standby .cold id, hd (4 + ((u8 3)).length), ses, writeTaken_of_writes (by decide), by decide⟩,
    ⟨pairIn .active .cold id, hd (4 + ((u8 3)).length), ses, writeTaken_of_writes (by decide), by decide, by decide⟩⟩

theorem witness_TheMirrorPairRuns :
    (∃ (s : State), s.on domMIR = true ∧ s.mir.role ≠ .solo) ∧
    (∃ (s : State), s.mir.role = .solo) ∧
    (∃ (s : State), s.on domMIR = true ∧ s.mir.link = true) ∧
    (∃ (s : State), s.mir.link = false) ∧
    (∃ (s : State), s.mir.link = false) ∧
    (∃ (s : State), s.on domMIR = true ∧ s.mir.link = true ∧ (s.mir.st = .hello ∨ s.mir.st = .cold ∨ s.mir.st = .conflict)) ∧
    (∃ (s : State), (s.mir.st = .warm ∨ s.mir.st = .lone ∨ s.mir.st = .off)) ∧
    (∃ (s : State) (f : Hello), s.on domMIR = true ∧ s.mir.link = true ∧ s.mir.st = .hello ∧ f.echoTag = 0 ∧ f.role.toNat = s.mir.role.code) ∧
    (∃ (s : State) (f : Hello), s.on domMIR = true ∧ s.mir.link = true ∧ s.mir.st = .hello ∧ f.echoTag = 0 ∧ f.role.toNat ≠ s.mir.role.code ∧ commonFormat (s.num 0x3210 5) f.versions.toNat = 0) ∧
    (∃ (s : State) (f : Hello), s.on domMIR = true ∧ s.mir.link = true ∧ s.mir.st = .hello ∧ f.echoTag = 0 ∧ f.role.toNat ≠ s.mir.role.code ∧ commonFormat (s.num 0x3210 5) f.versions.toNat ≠ 0 ∧ s.mir.role = .active ∧ s.mir.format = 0) ∧
    (∃ (s : State) (f : Hello) (k : Nat), s.on domMIR = true ∧ s.mir.link = true ∧ s.mir.st = .hello ∧ f.echoTag = 0 ∧ f.role.toNat ≠ s.mir.role.code ∧ commonFormat (s.num 0x3210 5) f.versions.toNat ≠ 0 ∧ s.mir.role = .active ∧ s.mir.format ≠ 0 ∧ s.mir.probeOut = some k ∧ f.echoReturn.toNat = k ∧ s.mir.probes.length = 15) ∧
    (∃ (s : State), s.on domMIR = true ∧ s.mir.st = .warm ∧ s.mir.role = .active ∧ s.mir.handover = false ∧ s.mir.swap = false) ∧
    (∃ (s : State), s.on domMIR = true ∧ s.mir.st = .warm ∧ s.mir.role = .active ∧ s.mir.handover = false ∧ s.mir.swap = true) ∧
    (∃ (s : State), s.on domMIR = true ∧ s.mir.st = .warm ∧ s.mir.role = .active ∧ s.mir.handover = true ∧ s.mir.flagCycle = none) ∧
    (∃ (s : State), (s.on domMIR = false ∨ s.mir.st ≠ .warm ∨ s.mir.role ≠ .active)) ∧
    (∃ (s : State), (s.on domMIR = false ∨ s.mir.st ≠ .warm ∨ s.mir.role ≠ .active)) ∧
    (∃ (s : State), s.linkWarm = true ∧ s.mir.role = .standby) ∧
    (∃ (s : State), s.linkWarm = true ∧ s.mir.role = .standby) ∧
    (∃ (s : State), s.linkWarm = true ∧ s.mir.role = .standby) ∧
    (∃ (s : State) (r : Fin 4), s.linkWarm = true ∧ s.mir.role = .standby ∧ r ≠ 0) ∧
    (∃ (s : State), s.mir.role ≠ .standby) ∧
    (∃ (s : State) (k : BitVec 32) (d : Nat), s.linkWarm = true ∧ s.mir.role = .active ∧ s.mir.departures.find? (fun e => e.1 == k.toNat) = some (k.toNat, d) ∧ s.mir.handover = false ∧ s.mir.flagCycle = none ∧ s.halted = false) ∧
    (∃ (s : State) (k : BitVec 32) (d : Nat), s.linkWarm = true ∧ s.mir.role = .active ∧ s.mir.departures.find? (fun e => e.1 == k.toNat) = some (k.toNat, d) ∧ s.mir.handover = true ∧ s.mir.flagCycle = some k.toNat) ∧
    (∃ (s : State) (k : BitVec 32) (d : Nat) (q : BitVec 8), s.linkWarm = true ∧ s.mir.role = .active ∧ s.mir.departures.find? (fun e => e.1 == k.toNat) = some (k.toNat, d) ∧ q ≠ 0) ∧
    (∃ (s : State), (s.linkWarm = false ∨ s.mir.role ≠ .active)) ∧
    (∃ (s : State) (a : BitVec 8), s.linkWarm = true ∧ s.mir.role = .standby ∧ isAdminArea a.toNat = true ∧ s.on domMGT = true) ∧
    (∃ (s : State) (n : BitVec 32) (b : Bytes), s.linkWarm = true ∧ s.takesForwarded = true ∧ s.on domRFE = true ∧ s.halted = false ∧ b.length < n.toNat) ∧
    (∃ (s : State) (n : BitVec 32) (b : Bytes), s.linkWarm = true ∧ s.takesForwarded = true ∧ s.on domRFE = true ∧ s.halted = false ∧ n.toNat ≤ b.length) ∧
    (∃ (s : State) (q : BitVec 32) (n : BitVec 32) (b : Bytes) (o : BitVec 32) (c : Bytes), s.linkWarm = true ∧ s.takesForwarded = true ∧ s.on domRFE = true ∧ s.halted = false ∧ o ≠ 0 ∧ s.mir.fwd = some (q.toNat, n.toNat, c) ∧ c.length = o.toNat ∧ c.length + b.length < n.toNat) ∧
    (∃ (s : State) (f : SlotFrame), s.linkWarm = true ∧ f.slot.toNat < 2) ∧
    (∃ (s : State), s.linkWarm = true ∧ s.mir.role = .standby ∧ s.on domCTL = true) ∧
    (∃ (s : State), s.linkWarm = false) ∧
    (∃ (s : State), s.linkWarm = false) ∧
    (∃ (s : State), s.linkWarm = false) ∧
    (∃ (s : State), s.linkWarm = false) ∧
    (∃ (s : State) (k : Nat), s.mir.keyExpiry = some k ∧ s.mir.st = .warm ∧ s.mir.role = .active ∧ k ≤ s.tick) ∧
    (∃ (s : State) (k : Nat), s.mir.keyExpiry = some k ∧ s.tick < k) ∧
    (∃ (s : State) (k : Nat), s.mir.takeoverAt = some k ∧ s.mir.st = .warm ∧ s.mir.role = .standby ∧ k ≤ s.tick ∧ s.inStates ownStates = true) ∧
    (∃ (s : State) (k : Nat), s.mir.takeoverAt = some k ∧ s.mir.st = .warm ∧ s.mir.role = .standby ∧ k ≤ s.tick ∧ s.inStates ownStates = false) ∧
    (∃ (s : State) (k : Nat), s.mir.takeoverAt = some k ∧ s.mir.st = .warm ∧ s.mir.role = .standby ∧ s.tick < k) ∧
    (∃ (s : State) (n : Nat), s.mir.seenPartner = some n ∧ s.mir.st = .orphan ∧ s.num 0x3210 6 ≠ 0 ∧ s.mir.lastExpiry + 20000 + s.num 0x3210 6 * 400 ≤ s.tick ∧ n = 0) ∧
    (∃ (s : State) (n : Nat), s.mir.seenPartner = some n ∧ s.mir.st = .orphan ∧ s.num 0x3210 6 ≠ 0 ∧ s.mir.lastExpiry + 20000 + s.num 0x3210 6 * 400 ≤ s.tick ∧ n ≠ 0) ∧
    (∃ (s : State), s.mir.seenPartner = none) :=
  ⟨⟨pairIn .active .linking id, by decide, by decide⟩,
    ⟨up, by decide⟩,
    ⟨pairIn .standby .cold id, by decide, by decide⟩,
    ⟨up, by decide⟩,
    ⟨up, by decide⟩,
    ⟨pairIn .standby .hello id, by decide, by decide, by decide⟩,
    ⟨up, by decide⟩,
    ⟨pairIn .standby .hello id, hello, by decide, by decide, by decide, by decide, by decide⟩,
    ⟨(pairIn .active .hello id).setNum 0x3210 5 0, hello, by decide, by decide, by decide, by decide, by decide, by decide⟩,
    ⟨pairIn .active .hello id, hello, by decide, by decide, by decide, by decide, by decide, by decide, by decide, by decide⟩,
    ⟨pairIn .active .hello fun m => { m with format := 2, probeOut := some 16, probes := List.replicate 15 200 }, { hello with echoReturn := 16 }, (16 : Nat), by decide, by decide, by decide, by decide, by decide, by decide, by decide, by decide, by decide, by decide, by decide⟩,
    ⟨pairIn .active .warm fun m => { m with acked := false }, by decide, by decide, by decide, by decide, by decide⟩,
    ⟨pairIn .active .warm fun m => { m with swap := true }, by decide, by decide, by decide, by decide, by decide⟩,
    ⟨pairIn .active .warm fun m => { m with handover := true }, by decide, by decide, by decide, by decide, by decide⟩,
    ⟨up, by decide⟩,
    ⟨up, by decide⟩,
    ⟨pairIn .standby .warm id, by decide, by decide⟩,
    ⟨pairIn .standby .warm id, by decide, by decide⟩,
    ⟨pairIn .standby .warm id, by decide, by decide⟩,
    ⟨pairIn .standby .warm id, 2, by decide, by decide, by decide⟩,
    ⟨up, by decide⟩,
    ⟨pairIn .active .warm fun m => { m with departures := [(9, 50)], cycle := 9 }, 9, (50 : Nat), by decide, by decide, by decide, by decide, by decide, by decide⟩,
    ⟨pairIn .active .warm fun m => { m with departures := [(9, 50)], cycle := 9, handover := true, flagCycle := some 9 }, 9, (50 : Nat), by decide, by decide, by decide, by decide, by decide⟩,
    ⟨pairIn .active .warm fun m => { m with departures := [(9, 50)], cycle := 9 }, 9, (50 : Nat), (1 : BitVec 8), by decide, by decide, by decide, by decide⟩,
    ⟨up, by decide⟩,
    ⟨pairIn .standby .warm id, 0x22, by decide, by decide, by decide, by decide⟩,
    ⟨((pairIn .standby .warm id).setNum 0x2211 1 1).setNum 0x2410 1 0, 96, sixtyFour, by decide, by decide, by decide, by decide, by decide⟩,
    ⟨((pairIn .standby .warm id).setNum 0x2211 1 1).setNum 0x2410 1 0, 64, sixtyFour, by decide, by decide, by decide, by decide, by decide⟩,
    ⟨((pairIn .standby .warm fun m => { m with fwd := some (5, 192, sixtyFour) }).setNum 0x2211 1 1).setNum 0x2410 1 0, 5, 192, sixtyFour, 64, sixtyFour, by decide, by decide, by decide, by decide, by decide, by decide, by decide, by decide⟩,
    ⟨pairIn .standby .warm id, slotFrame, by decide, by decide⟩,
    ⟨pairIn .standby .warm id, by decide, by decide, by decide⟩,
    ⟨up, by decide⟩,
    ⟨up, by decide⟩,
    ⟨up, by decide⟩,
    ⟨up, by decide⟩,
    ⟨pairIn .active .warm fun m => { m with keyExpiry := some 5 }, (5 : Nat), by decide, by decide, by decide, by decide⟩,
    ⟨pairIn .active .warm fun m => { m with keyExpiry := some 50000000000000 }, (50000000000000 : Nat), by decide, by decide⟩,
    ⟨(pairIn .standby .warm fun m => { m with takeoverAt := some 5 }).modPwr fun p => { p with dev := .printing }, (5 : Nat), by decide, by decide, by decide, by decide, by decide⟩,
    ⟨(pairIn .standby .warm fun m => { m with takeoverAt := some 5 }), (5 : Nat), by decide, by decide, by decide, by decide, by decide⟩,
    ⟨(pairIn .standby .warm fun m => { m with takeoverAt := some 50000000000000 }), (50000000000000 : Nat), by decide, by decide, by decide, by decide⟩,
    ⟨(pairIn .standby .orphan fun m => { m with seenPartner := some 0 }).setNum 0x3210 6 100, (0 : Nat), by decide, by decide, by decide, by decide, by decide⟩,
    ⟨(pairIn .standby .orphan fun m => { m with seenPartner := some 2 }).setNum 0x3210 6 100, (2 : Nat), by decide, by decide, by decide, by decide, by decide⟩,
    ⟨up, by decide⟩⟩

theorem witness_FaultsAreReportedAndLogged :
    (∃ (s : State) (m : FaultMsg), sourceExists m.source.toNat = true ∧ s.takesReports) ∧
    (∃ (s : State) (m : FaultMsg), sourceExists m.source.toNat = true ∧ s.fltRuns = true ∧ 64 ≤ s.flt.queue.length) ∧
    (∃ (s : State) (m : FaultMsg), sourceExists m.source.toNat = true ∧ s.fltRuns = false) ∧
    (∃ (m : FaultMsg), sourceExists m.source.toNat = false) ∧
    (∃ (s : State), (s.fltRuns = false ∨ (s.flt.queue = [] ∧ s.flt.snapWanted = false))) ∧
    (∃ (s : State) (r : Report) (rest : List Report), s.fltRuns = true ∧ s.flt.queue = r :: rest ∧ s.flt.lost = 0 ∧ s.flt.snapWanted = false ∧ r.source ≠ 0x3003 ∧ s.applied r = 1) ∧
    (∃ (s : State) (r : Report) (rest : List Report), s.fltRuns = true ∧ s.flt.queue = r :: rest ∧ s.flt.lost = 0 ∧ s.flt.snapWanted = false ∧ r.source ≠ 0x3003 ∧ s.applied r = 0x41) ∧
    (∃ (s : State) (r : Report) (rest : List Report), s.fltRuns = true ∧ s.flt.queue = r :: rest ∧ s.flt.lost = 0 ∧ s.flt.snapWanted = false ∧ r.source ≠ 0x3003 ∧ s.applied r = 5) ∧
    (∃ (s : State) (r : Report) (rest : List Report), s.fltRuns = true ∧ s.flt.queue = r :: rest ∧ s.flt.lost = 0 ∧ s.flt.snapWanted = false ∧ r.source ≠ 0x3003 ∧ s.num 0x2F10 1 = 0) ∧
    (∃ (s : State), (s.inStates [.configured, .armed, .printing, .held] = true ∨ (s.pwr.dev = .standby ∧ s.pwr.trans = some .training))) ∧
    (∃ (s : State), s.inStates [.configured, .armed, .printing, .held] = false ∧ ¬ (s.pwr.dev = .standby ∧ s.pwr.trans = some .training)) ∧
    (∃ (s : State) (r : Report), s.on (blockDomain (sourceBlock r.source)) = true ∧ (boltBit (sourceBlock r.source)).isSome = true) ∧
    (∃ (s : State) (p : Fin 49) (u : BitVec 8) (b : Block), b = railUnit p.val u.toNat ∧ (s.fltRuns = false ∨ s.railIgnored b = true)) ∧
    (∃ (s : State) (p : Fin 49) (u : BitVec 8) (b : _), b = railUnit p.val u.toNat ∧ (s.fltRuns = false ∨ s.railIgnored b = true)) ∧
    (∃ (s : State) (p : Fin 49) (u : BitVec 8) (b : _) (n : _), b = railUnit p.val u.toNat ∧ s.fltRuns = true ∧ s.railIgnored b = false ∧ s.num 0x2F10 1 = 0 ∧ latchNumber b = some n) ∧
    (∃ (s : State) (p : Fin 49) (u : BitVec 8) (b : _) (n : _), b = railUnit p.val u.toNat ∧ s.fltRuns = true ∧ s.railIgnored b = false ∧ s.num 0x2F10 1 = 0 ∧ latchNumber b = some n) ∧
    (∃ (s : State) (p : Fin 49) (u : BitVec 8) (b : _) (n : _), b = railUnit p.val u.toNat ∧ s.fltRuns = true ∧ s.railIgnored b = false ∧ s.num 0x2F10 1 = 0 ∧ latchNumber b = some n) ∧
    (∃ (s : State) (p : Fin 49) (u : BitVec 8) (b : _), b = railUnit p.val u.toNat ∧ s.takesReports ∧ s.railIgnored b = false ∧ s.num 0x2F10 1 ≠ 0) ∧
    (∃ (s : State) (p : Fin 49) (u : BitVec 8) (b : Block), b = railUnit p.val u.toNat ∧ s.takesReports ∧ s.railIgnored b = false ∧ s.num 0x2F10 1 ≠ 0) ∧
    (∃ (s : State) (h : Hdr) (x : Session), WriteTaken s h 0x2F10 1 (u8 0) x) ∧
    (∃ (s : State) (h : Hdr) (x : Session), WriteTaken s h 0x2F10 1 (u8 1) x ∧ s.num 0x2F10 2 = 0) ∧
    (∃ (s : State) (h : Hdr) (x : Session), WriteTaken s h 0x2F10 1 (u8 1) x ∧ s.num 0x2F10 2 ≠ 0) ∧
    (∃ (s : State) (h : Hdr) (m : BitVec 64) (x : Session), WriteTaken s h 0x2F10 2 (u64 m.toNat) x) ∧
    (∃ (s : State) (h : Hdr) (x : Session), WriteTaken s h 0x2F10 5 (u8 1) x) :=
  ⟨⟨up, faultMsg, by decide, (by unfold State.takesReports; decide)⟩,
    ⟨up.modFlt fun f => { f with queue := List.replicate 64 report }, faultMsg, by decide, by decide, by decide⟩,
    ⟨upIn .boot, faultMsg, by decide, by decide⟩,
    ⟨{ faultMsg with source := 0x1234 }, by decide⟩,
    ⟨up, by decide⟩,
    ⟨(reporting 1).setNum 0x2F10 1 1, report, ([] : List Report), by decide, by decide, by decide, by decide, by decide, by decide⟩,
    ⟨(reporting 0x41).setNum 0x2F10 1 1, report, ([] : List Report), by decide, by decide, by decide, by decide, by decide, by decide⟩,
    ⟨(reporting 5).setNum 0x2F10 1 1, report, ([] : List Report), by decide, by decide, by decide, by decide, by decide, by decide⟩,
    ⟨(reporting 79).setNum 0x2F10 1 0, report, ([] : List Report), by decide, by decide, by decide, by decide, by decide, by decide⟩,
    ⟨upIn .printing, by decide⟩,
    ⟨upIn .boot, by decide, by decide⟩,
    ⟨up, { report with source := 0x2700 }, by decide, by decide⟩,
    ⟨upIn .boot, 17, 0, railUnit 17 0, by decide, by decide⟩,
    ⟨upIn .boot, 17, 0, railUnit 17 0, by decide, by decide⟩,
    ⟨up.setNum 0x2F10 1 0, 17, 0, railUnit 17 0, (17 : Nat), by decide, by decide, by decide, by decide, by decide⟩,
    ⟨up.setNum 0x2F10 1 0, 17, 0, railUnit 17 0, (17 : Nat), by decide, by decide, by decide, by decide, by decide⟩,
    ⟨up.setNum 0x2F10 1 0, 17, 0, railUnit 17 0, (17 : Nat), by decide, by decide, by decide, by decide, by decide⟩,
    ⟨up.setNum 0x2F10 1 1, 17, 0, railUnit 17 0, by decide, (by unfold State.takesReports; decide), by decide, by decide⟩,
    ⟨up.setNum 0x2F10 1 1, 17, 0, railUnit 17 0, by decide, (by unfold State.takesReports; decide), by decide, by decide⟩,
    ⟨up, hd (4 + ((u8 0)).length), ses, writeTaken_of_writes (by decide)⟩,
    ⟨up, hd (4 + ((u8 1)).length), ses, writeTaken_of_writes (by decide), by decide⟩,
    ⟨(up.setNum 0x2F10 1 0).setNum 0x2F10 2 5, hd (4 + ((u8 1)).length), ses, writeTaken_of_writes (by decide), by decide⟩,
    ⟨(up.setNum 0x2F10 1 0).setNum 0x2F10 2 5, hd (4 + ((u64 (4 : BitVec 64).toNat)).length), 4, ses, writeTaken_of_writes (by decide)⟩,
    ⟨up.modFlt fun f => { f with errPin := true, errFirst := 5 }, hd (4 + ((u8 1)).length), ses, writeTaken_of_writes (by decide)⟩⟩

theorem witness_SnapshotsAreWritten :
    (∃ (s : State) (h : Hdr) (x : Session), WriteTaken s h 0x3011 1 (u8 1) x ∧ s.bbx.stopped = true) ∧
    (∃ (s : State) (h : Hdr) (x : Session), WriteTaken s h 0x3011 1 (u8 1) x ∧ s.bbx.stopped = false ∧ (s.bbx.writing.isSome = true ∨ ∃ k, s.bbx.lastStart = some k ∧ s.tick < k + s.num 0x3011 2 * 400000)) ∧
    (∃ (s : State) (h : Hdr) (x : Session) (k : Nat), WriteTaken s h 0x3011 1 (u8 1) x ∧ s.bbx.stopped = false ∧ s.bbx.writing = none ∧ (∀ q, s.bbx.lastStart = some q → q + s.num 0x3011 2 * 400000 ≤ s.tick) ∧ s.pwr.aon = true ∧ s.pwr.trip = false ∧ s.snapAfter s.latestSnap = some k) ∧
    (∃ (s : State), (s.bbx.pfailLow = true ∨ ∃ q, s.bbx.pfailRose = some q ∧ s.tick < q + 4000000)) ∧
    (∃ (s : State), s.bbx.pfailLow = false ∧ (∀ q, s.bbx.pfailRose = some q → q + 4000000 ≤ s.tick) ∧ s.pwr.aon = true ∧ s.pwr.trip = false ∧ s.pwr.dev ≠ .off ∧ s.takesReports) ∧
    (∃ (s : State) (k : Nat), s.bbx.pfailLow = false ∧ (∀ q, s.bbx.pfailRose = some q → q + 4000000 ≤ s.tick) ∧ s.pwr.aon = true ∧ s.pwr.trip = false ∧ s.pwr.dev ≠ .off ∧ s.fltRuns = false ∧ s.bbx.stopped = false ∧ s.bbx.writing = none ∧ s.snapAfter s.latestSnap = some k) ∧
    (∃ (s : State), s.bbx.pfailLow = true) ∧
    (∃ (s : State), s.bbx.pfailLow = false) ∧
    (∃ (s : State) (k : Nat), s.bbx.deferred ≠ 0 ∧ s.bbx.writing = none ∧ s.bbx.stopped = false ∧ s.pwr.aon = true ∧ s.pwr.trip = false ∧ s.snapAfter s.latestSnap = some k) ∧
    (∃ (s : State), (s.bbx.deferred = 0 ∨ s.bbx.writing.isSome = true)) ∧
    (∃ (s : State), s.bbx.writing = none) ∧
    (∃ (s : State) (w : SnapWrite), s.bbx.writing = some w ∧ bit s.bbx.deferred 1 = false ∧ bit s.bbx.deferred 3 = false) ∧
    (∃ (s : State) (w : SnapWrite), s.bbx.writing = some w ∧ 2 ≤ (s.usableSnaps.filter fun j => j != w.slot).length) ∧
    (∃ (s : State) (w : SnapWrite), s.bbx.writing = some w ∧ (s.usableSnaps.filter fun j => j != w.slot).length < 2) :=
  ⟨⟨up.modBbx fun b => { b with stopped := true }, hd (4 + ((u8 1)).length), ses, writeTaken_of_writes (by decide), by decide⟩,
    ⟨up.modBbx fun b => { b with writing := some snapWrite }, hd (4 + ((u8 1)).length), ses, writeTaken_of_writes (by decide), by decide, by decide⟩,
    ⟨up, hd (4 + ((u8 1)).length), ses, (0 : Nat), writeTaken_of_writes (by decide), by decide, by decide, by decide, by decide, by decide, by decide⟩,
    ⟨up.modBbx fun b => { b with pfailRose := some 10000000000000 }, .inr ⟨10000000000000, by decide, by decide⟩⟩,
    ⟨up, by decide, by decide, by decide, by decide, by decide, (by unfold State.takesReports; decide)⟩,
    ⟨upIn .boot, (0 : Nat), by decide, by decide, by decide, by decide, by decide, by decide, by decide, by decide, by decide⟩,
    ⟨up.modBbx fun b => { b with pfailLow := true }, by decide⟩,
    ⟨up, by decide⟩,
    ⟨up.modBbx fun b => { b with deferred := 4 }, (0 : Nat), by decide, by decide, by decide, by decide, by decide, by decide⟩,
    ⟨up, by decide⟩,
    ⟨up, by decide⟩,
    ⟨up.modBbx fun b => { b with writing := some snapWrite }, snapWrite, by decide, by decide, by decide⟩,
    ⟨up.modBbx fun b => { b with writing := some snapWrite }, snapWrite, by decide, by decide⟩,
    ⟨up.modBbx fun b => { b with writing := some snapWrite, slots := (List.range 63).map fun k => (k + 1, { SnapSlot.blank with state := .retired }) }, snapWrite, by decide, by decide⟩⟩

theorem witness_TemperaturesAreWatched :
    (∃ (s : State), s.on domMGT = true) ∧
    (∃ (s : State), s.on domMGT = true ∧ s.therm.tripPending = true ∧ s.anyAt 115 = false ∧ s.therm.lastHot + 40000000 ≤ s.tick) ∧
    (∃ (s : State), (s.therm.tripPending = false ∨ s.anyAt 115 = true ∨ s.tick < s.therm.lastHot + 40000000)) ∧
    (∃ (s : State) (v : Option Int) (r : Int), s.pwr.dev ≠ .off ∧ v = some r ∧ 125000 ≤ r ∧ r ≤ 150000) ∧
    (∃ (s : State) (v : Option Int), s.pwr.dev ≠ .off ∧ (∀ r, v = some r → r < 125000 ∨ 150000 < r)) ∧
    (∃ (s : State), s.pwr.dev = .off) ∧
    (∃ (s : State) (n : Nat), s.on domMGT = true ∧ s.therm.channel = n ∧ n < 64 ∧ n < 8) ∧
    (∃ (s : State) (n : Nat), s.on domMGT = true ∧ s.therm.channel = n ∧ n < 64 ∧ n < 8) ∧
    (∃ (s : State) (n : Nat), s.on domMGT = true ∧ s.therm.channel = n ∧ n < 64 ∧ 8 ≤ n ∧ n < 21) ∧
    (∃ (s : State) (n : Nat), s.on domMGT = true ∧ s.therm.channel = n ∧ n < 64 ∧ 21 ≤ n ∧ n < 33 ∧ s.num 0x2310 ((n - 21) / 3 + 1) = 0) ∧
    (∃ (s : State) (n : Nat), s.on domMGT = true ∧ s.therm.channel = n ∧ n < 64 ∧ 21 ≤ n ∧ n < 33 ∧ s.num 0x2310 ((n - 21) / 3 + 1) ≠ 0) ∧
    (∃ (s : State) (n : Nat), s.on domMGT = true ∧ s.therm.channel = n ∧ n < 64 ∧ 33 ≤ n) ∧
    (∃ (s : State), s.on domMGT = true ∧ s.therm.roundRead = true) ∧
    (∃ (s : State), s.on domMGT = true) ∧
    (∃ (s : State), s.therm.roundRead = false) ∧
    (∃ (s : State), s.on domMGT = false) ∧
    (∃ (s : State), s.on domMGT = false) ∧
    (∃ (s : State), s.on domMGT = false) ∧
    (∃ (s : State), s.on domMGT = false) :=
  ⟨⟨up, by decide⟩,
    ⟨{ up with therm := { up.therm with tripPending := true } }, by decide, by decide, by decide, by decide⟩,
    ⟨up, by decide⟩,
    ⟨up, some 126000, (126000 : Int), by decide, by decide, by decide, by decide⟩,
    ⟨up, some 60000, by decide, by decide⟩,
    ⟨upIn .off, by decide⟩,
    ⟨up, (0 : Nat), by decide, by decide, by decide, by decide⟩,
    ⟨up, (0 : Nat), by decide, by decide, by decide, by decide⟩,
    ⟨{ up with therm := { up.therm with channel := 10 } }, (10 : Nat), by decide, by decide, by decide, by decide, by decide⟩,
    ⟨{ up with therm := { up.therm with channel := 22 } }, (22 : Nat), by decide, by decide, by decide, by decide, by decide, by decide⟩,
    ⟨{ chanIn .ready with therm := { up.therm with channel := 22 } }, (22 : Nat), by decide, by decide, by decide, by decide, by decide, by decide⟩,
    ⟨{ up with therm := { up.therm with channel := 40 } }, (40 : Nat), by decide, by decide, by decide, by decide⟩,
    ⟨{ up with therm := { up.therm with roundRead := true } }, by decide, by decide⟩,
    ⟨up, by decide⟩,
    ⟨up, by decide⟩,
    ⟨up.modPwr fun p => { p with doms := aonOnlyDoms }, by decide⟩,
    ⟨up.modPwr fun p => { p with doms := aonOnlyDoms }, by decide⟩,
    ⟨up.modPwr fun p => { p with doms := aonOnlyDoms }, by decide⟩,
    ⟨up.modPwr fun p => { p with doms := aonOnlyDoms }, by decide⟩⟩

theorem witness_PicturesArePassedOn :
    (∃ (s : State) (k : Trig) (rest : List Trig), s.vis.trigs = k :: rest ∧ (s.on domVIS = false ∨ s.num 0x2644 (k.unit + 1) ≠ 17 + s.num 0x2D10 1 ∨ s.usedPorts = [])) ∧
    (∃ (s : State) (k : Trig) (rest : List Trig), s.vis.trigs = k :: rest ∧ s.on domVIS = true ∧ s.num 0x2644 (k.unit + 1) = 17 + s.num 0x2D10 1 ∧ s.usedPorts ≠ [] ∧ (∀ (l : Nat), s.vis.lastI = some l → l < k.count - 1) ∧ (k.count - 1) % s.frameLines ≠ 0) ∧
    (∃ (s : State) (k : Trig) (rest : List Trig), s.vis.trigs = k :: rest) ∧
    (∃ (s : State), s.vis.trigs = []) ∧
    (∃ (s : State) (p : CamPort) (r : PendTrig) (rest : List PendTrig), (s.cam p.val).pending = r :: rest) ∧
    (∃ (s : State) (p : CamPort), (s.cam p.val).pending = []) ∧
    (∃ (s : State) (p : CamPort), (s.cam p.val).enabled = true ∧ (s.cam p.val).silent = false ∧ 64 ≤ (s.cam p.val).expiredRun) ∧
    (∃ (s : State) (p : CamPort), (s.cam p.val).expiredRun < 64) ∧
    (∃ (s : State) (p : CamPort) (h : CsiHead), s.on domVIS = true ∧ s.portUsed p.val = true ∧ h.ecc ≠ .bad ∧ h.vc.toNat = s.num 0x2C13 (p.val + 1)) ∧
    (∃ (s : State) (p : CamPort) (h : CsiHead) (f : PortFrame), s.on domVIS = true ∧ s.portUsed p.val = true ∧ h.ecc ≠ .bad ∧ h.vc.toNat = s.num 0x2C13 (p.val + 1) ∧ (s.cam p.val).frame = some f) ∧
    (∃ (s : State) (p : CamPort) (h : CsiHead), s.on domVIS = true ∧ s.portUsed p.val = true ∧ h.ecc = .bad) ∧
    (∃ (s : State) (p : CamPort) (h : CsiHead), s.on domVIS = true ∧ s.portUsed p.val = true ∧ h.ecc = .clean ∧ h.vc.toNat ≠ s.num 0x2C13 (p.val + 1)) ∧
    (∃ (s : State) (p : CamPort) (l : CsiLine) (r : PendTrig), s.on domVIS = true ∧ s.portUsed p.val = true ∧ l.head.ecc ≠ .bad ∧ l.head.vc.toNat = s.num 0x2C13 (p.val + 1) ∧ l.dataType.toNat = s.num 0x2C14 (p.val + 1) ∧ nearestRecord ((s.stamp + 2 ^ 32 - l.age % 2 ^ 32) % 2 ^ 32) (s.num 0x2C1C (p.val + 1)) (s.num 0x2C1D (p.val + 1)) (s.cam p.val).pending = some r ∧ (s.cam p.val).frame.all (fun f => !f.discard && f.j.all (· == r.i / s.frameLines)) = true ∧ (s.cam p.val).closedTo ≤ r.i / s.frameLines) ∧
    (∃ (s : State) (p : CamPort) (l : CsiLine), s.on domVIS = true ∧ s.portUsed p.val = true ∧ l.head.ecc ≠ .bad ∧ l.head.vc.toNat = s.num 0x2C13 (p.val + 1) ∧ l.dataType.toNat = s.num 0x2C14 (p.val + 1) ∧ nearestRecord ((s.stamp + 2 ^ 32 - l.age % 2 ^ 32) % 2 ^ 32) (s.num 0x2C1C (p.val + 1)) (s.num 0x2C1D (p.val + 1)) (s.cam p.val).pending = none) ∧
    (∃ (s : State) (p : CamPort), (s.on domVIS = false ∨ s.portUsed p.val = false)) ∧
    (∃ (s : State) (p : CamPort), (s.on domVIS = false ∨ s.portUsed p.val = false)) ∧
    (∃ (s : State) (p : CamPort), (s.on domVIS = false ∨ s.portUsed p.val = false)) ∧
    (∃ (s : State) (x : Stitch) (rest : List Stitch), s.vis.stitch = x :: rest ∧ s.on domVIS = true ∧ s.lineReady x = true ∧ s.boltedIpl = false ∧ s.usedPorts ≠ []) ∧
    (∃ (s : State) (x : Stitch) (rest : List Stitch), s.vis.stitch = x :: rest ∧ (s.on domVIS = false ∨ s.lineReady x = false)) ∧
    (∃ (s : State) (f : WebFrame) (rest : List WebFrame), s.vis.frames = f :: rest ∧ s.on domVIS = true ∧ s.boltedIpl = false ∧ s.frameDone f = true) ∧
    (∃ (s : State) (f : WebFrame) (rest : List WebFrame), s.vis.frames = f :: rest ∧ (s.on domVIS = false ∨ s.frameDone f = false)) ∧
    (∃ (s : State) (k : Fin 3) (p : Product), s.rin.linkUp = true ∧ (vget s.vis.rings k.val []).find? (fun x => x.sent.any (· < x.data.length)) = some p) ∧
    (∃ (s : State), s.rin.linkUp = false) ∧
    (∃ (s : State) (p : CamPort) (b : CciBatch) (a : CciAnswer), (s.cam p.val).batch = some b ∧ a.failed.all (b.writes.length ≤ ·) = true) ∧
    (∃ (s : State) (p : CamPort) (b : CciBatch) (a : CciAnswer) (k : Nat), (s.cam p.val).batch = some b ∧ a.failed = some k ∧ k < b.writes.length) ∧
    (∃ (s : State) (p : CamPort), (s.cam p.val).batch = none) ∧
    (∃ (s : State) (h : Hdr) (p : CamPort) (v : Bytes) (x : Session) (c : Instr), c ∈ [Instr.cciCommandWrite h p v, .cciCommandRead h p v] ∧ WriteTaken s h 0x2C28 (p.val + 1) v x ∧ s.boltedPort p.val = true) ∧
    (∃ (s : State) (h : Hdr) (p : CamPort) (v : Bytes) (x : Session) (c : Instr), c ∈ [Instr.cciCommandWrite h p v, .cciCommandRead h p v] ∧ WriteTaken s h 0x2C28 (p.val + 1) v x ∧ s.boltedPort p.val = false ∧ (s.cam p.val).host.isSome = true) ∧
    (∃ (s : State) (h : Hdr) (p : CamPort) (v : Bytes) (x : Session) (c : Instr), c ∈ [Instr.cciCommandWrite h p v, .cciCommandRead h p v] ∧ WriteTaken s h 0x2C28 (p.val + 1) v x ∧ s.boltedPort p.val = false ∧ (s.cam p.val).host = none ∧ v.length = 8 ∧ leAt v 0 1 ≤ 1 ∧ 1 ≤ leAt v 1 1 ∧ leAt v 1 1 ≤ 4) ∧
    (∃ (s : State) (p : CamPort) (q : CciHost), (s.cam p.val).host = some q ∧ (s.cam p.val).batch = none) ∧
    (∃ (s : State) (p : CamPort), (s.cam p.val).host = none) ∧
    (∃ (s : State) (h : Hdr) (p : CamPort) (x : Session), WriteTaken s h 0x2C10 (p.val + 1) (u8 0) x) ∧
    (∃ (s : State) (h : Hdr) (p : CamPort) (x : Session), WriteTaken s h 0x2C10 (p.val + 1) (u8 1) x ∧ s.boltedPort p.val = true) ∧
    (∃ (s : State) (h : Hdr) (p : CamPort) (x : Session), WriteTaken s h 0x2C10 (p.val + 1) (u8 1) x ∧ s.boltedPort p.val = false ∧ (s.cam p.val).enabled = false ∧ (∀ (q : Nat), q < 4 → (s.cam q).enabled = false) ∧ s.num 0x2C18 (p.val + 1) + s.num 0x2C19 (p.val + 1) ≤ s.num 0x2C16 (p.val + 1) ∧ s.num 0x2C1A (p.val + 1) + s.num 0x2C19 (p.val + 1) ≤ s.num 0x2D10 3 ∧ s.num 0x2C1D (p.val + 1) < s.num 0x2C1C (p.val + 1) ∧ cciMapOk (s.bytes 0x2C25 (p.val + 1)) = true ∧ statZones s.num ≤ 512) ∧
    (∃ (s : State) (h : Hdr) (p : CamPort) (x : Session), WriteTaken s h 0x2C10 (p.val + 1) (u8 1) x ∧ s.boltedPort p.val = false ∧ (s.cam p.val).enabled = false ∧ s.num 0x2C16 (p.val + 1) < s.num 0x2C18 (p.val + 1) + s.num 0x2C19 (p.val + 1)) :=
  ⟨⟨seen up fun v => { v with trigs := [trig] }, trig, ([] : List Trig), by decide, by decide⟩,
    ⟨seen ((camera id).setNum 0x2644 1 17) fun v => { v with trigs := [trig] }, trig, ([] : List Trig), by decide, by decide, by decide, by decide, by decide, by decide⟩,
    ⟨seen up fun v => { v with trigs := [trig] }, trig, ([] : List Trig), by decide⟩,
    ⟨up, by decide⟩,
    ⟨seen (camera fun c => { c with pending := [pendTrig] }) fun v => { v with stitch := [stitch .awaited] }, 0, pendTrig, ([] : List PendTrig), by decide⟩,
    ⟨up, 0, by decide⟩,
    ⟨camera fun c => { c with expiredRun := 64 }, 0, by decide, by decide, by decide⟩,
    ⟨up, 0, by decide⟩,
    ⟨camera id, 0, csiHead, by decide, by decide, by decide, by decide⟩,
    ⟨camera fun c => { c with frame := some portFrame }, 0, csiHead, portFrame, by decide, by decide, by decide, by decide, by decide⟩,
    ⟨camera id, 0, { csiHead with ecc := .bad }, by decide, by decide, by decide⟩,
    ⟨camera id, 0, { csiHead with vc := 1 }, by decide, by decide, by decide, by decide⟩,
    ⟨seen (camera fun c => { c with pending := [{ pendTrig with trig := { trig with ns := up.stamp - 20000 } }] }) fun v => { v with stitch := [stitch .awaited] }, 0, csiLine, { pendTrig with trig := { trig with ns := up.stamp - 20000 } }, by decide, by decide, by decide, by decide, by decide, by decide, by decide, by decide⟩,
    ⟨camera id, 0, csiLine, by decide, by decide, by decide, by decide, by decide, by decide⟩,
    ⟨up, 0, by decide⟩,
    ⟨up, 0, by decide⟩,
    ⟨up, 0, by decide⟩,
    ⟨seen ((camera id).setNum 0x2D10 3 64) fun v => { v with stitch := [stitch .fill] }, stitch .fill, ([] : List Stitch), by decide, by decide, by decide, by decide, by decide⟩,
    ⟨seen (camera id) fun v => { v with stitch := [stitch .awaited] }, stitch .awaited, ([] : List Stitch), by decide, by decide⟩,
    ⟨seen ((camera id).setNum 0x2D10 2 64) fun v => { v with frames := [webFrame] }, webFrame, ([] : List WebFrame), by decide, by decide, by decide, by decide⟩,
    ⟨seen (camera id) fun v => { v with frames := [webFrame] }, webFrame, ([] : List WebFrame), by decide, by decide⟩,
    ⟨{ seen up (fun v => { v with rings := Vector.replicate 3 [product] }) with rin := { Rin.start with linkUp := true } }, 0, product, by decide, by decide⟩,
    ⟨up, by decide⟩,
    ⟨camera fun c => { c with batch := some batch }, 0, batch, (⟨[], none⟩ : CciAnswer), by decide, by decide⟩,
    ⟨camera fun c => { c with batch := some batch }, 0, batch, (⟨[], some 0⟩ : CciAnswer), (0 : Nat), by decide, by decide, by decide⟩,
    ⟨up, 0, by decide⟩,
    ⟨up.setNum 0x2F14 3 1, hd (4 + ((([0, 2, 0, 3, 1, 2, 0, 0] : Bytes) : Bytes)).length), 0, ([0, 2, 0, 3, 1, 2, 0, 0] : Bytes), ses, Instr.cciCommandWrite (hd 12) 0 [0, 2, 0, 3, 1, 2, 0, 0], by decide, writeTaken_of_writes (by decide), by decide⟩,
    ⟨camera fun c => { c with host := some cciHost }, hd (4 + ((([0, 2, 0, 3, 1, 2, 0, 0] : Bytes) : Bytes)).length), 0, ([0, 2, 0, 3, 1, 2, 0, 0] : Bytes), ses, Instr.cciCommandWrite (hd 12) 0 [0, 2, 0, 3, 1, 2, 0, 0], by decide, writeTaken_of_writes (by decide), by decide, by decide⟩,
    ⟨camera id, hd (4 + ((([0, 2, 0, 3, 1, 2, 0, 0] : Bytes) : Bytes)).length), 0, ([0, 2, 0, 3, 1, 2, 0, 0] : Bytes), ses, Instr.cciCommandWrite (hd 12) 0 [0, 2, 0, 3, 1, 2, 0, 0], by decide, writeTaken_of_writes (by decide), by decide, by decide, by decide, by decide, by decide, by decide⟩,
    ⟨camera fun c => { c with host := some cciHost }, 0, cciHost, by decide, by decide⟩,
    ⟨up, 0, by decide⟩,
    ⟨camera id, hd (4 + ((u8 0)).length), 0, ses, writeTaken_of_writes (by decide)⟩,
    ⟨up.setNum 0x2F14 3 1, hd (4 + ((u8 1)).length), 0, ses, writeTaken_of_writes (by decide), by decide⟩,
    ⟨up, hd (4 + ((u8 1)).length), 0, ses, writeTaken_of_writes (by decide), by decide, by decide, by decide, by decide, by decide, by decide, by decide, by decide⟩,
    ⟨up.setNum 0x2C18 1 9000, hd (4 + ((u8 1)).length), 0, ses, writeTaken_of_writes (by decide), by decide, by decide, by decide⟩⟩

theorem witness_ColoursAreHeld :
    (∃ (s : State) (w : WebLine) (rest : List CheIn), s.vis.toChe = .line w :: rest ∧ s.holdRuns = false ∧ s.num 0x2D40 1 = 0) ∧
    (∃ (s : State) (w : WebLine) (rest : List CheIn), s.vis.toChe = .line w :: rest ∧ s.holdRuns = true ∧ s.jobBars.all s.covServes = false) ∧
    (∃ (s : State) (w : WebLine) (rest : List CheIn), s.vis.toChe = .line w :: rest ∧ s.holdRuns = true ∧ s.num 0x2D40 1 = 0 ∧ s.jobBars.all s.covServes = true ∧ (s.zoneMismatch = true ∨ s.distanceMissing = true ∨ s.usedPorts = [] ∨ s.jobBars = [])) ∧
    (∃ (s : State) (w : WebLine) (rest : List CheIn), s.vis.toChe = .line w :: rest ∧ s.holdRuns = true ∧ s.num 0x2D40 1 = 0 ∧ s.jobBars.all s.covServes = true ∧ s.zoneMismatch = false ∧ s.distanceMissing = false ∧ s.usedPorts ≠ [] ∧ s.jobBars ≠ [] ∧ s.num 0x2820 9 = 0 ∧ s.mir.missed = [] ∧ (∀ b ∈ s.jobBars, (s.cheBar b).jobStart = none ∧ ∃ r l, s.pairBar b w.trig.pos = .yes r l)) ∧
    (∃ (s : State) (w : WebLine) (rest : List CheIn), s.vis.toChe = .line w :: rest) ∧
    (∃ (s : State), (∀ w rest, s.vis.toChe ≠ .line w :: rest)) ∧
    (∃ (s : State) (c : CloseNotice) (rest : List CheIn), s.vis.toChe = .close c :: rest ∧ s.holdRuns = false) ∧
    (∃ (s : State) (c : CloseNotice) (rest : List CheIn), s.vis.toChe = .close c :: rest ∧ s.holdRuns = true ∧ c.hold = false ∧ s.num 0x2529 (s.che.chan + 1) = s.che.dirAtFrame ∧ s.che.p0 = none) ∧
    (∃ (s : State) (c : CloseNotice) (rest : List CheIn), s.vis.toChe = .close c :: rest ∧ s.holdRuns = true ∧ c.hold = true ∧ s.che.p0 = none) ∧
    (∃ (s : State) (c : CloseNotice) (rest : List CheIn) (p : Nat), s.vis.toChe = .close c :: rest ∧ s.holdRuns = true ∧ c.hold = false ∧ s.num 0x2529 (s.che.chan + 1) = s.che.dirAtFrame ∧ s.che.p0 = some p ∧ ((s.num 0x2820 2 * s.num 0x251B (s.che.chan + 1) : Nat) : Int) ≤ toSigned 48 (s.che.lastPos + 2 ^ 48 - p)) ∧
    (∃ (s : State), (∀ c rest, s.vis.toChe ≠ .close c :: rest)) ∧
    (∃ (s : State) (acc : List (Nat × ZoneAcc)), s.che.solving = some acc ∧ s.on domCTL = true ∧ s.boltedChe = false) ∧
    (∃ (s : State), s.che.solving = none) ∧
    (∃ (s : State) (h : Hdr) (e : Bool) (x : Session), WriteTaken s h 0x2820 1 (u8 (b2n e)) x ∧ s.boltedChe = true) ∧
    (∃ (s : State) (h : Hdr) (e : Bool) (x : Session), WriteTaken s h 0x2820 1 (u8 (b2n e)) x ∧ s.boltedChe = false ∧ e = true ∧ s.num 0x2820 1 = 0 ∧ s.on domCTL = true) ∧
    (∃ (s : State) (h : Hdr) (e : Bool) (x : Session), WriteTaken s h 0x2820 1 (u8 (b2n e)) x ∧ s.boltedChe = false ∧ e = true ∧ s.num 0x2820 1 = 1) ∧
    (∃ (s : State) (h : Hdr) (e : Bool) (x : Session), WriteTaken s h 0x2820 1 (u8 (b2n e)) x ∧ s.boltedChe = false ∧ e = false) ∧
    (∃ (s : State) (h : Hdr) (b : Bar) (v : BitVec 8) (x : Session), WriteTaken s h 0x2810 (b.val + 1) (u8 v.toNat) x ∧ s.boltedChe = true) ∧
    (∃ (s : State) (h : Hdr) (b : Bar) (v : BitVec 8) (x : Session), WriteTaken s h 0x2810 (b.val + 1) (u8 v.toNat) x ∧ s.boltedChe = false ∧ v ≠ 0 ∧ s.map b.val = []) ∧
    (∃ (s : State) (h : Hdr) (b : Bar) (v : BitVec 8) (x : Session), WriteTaken s h 0x2810 (b.val + 1) (u8 v.toNat) x ∧ s.boltedChe = false ∧ (v = 0 ∨ s.map b.val ≠ [])) ∧
    (∃ (s : State) (h : Hdr) (v : BitVec 8) (x : Session), WriteTaken s h 0x2820 11 (u8 v.toNat) x ∧ s.boltedChe = true) ∧
    (∃ (s : State) (h : Hdr) (v : BitVec 8) (x : Session), WriteTaken s h 0x2820 11 (u8 v.toNat) x ∧ s.boltedChe = false) :=
  ⟨⟨seen up fun v => { v with toChe := [.line webLine] }, webLine, ([] : List CheIn), by decide, by decide, by decide⟩,
    ⟨(covered [.line webLine]).modChan 0 fun m => { m with st := .frozen }, webLine, ([] : List CheIn), by decide, by decide, by decide⟩,
    ⟨(covered [.line webLine]).setNum 0x2811 1 0, webLine, ([] : List CheIn), by decide, by decide, by decide, by decide, by decide⟩,
    ⟨covered [.line webLine], webLine, ([] : List CheIn), by decide, by decide, by decide, by decide, by decide, by decide, by decide, by decide, by decide, by decide, (by intro b hb; cases (by simpa using (show b ∈ [0] from hb) : b = 0); exact ⟨rfl, _, _, rfl⟩)⟩,
    ⟨covered [.line webLine], webLine, ([] : List CheIn), by decide⟩,
    ⟨up, (by intro w r e; cases e)⟩,
    ⟨seen up fun v => { v with toChe := [.close ⟨0, 0, false⟩] }, (⟨0, 0, false⟩ : CloseNotice), ([] : List CheIn), by decide, by decide⟩,
    ⟨covered [.close ⟨0, 0, false⟩], (⟨0, 0, false⟩ : CloseNotice), ([] : List CheIn), by decide, by decide, by decide, by decide, by decide⟩,
    ⟨covered [.close ⟨0, 0, true⟩], (⟨0, 0, true⟩ : CloseNotice), ([] : List CheIn), by decide, by decide, by decide, by decide⟩,
    ⟨let q := covered [.close ⟨0, 0, false⟩]; { q with che := { q.che with p0 := some 0, lastPos := 100000000000 } }, (⟨0, 0, false⟩ : CloseNotice), ([] : List CheIn), (0 : Nat), by decide, by decide, by decide, by decide, by decide, by decide⟩,
    ⟨up, (by intro w r e; cases e)⟩,
    ⟨{ up with che := { Che.start with solving := some [] } }, ([] : List (Nat × ZoneAcc)), by decide, by decide, by decide⟩,
    ⟨up, by decide⟩,
    ⟨up.setNum 0x2F14 5 1, hd (4 + ((u8 (b2n (true)))).length), true, ses, writeTaken_of_writes (by decide), by decide⟩,
    ⟨up, hd (4 + ((u8 (b2n (true)))).length), true, ses, writeTaken_of_writes (by decide), by decide, by decide, by decide, by decide⟩,
    ⟨up.setNum 0x2820 1 1, hd (4 + ((u8 (b2n (true)))).length), true, ses, writeTaken_of_writes (by decide), by decide, by decide, by decide⟩,
    ⟨up.setNum 0x2820 1 1, hd (4 + ((u8 (b2n (false)))).length), false, ses, writeTaken_of_writes (by decide), by decide, by decide⟩,
    ⟨up.setNum 0x2F14 5 1, hd (4 + ((u8 (1 : BitVec 8).toNat)).length), 0, 1, ses, writeTaken_of_writes (by decide), by decide⟩,
    ⟨up, hd (4 + ((u8 (1 : BitVec 8).toNat)).length), 0, 1, ses, writeTaken_of_writes (by decide), by decide, by decide, by decide⟩,
    ⟨up.setObj 0x2710 1 (.bytes aMap), hd (4 + ((u8 (1 : BitVec 8).toNat)).length), 0, 1, ses, writeTaken_of_writes (by decide), by decide, by decide⟩,
    ⟨up.setNum 0x2F14 5 1, hd (4 + ((u8 (1 : BitVec 8).toNat)).length), 1, ses, writeTaken_of_writes (by decide), by decide⟩,
    ⟨up, hd (4 + ((u8 (1 : BitVec 8).toNat)).length), 1, ses, writeTaken_of_writes (by decide), by decide⟩⟩

/-! Each check of `Instr.wf` refuses a command that breaks it. -/

theorem test_wf_refuses_a_short_tag : (Instr.keepAlive { hd 0 with tag := [1] }).wf = false := by decide

theorem test_wf_takes_a_whole_tag : (Instr.keepAlive { hd 0 with tag := List.replicate 16 1 }).wf = true := by decide

theorem test_wf_refuses_a_malformed_datagram_with_a_header : (Instr.malformedDatagram 16).wf = false := by decide

theorem test_wf_refuses_an_oversize_datagram_in_bounds :
    (Instr.oversizeDatagram 1472 false).wf = false ∧ (Instr.oversizeDatagram 1452 true).wf = false := by decide

theorem test_wf_refuses_a_known_message_type_as_unknown : (Instr.unknownMsgtype (hd 0) 0x09 []).wf = false := by decide

theorem test_wf_refuses_a_dimm_setting_of_another_object :
    (Instr.dimmSettingWrite (hd 5) 0x2310 1 [0]).wf = false ∧ (Instr.dimmSettingWrite (hd 5) 0x2311 5 [0]).wf = false := by decide

theorem test_wf_refuses_a_commit_of_no_area : (Instr.commitRequest (hd 8) 0x1F 1).wf = false := by decide

theorem test_wf_refuses_a_cci_command_of_the_other_kind :
    (Instr.cciCommandWrite (hd 5) 0 [1]).wf = false ∧ (Instr.cciCommandRead (hd 5) 0 [0]).wf = false := by decide

theorem test_wf_refuses_a_ptp_message_of_no_port :
    (Instr.syncReceived { message with port := 3 }).wf = false ∧ (Instr.pdelayReqReceived { message with mapping := 3 }).wf = false := by
  decide

/-! The manual's worked examples. -/

/-- 03, the example after R76: bars 1, 4, 6 and 7 are pending. -/
theorem test_commit_status_of_a_pending_commit :
    (up.modAdm 0x29 fun a => { a with result := 1, pending := 0xD2 }).commitStatus 0x29 = 0x01D20000 := by decide

/-- 04, the example after R103: the increment of a locked clock, and in holdover. -/
theorem test_increment_of_a_locked_clock : incrementOf (-20170 * 65536) = 0x27FFCB202 ∧ holdoverInc (20010 * 65536) = 0x27FFCB8B8 := by
  decide

/-- 05, the three-line test block: codec 1, width 20, bar 0. -/
theorem test_three_line_block :
    decodeLines 1 20 [(0, 0), (0, 1), (0, 2)] [(0, none)] [0x44, 0x00, 0x02, 0x10, 0x20, 0x30, 0xC0, 0xFF, 0xC1, 0x89, 0x00, 0x7F, 0xC1] [] =
      .ok [(0, 0, [0, 0, 0, 0, 0, 0x10, 0x20, 0x30] ++ List.replicate 12 0xFF),
           (0, 1, [0, 0, 0, 0, 0, 0x10, 0x20, 0x30] ++ List.replicate 12 0xFF),
           (0, 2, [0, 0, 0, 0, 0, 0x10, 0x20, 0x30, 0xFF, 0xFF, 0x7F] ++ List.replicate 9 0xFF)] := by rfl

/-- 09, the element window of 64 lines with limit 40: 48 fires of lines 0 to 127 are suppressed. -/
theorem test_element_window :
    ((List.range 128).foldl (fun r j =>
        dutyAddress { elemLimit := 40, elemWindow := 64, headLimit := 1000000, headWindow := 64, weights := List.replicate 8 0 } j r 0
          { gain := 0, column := 0, state := 0, stitch := 0, ramp := 0, head := 0, element := 0 } 1)
      { elem := [], head := [], levels := [], elemHits := 0, headHits := 0, first := none, last := 0 }).elemHits = 48 := by decide +kernel

/-- 13, placing a record of bar 3: its web position is 3,500,120.0 counts. -/
theorem test_place_of_a_record :
    (({ up.setNum 0x2811 4 1500000 with
        che := { Che.start with track := [⟨1000000, 2000100 * 65536⟩, ⟨1050800, 2000100 * 65536 + 3329229⟩] } }).place 3
      { first := 640000, lines := 4, flags := 0, ns := 1020000, bytes := [] }).2 / 65536 = 3500120 := by decide

end Sys2Proof.Tests
end

section
/-! The part of the state that each class of commands leaves alone: the events of the device, the datagrams, the events of the head
driver modules, the two events of FIRE_EN. -/

namespace Sys2Proof.Machine

variable {qs : List StatePart} {s t : State} {c : Instr}

/-- The parts that an event of the device may change: all but the queue, the tick count, the fuses, the stored credentials, the
modules outside and the FIRE_EN pin. -/
def eventParts : List StatePart :=
  [.fresh, .sent, .objs, .pwr, .flt, .bbx, .wilwa, .net, .tim, .rin, .fet, .mem, .dram, .pos, .lcg, .cmp, .sne, .fsq, .hlk, .hdg, .vis,
   .che, .mir, .therm, .aonDiodes]

/-- The parts that a datagram may change: it may also write a stored credential (R69). -/
def datagramParts : List StatePart := .nonVol :: eventParts

/-- The parts that an event of a head driver module may change: the modules, and what they send (R261 to R269). -/
def hdmParts : List StatePart := [.fresh, .sent, .hdms]

/-- The parts that an edge of FIRE_EN may change (R243). -/
def firePinParts : List StatePart := .fireEn :: eventParts

/-- The parts that a command may change, by its class; what the cycle's boundary applies was received in a datagram (R79). -/
def commandParts (c : Instr) : List StatePart :=
  if ofHdm c then hdmParts
  else match c with
    | .fireEnFall | .fireEnRise => firePinParts
    | .cyclicRxApply => datagramParts
    | c => if c.hdr?.isSome then datagramParts else eventParts

/-! A command's own frame, widened to that of its class. -/

theorem Only.event (h : Only qs s t) (hq : ∀ p ∈ qs, p ∈ eventParts := by decide) : Only eventParts s t := h.mono hq

theorem Only.datagram (h : Only qs s t) (hq : ∀ p ∈ qs, p ∈ datagramParts := by decide) : Only datagramParts s t := h.mono hq

theorem Only.hdm (h : Only qs s t) (hq : ∀ p ∈ qs, p ∈ hdmParts := by decide) : Only hdmParts s t := h.mono hq

theorem Only.firePin (h : Only qs s t) (hq : ∀ p ∈ qs, p ∈ firePinParts := by decide) : Only firePinParts s t := h.mono hq

/-- A command that is a Write of one object changes what a datagram may change. -/
theorem only_of_writeOf {h : Hdr} {i j o : Nat} {b : Bytes} (w : writeOf s c = some (h, i, j, o, b)) (e : exec c s = .next t) :
    Only datagramParts s t := by
  rw [exec_of_writeOf w] at e
  exact .datagram (MovesO.next State.hostWrite_moves |>.only e)

/-- A command changes no part but those of its class. -/
theorem exec_only (e : exec c s = .next t) : Only (commandParts c) s t := by
  cases c with
  | requestStandby | requestConfigured | requestArmed | requestPrinting | requestHeld | requestFrozen | resetRequestChip
  | resetRequestBlock | domainRequest | write | commitRequest | irqCauseClear | cyclicTxRunWrite | cyclicRxRunWrite
  | operatorCredentialWrite | serviceCredentialWrite | timeSet | servoEnableWrite | legacyLatch | mdioC22Write | mdioC22Read
  | mdioC45Address | mdioC45Write | mdioC45Read | intakeEnableWrite | forwardRestart | slotOpen | slotSeal | slotClear
  | queuedSlotWrite | changeAtRepeatWrite | channelReleaseIssue | channelReleaseDiscard | channelReleaseRetrain
  | trainPresentPoint | clearStoredResults | opPointSelectWrite | channelEnableWrite | dimmSettingWrite | lfsrSeedWrite
  | channelModeWrite | zoneWidthWrite | outputLevelWrite | bitSlip | laneRetrain | laneEnterTest | laneLeaveTest
  | testInjectBit | testInjectBurst | measStart | measAbandon | measCaptureBaseline | pendingApply | cciCommandWrite
  | cciCommandRead | portEnableWrite | holdRunWrite | holdModeWrite | refCommand | roleRequestSolo | roleRequestActive
  | roleRequestStandby | mirrorPairAgain | mirrorPlannedSwap | mirrorTakeOver | mirrorDissolve | collectorModeLatch
  | collectorModeNormal | latchWordClear | errPinClear | snapshotCommand =>
    exact only_of_writeOf rfl e
  | suppliesInRange => exact .event (execSuppliesInRange_moves.only e)
  | supplyOutOfRange => exact .event (execSupplyOutOfRange_moves.only e)
  | porstLow => exact .event (execPorstLow_moves.only e)
  | porstRise => exact .event (execPorstRise_moves.only e)
  | bootComplete => exact .event (execBootComplete_moves.only e)
  | vddAonRemoved => exact .event (execVddAonRemoved_moves.only e)
  | configuredTrainingDone => exact .event (execConfiguredTrainingDone_moves.only e)
  | resumeBurstEnd => exact .event (execResumeBurstEnd_moves.only e)
  | chipReset => exact .event (execChipReset_moves.only e)
  | blockResetComplete => exact .event (execBlockResetComplete_moves.only e)
  | engineSelfTestDone => exact .event (execEngineSelfTestDone_moves.only e)
  | domainSequenceDone => exact .event (execDomainSequenceDone_moves.only e)
  | mgtNetOffDelayExpiry => exact .event (execMgtNetOffDelayExpiry_moves.only e)
  | wakeNAssert => exact .event (execWakeNAssert_moves.only e)
  | openRequest => exact .datagram (execOpenRequest_moves.only e)
  | unlockRequest => exact .datagram (execUnlockRequest_moves.only e)
  | proof => exact .datagram (execProof_keeps e).only
  | unlockExchangeTimeout => exact .event (execUnlockExchangeTimeout_moves.only e)
  | unlockLockoutEnd => exact .event (execUnlockLockoutEnd_moves.only e)
  | close => exact .datagram (execClose_moves.only e)
  | keepAlive => exact .datagram (execKeepAlive_moves.only e)
  | sessionTimeout => exact .event (execSessionTimeout_moves.only e)
  | read => exact .datagram (execRead_moves.only e)
  | describe => exact .datagram (execDescribe_moves.only e)
  | malformedDatagram => exact .event (execMalformedDatagram_moves.only e)
  | oversizeDatagram => exact .event (execOversizeDatagram_moves.only e)
  | transferInit => exact .datagram (execTransferInit_moves.only e)
  | segment => exact .datagram (execSegment_moves.only e)
  | segmentAck => exact .datagram (execSegmentAck_moves.only e)
  | transferEnd => exact .datagram (execTransferEnd_moves.only e)
  | transferAbort => exact .datagram (execTransferAbort_moves.only e)
  | transferResendTimeout => exact .event (execTransferResendTimeout_moves.only e)
  | transferTimeout => exact .event (execTransferTimeout_moves.only e)
  | emergencyAck => exact .datagram (execEmergencyAck_moves.only e)
  | emergencyRetransmitTimeout => exact .event (execEmergencyRetransmitTimeout_moves.only e)
  | cycleBoundary => exact .event (execCycleBoundary_moves.only e)
  | cyclicTransmit => exact .event (execCyclicTransmit_moves.only e)
  | cyclicReceive => exact .datagram (execCyclicReceive_moves.only e)
  | cyclicRxApply => exact .datagram (execCyclicRxApply_moves.only e)
  | cyclicRxWatchdogExpiry => exact .event (execCyclicRxWatchdogExpiry_moves.only e)
  | frameForward => exact .event (execFrameForward_moves.only e)
  | announceReceived => exact .event (execAnnounceReceived_moves.only e)
  | syncReceived => exact .event (execSyncReceived_moves.only e)
  | delayRespReceived => exact .event (execDelayRespReceived_moves.only e)
  | pdelayReqReceived => exact .event (execPdelayReqReceived_moves.only e)
  | pdelayRespReceived => exact .event (execPdelayRespReceived_moves.only e)
  | delayReqIntervalExpiry => exact .event (execDelayReqIntervalExpiry_moves.only e)
  | pdelayReqIntervalExpiry => exact .event (execPdelayReqIntervalExpiry_moves.only e)
  | masterLostTimeout => exact .event (execMasterLostTimeout_moves.only e)
  | eraWrap => exact .event (execEraWrap_moves.only e)
  | addressChangeEffect => exact .event (execAddressChangeEffect_moves.only e)
  | mdioTransactionDone => exact .event (execMdioTransactionDone_moves.only e)
  | networkLinkUp => exact .event (execNetworkLinkUp_moves.only e)
  | networkLinkLost => exact .event (execNetworkLinkLost_moves.only e)
  | rasterLinkUp => exact .event (execRasterLinkUp_moves.only e)
  | rasterTrainingTimeout => exact .event (execRasterTrainingTimeout_moves.only e)
  | rasterLinkLost => exact .event (execRasterLinkLost_moves.only e)
  | rasterBlockReceived => exact .event (execRasterBlockReceived_moves.only e)
  | jobWriterBlock => exact .event (execJobWriterBlock_moves.only e)
  | streamDecodeBlock => exact .event (execStreamDecodeBlock_moves.only e)
  | forwardBlock => exact .event (execForwardBlock_moves.only e)
  | forwardAckTimeout => exact .event (execForwardAckTimeout_moves.only e)
  | blockRelease => exact .event (execBlockRelease_moves.only e)
  | sealPassDone => exact .event (execSealPassDone_moves.only e)
  | fetIssueLine => exact .event (execFetIssueLine_moves.only e)
  | memoryRequest => exact .event (execMemoryRequest_moves.only e)
  | memoryReadComplete => exact .event (execMemoryReadComplete_moves.only e)
  | alertNAssert => exact .event (execAlertNAssert_moves.only e)
  | rtBurstLimit => exact .event (execRtBurstLimit_moves.only e)
  | burstGuardEnd => exact .event (execBurstGuardEnd_moves.only e)
  | refreshIntervalBoundary => exact .event (execRefreshIntervalBoundary_moves.only e)
  | channelTrainingDone => exact .event (execChannelTrainingDone_moves.only e)
  | freqChangeDone => exact .event (execFreqChangeDone_moves.only e)
  | idleTimeExpiry => exact .event (execIdleTimeExpiry_moves.only e)
  | dqsDriftCorrection => exact .event (execDqsDriftCorrection_moves.only e)
  | countChange => exact .event (execCountChange_moves.only e)
  | hallStateChange => exact .event (execHallStateChange_moves.only e)
  | zIndexEdge => exact .event (execZIndexEdge_moves.only e)
  | ssiPeriodExpiry => exact .event (execSsiPeriodExpiry_moves.only e)
  | ssiFrameComplete => exact .event (execSsiFrameComplete_moves.only e)
  | stopTimeout => exact .event (execStopTimeout_moves.only e)
  | markAccepted => exact .event (execMarkAccepted_moves.only e)
  | compareAction => exact .event (execCompareAction_moves.only e)
  | comparePulseEnd => exact .event (execComparePulseEnd_moves.only e)
  | engineSliceLine => exact .event (execEngineSliceLine_moves.only e)
  | engineSliceTimeout => exact .event (execEngineSliceTimeout_moves.only e)
  | linePreparation => exact .event (execLinePreparation_moves.only e)
  | tokenEmission => exact .event (execTokenEmission_moves.only e)
  | overspeedEpisodeEnd => exact .event (execOverspeedEpisodeEnd_moves.only e)
  | lateEpisodeEnd => exact .event (execLateEpisodeEnd_moves.only e)
  | fireEnFall => exact .firePin (execFireEnFall_moves.only e)
  | fireEnRise => exact .firePin (execFireEnRise_moves.only e)
  | speedAdviceUpdate => exact .event (execSpeedAdviceUpdate_moves.only e)
  | spdAdvPeriodStart => exact .event (execSpdAdvPeriodStart_moves.only e)
  | inputEdge => exact .event (execInputEdge_moves.only e)
  | outputCheckExpiry => exact .event (execOutputCheckExpiry_moves.only e)
  | ownerInterval => exact .event (execOwnerInterval_moves.only e)
  | releaseRepeatInterval => exact .event (execReleaseRepeatInterval_moves.only e)
  | syncInterval => exact .event (execSyncInterval_moves.only e)
  | latencyProbeInterval => exact .event (execLatencyProbeInterval_moves.only e)
  | lanePllLocked => exact .event (execLanePllLocked_moves.only e)
  | laneWakeTimeout => exact .event (execLaneWakeTimeout_moves.only e)
  | firmwareSlipWait => exact .event (execFirmwareSlipWait_moves.only e)
  | syncHeaderRunReached => exact .event (execSyncHeaderRunReached_moves.only e)
  | laneAlignTimeout => exact .event (execLaneAlignTimeout_moves.only e)
  | capResendInterval => exact .event (execCapResendInterval_moves.only e)
  | capReceived => exact .event (execCapReceived_moves.only e)
  | laneCapTimeout => exact .event (execLaneCapTimeout_moves.only e)
  | statEchoReceived => exact .event (execStatEchoReceived_moves.only e)
  | statTableAckReceived => exact .event (execStatTableAckReceived_moves.only e)
  | laneTableAckTimeout => exact .event (execLaneTableAckTimeout_moves.only e)
  | statStatusReceived => exact .event (execStatStatusReceived_moves.only e)
  | statMeasResultReceived => exact .event (execStatMeasResultReceived_moves.only e)
  | statSilenceTimeout => exact .event (execStatSilenceTimeout_moves.only e)
  | laneLockLost => exact .event (execLaneLockLost_moves.only e)
  | hdmLineFrame => exact .hdm (execHdmLineFrame_moves.only e)
  | hdmToken => exact .hdm (execHdmToken_moves.only e)
  | hdmOwnerFrame _ _ active => exact .hdm ((execHdmOwnerFrame_moves (_active := active)).only e)
  | hdmRelease => exact .hdm (execHdmRelease_moves.only e)
  | hdmValidforExpiry => exact .hdm (execHdmValidforExpiry_moves.only e)
  | hdmSyncFrame => exact .hdm (execHdmSyncFrame_moves.only e)
  | hdmTableFrame => exact .hdm (execHdmTableFrame_moves.only e)
  | hdmMeasFrame => exact .hdm (execHdmMeasFrame_moves.only e)
  | hdmCapFrame => exact .hdm (execHdmCapFrame_moves.only e)
  | hdmStatusInterval => exact .hdm (execHdmStatusInterval_moves.only e)
  | measTimeout => exact .event (execMeasTimeout_moves.only e)
  | triggerRecord => exact .event (execTriggerRecord_moves.only e)
  | triggerRecordExpiry => exact .event (execTriggerRecordExpiry_moves.only e)
  | portSilent => exact .event (execPortSilent_moves.only e)
  | csiLine => exact .event (execCsiLine_moves.only e)
  | csiFrameStart => exact .event (execCsiFrameStart_moves.only e)
  | csiFrameEnd => exact .event (execCsiFrameEnd_moves.only e)
  | stitchedLineComplete => exact .event (execStitchedLineComplete_moves.only e)
  | webFrameClose => exact .event (execWebFrameClose_moves.only e)
  | productRecordSend => exact .event (execProductRecordSend_moves.only e)
  | cciBatchComplete => exact .event (execCciBatchComplete_moves.only e)
  | cciHostTransactionDone => exact .event (execCciHostTransactionDone_moves.only e)
  | chePairLine => exact .event (execChePairLine_moves.only e)
  | cheFrameClose => exact .event (execCheFrameClose_moves.only e)
  | tumblerSolveDone => exact .event (execTumblerSolveDone_moves.only e)
  | handoverStateSend => exact .event (execHandoverStateSend_moves.only e)
  | icselLinkUp => exact .event (execIcselLinkUp_moves.only e)
  | icselLinkLost => exact .event (execIcselLinkLost_moves.only e)
  | helloInterval => exact .event (execHelloInterval_moves.only e)
  | helloReceived => exact .event (execHelloReceived_moves.only e)
  | mirrorCycleBoundary => exact .event (execMirrorCycleBoundary_moves.only e)
  | stateFrameReceived => exact .event (execStateFrameReceived_moves.only e)
  | sackReceived => exact .event (execSackReceived_moves.only e)
  | commitFrameReceived => exact .event (execCommitFrameReceived_moves.only e)
  | fwdReceived => exact .event (execFwdReceived_moves.only e)
  | fackReceived => exact .event (execFackReceived_moves.only e)
  | slotFrameReceived => exact .event (execSlotFrameReceived_moves.only e)
  | refFrameReceived => exact .event (execRefFrameReceived_moves.only e)
  | keyExpiry => exact .event (execKeyExpiry_moves.only e)
  | takeoverAtReached => exact .event (execTakeoverAtReached_moves.only e)
  | reclaimCheck => exact .event (execReclaimCheck_moves.only e)
  | faultReport => exact .event (execFaultReport_moves.only e)
  | faultReportTaken => exact .event (execFaultReportTaken_moves.only e)
  | railBrokenWire => exact .event (execRailBrokenWire_moves.only e)
  | railErrorTimeout => exact .event (execRailErrorTimeout_moves.only e)
  | pfailAssert => exact .event (execPfailAssert_moves.only e)
  | snapshotMinIntervalExpiry => exact .event (execSnapshotMinIntervalExpiry_moves.only e)
  | snapshotWriteDone => exact .event (execSnapshotWriteDone_moves.only e)
  | thermalModelUpdate => exact .event (execThermalModelUpdate_moves.only e)
  | tripPendingEnd => exact .event (execTripPendingEnd_moves.only e)
  | aonDiodeConversion => exact .event (execAonDiodeConversion_moves.only e)
  | tripShutdown => exact .event (execTripShutdown_moves.only e)
  | housekeepingRead => exact .event (execHousekeepingRead_moves.only e)
  | housekeepingRoundEnd => exact .event (execHousekeepingRoundEnd_moves.only e)
  | engineSelectionInterval => exact .event (execEngineSelectionInterval_moves.only e)
  | followUpReceived => exact .event (execFollowUpReceived_moves.only e)
  | addressTableAgeing => exact .event (execAddressTableAgeing_moves.only e)
  | unknownMsgtype => exact .datagram (execUnknownMsgtype_moves.only e)
  | pfailNRise => exact .event (execPfailNRise_moves.only e)
  | checkerLock => exact .event (execCheckerLock_moves.only e)
  | checkerLockLost => exact .event (execCheckerLockLost_moves.only e)
  | hdmBlockAligned => exact .hdm (execHdmBlockAligned_moves.only e)
  | hdmBlockLockLost => exact .hdm (execHdmBlockLockLost_moves.only e)

/-- The four classes of commands. -/
theorem commandParts_cases (c : Instr) :
    (ofHdm c = true ∧ commandParts c = hdmParts) ∨
    ((c = .fireEnFall ∨ c = .fireEnRise) ∧ commandParts c = firePinParts) ∨
    ((c.hdr?.isSome = true ∨ c = .cyclicRxApply) ∧ commandParts c = datagramParts) ∨
    commandParts c = eventParts := by
  unfold commandParts
  split
  case isTrue h => exact .inl ⟨h, rfl⟩
  case isFalse =>
    split
    · exact .inr (.inl ⟨.inl rfl, rfl⟩)
    · exact .inr (.inl ⟨.inr rfl, rfl⟩)
    · exact .inr (.inr (.inl ⟨.inr rfl, rfl⟩))
    · split
      case isTrue h => exact .inr (.inr (.inl ⟨.inl h, rfl⟩))
      case isFalse => exact .inr (.inr (.inr rfl))

theorem fireEn_notMem_commandParts (hf : c ≠ .fireEnFall) (hr : c ≠ .fireEnRise) : .fireEn ∉ commandParts c := by
  obtain ⟨-, h⟩ | ⟨h, -⟩ | ⟨-, h⟩ | h := commandParts_cases c
  · rw [h]; decide
  · exact absurd h (not_or.2 ⟨hf, hr⟩)
  · rw [h]; decide
  · rw [h]; decide

theorem hdms_notMem_commandParts (hc : ofHdm c = false) : .hdms ∉ commandParts c := by
  obtain ⟨h, -⟩ | ⟨-, h⟩ | ⟨-, h⟩ | h := commandParts_cases c
  · exact absurd h (by rw [hc]; decide)
  · rw [h]; decide
  · rw [h]; decide
  · rw [h]; decide

theorem nonVol_notMem_commandParts (hc : c.hdr? = none) (ha : c ≠ .cyclicRxApply) : .nonVol ∉ commandParts c := by
  obtain ⟨-, h⟩ | ⟨-, h⟩ | ⟨h, -⟩ | h := commandParts_cases c
  · rw [h]; decide
  · rw [h]; decide
  · exact absurd h (not_or.2 ⟨by rw [hc]; decide, ha⟩)
  · rw [h]; decide

/-- Settles O8, by the frame of each class of commands (`exec_only`), and for the queue, the tick count and the fuses by the frame
of every command (`exec_keeps`). -/
theorem commandsKeepTheirPlaces : Obligations.CommandsKeepTheirPlaces := by
  unfold Obligations.CommandsKeepTheirPlaces
  refine ⟨fun c s t e => ?_, fun c s t e hf hr => ?_, fun c s t e hc => ?_, fun c s t e hc ha => ?_⟩
  · have o := (exec_keeps e).only
    exact ⟨o .pending (by decide), o .tick (by decide), o .fuses (by decide)⟩
  · exact exec_only e .fireEn (fireEn_notMem_commandParts hf hr)
  · exact exec_only e .hdms (hdms_notMem_commandParts hc)
  · exact exec_only e .nonVol (nonVol_notMem_commandParts hc ha)

end Sys2Proof.Machine
end

section
/-! Why a change of role is no matter of MIR alone: a device that owns lanes and leaves role SOLO gives the lanes up, and asks each for
a RELEASE block (R267), so HLK changes too. -/

namespace Sys2Proof.Machine

theorem State.lane_congr {s t : State} (h : t.hlk = s.hlk) (l : Nat) : t.lane l = s.lane l := by
  unfold State.lane; rw [h]

/-- An open version 2 session of a host at service level. -/
def roleSession : Session :=
  { sid := 1, src := { ip := { v6 := false, addr := 1 }, port := 50000 }, version := 2, level := 2, emergency := false, seq := 0,
    openSeq := 0, stored := none, openResp := none, heard := false, exchange := none, sessKey := none, unacked := [] }

/-- Its next request, with the five bytes of payload of a Write of a U8, to the device at address 9. -/
def roleHdr : Hdr :=
  { src := roleSession.src, dst := { v6 := false, addr := 9 }, version := 2, sid := 1, seq := 1, payloadLength := 5, flags := 0,
    reserved := 0, status := 0, tag := [] }

/-- A device fused for a pair, in CONFIGURED and role SOLO with every domain ON, reachable at address 9, that sends OWNER frames on
lane 0, which is trained. -/
def soloOwner : State :=
  { State.reset with
    fuses := { State.reset.fuses with mirror := true }
    objs := [(key 0x2012 1, .num 0x8000), (key 0x2020 2, .num 9)]
    pwr := { Pwr.start with dev := .configured, doms := Vector.replicate 12 .on }
    wilwa := { Wilwa.start with sessions := #v[some roleSession, none, none, none] }
    hlk := { Hlk.start with lanes := vmod Hlk.start.lanes 0 fun x => { x with st := .trained } } }

/-- The Write of RoleRequest = STANDBY is the session's next request, and R72 lets it through. -/
theorem roleRequestStandby_taken : WriteTaken soloOwner roleHdr 0x3210 1 (u8 2) roleSession where
  accepted :=
    { admitted :=
        { serves := by decide
          address := by decide
          opened := by decide
          tagged := by decide
          header := by decide
          version := by decide
          message := by decide }
      sequence := by decide }
  allowed := ⟨Desc.mk 0x3210 0x3210 1 1 "RoleRequest" .u8 .rw .free 2 1 (.num 0) [(0, 2, 1)],
    { described := by decide
      version := by decide
      level := by decide
      writable := by decide
      notTransfer := by decide
      length := by decide
      range := by decide
      powered := by decide
      moment := by decide
      unmapped := by decide }⟩

/-- The change to role STANDBY is made, and lane 0 is asked for a RELEASE block. -/
theorem roleRequestStandby_releases :
    ∃ u, (soloOwner.heard roleSession.sid).roleRequest 2 = .ok u ∧ (u.lane 0).tx.queue = [.release 0] :=
  ⟨_, rfl, by decide⟩

/-- Refutes O54: `soloOwner` asked to become STANDBY stops owning lane 0 and queues a RELEASE block there, so the frame of a change
of role cannot leave HLK out, as `State.roleRequest_moves` does not. -/
theorem not_rolesAndMirrorCommands : ¬ Obligations.RolesAndMirrorCommands := by
  unfold Obligations.RolesAndMirrorCommands
  rintro ⟨roles, -⟩
  obtain ⟨-, -, -, -, changed⟩ :=
    roles soloOwner roleHdr roleSession 2 (.roleRequestStandby roleHdr) .standby (by decide) roleRequestStandby_taken
  obtain ⟨t, run, -, -, -, -, -, -, frame⟩ := changed (by decide) (by decide) (by decide)
  obtain ⟨u, request, released⟩ := roleRequestStandby_releases
  have w := roleRequestStandby_taken
  obtain ⟨d, allowed⟩ := w.allowed
  have value : d.value (u8 2) = .num 2 := Desc.value_num allowed.described _ (by decide)
  obtain ⟨t', run', -, rest⟩ := w.done (u := u) allowed.described (by decide) (by rw [value]; exact congrArg some request)
  have same : t' = t := Host.Outcome.next.inj (run'.symm.trans run)
  have kept : t.hlk = soloOwner.hlk := frame .hlk (by decide)
  have moved : t.hlk = u.hlk := same ▸ rest .hlk (by decide)
  have idle : (soloOwner.lane 0).tx.queue = [] := by decide
  rw [State.lane_congr (moved.symm.trans kept), idle] at released
  cases released

end Sys2Proof.Machine
end

section
/-! Objects read after a table has been thinned out, and steps done for every number below a bound. -/

set_option Elab.async false

namespace Sys2Proof.Machine

variable {s t : State}

theorem Only.of_moves {ps : List StatePart} (m : Moves ps s t) : Only ps s t := m.only

theorem key_div {i j : Nat} (hj : j < 256) : key i j / 256 = i := by unfold key; omega

theorem key_mod {i j : Nat} (hj : j < 256) : key i j % 256 = j := by unfold key; omega

/-- An object reads as before where its entry was kept, and its default where it was taken out. -/
theorem State.obj_of_filter {keep : Nat → Bool} (h : t.objs = s.objs.filter fun e => keep e.1) (i j : Nat) :
    t.obj i j = if keep (key i j) then s.obj i j else defaultVal i j := by
  unfold State.obj
  rw [h, kvGet_filter]
  split <;> rfl

end Sys2Proof.Machine
end

section
/-! Power-on resets and the commands of the supplies (R25, R35 to R41). -/

set_option Elab.async false

namespace Sys2Proof.Machine

variable {s t : State}

theorem State.bbxReset_ring (s : State) (keep : Bool) : (s.bbxReset keep).ring = if keep then s.bbx.ring else [] := by
  cases keep <;> rfl

/-- A power-on reset leaves what R39 lets survive, whatever the sequencer's flags become around it, VDD_AON's aside. -/
theorem State.powerOnReset_cycled (s : State) (before after : Pwr → Pwr) (h : ∀ p, (after p).aon = p.aon) :
    PowerCycled s ((s.modPwr before).powerOnReset.modPwr after) where
  objects i j hj := by
    rw [State.obj_of_filter (s := s) (keep := fun k => nonVolObject (k / 256) (k % 256)) rfl, key_div hj, key_mod hj]
  host := ⟨rfl, rfl, rfl⟩
  job := ⟨rfl, rfl, rfl, rfl⟩
  memory := ⟨rfl, rfl⟩
  position := ⟨rfl, rfl, rfl⟩
  heads := ⟨rfl, rfl⟩
  pictures := ⟨rfl, rfl, rfl⟩
  ring := by
    have keep : ((s.modPwr before).powerOnReset.modPwr after).pwr.aon = (before s.pwr).aon := h _
    rw [keep]
    exact State.bbxReset_ring _ _

/-- A power-on reset between two changes of the sequencer stays within the parts of a power-on reset. -/
theorem State.powerOnReset_only (s : State) (before after : Pwr → Pwr) :
    Only powerParts s ((s.modPwr before).powerOnReset.modPwr after) :=
  .of_moves (.after State.modPwr_moves (.after State.powerOnReset_moves (.after State.modPwr_moves .refl)))

theorem State.on_aonOnly (h : s.pwr.doms = aonOnlyDoms) (d : Nat) : s.on d = decide (d = 0) := by
  unfold State.on
  rw [h]
  rcases Nat.lt_or_ge d 12 with hd | hd
  · exact (by decide : ∀ d < 12, (vget aonOnlyDoms d .off == .on) = decide (d = 0)) d hd
  · rw [vget_of_ge _ _ hd]; exact (decide_eq_false (by omega)).symm

theorem exec_suppliesInRange (hd : s.pwr.dev = .off) (hp : s.pwr.porst = false) :
    exec .suppliesInRange s = .next ((s.modPwr fun p => { p with supplies := true, aon := true }).powerOnReset.modPwr
      fun p => { p with dev := .reset }) := by
  simp [exec, execSuppliesInRange, hd, hp]

theorem exec_porstLow (ht : s.pwr.trip = false) (ho : s.pwr.dev = .off → s.pwr.supplies = true ∧ s.pwr.aon = true) :
    exec .porstLow s = .next ((s.modPwr fun p => { p with porst := false }).powerOnReset.modPwr fun p => { p with dev := .reset }) := by
  by_cases hd : s.pwr.dev = .off
  · simp [exec, execPorstLow, ht, ho hd]
  · simp [exec, execPorstLow, ht, hd]

theorem exec_porstRise (hd : s.pwr.dev = .reset) (ht : s.pwr.trip = false) :
    exec .porstRise s = .next (s.modPwr fun p => { p with porst := true, dev := .boot, bootTick := s.tick, bootHeld := false }) := by
  simp [exec, execPorstRise, hd, ht, State.modPwr]

theorem exec_tripShutdown (ht : s.pwr.trip = true) (hs : s.pwr.tripDown = false) (hd : s.pwr.dev ≠ .off) :
    exec .tripShutdown s = .next ((s.modPwr fun p => { p with tripDown := true }).powerOnReset.modPwr
      fun p => { p with dev := .reset, doms := aonOnlyDoms }) := by
  simp [exec, execTripShutdown, ht, hs, hd]

end Sys2Proof.Machine
end

section
/-! Supplies, power-on resets and WAKE_N (R22, R25, R39, R40, R49, R50, R420, R429). -/

set_option Elab.async false

namespace Sys2Proof.Machine

variable {s t : State}

theorem ObjsOnly.forEach {α : Type} {l : List (Nat × Nat)} {xs : List α} {f : α → State → State} (h : ∀ a t, ObjsOnly l t (f a t)) :
    ObjsOnly l s (forEach xs f s) := by
  unfold Sys2Proof.Machine.forEach
  induction xs generalizing s with
  | nil => exact .refl
  | cons a xs ih => exact (h a s).trans ih

theorem State.noteRail_objs_only (s : State) (r : Report) : ObjsOnly [(0x2F10, 2)] s (s.noteRail r) := by
  unfold State.noteRail State.latchRail
  split
  · exact .refl
  · split
    · exact .ite (State.setNum_objs_only s _ _ _) .refl
    · exact .refl

/-- What a boot logs is put behind the queue, and holds its rails; what waited in AON waits no more (R451). -/
theorem State.bootRecords_eq (s : State) (fresh : Bool) (a b : Nat) : ∃ (l : List Report) (n : Nat) (q : Flt),
    s.bootRecords fresh a b = ((forEach l (fun r s => s.noteRail r) { s with fresh := n, flt := q }).modBbx
      fun x => { x with waiting := [] }).modPwr fun p => { p with bootKept := [] } := ⟨_, _, _, rfl⟩

theorem State.bootRecords_objs_only (s : State) (fresh : Bool) (a b : Nat) :
    ObjsOnly [(0x2F10, 2)] s (s.bootRecords fresh a b) := by
  obtain ⟨l, n, q, e⟩ := s.bootRecords_eq fresh a b
  rw [e]
  have rails : ObjsOnly [(0x2F10, 2)] { s with fresh := n, flt := q }
      (forEach l (fun r s => s.noteRail r) { s with fresh := n, flt := q }) := .forEach fun r t => t.noteRail_objs_only r
  exact ((ObjsOnly.of_objs rfl : ObjsOnly _ s _).trans rails).trans (.of_objs rfl)

theorem State.bootRecords_pwr (s : State) (fresh : Bool) (a b : Nat) :
    (s.bootRecords fresh a b).pwr = { s.pwr with bootKept := [] } := by
  obtain ⟨l, n, q, e⟩ := s.bootRecords_eq fresh a b
  rw [e]
  have rails : Moves [.objs] { s with fresh := n, flt := q } (forEach l (fun r s => s.noteRail r) { s with fresh := n, flt := q }) :=
    .forEach .refl fun r t h => .after State.noteRail_moves h
  exact congrArg (fun p : Pwr => { p with bootKept := [] }) (rails.same .pwr)

theorem State.phySetup_sent (s : State) : s.phySetup.sent =
    s.sent ++ [.phySetup (s.num 0x2011 1) (s.num 0x2010 1), .phySetup (s.num 0x2011 2) (s.num 0x2010 2)] := by
  simp [State.phySetup, forEach, State.num, State.obj]

/-- Firmware starts from the first image that authenticates (R36, R41). -/
theorem State.firmware_eq (a b : Image) (h : s.imageStatus a = 0 ∨ s.imageStatus b = 0) : ∃ r v,
    s.firmware a b = some (((((s.setNum 0x1130 1 r).setNum 0x1130 3
      (if s.imageStatus a = 0 then a.firmware.toNat else b.firmware.toNat)).setNum 0x1130 4 v).setNum 0x1120 3 s.pwr.cause).modPwr
        fun p => { p with prevBoot := 0 }) := by
  unfold State.firmware
  by_cases ha : s.imageStatus a = 0
  · exact ⟨_, _, by simp [ha]; rfl⟩
  · have hb : s.imageStatus b = 0 := h.resolve_left ha
    exact ⟨_, _, by simp [ha, hb]; rfl⟩

/-- What the start of firmware shows: the image's version, the cause of the reset, the outcome of this boot (R36, R41). -/
theorem State.firmware_starts (a b : Image) (h : s.imageStatus a = 0 ∨ s.imageStatus b = 0) : ∃ t, s.firmware a b = some t ∧
    t.pwr = { s.pwr with prevBoot := 0 } ∧ t.num 0x1130 3 = (if s.imageStatus a = 0 then a.firmware.toNat else b.firmware.toNat) ∧
    t.num 0x1120 3 = s.pwr.cause ∧ ObjsOnly [(0x1130, 1), (0x1130, 3), (0x1130, 4), (0x1120, 3)] s t := by
  obtain ⟨r, v, e⟩ := State.firmware_eq a b h
  refine ⟨_, e, rfl, ?_, State.num_setNum_self _ _ _ _, ?_⟩
  · exact (State.num_setNum_ne _ _ (by decide)).trans ((State.num_setNum_ne _ _ (by decide)).trans (State.num_setNum_self _ _ _ _))
  · exact ((((s.setNum_objs_only 0x1130 1 r).mono (by decide)).trans ((State.setNum_objs_only _ _ _ _).mono (by decide))).trans
      ((State.setNum_objs_only _ _ _ _).mono (by decide))).trans ((State.setNum_objs_only _ _ _ _).mono (by decide)) |>.trans (.of_objs rfl)

/-- No firmware starts where both images fail (R36). -/
theorem State.firmware_none {a b : Image} (ha : s.imageStatus a ≠ 0) (hb : s.imageStatus b ≠ 0) : s.firmware a b = none := by
  simp [State.firmware, ha, hb]

/-- A domain comes ON (R42, R376). -/
def Pwr.switchedOn (p : Pwr) (d tick : Nat) : Pwr :=
  { p with doms := vmod p.doms d fun _ => .on, domOn := vmod p.domOn d fun _ => tick }

theorem State.setDomain_same {d : Nat} {st : DomSt} (h : s.dom d = st) : s.setDomain d st = s := by
  unfold State.setDomain
  exact if_pos h

theorem State.setDomain_mgt_on (h : s.dom domMGT ≠ .on) :
    s.setDomain domMGT .on = { s.modPwr fun p => p.switchedOn domMGT s.tick with therm := Therm.start s.tick } := by
  unfold State.setDomain
  extract_lets old enter chans
  exact (if_neg h).trans ((if_neg (by decide)).trans ((if_neg (by decide)).trans (if_pos rfl)))

theorem State.setDomain_net_on (h : s.dom domNET ≠ .on) :
    s.setDomain domNET .on = { s.modPwr fun p => p.switchedOn domNET s.tick with tim := Tim.start s.tick } := by
  unfold State.setDomain
  extract_lets old enter chans
  exact (if_neg h).trans ((if_neg (by decide)).trans ((if_neg (by decide)).trans ((if_neg (by decide)).trans (if_pos rfl))))

theorem State.on_switchedOn (h : t.pwr = s.pwr.switchedOn d n) (hd : d < 12) (e : Nat) : t.on e = (s.on e || decide (e = d)) := by
  unfold State.on
  rw [h]
  by_cases k : e = d
  · subst k; simp [Pwr.switchedOn, vget_vmod_self _ _ _ hd]
  · simp [Pwr.switchedOn, vget_vmod_ne _ _ _ k, k]

/-- MGT or NET switched ON is ON; no other domain and no object changes (R45, R49). -/
theorem State.setDomain_host_on {d : Nat} (hd : d = domMGT ∨ d = domNET) :
    (∀ e, (s.setDomain d .on).on e = (s.on e || decide (e = d))) ∧ (s.setDomain d .on).objs = s.objs := by
  by_cases old : s.dom d = .on
  · rw [State.setDomain_same old]
    have on : s.on d = true := beq_iff_eq.2 old
    refine ⟨fun e => ?_, rfl⟩
    by_cases h : e = d
    · rw [h, on]; rfl
    · simp [h]
  · obtain rfl | rfl := hd
    · rw [State.setDomain_mgt_on old]; exact ⟨State.on_switchedOn rfl (by decide), rfl⟩
    · rw [State.setDomain_net_on old]; exact ⟨State.on_switchedOn rfl (by decide), rfl⟩

theorem State.on_congr (h : t.pwr.doms = s.pwr.doms) (d : Nat) : t.on d = s.on d := by
  unfold State.on
  rw [h]

/-- What a wake does once firmware has started: MGT and NET come ON, and the boot's records are put behind the queue (R49). -/
theorem State.wakes (u : State) (ms fresh : Nat) (f : Bool) (x y : Nat) :
    let t := ((({ (u.setDomain domMGT .on).setDomain domNET .on with fresh := fresh } : State).setNum 0x1130 2 ms).phySetup).bootRecords
      f x y
    t.on domMGT = true ∧ t.on domNET = true ∧ ObjsOnly [(0x1130, 2), (0x2F10, 2)] u t := by
  intro t
  obtain ⟨mgt, mgtObjs⟩ := u.setDomain_host_on (.inl rfl)
  obtain ⟨net, netObjs⟩ := (u.setDomain domMGT .on).setDomain_host_on (.inr rfl)
  have on (d : Nat) : t.on d = ((u.setDomain domMGT .on).setDomain domNET .on).on d :=
    State.on_congr (by rw [State.bootRecords_pwr]; rfl) d
  refine ⟨by rw [on, net, mgt]; simp, by rw [on, net]; simp, ?_⟩
  have woken : ObjsOnly [(0x1130, 2), (0x2F10, 2)] u ({ (u.setDomain domMGT .on).setDomain domNET .on with fresh := fresh } : State) :=
    .of_objs (netObjs.trans mgtObjs)
  exact (State.bootRecords_objs_only _ f x y).after
    ((State.setNum_objs_only _ 0x1130 2 ms).after woken |>.trans (.of_objs rfl))

/-- WAKE_N wakes the device from DEEP: MGT and NET come ON, and the wake is counted (R49). -/
theorem exec_wakeNAssert_wakes (a b : Image) (ht : s.pwr.trip = false) (hd : s.pwr.dev = .deep) (hm : s.on domMGT = false)
    (he : s.num 0x1110 3 ≠ 0) (hi : s.imageStatus a = 0 ∨ s.imageStatus b = 0) :
    ∃ t, exec (.wakeNAssert a b) s = .next t ∧ t.on domMGT = true ∧ t.on domNET = true ∧
      t.num 0x1110 4 = (s.num 0x1110 4 + 1) % 2 ^ 32 := by
  obtain ⟨u, boots, -, -, -, started⟩ := State.firmware_starts (s := s.bump 0x1110 4) a b hi
  have run : exec (.wakeNAssert a b) s = execWakeNAssert a b s := rfl
  simp only [run, execWakeNAssert, ht, hd, hm, boots]
  rw [if_neg (by decide), if_neg (by simp [he])]
  obtain ⟨mgt, net, woken⟩ := State.wakes _ _ _ _ _ _
  exact ⟨_, rfl, mgt, net, woken.num.trans (started.num.trans (s.num_bump_self 0x1110 4))⟩

/-- WAKE_N is counted as ignored while MGT is ON or the wake is not enabled (R50). -/
theorem exec_wakeNAssert_ignored (a b : Image) (ht : s.pwr.trip = false) (ho : s.pwr.dev ≠ .off) (hr : s.pwr.dev ≠ .reset)
    (h : s.on domMGT = true ∨ s.num 0x1110 3 = 0) :
    ∃ d, exec (.wakeNAssert a b) s = .next ((s.bump 0x1110 5).raise 0x1004 0 d) := by
  have run : exec (.wakeNAssert a b) s = execWakeNAssert a b s := rfl
  rw [run, execWakeNAssert, if_neg (by simp [ht, ho, hr]), if_pos (by simpa using h)]
  exact ⟨_, rfl⟩

/-- Settles O9: each power-on reset is `State.powerOnReset` between two changes of the sequencer's flags; a wake starts firmware. -/
theorem suppliesWakesAndPowerOnResets : Obligations.SuppliesWakesAndPowerOnResets := by
  unfold Obligations.SuppliesWakesAndPowerOnResets
  refine ⟨fun s hd hp => ?_, fun s k => ?_, fun s ht ho => ?_, fun s ht => ?_, fun s hd ht => ?_, fun s ht => ?_, fun s => ?_,
    fun s ht hs hd => ?_, fun s a b ht hd hm he hi => ?_, fun s a b ht ho hr h => ?_⟩
  · -- supplies in range
    exact ⟨_, exec_suppliesInRange hd hp, rfl, s.powerOnReset_cycled _ _ fun _ => rfl, s.powerOnReset_only _ _⟩
  · -- a supply out of range
    exact ⟨_, rfl, rfl, rfl, rfl, s.powerOnReset_cycled _ _ fun _ => rfl, s.powerOnReset_only _ _⟩
  · -- PORST_N low
    exact ⟨_, exec_porstLow ht ho, rfl, rfl, s.powerOnReset_cycled _ _ fun _ => rfl, s.powerOnReset_only _ _⟩
  · -- PORST_N low, the trip latched
    simp [exec, execPorstLow, State.modPwr, ht]
  · -- PORST_N high
    exact ⟨_, exec_porstRise hd ht, rfl, rfl, execPorstRise_moves.only (exec_porstRise hd ht)⟩
  · -- PORST_N high, the trip latched
    simp [exec, execPorstRise, State.modPwr, ht]
  · -- VDD_AON removed
    exact ⟨_, rfl, rfl, rfl, rfl, s.powerOnReset_cycled _ _ fun _ => rfl, s.powerOnReset_only _ _⟩
  · -- the trip's shutdown
    exact ⟨_, exec_tripShutdown ht hs hd, rfl, ht, State.on_aonOnly rfl, s.powerOnReset_cycled _ _ fun _ => rfl,
      s.powerOnReset_only _ _⟩
  · -- WAKE_N wakes
    obtain ⟨t, run, mgt, net, counted⟩ := exec_wakeNAssert_wakes a b ht hd hm he hi
    exact ⟨t, run, mgt, net, counted, execWakeNAssert_moves.only run⟩
  · -- WAKE_N ignored
    obtain ⟨d, run⟩ := exec_wakeNAssert_ignored a b ht ho hr h
    have report : Moves [.objs, .flt, .bbx] s ((s.bump 0x1110 5).raise 0x1004 0 d) := .after State.raise_moves (.after State.bump_moves .refl)
    have raised := (s.bump 0x1110 5).raise_objs_only 0x1004 0 d
    exact ⟨_, run, raised.num.trans (s.num_bump_self 0x1110 5), report.same .pwr,
      raised.after ((s.bump_objs_only 0x1110 5).mono (by decide)), .of_moves report⟩

end Sys2Proof.Machine
end

section
/-! The chip reset and the boot (R36, R39, R41). -/

set_option Elab.async false

namespace Sys2Proof.Machine

variable {s t : State}

/-- A chip reset keeps the entries of AON's objects, the freeze captures and the addresses, and then counts itself (R39, R41, R154). -/
theorem State.chipReset_eq (s : State) (c : Nat) : ∃ t : State, s.chipReset c = t.bump 0x1120 4 ∧
    t.objs = s.objs.filter fun e => keptObject (e.1 / 256) (e.1 % 256) || e.1 / 65536 == 0x30 := ⟨_, rfl, rfl⟩

theorem obj_of_kept (h : t.objs = s.objs.filter fun e => keptObject (e.1 / 256) (e.1 % 256) || e.1 / 65536 == 0x30) (i : Nat) {j : Nat}
    (hj : j < 256) : t.obj i j = if keptObject i j || i / 256 == 0x30 then s.obj i j else defaultVal i j := by
  rw [State.obj_of_filter (keep := fun k => keptObject (k / 256) (k % 256) || k / 65536 == 0x30) h, key_div hj, key_mod hj,
    show key i j / 65536 = i / 256 by unfold key; omega]

theorem State.chipReset_obj (s : State) (c : Nat) {i j : Nat} (hj : j < 256) (h : (i, j) ≠ (0x1120, 4)) :
    (s.chipReset c).obj i j = if keptObject i j || i / 256 == 0x30 then s.obj i j else defaultVal i j := by
  obtain ⟨t, e, kept⟩ := s.chipReset_eq c
  rw [e, t.bump_objs_only 0x1120 4 (by decide) i j hj (by simpa using h), obj_of_kept kept i hj]

theorem State.chipReset_counted (s : State) (c : Nat) : (s.chipReset c).num 0x1120 4 = (s.num 0x1120 4 + 1) % 2 ^ 32 := by
  obtain ⟨t, e, kept⟩ := s.chipReset_eq c
  have count : t.num 0x1120 4 = s.num 0x1120 4 := congrArg Val.toNum (obj_of_kept kept 0x1120 (by decide : 4 < 256))
  rw [e, ← count]
  exact t.num_bump_self 0x1120 4

theorem exec_chipReset {c : Nat} (hc : s.pwr.chipPending = some c) (ht : s.pwr.trip = false) :
    exec .chipReset s = .next (s.chipReset c) := by
  simp [exec, execChipReset, hc, ht]

theorem State.enter_objs_only (s : State) (d : DevState) : ObjsOnly [(0x1100, 4)] s (s.enter d) := by
  unfold State.enter
  exact (ObjsOnly.of_objs rfl : ObjsOnly _ s _).trans (State.setNum_objs_only _ _ _ _)

/-- What a boot does once firmware has started: management firmware sets up both PHYs, the boot's records go to FLT (R36, R37). -/
theorem State.bootEnds (u : State) (ms : Nat) (f : Bool) (x y : Nat) :
    let t := ((((u.setNum 0x1130 2 ms).modPwr fun p => { p with aonKept := true }).enter .standby).phySetup).bootRecords f x y
    t.pwr.dev = .standby ∧ t.pwr.prevBoot = u.pwr.prevBoot ∧ ObjsOnly [(0x1130, 2), (0x1100, 4), (0x2F10, 2)] u t ∧
      t.sent = u.sent ++ [.phySetup (u.num 0x2011 1) (u.num 0x2010 1), .phySetup (u.num 0x2011 2) (u.num 0x2010 2)] := by
  intro t
  have started : ObjsOnly [(0x1130, 2), (0x1100, 4)] u
      (((u.setNum 0x1130 2 ms).modPwr fun p => { p with aonKept := true }).enter .standby) :=
    (State.enter_objs_only _ _).after (((u.setNum_objs_only 0x1130 2 ms).mono (by decide)).trans (.of_objs rfl))
  have pwr : t.pwr.dev = .standby ∧ t.pwr.prevBoot = u.pwr.prevBoot := by
    rw [State.bootRecords_pwr, State.phySetup_moves.same .pwr]
    exact ⟨rfl, rfl⟩
  refine ⟨pwr.1, pwr.2, ?_, ?_⟩
  · exact (State.bootRecords_objs_only _ f x y).after ((started.mono (by decide)).trans (.of_objs rfl))
  · rw [State.bootRecords_moves.same .sent, State.phySetup_sent, started.num, started.num, started.num, started.num]
    rfl

/-- The boot ends in STANDBY: firmware runs, and management firmware has set up both PHYs (R36, R37). -/
theorem exec_bootComplete_boots (a b : Image) (hd : s.pwr.dev = .boot) (hh : s.pwr.bootHeld = false)
    (hi : s.imageStatus a = 0 ∨ s.imageStatus b = 0) :
    ∃ t, exec (.bootComplete a b) s = .next t ∧ t.pwr.dev = .standby ∧ t.pwr.prevBoot = 0 ∧
      t.num 0x1130 3 = (if s.imageStatus a = 0 then a.firmware.toNat else b.firmware.toNat) ∧ t.num 0x1120 3 = s.pwr.cause ∧
      t.sent = s.sent ++ [.phySetup (s.num 0x2011 1) (s.num 0x2010 1), .phySetup (s.num 0x2011 2) (s.num 0x2010 2)] := by
  obtain ⟨u, boots, pwr, version, cause, started⟩ := State.firmware_starts a b hi
  have run : exec (.bootComplete a b) s = execBootComplete a b s := rfl
  simp only [run, execBootComplete, hd, hh, boots]
  rw [if_neg (by decide)]
  generalize hq : u.freeQuot _ _ = q
  generalize hf : q.2.fit _ _ = f
  have free : Moves [.fresh] u f.2 := .after (MovesP.of_eq hf State.fit_moves) (MovesP.of_eq hq State.freeQuot_moves)
  have kept (i j : Nat) : f.2.num i j = u.num i j := State.num_congr (free.same .objs) i j
  have sent : u.sent = s.sent := State.firmware_moves.of_eq boots |>.same .sent
  obtain ⟨dev, prev, rest, setUp⟩ := f.2.bootEnds f.1 _ _ _
  refine ⟨_, rfl, dev, ?_, ?_, ?_, ?_⟩
  · rw [prev, free.same .pwr, pwr]
  · rw [rest.num, kept, version]
  · rw [rest.num, kept, cause]
  · rw [setUp, free.same .sent, sent]
    simp only [kept, started.num (i := 0x2011) (j := 1), started.num (i := 0x2011) (j := 2), started.num (i := 0x2010) (j := 1),
      started.num (i := 0x2010) (j := 2)]

/-- The boot is held where neither image authenticates (R36). -/
theorem exec_bootComplete_held {a b : Image} (hd : s.pwr.dev = .boot) (hh : s.pwr.bootHeld = false) (ha : s.imageStatus a ≠ 0)
    (hb : s.imageStatus b ≠ 0) :
    exec (.bootComplete a b) s = .next ((s.bootFails a b).modPwr fun p => { p with bootHeld := true }) := by
  simp [exec, execBootComplete, hd, hh, State.firmware_none ha hb]

/-- Settles O10: what a chip reset keeps is a filter of the objects, and a boot ends as its images authenticate. -/
theorem chipResetAndBoot : Obligations.ChipResetAndBoot := by
  unfold Obligations.ChipResetAndBoot
  refine ⟨fun s c hc ht => ?_, fun s hc => ?_, fun s a b hd hh hi => ?_, fun s a b hd hh ha hb => ?_, fun s a b hh => ?_⟩
  · exact ⟨_, exec_chipReset hc ht, rfl, rfl, rfl, s.chipReset_counted c, Wilwa.start_seats rfl, rfl,
      fun i j hj h => s.chipReset_obj c hj h, .of_moves State.chipReset_moves⟩
  · simp [exec, execChipReset, hc]
  · obtain ⟨t, run, dev, prev, version, cause, sent⟩ := exec_bootComplete_boots a b hd hh hi
    exact ⟨t, run, dev, prev, version, cause, sent, execBootComplete_moves.only run⟩
  · exact ⟨_, exec_bootComplete_held hd hh ha hb, hd, rfl, rfl, .of_moves (.after State.modPwr_moves State.bootFails_moves)⟩
  · simp [exec, execBootComplete, hh]

end Sys2Proof.Machine
end

section
/-! Why a domain request's sequence need not be done at once: a channel that goes to RETAIN in the middle of a training step keeps the
request busy until the step is complete (R163). -/

set_option Elab.async false

namespace Sys2Proof.Machine

/-- A request that takes MEMA to RETAIN. -/
def retainWork : DomWork := { changes := [(domMEMA, .retain)], waitReply := false }

/-- A device that applies it while channel 0 is in a step of its training. -/
def retainsInTraining : State :=
  { State.reset with
    pwr := { Pwr.start with domWork := some retainWork }
    mem := vmod State.reset.mem 0 fun m => { m with st := .training, step := 1 } }

/-- The channel keeps the request busy. -/
theorem retainsInTraining_stays : exec (.domainSequenceDone none) retainsInTraining = .next retainsInTraining :=
  congrArg Host.Outcome.next (if_pos (.inr (by decide)))

/-- Refutes O14: in `retainsInTraining` the end of the sequence changes nothing, and the request is still open. -/
theorem not_domainRequestsAreCarriedOut : ¬ Obligations.DomainRequestsAreCarriedOut := by
  unfold Obligations.DomainRequestsAreCarriedOut
  rintro ⟨-, ends, -⟩
  obtain ⟨t, run, ended, -⟩ := ends retainsInTraining retainWork none rfl rfl
  have same : t = retainsInTraining := (Host.Outcome.next.inj (retainsInTraining_stays.symm.trans run)).symm
  have still : retainsInTraining.pwr.domWork = some retainWork := rfl
  rw [same, still] at ended
  cases ended

/-- Settles O3: each part of the state after reset is as its block's start value says. -/
theorem resetLeaves : Obligations.ResetLeaves := by
  unfold Obligations.ResetLeaves
  refine ⟨rfl, by decide, rfl, by decide, rfl, by decide, by decide, by decide, by decide, rfl, fun i j => ?_⟩
  exact congrArg (·.getD (defaultVal i j)) (show kvGet [] (key i j) = (none : Option Val) from rfl)

end Sys2Proof.Machine
end

section
/-! State requests as Writes of StateRequest (R24, R25, R54). -/

set_option Elab.async false

namespace Sys2Proof.Machine

variable {s t : State}

/-- The command of a state request is the Write of StateRequest with its value. -/
theorem exec_stateRequestOf {v : Nat} {h : Hdr} {c : Instr} (e : stateRequestOf v h = some c) :
    exec c s = .next (s.hostWrite h 0x1100 2 0 (u8 v)) ∧ v < 9 := by
  unfold stateRequestOf at e
  split at e <;> cases e <;> exact ⟨rfl, by decide⟩

/-- What a Write of StateRequest does is the state request of its value. -/
theorem hook_stateRequest (x : Session) (u : State) {d : Desc} (hd : findDesc 0x1100 2 = some d) {v : Nat} (hv : v < 256) :
    hook x 0x1100 2 (d.value (u8 v)) u = some (u.stateRequest v) := by
  rw [Desc.value_num hd _ (by decide), u8, leNat_leBytes, Nat.mod_eq_of_lt (by simpa using hv)]
  rfl

theorem State.stateRequest_busy (h : s.pwrBusy = true) (v : Nat) : s.stateRequest v = .error 0x11050000 := by
  simp [State.stateRequest, h, pwrAbort]

theorem State.stateRequest_misplaced (h : s.pwrBusy = false) {v : Nat} (hd : s.pwr.dev ∉ requestStarts v) :
    s.stateRequest v = .error 0x11030000 := by
  unfold State.stateRequest
  rw [if_neg (by simp [h])]
  dsimp only
  split
  case h_15 => rfl
  all_goals
    rename_i e
    exact absurd (by simp [e, requestStarts]) hd

/-- A state request that the sequencer refuses: the response with its code, and nothing else but in its session. -/
theorem stateRequest_refused {h : Hdr} {x : Session} {v code : Nat} {c : Instr} (hc : stateRequestOf v h = some c)
    (w : WriteTaken s h 0x1100 2 (u8 v) x) (e : (s.heard x.sid).stateRequest v = .error code) :
    ∃ t, exec c s = .next t ∧ Answered t 0x13 code h.seq.toNat ∧ Only [.wilwa, .sent] s t := by
  obtain ⟨run, hv⟩ := exec_stateRequestOf (s := s) hc
  rw [run]
  exact w.rowRefused (by decide) (by decide) fun d hd => by rw [hook_stateRequest _ _ hd (by omega), e]

/-- Settles O12: the sequencer finds the request busy before it looks at the state. -/
theorem stateRequestsOutOfPlaceAreRefused : Obligations.StateRequestsOutOfPlaceAreRefused := by
  unfold Obligations.StateRequestsOutOfPlaceAreRefused
  refine ⟨fun s h x v c hc w busy => ?_, fun s h x v c hc w idle hd => ?_⟩
  · exact stateRequest_refused hc w (State.stateRequest_busy (s := s.heard x.sid) busy v)
  · exact stateRequest_refused hc w (State.stateRequest_misplaced (s := s.heard x.sid) idle hd)

end Sys2Proof.Machine
end

section
/-! Steps done for every member of a list keep what each of them keeps. -/

set_option Elab.async false

namespace Sys2Proof.Machine

variable {α : Type} {P : State → Prop} {s : State}

theorem forEach_keeps {l : List α} {f : α → State → State} (h : ∀ a ∈ l, ∀ t, P t → P (f a t)) (h0 : P s) :
    P (forEach l f s) := by
  unfold forEach
  induction l generalizing s with
  | nil => exact h0
  | cons a l ih => exact ih (fun b hb => h b (List.mem_cons_of_mem _ hb)) (h a List.mem_cons_self s h0)

theorem forRange_keeps {n : Nat} {f : Nat → State → State} (h : ∀ k < n, ∀ t, P t → P (f k t)) (h0 : P s) : P (forRange n f s) :=
  forEach_keeps (l := List.range n) (fun k hk => h k (List.mem_range.1 hk)) h0

/-- What the first `k` steps establish, the `k`-th step extends. -/
theorem forRange_induct {I : Nat → State → Prop} {f : Nat → State → State} (n : Nat) (h0 : I 0 s)
    (h : ∀ k < n, ∀ t, I k t → I (k + 1) (f k t)) : I n (forRange n f s) := by
  induction n with
  | zero => exact h0
  | succ n ih =>
    have before := ih fun k hk => h k (by omega)
    unfold forRange at before ⊢
    rw [List.range_succ, List.foldl_append]
    exact h n (by omega) _ before

end Sys2Proof.Machine
end

section
/-! Resets that a host asks for, and engines that return to service (R41, R220, R386). -/

namespace Sys2Proof.Machine

variable {s t : State}

/-- The new delays of the bars are the only objects that a change of delays writes (R20). -/
theorem State.delaysChanged_obj (s : State) {i j : Nat} (hj : j < 256) (h : i ≠ 0x1220) (h' : i ≠ 0x1221) :
    s.delaysChanged.obj i j = s.obj i j := by
  unfold State.delaysChanged
  refine forRange_keeps (P := fun t => t.obj i j = s.obj i j) (fun b hb t ht => ?_) rfl
  generalize hq : t.freeQuot _ _ = q
  have free : q.2.obj i j = t.obj i j := State.obj_congr ((MovesP.of_eq hq State.freeQuot_moves).same .objs) i j
  dsimp only [State.setNum]
  rw [State.obj_setObj_ne _ _ fun e => h' (key_inj hj (by omega) e).1, State.obj_setObj_ne _ _ fun e => h (key_inj hj (by omega) e).1,
    free, ht]

/-- What a block reset sets back lies above the blocks' delays (R386). -/
theorem blockObject_index {b : Block} {i j : Nat} (h : blockObject b i j = true) : 0x2000 ≤ i := by
  unfold blockObject at h
  split at h <;> simp at h <;> omega

theorem State.blockReset_obj (s : State) (b : Block) (byHost : Bool) (cause : Nat) {i j : Nat} (hj : j < 256)
    (h : blockObject b i j = true) : (s.blockReset b byHost cause).obj i j = defaultVal i j := by
  obtain ⟨u, e⟩ : ∃ u : State, s.blockReset b byHost cause = (u.clearObjs (blockObject b)).delaysChanged := ⟨_, rfl⟩
  have above := blockObject_index h
  rw [e, State.delaysChanged_obj _ hj (by omega) (by omega),
    State.obj_of_filter (s := u) (keep := fun k => !blockObject b (k / 256) (k % 256)) rfl, key_div hj, key_mod hj, h]
  rfl

/-- An engine can serve a slice (R223). -/
def State.inService (s : State) (n : Nat) : Prop := (s.engine n).st = .idle ∨ (s.engine n).st = .serving

theorem State.engine_modEngine_self (s : State) {n : Nat} (hn : n < 17) (f : Eng → Eng) :
    (s.modEngine n f).engine n = f (s.engine n) := vget_vmod_self _ _ _ hn

theorem State.engine_modEngine_ne (s : State) {n m : Nat} (h : m ≠ n) (f : Eng → Eng) :
    (s.modEngine n f).engine m = s.engine m := vget_vmod_ne _ _ _ h

theorem State.inService_congr (h : t.sne.engines = s.sne.engines) {n : Nat} (k : s.inService n) : t.inService n := by
  unfold State.inService State.engine at *
  rwa [h]

theorem State.settleEngines_inService {n : Nat} (h : s.inService n) : s.settleEngines.inService n := by
  unfold State.settleEngines
  refine forRange_keeps (P := fun t => t.inService n) (fun k hk t ht => ?_) h
  split
  · by_cases e : n = k
    · subst e
      unfold State.inService
      rw [t.engine_modEngine_self hk]
      dsimp only
      split
      · exact .inr rfl
      · exact .inl rfl
    · unfold State.inService
      rwa [t.engine_modEngine_ne e]
  · exact ht

/-- A slice given to an engine: the engines settle, and the spare's takeover is recorded (R216). -/
theorem State.giveSlice_eq (s : State) (k n failed cause : Nat) : ∃ u : State, s.giveSlice k n failed cause =
      (if n = 16 then u.settleEngines.raise 0x2720 cause (u8 failed ++ u8 k ++ u8 cause) else u.settleEngines) ∧
    u.sne.engines = s.sne.engines ∧ u.flt = s.flt :=
  ⟨_, rfl, rfl, rfl⟩

/-- A slice given to an engine takes no engine out of service. -/
theorem State.giveSlice_inService (k m failed cause : Nat) {n : Nat} (h : s.inService n) :
    (s.giveSlice k m failed cause).inService n := by
  obtain ⟨u, e, engines, -⟩ := s.giveSlice_eq k m failed cause
  have settled : u.settleEngines.inService n := State.settleEngines_inService (State.inService_congr engines h)
  rw [e]
  split
  · exact State.inService_congr (congrArg Sne.engines (State.raise_moves.same .sne)) settled
  · exact settled

/-- An engine that returns is in service, with a slice or without one (R220). -/
theorem State.engineReturns_inService (s : State) {n : Nat} (hn : n < 17) : (s.engineReturns n).inService n := by
  unfold State.engineReturns
  extract_lets a bare
  have idle : a.inService n := .inl (by rw [show a.engine n = _ from s.engine_modEngine_self hn _])
  split
  · split
    · exact State.giveSlice_inService _ _ _ _ idle
    · exact idle
  · split
    · exact State.giveSlice_inService _ _ _ _ idle
    · exact idle

theorem mem_queueReport {r x : Report} {l : List Report} (h : x ∈ l) : x ∈ queueReport r l := by
  unfold queueReport
  rw [← List.takeWhile_append_dropWhile (p := (·.before r)) (l := l)] at h
  simp only [List.mem_append, List.mem_cons] at h ⊢
  tauto

theorem State.noteRail_flt (s : State) (r : Report) : (s.noteRail r).flt = s.flt := State.noteRail_moves.same .flt

/-- A report sent leaves the reports that wait. -/
theorem State.send_raised {src cause : Nat} (r : Report) (h : Raised src cause s) : Raised src cause (s.send r) := by
  obtain ⟨x, hx, hr⟩ := h
  refine ⟨x, ?_, hr⟩
  unfold State.send
  split
  · dsimp only
    split
    · exact mem_queueReport (by rwa [State.noteRail_flt])
    · rw [State.bump_moves.same .flt]
      exact (s.noteRail_flt r).symm ▸ hx
  · exact hx

theorem Raised.congr {src cause : Nat} (h : t.flt = s.flt) (k : Raised src cause s) : Raised src cause t := by
  unfold Raised at *
  rwa [h]

theorem State.takesReports_congr (hp : t.pwr = s.pwr) (hf : t.flt = s.flt) (h : s.takesReports) : t.takesReports := by
  unfold State.takesReports State.fltRuns State.on at *
  rwa [hp, hf]

theorem State.giveSlice_raised {src cause : Nat} (k n failed c : Nat) (h : Raised src cause s) :
    Raised src cause (s.giveSlice k n failed c) := by
  obtain ⟨u, e, -, flt⟩ := s.giveSlice_eq k n failed c
  have settled : Raised src cause u.settleEngines := .congr ((State.settleEngines_moves.same .flt).trans flt) h
  rw [e]
  split
  · exact State.send_raised _ settled
  · exact settled

theorem State.engineReturns_raised {src cause : Nat} (n : Nat) (h : Raised src cause s) : Raised src cause (s.engineReturns n) := by
  unfold State.engineReturns
  extract_lets a bare
  have kept : Raised src cause a := .congr rfl h
  split
  · split
    · exact State.giveSlice_raised _ _ _ _ kept
    · exact kept
  · split
    · exact State.giveSlice_raised _ _ _ _ kept
    · exact kept

/-- What a Write of ResetRequest does is the reset that its value asks for (R41). -/
theorem hook_resetRequest (x : Session) (u : State) {d : Desc} (hd : findDesc 0x1120 1 = some d) {v : Nat} (hv : v < 256) :
    hook x 0x1120 1 (d.value (u8 v)) u = some (u.resetRequest v) := by
  rw [Desc.value_num hd _ (by decide), u8, leNat_leBytes, Nat.mod_eq_of_lt (by simpa using hv)]
  rfl

theorem State.resetRequest_chip (s : State) : s.resetRequest 1 = .ok (s.modPwr fun p => { p with chipPending := some 2 }) := rfl

theorem State.resetRequest_block (h : areaResettable (s.num 0x1120 2 / 256) = true) :
    s.resetRequest 2 = .ok (s.blockReset ⟨s.num 0x1120 2 / 256, s.num 0x1120 2 % 256⟩ true 0) := by
  simp [State.resetRequest, h]

theorem State.resetRequest_none (h : areaResettable (s.num 0x1120 2 / 256) = false) :
    s.resetRequest 2 = .error (0x11040A00 + s.num 0x1120 2 / 256) := by
  simp only [State.resetRequest, h, pwrAbort]
  exact congrArg Except.error (by omega)

theorem exec_blockResetComplete {r : Nat × Nat} {rest : List (Nat × Nat)} (h : s.pwr.resets = r :: rest) :
    ∃ t, exec .blockResetComplete s = .next t ∧ t.pwr = { s.pwr with resets := rest } := by
  obtain ⟨area, unit⟩ := r
  have run : exec .blockResetComplete s = execBlockResetComplete s := rfl
  rw [run, execBlockResetComplete, h]
  refine ⟨_, rfl, ?_⟩
  split
  · refine Moves.same (ps := [.objs, .hlk]) (s := s.modPwr fun p => { p with resets := rest }) (.forEach .refl fun l t h => ?_) .pwr
    split
    · exact .after State.laneAlign_moves h
    · exact h
  · rfl

theorem exec_selfTestPassed {n : Engine} (h : (s.engine n).st = .selfTest) :
    exec (.engineSelfTestDone n true) s = .next (s.engineReturns n) := by
  simp [exec, execEngineSelfTestDone, h]

/-- A self-test that fails is reported, and the engine returns but where the reaction bolts it (R220, R221). -/
theorem exec_selfTestFailed {n : Engine} (h : (s.engine n).st = .selfTest) : ∃ (u : State) (d : Bytes),
    exec (.engineSelfTestDone n false) s = .next (if (u.raise (0x2700 + n.val) 1 d).willBolt (0x2700 + n.val)
      then u.raise (0x2700 + n.val) 1 d else (u.raise (0x2700 + n.val) 1 d).engineReturns n) ∧ u.pwr = s.pwr ∧ u.flt = s.flt := by
  have run : exec (.engineSelfTestDone n false) s = execEngineSelfTestDone n false s := rfl
  rw [run, execEngineSelfTestDone, if_neg (by simp [h]), if_neg (by decide)]
  have free : Moves [.fresh, .sne] s ((s.modEngine n fun g => { g with lastCause := 1 }).freeBytes 6).2 :=
    .after State.freeBytes_moves.snd State.modEngine_moves.mono
  exact ⟨_, _, rfl, free.same .pwr, free.same .flt⟩

theorem selfTestFailed_raised {n : Engine} (h : (s.engine n).st = .selfTest) (k : s.takesReports) :
    ∃ t, exec (.engineSelfTestDone n false) s = .next t ∧ Raised (0x2700 + n.val) 1 t := by
  obtain ⟨u, d, run, pwr, flt⟩ := exec_selfTestFailed h
  have raised : Raised (0x2700 + n.val) 1 (u.raise (0x2700 + n.val) 1 d) :=
    State.raise_raised _ _ d (State.takesReports_congr pwr flt k)
  refine ⟨_, run, ?_⟩
  split
  · exact raised
  · exact State.engineReturns_raised _ raised

/-- Settles O15: a block reset ends with the reset values of its objects; an engine that returns is given a slice or waits for one. -/
theorem requestedResets : Obligations.RequestedResets := by
  unfold Obligations.RequestedResets
  refine ⟨fun s h x w => ?_, fun s h x w hr => ?_, fun s h x w hr => ?_, fun s r rest hr => ?_, fun s n hn => ?_, fun s n hn hk => ?_,
    fun s n p hn => ?_⟩
  · obtain ⟨t, run, answered, rest, frame⟩ := w.row (u := (s.heard x.sid).modPwr fun p => { p with chipPending := some 2 })
      (ps := [.sent, .pwr, .wilwa]) (by decide) (by decide)
      (fun d hd => (hook_resetRequest _ _ hd (by decide)).trans (congrArg some (State.resetRequest_chip _)))
      (.after State.modPwr_moves .refl)
    exact ⟨t, (exec_of_writeOf rfl).trans run, answered, by rw [rest .pwr (by decide)]; rfl, rest .objs (by decide), frame⟩
  · obtain ⟨t, run, answered, rest, frame⟩ := w.row (ps := domainParts) (by decide) (by decide)
      (fun d hd => (hook_resetRequest _ _ hd (by decide)).trans (congrArg some (State.resetRequest_block (s := s.heard x.sid) hr)))
      (.after State.blockReset_moves .refl)
    refine ⟨t, (exec_of_writeOf rfl).trans run, answered, fun i j hj hb => ?_, frame⟩
    exact (State.obj_congr (rest .objs (by decide)) i j).trans (State.blockReset_obj _ _ _ _ hj hb)
  · obtain ⟨t, run, answered, frame⟩ := w.rowRefused (by decide) (by decide)
      (fun d hd => (hook_resetRequest _ _ hd (by decide)).trans (congrArg some (State.resetRequest_none (s := s.heard x.sid) hr)))
    exact ⟨t, (exec_of_writeOf rfl).trans run, answered, frame⟩
  · obtain ⟨t, run, pwr⟩ := exec_blockResetComplete hr
    exact ⟨t, run, pwr, execBlockResetComplete_moves.only run⟩
  · exact ⟨_, exec_selfTestPassed hn, s.engineReturns_inService n.isLt, .of_moves (State.engineReturns_moves.mono)⟩
  · obtain ⟨t, run, raised⟩ := selfTestFailed_raised hn hk
    exact ⟨t, run, raised, execEngineSelfTestDone_moves.only run⟩
  · simp [exec, execEngineSelfTestDone, hn]

end Sys2Proof.Machine
end

section
/-! How the requests that take time end (R26, R29, R34, R115). -/

set_option Elab.async false

namespace Sys2Proof.Machine

variable {s t : State}

theorem State.enter_dev (s : State) (d : DevState) : (s.enter d).pwr.dev = d := rfl

theorem State.enterConfigured_dev (s : State) : s.enterConfigured.pwr.dev = .configured := rfl

theorem State.endRequest_pwr (s : State) (r : Nat) : (s.endRequest r).pwr.dev = s.pwr.dev ∧ (s.endRequest r).pwr.trans = none ∧
    (s.endRequest r).pwr.progress.result = r := ⟨rfl, rfl, rfl⟩

theorem State.toArmed_pwr (s : State) : s.toArmed.pwr = (s.enter .armed).pwr :=
  Moves.same (ps := [.objs]) (s := s.enter .armed) (.forRange .refl fun _ _ h => .after State.setNum_moves h) .pwr

/-- A training that fails ends its request with its result; the device stays where it is (R25, R34). -/
theorem State.trainingFails_pwr (s : State) (step unit result : Nat) :
    (s.trainingFails step unit result).pwr.dev = s.pwr.dev ∧ (s.trainingFails step unit result).pwr.trans = none ∧
      (s.trainingFails step unit result).pwr.progress.result = result ∧
      (result ≠ 0 → (s.trainingFails step unit result).pwr.progress.step = step) := by
  unfold State.trainingFails
  extract_lets u
  obtain ⟨dev, trans, ended⟩ :=
    (u.modPwr fun p => { p with progress := { p.progress with step := step, unit := unit } }).endRequest_pwr result
  have reported : u.pwr = s.pwr := State.raise_moves.same .pwr
  exact ⟨dev.trans (show u.pwr.dev = s.pwr.dev by rw [reported]), trans, ended, fun h => if_neg h⟩

/-- Every channel, the Raster port and every job lane is trained: the device enters CONFIGURED (R26). -/
theorem exec_trainingDone (ht : s.pwr.trans = some .training) (hc : ∀ c ∈ s.enabled, (s.chan c).serves = true)
    (hr : s.rin.linkUp = true) (hl : ∀ l ∈ s.jobLanes, (s.lane l).st = .trained) :
    exec .configuredTrainingDone s = .next (s.fixSoloGen.enterConfigured.sendOwners.endRequest 0) := by
  have noChannel : (s.enabled.find? fun c => !(s.chan c).serves && (s.chan c).st != .training && (s.chan c).st != .freqChange) = none :=
    List.find?_eq_none.2 fun c h => by simp [hc c h]
  have noLane : (s.jobLanes.find? fun l => (s.lane l).st == .down) = none := List.find?_eq_none.2 fun l h => by simp [hl l h]
  have run : exec .configuredTrainingDone s = execConfiguredTrainingDone s := rfl
  rw [run, execConfiguredTrainingDone, if_neg (by simp [ht])]
  simp only [noChannel, noLane]
  rw [if_pos (by simpa [hr] using ⟨hc, hl⟩)]

/-- An enabled channel that is untrained ends the request with Result 1, at the first channel that failed (R34). -/
theorem exec_trainingFailed {c : Nat} (ht : s.pwr.trans = some .training) (hc : c ∈ s.enabled) (hu : (s.chan c).st = .untrained) :
    ∃ k, exec .configuredTrainingDone s = .next (s.trainingFails 1 k 1) := by
  have failed : (!(s.chan c).serves && (s.chan c).st != .training && (s.chan c).st != .freqChange) = true := by
    simp [Mch.serves, hu]
  have run : exec .configuredTrainingDone s = execConfiguredTrainingDone s := rfl
  rw [run, execConfiguredTrainingDone, if_neg (by simp [ht])]
  dsimp only
  cases found : s.enabled.find? fun c => !(s.chan c).serves && (s.chan c).st != .training && (s.chan c).st != .freqChange with
  | some k => exact ⟨k, rfl⟩
  | none => exact absurd failed (List.find?_eq_none.1 found c hc)

/-- The training burst ends: the device prints where a bar goes on with its next line, and is ARMED otherwise (R29). -/
theorem exec_resumed (f : BitVec 32) (h : s.pwr.trans = some .resume) :
    ∃ t, exec (.resumeBurstEnd f) s = .next t ∧ t.pwr.trans = none ∧ t.pwr.dev =
      (if s.num 0x1100 5 = 0 ∧ s.anyBar (fun y => y.run == .held && y.wasPrinting) = true then .printing else .armed) := by
  have run : exec (.resumeBurstEnd f) s = execResumeBurstEnd f s := rfl
  rw [run, execResumeBurstEnd, h]
  refine ⟨_, rfl, (State.endRequest_pwr _ _).2.1, (State.endRequest_pwr _ _).1.trans ?_⟩
  simp only [Bool.and_eq_true, beq_iff_eq]
  split
  · exact State.enter_dev _ _
  · exact (congrArg Pwr.dev (State.toArmed_pwr _)).trans (State.enter_dev _ _)

/-- Settles O13: each end of a request ends it through `State.endRequest`, after the entry to its state or a failed training. -/
theorem timedRequestsEnd : Obligations.TimedRequestsEnd := by
  unfold Obligations.TimedRequestsEnd
  refine ⟨fun s ht hc hr hl => ?_, fun s c ht hc hu => ?_, fun s ht hr => ?_, fun s f ht => ?_⟩
  · have run := exec_trainingDone ht hc hr hl
    have owners : s.fixSoloGen.enterConfigured.sendOwners.pwr = s.fixSoloGen.enterConfigured.pwr := State.sendOwners_moves.same .pwr
    obtain ⟨dev, trans, result⟩ := s.fixSoloGen.enterConfigured.sendOwners.endRequest_pwr 0
    exact ⟨_, run, dev.trans ((congrArg Pwr.dev owners).trans (State.enterConfigured_dev _)), trans, result,
      execConfiguredTrainingDone_moves.only run⟩
  · obtain ⟨k, run⟩ := exec_trainingFailed ht hc hu
    obtain ⟨dev, trans, result, -⟩ := s.trainingFails_pwr 1 k 1
    exact ⟨_, run, dev, trans, result, execConfiguredTrainingDone_moves.only run⟩
  · have run : exec .rasterTrainingTimeout s = .next (s.trainingFails 2 0 2) := congrArg Host.Outcome.next (if_pos ⟨ht, by simp [hr]⟩)
    obtain ⟨dev, trans, result, step⟩ := s.trainingFails_pwr 2 0 2
    exact ⟨_, run, dev, trans, result, step (by decide), execRasterTrainingTimeout_moves.only run⟩
  · obtain ⟨t, run, trans, dev⟩ := exec_resumed f ht
    exact ⟨t, run, dev, trans, (execResumeBurstEnd_moves.only run).mono (by decide)⟩

end Sys2Proof.Machine
end

section
/-! What happens to the bars of the job while lines end, values are taken up and lanes fall idle: their run states and stops stay. -/

set_option Elab.async false

namespace Sys2Proof.Machine

variable {ps : List StatePart} {s t u : State}

theorem State.bar_congr (h : t.fsq = s.fsq) (b : Nat) : t.bar b = s.bar b := by
  unfold State.bar
  rw [h]

theorem State.bar_modBar_self (s : State) {b : Nat} (hb : b < 8) (f : BarFsq → BarFsq) : (s.modBar b f).bar b = f (s.bar b) :=
  vget_vmod_self _ _ _ hb

theorem State.bar_modBar_ne (s : State) {b i : Nat} (h : i ≠ b) (f : BarFsq → BarFsq) : (s.modBar b f).bar i = s.bar i :=
  vget_vmod_ne _ _ _ h

/-- A change of one bar's state reaches that bar, where there is one, and no other. -/
theorem State.bar_modBar (s : State) (b : Nat) (f : BarFsq → BarFsq) (i : Nat) :
    (s.modBar b f).bar i = s.bar i ∨ (s.modBar b f).bar i = f (s.bar i) := by
  by_cases h : i = b
  · rcases Nat.lt_or_ge b 8 with hb | hb
    · subst h; exact .inr (s.bar_modBar_self hb f)
    · subst h; exact .inl ((vget_of_ge _ _ hb).trans (vget_of_ge _ _ hb).symm)
  · exact .inl (s.bar_modBar_ne h f)

/-- Every bar's run state and stop, and the job's mask, are as they were, and no bar has begun to fire. -/
structure BarsKept (s t : State) : Prop where
  run : ∀ b, (t.bar b).run = (s.bar b).run
  stopping : ∀ b, (t.bar b).stopping = (s.bar b).stopping
  quiet : ∀ b, (s.bar b).firing = none → (t.bar b).firing = none
  mask : t.fsq.jobMask = s.fsq.jobMask

namespace BarsKept

theorem refl : BarsKept s s := ⟨fun _ => rfl, fun _ => rfl, fun _ h => h, rfl⟩

theorem trans (h : BarsKept s t) (k : BarsKept t u) : BarsKept s u :=
  ⟨fun b => (k.run b).trans (h.run b), fun b => (k.stopping b).trans (h.stopping b), fun b q => k.quiet b (h.quiet b q),
    k.mask.trans h.mask⟩

/-- A step applied to a state that has been reached. -/
theorem after (k : BarsKept t u) (h : BarsKept s t) : BarsKept s u := h.trans k

theorem of_fsq (h : t.fsq = s.fsq) : BarsKept s t :=
  ⟨fun b => by rw [State.bar_congr h], fun b => by rw [State.bar_congr h], fun b q => by rwa [State.bar_congr h], by rw [h]⟩

/-- A function that leaves FSQ alone leaves the bars alone. -/
theorem of_moves (m : Moves ps s t) (h : .fsq ∉ ps := by decide) : BarsKept s t := of_fsq (m.same .fsq h)

theorem modBar {b : Nat} {f : BarFsq → BarFsq} (hr : ∀ x, (f x).run = x.run) (hs : ∀ x, (f x).stopping = x.stopping)
    (hq : ∀ x, x.firing = none → (f x).firing = none) : BarsKept s (s.modBar b f) where
  run i := by rcases s.bar_modBar b f i with e | e <;> rw [e]; exact hr _
  stopping i := by rcases s.bar_modBar b f i with e | e <;> rw [e]; exact hs _
  quiet i h := by rcases s.bar_modBar b f i with e | e <;> rw [e]; exacts [h, hq _ h]
  mask := rfl

theorem forEach {α : Type} {l : List α} {f : α → State → State} (h : ∀ a t, BarsKept t (f a t)) :
    BarsKept s (forEach l f s) :=
  forEach_keeps (P := BarsKept s) (fun a _ t k => k.trans (h a t)) .refl

theorem forRange {n : Nat} {f : Nat → State → State} (h : ∀ a t, BarsKept t (f a t)) : BarsKept s (forRange n f s) :=
  forEach h

theorem ite {c : Prop} [Decidable c] (h : BarsKept s t) (k : BarsKept s u) : BarsKept s (if c then t else u) := by
  split <;> assumption

end BarsKept

/-! Values taken up. -/

theorem State.nowLive_bars (s : State) (idx sub : Nat) (old : Val) : BarsKept s (s.nowLive idx sub old) := by
  unfold State.nowLive
  extract_lets b
  split
  · exact (BarsKept.of_moves State.mapCommitted_moves).after (.ite .refl (.of_fsq rfl))
  · exact .of_moves State.mapCommitted_moves
  · exact .of_fsq rfl
  iterate 5 exact .modBar (fun _ => rfl) (fun _ => rfl) fun _ h => h
  iterate 7 exact .of_moves State.delaysChanged_moves
  · exact .refl

theorem State.makeLive_bars (s : State) (idx sub : Nat) (v : Val) : BarsKept s (s.makeLive idx sub v) :=
  (State.nowLive_bars _ _ _ _).after (.of_fsq rfl)

theorem State.liveWhere_bars (s : State) (p : Nat → Nat → Bool) : BarsKept s (s.liveWhere p) := by
  unfold State.liveWhere
  exact (BarsKept.forEach fun e t => t.makeLive_bars _ _ _).after (.of_fsq rfl)

theorem State.takeUpBar_bars (s : State) (area b line : Nat) : BarsKept s (s.takeUpBar area b line) := by
  unfold State.takeUpBar
  exact .ite ((BarsKept.of_moves State.takenUp_moves).after (s.liveWhere_bars _)) .refl

theorem State.barAtOnce_bars (s : State) (b : Nat) : BarsKept s (s.barAtOnce b) := by
  unfold State.barAtOnce
  exact .ite .refl (.forEach fun a t => t.takeUpBar_bars _ _ _)

/-! Lanes that fall idle, with the measurement that ends there. -/

theorem State.autoHide_bars (s : State) (b : Nat) (newly : List Nat) : BarsKept s (s.autoHide b newly) := by
  unfold State.autoHide
  extract_lets hide k u wilwa v w x
  have shadow : BarsKept s v := by
    unfold v
    split <;> exact .of_fsq rfl
  have hidden : BarsKept v w := .modBar (fun _ => rfl) (fun _ => rfl) fun _ h => h
  exact (shadow.trans hidden).trans (.of_moves (ps := [.objs, .flt, .bbx]) (.after State.raise_moves State.addNum_moves.mono))

theorem State.measClassify_bars (s : State) (b : Nat) : BarsKept s (s.measClassify b) := by
  unfold State.measClassify
  extract_lets i m addrs u live pending newly map hdg v weak missing w x y
  have classed : BarsKept s u := .of_moves (ps := [.hdg]) (.forEach .refl fun a t h => .after State.modMeas_moves h)
  have found : Moves [.objs, .flt, .bbx, .hdg] u x := .after State.raise_moves (.after State.setNum_moves
    (.after State.setNum_moves (.after State.setNum_moves (.hdg .refl))))
  have told : BarsKept s y := by
    unfold y
    cases newly with
    | nil => exact classed.trans (.of_moves found)
    | cons f more => exact (classed.trans (.of_moves found)).trans (.of_moves State.raise_moves)
  exact .ite (told.trans (State.autoHide_bars _ _ _)) told

theorem State.measBarDone_bars (s : State) (b : Nat) : BarsKept s (s.measBarDone b) := by
  unfold State.measBarDone
  refine .ite .refl (.ite ((s.measClassify_bars b).trans ?_) ((s.measClassify_bars b).trans ?_))
  · exact .of_moves (ps := [.hdg]) (.hdg .refl)
  · exact .of_moves (ps := [.objs, .hdg]) (.after State.setNum_moves (.hdg (.hdg .refl)))

theorem State.measLaneLost_bars (s : State) (l : Nat) : BarsKept s (s.measLaneLost l) := by
  unfold State.measLaneLost State.measLaneDone
  refine .ite .refl ?_
  refine (State.measBarDone_bars _ _).after ?_
  exact .of_moves (ps := [.sent, .hlk, .hdg])
    (.ite (.after State.laneIdle_moves (.after State.modLane_moves State.measRest_moves.mono))
      (.after State.modLane_moves State.measRest_moves.mono))

theorem State.barIdle_bars (s : State) (b : Nat) : BarsKept s (s.barIdle b) := by
  unfold State.barIdle
  exact .forEach fun l t => .ite ((BarsKept.of_moves State.laneIdle_moves).after (t.measLaneLost_bars l)) .refl

/-! Lines that end, and their coverage. -/

theorem State.covDrain_bars (n b : Nat) (s : State) : BarsKept s (State.covDrain n b s) := by
  induction n generalizing s with
  | zero => exact .refl
  | succ n ih =>
    unfold State.covDrain
    split
    · exact .refl
    · refine .ite (.trans ?_ (ih _)) .refl
      refine .trans ?_ (.of_moves State.bump_moves)
      refine .trans ?_ (.modBar (fun _ => rfl) (fun _ => rfl) fun _ h => h)
      exact .of_moves State.memWrite_moves

theorem State.covClose_bars (s : State) (b : Nat) (early : Bool) : BarsKept s (s.covClose b early) := by
  unfold State.covClose
  split
  · exact .refl
  · extract_lets m zw r u v w
    have drained : BarsKept s u := by
      refine .trans ?_ (State.covDrain_bars _ _ _)
      exact .modBar (fun _ => rfl) (fun _ => rfl) fun _ h => h
    have counted : BarsKept s v := drained.trans (.of_moves State.bump_moves)
    have told : BarsKept s w := counted.trans (.ite (.of_moves State.raise_moves) .refl)
    refine .ite (told.trans (.modBar (fun _ => rfl) (fun _ => rfl) fun _ h => h)) (drained.trans ?_)
    refine .trans ?_ (State.covDrain_bars _ _ _)
    exact .modBar (fun _ => rfl) (fun _ => rfl) fun _ h => h

theorem State.covLine_bars (s : State) (b : Nat) (ev : LineEv) (pr : Prepared) (fin : LineEnd) (fire : Nat)
    (lanes : Option (List Nat)) : BarsKept s (s.covLine b ev pr fin fire lanes) := by
  unfold State.covLine
  extract_lets m zw zones heads reach drops fires flags0 flags
  split
  rename_i st u e
  extract_lets c sums v
  have stamped : Moves [.fresh] s u := by
    refine MovesP.of_eq e ?_
    split
    · exact State.stampFine_moves
    · exact .mk .refl
  have counted : BarsKept s v := (BarsKept.of_moves stamped).trans (.modBar (fun _ => rfl) (fun _ => rfl) fun _ h => h)
  exact .ite (counted.trans (State.covClose_bars _ _ _)) counted

theorem State.settleStop_bars (s : State) (b : Nat) : BarsKept s (s.settleStop b) := by
  unfold State.settleStop
  exact .ite .refl (.ite ((s.covClose_bars b true).trans (State.barIdle_bars _ _)) (.ite (s.covClose_bars b true) .refl))

/-- A line that ends leaves its bar's firing over, and every bar's run state and stop as they were (R227, R234). -/
theorem State.lineFinished_bars (s : State) (b : Nat) (ev : LineEv) (pr : Prepared) (fin : LineEnd) (fire : Nat)
    (lanes : Option (List Nat)) : BarsKept s (s.lineFinished b ev pr fin fire lanes) ∧
      (b < 8 → ((s.lineFinished b ev pr fin fire lanes).bar b).firing = none) := by
  unfold State.lineFinished
  extract_lets u late v w
  have counted : BarsKept s u := by
    unfold u
    split
    · exact .of_moves State.bump_moves
    · exact .of_moves State.bump_moves
    · exact .refl
  have stopped : BarsKept v w := .modBar (fun _ => rfl) (fun _ => rfl) fun _ _ => rfl
  have settled := w.settleStop_bars b
  refine ⟨((counted.trans (u.covLine_bars _ _ _ _ _ _)).trans stopped).trans settled, fun hb => settled.quiet b ?_⟩
  rw [show w.bar b = _ from v.bar_modBar_self hb _]

/-- A bar that is cut off fires no more (R31, R246). -/
theorem State.cutBar_bars (s : State) (b : Nat) : BarsKept s (s.cutBar b) ∧ (b < 8 → ((s.cutBar b).bar b).firing = none) := by
  unfold State.cutBar
  extract_lets u v blank w
  have lanes : BarsKept s u := .of_moves (ps := [.hlk]) (.forRange .refl fun l t h => .after State.modLane_moves h)
  have ended : BarsKept u v ∧ (b < 8 → (v.bar b).firing = none) := by
    unfold v
    split
    · exact u.lineFinished_bars _ _ _ _ _ _
    next quiet => exact ⟨.refl, fun _ => quiet⟩
  have rest : BarsKept v ((w.modBar b fun x => { x with waiting := [] }).covClose b true) := by
    refine .trans ?_ (State.covClose_bars _ _ _)
    refine .trans ?_ (.modBar (fun _ => rfl) (fun _ => rfl) fun _ h => h)
    exact .forEach fun ev t => t.covLine_bars _ _ _ _ _ _
  exact ⟨(lanes.trans ended.1).trans rest, fun hb => rest.quiet b (ended.2 hb)⟩

theorem State.dropFrom_bars (s : State) (b idx : Nat) : BarsKept s (s.dropFrom b idx) := by
  unfold State.dropFrom
  extract_lets u
  have dropped : BarsKept s u := .modBar (fun _ => rfl) (fun _ => rfl) fun _ h => h
  exact dropped.trans (.of_fsq rfl)

theorem State.dropLines_bars (s : State) (b : Nat) : BarsKept s (s.dropLines b) := by
  unfold State.dropLines
  refine (s.dropFrom_bars b 0).trans ?_
  exact .modBar (fun _ => rfl) (fun _ => rfl) fun _ h => h

theorem State.startBar_bars (s : State) (b : Nat) (slot : Option Nat) (p : Nat) : BarsKept s (s.startBar b slot p) := by
  unfold State.startBar
  refine .trans ?_ (.of_moves State.modJob_moves)
  refine .trans ?_ (.modBar (fun _ => rfl) (fun _ => rfl) fun _ h => h)
  exact s.dropLines_bars b

end Sys2Proof.Machine
end

section
/-! Bars that leave the job, wait for their marks and stop (R25, R28, R29, R130). -/

set_option Elab.async false

namespace Sys2Proof.Machine

variable {α : Type} {s t u : State}

/-- A step that establishes something is among steps that keep it. -/
theorem forEach_reaches {P Q : State → Prop} {l : List α} {f : α → State → State} {a : α} (ha : a ∈ l)
    (hP : ∀ b ∈ l, ∀ t, P t → P (f b t)) (hQ : ∀ b ∈ l, ∀ t, Q t → Q (f b t)) (reach : ∀ t, P t → Q (f a t)) (h0 : P s) :
    Q (forEach l f s) := by
  unfold forEach
  induction l generalizing s with
  | nil => cases ha
  | cons b l ih =>
    have hQ' : ∀ b ∈ l, ∀ t, Q t → Q (f b t) := fun b hb => hQ b (List.mem_cons_of_mem _ hb)
    rcases List.mem_cons.1 ha with rfl | ha
    · exact forEach_keeps (l := l) hQ' (reach s h0)
    · exact ih ha (fun b hb => hP b (List.mem_cons_of_mem _ hb)) hQ' (hP b List.mem_cons_self s h0)

theorem forRange_reaches {Q : State → Prop} {n k : Nat} {f : Nat → State → State} (hk : k < n) (hQ : ∀ b t, Q t → Q (f b t))
    (reach : ∀ t, Q (f k t)) : Q (forRange n f s) :=
  forEach_reaches (P := fun _ => True) (List.mem_range.2 hk) (fun _ _ _ h => h) (fun b _ => hQ b) (fun t _ => reach t) trivial

/-- A bar that waits for its mark waits; the other bars, and the mask, are as they were (R29, R130). -/
theorem State.waitForMark_bars (s : State) (b : Nat) (slot : Option Nat) (p : Nat) :
    (s.waitForMark b slot p).fsq.jobMask = s.fsq.jobMask ∧
      (∀ i, i ≠ b → ((s.waitForMark b slot p).bar i).run = (s.bar i).run) ∧
      (b < 8 → ((s.waitForMark b slot p).bar b).run = .waiting) := by
  have kept := (s.cutBar_bars b).1.trans ((s.cutBar b).startBar_bars b slot p)
  unfold State.waitForMark
  extract_lets u
  have marked : ∀ i, ((u.modLcg b fun _ => { Lcg.start with st := .waiting }).bar i).run = (u.bar i).run :=
    (BarsKept.of_moves State.modLcg_moves).run
  refine ⟨kept.mask, fun i hi => (marked i).trans ?_, fun hb => (marked b).trans ?_⟩
  · rw [show u.bar i = _ from State.bar_modBar_ne _ hi _, kept.run]
  · rw [show u.bar b = _ from State.bar_modBar_self _ hb _]

/-- One bar out of the job, as `State.clearBars` takes each (R25, R130). -/
def State.clearBar (s : State) (b : Nat) : State :=
  (((((((s.cutBar b).dropLines b).modBar b fun x => { x with run := .notInJob, stopping := false, wasPrinting := false }).modLcg b
    fun k => { k with st := .out }).modJob b fun _ => BarJob.start).setNum 0x2413 (b + 1) 0xFFFFFFFF).barAtOnce b)

theorem State.clearBars_eq (s : State) : s.clearBars = forRange 8 (fun b t => t.clearBar b) s := rfl

/-- The bar taken out of the job is out of it; the others run as they did. -/
theorem State.clearBar_run (s : State) (b : Nat) :
    (∀ i, i ≠ b → ((s.clearBar b).bar i).run = (s.bar i).run) ∧ (b < 8 → ((s.clearBar b).bar b).run = .notInJob) := by
  have cut : BarsKept s ((s.cutBar b).dropLines b) := (s.cutBar_bars b).1.trans (State.dropLines_bars _ _)
  unfold State.clearBar
  generalize (s.cutBar b).dropLines b = u at cut ⊢
  generalize hv : u.modBar b _ = v
  have rest : BarsKept v ((((v.modLcg b fun k => { k with st := .out }).modJob b fun _ => BarJob.start).setNum 0x2413 (b + 1)
      0xFFFFFFFF).barAtOnce b) := by
    refine .trans ?_ (State.barAtOnce_bars _ _)
    exact .of_moves (ps := [.objs, .fet, .lcg]) (.after State.setNum_moves (.after State.modJob_moves State.modLcg_moves.mono))
  refine ⟨fun i hi => (rest.run i).trans ?_, fun hb => (rest.run b).trans ?_⟩
  · rw [← hv, u.bar_modBar_ne hi, cut.run]
  · rw [← hv, u.bar_modBar_self hb]

/-- No bar is left in the job (R25). -/
theorem State.clearBars_run (s : State) {b : Nat} (hb : b < 8) : (s.clearBars.bar b).run = .notInJob := by
  rw [State.clearBars_eq]
  refine forRange_reaches (Q := fun t => (t.bar b).run = .notInJob) hb (fun k t h => ?_) fun t => (t.clearBar_run b).2 hb
  by_cases e : b = k
  · exact e ▸ (t.clearBar_run b).2 hb
  · exact ((t.clearBar_run k).1 b e).trans h

/-- STANDBY is entered with no bar in the job (R25, R132). -/
theorem State.enterStandby_bars (s : State) {b : Nat} (hb : b < 8) : (s.enterStandby.bar b).run = .notInJob := by
  have rest : BarsKept s.settleChange.clearBars s.enterStandby :=
    .of_moves (ps := [.sent, .objs, .pwr, .hlk]) (.after State.enter_moves State.lanesStandby_moves.mono)
  exact (rest.run b).trans (State.clearBars_run _ hb)

/-- CONFIGURED is entered with no bar in the job (R25, R132). -/
theorem State.enterConfigured_bars (s : State) {b : Nat} (hb : b < 8) : (s.enterConfigured.bar b).run = .notInJob := by
  have rest : BarsKept s.settleChange.clearBars s.enterConfigured :=
    .of_moves (ps := [.fresh, .objs, .pwr, .flt, .bbx, .sne, .hlk, .vis]) (.after State.enter_moves (.after State.lanesResume_moves
      (.after State.reserveRings_moves (.vis State.enginesConfigured_moves.mono))))
  exact (rest.run b).trans (State.clearBars_run _ hb)

/-- What a bar that is asked to stop becomes: one that has started stops at its next line event, one that waits is held (R28). -/
def BarFsq.toStop (x : BarFsq) : BarFsq :=
  match x.run with
  | .printing | .dry | .reversed => { x with stopping := true, wasPrinting := true }
  | .waiting => { x with run := .held, wasPrinting := false }
  | _ => x

theorem State.stopBegin_bar (s : State) {b : Nat} (hb : b < 8) (i : Nat) :
    (s.stopBegin b).bar i = if i = b then (s.bar b).toStop else s.bar i := by
  unfold State.stopBegin BarFsq.toStop
  split <;> rename_i e <;> by_cases h : i = b <;> simp [e, h, State.bar_modBar_self _ hb, State.bar_modBar_ne]

theorem State.toStop_stopping (s : State) (b : Nat) : (s.bar b).toStop.stopping = s.barMoves b := by
  cases e : (s.bar b).run <;> cases h : (s.bar b).stopping <;> simp [BarFsq.toStop, State.barMoves, e, h]

theorem BarFsq.toStop_held {x : BarFsq} (h : x.run = .waiting) : x.toStop.run = .held := by
  simp [BarFsq.toStop, h]

theorem BarFsq.toStop_congr {x y : BarFsq} (hr : x.run = y.run) (hs : x.stopping = y.stopping) :
    x.toStop.run = y.toStop.run ∧ x.toStop.stopping = y.toStop.stopping := by
  unfold BarFsq.toStop
  rw [hr]
  cases e : y.run <;> simp [hr, hs, e]

/-- Every bar is asked to stop, whatever else a step does that leaves the bars alone (R28). -/
theorem stopLoop_bars {g : Nat → State → State} (hg : ∀ b t, BarsKept (t.stopBegin b) (g b t)) (s : State) {b : Nat} (hb : b < 8) :
    ((forRange 8 g s).bar b).run = (s.bar b).toStop.run ∧ ((forRange 8 g s).bar b).stopping = s.barMoves b := by
  have loop := forRange_induct (s := s) (f := g)
    (I := fun k t => ∀ i, i < 8 → (t.bar i).run = (if i < k then (s.bar i).toStop else s.bar i).run ∧
      (t.bar i).stopping = (if i < k then (s.bar i).toStop else s.bar i).stopping) 8 (fun i _ => ⟨rfl, rfl⟩)
    (fun k hk t before i hi => by
      rw [(hg k t).run, (hg k t).stopping, t.stopBegin_bar hk]
      obtain ⟨run, stopping⟩ := before i hi
      by_cases e : i = k
      · subst e
        rw [if_neg (Nat.lt_irrefl i)] at run stopping
        rw [if_pos rfl, if_pos (Nat.lt_succ_self i)]
        exact BarFsq.toStop_congr run stopping
      · rw [if_neg e, run, stopping]
        by_cases l : i < k
        · rw [if_pos l, if_pos (by omega)]
          exact ⟨rfl, rfl⟩
        · rw [if_neg l, if_neg (by omega)]
          exact ⟨rfl, rfl⟩) b hb
  rw [if_pos hb, State.toStop_stopping] at loop
  exact loop

/-- The last bar has stopped: the device is in CONFIGURED (R28, R34). -/
theorem State.stopsDone_configured (ht : s.pwr.trans = some .stopConfigured) (hb : ∀ b, b < 8 → (s.bar b).stopping = false) :
    s.stopsDone = s.enterConfigured.endRequest 0 := by
  have none_ : ((List.range 8).filter fun b => (s.bar b).stopping) = [] :=
    List.filter_eq_nil_iff.2 fun b h => by simp [hb b (List.mem_range.1 h)]
  unfold State.stopsDone
  rw [none_, ht]

/-- The last bar has stopped in HELD: the request is over (R28, R34). -/
theorem State.stopsDone_held (ht : s.pwr.trans = some .stopHeld) (hb : ∀ b, b < 8 → (s.bar b).stopping = false) :
    s.stopsDone = s.endRequest 0 := by
  have none_ : ((List.range 8).filter fun b => (s.bar b).stopping) = [] :=
    List.filter_eq_nil_iff.2 fun b h => by simp [hb b (List.mem_range.1 h)]
  unfold State.stopsDone
  rw [none_, ht]

/-- While a bar still has to stop the request waits, and Unit names a bar (R28, R34). -/
theorem State.stopsDone_waits (ht : s.pwr.trans = some .stopHeld ∨ s.pwr.trans = some .stopConfigured) {b : Nat} (hb : b < 8)
    (h : (s.bar b).stopping = true) : ∃ n, s.stopsDone = s.modPwr fun p => { p with progress := { p.progress with unit := n } } := by
  obtain ⟨n, rest, some_⟩ : ∃ n rest, ((List.range 8).filter fun b => (s.bar b).stopping) = n :: rest :=
    List.exists_cons_of_ne_nil (List.ne_nil_of_mem (List.mem_filter.2 ⟨List.mem_range.2 hb, h⟩))
  unfold State.stopsDone
  rw [some_]
  rcases ht with e | e <;> rw [e] <;> exact ⟨n, rfl⟩

/-- A bar of the job waits for its mark as ARMED is entered; the other bars are as they were (R25, R130). -/
def State.armBar (s : State) (b : Nat) : State :=
  if bit (s.zeroCounts b).fsq.jobMask b then
    (((s.zeroCounts b).waitForMark b (s.zeroCounts b).current 0).setNum 0x2411 (b + 1) 0).setNum 0x2412 (b + 1) 0
  else s.zeroCounts b

theorem State.armBar_bars (s : State) (b : Nat) :
    (s.armBar b).fsq.jobMask = s.fsq.jobMask ∧ (∀ i, i ≠ b → ((s.armBar b).bar i).run = (s.bar i).run) ∧
      (b < 8 → bit s.fsq.jobMask b = true → ((s.armBar b).bar b).run = .waiting) := by
  have zero : BarsKept s (s.zeroCounts b) := .modBar (fun _ => rfl) (fun _ => rfl) fun _ h => h
  unfold State.armBar
  rw [zero.mask]
  split
  · next hm =>
    obtain ⟨mask, others, waits⟩ := (s.zeroCounts b).waitForMark_bars b (s.zeroCounts b).current 0
    generalize (s.zeroCounts b).waitForMark b _ 0 = u at mask others waits ⊢
    have told : BarsKept u ((u.setNum 0x2411 (b + 1) 0).setNum 0x2412 (b + 1) 0) :=
      .of_moves (ps := [.objs]) (.after State.setNum_moves State.setNum_moves)
    exact ⟨told.mask.trans (mask.trans zero.mask), fun i hi => (told.run i).trans ((others i hi).trans (zero.run i)),
      fun hb _ => (told.run b).trans (waits hb)⟩
  · next hm => exact ⟨zero.mask, fun i _ => zero.run i, fun _ h => absurd h hm⟩

theorem State.armLoop_bars (s : State) : (forRange 8 (fun b s => s.armBar b) s).fsq.jobMask = s.fsq.jobMask ∧
    ∀ b, b < 8 → bit s.fsq.jobMask b = true → ((forRange 8 (fun b s => s.armBar b) s).bar b).run = .waiting :=
  forRange_induct (s := s) (f := fun b s => s.armBar b)
    (I := fun k t => t.fsq.jobMask = s.fsq.jobMask ∧ ∀ b, b < k → bit s.fsq.jobMask b = true → (t.bar b).run = .waiting) 8
    ⟨rfl, fun b h => absurd h (Nat.not_lt_zero b)⟩
    (fun k hk t before => by
      obtain ⟨mask, waits⟩ := before
      obtain ⟨kept, others, armed⟩ := t.armBar_bars k
      refine ⟨kept.trans mask, fun b l hm => ?_⟩
      by_cases e : b = k
      · exact e ▸ armed hk (mask ▸ e ▸ hm)
      · exact (others b e).trans (waits b (by omega) hm))

/-- ARMED is entered with every bar of the job waiting for its mark (R25, R130). -/
theorem State.enterArmed_bars (s : State) {b : Nat} (hb : b < 8) (hm : bit s.enterArmed.fsq.jobMask b = true) :
    (s.enterArmed.bar b).run = .waiting := by
  obtain ⟨u, e⟩ : ∃ u, s.enterArmed = (forRange 8 (fun b s => s.armBar b) u).toArmed := ⟨_, rfl⟩
  rw [e] at hm ⊢
  obtain ⟨mask, waits⟩ := u.armLoop_bars
  have told : BarsKept (forRange 8 (fun b s => s.armBar b) u) (forRange 8 (fun b s => s.armBar b) u).toArmed :=
    .of_moves (ps := [.objs, .pwr]) State.toArmed_moves
  rw [told.mask, mask] at hm
  exact (told.run b).trans (waits b hb hm)

end Sys2Proof.Machine
end

section
/-! What state requests find and start: a measurement abandoned, channels that train, what R26 and R27 ask (R24 to R31). -/

set_option Elab.async false

namespace Sys2Proof.Machine

variable {s t u : State}

/-! The measurement that a request abandons. -/

theorem State.send_objs_only (s : State) (r : Report) : ObjsOnly [(0x2F10, 2), (0x2F10, 4)] s (s.send r) := by
  unfold State.send
  extract_lets u
  have railed : ObjsOnly [(0x2F10, 2), (0x2F10, 4)] s u := (s.noteRail_objs_only r).mono (by simp)
  refine .ite (.ite (railed.trans (.of_objs rfl)) (railed.trans ?_)) (.of_objs rfl)
  refine .trans (.of_objs rfl) ((State.setNum_objs_only _ _ _ _).mono (by simp))

theorem State.sendOwner_objs_only (s : State) (l : Nat) : ObjsOnly [(0x2A20, 6)] s (s.sendOwner l) := by
  unfold State.sendOwner
  extract_lets mir u v
  have key : u.objs = s.objs := by
    unfold u
    split
    · exact Moves.same (ps := [.mir]) (.mir .refl) .objs
    · rfl
  have stamped : ObjsOnly [(0x2A20, 6)] u v := u.setNum_objs_only _ _ _
  exact (ObjsOnly.of_objs key).trans (stamped.trans (.of_objs (State.laneSend_moves.same .objs)))

/-- A measurement that is abandoned changes what the report queue shows and the generation that an OWNER frame shows, and no other
object (R287). -/
theorem State.measAbandon_objs_only (s : State) (cause : Nat) (w : WokenLane) :
    ObjsOnly [(0x2F10, 2), (0x2F10, 4), (0x2A20, 6)] s (s.measAbandon cause w) := by
  unfold State.measAbandon
  refine .ite .refl ?_
  extract_lets bars u v hdg x
  have told : ObjsOnly [(0x2F10, 2), (0x2F10, 4), (0x2A20, 6)] s u :=
    .mono (.forEach fun r t => t.send_objs_only r) (by simp)
  have marked : v.objs = u.objs := Moves.same (ps := [.hdg]) (.forEach .refl fun b t h => .forEach h fun l t h =>
    .ite h (.forEach h fun a t h => .after State.modMeas_moves h)) .objs
  have ended : x.objs = v.objs := Moves.same (ps := [.hdg]) (.hdg .refl) .objs
  refine (told.trans (.of_objs (ended.trans marked))).trans (.forEach fun l t => ?_)
  extract_lets woken y
  have cleared : ObjsOnly [(0x2F10, 2), (0x2F10, 4), (0x2A20, 6)] t y := .of_objs (State.modLane_moves.same .objs)
  refine .ite cleared (cleared.trans ?_)
  split
  · split
    · exact .ite ((y.sendOwner_objs_only l).mono (by simp)) .refl
    · exact .of_objs (State.laneIdle_moves.same .objs)
    · exact .refl
  · exact .ite (.of_objs (State.modLane_moves.same .objs)) .refl
  · exact .refl

theorem State.enabled_congr (h : ∀ c, c < 4 → t.obj 0x2310 (c + 1) = s.obj 0x2310 (c + 1)) : t.enabled = s.enabled := by
  unfold State.enabled
  refine List.filter_congr fun c hc => ?_
  rw [State.num, State.num, h c (List.mem_range.1 hc)]

theorem State.measAbandon_enabled (s : State) (cause : Nat) (w : WokenLane) : (s.measAbandon cause w).enabled = s.enabled :=
  State.enabled_congr fun c hc => s.measAbandon_objs_only cause w _ _ (by omega) (by simp)

/-! Channels that train. -/

theorem State.chan_modChan_self (s : State) {c : Nat} (hc : c < 4) (f : Mch → Mch) : (s.modChan c f).chan c = f (s.chan c) :=
  vget_vmod_self _ _ _ hc

theorem State.chan_modChan_ne (s : State) {c i : Nat} (h : i ≠ c) (f : Mch → Mch) : (s.modChan c f).chan i = s.chan i :=
  vget_vmod_ne _ _ _ h

/-- A change of a channel that keeps its state keeps every channel's state. -/
theorem State.modChan_st (s : State) (c : Nat) {f : Mch → Mch} (hf : ∀ m, (f m).st = m.st) (i : Nat) :
    ((s.modChan c f).chan i).st = (s.chan i).st := by
  by_cases h : i = c
  · rcases Nat.lt_or_ge c 4 with hc | hc
    · subst h
      rw [s.chan_modChan_self hc, hf]
    · subst h
      exact congrArg Mch.st ((vget_of_ge _ _ hc).trans (vget_of_ge _ _ hc).symm)
  · rw [s.chan_modChan_ne h]

/-- Every channel's state is as it was. -/
def ChansKept (s t : State) : Prop := ∀ i, (t.chan i).st = (s.chan i).st

theorem ChansKept.trans (h : ChansKept s t) (k : ChansKept t u) : ChansKept s u := fun i => (k i).trans (h i)

theorem ChansKept.of_mem (h : t.mem = s.mem) : ChansKept s t := fun i => by
  unfold State.chan
  rw [h]

theorem State.logCmd_chans (s : State) (c cmd target master row burst : Nat) : ChansKept s (s.logCmd c cmd target master row burst) := by
  unfold State.logCmd
  extract_lets e
  intro i
  refine State.modChan_st s c (fun m => ?_) i
  rfl

theorem State.rankCmd_chans (s : State) (c cmd : Nat) : ChansKept s (s.rankCmd c cmd) :=
  forRange_keeps (P := ChansKept s) (fun _ _ t k => k.trans (t.logCmd_chans _ _ _ _ _ _)) fun _ => rfl

theorem State.restoreCmds_chans (s : State) (c : Nat) : ChansKept s (s.restoreCmds c) :=
  ChansKept.trans (t := forRange (s.freeBelow 33).1 (fun _ s => s.rankCmd c 8) (s.freeBelow 33).2)
    (forRange_keeps (P := ChansKept s) (fun _ _ t k => k.trans (t.rankCmd_chans _ _)) (ChansKept.of_mem rfl))
    (State.rankCmd_chans _ _ _)

/-- A channel that starts its training is in TRAINING, and every other channel is in the state it was in (R159). -/
theorem State.startTraining_chan (s : State) {c : Nat} (hc : c < 4) (restore : Bool) (i : Nat) :
    ((s.startTraining c restore).chan i).st = if i = c then .training else (s.chan i).st := by
  unfold State.startTraining
  extract_lets u
  have started : (u.chan i).st = if i = c then .training else (s.chan i).st := by
    split
    · next e =>
      subst e
      exact congrArg Mch.st (s.chan_modChan_self hc _)
    · next e => exact congrArg Mch.st (s.chan_modChan_ne e _)
  rw [← started]
  split
  · exact u.restoreCmds_chans c i
  · exact u.rankCmd_chans c 0x0A i

/-- A CONFIGURED request trains the channels that are untrained (R26). -/
theorem State.trainForConfigured_chan (s : State) {c : Nat} (hc : c < 4) (i : Nat) :
    ((s.trainForConfigured c).chan i).st = if i = c ∧ (s.chan c).st = .untrained then .training else (s.chan i).st := by
  unfold State.trainForConfigured
  extract_lets m
  by_cases h : (s.chan c).st = .untrained
  · rw [if_pos h, s.startTraining_chan hc]
    simp [h]
  · rw [if_neg h, if_neg (by simp [h])]

theorem mem_enabled {c : Nat} (h : c ∈ s.enabled) : c < 4 := List.mem_range.1 (List.mem_filter.1 h).1

/-- Every enabled channel that was untrained is in TRAINING when a CONFIGURED request has started (R26). -/
theorem State.startConfigured_chan {c : Nat} (hc : c ∈ s.enabled) (h : (s.chan c).st = .untrained) :
    (s.startConfigured.chan c).st = .training := by
  unfold State.startConfigured
  extract_lets u v
  have lanes : (forEach v.jobLanes (fun l s => s.trainLane l) v).mem = v.mem :=
    Moves.same (ps := [.objs, .hlk]) (.forEach .refl fun _ _ k => .after State.trainLane_moves k) .mem
  rw [ChansKept.of_mem lanes c]
  refine forEach_reaches (P := fun t => (t.chan c).st = .untrained ∨ (t.chan c).st = .training) (Q := fun t => (t.chan c).st = .training)
    (l := u.enabled) (a := c) hc (fun b hb t k => ?_) (fun b hb t k => ?_) (fun t k => ?_) (.inl h)
  · rw [t.trainForConfigured_chan (mem_enabled hb)]
    split
    · exact .inr rfl
    · exact k
  · rw [t.trainForConfigured_chan (mem_enabled hb)]
    split
    · rfl
    · exact k
  · rw [t.trainForConfigured_chan (mem_enabled hc)]
    split
    · rfl
    · next other => exact k.resolve_left fun e => other ⟨rfl, e⟩

end Sys2Proof.Machine
end

section
/-! State requests that are carried out (R24 to R31). -/

set_option Elab.async false

namespace Sys2Proof.Machine

variable {s t u : State}

theorem State.measAbandon_pwr (s : State) (cause : Nat) (w : WokenLane) : (s.measAbandon cause w).pwr = s.pwr :=
  State.measAbandon_moves.same .pwr

theorem State.measAbandon_fsq (s : State) (cause : Nat) (w : WokenLane) : (s.measAbandon cause w).fsq = s.fsq :=
  State.measAbandon_moves.same .fsq

theorem State.endRequest_fsq (s : State) (r : Nat) : (s.endRequest r).fsq = s.fsq := State.endRequest_moves.same .fsq

theorem State.endRequest_bar (s : State) (r b : Nat) : (s.endRequest r).bar b = s.bar b := State.bar_congr (s.endRequest_fsq r) b

theorem State.startConfigured_pwr (s : State) : s.startConfigured.pwr = (s.beginRequest 4 1 (some .training)).pwr := by
  unfold State.startConfigured
  extract_lets u v
  have memory : v.pwr = u.pwr := Moves.same (ps := [.fresh, .mem]) (.forEach .refl fun _ _ k => .after State.trainForConfigured_moves k) .pwr
  have lanes : (forEach v.jobLanes (fun l s => s.trainLane l) v).pwr = v.pwr :=
    Moves.same (ps := [.objs, .hlk]) (.forEach .refl fun _ _ k => .after State.trainLane_moves k) .pwr
  exact lanes.trans memory

/-! Bars asked to stop. -/

theorem State.stopForConfigured_held (hd : s.pwr.dev = .held) :
    s.stopForConfigured = (s.beginRequest 4 4 (some .stopConfigured)).enterConfigured.endRequest 0 := if_pos hd

theorem State.stopForConfigured_started (hd : s.pwr.dev ≠ .held) :
    s.stopForConfigured = (forRange 8 (fun b s => s.stopBegin b) (s.beginRequest 4 4 (some .stopConfigured))).stopsDone := if_neg hd

theorem State.stopAll_pwr (s : State) : (forRange 8 (fun b s => s.stopBegin b) s).pwr = s.pwr :=
  Moves.same (ps := [.fsq]) (.forRange .refl fun _ _ k => .after State.stopBegin_moves k) .pwr

theorem State.stopAll_bars (s : State) {b : Nat} (hb : b < 8) :
    ((forRange 8 (fun b s => s.stopBegin b) s).bar b).run = (s.bar b).toStop.run ∧
      ((forRange 8 (fun b s => s.stopBegin b) s).bar b).stopping = s.barMoves b := stopLoop_bars (fun _ _ => .refl) s hb

/-- No bar has to run to a line event: the device enters CONFIGURED at once (R28, R34). -/
theorem State.stopForConfigured_idle (hd : s.pwr.dev ≠ .held) (hb : ∀ b, b < 8 → s.barMoves b = false) :
    ∃ u : State, s.stopForConfigured = u.enterConfigured.endRequest 0 := by
  rw [State.stopForConfigured_started hd]
  refine ⟨_, State.stopsDone_configured (congrArg Pwr.trans (State.stopAll_pwr _)) fun b h => ?_⟩
  exact (State.stopAll_bars _ h).2.trans (hb b h)

/-- While a bar moves, the request waits for it; a bar that waits for its mark is held (R28, R34). -/
theorem State.stopForConfigured_moving (hd : s.pwr.dev ≠ .held) {b : Nat} (hb : b < 8) (hm : s.barMoves b = true) :
    s.stopForConfigured.pwr.dev = s.pwr.dev ∧ s.stopForConfigured.pwr.trans = some .stopConfigured ∧
      ∀ b, b < 8 → (s.stopForConfigured.bar b).run = (s.bar b).toStop.run ∧
        (s.stopForConfigured.bar b).stopping = s.barMoves b := by
  rw [State.stopForConfigured_started hd]
  have pwr := State.stopAll_pwr (s.beginRequest 4 4 (some .stopConfigured))
  have bars := fun b (h : b < 8) => State.stopAll_bars (s.beginRequest 4 4 (some .stopConfigured)) h
  generalize forRange 8 (fun b s => s.stopBegin b) (s.beginRequest 4 4 (some .stopConfigured)) = v at pwr bars ⊢
  obtain ⟨n, e⟩ := State.stopsDone_waits (s := v) (.inr (congrArg Pwr.trans pwr)) hb ((bars b hb).2.trans hm)
  have dev : v.pwr.dev = s.pwr.dev := (congrArg Pwr.dev pwr).trans rfl
  have trans : v.pwr.trans = some .stopConfigured := (congrArg Pwr.trans pwr).trans rfl
  rw [e]
  exact ⟨dev, trans, bars⟩

/-- One bar asked to stop as HELD is entered: a bar that then neither stops nor fires is idle (R28, R276). -/
def State.stopOrIdle (s : State) (b : Nat) : State :=
  if ((s.stopBegin b).bar b).stopping ∨ ((s.stopBegin b).bar b).firing.isSome then s.stopBegin b else (s.stopBegin b).barIdle b

theorem State.startHeld_eq (s : State) :
    s.startHeld = (forRange 8 (fun b s => s.stopOrIdle b) ((s.beginRequest 7 4 (some .stopHeld)).enter .held)).stopsDone := rfl

theorem State.stopOrIdle_bars (s : State) (b : Nat) : BarsKept (s.stopBegin b) (s.stopOrIdle b) := by
  unfold State.stopOrIdle
  exact .ite .refl (State.barIdle_bars _ _)

theorem State.stopOrIdle_pwr (s : State) (b : Nat) : (s.stopOrIdle b).pwr = s.pwr := by
  unfold State.stopOrIdle
  split
  · exact State.stopBegin_moves.same .pwr
  · exact (State.barIdle_moves.same .pwr).trans (State.stopBegin_moves.same .pwr)

/-- HELD is entered at once; the request waits for the bars that move, and a bar that waits for its mark is held (R25, R28, R34). -/
theorem State.startHeld_bars (s : State) : s.startHeld.pwr.dev = .held ∧
    s.startHeld.pwr.trans = (if (List.range 8).any s.barMoves then some .stopHeld else none) ∧
      ∀ b, b < 8 → (s.startHeld.bar b).run = (s.bar b).toStop.run ∧ (s.startHeld.bar b).stopping = s.barMoves b := by
  rw [s.startHeld_eq]
  generalize hu : (s.beginRequest 7 4 (some .stopHeld)).enter .held = u
  have dev : u.pwr.dev = .held ∧ u.pwr.trans = some .stopHeld := by
    rw [← hu]
    exact ⟨rfl, rfl⟩
  have fsq : u.fsq = s.fsq := by
    rw [← hu]
    exact Moves.same (ps := [.objs, .pwr]) (.after State.enter_moves State.beginRequest_moves.mono) .fsq
  have pwr : (forRange 8 (fun b s => s.stopOrIdle b) u).pwr = u.pwr :=
    forRange_keeps (P := fun t => t.pwr = u.pwr) (fun b _ t k => (t.stopOrIdle_pwr b).trans k) rfl
  have bars : ∀ b, b < 8 → ((forRange 8 (fun b s => s.stopOrIdle b) u).bar b).run = (s.bar b).toStop.run ∧
      ((forRange 8 (fun b s => s.stopOrIdle b) u).bar b).stopping = s.barMoves b := fun b h => by
    have stopped := stopLoop_bars (fun b t => t.stopOrIdle_bars b) u h
    unfold State.barMoves at stopped ⊢
    rwa [State.bar_congr fsq] at stopped
  generalize forRange 8 (fun b s => s.stopOrIdle b) u = v at pwr bars ⊢
  rw [← pwr] at dev
  by_cases h : (List.range 8).any s.barMoves = true
  · obtain ⟨b, hb, hm⟩ := List.any_eq_true.1 h
    obtain ⟨n, e⟩ := State.stopsDone_waits (.inl dev.2) (List.mem_range.1 hb) ((bars b (List.mem_range.1 hb)).2.trans hm)
    rw [e, if_pos h]
    exact ⟨dev.1, dev.2, bars⟩
  · have still : ∀ b, b < 8 → (v.bar b).stopping = false := fun b hb =>
      (bars b hb).2.trans (Bool.eq_false_iff.2 fun k => h (List.any_eq_true.2 ⟨b, List.mem_range.2 hb, k⟩))
    rw [State.stopsDone_held dev.2 still, if_neg h]
    obtain ⟨ended, trans, -⟩ := v.endRequest_pwr 0
    exact ⟨ended.trans dev.1, trans, bars⟩

/-- FROZEN is entered with no bar firing (R31). -/
theorem State.enterFrozen_bars (s : State) : s.enterFrozen.pwr.dev = .frozen ∧ ∀ b, b < 8 → (s.enterFrozen.bar b).firing = none := by
  unfold State.enterFrozen
  extract_lets u v
  have dev : v.pwr.dev = .frozen := by
    have released : v.pwr = (u.enter .frozen).pwr := forRange_keeps (P := fun t => t.pwr = (u.enter .frozen).pwr) (fun l _ t k => by
      split
      · exact (State.sendRelease_moves.same .pwr).trans k
      · exact k) rfl
    rw [released]
    exact State.enter_dev _ _
  refine ⟨?_, fun b hb => ?_⟩
  · rw [show v.stopFiring.pwr = v.pwr from State.stopFiring_moves.same .pwr, dev]
  · exact forRange_reaches (Q := fun t => (t.bar b).firing = none) hb (fun k t => (t.cutBar_bars k).1.quiet b)
      fun t => (t.cutBar_bars b).2 hb

theorem State.enterStandby_dev (s : State) : s.enterStandby.pwr.dev = .standby := State.enter_dev _ _

theorem State.enterArmed_dev (s : State) : s.enterArmed.pwr.dev = .armed := by
  obtain ⟨u, e⟩ : ∃ u, s.enterArmed = (forRange 8 (fun b s => s.armBar b) u).toArmed := ⟨_, rfl⟩
  rw [e, State.toArmed_pwr, State.enter_dev]

/-! What each request does where it is carried out. -/

theorem State.barMoves_congr (h : t.fsq = s.fsq) (b : Nat) : t.barMoves b = s.barMoves b := by
  unfold State.barMoves
  rw [State.bar_congr h]

/-- A session that is heard leaves the device as ready as it was (R26). -/
theorem ConfiguredReady.heard (r : ConfiguredReady s) {sid : Nat} : ConfiguredReady (s.heard sid) :=
  ⟨r.domains, r.memA, r.memB, r.pair, r.channels⟩

/-- A session that is heard leaves the device as ready as it was (R27). -/
theorem ArmedReady.heard (r : ArmedReady s) {sid : Nat} : ArmedReady (s.heard sid) := ⟨r.duty, r.maps, r.lanes, r.fireEn⟩

/-- STANDBY from CONFIGURED or FROZEN (R25). -/
theorem State.stateRequest_standby (h : s.pwrBusy = false) (hd : s.pwr.dev = .configured ∨ s.pwr.dev = .frozen) :
    ∃ u, s.stateRequest 3 = .ok u ∧ u.pwr.dev = .standby ∧ u.pwr.trans = none ∧ ∀ b, b < 8 → (u.bar b).run = .notInJob := by
  generalize hv : (s.measAbandon 1 .idle).beginRequest 3 0 none = v
  obtain ⟨dev, trans, -⟩ := v.enterStandby.endRequest_pwr 0
  refine ⟨v.enterStandby.endRequest 0, ?_, dev.trans v.enterStandby_dev, trans, fun b hb => ?_⟩
  · unfold State.stateRequest
    rw [if_neg (by simp [h]), ← hv]
    rcases hd with e | e <;> rw [e] <;> rfl
  · exact (congrArg BarFsq.run (State.endRequest_bar _ _ _)).trans (v.enterStandby_bars hb)

/-- CONFIGURED from STANDBY starts its training (R26, R34). -/
theorem State.stateRequest_training (h : s.pwrBusy = false) (hd : s.pwr.dev = .standby) (ready : ConfiguredReady s) :
    ∃ u, s.stateRequest 4 = .ok u ∧ u.pwr.dev = .standby ∧ u.pwr.trans = some .training ∧
      u.pwr.progress = { target := 4, step := 1, unit := 0, result := 0, busy := true } ∧
      ∀ c ∈ s.enabled, (s.chan c).st = .untrained → (u.chan c).st = .training := by
  have dev : (s.measAbandon 1 .idle).pwr.dev = .standby := (congrArg Pwr.dev (s.measAbandon_pwr _ _)).trans hd
  have same : (s.measAbandon 1 .idle).mem = s.mem := State.measAbandon_moves.same .mem
  have enabled := s.measAbandon_enabled 1 .idle
  generalize hv : s.measAbandon 1 .idle = v at dev same enabled
  have pwr := v.startConfigured_pwr
  refine ⟨v.startConfigured, ?_, ?_, ?_, ?_, fun c hc hu => ?_⟩
  · unfold State.stateRequest
    rw [if_neg (by simp [h]), hd, ready.lacks, ← hv]
    rfl
  · rw [pwr]
    exact dev
  · rw [pwr]
    rfl
  · rw [pwr]
    rfl
  · exact State.startConfigured_chan (enabled ▸ hc) ((ChansKept.of_mem same c).trans hu)

/-- CONFIGURED requested from ARMED, PRINTING or HELD stops the bars (R25, R28). -/
theorem State.stateRequest_stop (h : s.pwrBusy = false) (hd : s.pwr.dev = .armed ∨ s.pwr.dev = .printing ∨ s.pwr.dev = .held) :
    s.stateRequest 4 = .ok (s.measAbandon 1 .idle).stopForConfigured := by
  unfold State.stateRequest
  rw [if_neg (by simp [h])]
  rcases hd with e | e | e <;> rw [e] <;> rfl

/-- A request that ends in CONFIGURED leaves no bar in the job (R25, R132). -/
theorem State.endConfigured (u : State) : (u.enterConfigured.endRequest 0).pwr.dev = .configured ∧
    (u.enterConfigured.endRequest 0).pwr.trans = none ∧ ∀ b, b < 8 → ((u.enterConfigured.endRequest 0).bar b).run = .notInJob := by
  obtain ⟨dev, trans, -⟩ := u.enterConfigured.endRequest_pwr 0
  exact ⟨dev.trans u.enterConfigured_dev, trans, fun b hb =>
    (congrArg BarFsq.run (State.endRequest_bar _ _ _)).trans (u.enterConfigured_bars hb)⟩

/-- CONFIGURED from HELD, or with no bar that has to run to a line event, is entered at once (R28). -/
theorem State.stateRequest_configured (h : s.pwrBusy = false)
    (hd : s.pwr.dev = .held ∨ (s.pwr.dev = .armed ∨ s.pwr.dev = .printing) ∧ ∀ b, b < 8 → s.barMoves b = false) :
    ∃ u, s.stateRequest 4 = .ok u ∧ u.pwr.dev = .configured ∧ u.pwr.trans = none ∧ ∀ b, b < 8 → (u.bar b).run = .notInJob := by
  have dev := congrArg Pwr.dev (s.measAbandon_pwr 1 .idle)
  have moves : ∀ b, (s.measAbandon 1 .idle).barMoves b = s.barMoves b := fun b => State.barMoves_congr (s.measAbandon_fsq 1 .idle) b
  rcases hd with hd | ⟨hd, still⟩
  · rw [State.stateRequest_stop h (.inr (.inr hd)), State.stopForConfigured_held (dev.trans hd)]
    exact ⟨_, rfl, State.endConfigured _⟩
  · obtain ⟨u, e⟩ := State.stopForConfigured_idle (s := s.measAbandon 1 .idle) (by rw [dev]; rcases hd with e | e <;> rw [e] <;> decide)
      fun b hb => (moves b).trans (still b hb)
    rw [State.stateRequest_stop h (by tauto), e]
    exact ⟨_, rfl, u.endConfigured⟩

/-- CONFIGURED requested while a bar moves waits for that bar (R28, R34). -/
theorem State.stateRequest_stopping (h : s.pwrBusy = false) (hd : s.pwr.dev = .armed ∨ s.pwr.dev = .printing) {b : Nat} (hb : b < 8)
    (hm : s.barMoves b = true) : ∃ u, s.stateRequest 4 = .ok u ∧ u.pwr.dev = s.pwr.dev ∧ u.pwr.trans = some .stopConfigured ∧
      (∀ b, b < 8 → (u.bar b).stopping = s.barMoves b) ∧ ∀ b, b < 8 → (s.bar b).run = .waiting → (u.bar b).run = .held := by
  have dev := congrArg Pwr.dev (s.measAbandon_pwr 1 .idle)
  have fsq := s.measAbandon_fsq 1 .idle
  have e := State.stateRequest_stop h (by tauto : s.pwr.dev = .armed ∨ s.pwr.dev = .printing ∨ s.pwr.dev = .held)
  generalize s.measAbandon 1 .idle = v at dev fsq e
  obtain ⟨kept, trans, bars⟩ := State.stopForConfigured_moving (s := v) (by rw [dev]; rcases hd with e | e <;> rw [e] <;> decide) hb
    ((State.barMoves_congr fsq b).trans hm)
  refine ⟨_, e, kept.trans dev, trans, fun b hb => (bars b hb).2.trans (State.barMoves_congr fsq b), fun b hb hr => (bars b hb).1.trans ?_⟩
  rw [State.bar_congr fsq]
  exact BarFsq.toStop_held hr

/-- ARMED from CONFIGURED (R27, R130). -/
theorem State.stateRequest_armed (h : s.pwrBusy = false) (hd : s.pwr.dev = .configured) (ready : ArmedReady s) :
    ∃ u, s.stateRequest 5 = .ok u ∧ u.pwr.dev = .armed ∧ u.pwr.trans = none ∧
      ∀ b, b < 8 → bit u.fsq.jobMask b = true → (u.bar b).run = .waiting := by
  generalize hv : (s.measAbandon 1 .idle).beginRequest 5 0 none = v
  obtain ⟨dev, trans, -⟩ := v.enterArmed.endRequest_pwr 0
  refine ⟨v.enterArmed.endRequest 0, ?_, dev.trans v.enterArmed_dev, trans, fun b hb hm => ?_⟩
  · unfold State.stateRequest
    rw [if_neg (by simp [h]), hd, ready.lacks, ← hv]
    rfl
  · rw [State.endRequest_fsq] at hm
    exact (congrArg BarFsq.run (State.endRequest_bar _ _ _)).trans (v.enterArmed_bars hb hm)

/-- PRINTING requested from HELD starts the lanes' training burst (R29, R34). -/
theorem State.stateRequest_printing (h : s.pwrBusy = false) (hd : s.pwr.dev = .held) :
    ∃ u, s.stateRequest 6 = .ok u ∧ u.pwr.dev = .held ∧ u.pwr.trans = some .resume ∧
      u.pwr.progress = { target := 6, step := 5, unit := 0, result := 0, busy := true } := by
  have pwr : (s.measAbandon 1 .own).lanesResume.pwr = s.pwr := (State.lanesResume_moves.same .pwr).trans (s.measAbandon_pwr _ _)
  generalize hv : (s.measAbandon 1 .own).lanesResume = v at pwr
  refine ⟨v.beginRequest 6 5 (some .resume), ?_, (congrArg Pwr.dev pwr).trans hd, rfl, rfl⟩
  unfold State.stateRequest
  rw [if_neg (by simp [h]), hd, ← hv]
  rfl

/-- HELD from ARMED or PRINTING is entered at once and waits for the bars that move (R25, R28). -/
theorem State.stateRequest_held (h : s.pwrBusy = false) (hd : s.pwr.dev = .armed ∨ s.pwr.dev = .printing) :
    ∃ u, s.stateRequest 7 = .ok u ∧ u.pwr.dev = .held ∧
      u.pwr.trans = (if (List.range 8).any s.barMoves then some .stopHeld else none) ∧
      (∀ b, b < 8 → (u.bar b).stopping = s.barMoves b) ∧ ∀ b, b < 8 → (s.bar b).run = .waiting → (u.bar b).run = .held := by
  have fsq := s.measAbandon_fsq 1 .idle
  have e : s.stateRequest 7 = .ok (s.measAbandon 1 .idle).startHeld := by
    unfold State.stateRequest
    rw [if_neg (by simp [h])]
    rcases hd with e | e <;> rw [e] <;> rfl
  generalize s.measAbandon 1 .idle = v at fsq e
  obtain ⟨dev, trans, bars⟩ := v.startHeld_bars
  have moves : v.barMoves = s.barMoves := funext (State.barMoves_congr fsq)
  rw [moves] at trans bars
  refine ⟨_, e, dev, trans, fun b hb => (bars b hb).2, fun b hb hr => (bars b hb).1.trans ?_⟩
  rw [State.bar_congr fsq]
  exact BarFsq.toStop_held hr

/-- FROZEN from CONFIGURED, ARMED, PRINTING or HELD (R25, R31). -/
theorem State.stateRequest_frozen (h : s.pwrBusy = false)
    (hd : s.pwr.dev = .configured ∨ s.pwr.dev = .armed ∨ s.pwr.dev = .printing ∨ s.pwr.dev = .held) :
    ∃ u, s.stateRequest 8 = .ok u ∧ u.pwr.dev = .frozen ∧ u.pwr.trans = none ∧ ∀ b, b < 8 → (u.bar b).firing = none := by
  generalize hv : (s.measAbandon 1 .idle).beginRequest 8 0 none = v
  obtain ⟨dev, quiet⟩ := v.enterFrozen_bars
  obtain ⟨kept, trans, -⟩ := v.enterFrozen.endRequest_pwr 0
  refine ⟨v.enterFrozen.endRequest 0, ?_, kept.trans dev, trans, fun b hb => ?_⟩
  · unfold State.stateRequest
    rw [if_neg (by simp [h]), ← hv]
    rcases hd with e | e | e | e <;> rw [e] <;> rfl
  · exact (congrArg BarFsq.firing (State.endRequest_bar _ _ _)).trans (quiet b hb)

/-- A state request that the sequencer carries out: the response with Status 0, and the request's state but for the session's. -/
theorem stateRequest_done {h : Hdr} {x : Session} {v : Nat} {c : Instr} (hc : stateRequestOf v h = some c)
    (w : WriteTaken s h 0x1100 2 (u8 v) x) (e : (s.heard x.sid).stateRequest v = .ok u) :
    ∃ t, exec c s = .next t ∧ Answered t 0x13 0 h.seq.toNat ∧ t.pwr = u.pwr ∧ t.fsq = u.fsq ∧ t.mem = u.mem ∧ Only jobParts s t := by
  obtain ⟨run, hv⟩ := exec_stateRequestOf (s := s) hc
  obtain ⟨t, wrote, answered, rest, frame⟩ := w.row (ps := jobParts) (by decide) (by decide)
    (fun d hd => (hook_stateRequest _ _ hd (by omega)).trans (congrArg some e)) (MovesE.of_eq e State.stateRequest_moves)
  exact ⟨t, run.trans wrote, answered, rest .pwr (by decide), rest .fsq (by decide), rest .mem (by decide), frame⟩

/-- Settles O11: each request is a Write whose effect is the request's own (`State.stateRequest_…`); the response changes nothing of
the device state, the bars or the channels. -/
theorem stateRequestsAreCarriedOut : Obligations.StateRequestsAreCarriedOut := by
  unfold Obligations.StateRequestsAreCarriedOut
  refine ⟨fun s h x w idle hd => ?_, fun s h x w idle hd ready => ?_, fun s h x w idle hd => ?_, fun s h x w idle hd still => ?_,
    fun s h x b w idle hd hb hm => ?_, fun s h x w idle hd ready => ?_, fun s h x w idle hd => ?_, fun s h x w idle hd => ?_,
    fun s h x w idle hd => ?_⟩
  · obtain ⟨u, e, dev, trans, bars⟩ := State.stateRequest_standby (s := s.heard x.sid) idle hd
    obtain ⟨t, run, answered, pwr, fsq, -, frame⟩ := stateRequest_done rfl w e
    exact ⟨t, run, answered, by rw [pwr, dev], by rw [pwr, trans], fun b hb => by rw [State.bar_congr fsq, bars b hb], frame⟩
  · obtain ⟨u, e, dev, trans, progress, chans⟩ := State.stateRequest_training (s := s.heard x.sid) idle hd ready.heard
    obtain ⟨t, run, answered, pwr, -, mem, frame⟩ := stateRequest_done rfl w e
    exact ⟨t, run, answered, by rw [pwr, dev], by rw [pwr, trans], by rw [pwr, progress],
      fun c hc hu => (ChansKept.of_mem mem c).trans (chans c hc hu), frame⟩
  · obtain ⟨u, e, dev, trans, bars⟩ := State.stateRequest_configured (s := s.heard x.sid) idle (.inl hd)
    obtain ⟨t, run, answered, pwr, fsq, -, frame⟩ := stateRequest_done rfl w e
    exact ⟨t, run, answered, by rw [pwr, dev], by rw [pwr, trans], fun b hb => by rw [State.bar_congr fsq, bars b hb], frame⟩
  · obtain ⟨u, e, dev, trans, bars⟩ := State.stateRequest_configured (s := s.heard x.sid) idle (.inr ⟨hd, still⟩)
    obtain ⟨t, run, answered, pwr, fsq, -, frame⟩ := stateRequest_done rfl w e
    exact ⟨t, run, answered, by rw [pwr, dev], by rw [pwr, trans], fun b hb => by rw [State.bar_congr fsq, bars b hb], frame⟩
  · obtain ⟨u, e, dev, trans, stopping, held⟩ := State.stateRequest_stopping (s := s.heard x.sid) idle hd hb hm
    obtain ⟨t, run, answered, pwr, fsq, -, frame⟩ := stateRequest_done rfl w e
    exact ⟨t, run, answered, (congrArg Pwr.dev pwr).trans dev, by rw [pwr, trans],
      fun b hb => (congrArg BarFsq.stopping (State.bar_congr fsq b)).trans (stopping b hb),
      fun b hb hr => (congrArg BarFsq.run (State.bar_congr fsq b)).trans (held b hb hr), frame⟩
  · obtain ⟨u, e, dev, trans, bars⟩ := State.stateRequest_armed (s := s.heard x.sid) idle hd ready.heard
    obtain ⟨t, run, answered, pwr, fsq, -, frame⟩ := stateRequest_done rfl w e
    exact ⟨t, run, answered, by rw [pwr, dev], by rw [pwr, trans],
      fun b hb hm => by rw [State.bar_congr fsq, bars b hb (fsq ▸ hm)], frame⟩
  · obtain ⟨u, e, dev, trans, progress⟩ := State.stateRequest_printing (s := s.heard x.sid) idle hd
    obtain ⟨t, run, answered, pwr, -, -, frame⟩ := stateRequest_done rfl w e
    exact ⟨t, run, answered, by rw [pwr, dev], by rw [pwr, trans], by rw [pwr, progress], frame⟩
  · obtain ⟨u, e, dev, trans, stopping, held⟩ := State.stateRequest_held (s := s.heard x.sid) idle hd
    obtain ⟨t, run, answered, pwr, fsq, -, frame⟩ := stateRequest_done rfl w e
    exact ⟨t, run, answered, by rw [pwr, dev], (congrArg Pwr.trans pwr).trans trans,
      fun b hb => (congrArg BarFsq.stopping (State.bar_congr fsq b)).trans (stopping b hb),
      fun b hb hr => (congrArg BarFsq.run (State.bar_congr fsq b)).trans (held b hb hr), frame⟩
  · obtain ⟨u, e, dev, trans, quiet⟩ := State.stateRequest_frozen (s := s.heard x.sid) idle hd
    obtain ⟨t, run, answered, pwr, fsq, -, frame⟩ := stateRequest_done rfl w e
    exact ⟨t, run, answered, by rw [pwr, dev], by rw [pwr, trans], fun b hb => by rw [State.bar_congr fsq, quiet b hb], frame⟩

end Sys2Proof.Machine
end

section
/-! Pins, compare units, inputs and FIRE_EN (R51, R53, R180, R191, R243, R249, R251). -/

set_option Elab.async false

namespace Sys2Proof.Machine

variable {s t : State}

/-! Pins. -/

theorem PinLevel.driven_high (b : Bool) : PinLevel.driven b = .high ↔ b = true := by
  cases b <;> decide

/-- FIRE_OK is high where the device drives it high: in ARMED and PRINTING the balls are powered (R53). -/
theorem State.pin_fireOk_high (s : State) (n : Nat) : s.pin n .fireOk = .high ↔ s.fireOk = true := by
  have driven : s.fireOk = true → (s.pinsDown || s.pwr.dev == .deep) = false := by
    unfold State.fireOk State.pinsDown State.inStates
    cases s.pwr.dev <;> simp
  change s.fireOkPin = .high ↔ s.fireOk = true
  unfold State.fireOkPin
  split
  · next down => exact ⟨fun e => (nomatch e), fun ok => absurd down (by rw [driven ok]; decide)⟩
  · exact PinLevel.driven_high _

theorem State.halted_iff (s : State) : s.halted = true ↔ s.pwr.dev = .frozen ∨ s.pwr.trip = true ∨ s.pwr.chipPending = some 3 := by
  unfold State.halted
  rw [Bool.or_eq_true, Bool.or_eq_true, beq_iff_eq, beq_iff_eq, or_assoc]

theorem State.fireOk_iff (s : State) : s.fireOk = true ↔ (s.pwr.dev = .armed ∨ s.pwr.dev = .printing) ∧
    (s.mir.role = .solo ∨ s.keyHeld = true) ∧ s.pwr.trip = false ∧ s.pwr.chipPending ≠ some 3 := by
  have running : s.inStates [.armed, .printing] = true ↔ s.pwr.dev = .armed ∨ s.pwr.dev = .printing := by
    simp [State.inStates]
  have free : (!s.halted) = true ↔ s.pwr.dev ≠ .frozen ∧ s.pwr.trip = false ∧ s.pwr.chipPending ≠ some 3 := by
    rw [Bool.not_eq_true', ← Bool.not_eq_true, s.halted_iff, not_or, not_or, Bool.not_eq_true]
  unfold State.fireOk
  rw [Bool.and_eq_true, Bool.and_eq_true, Bool.or_eq_true, beq_iff_eq, running, free, and_assoc]
  refine and_congr_right fun hd => and_congr_right fun _ => and_iff_right ?_
  rcases hd with e | e <;> rw [e] <;> decide

/-- The balls are released in OFF, RESET and BOOT, but for ERR_N (R51). -/
theorem State.pin_released (hd : s.pwr.dev = .off ∨ s.pwr.dev = .reset ∨ s.pwr.dev = .boot) (n : Nat) {p : OutPin} (hp : p ≠ .errN) :
    s.pin n p = .released := by
  have down : s.pinsDown = true := by
    unfold State.pinsDown State.inStates
    rcases hd with e | e | e <;> rw [e] <;> rfl
  cases p with
  | errN => exact absurd rfl hp
  | fireOk => exact if_pos (by simp [down])
  | rpXon => exact if_pos (by simp [down])
  | spdAdv => exact if_pos (by simp [down])
  | camTrig n => exact if_pos (by simp [down])
  | hostIrqN => exact congrArg (fun b => PinLevel.openDrain (!b && s.irqLow)) down
  | out n => exact congrArg (fun b => PinLevel.openDrain (!b && bit s.outputDriven n)) down

theorem State.pin_frozen (hd : s.pwr.dev = .frozen) (n : Nat) : s.pin n .fireOk = .low ∧ s.pin n .rpXon = .low := by
  have up : s.pinsDown = false := by
    unfold State.pinsDown State.inStates
    rw [hd]
    rfl
  constructor
  · refine (if_neg (by simp [up, hd])).trans (congrArg PinLevel.driven (a₂ := false) ?_)
    unfold State.fireOk State.inStates
    rw [hd]
    rfl
  · refine (if_neg (by simp [up, hd])).trans (congrArg PinLevel.driven (a₂ := false) ?_)
    rw [hd]
    rfl

/-! Compare units. -/

theorem State.unit_modUnit_self (s : State) {u : Nat} (hu : u < 16) (f : Cmp → Cmp) : (s.modUnit u f).unit u = f (s.unit u) :=
  vget_vmod_self _ _ _ hu

theorem State.unit_modUnit_ne (s : State) {u w : Nat} (h : w ≠ u) (f : Cmp → Cmp) : (s.modUnit u f).unit w = s.unit w :=
  vget_vmod_ne _ _ _ h

/-- What an action makes of its unit, by the unit's action mode (R191). -/
def Cmp.acted (x : Cmp) (mode : Nat) : Cmp :=
  match mode with
  | 0 => { x with pulse := true, level := true }
  | 1 => { x with level := true }
  | 2 => { x with level := false }
  | _ => { x with level := !x.level }

theorem Cmp.acted_due (x : Cmp) (mode : Nat) : (x.acted mode).due = x.due := by
  unfold Cmp.acted
  split <;> rfl

/-- A compare action that falls due acts on its unit's target and is no longer due (R188, R191). -/
theorem exec_compareAction {u : CmpUnit} {k : Nat} {rest : List Nat} (h : (s.unit u.val).due = k :: rest) :
    ∃ t, exec (.compareAction u) s = .next t ∧
      t.unit u.val = ({ s.unit u.val with due := rest } : Cmp).acted (s.num 0x2645 (u.val + 1)) ∧
      ∀ w, w ≠ u.val → t.unit w = s.unit w := by
  refine ⟨(s.modUnit u.val fun x => { x with due := rest }).unitAction u.val, ?_, ?_, fun w hw => ?_⟩
  · have run : exec (.compareAction u) s = execCompareAction u s := rfl
    rw [run, execCompareAction, h]
  · unfold State.unitAction
    rw [State.unit_modUnit_self _ u.isLt, State.unit_modUnit_self _ u.isLt]
    rfl
  · unfold State.unitAction
    rw [State.unit_modUnit_ne _ hw, State.unit_modUnit_ne _ hw]

/-- The pulse output returns to inactive (R191). -/
theorem exec_comparePulseEnd {u : CmpUnit} (h : (s.unit u.val).pulse = true) :
    ∃ t, exec (.comparePulseEnd u) s = .next t ∧ t.unit u.val = { s.unit u.val with pulse := false, level := false } ∧
      ∀ w, w ≠ u.val → t.unit w = s.unit w :=
  ⟨s.modUnit u.val fun x => { x with pulse := false, level := false }, congrArg Host.Outcome.next (if_pos h),
    s.unit_modUnit_self u.isLt _, fun _ hw => s.unit_modUnit_ne hw _⟩

/-! FIRE_EN. -/

/-- FIRE_EN at a new level, with the tick of its edge (R243). -/
def State.fireGate (s : State) (level : Bool) : State := { s with fireEn := level, fsq := { s.fsq with fireEdge := some s.tick } }

/-- An edge of FIRE_EN reported: whether a fall is recorded (R243). -/
def State.fireReport (s : State) (src : Nat) (d : Bytes) (recorded : Bool) : State :=
  { s.raise src 0 d with fsq := { s.fsq with fallRecorded := recorded } }

theorem exec_fireEnFall_eq (h : s.fireEn = true) : ∃ d, exec .fireEnFall s =
    .next (if (s.fireGate false).on domCTL ∧ (s.fireGate false).anyPrinting then (s.fireGate false).fireReport 0x2930 d true
      else s.fireGate false) := ⟨_, if_neg (by rw [h]; decide)⟩

theorem exec_fireEnRise_eq (h : s.fireEn = false) : ∃ d, exec .fireEnRise s =
    .next (if (s.fireGate true).on domCTL ∧ (s.fireGate true).fsq.fallRecorded then (s.fireGate true).fireReport 0x2931 d false
      else s.fireGate true) := ⟨_, if_neg (by rw [h]; decide)⟩

/-- An edge of FIRE_EN: the gate is at its level, the edge's tick is recorded and no bar changes; where a condition holds, the fall is
recorded or taken back and the edge is reported (R243). -/
theorem State.fireEdge_done (s : State) (level recorded : Bool) (src : Nat) (d : Bytes) (c : Prop) [Decidable c] {t : State}
    (ht : t = if c then (s.fireGate level).fireReport src d recorded else s.fireGate level) :
    t.fireEn = level ∧ t.fsq.fireEdge = some s.tick ∧ t.fsq.bars = s.fsq.bars ∧
      (c → t.fsq.fallRecorded = recorded ∧ (s.takesReports → Raised src 0 t)) := by
  subst ht
  split
  · have gate : ((s.fireGate level).raise src 0 d).fireEn = level := State.raise_moves.same .fireEn
    have raised : s.takesReports → Raised src 0 ((s.fireGate level).raise src 0 d) :=
      fun k => State.raise_raised _ _ _ (State.takesReports_congr rfl rfl k)
    exact ⟨gate, rfl, rfl, fun _ => ⟨rfl, fun k => (raised k).congr rfl⟩⟩
  · next c' => exact ⟨rfl, rfl, rfl, fun h => absurd h c'⟩

theorem exec_fireEnFall (h : s.fireEn = true) :
    ∃ t, exec .fireEnFall s = .next t ∧ t.fireEn = false ∧ t.fsq.fireEdge = some s.tick ∧ t.fsq.bars = s.fsq.bars ∧
      (s.on domCTL = true → s.anyPrinting = true → t.fsq.fallRecorded = true ∧ (s.takesReports → Raised 0x2930 0 t)) := by
  obtain ⟨d, run⟩ := exec_fireEnFall_eq h
  obtain ⟨gate, edge, bars, reported⟩ := s.fireEdge_done false true 0x2930 d
    ((s.fireGate false).on domCTL ∧ (s.fireGate false).anyPrinting) rfl
  exact ⟨_, run, gate, edge, bars, fun on printing => reported ⟨on, printing⟩⟩

theorem exec_fireEnRise (h : s.fireEn = false) :
    ∃ t, exec .fireEnRise s = .next t ∧ t.fireEn = true ∧ t.fsq.fireEdge = some s.tick ∧ t.fsq.bars = s.fsq.bars ∧
      (s.on domCTL = true → s.fsq.fallRecorded = true → t.fsq.fallRecorded = false ∧ (s.takesReports → Raised 0x2931 0 t)) := by
  obtain ⟨d, run⟩ := exec_fireEnRise_eq h
  obtain ⟨gate, edge, bars, reported⟩ := s.fireEdge_done true false 0x2931 d
    ((s.fireGate true).on domCTL ∧ (s.fireGate true).fsq.fallRecorded) rfl
  exact ⟨_, run, gate, edge, bars, fun on recorded => reported ⟨on, recorded⟩⟩

/-! Inputs and outputs. -/

/-- A filtered edge of an input whose event is not enabled shows in the levels alone (R248, R249). -/
theorem exec_inputEdge_quiet {n : Fin 16} {v : Bool} (ho : s.on domCTL = true) (hv : bit (s.num 0x2E10 1) n.val ≠ v)
    (he : bit (s.num 0x2E10 2) (2 * n.val + (if v then 0 else 1)) = false) :
    exec (.inputEdge n v) s = .next (s.setNum 0x2E10 1 (s.num 0x2E10 1 ^^^ 2 ^ n.val)) := by
  have run : exec (.inputEdge n v) s = execInputEdge n v s := rfl
  rw [run, execInputEdge, if_neg (by simp [ho, hv])]
  dsimp only
  rw [if_pos (by rw [State.num_setNum_ne _ _ (by decide), he]; rfl)]

/-- An input edge that latches: its count, its time and the position of the channel it names (R248, R249). -/
def State.inputLatched (s : State) (n : Nat) : State :=
  let s := (s.bump 0x2E11 (n + 1)).setNum 0x2E12 (n + 1) (extend s.eNow (s.stampAt (s.tick - 400)))
  if s.num 0x2E10 3 < 12 then s.setNum 0x2E13 (n + 1) (s.pch (s.num 0x2E10 3)).count else s

theorem State.inputLatched_moves {n : Nat} : Moves [.objs] s (s.inputLatched n) := by
  unfold State.inputLatched
  extract_lets u
  have counted : Moves [.objs] s u := .after State.setNum_moves State.bump_moves
  exact .ite (.after State.setNum_moves counted) counted

theorem exec_inputEdge_latched {n : Fin 16} {v : Bool} (ho : s.on domCTL = true) (hv : bit (s.num 0x2E10 1) n.val ≠ v)
    (he : bit (s.num 0x2E10 2) (2 * n.val + (if v then 0 else 1)) = true) :
    ∃ d, exec (.inputEdge n v) s =
      .next (((s.setNum 0x2E10 1 (s.num 0x2E10 1 ^^^ 2 ^ n.val)).inputLatched n.val).raise (0x2E00 + n.val) 0 d) := by
  have run : exec (.inputEdge n v) s = execInputEdge n v s := rfl
  rw [run, execInputEdge, if_neg (by simp [ho, hv])]
  dsimp only
  rw [if_neg (by rw [State.num_setNum_ne _ _ (by decide), he]; decide)]
  exact ⟨_, rfl⟩

theorem objWidth_edgeCount (n : Fin 16) : objWidth 0x2E11 (n.val + 1) = 32 := by
  revert n
  decide

theorem State.inputLatched_nums (s : State) (n : Fin 16) :
    (s.inputLatched n.val).num 0x2E11 (n.val + 1) = (s.num 0x2E11 (n.val + 1) + 1) % 2 ^ 32 ∧
    (s.num 0x2E10 3 < 12 → (s.inputLatched n.val).num 0x2E13 (n.val + 1) = (s.pch (s.num 0x2E10 3)).count) ∧
    ObjsOnly [(0x2E11, n.val + 1), (0x2E12, n.val + 1), (0x2E13, n.val + 1)] s (s.inputLatched n.val) := by
  have hn := n.isLt
  unfold State.inputLatched
  extract_lets u
  have counted : ObjsOnly [(0x2E11, n.val + 1), (0x2E12, n.val + 1), (0x2E13, n.val + 1)] s u :=
    ((s.bump_objs_only _ _ (by omega)).mono (by simp)).trans ((State.setNum_objs_only _ _ _ _ (by omega)).mono (by simp))
  have count : u.num 0x2E11 (n.val + 1) = (s.num 0x2E11 (n.val + 1) + 1) % 2 ^ 32 := by
    rw [show u.num 0x2E11 (n.val + 1) = (s.bump 0x2E11 (n.val + 1)).num 0x2E11 (n.val + 1) from
      State.num_setNum_ne _ _ (by unfold key; omega), State.num_bump_self, objWidth_edgeCount]
  have channel : u.num 0x2E10 3 = s.num 0x2E10 3 := counted.num (by decide) (by simp)
  rw [channel]
  split
  · next small =>
    refine ⟨(State.num_setNum_ne _ _ (by unfold key; omega)).trans count, fun _ => State.num_setNum_self _ _ _ _, counted.trans ?_⟩
    exact (State.setNum_objs_only _ _ _ _ (by omega)).mono (by simp)
  · next big => exact ⟨count, fun small => absurd small big, counted⟩

/-- A filtered edge of an input shows in the levels, and where its event is enabled it latches and is reported (R248, R249). -/
theorem exec_inputEdge {n : Fin 16} {v : Bool} (ho : s.on domCTL = true) (hv : bit (s.num 0x2E10 1) n.val ≠ v) :
    ∃ t, exec (.inputEdge n v) s = .next t ∧ t.num 0x2E10 1 = s.num 0x2E10 1 ^^^ 2 ^ n.val ∧
      (bit (s.num 0x2E10 2) (2 * n.val + (if v then 0 else 1)) = false → ObjsOnly [(0x2E10, 1)] s t ∧ Only [.objs] s t) ∧
      (bit (s.num 0x2E10 2) (2 * n.val + (if v then 0 else 1)) = true →
        t.num 0x2E11 (n.val + 1) = (s.num 0x2E11 (n.val + 1) + 1) % 2 ^ 32 ∧
        (s.num 0x2E10 3 < 12 → t.num 0x2E13 (n.val + 1) = (s.pch (s.num 0x2E10 3)).count) ∧
        (s.takesReports → Raised (0x2E00 + n.val) 0 t)) := by
  have hn := n.isLt
  cases he : bit (s.num 0x2E10 2) (2 * n.val + (if v then 0 else 1)) with
  | false =>
    exact ⟨_, exec_inputEdge_quiet ho hv he, State.num_setNum_self _ _ _ _,
      fun _ => ⟨s.setNum_objs_only _ _ _, State.setNum_moves.only⟩, nofun⟩
  | true =>
    obtain ⟨d, run⟩ := exec_inputEdge_latched ho hv he
    generalize hu : s.setNum 0x2E10 1 (s.num 0x2E10 1 ^^^ 2 ^ n.val) = u at run
    have level : u.num 0x2E10 1 = s.num 0x2E10 1 ^^^ 2 ^ n.val := by
      rw [← hu, State.num_setNum_self]
    have shown : ObjsOnly [(0x2E10, 1)] s u := hu ▸ s.setNum_objs_only _ _ _
    have parts : Only [.objs] s u := hu ▸ State.setNum_moves.only
    obtain ⟨count, position, latched⟩ := u.inputLatched_nums n
    have told := (u.inputLatched n.val).raise_objs_only (0x2E00 + n.val) 0 d
    have channel : u.num 0x2E10 3 = s.num 0x2E10 3 := shown.num
    have pos : u.pch (s.num 0x2E10 3) = s.pch (s.num 0x2E10 3) := by
      unfold State.pch
      rw [parts .pos (by decide)]
    have flt : (u.inputLatched n.val).flt = s.flt := (State.inputLatched_moves.same .flt).trans (parts .flt (by decide))
    have pwr : (u.inputLatched n.val).pwr = s.pwr := (State.inputLatched_moves.same .pwr).trans (parts .pwr (by decide))
    rw [channel, pos] at position
    refine ⟨_, run, ?_, nofun, fun _ => ⟨?_, fun small => ?_, fun k => ?_⟩⟩
    · exact (told.num (by decide) (by simp)).trans ((latched.num (by decide) (by simp)).trans level)
    · rw [told.num (by omega) (by simp), count, shown.num (by omega) (by simp)]
    · rw [told.num (by omega) (by simp), position small]
    · exact State.raise_raised _ _ _ (State.takesReports_congr pwr flt k)

end Sys2Proof.Machine
end

section
/-! Outputs and speed advice (R191, R244, R245, R250, R251). -/

set_option Elab.async false

namespace Sys2Proof.Machine

variable {s t : State}

/-! Bits of a mask. -/

theorem bit_eq_testBit (v i : Nat) : bit v i = v.testBit i := by
  rw [Nat.testBit_eq_decide_div_mod_eq]
  rfl

theorem maskOf_lt (p : Nat → Bool) (n : Nat) : maskOf p n < 2 ^ n := by
  induction n with
  | zero => exact Nat.one_pos
  | succ n ih =>
    unfold maskOf
    split <;> rw [Nat.pow_succ] <;> omega

/-- A bit of a mask is set where its place is listed. -/
theorem bit_maskOf (p : Nat → Bool) {n i : Nat} (h : i < n) : bit (maskOf p n) i = p i := by
  rw [bit_eq_testBit]
  induction n with
  | zero => exact absurd h (Nat.not_lt_zero i)
  | succ n ih =>
    have lower : (maskOf p n).testBit n = false := Nat.testBit_lt_two_pow (maskOf_lt p n)
    unfold maskOf
    rcases Nat.lt_succ_iff_lt_or_eq.1 h with l | rfl
    · split
      · rw [Nat.add_comm, Nat.testBit_two_pow_add_gt l, ih l]
      · exact ih l
    · split
      · next hp => rw [Nat.add_comm, Nat.testBit_two_pow_add_eq, lower, hp]; rfl
      · next hp => rw [Nat.add_zero, lower, Bool.eq_false_iff.2 hp]

/-! Outputs. -/

/-- A host-set output that no enabled compare unit has as its target is driven at its level (R191, R250). -/
theorem State.outputDriven_bit (ho : s.on domCTL = true) (hr : s.mir.role ≠ .standby) {n : Nat} (hn : n < 16)
    (free : ∀ u, u < 16 → (s.unit u).enabled = true → s.num 0x2644 (u + 1) ≠ n + 1) :
    bit s.outputDriven n = bit (s.num 0x2E20 1) n := by
  have noUnit : ((List.range 16).find? fun u => (s.unit u).enabled && s.num 0x2644 (u + 1) == n + 1) = none :=
    List.find?_eq_none.2 fun u hu => by simpa using free u (List.mem_range.1 hu)
  unfold State.outputDriven
  rw [if_neg (by simp [ho]), bit_maskOf _ hn, noUnit]
  dsimp only
  unfold State.outLevels
  rw [if_neg hr]

/-- A Write of an object with no effect of its own and no staging makes its value live (R72, R73). -/
theorem WriteTaken.live {h : Hdr} {i j : Nat} {b : Bytes} {x : Session} {d : Desc} (w : WriteTaken s h i j b x)
    (hd : findDesc i j = some d) (ha : (isAdminArea (i / 256) && i % 256 == 0 && j == 1) = false)
    (hk : hook x.now i j (d.value b) (s.heard x.sid) = none) (hc : d.cls ≠ .commit) :
    ∃ t, Host.Outcome.next (s.hostWrite h i j 0 b) = (.next t : Host.Outcome State Fault Refusal) ∧
      Answered t 0x13 0 h.seq.toNat ∧ Only [.wilwa, .sent] ((s.heard x.sid).makeLive i j (d.value b)) t := by
  have e : (s.heard x.sid).applyWrite x.now d i j (d.value b) = (0, (s.heard x.sid).makeLive i j (d.value b)) := by
    simp [State.applyWrite, ha, hk, hc]
  refine ⟨_, rfl, ?_, ?_⟩
  · rw [w.hostWrite hd, e]; exact Answer.finish_answered _ _ _
  · rw [w.hostWrite hd, e]; exact Answer.finish_only _ _ _

/-- OutputLevel written: its value is live, and nothing else changes but in the session (R250). -/
theorem exec_outputLevelWrite {h : Hdr} {v : BitVec 16} {x : Session} (w : WriteTaken s h 0x2E20 1 (u16 v.toNat) x) :
    ∃ t, exec (.outputLevelWrite h v) s = .next t ∧ Answered t 0x13 0 h.seq.toNat ∧
      t.objs = (s.setNum 0x2E20 1 v.toNat).objs ∧ Only [.wilwa, .sent, .objs] s t := by
  obtain ⟨d, hd⟩ := Option.isSome_iff_exists.1 (show (findDesc 0x2E20 1).isSome = true by decide)
  have free : (findDesc 0x2E20 1).map (·.cls) = some .free := by decide
  have value : d.value (u16 v.toNat) = .num v.toNat := by
    rw [Desc.value_num hd _ (by decide), u16, leNat_leBytes, Nat.mod_eq_of_lt (by simpa using v.isLt)]
  have unstaged : d.cls ≠ .commit := by
    rw [hd] at free
    exact fun e => absurd (e.symm.trans (Option.some.inj free)) (by decide)
  obtain ⟨t, run, answered, rest⟩ := w.live hd (by decide) rfl unstaged
  have live : (s.heard x.sid).makeLive 0x2E20 1 (d.value (u16 v.toNat)) = (s.heard x.sid).setNum 0x2E20 1 v.toNat := by
    rw [value]
    rfl
  rw [live] at rest
  have written : Only [.wilwa, .objs] s ((s.heard x.sid).setNum 0x2E20 1 v.toNat) :=
    ((s.heard_only _).mono (by decide)).trans (State.setNum_moves.only.mono (by decide))
  exact ⟨t, (exec_of_writeOf rfl).trans run, answered, rest .objs (by decide), (written.mono (by decide)).trans (rest.mono (by decide))⟩

theorem exec_outputCheckExpiry {n : Fin 16} (ho : s.on domCTL = true) (ht : s.num 0x2E20 4 ≠ 0) :
    ∃ t, exec (.outputCheckExpiry n) s = .next t ∧ (s.takesReports → Raised (0x2E10 + n.val) 0 t) := by
  obtain ⟨u, d, run, kept⟩ : ∃ (u : State) (d : Bytes), exec (.outputCheckExpiry n) s = .next (u.raise (0x2E10 + n.val) 0 d) ∧
      Only [.fresh] s u := ⟨(s.freeBelow (2 ^ 16)).2, _, if_neg (by simp [ho, ht]), State.freeBelow_moves.only⟩
  exact ⟨_, run, fun k => State.raise_raised _ _ _ (State.takesReports_congr (kept .pwr (by decide)) (kept .flt (by decide)) k)⟩

/-! Speed advice. -/

/-- Where nothing is advised, SpeedAdvice and what limits it are 0 (R244). -/
theorem exec_speedAdvice_none (ho : s.on domCTL = true) (ha : s.advises = false) :
    ∃ t, exec .speedAdviceUpdate s = .next t ∧ t.num 0x2930 1 = 0 ∧ ObjsOnly [(0x2930, 1), (0x2930, 5)] s t ∧ Only [.objs] s t := by
  refine ⟨(s.setNum 0x2930 1 0).setNum 0x2930 5 0, (if_neg (by simp [ho])).trans (if_pos (by simp [ha])), ?_, ?_, ?_⟩
  · rw [State.num_setNum_ne _ _ (by decide), State.num_setNum_self]
  · exact ((s.setNum_objs_only _ _ _).mono (by simp)).trans ((State.setNum_objs_only _ _ _ _).mono (by simp))
  · exact (show Moves [.objs] s _ from .after State.setNum_moves State.setNum_moves).only

/-- SpeedAdvice is the least of its terms: the head term's bar is known, and its value fits (R244). -/
theorem exec_speedAdvice_eq {b v : Nat} (ho : s.on domCTL = true) (ha : s.advises = true)
    (hk : ∀ i ∈ s.jobBars, s.num 0x251B (barChannel s.obj i + 1) ≠ 0)
    (hh : s.adviceHead (fun i => (s.num 0x2610 (i + 1) : Rat) / (s.num 0x251B (barChannel s.obj i + 1) : Rat))
      (((10000 - s.num 0x2931 5 : Nat) : Rat) / 10000) = some (b, v)) (hv : v < 65536) :
    ∃ (u : State) (advice h p d last : Nat), exec .speedAdviceUpdate s =
      .next (((((u.setNum 0x2930 1 advice).setNum 0x2930 2 h).setNum 0x2930 3 p).setNum 0x2930 4 d).setNum 0x2930 5 last) ∧
      h = v ∧ advice ≤ v ∧ advice ≤ d ∧ (s.num 0x2931 2 = 0 → d = 65535) := by
  have known : (s.jobBars.all fun b => s.num 0x251B (barChannel s.obj b + 1) != 0) = true :=
    List.all_eq_true.2 fun i hi => by simpa using hk i hi
  have run : exec .speedAdviceUpdate s = execSpeedAdviceUpdate s := rfl
  have unlimited : s.num 0x2931 2 = 0 → s.adviceData.1 = none := fun h => by
    unfold State.adviceData
    rw [if_pos h]
  have fits : ∀ t : State, t.termValue (some v) = (v, t) := fun t => if_pos hv
  rw [run, execSpeedAdviceUpdate, if_neg (by simp [ho]), if_neg (by simp [ha])]
  dsimp only
  rw [known, if_pos rfl, if_pos rfl, hh]
  dsimp only [Option.map_some]
  exact ⟨_, _, _, _, _, _, rfl, by rw [fits], by simp, by simp, fun h => by simp [unlimited h]⟩

/-- What reads back of an advice and its terms (R244). -/
theorem State.adviceWritten (u : State) (advice h p d last : Nat) {t : State} (ht : t =
    ((((u.setNum 0x2930 1 advice).setNum 0x2930 2 h).setNum 0x2930 3 p).setNum 0x2930 4 d).setNum 0x2930 5 last := by rfl) :
    t.num 0x2930 1 = advice ∧ t.num 0x2930 2 = h ∧ t.num 0x2930 4 = d := by
  subst ht
  refine ⟨?_, ?_, ?_⟩
  · rw [State.num_setNum_ne _ _ (by decide), State.num_setNum_ne _ _ (by decide), State.num_setNum_ne _ _ (by decide),
      State.num_setNum_ne _ _ (by decide), State.num_setNum_self]
  · rw [State.num_setNum_ne _ _ (by decide), State.num_setNum_ne _ _ (by decide), State.num_setNum_ne _ _ (by decide),
      State.num_setNum_self]
  · rw [State.num_setNum_ne _ _ (by decide), State.num_setNum_self]

theorem exec_spdAdvPeriodStart (ho : s.on domCTL = true) (hp : s.num 0x2931 1 ≠ 0) :
    exec .spdAdvPeriodStart s =
      .next { s with fsq := { s.fsq with spdHigh := min s.speedAdvice (s.num 0x2931 4) * 40000 / s.num 0x2931 4 } } :=
  if_neg (by simp [ho, hp])

end Sys2Proof.Machine
end

section
/-! Accepted marks (R28, R180, R186, R187, R227). -/

set_option Elab.async false

namespace Sys2Proof.Machine

variable {s t : State}

theorem State.clk_modLcg_self (s : State) {b : Nat} (hb : b < 8) (f : Lcg → Lcg) : (s.modLcg b f).clk b = f (s.clk b) :=
  vget_vmod_self _ _ _ hb

theorem State.clk_modLcg_ne (s : State) {b i : Nat} (h : i ≠ b) (f : Lcg → Lcg) : (s.modLcg b f).clk i = s.clk i :=
  vget_vmod_ne _ _ _ h

theorem State.clk_congr (h : t.lcg = s.lcg) (i : Nat) : t.clk i = s.clk i := by
  unfold State.clk
  rw [h]

/-- A line clock that starts at a latched count: its line 0 is due an offset and a pitch further on (R186, R187). -/
def Lcg.started (k : Lcg) (count offset pitch : Nat) : Lcg :=
  { k with st := .running, high := count, n := 0, next := (count * 2 ^ 16 + offset + pitch) % 2 ^ 48 }

/-- What a mark writes: the latched count and its time, the bar's line clock, and the bar's run state (R186, R187). -/
theorem State.startAtMark_steps (s : State) (b n offset : Nat) : ∃ (time : Nat) (v : State),
    v = (s.setNum 0x2635 (b + 1) (s.pch n).count).setNum 0x2636 (b + 1) time ∧ (s.startAtMark b n offset).objs = v.objs ∧
      (s.startAtMark b n offset).lcg = (v.modLcg b fun k => k.started (s.pch n).count offset (v.num 0x2611 (b + 1))).lcg ∧
      (b < 8 → ((s.startAtMark b n offset).bar b).run = .printing) := by
  unfold State.startAtMark
  extract_lets c u v w sne mir x
  have started : w = v.modLcg b fun k => k.started c offset (v.num 0x2611 (b + 1)) := rfl
  have rest : Moves [.sne, .che, .mir] w x := by
    refine .after State.cheJobStart_moves (.plain (u := w) .refl fun p h => ?_)
    cases p <;> first | exact absurd (by decide) h | rfl
  have running : Moves [.fsq] x (x.modBar b fun y => { y with run := .printing, ready := true }) := State.modBar_moves
  refine ⟨_, v, rfl, ?_, ?_, fun hb => ?_⟩
  · rw [running.same .objs, rest.same .objs, started]
    exact State.modLcg_moves.same .objs
  · rw [running.same .lcg, rest.same .lcg, started]
  · rw [x.bar_modBar_self hb]

theorem State.startAtMark_objs_only (s : State) {b : Nat} (hb : b < 8) (n offset : Nat) :
    ObjsOnly [(0x2635, b + 1), (0x2636, b + 1)] s (s.startAtMark b n offset) := by
  obtain ⟨time, v, rfl, objs, -, -⟩ := s.startAtMark_steps b n offset
  refine .trans ?_ (.of_objs objs)
  exact ((s.setNum_objs_only _ _ _ (by omega)).mono (by simp)).trans ((State.setNum_objs_only _ _ _ _ (by omega)).mono (by simp))

/-- A mark starts its bar's line clock from the latched count (R186, R187). -/
theorem State.startAtMark_clk (s : State) {b : Nat} (hb : b < 8) (n offset i : Nat) :
    (s.startAtMark b n offset).clk i =
      if i = b then (s.clk b).started (s.pch n).count offset (s.num 0x2611 (b + 1)) else s.clk i := by
  obtain ⟨time, v, hv, objs, lcg, -⟩ := s.startAtMark_steps b n offset
  have pitch : v.num 0x2611 (b + 1) = s.num 0x2611 (b + 1) := by
    rw [← State.num_congr objs, (s.startAtMark_objs_only hb n offset).num (by omega) (by simp)]
  have clocks : v.lcg = s.lcg := by
    rw [hv]
    exact (State.setNum_moves.same .lcg).trans (State.setNum_moves.same .lcg)
  rw [State.clk_congr lcg, pitch]
  split
  · next h => rw [h, v.clk_modLcg_self hb, State.clk_congr clocks]
  · next h => rw [v.clk_modLcg_ne h, State.clk_congr clocks]

theorem State.startAtMark_count (s : State) {b : Nat} (n offset : Nat) :
    (s.startAtMark b n offset).num 0x2635 (b + 1) = (s.pch n).count := by
  obtain ⟨time, v, rfl, objs, -, -⟩ := s.startAtMark_steps b n offset
  rw [State.num_congr objs, State.num_setNum_ne _ _ (by unfold key; omega), State.num_setNum_self]

theorem State.startAtMark_bar (s : State) {b : Nat} (hb : b < 8) (n offset : Nat) : ((s.startAtMark b n offset).bar b).run = .printing := by
  obtain ⟨-, -, -, -, -, run⟩ := s.startAtMark_steps b n offset
  exact run hb

/-- A bar started at a mark, on the channel it runs on and with its own offset where a mark is shared (R186, R187). -/
def State.startMarked (s : State) (shared : Bool) (i : Nat) : State :=
  s.startAtMark i (barChannel s.obj i) (if shared then s.num 0x2612 (i + 1) else 0)

theorem forEach_cons {α : Type} (a : α) (l : List α) (f : α → State → State) (s : State) :
    forEach (a :: l) f s = forEach l f (f a s) := rfl

theorem barChannel_congr (h : ∀ j, j < 256 → t.obj 0x2620 j = s.obj 0x2620 j) (i : Nat) : barChannel t.obj i = barChannel s.obj i := by
  unfold barChannel
  rw [h 1 (by decide), h 2 (by decide)]

/-- Each bar that a mark starts is started from the state before the mark; the others' clocks are as they were (R186, R187). -/
theorem State.startMarked_clk {shared : Bool} {l : List Nat} (hn : l.Nodup) (hl : ∀ i ∈ l, i < 8) (s : State) (i : Nat) :
    (forEach l (fun i s => s.startMarked shared i) s).clk i =
      if i ∈ l then (s.clk i).started (s.pch (barChannel s.obj i)).count (if shared then s.num 0x2612 (i + 1) else 0)
        (s.num 0x2611 (i + 1)) else s.clk i := by
  induction l generalizing s with
  | nil => rfl
  | cons b l ih =>
    obtain ⟨fresh, hn⟩ := List.nodup_cons.1 hn
    have hb : b < 8 := hl b List.mem_cons_self
    have clk : ∀ i, (s.startMarked shared b).clk i = _ := s.startAtMark_clk hb _ _
    have objs : ObjsOnly [(0x2635, b + 1), (0x2636, b + 1)] s (s.startMarked shared b) := s.startAtMark_objs_only hb _ _
    have pos : (s.startMarked shared b).pos = s.pos := State.startAtMark_moves.same .pos
    rw [forEach_cons, ih hn (fun j hj => hl j (List.mem_cons_of_mem _ hj)), clk]
    by_cases h : i ∈ l
    · have ne : i ≠ b := fun e => fresh (e ▸ h)
      have hi : i < 8 := hl i (List.mem_cons_of_mem _ h)
      have channel : barChannel (s.startMarked shared b).obj i = barChannel s.obj i :=
        barChannel_congr (fun j hj => objs _ _ hj (by simp)) i
      have latched : ∀ n, (s.startMarked shared b).pch n = s.pch n := fun n => by
        unfold State.pch
        rw [pos]
      rw [if_pos h, if_pos (List.mem_cons_of_mem _ h), if_neg ne, channel, latched, objs.num (by omega) (by simp),
        objs.num (by omega) (by simp)]
    · by_cases e : i = b
      · subst e
        simp [h]
      · simp [h, e]

/-! The command of a mark. -/

/-- A mark noted for its bar's channel (R180). -/
def State.noteMark (s : State) (b : Nat) : State := { s with fsq := { s.fsq with marked := s.fsq.marked ||| 2 ^ b } }

/-- A bar that waits for its mark, with its line clock (R186). -/
def State.waitsForMark (s : State) (i : Nat) : Bool := (s.clk i).st == .waiting && (s.bar i).run == .waiting

theorem State.waitsForMark_iff (s : State) (i : Nat) : s.waitsForMark i = true ↔ (s.clk i).st = .waiting ∧ (s.bar i).run = .waiting := by
  unfold State.waitsForMark
  rw [Bool.and_eq_true, beq_iff_eq, beq_iff_eq]

/-- The device prints once a bar has started (R25, R28). -/
def State.printIfArmed (s : State) : State := if s.pwr.dev = .armed then s.enter .printing else s

theorem State.printIfArmed_dev (h : s.pwr.dev = .armed ∨ s.pwr.dev = .printing) : s.printIfArmed.pwr.dev = .printing := by
  unfold State.printIfArmed
  split
  · exact State.enter_dev _ _
  · next c => exact h.resolve_left c

theorem State.printIfArmed_moves : Moves [.objs, .pwr] s s.printIfArmed := by
  unfold State.printIfArmed
  exact .ite State.enter_moves .refl

theorem State.printIfArmed_objs_only (s : State) : ObjsOnly [(0x1100, 4)] s s.printIfArmed := by
  unfold State.printIfArmed
  exact .ite (s.enter_objs_only _) .refl

/-- The bars that a mark starts: its own, or in shared mode with MARK_0 all that wait (R28, R186). -/
def State.markStarts (s : State) (b : Nat) : List Nat :=
  if !s.inStates [.armed, .printing] then []
  else if s.num 0x2620 1 == 1 then (if b = 0 then (List.range 8).filter s.waitsForMark else [])
  else [b].filter s.waitsForMark

theorem exec_markAccepted_eq {b : Bar} (ho : s.on domCTL = true) : exec (.markAccepted b) s =
    if (s.markStarts b.val).isEmpty then
      .next (if (s.num 0x2620 1 == 1) = true ∧ b.val ≠ 0 then s.noteMark b.val else (s.noteMark b.val).bump 0x2637 (b.val + 1))
    else .next (forEach (s.markStarts b.val) (fun i s' => s'.startMarked (s.num 0x2620 1 == 1) i) (s.noteMark b.val)).printIfArmed := by
  have run : exec (.markAccepted b) s = execMarkAccepted b s := rfl
  rw [run, execMarkAccepted, if_neg (by simp [ho])]
  rfl

/-- Where bars start, the mark starts each of them and the device prints (R28, R186, R187). -/
theorem exec_markAccepted_starts {b : Bar} (ho : s.on domCTL = true) (hne : s.markStarts b.val ≠ []) :
    exec (.markAccepted b) s = .next
      (forEach (s.markStarts b.val) (fun i s' => s'.startMarked (s.num 0x2620 1 == 1) i) (s.noteMark b.val)).printIfArmed := by
  rw [exec_markAccepted_eq ho, if_neg fun e => hne (List.isEmpty_iff.1 e)]

/-- Where no bar starts at a mark of its own, the mark is counted (R28, R180). -/
theorem exec_markAccepted_counted {b : Bar} (ho : s.on domCTL = true) (hs : s.num 0x2620 1 ≠ 1) (hn : s.markStarts b.val = []) :
    exec (.markAccepted b) s = .next ((s.noteMark b.val).bump 0x2637 (b.val + 1)) := by
  rw [exec_markAccepted_eq ho, if_pos (List.isEmpty_iff.2 hn), if_neg fun h => hs (by simpa using h.1)]

theorem objWidth_markCount (b : Bar) : objWidth 0x2637 (b.val + 1) = 32 := by
  revert b
  decide

/-- The device runs and a bar starts: its clock runs from the latched count, it prints, and the device prints (R28, R186, R187). -/
theorem exec_markAccepted_own {b : Bar} (ho : s.on domCTL = true) (hd : s.pwr.dev = .armed ∨ s.pwr.dev = .printing)
    (hs : s.num 0x2620 1 ≠ 1) (hc : (s.clk b.val).st = .waiting) (hr : (s.bar b.val).run = .waiting) :
    ∃ t, exec (.markAccepted b) s = .next t ∧
      t.clk b.val = (s.clk b.val).started (s.pch b.val).count 0 (s.num 0x2611 (b.val + 1)) ∧
      t.num 0x2635 (b.val + 1) = (s.pch b.val).count ∧ (t.bar b.val).run = .printing ∧ t.pwr.dev = .printing ∧
      ∀ i, i ≠ b.val → t.clk i = s.clk i := by
  have hb := b.isLt
  have own : (s.num 0x2620 1 == 1) = false := by simpa using hs
  have starts : s.markStarts b.val = [b.val] := by
    unfold State.markStarts
    rw [if_neg (by simp [State.inStates, hd]), own, if_neg (by decide)]
    exact List.filter_eq_self.2 fun i hi => by rw [List.mem_singleton.1 hi, s.waitsForMark_iff]; exact ⟨hc, hr⟩
  have run := exec_markAccepted_starts ho (b := b) (by rw [starts]; exact List.cons_ne_nil _ _)
  rw [starts, own, forEach_cons] at run
  have channel : barChannel (s.noteMark b.val).obj b.val = b.val := if_neg hs
  generalize hu : (s.noteMark b.val).startMarked false b.val = u at run
  rw [State.startMarked, channel] at hu
  have clk : ∀ i, u.clk i = _ := fun i => hu ▸ (s.noteMark b.val).startAtMark_clk hb b.val 0 i
  have count : u.num 0x2635 (b.val + 1) = _ := hu ▸ (s.noteMark b.val).startAtMark_count b.val 0
  have prints : (u.bar b.val).run = .printing := hu ▸ (s.noteMark b.val).startAtMark_bar hb b.val 0
  have pwr : u.pwr = s.pwr := hu ▸ (State.startAtMark_moves.same .pwr : ((s.noteMark b.val).startAtMark b.val b.val 0).pwr = _)
  have clocks := State.clk_congr (State.printIfArmed_moves.same .lcg : u.printIfArmed.lcg = u.lcg)
  refine ⟨u.printIfArmed, run, ?_, ?_, ?_, ?_, fun i hi => ?_⟩
  · rw [clocks, clk, if_pos rfl]
    rfl
  · rw [u.printIfArmed_objs_only.num (by omega) (by simp), count]
    rfl
  · rw [State.bar_congr (State.printIfArmed_moves.same .fsq), prints]
  · exact State.printIfArmed_dev (by rwa [pwr])
  · rw [clocks, clk, if_neg hi]
    rfl

/-- In shared mode MARK_0 starts every bar that waits, each from the shared channel's count with its own offset (R28, R186, R187). -/
theorem exec_markAccepted_shared {b : Bar} (ho : s.on domCTL = true) (hd : s.pwr.dev = .armed ∨ s.pwr.dev = .printing)
    (hs : s.num 0x2620 1 = 1) (hb : b.val = 0) (hw : ∃ i, i < 8 ∧ s.waitsForMark i = true) :
    ∃ t, exec (.markAccepted b) s = .next t ∧ t.pwr.dev = .printing ∧
      ∀ i, i < 8 → t.clk i = if s.waitsForMark i then
        (s.clk i).started (s.pch (s.num 0x2620 2)).count (s.num 0x2612 (i + 1)) (s.num 0x2611 (i + 1)) else s.clk i := by
  have shared : (s.num 0x2620 1 == 1) = true := by simpa using hs
  have starts : s.markStarts b.val = (List.range 8).filter s.waitsForMark := by
    unfold State.markStarts
    rw [if_neg (by simp [State.inStates, hd]), shared, if_pos rfl, if_pos hb]
  obtain ⟨k, hk, hw⟩ := hw
  have run := exec_markAccepted_starts ho (b := b) (by
    rw [starts]
    exact List.ne_nil_of_mem (List.mem_filter.2 ⟨List.mem_range.2 hk, hw⟩))
  rw [starts, shared] at run
  have clk := State.startMarked_clk (shared := true) (l := (List.range 8).filter s.waitsForMark) (List.nodup_range.filter _)
    (fun i hi => List.mem_range.1 (List.mem_filter.1 hi).1) (s.noteMark b.val)
  have pwr : (forEach ((List.range 8).filter s.waitsForMark) (fun i s' => s'.startMarked true i) (s.noteMark b.val)).pwr = s.pwr :=
    forEach_keeps (P := fun t => t.pwr = s.pwr) (fun i _ t h => (State.startAtMark_moves.same .pwr).trans h) rfl
  generalize forEach ((List.range 8).filter s.waitsForMark) (fun i s' => s'.startMarked true i) (s.noteMark b.val) = u at run clk pwr
  refine ⟨u.printIfArmed, run, State.printIfArmed_dev (by rwa [pwr]), fun i hi => ?_⟩
  rw [State.clk_congr (State.printIfArmed_moves.same .lcg), clk]
  have channel : barChannel (s.noteMark b.val).obj i = s.num 0x2620 2 := if_pos hs
  have listed : i ∈ (List.range 8).filter s.waitsForMark ↔ s.waitsForMark i = true := by simp [hi]
  simp only [listed, channel, if_true]
  rfl

/-- A mark that starts no bar is noted and counted (R28, R180). -/
theorem exec_markAccepted_idle {b : Bar} (ho : s.on domCTL = true) (hs : s.num 0x2620 1 ≠ 1)
    (hn : (s.clk b.val).st ≠ .waiting ∨ s.inStates [.armed, .printing] = false) :
    ∃ t, exec (.markAccepted b) s = .next t ∧ t.num 0x2637 (b.val + 1) = (s.num 0x2637 (b.val + 1) + 1) % 2 ^ 32 ∧
      t.fsq = { s.fsq with marked := s.fsq.marked ||| 2 ^ b.val } ∧ ObjsOnly [(0x2637, b.val + 1)] s t ∧ Only [.objs, .fsq] s t := by
  have hb := b.isLt
  have own : (s.num 0x2620 1 == 1) = false := by simpa using hs
  have starts : s.markStarts b.val = [] := by
    unfold State.markStarts
    split
    · rfl
    · next open_ =>
      have still : (s.clk b.val).st ≠ .waiting := hn.resolve_right fun e => open_ (by rw [e]; rfl)
      rw [own, if_neg (by decide)]
      refine List.filter_eq_nil_iff.2 fun i hi => ?_
      rw [List.mem_singleton.1 hi, s.waitsForMark_iff]
      exact fun h => still h.1
  refine ⟨_, exec_markAccepted_counted ho hs starts, ?_, rfl, ?_, ?_⟩
  · rw [State.num_bump_self, objWidth_markCount]
    rfl
  · exact (ObjsOnly.of_objs rfl).trans (State.bump_objs_only _ _ _ (by omega))
  · exact (show Moves [.objs, .fsq] s _ from .after State.bump_moves (.fsq .refl)).only

end Sys2Proof.Machine
end

section
/-! Marks, compare units, inputs and outputs, FIRE_EN and speed advice: the obligation O47. -/

set_option Elab.async false

namespace Sys2Proof.Machine

/-- Settles O47: each clause is what its command does (`exec_…`) or how a pin reads, with the command's own frame. -/
theorem marksAndPinsAct : Obligations.MarksAndPinsAct := by
  unfold Obligations.MarksAndPinsAct
  refine ⟨fun s b ho hd hs hc hr => ?_, fun s b ho hd hs hb hw => ?_, fun s b ho hs hn => exec_markAccepted_idle ho hs hn,
    fun s u k rest hk => ?_, fun s u hp => ?_, fun s n v ho hv => ?_, fun s n ho ht => ?_, fun s h v x w => ?_, fun s hf => ?_,
    fun s hf => ?_, fun s ho ha => exec_speedAdvice_none ho ha, fun s b v ho ha hk hh hv => ?_, fun s ho hp => ?_,
    fun s n => (s.pin_fireOk_high n).trans s.fireOk_iff, fun s n p hd hp => State.pin_released hd n hp, fun s n hd => State.pin_frozen hd n⟩
  · obtain ⟨t, run, clk, count, prints, dev, others⟩ := exec_markAccepted_own ho hd hs hc hr
    have next : (t.clk b.val).next = ((s.pch b.val).count * 2 ^ 16 + s.num 0x2611 (b.val + 1)) % 2 ^ 48 := by
      rw [clk, Lcg.started, Nat.add_zero]
    exact ⟨t, run, congrArg Lcg.st clk, congrArg Lcg.n clk, congrArg Lcg.high clk, next, count, prints, dev, others,
      execMarkAccepted_moves.only run⟩
  · obtain ⟨t, run, dev, clk⟩ := exec_markAccepted_shared ho hd hs hb
      (hw.imp fun i hi => ⟨hi.1, (s.waitsForMark_iff i).2 hi.2⟩)
    refine ⟨t, run, dev, fun i hi hc hr => ?_, fun i hi hn => ?_, execMarkAccepted_moves.only run⟩
    · rw [clk i hi, if_pos ((s.waitsForMark_iff i).2 ⟨hc, hr⟩)]
      exact ⟨rfl, rfl, rfl⟩
    · exact (clk i hi).trans (if_neg fun e => absurd ((s.waitsForMark_iff i).1 e) (by tauto))
  · obtain ⟨t, run, acted, others⟩ := exec_compareAction hk
    refine ⟨t, run, by rw [acted, Cmp.acted_due], fun m => ?_, fun m => ?_, fun m => ?_, fun m => ?_, others,
      execCompareAction_moves.only run⟩
    · rw [acted, m]
      exact ⟨rfl, rfl⟩
    all_goals rw [acted, m]; rfl
  · obtain ⟨t, run, ended, others⟩ := exec_comparePulseEnd hp
    exact ⟨t, run, ended, others, execComparePulseEnd_moves.only run⟩
  · obtain ⟨t, run, level, quiet, latched⟩ := exec_inputEdge ho hv
    exact ⟨t, run, level, quiet, latched, execInputEdge_moves.only run⟩
  · obtain ⟨t, run, raised⟩ := exec_outputCheckExpiry ho ht
    exact ⟨t, run, raised, execOutputCheckExpiry_moves.only run⟩
  · obtain ⟨t, run, answered, objs, frame⟩ := exec_outputLevelWrite w
    have only : ObjsOnly [(0x2E20, 1)] s t := (s.setNum_objs_only _ _ _).trans (.of_objs objs)
    have level : t.num 0x2E20 1 = v.toNat := (State.num_congr objs _ _).trans (State.num_setNum_self _ _ _ _)
    refine ⟨t, run, answered, level, fun n hn ho hr free => ?_, only, frame⟩
    have units : ∀ u, t.unit u = s.unit u := fun u => congrArg (vget · u Cmp.start) (frame .cmp (by decide))
    have on : t.on domCTL = true := (State.on_congr (congrArg Pwr.doms (frame .pwr (by decide))) _).trans ho
    have role : t.mir.role ≠ .standby := by rwa [frame .mir (by decide)]
    have targets : ∀ u, u < 16 → (t.unit u).enabled = true → t.num 0x2644 (u + 1) ≠ n + 1 := fun u hu he => by
      rw [only.num (by omega) (by simp)]
      exact free u hu (units u ▸ he)
    rw [State.outputDriven_bit on role hn targets, level]
  · obtain ⟨t, run, gate, edge, bars, reported⟩ := exec_fireEnFall hf
    exact ⟨t, run, gate, edge, bars, reported, execFireEnFall_moves.only run⟩
  · obtain ⟨t, run, gate, edge, bars, reported⟩ := exec_fireEnRise hf
    exact ⟨t, run, gate, edge, bars, reported, execFireEnRise_moves.only run⟩
  · obtain ⟨u, advice, m, p, d, last, run, rfl, head, data, free⟩ := exec_speedAdvice_eq ho ha hk hh hv
    obtain ⟨least, headTerm, dataTerm⟩ := u.adviceWritten advice m p d last
    refine ⟨_, run, ?_, ?_, ?_, fun h => ?_, execSpeedAdviceUpdate_moves.only run⟩
    · rw [headTerm]
    · rw [least]
      exact head
    · rw [least, dataTerm]
      exact data
    · rw [dataTerm, free h]
  · exact ⟨_, exec_spdAdvPeriodStart ho hp, rfl, execSpdAdvPeriodStart_moves.only (exec_spdAdvPeriodStart ho hp)⟩

end Sys2Proof.Machine
end

section
/-! Sessions: which one an identifier names, and what a change of one leaves of it and of the others (R60, R62). -/

set_option Elab.async false

namespace Sys2Proof.Machine

variable {s t u : State} {x y : Session} {i k : Nat} {f : Session → Session}

theorem State.openSessions_congr (h : t.wilwa.sessions = s.wilwa.sessions) : t.openSessions = s.openSessions := by
  unfold State.openSessions
  rw [h]

theorem State.seats_congr (h : t.wilwa.sessions = s.wilwa.sessions) : t.seats = s.seats := by
  unfold State.seats
  rw [State.openSessions_congr h]

/-- The first slot whose content meets a condition holds the first content that meets it. -/
theorem find_slot {α : Type} (l : List (Option α)) (p : α → Bool) :
    ((List.range l.length).find? fun i => (l.getD i none).any p).bind (fun i => l.getD i none) = (l.filterMap id).find? p := by
  induction l with
  | nil => rfl
  | cons a l ih =>
    rw [List.length_cons, List.range_succ_eq_map, List.find?_cons]
    have rest : (((List.range l.length).map Nat.succ).find? fun i => ((a :: l).getD i none).any p).bind
        (fun i => (a :: l).getD i none) = (l.filterMap id).find? p := by
      rw [List.find?_map, Option.bind_map]
      exact ih
    cases a with
    | none => exact rest
    | some y =>
      by_cases hy : p y
      · simp [hy]
      · simp only [List.getD_cons_zero, Option.any_some, hy, List.filterMap_cons_some (rfl : id (some y) = some y), List.find?_cons]
        exact rest

/-- An identifier names the first open session that has it, in slot order. -/
theorem State.session_eq_find (s : State) (i : Nat) : s.session i = s.openSessions.find? fun x => x.sid == i := by
  have := find_slot s.wilwa.sessions.toList fun x => x.sid == i
  rwa [Vector.length_toList] at this

theorem State.session_congr (h : t.wilwa.sessions = s.wilwa.sessions) (i : Nat) : t.session i = s.session i := by
  rw [State.session_eq_find, State.session_eq_find, State.openSessions_congr h]

@[simp] theorem State.session_sendDgram (s : State) (d : Dgram) (i : Nat) : (s.sendDgram d).session i = s.session i :=
  State.session_congr rfl i

theorem State.session_sid (h : s.session i = some x) : x.sid = i := by
  rw [State.session_eq_find] at h
  simpa using List.find?_some h

theorem State.session_mem (h : s.session i = some x) : x ∈ s.openSessions := by
  rw [State.session_eq_find] at h
  exact List.mem_of_find?_eq_some h

theorem State.session_none_iff : s.session i = none ↔ ∀ x ∈ s.openSessions, x.sid ≠ i := by
  rw [State.session_eq_find, List.find?_eq_none]
  simp

/-- What a change makes of each session. -/
def Session.changed (i : Nat) (f : Session → Session) (x : Session) : Session := if x.sid = i then f x else x

theorem Session.changed_self (h : x.sid = i) : x.changed i f = f x := if_pos h

theorem Session.changed_sid (hf : ∀ x, (f x).sid = x.sid) (x : Session) : (x.changed i f).sid = x.sid := by
  unfold Session.changed
  split
  · exact hf x
  · rfl

theorem State.openSessions_modSession (s : State) (i : Nat) (f : Session → Session) :
    (s.modSession i f).openSessions = s.openSessions.map (Session.changed i f) := by
  unfold State.openSessions State.modSession
  rw [ofFn_toList s.wilwa.sessions fun y => y.map fun x => if x.sid = i then f x else x, List.filterMap_map, List.map_filterMap]
  rfl

/-- A change that keeps the identifiers: each identifier names the session it named, changed if it is the one. -/
theorem State.session_modSession (hf : ∀ x, (f x).sid = x.sid) (k : Nat) :
    (s.modSession i f).session k = (s.session k).map (Session.changed i f) := by
  rw [State.session_eq_find, State.session_eq_find, State.openSessions_modSession, List.find?_map]
  congr 2
  funext x
  exact congrArg (· == k) (Session.changed_sid hf x)

theorem State.session_modSession_self (hf : ∀ x, (f x).sid = x.sid) (h : s.session i = some x) :
    (s.modSession i f).session i = some (f x) := by
  rw [State.session_modSession hf, h, Option.map_some, Session.changed_self (State.session_sid h)]

theorem State.session_modSession_ne (hf : ∀ x, (f x).sid = x.sid) (h : k ≠ i) : (s.modSession i f).session k = s.session k := by
  rw [State.session_modSession hf]
  cases e : s.session k with
  | none => rfl
  | some x => exact congrArg some (if_neg (State.session_sid e ▸ h))

theorem State.session_heard (h : s.session i = some x) : (s.heard i).session i = some x.now :=
  State.session_modSession_self (fun _ => rfl) h

theorem State.heard_seats (s : State) (i : Nat) : (s.heard i).seats = s.seats := State.modSession_seats fun _ => ⟨rfl, rfl⟩

theorem Admitted.sid {h : Hdr} {ty : Nat} {p : Bytes} (a : Admitted s h ty p x) : x.sid = h.sid.toNat := State.session_sid a.opened

theorem Admitted.session {h : Hdr} {ty : Nat} {p : Bytes} (a : Admitted s h ty p x) : s.session x.sid = some x := a.sid ▸ a.opened

theorem Admitted.session_heard {h : Hdr} {ty : Nat} {p : Bytes} (a : Admitted s h ty p x) :
    (s.heard x.sid).session x.sid = some x.now := State.session_heard a.session

/-! What an answer leaves of the sessions, the transfers and the commits (R62). -/

theorem Answer.finish_seats (a : Answer) (x : Session) (q : Nat) : (a.finish x q).seats = a.state.seats :=
  State.modSession_seats fun _ => ⟨rfl, rfl⟩

/-- The response that an answer comes to: of its session as the request left it, or as it was where it is closed. -/
def Answer.response (a : Answer) (x : Session) (q : Nat) : Dgram :=
  sessionDgram ((a.state.session x.sid).getD x) a.type q 1 a.status a.payload false

theorem Answer.finish_eq (a : Answer) (x : Session) (q : Nat) : a.finish x q =
    (a.state.modSession x.sid fun y => { y with seq := q, stored := some (a.response x q) }).sendDgram (a.response x q) := rfl

theorem Answer.finish_session (a : Answer) (x : Session) (q : Nat) (k : Nat) : (a.finish x q).session k =
    (a.state.session k).map (Session.changed x.sid fun y => { y with seq := q, stored := some (a.response x q) }) := by
  rw [Answer.finish_eq, State.session_sendDgram, State.session_modSession (by exact fun _ => rfl)]

theorem Answer.finish_session_self {a : Answer} (q : Nat) (h : a.state.session x.sid = some y) :
    (a.finish x q).session x.sid = some { y with seq := q, stored := some (a.response x q) } := by
  rw [Answer.finish_session, h, Option.map_some, Session.changed_self (State.session_sid h)]

/-- The response leaves behind everything the request has sent, with the tag of its traffic (R89). -/
theorem Answer.finish_sent (a : Answer) (x : Session) (q : Nat) : (a.finish x q).sent = a.state.sent ++
    [.dgram { a.response x q with vlan := a.state.ownTag (a.state.num 0x2030 4) }] := rfl

theorem Answer.finish_payload (a : Answer) (x : Session) (q : Nat) : LastPayload (a.finish x q) a.payload :=
  ⟨_, by rw [Answer.finish_sent]; exact List.getLast?_concat, rfl⟩

end Sys2Proof.Machine
end

section
/-! What leaves every session as it was: values taken up, lines that end, lanes and bars that stop, measurements, image products
(R62, R75). -/

set_option Elab.async false

namespace Sys2Proof.Machine

variable {ps : List StatePart} {s t u : State}

/-- Every session is as it was. -/
def SessionsKept (s t : State) : Prop := t.wilwa.sessions = s.wilwa.sessions

namespace SessionsKept

theorem refl : SessionsKept s s := rfl

theorem trans (h : SessionsKept s t) (k : SessionsKept t u) : SessionsKept s u := Eq.trans k h

/-- A step applied to a state that has been reached. -/
theorem after (k : SessionsKept t u) (h : SessionsKept s t) : SessionsKept s u := h.trans k

/-- A function that leaves the dictionary engine alone leaves its sessions alone. -/
theorem of_moves (m : Moves ps s t) (h : .wilwa ∉ ps := by decide) : SessionsKept s t := congrArg Wilwa.sessions (m.same .wilwa h)

theorem forEach {α : Type} {l : List α} {f : α → State → State} (h : ∀ a t, SessionsKept t (f a t)) :
    SessionsKept s (forEach l f s) :=
  forEach_keeps (P := SessionsKept s) (fun a _ t k => k.trans (h a t)) .refl

theorem forRange {n : Nat} {f : Nat → State → State} (h : ∀ a t, SessionsKept t (f a t)) : SessionsKept s (forRange n f s) :=
  forEach h

theorem ite {c : Prop} [Decidable c] (h : SessionsKept s t) (k : SessionsKept s u) : SessionsKept s (if c then t else u) := by
  split <;> assumption

end SessionsKept

/-- What may be refused leaves the sessions alone where it is done. -/
def DoneKeepsSessions (s : State) (r : Except Nat State) : Prop := ∀ t, r = .ok t → SessionsKept s t

/-- An object's own effect leaves the sessions alone where it has one. -/
def HookKeepsSessions (s : State) (r : Option (Except Nat State)) : Prop := ∀ t, r = some (.ok t) → SessionsKept s t

theorem DoneKeepsSessions.ok (h : SessionsKept s t) : DoneKeepsSessions s (.ok t) := by
  rintro _ ⟨⟩
  exact h

theorem DoneKeepsSessions.error {e : Nat} : DoneKeepsSessions s (.error e) := by rintro _ ⟨⟩

theorem DoneKeepsSessions.of_moves {r : Except Nat State} (m : MovesE ps s r) (h : .wilwa ∉ ps := by decide) :
    DoneKeepsSessions s r := by
  rintro t rfl
  exact SessionsKept.of_moves m h

theorem DoneKeepsSessions.ite {c : Prop} [Decidable c] {q r : Except Nat State} (hq : DoneKeepsSessions s q)
    (hr : DoneKeepsSessions s r) : DoneKeepsSessions s (if c then q else r) := by
  split <;> assumption

theorem HookKeepsSessions.none : HookKeepsSessions s none := by rintro _ ⟨⟩

theorem HookKeepsSessions.some {r : Except Nat State} (h : DoneKeepsSessions s r) : HookKeepsSessions s (some r) :=
  fun t e => h t (Option.some.inj e)

theorem HookKeepsSessions.of_moves {r : Option (Except Nat State)} (m : MovesH ps s r) (h : .wilwa ∉ ps := by decide) :
    HookKeepsSessions s r := by
  rintro t rfl
  exact SessionsKept.of_moves m h

theorem HookKeepsSessions.ite {c : Prop} [Decidable c] {q r : Option (Except Nat State)} (hq : HookKeepsSessions s q)
    (hr : HookKeepsSessions s r) : HookKeepsSessions s (if c then q else r) := by
  split <;> assumption

/-! Transfers and commits. -/

theorem State.dropTransfer_sessions (s : State) (k : Nat) : SessionsKept s (s.dropTransfer k) := rfl

theorem State.abortTransfer_sessions (s : State) (r : Transfer) (code : Nat) : SessionsKept s (s.abortTransfer r code) := by
  unfold State.abortTransfer
  extract_lets u
  split
  · exact (SessionsKept.of_moves State.sendDgram_moves).after (s.dropTransfer_sessions _)
  · exact s.dropTransfer_sessions _

theorem State.modAdm_sessions (s : State) (area : Nat) (f : AreaAdm → AreaAdm) : SessionsKept s (s.modAdm area f) := rfl

theorem State.commitDone_sessions (s : State) (area : Nat) : SessionsKept s (s.commitDone area) := rfl

theorem State.makeLive_sessions (s : State) (idx sub : Nat) (v : Val) : SessionsKept s (s.makeLive idx sub v) :=
  .of_moves State.makeLive_moves

theorem State.liveWhere_sessions (s : State) (p : Nat → Nat → Bool) : SessionsKept s (s.liveWhere p) := by
  unfold State.liveWhere
  exact (SessionsKept.forEach fun e t => t.makeLive_sessions _ _ _).after rfl

theorem State.takenUp_sessions (s : State) (area b line time : Nat) : SessionsKept s (s.takenUp area b line time) := by
  unfold State.takenUp
  exact .ite rfl rfl

theorem State.takeUpBar_sessions (s : State) (area b line : Nat) : SessionsKept s (s.takeUpBar area b line) := by
  unfold State.takeUpBar
  exact .ite ((s.liveWhere_sessions _).trans (State.takenUp_sessions ..)) .refl

theorem State.barAtOnce_sessions (s : State) (b : Nat) : SessionsKept s (s.barAtOnce b) := by
  unfold State.barAtOnce
  exact .ite .refl (.forEach fun a t => t.takeUpBar_sessions _ _ _)

theorem State.barsTakeUp_sessions (s : State) (area : Nat) : SessionsKept s (s.barsTakeUp area) := .of_moves State.barsTakeUp_moves

theorem State.takeUpWeb_sessions (s : State) : SessionsKept s s.takeUpWeb := by
  unfold State.takeUpWeb
  exact .ite ((State.commitDone_sessions _ _).after ((State.barsTakeUp_sessions _ _).after (s.liveWhere_sessions _))) .refl

theorem State.portAtOnce_sessions (s : State) (p : Nat) : SessionsKept s (s.portAtOnce p) := by
  unfold State.portAtOnce
  refine .ite ?_ .refl
  extract_lets u
  have live : SessionsKept s u := s.liveWhere_sessions _
  exact (SessionsKept.of_moves State.modCam_moves).after ((State.takenUp_sessions ..).after (live.trans rfl))

theorem State.visAtOnce_sessions (s : State) : SessionsKept s s.visAtOnce := by
  unfold State.visAtOnce
  have ports : SessionsKept s (forRange 4 (fun p s => if (s.cam p).enabled then s else s.portAtOnce p) s) :=
    .forRange fun p t => .ite .refl (t.portAtOnce_sessions p)
  exact .ite ports (ports.trans (State.takeUpWeb_sessions _))

/-! Measurements. -/

theorem State.autoHide_sessions (s : State) (b : Nat) (newly : List Nat) : SessionsKept s (s.autoHide b newly) := by
  unfold State.autoHide
  extract_lets hide k u wilwa v w x
  have shadow : SessionsKept s v := by
    unfold v
    split <;> rfl
  exact shadow.trans (.of_moves (ps := [.objs, .flt, .bbx, .fsq])
    (.after State.raise_moves (.after State.addNum_moves State.modBar_moves.mono)))

theorem State.measClassify_sessions (s : State) (b : Nat) : SessionsKept s (s.measClassify b) := by
  unfold State.measClassify
  extract_lets i m addrs u live pending newly map hdg v weak missing w x y
  have found : Moves [.objs, .flt, .bbx, .hdg] s x := .after State.raise_moves (.after State.setNum_moves
    (.after State.setNum_moves (.after State.setNum_moves (.hdg (.forEach .refl fun a t h => .after State.modMeas_moves h)))))
  have told : SessionsKept s y := by
    unfold y
    cases newly with
    | nil => exact .of_moves found
    | cons f more => exact (SessionsKept.of_moves found).trans (.of_moves State.raise_moves)
  exact .ite (told.trans (State.autoHide_sessions ..)) told

theorem State.measBarDone_sessions (s : State) (b : Nat) : SessionsKept s (s.measBarDone b) := by
  unfold State.measBarDone
  refine .ite .refl (.ite ((s.measClassify_sessions b).trans ?_) ((s.measClassify_sessions b).trans ?_))
  · exact .of_moves (ps := [.hdg]) (.hdg .refl)
  · exact .of_moves (ps := [.objs, .hdg]) (.after State.setNum_moves (.hdg (.hdg .refl)))

theorem State.measLaneDone_sessions (s : State) (l : Nat) : SessionsKept s (s.measLaneDone l) := by
  unfold State.measLaneDone
  refine (State.measBarDone_sessions _ _).after ?_
  exact .of_moves (ps := [.sent, .hlk, .hdg]) (.ite (.after State.laneIdle_moves State.modLane_moves.mono) State.modLane_moves.mono)

theorem State.measLaneLost_sessions (s : State) (l : Nat) : SessionsKept s (s.measLaneLost l) := by
  unfold State.measLaneLost
  exact .ite .refl ((State.measLaneDone_sessions _ _).after (.of_moves State.measRest_moves))

theorem State.barIdle_sessions (s : State) (b : Nat) : SessionsKept s (s.barIdle b) := by
  unfold State.barIdle
  exact .forEach fun l t => .ite ((SessionsKept.of_moves State.laneIdle_moves).after (t.measLaneLost_sessions l)) .refl

theorem State.measStart_sessions (s : State) : DoneKeepsSessions s s.measStart := by
  unfold State.measStart
  extract_lets mask bars ok
  refine .ite .error (.ite .error (.ite .error ?_))
  split
  · exact .error
  split
  · exact .error
  next hdg u v lanes w x y hdg' _ _ _ _ =>
    have begun : Moves [.fresh, .sent, .hlk, .hdg] s x := by
      refine .forEach (.forEach (.forEach (.hdg .refl) fun a t h => .hdg h) fun a t h => .after State.modLane_moves h) fun a t h => ?_
      exact .ite (.after State.modLane_moves h) (.ite (.after State.modLane_moves (.after State.laneBurst_moves h))
        (.after State.measBegin_moves h))
    have done : SessionsKept s y := (SessionsKept.of_moves begun).trans (.forEach fun b t => t.measBarDone_sessions b)
    exact .ok (.ite (done.trans (.of_moves (ps := [.hdg, .objs]) (.after State.setNum_moves (.hdg .refl)))) done)

theorem State.measBaseline_sessions (s : State) : DoneKeepsSessions s s.measBaseline := by
  unfold State.measBaseline
  refine .ite .error ?_
  split
  · exact .error
  · exact .ok (.forEach fun b t => rfl)

theorem State.pendingApply_sessions (s : State) (b : Nat) : DoneKeepsSessions s (s.pendingApply b) := by
  unfold State.pendingApply
  exact .ite .error (.ok rfl)

/-! Lines that end. -/

theorem State.covClose_sessions (s : State) (b : Nat) (early : Bool) : SessionsKept s (s.covClose b early) := .of_moves State.covClose_moves

theorem State.covLine_sessions (s : State) (b : Nat) (ev : LineEv) (pr : Prepared) (fin : LineEnd) (fire : Nat)
    (lanes : Option (List Nat)) : SessionsKept s (s.covLine b ev pr fin fire lanes) := .of_moves State.covLine_moves

theorem State.settleStop_sessions (s : State) (b : Nat) : SessionsKept s (s.settleStop b) := by
  unfold State.settleStop
  exact .ite .refl (.ite ((s.covClose_sessions b true).trans (State.barIdle_sessions _ _)) (.ite (s.covClose_sessions b true) .refl))

theorem State.lineFinished_sessions (s : State) (b : Nat) (ev : LineEv) (pr : Prepared) (fin : LineEnd) (fire : Nat)
    (lanes : Option (List Nat)) : SessionsKept s (s.lineFinished b ev pr fin fire lanes) := by
  unfold State.lineFinished
  extract_lets u late v w
  have counted : SessionsKept s u := by
    unfold u
    split
    · exact .of_moves State.bump_moves
    · exact .of_moves State.bump_moves
    · exact .refl
  have ended : SessionsKept u w := (u.covLine_sessions ..).trans rfl
  exact (counted.trans ended).trans (w.settleStop_sessions b)

theorem State.cutBar_sessions (s : State) (b : Nat) : SessionsKept s (s.cutBar b) := by
  unfold State.cutBar
  extract_lets u v blank w
  have lanes : SessionsKept s u := .of_moves (ps := [.hlk]) (.forRange .refl fun l t h => .after State.modLane_moves h)
  have ended : SessionsKept u v := by
    unfold v
    split
    · exact u.lineFinished_sessions ..
    · exact .refl
  have waited : SessionsKept v w := .forEach fun ev t => t.covLine_sessions ..
  refine ((lanes.trans ended).trans waited).trans ((State.covClose_sessions ..).after (.of_moves State.modBar_moves))

theorem State.laneDone_sessions (s : State) (b l : Nat) (passed late : Bool) : SessionsKept s (s.laneDone b l passed late) := by
  unfold State.laneDone
  split
  · exact .refl
  · exact .ite (.of_moves State.modBar_moves) ((State.lineFinished_sessions ..).after (.of_moves State.modBar_moves))

theorem State.stopFiring_sessions (s : State) : SessionsKept s s.stopFiring := .forRange fun b t => t.cutBar_sessions b

theorem State.laneSilent_sessions (s : State) (l : Nat) : SessionsKept s (s.laneSilent l) := by
  unfold State.laneSilent
  extract_lets bars u v
  have down : SessionsKept s u := .of_moves (ps := [.sent, .objs, .flt, .bbx, .mem, .dram, .fsq, .hlk, .fresh])
    (.after State.modLane_moves State.laneUnlock_moves.mono)
  exact (down.trans (u.measLaneLost_sessions l)).trans (.forEach fun b t => t.laneDone_sessions ..)

/-! Bars that stop, wait and leave. -/

theorem State.clearBars_sessions (s : State) : SessionsKept s s.clearBars := by
  unfold State.clearBars
  refine .forRange fun b t => (State.barAtOnce_sessions _ _).after ?_
  exact (t.cutBar_sessions b).trans (.of_moves (ps := [.objs, .rin, .fet, .lcg, .fsq, .sne, .mem])
    (.after State.setNum_moves (.after State.modJob_moves (.after State.modLcg_moves (.after State.modBar_moves
      State.dropLines_moves.mono)))))

theorem State.enterConfigured_sessions (s : State) : SessionsKept s s.enterConfigured := by
  unfold State.enterConfigured
  extract_lets u vis v
  have cleared : SessionsKept s s.settleChange.clearBars :=
    (State.clearBars_sessions _).after (.of_moves State.settleChange_moves)
  have engines : SessionsKept s u := cleared.trans (.of_moves State.enginesConfigured_moves)
  have ringless : SessionsKept u v := .of_moves (ps := [.vis]) (.vis .refl)
  refine (engines.trans ringless).trans ?_
  exact ((SessionsKept.of_moves State.enter_moves).after (.of_moves State.lanesResume_moves)).after (.of_moves State.reserveRings_moves)

theorem State.enterStandby_sessions (s : State) : SessionsKept s s.enterStandby := by
  unfold State.enterStandby
  refine ((SessionsKept.of_moves State.enter_moves).after (.of_moves State.lanesStandby_moves)).after ?_
  exact (State.clearBars_sessions _).after (.of_moves State.settleChange_moves)

theorem State.endRequest_sessions (s : State) (r : Nat) : SessionsKept s (s.endRequest r) := .of_moves State.endRequest_moves

theorem State.stopsDone_sessions (s : State) : SessionsKept s s.stopsDone := by
  unfold State.stopsDone
  extract_lets left
  split
  · exact s.endRequest_sessions 0
  · exact s.enterConfigured_sessions.trans (State.endRequest_sessions _ 0)
  · exact .of_moves State.modPwr_moves
  · exact .of_moves State.modPwr_moves
  · exact .refl

theorem State.waitForMark_sessions (s : State) (b : Nat) (slot : Option Nat) (p : Nat) : SessionsKept s (s.waitForMark b slot p) := by
  unfold State.waitForMark
  refine (s.cutBar_sessions b).trans ?_
  exact ((SessionsKept.of_moves State.modLcg_moves).after (.of_moves State.modBar_moves)).after (.of_moves State.startBar_moves)

theorem State.barRestart_sessions (s : State) (b : Nat) : SessionsKept s (s.barRestart b) := by
  unfold State.barRestart
  exact .ite (s.waitForMark_sessions ..) .refl

theorem State.enterArmed_sessions (s : State) : SessionsKept s s.enterArmed := by
  unfold State.enterArmed
  extract_lets q fsq u v
  have taken : SessionsKept s u := by
    unfold u
    split
    · rfl
    · exact .ite ((SessionsKept.of_moves State.setNum_moves).after (.of_moves State.makeCurrent_moves)) rfl
  have armed : SessionsKept u v := .forRange fun b t => .ite
    (((SessionsKept.of_moves State.setNum_moves).after (.of_moves State.setNum_moves)).after
      ((State.waitForMark_sessions ..).after (.of_moves State.zeroCounts_moves))) (.of_moves State.zeroCounts_moves)
  exact (taken.trans armed).trans (.of_moves State.toArmed_moves)

theorem State.withRelease_sessions {f : State → State} (h : SessionsKept s (f s)) : SessionsKept s (s.withRelease f) := by
  unfold State.withRelease
  exact h.trans (.forRange fun l t => .ite (.of_moves State.sendRelease_moves) .refl)

theorem State.enterFrozen_sessions (s : State) : SessionsKept s s.enterFrozen := by
  unfold State.enterFrozen
  refine (State.stopFiring_sessions _).after ?_
  refine (State.withRelease_sessions (.of_moves State.enter_moves)).after ?_
  exact ((SessionsKept.of_moves State.measAbandon_moves).after (.of_moves State.abandonRequest_moves)).after
    (.of_moves State.abandonTraining_moves)

theorem State.beginRequest_sessions (s : State) (target step : Nat) (k : Option Transition) :
    SessionsKept s (s.beginRequest target step k) :=
  .of_moves State.beginRequest_moves

theorem State.startHeld_sessions (s : State) : SessionsKept s s.startHeld := by
  unfold State.startHeld
  refine (State.stopsDone_sessions _).after ?_
  refine (SessionsKept.forRange fun b t => ?_).after ((SessionsKept.of_moves State.enter_moves).after (s.beginRequest_sessions ..))
  have stopped : SessionsKept t (t.stopBegin b) := .of_moves State.stopBegin_moves
  exact .ite stopped (stopped.trans (State.barIdle_sessions _ b))

theorem State.stopForConfigured_sessions (s : State) : SessionsKept s s.stopForConfigured := by
  unfold State.stopForConfigured
  extract_lets u
  have begun : SessionsKept s u := s.beginRequest_sessions ..
  refine begun.trans (.ite ?_ ?_)
  · exact (State.enterConfigured_sessions _).trans (State.endRequest_sessions _ 0)
  · exact (State.stopsDone_sessions _).after (.forRange fun b t => .of_moves State.stopBegin_moves)

theorem State.stateRequest_sessions (s : State) (v : Nat) : DoneKeepsSessions s (s.stateRequest v) := by
  unfold State.stateRequest
  have stop : ∀ w, SessionsKept s (s.measAbandon 1 w) := fun w => .of_moves State.measAbandon_moves
  have begun : ∀ target, SessionsKept s ((s.measAbandon 1 .idle).beginRequest target 0 none) := fun _ =>
    (stop _).trans (State.beginRequest_sessions ..)
  have ended : ∀ {t : State}, SessionsKept s t → DoneKeepsSessions s (.ok (t.endRequest 0)) := fun h =>
    .ok (h.trans (State.endRequest_sessions _ 0))
  refine .ite .error ?_
  extract_lets f no
  split
  · exact ended ((begun 3).trans (State.enterStandby_sessions _))
  · exact ended ((begun 3).trans (State.enterStandby_sessions _))
  · split
    · exact .error
    · exact .ok ((stop _).trans (.of_moves State.startConfigured_moves))
  · exact .ok ((stop _).trans (State.stopForConfigured_sessions _))
  · exact .ok ((stop _).trans (State.stopForConfigured_sessions _))
  · exact .ok ((stop _).trans (State.stopForConfigured_sessions _))
  · split
    · exact .error
    · exact ended ((begun 5).trans (State.enterArmed_sessions _))
  · exact .ok (((stop _).trans (.of_moves State.lanesResume_moves)).trans (State.beginRequest_sessions ..))
  · exact .ok ((stop _).trans (State.startHeld_sessions _))
  · exact .ok ((stop _).trans (State.startHeld_sessions _))
  iterate 4 exact ended ((begun 8).trans (State.enterFrozen_sessions _))
  · exact .error

/-! Image products. -/

theorem State.productLost_sessions (s : State) (stream : Nat) (p : Product) : SessionsKept s (s.productLost stream p) := by
  unfold State.productLost
  extract_lets u
  have told : SessionsKept s u := by
    unfold u
    split
    · exact .ite ((SessionsKept.of_moves State.raise_moves).after (.of_moves State.bump_moves)) .refl
    · exact .refl
  exact told.trans (.forEach fun r t => t.abortTransfer_sessions ..)

theorem State.ringRoom_sessions (n stream size : Nat) (s : State) : SessionsKept s (State.ringRoom n stream size s) := by
  induction n generalizing s with
  | zero => exact .refl
  | succ n ih =>
    unfold State.ringRoom
    split
    · exact .refl
    · exact .ite .refl ((ih _).after ((State.productLost_sessions ..).after rfl))

theorem State.keepProduct_sessions (s : State) (k : Nat) (f : WebFrame) (marks : Nat) : SessionsKept s (s.keepProduct k f marks) := by
  unfold State.keepProduct
  extract_lets data u t p
  have room : SessionsKept s u := State.ringRoom_sessions ..
  refine .ite ?_ ?_
  · exact (room.trans (State.productLost_sessions ..)).trans (.of_moves State.ringEnds_moves)
  · exact room.trans ((SessionsKept.of_moves State.ringEnds_moves).after rfl)

theorem State.makeProducts_sessions (s : State) (f : WebFrame) (marks : Nat) : SessionsKept s (s.makeProducts f marks) := by
  unfold State.makeProducts
  refine .ite .refl (.forRange fun k t => .ite .refl ?_)
  have late : SessionsKept t (t.coderLate k).2 := .of_moves State.coderLate_moves
  exact late.trans (.ite (.of_moves State.bump_moves) (State.keepProduct_sessions ..))

theorem State.webClose_sessions (s : State) (f : WebFrame) (extra : Nat) : SessionsKept s (s.webClose f extra) := by
  unfold State.webClose
  extract_lets left bolted marks u vis v w ch x hold y notice vis' z found q vis'' r
  have closed : Moves [.vis] s v := .vis (.forEach .refl fun p t h => .after State.modCam_moves h)
  have averaged : Moves [.objs, .flt, .bbx, .vis] s y :=
    .ite (.after State.raise_moves (.after State.setObj_moves (.after State.setNum_moves (.after State.setNum_moves closed.mono))))
      (.after State.setObj_moves (.after State.setNum_moves (.after State.setNum_moves closed.mono)))
  have told : Moves [.objs, .flt, .bbx, .vis] s q := .ite (.after State.raise_moves (.vis averaged)) (.vis averaged)
  exact (SessionsKept.of_moves (told.vis : Moves _ s r)).trans (State.makeProducts_sessions ..)

theorem State.restartTriggers_sessions (s : State) : SessionsKept s s.restartTriggers := by
  unfold State.restartTriggers
  extract_lets u v w x vis
  have ports : SessionsKept s u := by
    refine .forRange fun p t => ?_
    extract_lets a b
    have frame : Moves [.fresh, .objs, .flt, .bbx, .vis] t a := by
      unfold a
      split
      · exact State.closePortFrame_moves.mono
      · exact .refl
    exact .of_moves (.after State.modCam_moves (.forEach frame fun r k h => .after State.setPart_moves h))
  have lines : SessionsKept u v := .forEach fun r t => .ite (.of_moves State.completeLine_moves) .refl
  have frames : SessionsKept v w := .ite .refl (.forEach fun f t => t.webClose_sessions ..)
  have cams : SessionsKept w x := .forRange fun p t => .of_moves State.modCam_moves
  exact (((ports.trans lines).trans frames).trans cams).trans rfl

theorem State.unitRestarts_sessions (s : State) (u : Nat) : SessionsKept s (s.unitRestarts u) := by
  unfold State.unitRestarts
  exact .ite s.restartTriggers_sessions .refl

theorem State.portEnable_sessions (s : State) (p : Nat) (on : Bool) : DoneKeepsSessions s (s.portEnable p on) := by
  unfold State.portEnable
  extract_lets _ _ _ _ _ _ w
  have off : Moves [.objs, .vis] s w := .vis (.after State.modCam_moves State.setNum_moves.mono)
  refine .ite (.ok ((SessionsKept.of_moves off).trans w.visAtOnce_sessions)) ?_
  refine .ite .error (.ite (.ok .refl) (.ite .error (.ite .error ?_)))
  exact .ok (.of_moves (ps := [.fresh, .sent, .objs, .vis]) (.after State.startBatch_moves (.after State.modCam_moves
    (.after State.setNum_moves State.setNum_moves.mono))))

end Sys2Proof.Machine
end

section
/-! What leaves every session as it was: block resets, commits and writes (R62, R73, R75, R386). -/

set_option Elab.async false

namespace Sys2Proof.Machine

variable {ps : List StatePart} {s t u : State}

theorem State.blockReset_sessions (s : State) (b : Block) (byHost : Bool) (cause : Nat) :
    SessionsKept s (s.blockReset b byHost cause) := by
  unfold State.blockReset
  extract_lets _ v _ _ clocks _ _ _ _ measured _ _ w
  have shown : SessionsKept s v := .of_moves (ps := [.objs, .pwr]) (.after State.modPwr_moves
    (.forEach .refl fun x t h => .after State.showBolt_moves h))
  have restarted : ∀ (l : List Nat) (t : State), SessionsKept t (forEach l (fun i t => t.barRestart i) t) := fun l t =>
    .forEach fun i t => t.barRestart_sessions i
  have unitReset : SessionsKept v w := by
    unfold w
    split
    · exact .of_moves State.rinBlockReset_moves
    · exact .forEach fun c t => .of_moves State.chanBlockReset_moves
    · exact restarted _ _
    · exact .forEach fun n t => (restarted _ t).trans (.of_moves State.modPch_moves)
    · have clocked : SessionsKept v clocks := .forEach fun i t => (t.barRestart_sessions i).trans (.of_moves State.modLcg_moves)
      exact clocked.trans (.forEach fun u t => .of_moves State.modUnit_moves)
    · exact .forEach fun n t => .of_moves State.engineReset_moves
    · rfl
    · exact (restarted _ v).trans (.forRange fun i t => .of_moves State.modBar_moves)
    · exact .forEach fun l t => .ite .refl ((t.laneSilent_sessions l).trans (.of_moves State.modLane_moves))
    · exact (SessionsKept.of_moves State.measAbandon_moves : SessionsKept v measured).trans rfl
    · exact .forEach fun p t => .of_moves State.camReset_moves
    · rfl
    · rfl
    · exact State.withRelease_sessions (.of_moves State.mirBlockReset_moves)
    · exact .refl
  have cleared : SessionsKept w (w.clearObjs (blockObject b)) := .of_moves State.clearObjs_moves
  exact (shown.trans unitReset).trans (cleared.trans (.of_moves State.delaysChanged_moves))

theorem State.resetRequest_sessions (s : State) (v : Nat) : DoneKeepsSessions s (s.resetRequest v) := by
  unfold State.resetRequest
  exact .ite (.ok (.of_moves State.modPwr_moves)) (.ite (.ok (s.blockReset_sessions _ _ _)) .error)

/-! Commits and writes. -/

theorem State.areaLive_sessions (s : State) (area old : Nat) (staged : List (Nat × Val)) :
    SessionsKept s (s.areaLive area old staged) := by
  unfold State.areaLive
  refine .ite (.of_moves State.domainChanged_moves) (.ite (.forRange fun u t => .ite ?_ .refl) .refl)
  have taken : SessionsKept t (t.unitTakeUp u) := .of_moves State.unitTakeUp_moves
  exact .ite (taken.trans (State.unitRestarts_sessions _ u)) taken

theorem State.takeUp_sessions (s : State) (area : Nat) : SessionsKept s (s.takeUp area) := by
  unfold State.takeUp
  extract_lets old mine ports u later v w x y z z'
  have done : ∀ {t : State}, SessionsKept s t → SessionsKept s ((t.barsTakeUp area).commitDone area) := fun h =>
    (h.trans (State.barsTakeUp_sessions ..)).trans (State.commitDone_sessions ..)
  refine .ite (s.commitDone_sessions area) (.ite ?_ (.ite ?_ (.ite ?_ (.ite ?_ ?_))))
  · exact (s.modAdm_sessions ..).trans (.forRange fun p t => .ite .refl (t.portAtOnce_sessions p))
  · exact .ite .refl s.takeUpWeb_sessions
  · exact .ite (s.liveWhere_sessions _) (done (s.liveWhere_sessions _))
  · have live : SessionsKept s x := (s.liveWhere_sessions _).trans (State.areaLive_sessions ..)
    exact .ite (done live) ((live.trans (x.modAdm_sessions ..)).trans (.forRange fun b t => .ite .refl (t.takeUpBar_sessions ..)))
  · have live : SessionsKept s z := (s.liveWhere_sessions _).trans (State.areaLive_sessions ..)
    exact done (.ite (live.trans (.of_moves State.lanesSpare_moves)) live)

theorem State.stage_sessions (s : State) (area gen : Nat) : SessionsKept s (s.stage area gen) := rfl

theorem State.commitRequest_sessions (s : State) (area gen : Nat) : SessionsKept s (s.commitRequest area gen).2 := by
  unfold State.commitRequest
  extract_lets a mine u v
  split
  · exact .refl
  split
  · exact .ite .refl (s.modAdm_sessions ..)
  split
  · exact .refl
  split
  · exact .refl
  split
  · exact s.modAdm_sessions ..
  · have staged : SessionsKept s u := s.stage_sessions ..
    have told : SessionsKept s v := .ite (staged.trans (.of_moves State.linkSend_moves)) staged
    exact told.trans (v.takeUp_sessions area)

theorem State.cyclicControl_sessions (s : State) (x : Session) (n : Nat) : DoneKeepsSessions s (s.cyclicControl x n) := by
  unfold State.cyclicControl
  exact .ite .error (.ok rfl)

theorem hookDic_sessions (s : State) (x : Session) (idx sub : Nat) (v : Val) : HookKeepsSessions s (hookDic x idx sub v s) := by
  unfold hookDic
  extract_lets n w tag
  split
  · exact .some (.ok rfl)
  · exact .some (.ok rfl)
  · exact .some (.ok rfl)
  · exact .some (.ok rfl)
  iterate 4 exact .some (.of_moves State.waveWrite_moves)
  iterate 2 exact .some (.ite .error (.ok rfl))
  iterate 2 exact .some (.ite (.ok rfl) .error)
  · exact .some (s.cyclicControl_sessions x n)
  · exact .none

theorem hookPower_sessions (s : State) (idx sub : Nat) (v : Val) : HookKeepsSessions s (hookPower idx sub v s) := by
  unfold hookPower
  extract_lets n
  split
  · exact .some (s.stateRequest_sessions n)
  · exact .some (.of_moves State.domainRequest_moves)
  · exact .some (s.resetRequest_sessions n)
  · exact .some (.ite (.ok rfl) .error)
  · exact .none

theorem hookSne_sessions (s : State) (idx sub : Nat) (v : Val) : HookKeepsSessions s (hookSne idx sub v s) := by
  unfold hookSne
  extract_lets b
  split
  · exact .ite (.some .error) (.some (.ok ((SessionsKept.of_moves State.mapCommitted_moves).after rfl)))
  · exact .ite (.some .error) .none
  · exact .none

theorem hookHdg_sessions (s : State) (idx sub : Nat) (v : Val) : HookKeepsSessions s (hookHdg idx sub v s) := by
  unfold hookHdg
  split
  · refine .ite ?_ .none
    split
    · exact .some s.measStart_sessions
    · exact .some (.ok (.of_moves State.measAbandon_moves))
    · exact .some s.measBaseline_sessions
    · exact .none
  · exact .some (.ite (s.pendingApply_sessions _) (.ok .refl))
  · exact .none

theorem hookVis_sessions (s : State) (idx sub : Nat) (v : Val) : HookKeepsSessions s (hookVis idx sub v s) := by
  unfold hookVis
  extract_lets p
  split
  · exact .some (s.portEnable_sessions p _)
  · exact .ite (.some .error) .none
  · exact .some (.of_moves State.cciCommand_moves)
  · exact .some (.ok rfl)
  iterate 2 exact .some (.ite (.ok rfl) .error)
  · exact .none

theorem hook_sessions (s : State) (x : Session) (idx sub : Nat) (v : Val) : HookKeepsSessions s (hook x idx sub v s) := by
  unfold hook
  split
  iterate 2 exact hookDic_sessions s x idx sub v
  · exact hookPower_sessions s idx sub v
  · exact .of_moves hookNetwork_moves
  iterate 2 exact .of_moves hookTime_moves
  iterate 2 exact .of_moves hookRaster_moves
  · exact .of_moves hookMemory_moves
  iterate 2 exact .of_moves hookPos_moves
  · exact hookSne_sessions s idx sub v
  · exact .of_moves hookChe_moves
  · have own := hookDic_sessions s x idx sub v
    cases e : hookDic x idx sub v s with
    | none => exact .of_moves hookHeads_moves
    | some r => rwa [e] at own
  · exact .of_moves hookHeads_moves
  · exact hookHdg_sessions s idx sub v
  · exact hookVis_sessions s idx sub v
  iterate 2 exact .of_moves hookFaults_moves
  · exact .of_moves hookThermal_moves
  · exact .of_moves hookMir_moves
  · exact .none

/-- A write leaves every session as it was (R73, R75). -/
theorem State.applyWrite_sessions (s : State) (x : Session) (d : Desc) (idx sub : Nat) (v : Val) :
    SessionsKept s (s.applyWrite x d idx sub v).2 := by
  unfold State.applyWrite
  split
  · exact s.commitRequest_sessions ..
  split
  · exact .refl
  next t e => exact hook_sessions s x idx sub v t e
  · split
    · rfl
    · exact s.makeLive_sessions ..

end Sys2Proof.Machine
end

section
/-! What each step does: the front command, or the tick and what it serves (R88, R247, R266). -/

set_option Elab.async false

namespace Sys2Proof.Machine

variable {s t : State} {c : Instr}

/-! One step. -/

theorem step_idle (h : s.pending = []) : step s = .next s.idle.served := by
  unfold step
  rw [h]

theorem step_command {rest : List Instr} (h : s.pending = c :: rest) : step s = exec c (s.withPending rest) := by
  unfold step
  rw [h]

/-- No coverage record is staged: none is written. -/
theorem State.covDrain_empty {n b : Nat} (h : (s.bar b).staging = []) : State.covDrain n b s = s := by
  cases n with
  | zero => rfl
  | succ n =>
    unfold State.covDrain
    rw [h]

theorem State.covDrainAll_empty (h : ∀ b, b < 8 → (s.bar b).staging = []) : s.covDrainAll = s :=
  forRange_keeps (P := (· = s)) (fun b hb t e => by subst e; exact State.covDrain_empty (h b hb)) rfl

theorem State.served_quiet (hl : s.on domHLK = false) (hn : s.on domNET = false) (hb : ∀ b, b < 8 → (s.bar b).staging = []) :
    s.served = s := by
  have lanes : s.serveLanes = s := by
    unfold State.serveLanes
    rw [hl]
    rfl
  have ports : s.serveEgress = s := if_neg (by simp [hn])
  unfold State.served
  rw [lanes, State.covDrainAll_empty hb, ports]

/-- The parts that a tick may change. -/
def tickParts : List StatePart := [.tick, .fresh, .sent, .objs, .flt, .bbx, .wilwa, .net, .mem, .dram, .fsq, .hlk, .hdg]

theorem State.idle_served_moves : Moves tickParts s s.idle.served := .after State.served_moves State.idle_moves.mono

/-- Settles O1: a step is the front command's, or the tick with what it serves. -/
theorem stepTakesTheFrontCommand : Obligations.StepTakesTheFrontCommand := by
  unfold Obligations.StepTakesTheFrontCommand
  refine ⟨fun s c rest h => step_command h, fun s h => ⟨_, step_idle h, ?_, State.idle_served_moves.only⟩, fun s h hl hn hb => ?_⟩
  · exact State.served_moves.same .tick
  · rw [step_idle h, State.served_quiet (s := s.idle) hl hn hb]
    rfl

/-- Settles O4: nothing is listed and no session is open. -/
theorem conditionsHoldAtReset : Obligations.ConditionsHoldAtReset :=
  ⟨Memory.wf_nil, State.seatsOk_nil (Wilwa.start_seats rfl), rfl⟩

/-- Settles O6: the tick and every command but a Proof keep levels (`exec_moves`). -/
theorem onlyAProofRaisesALevel : Obligations.OnlyAProofRaisesALevel := by
  intro s t hp e
  cases q : s.pending with
  | nil =>
    rw [step_idle q] at e
    exact (Host.Outcome.next.inj e ▸ State.idle_served_moves : Moves tickParts s t).levels
  | cons c rest =>
    rw [step_command q] at e
    have hc : ∀ h p, c ≠ .proof h p := fun h p k => hp h p rest (k ▸ q)
    exact (MovesO.of_next e (exec_moves hc)).levels

theorem step_seatsOk (h : s.SeatsOk) (e : step s = .next t) : t.SeatsOk := by
  cases q : s.pending with
  | nil =>
    rw [step_idle q] at e
    exact (Host.Outcome.next.inj e ▸ State.idle_served_moves : Moves tickParts s t).seats h
  | cons c rest =>
    rw [step_command q] at e
    exact (exec_keeps e).seats h

end Sys2Proof.Machine
end

section
/-! How every message is handled: as a request with its response, or as a notice that nothing answers (R58, R62). -/

set_option Elab.async false

namespace Sys2Proof.Machine

variable {s t u : State} {h : Hdr} {x : Session} {c : Instr} {k ty code : Nat} {p : Bytes} {run : Session → State → Answer}
  {after : State → State}

/-- A session that is open before is open after. -/
def StaysOpen (k : Nat) (s t : State) : Prop := (s.session k).isSome = true → (t.session k).isSome = true

theorem StaysOpen.refl : StaysOpen k s s := id

theorem SessionsKept.staysOpen (h : SessionsKept s t) : StaysOpen k s t := fun o => by rwa [State.session_congr h]

theorem State.modSession_staysOpen {i : Nat} {f : Session → Session} (hf : ∀ x, (f x).sid = x.sid) :
    StaysOpen k s (s.modSession i f) := fun o => by rwa [State.session_modSession hf, Option.isSome_map]

theorem StaysOpen.trans (h : StaysOpen k s t) (g : StaysOpen k t u) : StaysOpen k s u := fun o => g (h o)

/-! Transfers (R77, R78). -/

/-- The uploads opened beyond the first `n` transfers go on (R77). -/
def State.pumpFrom (n : Nat) (u : State) : State := forEach (u.wilwa.transfers.drop n) (fun t s => s.pump t) u

theorem State.pumpFrom_none {n : Nat} (h : s.wilwa.transfers.length ≤ n) : s.pumpFrom n = s := by
  unfold State.pumpFrom
  rw [List.drop_eq_nil_of_le h]
  rfl

theorem State.sendSegments_sessions (fuel : Nat) (x : Session) (tid : Nat) (s : State) :
    SessionsKept s (State.sendSegments fuel x tid s) := by
  induction fuel generalizing s with
  | zero => exact .refl
  | succ fuel ih =>
    unfold State.sendSegments
    split
    · exact .refl
    · exact .ite .refl ((ih _).after rfl)

theorem State.pump_sessions (s : State) (r : Transfer) : SessionsKept s (s.pump r) := by
  unfold State.pump
  split
  · exact .refl
  · exact .ite .refl (.ite ((State.dropTransfer_sessions _ _).after rfl) (State.sendSegments_sessions ..))

theorem State.pumpFrom_sessions (n : Nat) (s : State) : SessionsKept s (s.pumpFrom n) := .forEach fun r t => t.pump_sessions r

theorem State.transferEnd_sessions (s : State) (x : Session) (tid crc : Nat) : SessionsKept s (s.transferEnd x tid crc).2 := by
  unfold State.transferEnd
  split
  · exact .refl
  split
  · exact .refl
  split
  · exact .refl
  extract_lets u
  have dropped : SessionsKept s u := s.dropTransfer_sessions tid
  split
  · exact dropped
  split
  · exact dropped
  split
  · exact dropped
  · exact dropped.trans (u.applyWrite_sessions ..)

theorem State.sendSegments_sent (fuel : Nat) (x : Session) (tid : Nat) (s : State) :
    s.sent <+: (State.sendSegments fuel x tid s).sent := by
  induction fuel generalizing s with
  | zero => exact List.prefix_rfl
  | succ fuel ih =>
    unfold State.sendSegments
    split
    · exact List.prefix_rfl
    · split
      · exact List.prefix_rfl
      · extract_lets piece u
        have grown : s.sent <+: u.sent := List.prefix_append _ _
        exact grown.trans (ih (u.modTransfer tid _))

theorem State.pump_sent (s : State) (r : Transfer) : s.sent <+: (s.pump r).sent := by
  unfold State.pump
  split
  · exact List.prefix_rfl
  split
  · exact List.prefix_rfl
  split
  · exact List.prefix_append _ _
  · exact State.sendSegments_sent ..

theorem forEach_pump_sent (l : List Transfer) (s : State) : s.sent <+: (forEach l (fun r s => s.pump r) s).sent := by
  induction l generalizing s with
  | nil => exact List.prefix_rfl
  | cons r l ih => exact (s.pump_sent r).trans (ih _)

/-- What a TransferInit comes to in its session (R77). -/
def initAnswer (idx sub dir total : Nat) (x : Session) (s : State) : Answer :=
  if 1 < dir then { type := 0x15, status := 0x10010100, payload := [], state := s }
  else s.transferInit x idx sub total (dir == 0)

theorem State.transferInit_sessions (s : State) (x : Session) (idx sub total : Nat) (download : Bool) :
    SessionsKept s (s.transferInit x idx sub total download).state := by
  unfold State.transferInit
  extract_lets no
  split
  · exact .refl
  · have viewed : SessionsKept s (s.view idx sub).2 := .of_moves State.view_moves
    cases download
    · exact viewed.trans rfl
    · rfl

theorem State.transferInit_type (s : State) (x : Session) (idx sub total : Nat) (download : Bool) :
    (s.transferInit x idx sub total download).type = 0x15 := by
  unfold State.transferInit
  extract_lets no
  split <;> rfl

/-! Requests and notices. -/

/-- A command is the request of type `ty`: it is admitted, executed by `run` and answered, its session stays open unless it closes it,
and what follows its response (`after`) is nothing but for a TransferInit, where it is the upload that has been opened. -/
structure Handles (s : State) (c : Instr) (h : Hdr) (ty : Nat) (p : Bytes) (run : Session → State → Answer)
    (after : State → State) : Prop where
  runs : exec c s = .next (after (s.requestV h ty p run))
  type : ∀ x u, (run x u).type = ty + 1
  opened : ty ≠ 0x07 → ∀ x u, StaysOpen x.sid u (run x u).state
  quiet : ∀ u : State, u.wilwa.transfers.length ≤ s.wilwa.transfers.length → after u = u
  behind : ∀ u, SessionsKept u (after u) ∧ Moves [.sent, .objs, .wilwa] u (after u) ∧ u.sent <+: (after u).sent
  plain : ty ≠ 0x14 → after = id

theorem Handles.mk_plain (runs : exec c s = .next (s.requestV h ty p run)) (type : ∀ x u, (run x u).type = ty + 1)
    (opened : ty ≠ 0x07 → ∀ x u, StaysOpen x.sid u (run x u).state) : Handles s c h ty p run id where
  runs := runs
  type := type
  opened := opened
  quiet _ _ := rfl
  behind _ := ⟨.refl, .refl, List.prefix_rfl⟩
  plain _ := rfl

theorem transferInit_handles (s : State) (h : Hdr) (i : BitVec 16) (j dir : BitVec 8) (n : BitVec 32) :
    Handles s (.transferInit h i j dir n) h 0x14 (u16 i.toNat ++ u8 j.toNat ++ u8 dir.toNat ++ u32 n.toNat)
      (initAnswer i.toNat j.toNat dir.toNat n.toNat) (State.pumpFrom s.wilwa.transfers.length) where
  runs := by
    have dir0 : (dir == 0) = (dir.toNat == 0) := by
      rw [Bool.eq_iff_iff]
      simp [BitVec.toNat_eq]
    show execTransferInit h i j dir n s = _
    unfold execTransferInit
    simp only [dir0]
    rfl
  type x u := by
    unfold initAnswer
    split
    · rfl
    · exact u.transferInit_type ..
  opened _ x u := by
    unfold initAnswer
    split
    · exact .refl
    · exact (u.transferInit_sessions ..).staysOpen
  quiet u hu := u.pumpFrom_none hu
  behind u := ⟨u.pumpFrom_sessions _, .forEach .refl fun r t h => .after State.pump_moves h, forEach_pump_sent ..⟩
  plain h := absurd rfl h

/-- What a Write comes to in its session (R72). -/
def writeAnswer (idx sub opts : Nat) (value : Bytes) (x : Session) (s : State) : Answer :=
  { type := 0x13, status := (s.write x idx sub value false).1, payload := u16 idx ++ u8 sub ++ u8 opts,
    state := (s.write x idx sub value false).2 }

theorem State.write_sessions (s : State) (x : Session) (i j : Nat) (b : Bytes) (stream : Bool) :
    SessionsKept s (s.write x i j b stream).2 := by
  unfold State.write
  split
  · exact .refl
  split
  · exact s.applyWrite_sessions ..
  · exact .refl

theorem write_handles {i j o : Nat} {b : Bytes} (w : writeOf s c = some (h, i, j, o, b)) :
    Handles s c h 0x12 (u16 i ++ u8 j ++ u8 o ++ b) (writeAnswer i j o b) id :=
  .mk_plain (exec_of_writeOf w) (fun _ _ => rfl) fun _ x u => (u.write_sessions x i j b false).staysOpen

/-- What an UnlockRequest comes to in its session (R66). -/
def challengeAnswer (level : Nat) (nonce : Bytes) (x : Session) (s : State) : Answer :=
  match s.unlockError x level nonce with
  | some e => { type := 0x04, status := e, payload := [], state := s }
  | none =>
    { type := 0x04, status := 0, payload := (s.freeBytes 32).1,
      state := (s.freeBytes 32).2.modSession x.sid fun y =>
        { y with exchange := some { level := level, hostNonce := nonce, deviceNonce := (s.freeBytes 32).1 } } }

theorem unlockRequest_handles (s : State) (h : Hdr) (l : BitVec 8) (n : Bytes) :
    Handles s (.unlockRequest h l n) h 0x03 (u8 l.toNat ++ n) (challengeAnswer l.toNat n) id := by
  refine .mk_plain rfl (fun x u => ?_) fun _ x u => ?_
  all_goals unfold challengeAnswer; split
  · rfl
  · rfl
  · exact .refl
  · have fresh : SessionsKept u (u.freeBytes 32).2 := .of_moves State.freeBytes_moves
    exact fresh.staysOpen.trans (State.modSession_staysOpen fun _ => rfl)

/-- What a Proof comes to in its session (R66, R67). -/
def proofAnswer (proof : Bytes) (x : Session) (s : State) : Answer :=
  let no := fun (code : Nat) (s : State) => ({ type := 0x06, status := code, payload := [], state := s } : Answer)
  if proof.length ≠ 32 then no 0x10010100 s
  else match x.exchange with
    | none => no 0x10020900 s
    | some e =>
      let s := s.modSession x.sid fun y => { y with exchange := none }
      let cred := (s.credential e.level).getD []
      if proof != hmacSha256 cred (e.deviceNonce ++ e.hostNonce ++ u8 e.level ++ u16 x.sid ++ u64 s.fuses.serial) then
        no 0x10020400 (s.rejectProof x)
      else if s.levelHeld x.sid then no 0x10020300 s
      else { type := 0x06, status := 0, payload := u8 e.level, state := s.grant x e cred }

theorem proof_handles (s : State) (h : Hdr) (p : Bytes) : Handles s (.proof h p) h 0x05 p (proofAnswer p) id := by
  refine .mk_plain rfl (fun x u => ?_) fun _ x u => ?_
  all_goals unfold proofAnswer; extract_lets no v; split
  · rfl
  · split
    · rfl
    extract_lets cred
    split
    · rfl
    split <;> rfl
  · exact .refl
  · split
    · exact .refl
    extract_lets cred
    have ended : StaysOpen x.sid u v := State.modSession_staysOpen fun _ => rfl
    split
    · have told : SessionsKept v (v.rejectProof x) := (SessionsKept.of_moves State.authFailure_moves).after rfl
      exact ended.trans told.staysOpen
    split
    · exact ended
    · exact ended.trans (State.modSession_staysOpen fun _ => rfl)

theorem read_handles (s : State) (h : Hdr) (i : BitVec 16) (j o : BitVec 8) : ∃ run,
    Handles s (.read h i j o) h 0x10 (u16 i.toNat ++ u8 j.toNat ++ u8 o.toNat) run id := by
  refine ⟨_, .mk_plain rfl (fun x u => ?_) fun _ x u => ?_⟩
  all_goals split
  · rfl
  · rfl
  · exact .refl
  next b v e =>
    have read : SessionsKept u v := .of_moves (MovesF.of_eq e State.read_moves)
    exact read.staysOpen

theorem describe_handles (s : State) (h : Hdr) (i : BitVec 16) (j o : BitVec 8) : ∃ run,
    Handles s (.describe h i j o) h 0x1C (u16 i.toNat ++ u8 j.toNat ++ u8 o.toNat) run id := by
  refine ⟨_, .mk_plain rfl (fun x u => ?_) fun _ x u => ?_⟩
  · split <;> rfl
  · split <;> exact .refl

/-- Every message that is answered is a request. -/
theorem handles_of_messageOf (e : messageOf s c = some (h, ty, p, true)) : ∃ run after, Handles s c h ty p run after := by
  unfold messageOf at e
  split at e
  case h_14 =>
    obtain ⟨⟨h', i, j, o, b⟩, w, e⟩ := Option.map_eq_some_iff.1 e
    cases e
    exact ⟨_, _, write_handles w⟩
  all_goals cases e
  · exact ⟨_, _, unlockRequest_handles ..⟩
  · exact ⟨_, _, proof_handles ..⟩
  · exact ⟨_, _, .mk_plain rfl (fun x u => rfl) fun h => absurd rfl h⟩
  · exact ⟨_, _, .mk_plain rfl (fun x u => rfl) fun _ x u => .refl⟩
  · exact (read_handles ..).imp fun _ H => ⟨_, H⟩
  · exact (describe_handles ..).imp fun _ H => ⟨_, H⟩
  · exact ⟨_, _, transferInit_handles ..⟩
  · exact ⟨_, _, .mk_plain rfl (fun x u => rfl) fun _ x u => (u.transferEnd_sessions ..).staysOpen⟩

/-- Every message that is never answered is a notice. -/
theorem notice_of_messageOf (e : messageOf s c = some (h, ty, p, false)) : ∃ run, exec c s = .next (s.notice h ty p run) := by
  unfold messageOf at e
  split at e
  case h_14 =>
    obtain ⟨⟨h', i, j, o, b⟩, w, e⟩ := Option.map_eq_some_iff.1 e
    cases e
  all_goals cases e
  all_goals exact ⟨_, rfl⟩

end Sys2Proof.Machine
end

section
/-! Requests that are refused: what they leave as it was, and the items of R72 in their order (R62, R65, R72). -/

set_option Elab.async false

namespace Sys2Proof.Machine

variable {s t : State} {h : Hdr} {x : Session} {c : Instr} {ty code : Nat} {p : Bytes} {run : Session → State → Answer}
  {after : State → State}

/-- A request that comes to a code and leaves the state alone: nothing but its session and the response changes. -/
theorem Handles.refused {type : Nat} {b : Bytes} (H : Handles s c h ty p run after) (a : Accepted s h ty p x)
    (r : run x.now (s.heard x.sid) = { type := type, status := code, payload := b, state := s.heard x.sid }) :
    Refused c h type code s := by
  have e := H.runs
  rw [a.requestV, r] at e
  generalize ht : Answer.finish _ x.now h.seq.toNat = t at e
  have transfers : t.wilwa.transfers = s.wilwa.transfers := ht ▸ rfl
  rw [H.quiet t (by rw [transfers])] at e
  subst ht
  refine ⟨_, e, Answer.finish_answered _ _ _, rfl, rfl, ?_, ?_⟩
  · rw [Answer.finish_seats]
    exact s.heard_seats _
  · exact ((s.heard_only _).mono (by decide)).trans ((Answer.finish_only _ _ _).mono (by decide))

/-- A Write that comes to a code and leaves the state alone is refused with it. -/
theorem Accepted.writeRefused {i j o : Nat} {b : Bytes} (a : Accepted s h 0x12 (u16 i ++ u8 j ++ u8 o ++ b) x)
    (w : writeOf s c = some (h, i, j, o, b)) (e : (s.heard x.sid).write x.now i j b false = (code, s.heard x.sid)) :
    Refused c h 0x13 code s :=
  (write_handles w).refused (b := u16 i ++ u8 j ++ u8 o) a (by unfold writeAnswer; rw [e])

/-- What R72 speaks against is refused with its code. -/
theorem Accepted.writeError_refused {i j o : Nat} {b : Bytes} (a : Accepted s h 0x12 (u16 i ++ u8 j ++ u8 o ++ b) x)
    (w : writeOf s c = some (h, i, j, o, b)) (e : (s.heard x.sid).writeError x.now i j b false = some code) :
    Refused c h 0x13 code s :=
  a.writeRefused w (by unfold State.write; rw [e])

/-! The items of R72, one after the other. -/

section Items
variable {i j : Nat} {b : Bytes} {d : Desc} {stream : Bool}

/-- Having been heard from is no part of what R72 looks at. -/
theorem State.heard_writeError (s : State) (k : Nat) (x : Session) (i j : Nat) (b : Bytes) (stream : Bool) :
    (s.heard k).writeError x i j b stream = s.writeError x i j b stream := rfl

theorem missing_eq (i : Nat) :
    missing i = abort i (if indexInMap i = true ∧ (topSub i).isSome = true then 0x60200 else 0x60100) := by
  unfold missing
  by_cases hm : indexInMap i = true ∧ (topSub i).isSome = true <;> simp [hm]

/-- Item 1: the object is missing. -/
theorem State.writeError_missing (hd : findDesc i j = none) : s.writeError x i j b stream = some (missing i) := by
  unfold State.writeError
  rw [hd]

theorem sessionAllows_version {n : Nat} (hv : indexInVersion x.version i = false) : sessionAllows x i n = some 0x10020800 :=
  if_pos (by simp [hv])

theorem sessionAllows_level {n : Nat} (hv : indexInVersion x.version i = true) (hl : x.level < n) :
    sessionAllows x i n = some 0x10020600 :=
  (if_neg (by simp [hv])).trans (if_pos hl)

theorem sessionAllows_none {n : Nat} (hv : indexInVersion x.version i = true) (hl : n ≤ x.level) : sessionAllows x i n = none :=
  (if_neg (by simp [hv])).trans (if_neg (by omega))

/-- Item 2: the session's version and level. -/
theorem State.writeError_session (hd : findDesc i j = some d) (ha : sessionAllows x i d.level = some code) :
    s.writeError x i j b stream = some code := by
  unfold State.writeError
  rw [hd]
  simp [ha]

/-- Item 3: access and type. -/
theorem State.writeError_readOnly (hd : findDesc i j = some d) (ha : sessionAllows x i d.level = none) (hr : d.acc = .ro) :
    s.writeError x i j b stream = some (abort i 0x60300) := by
  unfold State.writeError
  rw [hd]
  simp [ha, hr]

theorem State.writeError_domain (hd : findDesc i j = some d) (ha : sessionAllows x i d.level = none) (hr : d.acc ≠ .ro)
    (ht : d.ty = .domain) : s.writeError x i j b stream = some (abort i 0x60700) := by
  unfold State.writeError
  rw [hd]
  simp [ha, hr, ht]

/-- Items 4 to 8: what speaks against the value, the domain and the moment. -/
theorem State.writeError_value (hd : findDesc i j = some d) (ha : sessionAllows x i d.level = none) (hr : d.acc ≠ .ro)
    (ht : d.ty ≠ .domain) : s.writeError x i j b stream =
      (s.valueError d i j b).orElse fun _ => (s.domainError i j).orElse fun _ => s.momentError d i j stream := by
  unfold State.writeError
  rw [hd]
  simp [ha, hr, ht]

theorem State.valueError_length (hl : d.lengthOk b = false) : s.valueError d i j b = some (abort i 0x60500) :=
  if_pos (by simp [hl])

theorem State.valueError_range (hl : d.lengthOk b = true) (hv : s.valueOk d i j (d.value b) = false) :
    s.valueError d i j b = some (abort i 0x60600) :=
  (if_neg (by simp [hl])).trans (if_pos (by simp [hv]))

theorem State.valueError_none (hl : d.lengthOk b = true) (hv : s.valueOk d i j (d.value b) = true) : s.valueError d i j b = none :=
  (if_neg (by simp [hl])).trans (if_neg (by simp [hv]))

theorem State.domainError_off (ho : s.on (objDomain i j) = false) : s.domainError i j = some (abort i (0x4F000 + objDomain i j)) :=
  if_neg (by simp [ho])

theorem State.domainError_none (ho : s.on (objDomain i j) = true) : s.domainError i j = none := if_pos ho

theorem State.classError_stopped (hc : d.cls = .stopped) (hr : s.stoppedRuns i j = true) :
    s.classError d i j = some (abort i 0x30200) := if_pos ⟨hc, hr⟩

theorem State.classError_none (hc : d.cls = .stopped → s.stoppedRuns i j = false) : s.classError d i j = none :=
  if_neg fun ⟨k, r⟩ => by simp [hc k] at r

theorem State.momentError_stopped (hc : d.cls = .stopped) (hr : s.stoppedRuns i j = true) :
    s.momentError d i j stream = some (abort i 0x30200) := by
  unfold State.momentError
  rw [State.classError_stopped hc hr]
  rfl

theorem State.momentError_mapped (hc : d.cls = .stopped → s.stoppedRuns i j = false) (hm : s.rxMapped i j = true) :
    s.momentError d i j false = some (abort i 0x50200) := by
  unfold State.momentError
  rw [State.classError_none hc]
  simp [hm]

end Items

/-- Settles O22: each item of R72 with the earlier ones passed (`writeError_…`), refused as every Write is. -/
theorem writesAreCheckedInOrder : Obligations.WritesAreCheckedInOrder := by
  unfold Obligations.WritesAreCheckedInOrder
  refine ⟨fun s h i j o b x a hd => ?_, fun s h i j o b x d a hd => ⟨fun hv => ?_, fun hv hl => ?_⟩,
    fun s h i j o b x d a hd hv hl => ⟨fun hr => ?_, fun hr ht => ?_⟩,
    fun s h i j o b x d a hd hv hl hr ht => ?_⟩
  · rw [← missing_eq]
    exact a.writeError_refused rfl (State.writeError_missing hd)
  · exact a.writeError_refused rfl (State.writeError_session hd (sessionAllows_version hv))
  · exact a.writeError_refused rfl (State.writeError_session hd (sessionAllows_level hv hl))
  · exact a.writeError_refused rfl (State.writeError_readOnly hd (sessionAllows_none hv hl) hr)
  · exact a.writeError_refused rfl (State.writeError_domain hd (sessionAllows_none hv hl) hr ht)
  · have items := s.writeError_value (x := x.now) (b := b) (stream := false) hd (sessionAllows_none hv hl) hr ht
    refine ⟨fun hb => ?_, fun hb hq => ?_, fun hb hq ho => ?_, fun hb hq ho hc hs => ?_, fun hb hq ho hc hm => ?_⟩
    all_goals refine a.writeError_refused rfl ((s.heard_writeError ..).trans (items.trans ?_))
    · rw [State.valueError_length hb]
      rfl
    · rw [State.valueError_range hb hq]
      rfl
    · rw [State.valueError_none hb hq, State.domainError_off ho]
      rfl
    · rw [State.valueError_none hb hq, State.domainError_none ho, State.momentError_stopped hc hs]
      rfl
    · rw [State.valueError_none hb hq, State.domainError_none ho, State.momentError_mapped hc hm]
      rfl

/-! Levels (R65). -/

theorem State.levelHeld_of_not_free (h : ¬ LevelFree s x) : s.levelHeld x.sid = true := by
  unfold LevelFree at h
  push Not at h
  obtain ⟨y, hy, hs, hl⟩ := h
  exact List.any_eq_true.2 ⟨y, hy, by simp [hs, Nat.pos_of_ne_zero hl]⟩

theorem State.levelHeld_of_free (h : LevelFree s x) : s.levelHeld x.sid = false := by
  refine List.any_eq_false.2 fun y hy => ?_
  by_cases hs : y.sid = x.sid
  · simp [hs]
  · simp [h y hy hs]

/-- A change of a session that keeps its level gives and takes none. -/
theorem LevelFree.modSession {i : Nat} {f : Session → Session} (hf : ∀ y, (f y).sid = y.sid ∧ (f y).level = y.level) :
    LevelFree (s.modSession i f) x ↔ LevelFree s x := by
  unfold LevelFree
  rw [State.openSessions_modSession]
  simp only [List.forall_mem_map]
  refine forall₂_congr fun y _ => ?_
  rw [Session.changed_sid (fun z => (hf z).1)]
  unfold Session.changed
  split
  · rw [(hf y).2]
  · rfl

/-- Hearing from a session gives and takes no level. -/
theorem LevelFree.heard (i : Nat) : LevelFree (s.heard i) x ↔ LevelFree s x :=
  LevelFree.modSession fun _ => ⟨rfl, rfl⟩

/-- Settles O5: every step keeps the sessions' seats (`exec_keeps`), and what asks for a level that another session holds, or that its
own does not reach, is refused. -/
theorem oneSessionHoldsALevel : Obligations.OneSessionHoldsALevel := by
  unfold Obligations.OneSessionHoldsALevel
  refine ⟨fun s t => step_seatsOk, fun s h l n x a hn hl hv ho hf => ?_, fun s c h i j o b x d w a hd hv hl => ?_,
    fun s h i j n x d a hd hv hl => ?_⟩
  · have held : (s.heard x.sid).levelHeld x.sid = true :=
      State.levelHeld_of_not_free fun free => hf ((LevelFree.heard x.sid).1 free)
    have wrong : ¬ (n.length ≠ 32 ∨ (l.toNat ≠ 1 ∧ l.toNat ≠ 2)) := by omega
    have old : ¬ (x.version = 1 ∧ l.toNat = 2) := fun ⟨v, k⟩ => by simp [hv v] at k
    have e : (s.heard x.sid).unlockError x.now l.toNat n = some 0x10020300 :=
      (if_neg wrong).trans ((if_neg old).trans ((if_neg (by simp [State.heard, State.modSession, ho])).trans (if_pos held)))
    exact (unlockRequest_handles s h l n).refused a (by unfold challengeAnswer; rw [e])
  · exact a.writeError_refused w (State.writeError_session hd (sessionAllows_level hv hl))
  · refine (transferInit_handles s h i j 0 n).refused a (b := []) ?_
    have e : (s.heard x.sid).initError x.now i.toNat j.toNat true = some 0x10020600 := by
      unfold State.initError
      rw [hd]
      simp [sessionAllows_level (x := x.now) hv hl]
    show (s.heard x.sid).transferInit x.now i.toNat j.toNat n.toNat true = _
    unfold State.transferInit
    rw [e]
    rfl

end Sys2Proof.Machine
end

section
/-! Sessions that open: the identifier, the slot and the response (R60). -/

set_option Elab.async false

namespace Sys2Proof.Machine

variable {s t u : State} {h : Hdr} {x y : Session} {vs : Bytes} {e : BitVec 8} {v : Nat}

/-- A response that is sent is the last thing sent. -/
theorem State.sendDgram_answered (s : State) (d : Dgram) (hb : bit d.flags 0 = true) :
    Answered (s.sendDgram d) d.msgType d.status d.seq := ⟨_, s.sendDgram_last d, rfl, rfl, rfl, hb⟩

/-- A response in a session, tagged or not, has bit 0 of its flags set (R57). -/
theorem sessionDgram_response (x : Session) (ty seq status : Nat) (p : Bytes) (cyclic : Bool) :
    bit (sessionDgram x ty seq 1 status p cyclic).flags 0 = true := by
  show bit (1 + (if x.sessKey.isSome then 2 else 0)) 0 = true
  split <;> decide

/-! Interrupt causes (R82). -/

theorem State.irq_num (s : State) (i : Nat) : (s.irq i).num 0x1050 1 = s.num 0x1050 1 ||| 2 ^ i := State.num_setNum_self ..

theorem State.irq_bit (s : State) (i : Nat) : bit ((s.irq i).num 0x1050 1) i = true := by
  rw [State.irq_num, bit_eq_testBit, Nat.testBit_or, Nat.testBit_two_pow_self, Bool.or_true]

/-! Identifiers and slots. -/

theorem State.freeId_range {used : List Nat} {lo n : Nat} (hn : 0 < n) :
    lo ≤ (s.freeId used lo n).1 ∧ (s.freeId used lo n).1 < lo + n := by
  generalize hj : (s.freeId used lo n).1 = j
  unfold State.freeId at hj
  dsimp only at hj
  generalize hk : (s.freeBelow n).1 = k at hj
  cases found : ((List.range (used.length + 1)).map fun i => lo + (k + i) % n).find? (fun i => !used.contains i) with
  | none =>
    rw [found] at hj
    subst hj
    exact ⟨Nat.le_refl _, Nat.lt_add_of_pos_right hn⟩
  | some j' =>
    rw [found] at hj
    obtain ⟨i, -, e⟩ := List.mem_map.1 (List.mem_of_find?_eq_some found)
    subst hj e
    exact ⟨Nat.le_add_right _ _, Nat.add_lt_add_left (Nat.mod_lt _ hn) _⟩

/-- A session put where a slot is free stands beside those that were open. -/
theorem putSession_free {l : Vector (Option Session) 4} (hl : (l.toList.filterMap id).length < 4) :
    ((putSession l x).toList.filterMap id).Perm (x :: l.toList.filterMap id) := by
  unfold putSession
  split
  next i found =>
    have slot : i < 4 := List.mem_range.1 (List.mem_of_find?_eq_some found)
    have empty := List.find?_some found
    rw [vget_eq_getElem _ _ slot] at empty
    rw [vmod_toList]
    refine filterMap_set_none _ _ _ ?_
    rw [List.getElem?_eq_getElem (by simpa using slot)]
    simpa using empty
  next full =>
    have taken : ∀ o ∈ l.toList, (id o).isSome = true := by
      intro o ho
      obtain ⟨i, hi, rfl⟩ := List.getElem_of_mem ho
      have hi' : i < 4 := by simpa using hi
      have := List.find?_eq_none.1 full i (List.mem_range.2 hi')
      rw [vget_eq_getElem _ _ hi'] at this
      simpa [Option.isSome_iff_ne_none] using this
    rw [List.length_filterMap_eq_countP, List.countP_eq_length.2 taken, Vector.length_toList] at hl
    exact absurd hl (by decide)

/-- What a new session leaves of those that were open. -/
theorem State.mem_putSession {w : Wilwa} (hw : w.sessions = putSession s.wilwa.sessions x) (hn : s.openSessions.length < 4) :
    y ∈ ({ s with wilwa := w } : State).openSessions ↔ y = x ∨ y ∈ s.openSessions := by
  unfold State.openSessions at *
  simp only [hw]
  rw [(putSession_free hn).mem_iff, List.mem_cons]

/-! The OpenRequest (R60). -/

/-- The identifier that the next session gets. -/
def State.newSid (s : State) : Nat := (s.freeId (s.openSessions.map (·.sid)) 1 0xFFFE).1

theorem State.newSid_fresh (s : State) : s.newSid ∉ s.openSessions.map (·.sid) :=
  State.freeId_notMem (by have := s.openSessions_length; rw [List.length_map]; omega)

theorem State.newSid_range (s : State) : 1 ≤ s.newSid ∧ s.newSid ≤ 0xFFFE := by
  have range : 1 ≤ s.newSid ∧ s.newSid < 1 + 0xFFFE := State.freeId_range (by omega)
  omega

/-- The session that an OpenRequest opens, before its response is stored. -/
def State.newSession (s : State) (h : Hdr) (v : Nat) (emergency : Bool) : Session :=
  { sid := s.newSid, src := h.src, version := v, level := 0, emergency := emergency, seq := h.seq.toNat, openSeq := h.seq.toNat,
    stored := none, openResp := none, heard := false, exchange := none, sessKey := none, unacked := [] }

/-- The OpenResponse. -/
def State.openResponse (s : State) (h : Hdr) (v : Nat) (emergency : Bool) : Dgram :=
  sessionDgram (s.newSession h v emergency) 0x02 h.seq.toNat 1 0 (u8 v ++ u16 s.newSid ++ u64 s.fuses.serial) false

/-- The session as it is opened. -/
def State.opened (s : State) (h : Hdr) (v : Nat) (emergency : Bool) : Session :=
  { s.newSession h v emergency with
    stored := some (s.openResponse h v emergency), openResp := some (s.openResponse h v emergency) }

theorem State.openSession_eq (s : State) (h : Hdr) (v : Nat) (em : Bool) : s.openSession h v em =
    (({ s with fresh := s.fresh + 1,
               wilwa := { s.wilwa with sessions := putSession s.wilwa.sessions (s.opened h v em) } } : State).sendDgram
      (s.openResponse h v em)).irq 4 := rfl

theorem State.mem_openSession {em : Bool} (hn : s.openSessions.length < 4) :
    y ∈ (s.openSession h v em).openSessions ↔ y = s.opened h v em ∨ y ∈ s.openSessions :=
  State.mem_putSession (s := { s with fresh := s.fresh + 1 }) rfl hn

theorem State.openSession_session {em : Bool} (hn : s.openSessions.length < 4) :
    (s.openSession h v em).session s.newSid = some (s.opened h v em) := by
  cases found : (s.openSession h v em).session s.newSid with
  | none => exact absurd rfl (State.session_none_iff.1 found _ ((State.mem_openSession hn).2 (.inl rfl)))
  | some z =>
    rcases (State.mem_openSession hn).1 (State.session_mem found) with rfl | old
    · rfl
    · exact absurd (List.mem_map.2 ⟨z, old, State.session_sid found⟩) s.newSid_fresh

theorem State.openSession_answered (s : State) (h : Hdr) (v : Nat) (em : Bool) :
    Answered (s.openSession h v em) 0x02 0 h.seq.toNat := by
  exact State.sendDgram_answered _ (s.openResponse h v em) (sessionDgram_response ..)

/-- An OpenRequest that is well formed and served. -/
structure OpenFormed (s : State) (h : Hdr) (vs : Bytes) (e : BitVec 8) : Prop where
  serves : s.serves = true
  address : s.ownAddress h.dst = true
  header : headerOk h (u8 vs.length ++ vs ++ u8 e.toNat) = true
  version : h.version = 0
  sid : h.sid = 0
  emergency : e.toNat ≤ 1
  length : vs.length ≤ 255

/-- The session that a retransmitted OpenRequest has opened. -/
def State.openedBy (s : State) (h : Hdr) : Option Session :=
  s.openSessions.find? fun x => bit h.flags.toNat 2 && x.src == h.src && x.openSeq == h.seq.toNat && !x.heard

/-- The highest version that a list of versions has in common with the device. -/
def commonVersion (vs : Bytes) : Option Nat := [3, 2, 1].find? fun v => vs.contains (BitVec.ofNat 8 v)

/-- A refusal of an OpenRequest. -/
def State.openRefused (s : State) (h : Hdr) (code : Nat) : State := s.sendDgram (strayDgram { h with sid := 0 } 0x02 code [])

theorem State.openRefused_answered (s : State) (h : Hdr) (code : Nat) : Answered (s.openRefused h code) 0x02 code h.seq.toNat :=
  State.sendDgram_answered _ _ (show bit 1 0 = true by decide)

theorem State.openRefused_only (s : State) (h : Hdr) (code : Nat) : Only [.sent] s (s.openRefused h code) :=
  State.sendDgram_moves.only

theorem OpenFormed.exec (w : OpenFormed s h vs e) : exec (.openRequest h vs e) s =
    match (s.openedBy h).bind (·.openResp), commonVersion vs with
    | some d, _ => .next (s.sendDgram d)
    | none, none => .next (s.openRefused h 0x10020100)
    | none, some v => if s.openSessions.length = 4 then .next (s.openRefused h 0x10020200) else .next (s.openSession h v (e == 1)) := by
  have served : ¬ (!s.serves || !s.ownAddress h.dst) = true := by simp [w.serves, w.address]
  have formed : ¬ (!headerOk h (u8 vs.length ++ vs ++ u8 e.toNat) || h.version != 0 || h.sid != 0 || decide (1 < e.toNat) ||
      decide (255 < vs.length)) = true := by
    rw [w.header, w.version, w.sid, decide_eq_false (Nat.not_lt.2 w.emergency), decide_eq_false (Nat.not_lt.2 w.length)]
    decide
  show execOpenRequest h vs e s = _
  unfold execOpenRequest
  extract_lets payload again common refuse
  rw [if_neg served, if_neg formed]
  rfl

theorem exec_openRequest_malformed (hs : s.serves = true) (ha : s.ownAddress h.dst = true)
    (hm : headerOk h (u8 vs.length ++ vs ++ u8 e.toNat) = false ∨ h.version ≠ 0 ∨ h.sid ≠ 0 ∨ 1 < e.toNat) :
    exec (.openRequest h vs e) s = .next (s.openRefused h 0x10010100) := by
  have served : ¬ (!s.serves || !s.ownAddress h.dst) = true := by simp [hs, ha]
  have malformed : (!headerOk h (u8 vs.length ++ vs ++ u8 e.toNat) || h.version != 0 || h.sid != 0 || decide (1 < e.toNat) ||
      decide (255 < vs.length)) = true := by
    simp only [Bool.or_eq_true, Bool.not_eq_true', bne_iff_ne, decide_eq_true_eq]
    tauto
  show execOpenRequest h vs e s = _
  unfold execOpenRequest
  extract_lets payload again common refuse
  rw [if_neg served, if_pos malformed]
  rfl

/-- No session has been opened by this OpenRequest, unless something has been heard from it. -/
theorem State.openedBy_none (hf : bit h.flags.toNat 2 = true →
    ∀ y ∈ s.openSessions, y.src = h.src → y.openSeq = h.seq.toNat → y.heard = true) : s.openedBy h = none := by
  refine List.find?_eq_none.2 fun y hy => ?_
  simp only [Bool.and_eq_true, beq_iff_eq, Bool.not_eq_true', not_and, Bool.not_eq_false]
  exact fun ⟨⟨f, a⟩, q⟩ => hf f y hy a q

theorem commonVersion_highest (hv : v ∈ [1, 2, 3]) (hm : BitVec.ofNat 8 v ∈ vs)
    (hw : ∀ w ∈ [1, 2, 3], BitVec.ofNat 8 w ∈ vs → w ≤ v) : commonVersion vs = some v := by
  have lacks : ∀ w ∈ [1, 2, 3], v < w → vs.contains (BitVec.ofNat 8 w) = false := fun w h3 lt => by
    rw [List.contains_eq_mem, decide_eq_false_iff_not]
    exact fun m => absurd (hw w h3 m) (by omega)
  have has : vs.contains (BitVec.ofNat 8 v) = true := by rwa [List.contains_eq_mem, decide_eq_true_eq]
  unfold commonVersion
  simp only [List.mem_cons, List.not_mem_nil, or_false] at hv
  rcases hv with rfl | rfl | rfl
  · rw [List.find?_cons_of_neg (by rw [lacks 3 (by decide) (by decide)]; decide),
      List.find?_cons_of_neg (by rw [lacks 2 (by decide) (by decide)]; decide)]
    exact List.find?_cons_of_pos (p := fun w => vs.contains (BitVec.ofNat 8 w)) has
  · rw [List.find?_cons_of_neg (by rw [lacks 3 (by decide) (by decide)]; decide)]
    exact List.find?_cons_of_pos (p := fun w => vs.contains (BitVec.ofNat 8 w)) has
  · exact List.find?_cons_of_pos (p := fun w => vs.contains (BitVec.ofNat 8 w)) has

theorem commonVersion_none (hw : ∀ w ∈ [1, 2, 3], BitVec.ofNat 8 w ∉ vs) : commonVersion vs = none := by
  refine List.find?_eq_none.2 fun w h3 => ?_
  rw [List.contains_eq_mem, decide_eq_true_eq]
  exact hw w ((List.reverse_perm [1, 2, 3]).mem_iff.1 h3)

theorem commonVersion_isSome {w : Nat} (hw : w ∈ [1, 2, 3]) (hm : BitVec.ofNat 8 w ∈ vs) : ∃ v, commonVersion vs = some v := by
  refine Option.isSome_iff_exists.1 (List.find?_isSome.2 ⟨w, (List.reverse_perm [1, 2, 3]).mem_iff.2 hw, ?_⟩)
  rwa [List.contains_eq_mem, decide_eq_true_eq]

/-- Settles O16: what an OpenRequest comes to (`OpenFormed.exec`), by the session it has opened already, the common version and the free
slot. -/
theorem sessionsOpenOrAreRefused : Obligations.SessionsOpenOrAreRefused := by
  unfold Obligations.SessionsOpenOrAreRefused
  have unmarked : ∀ {s : State} {h : Hdr}, bit h.flags.toNat 2 = false → s.openedBy h = none := fun f =>
    State.openedBy_none fun f' => absurd f' (by simp [f])
  refine ⟨fun s h vs e v hs ha hh hv hi he hl hf h3 hm hw hn => ?_, fun s h vs e hs ha hh hv hi he hl hf hw => ?_,
    fun s h vs e w hs ha hh hv hi he hl hf h3 hm hn => ?_, fun s h vs e x d hs ha hh hv hi he hl hf hx hsrc hq hx' hd => ?_,
    fun s h vs e hs ha hm => ?_⟩
  · have run := (OpenFormed.mk hs ha hh hv hi he hl).exec
    rw [State.openedBy_none hf, commonVersion_highest h3 hm hw] at run
    refine ⟨_, s.opened h v (e == 1), run.trans (if_neg (by omega)), State.openSession_session hn, s.newSid_fresh, s.newSid_range.1,
      s.newSid_range.2, rfl, rfl, rfl, rfl, rfl, s.openSession_answered .., State.irq_bit _ _, ?_, State.openSession_moves.only⟩
    rw [State.openSession_eq]
    exact (ObjsOnly.of_objs rfl).trans (State.irq_objs_only _ 4)
  · have run := (OpenFormed.mk hs ha hh hv hi he hl).exec
    rw [unmarked hf, commonVersion_none hw] at run
    exact ⟨_, run, s.openRefused_answered .., s.openRefused_only h _⟩
  · have run := (OpenFormed.mk hs ha hh hv hi he hl).exec
    obtain ⟨v, common⟩ := commonVersion_isSome h3 hm
    rw [unmarked hf, common] at run
    exact ⟨_, run.trans (if_pos hn), s.openRefused_answered .., s.openRefused_only h _⟩
  · have run := (OpenFormed.mk hs ha hh hv hi he hl).exec
    obtain ⟨y, found⟩ : ∃ y, s.openedBy h = some y := Option.isSome_iff_exists.1
      (List.find?_isSome.2 ⟨x, hx, by simp [hf, hsrc, hq, hx']⟩)
    have same := List.find?_some found
    simp only [Bool.and_eq_true, beq_iff_eq, Bool.not_eq_true'] at same
    obtain ⟨⟨⟨-, src⟩, seq⟩, unheard⟩ := same
    rw [found, Option.bind_some, hd y (List.mem_of_find?_eq_some found) src seq unheard] at run
    exact run
  · exact ⟨_, exec_openRequest_malformed hs ha hm, s.openRefused_answered .., s.openRefused_only h _⟩

end Sys2Proof.Machine
end

section
/-! Unlocking: the Challenge, the Proof and what ends an exchange (R65 to R69). -/

set_option Elab.async false

namespace Sys2Proof.Machine

variable {s t : State} {h : Hdr} {x y : Session} {c : Instr} {ty : Nat} {p n cred : Bytes} {l : Nat} {e : Exchange}
  {run : Session → State → Answer} {after : State → State}

/-- A request that nothing follows is executed, answered and stored. -/
theorem Handles.accepted (H : Handles s c h ty p run after) (a : Accepted s h ty p x) (plain : ty ≠ 0x14) :
    exec c s = .next ((run x.now (s.heard x.sid)).finish x.now h.seq.toNat) := by
  rw [H.runs, H.plain plain, a.requestV]
  rfl

theorem State.unlockError_none (hn : n.length = 32) (hl : l = 1 ∨ l = 2) (hv : x.version = 1 → l = 1)
    (ho : s.wilwa.lockout = false) (hf : LevelFree s x) (hc : l = 1 → s.nonVol.operator.isSome = true) :
    s.unlockError x l n = none := by
  have formed : ¬ (n.length ≠ 32 ∨ (l ≠ 1 ∧ l ≠ 2)) := by omega
  have inVersion : ¬ (x.version = 1 ∧ l = 2) := by omega
  have stored : ¬ (s.credential l).isNone = true := by
    unfold State.credential
    split
    next k => simpa [Option.ne_none_iff_isSome] using hc k
    · simp
  unfold State.unlockError
  rw [if_neg formed, if_neg inVersion, if_neg (by simp [ho]), if_neg (by simp [State.levelHeld_of_free hf]), if_neg stored]

theorem challengeAnswer_free (u : State) (e : u.unlockError x l n = none) : challengeAnswer l n x u =
    { type := 0x04, status := 0, payload := (u.freeBytes 32).1,
      state := (u.freeBytes 32).2.modSession x.sid fun y =>
        { y with exchange := some { level := l, hostNonce := n, deviceNonce := (u.freeBytes 32).1 } } } := by
  unfold challengeAnswer
  rw [e]

theorem State.freeBytes_length (s : State) (k : Nat) : (s.freeBytes k).1.length = k := by simp [State.freeBytes]

theorem State.modSession_only (s : State) (i : Nat) (f : Session → Session) : Only [.sent, .wilwa] s (s.modSession i f) := fun p hp => by
  cases p
  case wilwa => exact absurd (by decide) hp
  all_goals rfl

/-- The credential that a Proof is checked against. -/
theorem State.credential_getD (s : State) (l : Nat) : (s.credential l).getD [] =
    if l = 1 then s.nonVol.operator.getD [] else s.nonVol.service.getD (List.replicate 32 0) := by
  unfold State.credential
  split <;> rfl

/-- A right Proof of a session that no other keeps from a level. -/
theorem proofAnswer_right (u : State) (hx : x.exchange = some e) (hc : cred = (u.credential e.level).getD [])
    (hp : p = hmacSha256 cred (e.deviceNonce ++ e.hostNonce ++ u8 e.level ++ u16 x.sid ++ u64 u.fuses.serial)) (hl : p.length = 32)
    (hf : LevelFree u x) : proofAnswer p x u =
    { type := 0x06, status := 0, payload := u8 e.level,
      state := (u.modSession x.sid fun y => { y with exchange := none }).grant x e cred } := by
  have free : (u.modSession x.sid fun y => { y with exchange := none }).levelHeld x.sid = false :=
    State.levelHeld_of_free ((LevelFree.modSession (by exact fun _ => ⟨rfl, rfl⟩)).2 hf)
  unfold proofAnswer
  extract_lets no v
  rw [if_neg (by omega), hx]
  have right : ¬ (p != hmacSha256 cred (e.deviceNonce ++ e.hostNonce ++ u8 e.level ++ u16 x.sid ++ u64 u.fuses.serial)) = true := by
    rw [← hp]
    simp
  rw [hc] at right ⊢
  exact (if_neg right).trans (if_neg (by rw [free]; decide))

/-- Settles O17: what an UnlockRequest and a Proof come to where nothing speaks against them (`challengeAnswer_free`,
`proofAnswer_right`), and the two ends of a wait. -/
theorem unlockingGrantsALevel : Obligations.UnlockingGrantsALevel := by
  unfold Obligations.UnlockingGrantsALevel
  refine ⟨fun s h l n x a hn hl hv ho hf hc => ?_, fun s h p x e cred a hx hc hp hl hf => ?_, fun s i x hx => ?_, fun s => rfl⟩
  · have run := (unlockRequest_handles s h l n).accepted a (by decide)
    rw [challengeAnswer_free _ (State.unlockError_none (s := s.heard x.sid) (x := x.now) hn hl hv ho
      ((LevelFree.heard x.sid).2 hf) hc)] at run
    have opened := State.session_modSession_self (s := ((s.heard x.sid).freeBytes 32).2) 
      (f := fun y => { y with exchange := some ⟨l.toNat, n, ((s.heard x.sid).freeBytes 32).1⟩ }) (by exact fun _ => rfl)
      ((State.session_congr rfl _).trans a.admitted.session_heard)
    refine ⟨_, _, _, run, Answer.finish_session_self (x := x.now) _ opened, (s.heard x.sid).freeBytes_length 32, rfl,
      Answer.finish_answered .., Answer.finish_payload .., ?_, ?_⟩
    · rw [Answer.finish_seats, State.modSession_seats (by exact fun _ => ⟨rfl, rfl⟩)]
      exact s.heard_seats x.sid
    · exact (Moves.after Answer.finish_moves
        (.after (State.modSession_moves (by exact fun _ => ⟨rfl, rfl⟩)) (.after State.freeBytes_moves.snd State.heard_moves.mono))).only
  · have run := (proof_handles s h p).accepted a (by decide)
    rw [proofAnswer_right (cred := cred) (s.heard x.sid) (x := x.now) hx (hc.trans (s.credential_getD _).symm) hp hl
      ((LevelFree.heard x.sid).2 hf)] at run
    have ended := State.session_modSession_self (f := fun y => { y with exchange := none }) (by exact fun _ => rfl)
      a.admitted.session_heard
    have granted := State.session_modSession_self (f := fun y => { y with
      level := e.level,
      sessKey := if y.version = 3 then some (hmacSha256 cred (e.hostNonce ++ e.deviceNonce ++ [1])) else none })
      (by exact fun _ => rfl) ended
    refine ⟨_, _, run, Answer.finish_session_self (x := x.now) _ granted, rfl, rfl, rfl, Answer.finish_answered ..,
      Answer.finish_payload .., ?_⟩
    exact ((s.heard_only _).mono (by decide)).trans (((State.modSession_only _ _ _).trans (State.modSession_only _ _ _)).trans
      ((Answer.finish_only _ _ _).mono (by decide)))
  · exact ⟨_, rfl, State.session_modSession_self (by exact fun _ => rfl) hx, State.modSession_seats (by exact fun _ => ⟨rfl, rfl⟩),
      (State.modSession_moves (by exact fun _ => ⟨rfl, rfl⟩)).only⟩

end Sys2Proof.Machine
end

section
/-! Sessions that close, time out and stay alive (R62, R63). -/

set_option Elab.async false

namespace Sys2Proof.Machine

variable {s t : State} {x : Session} {i k code : Nat}

/-! Transfers that are aborted (R77). -/

theorem State.abortTransfer_wilwa (s : State) (r : Transfer) (code : Nat) : (s.abortTransfer r code).wilwa =
    { s.wilwa with transfers := s.wilwa.transfers.filter fun q => q.tid != r.tid } := by
  unfold State.abortTransfer
  extract_lets u
  split <;> rfl

theorem State.abortTransfer_objs_only (s : State) (r : Transfer) (code : Nat) : ObjsOnly [(0x1050, 1)] s (s.abortTransfer r code) := by
  have dropped : ObjsOnly [(0x1050, 1)] s (s.dropTransfer r.tid) := (ObjsOnly.of_objs rfl).trans (State.irq_objs_only _ 3)
  unfold State.abortTransfer
  extract_lets u
  split
  · exact dropped.trans (.of_objs rfl)
  · exact dropped

/-- Every transfer of a session aborted. -/
def State.abortAll (s : State) (k : Nat) : State :=
  forEach (s.wilwa.transfers.filter (·.sid == k)) (fun r s => s.abortTransfer r 0x10090600) s

theorem forEach_abortTransfer (l : List Transfer) (s : State) :
    ∃ q, (forEach l (fun r s => s.abortTransfer r code) s).wilwa = { s.wilwa with transfers := q } ∧
      ∀ r ∈ q, r ∈ s.wilwa.transfers ∧ r.tid ∉ l.map (·.tid) := by
  induction l generalizing s with
  | nil => exact ⟨_, rfl, fun r hr => ⟨hr, List.not_mem_nil⟩⟩
  | cons a l ih =>
    obtain ⟨q, e, rest⟩ := ih (s.abortTransfer a code)
    rw [State.abortTransfer_wilwa] at e rest
    refine ⟨q, e, fun r hr => ?_⟩
    obtain ⟨kept, other⟩ := rest r hr
    obtain ⟨old, ne⟩ := List.mem_filter.1 kept
    exact ⟨old, by simpa using ⟨by simpa using ne, by simpa using other⟩⟩

/-- No transfer of the session is left, and nothing else of the dictionary server has changed. -/
theorem State.abortAll_wilwa (s : State) (k : Nat) :
    ∃ q, (s.abortAll k).wilwa = { s.wilwa with transfers := q } ∧ ∀ r ∈ q, r.sid ≠ k := by
  obtain ⟨q, e, rest⟩ := forEach_abortTransfer (code := 0x10090600) (s.wilwa.transfers.filter (·.sid == k)) s
  refine ⟨q, e, fun r hr hk => ?_⟩
  obtain ⟨old, other⟩ := rest r hr
  exact other (List.mem_map.2 ⟨r, List.mem_filter.2 ⟨old, by simpa using hk⟩, rfl⟩)

theorem State.abortAll_objs_only (s : State) (k : Nat) : ObjsOnly [(0x1050, 1)] s (s.abortAll k) :=
  .forEach fun r t => t.abortTransfer_objs_only r _

/-! A session that closes (R63). -/

/-- The streams of a session stopped, where they are its. -/
def State.streamsStopOf (s : State) (k : Nat) : State := if s.wilwa.cycSid = k then s.streamsStop else s

theorem State.streamsStopOf_self (h : s.wilwa.cycSid = k) : s.streamsStopOf k = s.streamsStop := if_pos h

theorem State.streamsStopOf_objs_only (s : State) (k : Nat) : ObjsOnly [(0x6010, 1)] s (s.streamsStopOf k) :=
  .ite ((ObjsOnly.of_objs rfl).trans (State.setNum_objs_only _ _ _ _)) .refl

theorem State.streamsStopOf_sessions (s : State) (k : Nat) : SessionsKept s (s.streamsStopOf k) := .ite rfl .refl

theorem State.streamsStopOf_transfers (s : State) (k : Nat) : (s.streamsStopOf k).wilwa.transfers = s.wilwa.transfers := by
  unfold State.streamsStopOf
  split <;> rfl

/-- The session's slot emptied. -/
def State.leave (s : State) (k : Nat) : State :=
  { s with wilwa := { s.wilwa with sessions := Vector.ofFn fun (i : Fin 4) => (s.wilwa.sessions[i]).filter fun x => x.sid != k } }

theorem State.leave_openSessions (s : State) (k : Nat) : (s.leave k).openSessions = s.openSessions.filter fun x => x.sid != k := by
  unfold State.openSessions State.leave
  rw [ofFn_toList s.wilwa.sessions fun y => y.filter fun x => x.sid != k, List.filterMap_map, List.filter_filterMap]
  rfl

theorem State.closeSession_eq (s : State) (k : Nat) : s.closeSession k = (((s.abortAll k).streamsStopOf k).leave k).irq 4 := rfl

/-- What is left when a session has closed. -/
structure ClosedIn (s : State) (k : Nat) (t : State) : Prop where
  sessions : t.openSessions = s.openSessions.filter fun x => x.sid != k
  transfers : ∀ r ∈ t.wilwa.transfers, r.sid ≠ k
  streams : s.wilwa.cycSid = k → t.num 0x6010 1 = 0 ∧ t.wilwa.cycSid = 0
  objs : ObjsOnly [(0x1050, 1), (0x6010, 1)] s t

theorem State.closeSession_closed (s : State) (k : Nat) : ClosedIn s k (s.closeSession k) := by
  obtain ⟨q, e, none⟩ := s.abortAll_wilwa k
  rw [State.closeSession_eq]
  have aborted : SessionsKept s (s.abortAll k) := (congrArg Wilwa.sessions e).trans rfl
  refine ⟨?_, ?_, fun his => ?_, ?_⟩
  · refine (State.openSessions_congr (s := ((s.abortAll k).streamsStopOf k).leave k) rfl).trans ?_
    rw [State.leave_openSessions, State.openSessions_congr (aborted.trans (State.streamsStopOf_sessions _ k))]
  · show ∀ r ∈ ((s.abortAll k).streamsStopOf k).wilwa.transfers, _
    rw [State.streamsStopOf_transfers, e]
    exact none
  · rw [State.streamsStopOf_self ((congrArg Wilwa.cycSid e).trans his)]
    refine ⟨?_, rfl⟩
    rw [(State.irq_objs_only _ 4).num]
    exact (State.num_congr (s := (s.abortAll k).streamsStop) rfl _ _).trans (State.num_setNum_self ..)
  · exact ((s.abortAll_objs_only k).mono (by decide)).trans
      (((State.streamsStopOf_objs_only _ k).mono (by decide)).trans ((ObjsOnly.of_objs rfl).trans
        ((State.irq_objs_only _ 4).mono (by decide))))

theorem ClosedIn.session_self (c : ClosedIn s k t) : t.session k = none :=
  State.session_none_iff.2 fun y hy => by
    rw [c.sessions, List.mem_filter] at hy
    simpa using hy.2

theorem ClosedIn.session_ne (c : ClosedIn s k t) (h : i ≠ k) : t.session i = s.session i := by
  rw [State.session_eq_find, State.session_eq_find, c.sessions, List.find?_filter]
  congr 1
  funext y
  by_cases hy : y.sid = i <;> simp [hy, h]

theorem State.closeSession_bit (s : State) (k : Nat) : bit ((s.closeSession k).num 0x1050 1) 4 = true := State.irq_bit _ 4

theorem close_handles (s : State) (h : Hdr) : Handles s (.close h) h 0x07 []
    (fun x s => { type := 0x08, status := 0, payload := [], state := s.closeSession x.sid }) id :=
  .mk_plain rfl (fun _ _ => rfl) fun h => absurd rfl h

theorem keepAlive_handles (s : State) (h : Hdr) : Handles s (.keepAlive h) h 0x09 []
    (fun _ s => { type := 0x0A, status := 0, payload := [], state := s }) id :=
  .mk_plain rfl (fun _ _ => rfl) fun _ _ _ => .refl

theorem exec_sessionTimeout {i : BitVec 16} (hx : s.session i.toNat = some x) : exec (.sessionTimeout i) s =
    .next ((s.closeSession x.sid).raise 0x1013 0 (u16 x.sid ++ u8 x.level)) := by
  show execSessionTimeout i s = _
  unfold execSessionTimeout
  rw [hx]

theorem exec_sessionTimeout_none {i : BitVec 16} (hx : s.session i.toNat = none) : exec (.sessionTimeout i) s = .next s := by
  show execSessionTimeout i s = _
  unfold execSessionTimeout
  rw [hx]

/-- Settles O19: what a closed session leaves (`closeSession_closed`), with the response or the report behind it. -/
theorem sessionsCloseAndStayAlive : Obligations.SessionsCloseAndStayAlive := by
  unfold Obligations.SessionsCloseAndStayAlive
  refine ⟨fun s h x a => ?_, fun s i x hx => ?_, fun s i hx => ?_, fun s h x a => ?_⟩
  · have run := (close_handles s h).accepted a (by decide)
    have closed := (s.heard x.sid).closeSession_closed x.sid
    refine ⟨_, run, Answer.finish_answered .., ?_, fun i hi => ?_, closed.transfers, fun his => ?_, ?_,
      Answer.finish_objs_only _ _ _ ((ObjsOnly.of_objs rfl).trans closed.objs), ?_⟩
    · rw [Answer.finish_session]
      exact congrArg (Option.map _) closed.session_self
    · have other : ((s.heard x.sid).closeSession x.sid).session i = s.session i :=
        (closed.session_ne hi).trans (State.session_modSession_ne (by exact fun _ => rfl) hi)
      rw [Answer.finish_session]
      refine (congrArg (Option.map _) other).trans ?_
      cases e : s.session i with
      | none => rfl
      | some y => exact congrArg some (if_neg (State.session_sid e ▸ hi))
    · exact closed.streams his
    · exact State.closeSession_bit ..
    · exact (Moves.after Answer.finish_moves (.after State.closeSession_moves State.heard_moves.mono)).only
  · have sid := State.session_sid hx
    have closed := s.closeSession_closed x.sid
    have raised := State.raise_objs_only (s.closeSession x.sid) 0x1013 0 (u16 x.sid ++ u8 x.level)
    have moved := State.raise_moves (s := s.closeSession x.sid) (src := 0x1013) (cause := 0) (data := u16 x.sid ++ u8 x.level)
    have sessions : SessionsKept (s.closeSession x.sid) _ := .of_moves moved
    refine ⟨_, exec_sessionTimeout hx, (State.session_congr sessions _).trans closed.session_self,
      fun k hk => (State.session_congr sessions _).trans (closed.session_ne hk), ?_, fun his => ?_, fun takes => ?_, ?_, ?_⟩
    · rw [show _ = (s.closeSession x.sid).wilwa from moved.same .wilwa]
      exact closed.transfers
    · rw [raised.num, show _ = (s.closeSession x.sid).wilwa from moved.same .wilwa]
      exact closed.streams his
    · exact State.raise_raised _ _ _
        (State.takesReports_congr (State.closeSession_moves.same .pwr) (State.closeSession_moves.same .flt) takes)
    · exact (closed.objs.mono (by decide)).trans (raised.mono (by decide))
    · exact (Moves.after moved State.closeSession_moves.mono).only
  · exact exec_sessionTimeout_none hx
  · exact ⟨_, _, (keepAlive_handles s h).accepted a (by decide), Answer.finish_answered ..,
      Answer.finish_session_self (x := x.now) _ a.admitted.session_heard, rfl, rfl, (Answer.finish_seats _ _ _).trans (s.heard_seats _),
      ((s.heard_only _).mono (by decide)).trans ((Answer.finish_only _ _ _).mono (by decide))⟩

end Sys2Proof.Machine
end

section
/-! The Sequence of a session's requests (R62). -/

set_option Elab.async false

namespace Sys2Proof.Machine

variable {s t : State} {h : Hdr} {x : Session} {c : Instr} {ty : Nat} {p vs : Bytes} {e : BitVec 8} {run : Session → State → Answer}
  {after : State → State}

/-- An OpenRequest opens a session or leaves the sessions as they were. -/
theorem exec_openRequest_cases (k : exec (.openRequest h vs e) s = .next t) :
    SessionsKept s t ∨ ∃ v em, t = s.openSession h v em ∧ s.openSessions.length < 4 := by
  change execOpenRequest h vs e s = .next t at k
  unfold execOpenRequest at k
  extract_lets payload again common refuse at k
  have refused : ∀ code, refuse code = .next t → SessionsKept s t := fun code k => by
    cases k
    rfl
  split at k
  · cases k
    exact .inl .refl
  split at k
  · exact .inl (refused _ k)
  split at k
  · cases k
    exact .inl rfl
  · exact .inl (refused _ k)
  · split at k
    · exact .inl (refused _ k)
    · cases k
      have := s.openSessions_length
      exact .inr ⟨_, _, rfl, by omega⟩

/-- A session that was not open before an OpenRequest is the one it has opened. -/
theorem openRequest_opens (k : exec (.openRequest h vs e) s = .next t) (new : t.session x.sid = some x)
    (old : s.session x.sid = none) : ∃ v em, x = s.opened h v em := by
  rcases exec_openRequest_cases k with kept | ⟨v, em, rfl, room⟩
  · rw [State.session_congr kept, old] at new
    cases new
  · refine ⟨v, em, ((State.mem_openSession room).1 (State.session_mem new)).resolve_right fun hx => ?_⟩
    exact State.session_none_iff.1 old x hx rfl

/-- A request that has not the next Sequence is not executed. -/
theorem Admitted.request_other (a : Admitted s h ty p x) (hq : h.seq.toNat ≠ (x.seq + 1) % 2 ^ 32) : s.request h ty p run =
    if h.seq.toNat = x.seq then (match x.stored with | some d => (s.heard x.sid).sendDgram d | none => s.heard x.sid)
    else (s.heard x.sid).sendDgram (sessionDgram x.now (ty + 1) h.seq.toNat 1 0x10010400 (abortEcho ty p) false) := by
  unfold State.request
  rw [a.admission]
  exact if_neg hq

/-- A request that has not the next Sequence: what follows a response finds nothing to do. -/
theorem Handles.notNext (H : Handles s c h ty p run after) (a : Admitted s h ty p x) (hq : h.seq.toNat ≠ (x.seq + 1) % 2 ^ 32) :
    exec c s = .next
      (if h.seq.toNat = x.seq then (match x.stored with | some d => (s.heard x.sid).sendDgram d | none => s.heard x.sid)
      else (s.heard x.sid).sendDgram (sessionDgram x.now (ty + 1) h.seq.toNat 1 0x10010400 (abortEcho ty p) false)) := by
  rw [H.runs, State.requestV, a.request_other hq, H.quiet]
  split
  · split <;> exact Nat.le_refl _
  · exact Nat.le_refl _

/-- Settles O20: a request by its Sequence (`Accepted.requestV`, `Handles.notNext`), for every kind of request that there is
(`handles_of_messageOf`). -/
theorem requestsFollowTheirSequence : Obligations.RequestsFollowTheirSequence := by
  unfold Obligations.RequestsFollowTheirSequence
  refine ⟨fun s h vs e t x k new old => ?_, fun s c h ty p x m hty a => ?_, fun s c h ty p x d m a hq same hd => ?_,
    fun s c h ty p x m a hq other => ?_⟩
  · obtain ⟨v, em, rfl⟩ := openRequest_opens k new old
    rfl
  · obtain ⟨run, after, H⟩ := handles_of_messageOf m
    obtain ⟨z, hz⟩ := Option.isSome_iff_exists.1
      (H.opened hty x.now (s.heard x.sid) (Option.isSome_iff_exists.2 ⟨_, a.admitted.session_heard⟩))
    have runs := H.runs
    rw [a.requestV] at runs
    obtain ⟨kept, -, rest, grown⟩ := H.behind ((run x.now (s.heard x.sid)).finish x.now h.seq.toNat)
    have sent := grown.symm
    rw [Answer.finish_sent, List.append_assoc] at sent
    refine ⟨_, _, _, _, _, rest, runs, (State.session_congr kept _).trans (Answer.finish_session_self (x := x.now) _ hz), rfl, rfl,
      sent, rfl, fun plain => ?_, rfl, H.type _ _⟩
    rw [H.plain plain] at grown
    exact List.self_eq_append_right.1 grown.symm
  · obtain ⟨run, after, H⟩ := handles_of_messageOf m
    rw [H.notNext a hq, if_pos same, hd]
  · obtain ⟨run, after, H⟩ := handles_of_messageOf m
    have refused := H.notNext a hq
    rw [if_neg other] at refused
    exact ⟨_, _, refused, State.sendDgram_answered _ _ (sessionDgram_response ..), (State.session_sendDgram ..).trans a.session_heard,
      rfl, ((s.heard_only _).mono (by decide)).trans (State.sendDgram_moves.only.mono (by decide))⟩

end Sys2Proof.Machine
end

section
/-! Which datagrams are admitted, and what becomes of the others (R56 to R61, R84, R90). -/

set_option Elab.async false

namespace Sys2Proof.Machine

variable {s t u : State} {h : Hdr} {x : Session} {c : Instr} {ty : Nat} {p : Bytes} {answered : Bool}

/-! Admission, case by case. -/

theorem State.admission_unserved (hs : s.serves = false ∨ s.ownAddress h.dst = false) : s.admission h ty p answered = .dropped s := by
  unfold State.admission
  rw [if_pos (by simpa using hs)]

section Served
variable (hs : s.serves = true) (ha : s.ownAddress h.dst = true)
include hs ha

theorem State.not_unserved : ¬ (!s.serves || !s.ownAddress h.dst) = true := by simp [hs, ha]

theorem State.admission_wrongTag (hx : s.session h.sid.toNat = some x) (ht : ¬ TagRight h ty p x) :
    s.admission h ty p answered = .dropped (s.authFailure x.sid h.src) := by
  have wrong : (x.sessKey.isSome && (!bit h.flags.toNat 1 || h.tag != tagOf x.sessKey (hdrBytes h ty) p)) = true := by
    unfold TagRight at ht
    push Not at ht
    obtain ⟨key, no⟩ := ht
    cases hb : bit h.flags.toNat 1 with
    | false => simp [key]
    | true => simp [key, no hb]
  unfold State.admission
  rw [if_neg (State.not_unserved hs ha), hx]
  exact if_pos wrong

theorem State.admission_rightTag (hx : s.session h.sid.toNat = some x) (ht : TagRight h ty p x) : s.admission h ty p answered =
    if !headerOk h p || h.version.toNat != x.version then
      .dropped (if answered then
        (s.heard x.sid).sendDgram (sessionDgram x (ty + 1) h.seq.toNat 1 0x10010100 (abortEcho ty p) false) else s.heard x.sid)
    else .session x.now (s.heard x.sid) := by
  have right : ¬ (x.sessKey.isSome && (!bit h.flags.toNat 1 || h.tag != tagOf x.sessKey (hdrBytes h ty) p)) = true := by
    cases key : x.sessKey.isSome with
    | false => simp
    | true => simp [ht key]
  unfold State.admission
  rw [if_neg (State.not_unserved hs ha), hx]
  exact if_neg right

theorem State.admission_malformed (hx : s.session h.sid.toNat = some x) (ht : TagRight h ty p x)
    (hm : headerOk h p = false ∨ h.version.toNat ≠ x.version) : s.admission h ty p true =
    .dropped ((s.heard x.sid).sendDgram (sessionDgram x (ty + 1) h.seq.toNat 1 0x10010100 (abortEcho ty p) false)) := by
  rw [State.admission_rightTag hs ha hx ht, if_pos (by simpa using hm)]
  rfl

theorem State.admission_session (hx : s.session h.sid.toNat = some x) (ht : TagRight h ty p x) (hh : headerOk h p = true)
    (hv : h.version.toNat = x.version) : s.admission h ty p answered = .session x.now (s.heard x.sid) := by
  rw [State.admission_rightTag hs ha hx ht, if_neg (by simp [hh, hv])]

theorem State.admission_stray (hx : s.session h.sid.toNat = none) : s.admission h ty p true =
    .dropped (s.sendDgram (strayDgram h (ty + 1) (if headerOk h p then 0x10020700 else 0x10010100) (abortEcho ty p))) := by
  unfold State.admission
  rw [if_neg (State.not_unserved hs ha), hx]
  cases headerOk h p <;> rfl

end Served

/-- What is never answered is dropped where it has no session. -/
theorem State.admission_unheard (hx : s.session h.sid.toNat = none) : s.admission h ty p false = .dropped s := by
  unfold State.admission
  rw [hx]
  split <;> rfl

/-! What a message comes to by its admission. -/

theorem exec_dropped (m : messageOf s c = some (h, ty, p, answered)) (e : s.admission h ty p answered = .dropped u)
    (hu : u.wilwa.transfers.length ≤ s.wilwa.transfers.length) : exec c s = .next u := by
  cases answered with
  | true =>
    obtain ⟨run, after, H⟩ := handles_of_messageOf m
    have dropped : s.requestV h ty p run = u := by
      unfold State.requestV State.request
      rw [e]
    rw [H.runs, dropped, H.quiet u hu]
  | false =>
    obtain ⟨run, runs⟩ := notice_of_messageOf m
    rw [runs]
    unfold State.notice
    rw [e]

/-- A request that its session's version does not have (R61). -/
theorem refused_message (m : messageOf s c = some (h, ty, p, true)) (e : s.admission h ty p true = .session x.now (s.heard x.sid))
    (hv : messageInVersion x.version ty = false) (hq : h.seq.toNat = (x.seq + 1) % 2 ^ 32) : Refused c h (ty + 1) 0x10020800 s := by
  obtain ⟨run, after, H⟩ := handles_of_messageOf m
  have refused : s.requestV h ty p run = Answer.finish
      { type := ty + 1, status := 0x10020800, payload := abortEcho ty p, state := s.heard x.sid } x.now h.seq.toNat := by
    unfold State.requestV State.request
    rw [e]
    refine (if_pos hq).trans (congrArg (Answer.finish · x.now h.seq.toNat) (if_neg ?_))
    show ¬ messageInVersion x.version ty = true
    rw [hv]
    decide
  have runs := H.runs
  rw [refused, H.quiet _ (by exact Nat.le_refl _)] at runs
  refine ⟨_, runs, Answer.finish_answered .., rfl, rfl, ?_, ?_⟩
  · exact (Answer.finish_seats _ _ _).trans (s.heard_seats _)
  · exact ((s.heard_only _).mono (by decide)).trans ((Answer.finish_only _ _ _).mono (by decide))

/-- A wrong tag is counted and reported (R59). -/
theorem State.authFailure_counts (s : State) (k : Nat) (e : Endpoint) :
    (s.authFailure k e).num 0x1030 4 = (s.num 0x1030 4 + 1) % 2 ^ 32 ∧ (s.takesReports → Raised 0x1011 0 (s.authFailure k e)) ∧
      ObjsOnly [(0x1030, 4), (0x2F10, 2), (0x2F10, 4)] s (s.authFailure k e) ∧ Only [.objs, .flt, .bbx] s (s.authFailure k e) := by
  have raised := State.raise_objs_only (s.bump 0x1030 4) 0x1011 0 (u16 k ++ addrTail e)
  refine ⟨raised.num.trans (s.num_bump_self 0x1030 4), fun takes => State.raise_raised _ _ _ (State.takesReports_congr rfl rfl takes),
    raised.after ((s.bump_objs_only 0x1030 4).mono (by decide)), State.authFailure_moves.only⟩

/-- A datagram that is answered outside or inside its session changes nothing else. -/
theorem State.heard_sendDgram_only (s : State) (k : Nat) (d : Dgram) : Only [.wilwa, .sent] s ((s.heard k).sendDgram d) :=
  ((s.heard_only _).mono (by decide)).trans (State.sendDgram_moves.only.mono (by decide))

theorem State.unknownMsgtype_served {ty : BitVec 8} (hs : s.serves = true) (ha : s.ownAddress h.dst = true)
    (hk : hostTypes.contains ty.toNat = false) : ¬ (hostTypes.contains ty.toNat || !s.serves || !s.ownAddress h.dst) = true := by
  rw [hk, hs, ha]
  decide

theorem exec_unknownMsgtype {ty : BitVec 8} (hs : s.serves = true) (ha : s.ownAddress h.dst = true)
    (hk : hostTypes.contains ty.toNat = false) (hx : s.session h.sid.toNat = some x) (ht : TagRight h ty.toNat p x)
    (hh : headerOk h p = true) (hv : h.version.toNat = x.version) : exec (.unknownMsgtype h ty p) s = .next
      ((s.heard x.sid).sendDgram (sessionDgram x.now ((ty.toNat + 1) % 256) h.seq.toNat 1 0x10010200 [] false)) := by
  show execUnknownMsgtype h ty p s = _
  unfold execUnknownMsgtype
  rw [if_neg (State.unknownMsgtype_served hs ha hk)]
  extract_lets answer
  rw [hx, State.admission_session hs ha hx ht hh hv]

theorem exec_unknownMsgtype_stray {ty : BitVec 8} (hs : s.serves = true) (ha : s.ownAddress h.dst = true)
    (hk : hostTypes.contains ty.toNat = false) (hx : s.session h.sid.toNat = none) (hh : headerOk h p = true) :
    exec (.unknownMsgtype h ty p) s = .next (s.sendDgram (strayDgram h ((ty.toNat + 1) % 256) 0x10010200 [])) := by
  show execUnknownMsgtype h ty p s = _
  unfold execUnknownMsgtype
  rw [if_neg (State.unknownMsgtype_served hs ha hk)]
  extract_lets answer
  rw [hx, hh]
  rfl

/-- Settles O21: the admission of a message, case by case (`admission_…`), and what each kind of message comes to by it
(`exec_dropped`, `refused_message`). -/
theorem datagramsAreAdmitted : Obligations.DatagramsAreAdmitted := by
  unfold Obligations.DatagramsAreAdmitted
  refine ⟨fun s c m e hs => ?_, fun s c h ty p a x m hs ha hx ht => ?_, fun s c h ty p m hs ha hx hh => ?_,
    fun s c h ty p m hs ha hx hh => ?_, fun s c h ty p m hx => ?_, fun s c h ty p x m hs ha hx ht hm => ?_,
    fun s c h ty p x m hs ha hx ht hh hv hn hq => ?_, fun s n hs hn => ?_, fun s n v6 hs hn => ?_,
    fun s h ty p x hs ha hk hx ht hh hv => ?_, fun s h ty p hs ha hk hx hh => ?_⟩
  · obtain ⟨h, ty, p, a⟩ := m
    exact exec_dropped e (State.admission_unserved hs) (Nat.le_refl _)
  · have same : (s.authFailure x.sid h.src).wilwa = s.wilwa := State.authFailure_moves.same .wilwa
    exact ⟨_, exec_dropped m (State.admission_wrongTag hs ha hx ht) (by rw [same]), s.authFailure_counts _ _⟩
  · have dropped := State.admission_stray (ty := ty) (p := p) hs ha hx
    rw [if_pos hh] at dropped
    exact ⟨_, exec_dropped m dropped (Nat.le_refl _), State.sendDgram_answered _ _ (show bit 1 0 = true by decide),
      State.sendDgram_moves.only⟩
  · have dropped := State.admission_stray (ty := ty) (p := p) hs ha hx
    rw [if_neg (by simp [hh])] at dropped
    exact ⟨_, exec_dropped m dropped (Nat.le_refl _), State.sendDgram_answered _ _ (show bit 1 0 = true by decide),
      State.sendDgram_moves.only⟩
  · exact exec_dropped m (State.admission_unheard hx) (Nat.le_refl _)
  · exact ⟨_, exec_dropped m (State.admission_malformed hs ha hx ht hm) (Nat.le_refl _),
      State.sendDgram_answered _ _ (sessionDgram_response ..), s.heard_sendDgram_only _ _⟩
  · exact refused_message m (State.admission_session hs ha hx ht hh hv) hn hq
  · exact ⟨_, congrArg Host.Outcome.next (if_pos ⟨hs, hn⟩), s.num_bump_self 0x1020 3, s.bump_objs_only _ _, State.bump_moves.only⟩
  · exact ⟨_, congrArg Host.Outcome.next (if_pos ⟨hs, hn⟩), s.num_bump_self 0x1020 4, s.bump_objs_only _ _, State.bump_moves.only⟩
  · exact ⟨_, exec_unknownMsgtype hs ha hk hx ht hh hv, State.sendDgram_answered _ _ (sessionDgram_response ..), s.heard_seats _,
      s.heard_sendDgram_only _ _⟩
  · exact ⟨_, exec_unknownMsgtype_stray hs ha hk hx hh, State.sendDgram_answered _ _ (show bit 1 0 = true by decide),
      State.sendDgram_moves.only⟩

end Sys2Proof.Machine
end

section
/-! Writes that nothing speaks against: what they do by the object's class (R72, R73). -/

set_option Elab.async false

namespace Sys2Proof.Machine

variable {s t : State} {h : Hdr} {x : Session} {c : Instr} {i j o : Nat} {b : Bytes} {d : Desc} {v : Val}

/-- What a newly committed map brings writes no object of another index than its own (R14, R203). -/
theorem State.mapCommitted_obj (s : State) {k : Nat} (hk : k < 255) (hj : j < 256)
    (h : i ≠ 0x2711 ∧ i ≠ 0x2713 ∧ i ≠ 0x2720 ∧ i ≠ 0x1200) : (s.mapCommitted k).obj i j = s.obj i j := by
  obtain ⟨h1, h2, h3, h4⟩ := h
  have figures : ObjsOnly [(0x2711, k + 1), (0x2713, k + 1), (0x2720, k + 1), (0x1200, 9)] s (s.mapCommitted k) := by
    unfold State.mapCommitted
    extract_lets m u w
    have counted : ObjsOnly [(0x2711, k + 1), (0x2713, k + 1), (0x2720, k + 1), (0x1200, 9)] s u :=
      ((s.setNum_objs_only _ _ _ (by omega)).mono (by simp)).trans ((State.setNum_objs_only _ _ _ _ (by omega)).mono (by simp))
    exact .ite counted (counted.trans (((u.setObj_objs_only _ _ _ (by omega)).mono (by simp)).trans
      ((State.setNum_objs_only _ _ _ _).mono (by simp))))
  exact figures i j hj (by simp [h1, h2, h3, h4])

/-- What an object brings with its new value is of other indices. -/
theorem State.nowLive_obj (s : State) (old : Val) (hj : j < 256) : (s.nowLive i j old).obj i j = s.obj i j := by
  unfold State.nowLive
  extract_lets k
  split
  · refine (State.mapCommitted_obj _ (by omega) hj (by decide)).trans ?_
    next u =>
      unfold u
      split <;> rfl
  · exact State.mapCommitted_obj _ (by omega) hj (by decide)
  · rfl
  iterate 5
    · rfl
  iterate 7
    · exact State.delaysChanged_obj _ hj (by decide) (by decide)
  · rfl

theorem State.makeLive_obj (s : State) (v : Val) (hj : j < 256) : (s.makeLive i j v).obj i j = v :=
  (State.nowLive_obj _ _ hj).trans (s.obj_setObj_self i j v)

/-- A Write that nothing speaks against. -/
theorem State.write_none {stream : Bool} (hd : findDesc i j = some d) (he : s.writeError x i j b stream = none) :
    s.write x i j b stream = s.applyWrite x d i j (d.value b) := by
  unfold State.write
  rw [he, hd]

section Applied
variable (ha : (isAdminArea (i / 256) && i % 256 == 0 && j == 1) = false)
include ha

theorem State.applyWrite_hook : s.applyWrite x d i j v = match hook x i j v s with
    | some (.error e) => (e, s)
    | some (.ok t) => (0, t)
    | none => if d.cls = .commit then (0, { s with wilwa := { s.wilwa with shadow := kvPut s.wilwa.shadow (key i j) v } })
      else (0, s.makeLive i j v) := if_neg (by simp [ha])

theorem State.applyWrite_error {e : Nat} (hk : hook x i j v s = some (.error e)) : s.applyWrite x d i j v = (e, s) := by
  rw [State.applyWrite_hook ha, hk]

theorem State.applyWrite_done (hk : hook x i j v s = some (.ok t)) : s.applyWrite x d i j v = (0, t) := by
  rw [State.applyWrite_hook ha, hk]

theorem State.applyWrite_commit (hk : hook x i j v s = none) (hc : d.cls = .commit) : s.applyWrite x d i j v =
    (0, { s with wilwa := { s.wilwa with shadow := kvPut s.wilwa.shadow (key i j) v } }) := by
  rw [State.applyWrite_hook ha, hk]
  exact if_pos hc

theorem State.applyWrite_live (hk : hook x i j v s = none) (hc : d.cls ≠ .commit) : s.applyWrite x d i j v = (0, s.makeLive i j v) := by
  rw [State.applyWrite_hook ha, hk]
  exact if_neg hc

end Applied

/-- A Write that comes to a code and a state is answered with the code behind it. -/
theorem Accepted.written {code : Nat} (a : Accepted s h 0x12 (u16 i ++ u8 j ++ u8 o ++ b) x) (w : writeOf s c = some (h, i, j, o, b))
    (e : (s.heard x.sid).write x.now i j b false = (code, t)) : exec c s = .next (Answer.finish
      { type := 0x13, status := code, payload := u16 i ++ u8 j ++ u8 o, state := t } x.now h.seq.toNat) := by
  rw [(write_handles w).accepted a (by decide)]
  unfold writeAnswer
  rw [e]

theorem State.shadowObj_written {l : List (Nat × Val)} (hw : t.wilwa.shadow = kvPut l (key i j) v) : t.shadowObj i j = v := by
  simp [State.shadowObj, hw]

/-- Settles O23: what `applyWrite` does where no hook takes the Write, by the class, and the refusal of a hook. -/
theorem writesTakeEffectByTheirClass : Obligations.WritesTakeEffectByTheirClass := by
  unfold Obligations.WritesTakeEffectByTheirClass
  refine ⟨fun s h i j o b x d a hd he ha hk => ⟨fun hc => ?_, fun hc => ?_⟩, fun s h i j o b x d e a hd he ha hk => ?_⟩
  · have run := a.written (c := .write h i j o b) rfl
      ((State.write_none (s := s.heard x.sid) hd he).trans (State.applyWrite_commit ha hk hc))
    exact ⟨_, run, Answer.finish_answered .., State.shadowObj_written rfl, (Answer.finish_seats _ _ _).trans (s.heard_seats _),
      ((s.heard_only _).mono (by decide)).trans ((Moves.wilwa (ps := [.wilwa]) .refl).only.mono (by decide) |>.trans
        (Answer.finish_only _ _ _))⟩
  · have run := a.written (c := .write h i j o b) rfl
      ((State.write_none (s := s.heard x.sid) hd he).trans (State.applyWrite_live ha hk hc))
    refine ⟨_, run, Answer.finish_answered .., (State.makeLive_obj _ _ j.isLt), ?_, ?_⟩
    · have same : SessionsKept (s.heard x.sid) _ := .of_moves (State.makeLive_moves (idx := i.toNat) (sub := j.toNat) (v := d.value b))
      rw [Answer.finish_seats]
      exact (State.seats_congr same).trans (s.heard_seats _)
    · exact (Moves.after Answer.finish_moves (.after State.makeLive_moves State.heard_moves.mono)).only
  · exact a.writeRefused rfl ((State.write_none (s := s.heard x.sid) hd he).trans (State.applyWrite_error ha hk))

end Sys2Proof.Machine
end

section
/-! Transfers that open or are refused (R72, R77). -/

set_option Elab.async false

namespace Sys2Proof.Machine

variable {s t u : State} {h : Hdr} {x y : Session} {i j n k code : Nat} {d : Desc} {r : Transfer} {download : Bool}

/-! What R72 and R77 check of a TransferInit. -/

/-- A version that has transfers has every index (R61). -/
theorem indexInVersion_of_transfers {v : Nat} (hm : messageInVersion v 0x14 = true) (i : Nat) : indexInVersion v i = true := by
  have hv : (v != 1) = true := by simpa [messageInVersion] using hm
  simp [indexInVersion, hv]

theorem State.initError_eq (hd : findDesc i j = some d) (ha : sessionAllows x i (if download then d.level else 0) = none) :
    s.initError x i j download = if d.ty.size.isSome then some (abort i 0x60700)
      else if download ∧ d.acc = .ro then some (abort i 0x60300)
      else if !download ∧ d.acc = .wo then some (abort i 0x60400)
      else (s.domainError i j).orElse fun _ => if download then s.classError d i j else none := by
  unfold State.initError
  rw [hd]
  dsimp only
  rw [ha]
  rfl

section Checks
variable (hd : findDesc i j = some d) (ha : sessionAllows x i (if download then d.level else 0) = none)
include hd ha

theorem State.initError_size (hz : d.ty.size.isSome = true) : s.initError x i j download = some (abort i 0x60700) := by
  rw [State.initError_eq hd ha, if_pos hz]

variable (hz : d.ty.size = none)
include hz

theorem State.initError_readOnly (hw : download = true) (hr : d.acc = .ro) : s.initError x i j download = some (abort i 0x60300) := by
  rw [State.initError_eq hd ha, if_neg (by simp [hz]), if_pos ⟨hw, hr⟩]

theorem State.initError_writeOnly (hw : download = false) (hr : d.acc = .wo) : s.initError x i j download = some (abort i 0x60400) := by
  rw [State.initError_eq hd ha, if_neg (by simp [hz]), if_neg (by simp [hw]), if_pos (by simp [hw, hr])]

variable (hr : download = true → d.acc ≠ .ro) (hw : download = false → d.acc ≠ .wo)
include hr hw

theorem State.initError_moment : s.initError x i j download =
    (s.domainError i j).orElse fun _ => if download then s.classError d i j else none := by
  rw [State.initError_eq hd ha, if_neg (by simp [hz]), if_neg fun ⟨k, e⟩ => hr k e, if_neg fun ⟨k, e⟩ => hw (by simpa using k) e]

theorem State.initError_off (ho : s.on (objDomain i j) = false) :
    s.initError x i j download = some (abort i (0x4F000 + objDomain i j)) := by
  rw [State.initError_moment hd ha hz hr hw, State.domainError_off ho]
  rfl

theorem State.initError_none (ho : s.on (objDomain i j) = true) (hc : download = true → d.cls = .stopped → s.stoppedRuns i j = false) :
    s.initError x i j download = none := by
  rw [State.initError_moment hd ha hz hr hw, State.domainError_none ho]
  cases download with
  | false => rfl
  | true => exact State.classError_none (hc rfl)

end Checks

theorem State.openError_session (h : ∃ q ∈ s.wilwa.transfers, q.sid = x.sid) : s.openError x i j n = some 0x10090100 := by
  obtain ⟨q, hq, e⟩ := h
  exact if_pos (List.any_eq_true.2 ⟨q, hq, by simpa using e⟩)

section Free
variable (hf : ∀ q ∈ s.wilwa.transfers, q.sid ≠ x.sid)
include hf

theorem State.not_transfers_any : ¬ s.wilwa.transfers.any (·.sid == x.sid) = true := by simpa using hf

theorem State.openError_full (hl : 4 ≤ s.wilwa.transfers.length) : s.openError x i j n = some 0x10090200 :=
  (if_neg (State.not_transfers_any hf)).trans (if_pos hl)

theorem State.openError_large (hl : s.wilwa.transfers.length < 4) (hd : findDesc i j = some d) (hn : d.maxSize < n) :
    s.openError x i j n = some 0x10090300 :=
  (if_neg (State.not_transfers_any hf)).trans ((if_neg (by omega)).trans (if_pos (by simpa [hd] using hn)))

theorem State.openError_none (hl : s.wilwa.transfers.length < 4) (hd : findDesc i j = some d) (hn : n ≤ d.maxSize) :
    s.openError x i j n = none :=
  (if_neg (State.not_transfers_any hf)).trans ((if_neg (by omega)).trans (if_neg (by simpa [hd] using hn)))

end Free

theorem State.uploadError_none (h1 : (i, j) ≠ (0x3011, 6)) (h2 : (i, j) ≠ (0x2D30, 2)) : s.uploadError i j = none :=
  (if_neg fun ⟨a, b⟩ => h1 (by rw [a, b])).trans (if_neg fun ⟨a, b⟩ => h2 (by rw [a, b]))

/-! The transfer that is opened. -/

/-- What R72 and R77 check of a TransferInit, in order. -/
def State.transferError (s : State) (x : Session) (i j n : Nat) (download : Bool) : Option Nat :=
  (s.initError x i j download).orElse fun _ => (s.openError x i j n).orElse fun _ => if download then none else s.uploadError i j

theorem State.transferInit_refused (e : s.transferError x i j n download = some code) :
    s.transferInit x i j n download = { type := 0x15, status := code, payload := [], state := s } := by
  unfold State.transferError at e
  unfold State.transferInit
  rw [e]

theorem State.transferError_init (e : s.initError x i j download = some code) : s.transferError x i j n download = some code := by
  unfold State.transferError
  rw [e]
  rfl

theorem State.transferError_open (e : s.initError x i j download = none) (o : s.openError x i j n = some code) :
    s.transferError x i j n download = some code := by
  unfold State.transferError
  rw [e, o]
  rfl

theorem State.transferError_none (e : s.initError x i j download = none) (o : s.openError x i j n = none)
    (p : download = false → s.uploadError i j = none) : s.transferError x i j n download = none := by
  unfold State.transferError
  rw [e, o]
  cases download with
  | false => exact p rfl
  | true => rfl

/-- The identifier that the next transfer gets. -/
def State.newTid (s : State) : Nat := (s.freeId (s.wilwa.transfers.map (·.tid)) 0 65536).1

theorem State.newTid_fresh (h : s.wilwa.transfers.length < 4) : s.newTid ∉ s.wilwa.transfers.map (·.tid) :=
  State.freeId_notMem (by rw [List.length_map]; omega)

/-- The transfer that a TransferInit opens, with what an upload reads. -/
def State.newTransfer (s : State) (x : Session) (i j total : Nat) (download : Bool) (data : Bytes) : Transfer :=
  { tid := s.newTid, sid := x.sid, idx := i, sub := j, download := download, total := total,
    segSize := segmentSize x.version x.src.ip.v6, segs := [], acked := 0, sinceAck := 0, lastAck := none, data := data, sent := 0 }

/-- A transfer put behind those that are open. -/
def State.begin (s : State) (r : Transfer) : State :=
  { s with fresh := s.fresh + 1, wilwa := { s.wilwa with transfers := s.wilwa.transfers ++ [r] } }

/-- The response that opens a transfer (R77). -/
def openAnswer (r : Transfer) (s : State) : Answer :=
  { type := 0x15, status := 0, payload := u16 r.tid ++ u16 r.segSize ++ u8 16, state := s.begin r }

theorem State.transferInit_download (e : s.transferError x i j n true = none) :
    s.transferInit x i j n true = openAnswer (s.newTransfer x i j n true []) s := by
  unfold State.transferError at e
  unfold State.transferInit
  rw [e]
  rfl

theorem State.transferInit_upload (e : s.transferError x i j n false = none) : s.transferInit x i j n false =
    openAnswer ((s.view i j).2.newTransfer x i j (s.view i j).1.toBytes.length false (s.view i j).1.toBytes) (s.view i j).2 := by
  unfold State.transferError at e
  unfold State.transferInit
  rw [e]
  rfl

theorem State.begin_only (s : State) (r : Transfer) : Only [.fresh, .wilwa] s (s.begin r) := fun p hp => by
  cases p
  case fresh => exact absurd (by decide) hp
  case wilwa => exact absurd (by decide) hp
  all_goals rfl

theorem openAnswer_transfers (r : Transfer) (s : State) (x : Session) (q : Nat) :
    ((openAnswer r s).finish x q).wilwa.transfers = s.wilwa.transfers ++ [r] := rfl

/-! Uploads that go on (R77). -/

/-- Where one transfer has been opened, that one goes on. -/
theorem State.pumpFrom_one {l : List Transfer} (e : u.wilwa.transfers = l ++ [r]) : u.pumpFrom l.length = u.pump r := by
  unfold State.pumpFrom
  rw [e, List.drop_left]
  rfl

theorem State.pump_download (hr : r.download = true) : u.pump r = u := by
  unfold State.pump
  split
  · rfl
  · exact if_pos hr

theorem State.pump_end (hs : u.session r.sid = some y) (hr : r.download = false) (ha : r.total ≤ r.acked) :
    u.pump r = (u.transferSend y 0x18 r.tid (crc32c r.data) []).dropTransfer r.tid := by
  unfold State.pump
  rw [hs]
  exact (if_neg (by simp [hr])).trans (if_pos ha)

theorem State.pump_segments (hs : u.session r.sid = some y) (hr : r.download = false) (ha : r.acked < r.total) :
    u.pump r = State.sendSegments 16 y r.tid u := by
  unfold State.pump
  rw [hs]
  exact (if_neg (by simp [hr])).trans (if_neg (by omega))

/-- A segment leaves where the window admits one. -/
theorem State.sendSegments_next {fuel : Nat} (hr : u.transfer k = some r) (h1 : r.sent < r.total) (h2 : r.sent < r.acked + 16 * r.segSize) :
    State.sendSegments (fuel + 1) y k u = State.sendSegments fuel y k ((u.transferSend y 0x16 k r.sent
      (slice r.data r.sent r.segSize)).modTransfer k fun q => { q with sent := q.sent + (slice r.data r.sent r.segSize).length }) := by
  rw [State.sendSegments, hr]
  exact if_neg (by omega)

/-- The transfer opened last is the one its identifier names, where that is fresh. -/
theorem State.transfer_begin {l : List Transfer} (e : u.wilwa.transfers = l ++ [r]) (fresh : r.tid ∉ l.map (·.tid)) :
    u.transfer r.tid = some r := by
  unfold State.transfer
  rw [e, List.find?_append, List.find?_eq_none.2 fun q hq => by simpa using fun k => fresh (List.mem_map.2 ⟨q, hq, k⟩)]
  simp

theorem segmentSize_eq (v : Nat) (v6 : Bool) :
    segmentSize v v6 = if v = 3 then if v6 then 1412 else 1432 else if v6 then 1428 else 1448 := by
  unfold segmentSize
  split
  · rfl
  · rfl
  · rw [if_neg (by assumption)]
    rfl
  · rw [if_neg (by assumption)]
    rfl

theorem segmentSize_pos (v : Nat) (v6 : Bool) : 0 < segmentSize v v6 := by
  rw [segmentSize_eq]
  split <;> split <;> decide

/-- An upload that has just been opened sends its first segment, or its TransferEnd where it has no content. -/
theorem State.pump_first {l : List Transfer} (e : u.wilwa.transfers = l ++ [r]) (fresh : r.tid ∉ l.map (·.tid))
    (hs : u.session r.sid = some y) (hr : r.download = false) (ht : r.total = r.data.length) (ha : r.acked = 0) (h0 : r.sent = 0)
    (hz : 0 < r.segSize) : ∃ d rest, (u.pump r).sent = u.sent ++ .dgram d :: rest ∧
      d.msgType = (if r.data = [] then 0x18 else 0x16) ∧ d.seq = 0 ∧ d.status = 0 := by
  by_cases empty : r.data = []
  · rw [State.pump_end hs hr (by simp [ht, ha, empty])]
    exact ⟨_, _, rfl, by rw [if_pos empty]; rfl, rfl, rfl⟩
  · have some : 0 < r.total := by
      rw [ht]
      exact List.length_pos_of_ne_nil empty
    rw [State.pump_segments hs hr (by omega), State.sendSegments_next (State.transfer_begin e fresh) (by omega) (by omega)]
    obtain ⟨rest, grown⟩ := State.sendSegments_sent 15 y r.tid ((u.transferSend y 0x16 r.tid r.sent
      (slice r.data r.sent r.segSize)).modTransfer r.tid fun q => { q with sent := q.sent + (slice r.data r.sent r.segSize).length })
    exact ⟨_, rest, grown.symm.trans (List.append_assoc u.sent [_] rest), by rw [if_neg empty]; rfl, rfl, rfl⟩

/-! TransferInit, from admission on. -/

/-- What an accepted TransferInit comes to. -/
theorem Accepted.transferInit {i : BitVec 16} {j dir : BitVec 8} {n : BitVec 32}
    (a : Accepted s h 0x14 (u16 i.toNat ++ u8 j.toNat ++ u8 dir.toNat ++ u32 n.toNat) x) (hr : dir.toNat ≤ 1) :
    exec (.transferInit h i j dir n) s = .next ((((s.heard x.sid).transferInit x.now i.toNat j.toNat n.toNat (dir.toNat == 0)).finish
      x.now h.seq.toNat).pumpFrom s.wilwa.transfers.length) := by
  rw [(transferInit_handles s h i j dir n).runs, a.requestV]
  unfold initAnswer
  rw [if_neg (by omega)]

theorem Accepted.transferRefused {i : BitVec 16} {j dir : BitVec 8} {n : BitVec 32}
    (a : Accepted s h 0x14 (u16 i.toNat ++ u8 j.toNat ++ u8 dir.toNat ++ u32 n.toNat) x) (hr : dir.toNat ≤ 1)
    (e : s.transferError x.now i.toNat j.toNat n.toNat (dir.toNat == 0) = some code) :
    Refused (.transferInit h i j dir n) h 0x15 code s := by
  refine (transferInit_handles s h i j dir n).refused a (b := []) ?_
  unfold initAnswer
  rw [if_neg (by omega)]
  exact State.transferInit_refused (s := s.heard x.sid) e

theorem Accepted.inVersion {p : Bytes} (a : Accepted s h 0x14 p x) (i : Nat) : indexInVersion x.now.version i = true :=
  indexInVersion_of_transfers a.admitted.message i

/-- Settles O25: what opens or is refused by R72 and R77 (`initError_…`, `openError_…`), the transfer it opens and the first datagram of
an upload (`pump_first`). -/
theorem transfersOpenOrAreRefused : Obligations.TransfersOpenOrAreRefused := by
  unfold Obligations.TransfersOpenOrAreRefused
  refine ⟨fun s h i j n x d a hd hl hz hr ho hc hf hn hm => ?_, fun s h i j n x d a hd hz hw ho h1 h2 hf hn hm => ?_,
    fun s h i j r n x d a hr hd hl => ?_⟩
  · have run := Accepted.transferInit (dir := 0) a (by decide)
    have allowed : sessionAllows x.now i.toNat (if true then d.level else 0) = none := sessionAllows_none (a.inVersion _) hl
    rw [show ((0 : BitVec 8).toNat == 0) = true from rfl, State.transferInit_download (State.transferError_none
      (State.initError_none (s := s.heard x.sid) hd allowed hz (fun _ => hr) nofun ho fun _ => hc)
      (State.openError_none (s := s.heard x.sid) (x := x.now) hf hn hd hm) nofun),
      State.pumpFrom_one (by exact rfl), State.pump_download (by exact rfl)] at run
    refine ⟨_, (s.heard x.sid).newTransfer x.now i.toNat j.toNat n.toNat true [], run, Answer.finish_answered .., rfl,
      State.newTid_fresh (s := s.heard x.sid) hn, rfl, rfl, rfl, rfl, rfl, rfl, segmentSize_eq .., Answer.finish_payload .., ?_⟩
    exact ((s.heard_only _).mono (by decide)).trans (((State.begin_only _ _).mono (by decide)).trans
      ((Answer.finish_only _ _ _).mono (by decide)))
  · have run := Accepted.transferInit (dir := 1) a (by decide)
    have allowed : sessionAllows x.now i.toNat (if false then d.level else 0) = none := sessionAllows_none (a.inVersion _) (Nat.zero_le _)
    have viewed : Moves [.fresh, .objs] (s.heard x.sid) ((s.heard x.sid).view i.toNat j.toNat).2 := State.view_moves
    have wilwa : ((s.heard x.sid).view i.toNat j.toNat).2.wilwa = (s.heard x.sid).wilwa := viewed.same .wilwa
    have sent : ((s.heard x.sid).view i.toNat j.toNat).2.sent = s.sent := viewed.same .sent
    rw [show ((1 : BitVec 8).toNat == 0) = false from rfl, State.transferInit_upload (State.transferError_none
      (State.initError_none (s := s.heard x.sid) hd allowed hz nofun (fun _ => hw) ho nofun)
      (State.openError_none (s := s.heard x.sid) (x := x.now) hf hn hd hm) fun _ => State.uploadError_none h1 h2)] at run
    generalize (s.heard x.sid).view i.toNat j.toNat = v at run viewed wilwa sent ⊢
    have transfers : s.wilwa.transfers = v.2.wilwa.transfers := by
      rw [wilwa]
      rfl
    have opened : v.2.session x.sid = some x.now :=
      (State.session_congr (congrArg Wilwa.sessions wilwa) _).trans a.admitted.session_heard
    generalize hr : v.2.newTransfer x.now i.toNat j.toNat v.1.toBytes.length false v.1.toBytes = r at run
    have fresh : r.tid ∉ v.2.wilwa.transfers.map (·.tid) := hr ▸ State.newTid_fresh (s := v.2) (by rwa [← transfers])
    have placed := openAnswer_transfers r v.2 x.now h.seq.toNat
    have still := Answer.finish_session_self (a := openAnswer r v.2) (x := x.now) h.seq.toNat opened
    rw [show x.now.sid = r.sid from hr ▸ rfl] at still
    rw [transfers, State.pumpFrom_one placed] at run
    obtain ⟨e, rest, more, type, seq, status⟩ := State.pump_first placed fresh still (hr ▸ rfl) (hr ▸ rfl) (hr ▸ rfl) (hr ▸ rfl)
      (hr ▸ segmentSize_pos ..)
    rw [Answer.finish_sent, List.append_assoc] at more
    refine ⟨_, _, e, rest, _, run, more.trans (congrArg (· ++ _) sent), rfl, rfl, rfl, rfl, ?_, seq, status, ?_⟩
    · rw [type, ← hr]
      rfl
    · exact (State.heard_only _ _ |>.mono (by decide)).trans ((viewed.only.mono (by decide)).trans
        (((State.begin_only _ _).mono (by decide)).trans (((Answer.finish_only _ _ _).mono (by decide)).trans
          (State.pump_moves.only.mono (by decide)))))
  · have allowed : sessionAllows x.now i.toNat (if (r.toNat == 0) = true then d.level else 0) = none := by
      refine sessionAllows_none (a.inVersion _) ?_
      split
      next k => exact hl (by simpa using k)
      · exact Nat.zero_le _
    have up : ∀ {p : Prop}, (r.toNat = 1 → p) → (r.toNat == 0) = false → p := fun f k => f (by simp at k; omega)
    have down : ∀ {p : Prop}, (r.toNat = 0 → p) → (r.toNat == 0) = true → p := fun f k => f (by simpa using k)
    refine ⟨fun hz => ?_, fun hz h0 hc => ?_, fun hz h1 hc => ?_, fun hz h0 h1 ho => ?_, fun hz h0 h1 ho hc => ?_⟩
    · exact a.transferRefused hr (State.transferError_init (State.initError_size hd allowed hz))
    · exact a.transferRefused hr (State.transferError_init (State.initError_readOnly hd allowed hz (by simp [h0]) hc))
    · exact a.transferRefused hr (State.transferError_init (State.initError_writeOnly hd allowed hz (by simp [h1]) hc))
    · exact a.transferRefused hr (State.transferError_init (State.initError_off hd allowed hz (down h0) (up h1) ho))
    · have passed := State.initError_none hd allowed hz (down h0) (up h1) ho (down hc)
      exact ⟨fun k => a.transferRefused hr (State.transferError_open passed (State.openError_session k)),
        fun k full => a.transferRefused hr (State.transferError_open passed (State.openError_full k full)),
        fun k room large => a.transferRefused hr (State.transferError_open passed (State.openError_large k room hd large))⟩

end Sys2Proof.Machine
end

section
/-! Segments and their acknowledgements (R77). -/

set_option Elab.async false

namespace Sys2Proof.Machine

variable {s t u : State} {h : Hdr} {x y : Session} {k off : Nat} {r q : Transfer} {f : Transfer → Transfer} {data : Bytes}

/-! One transfer among the others. -/

theorem State.transfer_tid (hr : s.transfer k = some r) : r.tid = k := by simpa using List.find?_some hr

theorem State.transfer_modTransfer (hf : ∀ q, (f q).tid = q.tid) (hr : s.transfer k = some r) :
    (s.modTransfer k f).transfer k = some (f r) := by
  unfold State.transfer State.modTransfer at *
  have same : ((fun q : Transfer => q.tid == k) ∘ fun q => if q.tid = k then f q else q) = fun q => q.tid == k := by
    funext q
    dsimp only [Function.comp]
    split
    · rw [hf]
    · rfl
  rw [List.find?_map, same, hr, Option.map_some, if_pos (State.transfer_tid hr)]

theorem State.transfer_dropTransfer (s : State) (k : Nat) : (s.dropTransfer k).transfer k = none := by
  refine List.find?_eq_none.2 fun q hq => ?_
  simpa using (List.mem_filter.1 hq).2

theorem State.sessionTransfer_eq (hr : s.transfer k = some r) (hx : r.sid = x.sid) : s.sessionTransfer x k = some r := by
  unfold State.sessionTransfer
  rw [hr]
  exact Option.filter_some_pos (by simpa using hx)

theorem State.transferSend_payload (s : State) (x : Session) (ty k n : Nat) (data : Bytes) :
    LastPayload (s.transferSend x ty k n data) (u16 k ++ u16 0 ++ u32 n ++ data) := ⟨_, s.sendDgram_last _, rfl⟩

/-- What the window sends moves what has been sent on, and acknowledges nothing. -/
theorem State.sendSegments_transfer (fuel : Nat) (hr : s.transfer k = some r) :
    ∃ q, (State.sendSegments fuel y k s).transfer k = some q ∧ q.acked = r.acked ∧ r.sent ≤ q.sent := by
  induction fuel generalizing s r with
  | zero => exact ⟨r, hr, rfl, Nat.le_refl _⟩
  | succ fuel ih =>
    rw [State.sendSegments, hr]
    by_cases full : r.total ≤ r.sent ∨ r.acked + 16 * r.segSize ≤ r.sent
    · dsimp only
      rw [if_pos full]
      exact ⟨r, hr, rfl, Nat.le_refl _⟩
    · dsimp only
      rw [if_neg full]
      obtain ⟨q, hq, acked, sent⟩ := ih (State.transfer_modTransfer (f := fun q => { q with
        sent := q.sent + (slice r.data r.sent r.segSize).length }) (by exact fun _ => rfl)
        (show (s.transferSend y 0x16 k r.sent (slice r.data r.sent r.segSize)).transfer k = some r from hr))
      exact ⟨q, hq, acked, Nat.le_trans (Nat.le_add_right _ _) sent⟩

/-! Acknowledgements of an upload. -/

/-- A transfer that the host has acknowledged so far. -/
def Transfer.ackedTo (r : Transfer) (n : Nat) : Transfer := { r with acked := n }

def State.acknowledge (s : State) (k n : Nat) : State := s.modTransfer k fun q => q.ackedTo n

theorem State.acknowledge_transfer {n : Nat} (hr : s.transfer k = some r) : (s.acknowledge k n).transfer k = some (r.ackedTo n) :=
  State.transfer_modTransfer (by exact fun _ => rfl) hr

theorem State.acknowledge_moves {n : Nat} : Moves [.wilwa] s (s.acknowledge k n) := State.modTransfer_moves

/-! Downloads. -/

/-- A segment of a download is to be acknowledged: the fourth since the last, or the last one. -/
def Transfer.acks (r : Transfer) (off : Nat) (data : Bytes) : Bool := (r.sinceAck + 1) % 4 == 0 || off + data.length == r.total

/-- A download that has taken a segment. -/
def Transfer.taken (r : Transfer) (off : Nat) (data : Bytes) : Transfer :=
  { r with
    segs := kvPut r.segs (off / max 1 r.segSize) data
    acked := contiguous (kvPut r.segs (off / max 1 r.segSize) data) ((kvPut r.segs (off / max 1 r.segSize) data).length + 1) 0
    sinceAck := (r.sinceAck + 1) % 4
    lastAck := if r.acks off data then
        some (contiguous (kvPut r.segs (off / max 1 r.segSize) data) ((kvPut r.segs (off / max 1 r.segSize) data).length + 1) 0)
      else r.lastAck }

/-- What a change of a transfer to what it takes from a segment comes to; the acknowledgement is behind it. -/
def State.takeSegment (s : State) (r : Transfer) (off : Nat) (data : Bytes) : State :=
  s.modTransfer r.tid fun q => { q with
    segs := (r.taken off data).segs, acked := (r.taken off data).acked, sinceAck := (r.taken off data).sinceAck,
    lastAck := if r.acks off data then some (r.taken off data).acked else q.lastAck }

theorem State.takeSegment_transfer (hr : s.transfer k = some r) : (s.takeSegment r off data).transfer k = some (r.taken off data) := by
  unfold State.takeSegment
  rw [State.transfer_tid hr]
  exact State.transfer_modTransfer (by exact fun _ => rfl) hr

section Download
variable {k : BitVec 16} {o a : BitVec 32}

theorem exec_segment (ad : Admitted s h 0x16 (u16 k.toNat ++ u16 0 ++ u32 o.toNat ++ data) x) (hr : s.transfer k.toNat = some r)
    (hx : r.sid = x.sid) (hd : r.download = true) : exec (.segment h k o data) s = .next
    (if !r.segmentOk o.toNat data then match r.lastAck with
        | some a => (s.heard x.sid).transferSend x.now 0x17 r.tid a []
        | none => s.heard x.sid
      else if r.acks o.toNat data then
        ((s.heard x.sid).takeSegment r o.toNat data).transferSend x.now 0x17 r.tid (r.taken o.toNat data).acked []
      else (s.heard x.sid).takeSegment r o.toNat data) := by
  show execSegment h k o data s = _
  unfold execSegment
  rw [ad.notice, State.sessionTransfer_eq (s := s.heard x.sid) (x := x.now) hr hx]
  exact congrArg Host.Outcome.next (if_neg (by simp [hd]))

theorem exec_segmentAck (ad : Admitted s h 0x17 (u16 k.toNat ++ u16 0 ++ u32 a.toNat) x) (hr : s.transfer k.toNat = some r)
    (hx : r.sid = x.sid) (hd : r.download = false) (h1 : r.acked ≤ a.toNat) (h2 : a.toNat ≤ r.sent)
    (h3 : a.toNat ≠ r.total → a.toNat % max 1 r.segSize = 0) : exec (.segmentAck h k a) s = .next
    (((s.heard x.sid).acknowledge k.toNat a.toNat).pump (r.ackedTo a.toNat)) := by
  have moves : ¬ (r.download || decide (a.toNat < r.acked) || decide (r.sent < a.toNat) ||
      (a.toNat != r.total && a.toNat % max 1 r.segSize != 0)) = true := by
    rw [hd, decide_eq_false (by omega), decide_eq_false (by omega)]
    by_cases last : a.toNat = r.total
    · simp [last]
    · simp [h3 last]
  have moved := State.acknowledge_transfer (s := s.heard x.sid) (n := a.toNat) hr
  show execSegmentAck h k a s = _
  unfold execSegmentAck
  rw [ad.notice, State.sessionTransfer_eq (s := s.heard x.sid) (x := x.now) hr hx]
  refine congrArg Host.Outcome.next ((if_neg moves).trans ?_)
  extract_lets acknowledged
  have same : acknowledged = (s.heard x.sid).acknowledge k.toNat a.toNat := State.transfer_tid hr ▸ rfl
  rw [same, State.transfer_tid hr, moved]

end Download

theorem State.takeSegment_only (s : State) (r : Transfer) (off : Nat) (data : Bytes) : Only [.wilwa] s (s.takeSegment r off data) :=
  State.modTransfer_moves.only

/-- Settles O26: what a segment and an acknowledgement come to (`exec_segment`, `exec_segmentAck`), and what the window makes of it
(`pump_end`, `sendSegments_transfer`). -/
theorem segmentsAreTakenAndAcknowledged : Obligations.SegmentsAreTakenAndAcknowledged := by
  unfold Obligations.SegmentsAreTakenAndAcknowledged
  refine ⟨fun s h k o data x r ad hr hx hd ok => ?_, fun s h k o data x r a ad hr hx hd bad la => ?_,
    fun s h k a x r ad hr hx hd h1 h2 => ⟨fun last => ?_, fun more whole => ?_⟩⟩
  · have run := exec_segment ad hr hx hd
    rw [if_neg (by simp [ok])] at run
    have taken := State.takeSegment_transfer (s := s.heard x.sid) (off := o.toNat) (data := data) hr
    have only := (s.heard_only x.sid).trans ((s.heard x.sid).takeSegment_only r o.toNat data)
    by_cases acks : r.acks o.toNat data = true
    · rw [if_pos acks] at run
      refine ⟨_, _, run, taken, kvGet_kvPut_self .., rfl, fun _ => ⟨?_, if_pos acks⟩, fun no => absurd ?_ no, ?_⟩
      · have payload := ((s.heard x.sid).takeSegment r o.toNat data).transferSend_payload x.now 0x17 r.tid (r.taken o.toNat data).acked []
        rwa [List.append_nil] at payload
      · simpa [Transfer.acks] using acks
      · exact (only.mono (by decide)).trans (State.transferSend_moves.only.mono (by decide))
    · rw [if_neg acks] at run
      exact ⟨_, _, run, taken, kvGet_kvPut_self .., rfl, fun yes => absurd (by simpa [Transfer.acks] using yes) acks, fun _ => rfl,
        only.mono (by decide)⟩
  · have run := exec_segment ad hr hx hd
    rw [if_pos (by simp [bad]), la] at run
    refine ⟨_, run, rfl, ?_, ((s.heard_only _).mono (by decide)).trans (State.transferSend_moves.only.mono (by decide))⟩
    have payload := (s.heard x.sid).transferSend_payload x.now 0x17 r.tid a []
    rwa [List.append_nil] at payload
  · have run := exec_segmentAck ad hr hx hd h1 h2 fun no => absurd last no
    have ended := State.pump_end (u := (s.heard x.sid).acknowledge k.toNat a.toNat) (r := r.ackedTo a.toNat) (y := x.now)
      (hx ▸ ad.session_heard) hd (Nat.le_of_eq last.symm)
    rw [ended, show (r.ackedTo a.toNat).tid = r.tid from rfl] at run
    refine ⟨_, run, ?_, ?_, ?_⟩
    · rw [State.transfer_tid hr]
      exact State.transfer_dropTransfer _ _
    · have payload := ((s.heard x.sid).acknowledge k.toNat a.toNat).transferSend_payload x.now 0x18 r.tid (crc32c r.data) []
      rwa [List.append_nil] at payload
    · exact (Moves.after State.dropTransfer_moves (.after State.transferSend_moves (.after State.acknowledge_moves
        State.heard_moves.mono))).only
  · have run := exec_segmentAck ad hr hx hd h1 h2 fun _ => whole
    have goes := State.pump_segments (u := (s.heard x.sid).acknowledge k.toNat a.toNat) (r := r.ackedTo a.toNat) (y := x.now)
      (hx ▸ ad.session_heard) hd more
    rw [goes, show (r.ackedTo a.toNat).tid = r.tid from rfl, State.transfer_tid hr] at run
    obtain ⟨q, hq, acked, sent⟩ := State.sendSegments_transfer 16 (y := x.now)
      (State.acknowledge_transfer (s := s.heard x.sid) (n := a.toNat) hr)
    exact ⟨_, q, run, hq, acked, sent,
      (Moves.after State.sendSegments_moves (.after State.acknowledge_moves State.heard_moves.mono)).only⟩

end Sys2Proof.Machine
end

section
/-! Commits that are refused (R75, R76, R357). -/

set_option Elab.async false

namespace Sys2Proof.Machine

variable {s t : State} {h : Hdr} {x : Session} {a : BitVec 8} {g : BitVec 32} {area gen : Nat}

/-- The CommitRequest of an area is the first of its administration objects (R74). -/
theorem findRow_commitRequest (ha : isAdminArea area = true) :
    findRow (area * 256) 1 = some (Desc.mk (area * 256) (area * 256) 1 1 "CommitRequest" .u32 .rw .free 1 4 (.num 0) []) := by
  unfold findRow adminTable
  rw [Nat.mul_div_cancel _ (by decide), if_pos ha]
  dsimp only
  rw [List.find?_cons_of_pos (by simp [Desc.covers])]
  rfl

/-- The CommitRequest of an area is a number. -/
theorem commitRequest_size (ha : isAdminArea area = true) : ((findDesc (area * 256) 1).bind (·.ty.size)).isSome = true := by
  unfold findDesc
  rw [findRow_commitRequest ha]
  rfl

/-- The trace that a refused commit leaves in CommitStatus. -/
def State.commitNoted (s : State) (area result i j : Nat) : State :=
  s.modAdm area fun a => { a with result := result, failIdx := i, failSub := j }

theorem State.commitNoted_adm (s : State) (area result i j : Nat) :
    (s.commitNoted area result i j).adm area = { s.adm area with result := result, failIdx := i, failSub := j } := kvGet_kvSet_self ..

theorem State.commitNoted_moves {result i j : Nat} : Moves [.wilwa] s (s.commitNoted area result i j) := State.modAdm_moves

/-- A Write of CommitRequest that R72 lets through is a commit. -/
theorem WriteTaken.commits (w : WriteTaken s h (a.toNat * 256) 1 (u32 g.toNat) x) (ha : isAdminArea a.toNat = true) {code : Nat}
    (e : (s.heard x.sid).commitRequest a.toNat g.toNat = (code, t)) : exec (.commitRequest h a g) s = .next (Answer.finish
      { type := 0x13, status := code, payload := u16 (a.toNat * 256) ++ u8 1 ++ u8 0, state := t } x.now h.seq.toNat) := by
  obtain ⟨d, allowed⟩ := w.allowed
  have area : a.toNat * 256 / 256 = a.toNat := Nat.mul_div_cancel _ (by decide)
  have number : (d.value (u32 g.toNat)).toNum = g.toNat := by
    rw [Desc.value_num allowed.described _ (commitRequest_size ha)]
    exact (leNat_leBytes 4 _).trans (Nat.mod_eq_of_lt g.isLt)
  have written : (s.heard x.sid).write x.now (a.toNat * 256) 1 (u32 g.toNat) false =
      (s.heard x.sid).commitRequest a.toNat g.toNat := by
    rw [State.write_none allowed.described allowed.writeError]
    unfold State.applyWrite
    rw [area, if_pos (by simp [ha]), number]
  exact w.accepted.written (c := .commitRequest h a g) rfl (written.trans e)

/-! What a CommitRequest is refused with, in order (R75). -/

section Refusals
variable (hr : s.mir.role ≠ .standby)

theorem State.commitRequest_standby (hr : s.mir.role = .standby) : s.commitRequest area gen = (area * 2 ^ 24 + 0x3F100, s) := if_pos hr

include hr

theorem State.commitRequest_generation (hg : gen ≠ ((s.adm area).generation + 1) % 2 ^ 32) : s.commitRequest area gen =
    (area * 2 ^ 24 + 0x80100,
      if (s.adm area).result = 1 then s else s.commitNoted area 3 0 0) :=
  (if_neg hr).trans (if_pos hg)

variable (hg : gen = ((s.adm area).generation + 1) % 2 ^ 32)
include hg

theorem State.commitRequest_pending (hp : (s.adm area).result = 1) : s.commitRequest area gen = (area * 2 ^ 24 + 0x50100, s) :=
  (if_neg hr).trans ((if_neg (by simpa using hg)).trans (if_pos hp))

theorem State.commitRequest_check {code i j : Nat} (hp : (s.adm area).result ≠ 1) (hc : s.checkArea area s.shadowObj = some (code, i, j))
    (hl : area = 0x2A → s.pwr.dev = .standby ∨ assignmentChanges s s.shadowObj = false) : s.commitRequest area gen =
    (code, s.commitNoted area 2 (i % 256) j) := by
  have assignment : ¬ (area = 0x2A ∧ s.pwr.dev ≠ .standby ∧ assignmentChanges s s.shadowObj) := fun ⟨e, d, c⟩ =>
    (hl e).elim d fun k => by simp [k] at c
  unfold State.commitRequest
  extract_lets a mine
  rw [if_neg hr, if_neg (by simpa using hg), if_neg hp, if_neg assignment, hc]
  rfl

end Refusals

/-- Settles O29: `commitRequest` by the first thing that speaks against the commit. -/
theorem commitsAreRefused : Obligations.CommitsAreRefused := by
  unfold Obligations.CommitsAreRefused
  refine ⟨fun s h a g x w ha hr => ?_, fun s h a g x w ha hr hg => ?_, fun s h a g x w ha hr hg hp => ?_,
    fun s h a g x code i j w ha hr hg hp hc hl => ?_⟩
  · have run := w.commits ha (State.commitRequest_standby (s := s.heard x.sid) hr)
    exact ⟨_, run, Answer.finish_answered .., rfl, rfl, (Answer.finish_seats _ _ _).trans (s.heard_seats _),
      ((s.heard_only _).mono (by decide)).trans (Answer.finish_only _ _ _)⟩
  · have refused := State.commitRequest_generation (s := s.heard x.sid) hr hg
    by_cases hp : (s.adm a.toNat).result = 1
    · rw [if_pos (by exact hp)] at refused
      have run := w.commits ha refused
      exact ⟨_, run, Answer.finish_answered .., rfl, rfl, rfl, hp.trans (if_pos hp).symm,
        ((s.heard_only _).mono (by decide)).trans (Answer.finish_only _ _ _)⟩
    · rw [if_neg (by exact hp)] at refused
      have run := w.commits ha refused
      have noted := (s.heard x.sid).commitNoted_adm a.toNat 3 0 0
      exact ⟨_, run, Answer.finish_answered .., rfl, rfl, (congrArg AreaAdm.generation noted).trans rfl,
        (congrArg AreaAdm.result noted).trans (if_neg hp).symm,
        (Moves.after Answer.finish_moves (.after State.commitNoted_moves State.heard_moves.mono)).only⟩
  · have run := w.commits ha (State.commitRequest_pending (s := s.heard x.sid) hr hg hp)
    exact ⟨_, run, Answer.finish_answered .., rfl, rfl, (Answer.finish_seats _ _ _).trans (s.heard_seats _),
      ((s.heard_only _).mono (by decide)).trans (Answer.finish_only _ _ _)⟩
  · have run := w.commits ha (State.commitRequest_check (s := s.heard x.sid) hr hg hp hc hl)
    have noted := (s.heard x.sid).commitNoted_adm a.toNat 2 (i % 256) j
    exact ⟨_, run, Answer.finish_answered .., rfl, rfl, congrArg AreaAdm.result noted, congrArg AreaAdm.failIdx noted,
      congrArg AreaAdm.failSub noted, (Moves.after Answer.finish_moves (.after State.commitNoted_moves State.heard_moves.mono)).only⟩

end Sys2Proof.Machine
end

section
/-! Emergencies that are resent and acknowledged, and the causes that a host clears (R82). -/

set_option Elab.async false

namespace Sys2Proof.Machine

variable {s t : State} {x : Session} {u : Unacked}

/-- Taking the bits of `m` from `a` clears them. -/
theorem testBit_sub_and (a m k : Nat) : (a - (a &&& m)).testBit k = (a.testBit k && !m.testBit k) := by
  induction k generalizing a m with
  | zero =>
    have := Nat.and_mod_two_eq_one (a := a) (b := m)
    have := Nat.and_le_left (n := a) (m := m)
    rw [Nat.testBit_zero, Nat.testBit_zero, Nat.testBit_zero, Bool.eq_iff_iff]
    simp only [decide_eq_true_eq, Bool.and_eq_true, Bool.not_eq_true', decide_eq_false_iff_not]
    omega
  | succ k ih =>
    have := Nat.and_mod_two_eq_one (a := a) (b := m)
    have := Nat.and_le_left (n := a) (m := m)
    have half : (a - (a &&& m)) / 2 = a / 2 - (a / 2 &&& m / 2) := by
      rw [← Nat.and_div_two]
      omega
    rw [Nat.testBit_succ, half, ih, Nat.testBit_succ, Nat.testBit_succ]

/-! Records that are not acknowledged. -/

/-- A session whose record is counted as sent again. -/
def Session.resent (x : Session) (q : Nat) : Session :=
  { x with unacked := x.unacked.map fun v => if v.seq = q then { v with resent := v.resent + 1 } else v }

/-- A session without the record of a sequence number. -/
def Session.acked (x : Session) (q : Nat) : Session := { x with unacked := x.unacked.filter fun v => v.seq != q }

section Retransmit
variable {i : BitVec 16} {q : BitVec 32} (hx : s.session i.toNat = some x)
  (hu : x.unacked.find? (fun u => u.seq == q.toNat) = some u)
include hx hu

theorem exec_emergencyRetransmit : exec (.emergencyRetransmitTimeout i q) s = .next
    (if u.resent < 3 then (s.modSession x.sid (·.resent u.seq)).sendDgram (sessionDgram x 0x20 u.seq 4 0 u.record false)
    else ((s.modSession x.sid (·.acked u.seq)).irq 6).raise 0x1012 0 (u16 x.sid ++ u32 u.seq)) := by
  show execEmergencyRetransmitTimeout i q s = _
  unfold execEmergencyRetransmitTimeout
  rw [hx]
  dsimp only
  rw [hu]
  dsimp only
  split <;> rfl

end Retransmit

/-- A datagram in a session keeps its flags beside the tag's (R57, R59). -/
theorem sessionDgram_resent (x : Session) (ty seq status : Nat) (p : Bytes) (cyclic : Bool) :
    bit (sessionDgram x ty seq 4 status p cyclic).flags 2 = true := by
  show bit (4 + (if x.sessKey.isSome then 2 else 0)) 2 = true
  split <;> decide

/-- Settles O30: the records of a session (`exec_emergencyRetransmit`), and IrqCause by `testBit_sub_and`. -/
theorem emergenciesAndInterruptCauses : Obligations.EmergenciesAndInterruptCauses := by
  unfold Obligations.EmergenciesAndInterruptCauses
  refine ⟨fun s h q x a => ?_, fun s i q x u hx hu hr => ?_, fun s i q x u hx hu hr => ?_, fun s h m x w => ?_⟩
  · have acked := State.session_modSession_self (f := (·.acked q.toNat)) (by exact fun _ => rfl) a.session_heard
    refine ⟨_, _, congrArg Host.Outcome.next (a.notice _), acked, rfl, ?_, ?_⟩
    · exact (State.modSession_seats (by exact fun _ => ⟨rfl, rfl⟩)).trans (s.heard_seats _)
    · exact (Moves.after (State.modSession_moves (by exact fun _ => ⟨rfl, rfl⟩)) State.heard_moves).only
  · have seq : u.seq = q.toNat := by simpa using List.find?_some hu
    have run := exec_emergencyRetransmit hx hu
    rw [if_pos hr] at run
    have resent := State.session_modSession_self (f := (·.resent u.seq)) (by exact fun _ => rfl) (State.session_sid hx ▸ hx)
    refine ⟨_, _, _, run, (State.session_sendDgram ..).trans resent, ?_, rfl, rfl, seq,
      sessionDgram_resent x 0x20 u.seq 0 u.record false, rfl, ?_⟩
    · exact List.mem_map.2 ⟨u, List.mem_of_find?_eq_some hu, if_pos rfl⟩
    · exact (Moves.after State.sendDgram_moves (State.modSession_moves (by exact fun _ => ⟨rfl, rfl⟩)).mono).only
  · have seq : u.seq = q.toNat := by simpa using List.find?_some hu
    have run := exec_emergencyRetransmit hx hu
    rw [if_neg (by omega)] at run
    have acked := State.session_modSession_self (f := (·.acked u.seq)) (by exact fun _ => rfl) (State.session_sid hx ▸ hx)
    have raised := State.raise_objs_only ((s.modSession x.sid (·.acked u.seq)).irq 6) 0x1012 0 (u16 x.sid ++ u32 u.seq)
    have moved := State.raise_moves (s := (s.modSession x.sid (·.acked u.seq)).irq 6) (src := 0x1012) (cause := 0)
      (data := u16 x.sid ++ u32 u.seq)
    refine ⟨_, _, run, (State.session_congr (SessionsKept.of_moves moved) _).trans acked, fun v hv => ?_, ?_, fun takes => ?_, ?_, ?_⟩
    · rw [← seq]
      simpa using (List.mem_filter.1 hv).2
    · rw [raised.num]
      exact State.irq_bit _ 6
    · exact State.raise_raised _ _ _ (State.takesReports_congr rfl rfl takes)
    · exact (ObjsOnly.of_objs rfl).trans (((State.irq_objs_only _ 6).mono (by decide)).trans (raised.mono (by decide)))
    · exact (Moves.after moved (.after State.irq_moves (State.modSession_moves (by exact fun _ => ⟨rfl, rfl⟩)).mono)).only
  · obtain ⟨t, run, answered, behind, only⟩ := w.row (ps := [.wilwa, .sent, .objs]) (by decide) (by decide)
      (fun d hd => (congrArg (hook x.now 0x1050 1 · (s.heard x.sid)) (Desc.value_num hd _ (by decide))).trans rfl) State.setNum_moves.mono
    refine ⟨t, run, answered, fun k _ => ?_, ?_, only⟩
    · rw [State.num_congr (behind .objs (by decide)), State.num_setNum_self, bit_eq_testBit, testBit_sub_and,
        ← bit_eq_testBit, ← bit_eq_testBit]
      rw [show (Val.num (leNat (u32 m.toNat))).toNum = m.toNat from (leNat_leBytes 4 _).trans (Nat.mod_eq_of_lt m.isLt)]
      rfl
    · exact (State.setNum_objs_only (s.heard x.sid) 0x1050 1 _).trans (.of_objs (behind .objs (by decide)))

end Sys2Proof.Machine
end

section
/-! Cyclic streams that start and stop, and credentials (R69, R79, R81). -/

set_option Elab.async false

namespace Sys2Proof.Machine

variable {s t : State} {h : Hdr} {x : Session} {n b : Nat}

/-! CyclicControl (R79, R81). -/

/-- The offsets lie inside the period: the streams start, bound to the session, or stop. -/
theorem State.cyclicControl_ok (h3 : s.num 0x6010 3 < s.num 0x6010 2) (h4 : s.num 0x6010 4 < s.num 0x6010 2) :
    ∃ w, s.cyclicControl x n = .ok (({ s with wilwa := w } : State).setNum 0x6010 1 n) ∧ w.cycSid = (if n = 0 then 0 else x.sid) ∧
      w.sessions = s.wilwa.sessions := ⟨_, if_neg (by omega), rfl, rfl⟩

theorem State.cyclicControl_error (hp : s.num 0x6010 2 ≤ s.num 0x6010 3 ∨ s.num 0x6010 2 ≤ s.num 0x6010 4) :
    s.cyclicControl x n = .error 0x60070200 := if_pos hp

/-- The bits of CyclicControl. -/
theorem bit_controls (tx rx : Bool) : bit (b2n tx + b2n rx * 2) 0 = tx ∧ bit (b2n tx + b2n rx * 2) 1 = rx := by
  cases tx <;> cases rx <;> decide

theorem controls_lt (tx rx : Bool) : b2n tx + b2n rx * 2 < 256 := by cases tx <;> cases rx <;> decide

/-- A Write of CyclicControl is what it does to the streams. -/
theorem hook_cyclicControl {d : Desc} (hd : findDesc 0x6010 1 = some d) (hb : b < 256) :
    hook x 0x6010 1 (d.value (u8 b)) s = some (s.cyclicControl x b) := by
  rw [Desc.value_num hd _ (by decide), show leNat (u8 b) = b from (leNat_leBytes 1 b).trans (Nat.mod_eq_of_lt hb)]
  rfl

/-- A Write that sets both bits of CyclicControl, with the offsets inside the period. -/
theorem WriteTaken.controls {tx rx : Bool} {c : Instr} (w : WriteTaken s h 0x6010 1 (u8 b) x) (hb : b = b2n tx + b2n rx * 2)
    (hc : writeOf s c = some (h, 0x6010, 1, 0, u8 b)) (h3 : s.num 0x6010 3 < s.num 0x6010 2) (h4 : s.num 0x6010 4 < s.num 0x6010 2) :
    ∃ t, exec c s = .next t ∧ Answered t 0x13 0 h.seq.toNat ∧ t.cycRuns 0 = tx ∧ t.cycRuns 1 = rx ∧
      t.wilwa.cycSid = (if b = 0 then 0 else x.sid) ∧ ObjsOnly [(0x6010, 1)] s t ∧ Only [.wilwa, .sent, .objs] s t := by
  obtain ⟨d, allowed⟩ := w.allowed
  obtain ⟨v, ok, bound, sessions⟩ := State.cyclicControl_ok (s := s.heard x.sid) (x := x.now) (n := b) h3 h4
  generalize hu : State.setNum _ 0x6010 1 b = u at ok
  have set : u.num 0x6010 1 = b := hu ▸ State.num_setNum_self ..
  have sid : u.wilwa.cycSid = if b = 0 then 0 else x.sid := hu ▸ bound
  have objs : ObjsOnly [(0x6010, 1)] s u := hu ▸ (ObjsOnly.of_objs rfl).trans (State.setNum_objs_only _ _ _ _)
  have moves : Moves [.wilwa, .objs] (s.heard x.sid) u := hu ▸ .after State.setNum_moves (.wilwa .refl sessions)
  have written : (s.heard x.sid).write x.now 0x6010 1 (u8 b) false = (0, u) := by
    rw [State.write_none allowed.described allowed.writeError]
    refine State.applyWrite_done (by decide) ?_
    rw [hook_cyclicControl allowed.described (hb ▸ controls_lt ..), ok]
  obtain ⟨bit0, bit1⟩ := bit_controls tx rx
  refine ⟨_, w.accepted.written hc written, Answer.finish_answered .., ?_, ?_, sid, Answer.finish_objs_only _ _ _ objs,
    (Moves.after Answer.finish_moves (.after moves State.heard_moves.mono)).only⟩
  · exact (congrArg (bit · 0) (set.trans hb)).trans bit0
  · exact (congrArg (bit · 1) (set.trans hb)).trans bit1

/-- Settles O31: a Write of CyclicControl (`WriteTaken.controls`) or of a credential is its row's effect. -/
theorem streamsStartAndStop : Obligations.StreamsStartAndStop := by
  unfold Obligations.StreamsStartAndStop
  refine ⟨fun s h run x b hb w h3 h4 => ?_, fun s h run x b hb w h3 h4 => ?_, fun s h run x b hb w hp => ?_, fun s h c x w => ?_,
    fun s h c x w => ?_⟩
  · exact w.controls hb (by rw [hb]; rfl) h3 h4
  · obtain ⟨t, e, answered, tx, rx, rest⟩ := w.controls (c := .cyclicRxRunWrite h run) hb (by rw [hb]; rfl) h3 h4
    exact ⟨t, e, answered, rx, tx, rest⟩
  · obtain ⟨d, allowed⟩ := w.allowed
    refine w.accepted.writeRefused (by rw [hb]; rfl) ?_
    rw [State.write_none allowed.described allowed.writeError]
    refine State.applyWrite_error (by decide) ?_
    rw [hook_cyclicControl allowed.described (hb ▸ controls_lt ..)]
    exact congrArg some (State.cyclicControl_error (s := s.heard x.sid) hp)
  · obtain ⟨t, e, answered, behind, only⟩ := w.row (ps := [.wilwa, .sent, .nonVol]) (by decide) (by decide)
      (fun d hd => (congrArg (hook x.now 0x1030 1 · (s.heard x.sid)) (Desc.value_bytes hd _ (by decide))).trans rfl) (.nonVol .refl)
    have stored := behind .nonVol (by decide)
    exact ⟨t, e, answered, congrArg NonVol.operator stored, (congrArg NonVol.service stored).trans rfl, only⟩
  · obtain ⟨t, e, answered, behind, only⟩ := w.row (ps := [.wilwa, .sent, .nonVol]) (by decide) (by decide)
      (fun d hd => (congrArg (hook x.now 0x1030 2 · (s.heard x.sid)) (Desc.value_bytes hd _ (by decide))).trans rfl) (.nonVol .refl)
    have stored := behind .nonVol (by decide)
    exact ⟨t, e, answered, congrArg NonVol.service stored, (congrArg NonVol.operator stored).trans rfl, only⟩

end Sys2Proof.Machine
end

section
/-! What a read leaves of the objects (R64, R88). -/

set_option Elab.async false

namespace Sys2Proof.Machine

variable {s t u : State} {i j k : Nat} {q : Val × State}

theorem State.rxCount_objs_only (s : State) (hj : k + 1 < 256) : ObjsOnly [(i, k + 1)] s (s.rxCount i k).2 :=
  (ObjsOnly.of_objs rfl : ObjsOnly _ s s.free.2).trans (.ite .refl (State.setNum_objs_only _ _ _ _ hj))

theorem State.testErrors_objs_only (s : State) (hj : k + 1 < 256) : ObjsOnly [(0x2A32, k + 1)] s (s.testErrors k).2 :=
  (ObjsOnly.of_objs rfl : ObjsOnly _ s s.free.2).trans (.ite (State.setNum_objs_only _ _ _ _ hj) .refl)

/-- What a computed reading leaves of the objects other than its own. -/
def LeavesObjs (i j : Nat) (s : State) (r : Option (Val × State)) : Prop := ∀ q, r = some q → ObjsOnly [(i, j)] s q.2

theorem LeavesObjs.none : LeavesObjs i j s none := fun _ e => by cases e

theorem LeavesObjs.some (h : ObjsOnly [(i, j)] s q.2) : LeavesObjs i j s (some q) := fun _ e => by
  cases e
  exact h

theorem LeavesObjs.of_moves {r : Option (Val × State)} (m : MovesQ [.fresh] s r) : LeavesObjs i j s r := fun _ e => by
  rw [e] at m
  exact .of_objs (MovesP.snd m |>.same .objs)

theorem LeavesObjs.map {α : Type} {r : Option α} {f : α → Val} : LeavesObjs i j s (r.map fun a => (f a, s)) := by
  cases r with
  | none => exact .none
  | some a => exact .some .refl

theorem State.viewEdges_leaves (s : State) (hj : j < 256) (h0 : j ≠ 0) : LeavesObjs i j s (s.viewEdges i j) := by
  obtain ⟨k, rfl⟩ := Nat.exists_eq_succ_of_ne_zero h0
  unfold State.viewEdges
  extract_lets l
  have counted : ∀ i, LeavesObjs i (k + 1) s (some (asNum (s.rxCount i l))) := fun i => .some (s.rxCount_objs_only hj)
  split
  · exact .some .refl
  · exact .of_moves (.some (asNum_moves State.headerRun_moves))
  iterate 4
    · exact counted _
  · exact .some (s.testErrors_objs_only hj)
  · exact .of_moves (.some (asNum_moves State.fit_moves))
  iterate 7
    · exact .some .refl
  · exact .of_moves (.some (asNum_moves State.freeBelow_moves))
  · exact .of_moves (.some (asNum_moves State.machineSignals_moves))
  · exact .none

theorem State.viewComputed_leaves (s : State) (hj : j < 256) (h0 : j ≠ 0) : LeavesObjs i j s (s.viewComputed i j) := by
  unfold State.viewComputed
  split
  iterate 4
    · exact .map
  iterate 3
    · exact .of_moves State.viewTime_moves
  iterate 3
    · exact .of_moves State.viewRaster_moves
  iterate 2
    · exact .of_moves State.viewPos_moves
  iterate 3
    · exact .of_moves State.viewPrint_moves
  iterate 5
    · exact s.viewEdges_leaves hj h0
  iterate 2
    · exact .map
  iterate 2
    · exact .of_moves State.viewPlant_moves
  · exact .none

/-- A read changes no object but the one that is read. -/
theorem State.view_objs_only (s : State) (hj : j < 256) : ObjsOnly [(i, j)] s (s.view i j).2 := by
  unfold State.view
  split
  · exact .refl
  split
  · exact .refl
  split
  · exact .refl
  split
  · exact .refl
  next h0 =>
    split
    · exact s.setObj_objs_only i j _ hj
    · split
      next p e => exact s.viewComputed_leaves hj h0 p e
      next => exact .refl

/-- CyclePeriod reads as it stands. -/
theorem State.view_period (s : State) : (s.view 0x6010 2).2 = s := rfl

theorem State.view_keeps_period (s : State) (hj : j < 256) : (s.view i j).2.num 0x6010 2 = s.num 0x6010 2 := by
  by_cases own : (i, j) = (0x6010, 2)
  · cases own
    rw [State.view_period]
  · exact (s.view_objs_only hj).num (by decide) (by simpa using Ne.symm own)

/-- Sampling a transmit map leaves CyclePeriod as it stands. -/
theorem State.sampleMap_period (s : State) : s.sampleMap.2.num 0x6010 2 = s.num 0x6010 2 := by
  unfold State.sampleMap
  generalize ([] : Bytes) = b
  suffices kept : ∀ (l : List Nat) (acc : Bytes × State), acc.2.num 0x6010 2 = s.num 0x6010 2 →
      (l.foldl _ acc).2.num 0x6010 2 = s.num 0x6010 2 from kept _ (b, s) rfl
  intro l
  induction l with
  | nil => exact fun _ h => h
  | cons a l ih =>
    intro acc h
    rw [List.foldl_cons]
    refine ih _ ?_
    extract_lets n i j
    split
    · exact h
    · split
      · exact h
      · exact (acc.2.view_keeps_period (Nat.mod_lt _ (by decide))).trans h

end Sys2Proof.Machine
end

section
/-! Cyclic streams that run: sampling, transmitting, receiving and the watchdog (R79, R80). -/

set_option Elab.async false

namespace Sys2Proof.Machine

variable {s t u : State} {h : Hdr} {x : Session} {b n : Nat} {c : CyclicData} {p : Bytes} {d : Desc}

/-! Cycle boundaries. -/

theorem State.lastBoundary_congr (hm : t.tim = s.tim) (hk : t.tick = s.tick) (hp : t.num 0x6010 2 = s.num 0x6010 2) :
    t.lastBoundary = s.lastBoundary := by
  unfold State.lastBoundary State.eNow State.anchor State.anchorAt
  rw [hm, hk, hp]

/-- A boundary that has just been noted counts as passed. -/
theorem State.cyclePassed_noted (hc : t.wilwa.cycles = (t.lastBoundary, t.tick) :: s.passedCycles) : t.cyclePassed = true := by
  unfold State.cyclePassed State.passedCycles
  rw [hc, List.filter_cons_of_pos (by simp)]
  simp

/-- The state in which a boundary has been passed. -/
def State.passes (s : State) : State :=
  { s with wilwa := { s.wilwa with
    boundary := some s.lastBoundary, rxApplied := false, cycles := (s.lastBoundary, s.tick) :: s.passedCycles } }

/-- The sample of a boundary, with its stamp. -/
def State.sampled (s : State) : CyclicData :=
  { ns := s.lastBoundary % 2 ^ 32, era := s.lastBoundary / 2 ^ 32, data := s.passes.sampleMap.1 }

theorem exec_cycleBoundary (hs : s.serves = true) (hc : s.wilwa.cycSid ≠ 0) (hr : s.cycRuns 0 = true) (hp : s.cyclePassed = false) :
    exec .cycleBoundary s = .next
      { s.passes.sampleMap.2 with wilwa := { s.passes.sampleMap.2.wilwa with txSample := some s.sampled } } := by
  have due : ¬ ((!s.serves) = true ∨ s.wilwa.cycSid = 0 ∨ s.cyclePassed = true) := by simp [hs, hc, hp]
  show execCycleBoundary s = _
  unfold execCycleBoundary
  exact (if_neg due).trans (if_pos hr)

/-! The transmit stream. -/

theorem exec_cyclicTransmit (hs : s.serves = true) (hr : s.cycRuns 0 = true) (hc : s.wilwa.txSample = some c)
    (hx : s.session s.wilwa.cycSid = some x) : exec .cyclicTransmit s = .next
      ((({ s with wilwa := { s.wilwa with txSample := none } } : State).sendDgram (sessionDgram x 0x30 (s.num 0x6010 8) 0 0
        (u32 c.ns ++ u16 c.era ++ u16 0 ++ c.data) true)).bump 0x6010 8) := by
  show execCyclicTransmit s = _
  unfold execCyclicTransmit
  rw [hc, hx]
  exact if_neg (by simp [hs, hr])

/-! The receive stream. -/

theorem exec_cyclicReceive (a : Admitted s h 0x30 p x) (hx : x.sid = s.wilwa.cycSid) (hr : s.cycRuns 1 = true)
    (hl : p.length = 8 + s.mapSize 0x6001 (s.num 0x6001 0)) : exec (.cyclicReceive h p) s = .next
    (if s.rxCycle = leAt p 0 6 then
      { s.heard x.sid with wilwa := { (s.heard x.sid).wilwa with
        rxWaiting := some { ns := leAt p 0 4, era := leAt p 4 2, data := p.drop 8 } } }
    else (s.heard x.sid).bump 0x6010 6) := by
  have wanted : ¬ (x.sid ≠ s.wilwa.cycSid ∨ (!s.cycRuns 1) = true ∨ p.length ≠ 8 + s.mapSize 0x6001 (s.num 0x6001 0)) := by
    simp [hx, hr, hl]
  show execCyclicReceive h p s = _
  unfold execCyclicReceive
  rw [a.notice]
  exact congrArg Host.Outcome.next (if_neg wanted)

/-- The state in which the cycle's datagram is taken, before its values are written. -/
def State.applies (s : State) : State := { s with wilwa := { s.wilwa with rxApplied := true, rxMissRun := 0, rxWaiting := none } }

/-- The state in which a cycle has been missed. -/
def State.misses (s : State) : State :=
  ({ s with wilwa := { s.wilwa with rxApplied := true, rxMissRun := s.wilwa.rxMissRun + 1 } } : State).bump 0x6010 7

section Apply
variable (hs : s.serves = true) (hr : s.cycRuns 1 = true) (ha : s.wilwa.rxApplied = false) (hb : s.wilwa.boundary = some b)
  (hx : s.session s.wilwa.cycSid = some x)
include hs hr ha hb hx

theorem exec_cyclicRxApply_taken (hc : s.wilwa.rxWaiting.filter (fun c => c.era * 2 ^ 32 + c.ns == b) = some c) :
    exec .cyclicRxApply s = .next (s.applies.applyMap x c.data) := by
  show execCyclicRxApply s = _
  unfold execCyclicRxApply
  rw [hb, hx]
  refine (if_neg (by simp [hs, hr, ha])).trans ?_
  dsimp only
  rw [hc]
  rfl

theorem exec_cyclicRxApply_missed (hc : s.wilwa.rxWaiting.filter (fun c => c.era * 2 ^ 32 + c.ns == b) = none) :
    exec .cyclicRxApply s = .next s.misses := by
  show execCyclicRxApply s = _
  unfold execCyclicRxApply
  rw [hb, hx]
  refine (if_neg (by simp [hs, hr, ha])).trans ?_
  dsimp only
  rw [hc]
  rfl

end Apply

/-- A map of one entry writes the datagram to its object. -/
theorem State.applyMap_one (h1 : s.num 0x6001 0 = 1) (hn : n = s.num 0x6001 1) (hd : findDesc (n / 65536) (n / 256 % 256) = some d)
    (hz : d.ty.size = some p.length) : s.applyMap x p = (s.write x (n / 65536) (n / 256 % 256) p true).2 := by
  subst hn
  unfold State.applyMap
  rw [h1]
  simp [List.range_succ, hd, hz]

/-- A Commit object is no CommitRequest. -/
theorem commit_not_request {i j : Nat} (hd : findDesc i j = some d) (hc : d.cls = .commit) :
    (isAdminArea (i / 256) && i % 256 == 0 && j == 1) = false := by
  rw [Bool.eq_false_iff]
  simp only [ne_eq, Bool.and_eq_true, beq_iff_eq, not_and]
  rintro ⟨ha, h0⟩ rfl
  have row := findRow_commitRequest ha
  rw [show i / 256 * 256 = i by omega] at row
  unfold findDesc at hd
  rw [row] at hd
  cases hd
  cases hc

/-! The watchdog. -/

theorem exec_cyclicRxWatchdogExpiry (h0 : s.num 0x6010 5 ≠ 0) (hr : s.cycRuns 1 = true) (hm : s.num 0x6010 5 ≤ s.wilwa.rxMissRun) :
    exec .cyclicRxWatchdogExpiry s = .next ((({ s with wilwa := { s.wilwa with rxMissRun := 0 } } : State).irq 5).raise 0x1010 0
      (u16 s.wilwa.cycSid ++ u32 (s.num 0x6010 7))) :=
  if_neg (by simp only [hr]; simp only [Bool.not_true, Bool.false_eq_true, false_or, not_or]; omega)

/-- Settles O32: each event of the cyclic schedule by what it comes to (`exec_cycleBoundary`, `exec_cyclicTransmit`, `exec_cyclicReceive`,
`exec_cyclicRxApply_taken`,
`exec_cyclicRxApply_missed`, `exec_cyclicRxWatchdogExpiry`). -/
theorem cyclicStreamsRun : Obligations.CyclicStreamsRun := by
  unfold Obligations.CyclicStreamsRun
  refine ⟨fun s hs hc hr hp => ?_, fun s hp => ?_, fun s c x hs hr hc hx => ?_, fun s h p x a hx hr hl => ?_,
    fun s b x hs hr ha hb hx => ⟨fun other => ?_, fun c n d hw hc h1 hn hd hz hk he _ hh => ?_⟩, fun s h0 hr hm => ?_⟩
  · have moved : Moves [.fresh, .objs] s.passes s.passes.sampleMap.2 := State.sampleMap_moves.snd
    have wilwa : s.passes.sampleMap.2.wilwa = s.passes.wilwa := moved.same .wilwa
    have last : s.passes.sampleMap.2.lastBoundary = s.lastBoundary :=
      State.lastBoundary_congr (moved.same .tim) (moved.same .tick) s.passes.sampleMap_period
    have tick : s.passes.sampleMap.2.tick = s.tick := moved.same .tick
    refine ⟨_, s.sampled, exec_cycleBoundary hs hc hr hp, congrArg Wilwa.boundary wilwa, ?_, rfl, ?_, ?_⟩
    · refine State.cyclePassed_noted (s := s) ((congrArg Wilwa.cycles wilwa).trans ?_)
      show (s.lastBoundary, s.tick) :: s.passedCycles = (s.passes.sampleMap.2.lastBoundary, s.passes.sampleMap.2.tick) :: s.passedCycles
      rw [last, tick]
    · exact Nat.div_add_mod' _ _
    · exact (Moves.wilwa (ps := [.fresh, .objs, .wilwa]) (.after moved (.wilwa .refl))).only
  · exact if_pos (.inr (.inr hp))
  · exact ⟨_, _, exec_cyclicTransmit hs hr hc hx, rfl, rfl, rfl, rfl, rfl, State.num_bump_self _ 0x6010 8, rfl,
      (ObjsOnly.of_objs rfl).trans (State.bump_objs_only _ _ _),
      (Moves.after State.bump_moves (.after State.sendDgram_moves (.wilwa .refl))).only⟩
  · have run := exec_cyclicReceive a hx hr hl
    refine ⟨fun now => ?_, fun late => ?_⟩
    · rw [if_pos now] at run
      exact ⟨_, _, run, rfl, rfl, (Moves.wilwa State.heard_moves).only⟩
    · rw [if_neg late] at run
      exact ⟨_, run, State.num_bump_self _ 0x6010 6, rfl, (ObjsOnly.of_objs rfl).trans (State.bump_objs_only _ _ _),
        (Moves.after State.bump_moves State.heard_moves.mono).only⟩
  · have none : s.wilwa.rxWaiting.filter (fun c => c.era * 2 ^ 32 + c.ns == b) = none :=
      Option.filter_eq_none_iff.2 fun c hw => by simpa using other c hw
    exact ⟨_, exec_cyclicRxApply_missed hs hr ha hb hx none, State.num_bump_self _ 0x6010 7, rfl, rfl,
      (ObjsOnly.of_objs rfl).trans (State.bump_objs_only _ _ _), (Moves.after State.bump_moves (.wilwa .refl)).only⟩
  · have run := exec_cyclicRxApply_taken hs hr ha hb hx (by rw [hw]; exact Option.filter_some_pos (by simpa using hc))
    have written := (State.write_none (s := s.applies) hd he).trans (State.applyWrite_commit (commit_not_request hd hk) hh hk)
    rw [State.applyMap_one (s := s.applies) h1 hn hd hz, written] at run
    exact ⟨_, run, rfl, rfl, State.shadowObj_written rfl, (Moves.wilwa (.wilwa .refl)).only⟩
  · have raised := State.raise_objs_only (({ s with wilwa := { s.wilwa with rxMissRun := 0 } } : State).irq 5) 0x1010 0
      (u16 s.wilwa.cycSid ++ u32 (s.num 0x6010 7))
    have moved := State.raise_moves (s := ({ s with wilwa := { s.wilwa with rxMissRun := 0 } } : State).irq 5) (src := 0x1010)
      (cause := 0) (data := u16 s.wilwa.cycSid ++ u32 (s.num 0x6010 7))
    refine ⟨_, exec_cyclicRxWatchdogExpiry h0 hr hm, congrArg Wilwa.rxMissRun (moved.same .wilwa), ?_, fun takes => ?_, ?_, ?_⟩
    · rw [raised.num]
      exact State.irq_bit _ 5
    · exact State.raise_raised _ _ _ (State.takesReports_congr rfl rfl takes)
    · exact (ObjsOnly.of_objs rfl).trans (((State.irq_objs_only _ 5).mono (by decide)).trans (raised.mono (by decide)))
    · exact (Moves.after moved (.after State.irq_moves (.wilwa .refl))).only

end Sys2Proof.Machine
end

section
/-! What the Raster port's intake leaves alone while it counts words and moves its watermarks (R119 to R122, R135). -/

set_option Elab.async false

namespace Sys2Proof.Machine

variable {s t : State} {b : RasterBlock}

theorem State.addNum_objs_only (s : State) (i j n : Nat) (hj : j < 256 := by decide) : ObjsOnly [(i, j)] s (s.addNum i j n) :=
  State.setNum_objs_only s i j _ hj

/-- The counters of sync headers and of words that no header began (R120, R135). -/
def searchCounts : List (Nat × Nat) := [(0x2220, 9), (0x2221, 1), (0x2221, 2), (0x2221, 3), (0x2221, 4)]

/-- The descriptors of the slots are not among them. -/
theorem descriptor_notMem_searchCounts {i j : Nat} (hi : i < 0x2220) : (i, j) ∉ searchCounts := by
  simp only [searchCounts, List.mem_cons, Prod.mk.injEq, List.not_mem_nil, or_false]
  omega

theorem State.laneErrors_objs_only (s : State) (n : Nat → Nat) :
    ObjsOnly [(0x2221, 1), (0x2221, 2), (0x2221, 3), (0x2221, 4)] s (s.laneErrors n) :=
  forRange_keeps (P := ObjsOnly _ s)
    (fun k hk t h => (t.addNum_objs_only 0x2221 (k + 1) _ (by omega)).after h (by simp; omega)) .refl

/-- The watermarks move RP_XON and may end an overrun episode; they begin none (R121, R122). -/
theorem State.fillMoved_eq (s : State) : ∃ xon overrun,
    s.fillMoved = { s with rin := { s.rin with xon := xon, overrun := overrun } } ∧ (s.rin.overrun = false → overrun = false) := by
  by_cases h : (s.markXon s.fill).rpXon = true
  · exact ⟨_, false, if_pos h, fun _ => rfl⟩
  · exact ⟨_, s.rin.overrun, if_neg h, id⟩

@[simp] theorem State.fillMoved_fifo (s : State) : s.fillMoved.rin.fifo = s.rin.fifo := by
  obtain ⟨_, _, e, -⟩ := s.fillMoved_eq
  rw [e]

@[simp] theorem State.fillMoved_slots (s : State) : s.fillMoved.rin.slots = s.rin.slots := by
  obtain ⟨_, _, e, -⟩ := s.fillMoved_eq
  rw [e]

@[simp] theorem State.fillMoved_objs (s : State) : s.fillMoved.objs = s.objs := State.fillMoved_moves.same .objs

@[simp] theorem State.fillMoved_flt (s : State) : s.fillMoved.flt = s.flt := State.fillMoved_moves.same .flt

@[simp] theorem State.fillMoved_sent (s : State) : s.fillMoved.sent = s.sent := State.fillMoved_moves.same .sent

theorem State.fillMoved_overrun (h : s.rin.overrun = false) : s.fillMoved.rin.overrun = false := by
  obtain ⟨_, _, e, kept⟩ := s.fillMoved_eq
  rw [e]
  exact kept h

/-- RP_XON stays low above the low mark (R121). -/
theorem State.fillMoved_low (hx : s.rin.xon = false) (hl : s.num 0x2220 3 * 32 < s.fill) : s.fillMoved = s := by
  have kept : (if s.num 0x2220 2 * 32 ≤ s.fill then false else if s.fill ≤ s.num 0x2220 3 * 32 then true else s.rin.xon) = s.rin.xon := by
    rw [hx, if_neg (show ¬ s.fill ≤ s.num 0x2220 3 * 32 by omega), ite_self]
  have low : s.markXon s.fill = s := congrArg (fun x => { s with rin := { s.rin with xon := x } }) kept
  unfold State.fillMoved
  rw [low]
  exact if_neg (by simp [State.rpXon, hx])

theorem State.fill_congr (h : t.rin.fifo = s.rin.fifo) : t.fill = s.fill := by
  unfold State.fill
  rw [h]

/-- What a header is checked against: the slots and their descriptors (R127). -/
theorem State.slotCheck_congr (slots : t.rin.slots = s.rin.slots) (counts : ObjsOnly searchCounts s t) (b : RasterBlock) :
    t.slotCheck b = s.slotCheck b := by
  have slot : ∀ k, t.slot k = s.slot k := fun k => by
    unfold State.slot
    rw [slots]
  have num : ∀ i < 0x2220, ∀ k < 2, t.num i (k + 1) = s.num i (k + 1) := fun i hi k hk =>
    counts.num (by omega) (descriptor_notMem_searchCounts hi)
  have found : t.matchSlot b.jobId.toNat b.generation.toNat = s.matchSlot b.jobId.toNat b.generation.toNat := by
    simp [State.matchSlot, List.find?, slot, num]
  unfold State.slotCheck
  rw [found]
  cases hk : s.matchSlot b.jobId.toNat b.generation.toNat with
  | none => rfl
  | some k =>
    have two : k < 2 := by
      have place : k = 0 ∨ k = 1 := by simpa using List.mem_of_find?_eq_some hk
      omega
    simp only [State.slotStream, State.slotMask, State.slotLines, slot, num _ (by decide : 0x2211 < 0x2220) k two,
      num _ (by decide : 0x2212 < 0x2220) k two, num _ (by decide : 0x2216 < 0x2220) k two] <;> rfl

/-! A block looked for: sync headers and skipped words counted. -/

/-- The intake with the invalid sync headers counted that came with a block (R135). -/
def State.lanesCounted (s : State) (b : RasterBlock) : State := s.laneErrors fun l => vget b.laneErrors l 0

/-- The intake once it has found a block's header. -/
def State.searched (s : State) (b : RasterBlock) : State := (s.lanesCounted b).fillMoved.addNum 0x2220 9 b.skipped

theorem State.lanesCounted_moves : Moves [.objs] s (s.lanesCounted b) := State.laneErrors_moves

@[simp] theorem State.lanesCounted_rin (s : State) (b : RasterBlock) : (s.lanesCounted b).rin = s.rin := State.lanesCounted_moves.same .rin

theorem State.lanesCounted_objs_only (s : State) (b : RasterBlock) :
    ObjsOnly [(0x2221, 1), (0x2221, 2), (0x2221, 3), (0x2221, 4)] s (s.lanesCounted b) := s.laneErrors_objs_only _

/-- The counts and the watermarks leave what a header is checked against. -/
theorem State.lanesCounted_fillMoved_objs_only (s : State) (b : RasterBlock) : ObjsOnly searchCounts s (s.lanesCounted b).fillMoved :=
  ((s.lanesCounted_objs_only b).mono (by decide)).trans (.of_objs (State.fillMoved_objs _))

theorem State.searched_moves : Moves [.objs, .rin] s (s.searched b) :=
  .after State.addNum_moves (.after State.fillMoved_moves State.lanesCounted_moves.mono)

theorem State.searched_objs_only (s : State) (b : RasterBlock) : ObjsOnly searchCounts s (s.searched b) :=
  (s.lanesCounted_fillMoved_objs_only b).trans ((State.addNum_objs_only _ 0x2220 9 _).mono (by decide))

@[simp] theorem State.searched_fifo (s : State) (b : RasterBlock) : (s.searched b).rin.fifo = s.rin.fifo := by
  show (s.lanesCounted b).fillMoved.rin.fifo = _
  simp

@[simp] theorem State.searched_slots (s : State) (b : RasterBlock) : (s.searched b).rin.slots = s.rin.slots := by
  show (s.lanesCounted b).fillMoved.rin.slots = _
  simp

@[simp] theorem State.searched_fill (s : State) (b : RasterBlock) : (s.searched b).fill = s.fill := State.fill_congr (s.searched_fifo b)

@[simp] theorem State.searched_slotCheck (s : State) (b : RasterBlock) : (s.searched b).slotCheck b = s.slotCheck b :=
  State.slotCheck_congr (s.searched_slots b) (s.searched_objs_only b) b

@[simp] theorem State.searched_sent (s : State) (b : RasterBlock) : (s.searched b).sent = s.sent := State.searched_moves.same .sent

theorem State.searched_takesReports (h : s.takesReports) : (s.searched b).takesReports :=
  State.takesReports_congr (State.searched_moves.same .pwr) (State.searched_moves.same .flt) h

theorem State.searched_slotStream (s : State) (b : RasterBlock) {k : Nat} (hk : k < 2) :
    (s.searched b).slotStream k = s.slotStream k := by
  unfold State.slotStream
  rw [(s.searched_objs_only b).num (by omega) (descriptor_notMem_searchCounts (by decide))]

/-! Acknowledgements (R126). -/

/-- A block over the Raster port acknowledged. -/
def State.ackBlock (s : State) (b : RasterBlock) (st k : Nat) : State :=
  s.ack st k b.sequence.toNat b.jobId.toNat b.firstLine.toNat

theorem State.ackBlock_moves {st k : Nat} : Moves [.sent, .objs, .flt, .bbx] s (s.ackBlock b st k) := State.ack_moves

@[simp] theorem State.ackBlock_rin (s : State) (b : RasterBlock) (st k : Nat) : (s.ackBlock b st k).rin = s.rin :=
  State.ackBlock_moves.same .rin

theorem State.ackBlock_sent (s : State) (b : RasterBlock) (st k : Nat) :
    ∃ r, (s.ackBlock b st k).sent = s.sent ++ [.raster r] ∧ r.take 2 = u8 0x81 ++ u8 st :=
  ⟨_, State.countBlock_moves.same .sent, rfl⟩

/-- A status that is not reported is counted alone. -/
theorem State.ackBlock_unreported {st k : Nat} (hs : ¬ (st = 3 ∨ st = 4 ∨ st = 5)) : Moves [.sent, .objs] s (s.ackBlock b st k) := by
  unfold State.ackBlock State.ack State.countBlock
  dsimp only
  rw [if_neg hs]
  exact .ite (.after State.bump_moves State.emit_moves.mono) (.after State.bump_moves State.emit_moves.mono)

/-- A block counted leaves the reports that wait. -/
theorem State.ackBlock_raised {src cause : Nat} (st k : Nat) (h : Raised src cause s) : Raised src cause (s.ackBlock b st k) := by
  unfold State.ackBlock State.ack State.countBlock
  have counted : ∀ u : State, u.flt = s.flt → Raised src cause (if st = 0 then u.bump 0x2220 7 else u.bump 0x2220 8) := fun u e =>
    .congr ((Moves.ite State.bump_moves State.bump_moves).same .flt |>.trans e) h
  dsimp only
  split
  · exact State.send_raised _ (counted _ rfl)
  · exact counted _ rfl

/-- A block that names no slot, or not what its slot takes next, is reported (R137). -/
theorem State.ackBlock_reports {st k : Nat} (hs : st = 3 ∨ st = 4 ∨ st = 5) (h : s.takesReports) :
    Raised 0x2206 0 (s.ackBlock b st k) := by
  unfold State.ackBlock State.ack State.countBlock
  dsimp only
  rw [if_pos hs]
  refine State.raise_raised _ _ _ (State.takesReports_congr ?_ ?_ h)
  · exact (Moves.ite State.bump_moves State.bump_moves).same .pwr
  · exact (Moves.ite State.bump_moves State.bump_moves).same .flt

end Sys2Proof.Machine
end

section
/-! The blocks that the Raster port receives (R114, R115, R120 to R122, R126, R129). -/

set_option Elab.async false

namespace Sys2Proof.Machine

variable {s t : State} {b : RasterBlock} {st k : Nat}

/-! A block stored (R120, R129). -/

@[simp] theorem forEach_timeToEmpty_rin (l : List Nat) (s : State) : (forEach l (fun j u => u.timeToEmpty j) s).rin = s.rin :=
  (Moves.forEach (ps := [.objs]) .refl fun _ _ h => .after State.timeToEmpty_moves h).same .rin

theorem State.storeBlock_fifo (s : State) (fwd : Bool) (b : RasterBlock) (k : Nat) : ∃ y,
    (s.storeBlock fwd b k).rin.fifo = s.rin.fifo ++ [y] ∧ y.sequence = b.sequence.toNat ∧ y.payload = b.payload ∧ y.slot = k ∧
      y.taken = .waiting ∧ y.fwd = fwd := by
  unfold State.storeBlock
  simp only [State.fillMoved_fifo, forEach_timeToEmpty_rin]
  split <;> exact ⟨_, rfl, rfl, rfl, rfl, rfl, rfl⟩

/-- A stream block moves the line that its bar expects next (R129). -/
theorem State.storeBlock_expected {i : Nat} (fwd : Bool) (hs : s.slotStream k = true) (hk : k < 2) (hi : i < 8)
    (hb : barsOf b.barMask.toNat = [i]) :
    (vget ((s.storeBlock fwd b k).slot k).streams i Stream.start).expected = b.firstLine.toNat + b.lineCount.toNat := by
  unfold State.storeBlock State.slot
  simp only [State.fillMoved_slots, forEach_timeToEmpty_rin]
  split
  · simp only [State.modSlot_rin, hb, List.headD_cons]
    rw [vget_vmod_self _ _ _ hk, vget_vmod_self _ _ _ hi]
  · next store => exact absurd hs store

/-! A block that is dropped (R120, R122). -/

/-- What becomes of a block for which there is no room. -/
def State.roomLacks (s : State) (b : RasterBlock) (k : Nat) : State :=
  (((s.overrunBegins (s.fill + blockWords b - fifoWords) b.sequence.toNat).ackBlock b 2 k).markXon fifoWords).fillMoved

/-- What becomes of a block with a wrong trailer. -/
def State.trailerFails (s : State) (b : RasterBlock) (k : Nat) : State :=
  (((s.markXon (s.fill + blockWords b)).raise 0x2202 0 (u32 b.sequence.toNat ++ u32 b.jobId.toNat)).ackBlock b 1 k).fillMoved

theorem State.roomLacks_moves : Moves [.sent, .objs, .flt, .bbx, .rin] s (s.roomLacks b k) :=
  .after State.fillMoved_moves (.after State.markXon_moves (.after State.ackBlock_moves State.overrunBegins_moves.mono))

theorem State.trailerFails_moves : Moves [.sent, .objs, .flt, .bbx, .rin] s (s.trailerFails b k) :=
  .after State.fillMoved_moves (.after State.ackBlock_moves (.after State.raise_moves State.markXon_moves.mono))

theorem State.raise_rin (s : State) (src cause : Nat) (d : Bytes) : (s.raise src cause d).rin = s.rin := State.raise_moves.same .rin

theorem State.overrunBegins_fifo (s : State) (n q : Nat) : (s.overrunBegins n q).rin.fifo = s.rin.fifo := by
  show ((s.addNum 0x2220 6 n).raise 0x2201 0 _).rin.fifo = _
  rw [State.raise_rin]
  rfl

theorem State.overrunBegins_raised (n q : Nat) (h : s.takesReports) : Raised 0x2201 0 (s.overrunBegins n q) :=
  (s.addNum 0x2220 6 n).raise_raised 0x2201 0 (u32 (fifoWords * 32) ++ u32 q) (State.takesReports_congr rfl rfl h)

theorem State.roomLacks_fifo (s : State) (b : RasterBlock) (k : Nat) : (s.roomLacks b k).rin.fifo = s.rin.fifo := by
  unfold State.roomLacks
  rw [State.fillMoved_fifo]
  show (State.ackBlock _ b 2 k).rin.fifo = _
  rw [State.ackBlock_rin, State.overrunBegins_fifo]

theorem State.trailerFails_fifo (s : State) (b : RasterBlock) (k : Nat) : (s.trailerFails b k).rin.fifo = s.rin.fifo := by
  unfold State.trailerFails
  rw [State.fillMoved_fifo, State.ackBlock_rin, State.raise_rin]
  rfl

theorem State.roomLacks_sent (s : State) (b : RasterBlock) (k : Nat) :
    ∃ r, (s.roomLacks b k).sent = s.sent ++ [.raster r] ∧ r.take 2 = u8 0x81 ++ u8 2 := by
  obtain ⟨r, sent, head⟩ := State.ackBlock_sent (s.overrunBegins (s.fill + blockWords b - fifoWords) b.sequence.toNat) b 2 k
  rw [State.overrunBegins_moves.same .sent] at sent
  exact ⟨r, (State.fillMoved_sent _).trans sent, head⟩

theorem State.trailerFails_sent (s : State) (b : RasterBlock) (k : Nat) :
    ∃ r, (s.trailerFails b k).sent = s.sent ++ [.raster r] ∧ r.take 2 = u8 0x81 ++ u8 1 := by
  obtain ⟨r, sent, head⟩ := State.ackBlock_sent
    ((s.markXon (s.fill + blockWords b)).raise 0x2202 0 (u32 b.sequence.toNat ++ u32 b.jobId.toNat)) b 1 k
  rw [State.raise_moves.same .sent] at sent
  exact ⟨r, (State.fillMoved_sent _).trans sent, head⟩

theorem State.roomLacks_raised (h : s.takesReports) : Raised 0x2201 0 (s.roomLacks b k) :=
  .congr (State.fillMoved_flt _) (.congr (State.markXon_moves.same .flt) (State.ackBlock_raised 2 k (State.overrunBegins_raised _ _ h)))

theorem State.trailerFails_raised (h : s.takesReports) : Raised 0x2202 0 (s.trailerFails b k) :=
  .congr (State.fillMoved_flt _) (State.ackBlock_raised 1 k (State.raise_raised _ _ _ (State.takesReports_congr rfl rfl h)))

/-! The command. -/

/-- A block with a valid header while no overrun drops words is judged in order: its slot, the room, its trailer (R120). -/
theorem exec_rasterBlockReceived_valid (ho : s.intakeOpen = true) (hr : s.rin.overrun = false) (hh : headerValid b = true)
    (hc : s.slotCheck b = (st, k)) (hf : s.fill < 262144 ∨ b.skipped = 0 ∧ st = 0) :
    exec (.rasterBlockReceived b) s = .next (if st ≠ 0 then (s.searched b).ackBlock b st k
      else if 262144 < s.fill + blockWords b then (s.searched b).roomLacks b k
      else if !trailerValid b then (s.searched b).trailerFails b k
      else (s.searched b).storeBlock false b k) := by
  refine (if_pos ho).trans (congrArg Host.Outcome.next (show (s.lanesCounted b).intake false b = _ from ?_))
  have moved : (s.lanesCounted b).fillMoved.rin.overrun = false := State.fillMoved_overrun (by simpa using hr)
  have fill : (s.lanesCounted b).fillMoved.fill = s.fill := State.fill_congr (by simp)
  have check : (s.lanesCounted b).fillMoved.slotCheck b = (st, k) :=
    (State.slotCheck_congr (by simp) (s.lanesCounted_fillMoved_objs_only b) b).trans hc
  have room : ¬ (s.fill = fifoWords ∧ (0 < b.skipped ∨ (!headerValid b) = true ∨ st ≠ 0)) := by
    rintro ⟨full, more⟩
    have skips : 0 < b.skipped ∨ st ≠ 0 := by simpa [hh] using more
    unfold fifoWords at full
    omega
  have judged := (s.searched_slotCheck b).trans hc
  unfold State.intake
  dsimp only
  rw [moved, fill, check, if_neg Bool.false_ne_true, if_neg room, if_neg (by simp [hh]),
    ← show s.searched b = (s.lanesCounted b).fillMoved.addNum 0x2220 9 b.skipped from rfl, judged, ← s.searched_fill b]
  rfl

/-- While an overrun drops words, a block's words are counted (R122). -/
theorem exec_rasterBlockReceived_overrun (ho : s.intakeOpen = true) (hr : s.rin.overrun = true) (hx : s.rin.xon = false)
    (hl : s.num 0x2220 3 * 32 < s.fill) :
    exec (.rasterBlockReceived b) s = .next ((s.lanesCounted b).addNum 0x2220 6 (b.skipped + blockWords b)) := by
  refine (if_pos ho).trans (congrArg Host.Outcome.next (show (s.lanesCounted b).intake false b = _ from ?_))
  have low : (s.lanesCounted b).fillMoved = s.lanesCounted b := by
    refine State.fillMoved_low (by simpa using hx) ?_
    rw [(s.lanesCounted_objs_only b).num, State.fill_congr (congrArg Rin.fifo (s.lanesCounted_rin b))]
    exact hl
  unfold State.intake
  rw [low]
  exact if_pos (by simpa using hr)

/-- A block whose receipt the intake's closing breaks off (R115): its sync headers and skipped words counted, and a free number of its
words come. -/
def State.brokenOff (s : State) (b : RasterBlock) : State :=
  ((s.lanesCounted b).freeBelow (blockWords b)).2.addNum 0x2220 9 b.skipped

theorem State.freeBelow_snd_moves (s : State) (n : Nat) : Moves [.fresh] s (s.freeBelow n).2 := State.freeBelow_moves

theorem State.brokenOff_moves : Moves [.fresh, .objs] s (s.brokenOff b) :=
  .after State.addNum_moves (.after (State.freeBelow_snd_moves _ _) State.lanesCounted_moves.mono)

/-- The intake's closing catches a valid block half way: it is acknowledged Aborted (R115, R126). -/
theorem exec_rasterBlockReceived_brokenOff (ho : s.intakeOpen = false) (hd : s.on domRFE = true) (hb : b.begun = true)
    (hr : s.rin.overrun = false) (hh : headerValid b = true) (hc : s.slotCheck b = (0, k)) :
    exec (.rasterBlockReceived b) s = .next ((s.brokenOff b).ackBlock b 8 k) := by
  have drawn := (s.lanesCounted b).freeBelow_snd_moves (blockWords b)
  have counts : ObjsOnly searchCounts s ((s.lanesCounted b).freeBelow (blockWords b)).2 :=
    ((s.lanesCounted_objs_only b).mono (by decide)).trans (.of_objs (drawn.same .objs))
  have rin : ((s.lanesCounted b).freeBelow (blockWords b)).2.rin = s.rin := (drawn.same .rin).trans (s.lanesCounted_rin b)
  have check := (State.slotCheck_congr (congrArg Rin.slots rin) counts b).trans hc
  show execRasterBlockReceived b s = _
  unfold execRasterBlockReceived
  rw [if_neg (by simp [ho]), if_pos (by simp [hd, hb]),
    ← show s.lanesCounted b = s.laneErrors fun l => vget b.laneErrors l 0 from rfl]
  dsimp only
  rw [rin, hr, if_neg Bool.false_ne_true, if_neg (by simp [hh]), check]
  rfl

/-! The port's link and IntakeEnable (R114, R115, R121). -/

theorem exec_rasterLinkUp (hd : s.on domRFE = true) (ht : s.pwr.trans = some .training ∨ s.rin.retrain = true) :
    exec .rasterLinkUp s = .next ({ s with rin := { s.rin with linkUp := true, retrain := false, locked := 15 } } : State).fillMoved :=
  if_pos (by simpa [hd] using ht)

/-- Which lanes of the port keep their lock, and their sync header errors, are free (R115, R137). -/
theorem exec_rasterLinkLost (hd : s.on domRFE = true) (hl : s.rin.linkUp = true) : ∃ (u : State) (d : Bytes),
    exec .rasterLinkLost s = .next (u.raise 0x2203 0 d) ∧ u.rin.linkUp = false ∧ Moves [.fresh, .objs, .rin] s u := by
  have drawn : Moves [.fresh] s { (s.freeBelow 16).2 with fresh := s.fresh + 1 + 4 } := .fresh (s.freeBelow_snd_moves 16)
  exact ⟨_, _, if_pos (by simp [hd, hl]), rfl, .rin (.after State.laneErrors_moves drawn.mono)⟩

/-- RP_XON is low while the port's link is down, and while the intake is not enabled (R121). -/
theorem State.rpXon_low (h : s.rin.linkUp = false ∨ s.num 0x2220 1 = 0) : s.rpXon = false := by
  unfold State.rpXon State.intakeOpen
  rcases h with h | h <;> simp [h]

theorem exec_intakeEnableWrite {h : Hdr} {e : Bool} {x : Session} (w : WriteTaken s h 0x2220 1 (u8 (b2n e)) x) : ∃ t,
    exec (.intakeEnableWrite h e) s = .next t ∧ Answered t 0x13 0 h.seq.toNat ∧
      Only [.wilwa, .sent] ((s.heard x.sid).setNum 0x2220 1 (b2n e)).fillMoved t ∧ Only [.wilwa, .sent, .objs, .rin] s t := by
  have value : ∀ d, findDesc 0x2220 1 = some d → d.value (u8 (b2n e)) = .num (b2n e) := fun d hd => by
    rw [Desc.value_num hd _ (by decide), u8, leNat_leBytes]
    cases e <;> rfl
  obtain ⟨t, run, answered, rest, frame⟩ := w.row (ps := [.wilwa, .sent, .objs, .rin]) (by decide) (by decide)
    (fun d hd => by rw [value d hd]; rfl) (.after State.fillMoved_moves State.setNum_moves.mono)
  exact ⟨t, (exec_of_writeOf rfl).trans run, answered, rest, frame⟩

/-- Settles O37: a block by what it is judged (`exec_rasterBlockReceived_valid`), by the overrun that drops it or by the closing that
breaks it off; the link and IntakeEnable by what each of them does. -/
theorem rasterBlocksAreTakenIn : Obligations.RasterBlocksAreTakenIn := by
  unfold Obligations.RasterBlocksAreTakenIn
  refine ⟨fun s b k ho hr hh hc hw ht => ?stored, fun s b st k ho hr hh hc hs hf => ?refused, fun s b k ho hr hh hc hw hf => ?full,
    fun s b k ho hr hh hc hw ht => ?trailer, fun s b ho hr hx hl => ?overrun, fun s b k ho hd hb hr hh hc => ?broken,
    fun s b ho hb => ?closed, fun s hd ht => ?up, fun s h => ?still, fun s hd hl => ?lost, fun s h e x w => ?enable⟩
  case stored =>
    have words : 2 ≤ blockWords b := Nat.le_add_right 2 _
    have run := exec_rasterBlockReceived_valid ho hr hh hc (.inl (by omega))
    rw [if_neg (by simp), if_neg (by omega), if_neg (by simp [ht])] at run
    obtain ⟨y, fifo, sequence, payload, slot, taken, fwd⟩ := (s.searched b).storeBlock_fifo false b k
    rw [State.searched_fifo] at fifo
    exact ⟨_, y, run, fifo, sequence, payload, slot, taken, fwd,
      fun stream two i hi one => State.storeBlock_expected false ((s.searched_slotStream b two).trans stream) two hi one,
      (Moves.after State.storeBlock_moves State.searched_moves).only⟩
  case refused =>
    have run := exec_rasterBlockReceived_valid ho hr hh hc (.inl hf)
    rw [if_pos hs] at run
    obtain ⟨r, sent, head⟩ := (s.searched b).ackBlock_sent b st k
    rw [State.searched_sent] at sent
    exact ⟨_, r, run, sent, head, by simp, fun named takes => State.ackBlock_reports named (State.searched_takesReports takes),
      (Moves.after State.ackBlock_moves State.searched_moves.mono).only⟩
  case full =>
    have run := exec_rasterBlockReceived_valid ho hr hh hc (by omega)
    rw [if_neg (by simp), if_pos hw] at run
    obtain ⟨r, sent, head⟩ := (s.searched b).roomLacks_sent b k
    rw [State.searched_sent] at sent
    exact ⟨_, r, run, sent, head, by simp [State.roomLacks_fifo], fun takes => State.roomLacks_raised (State.searched_takesReports takes),
      (Moves.after State.roomLacks_moves State.searched_moves.mono).only⟩
  case trailer =>
    have words : 2 ≤ blockWords b := Nat.le_add_right 2 _
    have run := exec_rasterBlockReceived_valid ho hr hh hc (.inl (by omega))
    rw [if_neg (by simp), if_neg (by omega), if_pos (by simp [ht])] at run
    obtain ⟨r, sent, head⟩ := (s.searched b).trailerFails_sent b k
    rw [State.searched_sent] at sent
    exact ⟨_, r, run, sent, head, by simp [State.trailerFails_fifo],
      fun takes => State.trailerFails_raised (State.searched_takesReports takes),
      (Moves.after State.trailerFails_moves State.searched_moves.mono).only⟩
  case overrun =>
    refine ⟨_, exec_rasterBlockReceived_overrun ho hr hx hl, ?_, ?_, ?_⟩
    · rw [State.num_addNum_self, (s.lanesCounted_objs_only b).num]
      rfl
    · exact (State.addNum_objs_only _ 0x2220 6 _).after ((s.lanesCounted_objs_only b).mono (by decide))
    · exact (Moves.after State.addNum_moves State.lanesCounted_moves).only
  case broken =>
    obtain ⟨r, sent, head⟩ := (s.brokenOff b).ackBlock_sent b 8 k
    rw [State.brokenOff_moves.same .sent] at sent
    exact ⟨_, r, exec_rasterBlockReceived_brokenOff ho hd hb hr hh hc, sent, head,
      (Moves.after (State.ackBlock_unreported (by decide)) State.brokenOff_moves.mono).only⟩
  case closed => exact (if_neg (by simp [ho])).trans (if_neg (by simp [hb]))
  case up =>
    obtain ⟨_, _, moved, -⟩ := State.fillMoved_eq { s with rin := { s.rin with linkUp := true, retrain := false, locked := 15 } }
    refine ⟨_, exec_rasterLinkUp hd ht, ?_, ?_, (Moves.after State.fillMoved_moves (.rin .refl)).only⟩
    · rw [moved]
    · rw [moved]
  case still =>
    refine if_neg ?_
    rcases h with off | ⟨quiet, trained⟩
    · simp [off]
    · simp [quiet, trained]
  case lost =>
    obtain ⟨u, d, run, down, moved⟩ := exec_rasterLinkLost hd hl
    have link : (u.raise 0x2203 0 d).rin.linkUp = false := by rw [State.raise_rin, down]
    exact ⟨_, run, link, State.rpXon_low (.inl link),
      fun takes => State.raise_raised _ _ _ (State.takesReports_congr (moved.same .pwr) (moved.same .flt) takes),
      (Moves.after State.raise_moves moved.mono).only⟩
  case enable =>
    obtain ⟨t, run, answered, rest, frame⟩ := exec_intakeEnableWrite w
    have objs : t.objs = (s.setNum 0x2220 1 (b2n e)).objs := (rest .objs (by decide)).trans (State.fillMoved_objs _)
    have enabled : t.num 0x2220 1 = b2n e := (State.num_congr objs 0x2220 1).trans (State.num_setNum_self ..)
    refine ⟨t, run, answered, enabled, fun off => State.rpXon_low (.inr (by rw [enabled, off]; rfl)), ?_, ?_, frame⟩
    · exact (congrArg Rin.fifo (rest .rin (by decide))).trans (State.fillMoved_fifo _)
    · exact (s.setNum_objs_only 0x2220 1 _).trans (.of_objs objs)

end Sys2Proof.Machine
end

section
/-! Why a negative acknowledgement need not count: one that comes while the forwarder is not active, with the partner link down or the
role not ACTIVE, changes nothing (R124). -/

set_option Elab.async false

namespace Sys2Proof.Machine

/-- A negative acknowledgement that finds the forwarder not active leaves the device as it is. -/
theorem exec_fackReceived_notForwarding {s : State} {q : BitVec 32} {st : BitVec 8} {i : Nat} {y : FifoBlock}
    (hy : s.unacknowledged (fun x => x.sequence == q.toNat) = some (i, y)) (hf : s.forwarding y.slot = false) :
    exec (.fackReceived q st false) s = .next s := by
  show execFackReceived q st false s = .next s
  unfold execFackReceived
  rw [hy]
  simp [hf]

/-- A stream block that was sent to the partner and waits for its acknowledgement. -/
def sentBlock : FifoBlock :=
  { codec := 0, jobId := 7, barMask := 1, kind := 1, generation := 3, firstLine := 0, lineCount := 1, sequence := 9, payload := [],
    words := 2, slot := 0, taken := .waiting, sent := true, fails := 0, acked := false, partner := none, fwd := false }

/-- A device that holds it after its partner link has gone down. -/
def sentThenLinkDown : State :=
  { State.reset with
    pwr := { Pwr.start with doms := Vector.replicate 12 .on }
    rin := { Rin.start with fifo := [sentBlock] } }

/-- The block's negative acknowledgement changes nothing there. -/
theorem sentThenLinkDown_stays : exec (.fackReceived (BitVec.ofNat 32 sentBlock.sequence) 7 false) sentThenLinkDown =
    .next sentThenLinkDown :=
  exec_fackReceived_notForwarding (i := 0) (y := sentBlock) (by decide) (by decide)

/-- Refutes O39: in `sentThenLinkDown` a negative acknowledgement leaves the block outstanding, with no failure counted, because the
statement asks for an active forwarder at a timeout alone. -/
theorem not_blocksAreForwarded : ¬ Obligations.BlocksAreForwarded := by
  unfold Obligations.BlocksAreForwarded
  rintro ⟨-, -, fails, -⟩
  obtain ⟨t, run, rewound, -⟩ := fails sentThenLinkDown 0 sentBlock (.fackReceived (BitVec.ofNat 32 sentBlock.sequence) 7 false)
    (by simp) (by decide) (by decide) (by decide) (by decide) rfl (fun timeout => by cases timeout)
  have same : t = sentThenLinkDown := (Host.Outcome.next.inj (sentThenLinkDown_stays.symm.trans run)).symm
  have waits : sentThenLinkDown.outstanding = 1 := by decide
  rw [same, waits] at rewound
  cases rewound

end Sys2Proof.Machine
end

section
/-! What every step keeps of DRAM and of the objects (R138, R70), and which command alone may end in no next state (R141). -/

set_option Elab.async false

namespace Sys2Proof.Machine

variable {s t : State} {c : Instr}

/-- A step keeps the canonical forms of DRAM and of the objects: so does the tick with what it serves, and so does every command. -/
theorem step_canonical (e : step s = .next t) : (s.DramOk → t.DramOk) ∧ (s.ObjsOk → t.ObjsOk) := by
  cases q : s.pending with
  | nil =>
    rw [step_idle q] at e
    have m : Moves tickParts s t := Host.Outcome.next.inj e ▸ State.idle_served_moves
    exact ⟨m.dram, m.objs⟩
  | cons c rest =>
    rw [step_command q] at e
    exact ⟨(exec_keeps e).dram, (exec_keeps e).objs⟩

/-- Settles O7: the frame of a step says that it keeps each canonical form (`step_canonical`). -/
theorem memoryAndObjectsStayCanonical : Obligations.MemoryAndObjectsStayCanonical :=
  ⟨fun _ _ h e => (step_canonical e).1 h, fun _ _ h e => (step_canonical e).2 h⟩

/-! Commands that end in a next state. -/


/-- The outcome is a next state: neither a fault nor a refusal. -/
def Completes (r : Host.Outcome State Fault Refusal) : Prop := ∃ t, r = .next t

theorem Completes.next : Completes (.next t) := ⟨t, rfl⟩

theorem Completes.ite {p : Prop} [Decidable p] {q r : Host.Outcome State Fault Refusal} (hq : Completes q) (hr : Completes r) :
    Completes (if p then q else r) := by split <;> assumption

theorem execFwdReceived_completes (q o n : BitVec 32) (d : Bytes) : Completes (execFwdReceived q o n d s) := by
  unfold execFwdReceived
  refine .ite .next ?_
  extract_lets q got
  cases got with
  | none => exact .next
  | some b => exact .ite .next .next

/-- Every command but a memory request ends in a next state: each end of its definition is one. -/
theorem exec_completes (h : ∀ m a d, c ≠ .memoryRequest m a d) : Completes (exec c s) := by
  cases c with
  | memoryRequest m a d => exact absurd rfl (h m a d)
  | fwdReceived => exact execFwdReceived_completes ..
  | porstLow | bootComplete | configuredTrainingDone | resumeBurstEnd | chipReset | blockResetComplete | engineSelfTestDone |
  domainSequenceDone | mgtNetOffDelayExpiry | wakeNAssert | openRequest | sessionTimeout | transferResendTimeout | transferTimeout |
  emergencyRetransmitTimeout | cycleBoundary | cyclicTransmit | cyclicRxApply | cyclicRxWatchdogExpiry | frameForward | syncReceived |
  delayRespReceived | pdelayReqReceived | pdelayRespReceived | delayReqIntervalExpiry | pdelayReqIntervalExpiry | eraWrap |
  addressChangeEffect | mdioTransactionDone | networkLinkUp | networkLinkLost | rasterLinkUp | rasterLinkLost | rasterBlockReceived |
  jobWriterBlock | streamDecodeBlock | forwardBlock | forwardAckTimeout | blockRelease | sealPassDone | fetIssueLine |
  memoryReadComplete | alertNAssert | rtBurstLimit | refreshIntervalBoundary | channelTrainingDone | freqChangeDone | idleTimeExpiry |
  countChange | hallStateChange | zIndexEdge | ssiFrameComplete | markAccepted | compareAction | engineSliceLine | engineSliceTimeout |
  linePreparation | tokenEmission | fireEnFall | fireEnRise | speedAdviceUpdate | spdAdvPeriodStart | inputEdge | outputCheckExpiry |
  syncHeaderRunReached | capReceived | statEchoReceived | statTableAckReceived | laneTableAckTimeout | statStatusReceived |
  statMeasResultReceived | laneLockLost | measTimeout | triggerRecord | csiLine | csiFrameStart | csiFrameEnd | stitchedLineComplete |
  webFrameClose | productRecordSend | cciBatchComplete | cciHostTransactionDone | chePairLine | cheFrameClose | tumblerSolveDone |
  handoverStateSend | icselLinkUp | icselLinkLost | helloReceived | mirrorCycleBoundary | stateFrameReceived | sackReceived |
  commitFrameReceived | fackReceived | slotFrameReceived | keyExpiry | takeoverAtReached | reclaimCheck | faultReport |
  faultReportTaken | railBrokenWire | railErrorTimeout | pfailAssert | snapshotWriteDone | thermalModelUpdate | aonDiodeConversion |
  housekeepingRead | housekeepingRoundEnd | followUpReceived | addressTableAgeing | unknownMsgtype | hdmBlockAligned =>
    unfold exec
    dsimp only
    delta execPorstLow execBootComplete execConfiguredTrainingDone execResumeBurstEnd execChipReset execBlockResetComplete
      execEngineSelfTestDone execDomainSequenceDone execMgtNetOffDelayExpiry execWakeNAssert execOpenRequest execSessionTimeout
      execTransferResendTimeout execTransferTimeout execEmergencyRetransmitTimeout execCycleBoundary execCyclicTransmit execCyclicRxApply
      execCyclicRxWatchdogExpiry execFrameForward execSyncReceived execDelayRespReceived execPdelayReqReceived execPdelayRespReceived
      execDelayReqIntervalExpiry execPdelayReqIntervalExpiry execEraWrap execAddressChangeEffect execMdioTransactionDone
      execNetworkLinkUp execNetworkLinkLost execRasterLinkUp execRasterLinkLost execRasterBlockReceived execJobWriterBlock
      execStreamDecodeBlock execForwardBlock execForwardAckTimeout execBlockRelease execSealPassDone execFetIssueLine
      execMemoryReadComplete execAlertNAssert execRtBurstLimit execRefreshIntervalBoundary execChannelTrainingDone execFreqChangeDone
      execIdleTimeExpiry execCountChange execHallStateChange execZIndexEdge execSsiFrameComplete execMarkAccepted execCompareAction
      execEngineSliceLine execEngineSliceTimeout execLinePreparation execTokenEmission execFireEnFall execFireEnRise
      execSpeedAdviceUpdate execSpdAdvPeriodStart execInputEdge execOutputCheckExpiry execSyncHeaderRunReached execCapReceived
      execStatEchoReceived execStatTableAckReceived execLaneTableAckTimeout execStatStatusReceived execStatMeasResultReceived
      execLaneLockLost execMeasTimeout execTriggerRecord execCsiLine execCsiFrameStart execCsiFrameEnd execStitchedLineComplete
      execWebFrameClose execProductRecordSend execCciBatchComplete execCciHostTransactionDone execChePairLine execCheFrameClose
      execTumblerSolveDone execHandoverStateSend execIcselLinkUp execIcselLinkLost execHelloReceived execMirrorCycleBoundary
      execStateFrameReceived execSackReceived execCommitFrameReceived execFackReceived execSlotFrameReceived execKeyExpiry
      execTakeoverAtReached execReclaimCheck execFaultReport execFaultReportTaken execRailBrokenWire execRailErrorTimeout execPfailAssert
      execSnapshotWriteDone execThermalModelUpdate execAonDiodeConversion execHousekeepingRead execHousekeepingRoundEnd
      execFollowUpReceived execAddressTableAgeing execUnknownMsgtype execHdmBlockAligned
    repeat' first | with_reducible exact .next | with_reducible refine .ite ?_ ?_ | extract_lets | split
  | _ => exact .next

theorem exec_memoryRequest {m : BitVec 8} {a : BitVec 48} {d : Option Bytes} {p l : Nat}
    (h : s.locate (a.toNat / 128 * 128) = some (p, l)) : exec (.memoryRequest m a d) s = .next (s.memRequest p l m.toNat d) := by
  show execMemoryRequest m a d s = _
  unfold execMemoryRequest
  rw [h]

theorem exec_memoryRequest_missing {m : BitVec 8} {a : BitVec 48} {d : Option Bytes} (h : s.locate (a.toNat / 128 * 128) = none) :
    exec (.memoryRequest m a d) s = .fault (.noSuchAddress a.toNat) := by
  show execMemoryRequest m a d s = _
  unfold execMemoryRequest
  rw [h]

/-- Settles O2: every other command ends in a next state (`exec_completes`), and a memory request by where its address lies. -/
theorem onlyMissingMemoryStopsAStep : Obligations.OnlyMissingMemoryStopsAStep := by
  unfold Obligations.OnlyMissingMemoryStopsAStep
  refine ⟨fun s fitted => ?_, fun s m a d rest q missing => ?_⟩
  · unfold Safe
    cases q : s.pending with
    | nil => exact ⟨_, step_idle q⟩
    | cons c rest =>
      rw [step_command q]
      by_cases request : ∃ m a d, c = .memoryRequest m a d
      · obtain ⟨m, a, d, rfl⟩ := request
        obtain ⟨⟨p, l⟩, place⟩ := Option.isSome_iff_exists.1 (fitted m a d rest q)
        exact ⟨_, exec_memoryRequest (s := s.withPending rest) place⟩
      · exact exec_completes fun m a d e => request ⟨m, a, d, e⟩
  · rw [step_command q]
    exact exec_memoryRequest_missing missing

end Sys2Proof.Machine
end

section
/-! Why a training that gives way to another operating point changes more than its channel: neighbour refreshes that are due in a bank
go out, and are counted in 2342h, before the owed refresh of that bank on the way into self-refresh (R149, R150, R160, R161). -/

set_option Elab.async false

namespace Sys2Proof.Machine

/-- A channel in training with another point queued, which left READY for its training in a burst: a refresh is owed that the burst
postponed, and an ACTIVATE has made a neighbour refresh due. -/
def owingChannel : Mch :=
  { Mch.start with st := .training, step := 3, pendingPoint := some 1, owed := #v[1, 0], due := [(0, 5)] }

/-- A device whose first memory channel it is, in STANDBY with every domain on. -/
def trainsOwing : State :=
  { State.reset with
    pwr := { Pwr.start with dev := .standby, doms := Vector.replicate 12 .on }
    mem := Vector.ofFn fun c => if c.val = 0 then owingChannel else Mch.start }

/-- The end of the training's step makes the change of point. -/
theorem trainsOwing_gives_way : exec (.channelTrainingDone 0 .stepDone) trainsOwing = .next (trainsOwing.stepForFreq 0 1) := rfl

/-- One neighbour refresh is counted there that was not counted before. -/
theorem trainsOwing_counts : trainsOwing.num 0x2342 1 = 0 ∧ (trainsOwing.stepForFreq 0 1).num 0x2342 1 = 1 := by decide

/-- Refutes O44: in `trainsOwing` the change to the queued point counts a neighbour refresh in 2342h, so it does not leave the objects
as they are. -/
theorem not_memoryChannelsTrain : ¬ Obligations.MemoryChannelsTrain := by
  unfold Obligations.MemoryChannelsTrain
  rintro ⟨-, -, -, ends, -⟩
  obtain ⟨-, -, -, givesWay⟩ := ends trainsOwing 0 (by decide) (by decide) (by decide)
  obtain ⟨t, run, -, -, -, -, only⟩ := givesWay 1 .stepDone (by decide) (by decide) (by decide)
  have same : t = trainsOwing.stepForFreq 0 1 := Host.Outcome.next.inj (run.symm.trans trainsOwing_gives_way)
  have kept : t.num 0x2342 1 = trainsOwing.num 0x2342 1 := State.num_congr (only .objs (by decide)) 0x2342 1
  rw [same, trainsOwing_counts.1, trainsOwing_counts.2] at kept
  cases kept

end Sys2Proof.Machine
end

section
/-! Commands on a memory channel's bus: what they leave alone is the channel's queues and its state, and every object but the count of
neighbour refreshes (R142, R143, R147, R150). -/

set_option Elab.async false

namespace Sys2Proof.Machine

variable {s t u : State} {c : Nat}

/-- What a change of a channel keeps of that channel, it keeps of every channel. -/
theorem State.modChan_keeps {β : Type} (g : Mch → β) {f : Mch → Mch} (h : g (f (s.chan c)) = g (s.chan c)) (i : Nat) :
    g ((s.modChan c f).chan i) = g (s.chan i) := by
  by_cases e : i = c
  · subst e
    rcases Nat.lt_or_ge i 4 with hi | hi
    · rw [s.chan_modChan_self hi, h]
    · exact congrArg g ((vget_of_ge _ _ hi).trans (vget_of_ge _ _ hi).symm)
  · rw [s.chan_modChan_ne e]

/-- A channel but for what commands on its bus change: owed refreshes, the LFSR, due neighbour refreshes and the command log. -/
def Mch.offBus (m : Mch) : Mch := { m with owed := Vector.replicate 2 0, lfsr := 0, due := [], log := [] }

/-- From `s` to `t` there were commands on the bus of channel `c`. -/
structure BusOnly (c : Nat) (s t : State) : Prop where
  chans : ∀ i, (t.chan i).offBus = (s.chan i).offBus
  objs : ObjsOnly [(0x2342, c + 1)] s t

namespace BusOnly

theorem refl : BusOnly c s s := ⟨fun _ => rfl, .refl⟩

/-- Further commands, behind those before. -/
theorem after (k : BusOnly c t u) (h : BusOnly c s t) : BusOnly c s u :=
  ⟨fun i => (k.chans i).trans (h.chans i), h.objs.trans k.objs⟩

theorem modChan {f : Mch → Mch} (h : ∀ m, (f m).offBus = m.offBus) : BusOnly c s (s.modChan c f) :=
  ⟨fun i => State.modChan_keeps Mch.offBus (h _) i, .of_objs rfl⟩

theorem forRange {n : Nat} {f : Nat → State → State} (h : ∀ k t, BusOnly c t (f k t)) : BusOnly c s (forRange n f s) :=
  forRange_keeps (P := BusOnly c s) (fun k _ t b => (h k t).after b) .refl

theorem ite {p : Prop} [Decidable p] (h : BusOnly c s t) (k : BusOnly c s u) : BusOnly c s (if p then t else u) := by
  split <;> assumption

/-- The counted refreshes are those of the channel. -/
theorem bump (hc : c < 4) : BusOnly c s (s.bump 0x2342 (c + 1)) := ⟨fun _ => rfl, s.bump_objs_only _ _ (by omega)⟩

/-- Data that reach DRAM change no channel. -/
theorem stored (h : BusOnly c s t) (x : List Host.Cell) : BusOnly c s { t with dram := x } := ⟨h.chans, h.objs⟩

/-- What the bus leaves alone reads as before in every channel. -/
theorem same {β : Type} (h : BusOnly c s t) (g : Mch → β) (i : Nat) (hg : ∀ m, g m.offBus = g m := by exact fun _ => rfl) :
    g (t.chan i) = g (s.chan i) := by rw [← hg, h.chans, hg]

end BusOnly

theorem State.logCmd_bus (s : State) (c cmd target master row burst : Nat) : BusOnly c s (s.logCmd c cmd target master row burst) := by
  unfold State.logCmd
  extract_lets e
  exact .modChan fun m => rfl

theorem State.activate_bus (s : State) (c t row master : Nat) : BusOnly c s (s.activate c t row master) := by
  unfold State.activate
  extract_lets u x near
  exact BusOnly.after (.modChan fun m => rfl) (s.logCmd_bus c 1 t master row 0)

theorem State.issueDue_bus (hc : c < 4) (n : Nat) (p : Nat → Bool) (s : State) : BusOnly c s (State.issueDue n c p s) := by
  induction n generalizing s with
  | zero => exact .refl
  | succ n ih =>
    unfold State.issueDue
    split
    · exact .refl
    · extract_lets u
      exact (ih _).after (.after (.bump hc) ((u.logCmd_bus ..).after ((State.activate_bus ..).after (.modChan fun m => rfl))))

theorem State.access_bus (hc : c < 4) (s : State) (a master : Nat) (write : Bool) : BusOnly c s (s.access c a master write) := by
  unfold State.access State.clearBank
  extract_lets loc t row
  exact (State.logCmd_bus ..).after ((State.activate_bus ..).after (State.issueDue_bus hc ..))

theorem State.rankCmd_bus (s : State) (c cmd : Nat) : BusOnly c s (s.rankCmd c cmd) := .forRange fun _ t => t.logCmd_bus ..

theorem State.refreshRank_bus (hc : c < 4) (s : State) (rank : Nat) : BusOnly c s (s.refreshRank c rank) := by
  unfold State.refreshRank
  extract_lets u
  refine .after (.modChan fun m => rfl) (.forRange fun b t => ?_)
  extract_lets v
  exact (v.logCmd_bus ..).after (.ite .refl (State.issueDue_bus hc ..))

theorem State.refreshOwed_bus (hc : c < 4) (s : State) : BusOnly c s (s.refreshOwed c) :=
  .forRange fun r _ => .forRange fun _ t => t.refreshRank_bus hc r

theorem State.selfRefresh_bus (hc : c < 4) (s : State) : BusOnly c s (s.selfRefresh c) :=
  (State.rankCmd_bus ..).after (s.refreshOwed_bus hc)

/-- A queued write that is issued: its commands on the bus, then its data in DRAM. -/
theorem State.issueWrite_bus (hc : c < 4) (s : State) (w : MemWrite) : BusOnly c s (s.issueWrite c w) :=
  (s.access_bus hc w.addr w.master true).stored _

theorem State.issueWrite_dram (s : State) (c : Nat) (w : MemWrite) :
    (s.issueWrite c w).dram = writeCells s.dram (cellKey (c, w.addr)) w.data :=
  congrArg (writeCells · _ _) (State.access_moves.same .dram)

theorem State.issueWrite_sent (s : State) (c : Nat) (w : MemWrite) : (s.issueWrite c w).sent = s.sent :=
  State.issueWrite_moves.same .sent

/-- A channel at rest that does not leave for another operating point issues the refreshes that it owes (R144). -/
theorem State.atRest_bus (hc : c < 4) (h : ∀ p, (s.chan c).leaving ≠ some (.freq p)) : BusOnly c s (s.atRest c) := by
  unfold State.atRest
  extract_lets u
  have issued : BusOnly c s u := (State.issueDue_bus hc ..).after (s.refreshOwed_bus hc)
  split
  · next p e => exact absurd ((issued.same Mch.leaving c).symm.trans e) (h p)
  · exact issued

end Sys2Proof.Machine
end

section
/-! How a memory channel takes requests into its queues and serves them until the next item is a read (R144 to R146, R155). -/

set_option Elab.async false

namespace Sys2Proof.Machine

variable {s t : State} {c : Nat}

/-! A channel that is changed. -/

theorem State.modChan_congr {f g : Mch → Mch} (h : f (s.chan c) = g (s.chan c)) : s.modChan c f = s.modChan c g := by
  refine congrArg (fun m => { s with mem := m }) (Vector.ext fun i hi => ?_)
  unfold vmod
  rw [Vector.getElem_ofFn, Vector.getElem_ofFn]
  split
  · next e =>
    have m : s.mem[i] = s.chan c := by
      subst e
      exact (vget_eq_getElem _ _ hi).symm
    exact (congrArg f m).trans (h.trans (congrArg g m.symm))
  · rfl

theorem State.modChan_eq_self {f : Mch → Mch} (h : f (s.chan c) = s.chan c) : s.modChan c f = s := by
  rw [State.modChan_congr (g := id) h]
  refine congrArg (fun m => { s with mem := m }) (Vector.ext fun i hi => ?_)
  simp [vmod]

theorem State.modChan_modChan (s : State) (c : Nat) (f g : Mch → Mch) : (s.modChan c f).modChan c g = s.modChan c fun m => g (f m) := by
  refine congrArg (fun m => { s with mem := m }) (Vector.ext fun i hi => ?_)
  simp only [State.modChan, vmod, Vector.getElem_ofFn]
  split
  · rename_i e
    simp [e]
  · rename_i e
    simp [e]

/-! Requests enter the queues. -/

/-- A channel but for its queues. -/
def Mch.offQueues (m : Mch) : Mch := { m with reads := [], writes := [], waiting := [] }

/-- What waiting requests do when they enter changes the queues of their channel. -/
theorem State.admitWaiting_chan (held l : List MemWait) (s : State) (i : Nat) :
    ((State.admitWaiting c held l s).chan i).offQueues = (s.chan i).offQueues := by
  induction l generalizing held s with
  | nil => exact State.modChan_keeps Mch.offQueues rfl i
  | cons q l ih =>
    unfold State.admitWaiting
    split
    · exact ih ..
    · cases q with
      | read r =>
        dsimp only
        split
        · exact ih ..
        · exact (ih ..).trans (State.modChan_keeps Mch.offQueues rfl i)
      | write w =>
        dsimp only
        split
        · exact (ih ..).trans (State.modChan_keeps Mch.offQueues rfl i)
        · split
          · exact (ih ..).trans (State.modChan_keeps Mch.offQueues rfl i)
          · exact ih ..

theorem State.takeIn_chan (s : State) (c i : Nat) : ((s.takeIn c).chan i).offQueues = (s.chan i).offQueues := by
  unfold State.takeIn
  split
  · rfl
  · exact State.admitWaiting_chan ..

theorem State.takeIn_none (h : (s.chan c).waiting = []) : s.takeIn c = s := by
  unfold State.takeIn
  split
  · rfl
  · rw [h]
    exact State.modChan_eq_self (by rw [← h])

/-- A read whose address no write is queued for joins the reads (R144). -/
theorem State.takeIn_read {r : MemRead} (hl : (s.chan c).leaving = none) (hw : (s.chan c).writes.find? (·.addr == r.addr) = none)
    (hq : (s.chan c).waiting = [.read r]) :
    s.takeIn c = s.modChan c fun m => { m with reads := m.reads ++ [r], waiting := [] } := by
  unfold State.takeIn
  rw [if_neg (by simp [hl]), hq]
  simp only [State.admitWaiting, List.any_nil, Bool.false_eq_true, if_false, hw]
  exact State.modChan_modChan ..

/-- A read of a queued address is answered from the queue (R146). -/
theorem State.takeIn_answered {r : MemRead} {w : MemWrite} (hl : (s.chan c).leaving = none)
    (hw : (s.chan c).writes.find? (·.addr == r.addr) = some w) (hq : (s.chan c).waiting = [.read r]) :
    s.takeIn c = (s.emit (.memRead r.master (s.systemAddr c r.addr) (some w.data))).modChan c fun m => { m with waiting := [] } := by
  unfold State.takeIn
  rw [if_neg (by simp [hl]), hq]
  simp only [State.admitWaiting, List.any_nil, Bool.false_eq_true, if_false, hw]

/-- A write to an empty queue joins it. -/
theorem State.takeIn_write {w : MemWrite} (hl : (s.chan c).leaving = none) (hw : (s.chan c).writes = [])
    (hq : (s.chan c).waiting = [.write w]) :
    s.takeIn c = s.modChan c fun m => { m with writes := m.writes ++ [w], waiting := [] } := by
  unfold State.takeIn
  rw [if_neg (by simp [hl]), hq]
  simp only [State.admitWaiting, List.any_nil, Bool.false_eq_true, if_false, hw, List.length_nil, Nat.zero_lt_succ, if_true]
  exact State.modChan_modChan ..

/-- Every write that is queued at a channel or waits there meets `Q`. -/
structure AllWrites (Q : MemWrite → Prop) (m : Mch) : Prop where
  queued : ∀ w ∈ m.writes, Q w
  waits : ∀ w, .write w ∈ m.waiting → Q w

theorem State.admitWaiting_writes {Q : MemWrite → Prop} (hc : c < 4) {held l : List MemWait} {s : State}
    (queued : ∀ w ∈ (s.chan c).writes, Q w) (hheld : ∀ w, .write w ∈ held → Q w) (hl : ∀ w, .write w ∈ l → Q w) :
    AllWrites Q ((State.admitWaiting c held l s).chan c) := by
  induction l generalizing held s with
  | nil =>
    unfold State.admitWaiting
    rw [s.chan_modChan_self hc]
    exact ⟨queued, hheld⟩
  | cons q l ih =>
    have later : ∀ w, .write w ∈ l → Q w := fun w h => hl w (List.mem_cons_of_mem _ h)
    have heldToo : ∀ w, .write w ∈ held ++ [q] → Q w := fun w h =>
      (List.mem_append.1 h).elim (hheld w) fun h => hl w (by simp at h; simp [h])
    unfold State.admitWaiting
    split
    · exact ih queued heldToo later
    · cases q with
      | read r =>
        dsimp only
        split
        · exact ih (s := s.emit _) queued hheld later
        · refine ih ?_ hheld later
          rw [s.chan_modChan_self hc]
          exact queued
      | write w =>
        have new : Q w := hl w List.mem_cons_self
        dsimp only
        split
        · refine ih ?_ hheld later
          rw [s.chan_modChan_self hc]
          intro x hx
          obtain ⟨y, hy, rfl⟩ := List.mem_map.1 hx
          split
          · exact new
          · exact queued y hy
        · split
          · refine ih ?_ hheld later
            rw [s.chan_modChan_self hc]
            exact fun x hx => (List.mem_append.1 hx).elim (queued x) fun h => List.mem_singleton.1 h ▸ new
          · exact ih queued heldToo later

theorem State.takeIn_writes {Q : MemWrite → Prop} (hc : c < 4) (h : AllWrites Q (s.chan c)) : AllWrites Q ((s.takeIn c).chan c) := by
  unfold State.takeIn
  split
  · exact h
  · exact State.admitWaiting_writes hc h.queued (by simp) h.waits

/-! A channel at rest. -/

/-- At rest a channel issues the refreshes that it owes; then, where it leaves for another operating point, it has left (R144, R160). -/
theorem State.atRest_cases (hc : c < 4) (s : State) : ∃ u, BusOnly c s u ∧
    (s.atRest c = u ∨ ∃ p, (s.chan c).leaving = some (.freq p) ∧
      s.atRest c = u.modChan c fun m => { m with leaving := none, point := p }) := by
  have issued : BusOnly c s (State.issueDue 1024 c (fun _ => true) (s.refreshOwed c)) :=
    (State.issueDue_bus hc ..).after (s.refreshOwed_bus hc)
  unfold State.atRest
  extract_lets u
  split
  · next p e => exact ⟨_, (u.selfRefresh_bus hc).after issued, .inr ⟨p, (issued.same Mch.leaving c).symm.trans e, rfl⟩⟩
  · exact ⟨u, issued, .inl rfl⟩

/-- What neither the bus nor a change of point touches, a channel at rest keeps. -/
theorem State.atRest_chan {β : Type} (hc : c < 4) (s : State) (g : Mch → β) (i : Nat)
    (hb : ∀ m, g m.offBus = g m := by exact fun _ => rfl)
    (hp : ∀ m l p, g { m with leaving := l, point := p } = g m := by exact fun _ _ _ => rfl) :
    g ((s.atRest c).chan i) = g (s.chan i) := by
  obtain ⟨u, bus, e | ⟨p, -, e⟩⟩ := s.atRest_cases hc
  · rw [e]
    exact bus.same g i hb
  · rw [e, State.modChan_keeps g (hp ..), bus.same g i hb]

theorem State.atRest_objs_only (hc : c < 4) (s : State) : ObjsOnly [(0x2342, c + 1)] s (s.atRest c) := by
  obtain ⟨u, bus, e | ⟨p, -, e⟩⟩ := s.atRest_cases hc
  · exact e ▸ bus.objs
  · exact e ▸ bus.objs.trans (.of_objs rfl)

/-! The service of the queues. -/

/-- Whether a real-time burst runs, and whether writes are drained, as a channel's queues give it (R144, R145). -/
def Mch.decided (m : Mch) : Mch :=
  { m.setBurst with drain := if 48 ≤ m.writes.length then true else if m.writes.length ≤ 16 then false else m.drain }

/-- A queued write taken out of its queue and issued. -/
def State.writeOut (s : State) (c : Nat) (w : MemWrite) : State :=
  (s.modChan c fun m => { m with writes := m.writes.erase w }).issueWrite c w

/-- What taking requests in, deciding, writing out and coming to rest keep, the service of a channel's queues keeps. -/
theorem settleN_keeps {P : State → Prop} (take : ∀ t, P t → P (t.takeIn c)) (decided : ∀ t, P t → P (t.modChan c Mch.decided))
    (write : ∀ t w, w ∈ (t.chan c).writes → P t → P (t.writeOut c w)) (rest : ∀ t, P t → P (t.atRest c)) (n : Nat) (h : P s) :
    P (settleN n c s) := by
  induction n generalizing s with
  | zero => exact h
  | succ n ih =>
    have begun : P ((s.takeIn c).modChan c Mch.decided) := decided _ (take _ h)
    unfold settleN
    extract_lets u v m
    split
    · exact begun
    · split
      · split
        · exact rest _ begun
        · exact begun
      · split
        · split
          · next w hw => exact ih (write _ w (List.mem_of_find?_eq_some hw) begun)
          · exact begun
        · exact begun

theorem settle_keeps {P : State → Prop} (take : ∀ t, P t → P (t.takeIn c)) (decided : ∀ t, P t → P (t.modChan c Mch.decided))
    (write : ∀ t w, w ∈ (t.chan c).writes → P t → P (t.writeOut c w)) (rest : ∀ t, P t → P (t.atRest c)) (h : P s) :
    P (s.settle c) := by
  unfold State.settle
  extract_lets m
  split
  · exact settleN_keeps take decided write rest _ h
  · exact h

/-- What the queues of a channel hold when its service begins is what has entered them. -/
theorem settleN_congr (n : Nat) (h : s.takeIn c = t.takeIn c) : settleN (n + 1) c s = settleN (n + 1) c t := by
  unfold settleN
  rw [h]

/-- With no read queued and none waiting, the first write goes out. -/
theorem settleN_write {w : MemWrite} {ws : List MemWrite} (hc : c < 4) (n : Nat) (taken : s.takeIn c = s) (hr : (s.chan c).reads = [])
    (hw : (s.chan c).writes = w :: ws) : settleN (n + 1) c s = settleN n c ((s.modChan c Mch.decided).writeOut c w) := by
  conv_lhs => unfold settleN
  extract_lets u v m
  have begun : v = s.modChan c Mch.decided := congrArg (State.modChan · c Mch.decided) taken
  have chan : m = (s.chan c).decided := (congrArg (State.chan · c) begun).trans (s.chan_modChan_self hc _)
  have reads : m.reads = [] := chan ▸ hr
  have writes : m.writes = w :: ws := chan ▸ hw
  have burst : m.burst = false := by simp [chan, Mch.decided, Mch.setBurst, Mch.rtWaits, hr]
  rw [burst, reads, writes, begun]
  simp [State.writeOut]

theorem State.writeOut_bus (hc : c < 4) (s : State) (w : MemWrite) :
    BusOnly c (s.modChan c fun m => { m with writes := m.writes.erase w }) (s.writeOut c w) := State.issueWrite_bus hc ..

theorem State.writeOut_dram (s : State) (c : Nat) (w : MemWrite) :
    (s.writeOut c w).dram = writeCells s.dram (cellKey (c, w.addr)) w.data := State.issueWrite_dram ..

theorem State.writeOut_sent (s : State) (c : Nat) (w : MemWrite) : (s.writeOut c w).sent = s.sent := State.issueWrite_sent ..

/-- What neither the bus nor the queued writes touch, a write that goes out keeps. -/
theorem State.writeOut_chan {β : Type} (hc : c < 4) (s : State) (w : MemWrite) (g : Mch → β) (i : Nat)
    (hb : ∀ m, g m.offBus = g m := by exact fun _ => rfl) (hw : ∀ m l, g { m with writes := l } = g m := by exact fun _ _ => rfl) :
    g ((s.writeOut c w).chan i) = g (s.chan i) := by
  rw [(s.writeOut_bus hc w).same g i hb, State.modChan_keeps g (hw ..)]

theorem State.writeOut_objs_only (hc : c < 4) (s : State) (w : MemWrite) : ObjsOnly [(0x2342, c + 1)] s (s.writeOut c w) :=
  (ObjsOnly.of_objs rfl).trans (s.writeOut_bus hc w).objs

theorem State.settle_objs_only (hc : c < 4) (s : State) : ObjsOnly [(0x2342, c + 1)] s (s.settle c) :=
  settle_keeps (P := ObjsOnly [(0x2342, c + 1)] s) (fun _ k => k.trans (.of_objs (State.takeIn_moves.same .objs)))
    (fun _ k => k.trans (.of_objs rfl)) (fun t w _ k => k.trans (t.writeOut_objs_only hc w))
    (fun t k => k.trans (t.atRest_objs_only hc)) .refl

/-- What no queue, burst, refresh or change of point touches, the service of the queues keeps. -/
theorem State.settle_chan {β : Type} (hc : c < 4) (s : State) (g : Mch → β) (i : Nat)
    (hb : ∀ m, g m.offBus = g m := by exact fun _ => rfl)
    (hq : ∀ m, g m.offQueues = g m := by exact fun _ => rfl) (hd : ∀ m, g m.decided = g m := by exact fun _ => rfl)
    (hp : ∀ m l p, g { m with leaving := l, point := p } = g m := by exact fun _ _ _ => rfl) :
    g ((s.settle c).chan i) = g (s.chan i) := by
  have hw : ∀ m l, g { m with writes := l } = g m := fun m l => by rw [← hq m, ← hq { m with writes := l }]; rfl
  refine settle_keeps (P := fun t => g (t.chan i) = g (s.chan i)) (fun t k => ?_) (fun t k => ?_) (fun t w _ k => ?_) (fun t k => ?_) rfl
  · rw [← k, ← hq, t.takeIn_chan, hq]
  · rw [State.modChan_keeps g (hd _), k]
  · rw [t.writeOut_chan hc w g i hb hw, k]
  · rw [t.atRest_chan hc g i hb hp, k]

end Sys2Proof.Machine
end

section
/-! Requests of memory: what reaches DRAM, which reads wait and which are answered at once (R141, R144 to R146, R155, R162). -/

set_option Elab.async false

namespace Sys2Proof.Machine

variable {s t : State} {c : Nat}

/-- A frame without a part that is shown to stay as it was. -/
theorem Only.without {p : StatePart} {ps : List StatePart} (h : Only (p :: ps) s t) (k : p.same s t) : Only ps s t := fun q hq => by
  by_cases e : q = p
  · exact e ▸ k
  · exact h q (by simp [e, hq])

/-! Bytes written to DRAM. -/

theorem readCell_writeCells_out (m : List Host.Cell) {a k : Nat} {b : Bytes} (h : k < a ∨ a + b.length ≤ k) :
    readCell (writeCells m a b) k = readCell m k := by
  induction b generalizing m a with
  | nil => rfl
  | cons x b ih =>
    rw [List.length_cons] at h
    rw [writeCells, ih _ (by omega), readCell_writeCell_ne _ _ (by omega)]

theorem readCell_writeCells_in (m : List Host.Cell) (a : Nat) {b : Bytes} {i : Nat} (h : i < b.length) :
    readCell (writeCells m a b) (a + i) = b[i] := by
  induction b generalizing m a i with
  | nil => cases h
  | cons x b ih =>
    cases i with
    | zero => rw [writeCells, readCell_writeCells_out _ (by omega), Nat.add_zero, readCell_writeCell_self, List.getElem_cons_zero]
    | succ i =>
      have later := ih (writeCell m a x) (a + 1) (Nat.lt_of_succ_lt_succ h)
      rw [writeCells, List.getElem_cons_succ, ← later, Nat.add_right_comm, Nat.add_assoc]

theorem readCells_writeCells (m : List Host.Cell) (a : Nat) (b : Bytes) : readCells (writeCells m a b) a b.length = b := by
  unfold readCells
  refine List.ext_getElem (by simp) fun i hi hj => ?_
  rw [List.getElem_map, List.getElem_range, readCell_writeCells_in m a hj]

theorem padTo_full {n : Nat} {b : Bytes} (h : b.length = n) : padTo n b = b := by
  subst h
  simp [padTo]

theorem padTo_length (n : Nat) (b : Bytes) : (padTo n b).length = n := by
  unfold padTo
  rw [List.length_append, List.length_take, List.length_replicate]
  omega

/-! A channel that takes requests. -/

/-- What waking changes of a channel is that it is READY, and its command log. -/
theorem State.wakeChan_chan (s : State) (p : Nat) {β : Type} (g : Mch → β) (i : Nat)
    (hb : ∀ m, g m.offBus = g m := by exact fun _ => rfl)
    (hs : ∀ m x, g { m with st := x } = g m := by exact fun _ _ => rfl) : g ((s.wakeChan p).chan i) = g (s.chan i) := by
  unfold State.wakeChan
  split
  · rw [(State.rankCmd_bus ..).same g i hb, State.modChan_keeps g (hs ..)]
  · rfl

theorem State.wakeChan_ready (hc : c < 4) (h : (s.chan c).st = .ready ∨ (s.chan c).st = .selfRefresh) (hl : (s.chan c).leaving = none) :
    ((s.wakeChan c).chan c).st = .ready := by
  unfold State.wakeChan
  split
  · rw [(State.rankCmd_bus ..).same Mch.st c, s.chan_modChan_self hc]
  · next awake => exact h.resolve_right fun e => awake ⟨e, hl⟩

theorem State.wakeChan_awake (h : (s.chan c).st ≠ .selfRefresh) : s.wakeChan c = s := if_neg fun k => h k.1

theorem State.settle_works (h : (s.chan c).works = true) :
    s.settle c = settleN ((s.chan c).waiting.length + (s.chan c).writes.length + 1) c s := if_pos h

theorem Mch.works_ready {m : Mch} (h : m.st = .ready) : m.works = true := by simp [Mch.works, h]

/-- Where no request waits, the service of the queues lets no read go and sends nothing. -/
structure ReadsKept (c : Nat) (s t : State) : Prop where
  reads : (t.chan c).reads = (s.chan c).reads
  waiting : (t.chan c).waiting = []
  sent : t.sent = s.sent

theorem ReadsKept.settleN (hc : c < 4) (h : (s.chan c).waiting = []) (n : Nat) : ReadsKept c s (settleN n c s) := by
  refine settleN_keeps (P := ReadsKept c s) (fun t k => ?_) (fun t k => ?_) (fun t w _ k => ?_) (fun t k => ?_) n ⟨rfl, h, rfl⟩
  · exact (State.takeIn_none k.waiting).symm ▸ k
  · exact ⟨(State.modChan_keeps Mch.reads rfl c).trans k.reads, (State.modChan_keeps Mch.waiting rfl c).trans k.waiting, k.sent⟩
  · exact ⟨(t.writeOut_chan hc w Mch.reads c).trans k.reads, (t.writeOut_chan hc w Mch.waiting c).trans k.waiting,
      (t.writeOut_sent c w).trans k.sent⟩
  · exact ⟨(t.atRest_chan hc Mch.reads c).trans k.reads, (t.atRest_chan hc Mch.waiting c).trans k.waiting,
      (State.atRest_moves.same .sent : _ = t.sent).trans k.sent⟩

theorem ReadsKept.settle (hc : c < 4) (h : (s.chan c).waiting = []) : ReadsKept c s (s.settle c) := by
  unfold State.settle
  extract_lets m
  split
  · exact .settleN hc h _
  · exact ⟨rfl, h, rfl⟩

/-- Where no write is queued and none waits, the service of the queues leaves DRAM as it is. -/
structure NoWrites (c : Nat) (s t : State) : Prop where
  writes : (t.chan c).writes = []
  waiting : (t.chan c).waiting = []
  dram : t.dram = s.dram

theorem NoWrites.settleN (hc : c < 4) (hw : (s.chan c).writes = []) (hq : (s.chan c).waiting = []) (n : Nat) :
    NoWrites c s (settleN n c s) := by
  refine settleN_keeps (P := NoWrites c s) (fun t k => ?_) (fun t k => ?_) (fun t w hm k => ?_) (fun t k => ?_) n ⟨hw, hq, rfl⟩
  · exact (State.takeIn_none k.waiting).symm ▸ k
  · exact ⟨(State.modChan_keeps Mch.writes rfl c).trans k.writes, (State.modChan_keeps Mch.waiting rfl c).trans k.waiting, k.dram⟩
  · rw [k.writes] at hm
    cases hm
  · exact ⟨(t.atRest_chan hc Mch.writes c).trans k.writes, (t.atRest_chan hc Mch.waiting c).trans k.waiting,
      (State.atRest_moves.same .dram : _ = t.dram).trans k.dram⟩

/-- A byte that no queued or waiting write covers keeps its value while the queues are served. -/
theorem State.settle_spares {k : Nat} (hc : c < 4)
    (h : AllWrites (fun w => k < cellKey (c, w.addr) ∨ cellKey (c, w.addr) + w.data.length ≤ k) (s.chan c)) :
    readCell (s.settle c).dram k = readCell s.dram k := by
  refine (settle_keeps (P := fun t =>
    AllWrites (fun w => k < cellKey (c, w.addr) ∨ cellKey (c, w.addr) + w.data.length ≤ k) (t.chan c) ∧
      readCell t.dram k = readCell s.dram k) (fun t p => ?_) (fun t p => ?_) (fun t w hw p => ?_) (fun t p => ?_) ⟨h, rfl⟩).2
  · exact ⟨State.takeIn_writes hc p.1, (congrArg (readCell · k) (State.takeIn_moves.same .dram : _ = t.dram)).trans p.2⟩
  · refine ⟨⟨?_, ?_⟩, p.2⟩
    · rw [State.modChan_keeps Mch.writes rfl]
      exact p.1.queued
    · rw [State.modChan_keeps Mch.waiting rfl]
      exact p.1.waits
  · refine ⟨⟨fun x hx => ?_, fun x hx => ?_⟩, ?_⟩
    · rw [(t.writeOut_bus hc w).same Mch.writes, t.chan_modChan_self hc] at hx
      exact p.1.queued x (List.mem_of_mem_erase hx)
    · rw [t.writeOut_chan hc w Mch.waiting] at hx
      exact p.1.waits x hx
    · rw [t.writeOut_dram, readCell_writeCells_out _ (p.1.queued w hw)]
      exact p.2
  · refine ⟨⟨?_, ?_⟩, (congrArg (readCell · k) (State.atRest_moves.same .dram : _ = t.dram)).trans p.2⟩
    · rw [t.atRest_chan hc Mch.writes]
      exact p.1.queued
    · rw [t.atRest_chan hc Mch.waiting]
      exact p.1.waits

/-! A request, by what its channel does with it. -/

/-- A request as it waits at its channel. -/
def waitOf (a master : Nat) : Option Bytes → MemWait
  | some d => .write { master := master, addr := a, data := padTo 128 d }
  | none => .read { master := master, addr := a }

/-- The state in which a request has joined those that wait at its channel. -/
def State.asks (s : State) (c : Nat) (q : MemWait) : State := s.modChan c fun m => { m with waiting := m.waiting ++ [q] }

theorem State.memRequest_eq (s : State) (c a master : Nat) (d : Option Bytes) :
    s.memRequest c a master d = ((s.wakeChan c).asks c (waitOf a master d)).settle c := by cases d <;> rfl

theorem State.asks_moves {q : MemWait} : Moves [.mem] s (s.asks c q) := State.modChan_moves

theorem State.asks_waiting (hc : c < 4) (q : MemWait) : ((s.asks c q).chan c).waiting = (s.chan c).waiting ++ [q] :=
  congrArg Mch.waiting (s.chan_modChan_self hc _)

theorem State.asks_first (hc : c < 4) (h : (s.chan c).waiting = []) (q : MemWait) : ((s.asks c q).chan c).waiting = [q] := by
  rw [State.asks_waiting hc, h]
  rfl

/-- What a request finds at its channel but for those that wait. -/
theorem State.asks_chan (s : State) (c : Nat) (q : MemWait) {β : Type} (g : Mch → β) (i : Nat)
    (h : ∀ m l, g { m with waiting := l } = g m := by exact fun _ _ => rfl) : g ((s.asks c q).chan i) = g (s.chan i) :=
  State.modChan_keeps g (h ..) i

/-- A write of 128 bytes to a channel at rest reaches DRAM (R144, R162). -/
theorem State.memRequest_write {l m : Nat} {d : Bytes} (hc : c < 4) (hs : (s.chan c).st = .ready ∨ (s.chan c).st = .selfRefresh)
    (hl : (s.chan c).leaving = none) (hr : (s.chan c).reads = []) (hw : (s.chan c).writes = []) (hq : (s.chan c).waiting = [])
    (hd : d.length = 128) :
    (s.memRequest c l m (some d)).dram = writeCells s.dram (cellKey (c, l)) d ∧
      ((s.memRequest c l m (some d)).chan c).writes = [] ∧ ((s.memRequest c l m (some d)).chan c).st = .ready ∧
      (s.memRequest c l m (some d)).sent = s.sent := by
  let x := s.wakeChan c
  let w : MemWrite := { master := m, addr := l, data := padTo 128 d }
  let u := x.asks c (.write w)
  let v := x.modChan c fun m => { m with writes := [w], waiting := [] }
  have ready : (u.chan c).st = .ready := (x.asks_chan c _ Mch.st c).trans (State.wakeChan_ready hc hs hl)
  have none : (u.chan c).writes = [] := (x.asks_chan c _ Mch.writes c).trans ((s.wakeChan_chan c Mch.writes c).trans hw)
  have waits : (u.chan c).waiting = [.write w] := State.asks_first hc ((s.wakeChan_chan c Mch.waiting c).trans hq) _
  have entered : u.takeIn c = v := by
    rw [State.takeIn_write ((x.asks_chan c _ Mch.leaving c).trans ((s.wakeChan_chan c Mch.leaving c).trans hl)) none waits]
    refine (State.modChan_modChan ..).trans (State.modChan_congr ?_)
    rw [(s.wakeChan_chan c Mch.writes c).trans hw]
    rfl
  have v_chan : v.chan c = { x.chan c with writes := [w], waiting := [] } := x.chan_modChan_self hc _
  have held : v.takeIn c = v := State.takeIn_none (congrArg Mch.waiting v_chan)
  have idle : (v.chan c).reads = [] := (congrArg Mch.reads v_chan).trans ((s.wakeChan_chan c Mch.reads c).trans hr)
  have served : s.memRequest c l m (some d) = settleN 2 c v := by
    rw [s.memRequest_eq]
    refine (State.settle_works (Mch.works_ready ready)).trans ?_
    rw [waits, none]
    exact settleN_congr 1 (entered.trans held.symm)
  have issued := settleN_write hc 1 held idle (congrArg Mch.writes v_chan)
  have left : (((v.modChan c Mch.decided).writeOut c w).chan c).writes = [] := by
    rw [(State.writeOut_bus hc _ w).same Mch.writes, State.chan_modChan_self _ hc, v.chan_modChan_self hc, v_chan]
    exact List.erase_cons_head w []
  have quiet : (((v.modChan c Mch.decided).writeOut c w).chan c).waiting = [] := by
    rw [State.writeOut_chan hc _ w Mch.waiting, State.modChan_keeps Mch.waiting rfl, v_chan]
  have done := NoWrites.settleN hc left quiet 1
  have kept := ReadsKept.settleN hc (congrArg Mch.waiting v_chan) 2
  rw [served]
  refine ⟨?_, ?_, ?_, ?_⟩
  · rw [issued, done.dram, State.writeOut_dram]
    exact congr (congrArg (writeCells · (cellKey (c, l))) (State.wakeChan_moves.same .dram)) (padTo_full hd)
  · rw [issued]
    exact done.writes
  · rw [← served, s.memRequest_eq, State.settle_chan hc _ Mch.st]
    exact ready
  · exact kept.sent.trans (State.wakeChan_moves.same .sent)

/-- A read whose address no write is queued for joins the reads of a READY channel, and nothing is sent yet (R144). -/
theorem State.memRequest_read {l m : Nat} (hc : c < 4) (hs : (s.chan c).st = .ready) (hl : (s.chan c).leaving = none)
    (hq : (s.chan c).waiting = []) (hw : ∀ w ∈ (s.chan c).writes, w.addr ≠ l) :
    ((s.memRequest c l m none).chan c).reads = (s.chan c).reads ++ [{ master := m, addr := l }] ∧
      (s.memRequest c l m none).sent = s.sent := by
  let r : MemRead := { master := m, addr := l }
  let u := s.asks c (.read r)
  let v := s.modChan c fun m => { m with reads := m.reads ++ [r], waiting := [] }
  have entered : u.takeIn c = v := by
    have free : (u.chan c).writes.find? (·.addr == r.addr) = none := by
      rw [s.asks_chan c _ Mch.writes]
      exact List.find?_eq_none.2 fun w hm => by simpa using hw w hm
    rw [State.takeIn_read ((s.asks_chan c _ Mch.leaving c).trans hl) free (State.asks_first hc hq _)]
    exact State.modChan_modChan ..
  have v_chan : v.chan c = { s.chan c with reads := (s.chan c).reads ++ [r], waiting := [] } := s.chan_modChan_self hc _
  have served : ∃ n, s.memRequest c l m none = settleN n c v := by
    rw [s.memRequest_eq, State.wakeChan_awake (by simp [hs])]
    refine ⟨_, (State.settle_works (Mch.works_ready ((s.asks_chan c _ Mch.st c).trans hs))).trans (settleN_congr _ ?_)⟩
    exact entered.trans (State.takeIn_none (congrArg Mch.waiting v_chan)).symm
  obtain ⟨n, served⟩ := served
  have kept := ReadsKept.settleN hc (congrArg Mch.waiting v_chan) n
  rw [served]
  exact ⟨kept.reads.trans (congrArg Mch.reads v_chan), kept.sent⟩

/-- A read of a queued address is answered at once by a READY channel, from the queue (R146). -/
theorem State.memRequest_answered {l m : Nat} {w : MemWrite} (hc : c < 4) (hs : (s.chan c).st = .ready) (hl : (s.chan c).leaving = none)
    (hq : (s.chan c).waiting = []) (hw : (s.chan c).writes.find? (·.addr == l) = some w) :
    ((s.memRequest c l m none).chan c).reads = (s.chan c).reads ∧
      (s.memRequest c l m none).sent = s.sent ++ [.memRead m (s.systemAddr c l) (some w.data)] := by
  let r : MemRead := { master := m, addr := l }
  let u := s.asks c (.read r)
  let v := (u.emit (.memRead m (s.systemAddr c l) (some w.data))).modChan c fun m => { m with waiting := [] }
  have entered : u.takeIn c = v :=
    State.takeIn_answered ((s.asks_chan c _ Mch.leaving c).trans hl) ((congrArg _ (s.asks_chan c _ Mch.writes c)).trans hw)
      (State.asks_first hc hq _)
  have v_chan : v.chan c = { u.chan c with waiting := [] } := State.chan_modChan_self _ hc _
  have served : ∃ n, s.memRequest c l m none = settleN n c v := by
    rw [s.memRequest_eq, State.wakeChan_awake (by simp [hs])]
    refine ⟨_, (State.settle_works (Mch.works_ready ((s.asks_chan c _ Mch.st c).trans hs))).trans (settleN_congr _ ?_)⟩
    exact entered.trans (State.takeIn_none (congrArg Mch.waiting v_chan)).symm
  obtain ⟨n, served⟩ := served
  have kept := ReadsKept.settleN hc (congrArg Mch.waiting v_chan) n
  rw [served]
  exact ⟨kept.reads.trans ((congrArg Mch.reads v_chan).trans (s.asks_chan c _ Mch.reads c)), kept.sent⟩

/-- A channel that serves no requests and works off no queue lets a request wait (R155). -/
theorem State.memRequest_waits {l m : Nat} {d : Option Bytes} (hs : (s.chan c).serves = false) (hw : (s.chan c).works = false) :
    s.memRequest c l m d = s.asks c (waitOf l m d) := by
  have asleep : s.wakeChan c = s := if_neg fun k => by simp [Mch.serves, k.1, k.2] at hs
  rw [s.memRequest_eq, asleep]
  exact if_neg (by rw [s.asks_chan c _ Mch.works, hw]; decide)

/-- A byte that the request's channel has no write of, and the request is none of, keeps its value. -/
theorem State.memRequest_spares {l m k : Nat} {d : Option Bytes} (hc : c < 4)
    (h : AllWrites (fun w => k < cellKey (c, w.addr) ∨ cellKey (c, w.addr) + w.data.length ≤ k) (s.chan c))
    (hd : d.isSome = true → k < cellKey (c, l) ∨ cellKey (c, l) + 128 ≤ k) :
    readCell (s.memRequest c l m d).dram k = readCell s.dram k := by
  rw [s.memRequest_eq, State.settle_spares hc ⟨fun w hw => ?_, fun w hw => ?_⟩]
  · exact congrArg (readCell · k) (State.wakeChan_moves.same .dram)
  · rw [State.asks_chan _ c _ Mch.writes, s.wakeChan_chan c Mch.writes] at hw
    exact h.queued w hw
  · rw [State.asks_waiting hc] at hw
    rcases List.mem_append.1 hw with old | new
    · rw [s.wakeChan_chan c Mch.waiting] at old
      exact h.waits w old
    · cases d with
      | none => simp [waitOf] at new
      | some d =>
        obtain rfl : w = { master := m, addr := l, data := padTo 128 d } := by simpa [waitOf] using new
        rw [padTo_length]
        exact hd rfl

end Sys2Proof.Machine
end

section
/-! A memory channel that freezes (R32, R153, R154). -/

set_option Elab.async false

namespace Sys2Proof.Machine

variable {s t u : State} {c : Nat}

theorem State.chan_congr (h : t.mem = s.mem) (c : Nat) : t.chan c = s.chan c := congrArg (vget · c Mch.start) h

/-- What a channel froze with is still there, nothing was sent. -/
structure FreezeKept (c : Nat) (s t : State) : Prop where
  chan : t.chan c = s.chan c
  sent : t.sent = s.sent
  location : t.num 0x2331 (c + 1) = s.num 0x2331 (c + 1)

theorem FreezeKept.refl : FreezeKept c s s := ⟨rfl, rfl, rfl⟩

theorem FreezeKept.after (k : FreezeKept c t u) (h : FreezeKept c s t) : FreezeKept c s u :=
  ⟨k.chan.trans h.chan, k.sent.trans h.sent, k.location.trans h.location⟩

/-- A lane that is not trained falls back to DEEP with no RELEASE (R266). -/
theorem State.laneDeep_kept {l : Nat} (hc : c < 4) (hl : l < 32) (h : (s.lane l).st ≠ .trained) : FreezeKept c s (s.laneDeep l) := by
  unfold State.laneDeep
  extract_lets u
  have same : u = s := if_neg h
  have other : key 0x2331 (c + 1) ≠ key 0x2A19 (l + 1) := by
    unfold key
    omega
  rw [same]
  refine ⟨State.chan_congr (Moves.same (ps := [.objs, .hlk]) ?_ .mem) c, ?_, ?_⟩
  · exact .after State.setNum_moves (.after State.modLane_moves .refl)
  · rw [State.setNum_sent, State.modLane_sent]
  · rw [State.num_setNum_ne _ _ other]
    exact State.num_congr (State.modLane_objs ..) ..

/-- An abandoned training leaves a channel that is frozen as it is (R32). -/
theorem State.abandonTraining_kept (hc : c < 4) (h : (s.chan c).st = .frozen) : FreezeKept c s s.abandonTraining := by
  unfold State.abandonTraining
  split
  · exact .refl
  · split
    extract_lets v w
    have chans : FreezeKept c s w := forEach_keeps (P := FreezeKept c s) (fun d _ t k => by
      split
      · next training =>
        refine .after ⟨t.chan_modChan_ne (fun e => ?_) _, rfl, rfl⟩ k
        rw [← e, k.chan, h] at training
        cases training
      · exact k) ⟨rfl, rfl, rfl⟩
    refine forEach_keeps (P := FreezeKept c s) (fun l hl t k => ?_) chans
    have few : l < 32 := List.mem_range.1 (List.mem_filter.1 hl).1
    have falls (e : (t.lane l).st ≠ .trained) : FreezeKept c s (t.laneDeep l) := (State.laneDeep_kept hc few e).after k
    split
    · next e => exact falls (by simp [e])
    · next e => exact falls (by simp [e])
    · next e => exact falls (by simp [e])
    · next e => exact falls (by simp [e])
    · next e => exact falls (by simp [e])
    · exact k

/-- An abandoned request changes only what is read of it (R32). -/
theorem State.abandonRequest_kept (hc : c < 4) : FreezeKept c s s.abandonRequest := by
  have other : key 0x2331 (c + 1) ≠ key 0x1050 1 := by
    unfold key
    omega
  unfold State.abandonRequest
  split
  · refine ⟨State.chan_congr (State.endRequest_moves.same .mem) c, State.irq_sent .., ?_⟩
    unfold State.endRequest
    extract_lets u
    exact (State.num_setObj_ne _ _ other).trans (State.num_congr (State.modPwr_objs ..) ..)
  · exact .refl

/-- What a channel that freezes leaves: the state FROZEN with its cause and location, and its report (R153, R154). -/
structure Froze (c cause loc : Nat) (s t : State) : Prop where
  st : (t.chan c).st = .frozen
  freezeCause : (t.chan c).freezeCause = cause
  location : t.num 0x2331 (c + 1) = loc
  sent : t.sent = s.sent
  raised : s.takesReports → Raised (0x2310 + c) cause t

/-- The objects that the captures of a freeze behind its location change, and those that a report may change. -/
def captures (c : Nat) : List (Nat × Nat) :=
  [(0x2332, c + 1), (0x2333, c + 1), (0x2334, c + 1), (0x2335, c + 1), (0x2F10, 2), (0x2F10, 4)]

theorem State.freezeChan_froze (hc : c < 4) (s : State) (cause address loc : Nat) (synd : Bytes) (map : Nat) :
    Froze c cause loc s (s.freezeChan c cause address loc synd map) := by
  unfold State.freezeChan
  extract_lets k s1 log s2 s3 s4 s5 s6 s7 s8
  have captured : Moves [.objs] s1 s7 :=
    .after State.setObj_moves (.after State.setNum_moves (.after State.setNum_moves (.after State.setObj_moves
      (.after State.setNum_moves (.after State.setNum_moves .refl)))))
  have frozen : s8.chan c = s1.chan c :=
    State.chan_congr (Eq.trans (State.raise_moves.same .mem) (captured.same .mem)) c
  have s1_chan := s.chan_modChan_self hc fun m => { m with
    st := .frozen, freezeCause := cause, burst := false, drain := false, leaving := none
    pendingPoint := match m.leaving with
      | some (.freq p) => some p
      | _ => m.pendingPoint }
  have located : s8.num 0x2331 (c + 1) = loc := by
    have capture (i : Nat) (hi : (i, k) ∈ captures c) (v : Val) (t : State) : ObjsOnly (captures c) t (t.setObj i k v) :=
      (t.setObj_objs_only i k v (by omega)).mono fun x hx => List.mem_singleton.1 hx ▸ hi
    have later : ObjsOnly (captures c) s3 s8 :=
      (capture 0x2332 (by simp [captures, k]) _ s3).trans ((capture 0x2333 (by simp [captures, k]) _ s4).trans
        ((capture 0x2334 (by simp [captures, k]) _ s5).trans ((capture 0x2335 (by simp [captures, k]) _ s6).trans
          ((s7.raise_objs_only _ _ _).mono (by simp [captures])))))
    rw [later.num (by omega) (by simp [captures])]
    exact State.num_setNum_self ..
  have whole : Froze c cause loc s s8 :=
    { st := (congrArg Mch.st frozen).trans (congrArg Mch.st s1_chan)
      freezeCause := (congrArg Mch.freezeCause frozen).trans (congrArg Mch.freezeCause s1_chan)
      location := located
      sent := Eq.trans (State.raise_moves.same .sent) (captured.same .sent)
      raised := fun takes => State.raise_raised _ _ _ (State.takesReports_congr (captured.same .pwr) (captured.same .flt) takes) }
  split
  · have kept : FreezeKept c s8 s8.abandonTraining.abandonRequest :=
      (State.abandonRequest_kept hc).after (State.abandonTraining_kept hc whole.st)
    exact ⟨(congrArg Mch.st kept.chan).trans whole.st, (congrArg Mch.freezeCause kept.chan).trans whole.freezeCause,
      kept.location.trans whole.location, kept.sent.trans whole.sent, fun takes => (whole.raised takes).congr
        (Eq.trans (State.abandonRequest_moves.same .flt) (State.abandonTraining_moves.same .flt))⟩
  · exact whole

end Sys2Proof.Machine
end

section
/-! Reads that come back: clean, corrected, or with an error that freezes their channel (R151 to R154). -/

set_option Elab.async false

namespace Sys2Proof.Machine

variable {s t : State} {c : Nat}

theorem State.location_congr (h : t.num 0x2311 (c + 1) = s.num 0x2311 (c + 1)) (a : Nat) : t.location c a = s.location c a := by
  unfold State.location State.ranks
  rw [h]

theorem State.systemAddr_congr (h : t.enabled = s.enabled) (a : Nat) : t.systemAddr c a = s.systemAddr c a := by
  unfold State.systemAddr
  rw [h]

/-- A read made on its channel's bus, which has left the reads that wait for it. -/
def State.fetched (s : State) (c : Nat) (r : MemRead) : State :=
  (s.access c r.addr r.master false).modChan c fun m => { m with reads := m.reads.erase r, heldReads := m.heldReads - 1 }

section Fetched
variable {r : MemRead}

theorem State.fetched_moves : Moves [.objs, .mem] s (s.fetched c r) := .after State.modChan_moves State.access_moves

theorem State.fetched_objs_only (hc : c < 4) : ObjsOnly [(0x2342, c + 1)] s (s.fetched c r) :=
  (s.access_bus hc r.addr r.master false).objs.trans (.of_objs (State.modChan_objs ..))

theorem State.fetched_num (hc : c < 4) {i : Nat} (h : i ≠ 0x2342) : (s.fetched c r).num i (c + 1) = s.num i (c + 1) :=
  (State.fetched_objs_only hc).num (by omega) (by simp [h])

theorem State.fetched_chan {β : Type} (hc : c < 4) (g : Mch → β) (i : Nat) (hb : ∀ m, g m.offBus = g m := by exact fun _ => rfl)
    (hr : ∀ m l n, g { m with reads := l, heldReads := n } = g m := by exact fun _ _ _ => rfl) :
    g ((s.fetched c r).chan i) = g (s.chan i) := by
  unfold State.fetched
  rw [State.modChan_keeps g (hr ..), (s.access_bus hc r.addr r.master false).same g i hb]

theorem State.fetched_reads (hc : c < 4) : ((s.fetched c r).chan c).reads = (s.chan c).reads.erase r := by
  unfold State.fetched
  rw [State.chan_modChan_self _ hc, ← (s.access_bus hc r.addr r.master false).same Mch.reads c]

theorem State.fetched_location (hc : c < 4) (a : Nat) : (s.fetched c r).location c a = s.location c a :=
  State.location_congr (State.fetched_num hc (by decide)) a

theorem State.fetched_systemAddr (hc : c < 4) (a : Nat) : (s.fetched c r).systemAddr c a = s.systemAddr c a :=
  State.systemAddr_congr (State.enabled_congr fun d hd => State.fetched_objs_only hc _ _ (by omega) (by simp)) a

/-- The read answered with the data of DRAM. -/
def State.readBack (s : State) (c : Nat) (r : MemRead) : State :=
  (s.fetched c r).emit (.memRead r.master ((s.fetched c r).systemAddr c r.addr)
    (some (readCells (s.fetched c r).dram (cellKey (c, r.addr)) 128)))

theorem State.readBack_moves : Moves [.sent, .objs, .mem] s (s.readBack c r) := .after State.emit_moves State.fetched_moves.mono

theorem State.readBack_sent (hc : c < 4) : (s.readBack c r).sent =
    s.sent ++ [.memRead r.master (s.systemAddr c r.addr) (some (readCells s.dram (cellKey (c, r.addr)) 128))] := by
  unfold State.readBack
  rw [State.emit_sent, State.fetched_systemAddr hc, (State.fetched_moves.same .dram : _ = s.dram),
    (State.fetched_moves.same .sent : _ = s.sent)]

theorem State.readBack_chan : (s.readBack c r).chan c = (s.fetched c r).chan c := State.chan_congr (State.emit_mem ..) c

/-- The read answered as poisoned, its command in the log marked. -/
def State.poisoned (s : State) (c : Nat) (r : MemRead) (flag : Nat) : State :=
  ((s.fetched c r).flagCmd c flag).emit (.memRead r.master ((s.fetched c r).systemAddr c r.addr) none)

theorem State.poisoned_moves {flag : Nat} : Moves [.sent, .objs, .mem] s (s.poisoned c r flag) :=
  .after State.emit_moves (.after State.flagCmd_moves State.fetched_moves.mono)

theorem State.poisoned_sent (hc : c < 4) (flag : Nat) : (s.poisoned c r flag).sent =
    s.sent ++ [.memRead r.master (s.systemAddr c r.addr) none] := by
  unfold State.poisoned
  rw [State.emit_sent, (State.flagCmd_moves.same .sent : _ = (s.fetched c r).sent), State.fetched_systemAddr hc,
    (State.fetched_moves.same .sent : _ = s.sent)]

end Fetched

/-! What each class of a codeword comes to. -/

theorem objWidth_corrected (c : Chan) : objWidth 0x2320 (c.val + 1) = 32 := by
  revert c
  decide

section Classes
variable {c : Chan} {r : MemRead} {es : List (Fin 82 × BitVec 16)} (hr : (s.chan c.val).nextRead = some r)
  (hs : (s.chan c.val).st = .ready)
include hr hs

/-- A read of a clean codeword comes back with the data of DRAM. -/
theorem exec_memoryReadComplete_clean : exec (.memoryReadComplete c []) s = .next ((s.readBack c.val r).settle c.val) := by
  have clean : classOf (syndromes []) = .clean := by decide
  show execMemoryReadComplete c [] s = _
  unfold execMemoryReadComplete
  extract_lets k m
  split
  · next e => cases hr.symm.trans e
  · next e =>
    cases hr.symm.trans e
    rw [if_neg (by simp [show m.works = true from Mch.works_ready hs])]
    extract_lets u v data sys loc
    split
    · exact if_pos rfl
    · next e => cases clean.symm.trans e
    · next e => cases clean.symm.trans e
    · next e => cases clean.symm.trans e

/-- A corrected error is counted and its place noted; then the data come back (R152). -/
theorem exec_memoryReadComplete_corrected {j : Nat} (hj : classOf (syndromes (es.map fun e => (e.1.val, e.2.toNat))) = .corrected j) :
    ∃ u : State, exec (.memoryReadComplete c es) s = .next (u.settle c.val) ∧
      u.num 0x2320 (c.val + 1) = (s.num 0x2320 (c.val + 1) + 1) % 2 ^ 32 ∧
      u.num 0x2322 (c.val + 1) = s.location c.val r.addr ∧ (u.chan c.val).st = .ready ∧
      Moves [.fresh, .sent, .objs, .flt, .bbx, .mem] s u := by
  have hc : c.val < 4 := c.isLt
  show ∃ u : State, execMemoryReadComplete c es s = .next (u.settle c.val) ∧ _
  unfold execMemoryReadComplete
  extract_lets k m sy
  split
  · next e => cases hr.symm.trans e
  · next e =>
    cases hr.symm.trans e
    rw [if_neg (by simp [show m.works = true from Mch.works_ready hs])]
    extract_lets u v data sys loc marked counted per frozen3 frozen1
    split
    · next e => cases hj.symm.trans e
    · next e =>
      cases hj.symm.trans e
      extract_lets at4 mapped stamped located named n th raised
      obtain ⟨d, w, e, free⟩ : ∃ d w,
          (if (es.filter (·.2 != 0)).length ≤ 8 then (data, raised) else raised.freeBytes 128) = (d, w) ∧
          Moves [.fresh] raised w := by
        split
        · exact ⟨_, _, rfl, .refl⟩
        · exact ⟨_, _, rfl, State.freeBytes_moves⟩
      rw [e]
      have told : Moves [.objs, .flt, .bbx] named raised := .ite State.raise_moves .refl
      have noted : Moves [.objs] counted named :=
        .after State.setNum_moves (.after State.setNum_moves (.after State.setNum_moves State.setObj_moves))
      have behind : ObjsOnly [(0x2323, k), (0x2F10, 2), (0x2F10, 4)] located raised :=
        ((located.setNum_objs_only _ _ _ (by omega)).mono (by simp)).trans
          (.ite (ObjsOnly.mono (named.raise_objs_only _ _ _) (by simp)) .refl)
      have before : ObjsOnly [(0x2325, k), (0x2321, k), (0x2322, k)] counted located :=
        ((counted.setObj_objs_only _ _ _ (by omega)).mono (by simp)).trans
          (((mapped.setNum_objs_only _ _ _ (by omega)).mono (by simp)).trans
            ((stamped.setNum_objs_only _ _ _ (by omega)).mono (by simp)))
      have objs : (w.emit (.memRead r.master sys (some d))).objs = raised.objs := free.same .objs
      have chan : (w.emit (.memRead r.master sys (some d))).chan c.val = marked.chan c.val :=
        State.chan_congr ((free.same .mem : w.mem = _).trans ((told.same .mem : _ = named.mem).trans
          ((noted.same .mem : _ = counted.mem).trans (State.bump_mem ..)))) c.val
      refine ⟨w.emit (.memRead r.master sys (some d)), rfl, ?_, ?_, ?_, ?_⟩
      · rw [State.num_congr objs, behind.num (by omega) (by simp), before.num (by omega) (by simp), State.num_bump_self,
          objWidth_corrected, State.num_congr (State.flagCmd_moves.same .objs : marked.objs = v.objs)]
        exact congrArg (fun n => (n + 1) % 2 ^ 32) (State.fetched_num hc (by decide))
      · rw [State.num_congr objs, behind.num (by omega) (by simp), State.num_setNum_self]
        exact State.fetched_location hc _
      · rw [chan]
        exact ((State.modChan_keeps Mch.st rfl _).trans (State.fetched_chan hc Mch.st _)).trans hs
      · exact .after State.emit_moves (.after free (.after told (.after noted (.after State.bump_moves
          (.after State.flagCmd_moves State.fetched_moves.mono)))))
    · next e => cases hj.symm.trans e
    · next e => cases hj.symm.trans e

/-- An error that cannot be corrected, or one of the address, poisons the read and freezes the channel (R153, R154). -/
theorem exec_memoryReadComplete_freezes {k : Nat}
    (hk : classOf (syndromes (es.map fun e => (e.1.val, e.2.toNat))) = .uncorrectable ∧ k = 1 ∨
      classOf (syndromes (es.map fun e => (e.1.val, e.2.toNat))) = .address ∧ k = 3) :
    ∃ (flag : Nat) (synd : Bytes) (map : Nat), exec (.memoryReadComplete c es) s =
      .next ((s.poisoned c.val r flag).freezeChan c.val k ((s.fetched c.val r).systemAddr c.val r.addr)
        ((s.fetched c.val r).location c.val r.addr) synd map) := by
  show ∃ (flag : Nat) (synd : Bytes) (map : Nat), execMemoryReadComplete c es s = _
  unfold execMemoryReadComplete
  extract_lets n m sy
  split
  · next e => cases hr.symm.trans e
  · next e =>
    cases hr.symm.trans e
    rw [if_neg (by simp [show m.works = true from Mch.works_ready hs])]
    extract_lets u v data sys loc marked counted per frozen3 frozen1
    obtain ⟨hk, rfl⟩ | ⟨hk, rfl⟩ := hk
    · split
      · next e => cases hk.symm.trans e
      · next e => cases hk.symm.trans e
      · next e => cases hk.symm.trans e
      · exact ⟨2, _, _, rfl⟩
    · split
      · next e => cases hk.symm.trans e
      · next e => cases hk.symm.trans e
      · exact ⟨8, _, _, rfl⟩
      · next e => cases hk.symm.trans e

end Classes

/-- A channel that has no read, or works off no queue, completes none. -/
theorem exec_memoryReadComplete_none {c : Chan} {es : List (Fin 82 × BitVec 16)}
    (h : (s.chan c.val).nextRead = none ∨ (s.chan c.val).works = false) : exec (.memoryReadComplete c es) s = .next s := by
  show execMemoryReadComplete c es s = _
  unfold execMemoryReadComplete
  extract_lets k m sy
  split
  · rfl
  · next e =>
    refine if_pos ?_
    rw [h.resolve_left fun none => by cases none.symm.trans e]
    rfl

/-- Settles O42: a request by what its channel does with it (`State.memRequest_…`), a read that comes back by the class of its codeword
(`exec_memoryReadComplete_…`). -/
theorem memoryRequestsAreServed : Obligations.MemoryRequestsAreServed := by
  unfold Obligations.MemoryRequestsAreServed
  refine ⟨fun s m a d c l place full hc rest leaving reads writes waiting => ?write,
    fun s m a c l place hc ready leaving waiting => ⟨fun free => ?read, fun w queued => ?answered⟩,
    fun s m a d c l place hc serves works => ⟨?writeWaits, ?readWaits⟩,
    fun s t m a d c l place hc full queued waits run k off offWaiting offNew => ?spares,
    fun s c r next ready waiting => ?clean, fun s c r es j next ready class_ => ?corrected,
    fun s c r es k next ready class_ => ?freezes, fun s c es idle => exec_memoryReadComplete_none idle⟩
  case write =>
    obtain ⟨dram, left, st, sent⟩ := State.memRequest_write (l := l) (m := m.toNat) hc rest leaving reads writes waiting full
    refine ⟨_, exec_memoryRequest place, ?_, fun k off => ?_, left, st, State.memRequest_moves.only.without sent⟩
    · rw [dram, ← full]
      exact readCells_writeCells ..
    · rw [dram]
      exact readCell_writeCells_out _ (full.symm ▸ off)
  case read =>
    obtain ⟨joins, sent⟩ := State.memRequest_read (m := m.toNat) hc ready leaving waiting free
    exact ⟨_, exec_memoryRequest place, joins, sent, State.memRequest_moves.only.without sent⟩
  case answered =>
    obtain ⟨kept, sent⟩ := State.memRequest_answered (m := m.toNat) hc ready leaving waiting queued
    exact ⟨_, exec_memoryRequest place, kept, sent, State.memRequest_moves.only⟩
  case writeWaits =>
    exact ⟨_, (exec_memoryRequest place).trans (congrArg _ (State.memRequest_waits serves works)), State.asks_waiting hc _,
      State.asks_moves.only⟩
  case readWaits =>
    exact ⟨_, (exec_memoryRequest place).trans (congrArg _ (State.memRequest_waits serves works)), State.asks_waiting hc _,
      State.asks_moves.only⟩
  case spares =>
    obtain rfl : s.memRequest c l m.toNat d = t := Host.Outcome.next.inj ((exec_memoryRequest place).symm.trans run)
    refine State.memRequest_spares hc ⟨fun w hw => ?_, fun w hw => ?_⟩ offNew
    · exact (queued w hw).symm ▸ off w hw
    · exact (waits w hw).symm ▸ offWaiting w hw
  case clean =>
    have left : ((s.readBack c.val r).chan c.val).waiting = [] :=
      (congrArg Mch.waiting State.readBack_chan).trans ((State.fetched_chan c.isLt Mch.waiting _).trans waiting)
    have kept := ReadsKept.settle c.isLt left
    exact ⟨_, exec_memoryReadComplete_clean next ready,
      kept.reads.trans ((congrArg Mch.reads State.readBack_chan).trans (State.fetched_reads c.isLt)),
      kept.sent.trans (State.readBack_sent c.isLt), (Moves.after State.settle_moves State.readBack_moves.mono).only⟩
  case corrected =>
    obtain ⟨u, run, counted, located, st, moves⟩ := exec_memoryReadComplete_corrected next ready class_
    have served := u.settle_objs_only c.isLt
    exact ⟨_, run, (served.num (by omega) (by simp)).trans counted, (served.num (by omega) (by simp)).trans located,
      (u.settle_chan c.isLt Mch.st _).trans st, (Moves.after State.settle_moves moves.mono).only⟩
  case freezes =>
    obtain ⟨flag, synd, map, run⟩ := exec_memoryReadComplete_freezes next ready class_
    have froze := (s.poisoned c.val r flag).freezeChan_froze c.isLt k ((s.fetched c.val r).systemAddr c.val r.addr)
      ((s.fetched c.val r).location c.val r.addr) synd map
    exact ⟨_, run, froze.st, froze.freezeCause, froze.sent.trans (State.poisoned_sent c.isLt flag),
      froze.location.trans (State.fetched_location c.isLt _),
      Eq.trans (State.freezeChan_moves.same .dram) (State.poisoned_moves.same .dram),
      fun takes => froze.raised (State.takesReports_congr (State.poisoned_moves.same .pwr) (State.poisoned_moves.same .flt) takes),
      (Moves.after State.freezeChan_moves State.poisoned_moves.mono).only⟩

end Sys2Proof.Machine
end

section
/-! PROOFS. The model's temperatures over an update: trip pending, the die band and the throttle ladder read them and leave them as they
are (R406, R409 to R416). -/

set_option Elab.async false

namespace Sys2Proof.Machine

/-- From `s` to `t` the model's temperatures, where they come from, its count of updates and PWR's state are left as they are. -/
structure ModelKept (s t : State) : Prop where
  temps : t.therm.t = s.therm.t
  reading : t.therm.reading = s.therm.reading
  updates : t.therm.updates = s.therm.updates
  fromDiodes : t.therm.fromDiodes = s.therm.fromDiodes
  pwr : t.pwr = s.pwr

theorem ModelKept.refl (s : State) : ModelKept s s := ⟨rfl, rfl, rfl, rfl, rfl⟩

theorem ModelKept.trans {s t u : State} (h : ModelKept s t) (k : ModelKept t u) : ModelKept s u :=
  ⟨k.temps.trans h.temps, k.reading.trans h.reading, k.updates.trans h.updates, k.fromDiodes.trans h.fromDiodes, k.pwr.trans h.pwr⟩

/-- What moves neither part keeps the model. -/
theorem ModelKept.of_moves {ps : List StatePart} {s t : State} (m : Moves ps s t) (ht : .therm ∉ ps := by decide)
    (hp : .pwr ∉ ps := by decide) : ModelKept s t := by
  have h : t.therm = s.therm := m.same .therm ht
  exact ⟨by rw [h], by rw [h], by rw [h], by rw [h], m.same .pwr hp⟩

/-- A change of the thermal part that leaves the model's fields. -/
theorem ModelKept.modTherm (s : State) (f : Therm → Therm) (h : (f s.therm).t = s.therm.t ∧ (f s.therm).reading = s.therm.reading ∧
    (f s.therm).updates = s.therm.updates ∧ (f s.therm).fromDiodes = s.therm.fromDiodes := by exact ⟨rfl, rfl, rfl, rfl⟩) :
    ModelKept s (s.modTherm f) := by
  obtain ⟨ht, hr, hu, hd⟩ := h
  exact ⟨ht, hr, hu, hd, State.modTherm_pwr _ _⟩

theorem State.selectEngines_keepsModel (s : State) : ModelKept s s.selectEngines := by
  unfold State.selectEngines
  exact .modTherm s _

theorem State.setLevel_keepsModel (s : State) (l : Nat) : ModelKept s (s.setLevel l) := by
  unfold State.setLevel
  extract_lets up changed counted
  have hc : ModelKept changed counted := by
    unfold counted
    split
    · exact .of_moves State.bump_moves
    · exact .refl _
  exact (((ModelKept.modTherm s _).trans hc).trans (.of_moves State.raise_moves)).trans (State.selectEngines_keepsModel _)

theorem State.checkPending_keepsModel (s : State) : ModelKept s s.checkPending := by
  unfold State.checkPending
  split
  · split
    · exact .modTherm s _
    · exact .refl _
  · split
    · exact .refl _
    · extract_lets begun recorded snapped
      have hs : ModelKept recorded snapped := by
        unfold snapped
        split
        · exact .refl _
        · exact .of_moves State.forceSnap_moves
      have h : ModelKept s snapped :=
        (((ModelKept.modTherm s _).trans (.of_moves State.bump_moves)).trans (.of_moves State.raise_moves)).trans hs
      split
      · split
        · exact h.trans (State.setLevel_keepsModel _ _)
        · exact h
      · exact h

theorem State.checkBand_keepsModel (s : State) : ModelKept s s.checkBand := by
  unfold State.checkBand
  extract_lets b entry exit move
  have hm : ∀ n, ModelKept s (move n) := fun n =>
    ((ModelKept.modTherm s _).trans (.of_moves State.raise_moves)).trans (.of_moves State.bandMoved_moves)
  split
  · exact hm _
  · split
    · exact hm _
    · exact .refl _

theorem State.checkLadder_keepsModel (s : State) : ModelKept s s.checkLadder := by
  unfold State.checkLadder
  split
  extract_lets temp cooled
  have hc : ModelKept s cooled := .modTherm s _
  split
  · split
    · exact .refl _
    · split
      · exact State.setLevel_keepsModel _ _
      · split
        · exact .refl _
        · exact (ModelKept.modTherm s _).trans (.of_moves State.raise_moves)
  · split
    · split
      · exact hc
      · exact hc.trans (State.setLevel_keepsModel _ _)
    · exact .refl _

/-- t_hot is taken from the model as it stands; without a valid model it comes from the diodes (R409). -/
theorem State.takeHot_model (s : State) :
    s.takeHot.therm.t = s.therm.t ∧ s.takeHot.therm.reading = s.therm.reading ∧ s.takeHot.therm.updates = s.therm.updates ∧
      (s.therm.modelValid = false → s.takeHot.therm.fromDiodes = true) := by
  unfold State.takeHot
  extract_lets th diodes
  split
  case isTrue h =>
    have hv : ¬ s.therm.modelValid = false := by rw [h.1]; decide
    split
    · exact ⟨rfl, rfl, rfl, fun k => absurd k hv⟩
    · exact ⟨rfl, rfl, rfl, fun k => absurd k hv⟩
  case isFalse =>
    split
    · exact ⟨rfl, rfl, rfl, fun _ => rfl⟩
    · exact ⟨rfl, rfl, rfl, fun _ => rfl⟩

theorem State.latchTrip_trip (s : State) : s.latchTrip.pwr.trip = true := by
  unfold State.latchTrip
  split
  case isTrue h => exact h
  case isFalse =>
    have hs := (State.stopFiring_moves (s := (s.modPwr fun p => { p with trip := true }).releaseAll)).same .pwr
    have hr := (State.releaseAll_moves (s := s.modPwr fun p => { p with trip := true })).same .pwr
    have h : ((s.modPwr fun p => { p with trip := true }).releaseAll.stopFiring).pwr = { s.pwr with trip := true } := hs.trans hr
    rw [h]

/-- A reading of the model at 125 °C or above is one of the 24 that the update asks (R416). -/
theorem any_reading_at (x : Vector Rat 24) {i : Nat} (hi : i < 24) (h : 125 ≤ vget x i 0) :
    ((List.range 24).any fun i => decide ((125 : Rat) ≤ vget x i 0)) = true :=
  List.any_eq_true.2 ⟨i, List.mem_range.2 hi, decide_eq_true h⟩

/-- The model's powers of an update (R406). -/
def State.modelPowers (s : State) (c : List (List Nat)) : Vector Rat 24 :=
  Vector.ofFn fun i => if s.therm.modelValid ∧ i.val < 23 then s.nodePower c i.val else 0

/-- The model's temperatures after an update (R406). -/
def State.modelTemps (s : State) (c : List (List Nat)) : Vector Rat 24 :=
  Vector.ofFn fun i =>
    if s.therm.modelValid ∧ i.val < 23 then s.nodeNext (vget (s.modelPowers c) i.val 0) i.val else s.therm.t[i]

/-- The model's readings after an update (R406). -/
def State.modelReadings (s : State) (c : List (List Nat)) : Vector Rat 24 :=
  if s.therm.modelValid then
    Vector.ofFn fun i => if i.val < 23 then r32 ((s.modelTemps c)[i] + s.therm.off[i]) else (s.modelTemps c)[i]
  else s.therm.reading

/-- The state after the model's own part of an update, before it is watched. -/
def State.modelUpdated (s : State) (c : List (List Nat)) : State :=
  s.modTherm fun x =>
    { x with
      power := s.modelPowers c, t := s.modelTemps c, updates := x.updates + 1, reading := s.modelReadings c
      sums := Vector.ofFn fun k =>
        r32 (x.sums[k] + sum32 (((List.range 28).filter fun n => Config.islandSupply n == k.val).map (islandPower c))) }

theorem State.modelUpdated_modelValid (s : State) (c : List (List Nat)) :
    (s.modelUpdated c).therm.modelValid = s.therm.modelValid := by
  unfold State.modelUpdated
  rw [State.modTherm_therm]

/-- The trip latches at a reading of 125 °C (R416). -/
def State.tripHot (s : State) : State :=
  if (List.range 24).any fun i => decide ((125 : Rat) ≤ vget s.therm.reading i 0) then s.latchTrip else s

/-- What an update does once the model is computed (R406, R409, R410, R413, R416). -/
def State.modelWatched (s : State) : State := s.takeHot.tripHot.checkPending.checkBand.checkLadder

theorem execThermalModelUpdate_eq {s : State} (c : List (List Nat)) (hm : s.on domMGT = true) :
    execThermalModelUpdate c s = .next (s.modelUpdated c).modelWatched := by
  unfold execThermalModelUpdate
  rw [if_neg (by simp [hm])]
  rfl

theorem State.tripHot_therm (s : State) : s.tripHot.therm = s.therm := by
  unfold State.tripHot
  split
  · exact (State.latchTrip_moves (s := s)).same .therm
  · rfl

theorem State.tripHot_trip (s : State) {i : Nat} (hi : i < 24) (h : 125 ≤ vget s.therm.reading i 0) : s.tripHot.pwr.trip = true := by
  unfold State.tripHot
  rw [if_pos (any_reading_at _ hi h)]
  exact s.latchTrip_trip

theorem State.modelWatched_keepsModel (s : State) : ModelKept s.takeHot.tripHot s.modelWatched :=
  ((State.checkPending_keepsModel _).trans (State.checkBand_keepsModel _)).trans (State.checkLadder_keepsModel _)

/-- Watching the model leaves its temperatures, readings and count of updates. -/
theorem State.modelWatched_model (s : State) :
    s.modelWatched.therm.t = s.therm.t ∧ s.modelWatched.therm.reading = s.therm.reading ∧
      s.modelWatched.therm.updates = s.therm.updates ∧
      (s.therm.modelValid = false → s.modelWatched.therm.fromDiodes = true) := by
  obtain ⟨ht, hr, hu, hd⟩ := s.takeHot_model
  have kept := s.modelWatched_keepsModel
  have e := s.takeHot.tripHot_therm
  rw [kept.temps, kept.reading, kept.updates, kept.fromDiodes, e]
  exact ⟨ht, hr, hu, hd⟩

theorem State.modelWatched_trip (s : State) {i : Nat} (hi : i < 24) (h : 125 ≤ vget s.therm.reading i 0) :
    s.modelWatched.pwr.trip = true := by
  rw [s.modelWatched_keepsModel.pwr]
  refine s.takeHot.tripHot_trip hi ?_
  rwa [s.takeHot_model.2.1]

theorem State.modelTemps_node {s : State} (c : List (List Nat)) (hv : s.therm.modelValid = true) {i : Nat} (hi : i < 23) :
    vget (s.modelTemps c) i 0 = s.nodeNext (s.nodePower c i) i := by
  have h : i < 24 := by omega
  rw [vget_eq_getElem _ _ h]
  simp [State.modelTemps, State.modelPowers, hv, hi, vget_eq_getElem _ _ h]

/-- Node 23 is the boundary: an update leaves it (R405, R408). -/
theorem State.modelTemps_boundary (s : State) (c : List (List Nat)) : vget (s.modelTemps c) 23 0 = vget s.therm.t 23 0 := by
  rw [vget_eq_getElem _ _ (by decide), vget_eq_getElem _ _ (by decide)]
  simp [State.modelTemps]

theorem State.modelTemps_invalid {s : State} (c : List (List Nat)) (hv : s.therm.modelValid = false) :
    s.modelTemps c = s.therm.t := by
  ext i hi
  simp [State.modelTemps, hv]

theorem State.modelReadings_node {s : State} (c : List (List Nat)) (hv : s.therm.modelValid = true) {i : Nat} (hi : i < 23) :
    vget (s.modelReadings c) i 0 = r32 (vget (s.modelTemps c) i 0 + vget s.therm.off i 0) := by
  have h : i < 24 := by omega
  rw [vget_eq_getElem _ _ h, vget_eq_getElem _ _ h, vget_eq_getElem _ _ h]
  simp [State.modelReadings, hv, hi]

theorem State.modelReadings_invalid {s : State} (c : List (List Nat)) (hv : s.therm.modelValid = false) :
    s.modelReadings c = s.therm.reading := by simp [State.modelReadings, hv]

/-- An update of the model (R406): its temperatures and readings, and the trip at a reading of 125 °C (R416). -/
theorem thermalModelUpdate_done {s : State} (c : List (List Nat)) (hm : s.on domMGT = true) :
    ∃ t, exec (.thermalModelUpdate c) s = .next t ∧ t.therm.updates = s.therm.updates + 1 ∧
      vget t.therm.t 23 0 = vget s.therm.t 23 0 ∧ (∀ i, i < 24 → 125 ≤ vget t.therm.reading i 0 → t.pwr.trip = true) ∧
      (s.therm.modelValid = false → t.therm.t = s.therm.t ∧ t.therm.reading = s.therm.reading ∧ t.therm.fromDiodes = true) ∧
      (s.therm.modelValid = true → ∀ i, i < 23 → vget t.therm.t i 0 = s.nodeNext (s.nodePower c i) i ∧
        vget t.therm.reading i 0 = r32 (vget t.therm.t i 0 + vget s.therm.off i 0)) ∧
      Only [.fresh, .sent, .objs, .pwr, .flt, .bbx, .wilwa, .mem, .dram, .fsq, .hlk, .hdg, .therm] s t := by
  have e := execThermalModelUpdate_eq c hm
  obtain ⟨ht, hr, hu, hd⟩ := (s.modelUpdated c).modelWatched_model
  have et : (s.modelUpdated c).modelWatched.therm.t = s.modelTemps c := ht
  have er : (s.modelUpdated c).modelWatched.therm.reading = s.modelReadings c := hr
  have htrip := fun (i : Nat) (hi : i < 24) => (s.modelUpdated c).modelWatched_trip hi
  rw [← hr] at htrip
  rw [s.modelUpdated_modelValid c] at hd
  refine ⟨_, e, hu, ?_, htrip, fun hv => ⟨?_, ?_, hd hv⟩, fun hv i hi => ⟨?_, ?_⟩, execThermalModelUpdate_moves.only e⟩
  · rw [et, s.modelTemps_boundary c]
  · rw [et, State.modelTemps_invalid c hv]
  · rw [er, State.modelReadings_invalid c hv]
  · rw [et, State.modelTemps_node c hv hi]
  · rw [et, er, State.modelReadings_node c hv hi]

end Sys2Proof.Machine
end

section
/-! PROOFS. The end of trip pending, the diodes that AON reads, the engines that the ladder slows and the housekeeping channels (R148,
R407, R408, R414, R416, R417). -/

set_option Elab.async false

namespace Sys2Proof.Machine

/-- Trip pending ends 100 ms after the last reading at 115 °C, with F3102h (R416). -/
theorem tripPendingEnd_done {s : State} (hm : s.on domMGT = true) (hp : s.therm.tripPending = true) (hc : s.anyAt 115 = false)
    (ht : s.therm.lastHot + 40000000 ≤ s.tick) :
    ∃ t, exec .tripPendingEnd s = .next t ∧ t.therm = { s.therm with tripPending := false } ∧
      (s.takesReports → Raised 0x3102 0 t) ∧ Only [.objs, .flt, .bbx, .therm] s t := by
  have e : execTripPendingEnd s = .next ((s.modTherm fun x => { x with tripPending := false }).raise 0x3102 0
      (u32 ((s.tick - s.therm.tripTick) / 400000))) := by
    unfold execTripPendingEnd
    rw [if_pos ⟨hm, hp, by simp [hc], ht⟩]
  refine ⟨_, e, ?_, fun h => State.raise_raised _ _ _ ?_, execTripPendingEnd_moves.only e⟩
  · rw [State.raise_moves.same .therm, State.modTherm_therm]
  · exact State.takesReports_congr (State.modTherm_pwr _ _) (State.modTherm_flt _ _) h

theorem tripPendingEnd_idle {s : State} (h : s.therm.tripPending = false ∨ s.anyAt 115 = true ∨ s.tick < s.therm.lastHot + 40000000) :
    exec .tripPendingEnd s = .next s := by
  change execTripPendingEnd s = _
  unfold execTripPendingEnd
  rw [if_neg]
  rintro ⟨-, hp, hc, ht⟩
  rcases h with h | h | h
  · rw [h] at hp
    cases hp
  · rw [h] at hc
    cases hc
  · omega

/-- A conversion that AON has taken (R417). -/
def State.aonDiode (s : State) (d : Fin 8) (v : Option Int) : State := { s with aonDiodes := vmod s.aonDiodes d fun _ => v }

theorem State.aonDiode_only (s : State) (d : Fin 8) (v : Option Int) : Moves [.aonDiodes] s (s.aonDiode d v) := by
  unfold State.aonDiode
  exact .aonDiodes .refl

theorem State.aonDiode_self (s : State) (d : Fin 8) (v : Option Int) : vget (s.aonDiode d v).aonDiodes d.val none = v := by
  unfold State.aonDiode
  exact vget_vmod_self s.aonDiodes (fun _ => v) none d.isLt

theorem State.aonDiode_ne (s : State) (d : Fin 8) (v : Option Int) {e : Nat} (h : e ≠ d.val) :
    vget (s.aonDiode d v).aonDiodes e none = vget s.aonDiodes e none := by
  unfold State.aonDiode
  exact vget_vmod_ne s.aonDiodes (fun _ => v) none h

/-- With MGT on, trip pending is asked for (R417). -/
def State.checkedPending (s : State) : State := if s.on domMGT then s.checkPending else s

theorem State.checkedPending_moves {s : State} : Moves [.fresh, .objs, .flt, .bbx, .therm] s s.checkedPending := by
  unfold State.checkedPending
  exact .ite State.checkPending_moves .refl

theorem execAonDiodeConversion_hot {s : State} (d : Fin 8) {r : Int} (hd : s.pwr.dev ≠ .off) (hr : 125000 ≤ r) (hr' : r ≤ 150000) :
    execAonDiodeConversion d (some r) s = .next (s.aonDiode d (some r)).latchTrip.checkedPending := by
  unfold execAonDiodeConversion
  rw [if_neg hd]
  have h : (validReading (some r) && (some r).any fun v => decide (125000 ≤ v)) = true := by
    simp only [validReading, Option.any_some, Bool.and_eq_true, decide_eq_true_eq]
    omega
  rw [h]
  rfl

theorem execAonDiodeConversion_cool {s : State} (d : Fin 8) {v : Option Int} (hd : s.pwr.dev ≠ .off)
    (hv : ∀ r, v = some r → r < 125000 ∨ 150000 < r) : execAonDiodeConversion d v s = .next (s.aonDiode d v).checkedPending := by
  unfold execAonDiodeConversion
  rw [if_neg hd]
  have h : (validReading v && v.any fun v => decide (125000 ≤ v)) = false := by
    cases v with
    | none => rfl
    | some r =>
      have := hv r rfl
      simp only [validReading, Option.any_some, Bool.and_eq_false_iff, decide_eq_false_iff_not]
      omega
  rw [h]
  rfl

/-- A valid diode at 125 °C latches the trip (R416, R417). -/
theorem aonDiodeConversion_hot {s : State} (d : Fin 8) {r : Int} (hd : s.pwr.dev ≠ .off) (hr : 125000 ≤ r) (hr' : r ≤ 150000) :
    ∃ t, exec (.aonDiodeConversion d (some r)) s = .next t ∧ t.pwr.trip = true ∧ vget t.aonDiodes d.val none = some r ∧
      Only [.fresh, .sent, .objs, .pwr, .flt, .bbx, .wilwa, .mem, .dram, .fsq, .hlk, .hdg, .therm, .aonDiodes] s t := by
  have e := execAonDiodeConversion_hot d hd hr hr'
  refine ⟨_, e, ?_, ?_, execAonDiodeConversion_moves.only e⟩
  · rw [State.checkedPending_moves.same .pwr]
    exact State.latchTrip_trip _
  · rw [State.checkedPending_moves.same .aonDiodes, State.latchTrip_moves.same .aonDiodes]
    exact State.aonDiode_self _ _ _

/-- Any other conversion is taken and latches nothing (R417). -/
theorem aonDiodeConversion_cool {s : State} (d : Fin 8) {v : Option Int} (hd : s.pwr.dev ≠ .off)
    (hv : ∀ r, v = some r → r < 125000 ∨ 150000 < r) :
    ∃ t, exec (.aonDiodeConversion d v) s = .next t ∧ vget t.aonDiodes d.val none = v ∧
      (∀ e, e ≠ d.val → vget t.aonDiodes e none = vget s.aonDiodes e none) ∧ (s.on domMGT = false → Only [.aonDiodes] s t) ∧
      Only [.fresh, .objs, .flt, .bbx, .therm, .aonDiodes] s t := by
  have kept : (s.aonDiode d v).checkedPending.aonDiodes = (s.aonDiode d v).aonDiodes := State.checkedPending_moves.same .aonDiodes
  refine ⟨_, execAonDiodeConversion_cool d hd hv, ?_, fun e he => ?_, fun hoff => ?_, ?_⟩
  · rw [kept]
    exact State.aonDiode_self _ _ _
  · rw [kept]
    exact State.aonDiode_ne _ _ _ he
  · have h : (s.aonDiode d v).on domMGT = false := hoff
    rw [State.checkedPending, h]
    exact (s.aonDiode_only d v).only
  · exact (State.checkedPending_moves.after ((s.aonDiode_only d v).mono)).only

theorem aonDiodeConversion_off {s : State} (d : Fin 8) (v : Option Int) (hd : s.pwr.dev = .off) :
    exec (.aonDiodeConversion d v) s = .next s := by
  change execAonDiodeConversion d v s = _
  unfold execAonDiodeConversion
  rw [if_pos hd]

/-- An engine step is in force where an armed one is at the ladder's level or below (R412). -/
theorem State.engineStep_isSome (s : State) :
    s.engineStep.isSome = true ↔ ∃ l, 4 ≤ l ∧ l ≤ 8 ∧ l ≤ s.therm.level ∧ s.stepArmed l = true := by
  have hmem : ∀ l, l ∈ s.armedSteps.filter (fun l => 4 ≤ l && l ≤ s.therm.level) ↔
      4 ≤ l ∧ l ≤ 8 ∧ l ≤ s.therm.level ∧ s.stepArmed l = true := by
    intro l
    simp only [State.armedSteps, List.mem_filter, List.mem_map, List.mem_range, Bool.and_eq_true, decide_eq_true_eq]
    constructor
    · rintro ⟨⟨⟨k, hk, rfl⟩, ha⟩, h4, hl⟩
      exact ⟨h4, by omega, hl, ha⟩
    · rintro ⟨h4, h8, hl, ha⟩
      exact ⟨⟨⟨l - 1, by omega, by omega⟩, ha⟩, h4, hl⟩
  unfold State.engineStep
  rw [List.getLast?_isSome]
  constructor
  · intro h
    obtain ⟨l, hl⟩ := List.exists_mem_of_ne_nil _ h
    exact ⟨l, (hmem l).1 hl⟩
  · rintro ⟨l, hl⟩
    exact List.ne_nil_of_mem ((hmem l).2 hl)

/-- The engines selected are those whose node is at the ladder's lower mark, while an engine step is in force (R414). -/
theorem engineSelectionInterval_done {s : State} (hm : s.on domMGT = true) :
    ∃ t, exec .engineSelectionInterval s = .next t ∧ Only [.therm] s t ∧
      ∀ e, e < 17 → (vget t.therm.selected e false = true ↔
        (∃ l, 4 ≤ l ∧ l ≤ 8 ∧ l ≤ s.therm.level ∧ s.stepArmed l = true) ∧
          s.ladderMarks.2 ≤ vget s.therm.reading (engineNode e) 0) := by
  have h : execEngineSelectionInterval s = .next s.selectEngines := by
    unfold execEngineSelectionInterval
    rw [if_pos hm]
  refine ⟨_, h, execEngineSelectionInterval_moves.only h, fun e he => ?_⟩
  rw [← s.engineStep_isSome, vget_eq_getElem _ _ he]
  simp [State.selectEngines]

/-- The next channel is read (R407). -/
def State.channelStep (s : State) : State :=
  s.modTherm fun x => { x with channel := (x.channel + 1) % 64, roundRead := s.therm.channel == 63 }

/-- A channel's reading stands in its object (R407). -/
def State.putReading (s : State) (n v : Nat) : State := s.setNum 0x3116 (n + 1) v

theorem State.channelStep_moves {s : State} : Moves [.therm] s s.channelStep := State.modTherm_moves

theorem State.putReading_moves {s : State} {n v : Nat} : Moves [.objs] s (s.putReading n v) := State.setNum_moves

theorem State.putReading_num (s : State) (n v : Nat) : (s.putReading n v).num 0x3116 (n + 1) = v := State.num_setNum_self ..

theorem State.putReading_objs {s t : State} {n : Nat} (v : Nat) (ht : t.objs = s.objs) (hn : n < 64) :
    ObjsOnly [(0x3116, n + 1)] s (t.putReading n v) :=
  (ObjsOnly.of_objs ht).trans (t.setNum_objs_only 0x3116 (n + 1) v (by omega))

/-- Before the last channel the round goes on. -/
theorem State.channelStep_therm {s : State} (h : s.therm.channel < 63) :
    s.channelStep.therm = { s.therm with channel := s.therm.channel + 1, roundRead := false } := by
  unfold State.channelStep
  rw [State.modTherm_therm, Nat.mod_eq_of_lt (by omega), beq_false_of_ne (by omega)]

/-- A diode's conversion is taken with its validity (R408). -/
def State.takeDiode (s : State) (n : Nat) (v : Option Int) : State :=
  s.modTherm fun x => { x with diodes := vmod x.diodes n fun _ => v, valid := vmod x.valid n fun _ => validReading v }

theorem State.takeDiode_diode (s : State) {n : Nat} (v : Option Int) (h : n < 8) :
    vget (s.takeDiode n v).therm.diodes n none = v := by
  rw [State.takeDiode, State.modTherm_therm]
  exact vget_vmod_self s.therm.diodes (fun _ => v) none h

theorem State.takeDiode_valid (s : State) {n : Nat} (v : Option Int) (h : n < 8) :
    vget (s.takeDiode n v).therm.valid n false = validReading v := by
  rw [State.takeDiode, State.modTherm_therm]
  exact vget_vmod_self s.therm.valid (fun _ => validReading v) false h

theorem State.takeDiode_num (s : State) (n : Nat) (v : Option Int) (i j : Nat) : (s.takeDiode n v).num i j = s.num i j :=
  State.num_congr (State.modTherm_objs _ _) i j

theorem validReading_some (v : Int) : validReading (some v) = true ↔ -55000 ≤ v ∧ v ≤ 150000 := by
  simp [validReading]

/-- A DIMM's sensor raises at most a report: the readings in the housekeeping objects stay. -/
theorem State.dimmSensor_num (s : State) (c k : Nat) (v : Option Int) (n : Nat) (hn : n < 256) :
    (s.dimmSensor c k v).num 0x3116 n = s.num 0x3116 n := by
  unfold State.dimmSensor
  split
  · exact (ObjsOnly.num (State.raise_objs_only _ _ _ _) hn (by simp)).trans (State.num_congr (State.modChan_objs _ _ _) _ _)
  · extract_lets read hottest bad judged
    have h : judged.num 0x3116 n = s.num 0x3116 n :=
      State.num_congr ((State.modChan_objs _ _ _).trans (State.modChan_objs _ _ _)) _ _
    split
    · exact (ObjsOnly.num (State.raise_objs_only judged _ _ _) hn (by simp)).trans h
    · exact h

section
variable {s : State} (hm : s.on domMGT = true)
include hm

theorem execHousekeepingRead_diode (v : Int) (h : s.therm.channel < 8) : execHousekeepingRead (some v) s =
    .next ((s.channelStep.putReading s.therm.channel (ofSigned 32 v)).takeDiode s.therm.channel (some v)) := by
  unfold execHousekeepingRead
  extract_lets n base put
  rw [if_neg (by simp [hm]), if_pos h]
  rfl

theorem execHousekeepingRead_diodeFails (h : s.therm.channel < 8) : execHousekeepingRead none s =
    .next (((s.channelStep.freeBelow (2 ^ 32)).2.putReading s.therm.channel (s.channelStep.freeBelow (2 ^ 32)).1).takeDiode
      s.therm.channel none) := by
  unfold execHousekeepingRead
  extract_lets n base put
  rw [if_neg (by simp [hm]), if_pos h]
  rfl

theorem execHousekeepingRead_supply (v : Int) (h : 8 ≤ s.therm.channel) (h' : s.therm.channel < 21) :
    execHousekeepingRead (some v) s = .next (s.channelStep.putReading s.therm.channel (ofSigned 32 v)) := by
  unfold execHousekeepingRead
  extract_lets n base put
  rw [if_neg (by simp [hm]), if_neg (by omega), if_pos h']
  rfl

theorem execHousekeepingRead_noDimm (v : Option Int) (h : 21 ≤ s.therm.channel) (h' : s.therm.channel < 33)
    (hc : s.num 0x2310 ((s.therm.channel - 21) / 3 + 1) = 0) : execHousekeepingRead v s =
      .next ((s.channelStep.putReading s.therm.channel 0x80000000).dimmUnread ((s.therm.channel - 21) / 3)) := by
  unfold execHousekeepingRead
  extract_lets n base put c
  rw [if_neg (by simp [hm]), if_neg (by omega), if_neg (by omega), if_pos h', if_pos (show base.num _ _ = 0 from hc)]
  rfl

theorem execHousekeepingRead_dimm (v : Int) (h : 21 ≤ s.therm.channel) (h' : s.therm.channel < 33)
    (hc : s.num 0x2310 ((s.therm.channel - 21) / 3 + 1) ≠ 0) : execHousekeepingRead (some v) s =
      .next ((s.channelStep.putReading s.therm.channel (ofSigned 32 v)).dimmSensor ((s.therm.channel - 21) / 3)
        ((s.therm.channel - 21) % 3) (some v)) := by
  unfold execHousekeepingRead
  extract_lets n base put c
  rw [if_neg (by simp [hm]), if_neg (by omega), if_neg (by omega), if_pos h', if_neg (show base.num _ _ ≠ 0 from hc)]
  rfl

theorem execHousekeepingRead_rest (v : Option Int) (h : 33 ≤ s.therm.channel) :
    execHousekeepingRead v s = .next (s.channelStep.putReading s.therm.channel 0) := by
  unfold execHousekeepingRead
  extract_lets n base put c
  rw [if_neg (by simp [hm]), if_neg (by omega), if_neg (by omega), if_neg (by omega)]
  rfl

/-- Channels 0 to 7: a diode's conversion is taken, valid within its range (R407, R408). -/
theorem housekeepingRead_diode (v : Int) (h : s.therm.channel < 8) :
    ∃ t, exec (.housekeepingRead (some v)) s = .next t ∧ t.therm.channel = s.therm.channel + 1 ∧
      t.num 0x3116 (s.therm.channel + 1) = ofSigned 32 v ∧ vget t.therm.diodes s.therm.channel none = some v ∧
      (vget t.therm.valid s.therm.channel false = true ↔ -55000 ≤ v ∧ v ≤ 150000) ∧
      ObjsOnly [(0x3116, s.therm.channel + 1)] s t ∧ Only [.objs, .therm] s t := by
  refine ⟨_, execHousekeepingRead_diode hm v h, ?_, ?_, State.takeDiode_diode _ _ h, ?_, ?_, ?_⟩
  · rw [State.takeDiode, State.modTherm_therm, State.putReading, State.setNum_therm, State.channelStep_therm (by omega)]
  · rw [State.takeDiode_num, State.putReading_num]
  · rw [State.takeDiode_valid _ _ h]
    exact validReading_some v
  · exact (State.putReading_objs _ (State.modTherm_objs _ _) (by omega)).trans (.of_objs (State.modTherm_objs _ _))
  · exact (Moves.after State.modTherm_moves (.after State.putReading_moves State.channelStep_moves.mono)).only

/-- A diode whose conversion fails is not valid (R408). -/
theorem housekeepingRead_diodeFails (h : s.therm.channel < 8) :
    ∃ t, exec (.housekeepingRead none) s = .next t ∧ t.therm.channel = s.therm.channel + 1 ∧
      vget t.therm.diodes s.therm.channel none = none ∧ vget t.therm.valid s.therm.channel false = false ∧
      ObjsOnly [(0x3116, s.therm.channel + 1)] s t ∧ Only [.fresh, .objs, .therm] s t := by
  have free : Moves [.fresh] s.channelStep (s.channelStep.freeBelow (2 ^ 32)).2 := State.freeBelow_moves.snd
  refine ⟨_, execHousekeepingRead_diodeFails hm h, ?_, State.takeDiode_diode _ _ h, State.takeDiode_valid _ _ h, ?_, ?_⟩
  · rw [State.takeDiode, State.modTherm_therm, State.putReading, State.setNum_therm, free.same .therm,
      State.channelStep_therm (by omega)]
  · have step : s.channelStep.objs = s.objs := State.modTherm_objs _ _
    have same : (s.channelStep.freeBelow (2 ^ 32)).2.objs = s.objs := (free.same .objs).trans step
    exact (State.putReading_objs _ same (by omega)).trans (.of_objs (State.modTherm_objs _ _))
  · exact (Moves.after State.modTherm_moves (.after State.putReading_moves (.after free State.channelStep_moves.mono))).only

/-- Channels 8 to 20: a supply's voltage or current is kept (R407). -/
theorem housekeepingRead_supply (v : Int) (h : 8 ≤ s.therm.channel) (h' : s.therm.channel < 21) :
    ∃ t, exec (.housekeepingRead (some v)) s = .next t ∧
      t.therm = { s.therm with channel := s.therm.channel + 1, roundRead := false } ∧
      t.num 0x3116 (s.therm.channel + 1) = ofSigned 32 v ∧ ObjsOnly [(0x3116, s.therm.channel + 1)] s t ∧
      Only [.objs, .therm] s t :=
  ⟨_, execHousekeepingRead_supply hm v h h', (State.setNum_therm _ _ _ _).trans (State.channelStep_therm (by omega)),
    State.putReading_num _ _ _, State.putReading_objs _ (State.modTherm_objs _ _) (by omega),
    (Moves.after State.putReading_moves State.channelStep_moves.mono).only⟩

/-- Channels 21 to 32: a memory channel that is not enabled reads 8000_0000h (R148). -/
theorem housekeepingRead_noDimm (v : Option Int) (h : 21 ≤ s.therm.channel) (h' : s.therm.channel < 33)
    (hc : s.num 0x2310 ((s.therm.channel - 21) / 3 + 1) = 0) :
    ∃ t, exec (.housekeepingRead v) s = .next t ∧
      t.therm = { s.therm with channel := s.therm.channel + 1, roundRead := false } ∧
      t.num 0x3116 (s.therm.channel + 1) = 0x80000000 ∧ ObjsOnly [(0x3116, s.therm.channel + 1)] s t ∧
      Only [.objs, .mem, .therm] s t := by
  have same (c : Nat) := State.dimmUnread_moves (s := s.channelStep.putReading s.therm.channel 0x80000000) (c := c)
  refine ⟨_, execHousekeepingRead_noDimm hm v h h' hc, ?_, ?_, ?_, ?_⟩
  · rw [(same _).same .therm, State.putReading, State.setNum_therm, State.channelStep_therm (by omega)]
  · rw [State.num_congr ((same _).same .objs), State.putReading_num]
  · exact (State.putReading_objs _ (State.modTherm_objs _ _) (by omega)).trans (.of_objs ((same _).same .objs))
  · exact ((same _).after (.after State.putReading_moves State.channelStep_moves.mono)).only

/-- A sensor of a DIMM that is enabled is kept (R148). -/
theorem housekeepingRead_dimm (v : Int) (h : 21 ≤ s.therm.channel) (h' : s.therm.channel < 33)
    (hc : s.num 0x2310 ((s.therm.channel - 21) / 3 + 1) ≠ 0) :
    ∃ t, exec (.housekeepingRead (some v)) s = .next t ∧
      t.therm = { s.therm with channel := s.therm.channel + 1, roundRead := false } ∧
      t.num 0x3116 (s.therm.channel + 1) = ofSigned 32 v ∧ Only [.objs, .flt, .bbx, .mem, .therm] s t := by
  refine ⟨_, execHousekeepingRead_dimm hm v h h' hc, ?_, ?_, ?_⟩
  · rw [State.dimmSensor_moves.same .therm, State.putReading, State.setNum_therm, State.channelStep_therm (by omega)]
  · rw [State.dimmSensor_num _ _ _ _ (s.therm.channel + 1) (by omega), State.putReading_num]
  · exact (Moves.after State.dimmSensor_moves (.after State.putReading_moves State.channelStep_moves.mono)).only

/-- The channels without an instrument read 0; the last one ends the round's readings (R407). -/
theorem housekeepingRead_rest (v : Option Int) (h : 33 ≤ s.therm.channel) (h' : s.therm.channel < 64) :
    ∃ t, exec (.housekeepingRead v) s = .next t ∧
      t.therm = { s.therm with channel := (s.therm.channel + 1) % 64, roundRead := s.therm.channel == 63 } ∧
      t.num 0x3116 (s.therm.channel + 1) = 0 ∧ ObjsOnly [(0x3116, s.therm.channel + 1)] s t ∧ Only [.objs, .therm] s t :=
  ⟨_, execHousekeepingRead_rest hm v h, (State.setNum_therm _ _ _ _).trans (State.modTherm_therm _ _), State.putReading_num _ _ _,
    State.putReading_objs _ (State.modTherm_objs _ _) h', (Moves.after State.putReading_moves State.channelStep_moves.mono).only⟩

end

end Sys2Proof.Machine
end

section
/-! PROOFS. The end of a housekeeping round (R408, R409): its faults, the calibration and the model's first temperatures. -/

set_option Elab.async false

namespace Sys2Proof.Machine

theorem queueReport_length (r : Report) (l : List Report) : (queueReport r l).length = l.length + 1 := by
  have h := congrArg List.length (List.takeWhile_append_dropWhile (p := (·.before r)) (l := l))
  unfold queueReport
  simp only [List.length_append, List.length_cons] at h ⊢
  omega

/-- A report lengthens FLT's queue by one at most. -/
theorem State.raise_queue (s : State) (src cause : Nat) (d : Bytes) :
    (s.raise src cause d).flt.queue.length ≤ s.flt.queue.length + 1 := by
  unfold State.raise State.send
  split
  · dsimp only
    split
    · dsimp only
      rw [queueReport_length, State.noteRail_flt]
    · rw [State.bump_moves.same .flt]
      dsimp only
      rw [State.noteRail_flt]
      omega
  · exact Nat.le_succ _

/-- After `k` diodes of a round that began at `s`: those of them that are not valid are raised (R408). -/
structure DiodesRaised (s : State) (k : Nat) (t : State) : Prop where
  pwr : t.pwr = s.pwr
  therm : t.therm = s.therm
  length : t.flt.queue.length ≤ s.flt.queue.length + k
  raised : ∀ d < k, vget s.therm.valid d false = false → Raised (0x3108 + d) 0 t

theorem DiodesRaised.start (s : State) : DiodesRaised s 0 s := ⟨rfl, rfl, Nat.le_refl _, fun _ h => absurd h (Nat.not_lt_zero _)⟩

/-- One more diode. -/
theorem DiodesRaised.step {s t : State} {k : Nat} (hr : s.fltRuns = true) (hq : s.flt.queue.length + k < 64) (h : DiodesRaised s k t) :
    DiodesRaised s (k + 1) (if vget t.therm.valid k false then t else t.raise (0x3108 + k) 0 (u32 (t.num 0x3116 (k + 1)))) := by
  have hlen := h.length
  rw [h.therm]
  split
  case isTrue hv =>
    refine ⟨h.pwr, h.therm, by omega, fun d hd hi => ?_⟩
    rcases Nat.lt_succ_iff_lt_or_eq.1 hd with hlt | rfl
    · exact h.raised d hlt hi
    · rw [hi] at hv
      cases hv
  case isFalse =>
    have takes : t.takesReports := ⟨by unfold State.fltRuns State.on at *; rw [h.pwr]; exact hr, by omega⟩
    refine ⟨(State.raise_moves.same .pwr).trans h.pwr, (State.raise_moves.same .therm).trans h.therm, ?_, fun d hd hi => ?_⟩
    · exact (State.raise_queue _ _ _ _).trans (by omega)
    · rcases Nat.lt_succ_iff_lt_or_eq.1 hd with hlt | rfl
      · exact State.send_raised _ (h.raised d hlt hi)
      · exact State.raise_raised _ _ _ takes

/-- The diodes that are not valid, raised in turn. -/
def State.diodeFaults (s : State) : State :=
  forRange 8 (fun d s => if vget s.therm.valid d false then s else s.raise (0x3108 + d) 0 (u32 (s.num 0x3116 (d + 1)))) s

theorem State.diodeFaults_raised {s : State} (hr : s.fltRuns = true) (hq : s.flt.queue.length < 32) {d : Nat} (hd : d < 8)
    (hv : vget s.therm.valid d false = false) : Raised (0x3108 + d) 0 s.diodeFaults :=
  (forRange_induct (I := DiodesRaised s) 8 (.start s) fun _ hk _ h => h.step hr (by omega)).raised d hd hv

/-- Supply `k`'s place in a round's faults (R408). -/
def State.supplyFault (s : State) (k : Nat) : State :=
  let v := toSigned 32 (s.num 0x3116 (9 + k)) * 10
  let out := decide (v < (supplyRange k).1 ∨ (supplyRange k).2 < v)
  let s := s.modTherm fun x => { x with supplyOut := vmod x.supplyOut k fun _ => out }
  if out then s.raise (0x3118 + k) 0 (u32 (s.num 0x3116 (9 + k))) else s

theorem State.roundFaults_eq (s : State) : s.roundFaults = forRange 8 (fun k s => s.supplyFault k) s.diodeFaults := rfl

/-- A report that is raised stays so. -/
theorem State.raise_keepsRaised {s : State} {src cause : Nat} (a b : Nat) (d : Bytes) (h : Raised src cause s) :
    Raised src cause (s.raise a b d) := State.send_raised _ h

/-- The round's faults change nothing of the thermal part but the supplies that are out of range. -/
def SuppliesOnly (s t : State) : Prop := t.therm = { s.therm with supplyOut := t.therm.supplyOut }

theorem SuppliesOnly.raise {s t : State} (a b : Nat) (d : Bytes) (h : SuppliesOnly s t) : SuppliesOnly s (t.raise a b d) := by
  unfold SuppliesOnly at *
  rw [State.raise_moves.same .therm]
  exact h

theorem State.diodeFaults_supplies (s : State) : SuppliesOnly s s.diodeFaults := by
  refine forRange_keeps (fun d _ t h => ?_) rfl
  split
  · exact h
  · exact h.raise _ _ _

theorem State.supplyFault_supplies {s t : State} (k : Nat) (h : SuppliesOnly s t) : SuppliesOnly s (t.supplyFault k) := by
  unfold State.supplyFault
  extract_lets v out noted
  have hn : SuppliesOnly s noted := by
    unfold SuppliesOnly noted at *
    rw [State.modTherm_therm, h]
  split
  · exact hn.raise _ _ _
  · exact hn

theorem State.roundFaults_supplies (s : State) : SuppliesOnly s s.roundFaults :=
  s.roundFaults_eq ▸ forRange_keeps (fun k _ _ h => State.supplyFault_supplies k h) s.diodeFaults_supplies

theorem State.supplyFault_keepsRaised {s : State} {src cause : Nat} (k : Nat) (h : Raised src cause s) :
    Raised src cause (s.supplyFault k) := by
  unfold State.supplyFault
  extract_lets v out noted
  have hn : Raised src cause noted := .congr (State.modTherm_flt _ _) h
  split
  · exact State.raise_keepsRaised _ _ _ hn
  · exact hn

theorem State.roundFaults_raised {s : State} (hr : s.fltRuns = true) (hq : s.flt.queue.length < 32) {d : Nat} (hd : d < 8)
    (hv : vget s.therm.valid d false = false) : Raised (0x3108 + d) 0 s.roundFaults :=
  s.roundFaults_eq ▸ forRange_keeps (fun k _ _ h => State.supplyFault_keepsRaised k h) (State.diodeFaults_raised hr hq hd hv)

/-- The calibration keeps a round's end, the model's validity and what is raised (R408). -/
structure RoundKept (s t : State) : Prop where
  roundRead : t.therm.roundRead = s.therm.roundRead
  modelValid : t.therm.modelValid = s.therm.modelValid
  raised : ∀ src cause, Raised src cause s → Raised src cause t

theorem RoundKept.refl (s : State) : RoundKept s s := ⟨rfl, rfl, fun _ _ => id⟩

theorem RoundKept.trans {s t u : State} (h : RoundKept s t) (k : RoundKept t u) : RoundKept s u :=
  ⟨k.roundRead.trans h.roundRead, k.modelValid.trans h.modelValid, fun a b r => k.raised a b (h.raised a b r)⟩

/-- What moves neither the thermal part nor FLT. -/
theorem RoundKept.of_moves {ps : List StatePart} {s t : State} (m : Moves ps s t) (ht : .therm ∉ ps := by decide)
    (hf : .flt ∉ ps := by decide) : RoundKept s t := by
  have h : t.therm = s.therm := m.same .therm ht
  exact ⟨by rw [h], by rw [h], fun _ _ => .congr (m.same .flt hf)⟩

theorem RoundKept.modTherm (s : State) (f : Therm → Therm)
    (h : (f s.therm).roundRead = s.therm.roundRead ∧ (f s.therm).modelValid = s.therm.modelValid := by exact ⟨rfl, rfl⟩) :
    RoundKept s (s.modTherm f) := ⟨h.1, h.2, fun _ _ => .congr (State.modTherm_flt _ _)⟩

theorem RoundKept.raise (s : State) (a b : Nat) (d : Bytes) : RoundKept s (s.raise a b d) := by
  have h : (s.raise a b d).therm = s.therm := State.raise_moves.same .therm
  exact ⟨by rw [h], by rw [h], fun _ _ => State.raise_keepsRaised _ _ _⟩

theorem State.calibrateScale_keepsRound (s : State) : RoundKept s s.calibrateScale := by
  refine forRange_keeps (fun k _ t h => ?_) (.refl s)
  extract_lets sup v i th mean
  split
  rename_i x u e
  have hu : RoundKept t u := by
    split at e
    · obtain ⟨-, rfl⟩ := Prod.mk.inj e
      exact .of_moves (State.freeBelow_moves (n := 2 ^ 20)).snd
    · obtain ⟨-, rfl⟩ := Prod.mk.inj e
      exact .refl _
  exact (h.trans hu).trans (.modTherm _ _)

theorem State.calibrateNodes_keepsRound (s : State) : RoundKept s s.calibrateNodes := by
  unfold State.calibrateNodes
  extract_lets r masked m bounded
  split
  · exact .modTherm _ _
  · refine forEach_keeps (fun d _ t h => ?_) ((RoundKept.modTherm s _).trans (.modTherm _ _))
    extract_lets node offset mag widest high told
    have ht : RoundKept widest told := by
      unfold told
      split
      · exact .raise _ _ _ _
      · exact .refl _
    exact (((h.trans (.modTherm t _)).trans (.of_moves State.raiseMax_moves)).trans ht).trans (.modTherm _ _)

/-- The mean of the valid diodes; free where there is none (R409). -/
def State.firstMean (s : State) : Rat × State :=
  let l := s.validDiodes.map (·.2)
  if l.isEmpty then let (f, s) := s.freeBelow (2 ^ 16)
                    ((toSigned 16 f : Rat) / 256, s)
  else (r32 (sum32 l / r32 l.length), s)

/-- The model begins at that mean (R409). -/
def State.firstRound (s : State) : State :=
  let (m, s) := s.firstMean
  s.modTherm fun x =>
    { x with t := Vector.replicate 24 m, reading := Vector.replicate 24 m, off := Vector.replicate 24 0,
             scale := Vector.replicate 8 1, modelValid := true }

/-- What the end of a round does with its readings (R408, R409). -/
def State.takeRound (s : State) : State := if s.therm.modelValid then s.calibrateScale.calibrateNodes else s.firstRound

theorem State.firstMean_moves (s : State) : Moves [.fresh] s s.firstMean.2 := by
  unfold State.firstMean
  extract_lets l
  split
  · exact (State.freeBelow_moves (n := 2 ^ 16)).snd
  · exact .refl

theorem State.firstMean_mean {s : State} (h : s.validDiodes ≠ []) :
    s.firstMean.1 = r32 (sum32 (s.validDiodes.map (·.2)) / r32 (s.validDiodes.map (·.2)).length) := by
  unfold State.firstMean
  extract_lets l
  rw [if_neg (by simpa [l] using h)]

theorem State.firstRound_therm (s : State) : s.firstRound.therm =
    { s.therm with t := Vector.replicate 24 s.firstMean.1, reading := Vector.replicate 24 s.firstMean.1, off := Vector.replicate 24 0,
                   scale := Vector.replicate 8 1, modelValid := true } := by
  rw [State.firstRound, State.modTherm_therm, s.firstMean_moves.same .therm]

theorem State.takeRound_valid {s : State} (h : s.therm.modelValid = true) : RoundKept s s.takeRound := by
  rw [State.takeRound, if_pos h]
  exact s.calibrateScale_keepsRound.trans (State.calibrateNodes_keepsRound _)

theorem State.takeRound_first {s : State} (h : s.therm.modelValid = false) : s.takeRound = s.firstRound := by
  rw [State.takeRound, if_neg (by simp [h])]

/-- However a round ends, the model is valid after it. -/
theorem State.takeRound_modelValid (s : State) : s.takeRound.therm.modelValid = true := by
  cases h : s.therm.modelValid with
  | true => exact (State.takeRound_valid h).modelValid.trans h
  | false => rw [State.takeRound_first h, State.firstRound_therm]

theorem State.takeRound_roundRead (s : State) : s.takeRound.therm.roundRead = s.therm.roundRead := by
  cases h : s.therm.modelValid with
  | true => exact (State.takeRound_valid h).roundRead
  | false => rw [State.takeRound_first h, State.firstRound_therm]

theorem State.takeRound_raised {s : State} {src cause : Nat} (k : Raised src cause s) : Raised src cause s.takeRound := by
  cases h : s.therm.modelValid with
  | true => exact (State.takeRound_valid h).raised _ _ k
  | false =>
    rw [State.takeRound_first h]
    exact .congr ((State.modTherm_flt _ _).trans (s.firstMean_moves.same .flt)) k

/-- The round is over once its faults are raised. -/
def State.roundOver (s : State) : State := (s.modTherm fun x => { x with roundRead := false }).roundFaults

/-- The sums of a round begin anew. -/
def State.clearSums (s : State) : State := s.modTherm fun x => { x with sums := Vector.replicate 8 0, updates := 0 }

theorem execHousekeepingRoundEnd_eq {s : State} (hm : s.on domMGT = true) (hr : s.therm.roundRead = true) :
    execHousekeepingRoundEnd s = .next s.roundOver.takeRound.clearSums := by
  unfold execHousekeepingRoundEnd
  rw [if_neg (by simp [hm, hr])]
  unfold State.clearSums State.takeRound State.roundOver State.firstRound State.firstMean
  with_reducible rfl

theorem State.roundOver_therm (s : State) :
    ∃ out, s.roundOver.therm = { s.therm with roundRead := false, supplyOut := out } := by
  have h := (s.modTherm fun x => { x with roundRead := false }).roundFaults_supplies
  rw [SuppliesOnly, State.modTherm_therm] at h
  unfold State.roundOver
  exact ⟨_, h⟩

theorem State.roundOver_raised {s : State} (hr : s.fltRuns = true) (hq : s.flt.queue.length < 32) {d : Nat} (hd : d < 8)
    (hv : vget s.therm.valid d false = false) : Raised (0x3108 + d) 0 s.roundOver := by
  refine State.roundFaults_raised ?_ ?_ hd ?_
  · unfold State.fltRuns State.on at *
    rwa [State.modTherm_pwr]
  · rwa [State.modTherm_flt]
  · rwa [State.modTherm_therm]

theorem State.roundOver_validDiodes (s : State) : s.roundOver.validDiodes = s.validDiodes := by
  obtain ⟨out, hover⟩ := s.roundOver_therm
  unfold State.validDiodes
  rw [hover]

/-- The end of a round (R408, R409): its faults, the model's first temperatures or the calibration, and sums that begin anew. -/
theorem housekeepingRoundEnd_done {s : State} (hm : s.on domMGT = true) (hr : s.therm.roundRead = true) :
    ∃ t, exec .housekeepingRoundEnd s = .next t ∧ t.therm.roundRead = false ∧ t.therm.sums = Vector.replicate 8 0 ∧
      t.therm.updates = 0 ∧ t.therm.modelValid = true ∧
      (∀ d, d < 8 → vget s.therm.valid d false = false → s.fltRuns = true → s.flt.queue.length < 32 → Raised (0x3108 + d) 0 t) ∧
      (s.therm.modelValid = false → ∃ m, t.therm.t = Vector.replicate 24 m ∧ t.therm.reading = Vector.replicate 24 m ∧
        t.therm.scale = Vector.replicate 8 1 ∧
        (s.validDiodes ≠ [] → m = r32 (sum32 (s.validDiodes.map (·.2)) / r32 (s.validDiodes.map (·.2)).length))) ∧
      Only [.fresh, .objs, .flt, .bbx, .therm] s t := by
  have e := execHousekeepingRoundEnd_eq hm hr
  have ends : s.roundOver.takeRound.clearSums.therm =
      { s.roundOver.takeRound.therm with sums := Vector.replicate 8 0, updates := 0 } := State.modTherm_therm _ _
  obtain ⟨out, hover⟩ := s.roundOver_therm
  refine ⟨_, e, ?_, ?_, ?_, ?_, fun d hd hv hf hq => ?_, fun hv => ⟨s.roundOver.firstMean.1, ?_⟩,
    execHousekeepingRoundEnd_moves.only e⟩
  · rw [ends]
    dsimp only
    exact s.roundOver.takeRound_roundRead.trans (by rw [hover])
  · rw [ends]
  · rw [ends]
  · rw [ends]
    dsimp only
    exact s.roundOver.takeRound_modelValid
  · exact .congr (State.modTherm_flt _ _) (State.takeRound_raised (State.roundOver_raised hf hq hd hv))
  · have hv' : s.roundOver.therm.modelValid = false := by rw [hover]; exact hv
    rw [ends, State.takeRound_first hv', State.firstRound_therm]
    refine ⟨rfl, rfl, rfl, fun hd => ?_⟩
    rw [← s.roundOver_validDiodes] at hd ⊢
    exact State.firstMean_mean hd

theorem housekeepingRoundEnd_idle {s : State} (h : s.on domMGT = false ∨ s.therm.roundRead = false) :
    exec .housekeepingRoundEnd s = .next s := by
  change execHousekeepingRoundEnd s = _
  unfold execHousekeepingRoundEnd
  rw [if_pos (by simpa using h)]

/-- With MGT off nothing of the thermal model, the round or the selection runs. -/
theorem thermal_idle {s : State} (h : s.on domMGT = false) :
    exec .housekeepingRoundEnd s = .next s ∧ exec .engineSelectionInterval s = .next s ∧
      (∀ c, exec (.thermalModelUpdate c) s = .next s) ∧ ∀ v, exec (.housekeepingRead v) s = .next s := by
  have hoff : (!s.on domMGT) = true := by rw [h]; rfl
  refine ⟨housekeepingRoundEnd_idle (.inl h), ?_, fun c => ?_, fun v => ?_⟩
  · change execEngineSelectionInterval s = _
    rw [execEngineSelectionInterval, if_neg (by rw [h]; decide)]
  · change execThermalModelUpdate c s = _
    rw [execThermalModelUpdate, if_pos hoff]
  · change execHousekeepingRead v s = _
    unfold execHousekeepingRead
    rw [if_pos hoff]

/-- Settles O58: each event of the temperatures by its own lemma above. -/
theorem temperaturesAreWatched : Obligations.TemperaturesAreWatched := by
  unfold Obligations.TemperaturesAreWatched
  refine ⟨fun _ c hm => thermalModelUpdate_done c hm, fun _ hm hp hc ht => tripPendingEnd_done hm hp hc ht,
    fun _ h => tripPendingEnd_idle h, fun _ d v hd => ⟨?_, aonDiodeConversion_cool d hd⟩, fun _ d v hd => aonDiodeConversion_off d v hd,
    ?_, fun _ hm hr => housekeepingRoundEnd_done hm hr, fun _ hm => engineSelectionInterval_done hm,
    fun _ h => housekeepingRoundEnd_idle (.inr h), fun _ h => thermal_idle h⟩
  · rintro r rfl hr hr'
    exact aonDiodeConversion_hot d hd hr hr'
  · rintro s n hm rfl hn
    exact ⟨fun v h => housekeepingRead_diode hm v h, fun h => housekeepingRead_diodeFails hm h,
      fun v h h' => housekeepingRead_supply hm v h h', fun v h h' hc => housekeepingRead_noDimm hm v h h' hc,
      fun v h h' hc => housekeepingRead_dimm hm v h h' hc, fun v h => housekeepingRead_rest hm v h hn⟩

end Sys2Proof.Machine
end

section
/-! PROOFS. Position channels (R169 to R171, R173 to R178): one channel among the others, an event that is counted and raised, and a
count of one with what follows it. -/

set_option Elab.async false

namespace Sys2Proof.Machine

variable {s t u : State} {n : PosCh}

/-! One channel among the others. -/

theorem State.pch_modPch_self (s : State) (n : PosCh) (f : Pch → Pch) : (s.modPch n f).pch n = f (s.pch n) :=
  vget_vmod_self _ _ _ n.isLt

theorem State.pch_modPch_ne (s : State) (f : Pch → Pch) {k m : Nat} (h : m ≠ k) : (s.modPch k f).pch m = s.pch m :=
  vget_vmod_ne _ _ _ h

theorem State.pch_congr (h : t.pos = s.pos) (m : Nat) : t.pch m = s.pch m := by
  unfold State.pch
  rw [h]

/-! An event that is counted and raised. -/

/-- The counts of illegal transitions, bad Hall states, refused frames and Z errors have 32 bits. -/
theorem objWidth_errorCount (n : PosCh) {i : Nat} (hi : i ∈ [0x2524, 0x2525, 0x2526, 0x2527]) : objWidth i (n.val + 1) = 32 := by
  revert n i
  decide

/-- An error of a channel counted and its source raised: the count shows the event, the report is queued, no channel changes and no
object but the counter and FLT's own. -/
theorem State.countError (u : State) (n : PosCh) {i src : Nat} (hi : i ∈ [0x2524, 0x2525, 0x2526, 0x2527]) (q : Nat) (d : Bytes) :
    ((u.bump i (n.val + 1)).raise src q d).num i (n.val + 1) = (u.num i (n.val + 1) + 1) % 2 ^ 32 ∧
    (u.takesReports → Raised src q ((u.bump i (n.val + 1)).raise src q d)) ∧
    (∀ m, ((u.bump i (n.val + 1)).raise src q d).pch m = u.pch m) ∧
    ObjsOnly [(i, n.val + 1), (0x2F10, 2), (0x2F10, 4)] u ((u.bump i (n.val + 1)).raise src q d) ∧
    Only [.objs, .flt, .bbx] u ((u.bump i (n.val + 1)).raise src q d) := by
  have other : i ≠ 0x2F10 := fun e => absurd (e ▸ hi) (by decide)
  have told := (u.bump i (n.val + 1)).raise_objs_only src q d
  have moved : Moves [.objs, .flt, .bbx] u ((u.bump i (n.val + 1)).raise src q d) := .after State.raise_moves State.bump_moves.mono
  refine ⟨?_, fun k => State.raise_raised _ _ _ (State.takesReports_congr rfl rfl k), State.pch_congr (moved.same .pos), ?_, moved.only⟩
  · rw [told.num (by omega) (by simp [other]), State.num_bump_self, objWidth_errorCount n hi]
  · exact ((u.bump_objs_only i _ (by omega)).mono (by simp)).trans (told.mono (by simp))

/-- The same behind a change of a channel alone, as the state before that change has it. -/
theorem State.countError_of_pos (k : Only [.pos] s u) (n : PosCh) {i src : Nat} (hi : i ∈ [0x2524, 0x2525, 0x2526, 0x2527]) (q : Nat)
    (d : Bytes) : ((u.bump i (n.val + 1)).raise src q d).num i (n.val + 1) = (s.num i (n.val + 1) + 1) % 2 ^ 32 ∧
    (s.takesReports → Raised src q ((u.bump i (n.val + 1)).raise src q d)) ∧
    (∀ m, ((u.bump i (n.val + 1)).raise src q d).pch m = u.pch m) ∧
    Only [.objs, .flt, .bbx, .pos] s ((u.bump i (n.val + 1)).raise src q d) := by
  obtain ⟨count, raised, still, -, parts⟩ := u.countError n (src := src) hi q d
  refine ⟨?_, fun takes => raised (State.takesReports_congr (k .pwr (by decide)) (k .flt (by decide)) takes), still,
    (k.mono (by decide)).trans (parts.mono (by decide))⟩
  rw [count, State.num_congr (k .objs (by decide))]

/-! An accepted change (R169, R170, R177). -/

/-- Two channels are alike but for the measurement of their speed (R177). -/
structure Pch.SameButSpeed (c d : Pch) : Prop where
  count : c.count = d.count
  a : c.a = d.a
  b : c.b = d.b
  uvw : c.uvw = d.uvw
  hallRef : c.hallRef = d.hallRef
  zPrev : c.zPrev = d.zPrev
  ssiStart : c.ssiStart = d.ssiStart
  ssiRaw : c.ssiRaw = d.ssiRaw
  ssiLast : c.ssiLast = d.ssiLast

theorem Pch.sameButSpeed_of_speed (c : Pch) (last : Nat) (back : Option Bool) (stopped cleared : Bool) (window : List Rat) :
    Pch.SameButSpeed { c with tLast := last, back := back, stopped := stopped, cleared := cleared, window := window } c :=
  ⟨rfl, rfl, rfl, rfl, rfl, rfl, rfl, rfl, rfl⟩

/-- A count one further, or one back (R169). -/
def stepOf (back : Bool) (count : Nat) : Nat := (if back then count + 2 ^ 32 - 1 else count + 1) % 2 ^ 32

theorem stepOf_eq_next_iff (back : Bool) (count : Nat) : stepOf back count = (count + 1) % 2 ^ 32 ↔ back = false := by
  unfold stepOf
  cases back
  · simp
  · simp only [Nat.reducePow, if_true, Bool.true_eq_false, iff_false]
    omega

theorem stepOf_cases (back : Bool) (count : Nat) :
    stepOf back count = (count + 1) % 2 ^ 32 ∨ stepOf back count = (count + 2 ^ 32 - 1) % 2 ^ 32 := by
  unfold stepOf
  cases back
  · exact .inl (by rw [if_neg Bool.false_ne_true])
  · exact .inr (by rw [if_pos rfl])

/-- The direction that CountInvert gives a change (R169). -/
def State.countsBack (s : State) (n : Nat) (forward : Bool) : Bool := if s.num 0x2513 (n + 1) = 1 then forward else !forward

theorem State.countsBack_congr (s : State) (h : t.objs = s.objs) (n : Nat) (forward : Bool) :
    t.countsBack n forward = s.countsBack n forward := by
  unfold State.countsBack
  rw [State.num_congr h]

theorem State.countsBack_eq_false_iff (s : State) (n : Nat) (forward : Bool) :
    s.countsBack n forward = false ↔ forward = (s.num 0x2513 (n + 1) != 1) := by
  unfold State.countsBack
  split
  · next inverted => simp [inverted]
  · next plain => simp [bne_iff_ne.2 plain]

/-- The speed window takes a change without touching the position. -/
theorem State.speedChange_pch (s : State) (n : PosCh) (back : Bool) (te steps : Nat) :
    ((s.speedChange n back te steps).pch n).SameButSpeed (s.pch n) := by
  unfold State.speedChange
  extract_lets c turned v
  have same : v.pch n = s.pch n := State.pch_congr (Moves.same (ps := [.objs]) (.ite State.bump_moves .refl) .pos) n
  rw [← same]
  split
  · rw [State.pch_modPch_self]
    exact (v.pch n).sameButSpeed_of_speed ..
  · rw [State.pch_modPch_self]
    exact (v.pch n).sameButSpeed_of_speed ..

theorem State.speedChange_pch_ne (s : State) {k m : Nat} (h : m ≠ k) (back : Bool) (te steps : Nat) :
    (s.speedChange k back te steps).pch m = s.pch m := by
  unfold State.speedChange
  extract_lets c turned v
  have same : v.pch m = s.pch m := State.pch_congr (Moves.same (ps := [.objs]) (.ite State.bump_moves .refl) .pos) m
  rw [← same]
  split
  · exact v.pch_modPch_ne _ h
  · exact v.pch_modPch_ne _ h

/-- What follows a moved count changes no channel (R193). -/
theorem State.countMoved_pch (s : State) (n old : Nat) (how : CrossBy) (m : Nat) : (s.countMoved n old how).pch m = s.pch m :=
  State.pch_congr (State.countMoved_moves.same .pos) m

/-- One count moves the counter by one, and nothing else of the channel but its speed. -/
theorem State.countStep_pch (s : State) (n : PosCh) (forward : Bool) :
    ((s.countStep n forward).pch n).SameButSpeed
      { s.pch n with count := stepOf (s.countsBack n forward) (s.pch n).count } := by
  unfold State.countStep
  extract_lets te back old v
  have moved : v.pch n = { s.pch n with count := stepOf (s.countsBack n forward) (s.pch n).count } := s.pch_modPch_self n _
  rw [State.countMoved_pch, ← moved]
  exact v.speedChange_pch n back te 1

theorem State.countStep_pch_ne (s : State) {k m : Nat} (h : m ≠ k) (forward : Bool) : (s.countStep k forward).pch m = s.pch m := by
  unfold State.countStep
  rw [State.countMoved_pch, State.speedChange_pch_ne _ h]
  exact s.pch_modPch_ne _ h

theorem State.bump_speedClear (s : State) (i j n : Nat) : (s.speedClear n).bump i j = (s.bump i j).speedClear n := rfl

end Sys2Proof.Machine
end

section
/-! Quadrature: changes of A and B, and edges of Z (R170, R171, R173). -/

set_option Elab.async false

namespace Sys2Proof.Machine

variable {s t : State} {n : PosCh}

/-- The filtered levels of A and B taken. -/
def State.takeLevels (s : State) (n : PosCh) (a b : Bool) : State := s.modPch n fun c => { c with a := a, b := b }

theorem exec_countChange_step {a b : Bool} (ho : s.on domCTL = true) (hm : s.chMode n.val = 1)
    (h : (s.pch n.val).a ≠ a ↔ (s.pch n.val).b = b) :
    exec (.countChange n a b) s =
      .next ((s.takeLevels n a b).countStep n (if (s.pch n.val).a ≠ a then a != (s.pch n.val).b else b == (s.pch n.val).a)) := by
  change execCountChange n a b s = _
  unfold execCountChange
  dsimp only
  rw [if_neg (by simp only [ho, hm]; tauto), if_neg (by tauto)]
  rfl

theorem exec_countChange_illegal {a b : Bool} (ho : s.on domCTL = true) (hm : s.chMode n.val = 1) (ha : (s.pch n.val).a ≠ a)
    (hb : (s.pch n.val).b ≠ b) :
    ∃ d, exec (.countChange n a b) s =
      .next ((((s.takeLevels n a b).speedClear n).bump 0x2524 (n.val + 1)).raise (0x2500 + n.val) 0 d) := by
  change ∃ d, execCountChange n a b s = _
  unfold execCountChange
  dsimp only
  rw [if_neg (by simp [ho, hm, ha]), if_pos ⟨ha, hb⟩, ← State.bump_speedClear]
  exact ⟨_, rfl⟩

theorem exec_countChange_idle {a b : Bool} (h : s.on domCTL = false ∨ s.chMode n.val ≠ 1) : exec (.countChange n a b) s = .next s := by
  change execCountChange n a b s = _
  unfold execCountChange
  exact if_pos (h.elim (fun off => .inl (by rw [off]; rfl)) fun other => .inr (.inl other))

/-- One level changed: the counter moves by one in the direction that A, B and CountInvert give. -/
theorem countChange_counts {a b : Bool} (ho : s.on domCTL = true) (hm : s.chMode n.val = 1)
    (h : (s.pch n.val).a ≠ a ↔ (s.pch n.val).b = b) :
    ∃ t, exec (.countChange n a b) s = .next t ∧ (t.pch n.val).a = a ∧ (t.pch n.val).b = b ∧
      (t.pch n.val).count = stepOf (s.countsBack n (if (s.pch n.val).a ≠ a then a != (s.pch n.val).b else b == (s.pch n.val).a))
        (s.pch n.val).count ∧ ∀ m, m ≠ n.val → t.pch m = s.pch m := by
  refine ⟨_, exec_countChange_step ho hm h, ?_⟩
  generalize (if (s.pch n.val).a ≠ a then a != (s.pch n.val).b else b == (s.pch n.val).a) = forward
  have e := (s.takeLevels n a b).countStep_pch n forward
  have taken : (s.takeLevels n a b).pch n = { s.pch n with a := a, b := b } := s.pch_modPch_self n _
  rw [taken, s.countsBack_congr (t := s.takeLevels n a b) rfl] at e
  exact ⟨e.a, e.b, e.count, fun m hm => (State.countStep_pch_ne _ hm _).trans (s.pch_modPch_ne _ hm)⟩

/-- Both levels changed at once: the levels are taken and the speed starts anew, and the transition is counted and raised. -/
theorem countChange_illegal {a b : Bool} (ho : s.on domCTL = true) (hm : s.chMode n.val = 1) (ha : (s.pch n.val).a ≠ a)
    (hb : (s.pch n.val).b ≠ b) :
    ∃ t, exec (.countChange n a b) s = .next t ∧ t.pch n.val = { s.pch n.val with a := a, b := b, window := [], cleared := true } ∧
      t.num 0x2524 (n.val + 1) = (s.num 0x2524 (n.val + 1) + 1) % 2 ^ 32 ∧
      (s.takesReports → Raised (0x2500 + n.val) 0 t) ∧ Only [.objs, .flt, .bbx, .pos] s t := by
  obtain ⟨d, run⟩ := exec_countChange_illegal ho hm ha hb
  have cleared : ((s.takeLevels n a b).speedClear n).pch n = { s.pch n with a := a, b := b, window := [], cleared := true } := by
    unfold State.speedClear State.takeLevels
    rw [State.pch_modPch_self, State.pch_modPch_self]
  have parts : Moves [.pos] s ((s.takeLevels n a b).speedClear n) := .after State.speedClear_moves State.modPch_moves
  obtain ⟨count, raised, still, only⟩ :=
    State.countError_of_pos parts.only n (i := 0x2524) (src := 0x2500 + n.val) (by decide) 0 d
  exact ⟨_, run, (still n).trans cleared, count, raised, only⟩

/-- The counter latched at an edge of Z (R173). -/
def State.latchZ (s : State) (n : PosCh) : State :=
  (s.setNum 0x2528 (n.val + 1) (s.pch n).count).modPch n fun c => { c with zPrev := some c.count }

/-- The counter is off the Z period from `z` on by more than the tolerance, either way round (R173). -/
def State.offPeriod (s : State) (n : PosCh) (z : Nat) : Prop :=
  s.num 0x2514 (n.val + 1) ≠ 0 ∧
    s.num 0x2515 (n.val + 1) < min (diff32 (s.pch n).count z - s.num 0x2514 (n.val + 1)).natAbs
      (diff32 (s.pch n).count z + s.num 0x2514 (n.val + 1)).natAbs

theorem State.latchZ_objs_only (s : State) (n : PosCh) : ObjsOnly [(0x2528, n.val + 1)] s (s.latchZ n) :=
  (s.setNum_objs_only _ _ _ (by omega)).trans (.of_objs rfl)

/-- An edge of Z latches the counter, and where the counter is off its period, that is counted and raised. -/
theorem exec_zIndexEdge_cases (ho : s.on domCTL = true) (hm : s.chMode n.val = 1) :
    exec (.zIndexEdge n) s = .next (s.latchZ n) ∧ (∀ z, (s.pch n).zPrev = some z → ¬ s.offPeriod n z) ∨
    ∃ d, exec (.zIndexEdge n) s = .next (((s.latchZ n).bump 0x2527 (n.val + 1)).raise (0x2530 + n.val) 0 d) := by
  have period : (s.latchZ n).num 0x2514 (n.val + 1) = s.num 0x2514 (n.val + 1) := (s.latchZ_objs_only n).num (by omega) (by simp)
  have tolerance : (s.latchZ n).num 0x2515 (n.val + 1) = s.num 0x2515 (n.val + 1) := (s.latchZ_objs_only n).num (by omega) (by simp)
  have run : exec (.zIndexEdge n) s = execZIndexEdge n s := rfl
  rw [run]
  unfold execZIndexEdge
  dsimp only
  rw [if_neg (by simp [ho, hm])]
  cases hz : (s.pch n).zPrev with
  | none => exact .inl ⟨rfl, nofun⟩
  | some z =>
    dsimp only
    rw [show State.modPch _ n.val _ = s.latchZ n from rfl, period, tolerance]
    split
    · exact .inr ⟨_, rfl⟩
    · next within => exact .inl ⟨rfl, fun y hy => Option.some.inj hy ▸ within⟩

/-- The latch shows the counter whatever comes of the period, and an edge off the period is counted and raised. -/
theorem zIndexEdge_latches (ho : s.on domCTL = true) (hm : s.chMode n.val = 1) :
    ∃ t, exec (.zIndexEdge n) s = .next t ∧ t.num 0x2528 (n.val + 1) = (s.pch n).count ∧
      t.pch n = { s.pch n with zPrev := some (s.pch n).count } ∧
      ∀ z, (s.pch n).zPrev = some z → s.offPeriod n z →
        t.num 0x2527 (n.val + 1) = (s.num 0x2527 (n.val + 1) + 1) % 2 ^ 32 ∧ (s.takesReports → Raised (0x2530 + n.val) 0 t) := by
  have shown : (s.latchZ n).num 0x2528 (n.val + 1) = (s.pch n).count := State.num_setNum_self ..
  have latched : (s.latchZ n).pch n = { s.pch n with zPrev := some (s.pch n).count } := State.pch_modPch_self ..
  obtain ⟨run, within⟩ | ⟨d, run⟩ := exec_zIndexEdge_cases ho hm
  · exact ⟨_, run, shown, latched, fun z hz off => absurd off (within z hz)⟩
  · obtain ⟨count, raised, still, objs, -⟩ := (s.latchZ n).countError n (i := 0x2527) (src := 0x2530 + n.val) (by decide) 0 d
    refine ⟨_, run, ?_, (still n).trans latched, fun _ _ _ => ⟨?_, fun takes => raised (State.takesReports_congr rfl rfl takes)⟩⟩
    · rw [objs.num (by omega) (by simp), shown]
    · rw [count, (s.latchZ_objs_only n).num (by omega) (by simp)]

end Sys2Proof.Machine
end

section
/-! Hall sensors: a state that counts, and a bad one (R174). -/

set_option Elab.async false

namespace Sys2Proof.Machine

variable {s t : State} {n : PosCh}

/-- The filtered Hall levels taken. -/
def State.takeHall (s : State) (n : PosCh) (v : Nat) : State := s.modPch n fun c => { c with uvw := v }

/-- A valid Hall state taken, and the last valid one from now on. -/
def State.takeHallState (s : State) (n : PosCh) (v : Nat) : State := (s.takeHall n v).modPch n fun c => { c with hallRef := some v }

theorem exec_hallStateChange_next {x : BitVec 3} {r : Nat} (ho : s.on domCTL = true) (hm : s.chMode n.val = 3)
    (hx : (s.pch n).uvw ≠ x.toNat) (h0 : x ≠ 0) (h7 : x ≠ 7) (hr : (s.pch n).hallRef = some r)
    (hp : hallPlace x.toNat = (hallPlace r + 1) % 6) (hne : r ≠ x.toNat) :
    exec (.hallStateChange n x) s = .next ((s.takeHallState n x.toNat).countStep n true) := by
  have valid : ¬ (x.toNat = 0 ∨ x.toNat = 7) := by bv_omega
  have run : exec (.hallStateChange n x) s = execHallStateChange n x s := rfl
  rw [run]
  unfold execHallStateChange
  dsimp only
  rw [if_neg (by simp [ho, hm, hx]), if_neg valid, hr]
  dsimp only
  rw [if_neg hne, if_pos hp]
  rfl

theorem exec_hallStateChange_bad {x : BitVec 3} (ho : s.on domCTL = true) (hm : s.chMode n.val = 3) (hx : (s.pch n).uvw ≠ x.toNat)
    (hb : x = 0 ∨ x = 7) :
    ∃ d, exec (.hallStateChange n x) s = .next (((s.takeHall n x.toNat).bump 0x2525 (n.val + 1)).raise (0x2510 + n.val) 0 d) := by
  have bad : x.toNat = 0 ∨ x.toNat = 7 := by bv_omega
  have run : exec (.hallStateChange n x) s = execHallStateChange n x s := rfl
  rw [run]
  unfold execHallStateChange
  dsimp only
  rw [if_neg (by simp [ho, hm, hx]), if_pos bad]
  exact ⟨_, rfl⟩

/-- The next Hall state of the forward order, not inverted: the counter moves up by one. -/
theorem hallStateChange_counts {x : BitVec 3} {r : Nat} (ho : s.on domCTL = true) (hm : s.chMode n.val = 3)
    (hx : (s.pch n).uvw ≠ x.toNat) (h0 : x ≠ 0) (h7 : x ≠ 7) (hr : (s.pch n).hallRef = some r)
    (hp : hallPlace x.toNat = (hallPlace r + 1) % 6) (hi : s.num 0x2513 (n.val + 1) = 0) (hne : r ≠ x.toNat) :
    ∃ t, exec (.hallStateChange n x) s = .next t ∧ (t.pch n).count = ((s.pch n).count + 1) % 2 ^ 32 ∧ (t.pch n).uvw = x.toNat ∧
      (t.pch n).hallRef = some x.toNat := by
  refine ⟨_, exec_hallStateChange_next ho hm hx h0 h7 hr hp hne, ?_⟩
  have e := (s.takeHallState n x.toNat).countStep_pch n true
  have taken : (s.takeHallState n x.toNat).pch n = { s.pch n with uvw := x.toNat, hallRef := some x.toNat } := by
    unfold State.takeHallState State.takeHall
    rw [State.pch_modPch_self, State.pch_modPch_self]
  have ahead : s.countsBack n true = false := (s.countsBack_eq_false_iff n true).2 (by rw [hi]; rfl)
  rw [taken, s.countsBack_congr (t := s.takeHallState n x.toNat) rfl, ahead] at e
  exact ⟨e.count.trans ((stepOf_eq_next_iff false _).2 rfl), e.uvw, e.hallRef⟩

/-- An impossible Hall state is taken as the levels alone, counted and raised. -/
theorem hallStateChange_bad {x : BitVec 3} (ho : s.on domCTL = true) (hm : s.chMode n.val = 3) (hx : (s.pch n).uvw ≠ x.toNat)
    (hb : x = 0 ∨ x = 7) :
    ∃ t, exec (.hallStateChange n x) s = .next t ∧ t.pch n = { s.pch n with uvw := x.toNat } ∧
      t.num 0x2525 (n.val + 1) = (s.num 0x2525 (n.val + 1) + 1) % 2 ^ 32 ∧ (s.takesReports → Raised (0x2510 + n.val) 0 t) ∧
      Only [.objs, .flt, .bbx, .pos] s t := by
  obtain ⟨d, run⟩ := exec_hallStateChange_bad ho hm hx hb
  have parts : Only [.pos] s (s.takeHall n x.toNat) := State.modPch_moves.only
  obtain ⟨count, raised, still, only⟩ :=
    State.countError_of_pos parts n (i := 0x2525) (src := 0x2510 + n.val) (by decide) 0 d
  exact ⟨_, run, (still n).trans (s.pch_modPch_self n _), count, raised, only⟩

end Sys2Proof.Machine
end

section
/-! SSI frames: a sample taken, and a frame refused (R175, R177); the end of a standstill (R178). -/

set_option Elab.async false

namespace Sys2Proof.Machine

variable {s t : State} {n : PosCh}

/-- The running frame of a channel ends. -/
def State.endFrame (s : State) (n : PosCh) : State := s.modPch n fun c => { c with ssiStart := none }

/-- A frame refused: no sample is left to go on from. -/
def State.dropSample (s : State) (n : PosCh) : State :=
  (s.endFrame n).modPch n fun c => { c with ssiRaw := none, ssiLast := none, cleared := true }

/-- A sample taken: the counter it comes to, and the word to go on from. -/
def State.takeSample (s : State) (n : PosCh) (raw count k : Nat) : State :=
  (s.endFrame n).modPch n fun c => { c with count := count, ssiRaw := some raw, ssiLast := some { tick := k, count := count } }

theorem exec_ssiFrameComplete_refused {raw : BitVec 32} {e low : Bool} {k q : Nat} (ho : s.on domCTL = true) (hm : s.chMode n.val = 2)
    (hk : (s.pch n).ssiStart = some k)
    (hq : (bit (s.num 0x2516 (n.val + 1)) 7 && e) = true ∧ q = 1 ∨
      (bit (s.num 0x2516 (n.val + 1)) 7 && e) = false ∧ low = true ∧ q = 2) :
    ∃ d, exec (.ssiFrameComplete n raw e low) s =
      .next (((s.dropSample n).bump 0x2526 (n.val + 1)).raise (0x2520 + n.val) q d) := by
  have run : exec (.ssiFrameComplete n raw e low) s = execSsiFrameComplete n raw e low s := rfl
  rw [run]
  unfold execSsiFrameComplete
  dsimp only
  rw [hk]
  dsimp only
  rw [if_neg (by simp [ho, hm])]
  obtain ⟨error, rfl⟩ | ⟨clean, rfl, rfl⟩ := hq
  · rw [if_pos error]
    exact ⟨_, rfl⟩
  · rw [if_neg (by simp [clean]), if_pos rfl]
    exact ⟨_, rfl⟩

/-- A refused frame leaves the counter, takes back the sample to go on from, and is counted and raised with its cause. -/
theorem ssiFrameComplete_refused {raw : BitVec 32} {e low : Bool} {k q : Nat} (ho : s.on domCTL = true) (hm : s.chMode n.val = 2)
    (hk : (s.pch n).ssiStart = some k)
    (hq : (bit (s.num 0x2516 (n.val + 1)) 7 && e) = true ∧ q = 1 ∨
      (bit (s.num 0x2516 (n.val + 1)) 7 && e) = false ∧ low = true ∧ q = 2) :
    ∃ t, exec (.ssiFrameComplete n raw e low) s = .next t ∧
      t.pch n = { s.pch n with ssiStart := none, ssiRaw := none, ssiLast := none, cleared := true } ∧
      t.num 0x2526 (n.val + 1) = (s.num 0x2526 (n.val + 1) + 1) % 2 ^ 32 ∧ (s.takesReports → Raised (0x2520 + n.val) q t) ∧
      Only [.objs, .flt, .bbx, .pos] s t := by
  obtain ⟨d, run⟩ := exec_ssiFrameComplete_refused (raw := raw) ho hm hk hq
  have parts : Moves [.pos] s (s.dropSample n) := .after State.modPch_moves State.modPch_moves
  have dropped : (s.dropSample n).pch n = { s.pch n with ssiStart := none, ssiRaw := none, ssiLast := none, cleared := true } := by
    unfold State.dropSample State.endFrame
    rw [State.pch_modPch_self, State.pch_modPch_self]
  obtain ⟨count, raised, still, only⟩ :=
    State.countError_of_pos parts.only n (i := 0x2526) (src := 0x2520 + n.val) (by decide) q d
  exact ⟨_, run, (still n).trans dropped, count, raised, only⟩

/-- What follows a sample taken: the first one starts the speed anew, a still one changes nothing, any other enters the speed and moves
the line clocks and compare units (R175, R177, R193). -/
def State.sampleTaken (s : State) (n : PosCh) (old k : Nat) (d : Int) : Option SsiSample → State
  | some p =>
    if d = 0 then s
    else (s.speedChange n (d < 0) k d.natAbs).countMoved n old (.sample p.tick p.count k (ofSigned 32 ((old : Int) + d)))
  | none => s.modPch n fun c => { c with tLast := k, cleared := false, window := [] }

theorem State.sampleTaken_pch (s : State) (n : PosCh) (old k : Nat) (d : Int) (last : Option SsiSample) :
    ((s.sampleTaken n old k d last).pch n).SameButSpeed (s.pch n) := by
  unfold State.sampleTaken
  split
  · split
    · exact (s.pch n).sameButSpeed_of_speed ..
    · rw [State.countMoved_pch]
      exact s.speedChange_pch ..
  · rw [State.pch_modPch_self]
    exact (s.pch n).sameButSpeed_of_speed ..

/-- A good frame of 32 bits, neither in Gray code nor inverted, and within the largest step: its sample is taken. -/
theorem exec_ssiFrameComplete_sample {raw : BitVec 32} {e : Bool} {k p : Nat} {d : Int} (ho : s.on domCTL = true)
    (hm : s.chMode n.val = 2) (hk : (s.pch n).ssiStart = some k) (he : (bit (s.num 0x2516 (n.val + 1)) 7 && e) = false)
    (hg : bit (s.num 0x2516 (n.val + 1)) 6 = false) (hw : bits (s.num 0x2516 (n.val + 1)) 5 0 = 32) (hp : (s.pch n).ssiRaw = some p)
    (hi : s.num 0x2513 (n.val + 1) = 0) (hd : toSigned 32 (raw.toNat + 2 ^ 32 - p) = d) (hs : d.natAbs ≤ 2 ^ 30) :
    exec (.ssiFrameComplete n raw e false) s =
      .next ((s.takeSample n raw.toNat (ofSigned 32 (((s.pch n).count : Int) + d)) k).sampleTaken n (s.pch n).count k d
        (s.pch n).ssiLast) := by
  have run : exec (.ssiFrameComplete n raw e false) s = execSsiFrameComplete n raw e false s := rfl
  have word : raw.toNat % 2 ^ 32 = raw.toNat := Nat.mod_eq_of_lt raw.isLt
  have plain : ¬ (s.modPch n fun c => { c with ssiStart := none }).num 0x2513 (n.val + 1) = 1 := fun h =>
    absurd (hi.symm.trans h) (by decide)
  rw [run]
  unfold execSsiFrameComplete
  dsimp only
  rw [hk]
  dsimp only
  rw [if_neg (by simp [ho, hm]), if_neg (by simp [he]), if_neg (by decide), hw, hp, hg, word]
  dsimp only
  simp only [if_neg (by decide : ¬ false = true), hd, if_neg (Nat.not_lt.2 hs : ¬ 2 ^ (32 - 2) < d.natAbs), if_neg plain]
  cases (s.pch n).ssiLast with
  | none => rfl
  | some q =>
    dsimp only [State.sampleTaken]
    split
    · rfl
    · rfl

/-- A good frame moves the counter by its difference from the word before. -/
theorem ssiFrameComplete_counts {raw : BitVec 32} {e : Bool} {k p : Nat} (ho : s.on domCTL = true) (hm : s.chMode n.val = 2)
    (hk : (s.pch n).ssiStart = some k) (he : (bit (s.num 0x2516 (n.val + 1)) 7 && e) = false)
    (hg : bit (s.num 0x2516 (n.val + 1)) 6 = false) (hw : bits (s.num 0x2516 (n.val + 1)) 5 0 = 32) (hp : (s.pch n).ssiRaw = some p)
    (hi : s.num 0x2513 (n.val + 1) = 0) (hs : (toSigned 32 (raw.toNat + 2 ^ 32 - p)).natAbs ≤ 2 ^ 30) :
    ∃ t, exec (.ssiFrameComplete n raw e false) s = .next t ∧
      (t.pch n).count = ofSigned 32 (((s.pch n).count : Int) + toSigned 32 (raw.toNat + 2 ^ 32 - p)) ∧
      (t.pch n).ssiRaw = some raw.toNat ∧ (t.pch n).ssiStart = none := by
  generalize hd : toSigned 32 (raw.toNat + 2 ^ 32 - p) = d at hs
  refine ⟨_, exec_ssiFrameComplete_sample ho hm hk he hg hw hp hi hd hs, ?_⟩
  generalize ofSigned 32 (((s.pch n).count : Int) + d) = now
  have taken : (s.takeSample n raw.toNat now k).pch n =
      { s.pch n with ssiStart := none, count := now, ssiRaw := some raw.toNat, ssiLast := some { tick := k, count := now } } := by
    unfold State.takeSample State.endFrame
    rw [State.pch_modPch_self, State.pch_modPch_self]
  have e := (s.takeSample n raw.toNat now k).sampleTaken_pch n (s.pch n).count k d (s.pch n).ssiLast
  rw [taken] at e
  exact ⟨e.count, e.ssiRaw, e.ssiStart⟩

theorem exec_ssiPeriodExpiry (ho : s.on domCTL = true) (hm : s.chMode n.val = 2) :
    exec (.ssiPeriodExpiry n) s = .next (s.modPch n fun c => { c with ssiStart := some s.tick }) :=
  congrArg Host.Outcome.next (if_pos ⟨ho, hm⟩)

theorem exec_stopTimeout (ho : s.on domCTL = true) :
    exec (.stopTimeout n) s = .next (s.modPch n fun c => { c with stopped := true, window := [] }) :=
  congrArg Host.Outcome.next (if_pos ho)

end Sys2Proof.Machine
end

section
/-! The mode of a position channel (R169, R175, R186), and the obligation O46. -/

set_option Elab.async false

namespace Sys2Proof.Machine

variable {s : State} {n : PosCh}

/-- A Write that its object refuses with a code of its own is refused with it. -/
theorem WriteTaken.hookRefused {c : Instr} {h : Hdr} {i j e : Nat} {b : Bytes} {x : Session} (w : WriteTaken s h i j b x)
    (hc : writeOf s c = some (h, i, j, 0, b)) (ha : (isAdminArea (i / 256) && i % 256 == 0 && j == 1) = false)
    (hk : ∀ d, findDesc i j = some d → hook x.now i j (d.value b) (s.heard x.sid) = some (.error e)) : Refused c h 0x13 e s := by
  obtain ⟨d, allowed⟩ := w.allowed
  refine w.accepted.writeRefused hc ?_
  rw [State.write_none allowed.described allowed.writeError]
  exact State.applyWrite_error ha (hk d allowed.described)

theorem findDesc_channelMode (n : PosCh) : (findDesc 0x2510 (n.val + 1)).isSome = true := by
  revert n
  decide

/-- A channel's mode changed: the channel starts anew, and the bars' delays follow (R169, R20). -/
def State.setMode (s : State) (n : PosCh) (v : Nat) : State :=
  ((s.setNum 0x2510 (n.val + 1) v).modPch n fun _ => Pch.start).delaysChanged

theorem State.setMode_moves {v : Nat} : Moves [.fresh, .objs, .pos] s (s.setMode n v) :=
  .after State.delaysChanged_moves (.after State.modPch_moves State.setNum_moves.mono)

theorem State.setMode_chMode (s : State) (n : PosCh) (v : Nat) : (s.setMode n v).chMode n = v := by
  have e := ((s.setNum 0x2510 (n.val + 1) v).modPch n fun _ => Pch.start).delaysChanged_obj (i := 0x2510) (j := n.val + 1) (by omega)
    (by decide) (by decide)
  exact (congrArg Val.toNum e).trans (s.num_setNum_self 0x2510 (n.val + 1) v)

theorem State.setMode_pch (s : State) (n : PosCh) (v : Nat) : (s.setMode n v).pch n = Pch.start := by
  have e := State.pch_congr (State.delaysChanged_moves.same .pos :
    (s.setMode n v).pos = ((s.setNum 0x2510 (n.val + 1) v).modPch n fun _ => Pch.start).pos) n
  exact e.trans (State.pch_modPch_self _ n _)

/-- What a Write of ChannelMode does: Hall sensors at a channel without U, V and W, a frame that does not fit its period and a mode that
shared registration excludes are refused, in this order. -/
theorem hook_channelMode (x : Session) (u : State) (n : PosCh) {d : Desc} (hd : findDesc 0x2510 (n.val + 1) = some d) (v : BitVec 8) :
    hook x 0x2510 (n.val + 1) (d.value (u8 v.toNat)) u = some (
      if v.toNat = 3 ∧ n.val < 8 then .error (0x25040100 + n.val)
      else if v.toNat = 2 ∧ !ssiFits (u.num 0x2516 (n.val + 1)) (u.num 0x2517 (n.val + 1)) then .error (0x25040200 + n.val)
      else if !sharedOk (withVal u.obj 0x2510 (n.val + 1) (.num v.toNat)) then .error (0x26040100 + n.val)
      else .ok (u.setMode n v.toNat)) := by
  have sized : ((findDesc 0x2510 (n.val + 1)).bind (·.ty.size)).isSome = true := by
    clear hd
    revert n
    decide
  rw [Desc.value_num hd _ sized, u8, leNat_leBytes, Nat.mod_eq_of_lt (by simpa using v.isLt)]
  rfl

/-- A mode that the channel, its frame and shared registration allow: the channel starts anew in it. -/
theorem channelModeWrite_done {h : Hdr} {v : BitVec 8} {x : Session} (w : WriteTaken s h 0x2510 (n.val + 1) (u8 v.toNat) x)
    (h3 : v ≠ 3 ∨ 8 ≤ n.val) (h2 : v ≠ 2 ∨ ssiFits (s.num 0x2516 (n.val + 1)) (s.num 0x2517 (n.val + 1)) = true)
    (hs : sharedOk (withVal s.obj 0x2510 (n.val + 1) (.num v.toNat)) = true) :
    ∃ t, exec (.channelModeWrite h n v) s = .next t ∧ Answered t 0x13 0 h.seq.toNat ∧ t.chMode n.val = v.toNat ∧
      t.pch n.val = Pch.start ∧ Only [.wilwa, .sent, .fresh, .objs, .pos] s t := by
  have noHall : ¬ (v.toNat = 3 ∧ n.val < 8) := fun ⟨e, l⟩ => h3.elim (fun k => k (BitVec.eq_of_toNat_eq e)) (by omega)
  have noSsi : ¬ (v.toNat = 2 ∧ (!ssiFits (s.num 0x2516 (n.val + 1)) (s.num 0x2517 (n.val + 1))) = true) := fun ⟨e, l⟩ =>
    h2.elim (fun k => k (BitVec.eq_of_toNat_eq e)) fun fits => by rw [fits] at l; cases l
  have shared : ¬ (!sharedOk (withVal s.obj 0x2510 (n.val + 1) (.num v.toNat))) = true := by rw [hs]; decide
  obtain ⟨t, run, answered, rest, only⟩ := w.row (u := (s.heard x.sid).setMode n v.toNat) (ps := [.wilwa, .sent, .fresh, .objs, .pos])
    (findDesc_channelMode n) (by simp [isAdminArea])
    (fun d hd => (hook_channelMode _ _ n hd v).trans
      (congrArg some ((if_neg noHall).trans ((if_neg noSsi).trans (if_neg shared))))) State.setMode_moves.mono
  refine ⟨t, (exec_of_writeOf rfl).trans run, answered, ?_, ?_, only⟩
  · exact (State.num_congr (rest .objs (by decide)) _ _).trans (State.setMode_chMode ..)
  · exact (State.pch_congr (rest .pos (by decide)) _).trans (State.setMode_pch ..)

theorem channelModeWrite_noHall {h : Hdr} {x : Session} (w : WriteTaken s h 0x2510 (n.val + 1) (u8 (3 : BitVec 8).toNat) x)
    (hn : n.val < 8) : Refused (.channelModeWrite h n 3) h 0x13 (0x25040100 + n.val) s :=
  w.hookRefused rfl (by simp [isAdminArea]) fun d hd => (hook_channelMode _ _ n hd 3).trans (congrArg some (if_pos ⟨rfl, hn⟩))

theorem channelModeWrite_noSsi {h : Hdr} {x : Session} (w : WriteTaken s h 0x2510 (n.val + 1) (u8 (2 : BitVec 8).toNat) x)
    (hf : ssiFits (s.num 0x2516 (n.val + 1)) (s.num 0x2517 (n.val + 1)) = false) :
    Refused (.channelModeWrite h n 2) h 0x13 (0x25040200 + n.val) s :=
  w.hookRefused rfl (by simp [isAdminArea]) fun d hd => (hook_channelMode _ _ n hd 2).trans
    (congrArg some ((if_neg fun hall => absurd hall.1 (by decide)).trans (if_pos ⟨rfl, congrArg Bool.not hf⟩)))

/-- Settles O46: each clause is what its command does to the channel, with the command's own frame. -/
theorem positionsAreCounted : Obligations.PositionsAreCounted := by
  unfold Obligations.PositionsAreCounted
  refine ⟨fun s n a b ho hm h => ?_, fun s n a b ho hm ha hb => ?_, fun s n a b h => exec_countChange_idle h,
    fun s n x r ho hm hx h0 h7 hr hp hi hne => ?_, fun s n x ho hm hx hb => ?_, fun s n ho hm => ?_, fun s n ho hm => ?_,
    fun s n raw e k p ho hm hk he hg hw hp hi hs => ?_, fun s n raw e k low q ho hm hk hq => ?_, fun s n ho => ?_,
    fun s h n v x w => ⟨channelModeWrite_done w, ?_, ?_⟩⟩
  · obtain ⟨t, run, ta, tb, count, others⟩ := countChange_counts ho hm h
    refine ⟨t, run, ta, tb, ?_, ?_, others, execCountChange_moves.only run⟩
    · rw [count, stepOf_eq_next_iff, State.countsBack_eq_false_iff]
    · rw [count]
      exact stepOf_cases _ _
  · obtain ⟨t, run, pch, rest⟩ := countChange_illegal ho hm ha hb
    exact ⟨t, run, by rw [pch], by rw [pch], by rw [pch], by rw [pch], rest⟩
  · obtain ⟨t, run, count, uvw, ref⟩ := hallStateChange_counts ho hm hx h0 h7 hr hp hi hne
    exact ⟨t, run, count, uvw, ref, execHallStateChange_moves.only run⟩
  · obtain ⟨t, run, pch, rest⟩ := hallStateChange_bad ho hm hx hb
    exact ⟨t, run, by rw [pch], by rw [pch], rest⟩
  · obtain ⟨t, run, latch, pch, period⟩ := zIndexEdge_latches ho hm
    exact ⟨t, run, latch, pch, fun z hz hp ht => period z hz ⟨hp, ht⟩, execZIndexEdge_moves.only run⟩
  · exact ⟨_, exec_ssiPeriodExpiry ho hm, s.pch_modPch_self n _, State.modPch_moves.only⟩
  · obtain ⟨t, run, count, word, frame⟩ := ssiFrameComplete_counts ho hm hk he hg hw hp hi hs
    exact ⟨t, run, count, word, frame, execSsiFrameComplete_moves.only run⟩
  · obtain ⟨t, run, pch, rest⟩ := ssiFrameComplete_refused ho hm hk hq
    exact ⟨t, run, by rw [pch], by rw [pch], rest⟩
  · exact ⟨_, exec_stopTimeout ho, s.pch_modPch_self n _, State.modPch_moves.only⟩
  · rintro rfl hn
    exact channelModeWrite_noHall w hn
  · rintro rfl hf
    exact channelModeWrite_noSsi w hf

end Sys2Proof.Machine
end

section
/-! PROOFS. The slice line at the front of an engine's queue: completed with its levels, or lost with the check or the time limit that it
failed (R203 to R215, R221). -/

set_option Elab.async false

namespace Sys2Proof.Machine

variable {s : State} {n : Engine} {j : SliceJob} {e : Entry}

/-! The entries of a bar and the slices of an entry. -/

/-- What a table gives for a key is listed there. -/
theorem mem_of_kvGet {α : Type} {l : List (Nat × α)} {q : Nat} {v : α} (h : kvGet l q = some v) : (q, v) ∈ l := by
  induction l with
  | nil => cases h
  | cons p l ih =>
    obtain ⟨k, x⟩ := p
    unfold kvGet at h
    split at h
    · next found =>
      cases h
      exact found ▸ List.mem_cons_self
    · exact List.mem_cons_of_mem _ (ih h)

/-- An entry that is still there after one of its slices was marked has the mark (R221). -/
theorem State.markSlice_marked (s : State) {j : SliceJob} (hb : j.bar < 8) (hk : j.slice < 16) {v : SliceSt} {y : Entry}
    (h : kvGet ((s.markSlice j v).bar j.bar).buf j.idx = some y) : vget y.slices j.slice .lost = v := by
  unfold State.markSlice at h
  rw [s.bar_modBar_self hb] at h
  obtain ⟨⟨i, x⟩, -, marked⟩ := List.mem_filterMap.1 (mem_of_kvGet h)
  dsimp only at marked
  split at marked
  · next other => exact absurd (congrArg Prod.fst (Option.some.inj marked)) other
  · split at marked
    · cases marked
    · have here : y = { x with slices := vmod x.slices j.slice fun _ => v } := (congrArg Prod.snd (Option.some.inj marked)).symm
      rw [here]
      exact vget_vmod_self x.slices (fun _ => v) .lost hk

/-- An engine's front slice line belongs to one of the eight bars. -/
theorem State.front_bar {m : Nat} (h : s.front m = some (j, e)) : j.bar < 8 := by
  by_contra beyond
  have nothing : kvGet (s.bar j.bar).buf j.idx = none := by
    rw [show s.bar j.bar = BarFsq.start from vget_of_ge _ _ (by omega)]
    rfl
  unfold State.front at h
  split at h
  · cases h
  · split at h
    · obtain ⟨f, found, pair⟩ := Option.map_eq_some_iff.1 h
      cases pair
      rw [nothing] at found
      cases found
    · cases h

theorem exec_engineSliceLine_idle (h : s.front n = none) (c : BitVec 8) (w : List (BitVec 16 × BitVec 32)) :
    exec (.engineSliceLine n c w) s = .next s := by
  have run : exec (.engineSliceLine n c w) s = execEngineSliceLine n c w s := rfl
  rw [run, execEngineSliceLine, h]

theorem exec_engineSliceTimeout_idle (h : s.front n = none) : exec (.engineSliceTimeout n) s = .next s := by
  have run : exec (.engineSliceTimeout n) s = execEngineSliceTimeout n s := rfl
  rw [run, execEngineSliceTimeout, h]

/-! A slice line that is completed (R204 to R214). -/

/-- The levels of a slice of an entry, by address, on the error that earlier lines have left for it. -/
def Entry.levels (e : Entry) (k : Nat) (carried : List (Nat × Int)) : List Nat :=
  (List.range ((boundsOf (mapOf e.cfg.map)).getD (k + 1) 0 - (boundsOf (mapOf e.cfg.map)).getD k 0)).map fun i =>
    (sliceLine e.cfg (mapOf e.cfg.map) ((boundsOf (mapOf e.cfg.map)).getD k 0) ((boundsOf (mapOf e.cfg.map)).getD (k + 1) 0) e.p
      (e.pixels.getD []) carried).out.getD i 0

/-- A slice line without a failed check, over sound tables: the engine goes on to its next one, the slice has its levels, on no carried
error where the entry starts afresh (R213), and threshold mode carries none on (R209). -/
theorem exec_engineSliceLine_sound (h : s.front n = some (j, e)) : ∃ (u : State) (carried : List (Nat × Int)),
    exec (.engineSliceLine n 0 []) s = .next (u.markSlice j (.complete (e.levels j.slice carried))) ∧
    u.sne.engines = (s.modEngine n fun g => { g with queue := g.queue.drop 1 }).sne.engines ∧
    (e.fresh = true → carried = []) ∧ (e.cfg.mode = 0 → u.sne.diff = s.sne.diff) := by
  have run : exec (.engineSliceLine n 0 []) s = execEngineSliceLine n 0 [] s := rfl
  rw [run, execEngineSliceLine, h]
  refine ⟨_, _, rfl, rfl, fun fresh => ?_, fun threshold => if_pos threshold⟩
  rw [if_pos fresh, if_pos fresh]
  rfl

/-! A slice line that is lost (R215, R221). -/

theorem State.addNum_congr {t : State} (h : t.objs = s.objs) (i k m : Nat) : (t.addNum i k m).objs = (s.addNum i k m).objs := by
  unfold State.addNum
  rw [State.setNum_objs, State.setNum_objs, State.num_congr h, h]

/-- What a failed slice line comes to: its engine goes on with the cause noted, the slice is marked, the bar counts the loss, and the
engine's source is raised. -/
theorem State.failSlice_eq (s : State) (m cause : Nat) (j : SliceJob) : ∃ (u : State) (d : Bytes),
    s.failSlice m cause j = u.raise (0x2700 + m) cause d ∧
    u.sne.engines = (s.modEngine m fun g => { g with queue := g.queue.drop 1, lastCause := cause }).sne.engines ∧
    u.fsq = (s.markSlice j .failed).fsq ∧ u.objs = (s.addNum 0x2721 (j.bar + 1) 1).objs ∧ u.pwr = s.pwr ∧ u.flt = s.flt := by
  unfold State.failSlice
  extract_lets u v
  have marked : Moves [.sne, .fsq] s ((u.dropEdges j).markSlice j .failed) :=
    .after State.markSlice_moves (.after State.dropEdges_moves State.modEngine_moves.mono)
  have moved : Moves [.objs, .sne, .fsq] s v := .after State.addNum_moves marked.mono
  have engines : v.sne.engines = (s.modEngine m fun g => { g with queue := g.queue.drop 1, lastCause := cause }).sne.engines := rfl
  have fsq : v.fsq = (s.markSlice j .failed).fsq := rfl
  have objs : v.objs = (s.addNum 0x2721 (j.bar + 1) 1).objs :=
    State.addNum_congr (marked.same .objs) ..
  clear_value v
  split
  exact ⟨_, _, rfl, engines, fsq, objs, moved.same .pwr, moved.same .flt⟩

/-- LostSliceLines has 32 bits. -/
theorem objWidth_lostSliceLines {b : Nat} (hb : b < 8) : objWidth 0x2721 (b + 1) = 32 := by
  decide +revert

/-- A slice line that its engine could not complete. -/
structure SliceLost (s : State) (n cause : Nat) (j : SliceJob) (t : State) : Prop where
  queue : (t.engine n).queue = (s.engine n).queue.drop 1
  noted : (t.engine n).lastCause = cause
  marked : ∀ y, kvGet (t.bar j.bar).buf j.idx = some y → vget y.slices j.slice .lost = .failed
  counted : t.num 0x2721 (j.bar + 1) = (s.num 0x2721 (j.bar + 1) + 1) % 2 ^ 32
  raised : s.takesReports → Raised (0x2700 + n) cause t

theorem State.failSlice_lost (s : State) {m : Nat} (hm : m < 17) (cause : Nat) {j : SliceJob} (hb : j.bar < 8) (hk : j.slice < 16) :
    SliceLost s m cause j (s.failSlice m cause j) := by
  obtain ⟨u, d, failed, engines, fsq, objs, pwr, flt⟩ := s.failSlice_eq m cause j
  rw [failed]
  have engine : (u.raise (0x2700 + m) cause d).engine m = { s.engine m with queue := (s.engine m).queue.drop 1, lastCause := cause } := by
    unfold State.engine
    rw [State.raise_moves.same .sne, engines]
    exact s.engine_modEngine_self hm _
  refine ⟨by rw [engine], by rw [engine], fun y h => ?_, ?_, fun k => State.raise_raised _ _ _ (State.takesReports_congr pwr flt k)⟩
  · rw [State.bar_congr ((State.raise_moves.same .fsq).trans fsq)] at h
    exact s.markSlice_marked hb hk h
  · have told := (u.raise_objs_only (0x2700 + m) cause d).num (i := 0x2721) (j := j.bar + 1) (by omega) (by simp)
    rw [told, State.num_congr objs, State.num_addNum_self, objWidth_lostSliceLines hb]

theorem exec_engineSliceLine_failed (h : s.front n = some (j, e)) {c : BitVec 8} (hc : c ≠ 0) (w : List (BitVec 16 × BitVec 32)) :
    exec (.engineSliceLine n c w) s = .next (s.failSlice n c.toNat j) := by
  have run : exec (.engineSliceLine n c w) s = execEngineSliceLine n c w s := rfl
  rw [run, execEngineSliceLine, h]
  exact if_pos hc

theorem exec_engineSliceTimeout_failed (h : s.front n = some (j, e)) :
    exec (.engineSliceTimeout n) s = .next (s.failSlice n 3 j) := by
  have run : exec (.engineSliceTimeout n) s = execEngineSliceTimeout n s := rfl
  rw [run, execEngineSliceTimeout, h]

end Sys2Proof.Machine
end

section
/-! PROOFS. ZoneWidth written: what follows from it, and the zones that are too many (R202, R223); the obligation O48. -/

set_option Elab.async false

namespace Sys2Proof.Machine

variable {s : State} {b : Bar} {h : Hdr} {x : Session} {d : Desc}

/-- ZoneCount follows from a newly committed map or zone width (R223). -/
theorem State.mapCommitted_zones (s : State) (b : Bar) :
    (s.mapCommitted b).num 0x2713 (b.val + 1) = zonesOf (s.map b) (s.num 0x2712 (b.val + 1)) := by
  unfold State.mapCommitted
  extract_lets m u v
  have zones : u.num 0x2713 (b.val + 1) = zonesOf (s.map b) (s.num 0x2712 (b.val + 1)) := State.num_setNum_self ..
  have bounds : ObjsOnly [(0x2720, b.val + 1)] u v := u.setObj_objs_only _ _ _ (by omega)
  split
  · exact zones
  · rw [(v.setNum_objs_only _ _ _).num (i := 0x2713) (j := b.val + 1) (by omega) (by simp), bounds.num (by omega) (by simp), zones]

/-- What was written or staged of a bar's zone tables dropped. -/
def State.dropZoneTables (s : State) (b : Bar) : State :=
  { s with wilwa := { s.wilwa with
    shadow := kvDel (kvDel s.wilwa.shadow (key 0x2714 (b.val + 1))) (key 0x2715 (b.val + 1))
    staged := kvDel (kvDel s.wilwa.staged (key 0x2714 (b.val + 1))) (key 0x2715 (b.val + 1)) } }

/-- The zone tables of a bar set back: nothing of them written or staged, ToneCurve and ZoneGain built in (R223). -/
def State.clearZoneTables (s : State) (b : Bar) : State :=
  ((s.dropZoneTables b).setObj 0x2714 (b.val + 1) (defaultVal 0x2714 (b.val + 1))).setObj 0x2715 (b.val + 1)
    (defaultVal 0x2715 (b.val + 1))

theorem State.clearZoneTables_moves : Moves [.wilwa, .objs] s (s.clearZoneTables b) :=
  .after State.setObj_moves (.after State.setObj_moves (.wilwa .refl))

theorem State.clearZoneTables_objs_only (s : State) (b : Bar) :
    ObjsOnly [(0x2714, b.val + 1), (0x2715, b.val + 1)] s (s.clearZoneTables b) :=
  have dropped : ObjsOnly [(0x2714, b.val + 1), (0x2715, b.val + 1)] s (s.dropZoneTables b) := .of_objs rfl
  dropped.trans (((State.setObj_objs_only _ _ _ _ (by omega)).mono (by simp)).trans
    ((State.setObj_objs_only _ _ _ _ (by omega)).mono (by simp)))

theorem State.clearZoneTables_tone (s : State) (b : Bar) :
    (s.clearZoneTables b).obj 0x2714 (b.val + 1) = defaultVal 0x2714 (b.val + 1) :=
  (State.obj_setObj_ne _ _ (by unfold key; omega)).trans (State.obj_setObj_self ..)

theorem State.clearZoneTables_gain (s : State) (b : Bar) :
    (s.clearZoneTables b).obj 0x2715 (b.val + 1) = defaultVal 0x2715 (b.val + 1) := State.obj_setObj_self ..

/-- A bar's ZoneWidth changed: the tables of the old zones go, and the zones are counted anew (R223). -/
def State.setZoneWidth (s : State) (b : Bar) (v : Nat) : State :=
  ((s.setNum 0x2712 (b.val + 1) v).clearZoneTables b).mapCommitted b

theorem State.setZoneWidth_moves {v : Nat} : Moves [.wilwa, .sent, .objs] s (s.setZoneWidth b v) :=
  .after State.mapCommitted_moves (.after State.clearZoneTables_moves State.setNum_moves.mono)

theorem State.setZoneWidth_width (s : State) (b : Bar) (v : Nat) : (s.setZoneWidth b v).num 0x2712 (b.val + 1) = v := by
  have kept := ((s.setNum 0x2712 (b.val + 1) v).clearZoneTables b).mapCommitted_obj (i := 0x2712) (j := b.val + 1) (k := b)
    (by omega) (by omega) (by decide)
  have cleared := ((s.setNum 0x2712 (b.val + 1) v).clearZoneTables_objs_only b).num (i := 0x2712) (j := b.val + 1) (by omega) (by simp)
  exact (congrArg Val.toNum kept).trans (cleared.trans (State.num_setNum_self ..))

theorem State.setZoneWidth_tone (s : State) (b : Bar) (v : Nat) :
    (s.setZoneWidth b v).obj 0x2714 (b.val + 1) = defaultVal 0x2714 (b.val + 1) :=
  (State.mapCommitted_obj _ (by omega) (by omega) (by decide)).trans (State.clearZoneTables_tone ..)

theorem State.setZoneWidth_gain (s : State) (b : Bar) (v : Nat) :
    (s.setZoneWidth b v).obj 0x2715 (b.val + 1) = defaultVal 0x2715 (b.val + 1) :=
  (State.mapCommitted_obj _ (by omega) (by omega) (by decide)).trans (State.clearZoneTables_gain ..)

theorem State.setZoneWidth_zones (s : State) (b : Bar) (v : Nat) :
    (s.setZoneWidth b v).num 0x2713 (b.val + 1) = zonesOf (s.map b) v := by
  obtain ⟨u, hu⟩ : ∃ u, u = s.setNum 0x2712 (b.val + 1) v := ⟨_, rfl⟩
  have cleared := u.clearZoneTables_objs_only b
  have map : (u.clearZoneTables b).map b = s.map b := by
    unfold State.map State.bytes
    rw [cleared _ _ (by omega) (by simp), hu, s.setNum_objs_only _ _ v (by omega) _ _ (by omega) (by simp)]
  have width : (u.clearZoneTables b).num 0x2712 (b.val + 1) = v := by
    rw [cleared.num (by omega) (by simp), hu, State.num_setNum_self]
  unfold State.setZoneWidth
  rw [← hu, State.mapCommitted_zones, map, width]

/-! The Write. -/

theorem State.heard_map (s : State) (k b : Nat) : (s.heard k).map b = s.map b := by
  unfold State.map State.bytes
  rw [State.heard_obj]

theorem findDesc_zoneWidth (b : Bar) : ∃ d, findDesc 0x2712 (b.val + 1) = some d ∧ d.level = 1 ∧ d.acc = .rw ∧ d.ty = .u32 := by
  have row : (findDesc 0x2712 (b.val + 1)).map (fun d => (d.level, d.acc, d.ty)) = some (1, .rw, .u32) := by
    revert b
    decide
  obtain ⟨d, hd, fields⟩ := Option.map_eq_some_iff.1 row
  simp only [Prod.mk.injEq] at fields
  exact ⟨d, hd, fields⟩

theorem Desc.value_u32 (ht : d.ty = .u32) (v : BitVec 32) : d.value (u32 v.toNat) = .num v.toNat := by
  unfold Desc.value
  rw [ht, u32, leNat_leBytes, Nat.mod_eq_of_lt (by simpa using v.isLt)]
  rfl

/-- A width in ZoneWidth's range makes at most 512 zones (R202, R223). -/
theorem State.valueOk_zones {v : Nat} (ok : s.valueOk d 0x2712 (b.val + 1) (.num v) = true) : zonesOf (s.map b) v ≤ 512 := by
  unfold State.valueOk at ok
  obtain ⟨-, chapter⟩ := Bool.and_eq_true_iff.1 ok
  exact of_decide_eq_true chapter

/-- What a Write of ZoneWidth does, where the width makes few enough zones. -/
theorem hook_zoneWidth (x : Session) (u : State) (b : Bar) {v : Nat} (hz : zonesOf (u.map b) v ≤ 512) :
    hook x 0x2712 (b.val + 1) (.num v) u = some (.ok (u.setZoneWidth b v)) :=
  if_neg (Nat.not_lt.2 hz)

/-- A width that R72 lets through is taken (R223). -/
theorem zoneWidthWrite_done {v : BitVec 32} (w : WriteTaken s h 0x2712 (b.val + 1) (u32 v.toNat) x) :
    ∃ t, exec (.zoneWidthWrite h b v) s = .next t ∧ Answered t 0x13 0 h.seq.toNat ∧
      t.objs = ((s.heard x.sid).setZoneWidth b v.toNat).objs ∧ Only [.wilwa, .sent, .objs] s t := by
  obtain ⟨d, hd, -, -, ty⟩ := findDesc_zoneWidth b
  obtain ⟨d', allowed⟩ := w.allowed
  have same : d' = d := Option.some.inj (allowed.described.symm.trans hd)
  subst same
  have few : zonesOf (s.map b) v.toNat ≤ 512 := State.valueOk_zones (by rw [← Desc.value_u32 ty v]; exact allowed.range)
  obtain ⟨t, run, answered, rest, only⟩ := w.row (u := (s.heard x.sid).setZoneWidth b v.toNat) (ps := [.wilwa, .sent, .objs])
    (by rw [hd]; rfl) (by simp [isAdminArea])
    (fun d he => by
      obtain rfl := Option.some.inj (hd.symm.trans he)
      rw [Desc.value_u32 ty]
      exact hook_zoneWidth _ _ b few) State.setZoneWidth_moves
  exact ⟨t, (exec_of_writeOf rfl).trans run, answered, rest .objs (by decide), only⟩

/-- A width that makes more than 512 zones is out of range (R72, R223). -/
theorem zoneWidthWrite_refused {v : BitVec 32} (a : Accepted s h 0x12 (u16 0x2712 ++ u8 (b.val + 1) ++ u8 0 ++ u32 v.toNat) x)
    (hv : x.version ≠ 1) (hl : 1 ≤ x.level) (many : 512 < zonesOf (s.map b) v.toNat) :
    Refused (.zoneWidthWrite h b v) h 0x13 0x27060600 s := by
  obtain ⟨d, hd, level, acc, ty⟩ := findDesc_zoneWidth b
  have version : indexInVersion x.version 0x2712 = true := by simp [indexInVersion, hv]
  have length : d.lengthOk (u32 v.toNat) = true := by
    unfold Desc.lengthOk
    rw [ty]
    rfl
  have range : s.valueOk d 0x2712 (b.val + 1) (d.value (u32 v.toNat)) = false := by
    rw [Desc.value_u32 ty]
    exact Bool.eq_false_iff.2 fun ok => absurd (State.valueOk_zones ok) (by omega)
  refine a.writeError_refused rfl ((s.heard_writeError ..).trans ?_)
  rw [State.writeError_value (x := x.now) hd (sessionAllows_none version (by rw [level]; exact hl)) (by simp [acc]) (by simp [ty]),
    State.valueError_range length range]
  rfl

/-- Settles O48: a slice line ends as sound (`exec_engineSliceLine_sound`) or as lost (`State.failSlice_lost`), and a Write of ZoneWidth
is taken or out of range. -/
theorem enginesComputeSliceLines : Obligations.EnginesComputeSliceLines := by
  unfold Obligations.EnginesComputeSliceLines
  refine ⟨fun s n j e hf hk => ?_, fun s n j e hf hk => ⟨fun c w hc => ?_, ?_⟩,
    fun s n c w hf => ⟨exec_engineSliceLine_idle hf c w, exec_engineSliceTimeout_idle hf⟩, fun s h b v x w => ?_,
    fun s h b v x a hv hl many => zoneWidthWrite_refused a hv hl many⟩
  · obtain ⟨u, carried, run, engines, fresh, threshold⟩ := exec_engineSliceLine_sound hf
    have marked := fun y => u.markSlice_marked (State.front_bar hf) hk (v := .complete (e.levels j.slice carried)) (y := y)
    refine ⟨_, run, ?_, fun y hy => ⟨_, marked y hy⟩, fun hfresh y hy => ?_, threshold, execEngineSliceLine_moves.only run⟩
    · have engine : (u.markSlice j (.complete (e.levels j.slice carried))).engine n = _ :=
        (congrArg (vget · n.val _) engines).trans (s.engine_modEngine_self n.isLt _)
      rw [engine]
    · rw [marked y hy, fresh hfresh]
      rfl
  · have run := exec_engineSliceLine_failed hf hc w
    obtain ⟨queue, noted, marked, counted, raised⟩ := s.failSlice_lost n.isLt c.toNat (State.front_bar hf) hk
    exact ⟨_, run, queue, noted, marked, counted, raised, State.failSlice_moves.only⟩
  · have run := exec_engineSliceTimeout_failed hf
    obtain ⟨queue, noted, marked, counted, raised⟩ := s.failSlice_lost n.isLt 3 (State.front_bar hf) hk
    exact ⟨_, run, queue, noted, marked, counted, raised, State.failSlice_moves.only⟩
  · obtain ⟨t, run, answered, objs, only⟩ := zoneWidthWrite_done w
    refine ⟨t, run, answered, ?_, ?_, ?_, ?_, only⟩
    · rw [State.num_congr objs, State.setZoneWidth_width]
    · rw [State.obj_congr objs, State.setZoneWidth_tone]
    · rw [State.obj_congr objs, State.setZoneWidth_gain]
    · rw [State.num_congr objs, State.setZoneWidth_zones, State.heard_map]

end Sys2Proof.Machine
end

section
/-! PROOFS. Lines on their way out: what keeps a bar's turn, and the next line prepared, with values taken up before it (R75, R227,
R228). -/

set_option Elab.async false

namespace Sys2Proof.Machine

variable {ps : List StatePart} {s t u : State} {b : Nat}

/-! A bar's turn. -/

/-- Whose turn it is at every bar is as it was: whether its next line may be prepared, and the events that wait for their lines
(R227, R233). -/
structure TurnsKept (s t : State) : Prop where
  ready : ∀ b, (t.bar b).ready = (s.bar b).ready
  waiting : ∀ b, (t.bar b).waiting = (s.bar b).waiting

namespace TurnsKept

theorem refl : TurnsKept s s := ⟨fun _ => rfl, fun _ => rfl⟩

theorem trans (h : TurnsKept s t) (k : TurnsKept t u) : TurnsKept s u :=
  ⟨fun b => (k.ready b).trans (h.ready b), fun b => (k.waiting b).trans (h.waiting b)⟩

/-- A step applied to a state that has been reached. -/
theorem after (k : TurnsKept t u) (h : TurnsKept s t) : TurnsKept s u := h.trans k

theorem of_fsq (h : t.fsq = s.fsq) : TurnsKept s t := ⟨fun b => by rw [State.bar_congr h], fun b => by rw [State.bar_congr h]⟩

/-- A function that leaves FSQ alone leaves the turns alone. -/
theorem of_moves (m : Moves ps s t) (h : .fsq ∉ ps := by decide) : TurnsKept s t := of_fsq (m.same .fsq h)

theorem modBar {f : BarFsq → BarFsq} (hr : ∀ x, (f x).ready = x.ready) (hw : ∀ x, (f x).waiting = x.waiting) :
    TurnsKept s (s.modBar b f) where
  ready i := by rcases s.bar_modBar b f i with e | e <;> rw [e]; exact hr _
  waiting i := by rcases s.bar_modBar b f i with e | e <;> rw [e]; exact hw _

theorem forEach {α : Type} {l : List α} {f : α → State → State} (h : ∀ a t, TurnsKept t (f a t)) : TurnsKept s (forEach l f s) :=
  forEach_keeps (P := TurnsKept s) (fun a _ t k => k.trans (h a t)) .refl

theorem ite {c : Prop} [Decidable c] (h : TurnsKept s t) (k : TurnsKept s u) : TurnsKept s (if c then t else u) := by
  split <;> assumption

end TurnsKept

/-! Values taken up (R75). -/

theorem State.nowLive_turns (s : State) (idx sub : Nat) (old : Val) : TurnsKept s (s.nowLive idx sub old) := by
  unfold State.nowLive
  extract_lets b
  split
  · exact (TurnsKept.of_moves State.mapCommitted_moves).after (.ite .refl (.of_fsq rfl))
  · exact .of_moves State.mapCommitted_moves
  · exact .of_fsq rfl
  iterate 5 exact .modBar (fun _ => rfl) fun _ => rfl
  iterate 7 exact .of_moves State.delaysChanged_moves
  · exact .refl

theorem State.takeUpBar_turns (s : State) (area b line : Nat) : TurnsKept s (s.takeUpBar area b line) := by
  unfold State.takeUpBar State.liveWhere
  refine .ite ((TurnsKept.of_moves State.takenUp_moves).after ((TurnsKept.forEach fun e t => ?_).after (.of_fsq rfl))) .refl
  exact (State.nowLive_turns _ _ _ _).after (.of_moves State.setObj_moves)

theorem State.adm_congr (h : t.wilwa = s.wilwa) (area : Nat) : t.adm area = s.adm area := by
  unfold State.adm
  rw [h]

theorem State.adm_modAdm_self (s : State) (area : Nat) (f : AreaAdm → AreaAdm) : (s.modAdm area f).adm area = f (s.adm area) :=
  kvGet_kvSet_self ..

/-- A bar's bit taken out of a mask of the eight bars. -/
theorem bit_without (v : Nat) (hb : b < 8) : bit (v &&& (255 - 2 ^ b)) b = false := by
  have out : (255 - 2 ^ b).testBit b = false := by decide +revert
  rw [bit_eq_testBit, Nat.testBit_and, out, Bool.and_false]

theorem State.commitDone_adm (s : State) (area : Nat) :
    (s.commitDone area).adm area = { s.adm area with result := 0, pending := 0 } :=
  (State.adm_congr (s := s.modAdm area fun a => { a with result := 0, pending := 0 }) rfl area).trans (s.adm_modAdm_self area _)

/-- A bar that has taken an area's values up has none of them pending. -/
theorem State.takenUp_pending (s : State) (area line time : Nat) (hb : b < 8) :
    bit ((s.takenUp area b line time).adm area).pending b = false := by
  unfold State.takenUp
  extract_lets u v
  split
  · rw [State.commitDone_adm]
    exact Nat.zero_testBit b ▸ bit_eq_testBit 0 b
  · rw [show v.adm area = _ from u.adm_modAdm_self area _]
    exact bit_without _ hb

theorem State.takeUpBar_pending (s : State) (area line : Nat) (hb : b < 8) :
    bit ((s.takeUpBar area b line).adm area).pending b = false := by
  unfold State.takeUpBar
  split
  · exact State.takenUp_pending _ _ _ _ hb
  next taken => exact Bool.eq_false_iff.2 taken

theorem State.takeUpBar_none {area : Nat} (h : bit (s.adm area).pending b = false) (line : Nat) : s.takeUpBar area b line = s :=
  if_neg (by rw [h]; decide)

/-! The next line prepared (R228). -/

/-- A line of a bar is prepared: its running number, whether it is blank, and the bar's buffer and waiting events, which stay. -/
structure LinePrepared (s : State) (b idx : Nat) (t : State) : Prop where
  line : ∃ p, (t.bar b).prepared = some p ∧ p.idx = idx ∧
    (p.blank = true ↔ ∀ e, kvGet (s.bar b).buf idx = some e → e.pixels = none)
  buf : (t.bar b).buf = (s.bar b).buf
  waiting : (t.bar b).waiting = (s.bar b).waiting

/-- A bar whose blank lines have ended keeps its buffer and the events that wait (R230). -/
theorem State.dryEnds_bar (s : State) (hb : b < 8) :
    ((s.dryEnds b).bar b).buf = (s.bar b).buf ∧ ((s.dryEnds b).bar b).waiting = (s.bar b).waiting := by
  unfold State.dryEnds
  extract_lets x u
  split
  · rw [State.bar_modBar_self _ hb, State.bar_congr (t := u) (State.raise_moves.same .fsq)]
    exact ⟨rfl, rfl⟩
  · exact ⟨rfl, rfl⟩

theorem State.prepareLine_prepared (s : State) (hb : b < 8) (idx n j : Nat) : LinePrepared s b idx (s.prepareLine b idx n j) := by
  have lost : (s.lanesLose b).bar b = s.bar b := State.bar_congr (State.lanesLose_moves.same .fsq) b
  unfold State.prepareLine
  extract_lets u x v
  have same : x = s.bar b := lost
  split
  next found =>
    rw [same] at found
    have blank : ∀ e, kvGet (s.bar b).buf idx = some e → e.pixels = none := fun e h => by
      rw [h] at found
      simpa using found
    have bar : _ = _ := u.bar_modBar_self hb fun x => { x with
      prepared := some { idx := idx, cfg := none, blank := true, levels := [], suppressed := false, incomplete := false, lanes := [] }
      sinceSuppress := x.sinceSuppress + 1, suppressing := false }
    refine ⟨⟨_, congrArg BarFsq.prepared bar, rfl, iff_of_true rfl blank⟩, ?_, ?_⟩
    · rw [bar, lost]
    · rw [bar, lost]
  next e found =>
    rw [same] at found
    obtain ⟨here, drawn⟩ := Option.filter_eq_some_iff.1 found
    obtain ⟨buf, waiting⟩ := u.dryEnds_bar hb
    extract_lets m bounds missing w hidden levels r w2 w3 w4
    have checked : Moves [.objs, .flt, .bbx] v w3 := by
      have counted : Moves [.objs] v w2 := .after State.addNum_moves (.after State.addNum_moves State.addNum_moves.mono)
      unfold w3
      split
      · exact .ite (.after State.raise_moves counted.mono) counted.mono
      · exact counted.mono
    have sent : (w4.sendLines b n (m.zip r.levels)).bar b = w4.bar b := State.bar_congr (State.sendLines_moves.same .fsq) b
    have bar : w4.bar b = _ := w3.bar_modBar_self hb _
    have kept : w3.bar b = v.bar b := State.bar_congr (checked.same .fsq) b
    refine ⟨⟨_, congrArg BarFsq.prepared (sent.trans bar), rfl, ?_⟩, ?_, ?_⟩
    · refine iff_of_false Bool.false_ne_true fun empty => ?_
      rw [empty e here] at drawn
      cases drawn
    · rw [sent, bar, kept, ← lost]
      exact buf
    · rw [sent, bar, kept, ← lost]
      exact waiting

/-- A bar prints, its next line may be prepared, and no event waits for it (R227, R228). -/
structure PreparesNext (s : State) (b : Nat) : Prop where
  on : s.on domCTL = true
  ready : (s.bar b).ready = true
  prepared : (s.bar b).prepared = none
  firing : (s.bar b).firing = none
  goes : s.halted = false
  prints : (s.bar b).run = .printing
  waiting : (s.bar b).waiting = []

/-- The next line is prepared with area 29h taken up before it, and is not placed. -/
theorem PreparesNext.run {b : Bar} (h : PreparesNext s b.val) : exec (.linePreparation b) s =
    .next ((s.takeUpBar 0x29 b.val (s.lineNumber b.val (s.bar b.val).idx)).prepareLine b.val (s.bar b.val).idx
      (s.lineNumber b.val (s.bar b.val).idx) (s.bar b.val).dutyIdx) := by
  have following : s.nextPrep b.val = (s.bar b.val).idx := by simp [State.nextPrep, h.waiting, h.prepared]
  have run : exec (.linePreparation b) s = execLinePreparation b s := rfl
  rw [run, execLinePreparation, following]
  extract_lets idx n u v
  have duty : (s.bar b.val).dutyIdx - (s.bar b.val).waiting.length = (s.bar b.val).dutyIdx := by rw [h.waiting]; rfl
  have waits : (v.bar b.val).waiting = [] :=
    (u.prepareLine_prepared b.isLt _ _ _).waiting.trans (((s.takeUpBar_turns _ _ _).waiting _).trans h.waiting)
  rw [if_neg (by simp [h.on, h.ready, h.prepared, h.firing, h.goes, h.prints]), waits]
  show Host.Outcome.next v = _
  unfold v
  rw [duty]

theorem exec_linePreparation_idle {b : Bar} (h : (s.bar b.val).ready = false ∨ (s.bar b.val).prepared.isSome = true ∨ s.halted = true) :
    exec (.linePreparation b) s = .next s := by
  refine if_pos ?_
  obtain h | h | h := h
  · exact .inr (.inl (by simp [h]))
  · exact .inr (.inr (.inl h))
  · exact .inr (.inr (.inr (.inr (.inl h))))

end Sys2Proof.Machine
end

section
/-! PROOFS. Tokens that leave or are withheld, lines that end and episodes that end (R227, R232, R233, R236, R243); the obligation
O49. -/

set_option Elab.async false

namespace Sys2Proof.Machine

variable {s t : State} {b l : Nat} {k : Token} {f : Firing}

/-! Turns while a line ends, its coverage is kept and its lanes fall idle. -/

theorem State.autoHide_turns (s : State) (b : Nat) (newly : List Nat) : TurnsKept s (s.autoHide b newly) := by
  unfold State.autoHide
  extract_lets hide k u wilwa v w x
  have shadow : TurnsKept u v := by
    unfold v
    split <;> exact .of_fsq rfl
  have told : Moves [.objs, .flt, .bbx] w (x.raise (0x2B10 + b) 0 (u32 newly.length ++ u32 (x.num 0x2B1E (b + 1)))) :=
    .after State.raise_moves State.addNum_moves.mono
  have hidden : TurnsKept v w := .modBar (fun _ => rfl) fun _ => rfl
  exact (TurnsKept.of_moves told).after (hidden.after (shadow.after (.of_moves State.setObj_moves)))

theorem State.measClassify_turns (s : State) (b : Nat) : TurnsKept s (s.measClassify b) := by
  unfold State.measClassify
  extract_lets i m addrs u live pending newly map hdg v weak missing w x y
  have classed : TurnsKept s u := .of_moves (ps := [.hdg]) (.forEach .refl fun a t h => .after State.modMeas_moves h)
  have found : Moves [.objs, .flt, .bbx, .hdg] u x := .after State.raise_moves (.after State.setNum_moves
    (.after State.setNum_moves (.after State.setNum_moves (.hdg .refl))))
  have told : TurnsKept s y := by
    unfold y
    cases newly with
    | nil => exact classed.trans (.of_moves found)
    | cons f more => exact (classed.trans (.of_moves found)).trans (.of_moves State.raise_moves)
  exact .ite (told.trans (State.autoHide_turns _ _ _)) told

theorem State.measBarDone_turns (s : State) (b : Nat) : TurnsKept s (s.measBarDone b) := by
  unfold State.measBarDone
  refine .ite .refl (.ite ((s.measClassify_turns b).trans ?_) ((s.measClassify_turns b).trans ?_))
  · exact .of_moves (ps := [.hdg]) (.hdg .refl)
  · exact .of_moves (ps := [.objs, .hdg]) (.after State.setNum_moves (.hdg (.hdg .refl)))

theorem State.measLaneLost_turns (s : State) (l : Nat) : TurnsKept s (s.measLaneLost l) := by
  unfold State.measLaneLost State.measLaneDone
  refine .ite .refl ((State.measBarDone_turns _ _).after (.of_moves (ps := [.sent, .hlk, .hdg]) ?_))
  exact .ite (.after State.laneIdle_moves (.after State.modLane_moves State.measRest_moves.mono))
    (.after State.modLane_moves State.measRest_moves.mono)

theorem State.barIdle_turns (s : State) (b : Nat) : TurnsKept s (s.barIdle b) :=
  .forEach fun l t => .ite ((TurnsKept.of_moves State.laneIdle_moves).after (t.measLaneLost_turns l)) .refl

theorem State.covDrain_turns (n b : Nat) (s : State) : TurnsKept s (State.covDrain n b s) := by
  induction n generalizing s with
  | zero => exact .refl
  | succ n ih =>
    unfold State.covDrain
    split
    · exact .refl
    · refine .ite ((ih _).after ((TurnsKept.of_moves State.bump_moves).after (.trans ?_ (.modBar (fun _ => rfl) fun _ => rfl)))) .refl
      exact .of_moves State.memWrite_moves

theorem State.covClose_turns (s : State) (b : Nat) (early : Bool) : TurnsKept s (s.covClose b early) := by
  unfold State.covClose
  split
  · exact .refl
  · extract_lets m zw r u v w
    have drained : TurnsKept s u := (State.covDrain_turns _ _ _).after (.modBar (fun _ => rfl) fun _ => rfl)
    have told : TurnsKept u w := TurnsKept.trans (t := v) (.of_moves State.bump_moves) (.ite (.of_moves State.raise_moves) .refl)
    refine .ite ((drained.trans told).trans (.modBar (fun _ => rfl) fun _ => rfl)) (drained.trans ?_)
    exact (State.covDrain_turns _ _ _).after (.modBar (fun _ => rfl) fun _ => rfl)

theorem State.settleStop_turns (s : State) (b : Nat) : TurnsKept s (s.settleStop b) := by
  unfold State.settleStop
  exact .ite .refl (.ite ((s.covClose_turns b true).trans (State.barIdle_turns _ _)) (.ite (s.covClose_turns b true) .refl))

/-- After a line that ends the next one may be prepared (R227). -/
theorem State.lineFinished_ready (s : State) (hb : b < 8) (ev : LineEv) (pr : Prepared) (fin : LineEnd) (fire : Nat)
    (lanes : Option (List Nat)) : ((s.lineFinished b ev pr fin fire lanes).bar b).ready = true := by
  unfold State.lineFinished
  extract_lets u late v w
  rw [(w.settleStop_turns b).ready, show w.bar b = _ from v.bar_modBar_self hb _]

/-! A token leaves, or is withheld (R232, R243). -/

theorem State.lane_modLane_self (s : State) (hl : l < 32) (f : Hln → Hln) : (s.modLane l f).lane l = f (s.lane l) :=
  vget_vmod_self _ _ _ hl

/-- A token passes that starts with no edge of FIRE_EN behind it: FIRE_EN is high and no measurement runs (R243, R285). -/
def State.tokenPasses (s : State) : Bool := s.fireEn && s.hdg.phase != 1

/-- A lane's next token taken from it, and sent where it passes. -/
def State.tokenTaken (s : State) (l : Nat) (k : Token) : State :=
  let u := s.modLane l fun x => { x with tokens := x.tokens.drop 1 }
  if s.tokenPasses then u.laneSend l (.token k.bar k.n k.delay false (s.ownGen % 2 ^ 16)) else u

theorem State.tokenTaken_moves : Moves [.sent, .hlk] s (s.tokenTaken l k) := by
  unfold State.tokenTaken
  exact .ite (.after State.laneSend_moves State.modLane_moves.mono) State.modLane_moves.mono

theorem State.tokenTaken_sent (s : State) (l : Nat) (k : Token) : (s.tokenTaken l k).sent =
    if s.tokenPasses then s.sent ++ [.lane l (.token k.bar k.n k.delay false (s.ownGen % 2 ^ 16))] else s.sent := by
  unfold State.tokenTaken
  cases s.tokenPasses <;> simp

theorem State.tokenTaken_tokens (hl : l < 32) {rest : List Token} (h : (s.lane l).tokens = k :: rest) :
    ((s.tokenTaken l k).lane l).tokens = rest := by
  unfold State.tokenTaken
  extract_lets u
  have gone : (u.lane l).tokens = rest := by
    rw [show u.lane l = _ from s.lane_modLane_self hl _, h]
    rfl
  clear_value u
  split
  · unfold State.laneSend
    rw [State.lane_modLane_self _ hl]
    exact gone
  · exact gone

theorem State.gatePasses_settled (h : s.fsq.fireEdge = none) : s.gatePasses = (s.fireEn, s) := by
  unfold State.gatePasses
  rw [h]

/-- A token that is not late, with no edge of FIRE_EN behind it. -/
theorem exec_tokenEmission_onTime {l : Lane} {rest : List Token} (h : (s.lane l.val).tokens = k :: rest)
    (ho : s.owning l.val = true) (hk : k.late = false) (he : s.fsq.fireEdge = none) :
    exec (.tokenEmission l) s = .next ((s.tokenTaken l.val k).laneDone k.bar l.val s.tokenPasses false) := by
  have run : exec (.tokenEmission l) s = execTokenEmission l s := rfl
  rw [run, execTokenEmission, h]
  refine congrArg Host.Outcome.next ((if_pos ho).trans ?_)
  unfold State.emitToken
  extract_lets u first v
  have onTime : v = u := if_neg (by simp [hk])
  have passes : (u.fireEn && u.hdg.phase != 1) = s.tokenPasses := by
    rw [State.tokenPasses, State.modLane_fireEn, State.modLane_hdg]
  have generation : u.ownGen = s.ownGen := by
    rw [State.ownGen, State.ownGen, State.modLane_mir, State.modLane_hlk]
  rw [onTime, State.gatePasses_settled (s := u) he, hk]
  dsimp only
  rw [passes, generation]
  rfl

theorem exec_tokenEmission_idle {l : Lane} (h : (s.lane l.val).tokens = [] ∨ s.owning l.val = false) :
    exec (.tokenEmission l) s = .next s := by
  have run : exec (.tokenEmission l) s = execTokenEmission l s := rfl
  rw [run, execTokenEmission]
  split
  · rfl
  next k rest waits =>
    obtain empty | silent := h
    · cases waits.symm.trans empty
    · rw [silent]; rfl

/-- A line on its way with one lane less to go. -/
def Firing.without (f : Firing) (l : Nat) (passed late : Bool) : Firing :=
  { f with lanes := f.lanes.filter (· != l), fired := if passed then f.fired ++ [l] else f.fired, late := f.late || late }

/-- A lane that is done, with others of its line still to go. -/
theorem State.laneDone_more (hf : (s.bar b).firing = some f) (more : f.lanes.filter (· != l) ≠ []) (passed late : Bool) :
    s.laneDone b l passed late = s.modBar b fun x => { x with firing := some (f.without l passed late) } := by
  unfold State.laneDone
  rw [hf]
  exact if_pos (by simpa using more)

/-- The last lane of a line that is done: the line is over, and the bar's next one may be prepared (R227). -/
theorem State.laneDone_last (hb : b < 8) (hf : (s.bar b).firing = some f) (last : f.lanes.filter (· != l) = []) (passed late : Bool) :
    ((s.laneDone b l passed late).bar b).firing = none ∧ ((s.laneDone b l passed late).bar b).ready = true := by
  have ended : ∃ (u : State) (fin : LineEnd), s.laneDone b l passed late =
      u.lineFinished b f.ev f.line fin f.fire (some (f.without l passed late).fired) := by
    unfold State.laneDone
    rw [hf]
    exact ⟨_, _, if_neg (by simpa using last)⟩
  obtain ⟨u, fin, ended⟩ := ended
  rw [ended]
  exact ⟨(u.lineFinished_bars _ _ _ _ _ _).2 hb, u.lineFinished_ready hb _ _ _ _ _⟩

/-! Episodes that end (R233, R236). -/

theorem exec_overspeedEpisodeEnd_over {b : Bar} (ho : (s.bar b.val).overspeed = true) (hd : 64 ≤ (s.bar b.val).sinceDrop) :
    exec (.overspeedEpisodeEnd b) s = .next ((s.raise (0x2908 + b.val) 0
      (u32 (s.bar b.val).osDrops ++ u32 (s.bar b.val).osFirst ++ u32 (s.bar b.val).osLast)).modBar b.val
        fun x => { x with overspeed := false }) :=
  congrArg Host.Outcome.next (if_pos ⟨ho, hd⟩)

theorem exec_overspeedEpisodeEnd_on {b : Bar} (hd : (s.bar b.val).sinceDrop < 64) : exec (.overspeedEpisodeEnd b) s = .next s :=
  congrArg Host.Outcome.next (if_neg fun h => absurd h.2 (by omega))

theorem exec_lateEpisodeEnd_over {b : Bar} (hl : (s.bar b.val).lateEp = true) (hs : 64 ≤ (s.bar b.val).sinceLate) :
    exec (.lateEpisodeEnd b) s = .next (s.modBar b.val fun x => { x with lateEp := false }) :=
  congrArg Host.Outcome.next (if_pos ⟨hl, hs⟩)

theorem exec_lateEpisodeEnd_on {b : Bar} (hs : (s.bar b.val).sinceLate < 64) : exec (.lateEpisodeEnd b) s = .next s :=
  congrArg Host.Outcome.next (if_neg fun h => absurd h.2 (by omega))

/-- Settles O49: the next line by what its preparation leaves (`State.prepareLine_prepared`), a token by the lanes of its line that are
still to go (`State.laneDone_more`, `State.laneDone_last`), an episode by its own command. -/
theorem linesArePreparedAndFired : Obligations.LinesArePreparedAndFired := by
  unfold Obligations.LinesArePreparedAndFired
  refine ⟨fun s b on ready prepared firing goes prints waiting current => ?_,
    fun s b on ready prepared firing goes prints waiting pending => ?_, fun s b h => exec_linePreparation_idle h,
    fun s l k rest f tokens owns onTime inBar settled fires => ⟨fun more => ?_, fun last => ?_⟩,
    fun s l h => exec_tokenEmission_idle h, fun s b on long => ?_, fun s b h => exec_overspeedEpisodeEnd_on h,
    fun s b on long => ?_, fun s b h => exec_lateEpisodeEnd_on h⟩
  · have run := (PreparesNext.mk on ready prepared firing goes prints waiting).run
    rw [State.takeUpBar_none current] at run
    obtain ⟨⟨p, line, idx, blank⟩, buf, -⟩ := s.prepareLine_prepared b.isLt (s.bar b.val).idx (s.lineNumber b.val (s.bar b.val).idx)
      (s.bar b.val).dutyIdx
    exact ⟨_, p, run, line, idx, blank, buf, State.prepareLine_moves.only⟩
  · refine ⟨_, (PreparesNext.mk on ready prepared firing goes prints waiting).run, ?_,
      (Moves.after State.prepareLine_moves State.takeUpBar_moves.mono).only⟩
    rw [State.adm_congr (State.prepareLine_moves.same .wilwa)]
    exact State.takeUpBar_pending _ _ _ b.isLt
  · have run := exec_tokenEmission_onTime tokens owns onTime settled
    have still : (s.tokenTaken l.val k).bar k.bar = s.bar k.bar := State.bar_congr (State.tokenTaken_moves.same .fsq) _
    rw [State.laneDone_more (by rw [still]; exact fires) more] at run
    refine ⟨_, run, State.tokenTaken_tokens l.isLt tokens, fun high quiet => ?_, fun low => ?_, ?_,
      (Moves.after State.modBar_moves State.tokenTaken_moves.mono).only⟩
    · exact (s.tokenTaken_sent _ _).trans (if_pos (by simp [State.tokenPasses, high, quiet]))
    · exact (s.tokenTaken_sent _ _).trans (if_neg (by simpa [State.tokenPasses, imp_iff_not_or] using low))
    · rw [State.bar_modBar_self _ inBar, Firing.without, Bool.or_false]
      rfl
  · have run := exec_tokenEmission_onTime tokens owns onTime settled
    have still : (s.tokenTaken l.val k).bar k.bar = s.bar k.bar := State.bar_congr (State.tokenTaken_moves.same .fsq) _
    obtain ⟨fired, ready⟩ := (s.tokenTaken l.val k).laneDone_last inBar (still ▸ fires) last s.tokenPasses false
    exact ⟨_, run, fired, ready, execTokenEmission_moves.only run⟩
  · refine ⟨_, exec_overspeedEpisodeEnd_over on long, ?_,
      fun takes => .congr rfl (State.raise_raised _ _ _ takes), (Moves.after State.modBar_moves State.raise_moves.mono).only⟩
    rw [State.bar_modBar_self _ b.isLt, State.bar_congr (State.raise_moves.same .fsq)]
  · exact ⟨_, exec_lateEpisodeEnd_over on long, s.bar_modBar_self b.isLt _, fun i other => s.bar_modBar_ne other _,
      State.modBar_moves.only⟩

end Sys2Proof.Machine
end

section
/-! PROOFS. Why a CAP need not fail as the checks stood before it: CAP_RECEIVED keeps the capability in 2A16h before it checks, and a
bar's head class is any number in a state that is any. The tables of class k lie in 2920h + k, so those of class 246 are the lanes'
capabilities themselves (R241, R272, R281); R240 has the classes 0 to 3 alone. -/

set_option Elab.async false

namespace Sys2Proof.Machine

/-- What an HDM of model 1 and Kind 1 with 16 heads answers, which has chosen HL1. -/
def modelOneCap : CapUp :=
  { versions := 1, chosen := 1, input := 0, model := 1, firmware := 0, serial := 0, headCount := 16, kind := 1, elements := 64,
    maxRate := 160, fireOffset := 0, asymmetry := 0, maxTurnaround := 0 }

/-- A device whose lane 0 has proposed HL1 in CAPABILITY, with the head class 246 at the bar that the lane serves. -/
def strayClass : State :=
  { State.reset with
    objs := [(key 0x2912 1, .num 246)]
    hlk := { Hlk.start with lanes := vmod Hlk.start.lanes 0 fun x => { x with st := .capability, chosen := 1 } } }

/-- The checks fail there: the capability that lane 0 holds is all zeros, and as a table it is of Kind 0. -/
theorem strayClass_capOk : strayClass.capOk 0 modelOneCap = false := by decide

/-- The CAP is taken all the same: as a table, the capability that has just come is of Kind 1. -/
theorem strayClass_takes_cap :
    ∃ u, exec (.capReceived 0 modelOneCap) strayClass = .next u ∧ (u.lane 0).st = .latency := ⟨_, rfl, by decide⟩

/-- Refutes O50: in `strayClass` the capability checks of the state before the CAP fail, and the lane goes on to LATENCY. -/
theorem not_lanesComeUp : ¬ Obligations.LanesComeUp := by
  unfold Obligations.LanesComeUp
  rintro ⟨-, -, -, -, -, -, -, -, -, -, -, answers, -⟩
  obtain ⟨-, fails⟩ := answers strayClass 0 modelOneCap (by decide) (by decide) (by decide)
  obtain ⟨t, run, down, -⟩ := fails strayClass_capOk
  obtain ⟨u, taken, latency⟩ := strayClass_takes_cap
  have same : t = u := Host.Outcome.next.inj (run.symm.trans taken)
  rw [same] at down
  cases latency.symm.trans down

end Sys2Proof.Machine
end

section
/-! PROOFS. Head driver modules (R261, R264, R268): one module among the others, one input beside the other, a frame that an
input receives with block lock, and a frame that a module sends. -/

set_option Elab.async false

namespace Sys2Proof.Machine

variable {s t : State} {m : Nat}

/-! One module among the others. -/

theorem State.hdm_modHdm_self (s : State) (hm : m < 32) (f : Hdm → Hdm) : (s.modHdm m f).hdm m = f (s.hdm m) := vget_vmod_self _ _ _ hm

theorem State.hdm_modHdm_ne (s : State) {k : Nat} (h : k ≠ m) (f : Hdm → Hdm) : (s.modHdm m f).hdm k = s.hdm k := vget_vmod_ne _ _ _ h

/-! One input of a module beside the other, and beside what else the module holds. -/

@[simp] theorem Hdm.input_modInput_self (h : Hdm) (b : Bool) (f : HdmIn → HdmIn) : (h.modInput b f).input b = f (h.input b) := by
  cases b <;> rfl

@[simp] theorem Hdm.input_modInput_not (h : Hdm) (b : Bool) (f : HdmIn → HdmIn) : (h.modInput b f).input (!b) = h.input (!b) := by
  cases b <;> rfl

@[simp] theorem Hdm.modInput_nextBand (h : Hdm) (b : Bool) (f : HdmIn → HdmIn) : (h.modInput b f).nextBand = h.nextBand := by
  cases b <;> rfl

@[simp] theorem Hdm.modInput_tables (h : Hdm) (b : Bool) (f : HdmIn → HdmIn) : (h.modInput b f).tables = h.tables := by cases b <;> rfl

@[simp] theorem Hdm.modInput_version (h : Hdm) (b : Bool) (f : HdmIn → HdmIn) : (h.modInput b f).version = h.version := by
  cases b <;> rfl

/-- An input without block lock owns nothing (R268). -/
theorem Hdm.owner_unlocked {h : Hdm} {b : Bool} (u : (h.input b).lock = false) (hl1 : Bool) : h.owner hl1 b = 0 := by
  have silent : (h.input b).owns = false := by simp [HdmIn.owns, u]
  cases b
  · have a : h.a.owns = false := silent
    simp [Hdm.owner, silent, a]
  · simp [Hdm.owner, silent]

/-! A frame received with block lock. -/

theorem State.onHdm_locked {l : Lane} {b : Bool} (h : ((s.hdm l.val).input b).lock = true) (f : State → State) :
    s.onHdm l b f = .next (f s) :=
  congrArg Host.Outcome.next (if_pos h)

/-! Frames sent. -/

/-- An input once a frame has left on it: its FrameSeq is the next one (R261). -/
def HdmIn.counted (i : HdmIn) : HdmIn := { i with frameSeq := (i.frameSeq + 1) % 256 }

theorem State.hdmSend_sent (s : State) (m : Nat) (b : Bool) (f : HdmTx) : (s.hdmSend m b f).sent = s.sent ++ s.hdmSent m b f := by
  simp [State.hdmSend, State.hdmSent]

theorem State.hdmSend_hdm (s : State) (hm : m < 32) (b : Bool) (f : HdmTx) :
    (s.hdmSend m b f).hdm m = (s.hdm m).modInput b HdmIn.counted := by
  rw [State.hdmSend, State.hdm_modHdm_self _ hm]
  cases b <;> rfl

/-- What a module sends depends on the input's FrameSeq alone. -/
theorem State.hdmSent_congr {b : Bool} (h : ((t.hdm m).input b).frameSeq = ((s.hdm m).input b).frameSeq) (f : HdmTx) :
    t.hdmSent m b f = s.hdmSent m b f := by
  rw [State.hdmSent, State.hdmSent, h]

/-- A frame sent once the module has changed, but for the input's FrameSeq. -/
theorem State.hdmSend_modHdm_sent (s : State) (hm : m < 32) {b : Bool} {g : Hdm → Hdm}
    (h : ((g (s.hdm m)).input b).frameSeq = ((s.hdm m).input b).frameSeq) (f : HdmTx) :
    ((s.modHdm m g).hdmSend m b f).sent = s.sent ++ s.hdmSent m b f := by
  have same : ((s.modHdm m g).hdm m |>.input b).frameSeq = ((s.hdm m).input b).frameSeq := by rw [s.hdm_modHdm_self hm, h]
  rw [State.hdmSend_sent, State.hdmSent_congr same, State.modHdm_sent]

theorem State.hdmSend_modHdm_hdm (s : State) (hm : m < 32) (b : Bool) (g : Hdm → Hdm) (f : HdmTx) :
    ((s.modHdm m g).hdmSend m b f).hdm m = (g (s.hdm m)).modInput b HdmIn.counted := by
  rw [State.hdmSend_hdm _ hm, s.hdm_modHdm_self hm]

/-- A Status STAT: it leaves as one frame, with the module's counters in it (R264). -/
theorem State.hdmStatus_sends (s : State) (m : Nat) (b : Bool) : ∃ (n : Nat) (x : HdmStatus),
    s.hdmStatus m b = ({ s with fresh := n } : State).hdmSend m b (.status x) ∧ x.fired = BitVec.ofNat 32 (s.hdm m).fired ∧
      x.rejects = BitVec.ofNat 16 (s.hdm m).rejects ∧ x.mismatches = BitVec.ofNat 16 (s.hdm m).mismatches :=
  ⟨_, _, rfl, rfl, rfl, rfl⟩

end Sys2Proof.Machine
end

section
/-! PROOFS. Lines and tokens at a head driver module (R261 to R263, R268, R269): a line held or discarded, a token that fires the lines it
matches or is rejected. -/

set_option Elab.async false

namespace Sys2Proof.Machine

variable {s : State} {m : Lane} {b : Bool}

/-! Lines. -/

/-- A LINE frame's length is what its fields say (R261). -/
def lineWhole (f : HdmLine) : Bool := if f.zeroLine then f.levels.isEmpty else f.levels.length == f.elements

/-- The line as it is held for its head (R262). -/
def heldOf (f : HdmLine) : HeldLine :=
  { tag := f.number % 2 ^ 16, number := f.number % 2 ^ 32, bar := f.bar,
    levels := if f.zeroLine then List.replicate f.elements 0 else f.levels }

theorem exec_hdmLineFrame_held {f : HdmLine} (h : ((s.hdm m.val).input b).lock = true) (w : lineWhole f = true) :
    exec (.hdmLineFrame m b f true) s = .next (s.modHdm m.val fun x => { x with held := kvPut x.held f.head (heldOf f) }) := by
  have run : exec (.hdmLineFrame m b f true) s = execHdmLineFrame m b f true s := rfl
  rw [run, execHdmLineFrame, State.onHdm_locked h]
  exact congrArg Host.Outcome.next (congrArg (s.modHdm m.val) (funext fun _ => if_pos ⟨rfl, w⟩))

theorem exec_hdmLineFrame_discarded (f : HdmLine) (h : ((s.hdm m.val).input b).lock = true) :
    exec (.hdmLineFrame m b f false) s = .next (s.modHdm m.val fun x =>
      { x.modInput b (fun i => { i with crcErrors := i.crcErrors + 1 }) with held := kvDel x.held f.head }) := by
  have run : exec (.hdmLineFrame m b f false) s = execHdmLineFrame m b f false s := rfl
  rw [run, execHdmLineFrame, State.onHdm_locked h]
  exact congrArg Host.Outcome.next (congrArg (s.modHdm m.val) (funext fun _ => if_neg fun taken => by cases taken.1))

/-! Tokens. -/

/-- The module once a band that a SYNC announced has come into force (R278). -/
def Hdm.banded (h : Hdm) : Hdm := { h with band := h.nextBand.getD h.band, nextBand := none }

/-- The checks of a token pass: its Crc16 is right, its input owns the heads, and at HL3 it carries that owner's generation
(R263, R268). -/
structure Hdm.TokenGood (h : Hdm) (hl1 b : Bool) (hd : TokenHead) (n : BitVec 32) (g e : BitVec 16) (k : Option (BitVec 16)) : Prop where
  crc : k.map (·.toNat) = some (tokenCrc hd g.toNat e.toNat n.toNat)
  owner : h.owner hl1 b = 1
  generation : h.version = 3 → (h.input b).gen % 2 ^ 16 = e.toNat

/-- The checks as the module makes them. -/
theorem Hdm.tokenGood_iff {h : Hdm} {hl1 : Bool} {hd : TokenHead} {n : BitVec 32} {g e : BitVec 16} {k : Option (BitVec 16)} :
    (k.any (fun c => c.toNat == tokenCrc hd g.toNat e.toNat n.toNat) && h.owner hl1 b == 1
      && (h.version != 3 || (h.input b).gen % 2 ^ 16 == e.toNat)) = true ↔ h.TokenGood hl1 b hd n g e k := by
  have crc : k.any (fun c => c.toNat == tokenCrc hd g.toNat e.toNat n.toNat) = true ↔
      k.map (·.toNat) = some (tokenCrc hd g.toNat e.toNat n.toNat) := by
    cases k <;> simp
  have generation : (h.version != 3 || (h.input b).gen % 2 ^ 16 == e.toNat) = true ↔
      (h.version = 3 → (h.input b).gen % 2 ^ 16 = e.toNat) := by
    simp [imp_iff_not_or]
  rw [Bool.and_eq_true, Bool.and_eq_true, crc, generation, beq_iff_eq]
  exact ⟨fun ⟨⟨c, o⟩, v⟩ => ⟨c, o, v⟩, fun ⟨c, o, v⟩ => ⟨⟨c, o⟩, v⟩⟩

/-- The held lines that a token fires: those with its LineTag and its line number (R263). -/
def Hdm.matching (h : Hdm) (g : BitVec 16) (n : BitVec 32) : List (Nat × HeldLine) :=
  h.held.filter fun x => x.2.tag == g.toNat && x.2.number == n.toNat

/-- The module once it has fired for a token: no line held, the token counted, and the held lines of other tags counted as
mismatches (R268, R269). -/
def Hdm.firedFor (h : Hdm) (g : BitVec 16) : Hdm :=
  { h.banded with held := [], fired := (h.fired + 1) % 2 ^ 32,
                  mismatches := (h.mismatches + (h.held.filter fun x => x.2.tag != g.toNat).length) % 2 ^ 16 }

/-- The module once it has rejected a token: no line held, the rejection counted (R268). -/
def Hdm.rejecting (h : Hdm) : Hdm := { h.banded with held := [], rejects := (h.rejects + 1) % 2 ^ 16 }

/-- The state once these have left, oldest first. -/
def State.emits (s : State) (l : List Emission) : State := { s with sent := s.sent ++ l }

theorem State.emits_sent (s : State) (l : List Emission) : (s.emits l).sent = s.sent ++ l := rfl

theorem State.emits_hdm (s : State) (l : List Emission) (k : Nat) : (s.emits l).hdm k = s.hdm k := rfl

theorem forEach_emit {α : Type} (l : List α) (f : α → Emission) (s : State) :
    forEach l (fun a s => s.emit (f a)) s = s.emits (l.map f) := by
  induction l generalizing s with
  | nil => simp [forEach, State.emits]
  | cons a l ih => rw [forEach_cons, ih]; simp [State.emits, State.emit]

/-- What leaves a module that fires for a token: each matching line, with the delay and the drive of the module (R263, R269). -/
def State.fires (s : State) (m : Nat) (b : Bool) (hd : TokenHead) (n : BitVec 32) (g : BitVec 16) : List Emission :=
  ((s.hdm m).matching g n).map fun x => .hdm m b (.fire x.1 hd.bar.toNat n.toNat x.2.levels
    (hd.delay.toNat + (Config.hdmCap m).fireOffset) (s.hdm m).drives)

theorem exec_hdmToken_fires {hd : TokenHead} {n : BitVec 32} {g e : BitVec 16} {k : Option (BitVec 16)}
    (h : ((s.hdm m.val).input b).lock = true) (good : (s.hdm m.val).TokenGood (hdmIsHl1 m.val) b hd n g e k) :
    exec (.hdmToken m b hd n g e k) s =
      .next ((s.modHdm m.val fun _ => (s.hdm m.val).firedFor g).emits (s.fires m.val b hd n g)) := by
  have run : exec (.hdmToken m b hd n g e k) s = execHdmToken m b hd n g e k s := rfl
  rw [run, execHdmToken, State.onHdm_locked h]
  have passed := Hdm.tokenGood_iff.2 good
  exact congrArg Host.Outcome.next ((if_neg fun failed =>
    absurd ((congrArg not passed).symm.trans failed) (by decide)).trans (forEach_emit _ _ _))

theorem exec_hdmToken_rejected {hd : TokenHead} {n : BitVec 32} {g e : BitVec 16} {k : Option (BitVec 16)}
    (h : ((s.hdm m.val).input b).lock = true) (bad : ¬ (s.hdm m.val).TokenGood (hdmIsHl1 m.val) b hd n g e k) :
    exec (.hdmToken m b hd n g e k) s = .next (s.modHdm m.val fun _ => (s.hdm m.val).rejecting) := by
  have run : exec (.hdmToken m b hd n g e k) s = execHdmToken m b hd n g e k s := rfl
  rw [run, execHdmToken, State.onHdm_locked h]
  have failed := Bool.eq_false_iff.2 (mt Hdm.tokenGood_iff.1 bad)
  exact congrArg Host.Outcome.next (if_pos (congrArg not failed))

end Sys2Proof.Machine
end

section
/-! PROOFS. Frames that a head driver module answers (R264, R272, R277, R278, R286): SYNC, TABLE, CAP and MEAS, and its Status STATs. -/

set_option Elab.async false

namespace Sys2Proof.Machine

variable {s : State} {m : Lane} {b : Bool}

/-! SYNC. -/

/-- The module once a SYNC has announced a band; only HL3 has bands at the module (R278). -/
def Hdm.announced (h : Hdm) (d : BitVec 8) : Hdm := if h.version = 3 ∧ d.toNat ≤ 3 then { h with nextBand := some d.toNat } else h

theorem Hdm.announced_nextBand (h : Hdm) (d : BitVec 8) :
    (h.announced d).nextBand = if h.version = 3 ∧ d.toNat ≤ 3 then some d.toNat else h.nextBand := by
  unfold Hdm.announced; split <;> rfl

theorem Hdm.announced_input (h : Hdm) (d : BitVec 8) (b : Bool) : (h.announced d).input b = h.input b := by
  unfold Hdm.announced; split <;> rfl

theorem exec_hdmSyncFrame_plain (d : BitVec 8) (h : ((s.hdm m.val).input b).lock = true) :
    exec (.hdmSyncFrame m b d 0) s = .next (s.modHdm m.val fun x => x.announced d) := by
  have run : exec (.hdmSyncFrame m b d 0) s = execHdmSyncFrame m b d 0 s := rfl
  rw [run, execHdmSyncFrame, State.onHdm_locked h]
  rfl

theorem State.freeBelow_lt (s : State) {n : Nat} (h : 0 < n) : (s.freeBelow n).1 < n := by
  unfold State.freeBelow
  rw [if_neg (Nat.pos_iff_ne_zero.1 h)]
  exact Nat.mod_lt _ h

/-- The turnaround that the Echo STAT carries is the module's own, up to its greatest (R274). -/
theorem exec_hdmSyncFrame_echo (d : BitVec 8) {e : BitVec 16} (h : ((s.hdm m.val).input b).lock = true) (he : e ≠ 0) :
    ∃ (u : State) (k : Nat), exec (.hdmSyncFrame m b d e) s = .next (u.hdmSend m.val b (.echo e.toNat k)) ∧
      k ≤ (Config.hdmCap m.val).maxTurnaround * 8 / 5 ∧ u.sent = s.sent ∧ u.hdm m.val = (s.hdm m.val).announced d := by
  have run : exec (.hdmSyncFrame m b d e) s = execHdmSyncFrame m b d e s := rfl
  rw [run, execHdmSyncFrame, State.onHdm_locked h]
  extract_lets u
  have announced : u.hdm m.val = (s.hdm m.val).announced d := s.hdm_modHdm_self m.isLt _
  have sent : u.sent = s.sent := State.modHdm_sent ..
  clear_value u
  exact ⟨_, _, congrArg Host.Outcome.next (if_neg he), Nat.le_of_lt_succ (State.freeBelow_lt u (Nat.succ_pos _)), sent, announced⟩

/-! TABLE. -/

theorem exec_hdmTableFrame_damaged (v q : BitVec 8) (w : Bytes) (h : ((s.hdm m.val).input b).lock = true) :
    exec (.hdmTableFrame m b v q w false) s = .next ((s.modHdm m.val fun x =>
      x.modInput b fun i => { i with crcErrors := i.crcErrors + 1 }).hdmSend m.val b (.tableAck q.toNat 1)) := by
  have run : exec (.hdmTableFrame m b v q w false) s = execHdmTableFrame m b v q w false s := rfl
  rw [run, execHdmTableFrame, State.onHdm_locked h]
  rfl

theorem exec_hdmTableFrame_malformed {v : BitVec 8} (q : BitVec 8) {w : Bytes} (h : ((s.hdm m.val).input b).lock = true)
    (bad : w = [] ∨ waveOk w = false ∨ v = 0 ∨ 7 < v.toNat) :
    exec (.hdmTableFrame m b v q w true) s = .next (s.hdmSend m.val b (.tableAck q.toNat 2)) := by
  have refused : w.isEmpty ∨ !waveOk w ∨ v = 0 ∨ 7 < v.toNat := by simpa using bad
  have run : exec (.hdmTableFrame m b v q w true) s = execHdmTableFrame m b v q w true s := rfl
  rw [run, execHdmTableFrame, State.onHdm_locked h]
  extract_lets r u
  have verdict : r = 2 := (if_neg (by simp)).trans (if_pos refused)
  have same : u = s := by simp [u, verdict]
  rw [verdict, same]

theorem exec_hdmTableFrame_otherKind {v : BitVec 8} (q : BitVec 8) {w : Bytes} (h : ((s.hdm m.val).input b).lock = true)
    (good : ¬ (w = [] ∨ waveOk w = false ∨ v = 0 ∨ 7 < v.toNat)) (hk : leAt w 0 1 ≠ (Config.hdmCap m.val).kind) :
    exec (.hdmTableFrame m b v q w true) s = .next (s.hdmSend m.val b (.tableAck q.toNat 3)) := by
  have formed : ¬ (w.isEmpty ∨ !waveOk w ∨ v = 0 ∨ 7 < v.toNat) := by simpa using good
  have run : exec (.hdmTableFrame m b v q w true) s = execHdmTableFrame m b v q w true s := rfl
  rw [run, execHdmTableFrame, State.onHdm_locked h]
  extract_lets r u
  have verdict : r = 3 := (if_neg (by simp)).trans ((if_neg formed).trans (if_pos hk))
  have same : u = s := by simp [u, verdict]
  rw [verdict, same]

theorem exec_hdmTableFrame_taken {v : BitVec 8} (q : BitVec 8) {w : Bytes} (h : ((s.hdm m.val).input b).lock = true)
    (good : ¬ (w = [] ∨ waveOk w = false ∨ v = 0 ∨ 7 < v.toNat)) (hk : leAt w 0 1 = (Config.hdmCap m.val).kind) :
    exec (.hdmTableFrame m b v q w true) s = .next ((s.modHdm m.val fun x =>
      { x with tables := kvPut x.tables v.toNat w }).hdmSend m.val b (.tableAck q.toNat 0)) := by
  have formed : ¬ (w.isEmpty ∨ !waveOk w ∨ v = 0 ∨ 7 < v.toNat) := by simpa using good
  have run : exec (.hdmTableFrame m b v q w true) s = execHdmTableFrame m b v q w true s := rfl
  rw [run, execHdmTableFrame, State.onHdm_locked h]
  extract_lets r u
  have verdict : r = 0 := (if_neg (by simp)).trans ((if_neg formed).trans (if_neg (not_not.2 hk)))
  have put : u = s.modHdm m.val fun x => { x with tables := kvPut x.tables v.toNat w } := if_pos verdict
  rw [verdict, put]

/-! CAP. -/

/-- The module once the device has named a version; 0 names none (R272). -/
def Hdm.agreed (h : Hdm) (v : BitVec 8) : Hdm := if v = 0 then h else { h with version := v.toNat }

theorem Hdm.agreed_version (h : Hdm) (v : BitVec 8) : (h.agreed v).version = if v = 0 then h.version else v.toNat := by
  unfold Hdm.agreed; split <;> rfl

theorem Hdm.agreed_input (h : Hdm) (v : BitVec 8) (b : Bool) : (h.agreed v).input b = h.input b := by
  unfold Hdm.agreed; split <;> rfl

theorem exec_hdmCapFrame (v : BitVec 8) (h : ((s.hdm m.val).input b).lock = true) :
    exec (.hdmCapFrame m b v) s = .next ((s.modHdm m.val fun x => x.agreed v).hdmSend m.val b
      (.cap { Config.hdmCap m.val with chosen := v.toNat, input := b2n b })) := by
  have run : exec (.hdmCapFrame m b v) s = execHdmCapFrame m b v s := rfl
  rw [run, execHdmCapFrame, State.onHdm_locked h]
  rfl

/-! MEAS. -/

/-- A MEAS is answered with one MeasResult: refused where another input owns the heads or the module knows HL1 alone, out of range, or
with no reading, or with the elements' readings (R264, R286). -/
theorem exec_hdmMeasFrame (hd f n : BitVec 16) (k g : BitVec 8) (h : ((s.hdm m.val).input b).lock = true) :
    ∃ (i : Nat) (r : MeasResult),
      exec (.hdmMeasFrame m b hd f n k g) s = .next (({ s with fresh := i } : State).hdmSend m.val b (.measResult r)) ∧
      r.tag = g ∧ r.first = f ∧ r.kind = k ∧
      (((s.hdm m.val).owner (hdmIsHl1 m.val) b ≠ 1 ∧
        ((s.hdm m.val).owner (hdmIsHl1 m.val) false = 1 ∨ (s.hdm m.val).owner (hdmIsHl1 m.val) true = 1)) → r.result = 1) ∧
      ((n = 0 ∨ 64 < n.toNat) → r.result = 1 ∨ r.result = 3) ∧
      (r.result = 0 → r.values = (List.range n.toNat).map fun i =>
        BitVec.ofNat 16 (Config.element m.val hd.toNat (f.toNat + i) k.toNat)) := by
  have run : exec (.hdmMeasFrame m b hd f n k g) s = execHdmMeasFrame m b hd f n k g s := rfl
  rw [run, execHdmMeasFrame, State.onHdm_locked h]
  extract_lets x c hl1 owned kinds ok inRange answer
  by_cases refused : (!ok || hl1) = true
  · refine ⟨s.fresh, _, congrArg Host.Outcome.next (if_pos refused), rfl, rfl, rfl, fun _ => rfl, fun _ => .inl rfl, fun e => ?_⟩
    cases e
  have mine : ¬ (x.owner hl1 b ≠ 1 ∧ (x.owner hl1 false = 1 ∨ x.owner hl1 true = 1)) := by
    rintro ⟨other, elsewhere⟩
    refine refused ?_
    simp only [ok, owned]
    obtain e | e := elsewhere <;> simp [other, e]
  by_cases outside : (!inRange) = true
  · refine ⟨s.fresh, _, congrArg Host.Outcome.next ((if_neg refused).trans (if_pos outside)), rfl, rfl, rfl, fun o => absurd o mine,
      fun _ => .inr rfl, fun e => ?_⟩
    cases e
  have within : ¬ (n = 0 ∨ 64 < n.toNat) := by
    rintro (rfl | large)
    · exact outside (by simp [inRange])
    · exact outside (by simp [inRange, Nat.not_le.2 large])
  by_cases unread : (s.freeBelow 2).1 = 1
  · refine ⟨s.fresh + 1, _, congrArg Host.Outcome.next ((if_neg refused).trans ((if_neg outside).trans (if_pos unread))), rfl, rfl, rfl,
      fun o => absurd o mine, fun o => absurd o within, fun e => ?_⟩
    cases e
  · exact ⟨s.fresh + 1, _, congrArg Host.Outcome.next ((if_neg refused).trans ((if_neg outside).trans (if_neg unread))), rfl, rfl, rfl,
      fun o => absurd o mine, fun o => absurd o within, fun _ => rfl⟩

/-! Status STATs. -/

/-- A Status STAT on an input with block lock, none on one without. -/
def State.hdmReport (s : State) (m : Nat) (b : Bool) : State := if ((s.hdm m).input b).lock then s.hdmStatus m b else s

theorem exec_hdmStatusInterval (s : State) (m : Lane) :
    exec (.hdmStatusInterval m) s = .next ((s.hdmReport m.val false).hdmReport m.val true) := rfl

theorem State.hdmReport_unlocked {m : Nat} (h : ((s.hdm m).input b).lock = false) : s.hdmReport m b = s := if_neg (by simp [h])

/-- A Status STAT leaves on an input with block lock, with the module's counters in it (R264); the other input is as it was. -/
theorem State.hdmReport_locked {m : Nat} (hm : m < 32) (h : ((s.hdm m).input b).lock = true) : ∃ x : HdmStatus,
    (s.hdmReport m b).sent = s.sent ++ s.hdmSent m b (.status x) ∧ x.fired = BitVec.ofNat 32 (s.hdm m).fired ∧
      x.rejects = BitVec.ofNat 16 (s.hdm m).rejects ∧ x.mismatches = BitVec.ofNat 16 (s.hdm m).mismatches ∧
      ((s.hdmReport m b).hdm m).input (!b) = (s.hdm m).input (!b) := by
  obtain ⟨n, x, sends, counters⟩ := s.hdmStatus_sends m b
  have reported : s.hdmReport m b = _ := (if_pos h).trans sends
  refine ⟨x, ?_, counters.1, counters.2.1, counters.2.2, ?_⟩
  · rw [reported, State.hdmSend_sent]; rfl
  · rw [reported, State.hdmSend_hdm _ hm, Hdm.input_modInput_not]; rfl

/-! Block lock gained (R264, R277). -/

theorem exec_hdmBlockAligned_none (s : State) (h : (b && hdmIsHl1 m.val) = true) : exec (.hdmBlockAligned m b) s = .next s := if_pos h

/-- An input that gains block lock sends its CAP, with no version chosen, and then a Status STAT. -/
theorem exec_hdmBlockAligned (s : State) (h : (b && hdmIsHl1 m.val) = false) : ∃ t x, exec (.hdmBlockAligned m b) s = .next t ∧
    ((t.hdm m.val).input b).lock = true ∧
    t.sent = s.sent ++ s.hdmSent m.val b (.cap { Config.hdmCap m.val with chosen := 0, input := b2n b }) ++
      [.hdm m.val b (.status x), .hdmFrame m.val b (hdmBlocks ((((s.hdm m.val).input b).frameSeq + 1) % 256) (.status x))] := by
  have run : exec (.hdmBlockAligned m b) s = execHdmBlockAligned m b s := rfl
  rw [run, execHdmBlockAligned, if_neg (by simp [h])]
  extract_lets u
  have sent : (u.hdmCap m.val b 0).sent = s.sent ++ s.hdmSent m.val b (.cap { Config.hdmCap m.val with chosen := 0, input := b2n b }) :=
    State.hdmSend_modHdm_sent s m.isLt (by rw [Hdm.input_modInput_self]) _
  have input : ((u.hdmCap m.val b 0).hdm m.val).input b = HdmIn.counted { (s.hdm m.val).input b with lock := true } := by
    have held : (u.hdmCap m.val b 0).hdm m.val = _ := State.hdmSend_modHdm_hdm s m.isLt b _ _
    rw [held, Hdm.input_modInput_self, Hdm.input_modInput_self]
  clear_value u
  obtain ⟨n, x, sends, -⟩ := (u.hdmCap m.val b 0).hdmStatus_sends m.val b
  refine ⟨_, x, rfl, ?_, ?_⟩
  · rw [sends, State.hdmSend_hdm _ m.isLt, Hdm.input_modInput_self]
    exact congrArg HdmIn.lock input
  · rw [sends, State.hdmSend_sent]
    refine congrArg₂ (· ++ ·) sent ?_
    have seq : ((({ u.hdmCap m.val b 0 with fresh := n } : State).hdm m.val).input b).frameSeq =
        (((s.hdm m.val).input b).frameSeq + 1) % 256 := congrArg HdmIn.frameSeq input
    rw [State.hdmSent, seq]

end Sys2Proof.Machine
end

section
/-! PROOFS. Head driver modules: ownership (R267, R268), no frame without block lock (R277), and the obligation O52. -/

set_option Elab.async false

namespace Sys2Proof.Machine

variable {s : State} {m : Lane} {b : Bool}

/-! Ownership. -/

theorem exec_hdmOwnerFrame (a : Bool) (g : BitVec 32) (v : BitVec 16) (h : ((s.hdm m.val).input b).lock = true) :
    exec (.hdmOwnerFrame m b a g v) s = .next (s.modHdm m.val fun x =>
      { x.modInput b (fun i => { i with claims := v != 0, gen := g.toNat }) with genMax := max x.genMax g.toNat }) := by
  have run : exec (.hdmOwnerFrame m b a g v) s = execHdmOwnerFrame m b a g v s := rfl
  rw [run, execHdmOwnerFrame, State.onHdm_locked h]

theorem exec_hdmRelease (h : ((s.hdm m.val).input b).lock = true) :
    exec (.hdmRelease m b) s = .next (s.modHdm m.val fun x => x.modInput b fun i => { i with claims := false }) := by
  have run : exec (.hdmRelease m b) s = execHdmRelease m b s := rfl
  rw [run, execHdmRelease, State.onHdm_locked h]

/-- An input of a module changed, the other left as it was. -/
theorem State.modInput_input (s : State) (m : Lane) (b : Bool) (f : HdmIn → HdmIn) :
    ((s.modHdm m.val fun x => x.modInput b f).hdm m.val).input b = f ((s.hdm m.val).input b) ∧
      ((s.modHdm m.val fun x => x.modInput b f).hdm m.val).input (!b) = (s.hdm m.val).input (!b) := by
  rw [s.hdm_modHdm_self m.isLt]
  exact ⟨Hdm.input_modInput_self .., Hdm.input_modInput_not ..⟩

/-! The obligation. -/

theorem exec_hdm_unlocked (h : ((s.hdm m.val).input b).lock = false) :
    (∀ f k, exec (.hdmLineFrame m b f k) s = .next s) ∧ (∀ hd n g (e : BitVec 16) k, exec (.hdmToken m b hd n g e k) s = .next s) ∧
    (∀ (a : Bool) g v, exec (.hdmOwnerFrame m b a g v) s = .next s) ∧ exec (.hdmRelease m b) s = .next s ∧
    (∀ d (e : BitVec 16), exec (.hdmSyncFrame m b d e) s = .next s) ∧
    (∀ v (q : BitVec 8) w k, exec (.hdmTableFrame m b v q w k) s = .next s) ∧
    (∀ v, exec (.hdmCapFrame m b v) s = .next s) ∧ (∀ d f n k g, exec (.hdmMeasFrame m b d f n k g) s = .next s) := by
  have off : ¬ ((s.hdm m.val).input b).lock = true := by simp [h]
  have same {t : State} : (.next (if ((s.hdm m.val).input b).lock then t else s) : Host.Outcome State Fault Refusal) = .next s :=
    congrArg Host.Outcome.next (if_neg off)
  exact ⟨fun _ _ => same, fun _ _ _ _ _ => same, fun _ _ _ => same, same, fun _ _ => same, fun _ _ _ _ => same, fun _ => same,
    fun _ _ _ _ _ => same⟩

/-- Settles O52: each frame is what the module and its input become (`exec_hdm…`) and what is sent on the input; without block lock
there is no frame. -/
theorem headModulesObey : Obligations.HeadModulesObey := by
  unfold Obligations.HeadModulesObey
  refine ⟨fun s m b f lock => ⟨fun whole => ?_, ?_⟩, fun s m b hd n g e k lock => ⟨fun owns generation crc => ?_, fun bad => ?_⟩,
    fun s m b a g v lock => ⟨?_, ?_⟩, fun s m b => ⟨?_, ?_⟩, fun s m b d e lock => ?_,
    fun s m b v q w lock => ⟨?_, fun bad => ?_, fun listed sound named small => ?_⟩, fun s m b v lock => ?_,
    fun s m b hd f n k g lock => ?_, fun s m lockA noneB => ?_, fun s m lockA lockB => ?_, fun s m b => ?_,
    fun s m b silent => exec_hdm_unlocked silent⟩
  · refine ⟨_, exec_hdmLineFrame_held lock whole, ?_, fun k other => ?_, fun k other => s.hdm_modHdm_ne other _,
      State.modHdm_moves.only⟩
    · rw [s.hdm_modHdm_self m.isLt]
      exact kvGet_kvPut_self ..
    · rw [s.hdm_modHdm_self m.isLt]
      exact kvGet_kvPut_ne _ _ other
  · refine ⟨_, exec_hdmLineFrame_discarded f lock, ?_, ?_, fun k other => s.hdm_modHdm_ne other _, State.modHdm_moves.only⟩
    · rw [s.hdm_modHdm_self m.isLt]
      exact kvGet_kvDel_self ..
    · rw [s.hdm_modHdm_self m.isLt]
      exact congrArg HdmIn.crcErrors (Hdm.input_modInput_self ..)
  · have run := exec_hdmToken_fires lock ⟨crc, owns, generation⟩
    have fired : ((s.modHdm m.val fun _ => (s.hdm m.val).firedFor g).emits (s.fires m.val b hd n g)).hdm m.val =
        (s.hdm m.val).firedFor g := (State.emits_hdm ..).trans (s.hdm_modHdm_self m.isLt _)
    exact ⟨_, run, congrArg Hdm.held fired, congrArg Hdm.fired fired, (congrArg Hdm.rejects fired).trans rfl,
      (State.emits_sent ..).trans (congrArg (· ++ _) (State.modHdm_sent ..)), execHdmToken_moves.only run⟩
  · have failed : ¬ (s.hdm m.val).TokenGood (hdmIsHl1 m.val) b hd n g e k := by
      rintro ⟨crc, owns, generation⟩
      obtain wrong | other | ⟨three, stale⟩ := bad
      · exact wrong crc
      · exact other owns
      · exact stale (generation three)
    have rejected := s.hdm_modHdm_self m.isLt fun _ => (s.hdm m.val).rejecting
    exact ⟨_, exec_hdmToken_rejected lock failed, congrArg Hdm.held rejected, congrArg Hdm.rejects rejected,
      (congrArg Hdm.fired rejected).trans rfl, State.modHdm_moves.only⟩
  · refine ⟨_, exec_hdmOwnerFrame a g v lock, ?_⟩
    rw [s.hdm_modHdm_self m.isLt]
    have self := (s.hdm m.val).input_modInput_self b fun i => { i with claims := v != 0, gen := g.toNat }
    exact ⟨rfl, congrArg HdmIn.claims self, congrArg HdmIn.gen self, Hdm.input_modInput_not .., State.modHdm_moves.only⟩
  · obtain ⟨self, other⟩ := s.modInput_input m b fun i => { i with claims := false }
    exact ⟨_, exec_hdmRelease lock, self, other, State.modHdm_moves.only⟩
  · obtain ⟨self, other⟩ := s.modInput_input m b fun i => { i with claims := false }
    exact ⟨_, rfl, self, other, State.modHdm_moves.only⟩
  · obtain ⟨self, other⟩ := s.modInput_input m b fun i => { i with lock := false }
    exact ⟨_, rfl, self, Hdm.owner_unlocked (congrArg HdmIn.lock self) _, other, State.modHdm_moves.only⟩
  · by_cases plain : e = 0
    · subst plain
      have run := exec_hdmSyncFrame_plain d lock
      refine ⟨_, run, ?_, fun _ => State.modHdm_sent .., fun echo => absurd rfl echo, execHdmSyncFrame_moves.only run⟩
      rw [s.hdm_modHdm_self m.isLt, Hdm.announced_nextBand]
    · obtain ⟨u, k, run, least, sent, announced⟩ := exec_hdmSyncFrame_echo d lock plain
      refine ⟨_, run, ?_, fun absent => absurd absent plain, fun _ => ⟨k, ?_, least⟩, execHdmSyncFrame_moves.only run⟩
      · rw [State.hdmSend_hdm _ m.isLt, announced, Hdm.modInput_nextBand, Hdm.announced_nextBand]
      · rw [State.hdmSend_sent, sent, State.hdmSent_congr (s := s) (by rw [announced, Hdm.announced_input])]
  · have run := exec_hdmTableFrame_damaged v q w lock
    refine ⟨_, run, s.hdmSend_modHdm_sent m.isLt (by rw [Hdm.input_modInput_self]) _, ?_, execHdmTableFrame_moves.only run⟩
    rw [State.hdmSend_modHdm_hdm _ m.isLt, Hdm.modInput_tables, Hdm.modInput_tables]
  · have run := exec_hdmTableFrame_malformed q lock bad
    refine ⟨_, run, s.hdmSend_sent .., ?_, execHdmTableFrame_moves.only run⟩
    rw [State.hdmSend_hdm _ m.isLt, Hdm.modInput_tables]
  · have good : ¬ (w = [] ∨ waveOk w = false ∨ v = 0 ∨ 7 < v.toNat) := by
      rintro (e | e | e | e)
      · exact listed e
      · cases sound.symm.trans e
      · exact named e
      · exact absurd small (Nat.not_le.2 e)
    by_cases kind : leAt w 0 1 = (Config.hdmCap m.val).kind
    · have run := exec_hdmTableFrame_taken q lock good kind
      refine ⟨_, run, (if_pos kind).mpr ⟨s.hdmSend_modHdm_sent m.isLt rfl _, ?_⟩, execHdmTableFrame_moves.only run⟩
      rw [State.hdmSend_modHdm_hdm _ m.isLt, Hdm.modInput_tables]
      exact kvGet_kvPut_self ..
    · have run := exec_hdmTableFrame_otherKind q lock good kind
      refine ⟨_, run, (if_neg kind).mpr ⟨s.hdmSend_sent .., ?_⟩, execHdmTableFrame_moves.only run⟩
      rw [State.hdmSend_hdm _ m.isLt, Hdm.modInput_tables]
  · have run := exec_hdmCapFrame v lock
    refine ⟨_, run, ?_, s.hdmSend_modHdm_sent m.isLt (by rw [Hdm.agreed_input]) _, execHdmCapFrame_moves.only run⟩
    rw [State.hdmSend_modHdm_hdm _ m.isLt, Hdm.modInput_version, Hdm.agreed_version]
  · obtain ⟨i, r, run, facts⟩ := exec_hdmMeasFrame hd f n k g lock
    obtain ⟨tag, first, kind, refused, outside, values⟩ := facts
    exact ⟨_, r, run, State.hdmSend_sent .., tag, first, kind, refused, outside, values, execHdmMeasFrame_moves.only run⟩
  · obtain ⟨x, sent, fired, rejects, mismatches, other⟩ := State.hdmReport_locked m.isLt lockA
    have quiet := State.hdmReport_unlocked (s := s.hdmReport m.val false) (b := true) ((congrArg HdmIn.lock other).trans noneB)
    have run := exec_hdmStatusInterval s m
    rw [quiet] at run
    exact ⟨_, x, run, sent, fired, rejects, mismatches, execHdmStatusInterval_moves.only run⟩
  · obtain ⟨x, sentA, -, -, -, other⟩ := State.hdmReport_locked m.isLt lockA
    obtain ⟨y, sentB, -⟩ := State.hdmReport_locked (s := s.hdmReport m.val false) (b := true) m.isLt
      ((congrArg HdmIn.lock other).trans lockB)
    have run := exec_hdmStatusInterval s m
    refine ⟨_, x, y, run, ?_, execHdmStatusInterval_moves.only run⟩
    rw [sentB, sentA, State.hdmSent_congr (s := s) (b := true) (congrArg HdmIn.frameSeq other)]
  · cases single : b && hdmIsHl1 m.val
    · obtain ⟨t, x, run, locked, sent⟩ := exec_hdmBlockAligned s single
      exact ⟨t, run, (if_neg Bool.false_ne_true).mpr ⟨locked, x, sent⟩, execHdmBlockAligned_moves.only run⟩
    · have run := exec_hdmBlockAligned_none s single
      exact ⟨s, run, (if_pos rfl).mpr rfl, execHdmBlockAligned_moves.only run⟩

end Sys2Proof.Machine
end

section
/-! PROOFS. Why leaving TEST need not leave every object but the two error counts: in STANDBY the lane goes on to DEEP, and a lane that
goes to DEEP has its SyncHeaderRun set to 0 (R271, R275). -/

set_option Elab.async false

namespace Sys2Proof.Machine

variable {s : State} {h : Hdr} {l : Lane} {x : Session}

theorem State.laneDeep_headerRun (s : State) (l : Nat) : (s.laneDeep l).num 0x2A19 (l + 1) = 0 := State.num_setNum_self ..

/-- A lane's test pattern and its checker stopped (R280). -/
def State.testStops (s : State) (l : Nat) : State :=
  (s.checkerStops l).modLane l fun x => { x with tx := { x.tx with prbs := none, inject := 0 } }

theorem State.laneCommand_leavesTest {l : Nat} (hb : s.boltedLane l = false) (ht : (s.lane l).st = .test)
    (hd : s.pwr.dev = .standby) : s.laneCommand l 3 = .ok ((s.testStops l).laneDeep l) := by
  have still : (s.testStops l).pwr = s.pwr := Moves.same (.after State.modLane_moves State.checkerStops_moves) .pwr
  have stopped : s.laneCommand l 3 = .ok (if (s.testStops l).pwr.dev = .standby then (s.testStops l).laneDeep l
      else (s.testStops l).modLane l fun x => { x with st := .down }) :=
    (if_neg (by simp [hb])).trans (if_pos ht)
  rw [stopped, if_pos (by rw [still, hd])]

theorem laneCommand_sized : ∀ l : Lane, ((findDesc 0x2A1F (l.val + 1)).bind (·.ty.size)).isSome = true := by decide

/-- A lane that leaves TEST in STANDBY reads a SyncHeaderRun of 0. -/
theorem laneLeaveTest_headerRun (w : WriteTaken s h 0x2A1F (l.val + 1) (u8 3) x) (hb : s.boltedLane l.val = false)
    (ht : (s.lane l.val).st = .test) (hd : s.pwr.dev = .standby) :
    ∃ t, exec (.laneLeaveTest h l) s = .next t ∧ t.num 0x2A19 (l.val + 1) = 0 := by
  obtain ⟨d, allowed⟩ := w.allowed
  have value : d.value (u8 3) = .num 3 := Desc.value_num allowed.described _ (laneCommand_sized l)
  have leaves := State.laneCommand_leavesTest (s := s.heard x.sid) hb ht hd
  obtain ⟨t, run, -, rest⟩ := w.done allowed.described (by simp) (by rw [value]; exact congrArg some leaves)
  exact ⟨t, run, (State.num_congr (rest .objs (by decide)) _ _).trans (State.laneDeep_headerRun ..)⟩

/-- A device in STANDBY with every domain ON, reachable at address 9, with lane 0 in TEST and a SyncHeaderRun of 5 there. -/
def testInStandby : State :=
  { State.reset with
    objs := [(key 0x2012 1, .num 0x8000), (key 0x2020 2, .num 9), (key 0x2A19 1, .num 5)]
    pwr := { Pwr.start with dev := .standby, doms := Vector.replicate 12 .on }
    wilwa := { Wilwa.start with sessions := #v[some roleSession, none, none, none] }
    hlk := { Hlk.start with lanes := vmod Hlk.start.lanes 0 fun x => { x with st := .test } } }

/-- The Write of LaneCommand = 3 is the session's next request, and R72 lets it through. -/
theorem laneLeaveTest_taken : WriteTaken testInStandby roleHdr 0x2A1F 1 (u8 3) roleSession where
  accepted :=
    { admitted :=
        { serves := by decide
          address := by decide
          opened := by decide
          tagged := by decide
          header := by decide
          version := by decide
          message := by decide }
      sequence := by decide }
  allowed := ⟨Desc.mk 0x2A1F 0x2A1F 1 32 "LaneCommand" .u8 .wo .free 1 1 (.num 0) [(1, 3, 1)],
    { described := by decide
      version := by decide
      level := by decide
      writable := by decide
      notTransfer := by decide
      length := by decide
      range := by decide
      powered := by decide
      moment := by decide
      unmapped := by decide }⟩

/-- Refutes O51: in `testInStandby` lane 0 leaves TEST for DEEP, and 2A19h:01 goes from 5 to 0, which the statement's frame of objects
leaves out. -/
theorem not_lanesInUse : ¬ Obligations.LanesInUse := by
  unfold Obligations.LanesInUse
  rintro ⟨-, -, -, -, -, -, -, -, -, -, -, commands, -⟩
  obtain ⟨-, -, -, -, leaves⟩ := commands testInStandby roleHdr 0 roleSession 3 (.laneLeaveTest roleHdr 0) (by decide)
    laneLeaveTest_taken
  obtain ⟨t, run, -, -, -, others, -⟩ := leaves (by decide) rfl (by decide)
  obtain ⟨u, left, cleared⟩ := laneLeaveTest_headerRun laneLeaveTest_taken (l := 0) (by decide) (by decide) rfl
  have same : t = u := Host.Outcome.next.inj (run.symm.trans left)
  have kept : t.num 0x2A19 1 = testInStandby.num 0x2A19 1 := others.num
  have five : testInStandby.num 0x2A19 1 = 5 := by decide
  rw [same, five] at kept
  cases kept.symm.trans cleared

end Sys2Proof.Machine
end

section
/-! PROOFS. One head lane beside the others, a MEAS that leaves on a lane, and one MeasResults record beside the others (R288, R289). -/

set_option Elab.async false

namespace Sys2Proof.Machine

variable {s t u : State} {l k a b : Nat}

theorem State.lane_modLane_ne (s : State) (h : k ≠ l) (f : Hln → Hln) : (s.modLane l f).lane k = s.lane k := vget_vmod_ne _ _ _ h

/-- What a change of a lane keeps of it, it keeps of every lane. -/
theorem State.modLane_keeps {β : Type} (g : Hln → β) (s : State) {f : Hln → Hln} (h : ∀ x, g (f x) = g x) (k : Nat) :
    g ((s.modLane l f).lane k) = g (s.lane k) := by
  by_cases e : k = l
  · subst e
    rcases Nat.lt_or_ge k 32 with hk | hk
    · rw [s.lane_modLane_self hk, h]
    · exact congrArg g ((vget_of_ge _ _ hk).trans (vget_of_ge _ _ hk).symm)
  · rw [s.lane_modLane_ne e]

/-- A frame given to a lane's transmitter is no matter of what else the lane holds. -/
theorem State.laneSend_keeps {β : Type} (g : Hln → β) (s : State) (f : LaneTx)
    (h : ∀ x : Hln, g { x with tx := x.tx.ask f } = g x := by exact fun _ => rfl) (k : Nat) :
    g ((s.laneSend l f).lane k) = g (s.lane k) := State.modLane_keeps g _ h k

theorem State.laneSend_lane_ne (s : State) (h : k ≠ l) (f : LaneTx) : (s.laneSend l f).lane k = s.lane k :=
  State.lane_modLane_ne _ h _

/-- A lane that falls idle keeps its measurement. -/
theorem State.laneIdle_meas (s : State) (l k : Nat) : ((s.laneIdle l).lane k).meas = (s.lane k).meas := by
  unfold State.laneIdle
  split
  · rw [State.modLane_keeps Hln.meas]
    · simp only [List.replicate, List.foldl, State.sendRelease, State.laneSend_keeps Hln.meas]
    · exact fun _ => rfl
  · rfl

/-! A MEAS that leaves. -/

theorem State.measSend_eq (s : State) (l h f k : Nat) (retried : Bool) : ∃ n tag, s.measSend l (h, f, k) retried =
    (s.modLane l fun x => { x with measTag := tag, meas := some ⟨h, f, n, k, tag, retried⟩ }).laneSend l (.meas h f n k tag) :=
  ⟨_, _, rfl⟩

/-- The MEAS that left is the one the lane waits for. -/
theorem State.measSend_meas (s : State) (hl : l < 32) (h f k : Nat) (retried : Bool) :
    ∃ n tag, ((s.measSend l (h, f, k) retried).lane l).meas = some ⟨h, f, n, k, tag, retried⟩ := by
  obtain ⟨n, tag, e⟩ := s.measSend_eq l h f k retried
  refine ⟨n, tag, ?_⟩
  rw [e, State.laneSend_keeps Hln.meas, s.lane_modLane_self hl]

theorem State.measSend_lane_ne (s : State) (e : k ≠ l) (o : Nat × Nat × Nat) (retried : Bool) :
    (s.measSend l o retried).lane k = s.lane k := by
  obtain ⟨n, tag, eq⟩ := s.measSend_eq l o.1 o.2.1 o.2.2 retried
  rw [eq, State.laneSend_lane_ne _ e, s.lane_modLane_ne e]

/-- A lane but for what a measurement of its list changes: its tag, the MEAS that is out, the end of the list and what is sent. -/
def Hln.offMeas (x : Hln) : Hln := { x with measTag := 0, meas := none, measDone := false, tx := Tx.start }

theorem State.measSend_offMeas (s : State) (o : Nat × Nat × Nat) (retried : Bool) (k : Nat) :
    ((s.measSend l o retried).lane k).offMeas = (s.lane k).offMeas := by
  obtain ⟨n, tag, eq⟩ := s.measSend_eq l o.1 o.2.1 o.2.2 retried
  rw [eq, State.laneSend_keeps Hln.offMeas]
  exact State.modLane_keeps Hln.offMeas s (by exact fun _ => rfl) k

/-- What comes after a measurement depends on the lane's capability and the objects alone. -/
theorem State.measNext_congr (hc : (t.lane l).cap = (s.lane l).cap) (ho : t.objs = s.objs) (o : MeasOut) :
    t.measNext l o = s.measNext l o := by
  unfold State.measNext State.laneHeads
  rw [hc, State.num_congr ho, State.num_congr ho]

/-! MeasResults records. -/

theorem State.measRec_congr (h : t.hdg = s.hdg) (b a : Nat) : t.measRec b a = s.measRec b a := by
  unfold State.measRec
  rw [h]

theorem State.measRec_modMeas_self (s : State) (hb : b < 8) (a : Nat) (f : MeasRec → MeasRec) :
    (s.modMeas b a f).measRec b a = f (s.measRec b a) := by
  unfold State.measRec State.modMeas
  rw [vget_vmod_self _ _ _ hb]
  exact kvGet_kvSet_self ..

theorem State.measRec_modMeas_ne (s : State) {i : Nat} (h : i ≠ a) (b : Nat) (f : MeasRec → MeasRec) :
    (s.modMeas b a f).measRec b i = s.measRec b i := by
  unfold State.measRec State.modMeas
  rcases Nat.lt_or_ge b 8 with hb | hb
  · rw [vget_vmod_self _ _ _ hb, kvGet_kvSet_ne _ _ _ h]
  · rw [vget_of_ge _ _ hb, vget_of_ge _ _ hb]

theorem State.bytes_congr (h : t.objs = s.objs) (i j : Nat) : t.bytes i j = s.bytes i j := by
  unfold State.bytes
  rw [State.obj_congr h]

theorem State.map_congr (h : t.objs = s.objs) (b : Nat) : t.map b = s.map b := congrArg mapOf (State.bytes_congr h _ _)

theorem State.lanesOf_congr (h : t.objs = s.objs) (b : Nat) : t.lanesOf b = s.lanesOf b := by
  unfold State.lanesOf State.laneBar
  simp only [State.num_congr h]

theorem State.laneHeads_congr (h : t.objs = s.objs) (l : Nat) : t.laneHeads l = s.laneHeads l := by
  unfold State.laneHeads
  rw [State.num_congr h, State.num_congr h]

/-- The address of a bar is that of an element of a head of a lane. -/
structure State.MapsTo (s : State) (l a h el : Nat) : Prop where
  address : a < (s.map (s.laneBar l)).length
  head : ((s.map (s.laneBar l)).getD a default).head = s.barHead l h
  element : ((s.map (s.laneBar l)).getD a default).element = el

theorem State.MapsTo.congr {h el : Nat} (e : t.objs = s.objs) (m : s.MapsTo l a h el) : t.MapsTo l a h el := by
  have bar : t.laneBar l = s.laneBar l := State.num_congr e _ _
  have head : t.barHead l h = s.barHead l h := congrArg (· + h) (State.num_congr e _ _)
  constructor <;> rw [bar, State.map_congr e]
  exacts [m.address, m.head.trans head.symm, m.element]

/-- A reading is stored at the address of its element (R288). -/
theorem State.measStore_primary {h el v : Nat} (hb : s.laneBar l < 8) (m : s.MapsTo l a h el) {kind : Nat} (hk : kind ≠ 3) :
    ((s.measStore l h el kind v).measRec (s.laneBar l) a).primary = v := by
  have listed : a ∈ s.addressesWhere (s.laneBar l) fun hd e => hd == s.barHead l h && e == el :=
    List.mem_filter.2 ⟨List.mem_range.2 m.address, Bool.and_eq_true_iff.2 ⟨beq_iff_eq.2 m.head, beq_iff_eq.2 m.element⟩⟩
  have reads (t : State) : ((t.modMeas (s.laneBar l) a fun r => if kind = 3
      then { r with leak := v, status := if r.status = 1 then 0 else r.status }
      else { r with primary := v, capacitive := kind == 2, status := if kind = 1 then 0 else r.status }).measRec
        (s.laneBar l) a).primary = v := by
    rw [t.measRec_modMeas_self hb, if_neg hk]
  refine forEach_reaches (P := fun _ => True) (Q := fun t => (t.measRec (s.laneBar l) a).primary = v) listed (fun _ _ _ h => h)
    (fun i _ t ht => ?_) (fun t _ => reads t) trivial
  by_cases e : a = i
  · subst e
    exact reads t
  · exact (congrArg MeasRec.primary (t.measRec_modMeas_ne e _ _)).trans ht

/-- A reading of another element leaves the address as it was. -/
theorem State.measStore_other {h el e : Nat} (m : s.MapsTo l a h el) (ne : el ≠ e) (h' kind v : Nat) :
    (s.measStore l h' e kind v).measRec (s.laneBar l) a = s.measRec (s.laneBar l) a := by
  refine forEach_keeps (P := fun t => t.measRec (s.laneBar l) a = s.measRec (s.laneBar l) a) (fun i hi t ht => ?_) rfl
  obtain ⟨-, found⟩ := List.mem_filter.1 hi
  have apart : a ≠ i := by
    rintro rfl
    rw [m.element] at found
    simp [ne] at found
  rw [t.measRec_modMeas_ne apart, ht]

/-- The readings of a group stored, from element `first` on (R288). -/
def State.measStoreAll (s : State) (l h first kind n : Nat) (vs : List Nat) : State :=
  forRange n (fun i s => s.measStore l h (first + i) kind (vs.getD i 0)) s

theorem State.measStoreAll_moves {h first kind n : Nat} {vs : List Nat} : Moves [.hdg] s (s.measStoreAll l h first kind n vs) :=
  .forRange .refl fun _ _ h => .after State.measStore_moves h

/-- Each reading of the group ends up at the address of its element. -/
theorem State.measStoreAll_primary {h first kind n i : Nat} (vs : List Nat) (hb : s.laneBar l < 8) (hi : i < n)
    (m : s.MapsTo l a h (first + i)) (hk : kind ≠ 3) :
    ((s.measStoreAll l h first kind n vs).measRec (s.laneBar l) a).primary = vs.getD i 0 := by
  have bar {t : State} (e : t.objs = s.objs) : t.laneBar l = s.laneBar l := State.num_congr e _ _
  have stored (t : State) (e : t.objs = s.objs) :
      ((t.measStore l h (first + i) kind (vs.getD i 0)).measRec (s.laneBar l) a).primary = vs.getD i 0 := by
    have p := State.measStore_primary (v := vs.getD i 0) (by rwa [bar e]) (m.congr e) hk
    rwa [bar e] at p
  have objs {t : State} (j : Nat) (e : t.objs = s.objs) : (t.measStore l h (first + j) kind (vs.getD j 0)).objs = s.objs :=
    (State.measStore_moves.same .objs).trans e
  refine (forEach_reaches (P := fun t => t.objs = s.objs)
    (Q := fun t => t.objs = s.objs ∧ (t.measRec (s.laneBar l) a).primary = vs.getD i 0) (List.mem_range.2 hi) (fun j _ _ => objs j)
    (fun j _ t ⟨e, ht⟩ => ⟨objs j e, ?_⟩) (fun t e => ⟨objs i e, stored t e⟩) rfl).2
  by_cases same : i = j
  · subst same
    exact stored t e
  · have other := State.measStore_other (m.congr e) (e := first + j) (by omega) h kind (vs.getD j 0)
    rw [bar e] at other
    rw [other, ht]

end Sys2Proof.Machine
end

section
/-! PROOFS. What a running measurement keeps while bars are classed and lanes end, and the results and timeouts of a lane's MEAS
(R288 to R291). -/

set_option Elab.async false

namespace Sys2Proof.Machine

variable {ps : List StatePart} {s t u : State} {l : Lane} {o : MeasOut}

/-- From `s` to `t` a measurement goes on: it began when it did, it runs or has become complete, and no report is withdrawn. -/
structure RunGoesOn (s t : State) : Prop where
  startTick : t.hdg.startTick = s.hdg.startTick
  phase : s.hdg.phase = 1 ∨ s.hdg.phase = 2 → t.hdg.phase = 1 ∨ t.hdg.phase = 2
  raised : ∀ src cause, Raised src cause s → Raised src cause t

namespace RunGoesOn

theorem refl : RunGoesOn s s := ⟨rfl, id, fun _ _ => id⟩

theorem trans (h : RunGoesOn s t) (k : RunGoesOn t u) : RunGoesOn s u :=
  ⟨k.startTick.trans h.startTick, fun p => k.phase (h.phase p), fun a b r => k.raised a b (h.raised a b r)⟩

/-- A step applied to a state that has been reached. -/
theorem after (k : RunGoesOn t u) (h : RunGoesOn s t) : RunGoesOn s u := h.trans k

/-- A function that leaves HDG and FLT alone. -/
theorem of_moves (m : Moves ps s t) (hg : .hdg ∉ ps := by decide) (hf : .flt ∉ ps := by decide) : RunGoesOn s t := by
  have same : t.hdg = s.hdg := m.same .hdg hg
  exact ⟨by rw [same], by rw [same]; exact id, fun _ _ => .congr (m.same .flt hf)⟩

/-- An update of HDG that keeps the start and either keeps the phase or completes the run. -/
theorem hdg {x : Hdg} (hs : x.startTick = s.hdg.startTick) (hp : x.phase = s.hdg.phase ∨ x.phase = 2) :
    RunGoesOn s { s with hdg := x } :=
  ⟨hs, fun p => hp.elim (fun e => e ▸ p) .inr, fun _ _ => id⟩

theorem raise (s : State) (src cause : Nat) (d : Bytes) : RunGoesOn s (s.raise src cause d) where
  startTick := congrArg Hdg.startTick (State.raise_moves.same .hdg)
  phase p := by rwa [show (s.raise src cause d).hdg = s.hdg from State.raise_moves.same .hdg]
  raised _ _ := State.send_raised _

theorem forEach {α : Type} {xs : List α} {f : α → State → State} (h : ∀ a t, RunGoesOn t (f a t)) : RunGoesOn s (forEach xs f s) :=
  forEach_keeps (P := RunGoesOn s) (fun a _ t k => k.trans (h a t)) .refl

theorem ite {c : Prop} [Decidable c] (h : RunGoesOn s t) (k : RunGoesOn s u) : RunGoesOn s (if c then t else u) := by
  split <;> assumption

end RunGoesOn

/-! A bar that is classed, and a bar or a lane that is done. -/

theorem State.modMeas_goesOn (s : State) (b a : Nat) (f : MeasRec → MeasRec) : RunGoesOn s (s.modMeas b a f) := .hdg rfl (.inl rfl)

theorem State.autoHide_goesOn (s : State) (b : Nat) (newly : List Nat) : RunGoesOn s (s.autoHide b newly) := by
  unfold State.autoHide
  extract_lets hide k u wilwa v w x
  have shadow : RunGoesOn u v := by
    unfold v
    split
    · exact .of_moves (ps := [.wilwa]) (.wilwa .refl)
    · exact .refl
  have hidden : Moves [.objs, .fsq] v x := .after State.addNum_moves State.modBar_moves.mono
  exact (((RunGoesOn.of_moves State.setObj_moves).trans shadow).trans (.of_moves hidden)).trans (.raise ..)

theorem State.measClassify_goesOn (s : State) (b : Nat) : RunGoesOn s (s.measClassify b) := by
  unfold State.measClassify
  extract_lets i m addrs u live pending newly map hdg v weak missing w x y
  have classed : RunGoesOn s u := .forEach fun a t => t.modMeas_goesOn ..
  have mapped : RunGoesOn u v := .hdg rfl (.inl rfl)
  have counted : Moves [.objs] v w := .after State.setNum_moves (.after State.setNum_moves State.setNum_moves)
  have recorded : RunGoesOn s x := ((classed.trans mapped).trans (.of_moves counted)).trans (.raise ..)
  have told : RunGoesOn s y := by
    unfold y
    cases newly with
    | nil => exact recorded
    | cons f more => exact recorded.trans (.raise ..)
  exact .ite (told.trans (State.autoHide_goesOn ..)) told

theorem State.measBarDone_goesOn (s : State) (b : Nat) : RunGoesOn s (s.measBarDone b) := by
  unfold State.measBarDone
  extract_lets u hdg v w
  have done : RunGoesOn s v := (s.measClassify_goesOn b).trans (.hdg rfl (.inl rfl))
  exact .ite .refl (.ite done ((done.trans (.hdg (x := { v.hdg with phase := 2 }) rfl (.inr rfl))).trans (.of_moves State.setNum_moves)))

theorem State.measLaneDone_goesOn (s : State) (l : Nat) : RunGoesOn s (s.measLaneDone l) := by
  unfold State.measLaneDone
  extract_lets woken u v
  have ended : Moves [.sent, .hlk] s v := .ite (.after State.laneIdle_moves State.modLane_moves.mono) State.modLane_moves.mono
  exact (RunGoesOn.of_moves ended).trans (State.measBarDone_goesOn ..)

theorem State.measGo_goesOn (s : State) (l : Nat) (o : Option (Nat × Nat × Nat)) : RunGoesOn s (s.measGo l o) := by
  cases o with
  | none => exact s.measLaneDone_goesOn l
  | some o => exact .of_moves State.measSend_moves

/-- A lane whose list has ended waits for no MEAS. -/
theorem State.measLaneDone_meas (s : State) {l : Nat} (hl : l < 32) : ((s.measLaneDone l).lane l).meas = none := by
  unfold State.measLaneDone
  extract_lets woken u v
  have cleared : (u.lane l).meas = none := congrArg Hln.meas (s.lane_modLane_self hl _)
  have idle : (v.lane l).meas = none := by
    unfold v
    split
    · exact (State.laneIdle_meas ..).trans cleared
    · exact cleared
  exact (congrArg Hln.meas (State.lane_congr (State.measBarDone_moves.same .hlk) l)).trans idle

/-- A lane that goes on waits for a MEAS that has been sent once, if for any. -/
theorem State.measGo_retried (s : State) {l : Nat} (hl : l < 32) (o : Option (Nat × Nat × Nat)) {p : MeasOut}
    (h : ((s.measGo l o).lane l).meas = some p) : p.retried = false := by
  cases o with
  | none => cases (s.measLaneDone_meas hl).symm.trans h
  | some o =>
    obtain ⟨n, tag, sent⟩ := s.measSend_meas hl o.1 o.2.1 o.2.2 false
    cases sent.symm.trans h
    rfl

/-! STAT_MEAS_RESULT_RECEIVED and MEAS_TIMEOUT. -/

/-- A result that matches the MEAS a lane waits for: tag, first element, count, kind and head (R289). -/
structure MeasOut.MetBy (o : MeasOut) (r : MeasResult) : Prop where
  tag : r.tag.toNat = o.tag
  first : r.first.toNat = o.first
  count : r.count.toNat = o.count
  kind : r.kind.toNat = o.kind
  head : r.head.toNat = o.head

/-- The readings of a group stored, the lane waiting for no MEAS. -/
def State.measTaken (s : State) (l : Nat) (o : MeasOut) (r : MeasResult) : State :=
  (s.modLane l fun x => { x with meas := none }).measStoreAll l o.head o.first o.kind o.count (r.values.map (·.toNat))

theorem State.measTaken_moves {l : Nat} {r : MeasResult} : Moves [.hlk, .hdg] s (s.measTaken l o r) :=
  .after State.measStoreAll_moves State.modLane_moves.mono

/-- A group's readings change nothing of what comes after it. -/
theorem State.measTaken_measNext (s : State) (l : Nat) (o : MeasOut) (r : MeasResult) :
    (s.measTaken l o r).measNext l o = s.measNext l o := by
  refine State.measNext_congr ?_ (State.measTaken_moves.same .objs) o
  exact (congrArg Hln.cap (State.lane_congr (State.measStoreAll_moves.same .hlk) l)).trans
    (State.modLane_keeps Hln.cap s (by exact fun _ => rfl) l)

/-- Each reading of the result ends up at the address of its element (R288). -/
theorem State.measTaken_primary {r : MeasResult} {l a i : Nat} (hb : s.laneBar l < 8) (hi : i < o.count)
    (m : s.MapsTo l a o.head (o.first + i)) (hk : o.kind ≠ 3) :
    ((s.measTaken l o r).measRec (s.laneBar l) a).primary = (r.values.map (·.toNat)).getD i 0 := by
  unfold State.measTaken
  have objs : (s.modLane l fun x => { x with meas := none }).objs = s.objs := State.modLane_objs ..
  generalize (s.modLane l fun x => { x with meas := none }) = u at objs
  have bar : u.laneBar l = s.laneBar l := State.num_congr objs _ _
  rw [← bar] at hb ⊢
  exact State.measStoreAll_primary _ hb hi (m.congr objs) hk

/-- A lane that goes on with a further MEAS changes no record. -/
theorem State.measGo_some_measRec (s : State) (l : Nat) (o : Nat × Nat × Nat) (b a : Nat) :
    (s.measGo l (some o)).measRec b a = s.measRec b a :=
  State.measRec_congr (t := s.measSend l o false) (State.measSend_moves.same .hdg) b a

theorem State.measTaken_measGo_only (s : State) (l : Nat) (o : MeasOut) (r : MeasResult) (next : Nat × Nat × Nat) :
    Only [.sent, .hlk, .hdg] s ((s.measTaken l o r).measGo l (some next)) :=
  (Moves.after (v := (s.measTaken l o r).measSend l next false) State.measSend_moves State.measTaken_moves.mono).only

/-- A matching result with its values: they are stored, and the lane goes on. -/
theorem exec_measResult_measured {r : MeasResult} (h : (s.lane l.val).meas = some o) (m : o.MetBy r) (ok : r.result = 0) :
    exec (.statMeasResultReceived l r) s = .next ((s.measTaken l.val o r).measGo l.val (s.measNext l.val o)) := by
  have unfolded : exec (.statMeasResultReceived l r) s = execStatMeasResultReceived l r s := rfl
  have matching : ¬ (r.tag.toNat ≠ o.tag ∨ r.first.toNat ≠ o.first ∨ r.count.toNat ≠ o.count ∨ r.kind.toNat ≠ o.kind ∨
      r.head.toNat ≠ o.head) := by simp [m.tag, m.first, m.count, m.kind, m.head]
  rw [unfolded, execStatMeasResultReceived, h]
  dsimp only
  rw [if_neg matching, if_pos ok, ← s.measTaken_measNext l.val o r]
  rfl

/-- A result that the lane does not wait for is discarded (R289). -/
theorem exec_measResult_discarded {r : MeasResult} (h : ∀ o, (s.lane l.val).meas = some o → r.tag.toNat ≠ o.tag) :
    exec (.statMeasResultReceived l r) s = .next s := by
  have unfolded : exec (.statMeasResultReceived l r) s = execStatMeasResultReceived l r s := rfl
  rw [unfolded, execStatMeasResultReceived]
  split
  · rfl
  · next o e => exact if_pos (.inl (h o e))

/-- A matching result of a group that is followed by another: the values are stored, and the next MEAS goes out (R288). -/
theorem measResult_next {r : MeasResult} {hd f k : Nat} (h : (s.lane l.val).meas = some o) (m : o.MetBy r) (ok : r.result = 0)
    (primary : o.kind ≠ 3) (hb : s.laneBar l.val < 8) (next : s.measNext l.val o = some (hd, f, k)) :
    ∃ t, exec (.statMeasResultReceived l r) s = .next t ∧ (∃ n tag, (t.lane l.val).meas = some ⟨hd, f, n, k, tag, false⟩) ∧
      (∀ a i, i < o.count → s.MapsTo l.val a o.head (o.first + i) →
        (t.measRec (s.laneBar l.val) a).primary = (r.values.map (·.toNat)).getD i 0) ∧ Only [.sent, .hlk, .hdg] s t := by
  have run := exec_measResult_measured h m ok
  rw [next] at run
  refine ⟨_, run, State.measSend_meas _ l.isLt .., fun a i hi at_ => ?_, State.measTaken_measGo_only s _ _ _ _⟩
  exact (congrArg MeasRec.primary (State.measGo_some_measRec ..)).trans (State.measTaken_primary hb hi at_ primary)

theorem exec_measTimeout_none (h : (s.lane l.val).meas = none) : exec (.measTimeout l) s = .next s := by
  have unfolded : exec (.measTimeout l) s = execMeasTimeout l s := rfl
  rw [unfolded, execMeasTimeout, h]

/-- A MEAS that stays unanswered once is sent again (R289). -/
theorem exec_measTimeout_resend (h : (s.lane l.val).meas = some o) (once : o.retried = false) :
    exec (.measTimeout l) s = .next (s.measSend l.val (o.head, o.first, o.kind) true) := by
  have unfolded : exec (.measTimeout l) s = execMeasTimeout l s := rfl
  rw [unfolded, execMeasTimeout, h]
  dsimp only
  rw [if_pos (by rw [once]; rfl)]

/-- A MEAS that stays unanswered twice: its group is timed out, F2B20h + l is raised, and the lane goes on (R289). -/
theorem exec_measTimeout_skip (h : (s.lane l.val).meas = some o) (twice : o.retried = true) :
    ∃ (u : State) (d : Bytes) (next : Option (Nat × Nat × Nat)), Moves [.hdg] s u ∧
      exec (.measTimeout l) s = .next ((u.raise (0x2B20 + l.val) 0 d).measGo l.val next) := by
  have unfolded : exec (.measTimeout l) s = execMeasTimeout l s := rfl
  rw [unfolded, execMeasTimeout, h]
  dsimp only
  rw [if_neg (by rw [twice]; decide)]
  exact ⟨_, _, _, State.measStatus_moves, rfl⟩

/-- After the second timeout F2B20h + l has been raised, and the lane waits for no MEAS that has been sent again. -/
theorem measTimeout_skips (h : (s.lane l.val).meas = some o) (twice : o.retried = true) :
    ∃ t, exec (.measTimeout l) s = .next t ∧ (s.takesReports → Raised (0x2B20 + l.val) 0 t) ∧
      (∀ p, (t.lane l.val).meas = some p → p.retried = false) ∧
      Only [.sent, .objs, .flt, .bbx, .wilwa, .fsq, .hlk, .hdg] s t := by
  obtain ⟨u, d, next, moved, run⟩ := exec_measTimeout_skip h twice
  refine ⟨_, run, fun takes => ?_, fun p => State.measGo_retried _ l.isLt next, execMeasTimeout_moves.only run⟩
  have raised := State.raise_raised (0x2B20 + l.val) 0 d (State.takesReports_congr (moved.same .pwr) (moved.same .flt) takes)
  exact (State.measGo_goesOn ..).raised _ _ raised

end Sys2Proof.Machine
end

section
/-! PROOFS. A measurement that starts (R284, R285, R288): what is refused, and the first MEAS of each trained lane. -/

set_option Elab.async false

namespace Sys2Proof.Machine

variable {s t u : State} {l k : Nat} {c : CapUp}

/-- A measurement of the bars of MeasBarMask opened: nothing is complete, no result is left (R284, R295). -/
def State.measOpened (s : State) : State :=
  forEach (barsOf (s.num 0x2B10 1)) (fun b s => { s with hdg := { s.hdg with results := vmod s.hdg.results b fun _ => [] } })
    { s with hdg := { s.hdg with phase := 1, pending := s.num 0x2B10 1, complete := 0,
                                 done := s.hdg.done &&& (255 - s.num 0x2B10 1), startTick := s.tick } }

/-- A lane that starts its list, is woken for it, or has nothing to measure (R285, R288, R289). -/
def State.measFirst (s : State) (l : Nat) : State :=
  if (s.lane l).version < 2 ∨ (s.laneHeads l).isEmpty then s.modLane l fun x => { x with measDone := true }
  else if (s.lane l).st = .eidle then (s.laneBurst l).modLane l fun x => { x with woken := true }
  else s.measBegin l

/-- A lane as a measurement finds it: no MEAS out, its list not done. -/
def Hln.measCleared (x : Hln) : Hln := { x with meas := none, measDone := false }

def State.lanesCleared (s : State) (lanes : List Nat) : State := forEach lanes (fun l s => s.modLane l Hln.measCleared) s

/-- The lanes of a measurement, each cleared and then started. -/
def State.lanesFirst (s : State) (lanes : List Nat) : State := forEach lanes (fun l s => s.measFirst l) (s.lanesCleared lanes)

/-- The lanes of the bars of MeasBarMask. -/
def State.measLanes (s : State) : List Nat := (barsOf (s.num 0x2B10 1)).flatMap s.measOpened.lanesOf

/-- What a start that is accepted does: bars that have nothing to measure are done at once. -/
def State.measStarted (s : State) : State :=
  let t := forEach (barsOf (s.num 0x2B10 1)) (fun b s => s.measBarDone b) (s.measOpened.lanesFirst s.measLanes)
  if (barsOf (s.num 0x2B10 1)).isEmpty then ({ t with hdg := { t.hdg with phase := 2 } } : State).setNum 0x2B10 5 0 else t

/-! Refused starts (R296, R383). -/

theorem State.measStart_bolted (h : s.boltedHdg = true) : s.measStart = .error 0x2B04F200 := if_pos h

theorem State.measStart_outside (hb : s.boltedHdg = false) (h : s.inStates [.configured, .held] = false ∨ s.mir.role = .standby) :
    s.measStart = .error 0x2B030100 :=
  (if_neg (by simp [hb])).trans (if_pos (by simpa using h))

section Accepted
variable (hb : s.boltedHdg = false) (hs : s.inStates [.configured, .held] = true) (hr : s.mir.role ≠ .standby)
include hb hs hr

theorem State.measStart_running (h : s.hdg.phase = 1) : s.measStart = .error 0x2B030300 :=
  (if_neg (by simp [hb])).trans ((if_neg (by simp [hs, hr])).trans (if_pos h))

/-- A start with every bar mapped and every lane TRAINED is accepted (R284). -/
theorem State.measStart_accepted (hp : s.hdg.phase ≠ 1)
    (ready : ∀ b ∈ barsOf (s.num 0x2B10 1), (s.map b).isEmpty = false ∧ ∀ l ∈ s.lanesOf b, (s.lane l).st = .trained) :
    s.measStart = .ok s.measStarted := by
  have mapped : ((barsOf (s.num 0x2B10 1)).find? fun b => (s.map b).isEmpty) = none :=
    List.find?_eq_none.2 fun b h => by simp [(ready b h).1]
  have trained : ((barsOf (s.num 0x2B10 1)).find? fun b => (s.lanesOf b).any fun l =>
      !((s.lane l).st == .trained || (s.pwr.dev == .held && (s.lane l).st == .eidle))) = none := by
    refine List.find?_eq_none.2 fun b h => ?_
    simp only [List.any_eq_true, not_exists, not_and]
    intro l hl
    simp [(ready b h).2 l hl]
  refine (if_neg (by simp [hb])).trans ((if_neg (by simp [hs, hr])).trans ((if_neg hp).trans ?_))
  rw [mapped]
  dsimp only
  rw [trained]
  rfl

end Accepted

/-! The run as it opens, and its bars. -/

theorem State.measOpened_moves : Moves [.hdg] s s.measOpened := .forEach (.hdg .refl) fun _ _ h => .hdg h

theorem State.measOpened_run (s : State) : s.measOpened.hdg.phase = 1 ∧ s.measOpened.hdg.startTick = s.tick :=
  forEach_keeps (P := fun t => t.hdg.phase = 1 ∧ t.hdg.startTick = s.tick) (fun _ _ _ h => h) ⟨rfl, rfl⟩

theorem State.mem_measLanes : l ∈ s.measLanes ↔ ∃ b ∈ barsOf (s.num 0x2B10 1), l ∈ s.lanesOf b := by
  have lanes : s.measOpened.lanesOf = s.lanesOf := funext (State.lanesOf_congr (State.measOpened_moves.same .objs))
  unfold State.measLanes
  rw [lanes, List.mem_flatMap]

/-! The lanes of a run. -/

/-- The lane waits for the first MEAS of its list (R288). -/
def State.MeasBegun (s : State) (l : Nat) (c : CapUp) : Prop :=
  (s.lane l).meas.map (fun o => (o.head, o.first, o.kind)) = some (0, 0, firstKind c)

theorem State.MeasBegun.congr (h : t.hlk = s.hlk) (k : s.MeasBegun l c) : t.MeasBegun l c := by
  unfold State.MeasBegun
  rwa [State.lane_congr h]

/-- All these lanes are TRAINED. -/
def State.AllTrained (s : State) (lanes : List Nat) : Prop := ∀ l ∈ lanes, (s.lane l).st = .trained

/-- A lane that is TRAINED and has something to measure, and has not begun or has just begun. -/
structure State.MeasDue (s : State) (l : Nat) (c : CapUp) : Prop where
  trained : (s.lane l).st = .trained
  version : 2 ≤ (s.lane l).version
  heads : s.laneHeads l ≠ []
  cap : (s.lane l).cap = some c
  begun : (s.lane l).meas = none ∧ (s.lane l).measDone = false ∨ s.MeasBegun l c

/-- What a TRAINED lane does first: it has nothing to measure, or starts its list. -/
theorem State.measFirst_trained (h : (s.lane l).st = .trained) : s.measFirst l =
    if (s.lane l).version < 2 ∨ (s.laneHeads l).isEmpty then s.modLane l fun x => { x with measDone := true } else s.measBegin l := by
  have awake : ¬ (s.lane l).st = .eidle := by rw [h]; decide
  unfold State.measFirst
  rw [if_neg awake]

/-- What a lane's measurement does is no matter of the other lanes, and of this one it changes only that measurement. -/
structure LaneOnly (l : Nat) (s t : State) : Prop where
  moves : Moves [.sent, .hlk] s t
  others : ∀ k, k ≠ l → t.lane k = s.lane k
  offMeas : ∀ k, (t.lane k).offMeas = (s.lane k).offMeas

theorem LaneOnly.modLane {f : Hln → Hln} (h : ∀ x, (f x).offMeas = x.offMeas) : LaneOnly l s (s.modLane l f) :=
  ⟨State.modLane_moves.mono, fun _ e => s.lane_modLane_ne e f, State.modLane_keeps Hln.offMeas s h⟩

theorem LaneOnly.st (h : LaneOnly l s t) (k : Nat) : (t.lane k).st = (s.lane k).st := (congrArg Hln.st (h.offMeas k) :)

theorem LaneOnly.allTrained {lanes : List Nat} (h : LaneOnly l s t) (trained : s.AllTrained lanes) : t.AllTrained lanes :=
  fun k hk => (h.st k).trans (trained k hk)

theorem State.measBegin_lane (s : State) (l : Nat) : LaneOnly l s (s.measBegin l) := by
  have same : LaneOnly l s s := ⟨.refl, fun _ _ => rfl, fun _ => rfl⟩
  unfold State.measBegin
  split
  · split
    · exact same
    · exact ⟨State.measSend_moves, fun _ e => s.measSend_lane_ne e _ _, s.measSend_offMeas _ _⟩
  · exact same

theorem State.measFirst_lane (h : (s.lane l).st = .trained) : LaneOnly l s (s.measFirst l) := by
  rw [State.measFirst_trained h]
  split
  · exact .modLane fun _ => rfl
  · exact s.measBegin_lane l

/-- A lane that is due begins with the first group of its first head, once (R288). -/
theorem State.measFirst_begun (hl : l < 32) (d : s.MeasDue l c) : (s.measFirst l).MeasBegun l c := by
  have measured : ¬ ((s.lane l).version < 2 ∨ (s.laneHeads l).isEmpty = true) := by
    simpa only [not_or, Nat.not_lt, List.isEmpty_iff] using And.intro d.version d.heads
  rw [State.measFirst_trained d.trained, if_neg measured, State.measBegin, d.cap]
  dsimp only
  split
  case isTrue out =>
    rcases d.begun with ⟨quiet, pending⟩ | begun
    · simp [quiet, pending] at out
    · exact begun
  case isFalse =>
    obtain ⟨n, tag, sent⟩ := s.measSend_meas hl 0 0 (firstKind c) false
    exact congrArg (Option.map _) sent

theorem State.measFirst_due (hl : l < 32) (h : (s.lane k).st = .trained) (d : s.MeasDue l c) : (s.measFirst k).MeasDue l c := by
  have step := State.measFirst_lane h
  have shape := step.offMeas l
  exact {
    trained := (step.st l).trans d.trained
    version := d.version.trans_eq (congrArg Hln.version shape :).symm
    heads := by rw [State.laneHeads_congr (step.moves.same .objs)]; exact d.heads
    cap := (congrArg Hln.cap shape :).trans d.cap
    begun := by
      by_cases e : l = k
      · subst e
        exact .inr (State.measFirst_begun hl d)
      · unfold State.MeasBegun
        rw [step.others l e]
        exact d.begun }

theorem State.lanesCleared_moves {lanes : List Nat} : Moves [.hlk] s (s.lanesCleared lanes) :=
  .forEach .refl fun _ _ h => .after State.modLane_moves h

theorem State.lanesCleared_offMeas (s : State) (lanes : List Nat) (k : Nat) :
    ((s.lanesCleared lanes).lane k).offMeas = (s.lane k).offMeas :=
  forEach_keeps (P := fun t => (t.lane k).offMeas = (s.lane k).offMeas)
    (fun _ _ t h => (State.modLane_keeps Hln.offMeas t (f := Hln.measCleared) (fun _ => rfl) k).trans h) rfl

theorem State.lanesCleared_trained {lanes : List Nat} (trained : s.AllTrained lanes) : (s.lanesCleared lanes).AllTrained lanes :=
  fun l hl => (congrArg Hln.st (s.lanesCleared_offMeas lanes l) :).trans (trained l hl)

/-- A lane whose measurement has been cleared waits for no MEAS and has its list before it. -/
theorem State.lanesCleared_waits (s : State) {lanes : List Nat} (h : l ∈ lanes) (hl : l < 32) :
    ((s.lanesCleared lanes).lane l).meas = none ∧ ((s.lanesCleared lanes).lane l).measDone = false := by
  have clears (t : State) : ((t.modLane l Hln.measCleared).lane l).meas = none ∧
      ((t.modLane l Hln.measCleared).lane l).measDone = false := by
    rw [t.lane_modLane_self hl]
    exact ⟨rfl, rfl⟩
  refine forEach_reaches (P := fun _ => True) (Q := fun t => (t.lane l).meas = none ∧ (t.lane l).measDone = false) h
    (fun _ _ _ h => h) (fun k _ t ht => ?_) (fun t _ => clears t) trivial
  by_cases e : l = k
  · subst e
    exact clears t
  · rwa [t.lane_modLane_ne e]

/-- What TRAINED lanes do first changes nothing but the lanes and what is sent. -/
theorem State.lanesFirst_moves {lanes : List Nat} (trained : s.AllTrained lanes) :
    Moves [.sent, .hlk] s (s.lanesFirst lanes) := by
  have still := State.lanesCleared_trained trained
  refine (forEach_keeps (P := fun t => Moves [.sent, .hlk] s t ∧ t.AllTrained lanes) (fun k hk t ⟨m, ready⟩ => ?_)
    ⟨State.lanesCleared_moves.mono, still⟩).1
  have step := State.measFirst_lane (ready k hk)
  exact ⟨.after step.moves m, step.allTrained ready⟩

/-- Each TRAINED lane that has something to measure begins with the first group of its first head (R288). -/
theorem State.lanesFirst_begun {lanes : List Nat} (trained : s.AllTrained lanes) (h : l ∈ lanes) (hl : l < 32)
    (version : 2 ≤ (s.lane l).version) (heads : s.laneHeads l ≠ []) (cap : (s.lane l).cap = some c) :
    (s.lanesFirst lanes).MeasBegun l c := by
  have shape := s.lanesCleared_offMeas lanes
  have still := State.lanesCleared_trained trained
  have due : (s.lanesCleared lanes).MeasDue l c := {
    trained := still l h
    version := version.trans_eq (congrArg Hln.version (shape l) :).symm
    heads := by rw [State.laneHeads_congr (State.lanesCleared_moves.same .objs)]; exact heads
    cap := (congrArg Hln.cap (shape l) :).trans cap
    begun := .inl (s.lanesCleared_waits h hl) }
  have goes (k : Nat) (hk : k ∈ lanes) (t : State) (p : t.AllTrained lanes ∧ t.MeasDue l c) :
      (t.measFirst k).AllTrained lanes ∧ (t.measFirst k).MeasDue l c :=
    ⟨(State.measFirst_lane (p.1 k hk)).allTrained p.1, State.measFirst_due hl (p.1 k hk) p.2⟩
  refine (forEach_reaches (P := fun t => t.AllTrained lanes ∧ t.MeasDue l c)
    (Q := fun t => (t.AllTrained lanes ∧ t.MeasDue l c) ∧ t.MeasBegun l c) h goes
    (fun k hk t ⟨p, begun⟩ => ⟨goes k hk t p, ?_⟩) (fun t p => ⟨goes l h t p, State.measFirst_begun hl p.2⟩) ⟨still, due⟩).2
  by_cases e : l = k
  · exact e ▸ State.measFirst_begun hl p.2
  · unfold State.MeasBegun
    rwa [(State.measFirst_lane (p.1 k hk)).others l e]

/-! The run as a whole. -/

section Run
variable (trained : s.AllTrained s.measLanes)
include trained

theorem State.measOpened_trained : s.measOpened.AllTrained s.measLanes := fun l h => by
  rw [State.lane_congr (State.measOpened_moves.same .hlk)]
  exact trained l h

theorem State.measStarted_moves : Moves [.sent, .objs, .flt, .bbx, .wilwa, .fsq, .hlk, .hdg] s s.measStarted := by
  unfold State.measStarted
  extract_lets t
  have opened : Moves [.sent, .hlk, .hdg] s (s.measOpened.lanesFirst s.measLanes) :=
    .after (State.lanesFirst_moves (State.measOpened_trained trained)) State.measOpened_moves.mono
  have ran : Moves [.sent, .objs, .flt, .bbx, .wilwa, .fsq, .hlk, .hdg] s t :=
    .forEach opened.mono fun _ _ h => .after State.measBarDone_moves h
  exact .ite (.after State.setNum_moves (.hdg ran)) ran

/-- The run that starts runs, or is complete at once; with no bar in the mask it is (R285, R295). -/
theorem State.measStarted_run : s.measStarted.hdg.startTick = s.tick ∧ (s.measStarted.hdg.phase = 1 ∨ s.measStarted.hdg.phase = 2) ∧
    (barsOf (s.num 0x2B10 1) = [] → s.measStarted.hdg.phase = 2) := by
  obtain ⟨phase, tick⟩ := s.measOpened_run
  unfold State.measStarted
  extract_lets t
  have goes : RunGoesOn s.measOpened t :=
    (RunGoesOn.of_moves (State.lanesFirst_moves (State.measOpened_trained trained))).trans (.forEach fun b u => u.measBarDone_goesOn b)
  have start : t.hdg.startTick = s.tick := goes.startTick.trans tick
  have runs := goes.phase (.inl phase)
  clear_value t
  split
  · exact ⟨start, .inr rfl, fun _ => rfl⟩
  · next covers => exact ⟨start, runs, fun empty => absurd (by rw [empty]; rfl) covers⟩

/-- The run has sent each lane that can be measured its first MEAS (R288). -/
theorem State.measStarted_begun (h : l ∈ s.measLanes) (hl : l < 32) (version : 2 ≤ (s.lane l).version) (heads : s.laneHeads l ≠ [])
    (cap : (s.lane l).cap = some c) : s.measStarted.MeasBegun l c := by
  have lane : s.measOpened.lane l = s.lane l := State.lane_congr (State.measOpened_moves.same .hlk) l
  have begun := State.lanesFirst_begun (State.measOpened_trained trained) h hl (by rwa [lane])
    (by rwa [State.laneHeads_congr (State.measOpened_moves.same .objs)]) (by rwa [lane])
  unfold State.measStarted
  extract_lets t
  have kept : t.hlk = (s.measOpened.lanesFirst s.measLanes).hlk :=
    Moves.same (ps := [.objs, .flt, .bbx, .wilwa, .fsq, .hdg]) (.forEach .refl fun _ _ h => .after State.measBarDone_moves h) .hlk
  refine State.MeasBegun.congr ?_ begun
  split <;> exact kept

end Run

end Sys2Proof.Machine
end

section
/-! PROOFS. The Writes that start, abandon and capture a measurement and that apply a pending map (R284, R287, R292, R294), and the
obligation O53. -/

set_option Elab.async false

namespace Sys2Proof.Machine

variable {s t u : State} {h : Hdr} {x : Session} {b : Nat}

/-- A Write that its object takes with an effect of its own: its answer, the shadow that the effect leaves, and the frame of both. -/
theorem WriteTaken.takesEffect {ps : List StatePart} {c : Instr} {i j : Nat} {v : Bytes} (w : WriteTaken s h i j v x)
    (hc : writeOf s c = some (h, i, j, 0, v)) (ha : (isAdminArea (i / 256) && i % 256 == 0 && j == 1) = false)
    (hk : ∀ d, findDesc i j = some d → hook x.now i j (d.value v) (s.heard x.sid) = some (.ok u))
    (m : Moves ps (s.heard x.sid) u) (h1 : .wilwa ∈ ps := by decide) (h2 : .sent ∈ ps := by decide) :
    ∃ t, exec c s = .next t ∧ Answered t 0x13 0 h.seq.toNat ∧ t.wilwa.shadow = u.wilwa.shadow ∧ Only [.wilwa, .sent] u t ∧
      Only ps s t := by
  obtain ⟨d, allowed⟩ := w.allowed
  have run := w.accepted.written hc ((State.write_none (s := s.heard x.sid) allowed.described allowed.writeError).trans
    (State.applyWrite_done ha (hk d allowed.described)))
  have answers := Answer.finish_only { type := 0x13, status := 0, payload := u16 i ++ u8 j ++ u8 0, state := u } x.now h.seq.toNat
  exact ⟨_, run, Answer.finish_answered .., rfl, answers,
    (((s.heard_only _).mono (by simpa using h1)).trans m.only).trans (answers.mono (by simp [h1, h2]))⟩

/-- What a Write of MeasCommand comes to. -/
theorem hook_measCommand {d : Desc} (hd : findDesc 0x2B10 2 = some d) {n : Nat} (hn : n < 256) (x : Session) (u : State) :
    hook x 0x2B10 2 (d.value (u8 n)) u = hookHdg 0x2B10 2 (.num n) u := by
  rw [Desc.value_num hd _ (by decide), u8, leNat_leBytes, Nat.mod_eq_of_lt (by simpa using hn)]
  rfl

theorem lt_of_mem_barsOf {m : Nat} (h : b ∈ barsOf m) : b < 8 := List.mem_range.1 (List.mem_filter.1 h).1

theorem lt_of_mem_lanesOf {l : Nat} (h : l ∈ s.lanesOf b) : l < 32 := List.mem_range.1 (List.mem_filter.1 h).1

/-! A start (R284). -/

theorem measStart_refused {e : Nat} (w : WriteTaken s h 0x2B10 2 (u8 1) x) (r : (s.heard x.sid).measStart = .error e) :
    Refused (.measStart h) h 0x13 e s :=
  w.hookRefused rfl (by decide) fun _ hd => (hook_measCommand hd (by decide) _ _).trans (congrArg some r)

/-- A start with every bar mapped and every lane TRAINED: the run begins, and each lane that can be measured has its first MEAS. -/
theorem measStart_starts (w : WriteTaken s h 0x2B10 2 (u8 1) x) (hb : s.boltedHdg = false)
    (hs : s.inStates [.configured, .held] = true) (hr : s.mir.role ≠ .standby) (hp : s.hdg.phase ≠ 1)
    (ready : ∀ b ∈ barsOf (s.num 0x2B10 1), (s.map b).isEmpty = false ∧ ∀ l ∈ s.lanesOf b, (s.lane l).st = .trained) :
    ∃ t, exec (.measStart h) s = .next t ∧ Answered t 0x13 0 h.seq.toNat ∧ t.hdg.startTick = s.tick ∧
      (t.hdg.phase = 1 ∨ t.hdg.phase = 2) ∧ (barsOf (s.num 0x2B10 1) = [] → t.hdg.phase = 2) ∧
      (∀ b ∈ barsOf (s.num 0x2B10 1), ∀ l ∈ s.lanesOf b, ∀ c, 2 ≤ (s.lane l).version → s.laneHeads l ≠ [] →
        (s.lane l).cap = some c → (t.lane l).meas.map (fun o => (o.head, o.first, o.kind)) = some (0, 0, firstKind c)) ∧
      Only [.sent, .objs, .flt, .bbx, .wilwa, .fsq, .hlk, .hdg] s t := by
  have lane (l : Nat) : (s.heard x.sid).lane l = s.lane l := State.lane_congr rfl l
  have listed {l : Nat} : l ∈ (s.heard x.sid).measLanes ↔ ∃ b ∈ barsOf (s.num 0x2B10 1), l ∈ s.lanesOf b := State.mem_measLanes
  have trained : (s.heard x.sid).AllTrained (s.heard x.sid).measLanes := fun l hl => by
    obtain ⟨b, hb, hl⟩ := listed.1 hl
    exact (congrArg Hln.st (lane l)).trans ((ready b hb).2 l hl)
  have accepted : (s.heard x.sid).measStart = .ok (s.heard x.sid).measStarted := State.measStart_accepted hb hs hr hp ready
  obtain ⟨start, runs, empty⟩ := State.measStarted_run trained
  obtain ⟨t, run, answered, -, rest, only⟩ := w.takesEffect (c := .measStart h) rfl (by decide)
    (fun _ hd => (hook_measCommand hd (by decide) _ _).trans (congrArg some accepted)) (State.measStarted_moves trained)
  have hdg : t.hdg = (s.heard x.sid).measStarted.hdg := rest .hdg (by decide)
  refine ⟨t, run, answered, by rw [hdg]; exact start, by rw [hdg]; exact runs, by rw [hdg]; exact empty,
    fun b hb l hl c version heads cap => ?_, only⟩
  exact State.MeasBegun.congr (rest .hlk (by decide))
    (State.measStarted_begun trained (listed.2 ⟨b, hb, hl⟩) (lt_of_mem_lanesOf hl) version heads cap)

/-! An abandoned run (R287). -/

theorem State.measAbandon_idle (h : s.hdg.phase ≠ 1) (cause : Nat) (w : WokenLane) : s.measAbandon cause w = s := if_pos h

/-- A run that is abandoned is so, with no bar pending. -/
theorem State.measAbandon_run (h : s.hdg.phase = 1) (cause : Nat) (w : WokenLane) :
    (s.measAbandon cause w).hdg.phase = 3 ∧ (s.measAbandon cause w).hdg.pending = 0 := by
  unfold State.measAbandon
  rw [if_neg (not_not.2 h)]
  extract_lets bars u v abandoned
  refine forRange_keeps (P := fun t => t.hdg.phase = 3 ∧ t.hdg.pending = 0) (fun l _ t ended => ?_) ⟨rfl, rfl⟩
  extract_lets woken y
  have still {z : State} (m : Moves [.sent, .objs, .hlk, .mir] t z) : z.hdg.phase = 3 ∧ z.hdg.pending = 0 := by
    have same : z.hdg = t.hdg := m.same .hdg
    rwa [same]
  have cleared : Moves [.sent, .objs, .hlk, .mir] t y := State.modLane_moves.mono
  refine still (.ite cleared ?_)
  split
  · split
    · exact .ite (.after State.sendOwner_moves cleared) cleared
    · exact .after State.laneIdle_moves cleared
    · exact cleared
  · exact .ite (.after State.modLane_moves cleared) cleared
  · exact cleared

theorem hookHdg_abandon (u : State) : hookHdg 0x2B10 2 (.num 2) u = some (.ok (u.measAbandon 2 .idle)) := rfl

/-- A running measurement abandoned by the host. -/
theorem measAbandon_ends (w : WriteTaken s h 0x2B10 2 (u8 2) x) (hp : s.hdg.phase = 1) :
    ∃ t, exec (.measAbandon h) s = .next t ∧ Answered t 0x13 0 h.seq.toNat ∧ t.hdg.phase = 3 ∧ t.hdg.pending = 0 ∧
      Only [.sent, .objs, .flt, .bbx, .wilwa, .hlk, .hdg, .mir] s t := by
  obtain ⟨phase, pending⟩ := State.measAbandon_run (s := s.heard x.sid) hp 2 .idle
  obtain ⟨t, run, answered, -, rest, only⟩ := w.takesEffect (c := .measAbandon h)
    (ps := [.sent, .objs, .flt, .bbx, .wilwa, .hlk, .hdg, .mir]) rfl (by decide)
    (fun _ hd => (hook_measCommand hd (by decide) _ _).trans (hookHdg_abandon _)) State.measAbandon_moves.mono
  have hdg : t.hdg = ((s.heard x.sid).measAbandon 2 .idle).hdg := rest .hdg (by decide)
  exact ⟨t, run, answered, by rw [hdg, phase], by rw [hdg, pending], only⟩

/-- Where no measurement runs there is nothing to abandon. -/
theorem measAbandon_nothing (w : WriteTaken s h 0x2B10 2 (u8 2) x) (hp : s.hdg.phase ≠ 1) :
    ∃ t, exec (.measAbandon h) s = .next t ∧ Answered t 0x13 0 h.seq.toNat ∧ Only [.wilwa, .sent] s t := by
  have idle : (s.heard x.sid).measAbandon 2 .idle = s.heard x.sid := State.measAbandon_idle (s := s.heard x.sid) hp 2 .idle
  have nothing := hookHdg_abandon (s.heard x.sid)
  rw [idle] at nothing
  obtain ⟨t, run, answered, -, -, only⟩ := w.takesEffect (c := .measAbandon h) (ps := [.wilwa, .sent]) rfl (by decide)
    (fun _ hd => (hook_measCommand hd (by decide) _ _).trans nothing) .refl
  exact ⟨t, run, answered, only⟩

/-! A baseline (R294). -/

/-- What the capture of a baseline takes of a bar's results: Primary and Leakage, 0 where an address was not measured (R294). -/
def State.capturedBaseline (s : State) (b : Nat) : Bytes :=
  (List.range (s.map b).length).flatMap fun a =>
    if (s.measRec b a).status = 0 then u16 (s.measRec b a).primary ++ u16 (s.measRec b a).leak else u32 0

/-- A bar's results put in the shadow of its Baseline. -/
def State.captureBaseline (s : State) (b : Nat) : State :=
  { s with wilwa := { s.wilwa with shadow := kvPut s.wilwa.shadow (key 0x2B12 (b + 1)) (.bytes (s.capturedBaseline b)) } }

/-- The bars of MeasBarMask captured. -/
def State.captureBaselines (s : State) : State := forEach (barsOf (s.num 0x2B10 1)) (fun b s => s.captureBaseline b) s

theorem State.captureBaselines_moves : Moves [.wilwa] s s.captureBaselines := .forEach .refl fun _ _ h => .wilwa h

theorem State.measBaseline_running (h : s.hdg.phase = 1) : s.measBaseline = .error 0x2B030300 := if_pos h

theorem State.measBaseline_done (h : s.hdg.phase ≠ 1) (done : ∀ b ∈ barsOf (s.num 0x2B10 1), bit s.hdg.done b = true) :
    s.measBaseline = .ok s.captureBaselines := by
  have complete : ((barsOf (s.num 0x2B10 1)).find? fun b => !bit s.hdg.done b) = none :=
    List.find?_eq_none.2 fun b h => by simp [done b h]
  refine (if_neg h).trans ?_
  rw [complete]
  rfl

theorem State.capturedBaseline_congr (ho : t.objs = s.objs) (hg : t.hdg = s.hdg) (b : Nat) :
    t.capturedBaseline b = s.capturedBaseline b := by
  unfold State.capturedBaseline
  simp only [State.map_congr ho, State.measRec_congr hg]

/-- The Baseline shadow of each bar of the mask is what was captured of it. -/
theorem State.captureBaselines_shadow (h : b ∈ barsOf (s.num 0x2B10 1)) :
    kvGet s.captureBaselines.wilwa.shadow (key 0x2B12 (b + 1)) = some (.bytes (s.capturedBaseline b)) := by
  have captures (t : State) (same : t.objs = s.objs ∧ t.hdg = s.hdg) :
      kvGet (t.captureBaseline b).wilwa.shadow (key 0x2B12 (b + 1)) = some (.bytes (s.capturedBaseline b)) := by
    rw [← State.capturedBaseline_congr same.1 same.2]
    exact kvGet_kvPut_self ..
  refine (forEach_reaches (f := fun b s => s.captureBaseline b) (P := fun t => t.objs = s.objs ∧ t.hdg = s.hdg)
    (Q := fun t => (t.objs = s.objs ∧ t.hdg = s.hdg) ∧
      kvGet t.wilwa.shadow (key 0x2B12 (b + 1)) = some (.bytes (s.capturedBaseline b))) h (fun _ _ _ same => same)
    (fun k hk t ⟨same, got⟩ => ⟨same, ?_⟩) (fun t same => ⟨same, captures t same⟩) ⟨rfl, rfl⟩).2
  by_cases e : b = k
  · exact e ▸ captures t same
  · have apart : key 0x2B12 (b + 1) ≠ key 0x2B12 (k + 1) := fun same => by
      have inj := key_inj (by have := lt_of_mem_barsOf h; omega) (by have := lt_of_mem_barsOf hk; omega) same
      omega
    exact (kvGet_kvPut_ne _ _ apart).trans got

/-- The results of complete runs captured as Baseline shadows. -/
theorem measCaptureBaseline_captures (w : WriteTaken s h 0x2B10 2 (u8 3) x) (hp : s.hdg.phase ≠ 1)
    (done : ∀ b ∈ barsOf (s.num 0x2B10 1), bit s.hdg.done b = true) :
    ∃ t, exec (.measCaptureBaseline h) s = .next t ∧ Answered t 0x13 0 h.seq.toNat ∧
      (∀ b ∈ barsOf (s.num 0x2B10 1),
        kvGet t.wilwa.shadow (key 0x2B12 (b + 1)) = some (.bytes (s.capturedBaseline b))) ∧ Only [.wilwa, .sent] s t := by
  have captured := State.measBaseline_done (s := s.heard x.sid) hp done
  obtain ⟨t, run, answered, shadow, -, only⟩ := w.takesEffect (c := .measCaptureBaseline h) (ps := [.wilwa, .sent]) rfl (by decide)
    (fun _ hd => (hook_measCommand hd (by decide) _ _).trans (congrArg some captured)) State.captureBaselines_moves.mono
  refine ⟨t, run, answered, fun b hb => ?_, only⟩
  have same : (s.heard x.sid).capturedBaseline b = s.capturedBaseline b := State.capturedBaseline_congr rfl rfl b
  rw [shadow, ← same]
  exact State.captureBaselines_shadow hb

/-! A pending map (R292). -/

theorem findDesc_pendingApply (b : Bar) : ((findDesc 0x2B19 (b.val + 1)).bind (·.ty.size)).isSome = true := by
  revert b
  decide

/-- What a Write of 1 to PendingApply comes to. -/
theorem hook_pendingApply (b : Bar) {d : Desc} (hd : findDesc 0x2B19 (b.val + 1) = some d) (x : Session) (u : State) :
    hook x 0x2B19 (b.val + 1) (d.value (u8 1)) u = some (u.pendingApply b.val) := by
  rw [Desc.value_num hd _ (findDesc_pendingApply b)]
  rfl

/-- A pending map applied: it becomes the shadow of NozzleMap, and is pending no more (R292). -/
def State.pendingApplied (s : State) (b : Nat) : State :=
  { s with wilwa := { s.wilwa with shadow := kvPut s.wilwa.shadow (key 0x2710 (b + 1)) (.bytes (vget s.hdg.pendingMap b [])) }
           hdg := { s.hdg with pendingValid := s.hdg.pendingValid - 2 ^ b } }

theorem State.pendingApplied_moves : Moves [.wilwa, .sent, .hdg] s (s.pendingApplied b) :=
  .hdg (u := { s with wilwa := (s.pendingApplied b).wilwa }) (.wilwa .refl)

theorem State.pendingApply_valid (h : bit s.hdg.pendingValid b = true) : s.pendingApply b = .ok (s.pendingApplied b) :=
  if_neg (by simp [h])

theorem State.pendingApply_invalid (h : bit s.hdg.pendingValid b = false) : s.pendingApply b = .error (0x2B030600 + b) :=
  if_pos (by simp [h])

/-- A pending map that is valid applied by the host. -/
theorem pendingApply_applies {b : Bar} (w : WriteTaken s h 0x2B19 (b.val + 1) (u8 1) x) (hv : bit s.hdg.pendingValid b.val = true) :
    ∃ t, exec (.pendingApply h b) s = .next t ∧ Answered t 0x13 0 h.seq.toNat ∧
      kvGet t.wilwa.shadow (key 0x2710 (b.val + 1)) = some (.bytes (vget s.hdg.pendingMap b.val [])) ∧
      t.hdg = { s.hdg with pendingValid := s.hdg.pendingValid - 2 ^ b.val } ∧ Only [.wilwa, .sent, .hdg] s t := by
  obtain ⟨t, run, answered, shadow, rest, only⟩ := w.takesEffect (c := .pendingApply h b) rfl (by simp [isAdminArea])
    (fun _ hd => (hook_pendingApply b hd _ _).trans (congrArg some (State.pendingApply_valid hv))) State.pendingApplied_moves
  exact ⟨t, run, answered, shadow ▸ kvGet_kvPut_self .., rest .hdg (by decide), only⟩

/-- Settles O53: each command is its object's hook or its event, with what it leaves of the run, the lanes and the records. -/
theorem headsAreMeasured : Obligations.HeadsAreMeasured := by
  unfold Obligations.HeadsAreMeasured
  refine ⟨fun s h x w => ⟨fun hb => ?_, fun hb ho => ?_, fun hb hs hr hp => ?_, measStart_starts w⟩,
    fun s h x w => ⟨measAbandon_ends w, measAbandon_nothing w⟩, fun s h x w => ⟨fun hp => ?_, measCaptureBaseline_captures w⟩,
    fun s h b x w => ⟨pendingApply_applies w, fun hv => ?_⟩,
    fun s l r o hd f k hm tag first count kind head ok primary hb next => ?_, fun s l r => exec_measResult_discarded,
    fun s l o hm => ⟨fun once => ?_, measTimeout_skips hm⟩, fun s l => exec_measTimeout_none⟩
  · exact measStart_refused w (State.measStart_bolted hb)
  · exact measStart_refused w (State.measStart_outside hb ho)
  · exact measStart_refused w (State.measStart_running hb hs hr hp)
  · exact w.hookRefused rfl (by decide) fun _ hd => (hook_measCommand hd (by decide) _ _).trans
      (congrArg some (State.measBaseline_running hp))
  · exact w.hookRefused rfl (by simp [isAdminArea]) fun _ hd => (hook_pendingApply b hd _ _).trans
      (congrArg some (State.pendingApply_invalid hv))
  · obtain ⟨t, run, ⟨n, mtag, sent⟩, stored, only⟩ := measResult_next hm ⟨tag, first, count, kind, head⟩ ok primary hb next
    exact ⟨t, run, by rw [sent]; rfl, fun a i ha hi at_ el => stored a i hi ⟨ha, at_, el⟩, only⟩
  · obtain ⟨n, tag, sent⟩ := s.measSend_meas l.isLt o.head o.first o.kind true
    exact ⟨_, exec_measTimeout_resend hm once, by rw [sent]; rfl, State.measSend_moves.only⟩

end Sys2Proof.Machine
end
